-- ==== Sys2Proof/Word.lean ====
section
/-!
DEFINITION. The word types of the KL-4064 model (00_scope, "Bits, bytes and reserved values", R2) and their plainest arithmetic.
-/
namespace Sys2Proof

/-- A byte. -/
abbrev Byte := BitVec 8

/-- A 32-bit register or descriptor word (R2: bit 0 is the least significant). -/
abbrev Word := BitVec 32

/-- A 64-bit field. -/
abbrev DWord := BitVec 64

/-- A 128-bit string: a serial, a GCM tag, a nonce. -/
abbrev QWord := BitVec 128

/-- A SHA-256 value or a 256-bit key. -/
abbrev Hash := BitVec 256

/-- A P-256 public key x ‖ y, a signature r ‖ s, or an XTS key K1 ‖ K2. -/
abbrev Wide := BitVec 512

/-- A tenant, T0 to T63 (07, "Tenants"). -/
abbrev Tid := Fin 64

/-- A queue pair of a tenant (07, "Queue pairs and doorbells"). -/
abbrev Qid := Fin 8

/-- A command tag (01, table "Operations in flight": 4,096 device-wide). -/
abbrev Tag := Fin 4096

/-- A PCIe function: 0 is PF0, n is VFn (05 R139, 06 R147). -/
abbrev Fn := Fin 64

end Sys2Proof
end

