-- ==== Sys2Proof/Syntax.lean ====
section
/-!
DEFINITION. The commands of the block: one constructor of `Instr` for each row of spec/opcode_table.json, in its order,
with the operands that come from outside the block (the host, the pins, the parts on the board, the fabric).
-/
namespace Sys2Proof

/-- Who makes a register access: the PF0 views, a VF's own page, or the I²C target (05 R119, 13 R410). -/
inductive Src where
  | pf0
  | vf (n : Fn)
  | i2c
deriving DecidableEq, Repr

/-- A register write: its source, its four byte enables (05 R120) and its value. -/
structure Wr where
  src : Src
  be  : BitVec 4
  val : Word
deriving DecidableEq, Repr

/-- A register read: its source and byte enables (05 R120). -/
structure Rd where
  src : Src
  be  : BitVec 4
deriving DecidableEq, Repr

/-- The three kinds of BAR space (05 R116, R117; the codes of ERR_ADDR [21:20], 05 R123). -/
inductive BarSpace where
  | pf0Bar0
  | pf0Bar2
  | vfBar0 (n : Fn)
deriving DecidableEq, Repr

/-- Through which doorbell a queue pair is named: PF0 BAR2 by tenant, or a VF's own BAR0 (05 R117). -/
inductive DbView where
  | pf0 (t : Tid)
  | vf (n : Fn)
deriving DecidableEq, Repr

/-- A descriptor as a fetch returned it: its bytes, and whether any completion of it was poisoned (06 R163). -/
structure FetchedDesc where
  bytes : Vector Byte 64
  ep    : Bool
deriving DecidableEq, Repr

/-- What a host read of a command fetched (06 R159, R161, R163). -/
inductive HostBuf where
  | data
  | header
  | dlist
deriving DecidableEq, Repr

/-- How a host read failed (06 R164). -/
inductive ReadFailure where
  | timeout
  | unsupported
  | completerAbort
deriving DecidableEq, Repr

/-- Errors that PCI Express Base 4.0 defines and the endpoint logs (06 R178). -/
inductive LinkError where
  | receiverError
  | badTlp
  | badDllp
  | replayTimeout
  | replayRollover
  | ecrc
  | malformed
  | overflow
  | flowControl
  | dataLinkProtocol
  | surpriseDown
deriving DecidableEq, Repr

/-- Kinds of request the endpoint completes with Unsupported Request (06 R148, R154, R173, R177), and the errors of the link itself. -/
inductive UrKind where
  | atomicOp
  | ioRequest
  | memRead
  | memWrite
  | link (e : LinkError)
deriving DecidableEq, Repr

/-- The 64-bit base address registers: BAR0/BAR1, BAR2/BAR3, and VF BAR0/BAR1 of the SR-IOV capability (06 R149). -/
inductive BarReg where
  | bar0
  | bar2
  | vfBar0
deriving DecidableEq, Repr

/-- A configuration request: a read of a doubleword, or a write of a field that has no row of its own (06 R147 to R154, R169, R178); and a
write of address or data of an MSI-X table entry, doubleword 0 to 2, a memory write (05 R120). -/
inductive CfgReq where
  | read (dword : BitVec 10)
  | setMse (b : Bool)
  | setEro (b : Bool)
  | setAspmL1 (b : Bool)
  | setPmeEn (b : Bool)
  | setMps (v : BitVec 3)
  | setMrrs (v : BitVec 3)
  | setBar (r : BarReg) (upper : Bool) (v : Word)
  | setExtTag (b : Bool)
  | setTimeout (value : BitVec 4) (disable : Bool)
  | setLtr (b : Bool)
  | setTag10 (b : Bool)
  | setL1ss (enables : BitVec 4)
  | setEcrc (generate check : Bool)
  | msixWrite (vec : Fin 72) (dw : Fin 3) (be : BitVec 4) (v : Word)
  | setMsi (addr : DWord) (data : Word)
  | maskVector (msix : Bool) (vec : Fin 72)
  | leaveD3hot
  | aerMask (correctable : Bool) (mask : Word)
  | aerClear (correctable : Bool) (bits : Word)
  | aerSeverity (v : Word)
deriving DecidableEq, Repr

/-- The interrupt-mode bits of a function (06 R155, R158). -/
structure IntCfg where
  msixEn   : Bool
  msixMask : Bool
  msiEn    : Bool
  mme      : BitVec 3
deriving DecidableEq, Repr

/-- What a routed NAND target answered at step 10 (04 R95), whether its calibration found a window (09 R265), and the die blocks, by LUN and
number, whose factory bad-block marker is set (09 R297). -/
structure TargetResult where
  ch        : Fin 8
  ce        : Fin 8
  resetDone : Bool
  id        : DWord
  calibrated : Bool
  marked    : List (Fin 4 × Nat)
deriving DecidableEq, Repr

/-- The passing taps of one byte lane's two sweeps, bit k for tap k (10 R314). -/
structure LaneSweep where
  rd : BitVec 128
  wr : BitVec 128
deriving DecidableEq, Repr

/-- What ends Lull (03 R71). -/
inductive WakeEvent where
  | doorbell
  | access
  | eventPulse
  | pfail
  | packet
  | timer
deriving DecidableEq, Repr

/-- How a codeword of a page read settled (09 R276): by hard decode at the default levels, after n re-reads, not by the
hard decoder, or after a decode whose CRC-32C failed. -/
inductive HardResult where
  | ok
  | reread (n : Fin 16)
  | failed
  | crcFailed
deriving DecidableEq, Repr

/-- How the soft decode of a codeword ended (09 R276): with 2-bit soft information after 2 extra reads, with 3-bit information after 4 more, or
not at all. -/
inductive SoftResult where
  | twoBit | threeBit | failed
deriving DecidableEq, Repr

/-- The two cipher pipes (08, "The pipes"). -/
inductive Pipe where
  | x
  | g
deriving DecidableEq, Repr

/-- The entropy health tests (08 R251). -/
inductive HealthTest where
  | repetition
  | proportion
deriving DecidableEq, Repr

/-- The four map walkers, in the fixed order of 01 R26. -/
inductive Walker where
  | host
  | mirror
  | eddy
  | gc
deriving DecidableEq, Repr

/-- The two buffer pools (10 R333). -/
inductive Pool where
  | sram
  | dram
deriving DecidableEq, Repr

/-- Owner codes of a buffer trailer (10 R334). -/
inductive Owner where
  | none | ingest | egress | pipeX | pipeG | stream | nfc (n : Fin 8)
  | ldpc | xpar | eddy | gc | mirror | fabric | seal | firmware | squall
deriving DecidableEq, Repr

/-- The memories whose words carry check bits (10 R311, R323). -/
inductive MemKind where
  | dram | dataSram | handoff | coreLocal
deriving DecidableEq, Repr

/-- A word the patrol or an access found in error (10 R311, R322, R323). -/
structure WordError where
  mem           : MemKind
  addr          : DWord
  uncorrectable : Bool
deriving DecidableEq, Repr

/-- A failing row found by the march engine (10 R331): bank and row. -/
structure FailRow where
  bank : Nat
  row  : Nat
deriving DecidableEq, Repr

/-- What the PMIC answered one script entry: a NACK, or the bytes read (13 R415, R416). -/
inductive PmicAnswer where
  | nack
  | bytes (b : List Byte)
deriving DecidableEq, Repr

/-- A packet header of 14 R440, field by field. -/
structure PktHdr where
  dest   : BitVec 16
  src    : BitVec 16
  type   : Byte
  vc     : BitVec 2
  hops   : BitVec 6
  len    : BitVec 13
  txn    : Byte
  flags  : Byte
  tenant : Byte
  epoch  : Byte
  seq    : Word
  tag    : QWord
deriving DecidableEq, Repr

/-- COPY_RSP outcomes (14 R454 to R456). -/
inductive CopyAnswer where
  | accepted (zone : BitVec 20)
  | held (zone : BitVec 20)
  | refused (cause : Byte)
deriving DecidableEq, Repr

/-- COPY_DATA contents: a tag-log entry with its header, or one 4 KiB block (14 R454). -/
inductive CopyItem where
  | entry (bytes : List Byte) (header : List Byte)
  | block (index : Nat) (bytes : List Byte)
deriving DecidableEq, Repr

/-- MIR_STATE contents (14 R461). -/
inductive MirItem where
  | finish (t : Tid) (zone : BitVec 20)
  | hold (t : Tid) (zone : BitVec 20)
  | release (t : Tid) (zone : BitVec 20)
  | seal (t : Tid) (zone : BitVec 20) (record : List Byte)
  | recycle (t : Tid) (zone : BitVec 20)
  | event (record : List Byte)
  | meter (accs : List DWord) (total : DWord)
  | owner (slots : List Hash) (lock : Bool)
deriving DecidableEq, Repr

/-- A replicated append (14 R461): zone, tag-log entry fields, header and ciphertext. -/
structure MirAppend where
  tenant  : Tid
  epoch   : Byte
  zone    : BitVec 20
  gen     : Word
  index   : DWord
  offset  : Nat
  len     : Nat
  header  : List Byte
  tag     : QWord
  keyId   : Word
  opTime  : Word
  cycles  : Word
  gust    : Bool
  head    : Hash
  cipher  : List Byte
deriving DecidableEq, Repr

/-- A checkpoint of one tenant: chain index and H (14 R468). -/
structure Checkpoint where
  tenant : Tid
  index  : DWord
  head   : Hash
deriving DecidableEq, Repr

/-- MIR_SYNC_RSP contents, per tenant: the agreement point and whether the histories diverged (14 R469). -/
structure SyncVerdict where
  tenant   : Tid
  point    : DWord
  diverged : Bool
  done     : Bool
deriving DecidableEq, Repr

/-- Debug module accesses of the CORES scope (15 R490). -/
inductive DmiOp where
  | halt (core : Fin 4)
  | resume (core : Fin 4)
  | singleStep (core : Fin 4)
  | setTrigger (core : Fin 4) (slot : Fin 4) (trigger : Option DWord)
  | readReg (core : Fin 4) (regno : BitVec 16)
  | writeReg (core : Fin 4) (regno : BitVec 16) (v : DWord)
  | busRead (addr : DWord)
  | busWrite (addr : DWord) (v : Word)
deriving DecidableEq, Repr

/-- SEQDBG accesses (15 R491). The engine is NFC0–NFC7, 8 the fabric and 9 the housekeeping micro-engine. -/
inductive SeqOp where
  | halt
  | resume
  | step
  | setBreak (addr : Option Word)
  | readAddr
deriving DecidableEq, Repr

/-- The commands of the block, one for each row of the table of operations and events. -/
inductive Instr where
  -- 07: doorbells, fetch and completion
  | submissionTailDoorbell (v : DbView) (q : Qid) (be : BitVec 4) (val : Word)
  | completionHeadDoorbell (v : DbView) (q : Qid) (be : BitVec 4) (val : Word)
  | descriptorFetch (ds : List FetchedDesc)
  | completionEntryWrite (tag : Tag)
  -- 07: I/O opcodes
  | read (tag : Tag)
  | write (tag : Tag)
  | append (tag : Tag)
  | appendAcknowledgement (tag : Tag)
  | flush (tag : Tag)
  | trim (tag : Tag)
  | zoneOpen (tag : Tag)
  | zoneFinish (tag : Tag)
  | zoneHold (tag : Tag)
  | zoneRelease (tag : Tag)
  | zoneSeal (tag : Tag)
  | zoneReport (tag : Tag)
  | verify (tag : Tag)
  | remoteCopy (tag : Tag)
  -- 07: admin opcodes
  | identify (tag : Tag)
  | queueCreate (tag : Tag)
  | queueDelete (tag : Tag)
  | keyLoad (tag : Tag)
  | keyPageChange (t : Tid)
  | keyClear (tag : Tag)
  | featureHoldMinutesGet (tag : Tag)
  | featureHoldMinutesSet (tag : Tag)
  | featureDisplayItemGet (tag : Tag)
  | featureDisplayItemSet (tag : Tag)
  | featureBudgetGet (tag : Tag)
  | logReadEventRecords (tag : Tag)
  | logReadZoneResetLog (tag : Tag)
  | meterReadTenant (tag : Tag)
  | meterReadAll (tag : Tag)
  | meterReadLoadProfile (tag : Tag)
  | getNonce (tag : Tag)
  | setHost (tag : Tag)
  | setSigned (tag : Tag)
  | nonceLapse
  | signedLapse
  | imageStage (tag : Tag)
  | imageCommit (tag : Tag)
  | getChallenge (tag : Tag)
  | enrol (tag : Tag)
  | lockUpdates (tag : Tag)
  | unlockUpdates (tag : Tag)
  | transfer (tag : Tag)
  | challengeLapse
  | sealExportSealRecord (tag : Tag)
  | sealExportZoneEntries (tag : Tag)
  | sealExportChain (tag : Tag)
  | zoneEraseSigned (tag : Tag)
  -- 07: tenant reset and tenant registers
  | tenantReset (t : Tid) (w : Wr)
  | tenantResetPipesDrained (t : Tid)
  | aqEnable (t : Tid) (w : Wr)
  -- 05: features, interrupts, locks
  | devFeatAccept (upper : Bool) (w : Wr)
  | devCtrlFeatLock (w : Wr)
  | tntFeatAccept (t : Tid) (w : Wr)
  | tntCtrlFeatLock (t : Tid) (w : Wr)
  | tntHoldMinutes (t : Tid) (w : Wr)
  | intStatusW1c (page : Fin 128) (w : Wr)
  | intEnableWrite (page : Fin 128) (w : Wr)
  | intForce (page : Fin 128) (w : Wr)
  | lock (page : Fin 128) (w : Wr)
  | irqRoute (n : Fin 576) (w : Wr)
  | interruptMessage (fn : Fn) (vec : Fin 72)
  -- 03: resets and probe by register
  | softwareReset (w : Wr)
  | causeAck (w : Wr)
  | probeNow (w : Wr)
  -- 04: ROM recovery
  | updRcvStart (w : Wr)
  | updRcvChunk (w : Wr) (data : List Byte) (failed : Bool)
  | updRcvFinish (w : Wr) (otpGood : Bool)
  | updRcvAbort (w : Wr)
  | recoveryFrameStart (hdr : Word) (payload : List Word) (crc : Word)
  | recoveryFrameData (hdr : Word) (payload : List Word) (crc : Word)
  | recoveryFrameFinish (hdr : Word) (payload : List Word) (crc : Word) (otpGood : Bool)
  | recoveryFrameStatus (hdr : Word) (payload : List Word) (crc : Word)
  -- 10: march test
  | sramMarchStart (w : Wr)
  | marchDone (fails : List FailRow)
  -- 13: QSPI and the SPI target
  | qspiGo (w : Wr)
  | qspiFrameStart
  | frameDone (rd : List Byte)
  | spitTxData (w : Wr)
  | spitRxPop (w : Wr)
  | spitCtrl (w : Wr)
  | spitWordReceived (word : Word)
  | spitWordTake (first : Bool)
  | spitCsRise (withinWord : Bool)
  -- 14: register commands
  | installFleet (w : Wr)
  | installCert (w : Wr)
  | vfrRreqGo (w : Wr)
  -- capture reads
  | pwrBudgetAudit0 (r : Rd)
  | hqmTagAudit0 (r : Rd)
  | medSlotAudit0 (r : Rd)
  | bpmAudit0 (r : Rd)
  | vflCreditAudit (n : Fin 4) (r : Rd)
  | mtrAudit0 (r : Rd)
  | mtrUtcLo (r : Rd)
  | mtrAccLo (r : Rd)
  | sealIndexLo (r : Rd)
  | evrNextSeqLo (r : Rd)
  | mirPlogData0 (r : Rd)
  -- 05: other register accesses
  | registerWrite (page : Fin 128) (off : BitVec 12) (w : Wr)
  | reservedAccess (space : BarSpace) (off : BitVec 20) (be : BitVec 4) (read : Bool)
  -- 06: the endpoint
  | perstAssert
  | perstRelease
  | hotReset
  | linkDown
  | linkUp (speed : BitVec 3) (width : BitVec 3)
  | flr (fn : Fn)
  | vfEnableSet (numVfs : Fin 64) (ari : Bool)
  | vfEnableClear
  | busMasterEnableClear (fn : Fn)
  | busMasterEnableSet (fn : Fn)
  | interruptModeChange (fn : Fn) (cfg : IntCfg)
  | vectorUnmask (fn : Fn) (msix : Bool) (vec : Fin 72)
  | interruptDisable (on : Bool)
  | d3hotEntry (fn : Fn)
  | configurationRequest (fn : Fn) (req : CfgReq)
  | poisonedMemoryWrite (space : BarSpace)
  | unsupportedRequest (fn : Fn) (kind : UrKind)
  | hostReadCompletion (tag : Tag) (buf : HostBuf) (off : Nat) (bytes : List Byte) (ep : Bool)
  | completionTimeout (tag : Tag) (why : ReadFailure)
  | staleCompletion (rtag n : Nat) (ep : Bool)
  | aspmL1Entry (clkreqHigh : Bool)
  -- 02, 03: resets, straps, clocks, power fail
  | powerOnReset
  | resetInLAssert (lowNs : Nat)
  | resetRelease
  | strapSampling (s1 s2 s3 : BitVec 6)
  | crystalMonitorWindow (count : BitVec 16) (noEdge : Bool) (pllLost : Bool)
  | crystalMonitorTrip
  | pfailLFall
  | vsupConversion (mV : Nat)
  | watchdogExpiry
  | squallStepEnd (hung : List (Fin 256))
  | squallRestart (pfailHigh : Nat)
  | thermalRestart
  -- 03: domains, Lull, hold-up probe
  | lullEntry
  | lullExit (ev : WakeEvent)
  | domainGate (d : Fin 5)
  | domainPowerDown (d : Fin 5)
  | domainWake (d : Fin 5)
  | fabWakeProbe (locks : BitVec 4)
  | holdupProbe (answer : PmicAnswer)
  | loadPulse (v0mV : Nat) (answer : PmicAnswer)
  | probeComplete (vAuV : Nat) (slopeMVs : Nat) (answer : PmicAnswer)
  -- 04: start-up
  | nandIdCheck (rs : List TargetResult)
  | dramTrainingDone (lanes : Vector LaneSweep 5) (mr : List Byte) (gib : Nat) (timeUs : Nat)
  | extendedPartLoaded
  | gust (kat : BitVec 5)
  | powerFailReplay
  | gustMerge (zone : BitVec 20)
  | full
  | recovery (cause : Byte) (detail : Byte)
  -- 09: flash
  | flashIssue (die : Fin 256)
  | eraseResume (die : Fin 256)
  | flashProgramDone (op : Nat) (pass : Bool)
  | flashEraseDone (op : Nat) (pass : Bool)
  | flashReadDone (op : Nat) (r : HardResult)
  | softDecode (r : SoftResult)
  | stripeParityRebuild (op : Nat) (ok : Bool)
  | sealChainStep (tag : Tag)
  | bufferPlacement (tag : Tag)
  | mapJournalWrite
  | eddyFold
  | foldMapUpdate
  | refresh (sb : Nat)
  | scrub (sb : Nat)
  | garbageCollection (group : Fin 16)
  | mapLineRequest (line : Nat) (ws : List Walker)
  | mapLineRecall (line : Nat)
  | writebackDone (line : Nat)
  -- 10: buffers
  | bufferAllocate (o : Owner) (tag : Tag) (markerOk : Bool)
  | listRebuildEnd (p : Pool)
  | bufferHandoff (h : Nat) (fromO toO : Owner) (takes : Bool)
  | bufferFree (h : Nat) (o : Owner)
  -- 08: cipher, masks, entropy
  | parityMismatch (p : Pipe) (stage : Fin 28)
  | maskStarved (p : Pipe)
  | laneReseed (lane : Fin 112)
  | drbgReseed
  | healthTestFailure (test : HealthTest)
  -- 10: DRAM
  | refreshDue
  | refreshPayback
  | patrolScrub (errors : List WordError)
  -- 11, 12: records, meter, display
  | evrProgrammingPass
  | evrPassEnd
  | meterMinuteSample
  | quarterHourBoundary
  | displayDwellSecond
  | hostItemExpired
  -- 13: discrete inputs, I²C
  | eventInPulse
  | motionChange (level : Bool)
  | gpioInputEdge (n : Fin 4) (level : Bool)
  | pointer (window : Byte) (addr : Word) (pecOk : Bool)
  | write32 (off : Word) (val : Word) (pecOk : Bool)
  | meterReq (tenant : Byte) (nonce : QWord) (pecOk : Bool)
  | readN (n : Byte) (pecOk : Bool)
  | i2cRead (n : Nat)
  | alertResponse
  | sclTimeout
  | scriptEntry (index : Fin 20) (answer : PmicAnswer)
  | statusPoll (answer : PmicAnswer)
  | entryRetry (answer : PmicAnswer)
  | stuckBusRecovery (freedAfter : Option (Fin 10))
  | stuckRetry (freedAfter : Option (Fin 10))
  -- 14: fabric
  | blockLock (port : Fin 4)
  | hello (port : Fin 4) (cert : List Byte) (eph : Wide)
  | confirm (port : Fin 4) (sig : Wide)
  | bringupTimeout (port : Fin 4)
  | linkRetry (port : Fin 4)
  | rekey (port : Fin 4)
  | packetReceive (port : Fin 4) (h : PktHdr) (payload : List Byte)
  | creditBlock (port : Fin 4) (vc0 vc1 vc2 : BitVec 6)
  | nadv (port : Fin 4) (payload : Vector Byte 128)
  | advertisementOriginate
  | advertisementExpiry
  | routeComputation
  | transactionTimeout (port : Fin 4) (txn : Fin 256)
  | stuckPacketDrop (port : Fin 4)
  | copyOpen (src : BitVec 16) (tenant : Byte) (cert : List Byte) (record : Vector Byte 256)
  | copyRsp (tag : Tag) (a : CopyAnswer)
  | copyData (src : BitVec 16) (item : CopyItem)
  | copyClose (src : BitVec 16)
  | rreadReq (src : BitVec 16) (kind : Bool) (seq : DWord) (n : Fin 33)
  | rreadRsp (refusedByNode : Bool) (bytes : List Byte)
  | mirBeat (marks : List Checkpoint)
  | mirBeatSend
  | partnerSilence
  | mirAppend (a : MirAppend)
  | mirAccept (t : Tid) (index : DWord) (refusedSpace : Bool)
  | mirState (item : MirItem)
  | mirRetract (t : Tid) (index : DWord)
  | mirSyncReq (cps : List Checkpoint)
  | mirSyncRsp (vs : List SyncVerdict)
  | powerLoss
  | spaceRetry
  -- 15: housekeeping, life, debug
  | housekeepingSlot (reading : Int) (diodeOk : Bool)
  | housekeepingRound (mr4 : Vector Byte 2)
  | ageingHour
  | operatingHour
  | tapInstruction (code : BitVec 5)
  | unlock (token : Vector Byte 176)
  | dmi (op : DmiOp)
  | seqdbg (engine : Fin 10) (op : SeqOp)
  | blockLockLoss (port : Fin 4)
  | speedWidthChange (speed : BitVec 3) (width : BitVec 3) (ltssm : BitVec 5)
deriving DecidableEq, Repr

end Sys2Proof
end

