-- ==== Sys2Proof/Config.lean ====
section
/-!
DEFINITION. What an implementation or another standard fixes and this manual does not give: the cryptographic and check
functions the manual names by their standards, the constants production writes into OTP, and the source of free values.
Every constant here is uninterpreted: nothing in Lean can evaluate one, so no statement can rest on its value.
-/
namespace Sys2Proof.Config

/-- The source of free values (log entry 1). A step that needs a value the manual leaves open reads
`freeValue s.freeCtr` and advances `freeCtr`. -/
opaque freeValue : Nat → Hash

/-- SHA-256 (FIPS 180-4), named at 08 R249 (log entry 2). -/
opaque sha256 : List Byte → Hash
/-- HMAC-SHA-256, the PRF of the KDF of 08 R247. -/
opaque hmacSha256 : List Byte → List Byte → Hash
/-- XTS-AES-256 encryption of one data unit under K1 ‖ K2 with its data unit sequence number (08 R231). -/
opaque xtsEnc : Wide → QWord → List Byte → List Byte
/-- XTS-AES-256 decryption. -/
opaque xtsDec : Wide → QWord → List Byte → List Byte
/-- GCM counter-mode encryption under key and 12-byte IV (08 R232, R233). Decryption is the same function. -/
opaque gcmCtr : Hash → List Byte → List Byte → List Byte
/-- GCM tag over the additional authenticated data and the ciphertext (08 R233). -/
opaque gcmTag : Hash → List Byte → List Byte → List Byte → QWord
/-- ECDSA P-256 with SHA-256, verification of (r, s) over a message under a public key (FIPS 186-5; 08 R249). -/
opaque ecdsaVerify : Wide → List Byte → Wide → Bool
/-- Deterministic ECDSA P-256 signature of a message under a private scalar (08 R249). -/
opaque ecdsaSign : Hash → List Byte → Wide
/-- The P-256 public key of a private scalar. -/
opaque ecPub : Hash → Wide
/-- x-coordinate of the ECDH shared point (SP 800-56A; 08 R247). -/
opaque ecdh : Hash → Wide → Hash
/-- Whether x ‖ y is a valid P-256 point (08 R248, 04 R110). -/
opaque validPoint : Wide → Bool
/-- The compressed form (SEC 1) of a P-256 public key, 33 bytes (14 R435). -/
opaque compressPub : Wide → List Byte
/-- The public key of a compressed form. -/
opaque decompressPub : List Byte → Wide
/-- CRC-32 with the IEEE 802.3 polynomial (04 R101, R112). -/
opaque crc32 : List Byte → Word
/-- The PEC byte of an I²C transaction (SMBus 3.1, named at 13 R412). -/
opaque smbusPec : List Byte → Byte
/-- CRC-32C (09 R275, 11 R361, 14 R441). -/
opaque crc32c : List Byte → Word
/-- The 456 parity bytes of an LDPC codeword over its data and metadata (09, "Codewords and the recovery ladder"); the code itself is not given. -/
opaque ldpcParity : List Byte → List Byte

/-- The device unique secret (08 R250). -/
opaque deviceSecret : List Byte
/-- The 16-byte device serial, byte 0 in bits [7:0] (05 R145). -/
opaque serial : QWord
/-- OTP hardware type (04 R87). -/
opaque hwType : Word
/-- OTP hash of the Oxrus image key (04 R89). -/
opaque oxrusKeyHash : Hash
/-- OTP hash of the Oxrus debug key (15 R492). -/
opaque oxrusDebugKeyHash : Hash
/-- The Oxrus debug key itself, whose hash is in OTP (15 R492). -/
opaque oxrusDebugKey : Wide
/-- The Oxrus certificate of the identity key (08 R250). -/
opaque idCert : Wide
/-- Whether the resident image carries a NAND parameter set for a NAND_ID (09 R266). -/
opaque paramSetFor : DWord → Bool
/-- Whether the parameter set of a NAND_ID supports erase suspend (09 R266, R271). -/
opaque suspendSupport : DWord → Bool
/-- tREFI of LPDDR4X in ns under the refresh-rate multiplier an MR4 value reports (JESD209-4, named at 10 R309 and R319). -/
opaque refreshNs : Byte → Nat
/-- The microcode address an engine reports (15 R491); engine and a count. -/
opaque microPc : Nat → Nat → Word
/-- DRAM_AGED (0) and SRAM_BANK_WAITS (1) at a time: counts that follow from request timing alone (10 R317, R344, R346; log
entry 134). -/
opaque timedCount : Nat → Nat → Word
/-- The 4,096 bytes an uncorrectable block reads as: count of free values drawn (10 R311). -/
opaque errorBlock : Nat → List Byte
/-- The header log of AER: function, count of logged errors, and doubleword 0 to 3 (06 R147; log entry 80). -/
opaque tlpHeader : Nat → Nat → Nat → Word

end Sys2Proof.Config
end

