-- ==== Sys2Proof/Machine/Container.lean ====
section
/-!
DEFINITION. Plain-data containers: a sorted table by key, and the byte memory of the boot NOR (04 R85) in its one
canonical form (addresses strictly rising, no entry equal to an erased byte).
-/
namespace Sys2Proof.Machine

/-- A table by number: rising keys, one entry per key. -/
abbrev KMap (α : Type) := List (Nat × α)

/-- The entry at a key. -/
def KMap.find {α : Type} : KMap α → Nat → Option α
  | [], _ => none
  | (k, v) :: r, j => if j = k then some v else KMap.find r j

/-- Whether a key has an entry. -/
def KMap.has {α : Type} (m : KMap α) (k : Nat) : Bool := (m.find k).isSome

/-- Set the entry at a key. -/
def KMap.put {α : Type} : KMap α → Nat → α → KMap α
  | [], j, w => [(j, w)]
  | (k, v) :: r, j, w =>
    if j < k then (j, w) :: (k, v) :: r
    else if j = k then (j, w) :: r
    else (k, v) :: KMap.put r j w

/-- Remove the entry at a key. -/
def KMap.del {α : Type} (m : KMap α) (j : Nat) : KMap α := m.filter (fun p => decide (p.1 ≠ j))

/-- Change the entry at a key, when there is one. -/
def KMap.upd {α : Type} (m : KMap α) (j : Nat) (f : α → α) : KMap α :=
  m.map (fun p => if p.1 = j then (p.1, f p.2) else p)

/-- Change every entry. -/
def KMap.mapv {α : Type} (m : KMap α) (f : Nat → α → α) : KMap α := m.map (fun p => (p.1, f p.1 p.2))

/-- How many entries meet a test. -/
def KMap.countv {α : Type} (m : KMap α) (p : α → Bool) : Nat := (m.filter (fun e => p e.2)).length

/-- The byte memory of the boot NOR: listed bytes only; an unlisted byte is erased. -/
abbrev Memory := List Host.Cell

/-- What an unlisted byte of the boot NOR reads as: an erased flash byte (04 R85 "leave the reserved range erased",
R104 "left erased"; the value 0xFF is log entry 3). -/
def Memory.erased : Byte := 0xFF#8

/-- Read one byte. -/
def Memory.get : Memory → Nat → Byte
  | [], _ => Memory.erased
  | (k, v) :: r, a => if a = k then v else Memory.get r a

/-- Insert or replace one listed byte. -/
def Memory.ins : Memory → Nat → Byte → Memory
  | [], a, b => [(a, b)]
  | (k, v) :: r, a, b =>
    if a < k then (a, b) :: (k, v) :: r
    else if a = k then (a, b) :: r
    else (k, v) :: Memory.ins r a b

/-- Remove one listed byte. -/
def Memory.rem (m : Memory) (a : Nat) : Memory := m.filter (fun p => decide (p.1 ≠ a))

/-- Write one byte, keeping the canonical form. -/
def Memory.set (m : Memory) (a : Nat) (b : Byte) : Memory :=
  if b = Memory.erased then m.rem a else m.ins a b

/-- Write consecutive bytes. -/
def Memory.setList (m : Memory) (a : Nat) : List Byte → Memory
  | [] => m
  | b :: r => Memory.setList (m.set a b) (a + 1) r

/-- Erase a range. -/
def Memory.eraseRange (m : Memory) (a n : Nat) : Memory :=
  m.filter (fun p => decide (p.1 < a ∨ a + n ≤ p.1))

/-- Read consecutive bytes. -/
def Memory.getList (m : Memory) (a : Nat) : Nat → List Byte
  | 0 => []
  | n + 1 => m.get a :: Memory.getList m (a + 1) n

/-- Every listed address lies above a bound, in rising order, and no listed byte is an erased one. -/
def Memory.above : Option Nat → Memory → Bool
  | _, [] => true
  | b, (k, v) :: r => (match b with | none => true | some x => decide (x < k))
      && decide (v ≠ Memory.erased) && Memory.above (some k) r

/-- The canonical form of a memory. -/
def Memory.wf (m : Memory) : Bool := Memory.above none m

end Sys2Proof.Machine
end

