-- ==== Sys2Proof/Machine/Units.lean ====
section
/-!
DEFINITION. The state of each unit of the KL-4064 as plain data. Each field names the rule of spec/ that gives it; reset
values stand in Machine/State.lean. RW, RWL and RWO registers that are plain storage live in the register file
(`State.regs`) at their page and offset; what a RO register shows is computed from these fields (Machine/Regs.lean).
-/
namespace Sys2Proof.Machine

/-! ## Pages, pins, clocks -/

/-- The stored registers of the common page header (05 R123, R126; 00 R9). -/
structure PageHdr where
  intStatus : Word
  intEnable : Word
  errCause  : Byte
  errAddr   : Word
  errCount  : BitVec 16
  locked    : Bool
deriving DecidableEq, Repr

/-- Board pins whose level matters between two commands (02 R39 to R42, 06 R153, 13 R420 to R424, 13 R403). -/
structure Pins where
  resetIn : Bool          -- RESET_IN_L level
  perst   : Bool          -- PCIE_PERST_L level
  vmotion : Bool          -- filtered VMOTION level
  gpio    : BitVec 4      -- GPIO input levels
  gpioOut : BitVec 4      -- GPIO output levels held from the start of Squall (R424)
  led     : Bool          -- STATUS_LED_L lit, held from the start of Squall (R424)
  wake    : Bool          -- PCIE_WAKE_L driven low (06 R171)
deriving DecidableEq, Repr

/-- DEV_STRAP (02 R50). -/
structure Strap where
  test     : Bool
  recovery : Bool
  mirror   : BitVec 2
  i2cSel   : BitVec 2
  unstable : Bool
  i2cAddr  : BitVec 7
deriving DecidableEq, Repr

/-- DEV_PAD_STATE (02 R51). -/
structure PadState where
  nand : BitVec 8
  dram : Bool
  vfl  : BitVec 4
  qspi : Bool
  spit : Bool
  i2ct : Bool
  i2ci : Bool
  gpio : Bool
  parked : Bool
deriving DecidableEq, Repr

/-- The DRAM control balls, as the PHY drives them (02 R30, R45). -/
structure DramPins where
  resetHigh : Bool        -- DRAM_RESET_L
  cke       : Bool        -- DRAM_CKE0, DRAM_CKE1
  vref      : Bool        -- DRAM_VREFCA enabled
  at_       : Nat         -- when training started
deriving DecidableEq, Repr

/-- Service levels and their codes (04 R96, 05 R145). -/
inductive Level where
  | none | gust | full | recovery
deriving DecidableEq, Repr

/-- DEV page state (05 R129, R130, R145). -/
structure DevS where
  level       : Level
  romRecovery : Bool
  featErr     : Bool
  featLock    : Bool
  accept0     : Word
  accept1     : Word
  fwVersion   : Word
  strap       : Strap
  pad         : PadState
  dramPins    : DramPins
deriving DecidableEq, Repr

/-- CLK page state (03 R81, R58, R59). -/
structure ClkS where
  pllLock  : Bool
  xtalOk   : Bool
  backup   : Bool      -- SOURCE
  tripped  : Bool      -- XMON_TRIPPED
  xmon     : BitVec 16 -- CLK_XMON_COUNT
deriving DecidableEq, Repr

/-- Power state of a gateable domain (03 R82); it reads as waking until its wake time has passed. -/
inductive DomSt where
  | on | fenced | off
deriving DecidableEq, Repr

/-- A gateable domain: its state, when it last had work (03 R66) and when its last wake ends (03 R65). -/
structure Domain where
  st       : DomSt
  idleAt   : Nat
  readyAt  : Nat
  loaded   : Bool     -- its engines hold microcode loaded since the last power-up (04 R94)
deriving DecidableEq, Repr

/-- Hold-up states (03 R77). -/
inductive HoldState where
  | none | good | degraded | failed | skipped
deriving DecidableEq, Repr

/-- The running step of the hold-up probe (03 R73). -/
inductive ProbeStep where
  | idle | charging | loaded | resuming | abandoned
deriving DecidableEq, Repr

/-- PWR page state (03 R66 to R83). -/
structure PwrS where
  lull      : Bool
  doms      : Vector Domain 5     -- CHG0 to CHG3, FAB
  retries   : Word                -- PWR_FENCE_RETRY
  idleSince : Nat                 -- start of the controller's idle time (R70)
  hold      : HoldState
  holdAt    : Option Nat          -- when the last probe completed
  probe     : ProbeStep
  probeAt   : Option Nat          -- when the last probe started (R72)
  loadAt    : Nat                 -- when LOAD_PULSE was sent
  probeDue  : Bool                -- a request or a due time that waits
  noProbe   : Bool                -- no probe possible in this start (R416, R417)
  nv0       : Nat                 -- the running probe's V0 in mV, voltage step in µV and slope in mV/s
  ndV       : Int
  nslope    : Nat
  v0        : Nat                 -- last completed probe's V0 in mV
  dV        : Int                 -- its V0 − V_A in µV: ESR is dV / I_T
  slope     : Nat                 -- its slope S in mV/s: C is I_T / S
  vUse      : Nat                 -- V0 in use (R78)
  energy    : Nat                 -- E_AVAIL in mJ
  eb        : Nat                 -- the energy budget in buffers, before the clamp to the pool (R75)
  auditB    : Word                -- captured PWR_BUDGET_AUDIT0..2
  auditH    : Word
  auditF    : Word
deriving DecidableEq, Repr

/-! ## AON: survives every reset but power-on (03 R61, R63) -/

/-- A 64-byte event record, field by field (11 R361). `detail` is the 28 bytes of DETAIL. -/
structure EvRec where
  seq    : Nat
  opTime : Word
  cycles : Word
  sev    : Fin 4
  untrusted : Bool
  rom    : Bool
  tenant : Byte
  code   : BitVec 16
  utc    : DWord
  detail : List Byte
deriving DecidableEq, Repr

/-- A record in the AON buffer: when it entered and whether the running pass has taken it (11 R366, R367). -/
structure BufRec where
  ev    : EvRec
  at_   : Nat
  taken : Bool
deriving DecidableEq, Repr

/-- The AON domain (03 R63, R64; 04 R103; 11 R356, R366, R521; 15 R481). -/
structure AonS where
  causeAcc  : BitVec 7           -- accumulated reset causes
  rstCause  : BitVec 7           -- RST_CAUSE
  mark      : Option Bool        -- attempt mark: slot B is true
  markFault : Bool               -- IMAGE_FAULT
  evBuf     : List BufRec        -- oldest first
  passOn    : Bool               -- a programming pass runs
  nextSeq   : Nat                -- next event SEQ
  seqKnown  : Bool               -- false from power-on until the reservation is read (R521)
  evLatch   : List Word          -- latched EVENT_IN_L pulse times
  thermals  : Nat                -- thermal Squalls since power-on
  pfailAt   : Nat                -- when PFAIL_L last fell
  vsupAt    : Nat                -- when VSUP_SENSE last failed the condition of 03 R64
  extraRep  : List (Nat × Nat × Nat) -- repairs beyond the OTP table, kept to the next power-on (10 R331)
  optBase   : Nat                -- operating seconds at `optAt`
  optAt     : Nat
  optRun    : Bool               -- operating time advances (15 R483)
deriving DecidableEq, Repr

/-! ## What NOR, OTP, media and the system area hold: survives every reset -/

/-- Retention state of a zone and its code (07, "States"). -/
inductive ZState where
  | empty | open_ | full | held | sealed | offline
deriving DecidableEq, Repr

/-- One append of a zone: its tag-log entry (08 R256), stored header and ciphertext, and what has reached media. -/
structure AppRec where
  index   : Nat
  offset  : Nat
  len     : Nat
  header  : List Byte
  gust    : Bool
  gen     : Word
  opTime  : Word
  cycles  : Word
  keyId   : Word
  tag     : QWord
  hhash   : Hash
  prev    : Hash        -- H(n − 1)
  head    : Hash
  cipher  : List Byte
  acked   : Bool
  accepted : Bool       -- by the mirror partner (14 R463)
  blocksOn : Bool       -- its blocks are programmed to media
  entryOn  : Bool       -- its tag-log entry is programmed to media
  damaged  : Bool       -- a block of it was programmed with an uncorrectable memory error (10 R311)
deriving DecidableEq, Repr

/-- Where an imported or replica zone came from (14 R457, R462). -/
structure Origin where
  tenant  : Byte
  zone    : BitVec 20
  gen     : Word
  replica : Bool
  diverged : Bool
deriving DecidableEq, Repr

/-- A zone given to a tenant (07, "Zones"; R204, R206). Zones without an entry are the unowned pool. -/
structure Zone where
  owner    : Tid
  st       : ZState
  holdHost  : Bool
  holdEvent : Bool
  wp       : Nat
  gen      : Word
  firstT   : Nat          -- operating seconds of first and last append and of FULL
  lastT    : Nat
  fullT    : Nat
  log      : List AppRec  -- in append order
  origin   : Option Origin
  inGustSet : Bool
  used     : Bool         -- a gust zone that has received appends since it joined the set (04 R99)
deriving DecidableEq, Repr

/-- One written conventional block (07 R205, 09 R281): ciphertext, its marks, and what it held before while unprogrammed. -/
structure ConvBlk where
  cipher     : List Byte
  poison     : Bool
  unreadable : Bool
  seq        : Nat                       -- WRITE_SEQ
  onMedia    : Bool
  old        : Option (List Byte × Bool × Nat) -- ciphertext, poison mark and WRITE_SEQ of the last programmed contents
deriving DecidableEq, Repr

/-- A zone-reset record (11 R370). -/
structure ZReset where
  seq     : Nat
  opTime  : Word
  cycles  : Word
  zone    : Nat
  tenant  : Tid
  cause   : Byte
  untrusted : Bool
  gen     : Word
  wp      : Nat
  first   : Nat
  last    : Nat
  utc     : DWord
  done    : Bool          -- the reset or erase it records has taken effect
deriving DecidableEq, Repr

/-- A load-profile record (12 R378). -/
structure ProfRec where
  seq    : Nat
  start  : DWord
  opTime : Word
  cycles : Word
  bytes  : Vector Nat 4
  held   : Nat
  sealed : Nat
  tmax   : Int
  starts : Nat
  squalls : Nat
  flags  : BitVec 16
deriving DecidableEq, Repr

/-- Staging sums and open interval as Squall step 8 saves them (12 R384). -/
structure MeterSave where
  staging : Vector Nat 256
  bytes   : Vector Nat 4
  tmax    : Int
  starts  : Nat
  squalls : Nat
  flags   : BitVec 16
  start   : Nat
deriving DecidableEq, Repr

/-- The chain of one tenant (08 R253, R254). -/
structure Chain where
  index : Nat
  head  : Hash
deriving DecidableEq, Repr

/-- The Squall summary (11 R371): causes, last step ended, clocks, dirty buffers, VCAP readings. -/
structure SqSummary where
  causes   : Byte
  lastStep : Nat
  complete : Bool
  backup   : Bool
  dirty    : Nat
  vcap0    : Nat
  vcap8    : Nat
  reported : Bool          -- a later start has reported it
deriving DecidableEq, Repr

/-- Use of a superblock (09, "Streams and placement", "Eddy"). -/
inductive SbUse where
  | free | slc | native | system | retired
deriving DecidableEq, Repr

/-- Data in consecutive codeword slots: a run of blocks of one unit of a zone, as one fragment record maps it (09 R283), with the
WRITE_SEQ of its first block; one conventional block with its WRITE_SEQ (09 R275, R281); codewords of the system area; padding
codewords, with PAD set (09 R293). -/
inductive Piece where
  | zone (z : Nat) (gen : Word) (first : Nat) (n : Nat) (seq : Nat)
  | conv (t : Tid) (lba : Nat) (seq : Nat)
  | sys (n : Nat)
  | pad (n : Nat)
deriving DecidableEq, Repr

/-- A superblock (09 R268, R287, R296 to R301). -/
structure Superblock where
  group  : Fin 16
  blocks : List (Nat × Nat) -- its die blocks: die and block, in group order; W is one less than their number
  use    : SbUse
  stream : Nat          -- stream that fills it: 0 conventional, 1 zone, 2 mirror, 3 Eddy, 4 copies, 5 system area, 8 + t gust of tenant t
  open_  : Bool
  slots  : Nat          -- slots used
  pieces : List (Nat × Piece) -- first slot and data
  reads  : KMap Nat     -- reads of each die's block since the last program
  age    : Nat          -- weighted operating milliseconds (09 R299)
  listed : Bool         -- on the refresh list
  scrubbed : Nat        -- operating seconds of the last scrub
  scrubRow : Nat        -- rows the scrub in progress has queued (09 R300)
  parity : Nat          -- rows, from row 0, whose parity page is programmed (09 R269, R290)
  unmapped : Bool       -- holds a fold or copy not yet mapped
  seq    : Nat          -- order of forming
deriving DecidableEq, Repr

/-- A staging session (04 R104): target 0 slot, 1 descriptor, 2 policy; the slot written; the next offset; the first 4
bytes, kept for the commit. -/
structure StageS where
  target : Nat
  slotB  : Bool
  offset : Nat
  head   : List Byte
deriving DecidableEq, Repr

/-- The journal record of a TRIM (09 R285): the blocks unmapped and the WRITE_SEQ current when it took effect. -/
structure TrimRec where
  tenant : Tid
  lba    : Nat
  n      : Nat
  seq    : Nat
deriving DecidableEq, Repr

/-- Non-volatile state: NOR, OTP, media and the system area. -/
structure Nvm where
  nor        : Memory                 -- boot NOR (04 R85)
  boardHash  : Option Hash            -- OTP board key hash (04 R87, R110)
  floor      : Nat                    -- OTP rollback floor (04 R90)
  ownerSlots : List Hash              -- OTP owner slots, first to last programmed (07 R212)
  repairs    : List (Nat × Nat × Nat) -- OTP repair table: memory, bank, row (10 R331)
  ownerKey   : Wide                   -- owner record: public key of the current owner (07 R215)
  updLock    : Bool                   -- update lock (07 R215)
  holdMin    : KMap (Nat × Nat)       -- per tenant: HOLD_MINUTES set by T0 and the policy SEQUENCE it was set under (07 R181)
  keysX      : KMap (List Byte)       -- persisted wrapped XTS keys (07 R217)
  keysG      : KMap (List Byte)       -- persisted wrapped GCM keys (07 R217)
  zones      : KMap Zone
  conv       : KMap ConvBlk           -- key: tenant × 2^48 + LBA
  chains     : Vector Chain 64
  storedHeads : Vector Chain 64       -- heads in the newest system record (11 R358)
  sealRecs   : KMap (List Byte)       -- newest seal record of each zone (08 R257, 07 R214)
  sealIndex  : Nat                    -- SEAL_INDEX of the newest record
  permanent  : List EvRec             -- event area SEQ 0 to 4,095 (11 R364)
  circ       : List EvRec             -- circulating area
  seqReserved : Nat                   -- SEQ reservation (11 R521)
  evDropped  : Nat                    -- EVR_DROPPED (11 R365)
  ackLost    : Nat                    -- EVR_ACK_LOST
  squalls    : Nat                    -- EVR_SQUALL_COUNT
  summary    : SqSummary              -- of the newest system record
  reachedFull : Bool                  -- the previous start reached FULL (11 R358)
  zresets    : List ZReset            -- newest 65,536 (11 R370)
  zresetNext : Nat
  accs       : Vector Nat 512         -- accumulators, tenant × 8 + tariff (12 R382)
  total      : Nat                    -- MTR_TOTAL
  ckptAccs   : Vector Nat 512         -- last checkpoint (12 R384)
  ckptTotal  : Nat
  profile    : List ProfRec           -- newest 38,400
  profNext   : Nat
  openInt    : Option MeterSave       -- saved at Squall step 8 (12 R384)
  utcStored  : Nat                    -- UTC at the last checkpoint or Squall (12 R374)
  timeSetEver : Bool                  -- TIME_SET has succeeded on this unit (12 R373)
  optStored  : Nat                    -- operating seconds last stored (15 R483)
  optExact   : Bool                   -- stored by Squall step 8
  cycles     : Nat                    -- power-cycle count (15 R484)
  starts     : Nat
  bandMs     : Vector Nat 5           -- operating milliseconds per band (15 R485)
  stage      : Fin 4                  -- derating stage (15 R487)
  mons       : Vector Nat 8           -- last hourly degradation (15 R486)
  ageHour    : Nat                    -- operating hour up to which the hourly means are taken
  monOver    : Vector (Vector Nat 3) 8 -- consecutive hours over each stage's threshold
  unlocks    : Nat                    -- LIFE_DEBUG_UNLOCKS
  fleetKey   : Option Wide            -- installed fleet key (14 R434)
  cert       : Option (List Byte)     -- installed node certificate
  readOnly   : Bool                   -- media read-only (09 R292)
  sbs        : KMap Superblock        -- superblocks in use, key group × 65,536 + number
  wear       : KMap Nat               -- erase counts, key die × 65,536 + block (09 R297)
  bad        : KMap Byte              -- retired die blocks and why (09 R297)
  rebuilt    : KMap Nat               -- rung-4 rebuilds of each die block's pages, key die × 65,536 + block (09 R297)
  trims      : List TrimRec           -- TRIM records of the map journal (09 R285)
  sbNext     : Nat                    -- number of the next superblock formed
  failedDies : List Nat               -- dies declared failed (09 R302)
  groups     : Vector (Fin 4) 16      -- XPAR_GROUP_STATE (09 R308)
  widths     : Vector Nat 16          -- W of each die group
  writeSeq   : Nat                    -- WRITE_SEQ (09 R275)
  stage_     : Option StageS            -- open staging session (04 R104)
  partnerLog : List EvRec             -- partner event log (14 R461)
  partnerAccs : Vector Nat 512
  partnerTotal : Nat
  partnerOwner : List Hash × Bool     -- partner owner copy
deriving DecidableEq, Repr

/-! ## Start-up and update (04) -/

/-- Board descriptor fields in use (04 R87, 12 R387, 13 R414, R423). -/
structure BoardDesc where
  seq       : Nat
  bootRead  : List Byte
  norMiB    : Nat
  nandIf    : Nat
  nandTiming : Nat
  cell      : Nat
  luns      : Nat
  pageBytes : Nat
  pagesPerBlock : Nat
  blocksPerPlane : Nat
  planes    : Nat
  chPresent : BitVec 8
  ceMap     : List Byte
  nandId    : DWord
  dramType  : Nat
  dramGib   : Nat
  dramMr    : List Byte
  pSquall   : Nat
  eta       : Nat
  vMin      : Nat
  eFixedBoard : Nat
  eBufBoard : Nat
  iT        : Nat
  tLoad     : Nat
  goodMin   : Nat
  cNom      : Nat
  esrNom    : Nat
  vsupTrip  : Nat
  vsupUpd   : Nat
  script    : List Byte
  display   : List Byte
  raw       : List Byte        -- the copy itself
  gustEnts  : List (Nat × Nat)   -- tenant, zones
  node      : BitVec 16
  ports     : BitVec 4
  partner   : BitVec 16
  fleetHash : Hash
  gpioField : List Byte
  pub       : Wide
deriving DecidableEq, Repr

/-- A tenant's policy entry (07 R180). -/
structure PolicyEnt where
  binding : Nat
  vf      : Nat
  convGib : Nat
  openMax : Nat
  quota   : Nat
  heldMax : Nat
  evidMax : Nat
  withhold : Word
  tagLimit : Nat
  holdMin : Nat
deriving DecidableEq, Repr

/-- The policy block in use (07 R180, 12 R381). -/
structure Policy where
  seq     : Nat
  ents    : Vector PolicyEnt 64
  metering : List Byte
deriving DecidableEq, Repr

/-- Start-up state: what this start has read and reached (04 R88 to R103, R114). -/
structure BootS where
  desc      : Option BoardDesc
  policy    : Option Policy
  descCopy  : Nat             -- copy of the descriptor and of the policy in use
  polCopy   : Nat
  booted    : Option Bool     -- slot booted: B is true
  fallback  : Bool
  aGood     : Bool
  bGood     : Bool
  releaseAt : Nat             -- reset release
  strapsIn  : Bool            -- the straps of this start are sampled
  prevFull  : Bool            -- the previous start reached FULL (11 R358)
  counted   : Bool            -- the new power-cycle count is stored (15 R484)
  tGust     : Option Nat
  tFull     : Option Nat
  nandOk    : Bool            -- step 10 passed
  dramOk    : Bool            -- step 15 passed
  extOk     : Bool            -- step 16 passed
  replayed  : Bool            -- step 17 done
  noParams  : Bool            -- no parameter set matched (09 R266)
  hkLoaded  : Bool            -- the housekeeping micro-engine holds microcode loaded in this start (04 R94)
  supply    : Vector Bool 8   -- SUPPLY already warned, per rail (15 R476)
deriving DecidableEq, Repr

/-- A ROM recovery session (04 R109 to R113). -/
structure RcvSession where
  spi    : Bool             -- owned by the SPI target
  target : Nat
  total  : Nat
  data   : List Byte        -- bytes received, in order
deriving DecidableEq, Repr

/-- UPD page state (04 R107, R111 to R115). -/
structure UpdS where
  lastRefusal : Word
  rcvCause  : Byte
  rcvDetail : Byte
  rcvByAdeit : Bool
  rcvStatus : Nat           -- UPD_RCV_STATUS [3:0]
  rcvError  : Byte          -- UPD_RCV_STATUS [15:8]
  session   : Option RcvSession
deriving DecidableEq, Repr

/-! ## The endpoint and interrupts (05, 06) -/

/-- Configuration and message state of one function (06 R155 to R158, R166, R171 to R175, R178). -/
structure FnS where
  mse      : Bool
  bme      : Bool
  ero      : Bool            -- Enable Relaxed Ordering
  aspmL1   : Bool
  pmeEn    : Bool
  d3hot    : Bool
  mps      : BitVec 3
  mrrs     : BitVec 3
  cfg      : IntCfg
  entries  : KMap (DWord × Word)   -- MSI-X table: address and data
  unmasked : List Nat        -- MSI-X vectors whose mask bit is clear
  msiMasked : List Nat       -- MSI messages whose mask bit is set
  msiAddr  : DWord
  msiData  : Word
  pending  : List Nat        -- message numbers or vectors pending
  resetting : Bool           -- in a reset not yet done (PCIE_FLR_PENDING)
  blocked  : Bool            -- that reset reset endpoint state (06 R173)
  aerCorr  : Word            -- AER correctable status
  aerUnc   : Word            -- AER uncorrectable status
  aerCorrMask : Word
  aerUncMask  : Word
  aerSev   : Word            -- AER uncorrectable severity
  aerFirst : Option Nat      -- the bit the first error pointer names
  aerLogs  : Nat             -- headers logged, which numbers the one the header log holds
  ecrcGen  : Bool            -- ECRC Generation and Check Enable
  ecrcChk  : Bool
  bar0     : DWord           -- PF0's base addresses (06 R149)
  bar2     : DWord
  vfBar    : DWord
  extTag   : Bool            -- Extended Tag Field Enable and 10-bit Tag Requester Enable (06 R147)
  tag10    : Bool
  tmoValue : BitVec 4        -- Completion Timeout Value and Disable (06 R147)
  tmoOff   : Bool
  ltrEn    : Bool            -- LTR Mechanism Enable
  l1ss     : BitVec 4        -- L1 PM Substates Control 1 [3:0]: PCI-PM L1.2, L1.1, ASPM L1.2, L1.1 (06 R169)
deriving DecidableEq, Repr

/-- PCIE page state (06 R151, R153, R174, R177, R179, R519). -/
structure PcieS where
  fns      : Vector FnS 64
  numVfs   : Nat             -- VFs enabled
  vfEnable : Bool
  ari      : Bool
  vfLimit  : Bool
  inta     : Bool
  intDisable : Bool
  speed    : BitVec 3
  width    : BitVec 3
  ltssm    : BitVec 5
  pmState  : BitVec 3        -- PCIE_LINK_STATUS [15:13]
  dlUp     : Bool
  idleAt   : Nat             -- last traffic, for ASPM (06 R169)
  squallUr : Bool
  poisonRx : Word
  poisonTx : Word
  timeouts : Word
  stale    : Word
  dropped  : Word
  staleReads : KMap (Fn × Nat × Nat) -- reads of instances that were reset, by tag: function, bytes to come, when issued (06 R174)
  nvfs     : Nat             -- NumVFs as written (06 R151)
deriving DecidableEq, Repr

/-- A tenant source's route half (05 R141). -/
structure TRoute where
  valid : Bool
  vec   : BitVec 7
deriving DecidableEq, Repr

/-! ## Tenants, queues, commands (07) -/

/-- A queue pair (07 R183 to R189). -/
structure Qp where
  enabled : Bool
  draining : Bool       -- being removed: no fetch, removed when its commands have completed
  depth   : Nat
  sqBase  : DWord
  cqBase  : DWord
  sqHead  : Nat
  sqTail  : Nat
  cqTail  : Nat
  cqHead  : Nat
  phase   : Bool
deriving DecidableEq, Repr

/-- A pending change of a tenant's key page (08 R243). -/
inductive KeyChange where
  | loadX (k : Wide) (id : Word) (persist : Option (List Byte)) (tag : Tag)
  | loadG (k : Hash) (id : Word) (persist : Option (List Byte)) (tag : Tag)
  | clear (x g : Bool) (tag : Tag)
deriving DecidableEq, Repr

/-- A tenant's controller-side and host-side state (05 R132, R133, R140; 07 R181, R219, R222). -/
structure Tenant where
  binding  : Nat             -- 0 unbound, 1 VF, 2 PF0 queue group
  vf       : Nat
  gustTenant : Bool
  convBlocks : Nat
  openMax  : Nat
  quota    : Nat
  heldMax  : Nat
  evidMax  : Nat
  withhold : Word
  tagLimit : Nat
  holdMin  : Nat             -- HOLD_MINUTES in force
  offer    : Word
  accept   : Word
  featLock : Bool
  featErr  : Bool
  resetDone : Bool
  epoch    : Byte
  notice   : Option (Fin 1024)  -- TNT_BLOCK_NOTICE, PENDING
  noticeNo : BitVec 10
  sqBase   : DWord
  cqBase   : DWord
  depth    : BitVec 13
  qps      : Vector Qp 8
  rr       : Nat             -- last queue pair 1 to 7 served
  xts      : Option (Wide × Word)   -- key page: XTS key and KEY_ID (08 R242)
  gcm      : Option (Hash × Word)
  keyWait  : List KeyChange
  lastAck  : Option Nat      -- when an APPEND was last acknowledged (12 R389, 13 R424)
deriving DecidableEq, Repr

/-- A submission descriptor, field by field (07 R190). -/
structure Desc where
  opc   : Byte
  flags : Byte
  cid   : BitVec 16
  zone  : Word
  lba   : DWord
  len   : Word
  hlen  : BitVec 16
  rsv16 : BitVec 16
  daddr : DWord
  haddr : DWord
  aux0  : DWord
  aux1  : DWord
  rsv38 : DWord
deriving DecidableEq, Repr

/-- Where a fetched command stands. -/
inductive Phase where
  | fetched                       -- fetched, its effect not begun
  | shared                        -- in a shared engine
  | core3                         -- executing on core 3
  | waiting                       -- effect done, waits for its acknowledgement conditions
  | done (status rcode : Byte) (result : DWord) (marked : Bool)
deriving DecidableEq, Repr

/-- A command that holds a tag. -/
structure Cmd where
  tenant  : Tid
  qp      : Qid
  epoch   : Byte
  desc    : Desc
  sqHead  : Nat
  no      : Nat               -- fetch order, device-wide
  phase   : Phase
  data    : KMap (List Byte)  -- host data by offset
  header  : KMap (List Byte)
  dlist   : KMap (List Byte)  -- data-list segments, in fetch order
  epData  : List Nat          -- poisoned blocks of the data
  epOther : Bool              -- EP on header or data list
  hostFail : Bool             -- HOST_READ_FAILED
  mediaFail : Option Nat      -- first block uncorrectable at rung 5
  dramFail : Option Nat       -- first block lost to an uncorrectable memory error
  zoneId  : Nat               -- zone of an append
  offset  : Nat               -- write pointer assigned
  index   : Nat               -- chain index
  gtag    : Option QWord      -- tag computed by Pipe G
  chained : Bool              -- in the tag log and the chain
  placed  : Bool
  bufs    : List Nat
  stalled : Bool              -- waits for the masks of its pipe
  readAt  : Nat               -- when its last host read was issued (06 R147)
  opened  : Bool              -- this append opened its zone, and no entry of it stands yet (07 R193, R216)
  tagNo   : Nat               -- order in which the appends' tags were computed (09 R287)
deriving DecidableEq, Repr

/-- HQM page state (07 R189, R224). -/
structure HqmS where
  cmds   : KMap Cmd
  next   : Nat               -- fetch count
  tagged : Nat               -- appends whose tags have been computed (09 R287)
  rr     : Nat               -- last tenant served
  auditA : Word              -- captured HQM_TAG_AUDIT1
deriving DecidableEq, Repr

/-- OWN page state (07 R213). -/
structure OwnS where
  challenge : Option (QWord × Nat)   -- live challenge and its issue time
deriving DecidableEq, Repr

/-! ## Cipher, signing, seal (08) -/

/-- One block of a pipe's stages, by the command it belongs to. -/
structure PipeBlk where
  tenant : Tid
  epoch  : Byte
  tag    : Nat
deriving DecidableEq, Repr

/-- One pipe (08 R226, R238 to R241, R261). -/
structure PipeS where
  blocks  : List PipeBlk
  fenced  : Bool
  kat     : Bool
  maskWait : Bool
  waitAt  : Nat                -- since when it waits
  stallRun : Nat               -- µs of the stalls before it since a block last left (08 R237)
  faultAt : Option Nat         -- time of the last counted first fault
  faults  : BitVec 16
  fStage  : Nat
  fTenant : Nat
  stall   : Word
deriving DecidableEq, Repr

/-- CIPH page state (08 R235). -/
structure CiphS where
  x     : PipeS
  g     : PipeS
  lanes : Vector Nat 112       -- outputs since the last reseed
deriving DecidableEq, Repr

/-- SIGN page state (08 R249 to R252, R262; 15 R493). -/
structure SignS where
  drbg    : BitVec 2           -- 0 uninstantiated, 1 ready, 3 ERROR
  healthLatched : Bool
  blocked : Bool               -- DERIVE_BLOCKED
  restarts : Nat
  reseeds : Word
  requests : Nat               -- generate requests since the last reseed
  reseedAt : Nat               -- when the DRBG was last reseeded
  repFails : BitVec 16
  propFails : BitVec 16
  identity : Option Hash       -- private scalars, derived at every start
  transport : Option Hash
deriving DecidableEq, Repr

/-- SEAL page captures (08 R263). -/
structure SealS where
  capIndex : DWord
  capHead  : Hash
deriving DecidableEq, Repr

/-! ## Flash and translation (09) -/

/-- For whom a codeword is read: a host command and the block it asks for, a fold or copy by its number, or the scrub. -/
inductive ReadFor where
  | host (tag : Tag) (block : Nat)
  | copy (no : Nat)
  | scrub
deriving DecidableEq, Repr

/-- What class-1 work outside the flush programs to the system area (09 R270). -/
inductive SysWork where
  | events | tagTail (zone : Nat)
deriving DecidableEq, Repr

/-- What a flash operation does. -/
inductive FlashKind where
  | program (sb : Nat) (first n : Nat)   -- slots of one row of a die, across its planes
  | parity (sb : Nat) (row n : Nat)      -- a row's parity page, over the n slots written in the row
  | erase (sb : Nat) (block : Nat)
  | read (sb : Nat) (slot : Nat) (who : ReadFor)
  | system (w : SysWork)
deriving DecidableEq, Repr

/-- A flash operation: its die, issue class, buffers, whether it holds a slot, and the operation in which it was issued: codewords of one
row of a die, across its planes, are read as one operation (09 R264). -/
structure FlashOp where
  die     : Fin 256
  cls     : Nat
  kind    : FlashKind
  bufs    : List Nat
  issued  : Bool
  issue   : Nat
  again   : Bool               -- rewrites a program that failed in Squall (09 R290)
  suspends : Nat
  suspended : Bool
  rebuildsPending : Bool       -- waits for core 1 (rung 4)
  softWait : Bool              -- waits for the soft decoder (rung 3)
deriving DecidableEq, Repr

/-- One NFC channel (09 R304). -/
structure NfcS where
  enabled : Bool
  timing  : Bool
  params  : Bool
  ops     : Word
  progFail : Word
  eraseFail : Word
  suspends : Word
deriving DecidableEq, Repr

/-- A die's run of failures and of issues that passed over classes 5 and 6 (09 R270, R302). -/
structure DieS where
  fails  : Nat                 -- consecutive failed operations
  passed : Nat                 -- issues from classes 2 to 4 while class 5 or 6 work waits
  lastAt : Nat                 -- when its last program or erase of classes 2 to 6 was issued (15 R478)
deriving DecidableEq, Repr

/-- State of a map line in the directory (01 R25 to R28). -/
structure Line where
  owner : Option Walker
  wb    : Bool
  at_   : Nat                  -- when the grant began
  queue : List Walker
deriving DecidableEq, Repr

/-- A fold, refresh or collection copy whose source codewords are being read (09 R276, R293, R298, R301). -/
structure Copy where
  no     : Nat
  walker : Walker
  src    : Nat
  group  : Nat                  -- die group the copies go to
  stream : Nat
  use    : SbUse
  items  : List (Nat × Nat × Piece) -- source superblock, slot, data
deriving DecidableEq, Repr

/-- Buffers of failed programs for which their stream had no place yet (09 R273). -/
structure Rewrite where
  stream : Nat
  cls    : Nat
  items  : List (Option Nat × Piece)
deriving DecidableEq, Repr

/-- A fold, refresh or collection copy whose codewords are being programmed (09 R293 to R301). -/
structure Move where
  walker : Walker
  src    : Nat                  -- the superblock the move was started for
  dst    : Nat
  items  : List (Nat × Nat × Piece) -- source superblock, destination slot, data
  programmed : Bool
deriving DecidableEq, Repr

/-- MED, NFC, FTL, LDPC and XPAR state (09 R270 to R308). -/
structure MedS where
  nfc     : Vector NfcS 8
  dies    : KMap DieS
  ops     : KMap FlashOp
  nextOp  : Nat
  auditI  : Word                -- captured MED_SLOT_AUDIT1
  dir     : KMap Line
  walkMiss : Vector Word 4
  dirWaits : Word
  journal : Nat                 -- placements not yet journalled
  journalAt : Option Nat        -- since when a change waits
  jlines  : List Nat            -- changed map lines not yet journalled (09 R285)
  jtrims  : List TrimRec        -- TRIM records not yet journalled
  nextGroup : KMap Nat          -- per stream: the group placed last (09 "Streams and placement")
  collecting : List Nat         -- die groups under garbage collection (09 R301)
  rungs   : Vector Word 5
  softQ   : List Nat            -- reads that wait for the soft decoder, in arrival order
  softIn  : List Nat            -- reads in its 4 places
  rebuilds : Word
  refreshed : Word
  copies  : List Copy
  moves   : List Move
  rewrites : List Rewrite
  scrubPass : Bool
  scrubAt : Nat                 -- operating seconds at which the start's pass began
  lastHost : Nat                -- when a host command was last fetched (fold scheduling)
deriving DecidableEq, Repr

/-! ## DRAM, on-chip memory, buffers (10) -/

/-- Eye of one sweep: first and last passing tap of the longest run. -/
structure Eye where
  first : Nat
  last  : Nat
  width : Nat
deriving DecidableEq, Repr

/-- DRAM and DPHY state (10 R314, R321, R344, R345). -/
structure DramS where
  trained  : Bool
  postponed : Nat
  lastRt   : Option Nat         -- when the last real-time request completed
  refAt    : Nat                -- when the next refresh falls due, in ns (10 R319)
  mr4      : Vector Byte 2      -- MR4 of channels A and B as last read
  patrolDay : Option Nat        -- operating day of the last patrol pass (10 R322)
  ce       : Word
  ue       : Word
  ueAddr   : DWord
  forced   : Word
  payback  : Word
  passes   : Word
  roundCe  : Nat                -- corrections in this housekeeping round
  usableMiB : Nat
  failed   : BitVec 5
  narrow   : BitVec 5
  rdEye    : Vector Eye 5
  wrEye    : Vector Eye 5
  trainUs  : Nat
deriving DecidableEq, Repr

/-- SRAM page state (10 R330 to R332, R346). -/
structure SramS where
  mode     : Bool               -- destructive, of the running test
  targets  : List Nat           -- memories under test, the running one first; MARCH_BUSY while there is one
  unrepaired : Bool
  otpFull  : Bool
  failRows : Nat
  done     : Bool
  pass     : Bool
  spares   : Vector Nat 16      -- data SRAM banks
  sparesC  : Vector Nat 4       -- core-local banks
  sparesH  : Vector Nat 2       -- handoff banks
  ce       : Word
  ue       : Word
deriving DecidableEq, Repr

/-- A buffer that is not free: the fields of its trailer (10 R334) and its data. -/
structure Buf where
  owner   : Owner
  epoch   : Byte
  dirty   : Bool
  cipherDone : Bool
  eccSeen : Bool
  tag     : Nat
  tenant  : Tid
  piece   : Piece
  poison  : Bool
  pad     : Bool
  gust    : Bool
  gen     : Word
  seq     : Nat
  crc     : Word
  data    : List Byte
  quarantined : Bool
deriving DecidableEq, Repr

/-- One pool's free list and prefetch cache (10 R335 to R337). `fresh` is the first handle never allocated since the
list was built; explicit entries are those freed since, newest first. -/
structure PoolS where
  list   : List Nat            -- freed handles, newest first
  fresh  : Nat                 -- first handle never popped since the list was built
  top    : Nat                 -- the handle after the pool's last
  size   : Nat                 -- buffers of the pool
  cache  : List Nat            -- prefetch cache
  rebuild : Bool
  stopped : Nat                -- handle at which the list stopped
deriving DecidableEq, Repr

/-- BPM page state (10 R336 to R343, R347). -/
structure BpmS where
  bufs    : KMap Buf
  sram    : PoolS
  dram    : PoolS
  removedH : List Nat          -- buffers removed under R332
  pauses  : Word
  auditA  : Word               -- captured BPM_AUDIT1 to 3
  auditB  : Word
  auditC  : Word
deriving DecidableEq, Repr

/-! ## Squall, records, meter, display (11, 12) -/

/-- The power-loss sequence (11 R348 to R355). -/
structure SquallS where
  running : Bool
  step    : Nat               -- the step in progress, 1 to 11
  causes  : Byte
  hold    : Bool              -- final hold state
  holdAt  : Nat
  dirty   : Nat               -- at the trigger
  vcap0   : Nat
  vcap8   : Nat
  short   : Bool              -- runs only steps 1, 9 and 11 (R357)
  resetHeld : Bool            -- a RESET_IN_L assertion is held off (02 R39)
  clock   : Bool              -- started by clock loss (03 R60)
deriving DecidableEq, Repr

/-- EVR captures (11 R371). -/
structure EvrS where
  capHi   : Word
  prev    : SqSummary         -- the Squall before this start
  incomplete : Bool           -- replay found the last Squall incomplete (11 R358)
  newestCrit : BitVec 16      -- CODE of the newest critical record of this start
  critSeen : Bool
deriving DecidableEq, Repr

/-- UTC states (12 R373). -/
inductive UtcState where
  | none | carried | host | signed
deriving DecidableEq, Repr

/-- MTR page state (12 R373 to R386, R392). -/
structure MtrS where
  utcState : UtcState
  utcBase  : Nat               -- UTC seconds at `utcAt`
  utcAt    : Nat
  signedAt : Nat               -- operating seconds at which SIGNED was set
  nonce    : Option (QWord × Nat)
  staging  : Vector Nat 256    -- tenant × 4 + class, KiB-minutes
  pending  : Nat               -- amount not yet added
  pendingOn : Bool
  restored : Bool
  flags    : BitVec 16         -- flags of the open interval
  bytes    : Vector Nat 4      -- bytes entering each class in the open interval
  tmax     : Int
  starts   : Nat
  squalls  : Nat
  next     : Nat               -- clock value at which the open interval ends
  minute   : Nat               -- minute of the last sample
  start    : Nat               -- start of the open interval; of the one that ended, until its round ends
  closing  : Option ProfRec    -- the record of the interval that ended, until its round ends
  capUtcHi : Word
  capAccHi : Word
  cap      : Vector Word 6     -- captured MTR_AUDIT1 to 6
deriving DecidableEq, Repr

/-- DISP page state (12 R388 to R393). -/
structure DispS where
  running : Bool
  item    : Nat
  second  : Nat
  host    : Option (List Byte)
  life    : Nat                -- minutes the host item was given; 0 until replaced
  hostAt  : Nat                -- when it was set
  dwellAt : Nat                -- when the next second of a dwell begins
  frames  : Word
  waiting : List (Bool × List Byte) -- DISP frames that wait for the bus; true marks INIT
deriving DecidableEq, Repr

/-! ## Serial ports and discrete inputs (13) -/

/-- Users of the QSPI bus (13 R399). -/
inductive QUser where
  | fw | disp | host
deriving DecidableEq, Repr

/-- The registers of a host frame as QSPI_GO took them (13 R398). -/
structure HostFrame where
  frame : Word
  phase : Word
  cmd   : Word
  addr  : Word
  len   : Nat
  host  : DWord
deriving DecidableEq, Repr

/-- QSPI page state (13 R398, R399, R426). -/
structure QspiS where
  hf      : HostFrame
  fwWait  : Nat               -- ROM and Adeit frames that wait
  hostWait : Bool
  bus     : Option QUser
  lastUser : QUser
  dmaErr  : Bool
  hostFrames : Word
  busInit : Bool              -- the DISP frame on the bus is INIT
deriving DecidableEq, Repr

/-- SPIT page state (13 R401 to R404, R427). -/
structure SpitS where
  tx      : List Word
  rx      : List Word
  last    : Word
  width   : BitVec 2          -- WORD in effect
  underrun : Bool
  overflow : Bool
  partial_ : Bool
  lost    : Word
  repeats : Word
deriving DecidableEq, Repr

/-- I2CT page state (13 R407 to R413, R428). -/
structure I2ctS where
  window  : Fin 4
  ptr     : Word
  readN   : Option Nat
  latch   : Word              -- the register read last by a window-1 read
  latchAt : Option Nat        -- its offset
  meterSt : BitVec 2
  meter   : List Byte
  meterReq : Option (Tid × QWord)
  alert   : Bool
  txns    : Word
  pecErr  : Word
  timeouts : Word
deriving DecidableEq, Repr

/-- I2CI page state (13 R415 to R419, R429). -/
structure I2ciS where
  stuck   : Bool
  txnFail : Bool
  pmicFault : Bool
  incomplete : Bool
  index   : Nat
  tries   : Nat               -- failed tries of the entry in progress
  retryAt : Nat               -- when its next try may run
  retryIdx : Option Nat
  initNext : Option Nat       -- next INIT entry due, and when it may run
  initAt   : Nat
  ended    : Bool             -- a failed INIT entry ended the script (R416)
  txns    : Word
  nacks   : Word
  recoveries : Word
  lastStatus : Word
  stuckAt : Nat               -- when the last recovery ran
  statusAt : Nat              -- when STATUS last ran
deriving DecidableEq, Repr

/-- Motion states (13 R422). -/
inductive Motion where
  | stationary | moving | unstable
deriving DecidableEq, Repr

/-- GPIO page state (13 R420 to R424, R430). -/
structure GpioS where
  motion  : Motion
  changes : List Nat          -- times of the filtered level changes of the last 10 s
  changeAt : Nat              -- time of the last filtered change
  count   : Word              -- GPIO_EVENT_COUNT
  last    : Word              -- GPIO_EVENT_LAST
  eventAt : Option Nat        -- when the last pulse came
deriving DecidableEq, Repr

/-! ## Fabric and mirror (14) -/

/-- Link states, the codes of VFLn_STATUS (14 R470). -/
inductive LinkSt where
  | absent | down | training | hello | up | failed
deriving DecidableEq, Repr

/-- A packet that waits for its link: its header fields but the per-link ones, and its payload in the clear (14 R440). -/
structure OutPkt where
  type    : Byte
  vc      : Fin 3
  dest    : BitVec 16
  src     : BitVec 16
  hops    : BitVec 6
  txn     : Byte
  flags   : Byte
  tenant  : Byte
  epoch   : Byte
  payload : List Byte
  at_     : Nat              -- when it began to wait
  fwd     : Bool             -- a packet of another node
deriving DecidableEq, Repr

/-- A request that holds a transaction tag of a port (14 R444). -/
structure Txn where
  id    : Nat
  tries : Nat
  at_   : Nat
  pkt   : OutPkt
  tag   : Option Tag          -- REMOTE_COPY command it belongs to; none: a remote read
deriving DecidableEq, Repr

/-- One port VFLn (14 R436 to R446, R470). -/
structure VflS where
  st       : LinkSt
  lock     : Bool
  lockAt   : Nat
  failAt   : Nat
  nbr      : BitVec 16
  peer     : QWord
  peerCert : List Byte
  ownEph   : Hash
  peerEph  : Wide
  key      : Hash
  saltOut  : Word
  saltIn   : Word
  credits  : Vector Nat 3
  outst    : Vector Nat 3
  seqOut   : Vector Nat 3
  seqIn    : Vector Nat 3
  rekeying : Bool
  fails    : List Nat         -- times of tag or CRC failures in the last second
  txns     : List Txn
  nextTxn  : Nat
  tx       : Word
  rx       : Word
  authFail : Word
  crcFail  : Word
  bringups : Word
  capVc2   : Word             -- captured VC2 word
  txq      : List OutPkt      -- packets that wait for credits or for a rekey to end
  run      : Nat              -- VC1 packets sent since a VC2 packet last went (R443)
deriving DecidableEq, Repr

/-- A stored advertisement (14 R448). -/
structure Adv where
  serial   : QWord
  addr     : BitVec 16
  unaddr   : Bool
  role     : BitVec 2
  seq      : Nat
  claim    : Nat
  partner  : BitVec 16
  nbrs     : List (QWord × BitVec 16 × Byte)  -- per port: neighbour serial, address, state
  at_      : Nat
deriving DecidableEq, Repr

/-- An import in progress at the destination (14 R455, R456). -/
structure Import where
  src    : BitVec 16
  tenant : Tid
  zone   : Nat
  fresh  : Bool              -- taken from the unowned pool
  record : List Byte
  entries : List (List Byte × List Byte)
  blocks : KMap (List Byte)
deriving DecidableEq, Repr

/-- VFR page state (14 R447 to R458, R471). -/
structure VfrS where
  advs      : List Adv
  advNo     : Nat             -- count of own advertisements in this start
  advAt     : Nat
  conflict  : Bool
  conflictWith : QWord
  conflictAddr : BitVec 16
  advDue    : Bool            -- a port or the address state has changed since the last own advertisement
  claimAt   : Nat
  rtab      : Vector (BitVec 4) 256
  mtab      : Vector (BitVec 4) 256
  routesOk  : Bool
  changeAt  : Option Nat      -- when the topology last changed since the tables were computed
  root      : BitVec 16
  withheld  : Nat
  hopDrop   : Word
  stuckDrop : Word
  rreqSt    : Nat
  rreqWait  : Option OutPkt   -- a remote read that waits for a free transaction tag (01 R21)
  rreqN     : Nat
  imports   : List Import
deriving DecidableEq, Repr

/-- Mirror states (14 R460). -/
inductive MirSt where
  | off | unpaired | resync | inSync | separated | partnerDown
deriving DecidableEq, Repr

/-- MIR page state (14 R459 to R469, R472). -/
structure MirS where
  st       : MirSt
  reason   : BitVec 3
  lastRx   : Nat
  beatAt   : Nat
  sent     : Vector Nat 64     -- watermark carried by the last beat
  liveFrom : Vector Nat 64     -- after a divergence: only zones begun above this index are streamed (R469)
  evSent   : Nat               -- event records below this SEQ have been sent (R461)
  marks    : Vector Nat 64     -- watermark received
  separations : Word
  spaceAt  : Nat               -- when the pair last separated for SPACE
  backlog  : List (Nat × Nat)  -- tenant, index still to be accepted in RESYNC
  synced   : Vector Bool 64    -- tenants whose resynchronisation verdict is in
  warned   : Bool
  cap      : List Byte         -- captured partner record
deriving DecidableEq, Repr

/-! ## Housekeeping, life, debug (15) -/

/-- HKP state (15 R473 to R476, R495). -/
structure HkpS where
  slot   : Fin 16
  reads  : Vector Int 16
  failed : BitVec 4
  diodeBad : Bool
  rounds : Word
  monitor : Nat               -- ageing monitor measured next
  ended  : Bool               -- slot 15 has ended and its round is not yet judged
  slotAt : Nat                -- when the slot in progress began
  ages   : Vector (List Nat) 8 -- this hour's readings of each ageing monitor (15 R486)
deriving DecidableEq, Repr

/-- THR state (15 R477 to R481, R496). -/
structure ThrS where
  level  : Fin 8
  hot    : Int                -- hottest reading in 0.25 °C
  times  : Vector Nat 8       -- microseconds at each level
  since  : Nat
deriving DecidableEq, Repr

/-- DBG state (15 R488 to R494, R498). -/
structure DbgS where
  ir       : BitVec 5
  unlocked : Bool
  scope    : BitVec 3
  challenge : Option QWord
  halted   : BitVec 4
  triggers : KMap DWord       -- core × 4 + slot
  coreRegs : KMap DWord       -- core × 2^16 + regno, as written through the debug module
  bus      : KMap Word        -- words written over the system bus, by address (log entry 145)
  seqHalted : BitVec 10
  breaks   : KMap Word
  steps    : Nat
  denied   : Word
  fails    : Word
  lastRead : DWord            -- what the last debug read returned
deriving DecidableEq, Repr

/-! ## What the block sends -/

/-- One phase of a QSPI frame on its lanes: the bytes the master sends, or, of a read, how many it receives; of the dummy phase, its SCK cycles
(13 R395). -/
inductive QPhase where
  | send (lanes : Nat) (bytes : List Byte)
  | receive (lanes count : Nat)
  | dummy (cycles : Nat)
deriving DecidableEq, Repr

/-- What leaves the block, in the order it is sent (log entry 4). -/
inductive Output where
  | memWrite (fn : Fn) (addr : DWord) (bytes : List Byte) (ep ro : Bool)
  | memRead (fn : Fn) (addr : DWord) (len : Nat) (ro : Bool)
  | completion (t : Tid) (q : Qid) (addr : DWord) (bytes : List Byte)
  | message (fn : Fn) (vec : Nat) (addr : DWord) (data : Word)
  | inta (assert_ : Bool)
  | pme
  | readData (v : Word)
  | cfgCompletion (fn : Fn) (v : Word)
  | crs (fn : Fn)
  | unsupported (fn : Fn)
  | packet (port : Fin 4) (h : PktHdr) (payload : List Byte)
  | credits (port : Fin 4) (vc n : Nat)
  | qspi (cs : Nat) (mode3 : Bool) (div : Nat) (phases : List QPhase)
  | spiWord (w : Word)
  | i2c (bytes : List Byte)
  | i2cNack
  | pmic (entry : Nat) (bytes : List Byte)
  | tdo (words : List Word)
deriving DecidableEq, Repr

end Sys2Proof.Machine
end

