-- ==== Sys2Proof/Machine/State.lean ====
section
/-!
DEFINITION. The state of the KL-4064, the reasons a step can stop, and the state right after a power-on reset.
`aon` survives every reset but power-on, `nvm` survives every reset (03 R61); the rest is lost on a chip reset.
`freeCtr`, `outbox` and `now` are the model's own fields (log entries 1, 4 and 5).
-/
namespace Sys2Proof.Machine

/-- The whole state of the block. -/
structure State where
  /-- Commands that wait, first in first out. -/
  pending : List Instr
  /-- Microseconds counted by the model's clock (log entry 5). -/
  now     : Nat
  /-- How many free values have been drawn (log entry 1). -/
  freeCtr : Nat
  /-- What the block has sent, oldest first (log entry 4). -/
  outbox  : List Output
  /-- AON domain. -/
  aon     : AonS
  /-- NOR, OTP, media and system area. -/
  nvm     : Nvm
  /-- Common headers of the 128 pages of PF0 BAR0 (05 R116, R123). -/
  hdr     : Vector PageHdr 128
  /-- RW, RWL and RWO registers that differ from their reset value, by page × 4,096 + offset (00 R8). -/
  regs    : KMap Word
  pins    : Pins
  dev     : DevS
  clk     : ClkS
  pwr     : PwrS
  boot    : BootS
  upd     : UpdS
  pcie    : PcieS
  /-- IRQ_TROUTE: route half of source 8 × t + q (05 R141). -/
  troutes : Vector TRoute 512
  tnt     : Vector Tenant 64
  hqm     : HqmS
  own     : OwnS
  ciph    : CiphS
  sign    : SignS
  chainU  : SealS
  med     : MedS
  dram    : DramS
  sram    : SramS
  bpm     : BpmS
  squall  : SquallS
  evr     : EvrS
  mtr     : MtrS
  disp    : DispS
  qspi    : QspiS
  spit    : SpitS
  i2ct    : I2ctS
  i2ci    : I2ciS
  gpio    : GpioS
  vfl     : Vector VflS 4
  vfr     : VfrS
  mir     : MirS
  hkp     : HkpS
  thr     : ThrS
  dbg     : DbgS
deriving DecidableEq, Repr

/-- Why a command stops the machine. No command does: the manual gives each an effect in every state. -/
inductive Fault where
deriving DecidableEq, Repr

/-- Why a command has no meaning here. -/
inductive Refusal where
  /-- Raised by an arm of `exec` whose meaning is not written. Safe. -/
  | notModelled (mnemonic : String)
deriving DecidableEq, Repr

/-! ## Values after reset -/

def PageHdr.reset : PageHdr :=
  { intStatus := 0#32, intEnable := 0#32, errCause := 0#8, errAddr := 0#32, errCount := 0#16, locked := false }

def Pins.reset : Pins :=
  { resetIn := false, perst := false, vmotion := true, gpio := 0#4, gpioOut := 0#4, led := false,
    wake := false }

def Strap.reset : Strap :=
  { test := false, recovery := false, mirror := 0#2, i2cSel := 0#2, unstable := false, i2cAddr := 0x24#7 }

def PadState.reset : PadState :=
  { nand := 0#8, dram := false, vfl := 0#4, qspi := false, spit := false, i2ct := false, i2ci := false, gpio := false,
    parked := false }

def DramPins.reset : DramPins := { resetHigh := false, cke := false, vref := false, at_ := 0 }

def DevS.reset : DevS :=
  { level := .none, romRecovery := false, featErr := false, featLock := false, accept0 := 0#32, accept1 := 0#32,
    fwVersion := 0#32, strap := Strap.reset, pad := PadState.reset, dramPins := DramPins.reset }

def ClkS.reset : ClkS := { pllLock := false, xtalOk := false, backup := false, tripped := false, xmon := 0#16 }

def Domain.reset : Domain := { st := .on, idleAt := 0, readyAt := 0, loaded := false }

def PwrS.reset : PwrS :=
  { lull := false, doms := Vector.replicate 5 Domain.reset, retries := 0#32, idleSince := 0, hold := .none,
    holdAt := none, probe := .idle, probeAt := none, loadAt := 0, probeDue := false, noProbe := false, nv0 := 0,
    ndV := 0, nslope := 0, v0 := 0, dV := 0, slope := 0, vUse := 0, energy := 0, eb := 256, auditB := 0#32, auditH := 0#32, auditF := 0#32 }

/-- AON after a power-on reset: RST_CAUSE.POWER_ON set (03 R84), buffer and mark lost (04 R103, 11 R366). -/
def AonS.reset : AonS :=
  { causeAcc := 1#7, rstCause := 1#7, mark := none, markFault := false, evBuf := [], passOn := false, nextSeq := 0,
    seqKnown := false, evLatch := [], thermals := 0, pfailAt := 0, vsupAt := 0, extraRep := [],
    optBase := 0,
    optAt := 0, optRun := false }

def Chain.reset : Chain := { index := 0, head := 0#256 }

def SqSummary.reset : SqSummary :=
  { causes := 0#8, lastStep := 0, complete := false, backup := false, dirty := 0, vcap0 := 0, vcap8 := 0,
    reported := true }

/-- A unit as production leaves it with nothing programmed (log entry 6). -/
def Nvm.reset : Nvm :=
  { nor := [], boardHash := none, floor := 0, ownerSlots := [], repairs := [], ownerKey := 0#512, updLock := false,
    holdMin := [], keysX := [], keysG := [], zones := [], conv := [], chains := Vector.replicate 64 Chain.reset,
    storedHeads := Vector.replicate 64 Chain.reset, sealRecs := [], sealIndex := 0, permanent := [], circ := [],
    seqReserved := 0, evDropped := 0, ackLost := 0, squalls := 0, summary := SqSummary.reset, reachedFull := false,
    zresets := [], zresetNext := 0, accs := Vector.replicate 512 0, total := 0, ckptAccs := Vector.replicate 512 0,
    ckptTotal := 0, profile := [], profNext := 0, openInt := none, utcStored := 0, timeSetEver := false, optStored := 0,
    optExact := false, cycles := 0, starts := 0, bandMs := Vector.replicate 5 0, stage := 0,
    mons := Vector.replicate 8 0, ageHour := 0, monOver := Vector.replicate 8 (Vector.replicate 3 0), unlocks := 0, fleetKey := none,
    cert := none, readOnly := false, sbs := [], wear := [], bad := [], rebuilt := [], trims := [], sbNext := 0, failedDies := [],
    groups := Vector.replicate 16 0, widths := Vector.replicate 16 15, writeSeq := 0, stage_ := none,
    partnerLog := [], partnerAccs := Vector.replicate 512 0, partnerTotal := 0, partnerOwner := ([], false) }

def BootS.reset : BootS :=
  { desc := none, policy := none, descCopy := 0, polCopy := 0, booted := none, fallback := false, aGood := false,
    bGood := false, releaseAt := 0, strapsIn := false, prevFull := false, counted := false, tGust := none, tFull := none,
    nandOk := false, dramOk := false, extOk := false, replayed := false, noParams := false, hkLoaded := false,
    supply := Vector.replicate 8 false }

def UpdS.reset : UpdS :=
  { lastRefusal := 0#32, rcvCause := 0#8, rcvDetail := 0#8, rcvByAdeit := false, rcvStatus := 0, rcvError := 0#8,
    session := none }

def IntCfg.reset : IntCfg := { msixEn := false, msixMask := false, msiEn := false, mme := 0#3 }

def FnS.reset : FnS :=
  { mse := false, bme := false, ero := true, aspmL1 := false, pmeEn := false, d3hot := false, mps := 0#3, mrrs := 2#3,
    cfg := IntCfg.reset, entries := [], unmasked := [], msiMasked := [], msiAddr := 0#64, msiData := 0#32, pending := [],
    resetting := false, blocked := false, aerCorr := 0#32, aerUnc := 0#32, aerCorrMask := 0x2000#32, aerUncMask := 0#32,
    aerSev := 0x62030#32, aerFirst := none, aerLogs := 0, ecrcGen := false, ecrcChk := false, bar0 := 0#64, bar2 := 0#64, vfBar := 0#64,
    extTag := true, tag10 := false, tmoValue := 0#4, tmoOff := false, ltrEn := false, l1ss := 0#4 }

def PcieS.reset : PcieS :=
  { fns := Vector.replicate 64 FnS.reset, numVfs := 0, vfEnable := false, ari := false, vfLimit := false, inta := false,
    intDisable := false, speed := 0#3, width := 0#3, ltssm := 0#5, pmState := 0#3, dlUp := false, idleAt := 0,
    squallUr := false, poisonRx := 0#32, poisonTx := 0#32, timeouts := 0#32, stale := 0#32, dropped := 0#32,
    staleReads := [], nvfs := 0 }

def TRoute.reset : TRoute := { valid := false, vec := 0#7 }

def Qp.reset : Qp :=
  { enabled := false, draining := false, depth := 0, sqBase := 0#64, cqBase := 0#64, sqHead := 0, sqTail := 0,
    cqTail := 0, cqHead := 0, phase := true }

def Tenant.reset : Tenant :=
  { binding := 0, vf := 0, gustTenant := false, convBlocks := 0, openMax := 0, quota := 0, heldMax := 0, evidMax := 0,
    withhold := 0#32, tagLimit := 0, holdMin := 0, offer := 0#32, accept := 0#32, featLock := false, featErr := false,
    resetDone := true, epoch := 0#8, notice := none, noticeNo := 0#10, sqBase := 0#64, cqBase := 0#64, depth := 0#13,
    qps := Vector.replicate 8 Qp.reset, rr := 7, xts := none, gcm := none, keyWait := [], lastAck := none }

def HqmS.reset : HqmS := { cmds := [], next := 0, tagged := 0, rr := 63, auditA := 0#32 }

def PipeS.reset : PipeS :=
  { blocks := [], fenced := false, kat := false, maskWait := false, waitAt := 0, stallRun := 0, faultAt := none, faults := 0#16, fStage := 0,
    fTenant := 0, stall := 0#32 }

def CiphS.reset : CiphS := { x := PipeS.reset, g := PipeS.reset, lanes := Vector.replicate 112 0 }

def SignS.reset : SignS :=
  { drbg := 0#2, healthLatched := false, blocked := false, restarts := 0, reseeds := 0#32, requests := 0, reseedAt := 0,
    repFails := 0#16, propFails := 0#16, identity := none, transport := none }

def NfcS.reset : NfcS :=
  { enabled := false, timing := false, params := false, ops := 0#32, progFail := 0#32, eraseFail := 0#32,
    suspends := 0#32 }

def MedS.reset : MedS :=
  { nfc := Vector.replicate 8 NfcS.reset, dies := [], ops := [], nextOp := 0, auditI := 0#32, dir := [],
    walkMiss := Vector.replicate 4 0#32, dirWaits := 0#32, journal := 0, journalAt := none, jlines := [], jtrims := [],
    nextGroup := [], collecting := [], rungs := Vector.replicate 5 0#32, softQ := [], softIn := [], rebuilds := 0#32, refreshed := 0#32, copies := [], moves := [], rewrites := [],
    scrubPass := false, scrubAt := 0, lastHost := 0 }

def Eye.reset : Eye := { first := 0, last := 0, width := 0 }

def DramS.reset : DramS :=
  { trained := false, postponed := 0, lastRt := none, refAt := 0, mr4 := Vector.replicate 2 0#8, patrolDay := none, ce := 0#32, ue := 0#32, ueAddr := 0#64,
    forced := 0#32, payback := 0#32, passes := 0#32, roundCe := 0, usableMiB := 0, failed := 0#5,
    narrow := 0#5, rdEye := Vector.replicate 5 Eye.reset, wrEye := Vector.replicate 5 Eye.reset, trainUs := 0 }

def SramS.reset : SramS :=
  { mode := false, targets := [], unrepaired := false, otpFull := false, failRows := 0, done := false, pass := false,
    spares := Vector.replicate 16 4, sparesC := Vector.replicate 4 4, sparesH := Vector.replicate 2 2, ce := 0#32,
    ue := 0#32 }

/-- The SRAM pool of 1,920 buffers, all free (10 R333, R335). -/
def PoolS.sramReset : PoolS := { list := [], fresh := 0, top := 1920, size := 1920, cache := [], rebuild := false, stopped := 0 }

/-- The DRAM pool before its size is known. -/
def PoolS.dramReset : PoolS :=
  { list := [], fresh := 0x80000, top := 0x80000, size := 0, cache := [], rebuild := false, stopped := 0 }

def BpmS.reset : BpmS :=
  { bufs := [], sram := PoolS.sramReset, dram := PoolS.dramReset, removedH := [], pauses := 0#32,
    auditA := 0#32, auditB := 0#32, auditC := 0#32 }

def SquallS.reset : SquallS :=
  { running := false, step := 0, causes := 0#8, hold := false, holdAt := 0, dirty := 0, vcap0 := 0, vcap8 := 0,
    short := false, resetHeld := false, clock := false }

def EvrS.reset : EvrS :=
  { capHi := 0#32, prev := SqSummary.reset, incomplete := false, newestCrit := 0#16, critSeen := false }

def MtrS.reset : MtrS :=
  { utcState := .none, utcBase := 0, utcAt := 0, signedAt := 0, nonce := none, staging := Vector.replicate 256 0,
    pending := 0, pendingOn := false, restored := false, flags := 0#16, bytes := Vector.replicate 4 0, tmax := 0,
    starts := 0, squalls := 0, next := 0, minute := 0, start := 0, closing := none, capUtcHi := 0#32, capAccHi := 0#32, cap := Vector.replicate 6 0#32 }

def DispS.reset : DispS :=
  { running := false, item := 0, second := 0, host := none, life := 0, hostAt := 0, dwellAt := 0, frames := 0#32, waiting := [] }

def QspiS.reset : QspiS :=
  { hf := { frame := 0#32, phase := 0#32, cmd := 0#32, addr := 0#32, len := 0, host := 0#64 }, fwWait := 0, hostWait := false, bus := none, lastUser := .fw, dmaErr := false, hostFrames := 0#32, busInit := false }

def SpitS.reset : SpitS :=
  { tx := [], rx := [], last := 0#32, width := 0#2, underrun := false, overflow := false, partial_ := false,
    lost := 0#32, repeats := 0#32 }

def I2ctS.reset : I2ctS :=
  { window := 0, ptr := 0#32, readN := none, latch := 0#32, latchAt := none, meterSt := 0#2, meter := [],
    meterReq := none, alert := false, txns := 0#32, pecErr := 0#32, timeouts := 0#32 }

def I2ciS.reset : I2ciS :=
  { stuck := false, txnFail := false, pmicFault := false, incomplete := false, index := 0, tries := 0, retryAt := 0,
    retryIdx := none, initNext := none, initAt := 0, ended := false, txns := 0#32, nacks := 0#32, recoveries := 0#32, lastStatus := 0#32,
    stuckAt := 0, statusAt := 0 }

/-- VMOTION starts MOVING at every start (13 R422). -/
def GpioS.reset : GpioS :=
  { motion := .moving, changes := [], changeAt := 0, count := 0#32, last := 0#32, eventAt := none }

def VflS.reset : VflS :=
  { st := .absent, lock := false, lockAt := 0, failAt := 0, nbr := 0xFFFF#16, peer := 0#128, peerCert := [],
    ownEph := 0#256, peerEph := 0#512, key := 0#256, saltOut := 0#32, saltIn := 0#32, credits := Vector.replicate 3 32,
    outst := Vector.replicate 3 0, seqOut := Vector.replicate 3 0, seqIn := Vector.replicate 3 0, rekeying := false,
    fails := [], txns := [], nextTxn := 0, tx := 0#32, rx := 0#32, authFail := 0#32, crcFail := 0#32,
    bringups := 0#32, capVc2 := 0#32, txq := [], run := 0 }

def VfrS.reset : VfrS :=
  { advs := [], advNo := 0, advAt := 0, conflict := false, conflictWith := 0#128, conflictAddr := 0#16, advDue := false, claimAt := 0,
    rtab := Vector.replicate 256 7#4, mtab := Vector.replicate 256 7#4, routesOk := false, changeAt := none,
    root := 0#16, withheld := 0, hopDrop := 0#32, stuckDrop := 0#32, rreqSt := 0, rreqWait := none, rreqN := 0, imports := [] }

def MirS.reset : MirS :=
  { st := .off, reason := 0#3, lastRx := 0, beatAt := 0, sent := Vector.replicate 64 0, liveFrom := Vector.replicate 64 0, evSent := 0,
    marks := Vector.replicate 64 0, separations := 0#32,
    spaceAt := 0, backlog := [], synced := Vector.replicate 64 false, warned := false, cap := [] }

def HkpS.reset : HkpS :=
  { slot := 0, reads := Vector.replicate 16 0, failed := 0#4, diodeBad := false, rounds := 0#32, monitor := 0, ended := false, slotAt := 0,
    ages := Vector.replicate 8 [] }

def ThrS.reset : ThrS := { level := 0, hot := 0, times := Vector.replicate 8 0, since := 0 }

/-- The TAP is in Test-Logic-Reset with IDCODE selected, and debug is locked (15 R488, R489). -/
def DbgS.reset : DbgS :=
  { ir := 2#5, unlocked := false, scope := 0#3, challenge := none, halted := 0#4, triggers := [], coreRegs := [], bus := [],
    seqHalted := 0#10, breaks := [], steps := 0, denied := 0#32, fails := 0#32, lastRead := 0#64 }

/-- The block right after a power-on reset, RESET_IN_L still low. -/
def State.reset : State :=
  { pending := [], now := 0, freeCtr := 0, outbox := [], aon := AonS.reset, nvm := Nvm.reset,
    hdr := Vector.replicate 128 PageHdr.reset, regs := [], pins := Pins.reset, dev := DevS.reset, clk := ClkS.reset,
    pwr := PwrS.reset, boot := BootS.reset, upd := UpdS.reset, pcie := PcieS.reset,
    troutes := Vector.replicate 512 TRoute.reset, tnt := Vector.replicate 64 Tenant.reset, hqm := HqmS.reset,
    own := { challenge := none }, ciph := CiphS.reset, sign := SignS.reset,
    chainU := { capIndex := 0#64, capHead := 0#256 }, med := MedS.reset, dram := DramS.reset, sram := SramS.reset,
    bpm := BpmS.reset, squall := SquallS.reset, evr := EvrS.reset, mtr := MtrS.reset, disp := DispS.reset,
    qspi := QspiS.reset, spit := SpitS.reset, i2ct := I2ctS.reset, i2ci := I2ciS.reset, gpio := GpioS.reset,
    vfl := Vector.replicate 4 VflS.reset, vfr := VfrS.reset, mir := MirS.reset, hkp := HkpS.reset, thr := ThrS.reset,
    dbg := DbgS.reset }

end Sys2Proof.Machine
end

