-- ==== Sys2Proof/Machine/Ops.lean ====
section
/-!
DEFINITION. The operations every command shares: byte strings, free values, what the block sends, the page headers and
their interrupts (05), counted errors (05 R126), event records (11 R361 to R367), and times.
-/
namespace Sys2Proof.Machine

/-! ## Byte strings -/

/-- The n low bytes of a number, least significant first (00 R3). -/
def leBytes : Nat → Nat → List Byte
  | 0, _ => []
  | n + 1, v => BitVec.ofNat 8 v :: leBytes n (v / 256)

/-- The number that bytes spell, least significant first. -/
def ofLe : List Byte → Nat
  | [] => 0
  | b :: r => b.toNat + 256 * ofLe r

/-- The n low bytes of a number, most significant first. -/
def beBytes (n v : Nat) : List Byte := (leBytes n v).reverse

/-- The number that bytes spell, most significant first. -/
def ofBe (l : List Byte) : Nat := ofLe l.reverse

/-- n zero bytes. -/
def zeroBytes (n : Nat) : List Byte := List.replicate n 0#8

/-- Bytes [o, o + n) of a string. -/
def slice (l : List Byte) (o n : Nat) : List Byte := (l.drop o).take n

/-- The little-endian field of n bytes at an offset. -/
def fieldLe (l : List Byte) (o n : Nat) : Nat := ofLe (slice l o n)

/-- Bytes b put into a string at an offset. -/
def patch (l : List Byte) (o : Nat) (b : List Byte) : List Byte := l.take o ++ b ++ l.drop (o + b.length)

/-- A string cut or filled with zeros to n bytes. -/
def padTo (n : Nat) (l : List Byte) : List Byte := l.take n ++ zeroBytes (n - l.length)

/-- Whether every byte is 0. -/
def allZero (l : List Byte) : Bool := l.all (fun b => b = 0#8)

/-- The 32 bytes of a hash or a key, byte 0 most significant (FIPS 180-4, named at 08 R249). -/
def hashBytes (h : Hash) : List Byte := beBytes 32 h.toNat

/-- The 64 bytes of a public key or a signature, big-endian. -/
def wideBytes (w : Wide) : List Byte := beBytes 64 w.toNat

/-- The 16 bytes of a serial, byte 0 in bits [7:0] (05 R145). -/
def serialBytes (q : QWord) : List Byte := leBytes 16 q.toNat

/-- The 16 bytes of a tag or nonce, byte 0 most significant. -/
def tagBytes (q : QWord) : List Byte := beBytes 16 q.toNat

def hashOf (l : List Byte) : Hash := BitVec.ofNat 256 (ofBe l)
def wideOf (l : List Byte) : Wide := BitVec.ofNat 512 (ofBe l)
def serialOf (l : List Byte) : QWord := BitVec.ofNat 128 (ofLe l)
def tagOf (l : List Byte) : QWord := BitVec.ofNat 128 (ofBe l)

/-- The ASCII bytes of a name. -/
def ascii (n : String) : List Byte := n.toList.map (fun c => BitVec.ofNat 8 c.toNat)

/-- Word k of a byte string, byte 0 in bits [7:0] of word 0. -/
def wordAt (l : List Byte) (k : Nat) : Word := BitVec.ofNat 32 (fieldLe l (4 * k) 4)

/-- A bit of a word from a truth value. -/
def bitW (b : Bool) (k : Nat) : Word := if b then 1#32 <<< k else 0#32

/-- A number in bits k and up. -/
def fieldW (v k : Nat) : Word := BitVec.ofNat 32 (v * 2 ^ k)

/-- Bits [hi:lo] of a word. -/
def bits (w : Word) (hi lo : Nat) : Nat := (w.toNat / 2 ^ lo) % 2 ^ (hi + 1 - lo)

/-- Add 1 to a counter that saturates. -/
def satInc {n : Nat} (c : BitVec n) : BitVec n := if c = BitVec.allOnes n then c else c + 1

/-- Add n to a 32-bit counter that saturates. -/
def satAdd (c : Word) (n : Nat) : Word := BitVec.ofNat 32 (min (c.toNat + n) 0xFFFFFFFF)

/-- Chunks delivered by offset, joined into one string of n bytes; absent bytes are 0. -/
def joinChunks (m : KMap (List Byte)) (n : Nat) : List Byte :=
  padTo n (m.foldl (fun acc p => patch (padTo (max acc.length (p.1 + p.2.length)) acc) p.1 p.2) [])

/-- How many bytes of [0, n) the chunks cover; chunks do not overlap. -/
def chunkBytes (m : KMap (List Byte)) : Nat := m.foldl (fun a p => a + p.2.length) 0

/-- The n newest entries of a log whose newest entry stands last. -/
def keepNewest {α : Type} (n : Nat) (l : List α) : List α := (l.reverse.take n).reverse

/-! ## Free values and what is sent -/

/-- The next free value (log entry 1). -/
def State.freeVal (s : State) : Hash := Config.freeValue s.freeCtr

/-- The state after a free value has been drawn. -/
def State.drawn (s : State) : State := { s with freeCtr := s.freeCtr + 1 }

/-- Whether something sent is a TLP, which ends the link's idle time (06 R169). -/
def Output.isTlp : Output → Bool
  | .memWrite .. | .memRead .. | .completion .. | .message .. | .inta _ | .pme | .readData _ | .cfgCompletion .. | .crs _ |
    .unsupported _ => true
  | _ => false

/-- The link carries traffic: it is in L0 and its idle time starts again. -/
def PcieS.traffic (p : PcieS) (now : Nat) : PcieS :=
  { p with idleAt := now, pmState := 0#3, ltssm := if p.pmState = 0#3 then p.ltssm else 11#5 }

/-- Send something (log entry 4). -/
def State.emit (s : State) (o : Output) : State :=
  { s with outbox := s.outbox ++ [o], pcie := if o.isTlp then s.pcie.traffic s.now else s.pcie }

/-- A doorbell, configuration access, EVENT_IN_L pulse, PFAIL_L fall, fabric packet or housekeeping timer event ends Lull (03 R71). -/
def State.endLull (s : State) : State :=
  if s.pwr.lull then { s with pwr := { s.pwr with lull := false, idleSince := s.now } } else s

/-! ## Times -/

/-- The operating time in seconds, saturating (15 R483). -/
def State.opSecs (s : State) : Nat :=
  min (s.aon.optBase + (if s.aon.optRun then (s.now - s.aon.optAt) / 1000000 else 0)) (1048575 * 3600 + 3599)

/-- Operating seconds in the OP_TIME format (11 R361). -/
def opWord (secs : Nat) : Word := BitVec.ofNat 32 (secs / 3600 * 4096 + secs % 3600)

/-- The operating time in the OP_TIME format. -/
def State.opTime (s : State) : Word := opWord s.opSecs

/-- The UTC count: 0 while the state is NONE (12 R373). -/
def State.utc (s : State) : Nat :=
  if s.mtr.utcState = .none then 0 else s.mtr.utcBase + (s.now - s.mtr.utcAt) / 1000000

/-- UTC_UNTRUSTED (12 R373). -/
def State.untrusted (s : State) : Bool := decide (s.mtr.utcState ≠ .signed)

/-- The power-cycle count in use: the new count, before it is stored as after (15 R484). -/
def State.cycleCount (s : State) : Nat := s.nvm.cycles + (if s.boot.counted then 0 else 1)

/-! ## Pages -/

abbrev Page := Fin 128
def pDEV : Page := 0x00
def pCLK : Page := 0x01
def pPWR : Page := 0x02
def pRST : Page := 0x03
def pIRQ : Page := 0x04
def pPCIE : Page := 0x05
def pHQM : Page := 0x06
def pNFC (n : Fin 8) : Page := ⟨0x08 + n.1, by omega⟩
def pFTL : Page := 0x10
def pMED : Page := 0x11
def pLDPC : Page := 0x12
def pXPAR : Page := 0x13
def pDRAM : Page := 0x14
def pDPHY : Page := 0x15
def pSRAM : Page := 0x16
def pBPM : Page := 0x17
def pCIPH : Page := 0x18
def pSIGN : Page := 0x19
def pSEAL : Page := 0x1A
def pEVR : Page := 0x1B
def pMTR : Page := 0x1C
def pDISP : Page := 0x1D
def pQSPI : Page := 0x1E
def pSPIT : Page := 0x1F
def pI2CT : Page := 0x20
def pI2CI : Page := 0x21
def pGPIO : Page := 0x22
def pHKP : Page := 0x23
def pTHR : Page := 0x24
def pLIFE : Page := 0x25
def pUPD : Page := 0x26
def pOWN : Page := 0x27
def pVFL (n : Fin 4) : Page := ⟨0x28 + n.1, by omega⟩
def pVFR : Page := 0x2C
def pMIR : Page := 0x2D
def pDBG : Page := 0x2E
def pTNT (t : Tid) : Page := ⟨0x40 + t.1, by omega⟩

/-- Whether a page index is one of the table "Page index" (05 R116). -/
def pageExists (p : Page) : Bool := !(p.1 = 0x07 || (0x2F ≤ p.1 && p.1 < 0x40))

/-- The tenant whose page this is. -/
def tenantOfPage (p : Page) : Option Tid :=
  if h : 0x40 ≤ p.1 then some ⟨p.1 - 0x40, by omega⟩ else none

/-- BASE and COUNT of a block page (05 R137). -/
def sourceBase (p : Page) : Nat × Nat :=
  match p.1 with
  | 0x00 => (0, 8)    | 0x01 => (8, 8)    | 0x02 => (16, 8)   | 0x03 => (24, 8)
  | 0x04 => (32, 8)   | 0x05 => (40, 16)  | 0x06 => (56, 32)
  | 0x08 => (88, 8)   | 0x09 => (96, 8)   | 0x0A => (104, 8)  | 0x0B => (112, 8)
  | 0x0C => (120, 8)  | 0x0D => (128, 8)  | 0x0E => (136, 8)  | 0x0F => (144, 8)
  | 0x10 => (152, 16) | 0x11 => (168, 32) | 0x12 => (200, 16) | 0x13 => (216, 16)
  | 0x14 => (232, 16) | 0x15 => (248, 16) | 0x16 => (264, 16) | 0x17 => (280, 16)
  | 0x18 => (296, 32) | 0x19 => (328, 16) | 0x1A => (344, 16) | 0x1B => (360, 8)
  | 0x1C => (368, 8)  | 0x1D => (376, 8)  | 0x1E => (384, 8)  | 0x1F => (392, 8)
  | 0x20 => (400, 8)  | 0x21 => (408, 8)  | 0x22 => (416, 8)  | 0x23 => (424, 16)
  | 0x24 => (440, 8)  | 0x25 => (448, 8)  | 0x26 => (456, 8)  | 0x27 => (464, 8)
  | 0x28 => (472, 16) | 0x29 => (488, 16) | 0x2A => (504, 16) | 0x2B => (520, 16)
  | 0x2C => (536, 16) | 0x2D => (552, 16) | 0x2E => (568, 8)
  | _ => (0, 0)

/-- Change the header of a page. -/
def State.updHdr (s : State) (p : Page) (f : PageHdr → PageHdr) : State :=
  { s with hdr := s.hdr.set p (f s.hdr[p]) }

/-- Change a tenant. -/
def State.updTnt (s : State) (t : Tid) (f : Tenant → Tenant) : State :=
  { s with tnt := s.tnt.set t (f s.tnt[t]) }

/-- Change a function of the endpoint. -/
def State.updFn (s : State) (n : Fn) (f : FnS → FnS) : State :=
  { s with pcie := { s.pcie with fns := s.pcie.fns.set n (f s.pcie.fns[n]) } }

/-- A stored register, or its reset value (00 R8). -/
def State.reg (s : State) (p : Page) (off : Nat) (rst : Word) : Word := (s.regs.find (p.1 * 4096 + off)).getD rst

/-- Store a register. -/
def State.setReg (s : State) (p : Page) (off : Nat) (v : Word) : State :=
  { s with regs := s.regs.put (p.1 * 4096 + off) v }

/-! ## Tenants and functions -/

/-- The function a tenant is bound to: VF, or PF0 (05 R141). -/
def Tenant.fnNo (x : Tenant) : Nat := if x.binding = 1 then x.vf else 0

def State.tenantFn (s : State) (t : Tid) : Fn := Fin.ofNat 64 s.tnt[t].fnNo

/-- All tenants, in order. -/
def allTids : List Tid := List.finRange 64

/-- The tenant bound to a VF. -/
def State.vfTenant (s : State) (n : Fn) : Option Tid :=
  if n.1 = 0 then none else allTids.find? (fun t => s.tnt[t].binding = 1 && s.tnt[t].vf = n.1)

/-- The feature set a tenant has accepted: for T0, DEV_FEAT_ACCEPT0 with the bits the policy withholds cleared
(05 R133, R134). -/
def State.accepted (s : State) (t : Tid) : Word :=
  if t.1 = 0 then s.dev.accept0 &&& ~~~ s.tnt[t].withhold else s.tnt[t].accept

/-- Whether a tenant has accepted a feature bit of the table "Feature bits". -/
def State.hasFeat (s : State) (t : Tid) (b : Nat) : Bool := (s.accepted t).getLsbD b

/-- TNT_CTRL.FEAT_LOCK: T0's reads DEV_CTRL.FEAT_LOCK (05 R134). -/
def State.tntLocked (s : State) (t : Tid) : Bool := if t.1 = 0 then s.dev.featLock else s.tnt[t].featLock

/-! ## Interrupt requests (05 R135 to R144) -/

/-- The MSI message number of a logical vector under Multiple Message Enable (06 R155). -/
def msiNumber (fn : Fn) (mme : BitVec 3) (vec : Nat) : Nat :=
  min vec (min (2 ^ mme.toNat) (if fn = 0 then 32 else 8) - 1)

/-- Request a message on a logical vector in the mode in force: at most one per entry or message number is pending. PF0 in
INTA mode asserts INTA; a VF without a mode sends nothing, and the ROM sends none (05 R116, R144, 06 R155 to R157). -/
def State.request (s : State) (fn : Fn) (vec : Nat) : State :=
  let f := s.pcie.fns[fn]
  let pend (k : Nat) : State := if f.pending.contains k then s else s.updFn fn (fun x => { x with pending := x.pending ++ [k] })
  if s.dev.romRecovery then s
  else if f.cfg.msixEn then pend vec
  else if f.cfg.msiEn then pend (msiNumber fn f.cfg.mme vec)
  else if fn = 0 && !s.pcie.inta && !s.pcie.intDisable && s.pcie.dlUp then
    let s1 : State := { s with pcie := { s.pcie with inta := true } }
    if s.pcie.squallUr then s1 else s1.emit (.inta true)
  else s

/-- The route word of a block source (05 R139). -/
def State.route (s : State) (n : Nat) : Word := s.reg pIRQ (0x100 + 4 * n) 0x8040#32

/-- Request on the route of a block source (05 R143); a source without VALID requests nothing. -/
def State.requestBlock (s : State) (n : Nat) : State :=
  let r := s.route n
  if r.getLsbD 15 then
    let fn := bits r 13 8
    if fn = 0 then s.request 0 (bits r 6 0) else s.request (Fin.ofNat 64 fn) 8
  else s

/-- A block source routed to a VF sets TNT_BLOCK_NOTICE of that VF's tenant each time it becomes asserted (R140). -/
def State.noticeBlock (s : State) (n : Nat) : State :=
  let r := s.route n
  if r.getLsbD 15 && bits r 13 8 ≠ 0 then
    match s.vfTenant (Fin.ofNat 64 (bits r 13 8)) with
    | some t => s.updTnt t (fun x => { x with notice := some (Fin.ofNat 1024 n), noticeNo := BitVec.ofNat 10 n })
    | none => s
  else s

/-- The IRQ_TROUTE half of tenant source s = 8 × t + q. -/
def trouteIx (t : Tid) (q : Qid) : Fin 512 := ⟨8 * t.1 + q.1, by omega⟩

/-- Request on the route of a tenant source (05 R141, R143). -/
def State.requestTenant (s : State) (t : Tid) (q : Qid) : State :=
  let r := s.troutes[trouteIx t q]
  if r.valid then s.request (s.tenantFn t) r.vec.toNat else s

/-- The INT_STATUS bits of tenant source q: bit q, and for source 0 also bits [17:8] (05 R136). -/
def tenantSourceMask (q : Qid) : Word := if q.1 = 0 then 0x3FF01#32 else 1#32 <<< q.1

/-- Whether a tenant source is asserted. -/
def PageHdr.sourceOn (h : PageHdr) (m : Word) : Bool := decide (h.intStatus &&& h.intEnable &&& m ≠ 0#32)

/-! ## Asserted sources and INTA (06 R157, R158) -/

/-- Block sources with their pages and bits. -/
def blockSources : List (Page × Nat × Nat) :=
  (List.finRange 128).flatMap (fun p => (List.range (sourceBase p).2).map (fun b => (p, b, (sourceBase p).1 + b)))

/-- Function and vector of each asserted source with VALID = 1. -/
def State.assertedVectors (s : State) : List (Nat × Nat) :=
  (blockSources.filterMap (fun x =>
    let r := s.route x.2.2
    if r.getLsbD 15 && s.hdr[x.1].sourceOn (bitW true x.2.1) then
      some (if bits r 13 8 = 0 then (0, bits r 6 0) else (bits r 13 8, 8))
    else none)) ++
  allTids.flatMap (fun t => (List.finRange 8).filterMap (fun q =>
    let r := s.troutes[trouteIx t q]
    if r.valid && s.hdr[pTNT t].sourceOn (tenantSourceMask q) then some ((s.tenantFn t).1, r.vec.toNat) else none))

/-- PF0 is in INTA mode. -/
def State.intaMode (s : State) : Bool := !s.pcie.fns[(0 : Fn)].cfg.msixEn && !s.pcie.fns[(0 : Fn)].cfg.msiEn

/-- Assert_INTA or Deassert_INTA when what R157 wants differs from what was sent last. No link, no assertion; the ROM sends none
(05 R116). -/
def State.updInta (s : State) : State :=
  let want := s.intaMode && !s.pcie.intDisable && s.pcie.dlUp && !s.dev.romRecovery && s.assertedVectors.any (fun x => x.1 = 0)
  if want = s.pcie.inta then s
  else
    let s1 : State := { s with pcie := { s.pcie with inta := want } }
    if s.pcie.squallUr then s1 else s1.emit (.inta want)

/-! ## Events -/

/-- Bits of INT_STATUS that exist on a page (05 R137; 06 R179 reserves bits [15:12] of PCIE_INT_STATUS). -/
def intMask (p : Page) : Word :=
  match tenantOfPage p with
  | some _ => 0x3FFFF#32
  | none => if p = pPCIE then 0xFFF#32 else BitVec.ofNat 32 (2 ^ (sourceBase p).2 - 1)

/-- The feature a tenant event belongs to (07 R223); none: it belongs to no feature. -/
def eventFeature (b : Nat) : Option Nat :=
  match b with
  | 9 => some 0 | 10 => some 3 | 11 => some 0 | 12 => some 13 | 13 => some 15 | 17 => some 4 | _ => none

/-- Whether a tenant event may set: a bit whose feature the tenant has not accepted never sets (07 R223). -/
def State.eventAllowed (s : State) (t : Tid) (b : Nat) : Bool :=
  match eventFeature b with
  | some f => s.hasFeat t f
  | none => true

/-- The tenant source a bit of TNT_INT_STATUS belongs to. -/
def sourceOfBit (b : Nat) : Qid := if h : b < 8 then ⟨b, h⟩ else 0

/-- A hardware event sets an INT_STATUS bit; a source that becomes asserted requests its message (05 R135, R136, R143). -/
def State.raise (s : State) (p : Page) (b : Nat) : State :=
  let m := bitW true b
  if (intMask p &&& m) = 0#32 then s
  else
    match tenantOfPage p with
    | some t =>
      if s.eventAllowed t b then
        let q := sourceOfBit b
        let before := s.hdr[p].sourceOn (tenantSourceMask q)
        let s1 := s.updHdr p (fun h => { h with intStatus := h.intStatus ||| m })
        if !before && s1.hdr[p].sourceOn (tenantSourceMask q) then s1.requestTenant t q else s1
      else s
    | none =>
      let before := s.hdr[p].sourceOn m
      let s1 := s.updHdr p (fun h => { h with intStatus := h.intStatus ||| m })
      if !before && s1.hdr[p].sourceOn m then
        (s1.noticeBlock ((sourceBase p).1 + b)).requestBlock ((sourceBase p).1 + b)
      else s1

/-- Set an event bit of a tenant page. -/
def State.raiseTnt (s : State) (t : Tid) (b : Nat) : State := s.raise (pTNT t) b

/-- Set an event bit of every tenant that meets a test, in tenant order. -/
def State.raiseTenants (s : State) (p : State → Tid → Bool) (b : Nat) : State :=
  allTids.foldl (fun a t => if p a t then a.raiseTnt t b else a) s

/-! ## Counted errors (05 R126) -/

/-- The error causes of 05 R126. -/
def eRESERVED : Byte := 0x01
def eREADONLY : Byte := 0x02
def eWRITEONCE : Byte := 0x03
def eLOCKED : Byte := 0x04
def ePARTIAL : Byte := 0x05
def eVALUE : Byte := 0x06
def eVFDENIED : Byte := 0x07
def eFEATURE : Byte := 0x08
def eKEY : Byte := 0x09
def eFRAME : Byte := 0x0A

/-- ERR_ADDR: offset in the BAR, space code and VF number (05 R123). -/
def errAddr (off space vf : Nat) : Word := BitVec.ofNat 32 (off % 2 ^ 20 + space * 2 ^ 20 + vf * 2 ^ 22)

/-- Count an error in a page: cause, address and count together; DEV also sets ACCESS_ERR (05 R126, R145). -/
def State.countErr (s : State) (p : Page) (cause : Byte) (addr : Word) : State :=
  let s1 := s.updHdr p (fun h => { h with errCause := cause, errAddr := addr, errCount := satInc h.errCount })
  if p = pDEV then s1.raise pDEV 1 else s1

/-! ## AER (06 R178) -/

/-- Set a bit of the uncorrectable status register; an unmasked error that finds no first error takes the pointer and the header log (log
entry 78). -/
def FnS.logUnc (f : FnS) (bit : Nat) : FnS :=
  let m := bitW true bit
  let take := f.aerFirst.isNone && decide (f.aerUncMask &&& m = 0#32)
  { f with aerUnc := f.aerUnc ||| m, aerFirst := if take then some bit else f.aerFirst, aerLogs := if take then f.aerLogs + 1 else f.aerLogs }

/-- Log an uncorrectable error of a function by its bit; its severity register says whether it is fatal. -/
def State.aerUncorrectable (s : State) (fn : Fn) (bit : Nat) : State := (s.updFn fn (fun f => f.logUnc bit)).raise pPCIE 9

/-- Log a correctable error of a function by its bit. -/
def State.aerCorrectable (s : State) (fn : Fn) (bit : Nat) : State :=
  (s.updFn fn (fun f => { f with aerCorr := f.aerCorr ||| bitW true bit })).raise pPCIE 10

/-- Log an advisory non-fatal error: its uncorrectable bit and the Advisory Non-Fatal bit; one the host has made fatal is no advisory one
(log entry 78). -/
def State.aerAdvisory (s : State) (fn : Fn) (bit : Nat) : State :=
  if s.pcie.fns[fn].aerSev.getLsbD bit then s.aerUncorrectable fn bit
  else (s.updFn fn (fun f => { f.logUnc bit with aerCorr := f.aerCorr ||| bitW true 13 })).raise pPCIE 10

/-- A TLP received with EP set: counted, POISON_RX, and Poisoned TLP Received (06 R165, R179). -/
def State.poisonReceived (s : State) (fn : Fn) : State :=
  ((({ s with pcie := { s.pcie with poisonRx := satInc s.pcie.poisonRx } } : State).raise pPCIE 7).aerAdvisory fn 12)

/-! ## Event records (11 R361 to R367) -/

/-- DEV_STATUS (05 R145). -/
def Level.code : Level → Nat
  | .none => 0 | .gust => 1 | .full => 2 | .recovery => 3

def State.devStatus (s : State) : Word :=
  fieldW s.dev.level.code 0 ||| bitW s.dev.featErr 2 ||| bitW s.dev.featLock 3 ||| bitW s.dev.romRecovery 4

/-- TNT_STATUS (07 R222). -/
def State.tntStatus (s : State) (t : Tid) : Word :=
  let x := s.tnt[t]
  bitW x.resetDone 0 ||| bitW x.featErr 1 ||| bitW (s.tntLocked t) 2 ||| fieldW x.binding 3 |||
    bitW x.gustTenant 5 ||| bitW x.xts.isSome 6 ||| bitW x.gcm.isSome 7 ||| fieldW x.epoch.toNat 8

/-- The STATUS register of a page's common header, offset 0x024: DEV and the tenant pages define one. -/
def State.hdrStatus (s : State) (p : Page) : Word :=
  if p = pDEV then s.devStatus
  else match tenantOfPage p with
    | some t => s.tntStatus t
    | none => 0#32

/-- The record a source writes now (R361). -/
def State.mkRec (s : State) (code : Nat) (sev : Fin 4) (tenant : Byte) (detail : List Byte) (rom : Bool) : EvRec :=
  { seq := s.aon.nextSeq, opTime := s.opTime, cycles := BitVec.ofNat 32 s.cycleCount, sev := sev,
    untrusted := s.untrusted, rom := rom, tenant := tenant, code := BitVec.ofNat 16 code,
    utc := BitVec.ofNat 64 s.utc, detail := padTo 28 detail }

/-- The 64 bytes of a record (R361). -/
def EvRec.bytes (r : EvRec) : List Byte :=
  let body := leBytes 8 r.seq ++ leBytes 4 r.opTime.toNat ++ leBytes 4 r.cycles.toNat ++
    [BitVec.ofNat 8 (r.sev.1 + (if r.untrusted then 4 else 0) + (if r.rom then 8 else 0)), r.tenant] ++
    leBytes 2 r.code.toNat ++ zeroBytes 4 ++ leBytes 8 r.utc.toNat ++ padTo 28 r.detail
  body ++ leBytes 4 (Config.crc32c body).toNat

/-- The victim in the full AON buffer: lowest SEQ among the records no pass has taken whose severity is no higher. -/
def bufVictim (l : List BufRec) (sev : Fin 4) : Option Nat :=
  (l.find? (fun b => !b.taken && b.ev.sev.1 ≤ sev.1)).map (fun b => b.ev.seq)

/-- Raise the SEQ reservation once the next SEQ comes within 256 of it (R521). -/
def State.reserveSeq (s : State) : State :=
  if s.aon.seqKnown && decide (s.nvm.seqReserved < s.aon.nextSeq + 256) && decide (s.dev.level ≠ .none) &&
      !s.dev.romRecovery then
    { s with nvm := { s.nvm with seqReserved := s.aon.nextSeq + 1024 } }
  else s

/-- A record dropped or displaced counts in EVR_DROPPED, which saturates, and sets EVR_INT_STATUS.DROPPED. -/
def State.countDropped (s : State) : State :=
  ({ s with nvm := { s.nvm with evDropped := min (s.nvm.evDropped + 1) 0xFFFFFFFF } } : State).raise pEVR 1

/-- Put a record into the AON buffer (R366, R367). -/
def State.bufferRec (s : State) (r : EvRec) : State :=
  let put (a : State) (l : List BufRec) : State :=
    { a with aon := { a.aon with evBuf := l ++ [{ ev := r, at_ := a.now, taken := false }],
                                 nextSeq := a.aon.nextSeq + 1 } }
  if s.aon.evBuf.length < 256 then (put s s.aon.evBuf).reserveSeq
  else
    match bufVictim s.aon.evBuf r.sev with
    | some q => (put s (s.aon.evBuf.filter (fun b => b.ev.seq ≠ q))).countDropped.reserveSeq
    | none => s.countDropped

/-- What each critical record also does: EVR_INT_STATUS.CRITICAL (R372) and the I²C alert (13 R413). -/
def State.critical (s : State) (code : Nat) : State :=
  ({ s with evr := { s.evr with newestCrit := BitVec.ofNat 16 code, critSeen := true },
            i2ct := { s.i2ct with alert := true } } : State).raise pEVR 0

/-- Write an event record with a CODE, a severity, a tenant and a DETAIL. -/
def State.recordAs (s : State) (rom : Bool) (code : Nat) (sev : Fin 4) (tenant : Byte) (detail : List Byte) : State :=
  let s1 := s.bufferRec (s.mkRec code sev tenant detail rom)
  if sev = 3 then s1.critical code else s1

/-- A record of Adeit or of the hardware. -/
def State.record (s : State) (code : Nat) (sev : Fin 4) (tenant : Byte) (detail : List Byte) : State :=
  s.recordAs false code sev tenant detail

/-- No tenant (R361). -/
def noTenant : Byte := 0xFF

/-- A tenant's number as a byte. -/
def tidByte (t : Tid) : Byte := BitVec.ofNat 8 t.1

/-- CODE of a status-bit event (R362). -/
def bitCode (p : Page) (b : Nat) : Nat := p.1 * 256 + b

/-- Set a status bit and write its record: DETAIL opens with INT_STATUS (R363), then the fields the table gives. -/
def State.raiseRec (s : State) (p : Page) (b : Nat) (sev : Fin 4) (tenant : Byte) (detail : List Byte) : State :=
  let s1 := s.raise p b
  s1.record (bitCode p b) sev tenant (leBytes 4 s1.hdr[p].intStatus.toNat ++ detail)

/-- As `raiseRec`, for an event the table gives no fields: the STATUS register follows (R363). -/
def State.raiseRecStatus (s : State) (p : Page) (b : Nat) (sev : Fin 4) (tenant : Byte) : State :=
  let s1 := s.raise p b
  s1.record (bitCode p b) sev tenant (leBytes 4 s1.hdr[p].intStatus.toNat ++ leBytes 4 (s1.hdrStatus p).toNat)

/-! ## Commands (07) -/

/-- Change the command that holds a tag. -/
def State.updCmd (s : State) (tag : Tag) (f : Cmd → Cmd) : State :=
  { s with hqm := { s.hqm with cmds := s.hqm.cmds.upd tag.1 f } }

/-- The command that holds a tag. -/
def State.cmd (s : State) (tag : Tag) : Option Cmd := s.hqm.cmds.find tag.1

end Sys2Proof.Machine
end

