-- ==== Sys2Proof/Machine/Budget.lean ====
section
/-!
DEFINITION. The dirty budget (03 R75 to R79), its tokens (01 R22, R23) and what shrinks it (03 R78).
-/
namespace Sys2Proof.Machine

/-- E_FIXED and E_BUF of 03 R76, in mJ and µJ. -/
def eFixedMJ : Nat := 300
def eBufUJ : Nat := 32
/-- The safe floor of 01 R16. -/
def safeFloor : Nat := 256

/-- The terms of R75 over one denominator. With D = ETA × V_MIN × I_T and N = V_MIN × D + 100 × P_SQUALL × dV, V_STOP is
N / D mV; the first component is 2 D² S × E_BANK in nJ with C = 1000 I_T / S mF, the second 2 D² S. -/
def bankTerms (d : BoardDesc) (v0 : Nat) (dV : Int) (slope : Nat) (spent : Bool) : Int × Int :=
  let D : Int := d.eta * d.vMin * d.iT
  let N : Int := d.vMin * D + 100 * d.pSquall * dV
  let ep : Int := if spent then (v0 * d.iT * d.tLoad : Nat) else 0
  (1000 * d.iT * ((v0 * v0 : Nat) * D * D - N * N) - 2 * D * D * slope * ep, 2 * D * D * slope)

/-- E_AVAIL = ETA × E_BANK, in mJ rounded down and clamped at 0 (R75; the rounding is log entry 10). -/
def holdupEnergy (d : BoardDesc) (v0 : Nat) (dV : Int) (slope : Nat) (spent : Bool) : Nat :=
  let x := bankTerms d v0 dV slope spent
  ((d.eta * x.1) / (100 * x.2 * 1000000)).toNat

/-- B of R75, clamped below at 0: floor of (0.75 × E_AVAIL − E_FIX) / E_PER_BUF. -/
def holdupB (d : BoardDesc) (v0 : Nat) (dV : Int) (slope : Nat) (spent : Bool) : Nat :=
  let x := bankTerms d v0 dV slope spent
  let efix : Int := ((eFixedMJ + d.eFixedBoard) * 1000000 : Nat)
  let eper : Int := ((eBufUJ + d.eBufBoard) * 1000 : Nat)
  ((3 * d.eta * x.1 - 400 * x.2 * efix) / (400 * x.2 * eper)).toNat

/-- The pool that holds unflushed data: 1,920 SRAM buffers, or at FULL the configured DRAM pool (R75). -/
def State.poolLimit (s : State) : Nat := if s.dev.level = .full then s.bpm.dram.size else 1920

/-- PWR_BUDGET: a measurement is clamped at the pool of its time, and a smaller pool shrinks the budget; a larger one lets it grow only when
the next measurement completes (R75, R78, 01 R23; log entry 11). -/
def State.budget (s : State) : Nat := min s.pwr.eb s.poolLimit

/-- Tokens held by acknowledged dirty buffers (R22, R82). -/
def State.held (s : State) : Nat := s.bpm.bufs.countv (fun b => b.dirty)

/-- Tokens a tenant holds (07 R222). -/
def State.heldBy (s : State) (t : Tid) : Nat := s.bpm.bufs.countv (fun b => b.dirty && b.tenant = t)

/-- TNT_DIRTY_HELD: 0 unless DIRTY_BUDGET is accepted (07 R222, R520). -/
def State.dirtyHeld (s : State) (t : Tid) : Nat := if s.hasFeat t 13 then s.heldBy t % 2 ^ 20 else 0

/-- Set the energy budget; a fall of the budget sets BUDGET_SHRINK in PWR and in the tenants (R23, R83, 07 R223). -/
def State.setEb (s : State) (n : Nat) : State :=
  let s1 : State := { s with pwr := { s.pwr with eb := n } }
  if s1.budget < s.budget then (s1.raise pPWR 0).raiseTenants (fun _ _ => true) 12 else s1

/-- Whether a probe has measured the bank in this start and its result is in use. -/
def State.measured (s : State) : Bool := s.pwr.hold = .good || s.pwr.hold = .degraded

/-- E_PROBE_SPENT applies while a probe runs (R75). -/
def State.probeRunning (s : State) : Bool := decide (s.pwr.probe ≠ .idle)

/-- A reading below the V0 in use recomputes the formula with it and the last C and ESR (R78). -/
def State.vcapReading (s : State) (mV : Nat) : State :=
  match s.boot.desc with
  | some d =>
    if s.measured && decide (mV < s.pwr.vUse) then
      let b := holdupB d mV s.pwr.dV s.pwr.slope s.probeRunning
      ({ s with pwr := { s.pwr with vUse := mV } } : State).setEb (min s.pwr.eb b)
    else s
  | none => s

/-- A probe's start shrinks the budget by E_PROBE_SPENT (R78). Before the first completed probe the safe floor holds. -/
def State.probeShrink (s : State) : State :=
  match s.boot.desc with
  | some d =>
    if s.measured then s.setEb (min s.pwr.eb (holdupB d s.pwr.vUse s.pwr.dV s.pwr.slope true)) else s
  | none => s

/-- I2CI_STATUS.STUCK puts the hold-up state at SKIPPED, its budget the safe floor, never a growth (R77, R78). -/
def State.holdupSkipped (s : State) : State :=
  ({ s with pwr := { s.pwr with hold := .skipped } } : State).setEb (min s.pwr.eb safeFloor)

/-- A PMIC fault shrinks the budget at once; the manual gives no amount, so the new budget is a free value below the old
one (R78, log entry 12). -/
def State.pmicShrink (s : State) : State :=
  (s.setEb (s.freeVal.toNat % max s.budget 1)).drawn

end Sys2Proof.Machine
end

