-- ==== Sys2Proof/Machine/Reset.lean ====
section
/-!
DEFINITION. Chip reset (03 R61 to R64), the clocks' start after it, changes of service level, and the start of Squall
(11 R348, R349).
-/
namespace Sys2Proof.Machine

/-- Causes of 03 R84, as bit numbers of RST_CAUSE. -/
inductive RstCause where
  | powerOn | chip | watchdog | software | squallRestart | clockLoss | squallRan
deriving DecidableEq, Repr

def RstCause.bit : RstCause → BitVec 7
  | .powerOn => 1 | .chip => 2 | .watchdog => 4 | .software => 8 | .squallRestart => 16 | .clockLoss => 32
  | .squallRan => 64

/-- AON collects a cause in its accumulator (R63). -/
def State.addCause (s : State) (c : RstCause) : State :=
  { s with aon := { s.aon with causeAcc := s.aon.causeAcc ||| c.bit } }

/-- A partial import is discarded (14 R456): a zone from the unowned pool goes back to it, one of the tenant's own is EMPTY again. -/
def Nvm.dropPartial (n : Nvm) (i : Import) : Nvm :=
  { n with
    sealRecs := n.sealRecs.del i.zone,
    zones := if i.fresh then n.zones.del i.zone else n.zones.upd i.zone (fun z => { z with
      st := .empty, wp := 0, gen := z.gen + 1, firstT := 0, lastT := 0, fullT := 0, log := [], origin := none }) }

/-- What NOR, OTP and the media hold through a reset: partial imports are discarded, and the accumulators and MTR_TOTAL resume
from their last checkpoint, so that a reset amid the round of a quarter-hour boundary leaves them balanced (12 R383, R384; log
entry 132). -/
def State.keptNvm (s : State) : Nvm :=
  { s.vfr.imports.foldl Nvm.dropPartial s.nvm with accs := s.nvm.ckptAccs, total := s.nvm.ckptTotal }

/-- A chip reset: everything but AON and what NOR, OTP and the media hold; DEV_STRAP keeps its fields until the straps
are sampled again (R61, 02 R50). A running pass of the event buffer is cut short and its records stay. -/
def State.chipReset (s : State) : State :=
  { State.reset with
    pending := s.pending, now := s.now, freeCtr := s.freeCtr, outbox := s.outbox,
    nvm := s.keptNvm,
    aon := { s.aon with passOn := false, evBuf := s.aon.evBuf.map (fun b => { b with taken := false }),
                        optBase := s.opSecs, optRun := false },
    pins := { s.pins with gpioOut := 0#4, led := false, wake := false },
    dev := { DevS.reset with strap := s.dev.strap } }

/-- The operating time a start resumes from (15 R483): the stored value after a Squall that reached step 8, else the next
whole hour above it; 0 at the unit's first start. -/
def Nvm.resumeTime (n : Nvm) : Nat :=
  if n.starts = 0 then 0 else if n.optExact then n.optStored else (n.optStored / 3600 + 1) * 3600

/-- Repairs of a bank in force: the OTP table's and those kept to the next power-on (10 R331). -/
def State.repairsOf (s : State) (mem bank : Nat) : Nat :=
  ((s.nvm.repairs ++ s.aon.extraRep).filter (fun r => r.1 = mem && r.2.1 = bank)).length

/-- Reset release: the root PLL locks, the destructive march test of the three memories runs (10 R329), AON retires the reset, the operating time runs again and the start is counted
(03 "Clock start after reset release", 15 R483, R485). -/
def State.release (s : State) : State :=
  { s with
    clk := { s.clk with pllLock := true },
    sram := { s.sram with
      mode := true, targets := [0, 1, 2],
      spares := Vector.ofFn (fun b : Fin 16 => 4 - s.repairsOf 0 b.1),
      sparesH := Vector.ofFn (fun b : Fin 2 => 2 - s.repairsOf 1 b.1),
      sparesC := Vector.ofFn (fun b : Fin 4 => 4 - s.repairsOf 2 b.1) },
    gpio := { s.gpio with changeAt := s.now },
    boot := { s.boot with releaseAt := s.now, prevFull := s.nvm.reachedFull },
    aon := { s.aon with optBase := s.nvm.resumeTime, optAt := s.now, optRun := true },
    nvm := { s.nvm with optStored := s.nvm.resumeTime, optExact := false, reachedFull := false,
                        starts := s.nvm.starts + 1 } }

/-- A chip reset from inside, whose release follows at once, as RESET_IN_L is high; while it is low the start
waits for RESET_RELEASE. -/
def State.restart (s : State) : State :=
  let s1 := s.chipReset
  if s1.pins.resetIn then s1.release else s1

/-- An internal reset with a cause of its own. -/
def State.internalReset (s : State) (c : RstCause) : State := (s.addCause c).restart

/-- Out of reset and of Squall's final hold: a reset held off by Squall has not taken effect (02 R39), and the backup clocks take
over from a root PLL that lost lock (03 R59). -/
def State.awake (s : State) : Bool :=
  (s.pins.resetIn || s.squall.resetHeld) && (s.clk.pllLock || s.clk.tripped) && !s.squall.hold

/-- Operation outside reset and Squall. -/
def State.active (s : State) : Bool := s.awake && !s.squall.running

/-- GUST and FULL: the levels at which the media serve the host. -/
def State.serving (s : State) : Bool := s.active && (s.dev.level = .gust || s.dev.level = .full)

/-- A change of DEV_STATUS.SERVICE_LEVEL: UPD_INT_STATUS.SERVICE_CHANGE, the tenants' SERVICE_CHANGE and the I²C alert
(04 R115, 07 R223, 13 R413). -/
def State.setLevel (s : State) (l : Level) : State :=
  if s.dev.level = l then s
  else
    (({ s with dev := { s.dev with level := l }, i2ct := { s.i2ct with alert := true } } : State).raise pUPD 0).raiseTenants
      (fun _ _ => true) 16

/-- The levels memory of a bank reading: the last VCAP_SENSE reading in mV (slot 6, 15 R473), 0 before one. -/
def State.vcapNow (s : State) : Nat := (s.hkp.reads[6]).toNat

/-- Bits of the Squall cause (11 R348). -/
def sqPFAIL : Byte := 1
def sqVSUP : Byte := 2
def sqCLOCK : Byte := 4
def sqTHERMAL : Byte := 8
def sqWATCHDOG : Byte := 16
def sqSOFTWARE : Byte := 32

/-- The GPIO field of pin n: DIR, FUNCTION, IDLE (13 R423). -/
def BoardDesc.gpio (d : BoardDesc) (n k : Nat) : Nat := (d.gpioField.getD (4 * n + k) 0).toNat

/-- The level of output GPIOn by its function (13 R424). -/
def State.gpioFunction (s : State) (d : BoardDesc) (n : Nat) : Bool :=
  match d.gpio n 1 with
  | 0 => (s.reg pGPIO 0x104 0#32).getLsbD n
  | 1 => allTids.any (fun t => match s.tnt[t].lastAck with | some a => decide (s.now < a + 10000000) | none => false)
  | 2 => match s.gpio.eventAt with | some a => decide (s.now < a + 5000000) | none => false
  | 3 => s.evr.critSeen
  | _ => false

/-- The four output levels; an input contributes 0. -/
def State.gpioOutputs (s : State) : BitVec 4 :=
  match s.boot.desc with
  | none => 0#4
  | some d => BitVec.ofNat 4 ((List.range 4).foldl (fun a n =>
      if d.gpio n 0 ≠ 0 && s.gpioFunction d n then a + 2 ^ n else a) 0)

/-- STATUS_LED_L lit (13 R425); the phase of its pattern is counted from the model's time 0 (log entry 26). -/
def State.ledOn (s : State) : Bool :=
  match s.boot.desc with
  | none => false
  | some d =>
    if (d.gpioField.getD 0x10 0) = 1 then (s.reg pGPIO 0x104 0#32).getLsbD 4
    else match s.dev.level with
      | .none => false
      | .gust => decide (s.now % 1000000 < 500000)
      | .full => true
      | .recovery => decide (s.now % 250000 < 125000)

/-- AON notes when a supply condition of 03 R64 last failed. -/
def State.supplySeen (s : State) (cause : Byte) : State :=
  { s with aon := { s.aon with
      pfailAt := if cause = sqPFAIL then s.now else s.aon.pfailAt,
      vsupAt := if cause = sqVSUP then s.now else s.aon.vsupAt } }

/-- A watchdog or software cause enters the accumulator as it occurs (03 R63). -/
def State.collect (s : State) (cause : Byte) : State :=
  if cause = sqWATCHDOG then s.addCause .watchdog else if cause = sqSOFTWARE then s.addCause .software else s

/-- Squall starts: Lull ends, SQUALL_START is recorded, the debugger lets go (15 R494), the endpoint enters 06 R177 and no fetch or
completion follows (11 R350 step 1). A start before the media are in use runs only steps 1, 9 and 11 (11 R357). -/
def State.squallStart (s : State) (cause : Byte) : State :=
  let detail := [cause] ++ zeroBytes 3 ++ leBytes 4 s.held ++ leBytes 4 s.budget ++ leBytes 2 s.vcapNow
  let s1 := s.record 0x1B40 1 noTenant detail
  { s1 with
    nvm := { s1.nvm with squalls := s1.nvm.squalls + 1 },
    pwr := { s1.pwr with lull := false, probe := .idle, probeDue := false },
    pcie := { s1.pcie with squallUr := true },
    dbg := { s1.dbg with halted := 0#4, seqHalted := 0#10, triggers := [], breaks := [] },
    pins := { s1.pins with gpioOut := s.gpioOutputs, led := s.ledOn },
    squall := { s1.squall with
      running := true, step := 1, causes := cause, hold := false, dirty := s.held, vcap0 := s.vcapNow, vcap8 := 0,
      short := !s.boot.nandOk || s.dev.romRecovery, clock := decide (cause = sqCLOCK) } }

/-- A Squall trigger: Squall starts, or adds its cause bit to the one that runs (11 R348, R349), and AON collects a watchdog or
software cause. In the final hold a failing supply restarts its count of 03 R64. -/
def State.squallTrigger (s : State) (cause : Byte) : State :=
  let s0 := s.supplySeen cause
  if s.squall.hold || !s.awake then s0
  else
    let s1 := s0.collect cause
    if s.squall.running then { s1 with squall := { s1.squall with causes := s1.squall.causes ||| cause } }
    else s1.squallStart cause

end Sys2Proof.Machine
end

