-- ==== Sys2Proof/Machine/Fabric.lean ====
section
/-!
DEFINITION. The base of the Vuold fabric (14): addresses, packet protection, credits, the sending order of a port, routing of a
packet by the two tables, and a link that leaves UP.
-/
namespace Sys2Proof.Machine

/-! ## Roles and addresses (02 R36, 14 R447) -/

def State.windward (s : State) : Bool := s.dev.strap.mirror = 1#2
def State.leeward (s : State) : Bool := s.dev.strap.mirror = 2#2

/-- The node's address; 0xFFFF while it is unaddressed: no valid NODE_ADDR, or it gave way in a conflict (R447, R449). -/
def State.ownAddr (s : State) : BitVec 16 :=
  match s.boot.desc with
  | some d => if d.node = 0#16 || s.vfr.conflict then 0xFFFF#16 else d.node
  | none => 0xFFFF#16

def State.addressed (s : State) : Bool := s.ownAddr ≠ 0xFFFF#16

/-- MIRROR_PARTNER of the board descriptor. -/
def State.partner (s : State) : BitVec 16 := match s.boot.desc with | some d => d.partner | none => 0xFFFF#16

/-- The fabric runs: FULL, FAB powered, its clocks from the crystal, Pipe G in use (R431, R439, 03 R59; 14, edge case). -/
def State.fabricRuns (s : State) : Bool :=
  s.active && s.dev.level = .full && s.pwr.doms[4].st = .on && s.pwr.doms[4].loaded && decide (s.pwr.doms[4].readyAt ≤ s.now) && !s.clk.backup &&
    !s.dbg.seqHalted.getLsbD 8

/-- Whether a port is present (R431). -/
def State.portPresent (s : State) (p : Fin 4) : Bool := match s.boot.desc with | some d => d.ports.getLsbD p.1 | none => false

def State.updVfl (s : State) (p : Fin 4) (f : VflS → VflS) : State := { s with vfl := s.vfl.set p (f s.vfl[p]) }

/-- A link comes up only with an installed fleet key and node certificate (R432). -/
def State.canLink (s : State) : Bool := s.nvm.fleetKey.isSome && s.nvm.cert.isSome

/-- A port has changed its state: an advertisement is due (R448). -/
def State.advDue (s : State) : State := { s with vfr := { s.vfr with advDue := true } }

/-- Present ports that are not in bring-up seek block lock, or stay DOWN (R431, R432, R436 step 1). -/
def State.startPorts (s : State) : State :=
  let st : LinkSt := if s.canLink && !s.clk.backup then .training else .down
  let starts (p : Fin 4) : Bool := s.portPresent p && (s.vfl[p].st = .absent || s.vfl[p].st = .down) && decide (s.vfl[p].st ≠ st)
  let s1 := if (List.finRange 4).any starts then s.advDue else s
  { s1 with vfl := Vector.ofFn (fun p : Fin 4 => if starts p then { s.vfl[p] with st := st } else s.vfl[p]) }

/-! ## Packets (R440, R441) -/

/-- 256-byte slots a packet occupies. -/
def slotsOf (len : Nat) : Nat := (32 + len + 255) / 256

/-- Header bytes 0x00 to 0x0F. -/
def hdrAad (h : PktHdr) : List Byte :=
  leBytes 2 h.dest.toNat ++ leBytes 2 h.src.toNat ++ [h.type, BitVec.ofNat 8 (h.vc.toNat + 4 * h.hops.toNat)] ++
    leBytes 2 h.len.toNat ++ [h.txn, h.flags, h.tenant, h.epoch] ++ leBytes 4 h.seq.toNat

/-- Whether a packet carries a GCM tag: VC0 and VC1 but HELLO and CONFIRM (R441). -/
def gcmPacket (type : Byte) (vc : Nat) : Bool := decide (vc < 2) && decide (type ≠ 0x01) && decide (type ≠ 0x02)

/-- The IV of a packet: the sender's salt, the VC, three zero bytes, SEQ. -/
def linkIv (salt : Word) (vc seq : Nat) : List Byte := beBytes 4 salt.toNat ++ [BitVec.ofNat 8 vc, 0, 0, 0] ++ beBytes 4 seq

/-- The CRC-32C in the place of the tag. -/
def crcTag (h : PktHdr) (payload : List Byte) : QWord := tagOf (leBytes 4 (Config.crc32c (hdrAad h ++ payload)).toNat ++ zeroBytes 12)

/-- The header and payload as they go on a link with a sequence number. -/
def VflS.protect (l : VflS) (p : OutPkt) (seq : Nat) : PktHdr × List Byte :=
  let h : PktHdr := { dest := p.dest, src := p.src, type := p.type, vc := BitVec.ofNat 2 p.vc.1, hops := p.hops,
                      len := BitVec.ofNat 13 p.payload.length, txn := p.txn, flags := p.flags, tenant := p.tenant,
                      epoch := p.epoch, seq := BitVec.ofNat 32 seq, tag := 0 }
  if gcmPacket p.type p.vc.1 then
    let iv := linkIv l.saltOut p.vc.1 seq
    let c := Config.gcmCtr l.key iv p.payload
    ({ h with tag := Config.gcmTag l.key iv (hdrAad h) c }, c)
  else ({ h with tag := crcTag h p.payload }, p.payload)

/-! ## Sending (R443, R445) -/

/-- Whether a packet may go on a link in its state: HELLO and CONFIRM in the handshake, the rest on a link that is UP and does
not rekey. -/
def VflS.carries (l : VflS) (p : OutPkt) : Bool :=
  if p.type = 0x01 || p.type = 0x02 then l.st = .hello || l.rekeying else l.st = .up && !l.rekeying

/-- The first waiting packet of a VC, when the sender holds credits for all of it. -/
def VflS.headOf (l : VflS) (v : Fin 3) : Option OutPkt :=
  match l.txq.find? (fun p => p.vc = v) with
  | some p => if l.carries p && decide (slotsOf p.payload.length ≤ l.credits[v]) then some p else none
  | none => none

/-- The packet a port sends next, and the run of VC1 packets after it: VC0 first, then up to 3 of VC1 for each of VC2. -/
def VflS.pick (l : VflS) : Option (OutPkt × Nat) :=
  match l.headOf 0, l.headOf 1, l.headOf 2 with
  | some p, _, _ => some (p, l.run)
  | none, some a, some b => if l.run < 3 then some (a, l.run + 1) else some (b, 0)
  | none, some a, none => some (a, 0)
  | none, none, some b => some (b, 0)
  | none, none, none => none

/-- Send one packet: its credits are taken and outstanding, its SEQ the next of its VC. -/
def State.sendOne (s : State) (port : Fin 4) : Option State :=
  match s.vfl[port].pick with
  | none => none
  | some (p, run) =>
    let l := s.vfl[port]
    let n := slotsOf p.payload.length
    let seq := l.seqOut[p.vc] + 1
    let x := l.protect p seq
    some ((s.updVfl port (fun y => { y with
      txq := y.txq.erase p, run := run, tx := satInc y.tx, seqOut := y.seqOut.set p.vc seq,
      credits := y.credits.set p.vc (y.credits[p.vc] - n), outst := y.outst.set p.vc (y.outst[p.vc] + n) })).emit
        (.packet port x.1 x.2))

/-- Send what a port can send. -/
def State.drainPort (s : State) (port : Fin 4) : Nat → State
  | 0 => s
  | k + 1 => match s.sendOne port with | some s1 => State.drainPort s1 port k | none => s

/-- Put a packet on a port. -/
def State.sendOn (s : State) (port : Fin 4) (p : OutPkt) : State :=
  let s1 := s.updVfl port (fun y => { y with txq := y.txq ++ [p] })
  s1.drainPort port s1.vfl[port].txq.length

/-- A packet of this node. -/
def State.newPkt (s : State) (type : Byte) (vc : Fin 3) (dest : BitVec 16) (tenant epoch : Byte) (payload : List Byte) : OutPkt :=
  { type := type, vc := vc, dest := dest, src := s.ownAddr, hops := 63#6, txn := 0, flags := 0, tenant := tenant, epoch := epoch,
    payload := payload, at_ := s.now, fwd := false }

/-! ## Routing of a packet (R452) -/

/-- The table entry for a destination: a port 0 to 3, 4 LOCAL, 7 NONE. An unaddressed node lies in no region (log entry 106). -/
def State.routeOf (s : State) (dest : BitVec 16) : BitVec 4 :=
  if !s.addressed || dest.toNat / 256 ≠ s.ownAddr.toNat / 256 then s.vfr.rtab[(⟨dest.toNat / 256, by omega⟩ : Fin 256)]
  else s.vfr.mtab[(⟨dest.toNat % 256, by omega⟩ : Fin 256)]

/-- The port to a destination, when there is a route. -/
def State.portTo (s : State) (dest : BitVec 16) : Option (Fin 4) :=
  let e := s.routeOf dest
  if h : e.toNat < 4 then some ⟨e.toNat, h⟩ else none

/-- Send a packet to its destination; an entry of NONE discards it. An unaddressed node forwards, and originates only advertisements (R449). -/
def State.sendPkt (s : State) (p : OutPkt) : State :=
  match (if p.fwd || s.addressed then s.portTo p.dest else none) with
  | some q => s.sendOn q p
  | none => s

/-- A payload of any length in packets of at most 4,096 bytes, the last with LAST (log entry 64). -/
def State.sendLong (s : State) (p : OutPkt) : State :=
  let n := (p.payload.length + 4095) / 4096
  (List.range (max n 1)).foldl (fun a k =>
    a.sendPkt { p with payload := slice p.payload (4096 * k) 4096, flags := if k + 1 < n then p.flags else p.flags ||| 2 }) s

/-! ## A link that leaves UP (R438, R439, R446) -/

/-- A link leaves the state it is in: its key is zeroised, its credits and outstanding slots are those of a link that has sent
nothing (log entry 62), its own waiting packets are gone, and an advertisement is due. -/
def State.linkLeave (s : State) (port : Fin 4) (dst : LinkSt) : State :=
  let up := s.vfl[port].st = .up
  let s1 := s.updVfl port (fun l => { l with
    st := dst, failAt := s.now, nbr := 0xFFFF#16, peer := 0, peerCert := [], ownEph := 0, peerEph := 0, key := 0, saltOut := 0,
    saltIn := 0, credits := Vector.replicate 3 32, outst := Vector.replicate 3 0, seqOut := Vector.replicate 3 0,
    seqIn := Vector.replicate 3 0, rekeying := false, fails := [], txq := l.txq.filter (fun p => p.fwd) })
  let s2 : State := { s1 with vfr := { s1.vfr with
    advDue := true, changeAt := if up then some (s1.vfr.changeAt.getD s1.now) else s1.vfr.changeAt } }
  if up then (s2.raise (pVFL port) 1).raise pVFR 1 else s2

/-- Every port leaves UP. -/
def State.linksDown (s : State) (dst : LinkSt) : State :=
  (List.finRange 4).foldl (fun a p => if a.vfl[p].st = .absent then a else a.linkLeave p dst) s

/-! ## The mirror pair (R460) -/

/-- The pair leaves IN_SYNC or RESYNC for SEPARATED or PARTNER_DOWN. -/
def State.mirLeave (s : State) (st : MirSt) (reason : BitVec 3) : State :=
  let s1 : State := { s with mir := { s.mir with
    st := st, reason := reason, separations := satInc s.mir.separations, backlog := [], synced := Vector.replicate 64 false,
    spaceAt := if reason = 5#3 then s.now else s.mir.spaceAt } }
  s1.raise pMIR (if st = .partnerDown then 3 else 0)

/-- The pair exchanges packets: RESYNC or IN_SYNC. -/
def State.paired (s : State) : Bool := s.mir.st = .resync || s.mir.st = .inSync

/-- Whether a tenant is mirrored: MIR_TENANTS (R472). -/
def State.mirrored (s : State) (t : Tid) : Bool :=
  (s.reg pMIR (0x108 + 4 * (t.1 / 32)) 0xFFFFFFFF#32).getLsbD (t.1 % 32)

/-- The windward streams a tenant's items to its partner: in sync, and in RESYNC after the tenant's backlog (R461, R469). -/
def State.streams (s : State) (t : Tid) : Bool :=
  s.windward && s.mirrored t && (s.mir.st = .inSync || (s.mir.st = .resync && s.mir.synced[t]))

/-- Send a mirror packet of a tenant to the partner (R461, R466). -/
def State.mirSend (s : State) (type : Byte) (vc : Fin 3) (t : Tid) (payload : List Byte) : State :=
  s.sendLong (s.newPkt type vc s.partner (tidByte t) s.tnt[t].epoch payload)

/-- MIR_STATE item codes of the model's payload, whose layout the manual does not give (log entry 64). -/
def State.mirStateItem (s : State) (t : Tid) (item : Byte) (payload : List Byte) : State :=
  if s.streams t then s.mirSend 0x23 1 t ([item] ++ payload) else s

/-- An item of the device and of no tenant, while the pair exchanges packets (R461). -/
def State.mirDeviceItem (s : State) (item : Byte) (payload : List Byte) : State :=
  if s.windward && s.paired then s.mirSend 0x23 1 0 ([item] ++ payload) else s

end Sys2Proof.Machine
end

