-- ==== Sys2Proof/Machine/Geometry.lean ====
section
/-!
DEFINITION. What the board descriptor and the policy fix of the media (09 R264 to R269, R280, R284, R291, R292): dies, die
groups, capacities, zones and the sizes of the SLC buffer.
-/
namespace Sys2Proof.Machine

/-- Whether a die is present: channel fitted, chip enable routed, LUN below LUNS_PER_CE (R264, R268). -/
def BoardDesc.diePresent (d : BoardDesc) (ch ce lun : Nat) : Bool :=
  d.chPresent.getLsbD ch && (d.ceMap.getD ch 0).getLsbD ce && decide (lun < d.luns)

/-- A die number: [7:5] channel, [4:2] chip enable, [1:0] LUN. -/
def dieNo (ch ce lun : Nat) : Nat := ch * 32 + ce * 4 + lun

/-- The present dies in rising order of slot, and by channel within one slot (R268). -/
def BoardDesc.dies (d : BoardDesc) : List Nat :=
  (List.range 32).flatMap (fun slot =>
    ((List.range 8).filter (fun ch => d.diePresent ch (slot / 4) (slot % 4))).map (fun ch => dieNo ch (slot / 4) (slot % 4)))

/-- Complete die groups (R268). -/
def BoardDesc.groups (d : BoardDesc) : Nat := d.dies.length / 16

/-- The 16 dies of a group. -/
def BoardDesc.groupDies (d : BoardDesc) (g : Nat) : List Nat := (d.dies.drop (16 * g)).take 16

/-- Dies beyond the last complete group (R268). -/
def BoardDesc.unusedDies (d : BoardDesc) : List Nat := d.dies.drop (16 * d.groups)

/-- The group of a die, if it is in a complete one. -/
def BoardDesc.groupOf (d : BoardDesc) (die : Nat) : Option Nat :=
  (List.range d.groups).find? (fun g => (d.groupDies g).contains die)

/-- Raw capacity of the complete groups in 16 KiB pages (R280). -/
def BoardDesc.rawPages (d : BoardDesc) : Nat := 16 * d.groups * d.planes * d.blocksPerPlane * d.pagesPerBlock

/-- U_cap in units of 128 MiB, 8,192 pages: 0.75 of the raw capacity, at most 48 TiB (R280). -/
def BoardDesc.uCap (d : BoardDesc) : Nat := min (d.rawPages * 3 / 4 / 8192) 393216

/-- Conventional blocks of all tenants. -/
def State.convBlocks (s : State) : Nat := allTids.foldl (fun a t => a + s.tnt[t].convBlocks) 0

/-- The zone count: (U_cap − conventional areas) / 128 MiB; a zone is 32,768 blocks (R280). -/
def State.zoneCount (s : State) : Nat :=
  match s.boot.desc with
  | some d => d.uCap - s.convBlocks / 32768
  | none => 0

/-- M in MiB, rounded up (R284). -/
def State.mapMiB (s : State) : Nat :=
  (5 * s.convBlocks + 1024 * s.zoneCount + 80 * 1048576 + 1048575) / 1048576

/-- C_N in 16 KiB pages with W data dies, and C_S (R291). -/
def BoardDesc.cN (d : BoardDesc) (w : Nat) : Nat := w * d.planes * d.pagesPerBlock
def BoardDesc.cS (d : BoardDesc) (w : Nat) : Nat := d.cN w / (if d.cell = 0 then 3 else 4)

/-- Whether a tenant is served as a gust tenant: named in GUST, not T0, bound to a PF0 queue group (04 R98). -/
def State.gustTids (s : State) : List Tid := allTids.filter (fun t => s.tnt[t].gustTenant)

def State.nGc (s : State) : Nat := match s.boot.desc with | some d => 2 * d.groups | none => 0
def State.gustReserve (s : State) : Nat := 2 * s.gustTids.length
def State.sFloor (s : State) : Nat := s.gustReserve + s.nGc

/-- The die blocks of the system area, key die × 65,536 + block (R291). -/
def Nvm.sysBlocks (n : Nvm) : List Nat :=
  n.sbs.flatMap (fun p => if p.2.use = .system then p.2.blocks.map (fun x => x.1 * 65536 + x.2) else [])

/-- Die blocks of a die that are neither retired nor of the system area. -/
def State.goodBlocks (s : State) (d : BoardDesc) (die : Nat) : List Nat :=
  (List.range d.blocksPerPlane).filter (fun b =>
    !(s.nvm.bad.has (die * 65536 + b)) && !(s.nvm.sysBlocks.contains (die * 65536 + b)))

/-- The working dies of a group. -/
def State.workingDies (s : State) (d : BoardDesc) (g : Nat) : List Nat :=
  (d.groupDies g).filter (fun x => !s.nvm.failedDies.contains x)

/-- N_good: the superblocks the good die blocks can form; a retired group forms none (R291, R303). -/
def State.nGood (s : State) : Nat :=
  match s.boot.desc with
  | none => 0
  | some d => (List.range d.groups).foldl (fun a g =>
      if (s.nvm.groups.toList.getD g 0).1 = 3 then a
      else a + ((s.workingDies d g).map (fun x => (s.goodBlocks d x).length)).foldl min d.blocksPerPlane) 0

/-- D, the user data stored, in 16 KiB pages rounded up (R291). -/
def State.userPages (s : State) : Nat :=
  ((s.nvm.zones.foldl (fun a p => a + p.2.wp) 0) + s.nvm.conv.length + 3) / 4

def ceilDiv (a b : Nat) : Nat := (a + b - 1) / b

/-- W of C_N and C_S: 15, or that of the narrowest group in use (R291, R302; log entry 156). -/
def State.sbWidth (s : State) (d : BoardDesc) : Nat :=
  (List.range d.groups).foldl (fun a g =>
    if (s.nvm.groups.toList.getD g 3).1 = 3 then a else min a (s.nvm.widths.toList.getD g 15)) 15

/-- S, the size of the SLC buffer in superblocks (R291). -/
def State.slcSize (s : State) : Nat :=
  match s.boot.desc with
  | none => 0
  | some d => max s.sFloor (s.nGood - s.nGc - ceilDiv s.userPages (d.cN (s.sbWidth d)))

/-- MED_RO_LIMIT: ceil(U_cap / C_N), U_cap being 8,192 pages a unit (R306). -/
def State.roLimit (s : State) : Nat :=
  match s.boot.desc with | some d => ceilDiv (d.uCap * 8192) (d.cN (s.sbWidth d)) | none => 0

/-- The read-only condition of R292. -/
def State.roDue (s : State) : Bool := decide (s.nGood < s.nGc + s.sFloor + s.roLimit)

/-- Slots of a superblock: C_S or C_N pages of 4 codewords. -/
def BoardDesc.sbSlots (d : BoardDesc) (w : Nat) (slc : Bool) : Nat := 4 * (if slc then d.cS w else d.cN w)

/-- N_DRAM of 10 R323 is held in `bpm.dram.size`; this is the usable DRAM in MiB. -/
def State.dramMiB (s : State) : Nat := s.dram.usableMiB

end Sys2Proof.Machine
end

