-- ==== Sys2Proof/Machine/Zone.lean ====
section
/-!
DEFINITION. Zones as data (07 R204 to R211, "Zones"), their tag logs and the seal chain (08 R253 to R256), loop recycling
with its zone-reset record (07 R208, 11 R370), and the loss of a zone (07 R206).
-/
namespace Sys2Proof.Machine

/-! ## Zone states -/

/-- State codes (07 "States"). -/
def ZState.code : ZState → Nat
  | .empty => 0 | .open_ => 1 | .full => 2 | .held => 3 | .sealed => 4 | .offline => 5

/-- Hold pending: an OPEN zone with a hold cause (07 "States", R211). -/
def Zone.holdPending (z : Zone) : Bool := z.st = .open_ && (z.holdHost || z.holdEvent)

/-- A zone as it is given to a tenant. -/
def Zone.fresh (t : Tid) (gen : Word) : Zone :=
  { owner := t, st := .empty, holdHost := false, holdEvent := false, wp := 0, gen := gen, firstT := 0, lastT := 0,
    fullT := 0, log := [], origin := none, inGustSet := false, used := false }

def State.zone (s : State) (z : Nat) : Option Zone := s.nvm.zones.find z

/-- Change a zone. -/
def State.updZone (s : State) (z : Nat) (f : Zone → Zone) : State :=
  { s with nvm := { s.nvm with zones := s.nvm.zones.upd z f } }

/-- Set the entry of a zone. -/
def State.putZone (s : State) (z : Nat) (x : Zone) : State :=
  { s with nvm := { s.nvm with zones := s.nvm.zones.put z x } }

/-- A replica zone, which lies outside every limit (14 R462). -/
def Zone.replica (z : Zone) : Bool := match z.origin with | some o => o.replica | none => false

/-- Write pointer a host may rely on: the end of the last acknowledged append (07 R216). -/
def Zone.ackWp (z : Zone) : Nat := z.log.foldl (fun a e => if e.acked then max a (e.offset + (e.len + 4095) / 4096) else a) 0

/-- Zones a tenant owns under its limits, those of them in a state, and all its zones in a state (07 R222, TNT_ZCNT). -/
def State.owned (s : State) (t : Tid) : Nat := s.nvm.zones.countv (fun z => z.owner = t && !z.replica)
def State.zcountLim (s : State) (t : Tid) (st : ZState) : Nat :=
  s.nvm.zones.countv (fun z => z.owner = t && z.st = st && !z.replica)
def State.zcount (s : State) (t : Tid) (st : ZState) : Nat := s.nvm.zones.countv (fun z => z.owner = t && z.st = st)

/-- HELD zones that count against HELD_MAX: those that carry HOLD_HOST (07 R209). -/
def State.heldHost (s : State) (t : Tid) : Nat :=
  s.nvm.zones.countv (fun z => z.owner = t && z.st = .held && z.holdHost && !z.replica)

/-- OPEN zones of the device (07 R207). -/
def State.openAll (s : State) : Nat := s.nvm.zones.countv (fun z => z.st = .open_ && !z.replica)

/-- Whether another zone of a tenant may open: OPEN_MAX, and 1,024 device-wide (07 R207). -/
def State.mayOpen (s : State) (t : Tid) : Bool :=
  decide (s.zcountLim t .open_ < s.tnt[t].openMax) && decide (s.openAll < 1024)

/-- The lowest zone ID that no tenant owns (07 R207 source 3). -/
def State.unowned (s : State) : Option Nat := (List.range s.zoneCount).find? (fun z => !s.nvm.zones.has z)

/-- Zones not owned by any tenant (07 table "Identify data"). -/
def State.unownedCount (s : State) : Nat := s.zoneCount - s.nvm.zones.length

/-- Bytes entering a retention class in the open interval (12 R377, R378). -/
def State.meterIn (s : State) (cls : Fin 4) (n : Nat) : State :=
  { s with mtr := { s.mtr with bytes := s.mtr.bytes.set cls (min (s.mtr.bytes[cls] + n) (2 ^ 40 - 1)) } }

/-- QUOTA_NEAR: owned zones at ZONE_QUOTA − 1 or more with no FULL zone to recycle (07 R223). -/
def State.quotaNear (s : State) (t : Tid) : State :=
  if s.tnt[t].quota ≤ s.owned t + 1 && s.zcountLim t .full = 0 then s.raiseTnt t 11 else s

/-- OPEN to FULL, or to HELD when a hold is pending (07 R206). -/
def Zone.finish (z : Zone) (now : Nat) : Zone :=
  { z with st := if z.holdPending then .held else .full, fullT := now }

/-! ## Tag log and chain -/

/-- H(0) of a tenant (08 R253). -/
def genesis (t : Tid) : Hash := Config.sha256 (ascii "KL4064CHAIN" ++ serialBytes Config.serial ++ [tidByte t])

/-- The tenant's head: H(0) before its first append. -/
def State.chainHead (s : State) (t : Tid) : Hash :=
  if s.nvm.chains[t].index = 0 then genesis t else s.nvm.chains[t].head

/-- H(n) (08 R254). -/
def chainNext (h : Hash) (tag : QWord) (zone off len : Nat) (hhash : Hash) : Hash :=
  Config.sha256 (hashBytes h ++ tagBytes tag ++ beBytes 4 zone ++ beBytes 4 off ++ beBytes 4 len ++ hashBytes hhash)

/-- The zone number an entry carries: the source's for an imported or replica zone, whose log is kept unchanged (14 R457). -/
def Zone.entryId (x : Zone) (z : Nat) : Nat := match x.origin with | some o => o.zone.toNat | none => z

/-- A tag-log entry, 128 bytes (08 R256). -/
def entryBytes (z : Nat) (e : AppRec) : List Byte :=
  leBytes 8 e.index ++ leBytes 4 z ++ leBytes 4 e.offset ++ leBytes 4 e.len ++ leBytes 2 e.header.length ++
    leBytes 2 (if e.gust then 1 else 0) ++ leBytes 4 e.gen.toNat ++ leBytes 4 e.opTime.toNat ++
    leBytes 4 e.cycles.toNat ++ leBytes 4 e.keyId.toNat ++ tagBytes e.tag ++ hashBytes e.hhash ++ hashBytes e.head ++
    zeroBytes 8

/-- The placeholder of an entry that is gone: ELIDED with its index (08 R259). -/
def elidedBytes (n : Nat) : List Byte := leBytes 8 n ++ zeroBytes 14 ++ leBytes 2 2 ++ zeroBytes 104

/-- The zone digest (08 R256). -/
def zoneDigest (z : Nat) (log : List AppRec) : Hash :=
  Config.sha256 (log.flatMap (fun e => (entryBytes z e).take 0x78))

/-- Blocks an append occupies (07 R198). -/
def blocksOf (len : Nat) : Nat := (len + 4095) / 4096

/-- The append of a zone that covers a block. -/
def Zone.covering (z : Zone) (b : Nat) : Option AppRec :=
  z.log.find? (fun e => e.offset ≤ b && decide (b < e.offset + blocksOf e.len))

/-- All entries of a tenant's own chain, with their zones; imported and replica zones extend no chain (14 R457). -/
def State.entriesOf (s : State) (t : Tid) : List (Nat × AppRec) :=
  s.nvm.zones.flatMap (fun p => if p.2.owner = t && p.2.origin.isNone then p.2.log.map (fun e => (p.1, e)) else [])

/-- The entry of a tenant with a chain index. -/
def State.entryAt (s : State) (t : Tid) (n : Nat) : Option (Nat × AppRec) :=
  (s.entriesOf t).find? (fun p => p.2.index = n)

/-- A change of one entry of a zone's log, by its chain index. -/
def State.updEntry (s : State) (z : Nat) (n : Nat) (f : AppRec → AppRec) : State :=
  s.updZone z (fun x => { x with log := x.log.map (fun e => if e.index = n then f e else e) })

/-- Insert by chain index. -/
def insertByIndex (x : Nat × AppRec) : List (Nat × AppRec) → List (Nat × AppRec)
  | [] => [x]
  | y :: r => if x.2.index < y.2.index then x :: y :: r else y :: insertByIndex x r

/-- Entries in rising chain index. -/
def byIndex (l : List (Nat × AppRec)) : List (Nat × AppRec) := l.foldl (fun a x => insertByIndex x a) []

/-- The entries that stay, chained again from a base (log entry 40). -/
def rechain (t : Tid) : Nat → Hash → List (Nat × AppRec) → List (Nat × AppRec)
  | _, _, [] => []
  | n, h, (z, e) :: r =>
    let h' := chainNext h e.tag z e.offset e.len e.hhash
    (z, { e with index := n + 1, prev := h, head := h', accepted := false }) :: rechain t (n + 1) h' r

/-- A zone that is streamed live: none of its entries lies at or below the index of a divergence (14 R469). -/
def State.liveZone (s : State) (x : Zone) : Bool :=
  match x.log.head? with | some e => decide (s.mir.liveFrom[x.owner] < e.index) | none => true

/-- The payload of MIR_APPEND: the tag-log entry, the header, the ciphertext blocks (14 R461, log entry 64). -/
def appendPayload (z : Nat) (e : AppRec) : List Byte := entryBytes z e ++ e.header ++ e.cipher

/-- Send an entry to the mirror partner. -/
def State.mirAppendSend (s : State) (t : Tid) (z : Nat) (e : AppRec) : State := s.mirSend 0x21 1 t (appendPayload z e)

/-- The partner withdraws what is discarded, from the lowest discarded index on, and gets the entries that are chained again (14 R465, log
entry 40). -/
def State.withdraw (s : State) (t : Tid) (lowest : Nat) (again : List (Nat × AppRec)) : State :=
  if s.active && s.streams t then
    again.foldl (fun a p => if (match s.zone p.1 with | some x => s.liveZone x | none => false) then a.mirAppendSend t p.1 p.2 else a)
      (s.mirSend 0x24 1 t (leBytes 8 lowest))
  else s

/-- Discard appends of a tenant that have not passed their acknowledgement point: no data, no tag, no chain entry and no
change to the write pointer (07 R216, 11 R359). The tenant's later entries are chained again (log entry 40), and the partner follows. -/
def State.discardAppends (s : State) (t : Tid) (gone : Nat → AppRec → Bool) : State :=
  let all := byIndex ((s.entriesOf t).filter (fun p => !p.2.acked))
  match all.find? (fun p => gone p.1 p.2) with
  | none => s
  | some (_, e0) =>
    let tail := all.filter (fun p => e0.index ≤ p.2.index)
    let kept := tail.filter (fun p => !gone p.1 p.2)
    let news := rechain t (e0.index - 1) e0.prev kept
    let pairs := (kept.map (fun p => p.2.index)).zip (news.map (fun p => p.2))
    let zones := s.nvm.zones.mapv (fun z x =>
      if x.owner = t && x.origin.isNone then
        let log := x.log.filterMap (fun e =>
          if e.acked || decide (e.index < e0.index) then some e
          else (pairs.find? (fun q => q.1 = e.index)).map (fun q => q.2))
        let out := x.log.filter (fun e => !e.acked && decide (e0.index ≤ e.index) && gone z e)
        { x with log := log, wp := match out with | e :: _ => min x.wp e.offset | [] => x.wp }
      else x)
    let last : Chain := match news.getLast? with
      | some (_, e) => { index := e.index, head := e.head }
      | none => { index := e0.index - 1, head := e0.prev }
    let s1 : State := { s with
      nvm := { s.nvm with zones := zones, chains := s.nvm.chains.set t last },
      hqm := { s.hqm with cmds := s.hqm.cmds.mapv (fun _ c => if c.tenant = t && c.chained then
        { c with index := match pairs.find? (fun q => q.1 = c.index) with | some q => q.2.index | none => c.index } else c) } }
    s1.withdraw t e0.index news

/-! ## Loss, recycling -/

/-- Data of a zone is lost beyond recovery: OFFLINE, logged as a critical event (07 R206, 11 R362). Appends in flight to it
complete with ST_MEDIA (07, edge case). -/
def State.offlineZone (s : State) (z : Nat) : State :=
  match s.zone z with
  | none => s
  | some x =>
    if x.st = .empty || x.st = .offline then s
    else
      let s1 := (s.discardAppends x.owner (fun y e => y = z && !e.acked)).updZone z (fun y => { y with st := .offline })
      let s2 : State := { s1 with hqm := { s1.hqm with cmds := s1.hqm.cmds.mapv (fun _ c =>
        if c.desc.opc = 0x03 && c.zoneId = z && (c.phase = .shared || c.phase = .waiting) then
          { c with phase := .done 0x08 0x01 0 false } else c) } }
      s2.record 0x1142 3 (tidByte x.owner) (leBytes 4 z ++ [tidByte x.owner])

/-- The 64 bytes of a zone-reset record (11 R370). -/
def ZReset.bytes (r : ZReset) : List Byte :=
  let body := leBytes 8 r.seq ++ leBytes 4 r.opTime.toNat ++ leBytes 4 r.cycles.toNat ++ leBytes 4 r.zone ++
    [tidByte r.tenant, r.cause] ++ leBytes 2 (if r.untrusted then 1 else 0) ++ leBytes 4 r.gen.toNat ++
    leBytes 4 r.wp ++ leBytes 8 r.first ++ leBytes 8 r.last ++ leBytes 8 r.utc.toNat ++ zeroBytes 4
  body ++ leBytes 4 (Config.crc32c body).toNat

/-- The record of a reset or erase of a zone, written before anything of the zone changes (11 R370). -/
def State.zresetRecord (s : State) (z : Nat) (x : Zone) (cause : Byte) : State :=
  let r : ZReset :=
    { seq := s.nvm.zresetNext, opTime := s.opTime, cycles := BitVec.ofNat 32 s.cycleCount, zone := z, tenant := x.owner,
      cause := cause, untrusted := s.untrusted, gen := x.gen, wp := x.wp,
      first := (x.log.head?.map (fun e => e.index)).getD 0, last := (x.log.getLast?.map (fun e => e.index)).getD 0,
      utc := BitVec.ofNat 64 s.utc, done := false }
  let l := s.nvm.zresets ++ [r]
  { s with nvm := { s.nvm with zresets := keepNewest 65536 l, zresetNext := s.nvm.zresetNext + 1 } }

/-- A zone returns to EMPTY with the next generation: its tag log is cleared and its data invalid (07 R206, R208, R214);
the record that stood for it is done. -/
def State.emptyZone (s : State) (z : Nat) : State :=
  let s1 := s.updZone z (fun x => { Zone.fresh x.owner (x.gen + 1) with inGustSet := x.inGustSet })
  { s1 with nvm := { s1.nvm with zresets := s1.nvm.zresets.map (fun r => if r.zone = z then { r with done := true } else r) } }

/-- A zone that a mirror resynchronisation is reading (07, edge case). -/
def State.resyncReads (s : State) (x : Zone) : Bool :=
  s.mir.st = .resync && x.log.any (fun e => s.mir.backlog.any (fun b => b.1 = x.owner.1 && b.2 = e.index))

/-- The zone loop recycling takes: the tenant's FULL zone with the earliest FULL time (07 R208). -/
def State.recyclable (s : State) (t : Tid) : Option Nat :=
  (s.nvm.zones.foldl (fun (best : Option (Nat × Nat)) p =>
    if p.2.owner = t && p.2.st = .full && !p.2.replica && !s.resyncReads p.2 then
      match best with
      | some (_, f) => if p.2.fullT < f then some (p.1, p.2.fullT) else best
      | none => some (p.1, p.2.fullT)
    else best) none).map (fun b => b.1)

/-- Loop recycling of a zone (07 R208): its zone-reset record, the reset, its notice to the mirror partner (14 R461), a notice
event record and ZONE_RECYCLED. -/
def State.recycleZone (s : State) (z : Nat) : State :=
  match s.zone z with
  | none => s
  | some x =>
    let n := s.nvm.zresetNext
    let s1 := ((s.zresetRecord z x 1).emptyZone z).mirStateItem x.owner 5 (leBytes 4 z)
    s1.raiseRec (pTNT x.owner) 9 1 (tidByte x.owner) (leBytes 4 z ++ leBytes 4 (x.gen + 1).toNat ++ leBytes 8 n)

/-- A zone from the sources of 07 R207: the tenant's lowest EMPTY zone outside its gust set, the pool of unowned zones within
ZONE_QUOTA, or loop recycling. The zone and the state, or the result code of ST_QUOTA. -/
def State.takeZone (s : State) (t : Tid) (own recycle : Bool) : Except Nat (Nat × State) :=
  match (if own then s.nvm.zones.find? (fun p => p.2.owner = t && p.2.st = .empty && !p.2.inGustSet && !p.2.replica) else none) with
  | some (z, _) => .ok (z, s)
  | none =>
    let room := decide (s.owned t < s.tnt[t].quota)
    match (if room then s.unowned else none) with
    | some z => .ok (z, (s.putZone z (Zone.fresh t 0)).quotaNear t)
    | none =>
      match (if recycle then s.recyclable t else none) with
      | some z => .ok (z, s.recycleZone z)
      | none => .error (if room then 5 else 1)

end Sys2Proof.Machine
end

