-- ==== Sys2Proof/Machine/Boot.lean ====
section
/-!
DEFINITION. The boot NOR (04 R85), the board descriptor (R87, R88), the policy block (07 R180), image slots and the slot
control record (R89, R101 to R103), and the boot sequence up to step 9 (R92).
-/
namespace Sys2Proof.Machine

/-! ## Layouts -/

/-- Listed fields of the board descriptor, reserved bytes inside them left out: offset and size (R87, 13 R414, R423,
12 R387; log entry 21). -/
def descFields : List (Nat × Nat) :=
  [(0x000, 4), (0x004, 2), (0x008, 8), (0x010, 7), (0x018, 2), (0x040, 4), (0x044, 8), (0x04C, 2), (0x050, 16),
   (0x0C0, 2), (0x0C4, 16), (0x100, 3), (0x104, 9), (0x10E, 16), (0x140, 5),
   (0x340, 0x34), (0x380, 0x40), (0x440, 2), (0x444, 2), (0x448, 2), (0x44C, 2),
   (0x480, 3), (0x484, 2), (0x488, 32), (0x4C0, 3), (0x4C4, 3), (0x4C8, 3), (0x4CC, 3), (0x4D0, 2), (0xF80, 128)] ++
  (List.range 20).flatMap (fun k => [(0x160 + 24 * k, 5), (0x160 + 24 * k + 8, 16)])

/-- Whether every byte of a string outside the listed fields is 0. -/
def reservedZero (fields : List (Nat × Nat)) (c : List Byte) : Bool :=
  (c.zipIdx).all (fun p => p.1 = 0#8 || fields.any (fun f => f.1 ≤ p.2 && p.2 < f.1 + f.2))

/-- The range checks of the table "BOOT_READ field". -/
def bootReadOk (b : List Byte) : Bool :=
  let v (i : Nat) : Nat := (b.getD i 0).toNat
  let lanes (n : Nat) : Bool := n = 1 || n = 2 || n = 4
  (v 1 = 3 || v 1 = 4) && v 2 ≤ 31 && lanes (v 3) && lanes (v 4) && lanes (v 5) && 1 ≤ v 6 && v 6 ≤ 100 && v 7 = 0

/-- Entries of the PMIC script at or beyond ENTRIES are all zeros (13 R414). -/
def scriptTailZero (c : List Byte) : Bool :=
  let n := fieldLe c 0x141 1
  allZero (slice c (0x160 + 24 * n) (24 * (20 - n)))

/-- A descriptor copy is valid (R87), with the board key hash it is judged by. -/
def descValid (keyHash : Hash) (c : List Byte) : Bool :=
  fieldLe c 0 4 = 0x44424C4B && fieldLe c 4 2 = 1 && reservedZero descFields c && bootReadOk (slice c 0x10 8) &&
    Config.sha256 (slice c 0xF80 64) = keyHash &&
    Config.ecdsaVerify (wideOf (slice c 0xF80 64)) (slice c 0 0xFC0) (wideOf (slice c 0xFC0 64)) &&
    fieldLe c 8 4 = Config.hwType.toNat && scriptTailZero c

/-- The fields of a descriptor copy. -/
def parseDesc (c : List Byte) : BoardDesc :=
  { seq := fieldLe c 0x0C 4, bootRead := slice c 0x10 8, norMiB := fieldLe c 0x18 2, nandIf := fieldLe c 0x40 1,
    nandTiming := fieldLe c 0x41 1, cell := fieldLe c 0x42 1, luns := fieldLe c 0x43 1,
    pageBytes := fieldLe c 0x44 4, pagesPerBlock := fieldLe c 0x48 2, blocksPerPlane := fieldLe c 0x4A 2, planes := fieldLe c 0x4C 1,
    chPresent := BitVec.ofNat 8 (fieldLe c 0x4D 1), ceMap := slice c 0x50 8,
    nandId := BitVec.ofNat 64 (fieldLe c 0x58 8), dramType := fieldLe c 0xC0 1, dramGib := fieldLe c 0xC1 1,
    dramMr := slice c 0xC4 16, pSquall := fieldLe c 0x100 2, eta := fieldLe c 0x102 1, vMin := fieldLe c 0x104 2,
    eFixedBoard := fieldLe c 0x106 2, eBufBoard := fieldLe c 0x108 2, iT := fieldLe c 0x10A 2,
    tLoad := fieldLe c 0x10C 1, goodMin := fieldLe c 0x10E 4, cNom := fieldLe c 0x112 2, esrNom := fieldLe c 0x114 2,
    vsupTrip := fieldLe c 0x11A 2, vsupUpd := fieldLe c 0x11C 2, script := slice c 0x140 512,
    display := slice c 0x340 256, raw := c,
    gustEnts := ((List.range 4).map (fun k => (fieldLe c (0x440 + 4 * k) 1, fieldLe c (0x441 + 4 * k) 1))).filter
      (fun e => e.1 ≠ 0xFF),
    node := BitVec.ofNat 16 (fieldLe c 0x480 2), ports := BitVec.ofNat 4 (fieldLe c 0x482 1),
    partner := BitVec.ofNat 16 (fieldLe c 0x484 2), fleetHash := hashOf (slice c 0x488 32),
    gpioField := slice c 0x4C0 32, pub := wideOf (slice c 0xF80 64) }

/-- Choice between two copies: the valid one with the higher SEQUENCE; copy 0 when both are valid and equal (R88). -/
def chooseCopy (ok0 ok1 : Bool) (seq0 seq1 : Nat) : Option Nat :=
  match ok0, ok1 with
  | true, true => if seq0 < seq1 then some 1 else some 0
  | true, false => some 0
  | false, true => some 1
  | false, false => none

/-- Bytes of the boot NOR. -/
def State.norAt (s : State) (a n : Nat) : List Byte := s.nvm.nor.getList a n

def descBase (k : Nat) : Nat := 0x1000 * k
def policyBase (k : Nat) : Nat := 0x10000 + 0x10000 * k
def slotBase (b : Bool) : Nat := if b then 0x00800000 else 0x00100000
def recordBase (k : Nat) : Nat := 0x2000 + 0x1000 * k

/-- The descriptor copy the ROM uses (R88). -/
def State.chooseDesc (s : State) (h : Hash) : Option (Nat × BoardDesc) :=
  let c0 := s.norAt (descBase 0) 4096
  let c1 := s.norAt (descBase 1) 4096
  (chooseCopy (descValid h c0) (descValid h c1) (fieldLe c0 0x0C 4) (fieldLe c1 0x0C 4)).map
    (fun k => (k, parseDesc (if k = 0 then c0 else c1)))

/-! ## Policy block (07 R180) -/

/-- A tenant entry. -/
def parseEnt (e : List Byte) : PolicyEnt :=
  { binding := fieldLe e 0 1, vf := fieldLe e 1 1, convGib := fieldLe e 2 1, openMax := fieldLe e 3 1,
    quota := fieldLe e 4 4, heldMax := fieldLe e 8 4, evidMax := fieldLe e 12 4,
    withhold := BitVec.ofNat 32 (fieldLe e 16 4), tagLimit := fieldLe e 20 2, holdMin := fieldLe e 22 1 }

/-- The ranges of the table "Tenant entry". -/
def entOk (t : Nat) (x : PolicyEnt) : Bool :=
  x.binding ≤ 2 && (t ≠ 0 || x.binding = 2) &&
    (if x.binding = 1 then 1 ≤ x.vf && x.vf ≤ 63 else x.vf = 0) && x.convGib ≤ 64 && 1 ≤ x.openMax && x.openMax ≤ 16 &&
    x.quota ≤ 1048575 && x.heldMax ≤ x.quota && x.evidMax ≤ x.quota && x.withhold.toNat < 2 ^ 20 &&
    16 ≤ x.tagLimit && x.tagLimit ≤ 4096 && x.holdMin ≤ 60

def policyEntBytes (c : List Byte) (t : Nat) : List Byte := slice c (0x40 + 32 * t) 32

/-- Listed fields of the policy block, the tenant entries' reserved tails left out. -/
def policyFields : List (Nat × Nat) :=
  [(0, 6), (8, 8), (0x1000, 0x19), (0x1020, 0x20), (0xFFC0, 64)] ++ (List.range 64).map (fun t => (0x40 + 32 * t, 23))

/-- The METERING field lies within the ranges of the table "Metering field" (12 R381). -/
def meteringOk (m : List Byte) : Bool :=
  let v (i : Nat) : Nat := (m.getD i 0).toNat
  (List.range 24).all (fun h => v h ≤ 3) && (v 0x18 ≤ 3 || v 0x18 = 0xFF) &&
    (List.range 8).all (fun k => v (0x20 + 4 * k) ≤ 3 && (v (0x21 + 4 * k) ≤ 3 || v (0x21 + 4 * k) = 0xFF) &&
      v (0x22 + 4 * k) ≤ 7 && v (0x23 + 4 * k) ≤ 1)

/-- No VF number is bound twice. -/
def vfsDistinct (es : List PolicyEnt) : Bool :=
  let vs := (es.filter (fun e => e.binding = 1)).map (fun e => e.vf)
  decide vs.Nodup

/-- A policy block copy is valid under a board descriptor (07 R180). -/
def policyValid (d : BoardDesc) (c : List Byte) : Bool :=
  let es := (List.range 64).map (fun t => parseEnt (policyEntBytes c t))
  let gib := es.foldl (fun a e => a + e.convGib) 0
  fieldLe c 0 4 = 0x4C4F504B && fieldLe c 4 2 = 1 && fieldLe c 8 4 = Config.hwType.toNat &&
    reservedZero policyFields c && (es.zipIdx).all (fun p => entOk p.2 p.1) &&
    gib ≤ 1024 && gib * 8 ≤ d.uCap && vfsDistinct es && meteringOk (slice c 0x1000 256) &&
    Config.ecdsaVerify d.pub (slice c 0 0xFFC0) (wideOf (slice c 0xFFC0 64))

def parsePolicy (c : List Byte) : Policy :=
  { seq := fieldLe c 0x0C 4, ents := Vector.ofFn (fun t : Fin 64 => parseEnt (policyEntBytes c t.1)),
    metering := slice c 0x1000 256 }

def State.choosePolicy (s : State) (d : BoardDesc) : Option (Nat × Policy) :=
  let c0 := s.norAt (policyBase 0) 65536
  let c1 := s.norAt (policyBase 1) 65536
  (chooseCopy (policyValid d c0) (policyValid d c1) (fieldLe c0 0x0C 4) (fieldLe c1 0x0C 4)).map
    (fun k => (k, parsePolicy (if k = 0 then c0 else c1)))

/-! ## Image slots (R89) -/

/-- The checks of R89 on a slot: its 256-byte header and its resident part as read; an index above the 64 steps of the floor (R90) is the
model's reason of its own (log 144). -/
def imageGood (floor : Nat) (h : List Byte) (resident : List Byte) : Bool :=
  let rb := fieldLe h 0x10 4
  let rl := fieldLe h 0x14 4
  let el := fieldLe h 0x18 4
  fieldLe h 0 4 = 0x4D494C4B && fieldLe h 4 2 = 1 && Config.sha256 (slice h 0x80 64) = Config.oxrusKeyHash &&
    Config.ecdsaVerify (wideOf (slice h 0x80 64)) (slice h 0 0xC0) (wideOf (slice h 0xC0 64)) &&
    fieldLe h 8 4 = Config.hwType.toNat &&
    ((h.getD 6 0).getLsbD 0 = false || hashOf (slice h 0x60 32) = Config.sha256 (serialBytes Config.serial)) &&
    floor ≤ rb && rb ≤ 63 && 4 ≤ rl && rl ≤ 0xE0000 && el ≤ 0x600000 &&
    Config.sha256 resident = hashOf (slice h 0x20 32)

/-- The header of a slot in the NOR. -/
def State.slotHeader (s : State) (b : Bool) : List Byte := s.norAt (slotBase b) 256

/-- The resident part of a slot, at most the limit of its length. -/
def State.slotResident (s : State) (b : Bool) : List Byte :=
  s.norAt (slotBase b + 256) (min (fieldLe (s.slotHeader b) 0x14 4) 0xE0000)

def State.slotGood (s : State) (b : Bool) : Bool := imageGood s.nvm.floor (s.slotHeader b) (s.slotResident b)

/-- VERSION of a slot header. -/
def State.slotVersion (s : State) (b : Bool) : Word := BitVec.ofNat 32 (fieldLe (s.slotHeader b) 0x0C 4)

/-! ## Slot control record (R101) -/

/-- A slot control record: SEQUENCE, ACTIVE, ARMED, ATTEMPTS, ATTEMPT_SLOT, and the sector it stands in. -/
structure CtlRec where
  seq     : Nat
  active  : Bool
  armed   : Option Bool
  attempts : Nat
  slot    : Bool
  sector  : Option Nat
deriving DecidableEq, Repr

def recordBytes (r : CtlRec) : List Byte :=
  let body := leBytes 4 0x43534C4B ++ leBytes 4 r.seq ++
    [if r.active then 1 else 0, match r.armed with | none => 0xFF | some b => if b then 1 else 0,
     BitVec.ofNat 8 r.attempts, if r.slot then 1 else 0] ++ zeroBytes 48
  body ++ leBytes 4 (Config.crc32 body).toNat

def recordValid (b : List Byte) : Bool :=
  fieldLe b 0 4 = 0x43534C4B && fieldLe b 0x3C 4 = (Config.crc32 (slice b 0 0x3C)).toNat

def parseRecord (b : List Byte) (k : Nat) : CtlRec :=
  { seq := fieldLe b 4 4, active := b.getD 8 0 = 1, attempts := fieldLe b 0x0A 1,
    armed := if b.getD 9 0 = 0xFF then none else some (b.getD 9 0 = 1), slot := b.getD 0x0B 0 = 1, sector := some k }

/-- The record in use; with no valid record ACTIVE is A, ARMED none, ATTEMPTS 0 (R101, log entry 22). -/
def State.ctlRec (s : State) : CtlRec :=
  let b0 := s.norAt (recordBase 0) 64
  let b1 := s.norAt (recordBase 1) 64
  match chooseCopy (recordValid b0) (recordValid b1) (fieldLe b0 4 4) (fieldLe b1 4 4) with
  | some k => parseRecord (if k = 0 then b0 else b1) k
  | none => { seq := 0, active := false, armed := none, attempts := 0, slot := false, sector := none }

/-- Erase a range of the NOR and write bytes at its start. -/
def State.norWrite (s : State) (a n : Nat) (b : List Byte) : State :=
  { s with nvm := { s.nvm with nor := (s.nvm.nor.eraseRange a n).setList a b } }

/-- Write a record with the next SEQUENCE into the other sector, erased first (R101). -/
def State.writeRec (s : State) (r : CtlRec) : State :=
  let cur := s.ctlRec
  let k := match cur.sector with | some 0 => 1 | _ => 0
  s.norWrite (recordBase k) 4096 (recordBytes { r with seq := cur.seq + 1 })

/-! ## ROM (R92 steps 1 to 7) -/

/-- RECOVERY_ENTRY: critical, DETAIL holds UPD_RCV_CAUSE (11 R362). -/
def rcvCauseWord (cause detail : Byte) (adeit : Bool) : Word :=
  fieldW cause.toNat 0 ||| fieldW detail.toNat 8 ||| bitW adeit 16

/-- The ROM enters RECOVERY (R95, R97, 02 R30). -/
def State.romRecover (s : State) (cause detail : Byte) : State :=
  let s1 := s.recordAs true 0x2641 3 noTenant (leBytes 4 (rcvCauseWord cause detail false).toNat)
  ({ s1 with
    dev := { s1.dev with level := .recovery, romRecovery := true, fwVersion := 0#32,
                         pad := { s1.dev.pad with spit := true } },
    boot := { s1.boot with booted := none },
    i2ct := { s1.i2ct with alert := true },
    upd := { s1.upd with rcvCause := cause, rcvDetail := detail, rcvByAdeit := false } } : State).raise pUPD 0

/-- The RESET_CAUSE record and its acknowledgement (03 R63). -/
def State.ackCause (s : State) : State :=
  let s1 := s.record 0x0340 0 noTenant (leBytes 4 s.aon.rstCause.toNat)
  { s1 with aon := { s1.aon with rstCause := 0#7 } }

/-- Gust metadata goes to the gust reserve: the tag-log entries of gust zones are on media (R100, R108). -/
def State.saveGust (s : State) : State :=
  { s with nvm := { s.nvm with zones := s.nvm.zones.mapv (fun _ z =>
      if z.inGustSet then { z with log := z.log.map (fun e => { e with entryOn := true }) } else z) } }

/-- DISP starts when the level first reaches GUST or Adeit enters RECOVERY: INIT goes out once (12 R388). -/
def State.dispStart (s : State) : State :=
  match s.boot.desc with
  | some d =>
    if fieldLe d.display 0 1 = 1 && !s.disp.running then
      { s with disp := { s.disp with running := true, item := 0, second := 0,
                                     waiting := s.disp.waiting ++ [(true, slice d.display 5 (fieldLe d.display 4 1))] } }
    else s
  | none => s

/-- Adeit enters RECOVERY (R95, R96, R108, 03 R63). -/
def State.recover (s : State) (cause detail : Byte) : State :=
  let s1 := s.saveGust.record 0x2641 3 noTenant (leBytes 4 (rcvCauseWord cause detail true).toNat)
  let s2 : State := { s1 with
    dev := { s1.dev with pad := { s1.dev.pad with spit := true } },
    aon := { s1.aon with markFault := s1.aon.markFault || cause = 0x20 },
    upd := { s1.upd with rcvCause := cause, rcvDetail := detail, rcvByAdeit := true } }
  (s2.setLevel .recovery).ackCause.dispStart

/-- R103: a failed attempt's record, and the mark consumed. -/
def State.judgeMark (s : State) (taken : BitVec 7) : State :=
  match s.aon.mark with
  | none => s
  | some m =>
    let s1 : State := { s with aon := { s.aon with mark := none, markFault := false } }
    if taken.getLsbD 2 || s.aon.markFault then
      let r := s1.ctlRec
      s1.writeRec { r with slot := m, attempts := if r.slot = m then min (r.attempts + 1) 3 else 1 }
    else s1

/-- Records of the straps (02 R36, R37, 11 R362). -/
def strapWord (p : Strap) : Word :=
  bitW p.test 0 ||| bitW p.recovery 1 ||| fieldW p.mirror.toNat 2 ||| fieldW p.i2cSel.toNat 4 |||
    bitW p.unstable 6 ||| fieldW p.i2cAddr.toNat 16

def State.strapRecords (s : State) : State :=
  let d := leBytes 4 (strapWord s.dev.strap).toNat
  let s1 := if s.dev.strap.test then s.recordAs true 0x0040 2 noTenant d else s
  let s2 := if s.dev.strap.unstable then s1.recordAs true 0x0041 2 noTenant d else s1
  if s.dev.strap.mirror = 3#2 then s2.recordAs true 0x0042 2 noTenant d else s2

/-! ## Adeit's start (steps 8 and 9) -/

/-- A tenant as the policy in use binds it (07 R181, R98). -/
def tenantOf (x : PolicyEnt) (gust : Bool) (hold : Nat) : Tenant :=
  { Tenant.reset with
    binding := x.binding, vf := x.vf, gustTenant := gust, convBlocks := x.convGib * 262144, openMax := x.openMax,
    quota := x.quota, heldMax := x.heldMax, evidMax := x.evidMax, withhold := x.withhold, tagLimit := x.tagLimit,
    holdMin := hold }

/-- HOLD_MINUTES in force: a value T0 set under the policy SEQUENCE in use, else the policy's (07 R181). -/
def holdInForce (n : Nvm) (p : Policy) (t : Tid) : Nat :=
  match n.holdMin.find t.1 with
  | some (v, q) => if q = p.seq then v else p.ents[t].holdMin
  | none => p.ents[t].holdMin

def gustServed (d : BoardDesc) (p : Policy) (t : Tid) : Bool :=
  t.1 ≠ 0 && d.gustEnts.any (fun e => e.1 = t.1) && p.ents[t].binding = 2

/-- GUST_TENANT_ON_VF for each gust tenant bound to a VF (R98). -/
def State.gustWarnings (s : State) (d : BoardDesc) (p : Policy) : State :=
  allTids.foldl (fun a t =>
    if d.gustEnts.any (fun e => e.1 = t.1) && p.ents[t].binding = 1 then a.record 0x2643 2 (tidByte t) [tidByte t] else a) s

/-! ## Keys of the start (08 R247, R250) -/

/-- One run of the KDF of 08 R247: counter, label, 0x00, context, L = 256 bits. -/
def kdf (key : List Byte) (counter : Nat) (label : String) (context : List Byte) : Hash :=
  Config.hmacSha256 key (beBytes 4 counter ++ ascii label ++ [0] ++ context ++ [0, 0, 1, 0])

/-- The order of the P-256 group (FIPS 186-5, named at 08 R249). -/
def p256Order : Nat := 0xFFFFFFFF00000000FFFFFFFFFFFFFFFFBCE6FAADA7179E84F3B9CAC2FC632551

/-- The first of n counter values from k on whose output lies in 1 to the order less 1 (08 R250). -/
def scalarFrom (label : String) : Nat → Nat → Hash
  | 0, _ => 0#256
  | n + 1, k =>
    let d := kdf Config.deviceSecret k label (serialBytes Config.serial)
    if 0 < d.toNat ∧ d.toNat < p256Order then d else scalarFrom label n (k + 1)

/-- A private scalar: the counter runs from 1 through all its 32 bits (08 R250). -/
def deriveScalar (label : String) : Hash := scalarFrom label 4294967295 1

/-- Adeit loads the microcode of every engine and reads it back, which compares equal (log entry 142), enables the SPI target and GPIO outputs, instantiates the DRBG, derives the identity and transport keys (08 R250), and chooses the policy block (R94, R95, steps 8
and 9). A hold value set under another policy SEQUENCE is discarded. -/
def State.adeitStart (s : State) (d : BoardDesc) : State :=
  let s0 : State := { s with
    dev := { s.dev with fwVersion := match s.boot.booted with | some b => s.slotVersion b | none => 0#32,
                        pad := { s.dev.pad with spit := true, gpio := true } },
    pwr := { s.pwr with doms := s.pwr.doms.map (fun x => { x with loaded := true }) },
    boot := { s.boot with hkLoaded := true },
    sign := { s.sign with drbg := 1#2, reseedAt := s.now, identity := some (deriveScalar "KL4064 IDENTITY"),
                          transport := some (deriveScalar "KL4064 TRANSPORT") } }
  match s0.choosePolicy d with
  | none => s0.recover 0x15 0
  | some (k, p) =>
    let s1 : State := { s0 with
      boot := { s0.boot with policy := some p, polCopy := k },
      nvm := { s0.nvm with holdMin := s0.nvm.holdMin.filter (fun e => e.2.2 = p.seq) },
      tnt := Vector.ofFn (fun t : Fin 64 => tenantOf p.ents[t] (gustServed d p t) (holdInForce s0.nvm p t)) }
    s1.gustWarnings d p

/-- The slot choice of R102: the slot booted, whether step 2 turned the candidate, and which slots were found good. -/
def State.chooseSlot (s : State) (r : CtlRec) : Option Bool × Bool :=
  let first := r.armed.getD r.active
  let limited := decide (3 ≤ r.attempts) && decide (r.slot = first)
  let cand := if limited then !first else first
  if s.slotGood cand then (some cand, limited) else if s.slotGood (!cand) then (some (!cand), limited) else (none, limited)

/-- The ROM from reading the control record: slot choice, mark, and Adeit's start (R102, R103). -/
def State.romSlots (s : State) (d : BoardDesc) : State :=
  let r := s.ctlRec
  let first := r.armed.getD r.active
  let c := s.chooseSlot r
  let cand := if c.2 then !first else first
  let tried (b : Bool) : Bool := decide (b = cand) || !s.slotGood cand
  let s1 : State := { s with boot := { s.boot with
      aGood := tried false && s.slotGood false, bGood := tried true && s.slotGood true } }
  let s2 := match r.armed with
    | some b => if tried b && !s.slotGood b then s1.writeRec { r with armed := none } else s1
    | none => s1
  match c.1 with
  | none => s2.romRecover 0x03 0
  | some b =>
    let s3 : State := { s2 with boot := { s2.boot with booted := some b, fallback := decide (b ≠ first) },
                                aon := { s2.aon with mark := some b, markFault := false } }
    let s4 := if b ≠ first then
        s3.recordAs true 0x2640 2 noTenant
          [if first then 1 else 0, if b then 1 else 0, if c.2 && decide (b = cand) then 2 else 1]
      else s3
    s4.adeitStart d

/-- The ROM sequence once the straps are sampled: causes merged (03 R63), the mark judged, pads enabled (02 R30), then the
checks of R95 in their order. -/
def State.romBoot (s : State) : State :=
  let taken := s.aon.causeAcc
  let s1 : State := { s with aon := { s.aon with rstCause := s.aon.rstCause ||| taken, causeAcc := 0#7 } }
  let s2 := (s1.judgeMark taken).strapRecords
  let s3 : State := { s2 with dev := { s2.dev with pad := { s2.dev.pad with qspi := true, i2ct := true } } }
  if s3.dev.strap.recovery then s3.romRecover 0x04 0
  else
    match s3.nvm.boardHash with
    | none => s3.romRecover 0x02 0
    | some h =>
      match s3.chooseDesc h with
      | none => s3.romRecover 0x01 0
      | some (k, d) =>
        let s4 : State := { s3 with boot := { s3.boot with desc := some d, descCopy := k } }
        s4.romSlots d

/-- A strap sampled three times: its value and whether the samples agree (02 R35, R37). -/
def strapBit (s1 s2 s3 : BitVec 6) (k : Nat) : Bool × Bool :=
  let a := s1.getLsbD k; let b := s2.getLsbD k; let c := s3.getLsbD k
  if a = b && b = c then (a, true) else (false, false)

/-- DEV_STRAP from three samples. Bits: 0 TEST, 1 RECOVERY, 2 MIR0, 3 MIR1, 4 I2C_A0, 5 I2C_A1 (02 R36, R37, R50). -/
def strapOf (s1 s2 s3 : BitVec 6) : Strap :=
  let v (k : Nat) : Bool := (strapBit s1 s2 s3 k).1
  let stable : Bool := (List.range 6).all (fun k => (strapBit s1 s2 s3 k).2)
  let two (hi lo : Bool) : BitVec 2 := BitVec.ofNat 2 ((if hi then 2 else 0) + (if lo then 1 else 0))
  { test := v 0, recovery := v 1, mirror := two (v 3) (v 2), i2cSel := two (v 5) (v 4), unstable := !stable,
    i2cAddr := BitVec.ofNat 7 (0x24 + (if v 5 then 2 else 0) + (if v 4 then 1 else 0)) }

/-- RESET_RELEASE (R92 step 1): RESET_IN_L rises and the clocks start. During a Squall that holds the reset off only the
pin changes (02 R39). -/
def execResetRelease (s : State) : Host.Outcome State Fault Refusal :=
  if s.pins.resetIn then .next s
  else
    let s1 : State := { s with pins := { s.pins with resetIn := true } }
    .next (if s.squall.running then s1 else s1.release)

/-- STRAP_SAMPLING (02 R35 to R37): AON samples the straps of the start that waits for them; core 0 then leaves reset and
the ROM runs (log entry 16). -/
def execStrapSampling (a b c : BitVec 6) (s : State) : Host.Outcome State Fault Refusal :=
  if s.awake && !s.boot.strapsIn && !s.squall.running then
    .next ({ s with dev := { s.dev with strap := strapOf a b c }, boot := { s.boot with strapsIn := true } } : State).romBoot
  else .next s

end Sys2Proof.Machine
end

