-- ==== Sys2Proof/Machine/Pool.lean ====
section
/-!
DEFINITION. The buffer pool (10 R333 to R343) and the march test of the on-chip memories (10 R328 to R332).
-/
namespace Sys2Proof.Machine

/-! ## Free lists -/

/-- Pop the head of the free list (R335). -/
def PoolS.pop (p : PoolS) : Option (Nat × PoolS) :=
  match p.list with
  | h :: r => some (h, { p with list := r })
  | [] => if p.fresh < p.top then some (p.fresh, { p with fresh := p.fresh + 1 }) else none

/-- Keep up to 64 popped handles in the prefetch cache (R336). -/
def PoolS.refill : Nat → PoolS → PoolS
  | 0, p => p
  | n + 1, p =>
    if p.cache.length < 64 && !p.rebuild then
      match p.pop with
      | some (h, q) => PoolS.refill n { q with cache := q.cache ++ [h] }
      | none => p
    else p

/-- Free buffers of a pool: listed, never popped, and cached (R336). -/
def PoolS.free (p : PoolS) : Nat := p.list.length + (p.top - p.fresh) + p.cache.length

/-- The list head, or the terminator (R333). -/
def PoolS.head (p : PoolS) : Nat :=
  match p.list with
  | h :: _ => h
  | [] => if p.fresh < p.top then p.fresh else 0xFFFFF

/-- Push a freed handle at the head (R335). -/
def PoolS.push (p : PoolS) (h : Nat) : PoolS := { p with list := h :: p.list }

/-- Take one particular handle out of the free handles. -/
def PoolS.takeOut (p : PoolS) (h : Nat) : PoolS :=
  let q : PoolS := if p.fresh ≤ h && decide (h < p.top) then
      { p with list := p.list ++ (List.range (h - p.fresh)).map (fun k => p.fresh + k), fresh := h + 1 }
    else p
  { q with list := q.list.filter (fun x => x ≠ h), cache := q.cache.filter (fun x => x ≠ h) }

/-- Whether a handle names a buffer of the DRAM pool (R333). -/
def isDram (h : Nat) : Bool := decide (0x80000 ≤ h)

def BpmS.pool (b : BpmS) (dram : Bool) : PoolS := if dram then b.dram else b.sram
def BpmS.setPool (b : BpmS) (dram : Bool) (p : PoolS) : BpmS := if dram then { b with dram := p } else { b with sram := p }

/-- Owned buffers of a pool; quarantined ones count as owned (R343). -/
def BpmS.owned (b : BpmS) (dram : Bool) : Nat := (b.bufs.filter (fun e => isDram e.1 = dram)).length

/-! ## Owners -/

/-- Owner codes (R334); Squall has none of its own and appears as firmware. -/
def ownerCode : Owner → Nat
  | .none => 0x00 | .ingest => 0x01 | .egress => 0x02 | .pipeX => 0x03 | .pipeG => 0x04 | .stream => 0x05
  | .nfc n => 0x08 + n.1 | .ldpc => 0x10 | .xpar => 0x11 | .eddy => 0x12 | .gc => 0x13 | .mirror => 0x14
  | .fabric => 0x15 | .seal => 0x16 | .firmware => 0x17 | .squall => 0x17

/-- Whether an engine allocates from the DRAM pool: at FULL, all but XPAR, LDPC, Squall, firmware and SEAL (R341, R16). -/
def State.homeDram (s : State) (o : Owner) : Bool :=
  decide (s.dev.level = .full) &&
    match o with
    | .xpar | .ldpc | .squall | .firmware | .seal => false
    | _ => true

/-- The free buffers an engine may not take at FULL (R341). -/
def State.reserveOf (s : State) (o : Owner) : Nat :=
  if s.dev.level = .full then
    match o with
    | .ingest | .egress => 1024
    | .firmware | .seal => 128
    | _ => 0
  else 0

/-- The 32 bytes of codeword metadata (09 R275). -/
def metaBytes (addr : Nat) (tenant : Tid) (poison pad gust : Bool) (gen : Word) (seq : Nat) (crc : Word) : List Byte :=
  leBytes 8 addr ++ [tidByte tenant, BitVec.ofNat 8 ((if poison then 1 else 0) + (if pad then 2 else 0) + (if gust then 4 else 0))] ++
    zeroBytes 2 ++ leBytes 4 gen.toNat ++ leBytes 8 seq ++ leBytes 4 crc.toNat ++ zeroBytes 4

/-- The address of the metadata of a piece's block k: LBA, or zone and block offset with bit 63 (09 R275). -/
def Piece.address (p : Piece) (k : Nat) : Nat :=
  match p with
  | .conv _ lba _ => lba % 2 ^ 48
  | .zone z _ f _ _ => 2 ^ 63 + z % 2 ^ 20 * 2 ^ 32 + (f + k) % 2 ^ 15
  | _ => 0

/-- The 64 bytes of a buffer trailer (R334). -/
def Buf.trailer (b : Buf) : List Byte :=
  metaBytes (b.piece.address 0) b.tenant b.poison b.pad b.gust b.gen b.seq b.crc ++
    [BitVec.ofNat 8 (ownerCode b.owner), b.epoch,
     BitVec.ofNat 8 ((if b.dirty then 1 else 0) + (if b.cipherDone then 2 else 0) + (if b.eccSeen then 4 else 0)), 0] ++
    leBytes 2 (b.tag % 4096) ++ zeroBytes 26

/-- A fresh trailer. -/
def Buf.fresh (o : Owner) (epoch : Byte) (tag : Nat) (t : Tid) (pc : Piece) (data : List Byte) : Buf :=
  { owner := o, epoch := epoch, dirty := false, cipherDone := false, eccSeen := false, tag := tag, tenant := t,
    piece := pc, poison := false, pad := false, gust := false, gen := 0#32, seq := 0, crc := Config.crc32c data,
    data := data, quarantined := false }

/-- One wait for a buffer (R336). -/
def State.pause (s : State) (o : Owner) : State :=
  let s1 : State := { s with bpm := { s.bpm with pauses := satInc s.bpm.pauses } }
  if (o = .ingest || o = .egress) && decide (s.dev.level = .full) then s1.raise pBPM 3 else s1

/-- Allocate one buffer for an engine, from the prefetch cache (R336, R341). -/
def State.alloc (s : State) (o : Owner) (b : Buf) : Option (Nat × State) :=
  let d := s.homeDram o
  let p := s.bpm.pool d
  if p.rebuild || decide (p.free ≤ s.reserveOf o) then none
  else
    let q := PoolS.refill 64 p
    match q.cache with
    | [] => none
    | h :: r =>
      some (h, { s with bpm := { (s.bpm.setPool d { q with cache := r }) with bufs := s.bpm.bufs.put h b } })

/-- Allocate one buffer for each trailer given, all or none. -/
def State.allocAll (s : State) (o : Owner) : List Buf → Option (List Nat × State)
  | [] => some ([], s)
  | b :: r =>
    match s.alloc o b with
    | none => none
    | some (h, s1) =>
      match State.allocAll s1 o r with
      | none => none
      | some (hs, s2) => some (h :: hs, s2)

/-- What a quarantined buffer is once its owner has done with it: it holds nothing, and stays owned until the next start (R340). -/
def Buf.parked (b : Buf) : Buf := { b with dirty := false, tag := 4096, piece := .pad 0 }

/-- Free a buffer: it leaves its owner and its handle goes to the head of its pool's list; a quarantined one stays out of it (R335, R340). -/
def State.freeBuf (s : State) (h : Nat) : State :=
  match s.bpm.bufs.find h with
  | none => s
  | some b =>
    if b.quarantined then { s with bpm := { s.bpm with bufs := s.bpm.bufs.put h b.parked } }
    else { s with bpm := { (s.bpm.setPool (isDram h) ((s.bpm.pool (isDram h)).push h)) with bufs := s.bpm.bufs.del h } }

def State.freeBufs (s : State) (hs : List Nat) : State := hs.foldl State.freeBuf s

/-- Change a buffer's trailer. -/
def State.updBuf (s : State) (h : Nat) (f : Buf → Buf) : State :=
  { s with bpm := { s.bpm with bufs := s.bpm.bufs.upd h f } }

def State.updBufs (s : State) (hs : List Nat) (f : Buf → Buf) : State := hs.foldl (fun a h => a.updBuf h f) s

/-- A free buffer's marker (R335). -/
def freeMarker : Nat := 0x45455246

/-- BUFFER_ALLOCATE (R336, R337): serve an allocation, make the requester wait, or find a handle that is not free, which
stops the list and starts a rebuild. The buffer of a command's ingest or egress joins the command's buffers. -/
def execBufferAllocate (o : Owner) (tag : Tag) (markerOk : Bool) (s : State) : Host.Outcome State Fault Refusal :=
  let d := s.homeDram o
  let p := s.bpm.pool d
  if !s.active || o = .none then .next s
  else if !markerOk && !p.rebuild && decide (0 < p.free) then
    let s1 : State := { s with bpm := s.bpm.setPool d { p with rebuild := true, stopped := p.head } }
    -- The marker word read is not the free marker; which word it was is a free value.
    let det := [if d then 1 else 0, 0, 0, 0] ++ leBytes 4 p.head ++ leBytes 4 s.freeVal.toNat ++ leBytes 4 p.free
    .next (s1.drawn.raiseRec pBPM 1 3 noTenant det)
  else
    let c := s.cmd tag
    let t : Tid := match c with | some x => x.tenant | none => 0
    let b := Buf.fresh o s.tnt[t].epoch tag.1 t (.conv t 0 0) []
    match s.alloc o b with
    | some (h, s1) => .next (if (o = .ingest || o = .egress) then s1.updCmd tag (fun x => { x with bufs := x.bufs ++ [h] }) else s1)
    | none => .next (s.pause o)

/-- LIST_REBUILD_END (R337): the list holds every handle whose owner is none; allocation resumes. -/
def execListRebuildEnd (p : Pool) (s : State) : Host.Outcome State Fault Refusal :=
  let d := decide (p = .dram)
  let q := s.bpm.pool d
  if q.rebuild then
    let base := if d then 0x80000 else 0
    let hs := ((List.range (q.top - base)).map (fun k => base + k)).filter
      (fun h => !s.bpm.bufs.has h && !s.bpm.removedH.contains h)
    .next { s with bpm := s.bpm.setPool d { q with list := hs, fresh := q.top, cache := [], rebuild := false } }
  else .next s

/-- BUFFER_HANDOFF (R339): the receiver takes the handle, and the trailer owner changes; or refuses it, and it returns to
the sender. -/
def execBufferHandoff (h : Nat) (fromO toO : Owner) (takes : Bool) (s : State) : Host.Outcome State Fault Refusal :=
  match s.bpm.bufs.find h with
  | some b =>
    if b.owner = fromO && !b.quarantined && takes && toO ≠ .none then .next (s.updBuf h (fun x => { x with owner := toO }))
    else .next s
  | none => .next s

/-- BUFFER_FREE (R340): accepted only from the trailer owner; any other engine's request puts the handle in quarantine. A buffer that has left
the pool under R332 stays out of its counts. -/
def execBufferFree (h : Nat) (o : Owner) (s : State) : Host.Outcome State Fault Refusal :=
  let owner : Owner := match s.bpm.bufs.find h with | some b => b.owner | none => .none
  let named := isDram h && decide (h < s.bpm.dram.top) || decide (h < s.bpm.sram.top)
  if !named then .next s
  else if o ≠ .none && owner = o then
    match s.bpm.bufs.find h with
    | some _ => .next (s.freeBuf h)
    | none => .next s
  else
    let det := leBytes 4 h ++ [BitVec.ofNat 8 (ownerCode owner), BitVec.ofNat 8 (ownerCode o)]
    let q : Buf := { Buf.fresh owner 0#8 0 0 (.conv 0 0 0) [] with quarantined := true }
    let s1 : State :=
      if s.bpm.removedH.contains h then s
      else if s.bpm.bufs.has h then s.updBuf h (fun x => { x with quarantined := true })
      else { s with bpm := { (s.bpm.setPool (isDram h) ((s.bpm.pool (isDram h)).takeOut h)) with
                             bufs := s.bpm.bufs.put h q } }
    .next (s1.raiseRec pBPM 2 3 noTenant det)

/-! ## March test -/

/-- Why a write of SRAM_MARCH_CTRL.START is ignored: MARCH_BUSY or DESTRUCTIVE_DENIED (R330). -/
def State.marchRefusal (s : State) (v : Word) : Option Byte :=
  if !v.getLsbD 0 then none
  else if s.sram.targets ≠ [] then some 0x81
  else if v.getLsbD 1 && s.dev.level ≠ .recovery then some 0x80
  else none

/-- A destructive test of the data SRAM loses its contents: no SRAM buffer holds anything any more, every trailer reads as that of a free buffer
(R329, R334). -/
def State.loseSram (s : State) : State :=
  { s with bpm := { s.bpm with
      bufs := s.bpm.bufs.filter (fun e => isDram e.1),
      sram := { s.bpm.sram with
        list := (List.range s.bpm.sram.top).filter (fun h => !s.bpm.removedH.contains h), fresh := s.bpm.sram.top, cache := [] } } }

/-- A write of START that is not ignored begins a test with the MODE and TARGET of the register (R330). -/
def State.marchStart (s : State) (v : Word) : State :=
  if v.getLsbD 0 then
    let s1 : State := { s with sram := { s.sram with mode := v.getLsbD 1, targets := [bits v 3 2], done := false } }
    if v.getLsbD 1 && decide (bits v 3 2 = 0) then s1.loseSram else s1
  else s

/-- SRAM buffers that overlap a row of a data SRAM bank: 4 buffers of 16 KiB of addresses, or the trailers there (R324,
R325, log entry 33). -/
def rowBuffers (bank row : Nat) : List Nat :=
  (List.range 1920).filter (fun h => h / 4 = row ||
    ((0x780000 + 64 * h) / 16384 = row && h % 4 = bank / 4))

/-- Spare rows of a bank of a memory. -/
def SramS.spare (m : SramS) (target bank : Nat) : Nat :=
  match target with
  | 0 => m.spares.toList.getD bank 0
  | 1 => m.sparesH.toList.getD bank 0
  | _ => m.sparesC.toList.getD bank 0

def SramS.useSpare (m : SramS) (target bank : Nat) : SramS :=
  match target with
  | 0 => { m with spares := m.spares.setIfInBounds bank (m.spare 0 bank - 1) }
  | 1 => { m with sparesH := m.sparesH.setIfInBounds bank (m.spare 1 bank - 1) }
  | _ => { m with sparesC := m.sparesC.setIfInBounds bank (m.spare 2 bank - 1) }

/-- DETAIL of SRAM row events from offset 0x04 (11 R363). -/
def rowDetail (target : Nat) (f : FailRow) : List Byte :=
  [BitVec.ofNat 8 target, BitVec.ofNat 8 f.bank] ++ leBytes 2 f.row ++ leBytes 4 0

/-- Remove SRAM buffers from the pool for the rest of the start (R332). -/
def State.removeSram (s : State) (hs : List Nat) : State :=
  let new := hs.filter (fun h => !s.bpm.removedH.contains h)
  let p := new.foldl PoolS.takeOut s.bpm.sram
  { s with bpm := { s.bpm with sram := { p with size := p.size - new.length }, removedH := s.bpm.removedH ++ new,
                               bufs := s.bpm.bufs.filter (fun e => !new.contains e.1) } }

/-- One failing row: remapped to a spare and written to OTP, or beyond repair (R331, R332, R346). -/
def State.repairRow (s : State) (target : Nat) (f : FailRow) : State :=
  if 0 < s.sram.spare target f.bank then
    let s1 : State := { s with sram := s.sram.useSpare target f.bank }
    if s.nvm.repairs.length < 96 then
      ({ s1 with nvm := { s1.nvm with repairs := s1.nvm.repairs ++ [(target, f.bank, f.row)] } } : State).raise pSRAM 1
    else
      ({ s1 with sram := { s1.sram with otpFull := true },
                   aon := { s1.aon with extraRep := s1.aon.extraRep ++ [(target, f.bank, f.row)] } } : State).raiseRec pSRAM 1 2 noTenant (rowDetail target f)
  else if target = 0 then
    (s.removeSram (rowBuffers f.bank f.row)).raiseRec pSRAM 2 3 noTenant (rowDetail target f)
  else
    ({ s with sram := { s.sram with unrepaired := true } } : State).raiseRec pSRAM 2 3 noTenant (rowDetail target f)

/-- MARCH_DONE (R328 to R332): the running test ends with its failing rows; at a start the three memories' tests
end one after the other (log entry 35). -/
def execMarchDone (fails : List FailRow) (s : State) : Host.Outcome State Fault Refusal :=
  match s.sram.targets with
  | [] => .next s
  | m :: rest =>
    let s1 := fails.foldl (fun a f => a.repairRow m f) s
    let s2 : State := { s1 with sram := { s1.sram with
      targets := rest, failRows := min fails.length 0xFFFF, done := true, pass := fails.isEmpty } }
    .next (s2.raise pSRAM 0)

/-! ## Real-time bursts -/

/-- A request of a real-time master completes (R320): the host-ingest path of a gust tenant's APPEND, the mirror applier. -/
def State.rtRequest (s : State) : State := { s with dram := { s.dram with lastRt := some s.now } }

end Sys2Proof.Machine
end

