-- ==== Sys2Proof/Machine/Dram.lean ====
section
/-!
DEFINITION. DRAM: training and the checks of step 15 (10 R313 to R316, 04 R95), refresh (R319 to R321), the scheduler's order and the handoff RAM
(R317, R318, R326).
-/
namespace Sys2Proof.Machine

/-- The longest run of passing taps, the first of equal ones: start and length (R314, log entry 36). -/
def longestRun (b : BitVec 128) : Nat × Nat :=
  let r := (List.range 128).foldl (fun (a : Nat × Nat × Nat) k =>
    -- current length, best start, best length
    let cur := if b.getLsbD k then a.1 + 1 else 0
    if a.2.2 < cur then (cur, k + 1 - cur, cur) else (cur, a.2.1, a.2.2)) (0, 0, 0)
  (r.2.1, r.2.2)

/-- The eye of a sweep (R314). -/
def eyeOf (b : BitVec 128) : Eye :=
  let r := longestRun b
  { first := r.1, last := if r.2 = 0 then 0 else r.1 + r.2 - 1, width := r.2 }

/-- Byte lanes of a DRAM type (R315). -/
def laneCount (dramType : Nat) : Nat := if dramType = 0 then 4 else 5

/-- Usable size in MiB: 7/8 of DRAM_GIB with LPDDR4X (R310). -/
def usableMiB (d : BoardDesc) : Nat := if d.dramType = 0 then d.dramGib * 896 else d.dramGib * 1024

/-- N_DRAM (R313). -/
def State.nDram (s : State) (d : BoardDesc) : Nat :=
  min 131072 ((usableMiB d - s.mapMiB - 128) * 1048576 / 4160)

/-- Bits of the lanes that meet a test. -/
def laneBits (l : List LaneSweep) (p : LaneSweep → Bool) : BitVec 5 :=
  BitVec.ofNat 5 ((l.zipIdx).foldl (fun a q => if p q.1 then a + 2 ^ q.2 else a) 0)

def laneFailed (x : LaneSweep) : Bool := x.rd = 0#128 || x.wr = 0#128
def laneNarrow (min : Nat) (x : LaneSweep) : Bool :=
  !laneFailed x && (decide ((eyeOf x.rd).width < min) || decide ((eyeOf x.wr).width < min))

/-- The training's report (R314, R315, R345): eyes, FAILED and NARROW, a warning record for each narrow lane. -/
def State.trainReport (s : State) (lanes : List LaneSweep) (timeUs : Nat) : State :=
  let mn := bits (s.reg pDPHY 0x154 16#32) 6 0
  let fail := laneBits lanes laneFailed
  let narrow := laneBits lanes (laneNarrow mn)
  let s1 : State := { s with dram := { s.dram with
    failed := fail, narrow := narrow, trainUs := min timeUs 0xFFFF,
    rdEye := Vector.ofFn (fun k : Fin 5 => match lanes[k.1]? with | some x => eyeOf x.rd | none => Eye.reset),
    wrEye := Vector.ofFn (fun k : Fin 5 => match lanes[k.1]? with | some x => eyeOf x.wr | none => Eye.reset) } }
  lanes.foldl (fun a x => if laneNarrow mn x then a.raiseRecStatus pDPHY 1 2 noTenant else a) s1

/-- tREFI in ns: 3.9 µs in DDR4; in LPDDR4X the shorter of the intervals that MR4 of the two channels reports (R319). -/
def State.trefi (s : State) : Nat :=
  match s.boot.desc with
  | some d => if d.dramType = 0 then min (Config.refreshNs s.dram.mr4[0]) (Config.refreshNs s.dram.mr4[1]) else 3900
  | none => 3900

/-- DRAM_TRAINING_DONE (R314, R315, step 15 of 04 R92): RESET_L and CKE have risen, 200 µs or more after the first levels (02 R45); the
report, then the checks of 04 R95; with none failed the DRAM pool is built. LPDDR4X has 4 byte lanes. -/
def execDramTrainingDone (sweeps : Vector LaneSweep 5) (mr : List Byte) (gib timeUs : Nat) (s : State) :
    Host.Outcome State Fault Refusal :=
  match s.boot.desc with
  | none => .next s
  | some d =>
    if !s.active || !s.dev.pad.dram || s.boot.dramOk || s.dev.level ≠ .gust || decide (s.now < s.dev.dramPins.at_ + 200) then .next s
    else
      let lanes := sweeps.toList.take (laneCount d.dramType)
      let s1 := s.trainReport lanes timeUs
      let s2 : State := { s1 with dev := { s1.dev with dramPins := { s1.dev.dramPins with resetHigh := true, cke := true } } }
      if lanes.any laneFailed then .next ((s2.raise pDPHY 0).recover 0x13 0)
      else
        let s3 : State := { s2 with dram := { s2.dram with
          trained := true, usableMiB := usableMiB d, refAt := 1000 * s.now + s.trefi } }
        if mr ≠ d.dramMr then .next (s3.recover 0x12 0)
        else if gib < d.dramGib then .next (s3.recover 0x14 0)
        else
          let n := s3.nDram d
          .next { s3 with
            boot := { s3.boot with dramOk := true },
            bpm := { s3.bpm with dram := { list := [], fresh := 0x80000, top := 0x80000 + n, size := n, cache := [],
                                           rebuild := false, stopped := 0 } } }

/-- The extended part of a slot has the hash of its header (04 R91). -/
def State.extendedGood (s : State) (b : Bool) : Bool :=
  let h := s.slotHeader b
  decide (Config.sha256 (s.norAt (slotBase b + 256 + fieldLe h 0x14 4) (fieldLe h 0x18 4)) = hashOf (slice h 0x40 32))

/-- EXTENDED_PART_LOADED (04 R91): the extended part, as read from the slot, is hashed; a mismatch enters RECOVERY with
IMAGE_EXT and marks the attempt. -/
def execExtendedPartLoaded (s : State) : Host.Outcome State Fault Refusal :=
  match s.boot.booted with
  | none => .next s
  | some b =>
    if s.active && s.boot.dramOk && !s.boot.extOk && s.dev.level = .gust then
      if s.extendedGood b then .next { s with boot := { s.boot with extOk := true } }
      else .next (s.recover 0x20 0)
    else .next s

/-! ## Refresh -/

/-- A real-time burst is active: a real-time master at work, and for 1 µs after its last request (R320). -/
def State.rtActive (s : State) : Bool :=
  (s.squall.running && decide (s.squall.step = 4)) ||
    match s.dram.lastRt with
    | some a => decide (s.now ≤ a + 1)
    | none => false

/-- REFRESH_DUE (R319, R321): a refresh falls due every tREFI. Outside a burst it is issued; in a burst it is postponed, and with 7 postponed one is
forced. DRAM in self-refresh, in Lull and in the final hold, needs none. -/
def execRefreshDue (s : State) : Host.Outcome State Fault Refusal :=
  if !s.dram.trained || decide (1000 * s.now < s.dram.refAt) then .next s
  else
    let s1 : State := { s with dram := { s.dram with refAt := s.dram.refAt + s.trefi } }
    if s.pwr.lull || s.squall.hold || !s.rtActive then .next s1
    else if s.dram.postponed < 7 then .next { s1 with dram := { s1.dram with postponed := s.dram.postponed + 1 } }
    else .next (({ s1 with dram := { s1.dram with forced := satInc s.dram.forced } } : State).raise pDRAM 2)

/-- REFRESH_PAYBACK (R321): after the burst every postponed refresh is issued. -/
def execRefreshPayback (s : State) : Host.Outcome State Fault Refusal :=
  if s.rtActive then .next s
  else .next { s with dram := { s.dram with payback := satAdd s.dram.payback s.dram.postponed, postponed := 0 } }

/-! ## The scheduler's order and the address map (R317, R318) -/

/-- A request in the scheduler's queue: its address and when it entered, in ns. -/
structure DramReq where
  addr : Nat
  at_  : Nat
deriving DecidableEq, Repr

/-- Channel or bank group, and bank, of a request (R318). -/
def dramBank (ddr4 : Bool) (addr : Nat) : Nat × Nat :=
  if ddr4 then (addr / 256 % 4, addr / 1024 % 4) else (addr / 256 % 2, addr / 512 % 8)

/-- The request to issue next, the queue oldest first: the oldest that has waited more than 2 µs; else the oldest row hit, unless the previous
`cap` issues were all row hits; else the oldest (R317). -/
def nextRequest (q : List DramReq) (hit : DramReq → Bool) (now hits cap : Nat) : Option DramReq :=
  match q.find? (fun r => decide (r.at_ + 2000 < now)) with
  | some r => some r
  | none =>
    match (if hits < cap then q.find? hit else none) with
    | some r => some r
    | none => q.head?

/-! ## The handoff RAM (R326) -/

/-- What a port of the handoff RAM does with one word in a clock. -/
inductive PortOp where
  | idle | read | write (v : BitVec 128)
deriving DecidableEq, Repr

/-- One word after a clock in which both ports meet at it, and what each port reads: port B's write is applied second, and a read returns the value
from before the write (R326). -/
def portsMeet (w : BitVec 128) (a b : PortOp) : BitVec 128 × Option (BitVec 128) × Option (BitVec 128) :=
  let rd (o : PortOp) : Option (BitVec 128) := match o with | .read => some w | _ => none
  let wr (o : PortOp) (x : BitVec 128) : BitVec 128 := match o with | .write v => v | _ => x
  (wr b (wr a w), rd a, rd b)

end Sys2Proof.Machine
end

