-- ==== Sys2Proof/Machine/Serial.lean ====
section
/-!
DEFINITION. QSPI master, SPI target, discrete inputs and PMIC initiator (13 R394 to R405, R414 to R425), and the hold-up
probe that runs over the initiator (03 R72 to R79).
-/
namespace Sys2Proof.Machine

/-! ## QSPI master -/

/-- Whether R86 withholds a CS0 frame: its command phase is not 0x03 and not the BOOT_READ opcode. -/
def State.frameForbidden (s : State) (f : HostFrame) : Bool :=
  let one := decide (bits f.phase 1 0 = 1)
  let op := bits f.cmd 7 0
  let boot := match s.boot.desc with | some d => decide (op = (d.bootRead.getD 0 0).toNat) | none => false
  decide (bits f.frame 1 0 = 0) && !(one && (decide (op = 3) || boot))

/-- The host frame the QSPI registers now describe. -/
def State.hostFrameNow (s : State) : HostFrame :=
  { frame := s.reg pQSPI 0x100 0#32, phase := s.reg pQSPI 0x104 0#32, cmd := s.reg pQSPI 0x108 0#32,
    addr := s.reg pQSPI 0x10C 0#32, len := (s.reg pQSPI 0x110 0#32).toNat,
    host := (s.reg pQSPI 0x118 0#32) ++ (s.reg pQSPI 0x114 0#32) }

/-- Whether a host frame is waiting or running. -/
def State.hostBusy (s : State) : Bool := s.qspi.hostWait || s.qspi.bus = some .host

/-- Why a write of 1 to QSPI_GO is ignored: QSPI_BUSY, or the frame is withheld (R398). -/
def State.goRefusal (s : State) : Option Byte :=
  if s.hostBusy then some 0x80 else if s.frameForbidden s.hostFrameNow then some eFRAME else none

/-- A write of 1 to QSPI_GO that is not ignored queues the host frame (R398). -/
def State.qspiGo (s : State) : State :=
  { s with qspi := { s.qspi with hf := s.hostFrameNow, hostWait := true, dmaErr := false } }

/-- The lanes of a lane code (R426). -/
def lanesOf (code : Nat) : Nat := if code = 0 then 1 else if code = 1 then 2 else 4

/-- What the master puts on IO0 to IO3 in the SCK cycles of one byte, most significant bit first; none is high impedance (R396). -/
def laneCycles (lanes : Nat) (b : Byte) : List (Vector (Option Bool) 4) :=
  (List.range (8 / lanes)).map (fun k =>
    Vector.ofFn (fun n : Fin 4 => if n.1 < lanes then some (b.getLsbD (8 - lanes * (k + 1) + n.1)) else none))

/-- What the master drives in each SCK cycle of a phase. -/
def QPhase.cycles : QPhase → List (Vector (Option Bool) 4)
  | .send lanes bytes => bytes.flatMap (laneCycles lanes)
  | .receive lanes count => List.replicate (8 / lanes * count) (Vector.replicate 4 none)
  | .dummy n => List.replicate n (Vector.replicate 4 none)

/-- Whether the master sends on a lane in a phase. -/
def QPhase.drives (n : Nat) : QPhase → Bool
  | .send lanes bytes => decide (n < lanes) && decide (bytes ≠ [])
  | _ => false

/-- A phase with a count of 0 is left out (R395). -/
def QPhase.present : QPhase → Bool
  | .send _ b => decide (b ≠ [])
  | .receive _ n => decide (n ≠ 0)
  | .dummy n => decide (n ≠ 0)

/-- DIR: the host frame writes its data. -/
def HostFrame.writes (f : HostFrame) : Bool := f.phase.getLsbD 18

/-- The data phase of a host frame; a write's data comes from the host buffer. -/
def HostFrame.dataPhase (f : HostFrame) (d : List Byte) : QPhase :=
  let l := lanesOf (bits f.phase 17 16)
  if f.writes then .send l (padTo f.len d) else .receive l f.len

/-- The command, address and dummy phases of a host frame, and the data phase of a read (R395, R396). -/
def HostFrame.phases (f : HostFrame) : List QPhase :=
  ([QPhase.send (lanesOf (bits f.phase 3 2)) (beBytes (bits f.phase 1 0) f.cmd.toNat),
    QPhase.send (lanesOf (bits f.phase 9 8)) (beBytes (bits f.phase 6 4) f.addr.toNat),
    QPhase.dummy (bits f.phase 14 10)] ++ (if f.writes then [] else [f.dataPhase []])).filter QPhase.present

/-- A host frame on its chip select, in its mode and at its clock (R394). -/
def HostFrame.out (f : HostFrame) (p : List QPhase) : Output :=
  .qspi (bits f.frame 1 0) (f.frame.getLsbD 2) (bits f.frame 15 8) p

/-- DIV of the display's SCK in MHz: the fastest clock not above it (12 R387; log entry 174). -/
def divOf (mhz : Nat) : Nat := if mhz = 0 then 255 else (99 + mhz) / mhz

/-- A DISP frame: one single-lane data phase on QSPI_CS1_L, by the DISPLAY field (12 R387, R388). -/
def State.dispOut (s : State) (b : List Byte) : Output :=
  let f := match s.boot.desc with | some d => d.display | none => []
  .qspi 1 (decide (fieldLe f 2 1 = 3)) (divOf (fieldLe f 1 1)) [.send 1 b]

/-- QSPI_FRAME_START (R399): with the bus free, ROM and Adeit frames go first, then DISP, then the host; none starts from
the start of Squall. -/
def execQspiFrameStart (s : State) : Host.Outcome State Fault Refusal :=
  if !s.active || !s.dev.pad.qspi || s.qspi.bus ≠ none then .next s
  else if 0 < s.qspi.fwWait then
    .next { s with qspi := { s.qspi with fwWait := s.qspi.fwWait - 1, bus := some .fw, lastUser := .fw } }
  else match s.disp.waiting with
  | f :: r =>
    .next (({ s with disp := { s.disp with waiting := r },
                     qspi := { s.qspi with bus := some .disp, lastUser := .disp, busInit := f.1 } } : State).emit (s.dispOut f.2))
  | [] =>
  if s.qspi.hostWait then
    .next (({ s with qspi := { s.qspi with hostWait := false, bus := some .host, lastUser := .host } } : State).emit
      (s.qspi.hf.out s.qspi.hf.phases))
  else .next s

/-- The DMA and the end of a host frame: data moves only while Bus Master Enable of PF0 is 1 (R398, edge case). -/
def State.hostFrameEnd (s : State) (data : List Byte) : State :=
  let f := s.qspi.hf
  let s1 : State := { s with qspi := { s.qspi with bus := none, hostFrames := satInc s.qspi.hostFrames } }
  if f.len = 0 then s1.raise pQSPI 0
  else if s.pcie.fns[(0 : Fn)].bme then
    if f.writes then ((s1.emit (.memRead 0 f.host f.len false)).emit (f.out [f.dataPhase data])).raise pQSPI 0
    else (s1.emit (.memWrite 0 f.host (padTo f.len data) false false)).raise pQSPI 0
  else ({ s1 with qspi := { s1.qspi with dmaErr := true } } : State).raise pQSPI 2

/-- FRAME_DONE: the frame on the bus ends. A DISP line write is counted in DISP_FRAMES, INIT sets INIT_SENT. -/
def execFrameDone (rd : List Byte) (s : State) : Host.Outcome State Fault Refusal :=
  match s.qspi.bus with
  | none => .next s
  | some .fw => .next { s with qspi := { s.qspi with bus := none } }
  | some .disp =>
    let s1 : State := { s with qspi := { s.qspi with bus := none, busInit := false } }
    .next (if s.qspi.busInit then s1.raise pDISP 1
           else { s1 with disp := { s1.disp with frames := satInc s1.disp.frames } })
  | some .host => .next (s.hostFrameEnd rd)

/-! ## SPI target -/

/-- Bits of a word, 8, 16 or 32 (R400). -/
def wordBits (w : BitVec 2) : Nat := if w = 0#2 then 8 else if w = 1#2 then 16 else 32

/-- SPIT_CTRL.WORD as written. -/
def State.spitWord (s : State) : BitVec 2 := BitVec.ofNat 2 (bits (s.reg pSPIT 0x100 0x100#32) 1 0)

/-- SPIT_TX_DATA (R404): push the low WORD bits. -/
def State.spitTx (s : State) (v : Word) : State :=
  { s with spit := { s.spit with tx := s.spit.tx ++ [BitVec.ofNat 32 (v.toNat % 2 ^ wordBits s.spitWord)] } }

/-- SPIT_RX_POP (R401). -/
def State.spitPop (s : State) : State := { s with spit := { s.spit with rx := s.spit.rx.drop 1 } }

/-- A write of SPIT_CTRL that changes WORD empties both FIFOs and sets the word sent last to 0 (R404); before the write is stored. -/
def State.spitCtrl (s : State) (v : Word) : State :=
  if bits v 1 0 ≠ s.spitWord.toNat then { s with spit := { s.spit with tx := [], rx := [], last := 0#32 } } else s

/-- SPIT_ATTN_L low: the transmit FIFO at ATTN_LEVEL or above, or ATTN_FORCE (R403); high from the start of Squall. -/
def State.attn (s : State) : Bool :=
  let c := s.reg pSPIT 0x100 0x100#32
  s.dev.pad.spit && !s.squall.running &&
    (if s.dev.romRecovery then decide (s.spit.tx ≠ []) else decide (bits c 14 8 ≤ s.spit.tx.length) || c.getLsbD 2)

/-- SPIT_WORD_RECEIVED (R401): a complete word enters the receive FIFO or is lost. -/
def execSpitWordReceived (word : Word) (s : State) : Host.Outcome State Fault Refusal :=
  if !s.dev.pad.spit || !s.active || s.dev.romRecovery then .next s
  else if 64 ≤ s.spit.rx.length then
    .next (({ s with spit := { s.spit with overflow := true, lost := satInc s.spit.lost } } : State).raise pSPIT 3)
  else
    let w := BitVec.ofNat 32 (word.toNat % 2 ^ wordBits s.spit.width)
    .next (({ s with spit := { s.spit with rx := s.spit.rx ++ [w] } } : State).raise pSPIT 0)

/-- SPIT_WORD_TAKE (R402): at a word start the target takes the next word, or repeats the last on an empty FIFO. WORD
takes effect at the falling edge of SPIT_CS_L, the first word of a frame (R404). -/
def execSpitWordTake (first : Bool) (s : State) : Host.Outcome State Fault Refusal :=
  if !s.dev.pad.spit || !s.active then .next s
  else
    let s0 : State := if first then { s with spit := { s.spit with
      width := if s.dev.romRecovery then 2#2 else s.spitWord } } else s
    match s0.spit.tx with
    | [] =>
      let s1 : State := { s0 with spit := { s0.spit with underrun := true, repeats := satInc s0.spit.repeats } }
      .next ((s1.raise pSPIT 2).emit (.spiWord s0.spit.last))
    | w :: r =>
      let s1 : State := { s0 with spit := { s0.spit with tx := r, last := w } }
      .next ((if r = [] then s1.raise pSPIT 1 else s1).emit (.spiWord w))

/-- SPIT_CS_RISE (R401): a partial word is discarded. -/
def execSpitCsRise (withinWord : Bool) (s : State) : Host.Outcome State Fault Refusal :=
  if withinWord && s.dev.pad.spit && s.active then
    .next (({ s with spit := { s.spit with partial_ := true } } : State).raise pSPIT 4)
  else .next s

/-! ## VMOTION and GPIO inputs -/

/-- Enter a motion state: MOTION_CHANGE, and for UNSTABLE its bit and a warning record (R422, R430). -/
def State.setMotion (s : State) (m : Motion) : State :=
  if s.gpio.motion = m then s
  else
    let s1 := ({ s with gpio := { s.gpio with motion := m } } : State).raise pGPIO 5
    if m = .unstable then s1.raiseRecStatus pGPIO 6 2 noTenant else s1

/-- MOTION_CHANGE (R422): a filtered level change, or a hold time that has run out at the level given. -/
def execMotionChange (level : Bool) (s : State) : Host.Outcome State Fault Refusal :=
  if !s.awake then .next s
  else if level ≠ s.pins.vmotion then
    let ch := (s.gpio.changes.filter (fun a => s.now < a + 10000000)) ++ [s.now]
    let s1 : State := { s with pins := { s.pins with vmotion := level },
                               gpio := { s.gpio with changes := ch, changeAt := s.now } }
    .next (if 8 ≤ ch.length then s1.setMotion .unstable else s1)
  else
    let quiet := s.now - s.gpio.changeAt
    match s.gpio.motion with
    | .unstable => .next (if 60000000 ≤ quiet then s.setMotion (if level then .moving else .stationary) else s)
    | .moving => .next (if !level && decide (30000000 ≤ quiet) then s.setMotion .stationary else s)
    | .stationary => .next (if level && decide (2000000 ≤ quiet) then s.setMotion .moving else s)

/-- GPIO_INPUT_EDGE (R424): an edge of an input that GPIO_EDGE selects sets its bit. -/
def execGpioInputEdge (n : Fin 4) (level : Bool) (s : State) : Host.Outcome State Fault Refusal :=
  let old := s.pins.gpio.getLsbD n
  let s1 : State := { s with pins := { s.pins with
    gpio := if level then s.pins.gpio ||| (1#4 <<< n.1) else s.pins.gpio &&& ~~~ (1#4 <<< n.1) } }
  let isInput := match s.boot.desc with | some d => decide (d.gpio n 0 = 0) | none => false
  let e := s.reg pGPIO 0x108 0#32
  let sel := if level then e.getLsbD n else e.getLsbD (4 + n.1)
  .next (if s.awake && isInput && decide (old ≠ level) && sel then s1.raise pGPIO n else s1)

/-! ## PMIC script -/

/-- Entry i of the script, 24 bytes (R414). -/
def BoardDesc.entry (d : BoardDesc) (i : Nat) : List Byte := slice d.script (32 + 24 * i) 24
def BoardDesc.entries (d : BoardDesc) : Nat := fieldLe d.script 1 1
def BoardDesc.role (d : BoardDesc) (i : Nat) : Nat := fieldLe (d.entry i) 0 1

/-- Entries of a role, in script order. -/
def BoardDesc.ofRole (d : BoardDesc) (r : Nat) : List Nat :=
  (List.range d.entries).filter (fun i => decide (d.role i = r))

/-- Exactly one entry of each of roles 2 to 4 and at most one STATUS entry (R417). -/
def BoardDesc.scriptComplete (d : BoardDesc) : Bool :=
  (d.ofRole 2).length = 1 && (d.ofRole 3).length = 1 && (d.ofRole 4).length = 1 && (d.ofRole 5).length ≤ 1

/-- The first INIT entry at or after an index. -/
def BoardDesc.initFrom (d : BoardDesc) (k : Nat) : Option Nat := (d.ofRole 1).find? (fun i => decide (k ≤ i))

/-- Whether the bytes read match RMASK and REXPECT (R415). -/
def entryMatches (e : List Byte) (b : List Byte) : Bool :=
  let n := fieldLe e 3 1
  decide (b.length = n) && (List.range n).all (fun k =>
    (b.getD k 0) &&& (e.getD (16 + k) 0) = (e.getD (20 + k) 0) &&& (e.getD (16 + k) 0))

/-- DETAIL of I2CI events from offset 0x04 (11 R363). -/
def i2ciDetail (i role tries : Nat) (b : List Byte) : List Byte :=
  [BitVec.ofNat 8 i, BitVec.ofNat 8 role, BitVec.ofNat 8 tries, 0] ++ padTo 4 b

/-- How one try of an entry ended. -/
inductive TryEnd where
  | ok | mismatch | again | failed
deriving DecidableEq, Repr

/-- One try of entry i (R415, R416): the bus transaction, its count, and the retry or the failure. A STATUS mismatch is no
failed try. -/
def State.tryEntry (s : State) (d : BoardDesc) (i : Nat) (ans : PmicAnswer) : State × TryEnd :=
  let e := d.entry i
  let role := d.role i
  let got := match ans with | .nack => [] | .bytes b => b.take (fieldLe e 3 1)
  let acked := decide (ans ≠ .nack)
  let good := acked && entryMatches e got
  let s0 : State := { (s.emit (.pmic i (slice e 8 (fieldLe e 2 1)))) with i2ci := { s.i2ci with
    index := i, txns := if s.i2ci.tries = 0 then satInc s.i2ci.txns else s.i2ci.txns,
    nacks := if acked then s.i2ci.nacks else satInc s.i2ci.nacks } }
  if good || (acked && decide (role = 5)) then
    ({ s0 with i2ci := { s0.i2ci with tries := 0, retryIdx := none, txnFail := false } },
      if good then .ok else .mismatch)
  else if s.i2ci.tries < 2 then
    ({ s0 with i2ci := { s0.i2ci with tries := s.i2ci.tries + 1, retryIdx := some i, retryAt := s.now + 1000 } }, .again)
  else
    let s1 : State := { s0 with i2ci := { s0.i2ci with tries := 0, retryIdx := none, txnFail := true } }
    (s1.raiseRec pI2CI 1 2 noTenant (i2ciDetail i role 3 got), .failed)

/-- Hold-up state of a measurement (03 R77). -/
def holdStateOf (d : BoardDesc) (dV : Int) (slope B : Nat) : HoldState :=
  if B < 256 || 4000 * d.iT < d.cNom * slope || 4 * d.cNom * slope < 1000 * d.iT ||
      decide ((4 * d.esrNom * d.iT : Nat) < dV) then .failed
  else if B < d.goodMin then .degraded else .good

/-- DETAIL of the probe's events from offset 0x04 (11 R363): C in mF and ESR in mΩ, rounded down (log entry 10). -/
def holdDetail (d : BoardDesc) (v0 : Nat) (dV : Int) (slope B : Nat) (h : HoldState) : List Byte :=
  let code := match h with | .none => 0 | .good => 1 | .degraded => 2 | .failed => 3 | .skipped => 4
  leBytes 4 (1000 * d.iT / slope) ++ leBytes 4 (dV / d.iT).toNat ++ leBytes 4 v0 ++ leBytes 4 B ++ [BitVec.ofNat 8 code]

/-- The probe's end (03 R73 step 6, R75, R77, R78, R83). -/
def State.probeDone (s : State) (d : BoardDesc) : State :=
  let p := s.pwr
  let B := holdupB d p.nv0 p.ndV p.nslope false
  let h := holdStateOf d p.ndV p.nslope B
  let s1 : State := { s with pwr := { p with
    probe := .idle, idleSince := s.now, hold := h, holdAt := some s.now, v0 := p.nv0, dV := p.ndV, slope := p.nslope, vUse := p.nv0,
    energy := holdupEnergy d p.nv0 p.ndV p.nslope false } }
  let s2 := (s1.setEb (if h = .failed then 0 else min B s1.poolLimit)).raise pPWR 1
  let det := holdDetail d p.nv0 p.ndV p.nslope B h
  match h with
  | .degraded => s2.raiseRec pPWR 2 1 noTenant det
  | .failed => s2.raiseRec pPWR 3 3 noTenant det
  | _ => s2

/-- What follows a try of an entry, by its role: INIT runs on or ends the script; the probe goes on, or is abandoned with
CHARGE_RESUME still sent once CHARGE_HOLD has been (R416, log entry 15). -/
def State.afterTry (s : State) (d : BoardDesc) (i : Nat) (e : TryEnd) : State :=
  let p := s.pwr
  match d.role i, e with
  | 1, .ok => { s with i2ci := { s.i2ci with initNext := d.initFrom (i + 1),
                                             initAt := s.now + 1000 * fieldLe (d.entry i) 4 1 } }
  | 1, .failed => { s with i2ci := { s.i2ci with initNext := none, ended := true }, pwr := { p with noProbe := true } }
  | 2, .ok => { s with pwr := { p with loadAt := s.now } }
  | 2, .failed => { s with pwr := { p with probe := .idle, idleSince := s.now } }
  | 3, .ok => { s with pwr := { p with probe := .loaded, loadAt := s.now } }
  | 3, .failed =>
    { s with pwr := { p with probe := .abandoned },
             i2ci := { s.i2ci with retryIdx := (d.ofRole 4).head?, retryAt := s.now } }
  | 4, .ok => if p.probe = .resuming then s.probeDone d else { s with pwr := { p with probe := .idle, idleSince := s.now } }
  | 4, .failed => { s with pwr := { p with probe := .idle, idleSince := s.now } }
  | _, _ => s

def State.runEntry (s : State) (d : BoardDesc) (i : Nat) (ans : PmicAnswer) : State :=
  let r := s.tryEntry d i ans
  r.1.afterTry d i r.2

/-- The initiator can start a transaction: enabled, not stuck, none waiting for a retry, Squall not running. -/
def State.i2ciFree (s : State) : Bool :=
  s.active && s.dev.pad.i2ci && !s.i2ci.stuck && s.i2ci.retryIdx.isNone

/-- SCRIPT_ENTRY (R415): the INIT entry due runs. -/
def execScriptEntry (index : Fin 20) (ans : PmicAnswer) (s : State) : Host.Outcome State Fault Refusal :=
  match s.boot.desc with
  | some d =>
    if s.i2ciFree && decide (s.i2ci.initNext = some index.1) && decide (s.i2ci.initAt ≤ s.now) then
      .next (s.runEntry d index ans)
    else .next s
  | none => .next s

/-- What follows a try of the STATUS entry: the bytes read are kept, and a mismatch is the PMIC fault of 03 R78 (R415). -/
def State.afterStatus (s : State) (d : BoardDesc) (i : Nat) (ans : PmicAnswer) (e : TryEnd) : State :=
  let got := match ans with | .nack => [] | .bytes b => b.take (fieldLe (d.entry i) 3 1)
  let w : Word := BitVec.ofNat 32 (ofLe got)
  match e with
  | .ok => { s with i2ci := { s.i2ci with pmicFault := false, lastStatus := w } }
  | .mismatch =>
    (({ s with i2ci := { s.i2ci with pmicFault := true, lastStatus := w } } : State).raiseRec pI2CI 2 2 noTenant
      (i2ciDetail i 5 1 got)).pmicShrink
  | _ => s

/-- ENTRY_RETRY (R416). -/
def execEntryRetry (ans : PmicAnswer) (s : State) : Host.Outcome State Fault Refusal :=
  match s.boot.desc, s.i2ci.retryIdx with
  | some d, some i =>
    if s.active && !s.i2ci.stuck && decide (s.i2ci.retryAt ≤ s.now) then
      if d.role i = 5 then .next ((s.tryEntry d i ans).1.afterStatus d i ans (s.tryEntry d i ans).2)
      else .next (s.runEntry d i ans)
    else .next s
  | _, _ => .next s

/-- STATUS_POLL (R415): every STATUS_PERIOD seconds outside a probe. -/
def execStatusPoll (ans : PmicAnswer) (s : State) : Host.Outcome State Fault Refusal :=
  match s.boot.desc with
  | none => .next s
  | some d =>
    let period := fieldLe d.script 4 1
    match (d.ofRole 5).head? with
    | none => .next s
    | some i =>
      if s.i2ciFree && !s.i2ci.ended && s.i2ci.initNext.isNone && !s.probeRunning && decide (0 < period) &&
          decide (s.i2ci.statusAt + period * 1000000 ≤ s.now) then
        let r := s.tryEntry d i ans
        .next (({ r.1 with i2ci := { r.1.i2ci with statusAt := s.now } } : State).afterStatus d i ans r.2)
      else .next s

/-- What a recovery of R418 leaves: SDA free after some pulse, or still low after the ninth. -/
def State.recoverBus (s : State) (freedAfter : Option (Fin 10)) : State :=
  let s0 : State := { s with i2ci := { s.i2ci with recoveries := satInc s.i2ci.recoveries, stuckAt := s.now } }
  match freedAfter with
  | some _ =>
    if s.i2ci.stuck then
      ({ s0 with i2ci := { s0.i2ci with stuck := false } } : State).record (bitCode pI2CI 0) 1 noTenant
        (leBytes 4 s0.hdr[pI2CI].intStatus.toNat ++ i2ciDetail s.i2ci.index 0 0 [])
    else s0
  | none =>
    if s.i2ci.stuck then s0
    else
      let s1 : State := { s0 with i2ci := { s0.i2ci with stuck := true, retryIdx := none, tries := 0 },
                                  pwr := { s0.pwr with probe := .idle, idleSince := s.now } }
      (s1.raiseRec pI2CI 0 2 noTenant (i2ciDetail s.i2ci.index 0 0 [])).holdupSkipped

/-- STUCK_BUS_RECOVERY (R418): SDA found low at an enable, after a reset or before a transaction. -/
def execStuckBusRecovery (freedAfter : Option (Fin 10)) (s : State) : Host.Outcome State Fault Refusal :=
  .next (if s.active && s.dev.pad.i2ci then s.recoverBus freedAfter else s)

/-- STUCK_RETRY (R419): every 60 s while STUCK is 1. -/
def execStuckRetry (freedAfter : Option (Fin 10)) (s : State) : Host.Outcome State Fault Refusal :=
  .next (if s.active && s.i2ci.stuck && decide (s.i2ci.stuckAt + 60000000 ≤ s.now) then s.recoverBus freedAfter else s)

/-! ## Hold-up probe (03 R72, R73) -/

/-- A fold is in progress (03 R72). -/
def State.folding (s : State) : Bool :=
  s.med.moves.any (fun m => decide (m.walker = .eddy) && !m.programmed) || s.med.copies.any (fun c => decide (c.walker = .eddy))

/-- A probe is due: the start's first one after replay, one asked for, or 10 minutes after the last (R72). -/
def State.probeIsDue (s : State) : Bool :=
  s.pwr.probeDue ||
    match s.pwr.probeAt with
    | none => s.boot.replayed
    | some a => decide (a + 600000000 ≤ s.now)

/-- PWR_CTRL.PROBE_NOW: a request, provided 10 s have passed since the last probe (R72). -/
def State.probeNow (s : State) : State :=
  let ok := match s.pwr.probeAt with | none => true | some a => decide (a + 10000000 ≤ s.now)
  if ok then { s with pwr := { s.pwr with probeDue := true } } else s

/-- HOLDUP_PROBE (R72, R73 step 1). -/
def execHoldupProbe (ans : PmicAnswer) (s : State) : Host.Outcome State Fault Refusal :=
  match s.boot.desc with
  | none => .next s
  | some d =>
    match (d.ofRole 2).head? with
    | none => .next s
    | some i =>
      if s.i2ciFree && !s.pwr.noProbe && s.i2ci.initNext.isNone && !s.probeRunning && s.probeIsDue && !s.folding &&
          !s.pwr.lull then
        let s1 : State := { s with pwr := { s.pwr with probe := .charging, probeAt := some s.now, probeDue := false } }
        .next (s1.probeShrink.runEntry d i ans)
      else .next s

/-- LOAD_PULSE (R73 steps 2 and 3), 2.1 ms after CHARGE_HOLD. -/
def execLoadPulse (v0mV : Nat) (ans : PmicAnswer) (s : State) : Host.Outcome State Fault Refusal :=
  match s.boot.desc with
  | none => .next s
  | some d =>
    match (d.ofRole 3).head? with
    | none => .next s
    | some i =>
      if s.i2ciFree && decide (s.pwr.probe = .charging) && decide (s.pwr.loadAt + 2100 ≤ s.now) then
        .next (({ s with pwr := { s.pwr with nv0 := v0mV } } : State).runEntry d i ans)
      else .next s

/-- PROBE_COMPLETE (R73 steps 4 to 6): the load has ended by itself after T_LOAD; CHARGE_RESUME is sent. -/
def execProbeComplete (vAuV slopeMVs : Nat) (ans : PmicAnswer) (s : State) : Host.Outcome State Fault Refusal :=
  match s.boot.desc with
  | none => .next s
  | some d =>
    match (d.ofRole 4).head? with
    | none => .next s
    | some i =>
      if s.i2ciFree && decide (s.pwr.probe = .loaded) && decide (s.pwr.loadAt + 1000 * d.tLoad ≤ s.now) then
        .next (({ s with pwr := { s.pwr with probe := .resuming, ndV := (s.pwr.nv0 : Int) * 1000 - vAuV,
                                             nslope := slopeMVs } } : State).runEntry d i ans)
      else .next s

end Sys2Proof.Machine
end

