-- ==== Sys2Proof/Machine/Media.lean ====
section
/-!
DEFINITION. The flash media (09): superblocks and placement, the SLC buffer, the queues of flash operations, block and die failure, erases.
-/
namespace Sys2Proof.Machine

/-! ## Superblocks (R268, R269) -/

/-- W of a superblock. -/
def Superblock.width (b : Superblock) : Nat := b.blocks.length - 1

/-- The parity die within the group: superblock number mod 16 (R268). -/
def parityIx (key : Nat) : Nat := key % 65536 % 16

/-- The die block of the parity die. -/
def parityBlock (d : BoardDesc) (key : Nat) (b : Superblock) : Nat × Nat :=
  (b.blocks.find? (fun x => x.1 = (d.groupDies b.group.1).getD (parityIx key) 256)).getD (0, 0)

/-- The data columns, in the group's order. -/
def dataCols (d : BoardDesc) (key : Nat) (b : Superblock) : List (Nat × Nat) :=
  b.blocks.filter (fun x => x ≠ parityBlock d key b)

/-- Slots of a superblock in its mode; the system area is in SLC mode (R285). -/
def Superblock.capacity (d : BoardDesc) (b : Superblock) : Nat := d.sbSlots b.width (b.use = .slc || b.use = .system)

/-- Slots of one row, and of one die's row across its planes. -/
def Superblock.rowSlots (d : BoardDesc) (b : Superblock) : Nat := 4 * d.planes * b.width
def BoardDesc.dieSlots (d : BoardDesc) : Nat := 4 * d.planes

/-- Die and block of a codeword slot: s = ((r × W + d) × P + p) × 4 + c (R269). The codewords of the parity pages are numbered after the
superblock's last slot. -/
def slotDie (d : BoardDesc) (key : Nat) (b : Superblock) (slot : Nat) : Nat × Nat :=
  if slot < b.capacity d then (dataCols d key b).getD (slot / 4 / d.planes % b.width) (0, 0) else parityBlock d key b

/-- Plane and row of a slot. -/
def slotPlane (d : BoardDesc) (slot : Nat) : Nat := slot / 4 % d.planes
def slotRow (d : BoardDesc) (b : Superblock) (slot : Nat) : Nat :=
  if slot < b.capacity d then slot / 4 / d.planes / b.width else (slot - b.capacity d) / 4 / d.planes

/-- The conventional map entry of a slot, 40 bits (R281). -/
def convEntry (d : BoardDesc) (key : Nat) (b : Superblock) (slot : Nat) : Nat :=
  (slotDie d key b slot).1 * 2 ^ 32 + slotPlane d slot * 2 ^ 29 + (slotDie d key b slot).2 * 2 ^ 14 +
    slotRow d b slot * 4 + slot % 4

/-- The zone entry of a folded unit (R282). -/
def foldedEntry (key : Nat) (b : Superblock) (slot : Nat) : Nat :=
  2 ^ 63 + b.group.1 * 2 ^ 58 + key % 65536 * 2 ^ 42 + slot * 2 ^ 18 + parityIx key * 2 ^ 14

/-- A fragment record, 16 bytes (R283). -/
def fragmentBytes (key : Nat) (b : Superblock) (slot first n next : Nat) : List Byte :=
  leBytes 2 (first % 256) ++ leBytes 2 n ++ [BitVec.ofNat 8 (b.group.1 + 16 * parityIx key), 0] ++
    leBytes 2 (key % 65536) ++ leBytes 4 slot ++ leBytes 4 next

/-- Whether a die block is part of a superblock. -/
def Nvm.blockUsed (n : Nvm) (die blk : Nat) : Bool := n.sbs.any (fun p => p.2.blocks.contains (die, blk))

/-- Whether one die block comes before another in a die's heap: fewer erases, then the lower number (R296). -/
def lessWorn (n : Nvm) (die a b : Nat) : Bool :=
  let wa := (n.wear.find (die * 65536 + a)).getD 0
  let wb := (n.wear.find (die * 65536 + b)).getD 0
  decide (wa < wb) || (decide (wa = wb) && decide (a < b))

/-- A die's least-worn free die block (R296). -/
def State.leastWorn (s : State) (d : BoardDesc) (die : Nat) : Option Nat :=
  ((s.goodBlocks d die).filter (fun b => !s.nvm.blockUsed die b)).foldl (fun best b =>
    match best with
    | none => some b
    | some a => if lessWorn s.nvm die b a then some b else some a) none

/-- The lowest superblock number of a group that is not in use and whose parity die works (R268, log entry 157). -/
def State.sbNumber (s : State) (d : BoardDesc) (g : Nat) : Nat :=
  ((List.range 65536).find? (fun k => !s.nvm.sbs.has (g * 65536 + k) &&
    (s.workingDies d g).contains ((d.groupDies g).getD (parityIx k) 256))).getD 0

/-- Form a superblock on the working dies of a group (R296, R302). -/
def State.formSb (s : State) (d : BoardDesc) (g : Nat) (use : SbUse) (stream : Nat) : Option (Nat × State) :=
  if (s.nvm.groups.toList.getD g 3).1 = 3 then none
  else
    let picks := (s.workingDies d g).map (fun x => (s.leastWorn d x).map (fun b => (x, b)))
    if picks.length < 8 || picks.any (fun p => p.isNone) then none
    else
      let key := g * 65536 + s.sbNumber d g
      let b : Superblock :=
        { group := Fin.ofNat 16 g, blocks := picks.filterMap id, use := use, stream := stream, open_ := true, slots := 0,
          pieces := [], reads := [], age := 0, listed := false, scrubbed := s.opSecs, scrubRow := 0, parity := 0,
          unmapped := false, seq := s.nvm.sbNext }
      some (key, { s with nvm := { s.nvm with sbs := s.nvm.sbs.put key b, sbNext := s.nvm.sbNext + 1 } })

/-- Form the next superblock of the system area in a group, from each die's lowest-numbered good die block; it counts as filled (R291, log entry
158). -/
def State.formSysSb (s : State) (d : BoardDesc) (g : Nat) : State :=
  let picks := (d.groupDies g).filterMap (fun x => ((s.goodBlocks d x).find? (fun b => !s.nvm.blockUsed x b)).map (fun b => (x, b)))
  if picks.length < 16 then s
  else
    let n := d.sbSlots 15 true
    let b : Superblock :=
      { group := Fin.ofNat 16 g, blocks := picks, use := .system, stream := 5, open_ := false, slots := n, pieces := [(0, .sys n)], reads := [],
        age := 0, listed := false, scrubbed := s.opSecs, scrubRow := 0, parity := 0, unmapped := false, seq := s.nvm.sbNext }
    { s with nvm := { s.nvm with sbs := s.nvm.sbs.put (g * 65536 + s.sbNumber d g) b, sbNext := s.nvm.sbNext + 1 } }

/-- Change a superblock. -/
def State.updSb (s : State) (k : Nat) (f : Superblock → Superblock) : State :=
  { s with nvm := { s.nvm with sbs := s.nvm.sbs.upd k f } }

/-- Superblocks a group's free die blocks could form now. -/
def State.formable (s : State) (d : BoardDesc) (g : Nat) : Nat :=
  if (s.nvm.groups.toList.getD g 3).1 = 3 then 0
  else ((s.workingDies d g).map (fun x => ((s.goodBlocks d x).filter (fun b => !s.nvm.blockUsed x b)).length)).foldl min
    d.blocksPerPlane

/-! ## Pieces -/

/-- Blocks of a piece. -/
def Piece.blocks : Piece → Nat
  | .zone _ _ _ n _ => n
  | .conv _ _ _ => 1
  | .sys n => n
  | .pad n => n

def convKey (t : Tid) (lba : Nat) : Nat := t.1 * 2 ^ 48 + lba

/-- Whether the map still names a piece: the zone's generation and write pointer, or the block's WRITE_SEQ (R285, R286). What a block held before a
write that is not acknowledged counts as named (07 R216). -/
def Nvm.validPiece (n : Nvm) : Piece → Bool
  | .zone z g f k _ => match n.zones.find z with | some x => decide (x.gen = g) && decide (f + k ≤ x.wp) | none => false
  | .conv t lba q => match n.conv.find (convKey t lba) with
    | some c => (decide (c.seq = q) && !c.unreadable) || c.old.any (fun o => decide (o.2.2 = q))
    | none => false
  | .sys _ => true
  | .pad _ => false

/-- Valid codewords of a superblock. -/
def Nvm.validCount (n : Nvm) (b : Superblock) : Nat :=
  b.pieces.foldl (fun a p => if n.validPiece p.2 then a + p.2.blocks else a) 0

/-- Whether a run of a gust stream is still kept in on-chip SRAM: its zone waits for the merge (R288, 04 R100). -/
def Nvm.gustRun (n : Nvm) (b : Superblock) (p : Piece) : Bool :=
  decide (8 ≤ b.stream) && match p with
    | .zone z _ _ _ _ => match n.zones.find z with | some x => x.inGustSet && x.used | none => false
    | _ => false

/-- The valid runs of zone data in SLC: superblock, slot, run (R283). Their places in this list are their records' indices. -/
def Nvm.runs (n : Nvm) : List (Nat × Nat × Piece) :=
  n.sbs.flatMap (fun p => if p.2.use = .slc then
    (p.2.pieces.filter (fun q => match q.2 with | .zone _ _ _ _ _ => n.validPiece q.2 | _ => false)).map (fun q => (p.1, q.1, q.2)) else [])

/-- Runs of a superblock that a test selects. -/
def Nvm.countRuns (n : Nvm) (p : Superblock → Piece → Bool) : Nat :=
  n.runs.countP (fun r => match n.sbs.find r.1 with | some b => p b r.2.2 | none => false)

/-- Fragment records in use; a gust tenant's join the table at its merge (R283, R288). -/
def State.fragUsed (s : State) : Nat := s.nvm.countRuns (fun b p => !s.nvm.gustRun b p)

/-- Fragment records of a gust tenant in SRAM (R288). -/
def State.gustFrags (s : State) (t : Tid) : Nat := s.nvm.countRuns (fun b p => decide (b.stream = 8 + t.1) && s.nvm.gustRun b p)

/-- Whether the data of a piece has been programmed. -/
def State.pieceOnMedia (s : State) (p : Piece) : Bool :=
  match p with
  | .zone z _ f n _ =>
    match s.zone z with
    | some x => (x.log.filter (fun e => decide (e.offset < f + n) && decide (f < e.offset + blocksOf e.len))).all (fun e => e.blocksOn)
    | none => false
  | .conv t lba _ => match s.nvm.conv.find (convKey t lba) with | some c => c.onMedia | none => false
  | .sys _ | .pad _ => true

/-- The data in a slot. -/
def Superblock.pieceAt (b : Superblock) (slot : Nat) : Option Piece :=
  (b.pieces.find? (fun p => p.1 ≤ slot && decide (slot < p.1 + p.2.blocks))).map (fun p => p.2)

/-- Where a block lies: superblock and slot. -/
def State.locate (s : State) (hit : Piece → Option Nat) : Option (Nat × Nat) :=
  s.nvm.sbs.findSome? (fun p => p.2.pieces.findSome? (fun q => (hit q.2).map (fun k => (p.1, q.1 + k))))

def hitZone (z : Nat) (g : Word) (b : Nat) : Piece → Option Nat
  | .zone z' g' f n _ => if z' = z && g' = g && f ≤ b && decide (b < f + n) then some (b - f) else none
  | _ => none

def hitConv (t : Tid) (lba seq : Nat) : Piece → Option Nat
  | .conv t' l' q' => if t' = t && l' = lba && q' = seq then some 0 else none
  | _ => none

/-- A piece cut out of a slot range: what lies outside stays (R273). -/
def cutSlots (first n : Nat) : List (Nat × Piece) → List (Nat × Piece)
  | [] => []
  | (a, p) :: r =>
    let k := p.blocks
    let rest := cutSlots first n r
    if a + k ≤ first || decide (first + n ≤ a) then (a, p) :: rest
    else match p with
      | .conv _ _ _ => rest
      | .zone z g f _ q =>
        (if a < first then [(a, Piece.zone z g f (first - a) q)] else []) ++
        (if first + n < a + k then
          [(first + n, Piece.zone z g (f + (first + n - a)) (a + k - (first + n)) (q + (first + n - a)))] else []) ++ rest
      | .sys _ | .pad _ => (a, p) :: rest

/-- Runs of one zone above its write pointer are dropped: discarded appends (07 R216). -/
def trimPieces (n : Nvm) (l : List (Nat × Piece)) : List (Nat × Piece) :=
  l.filterMap (fun p => match p.2 with
    | .zone z g f k q => match n.zones.find z with
      | some x => if x.gen ≠ g || x.wp ≤ f then (if x.gen ≠ g then some p else none)
                  else some (p.1, .zone z g f (min k (x.wp - f)) q)
      | none => some p
    | _ => some p)

/-- Appends discarded with their places on media. -/
def State.dropAppends (s : State) (t : Tid) (gone : Nat → AppRec → Bool) : State :=
  let s1 := s.discardAppends t gone
  { s1 with nvm := { s1.nvm with sbs := s1.nvm.sbs.mapv (fun _ b => { b with pieces := trimPieces s1.nvm b.pieces }) } }

/-! ## The SLC buffer (R287 to R292) -/

/-- Superblocks that hold SLC data for the host streams, and for one gust tenant. -/
def State.slcHost (s : State) : Nat := s.nvm.sbs.countv (fun b => b.use = .slc && decide (b.stream < 8))
def State.slcGust (s : State) (t : Tid) : Nat := s.nvm.sbs.countv (fun b => b.use = .slc && b.stream = 8 + t.1)

/-- Whether a stream may open another SLC superblock: within S − G, or two for a gust tenant (R291, R287). -/
def State.mayOpenSlc (s : State) (stream : Nat) : Bool :=
  if stream < 8 then decide (s.slcHost + s.gustReserve < s.slcSize)
  else decide (s.nvm.sbs.countv (fun b => b.use = .slc && b.stream = stream) < 2)

/-- Erased slots of the host streams: those left in their open SLC superblocks and those of the ready ones, which the groups' erased die
blocks can form and S still allows (R289). -/
def State.slcRoom (s : State) (d : BoardDesc) : Nat :=
  s.nvm.sbs.foldl (fun a p => if p.2.use = .slc && p.2.open_ && decide (p.2.stream < 8) then a + (p.2.capacity d - p.2.slots) else a) 0 +
    min (s.slcSize - s.gustReserve - s.slcHost) ((List.range d.groups).foldl (fun a g => a + s.formable d g) 0) * d.sbSlots (s.sbWidth d) true

/-- Free SLC capacity below MED_FOLD_LOW percent, or the fragment table above 75 % (R294). -/
def State.foldUrgent (s : State) : Bool :=
  match s.boot.desc with
  | none => false
  | some d =>
    let low := bits (s.reg pMED 0x114 25#32) 6 0
    let all := (s.slcSize - s.gustReserve) * d.sbSlots (s.sbWidth d) true
    s.dev.level = .full && (decide (100 * s.slcRoom d < low * all) || decide (3145728 < s.fragUsed))

/-- Age thresholds of R298 in weighted milliseconds, and the read-disturb thresholds, by the registers of R306. -/
def State.ageSlc (s : State) : Nat := bits (s.reg pMED 0x118 60#32) 11 0 * 86400000
def cellNative (d : BoardDesc) : Nat := if d.cell = 0 then 180 else 90
def cellReads (d : BoardDesc) : Nat := if d.cell = 0 then 100000 else 40000
def State.ageNative (s : State) (d : BoardDesc) : Nat := bits (s.reg pMED 0x11C (BitVec.ofNat 32 (cellNative d))) 11 0 * 86400000
def Superblock.inSlc (b : Superblock) : Bool := b.use = .slc || b.use = .system
def State.ageLimit (s : State) (d : BoardDesc) (b : Superblock) : Nat := if b.inSlc then s.ageSlc else s.ageNative d
def State.readLimit (s : State) (d : BoardDesc) (b : Superblock) : Nat :=
  if b.inSlc then (s.reg pMED 0x120 500000#32).toNat else (s.reg pMED 0x124 (BitVec.ofNat 32 (cellReads d))).toNat

/-- Reads of the superblock's most-read die block. -/
def Superblock.maxReads (b : Superblock) : Nat := b.reads.foldl (fun a p => max a p.2) 0

/-- A programmed superblock has passed one of its thresholds by 10 % (R306). -/
def State.backlogged (s : State) (b : Superblock) : Bool :=
  match s.boot.desc with
  | none => false
  | some d => b.use ≠ .free && decide (0 < b.slots) &&
      (decide (s.ageLimit d b * 11 ≤ b.age * 10) || decide (s.readLimit d b * 11 ≤ b.maxReads * 10))

/-- The status bits of the media as they follow a change: FOLD_URGENT, REFRESH_BACKLOG for each superblock that passes, FRAG_HIGH (R305,
R306). -/
def State.mediaBits (s before : State) : State :=
  let s1 := if s.foldUrgent && !before.foldUrgent then s.raise pMED 2 else s
  let late (p : Nat × Superblock) : Bool := s.backlogged p.2 &&
    !(match before.nvm.sbs.find p.1 with | some b => before.backlogged b | none => false)
  let s2 := if s.nvm.sbs.any late then s1.raise pMED 4 else s1
  if 3145728 < s.fragUsed && before.fragUsed ≤ 3145728 then s2.raise pFTL 0 else s2

/-- Die groups in round-robin order after the one a stream used last. -/
def State.groupOrder (s : State) (d : BoardDesc) (stream : Nat) : List Nat :=
  let last := (s.med.nextGroup.find stream).getD (d.groups - 1)
  ((List.range d.groups).map (fun k => (last + 1 + k) % d.groups)).filter
    (fun g => decide ((s.nvm.groups.toList.getD g 3).1 ≠ 3))

/-- The open superblock of a stream in a group with a free slot. -/
def State.openSb (s : State) (d : BoardDesc) (g stream : Nat) (use : SbUse) : Option Nat :=
  (s.nvm.sbs.find? (fun p => p.2.group.1 = g && p.2.stream = stream && p.2.use = use && p.2.open_ &&
    decide (p.2.slots < p.2.capacity d))).map (fun p => p.1)

/-- The stream's superblock of a group: the open one, or a new one within the SLC limits. -/
def State.streamSb (s : State) (d : BoardDesc) (g stream : Nat) (use : SbUse) : Option (Nat × State) :=
  match s.openSb d g stream use with
  | some k => some (k, s)
  | none => if use ≠ .slc || s.mayOpenSlc stream then s.formSb d g use stream else none

/-! ## Flash operations (R270 to R273) -/

/-- Work reaches or leaves a channel: its group's idle time and the controller's start again (03 R66, R70). -/
def State.chanTouch (s : State) (ch : Nat) : State :=
  let x := s.pwr.doms.toList.getD (ch / 2) Domain.reset
  { s with pwr := { s.pwr with doms := s.pwr.doms.setIfInBounds (ch / 2) { x with idleAt := s.now }, idleSince := s.now } }

/-- A channel's group is powered and awake, its engines loaded (03 R65, 04 R94). -/
def State.chanOn (s : State) (ch : Nat) : Bool :=
  let x := s.pwr.doms.toList.getD (ch / 2) Domain.reset
  decide (x.st = .on) && decide (x.readyAt ≤ s.now) && x.loaded

/-- Queue an operation on a die. -/
def State.queueOp (s : State) (die cls : Nat) (k : FlashKind) (bufs : List Nat) : State :=
  let op : FlashOp := { die := Fin.ofNat 256 die, cls := cls, kind := k, bufs := bufs, issued := false, issue := s.med.nextOp, again := false,
                        suspends := 0, suspended := false, rebuildsPending := false, softWait := false }
  ({ s with med := { s.med with ops := s.med.ops.put s.med.nextOp op, nextOp := s.med.nextOp + 1 } } : State).chanTouch (die / 32)

/-- The programs of slots [first, first + n) of a superblock: one operation for each die's row, across its planes, its buffers in slot
order, and the row's parity page after its last slot (R264, R269). -/
def State.queuePages (s : State) (d : BoardDesc) (key : Nat) (b : Superblock) (cls first n : Nat) (hs : List Nat) : State :=
  let w := d.dieSlots
  (List.range ((first + n + (w - 1)) / w - first / w)).foldl (fun a i =>
    let pg := first / w + i
    let lo := max first (w * pg)
    let hi := min (first + n) (w * pg + w)
    let a1 := a.queueOp (slotDie d key b lo).1 cls (.program key lo (hi - lo)) ((hs.drop (lo - first)).take (hi - lo))
    if hi % b.rowSlots d = 0 then
      a1.queueOp (parityBlock d key b).1 cls (.parity key (slotRow d b lo) (b.rowSlots d)) []
    else a1) s

/-- Adjacent blocks of one unit of a zone, placed in one go, form one run (R283). -/
def addRun (l : List (Nat × Piece)) (slot : Nat) (p : Piece) : List (Nat × Piece) :=
  match l.getLast?, p with
  | some (a, .zone z g f n q), .zone z' g' f' n' q' =>
    if z' = z && g' = g && f' = f + n && q' = q + n && slot = a + n && f / 256 = f' / 256 then l.dropLast ++ [(a, .zone z g f (n + n') q)]
    else l ++ [(slot, p)]
  | _, _ => l ++ [(slot, p)]

/-- Put blocks into consecutive slots of a superblock and queue their programs; WRITE_SEQ counts them (R275). Each item is a buffer and its
piece; an imported block has no buffer. -/
def State.fillSb (s : State) (d : BoardDesc) (key cls : Nat) (items : List (Option Nat × Piece)) : State :=
  match s.nvm.sbs.find key with
  | none => s
  | some b =>
    let first := b.slots
    let r := items.foldl (fun (a : List (Nat × Piece) × Nat) it => (addRun a.1 a.2 it.2, a.2 + it.2.blocks)) (b.pieces, first)
    let n := r.2 - first
    let b' : Superblock := { b with pieces := r.1, slots := r.2, open_ := b.open_ && decide (r.2 < b.capacity d),
                                    reads := [] }
    let s1 : State := { s with nvm := { s.nvm with sbs := s.nvm.sbs.put key b', writeSeq := s.nvm.writeSeq + n } }
    s1.queuePages d key b' cls first n (items.filterMap (fun it => it.1))

/-- The map line that holds a piece's entry: 8 zone entries or 12 conventional entries to a line (09, "Map walkers"). Zone lines are numbered
from 0, conventional ones from 2^24. -/
def Piece.line : Piece → Option Nat
  | .zone z _ f _ _ => some ((128 * z + f / 256) / 8)
  | .conv t lba _ => some (2 ^ 24 + convKey t lba / 12)
  | _ => none

/-- Changed map lines wait for the map journal (R285). -/
def State.journalLines (s : State) (ps : List Piece) : State :=
  { s with med := { s.med with
      jlines := ps.foldl (fun a p => match p.line with | some l => if a.contains l then a else a ++ [l] | none => a) s.med.jlines,
      journalAt := some (s.med.journalAt.getD s.now) } }

/-- Fragment records a run of blocks of a zone takes: one for each unit it touches (R283). -/
def fragsOf (first n : Nat) : Nat := if n = 0 then 0 else (first + n - 1) / 256 - first / 256 + 1

/-- Place the buffers of one command in a stream: the first of the groups given that can take them, consecutive slots of one superblock, or
two fragments when it would cross the superblock's end (R287). None: no superblock can take it now. -/
def State.placeFrom (s : State) (d : BoardDesc) (gs : List Nat) (stream cls : Nat) (items : List (Option Nat × Piece)) : Option State :=
  gs.findSome? (fun g =>
    match s.streamSb d g stream .slc with
    | none => none
    | some (k, s1) =>
      match s1.nvm.sbs.find k with
      | none => none
      | some b =>
        let room := b.capacity d - b.slots
        let done (a : State) : State :=
          (({ a with med := { a.med with
            nextGroup := a.med.nextGroup.put stream g, journal := a.med.journal + items.length } } : State).journalLines
            (items.map (fun it => it.2))).mediaBits s
        if items.length ≤ room then some (done (s1.fillSb d k cls items))
        else
          let s2 := s1.fillSb d k cls (items.take room)
          match s2.streamSb d g stream .slc with
          | some (k2, s3) => some (done (s3.fillSb d k2 cls (items.drop room)))
          | none => none)

/-- Place in a stream: the groups in round-robin order (R287). -/
def State.placeIn (s : State) (d : BoardDesc) (stream cls : Nat) (items : List (Option Nat × Piece)) : Option State :=
  s.placeFrom d (s.groupOrder d stream) stream cls items

/-- Whether n more placements keep R285: at most 65,536 of them, and no change 1 s old, before the next journal write. -/
def State.journalRoom (s : State) (n : Nat) : Bool :=
  decide (s.med.journal + n ≤ 65536) && (match s.med.journalAt with | some a => decide (s.now < a + 1000000) | none => true)

/-- A placement that R285 holds back sets JOURNAL_LAG (R305). -/
def State.journalLag (s : State) : State := s.raise pFTL 1

/-- Whether the fragment table has room for n more records (R288). -/
def State.fragRoom (s : State) (n : Nat) : Bool := decide (s.fragUsed + n ≤ 4194304)

/-! ## Block and die failure -/

/-- The condition of R292 judged: read-only state, its bit and its critical record. -/
def State.judgeReadOnly (s : State) : State :=
  if s.roDue && !s.nvm.readOnly && s.boot.nandOk then
    ({ s with nvm := { s.nvm with readOnly := true } } : State).raiseRec pMED 1 3 noTenant
      (leBytes 4 s.nGood ++ leBytes 4 s.roLimit)
  else s

/-- Retire a die block: it is never used again; S and the read-only condition are judged anew. A system-area block is replaced by the die's
least-worn free one (R291, R292, R297). -/
def State.retireBlock (s : State) (die blk : Nat) (cause : Byte) : State :=
  let key := die * 65536 + blk
  if s.nvm.bad.has key then s
  else
    let s1 : State := { s with nvm := { s.nvm with bad := s.nvm.bad.put key cause } }
    let s2 : State := if s.nvm.sysBlocks.contains key then
        match s.boot.desc with
        | some d => match s1.leastWorn d die with
          | some b => { s1 with nvm := { s1.nvm with sbs := s1.nvm.sbs.mapv (fun _ x => if x.use = .system then
              { x with blocks := x.blocks.map (fun y => if y = (die, blk) then (die, b) else y) } else x) } }
          | none => s1
        | none => s1
      else s1
    ((s2.raise pMED 3).judgeReadOnly).mediaBits s

/-- The die record's DETAIL from offset 0x04 (11 R363). -/
def State.xparDetail (s : State) (die g : Nat) : List Byte :=
  [BitVec.ofNat 8 die, BitVec.ofNat 8 g, BitVec.ofNat 8 (s.nvm.widths.toList.getD g 0),
   BitVec.ofNat 8 (s.nvm.groups.toList.getD g 0).1]

/-- A group whose superblocks no longer lie on failed dies has ended its rebuild (R302). -/
def State.settleGroups (s : State) : State :=
  { s with nvm := { s.nvm with groups := Vector.ofFn (fun g : Fin 16 =>
      if s.nvm.groups[g] = 1 && !s.nvm.sbs.any (fun p => p.2.group = g && p.2.blocks.any (fun x => s.nvm.failedDies.contains x.1))
      then 2 else s.nvm.groups[g]) } }

/-- A die is declared failed (R302, R303): the group rebuilds with one die fewer, or retires below 8 working dies; its
superblocks go on the refresh list. The critical record is XPAR's DIE_LOST (log entry 41). A die of no complete group has only its channel's
bit (R268, R304). -/
def State.failDie (s : State) (die : Nat) : State :=
  match s.boot.desc with
  | none => s
  | some d =>
    if s.nvm.failedDies.contains die then s
    else
    match d.groupOf die with
    | none => ({ s with nvm := { s.nvm with failedDies := s.nvm.failedDies ++ [die] } } : State).raise (pNFC (Fin.ofNat 8 (die / 32))) 2
    | some g =>
        let old := (s.nvm.groups.toList.getD g 0).1
        let s1 : State := { s with nvm := { s.nvm with failedDies := s.nvm.failedDies ++ [die] } }
        let left := (s1.workingDies d g).length
        let st : Fin 4 := if left < 8 then 3 else 1
        let s2 : State := { s1 with nvm := { s1.nvm with
          groups := s1.nvm.groups.setIfInBounds g st, widths := s1.nvm.widths.setIfInBounds g (left - 1),
          sbs := s1.nvm.sbs.mapv (fun _ b => if b.group.1 = g then { b with listed := true, open_ := false } else b) } }
        let s3 := (s2.raise (pNFC (Fin.ofNat 8 (die / 32))) 2).raiseRec pXPAR 1 3 noTenant (s2.xparDetail die g)
        let s4 := if old = 1 then s3.raise pXPAR 3 else s3
        ((if left < 8 then s4.raise pXPAR 2 else s4).judgeReadOnly.settleGroups).mediaBits s

/-- Runs of failures of a die; the 16th in a row declares it failed (R302). -/
def State.dieOutcome (s : State) (die : Nat) (pass : Bool) : State :=
  let x := (s.med.dies.find die).getD { fails := 0, passed := 0, lastAt := 0 }
  let n := if pass then 0 else x.fails + 1
  let s1 : State := { s with med := { s.med with dies := s.med.dies.put die { x with fails := n } } }
  if 16 ≤ n then s1.failDie die else s1

/-- Whether two failed dies lie in one superblock: its rows are uncorrectable (R303). -/
def State.doubleLoss (s : State) (b : Superblock) : Bool :=
  decide (2 ≤ (b.blocks.filter (fun x => s.nvm.failedDies.contains x.1)).length)

/-- Change a channel's counters. -/
def State.updNfc (s : State) (ch : Nat) (f : NfcS → NfcS) : State :=
  { s with med := { s.med with nfc := s.med.nfc.setIfInBounds ch (f (s.med.nfc.toList.getD ch NfcS.reset)) } }

/-- Remove an operation. -/
def State.dropOp (s : State) (k : Nat) : State :=
  match s.med.ops.find k with
  | some o => ({ s with med := { s.med with ops := s.med.ops.del k } } : State).chanTouch (o.die.1 / 32)
  | none => s

/-- The die blocks of a superblock that can be erased: none on a failed die, none retired (R297, R302). -/
def Nvm.erasable (n : Nvm) (b : Superblock) : List (Nat × Nat) :=
  b.blocks.filter (fun x => !n.failedDies.contains x.1 && !n.bad.has (x.1 * 65536 + x.2))

/-- Once the last erase of a superblock has ended its die blocks are free (R296, R302). -/
def State.finishErase (s : State) (key : Nat) : State :=
  if s.med.ops.any (fun o => match o.2.kind with | .erase j _ => j = key | _ => false) then s
  else ({ s with nvm := { s.nvm with sbs := s.nvm.sbs.del key } } : State).settleGroups

/-- Queue the erases of a superblock's die blocks in class 6 (R270). -/
def State.queueErases (s : State) (key : Nat) (b : Superblock) : State :=
  ((s.nvm.erasable b).foldl (fun a x => a.queueOp x.1 6 (.erase key x.2) []) s).finishErase key

/-- A superblock's data is gone or moved: its die blocks are erased (R298, R301). -/
def State.eraseSb (s : State) (key : Nat) : State :=
  match s.nvm.sbs.find key with
  | none => s
  | some b =>
    if b.use = .free then s
    else (s.updSb key (fun x => { x with use := .free, open_ := false, pieces := [], listed := false })).queueErases key b

/-- Whether an operation programs pages of a superblock. -/
def FlashOp.programs (o : FlashOp) (key : Nat) : Bool :=
  match o.kind with | .program k _ _ | .parity k _ _ => k = key | _ => false

/-- A superblock that holds nothing valid and is not filled any more is erased without copying (R298, R301). -/
def State.eraseIfEmpty (s : State) (key : Nat) : State :=
  match s.nvm.sbs.find key with
  | some b => if !b.open_ && b.use ≠ .free && s.nvm.validCount b = 0 &&
      !s.med.moves.any (fun m => m.dst = key) && !s.med.ops.any (fun o => o.2.programs key)
      then s.eraseSb key else s
  | none => s

/-- A WRITE that is not acknowledged holds the tag. -/
def State.writing (s : State) (tag : Nat) : Bool :=
  match s.hqm.cmds.find tag with | some c => c.desc.opc = 0x02 && c.phase = .waiting | none => false

/-- A buffer's program has passed: the block is on media, its buffer is freed and its token returned (01 R17, R22). The last
block of an append brings its tag-log entry with it (log entry 42). -/
def State.bufferOnMedia (s : State) (h : Nat) : State :=
  match s.bpm.bufs.find h with
  | none => s
  | some b =>
    let s1 := s.freeBuf h
    match b.piece with
    | .conv t lba q =>
      { s1 with nvm := { s1.nvm with conv := s1.nvm.conv.upd (convKey t lba) (fun c =>
          if c.seq = q then { c with onMedia := true, old := if s.writing b.tag then c.old else none, poison := c.poison || b.poison } else c) } }
    | .zone z g f _ _ =>
      match s1.zone z with
      | none => s1
      | some x =>
        match x.covering f with
        | none => s1
        | some e =>
          let left := s1.bpm.bufs.any (fun p => match p.2.piece with
            | .zone z' g' f' _ _ => z' = z && g' = g && e.offset ≤ f' && decide (f' < e.offset + blocksOf e.len)
            | _ => false)
          if x.gen ≠ g || left then s1 else s1.updEntry z e.index (fun y => { y with blocksOn := true, entryOn := true })
    | _ => s1

end Sys2Proof.Machine
end

