-- ==== Sys2Proof/Machine/Moves.lean ====
section
/-!
DEFINITION. Copies of media data between superblocks: the map-line directory (01 R25 to R28), the map updates of moves (01 R19, 09 R286), the
reads and programs of copies (09 R276, R293, R298, R301), and failed programs (09 R273).
-/
namespace Sys2Proof.Machine

/-! ## Map-line directory (01 R25 to R28) -/

def walkerIx : Walker → Nat
  | .host => 0 | .mirror => 1 | .eddy => 2 | .gc => 3

/-- A walker's grant; a cache holds 512 lines, so the line held longest is written back (09, "Map walkers"). -/
def State.grant (s : State) (line : Nat) (w : Walker) (q : List Walker) : State :=
  let i := walkerIx w
  let dir := s.med.dir.put line { owner := some w, wb := false, at_ := s.now, queue := q }
  let mine := dir.filter (fun p => p.2.owner = some w)
  let oldest := (mine.filter (fun p => p.1 ≠ line)).foldl (fun (a : Option (Nat × Nat)) p => match a with
    | none => some (p.1, p.2.at_)
    | some (k, t) => if p.2.at_ < t then some (p.1, p.2.at_) else some (k, t)) none
  let dir' := match oldest with
    | some (k, _) => if 512 < mine.length then dir.upd k (fun l => { l with owner := none, wb := true }) else dir
    | none => dir
  { s with med := { s.med with dir := dir', walkMiss := s.med.walkMiss.setIfInBounds i (satInc (s.med.walkMiss.toList.getD i 0)) } }

/-- One request for a line: granted when no cache holds it, else queued, never refused (R25, R26). The owner of a line that is
not in writeback already has it, and a walker has one request for a line at a time, so none waits behind more than three grants (R28). -/
def State.lineRequest (s : State) (line : Nat) (w : Walker) : State :=
  match s.med.dir.find line with
  | none => s.grant line w []
  | some l =>
    if l.owner = some w || l.queue.contains w then s
    else { s with med := { s.med with dir := s.med.dir.put line { l with queue := l.queue ++ [w] },
                                      dirWaits := satInc s.med.dirWaits } }

/-- Whether a walker owns the line of a piece's entry; what has no entry needs no line. -/
def State.ownsLine (s : State) (w : Walker) (p : Piece) : Bool :=
  match p.line with
  | none => true
  | some l => match s.med.dir.find l with | some x => x.owner = some w | none => false

/-! ## Moves (R286, 01 R19) -/

/-- One entry of a move: it is replaced if it still names the source, else the copy is discarded (R286). Padding names no entry. -/
def State.moveItem (s : State) (dst : Nat) (it : Nat × Nat × Piece) : State :=
  let take (a : State) : State := a.updSb dst (fun x => { x with pieces := x.pieces ++ [(it.2.1, it.2.2)] })
  match it.2.2, s.nvm.sbs.find it.1 with
  | .pad _, _ => take s
  | p, some b =>
    if b.pieces.any (fun q => q.2 = p) && s.nvm.validPiece p then
      take (s.updSb it.1 (fun x => { x with pieces := x.pieces.filter (fun q => q.2 ≠ p) }))
    else s
  | _, none => s

/-- The map update of a move: its walker asks for the lines of its entries, replaces the entries whose line it owns and keeps the others until
it does (01 R19, 09 R286). The changes wait for the journal. Sources left empty are erased once no entry is left. -/
def State.applyMove (s : State) (m : Move) : State :=
  let s0 := (m.items.filterMap (fun it => it.2.2.line)).eraseDups.foldl (fun (a : State) l => a.lineRequest l m.walker) s
  let now_ := m.items.filter (fun it => s0.ownsLine m.walker it.2.2)
  let wait := m.items.filter (fun it => !s0.ownsLine m.walker it.2.2)
  let s1 := (now_.foldl (fun (a : State) it => a.moveItem m.dst it) s0).journalLines (now_.map (fun it => it.2.2))
  let keep := s1.med.moves.filter (fun y => y ≠ m)
  if wait ≠ [] then { s1 with med := { s1.med with moves := keep ++ [{ m with items := wait }] } }
  else
    let s2 := s1.updSb m.dst (fun x => { x with unmapped := keep.any (fun y => y.dst = m.dst) })
    let s3 : State := { s2 with med := { s2.med with moves := keep }, pwr := { s2.pwr with idleSince := s2.now } }
    ((m.items.map (fun it => it.1)).eraseDups ++ [m.src]).foldl (fun a k => a.eraseIfEmpty k) s3

/-- Refresh and garbage collection update the map as soon as their copies are programmed. -/
def State.gcMoves (s : State) : State :=
  (s.med.moves.filter (fun m => m.walker = .gc && m.programmed)).foldl (fun a m => a.applyMove m) s

/-- Moves whose copies have all been programmed. -/
def State.movesProgrammed (s : State) (key : Nat) : State :=
  if s.med.ops.any (fun o => o.2.programs key) then s
  else
    ({ s with med := { s.med with
      moves := s.med.moves.map (fun m => if m.dst = key then { m with programmed := true } else m) } } : State).gcMoves

/-! ## Copies (R293, R298, R301) -/

/-- The unit whose blocks must stay together in one native superblock (R293). -/
def Piece.unit : Piece → Option (Nat × Nat)
  | .zone z _ f _ _ => some (z, f / 256)
  | _ => none

/-- Neighbours of one zone unit together. -/
def byUnit : List (Nat × Piece) → List (List (Nat × Piece))
  | [] => []
  | x :: r =>
    match byUnit r with
    | (y :: g) :: gs => if x.2.unit.isSome && x.2.unit = y.2.unit then (x :: y :: g) :: gs else [x] :: (y :: g) :: gs
    | gs => [x] :: gs

/-- A new destination superblock of a copy, with the padding that closes the one before it. -/
def State.copyNew (s : State) (d : BoardDesc) (g stream : Nat) (use : SbUse) (pads : List (Nat × Nat × Nat)) :
    Option ((Nat × List (Nat × Nat × Nat)) × State) :=
  if use = .slc && !s.mayOpenSlc stream then none
  else match s.formSb d g use stream with
  | some (k, s1) => some ((k, pads), s1)
  | none => none

/-- The superblock a unit's copy goes to in a group: the stream's open one when all of it fits, else a new one; the slots left in the old one
take padding codewords (R293). No new SLC superblock opens beyond S (R291). Answers the padding too: superblock, slot, length. -/
def State.copySb (s : State) (d : BoardDesc) (g stream : Nat) (use : SbUse) (n : Nat) :
    Option ((Nat × List (Nat × Nat × Nat)) × State) :=
  match s.openSb d g stream use with
  | some k =>
    match s.nvm.sbs.find k with
    | some b =>
      if b.slots + n ≤ b.capacity d then some ((k, []), s)
      else (s.updSb k (fun x => { x with open_ := false, slots := x.capacity d, unmapped := true })).copyNew d g stream use
        [(k, b.slots, b.capacity d - b.slots)]
    | none => none
  | none => s.copyNew d g stream use []

/-- Reserve destination slots for copies, unit by unit: destination, slot, source and piece of each that found a place, and the padding. -/
def State.reserveCopies (s : State) (d : BoardDesc) (g stream : Nat) (use : SbUse) (items : List (Nat × Piece)) :
    State × List (Nat × Nat × Nat × Piece) :=
  (byUnit items).foldl (fun (a : State × List (Nat × Nat × Nat × Piece)) unit =>
    let n := unit.foldl (fun t x => t + x.2.blocks) 0
    match a.1.copySb d g stream use n with
    | some ((k, pads), s1) =>
      match s1.nvm.sbs.find k with
      | some b =>
        let placed := unit.foldl (fun (l : List (Nat × Nat × Nat × Piece) × Nat) x => (l.1 ++ [(k, l.2, x.1, x.2)], l.2 + x.2.blocks)) ([], b.slots)
        (s1.updSb k (fun x => { x with slots := x.slots + n, open_ := x.open_ && decide (x.slots + n < x.capacity d), unmapped := true, reads := [] }),
          a.2 ++ pads.map (fun q => (q.1, q.2.1, q.1, Piece.pad q.2.2)) ++ placed.1)
      | none => a
    | none => a) (s, [])

/-- Start a move of pieces into a group's superblocks of a stream, with the programs of its copies queued. -/
def State.startMove (s : State) (d : BoardDesc) (g stream : Nat) (use : SbUse) (cls : Nat) (w : Walker) (src : Nat)
    (items : List (Nat × Piece)) : State :=
  let r := s.reserveCopies d g stream use items
  ((r.2.map (fun q => q.1)).eraseDups).foldl (fun (a : State) k =>
    let mine := r.2.filter (fun q => q.1 = k)
    match mine, a.nvm.sbs.find k with
    | q :: _, some b =>
      let n := mine.foldl (fun t x => t + x.2.2.2.blocks) 0
      let m : Move := { walker := w, src := src, dst := k, items := mine.map (fun x => (x.2.2.1, x.2.1, x.2.2.2)), programmed := false }
      ({ a with med := { a.med with moves := a.med.moves ++ [m] } } : State).queuePages d k b cls q.2.1 n []
    | _, _ => a) r.1

/-- Issue class of a walker's copies (R270). -/
def copyClass (w : Walker) : Nat := if w = .eddy then 5 else 6

/-- Queue the reads of n slots of a superblock (R270). -/
def State.queueCodewords (s : State) (d : BoardDesc) (key : Nat) (b : Superblock) (cls first n : Nat) (who : ReadFor) : State :=
  (List.range n).foldl (fun a k => a.queueOp (slotDie d key b (first + k)).1 cls (.read key (first + k) who) []) s

/-- Start a copy: every codeword of its items is read through the recovery ladder in the walker's class (R270, R276, R293). With nothing to
copy the source, left empty, is erased. -/
def State.startCopy (s : State) (d : BoardDesc) (g stream : Nat) (use : SbUse) (w : Walker) (src : Nat) (items : List (Nat × Nat × Piece)) : State :=
  if items = [] then s.eraseIfEmpty src
  else
    let c : Copy := { no := s.med.nextOp, walker := w, src := src, group := g, stream := stream, use := use, items := items }
    let s1 : State := { s with med := { s.med with copies := s.med.copies ++ [c], nextOp := s.med.nextOp + 1 } }
    items.foldl (fun a it => match a.nvm.sbs.find it.1 with
      | some b => a.queueCodewords d it.1 b (copyClass w) it.2.1 it.2.2.blocks (.copy c.no)
      | none => a) s1

/-- What of a copied piece its source still holds: codewords found uncorrectable have been cut out. -/
def Nvm.stillThere (n : Nvm) (it : Nat × Nat × Piece) : List (Nat × Piece) :=
  match n.sbs.find it.1 with
  | some b => (b.pieces.filter (fun q => it.2.1 ≤ q.1 && decide (q.1 + q.2.blocks ≤ it.2.1 + it.2.2.blocks) && n.validPiece q.2)).map
      (fun q => (it.1, q.2))
  | none => []

/-- Once the last codeword of a copy has been read, what can be copied is programmed; a source left empty is erased (R293, R298, R301). -/
def State.copySettled (s : State) (no : Nat) : State :=
  match s.med.copies.find? (fun c => c.no = no), s.boot.desc with
  | some c, some d =>
    if s.med.ops.any (fun o => match o.2.kind with | .read _ _ (.copy k) => k = no | _ => false) then s
    else
      let s1 : State := { s with med := { s.med with copies := s.med.copies.filter (fun x => x.no ≠ no) } }
      let items := c.items.flatMap s1.nvm.stillThere
      if items = [] then s1.eraseIfEmpty c.src
      else s1.startMove d c.group c.stream c.use (copyClass c.walker) c.walker c.src items
  | _, _ => s

/-! ## Failed programs (R273, R290, R295, R297) -/

/-- Rewrite the buffers of a failed program at the next free slots of their stream, outside the groups to avoid; without a place, or while the
debugger has halted core 1 (15, edge case), they wait. In Squall the programs issue in class 1 and are the one rewrite of R290. -/
def State.rewrite (s : State) (d : BoardDesc) (avoid : List Nat) (r : Rewrite) : State :=
  let placed := s.placeFrom d ((s.groupOrder d r.stream).filter (fun g => !avoid.contains g)) r.stream
    (if s.squall.running then 1 else r.cls) r.items
  let waits : State := { s with med := { s.med with rewrites := s.med.rewrites ++ [r] } }
  if s.dbg.halted.getLsbD 1 then waits
  else match placed with
  | some s1 =>
    { s1 with med := { s1.med with ops := s1.med.ops.mapv (fun _ o =>
        if s.squall.running && o.bufs.any (fun h => r.items.any (fun it => it.1 = some h)) then { o with again := true } else o) } }
  | none => waits

/-- Buffers that wait for a rewrite are tried again, oldest first (R273). -/
def State.retryRewrites (s : State) : State :=
  match s.boot.desc with
  | some d => s.med.rewrites.foldl (fun a r => a.rewrite d [] r) { s with med := { s.med with rewrites := [] } }
  | none => s

/-- Copies of a superblock where a program failed are rewritten at the next free slots; what is queued for the old places is dropped (R273). -/
def State.redoMoves (s : State) (d : BoardDesc) (key : Nat) (b : Superblock) : State :=
  let mine := s.med.moves.filter (fun m => m.dst = key)
  let s1 : State := { s with med := { s.med with
    moves := s.med.moves.filter (fun m => m.dst ≠ key),
    ops := s.med.ops.filter (fun o => !(o.2.programs key && !o.2.issued)) } }
  mine.foldl (fun (a : State) (m : Move) =>
    let items : List (Nat × Piece) := (m.items.filter (fun it => it.1 ≠ key)).map (fun it => (it.1, it.2.2))
    if items = [] then a else a.startMove d b.group.1 b.stream b.use (copyClass m.walker) m.walker m.src items) s1

/-- Program status failure (R273, R297): the superblock is closed and goes on the refresh list, the die block is retired, the buffers are rewritten.
A program that has been rewritten in Squall already is not rewritten again (R290). -/
def State.programFailed (s : State) (d : BoardDesc) (op : FlashOp) (key first n : Nat) (avoid : List Nat) : State :=
  match s.nvm.sbs.find key with
  | none => s
  | some b =>
    let blk := ((b.blocks.find? (fun x => x.1 = op.die.1)).map (fun x => x.2)).getD 0
    let items := op.bufs.filterMap (fun h => (s.bpm.bufs.find h).map (fun x => (some h, x.piece)))
    let s1 := s.updSb key (fun x => { x with pieces := cutSlots first n x.pieces, open_ := false, listed := true })
    let s2 := if s.nvm.failedDies.contains op.die.1 then s1 else s1.retireBlock op.die.1 blk 1
    if n = 0 then s2
    else if op.bufs = [] then s2.redoMoves d key b
    else if items = [] || (op.again && s.squall.running) then s2
    else s2.rewrite d avoid { stream := b.stream, cls := op.cls, items := items }

end Sys2Proof.Machine
end

