-- ==== Sys2Proof/Machine/Flash.lean ====
section
/-!
DEFINITION. The channel sequencers (09 R270 to R273), the recovery ladder (R276 to R279), the map journal (R285), the commands of the map-line
directory (01 R26 to R28), and the start-up check of the NAND targets (04 R95, 09 R265, R266).
-/
namespace Sys2Proof.Machine

/-- The start of every present die and slot: flash work goes on outside Lull. -/
def State.mediaOn (s : State) : Bool := s.awake && s.boot.nandOk && !s.pwr.lull

/-- The die pause after each program or erase, in µs (15, table "Vane levels"). -/
def diePause (level : Nat) : Nat := [0, 20, 50, 100, 200, 400, 800, 1600].getD level 0

def FlashOp.isRead (o : FlashOp) : Bool := match o.kind with | .read _ _ _ => true | _ => false
def FlashOp.isErase (o : FlashOp) : Bool := match o.kind with | .erase _ _ => true | _ => false

/-- A parity page waits for its row's data pages on the other dies (R269). -/
def State.parityWaits (s : State) (d : BoardDesc) (o : FlashOp) : Bool :=
  match o.kind with
  | .parity key row _ => s.med.ops.any (fun p => match p.2.kind, s.nvm.sbs.find key with
    | .program k first _, some b => k = key && slotRow d b first = row
    | _, _ => false)
  | _ => false

/-- Operations of a die that wait to issue, oldest first. -/
def State.waitingOn (s : State) (d : BoardDesc) (die : Fin 256) : List (Nat × FlashOp) :=
  s.med.ops.filter (fun p => p.2.die = die && !p.2.issued && !p.2.rebuildsPending && !p.2.softWait && !s.parityWaits d p.2)

/-- The lowest class, the oldest first within it. -/
def firstByClass (l : List (Nat × FlashOp)) : Option (Nat × FlashOp) :=
  (List.range 7).findSome? (fun c => l.find? (fun p => p.2.cls = c))

/-- The operation a die issues next (R270; the pauses of 15 R478). -/
def State.nextIssue (s : State) (d : BoardDesc) (die : Fin 256) : Option (Nat × FlashOp) :=
  let x := (s.med.dies.find die.1).getD { fails := 0, passed := 0, lastAt := 0 }
  let paused := decide (s.now < x.lastAt + diePause s.thr.level.1) && decide (x.lastAt ≠ 0)
  let l := (s.waitingOn d die).filter (fun p => (!s.squall.running || (p.2.cls = 1 && decide (4 ≤ s.squall.step))) && (p.2.cls = 1 || p.2.isRead || !paused))
  let low := l.filter (fun p => p.2.cls = 5 || p.2.cls = 6)
  if 7 ≤ x.passed then
    match low with
    | p :: r => some (r.foldl (fun a q => if q.1 < a.1 then q else a) p)
    | [] => firstByClass l
  else firstByClass l

/-- Operations in flight: codewords read as one operation hold one slot (01, "Operations in flight"; R264). -/
def State.inFlight (s : State) (p : FlashOp → Bool) : Nat :=
  (((s.med.ops.filter (fun o => o.2.issued && p o.2)).map (fun o => o.2.issue)).eraseDups).length

/-- The codewords that are read together: one row of a die across its planes, for the same class (R264). -/
def State.readTogether (s : State) (d : BoardDesc) (o p : FlashOp) : Bool :=
  match o.kind, p.kind with
  | .read k a _, .read k' a' _ =>
    k = k' && o.die = p.die && o.cls = p.cls && !p.issued && !p.rebuildsPending && !p.softWait &&
      (match s.nvm.sbs.find k with | some b => slotRow d b a = slotRow d b a' | none => false)
  | _, _ => false

/-- n reads of a die block of a superblock, which its read-disturb count takes (R298, R306). -/
def State.countReads (s : State) (key die n : Nat) : State :=
  (s.updSb key (fun b => { b with reads := b.reads.put die ((b.reads.find die).getD 0 + n) })).mediaBits s

/-- A channel's operations issued, NFC_OPS (R304). -/
def State.countOps (s : State) (die n : Nat) : State := s.updNfc (die / 32) (fun c => { c with ops := satAdd c.ops n })

/-- FLASH_ISSUE (R264, R270, R271): the die's next operation issues once a slot is free; a read takes with it the queued reads of its row. A read
that reaches a die busy with a class-6 erase suspends the erase. A read of a failed die goes straight to rung 4 (R302). -/
def execFlashIssue (die : Fin 256) (s : State) : Host.Outcome State Fault Refusal :=
  match s.boot.desc with
  | none => .next s
  | some d =>
  match s.nextIssue d die with
  | none => .next s
  | some (k, op) =>
    let ch := die.1 / 32
    -- A sequencer the debugger has halted leaves its queued work waiting (15 R491).
    if !s.mediaOn || !s.chanOn ch || s.dbg.seqHalted.getLsbD ch then .next s
    else if s.nvm.failedDies.contains die.1 then
      match op.kind with
      | .read _ _ _ =>
        .next { s with med := { s.med with ops := s.med.ops.upd k (fun o => { o with rebuildsPending := true }) } }
      | .program key first n => .next ((s.dropOp k).programFailed d op key first n (if s.squall.running then (d.groupOf die.1).toList else []))
      | .parity _ _ _ | .system _ => .next (s.dropOp k)
      | .erase key _ => .next ((s.dropOp k).finishErase key)
    else if 512 ≤ s.inFlight (fun _ => true) || 64 ≤ s.inFlight (fun o => o.die.1 / 32 = ch) ||
        2 ≤ s.inFlight (fun o => o.die = die) then .next s
    else
      let x := (s.med.dies.find die.1).getD { fails := 0, passed := 0, lastAt := 0 }
      let low := (s.waitingOn d die).any (fun p => p.2.cls = 5 || p.2.cls = 6)
      let passed := if op.cls = 5 || op.cls = 6 || !low then 0 else if 2 ≤ op.cls && op.cls ≤ 4 then x.passed + 1 else x.passed
      let s1 : State := { s with med := { s.med with
        ops := s.med.ops.mapv (fun j o => if j = k || s.readTogether d op o then { o with issued := true, issue := k } else o),
        dies := s.med.dies.put die.1 { x with passed := passed, lastAt := if op.isRead || op.cls = 1 then x.lastAt else s.now } } }
      let s2 := match op.kind with
        | .read key _ _ => (s1.countOps die.1 1).countReads key die.1 1
        | _ => s1.countOps die.1 1
      let canSuspend := !s.boot.noParams && Config.suspendSupport d.nandId
      let hit := s2.med.ops.find? (fun p => p.2.die = die && p.2.issued && p.2.isErase && p.2.cls = 6 && !p.2.suspended &&
        decide (p.2.suspends < 4))
      match op.cls, op.isRead, canSuspend, hit with
      | 3, true, true, some (j, _) =>
        .next (({ s2 with med := { s2.med with ops := s2.med.ops.upd j (fun o =>
          { o with suspended := true, suspends := o.suspends + 1 }) } } : State).updNfc ch (fun c => { c with suspends := satInc c.suspends }))
      | _, _, _, _ => .next s2

/-- ERASE_RESUME (R271): the suspended erase resumes once the die's class-3 queue is empty. -/
def execEraseResume (die : Fin 256) (s : State) : Host.Outcome State Fault Refusal :=
  if s.med.ops.any (fun p => p.2.die = die && p.2.cls = 3 && !p.2.softWait && !p.2.rebuildsPending) || s.squall.running then .next s
  else .next { s with med := { s.med with ops := s.med.ops.mapv (fun _ o =>
    if o.die = die && o.suspended then { o with suspended := false } else o) } }

/-- A program status failure of a channel (R304). -/
def State.progFail (s : State) (ch : Nat) : State :=
  (s.updNfc ch (fun c => { c with progFail := satInc c.progFail })).raise (pNFC (Fin.ofNat 8 ch)) 0

/-- The die's first die block of the system area. -/
def Nvm.sysBlockOf (n : Nvm) (die : Nat) : Option Nat := (n.sysBlocks.find? (fun x => x / 65536 = die)).map (fun x => x % 65536)

/-- FLASH_PROGRAM_DONE (R273): the program's buffers are freed on a pass, rewritten on a failure. A failed program of the system area is queued
again once its die block is replaced (R291). -/
def execFlashProgramDone (k : Nat) (pass : Bool) (s : State) : Host.Outcome State Fault Refusal :=
  match s.boot.desc, s.med.ops.find k with
  | some d, some op =>
    if !op.issued then .next s
    else
      let ch := op.die.1 / 32
      let s1 := (s.dropOp k).dieOutcome op.die.1 pass
      match op.kind with
      | .program key first n =>
        if pass then .next ((op.bufs.foldl State.bufferOnMedia s1).movesProgrammed key)
        else .next (((s1.progFail ch).programFailed d op key first n []).movesProgrammed key)
      | .parity key row _ =>
        if pass then .next ((s1.updSb key (fun b => { b with parity := max b.parity (row + 1) })).movesProgrammed key)
        else .next (((s1.progFail ch).programFailed d op key 0 0 []).movesProgrammed key)
      | .system w =>
        if pass then .next s1
        else
          let s2 := s1.progFail ch
          let s3 := match s2.nvm.sysBlockOf op.die.1 with | some b => s2.retireBlock op.die.1 b 1 | none => s2
          .next (s3.queueOp op.die.1 1 (.system w) [])
      | _ => .next s
  | _, _ => .next s

/-- FLASH_ERASE_DONE (R297): the erase count rises, or the die block is retired; the superblock's last erase frees its die
blocks, and buffers that wait for a place are tried again. -/
def execFlashEraseDone (k : Nat) (pass : Bool) (s : State) : Host.Outcome State Fault Refusal :=
  match s.med.ops.find k with
  | none => .next s
  | some op =>
    match op.kind with
    | .erase key blk =>
      if !op.issued || op.suspended then .next s
      else
        let ch := op.die.1 / 32
        let w := op.die.1 * 65536 + blk
        let s0 := s.dropOp k
        let s1 := ({ s0 with nvm := { s0.nvm with wear := s0.nvm.wear.put w (min ((s0.nvm.wear.find w).getD 0 + 1) 0xFFFFFF) } } : State).dieOutcome op.die.1 pass
        let s2 := if pass then s1 else
          ((s1.updNfc ch (fun c => { c with eraseFail := satInc c.eraseFail })).raise (pNFC (Fin.ofNat 8 ch)) 1).retireBlock op.die.1 blk 2
        .next ((s2.finishErase key).retryRewrites)
    | _ => .next s

/-! ## The recovery ladder (R276 to R279) -/

/-- A codeword settled at a rung, LDPC_RUNGn (R307). -/
def State.countRung (s : State) (r : Nat) : State :=
  { s with med := { s.med with rungs := s.med.rungs.setIfInBounds (r - 1) (satInc (s.med.rungs.toList.getD (r - 1) 0)) } }

/-- Put a superblock on the refresh list (R279). -/
def State.listSb (s : State) (key : Nat) : State := s.updSb key (fun b => { b with listed := true })

/-- The host command learns of a block uncorrectable at rung 5; the lowest block is kept (R278). -/
def State.failBlock (s : State) (tag : Tag) (block : Nat) : State :=
  s.updCmd tag (fun c => { c with mediaFail := some (match c.mediaFail with | some b => min b block | none => block) })

/-- A codeword failed at rung 5 during fold, refresh or garbage collection: its zone goes OFFLINE, or its conventional block is marked unreadable
(R278). The codeword is not copied. -/
def State.loseCodeword (s : State) (key slot : Nat) : State :=
  match s.nvm.sbs.find key with
  | none => s
  | some b =>
    let s1 := s.updSb key (fun x => { x with pieces := cutSlots slot 1 x.pieces })
    match b.pieceAt slot with
    | some (.zone z _ _ _ _) => s1.offlineZone z
    | some (.conv t lba q) =>
      { s1 with nvm := { s1.nvm with conv := s1.nvm.conv.upd (convKey t lba) (fun c => if c.seq = q then { c with unreadable := true } else c) } }
    | _ => s1

/-- Programmed superblocks not yet scrubbed in the start's pass. -/
def State.scrubLeft (s : State) : Bool :=
  s.nvm.sbs.any (fun p => p.2.use ≠ .free && decide (0 < p.2.slots) && decide (p.2.scrubbed < s.med.scrubAt))

/-- A superblock is scrubbed once every codeword of every row has been read (R300). -/
def State.scrubSettled (s : State) (key : Nat) : State :=
  match s.nvm.sbs.find key, s.boot.desc with
  | some b, some d =>
    if s.med.ops.any (fun o => match o.2.kind with | .read k _ .scrub => k = key | _ => false) ||
        decide (b.scrubRow * b.rowSlots d < b.slots) then s
    else
      let s1 := s.updSb key (fun x => { x with scrubbed := s.opSecs + 1, scrubRow := 0 })
      { s1 with med := { s1.med with scrubPass := s1.med.scrubPass && s1.scrubLeft } }
  | _, _ => s

/-- The read of a codeword ends at a rung: it is counted, its superblock listed from rung 3 on, and whoever asked for it goes on (R276 to R279,
R307). -/
def State.readSettled (s : State) (k : Nat) (op : FlashOp) (rung : Nat) : State :=
  match op.kind with
  | .read key slot who =>
    let s1 := (s.dropOp k).countRung rung
    let s2 := if 3 ≤ rung then s1.listSb key else s1
    let s3 := if rung = 5 then s2.raise pLDPC 0 else s2
    match who with
    | .host t block => if rung = 5 then s3.failBlock t block else s3
    | .copy no => (if rung = 5 then s3.loseCodeword key slot else s3).copySettled no
    | .scrub => s3.scrubSettled key
  | _ => s

/-- A codeword that the hard decoder gave up: after 15 re-reads rung 3 where a parameter set matched, else rung 4 (R266, R277). -/
def State.toSoft (s : State) (k : Nat) (op : FlashOp) : State :=
  if s.boot.noParams then
    { s with med := { s.med with ops := s.med.ops.upd k (fun o => { o with issued := false, rebuildsPending := true }) } }
  else
    let s0 := match op.kind with
      | .read key _ _ => (s.countOps op.die.1 15).countReads key op.die.1 15
      | _ => s
    let s1 : State := { s0 with med := { s0.med with ops := s0.med.ops.upd k (fun o => { o with issued := false, softWait := true }) } }
    if s1.med.softIn.length < 4 then { s1 with med := { s1.med with softIn := s1.med.softIn ++ [k] } }
    else { s1 with med := { s1.med with softQ := s1.med.softQ ++ [k] } }

/-- FLASH_READ_DONE (R276, R279): the read of a codeword ends and it is hard-decoded, rungs 1 and 2. The die has done its part (R302). -/
def execFlashReadDone (k : Nat) (r : HardResult) (s : State) : Host.Outcome State Fault Refusal :=
  match s.med.ops.find k with
  | none => .next s
  | some op =>
    match op.kind with
    | .read key _ _ =>
      if !op.issued then .next s
      else
        let s1 := s.dieOutcome op.die.1 true
        match r with
        | .ok => .next (s1.readSettled k op 1)
        | .reread n =>
          if s.boot.noParams then .next (s1.toSoft k op)
          else
            let s2 := (s1.countOps op.die.1 n.1).countReads key op.die.1 n.1
            .next ((if 4 < n.1 then s2.listSb key else s2).readSettled k op 2)
        | .failed => .next (s1.toSoft k op)
        | .crcFailed => .next ((s1.raise pLDPC 1).toSoft k op)
    | _ => .next s

/-- SOFT_DECODE (R276, R277): the oldest codeword in the soft decoder's 4 places ends at rung 3, after 2 or 6 extra reads, or goes to rung 4; the
next that waits takes its place. -/
def execSoftDecode (r : SoftResult) (s : State) : Host.Outcome State Fault Refusal :=
  match s.med.softIn with
  | [] => .next s
  | k :: rest =>
    let s1 : State := { s with med := { s.med with softIn := rest ++ s.med.softQ.take 1, softQ := s.med.softQ.drop 1 } }
    match s1.med.ops.find k with
    | none => .next s1
    | some op =>
      let n := if r = .twoBit then 2 else 6
      let s2 := match op.kind with
        | .read key _ _ => (s1.countOps op.die.1 n).countReads key op.die.1 n
        | _ => s1
      if r = .failed then
        .next { s2 with med := { s2.med with ops := s2.med.ops.upd k (fun o => { o with softWait := false, rebuildsPending := true }) } }
      else .next (s2.readSettled k op 3)

/-- The reads of a rebuild: the row's pages on the superblock's other dies (R276). -/
def State.rebuildReads (s : State) (key die : Nat) : State :=
  match s.nvm.sbs.find key with
  | some b => (b.blocks.filter (fun x => x.1 ≠ die && !s.nvm.failedDies.contains x.1)).foldl
      (fun a x => (a.countOps x.1 1).countReads key x.1 1) s
  | none => s

/-- STRIPE_PARITY_REBUILD (R276, R297): core 1 rebuilds a codeword, rung 4, or finds it uncorrectable, rung 5. A second
rebuild of a page of a die block retires it. -/
def execStripeParityRebuild (k : Nat) (ok : Bool) (s : State) : Host.Outcome State Fault Refusal :=
  match s.med.ops.find k with
  | none => .next s
  | some op =>
    match op.kind with
    | .read key slot _ =>
      if !op.rebuildsPending || s.dbg.halted.getLsbD 1 then .next s
      else
        let b := s.nvm.sbs.find key
        let lost := match b with | some x => s.doubleLoss x | none => false
        let s0 := s.rebuildReads key op.die.1
        let s1 := ({ s0 with med := { s0.med with rebuilds := satInc s0.med.rebuilds } } : State).raise pXPAR 0
        if !ok || lost then .next (s1.readSettled k op 5)
        else
          let blk := match b, s.boot.desc with
            | some x, some d => (slotDie d key x slot).2
            | _, _ => 0
          let w := op.die.1 * 65536 + blk
          let n := (s.nvm.rebuilt.find w).getD 0 + 1
          let s2 : State := { s1 with nvm := { s1.nvm with rebuilt := s1.nvm.rebuilt.put w n } }
          .next ((if n = 2 && !s.nvm.failedDies.contains op.die.1 then s2.retireBlock op.die.1 blk 3 else s2).readSettled k op 4)
    | _ => .next s

/-! ## The map journal -/

/-- MAP_JOURNAL_WRITE (R285): the changed map lines are programmed; a TRIM that waited for its record is done. -/
def execMapJournalWrite (s : State) : Host.Outcome State Fault Refusal :=
  if s.mediaOn && !s.squall.running && s.dev.level = .full && s.med.journalAt.isSome then
    .next { s with
      med := { s.med with journal := 0, journalAt := none, jlines := [], jtrims := [] },
      nvm := { s.nvm with trims := s.nvm.trims ++ s.med.jtrims },
      hqm := { s.hqm with cmds := s.hqm.cmds.mapv (fun _ c =>
        if c.desc.opc = 0x05 && c.phase = .waiting then { c with phase := .done 0 0 0 false } else c) } }
  else .next s

/-! ## Commands of the map-line directory -/

/-- MAP_LINE_REQUEST (R26): requests of one cycle enter in the fixed order of the walkers. -/
def execMapLineRequest (line : Nat) (ws : List Walker) (s : State) : Host.Outcome State Fault Refusal :=
  .next (([Walker.host, .mirror, .eddy, .gc].filter (fun w => ws.contains w)).foldl (fun a w => a.lineRequest line w) s)

/-- MAP_LINE_RECALL (R27): at the end of a 1 µs grant with requests queued the line passes into WB. An owner with no request queued keeps the
line (log entry 148). -/
def execMapLineRecall (line : Nat) (s : State) : Host.Outcome State Fault Refusal :=
  match s.med.dir.find line with
  | some l =>
    if l.owner.isSome && l.queue ≠ [] && decide (l.at_ + 1 ≤ s.now) then
      .next { s with med := { s.med with dir := s.med.dir.put line { l with owner := none, wb := true } } }
    else .next s
  | none => .next s

/-- WRITEBACK_DONE (R25, R28): the line goes to the first request in its queue, or is free; a copy that waited for it goes on (R286). -/
def execWritebackDone (line : Nat) (s : State) : Host.Outcome State Fault Refusal :=
  match s.med.dir.find line with
  | some l =>
    if l.wb then
      match l.queue with
      | w :: q => .next (s.grant line w q).gcMoves
      | [] => .next { s with med := { s.med with dir := s.med.dir.del line } }
    else .next s
  | none => .next s

/-! ## Step 10: the NAND targets (04 R95, 09 R265, R266) -/

/-- The routed targets, by channel and chip enable. -/
def BoardDesc.targets (d : BoardDesc) : List (Nat × Nat) :=
  (List.range 8).flatMap (fun ch => ((List.range 8).filter (fun ce => d.diePresent ch ce 0)).map (fun ce => (ch, ce)))

/-- Failures of step 10 in the order of rank: NAND_ABSENT before NAND_ID, the lowest detail first. -/
def nandFailures (d : BoardDesc) (rs : List TargetResult) : List (Byte × Nat) :=
  (rs.filter (fun r => !r.resetDone)).map (fun r => (0x11, 8 * r.ch.1 + r.ce.1)) ++
    (rs.filter (fun r => r.resetDone && r.id ≠ d.nandId)).map (fun r => (0x10, 8 * r.ch.1 + r.ce.1))

/-- One critical record for each failing target; the one UPD_RCV_CAUSE reports comes with the entry to RECOVERY. -/
def State.nandFailed (s : State) : List (Byte × Nat) → State
  | [] => s
  | (c, dt) :: rest =>
    let s1 := rest.foldl (fun a r =>
      a.record 0x2641 3 noTenant (leBytes 4 (rcvCauseWord r.1 (BitVec.ofNat 8 r.2) true).toNat)) s
    s1.recover c (BitVec.ofNat 8 dt)

/-- The first start of a blank unit: the die blocks with a factory mark are retired before any superblock is formed (R297), then the 8
lowest-numbered good die blocks of every die of the complete groups become the system area, in 8 superblocks of each group (R291, log entry
158). -/
def State.formSystem (s : State) (d : BoardDesc) (rs : List TargetResult) : State :=
  if s.nvm.sysBlocks ≠ [] then s
  else
    let s1 := rs.foldl (fun (a : State) r => r.marked.foldl (fun (b : State) m =>
      if m.1.1 < d.luns && decide (m.2 < d.blocksPerPlane) then b.retireBlock (dieNo r.ch.1 r.ce.1 m.1.1) m.2 4 else b) a) s
    (List.range d.groups).foldl (fun (a : State) g => (List.range 8).foldl (fun (b : State) _ => b.formSysSb d g) a) s1

/-- What a passed check leaves: DRAM training starts, with RESET_L and CKE low and, for DDR4, VREFCA enabled (step 11, 02 R30, R45); timing set, parameter sets chosen, dies without a read window failed, the new power-cycle count
stored, the I²C initiator enabled (04 R92 step 12, 13 R417). -/
def State.nandPassed (s : State) (d : BoardDesc) (rs : List TargetResult) : State :=
  let params := Config.paramSetFor d.nandId
  let s1 : State := { s with
    boot := { s.boot with nandOk := true, noParams := !params, counted := true },
    nvm := { s.nvm with cycles := s.cycleCount },
    med := { s.med with nfc := s.med.nfc.map (fun c => if c.enabled then { c with timing := true, params := params } else c) } }
  let s1 := s1.formSystem d rs
  let s2 := if params then s1 else s1.record 0x1141 2 noTenant (leBytes 8 ((rs.head?.map (fun r => r.id.toNat)).getD 0))
  let un := (List.range 256).filter d.unusedDies.contains
  let s3 := if un = [] then s2 else
    s2.record 0x1140 2 noTenant ([BitVec.ofNat 8 un.length] ++ un.map (fun x => BitVec.ofNat 8 x))
  let s4 := (rs.filter (fun r => !r.calibrated)).foldl (fun a r =>
    (List.range d.luns).foldl (fun b l => b.failDie (dieNo r.ch.1 r.ce.1 l)) (a.raise (pNFC r.ch) 3)) s3.judgeReadOnly
  let s5 : State := { s4 with
    dev := { s4.dev with
      pad := { s4.dev.pad with dram := true, i2ci := true },
      dramPins := { resetHigh := false, cke := false, vref := decide (d.dramType ≠ 0), at_ := s.now } },
    i2ci := { s4.i2ci with initNext := d.initFrom 0, initAt := s.now } }
  if d.scriptComplete then s5
  else
    ({ s5 with i2ci := { s5.i2ci with incomplete := true }, pwr := { s5.pwr with noProbe := true } } : State).record
      (bitCode pI2CI 3) 2 noTenant (leBytes 4 s5.hdr[pI2CI].intStatus.toNat)

/-- What a routed target answered; one without an answer has not finished its reset. -/
def targetAnswer (rs : List TargetResult) (x : Nat × Nat) : TargetResult :=
  (rs.find? (fun r => r.ch.1 = x.1 && r.ce.1 = x.2)).getD
    { ch := Fin.ofNat 8 x.1, ce := Fin.ofNat 8 x.2, resetDone := false, id := 0, calibrated := false, marked := [] }

/-- NAND_ID_CHECK (04 R95, step 10): every routed target has been reset and read before any result counts. -/
def execNandIdCheck (rs : List TargetResult) (s : State) : Host.Outcome State Fault Refusal :=
  match s.boot.desc with
  | none => .next s
  | some d =>
    if !s.active || s.boot.policy.isNone || s.boot.nandOk || s.dev.level ≠ .none then .next s
    else
      let s1 : State := { s with
        dev := { s.dev with pad := { s.dev.pad with nand := d.chPresent } },
        med := { s.med with nfc := Vector.ofFn (fun c : Fin 8 => { NfcS.reset with enabled := d.chPresent.getLsbD c.1 }) } }
      let as := d.targets.map (targetAnswer rs)
      match nandFailures d as with
      | [] => .next (s1.nandPassed d as)
      | l => .next (s1.nandFailed l)

end Sys2Proof.Machine
end

