-- ==== Sys2Proof/Machine/Copies.lean ====
section
/-!
DEFINITION. Eddy's folds (09 R293 to R295), refresh and scrub (R298 to R300) and garbage collection (R301): copies that move
data between superblocks and change the map only once programmed (01 R19, 09 R286).
-/
namespace Sys2Proof.Machine

/-- The conditions of R298. -/
def State.refreshDueFor (s : State) (d : BoardDesc) (b : Superblock) : Bool :=
  b.use ≠ .free && (b.listed || decide (s.ageLimit d b ≤ b.age) || decide (s.readLimit d b ≤ b.maxReads))

/-- Whether a superblock is already the source or the destination of a copy. -/
def State.inMove (s : State) (key : Nat) : Bool :=
  s.med.moves.any (fun m => m.dst = key || m.src = key || m.items.any (fun it => it.1 = key)) ||
    s.med.copies.any (fun c => c.src = key || c.items.any (fun it => it.1 = key))

/-- The valid pieces of a superblock, as copies from it. -/
def State.validItems (s : State) (key : Nat) (b : Superblock) : List (Nat × Nat × Piece) :=
  (b.pieces.filter (fun p => s.nvm.validPiece p.2)).map (fun p => (key, p.1, p.2))

/-- Map-moving work runs at FULL, outside Lull and Squall, once the map is loaded. -/
def State.copying (s : State) : Bool := s.active && s.dev.level = .full && !s.pwr.lull && !s.dbg.halted.getLsbD 1

/-! ## Eddy -/

/-- A unit of a zone, and whether it is complete: all its 256 blocks written (R294). -/
def unitComplete (x : Zone) (u : Nat) : Bool := decide (256 * u + 256 ≤ x.wp)

/-- What the rules of the table "Fold scheduling" let Eddy fold now, in their order: each is a test on a piece of an SLC
superblock and the superblock. -/
def State.foldRules (s : State) : List (Superblock → Piece → Bool) :=
  let closed : Superblock → Piece → Bool := fun _ p => match p with
    | .zone z _ _ _ _ => match s.zone z with | some x => x.st ≠ .open_ && x.st ≠ .empty | none => false
    | _ => false
  let openUnit : Superblock → Piece → Bool := fun _ p => match p with
    | .zone z _ f _ _ => match s.zone z with | some x => x.st = .open_ && unitComplete x (f / 256) | none => false
    | _ => false
  let conv : Superblock → Piece → Bool := fun _ p => match p with | .conv _ _ _ => true | _ => false
  let old : Superblock → Piece → Bool := fun b _ => decide (s.ageSlc ≤ b.age)
  (if s.foldUrgent then [closed, openUnit, conv] else []) ++
    (if s.med.lastHost + 100000 ≤ s.now && s.thr.level ≠ 7 then [closed, conv] else []) ++ [old]

/-- SLC superblocks, oldest first. -/
def State.slcByAge (s : State) : List (Nat × Superblock) :=
  let l := s.nvm.sbs.filter (fun p => p.2.use = .slc)
  l.foldl (fun a x => a.takeWhile (fun y => y.2.seq ≤ x.2.seq) ++ [x] ++ a.dropWhile (fun y => y.2.seq ≤ x.2.seq)) []

/-- Whether a piece may be copied now: named by the map, programmed, and in no copy. -/
def State.foldable (s : State) (p : Piece) : Bool :=
  s.nvm.validPiece p && s.pieceOnMedia p && !s.med.moves.any (fun m => m.items.any (fun it => it.2.2 = p)) &&
    !s.med.copies.any (fun c => c.items.any (fun it => it.2.2 = p))

/-- The first piece a rule selects, oldest superblock first. -/
def State.foldPick (s : State) : Option (Nat × Superblock × Piece) :=
  s.foldRules.findSome? (fun r => s.slcByAge.findSome? (fun p =>
    (p.2.pieces.find? (fun q => r p.2 q.2 && s.foldable q.2)).map (fun q => (p.1, p.2, q.2))))

def Piece.firstBlock : Piece → Nat
  | .zone _ _ f _ _ => f
  | .conv _ l _ => l
  | _ => 0

/-- In rising block order. -/
def insertPiece (x : Nat × Nat × Piece) : List (Nat × Nat × Piece) → List (Nat × Nat × Piece)
  | [] => [x]
  | y :: r => if x.2.2.firstBlock < y.2.2.firstBlock then x :: y :: r else y :: insertPiece x r

/-- The pieces folded with one picked: the whole unit of a zone, or up to 256 conventional blocks of the superblock. -/
def State.foldItems (s : State) (key : Nat) (b : Superblock) (p : Piece) : List (Nat × Nat × Piece) :=
  match p with
  | .zone z g f _ _ =>
    let all := s.nvm.sbs.flatMap (fun q => (q.2.pieces.filter (fun x => match x.2 with
      | .zone z' g' f' _ _ => z' = z && g' = g && f' / 256 = f / 256
      | _ => false)).map (fun x => (q.1, x.1, x.2)))
    (all.filter (fun x => s.foldable x.2.2)).foldl (fun a x => insertPiece x a) []
  | .conv _ _ _ =>
    ((b.pieces.filter (fun x => match x.2 with | .conv _ _ _ => s.foldable x.2 | _ => false)).map (fun x => (key, x.1, x.2))).take 256
  | _ => []

/-- EDDY_FOLD (R293, R294): Eddy starts the next fold core 1 schedules: its codewords are read in class 5. Its fold of the probe's channels waits
(03 R72). -/
def execEddyFold (s : State) : Host.Outcome State Fault Refusal :=
  match s.boot.desc with
  | none => .next s
  | some d =>
    if !s.copying || s.probeRunning then .next s
    else match s.foldPick with
      | none => .next s
      | some (key, b, p) => .next (s.startCopy d b.group.1 3 .native .eddy key (s.foldItems key b p))

/-- FOLD_MAP_UPDATE (01 R19, 09 R286): after a folded copy is programmed its map entry is updated and the SLC copy freed. -/
def execFoldMapUpdate (s : State) : Host.Outcome State Fault Refusal :=
  match s.med.moves.find? (fun m => m.walker = .eddy && m.programmed) with
  | some m => if s.copying then .next (s.applyMove m) else .next s
  | none => .next s

/-! ## Refresh, scrub, garbage collection -/

/-- A group that can take copies of another's data. -/
def State.copyGroup (s : State) (d : BoardDesc) (g : Nat) : Nat :=
  if (s.nvm.groups.toList.getD g 3).1 ≠ 3 then g
  else ((List.range d.groups).find? (fun k => decide ((s.nvm.groups.toList.getD k 3).1 ≠ 3))).getD g

/-- The use and the stream of a superblock's refresh: native data stays native, SLC data and the system area stay in SLC (R298). -/
def Superblock.refreshTo (b : Superblock) : SbUse × Nat :=
  match b.use with
  | .slc => (.slc, 4)
  | .system => (.system, 5)
  | _ => (.native, 4)

/-- REFRESH (R298): a superblock past a threshold or on the refresh list is copied, read in class 6, and its source erased. -/
def execRefresh (key : Nat) (s : State) : Host.Outcome State Fault Refusal :=
  match s.boot.desc, s.nvm.sbs.find key with
  | some d, some b =>
    if !s.copying || !s.refreshDueFor d b || s.inMove key then .next s
    else
      let s1 := ({ s with med := { s.med with refreshed := satInc s.med.refreshed } } : State).updSb key (fun x => { x with open_ := false })
      -- Blocks still in buffers are programmed by their own operations first; the superblock stays listed for them.
      let items := (s.validItems key b).filter (fun it => s.pieceOnMedia it.2.2)
      .next (s1.startCopy d (s.copyGroup d b.group.1) b.refreshTo.2 b.refreshTo.1 .gc key items)
  | _, _ => .next s

/-- SCRUB (R300, R279): the next row of a superblock that is due is read in class 6, every codeword of it and, once programmed, of its parity
page. -/
def execScrub (key : Nat) (s : State) : Host.Outcome State Fault Refusal :=
  match s.boot.desc, s.nvm.sbs.find key with
  | some d, some b =>
    let due := (s.med.scrubPass && decide (b.scrubbed < s.med.scrubAt)) ||
      decide (b.scrubbed + bits (s.reg pMED 0x128 30#32) 7 0 * 86400 ≤ s.opSecs)
    let first := b.scrubRow * b.rowSlots d
    if !s.copying || !due || b.use = .free || s.thr.level = 7 || decide (b.slots ≤ first) then .next s
    else
      let s1 := s.updSb key (fun x => { x with scrubRow := b.scrubRow + 1 })
      let s2 := s1.queueCodewords d key b 6 first (min (b.rowSlots d) (b.slots - first)) .scrub
      .next (if b.scrubRow < b.parity then s2.queueCodewords d key b 6 (b.capacity d + b.scrubRow * d.dieSlots) d.dieSlots .scrub else s2)
  | _, _ => .next s

/-- Free native superblocks of a group, erased or wholly invalid (R301). -/
def State.freeNative (s : State) (d : BoardDesc) (g : Nat) : Nat :=
  s.formable d g + s.nvm.sbs.countv (fun b => b.group.1 = g && (b.use = .free || (b.use = .native && !b.open_ && s.nvm.validCount b = 0)))

/-- The victim: the closed native superblock with the fewest valid codewords; refresh's own are left out (edge case). -/
def State.gcVictim (s : State) (d : BoardDesc) (g : Nat) : Option (Nat × Superblock) :=
  (s.nvm.sbs.filter (fun p => p.2.group.1 = g && p.2.use = .native && !p.2.open_ && !s.refreshDueFor d p.2 && !s.inMove p.1)).foldl
    (fun a p => match a with
      | none => some p
      | some q => if s.nvm.validCount p.2 < s.nvm.validCount q.2 then some p else some q) none

/-- GARBAGE_COLLECTION (R301): starts in a group below N_gc / groups + 2 free superblocks and goes on to 4 more. -/
def execGarbageCollection (group : Fin 16) (s : State) : Host.Outcome State Fault Refusal :=
  match s.boot.desc with
  | none => .next s
  | some d =>
    let free := s.freeNative d group.1
    let on := decide (free < 4) || (s.med.collecting.contains group.1 && decide (free < 8))
    let s1 : State := { s with med := { s.med with
      collecting := if on then (s.med.collecting.filter (fun x => x ≠ group.1)) ++ [group.1]
                    else s.med.collecting.filter (fun x => x ≠ group.1) } }
    if !s.copying || !decide (group.1 < d.groups) || (s.thr.level = 7) then .next s
    else if !on then .next s1
    else match s1.gcVictim d group.1 with
      | none => .next s1
      | some (key, b) => .next (s1.startCopy d group.1 4 .native .gc key (s1.validItems key b))

/-- Weighted operating time passes for every programmed superblock (R299). -/
def State.ageMedia (s : State) (ms : Nat) : State :=
  ({ s with nvm := { s.nvm with sbs := s.nvm.sbs.mapv (fun _ b => if 0 < b.slots then { b with age := b.age + ms } else b) } } : State).mediaBits s

/-! ## The map and the codewords on media (R275, R281 to R283, R290) -/

/-- The conventional map entry of a block: unmapped, unreadable or its place (R281). -/
def State.convMapEntry (s : State) (t : Tid) (lba : Nat) : Nat :=
  match s.nvm.conv.find (convKey t lba), s.boot.desc with
  | some c, some d =>
    if c.unreadable then 0xFFFFFFFFFE
    else match s.locate (hitConv t lba c.seq) with
      | some (key, slot) => match s.nvm.sbs.find key with | some b => convEntry d key b slot | none => 0xFFFFFFFFFF
      | none => 0xFFFFFFFFFF
  | _, _ => 0xFFFFFFFFFF

/-- The runs of one unit, with the indices of their records, in rising block order (R283). -/
def Nvm.unitRuns (n : Nvm) (z u : Nat) : List (Nat × Nat × Nat × Piece) :=
  (n.runs.zipIdx.filter (fun r => r.1.2.2.unit = some (z, u))).foldl (fun a r =>
    let x := (r.2, r.1)
    a.takeWhile (fun y => decide (y.2.2.2.firstBlock ≤ x.2.2.2.firstBlock)) ++ [x] ++
      a.dropWhile (fun y => decide (y.2.2.2.firstBlock ≤ x.2.2.2.firstBlock))) []

/-- The index that follows a record in its unit's chain; 0xFFFF_FFFF ends it (R283). -/
def Nvm.nextRun (n : Nvm) (z u i : Nat) : Nat :=
  match (n.unitRuns z u).dropWhile (fun r => r.1 ≠ i) with
  | _ :: r :: _ => r.1
  | _ => 0xFFFFFFFF

/-- The fragment record of an index (R283). -/
def State.fragmentRecord (s : State) (i : Nat) : Option (List Byte) :=
  match s.nvm.runs[i]? with
  | some (key, slot, .zone z _ f n _) =>
    (s.nvm.sbs.find key).map (fun b => fragmentBytes key b slot f n (s.nvm.nextRun z (f / 256) i))
  | _ => none

/-- The zone map entry of a unit: no data yet, folded, or in SLC with its first fragment record (R282). A unit whose first block is folded has the
folded form (log entry 159). -/
def State.zoneMapEntry (s : State) (z u : Nat) : Nat :=
  match s.zone z, s.boot.desc with
  | some x, some _ =>
    match s.locate (hitZone z x.gen (256 * u)) with
    | some (key, slot) =>
      match s.nvm.sbs.find key with
      | some b =>
        if b.use = .slc then 2 ^ 63 + 2 ^ 62 + ((s.nvm.unitRuns z u).head?.map (fun r => r.1)).getD 0xFFFFFFFF
        else foldedEntry key b slot
      | none => 0
    | none => 0
  | _, _ => 0

/-- The 4,096 data bytes a slot's piece holds, with its tenant, its POISON and GUST flags and its zone generation. -/
def State.slotData (s : State) (p : Piece) (k : Nat) : List Byte × Tid × Bool × Bool × Word :=
  match p with
  | .conv t lba _ => match s.nvm.conv.find (convKey t lba) with
    | some c => (c.cipher, t, c.poison, false, 0)
    | none => ([], t, false, false, 0)
  | .zone z g f _ _ =>
    match s.zone z with
    | some x => match x.covering (f + k) with
      | some e => (slice (padTo (4096 * blocksOf e.len) e.cipher) (4096 * (f + k - e.offset)) 4096, x.owner, false, e.gust, g)
      | none => ([], x.owner, false, false, g)
    | none => ([], 0, false, false, g)
  | _ => (zeroBytes 4096, 0, false, false, 0)

/-- The 32 bytes of metadata of a codeword (R275). -/
def State.codewordMeta (s : State) (p : Piece) (k : Nat) : List Byte :=
  let x := s.slotData p k
  metaBytes (p.address k) x.2.1 x.2.2.1 (match p with | .pad _ => true | _ => false) x.2.2.2.1 x.2.2.2.2
    (match p with | .conv _ _ q => q | .zone _ _ _ _ q => q + k | _ => 0) (Config.crc32c x.1)

/-- The codeword in a slot: 4,096 data bytes, 32 of metadata and 456 of LDPC parity (09, "Codewords and the recovery ladder"). -/
def State.codewordAt (s : State) (b : Superblock) (slot : Nat) : List Byte :=
  match b.pieces.find? (fun p => p.1 ≤ slot && decide (slot < p.1 + p.2.blocks)) with
  | some (a, p) =>
    let body := padTo 4096 (s.slotData p (slot - a)).1 ++ s.codewordMeta p (slot - a)
    body ++ padTo 456 (Config.ldpcParity body)
  | none => zeroBytes 4584

/-- The XOR of two codewords. -/
def xorBytes (a b : List Byte) : List Byte := (a.zip b).map (fun x => x.1 ^^^ x.2)

/-- Codeword i of the parity page of a row: the XOR of the codewords in its place in the row's data pages (R276, R290). -/
def State.parityWord (s : State) (d : BoardDesc) (b : Superblock) (row i : Nat) : List Byte :=
  (List.range b.width).foldl (fun a c => xorBytes a (s.codewordAt b (row * b.rowSlots d + c * d.dieSlots + i))) (zeroBytes 4584)

end Sys2Proof.Machine
end

