-- ==== Sys2Proof/Machine/Queue.lean ====
section
/-!
DEFINITION. Queue pairs, doorbells, descriptor fetch with the general checks of a command, host reads and the bytes a command
sends (07 R182 to R196; 05 R117 to R120; 06 R159 to R166).
-/
namespace Sys2Proof.Machine

/-! ## Doorbells (07 R185, R186, R188; 05 R117, R118) -/

/-- Change a queue pair. -/
def State.updQp (s : State) (t : Tid) (q : Qid) (f : Qp → Qp) : State :=
  s.updTnt t (fun x => { x with qps := x.qps.set q (f x.qps[q]) })

def Tenant.qp (x : Tenant) (q : Qid) : Qp := x.qps[q]

/-- Host traffic ends Lull and the idle time (03 R70, R71). -/
def State.hostTouch (s : State) : State :=
  { s with pwr := { s.pwr with lull := false, idleSince := s.now }, pcie := s.pcie.traffic s.now }

/-- A doorbell error (R188). -/
def State.doorbellErr (s : State) (t : Tid) (cause : Byte) (addr : Word) : State :=
  ((s.countErr (pTNT t) cause addr).raiseTnt t 14).raise pHQM 1

/-- Whether requests to a function's BARs are answered: Memory Space Enable, no reset in progress, Squall not running (06 R173,
R177). -/
def State.barOpen (s : State) (fn : Fn) : Bool :=
  s.awake && s.pcie.fns[fn].mse && !s.pcie.fns[fn].blocked && !s.pcie.squallUr

/-- Where a doorbell write goes: the tenant and the address to report; or a page and a cause it is counted with; or nowhere. -/
inductive DbRoute where
  | tenant (t : Tid) (addr : Word)
  | error (p : Page) (cause : Byte) (addr : Word)
  | nowhere
deriving DecidableEq, Repr

def State.routeDoorbell (s : State) (v : DbView) (q : Qid) (head : Bool) (be : BitVec 4) : DbRoute :=
  let k := 8 * q.1 + (if head then 4 else 0)
  if be = 0#4 || s.dev.level = .none then .nowhere
  else match v with
    | .pf0 t =>
      let addr := errAddr (0x40 * t.1 + k) 1 0
      if !s.barOpen 0 then .nowhere
      else if s.dev.romRecovery || s.tnt[t].binding ≠ 2 then .error pDEV eRESERVED addr
      else if be ≠ 15#4 then .error pDEV ePARTIAL addr
      else .tenant t addr
    | .vf n =>
      let addr := errAddr (0x1000 + k) 2 n.1
      if n = 0 || !s.barOpen n then .nowhere
      else match s.vfTenant n with
        | none => .error pDEV eRESERVED addr
        | some t => if be ≠ 15#4 then .error (pTNT t) ePARTIAL addr else .tenant t addr

/-- Why a doorbell is refused (R185, R186, R188; 07 R221). -/
def State.doorbellFault (s : State) (t : Tid) (q : Qid) (head : Bool) (v : Nat) : Option Byte :=
  let x := s.tnt[t].qp q
  if !s.tnt[t].resetDone then some 0x84
  else if !x.enabled then some 0x80
  else if x.depth ≤ v then some 0x81
  else if head then
    (if (x.cqTail + x.depth - x.cqHead) % x.depth < (v + x.depth - x.cqHead) % x.depth then some 0x82 else none)
  else if (x.sqHead + x.depth - 1 - x.sqTail) % x.depth < (v + x.depth - x.sqTail) % x.depth then some 0x83 else none

/-- A full doorbell write. A refused one is counted with its own cause alone; else a 1 in the reserved bits [31:12] is counted READ_ONLY in
the page that counts its range's errors, and the index acts (05 R118, 00 R10; log entry 138). -/
def State.doorbell (s : State) (v : DbView) (t : Tid) (q : Qid) (head : Bool) (val addr : Word) : State :=
  let k := bits val 11 0
  match s.doorbellFault t q head k with
  | some c => if c = 0x84 then s.countErr (pTNT t) c addr else s.doorbellErr t c addr
  | none =>
    let p : Page := match v with | .pf0 _ => pDEV | .vf _ => pTNT t
    let s1 := if bits val 31 12 = 0 then s else s.countErr p eREADONLY addr
    s1.updQp t q (fun y => if head then { y with cqHead := k } else { y with sqTail := k })

/-- SUBMISSION_TAIL_DOORBELL. Bits [31:12] are reserved; [11:0] carry the index (05 R118). -/
def execSubmissionTailDoorbell (v : DbView) (q : Qid) (be : BitVec 4) (val : Word) (s : State) : Host.Outcome State Fault Refusal :=
  match s.routeDoorbell v q false be with
  | .nowhere => .next s
  | .error p c a => .next (s.countErr p c a)
  | .tenant t a => .next (s.hostTouch.doorbell v t q false val a)

/-- COMPLETION_HEAD_DOORBELL. -/
def execCompletionHeadDoorbell (v : DbView) (q : Qid) (be : BitVec 4) (val : Word) (s : State) : Host.Outcome State Fault Refusal :=
  match s.routeDoorbell v q true be with
  | .nowhere => .next s
  | .error p c a => .next (s.countErr p c a)
  | .tenant t a => .next (s.hostTouch.doorbell v t q true val a)

/-! ## Descriptors (R190, R191) -/

/-- The fields of a descriptor. -/
def parseDescriptor (b : List Byte) : Desc :=
  { opc := b.getD 0 0, flags := b.getD 1 0, cid := BitVec.ofNat 16 (fieldLe b 2 2), zone := BitVec.ofNat 32 (fieldLe b 4 4),
    lba := BitVec.ofNat 64 (fieldLe b 8 8), len := BitVec.ofNat 32 (fieldLe b 0x10 4), hlen := BitVec.ofNat 16 (fieldLe b 0x14 2),
    rsv16 := BitVec.ofNat 16 (fieldLe b 0x16 2), daddr := BitVec.ofNat 64 (fieldLe b 0x18 8),
    haddr := BitVec.ofNat 64 (fieldLe b 0x20 8), aux0 := BitVec.ofNat 64 (fieldLe b 0x28 8),
    aux1 := BitVec.ofNat 64 (fieldLe b 0x30 8), rsv38 := BitVec.ofNat 64 (fieldLe b 0x38 8) }

def Desc.roHint (d : Desc) : Bool := d.flags.getLsbD 0
def Desc.dlist (d : Desc) : Bool := d.flags.getLsbD 1
def Desc.fua (d : Desc) : Bool := d.flags.getLsbD 2
def Desc.wpCheck (d : Desc) : Bool := d.flags.getLsbD 3
def Desc.authReturn (d : Desc) : Bool := d.flags.getLsbD 4
def Desc.withTags (d : Desc) : Bool := d.flags.getLsbD 5

/-- Bits [hi:lo] of a 64-bit field. -/
def dbits (w : DWord) (hi lo : Nat) : Nat := (w.toNat / 2 ^ lo) % 2 ^ (hi + 1 - lo)

/-- Selector of FEATURE, log, kind, mode, target or operation: AUX0 [7:0]. -/
def Desc.sel (d : Desc) : Nat := dbits d.aux0 7 0
def Desc.setBit (d : Desc) : Bool := d.aux0.getLsbD 8

/-- What an opcode uses (R190, R194): FLAGS bits, then ZONE, LBA, LEN, HLEN, DADDR, HADDR, AUX0, AUX1. -/
structure Uses where
  flags : Byte
  zone  : Bool := false
  lba   : Bool := false
  len   : Bool := false
  hlen  : Bool := false
  daddr : Bool := false
  haddr : Bool := false
  aux0  : Bool := false
  aux1  : Bool := false

/-- The fields of each opcode, with the cases of R190. AUTH_RETURN and WITH_TAGS with AUX0 are taken on a conventional READ or VERIFY too, and
RO_HINT on READ, WRITE and APPEND alone (log entry 147). -/
def uses (d : Desc) : Option Uses :=
  match d.opc.toNat with
  | 0x01 => some { flags := 0x33, zone := true, lba := true, len := true, daddr := true, aux0 := d.withTags }
  | 0x02 => some { flags := 0x07, lba := true, len := true, daddr := true }
  | 0x03 => some { flags := 0x0F, zone := true, lba := d.wpCheck, len := true, hlen := true, daddr := true, haddr := d.hlen ≠ 0 }
  | 0x04 => some { flags := 0 }
  | 0x05 => some { flags := 0, lba := true, aux0 := true }
  | 0x06 | 0x07 | 0x08 | 0x09 | 0x0A => some { flags := 0, zone := true }
  | 0x0B => some { flags := 0x02, len := true, daddr := true, aux0 := true, aux1 := true }
  | 0x0C => some { flags := 0x30, zone := true, lba := true, len := true, aux0 := d.withTags }
  | 0x0D => some { flags := 0, zone := true, aux0 := true }
  | 0x40 => some { flags := 0x02, len := true, daddr := true }
  | 0x41 => some { flags := 0, daddr := true, haddr := true, aux0 := true }
  | 0x42 => some { flags := 0, aux0 := true }
  | 0x43 => some { flags := 0x02, len := true, daddr := true, aux0 := true }
  | 0x44 => some { flags := 0, aux0 := true }
  | 0x45 =>
    let item := decide (d.sel = 2)
    some { flags := if item then 0x02 else 0, len := item, daddr := item, aux0 := true, aux1 := d.setBit || d.sel = 1 }
  | 0x46 => some { flags := 0x02, len := true, daddr := true, aux0 := true, aux1 := true }
  | 0x47 => some { flags := 0x02, len := true, daddr := true, haddr := true, aux0 := true, aux1 := d.sel = 3 }
  | 0x48 => some { flags := if d.sel = 1 then 0 else 0x02, len := d.sel ≠ 1, daddr := d.sel ≠ 1, aux0 := true, aux1 := d.sel = 1 }
  | 0x49 => some { flags := 0x02, len := true, daddr := true, aux0 := true, aux1 := true }
  | 0x4A => some { flags := 0, aux0 := true }
  | 0x4B => some { flags := 0, daddr := true, aux0 := true }
  | 0x4C => some { flags := 0x02, zone := d.sel ≠ 3, len := true, daddr := true, aux0 := true, aux1 := d.sel ≠ 1 }
  | 0x4D => some { flags := 0, zone := true, daddr := true }
  | _ => none

/-- AUX0 bits each opcode uses. -/
def aux0Mask (d : Desc) : Nat :=
  match d.opc.toNat with
  | 0x05 => 0xFFFFFFFF
  | 0x0B => 0xFFFFF
  | 0x0D => 0x3FFFFF
  | 0x41 => 0x7F1FFF0007
  | 0x42 => 0x107
  | 0x43 => 1
  | 0x44 => 3
  | 0x45 => 0x1FF
  | 0x46 => 0xFF
  | 0x47 => if d.sel = 1 then 0xFFFF else 0xFF
  | 0x48 => 0xFF
  | 0x49 | 0x4A => 3
  | 0x4B => 0xFF
  | 0x4C => if d.sel = 3 then 0xFFFF else 0xFF
  | _ => 2 ^ 64 - 1

/-- AUX1 bits each opcode uses. -/
def aux1Mask (d : Desc) : Nat :=
  match d.opc.toNat with
  | 0x0B => 0x3F
  | 0x45 => if d.sel = 1 then (if d.setBit then 0xFFFF else 0xFF00) else 0xFF
  | _ => 2 ^ 64 - 1

/-- No reserved field is set (R190; 00 R5; 05 R128). -/
def State.fieldsOk (s : State) (t : Tid) (d : Desc) : Bool :=
  match uses d with
  | none => false
  | some u =>
    let none0 {n : Nat} (used : Bool) (v : BitVec n) : Bool := used || decide (v = 0#n)
    let feat (v : Bool) (b : Nat) : Bool := !v || s.hasFeat t b
    decide (d.flags &&& ~~~ u.flags = 0#8) && decide (d.rsv16 = 0#16) && decide (d.rsv38 = 0#64) &&
      decide (bits d.zone 31 20 = 0) && none0 u.zone d.zone && none0 u.lba d.lba && none0 u.len d.len &&
      none0 u.hlen d.hlen && none0 u.daddr d.daddr && none0 u.haddr d.haddr && none0 u.aux0 d.aux0 && none0 u.aux1 d.aux1 &&
      decide (d.aux0.toNat &&& aux0Mask d = d.aux0.toNat || u.aux0 = false || d.withTags) &&
      decide (d.aux1.toNat &&& aux1Mask d = d.aux1.toNat || u.aux1 = false) &&
      feat d.roHint 9 && feat d.withTags 7 && feat (decide (d.hlen ≠ 0#16)) 10 &&
      feat (decide (d.opc = 0x41 ∧ dbits d.aux0 38 32 ≠ 0)) 16

/-- The features that open an opcode: any one of them (05 R127, R128). -/
def featuresOf (d : Desc) : List Nat :=
  match d.opc.toNat with
  | 0x01 | 0x04 | 0x0C => [1, 0]
  | 0x02 | 0x05 => [1]
  | 0x03 | 0x06 | 0x07 | 0x08 | 0x09 | 0x0A | 0x0B => [0]
  | 0x0D => [18]
  | 0x46 => if d.sel = 1 then [14] else []
  | 0x47 => [6]
  | 0x48 => [19]
  | 0x4B | 0x4D => [11]
  | 0x4C => [17]
  | _ => []

def Desc.isIo (d : Desc) : Bool := decide (d.opc.toNat < 0x40)

/-- READ and VERIFY belong to the area they name: CONV, or ZONED. -/
def featureOk (s : State) (t : Tid) (d : Desc) : Bool :=
  let l := if d.opc = 0x01 || d.opc = 0x0C then (if bits d.zone 19 0 = 0xFFFFF then [1] else [0]) else featuresOf d
  l = [] || l.any (fun b => s.hasFeat t b)

/-- Lengths the opcodes fix (R194, R198, R246, R375, R385, R390; log entry 50). -/
def lenOk (d : Desc) : Bool :=
  let n := d.len.toNat
  match d.opc.toNat with
  | 0x01 | 0x0C | 0x02 => 0 < n && n ≤ 1048576 && n % 4096 = 0
  | 0x03 => 1 ≤ n && n ≤ 1048576 && d.hlen.toNat ≤ 256
  | 0x0B => 16 ≤ n
  | 0x40 => n = 4096
  | 0x43 => n = 176 || n = 144
  | 0x45 => d.sel ≠ 2 || n = 40
  | 0x48 => if d.sel = 0 then n = 16 else if d.sel = 2 then n = 192 else true
  | 0x49 => 256 ≤ n && n ≤ 1048576
  | _ => true

/-- Whether the sub-operation an opcode names exists: selector, log, kind, mode, operation (R520, 11 R369, 12 R375, R385, R212,
08 R258). Meter kinds are judged by R385 instead. -/
def selOk (t : Tid) (d : Desc) : Bool :=
  match d.opc.toNat with
  | 0x45 => d.sel = 1 && (t = 0 || (!d.setBit && d.aux1 = 0)) || d.sel = 2 && (t = 0 || !d.setBit) || (d.sel = 3 && !d.setBit)
  | 0x46 => d.sel = 1 || d.sel = 2
  | 0x48 => d.sel ≤ 2
  | 0x4B => d.sel ≤ 4
  | 0x4C => 1 ≤ d.sel && d.sel ≤ 3
  | 0x49 | 0x4A => d.sel ≤ 2
  | 0x44 => 1 ≤ d.sel
  | _ => true

/-- What each service level permits (04 R97, 01 R15, R98). -/
def State.levelPermits (s : State) (t : Tid) (q : Qid) (d : Desc) : Bool :=
  match s.dev.level with
  | .none => false
  | .full => true
  | .gust =>
    if d.opc = 0x03 then s.tnt[t].gustTenant && s.hasFeat t 2
    else q = 0 && !d.isIo && !([0x47, 0x49, 0x4A, 0x4B, 0x4C, 0x4D].contains d.opc.toNat)
  | .recovery => !s.dev.romRecovery && t = 0 && q = 0 && [0x40, 0x41, 0x42, 0x45, 0x46, 0x49, 0x4A].contains d.opc.toNat

/-- The general checks of a command, in the order opcode, level, fields, length (R193 to R195; 05 R128; log entry 49): the status
and result code of a command that fails them. -/
def State.generalCheck (s : State) (t : Tid) (q : Qid) (d : Desc) : Option (Byte × Byte) :=
  let n := d.opc.toNat
  if (uses d).isNone || d.isIo ≠ decide (q ≠ 0) || (t ≠ 0 && 0x48 ≤ n && n ≤ 0x4D) || !featureOk s t d then some (0x01, 0)
  else if !s.levelPermits t q d then some (0x0C, 0)
  else if !selOk t d || !s.fieldsOk t d then some (0x02, 0x01)
  else if !lenOk d then some (0x02, 0x02)
  else none

/-- A command that has not ended stands in RECOVERY, which does not permit it (04 R97, R108). -/
def State.levelEnds (s : State) (c : Cmd) : Bool :=
  s.dev.level = .recovery && !s.levelPermits c.tenant c.qp c.desc && (match c.phase with | .done _ _ _ _ => false | _ => true)

/-! ## Host data -/

/-- Bytes a command reads from DADDR. -/
def Desc.readLen (d : Desc) : Nat :=
  match d.opc.toNat with
  | 0x02 | 0x03 | 0x43 | 0x49 => d.len.toNat
  | 0x45 => if d.sel = 2 && d.setBit then d.len.toNat else 0
  | 0x48 => if d.sel = 2 then d.len.toNat else 0
  | 0x4B => 128
  | 0x4D => 64
  | _ => 0

/-- Bytes a command reads from HADDR. -/
def Desc.hdrLen (d : Desc) : Nat :=
  match d.opc.toNat with
  | 0x03 => d.hlen.toNat
  | 0x47 => 16
  | _ => 0

/-- A data list as far as it has been read: complete, wanting a segment, or breaking R191. -/
inductive DList where
  | ok (es : List (Nat × Nat))
  | more (addr : Nat)
  | bad
deriving DecidableEq, Repr

/-- The entries of one segment, from what the segments before it gave (R191). -/
def scanSegment (len : Nat) : Nat → List Byte → List (Nat × Nat) → Nat → DList
  | 0, _, _, _ => .bad
  | f + 1, b, es, sum =>
    if b.length < 16 then .bad
    else
      let a := fieldLe b 0 8
      let n := fieldLe b 8 4
      let fl := fieldLe b 12 4
      if fl = 1 then (if n = 0 then .more a else .bad)
      else if fl ≠ 0 || n = 0 || 1048576 < n || len < sum + n || es.length = 512 then .bad
      else if sum + n = len then .ok (es ++ [(a, n)])
      else scanSegment len f (b.drop 16) (es ++ [(a, n)]) (sum + n)

/-- Data entries of a segment before its end or its chain entry. -/
def segmentEntries (len : Nat) : Nat → List Byte → List (Nat × Nat) → Nat → List (Nat × Nat) × Nat
  | 0, _, es, sum => (es, sum)
  | f + 1, b, es, sum =>
    if b.length < 16 || fieldLe b 12 4 ≠ 0 then (es, sum)
    else segmentEntries len f (b.drop 16) (es ++ [(fieldLe b 0 8, fieldLe b 8 4)]) (sum + fieldLe b 8 4)

/-- Bytes of a segment at an address: to the end of its 4 KiB page, at most 256 entries (R191). -/
def segmentLen (addr : Nat) : Nat := min 4096 ((4096 - addr % 4096) / 16 * 16)

/-- The list by its segments in order. -/
def scanList (len : Nat) : List (List Byte) → Nat → List (Nat × Nat) → Nat → DList
  | [], addr, _, _ => .more addr
  | b :: r, _, es, sum =>
    match scanSegment len 256 b es sum with
    | .more a => let x := segmentEntries len 256 b es sum; scanList len r a x.1 x.2
    | x => x

/-- The data list of a command. -/
def Cmd.list (c : Cmd) : DList :=
  if c.desc.dlist then scanList c.desc.len.toNat (c.dlist.map (fun p => p.2)) c.desc.daddr.toNat [] 0
  else .ok [(c.desc.daddr.toNat, 2 ^ 64)]

/-- Host addresses of a command's data: one buffer, or the entries of its list. -/
def Cmd.targets (c : Cmd) : List (Nat × Nat) := match c.list with | .ok es => es | _ => []

/-- Cut bytes at an offset of the data over the host buffers. -/
def scatter : List (Nat × Nat) → Nat → List Byte → List (Nat × List Byte)
  | [], _, _ => []
  | (a, n) :: r, off, b =>
    if b = [] then []
    else if n ≤ off then scatter r (off - n) b
    else (a + off, b.take (n - off)) :: scatter r 0 (b.drop (n - off))

/-- The Relaxed Ordering attribute of a command's data (06 R166). -/
def State.roFor (s : State) (c : Cmd) : Bool :=
  s.hasFeat c.tenant 9 && c.desc.roHint && s.pcie.fns[s.tenantFn c.tenant].ero

/-- Requests go out on behalf of a function: Bus Master Enable is 1 and Squall is not running (06 R175, R177). -/
def State.canDma (s : State) (fn : Fn) : Bool := s.pcie.fns[fn].bme && !s.pcie.fns[fn].d3hot && !s.pcie.squallUr && !s.pcie.fns[fn].blocked

/-- Send bytes to host memory at an offset of the command's data. Nothing of an old epoch goes out (07 R219). -/
def State.sendData (s : State) (c : Cmd) (off : Nat) (b : List Byte) (ep : Bool) : State :=
  let fn := s.tenantFn c.tenant
  if c.epoch ≠ s.tnt[c.tenant].epoch || !s.canDma fn then s
  else
    let tlps (n : Nat) : Nat := (n + 128 * 2 ^ s.pcie.fns[fn].mps.toNat - 1) / (128 * 2 ^ s.pcie.fns[fn].mps.toNat)
    let s1 := (scatter c.targets off b).foldl (fun a p => a.emit (.memWrite fn (BitVec.ofNat 64 p.1) p.2 ep (a.roFor c))) s
    if ep then
      let n := (scatter c.targets off b).foldl (fun a p => a + tlps p.2.length) 0
      { s1 with pcie := { s1.pcie with poisonTx := satAdd s1.pcie.poisonTx n } }
    else s1

/-- Send bytes to one contiguous host buffer that no list describes. -/
def State.sendPlain (s : State) (c : Cmd) (addr : DWord) (b : List Byte) : State :=
  let fn := s.tenantFn c.tenant
  if c.epoch ≠ s.tnt[c.tenant].epoch || !s.canDma fn then s else s.emit (.memWrite fn addr b false false)

/-- Read data and header of a command from the host, once its list is known. -/
def State.readHost (s : State) (c : Cmd) : State :=
  let fn := s.tenantFn c.tenant
  let n := c.desc.readLen
  let s1 := if n = 0 then s else (scatter c.targets 0 (zeroBytes n)).foldl
    (fun a p => a.emit (.memRead fn (BitVec.ofNat 64 p.1) p.2.length (a.roFor c))) s
  if c.desc.hdrLen = 0 then s1 else s1.emit (.memRead fn c.desc.haddr c.desc.hdrLen false)

/-- The reads a command starts with: its first list segment, or its data and header. -/
def State.startReads (s : State) (c : Cmd) : State :=
  if c.desc.dlist then s.emit (.memRead (s.tenantFn c.tenant) c.desc.daddr (segmentLen c.desc.daddr.toNat) false)
  else s.readHost c

/-- Everything a command reads from the host has arrived, or its reads have failed. -/
def Cmd.ready (c : Cmd) : Bool :=
  c.hostFail || c.epOther ||
    ((match c.list with | .ok _ => true | _ => false) && decide (chunkBytes c.data = c.desc.readLen) &&
      decide (chunkBytes c.header = c.desc.hdrLen))

/-- A command is done with a status. -/
def State.finish (s : State) (tag : Tag) (st rc : Byte) (result : DWord) : State :=
  s.updCmd tag (fun c => { c with phase := .done st rc result false })

/-! ## Fetch (R182, R185, R189; 06 R163) -/

/-- Command tags a tenant holds. -/
def State.tagsOf (s : State) (t : Tid) : Nat := s.hqm.cmds.countv (fun c => c.tenant = t)

/-- Whether HQM may fetch from a queue pair (R182, R189, R219; 05 R131; 06 R175, R176; 04 R97). -/
def State.fetchable (s : State) (t : Tid) (q : Qid) : Bool :=
  let x := s.tnt[t]
  (x.qp q).enabled && !(x.qp q).draining && decide ((x.qp q).sqHead ≠ (x.qp q).sqTail) && x.resetDone &&
    (s.dev.featLock || (t = 0 && q = 0)) && decide (s.tagsOf t < x.tagLimit) && decide (s.hqm.cmds.length + s.pcie.staleReads.length < 4096) &&
    s.canDma (s.tenantFn t) && s.active && decide (s.dev.level ≠ .none) && !s.pwr.lull

/-- Queue pairs in the order a tenant's turn serves them: 0, then 1 to 7 after the last served (R189). -/
def Tenant.qpOrder (x : Tenant) : List Qid :=
  0 :: (List.range 7).map (fun k => Fin.ofNat 8 ((x.rr - 1 + 1 + k) % 7 + 1))

/-- The queue pair served next (R189). -/
def State.nextQueue (s : State) : Option (Tid × Qid) :=
  ((List.range 64).map (fun k => Fin.ofNat 64 (s.hqm.rr + 1 + k))).findSome? (fun t =>
    (s.tnt[t].qpOrder.find? (fun q => s.fetchable t q)).map (fun q => (t, q)))

/-- The lowest free tag; one whose reads are still outstanding from an instance that was reset is not reused (06 R174). -/
def State.freeTag (s : State) : Nat := ((List.range 4096).find? (fun k => !s.hqm.cmds.has k && !s.pcie.staleReads.has k)).getD 0

/-- A command as it is fetched. -/
def Cmd.fresh (t : Tid) (q : Qid) (epoch : Byte) (d : Desc) (head no : Nat) : Cmd :=
  { tenant := t, qp := q, epoch := epoch, desc := d, sqHead := head, no := no, phase := .fetched, data := [], header := [],
    dlist := [], epData := [], epOther := false, hostFail := false, mediaFail := none, dramFail := none, zoneId := 0,
    offset := 0, index := 0, gtag := none, chained := false, placed := false,
    bufs := [], stalled := false, readAt := 0, opened := false, tagNo := 0 }

/-- One descriptor fetched: a tag, the head advanced, the general checks, and its first host reads. A poisoned one completes
with the command identifier all ones (06 R163). -/
def State.fetchOne (s : State) (t : Tid) (q : Qid) (f : FetchedDesc) : State :=
  let x := s.tnt[t].qp q
  let head := (x.sqHead + 1) % x.depth
  let d := parseDescriptor f.bytes.toList
  let tag := s.freeTag
  let c := { Cmd.fresh t q s.tnt[t].epoch d head s.hqm.next with readAt := s.now }
  let c' := if f.ep then { c with desc := { d with cid := 0xFFFF#16 }, phase := .done 0x09 0 0 false }
    else match s.generalCheck t q d with
      | some (st, rc) => { c with phase := .done st rc 0 false }
      | none => c
  let s0 := s.emit (.memRead (s.tenantFn t) (x.sqBase + BitVec.ofNat 64 (64 * x.sqHead)) 64 false)
  let s1 := if f.ep then s0.poisonReceived (s.tenantFn t) else s0
  let s2 : State := { (s1.updQp t q (fun y => { y with sqHead := head })) with
    hqm := { s1.hqm with cmds := s1.hqm.cmds.put tag c', next := s1.hqm.next + 1 } }
  if c'.phase = .fetched then s2.startReads c' else s2

/-- Descriptors fetched in one turn while the queue pair stays fetchable. -/
def State.fetchTurn (s : State) (t : Tid) (q : Qid) : Nat → List FetchedDesc → State
  | 0, _ => s
  | _, [] => s
  | n + 1, f :: r => if s.fetchable t q then State.fetchTurn (s.fetchOne t q f) t q n r else s

/-- DESCRIPTOR_FETCH (R189): HQM's next turn, with the descriptors as they stand in host memory. -/
def execDescriptorFetch (ds : List FetchedDesc) (s : State) : Host.Outcome State Fault Refusal :=
  match s.nextQueue with
  | none => .next s
  | some (t, q) =>
    let s1 : State := { (s.updTnt t (fun x => { x with rr := if q = 0 then x.rr else q.1 })) with
      hqm := { s.hqm with rr := t.1 }, med := { s.med with lastHost := s.now },
      pwr := { s.pwr with idleSince := s.now } }
    .next (s1.fetchTurn t q (bits (s.reg pHQM 0x10C 8#32) 3 0) ds)

/-! ## What host reads bring (06 R159, R161, R163, R164) -/

/-- The blocks that bytes of the data at an offset touch. -/
def blocksTouched (off n : Nat) : List Nat := if n = 0 then [] else (List.range ((off + n - 1) / 4096 + 1 - off / 4096)).map (fun k => off / 4096 + k)

/-- What a completed host read changes in its command. -/
def Cmd.arrived (c : Cmd) (buf : HostBuf) (off : Nat) (b : List Byte) (ep : Bool) : Cmd :=
  match buf with
  | .data => { c with data := c.data.put off b, epData := if ep then c.epData ++ blocksTouched off b.length else c.epData }
  | .header => { c with header := c.header.put off b, epOther := c.epOther || ep }
  | .dlist => { c with dlist := c.dlist.put off b, epOther := c.epOther || ep }

/-- HOST_READ_COMPLETION (06 R159, R163): bytes of a command's data, header or data list (`off` counts segments of the list)
arrive. A list that breaks R191 completes with ST_BAD_FIELD 0x03, a poisoned one with ST_POISONED. A poisoned completion for a command that
has ended already is logged (06 R165). -/
def execHostReadCompletion (tag : Tag) (buf : HostBuf) (off : Nat) (b : List Byte) (ep : Bool) (s : State) :
    Host.Outcome State Fault Refusal :=
  match s.cmd tag with
  | none => .next s
  | some c =>
    if !s.active then .next s
    else if c.phase ≠ .fetched then .next (if ep then s.poisonReceived (s.tenantFn c.tenant) else s)
    else
      let c' := { c.arrived buf off b ep with readAt := if buf = .dlist then s.now else c.readAt }
      let s0 := if ep then s.poisonReceived (s.tenantFn c.tenant) else s
      let s1 := s0.updCmd tag (fun _ => c')
      if buf = .dlist then
        if ep then .next (s1.finish tag 0x09 0 0)
        else match c'.list with
          | .bad => .next (s1.finish tag 0x02 0x03 0)
          | .more a => .next (s1.emit (.memRead (s1.tenantFn c.tenant) (BitVec.ofNat 64 a) (segmentLen a) false))
          | .ok _ => .next (s1.readHost c')
      else .next s1

/-- The shortest completion timeout that a Completion Timeout Value selects, in µs (06 R147; the sub-ranges are PCI Express Base's, log
entry 80). -/
def FnS.minTimeout (f : FnS) : Nat :=
  match f.tmoValue.toNat with
  | 0x1 => 50 | 0x2 => 1000 | 0x5 => 16000 | 0x6 => 65000 | 0x9 => 260000 | 0xA => 1000000 | _ => 36000

/-- A read issued at a time may time out now. -/
def State.mayTimeOut (s : State) (fn : Fn) (at_ : Nat) : Bool :=
  !s.pcie.fns[fn].tmoOff && decide (at_ + s.pcie.fns[fn].minTimeout ≤ s.now)

/-- A completion timeout counts and is logged (06 R178, R179). -/
def State.timedOut (s : State) (fn : Fn) : State :=
  (({ s with pcie := { s.pcie with timeouts := satInc s.pcie.timeouts } } : State).raise pPCIE 8).aerAdvisory fn 14

/-- The completion timeout of a read of an instance that was reset: its tag is free again (06 R174). -/
def State.staleTimeout (s : State) (rtag : Nat) : State :=
  match s.pcie.staleReads.find rtag with
  | some r =>
    if s.mayTimeOut r.1 r.2.2 then ({ s with pcie := { s.pcie with staleReads := s.pcie.staleReads.del rtag } } : State).timedOut r.1 else s
  | none => s

/-- COMPLETION_TIMEOUT (06 R164): a host read of a command failed. A data-list read that fails completes as a poisoned one
(log entry 51). -/
def execCompletionTimeout (tag : Tag) (why : ReadFailure) (s : State) : Host.Outcome State Fault Refusal :=
  match s.cmd tag with
  | none => .next (if why = .timeout then s.staleTimeout tag.1 else s)
  | some c =>
    if c.phase ≠ .fetched || !s.active || (why = .timeout && !s.mayTimeOut (s.tenantFn c.tenant) c.readAt) then .next s
    else
      let s1 := if why = .timeout then s.timedOut (s.tenantFn c.tenant) else s
      let unread := match c.list with | .ok _ => false | _ => true
      if unread then .next (s1.finish tag 0x09 0 0)
      else .next (s1.updCmd tag (fun x => { x with hostFail := true }))

/-! ## Running a command -/

/-- The opcodes core 3 executes (01 R13); they wait while the debugger halts it (15 R490). -/
def core3Opc (opc : Nat) : Bool := decide (0x40 ≤ opc) || (decide (0x06 ≤ opc) && decide (opc ≤ 0x0B)) || opc = 0x0D

/-- The command of a tag when it may act now: its opcode, all it reads from the host, and the controller in operation; a host
read of an admin command that failed completes it with ST_POISONED (log entry 51). -/
def State.runs (s : State) (tag : Tag) (opc : Nat) : Option Cmd :=
  match s.cmd tag with
  | some c => if c.phase = .fetched && c.desc.opc.toNat = opc && c.ready && s.active && !s.pwr.lull &&
      !(core3Opc opc && s.dbg.halted.getLsbD 3) then some c else none
  | none => none

/-- The tenant whose keys a command uses: for zone data the zone's owner (log entry 57), else its own. -/
def State.keyTenant (s : State) (c : Cmd) : Tid :=
  if (c.desc.opc = 0x01 || c.desc.opc = 0x0C) && bits c.desc.zone 19 0 ≠ 0xFFFFF then
    match s.nvm.zones.find (bits c.desc.zone 19 0) with | some z => z.owner | none => c.tenant
  else c.tenant

/-- The tag of a waiting change of a key page. -/
def KeyChange.tag : KeyChange → Tag
  | .loadX _ _ _ t | .loadG _ _ _ t | .clear _ _ t => t

/-- A command that needs a key page waits while a change of it, fetched before the command, waits (08 R243). -/
def State.keyHolds (s : State) (c : Cmd) : Bool :=
  [0x01, 0x02, 0x03, 0x0C].contains c.desc.opc.toNat &&
    s.tnt[s.keyTenant c].keyWait.any (fun k => match s.cmd k.tag with | some x => decide (x.no < c.no) | none => false)

/-- Run an opcode's own rules on a fetched command; commands that move host data in by core 3 first see whether it arrived. -/
def State.runOp (s : State) (tag : Tag) (opc : Nat) (p : Desc → Bool) (f : Cmd → State) : State :=
  match s.runs tag opc with
  | none => s
  | some c =>
    if !p c.desc || s.keyHolds c then s
    else if s.levelEnds c then s.finish tag 0x0C 0 0
    else if opc ≠ 0x02 && opc ≠ 0x03 && c.hostFail then s.finish tag 0x09 0x02 0
    else if opc ≠ 0x02 && opc ≠ 0x03 && (c.epOther || c.epData ≠ []) then s.finish tag 0x09 0 0
    else f c

/-- The data of a command as it arrived. -/
def Cmd.bytes (c : Cmd) : List Byte := joinChunks c.data c.desc.readLen
def Cmd.hdrBytes (c : Cmd) : List Byte := joinChunks c.header c.desc.hdrLen

/-- The zone a command names. -/
def Cmd.zoneNo (c : Cmd) : Nat := bits c.desc.zone 19 0

/-- A result in bits [31:0]. -/
def res (n : Nat) : DWord := BitVec.ofNat 64 n
def allOnes64 : DWord := 0xFFFFFFFFFFFFFFFF#64

end Sys2Proof.Machine
end

