-- ==== Sys2Proof/Machine/Cipher.lean ====
section
/-!
DEFINITION. The cipher pipes with masks and parity, key pages and wrapped keys, the signing unit and its entropy (08).
-/
namespace Sys2Proof.Machine

/-! ## Pipes (R226 to R240) -/

def CiphS.pipe (c : CiphS) : Pipe → PipeS
  | .x => c.x
  | .g => c.g

/-- Change a pipe. -/
def State.updPipe (s : State) (p : Pipe) (f : PipeS → PipeS) : State :=
  match p with
  | .x => { s with ciph := { s.ciph with x := f s.ciph.x } }
  | .g => { s with ciph := { s.ciph with g := f s.ciph.g } }

def pipeNo : Pipe → Nat
  | .x => 0
  | .g => 1

/-- One block of each list in turn (R228). -/
def roundRobin : Nat → List (List PipeBlk) → List PipeBlk
  | 0, _ => []
  | n + 1, ls => ls.filterMap (fun l => l.head?) ++ roundRobin n (ls.map (fun l => l.drop 1))

/-- A command's blocks enter a pipe with the tenant whose key they use, the command's epoch and its context: blocks of the contexts
alternate, and the pipe holds at most 28; those that have left it are done (R226 to R228). -/
def State.enterPipe (s : State) (p : Pipe) (t : Tid) (epoch : Byte) (tag : Tag) (n : Nat) : State :=
  s.updPipe p (fun x =>
    let own := List.replicate (min n 28) { tenant := t, epoch := epoch, tag := tag.1 }
    let tags := x.blocks.foldl (fun a b => if a.contains b.tag then a else a ++ [b.tag]) []
    { x with blocks := (roundRobin 28 (tags.map (fun k => x.blocks.filter (fun b => b.tag = k)) ++ [own])).take 28 })

/-- A command's last blocks have left a pipe. -/
def State.leavePipe (s : State) (p : Pipe) (tag : Tag) : State :=
  s.updPipe p (fun x => { x with blocks := x.blocks.filter (fun b => b.tag ≠ tag.1), stallRun := 0 })

/-- Lanes of a pipe: 0 to 55 feed Pipe X, 56 to 111 Pipe G; 2^24 outputs between reseeds (R235). -/
def laneLimit : Nat := 16777216
def laneOf (p : Pipe) (k : Nat) : Bool := match p with | .x => decide (k < 56) | .g => decide (56 ≤ k)

/-- Draw one output of every lane for each block; none when some lane cannot cover them, or the pipe waits for masks already (R235,
R236, log entry 55). -/
def State.drawMasks (s : State) (p : Pipe) (n : Nat) : Option State :=
  if (s.ciph.pipe p).maskWait then none
  else if (s.ciph.lanes.toList.zipIdx).all (fun q => !laneOf p q.2 || decide (q.1 + n ≤ laneLimit)) then
    some { s with ciph := { s.ciph with lanes := Vector.ofFn (fun k : Fin 112 =>
      if laneOf p k.1 then s.ciph.lanes[k] + n else s.ciph.lanes[k]) } }
  else none

/-- The pipe waits for masks, and a command for the pipe. -/
def State.maskStall (s : State) (p : Pipe) (tag : Tag) : State :=
  (s.updPipe p (fun x => { x with maskWait := true, waitAt := if x.maskWait then x.waitAt else s.now })).updCmd tag
    (fun c => { c with stalled := true })

/-- Blocks of an append through AES: its data blocks and J0 (08, "Pipe capacity"). -/
def gcmBlocks (len : Nat) : Nat := (len + 15) / 16 + 1

/-- Whether a command needs a pipe: conventional I/O Pipe X, zone I/O and key unwrap Pipe G. -/
def Cmd.needs (c : Cmd) (p : Pipe) : Bool :=
  let conv := bits c.desc.zone 19 0 = 0xFFFFF
  match c.desc.opc.toNat, p with
  | 0x02, .x => true
  | 0x01, .x | 0x0C, .x => conv
  | 0x01, .g | 0x0C, .g => !conv
  | 0x03, .g | 0x43, .g => true
  | _, _ => false

/-- A command with a block in the pipe or waiting for it: in a shared engine, its blocks not yet through. -/
def Cmd.inPipe (c : Cmd) (p : Pipe) : Bool := c.phase = .shared && c.needs p && !c.chained && !c.placed

/-- All 16 command contexts of a pipe are taken (R228). -/
def State.pipeFull (s : State) (p : Pipe) : Bool := decide (16 ≤ s.hqm.cmds.countv (fun c => c.inPipe p))

/-- A command that a fence of the pipe ends: it has a block in it, or waits for it (R240). -/
def Cmd.heldBy (c : Cmd) (p : Pipe) : Bool := c.inPipe p || (c.phase = .fetched && c.stalled && c.needs p)

/-- DETAIL of cipher events from offset 0x04 (11 R363). -/
def ciphDetail (p : Pipe) (stage : Nat) (t : Byte) (rc : Byte) (tag n : Nat) : List Byte :=
  [BitVec.ofNat 8 (pipeNo p), BitVec.ofNat 8 stage, t, rc] ++ leBytes 2 tag ++ [BitVec.ofNat 8 n]

/-- When Pipe G fences no link key can be used: every link leaves UP and stays FAILED, and a pair is SEPARATED (14, edge case). -/
def State.fenceLinks (s : State) (p : Pipe) : State :=
  match p with
  | .x => s
  | .g => let s1 := s.linksDown .failed; if s1.paired then s1.mirLeave .separated 0 else s1

/-- Appends that end without effect leave a zone they opened EMPTY again, unless an entry or a hold has come to it since (07 R193, R216). -/
def State.undoOpen (s : State) (cs : List Cmd) : State :=
  cs.foldl (fun a c =>
    if !c.opened then a
    else a.updZone c.zoneId (fun z => if z.st = .open_ && z.log = [] && !z.holdHost && !z.holdEvent then { z with st := .empty } else z)) s

/-- The commands in a pipe or waiting for it complete with a status and no effect; their buffers are freed and their reads dropped. -/
def State.failPipe (s : State) (p : Pipe) (st rc : Byte) : State :=
  let hit := s.hqm.cmds.filter (fun e => e.2.heldBy p)
  let s1 := (hit.flatMap (fun e => e.2.bufs)).foldl State.freeBuf s
  let s2 : State := { s1 with hqm := { s1.hqm with cmds := s1.hqm.cmds.mapv (fun _ c =>
    if c.heldBy p then { c with phase := .done st rc 0 false, bufs := [] } else c) } }
  let s3 : State := { s2 with med := { s2.med with ops := s2.med.ops.filter (fun o => match o.2.kind with
    | .read _ _ (.host t _) => !hit.any (fun e => e.1 = t.1)
    | _ => true) } }
  (s3.undoOpen (hit.map (fun e => e.2))).updPipe p (fun x => { x with blocks := [], maskWait := false, stallRun := 0 })

/-- Fence a pipe (R240): its blocks are suppressed, the commands in it or waiting for it complete with ST_CIPHER_FAULT and
their buffers are freed, and a critical record names pipe, stage and tenant. -/
def State.fencePipe (s : State) (p : Pipe) (rc : Byte) (stage : Nat) (tenant : Byte) (tag n : Nat) : State :=
  let s4 := ((s.failPipe p 0x0B rc).updPipe p (fun x => { x with fenced := true })).fenceLinks p
  s4.raiseRec pCIPH (2 + pipeNo p) 3 tenant (ciphDetail p stage tenant rc tag n)

/-- Blocks pass a pipe once more, with fresh masks; without them the pipe stalls (R235, R238; 08, edge case). -/
def State.remask (s : State) (p : Pipe) (n : Nat) : State :=
  match s.drawMasks p n with
  | some s1 => s1
  | none => s.updPipe p (fun x => { x with maskWait := true, waitAt := if x.maskWait then x.waitAt else s.now })

/-- PARITY_MISMATCH (R238, R239): the first fault within 1 s retries the pipe's blocks and is recorded; the second fences
the pipe. A pipe without a block, and a fenced one, checks nothing. -/
def execParityMismatch (p : Pipe) (stage : Fin 28) (s : State) : Host.Outcome State Fault Refusal :=
  let x := s.ciph.pipe p
  match (match x.blocks[stage.1]? with | some b => some b | none => x.blocks.getLast?) with
  | none => .next s
  | some b =>
    if x.fenced || !s.awake then .next s
    else
      let second := match x.faultAt with | some a => decide (s.now ≤ a + 1000000) | none => false
      let s1 := s.updPipe p (fun y => { y with faults := satInc y.faults, fStage := stage.1, fTenant := b.tenant.1,
                                               faultAt := if second then y.faultAt else some s.now })
      if second then .next ((s1.raise pCIPH (pipeNo p)).fencePipe p 0x01 stage.1 (tidByte b.tenant) b.tag 2)
      else .next ((s1.remask p x.blocks.length).raiseRec pCIPH (pipeNo p) 2 (tidByte b.tenant) (ciphDetail p stage.1 (tidByte b.tenant) 0 b.tag 1))

/-- µs a pipe has stalled for masks since a block last left it (R237). -/
def PipeS.stalledFor (x : PipeS) (now : Nat) : Nat := x.stallRun + (if x.maskWait then now - x.waitAt else 0)

/-- Clocks a pipe has stalled for masks, 800 a microsecond, the running stall included (R236, R261). -/
def PipeS.stallClocks (x : PipeS) (now : Nat) : Word := if x.maskWait then satAdd x.stall (800 * (now - x.waitAt)) else x.stall

/-- MASK_STARVED (R236, R237, R261): MASK_STALL sets when a stall has lasted 10 µs; a pipe that has stalled 100 ms without a block leaving
it fences. -/
def execMaskStarved (p : Pipe) (s : State) : Host.Outcome State Fault Refusal :=
  let x := s.ciph.pipe p
  if !x.maskWait || x.fenced || !s.awake || decide (s.now < x.waitAt + 10) then .next s
  else
    let s1 := s.raise pCIPH 4
    if x.stalledFor s.now < 100000 then .next s1
    else
      let who : Byte × Nat := match x.blocks.getLast?, s.hqm.cmds.find? (fun e => e.2.heldBy p) with
        | some b, _ => (tidByte b.tenant, b.tag)
        | none, some e => (tidByte e.2.tenant, e.1)
        | none, none => (noTenant, 0)
      .next ((s1.updPipe p (fun y => { y with stall := x.stallClocks s.now })).fencePipe p 0x03 0 who.1 who.2 0)

/-- A request to the DRBG for random bytes; none while it is not ready (R251, R252). The bytes are a free value. -/
def State.drbg (s : State) : Option (Hash × State) :=
  if s.sign.drbg = 1#2 then
    some (s.freeVal, ({ s with sign := { s.sign with requests := s.sign.requests + 1 } } : State).drawn)
  else none

/-- A pipe's wait for masks ends: its clocks are added, 800 a microsecond, and MASK_STALL sets when it lasted 10 µs (R226, R236,
R261). -/
def State.endStall (s : State) (p : Pipe) : State :=
  let x := s.ciph.pipe p
  if !x.maskWait then s
  else
    let s1 := s.updPipe p (fun y => { y with maskWait := false, stall := x.stallClocks s.now, stallRun := x.stalledFor s.now })
    if x.waitAt + 10 ≤ s.now then s1.raise pCIPH 4 else s1

/-- LANE_RESEED (R235): the reseed of a lane that has reached its limit arrives; the pipe stalls no more once none of its lanes
has. -/
def execLaneReseed (lane : Fin 112) (s : State) : Host.Outcome State Fault Refusal :=
  match s.drbg with
  | none => .next s
  | some (_, s1) =>
    let s2 : State := { s1 with ciph := { s1.ciph with lanes := s1.ciph.lanes.set lane 0 } }
    let p : Pipe := if lane.1 < 56 then .x else .g
    let dry := (s2.ciph.lanes.toList.zipIdx).any (fun q => laneOf p q.2 && decide (laneLimit ≤ q.1))
    .next (if dry then s2 else s2.endStall p)

/-- DRBG_RESEED (R251): after 65,536 generate requests or 1 s. -/
def execDrbgReseed (s : State) : Host.Outcome State Fault Refusal :=
  if s.sign.drbg = 1#2 && (decide (65536 ≤ s.sign.requests) || decide (s.sign.reseedAt + 1000000 ≤ s.now)) then
    .next { s with sign := { s.sign with reseeds := satInc s.sign.reseeds, requests := 0, reseedAt := s.now } }
  else .next s

/-- HEALTH_TEST_FAILURE (R252, R262): the first two in a start restart the source; the third puts the DRBG in ERROR. -/
def execHealthTestFailure (test : HealthTest) (s : State) : Host.Outcome State Fault Refusal :=
  if s.sign.drbg ≠ 1#2 then .next s
  else
    let s1 : State := { s with sign := { s.sign with
      repFails := if test = .repetition then satInc s.sign.repFails else s.sign.repFails,
      propFails := if test = .proportion then satInc s.sign.propFails else s.sign.propFails, healthLatched := true } }
    let s2 := s1.raise pSIGN 1
    if s.sign.restarts < 2 then .next { s2 with sign := { s2.sign with restarts := s2.sign.restarts + 1 } }
    else
      let s3 : State := { s2 with sign := { s2.sign with drbg := 3#2 } }
      .next (s3.raiseRec pSIGN 0 3 noTenant [if test = .repetition then 1 else 2, BitVec.ofNat 8 s.sign.restarts])

/-! ## Key derivation (R247, R250) -/

/-- A signature by the identity key (R249); none while it is not derived. -/
def State.identitySign (s : State) (m : List Byte) : Option Wide := s.sign.identity.map (fun d => Config.ecdsaSign d m)

/-! ## Wrapped keys (R246 to R248) -/

/-- What a wrapped key unwraps to. -/
inductive Unwrapped where
  | xts (k : Wide) (id : Word)
  | gcm (k : Hash) (id : Word)
  | badField (rc : Byte)
  | auth
deriving DecidableEq, Repr

/-- Whether the header of a wrapped key is as laid out: MAGIC, FORMAT, TYPE, reserved bytes (log entry 56). -/
def wrapFormatOk (b : List Byte) : Bool :=
  fieldLe b 0 4 = 0x4B575250 && b.getD 4 0 = 1 && (b.getD 5 0 = 1 || b.getD 5 0 = 2) && b.getD 7 0 = 0 &&
    allZero (slice b 0x0C 4) && allZero (slice b 0x5C 4)

/-- Unwrap for a tenant under the transport key. -/
def unwrapKey (transport : Hash) (t : Tid) (b : List Byte) : Unwrapped :=
  let ty := b.getD 5 0
  let n := if ty = 1 then 64 else 32
  let pub := wideOf (slice b 0x10 64)
  let iv := slice b 0x50 12
  let w := slice b 0x60 n
  let key := kdf (hashBytes (Config.ecdh transport pub)) 1 "KL4064 KEY WRAP" (serialBytes Config.serial ++ [b.getD 6 0, ty] ++ slice b 8 4)
  let plain := Config.gcmCtr key iv w
  let id := BitVec.ofNat 32 (fieldLe b 8 4)
  if b.getD 6 0 ≠ tidByte t || !Config.validPoint pub then .auth
  else if Config.gcmTag key iv (slice b 0 0x60) w ≠ tagOf (slice b (0x60 + n) 16) then .auth
  else if ty = 1 then (if slice plain 0 32 = slice plain 32 32 then .auth else .xts (wideOf plain) id)
  else .gcm (hashOf plain) id

/-! ## Key pages (R242 to R245) -/

/-- Whether a tenant's key page may change: no block of it in either pipe and no command of it part-way through one (R243). -/
def State.pageQuiet (s : State) (t : Tid) : Bool :=
  !s.ciph.x.blocks.any (fun b => b.tenant = t) && !s.ciph.g.blocks.any (fun b => b.tenant = t) &&
    !s.hqm.cmds.any (fun e => s.keyTenant e.2 = t && (e.2.inPipe .x || e.2.inPipe .g))

/-- Zeroise a page (R244). -/
def State.zeroise (s : State) (t : Tid) : State := s.updTnt t (fun x => { x with xts := none, gcm := none })
def State.zeroiseAll (s : State) : State := { s with tnt := s.tnt.map (fun x => { x with xts := none, gcm := none }) }

/-- Put an unwrapped key into a page. -/
def State.loadKey (s : State) (t : Tid) : Unwrapped → State
  | .xts k id => s.updTnt t (fun x => { x with xts := some (k, id) })
  | .gcm k id => s.updTnt t (fun x => { x with gcm := some (k, id) })
  | _ => s

/-- Reload the persisted keys of a tenant; one that no longer unwraps is not loaded (07 R217; 08, edge case). -/
def State.reloadKeys (s : State) (t : Tid) : State :=
  match s.sign.transport with
  | none => s
  | some d =>
    let one (a : State) (m : KMap (List Byte)) : State :=
      match m.find t.1 with | some b => a.loadKey t (unwrapKey d t b) | none => a
    one (one s s.nvm.keysX) s.nvm.keysG

/-- Persisted keys of a tenant are removed (07 R217). -/
def State.dropPersisted (s : State) (t : Tid) (x g : Bool) : State :=
  { s with nvm := { s.nvm with
    keysX := if x then s.nvm.keysX.del t.1 else s.nvm.keysX, keysG := if g then s.nvm.keysG.del t.1 else s.nvm.keysG } }

/-- A key-page change takes effect: load with its persisted form, or clear with its removal and KEY_ZEROISED (R243, R244, 07 R217, R223). -/
def State.applyKey (s : State) (t : Tid) : KeyChange → State
  | .loadX k id p tag =>
    let s1 := s.loadKey t (.xts k id)
    let s2 : State := match p with | some b => { s1 with nvm := { s1.nvm with keysX := s1.nvm.keysX.put t.1 b } } | none => s1
    s2.finish tag 0 0 0
  | .loadG k id p tag =>
    let s1 := s.loadKey t (.gcm k id)
    let s2 : State := match p with | some b => { s1 with nvm := { s1.nvm with keysG := s1.nvm.keysG.put t.1 b } } | none => s1
    s2.finish tag 0 0 0
  | .clear x g tag =>
    let s1 := s.updTnt t (fun y => { y with xts := if x then none else y.xts, gcm := if g then none else y.gcm })
    ((s1.dropPersisted t x g).raiseTnt t 15).finish tag 0 0 0

/-- A command waits for the moment of R243 with its change. -/
def State.queueKey (s : State) (t : Tid) (tag : Tag) (k : KeyChange) : State :=
  (s.updTnt t (fun x => { x with keyWait := x.keyWait ++ [k] })).updCmd tag (fun c => { c with phase := .waiting })

/-- KEY_LOAD (R246 to R248, R493): the wrapped key is unwrapped in Pipe G, masked like any other blocks: its key's blocks and J0; the page
changes at KEY_PAGE_CHANGE. -/
def execKeyLoad (tag : Tag) (s : State) : Host.Outcome State Fault Refusal :=
  .next (s.runOp tag 0x43 (fun _ => true) (fun c =>
    let b := c.bytes
    if s.ciph.g.fenced then s.finish tag 0x0B 0x02 0
    else if !wrapFormatOk b then s.finish tag 0x02 0x01 0
    else if c.desc.len.toNat ≠ (if b.getD 5 0 = 1 then 176 else 144) then s.finish tag 0x02 0x02 0
    else match s.sign.transport with
      | none => s.finish tag 0x0D 0x30 0
      | some d =>
        let p := if c.desc.aux0.getLsbD 0 then some b else none
        if s.pipeFull .g then s
        else match s.drawMasks .g (if b.getD 5 0 = 1 then 5 else 3) with
          | none => s.maskStall .g tag
          | some s1 =>
            match unwrapKey d c.tenant b with
            | .xts k id => s1.queueKey c.tenant tag (.loadX k id p tag)
            | .gcm k id => s1.queueKey c.tenant tag (.loadG k id p tag)
            | .badField rc => s1.finish tag 0x02 rc 0
            | .auth => (s1.raise pCIPH 6).finish tag 0x0A 0 0))

/-- KEY_CLEAR (R244). -/
def execKeyClear (tag : Tag) (s : State) : Host.Outcome State Fault Refusal :=
  .next (s.runOp tag 0x44 (fun _ => true) (fun c =>
    s.queueKey c.tenant tag (.clear (c.desc.aux0.getLsbD 0) (c.desc.aux0.getLsbD 1) tag)))

/-- KEY_PAGE_CHANGE (R243): the oldest pending change of a tenant takes effect once its page is quiet. -/
def execKeyPageChange (t : Tid) (s : State) : Host.Outcome State Fault Refusal :=
  match s.tnt[t].keyWait with
  | [] => .next s
  | k :: r =>
    if s.active && s.pageQuiet t && s.tnt[t].resetDone then
      .next ((s.updTnt t (fun x => { x with keyWait := r })).applyKey t k)
    else .next s

end Sys2Proof.Machine
end

