-- ==== Sys2Proof/Machine/Data.lean ====
section
/-!
DEFINITION. The data commands of the hardware plane but APPEND: WRITE, READ, VERIFY, FLUSH and TRIM (07 R194, R201 to R205,
R216 to R218; 06 R160, R162; 08 R231 to R234), placement of buffers (09 R287 to R289) and completion entries (07 R186, R187,
R192).
-/
namespace Sys2Proof.Machine

/-! ## Acknowledgement of written data (01 R17, R23, 09 R289) -/

/-- The buffers of a command that media do not hold yet. -/
def State.liveBufs (s : State) (tag : Tag) (c : Cmd) : List Nat :=
  c.bufs.filter (fun h => match s.bpm.bufs.find h with | some b => b.tag = tag.1 | none => false)

/-- Whether n more buffers may be counted against the dirty budget (01 R23), with the erased slots of 09 R289. -/
def State.mayCount (s : State) (n : Nat) : Bool :=
  n = 0 && decide (s.held ≤ s.budget) ||
    (decide (s.held + n ≤ s.budget) &&
      match s.boot.desc with
      | some d => decide (s.held + n + 4096 ≤ s.slcRoom d)
      | none => false)

/-- Count buffers against the budget: they are acknowledged and dirty (01 R22). -/
def State.countDirty (s : State) (hs : List Nat) : State := s.updBufs hs (fun b => { b with dirty := true })

/-! ## Cipher contexts (08 R231, R232) -/

/-- The XTS data unit sequence number of a block. -/
def xtsUnit (t : Tid) (lba : Nat) : QWord := BitVec.ofNat 128 (t.1 * 2 ^ 64 + lba)

/-- The GCM IV. -/
def gcmIv (tenant zone wp gen : Nat) : List Byte := [BitVec.ofNat 8 tenant] ++ beBytes 3 zone ++ beBytes 4 wp ++ beBytes 4 gen

/-- Tenant, zone and generation under which a zone's data was written: its origin's for an imported or replica zone (14 R457). -/
def Zone.ivOf (z : Zone) (id : Nat) : Nat × Nat × Nat :=
  match z.origin with
  | some o => (o.tenant.toNat, o.zone.toNat, o.gen.toNat)
  | none => (z.owner.1, id, z.gen.toNat)

def Zone.iv (z : Zone) (id wp : Nat) : List Byte := gcmIv (z.ivOf id).1 (z.ivOf id).2.1 wp (z.ivOf id).2.2

/-- The blocks of a byte string, the last filled with zeros (07 R198). -/
def blocksOfBytes (b : List Byte) (n : Nat) : List (List Byte) := (List.range n).map (fun k => padTo 4096 (slice b (4096 * k) 4096))

/-! ## WRITE (R205; 06 R160, R164) -/

/-- How a WRITE fails before any of its data enters Pipe X: status, result code and RESULT. -/
def State.writeFault (s : State) (c : Cmd) (n : Nat) : Option (Byte × Byte × DWord) :=
  let t := c.tenant
  if s.tnt[t].xts.isNone then some (0x0D, 0x30, 0)
  else if s.tnt[t].convBlocks < c.desc.lba.toNat + n then some (0x03, 0, 0)
  else if s.nvm.readOnly then some (0x08, 0x02, allOnes64)
  else if c.hostFail then some (0x09, 0x02, 0)
  else if c.epOther || (c.epData ≠ [] && !s.hasFeat t 12) then some (0x09, 0, 0)
  else match c.dramFail with
    | some b => some (0x08, 0x03, res (c.desc.lba.toNat + b))
    | none => if s.ciph.x.fenced then some (0x0B, 0x02, 0) else none

/-- WRITE: with all its data here, its blocks pass Pipe X into buffers (08 R229); BUFFER_PLACEMENT maps them. -/
def execWrite (tag : Tag) (s : State) : Host.Outcome State Fault Refusal :=
  .next (s.runOp tag 0x02 (fun _ => true) (fun c =>
    let t := c.tenant
    let n := c.desc.len.toNat / 4096
    match s.writeFault c n, s.tnt[t].xts with
    | some (st, rc, r), _ => s.finish tag st rc r
    | none, none => s
    | none, some (k, _) =>
      if s.pipeFull .x then s
      else match s.drawMasks .x (257 * n) with
      | none => s.maskStall .x tag
      | some s1 =>
        let lba := c.desc.lba.toNat
        let bufs := (blocksOfBytes c.bytes n).zipIdx.map (fun p =>
          let b := Buf.fresh .stream c.epoch tag.1 t (.conv t (lba + p.2) 0) (Config.xtsEnc k (xtsUnit t (lba + p.2)) p.1)
          { b with cipherDone := true, poison := c.epData.contains p.2 })
        match s1.allocAll .ingest bufs with
        | none => s.pause .ingest
        | some (hs, s2) => (s2.enterPipe .x t c.epoch tag (257 * n)).updCmd tag (fun x => { x with phase := .shared, bufs := hs })))

/-! ## Placement (09 R285, R287, R288) -/

/-- A conventional block as the map now names it: the new ciphertext, and what media held for it before (07 R216). -/
def ConvBlk.next (old : Option ConvBlk) (cipher : List Byte) (poison : Bool) (seq : Nat) : ConvBlk :=
  { cipher := cipher, poison := poison, unreadable := false, seq := seq, onMedia := false,
    old := match old with
      | some o => if o.onMedia then some (o.cipher, o.poison, o.seq) else o.old
      | none => none }

/-- Map a WRITE's blocks and place its buffers, in block order, as its data completes Pipe X. -/
def State.placeWrite (s : State) (d : BoardDesc) (tag : Tag) (c : Cmd) : State :=
  let t := c.tenant
  let lba := c.desc.lba.toNat
  let q := s.nvm.writeSeq
  let hs := s.liveBufs tag c
  if s.ciph.x.maskWait then s
  else if !s.journalRoom hs.length then s.journalLag
  else
    let items := hs.zipIdx.map (fun p => (some p.1, Piece.conv t (lba + p.2) (q + p.2)))
    match s.placeIn d 0 4 items with
    | none => s
    | some s1 =>
      let s2 := hs.zipIdx.foldl (fun (a : State) p =>
        match a.bpm.bufs.find p.1 with
        | none => a
        | some b =>
          let k := convKey t (lba + p.2)
          let a1 := a.updBuf p.1 (fun x => { x with piece := .conv t (lba + p.2) (q + p.2), seq := q + p.2 })
          { a1 with nvm := { a1.nvm with conv := a1.nvm.conv.put k (ConvBlk.next (a1.nvm.conv.find k) b.data b.poison (q + p.2)) } }) s1
      (s2.leavePipe .x tag).updCmd tag (fun x => { x with phase := .waiting, placed := true, offset := q })

/-- Appends whose tag was computed earlier and that wait for their place: they go first (R287). -/
def State.placesBefore (s : State) (c : Cmd) : Bool :=
  s.hqm.cmds.any (fun e => e.2.desc.opc = 0x03 && e.2.phase = .shared && e.2.chained && !e.2.placed && decide (e.2.tagNo < c.tagNo))

/-- Place an append's buffers in its stream once its tag exists: the tenant's gust stream at GUST, the zone stream at FULL; at
FULL it waits for free fragment records (R287, R288). -/
def State.placeAppend (s : State) (d : BoardDesc) (tag : Tag) (c : Cmd) : State :=
  let hs := s.liveBufs tag c
  let gust := s.dev.level = .gust
  if s.placesBefore c || (!gust && !s.fragRoom (fragsOf c.offset hs.length)) then s
  else if !s.journalRoom hs.length then s.journalLag
  else
    let gen := match s.zone c.zoneId with | some z => z.gen | none => 0
    let q := s.nvm.writeSeq
    let piece (k : Nat) : Piece := .zone c.zoneId gen (c.offset + k) 1 (q + k)
    match s.placeIn d (if gust then 8 + c.tenant.1 else 1) (if gust then 2 else 4) (hs.zipIdx.map (fun p => (some p.1, piece p.2))) with
    | none => s
    | some s1 =>
      (hs.zipIdx.foldl (fun (a : State) p => a.updBuf p.1 (fun x => { x with piece := piece p.2, seq := q + p.2 })) s1).updCmd tag
        (fun x => { x with phase := .waiting, placed := true })

/-- BUFFER_PLACEMENT (R287); buffers of failed programs that wait for a place go first (R273). -/
def execBufferPlacement (tag : Tag) (s : State) : Host.Outcome State Fault Refusal :=
  match s.cmd tag, s.boot.desc with
  | some c, some d =>
    if !s.active || c.phase ≠ .shared || c.placed then .next s
    else if c.desc.opc = 0x02 then .next (s.retryRewrites.placeWrite d tag c)
    else if c.desc.opc = 0x03 && c.chained then .next (s.retryRewrites.placeAppend d tag c)
    else .next s
  | _, _ => .next s

/-! ## READ and VERIFY (R201 to R205; 06 R162; 08 R234, R245; 09 R278) -/

/-- Queue the media reads of blocks that no buffer holds. -/
def State.queueReads (s : State) (d : BoardDesc) (tag : Tag) (items : List (Nat × (Piece → Option Nat))) : State :=
  items.foldl (fun a it =>
    match a.locate it.2 with
    | none => a
    | some (key, slot) =>
      match a.nvm.sbs.find key with
      | none => a
      | some b => a.queueOp (slotDie d key b slot).1 3 (.read key slot (.host tag it.1)) []) s

/-- How a conventional READ or VERIFY fails at once. -/
def State.convFault (s : State) (c : Cmd) (n : Nat) : Option (Byte × Byte × DWord) :=
  let t := c.tenant
  let lba := c.desc.lba.toNat
  if s.tnt[t].xts.isNone then some (0x0D, 0x30, 0)
  else if s.tnt[t].convBlocks < lba + n then some (0x03, 0, 0)
  else if s.ciph.x.fenced then some (0x0B, 0x02, 0)
  else ((List.range n).find? (fun k => match s.nvm.conv.find (convKey t (lba + k)) with
    | some b => b.unreadable | none => false)).map (fun k => (0x08, 0x01, res (lba + k)))

/-- The appends of a zone in a block range, acknowledged ones only. -/
def Zone.range (z : Zone) (a n : Nat) : List AppRec :=
  z.log.filter (fun e => e.acked && decide (a ≤ e.offset) && decide (e.offset + blocksOf e.len ≤ a + n))

/-- How a zone READ or VERIFY fails at once (R196, R201, 09 R273). The zone's data is read under its owner's GCM key (log
entry 57). -/
def State.zoneFault (s : State) (c : Cmd) (n : Nat) : Option (Byte × Byte × DWord) :=
  let a := c.desc.lba.toNat
  match s.zone c.zoneNo with
  | none => some (0x03, 0, 0)
  | some z =>
    if c.tenant ≠ 0 && z.owner ≠ c.tenant then some (0x03, 0, 0)
    else if s.tnt[z.owner].gcm.isNone then some (0x0D, 0x30, 0)
    else if z.st = .offline then some (0x08, 0x01, res a)
    else if z.ackWp < a + n then some (0x03, 0, 0)
    else if ((z.range a n).foldl (fun x e => x + blocksOf e.len) 0) ≠ n then some (0x02, 0x04, 0)
    else if s.ciph.g.fenced then some (0x0B, 0x02, 0)
    else none

/-- Media reads a conventional command needs: written blocks whose data has left the buffers. -/
def State.convReads (s : State) (c : Cmd) (n : Nat) : List (Nat × (Piece → Option Nat)) :=
  let lba := c.desc.lba.toNat
  (List.range n).filterMap (fun k => match s.nvm.conv.find (convKey c.tenant (lba + k)) with
    | some b => if b.onMedia then some (lba + k, hitConv c.tenant (lba + k) b.seq) else none
    | none => none)

/-- Media reads a zone command needs. -/
def State.zoneReads (s : State) (z : Zone) (id a n : Nat) : List (Nat × (Piece → Option Nat)) :=
  (List.range n).filterMap (fun k =>
    if s.bpm.bufs.any (fun p => (hitZone id z.gen (a + k) p.2.piece).isSome) then none else some (a + k, hitZone id z.gen (a + k)))

/-- Start a READ or VERIFY of n blocks: egress buffers, m blocks through the pipe, and the media reads. -/
def State.startRead (s : State) (tag : Tag) (c : Cmd) (p : Pipe) (n m : Nat) (reads : List (Nat × (Piece → Option Nat))) : State :=
  match s.boot.desc, s.pipeFull p, s.drawMasks p m with
  | none, _, _ | _, true, _ => s
  | _, _, none => s.maskStall p tag
  | some d, false, some s1 =>
    let b := Buf.fresh .egress c.epoch tag.1 c.tenant (.conv c.tenant 0 0) []
    match s1.allocAll .egress (List.replicate n b) with
    | none => s.pause .egress
    | some (hs, s2) =>
      ((s2.enterPipe p (s.keyTenant c) c.epoch tag m).updCmd tag (fun x => { x with phase := .shared, bufs := hs })).queueReads d tag reads

/-- READ and VERIFY up to their media reads. -/
def State.beginRead (s : State) (tag : Tag) (c : Cmd) : State :=
  let n := c.desc.len.toNat / 4096
  if c.zoneNo = 0xFFFFF then
    match s.convFault c n with
    | some (st, rc, r) => s.finish tag st rc r
    | none => s.startRead tag c .x n (257 * n) (s.convReads c n)
  else
    match s.zoneFault c n, s.zone c.zoneNo with
    | some (st, rc, r), _ => s.finish tag st rc r
    | none, some z =>
      let m := (z.range c.desc.lba.toNat n).foldl (fun a e => a + gcmBlocks e.len) 0
      s.startRead tag c .g n m (s.zoneReads z c.zoneNo c.desc.lba.toNat n)
    | none, none => s

/-- READ. Its data goes out and it is done once its media reads have ended (`settle`). -/
def execRead (tag : Tag) (s : State) : Host.Outcome State Fault Refusal :=
  .next (s.runOp tag 0x01 (fun _ => true) (fun c => s.beginRead tag c))

/-- VERIFY: as READ, transferring nothing; ST_BUSY_THERMAL at level 6 or 7 (15 R479). -/
def execVerify (tag : Tag) (s : State) : Host.Outcome State Fault Refusal :=
  .next (s.runOp tag 0x0C (fun _ => true) (fun c =>
    if 6 ≤ s.thr.level.1 then s.finish tag 0x11 0 0 else s.beginRead tag c))

/-- A conventional block as it reads: plaintext and poison mark; zeros when unmapped (R205). -/
def State.convBlock (s : State) (t : Tid) (k : Wide) (lba : Nat) : List Byte × Bool :=
  match s.nvm.conv.find (convKey t lba) with
  | some b => (Config.xtsDec k (xtsUnit t lba) b.cipher, b.poison)
  | none => (zeroBytes 4096, false)

/-- Whether an append's tag is the one its log entry holds under the loaded key (R234, R245). A block programmed with a memory error fails it
(10 R311). -/
def Zone.tagOk (z : Zone) (id : Nat) (key : Hash × Word) (e : AppRec) : Bool :=
  !e.damaged && decide (key.2 = e.keyId) && decide (Config.gcmTag key.1 (z.iv id e.offset) e.header e.cipher = e.tag)

/-- An append's plaintext in whole blocks. -/
def Zone.plain (z : Zone) (id : Nat) (key : Hash × Word) (e : AppRec) : List Byte :=
  padTo (4096 * blocksOf e.len) (Config.gcmCtr key.1 (z.iv id e.offset) e.cipher)

/-- Send the appends of a zone READ in order, with their tag-log entries (R202, R203): stops at the first tag failure unless
AUTH_RETURN. Answers the state and the first failing block. -/
def State.sendAppends (s : State) (c : Cmd) (z : Zone) (id : Nat) (key : Hash × Word) (base : Nat) : Nat → List AppRec → State × Option Nat
  | _, [] => (s, none)
  | i, e :: r =>
    let ok := z.tagOk id key e
    if !ok && !c.desc.authReturn then (s, some e.offset)
    else
      let send := decide (c.desc.opc = 0x01)
      let s1 := if send then s.sendData c (4096 * (e.offset - base)) (z.plain id key e) false else s
      let s2 := if send && c.desc.withTags then s1.sendPlain c (c.desc.aux0 + BitVec.ofNat 64 (128 * i)) (entryBytes (z.entryId id) e) else s1
      let rest := State.sendAppends s2 c z id key base (i + 1) r
      (rest.1, if ok then rest.2 else some e.offset)

/-- A READ or VERIFY whose media reads have ended: its outcome, its data, its buffers freed. -/
def State.endRead (s : State) (tag : Tag) (c : Cmd) : State :=
  let n := c.desc.len.toNat / 4096
  let t := c.tenant
  let conv := decide (c.zoneNo = 0xFFFFF)
  let s0 := ((s.freeBufs (s.liveBufs tag c)).leavePipe (if conv then .x else .g) tag).updCmd tag (fun x => { x with bufs := [] })
  match c.dramFail, c.mediaFail with
  | some b, _ => s0.finish tag 0x08 0x03 (res (c.desc.lba.toNat + b))
  | none, some b => s0.finish tag 0x08 0x01 (res b)
  | none, none =>
    if conv then
      match s.tnt[t].xts with
      | none => s0.finish tag 0x0D 0x30 0
      | some (k, _) =>
        let bl := (List.range n).map (fun i => s.convBlock t k (c.desc.lba.toNat + i))
        let s1 := if c.desc.opc = 0x01 then
            bl.zipIdx.foldl (fun (a : State) p => a.sendData c (4096 * p.2) p.1.1 p.1.2) s0
          else s0
        let bad := c.desc.opc = 0x01 && bl.any (fun p => p.2)
        s1.finish tag (if bad then 0x09 else 0) 0 (res n)
    else
      match s.zone c.zoneNo with
      | none => s0.finish tag 0x03 0 0
      | some z =>
        match s.tnt[z.owner].gcm with
        | none => s0.finish tag 0x0D 0x30 0
        | some key =>
          let r := s0.sendAppends c z c.zoneNo key c.desc.lba.toNat 0 (z.range c.desc.lba.toNat n)
          match r.2 with
          | none => r.1.finish tag 0 0 (res n)
          | some b => r.1.updCmd tag (fun x => { x with
              phase := .done 0x0A 0 (res b) (c.desc.authReturn && decide (c.desc.opc = 0x01)) })

/-! ## FLUSH and TRIM -/

/-- FLUSH (R194): it waits for what was acknowledged before it; `offset` keeps the WRITE_SEQ its cover ends at. -/
def execFlush (tag : Tag) (s : State) : Host.Outcome State Fault Refusal :=
  .next (s.runOp tag 0x04 (fun _ => true) (fun _ =>
    s.updCmd tag (fun x => { x with phase := .waiting, offset := s.nvm.writeSeq })))

/-- TRIM (R205, 09 R285): the blocks are unmapped; it completes with its journal record. -/
def execTrim (tag : Tag) (s : State) : Host.Outcome State Fault Refusal :=
  .next (s.runOp tag 0x05 (fun _ => true) (fun c =>
    let t := c.tenant
    let n := dbits c.desc.aux0 31 0
    let a := convKey t c.desc.lba.toNat
    if n = 0 || 65536 < n then s.finish tag 0x02 0x02 0
    else if s.tnt[t].xts.isNone then s.finish tag 0x0D 0x30 0
    else if s.tnt[t].convBlocks < c.desc.lba.toNat + n then s.finish tag 0x03 0 0
    else
      let s1 : State := { s with
        nvm := { s.nvm with conv := s.nvm.conv.filter (fun e => decide (e.1 < a ∨ a + n ≤ e.1)) },
        med := { s.med with jtrims := s.med.jtrims ++ [{ tenant := t, lba := c.desc.lba.toNat, n := n, seq := s.nvm.writeSeq }] } }
      (s1.journalLines ((List.range n).map (fun k => Piece.conv t (c.desc.lba.toNat + k) 0))).updCmd tag (fun x => { x with phase := .waiting })))

/-! ## Completion -/

/-- A queue pair under removal whose commands have all completed is removed: its route loses VALID (R183, R194, 05 R141). -/
def State.removeDrained (s : State) (t : Tid) (q : Qid) : State :=
  if (s.tnt[t].qp q).draining && !s.hqm.cmds.any (fun e => e.2.tenant = t && e.2.qp = q && e.2.epoch = s.tnt[t].epoch) then
    let s1 := s.updQp t q (fun _ => Qp.reset)
    ({ s1 with troutes := s1.troutes.set (trouteIx t q) TRoute.reset } : State).updInta
  else s

/-- The blocks of a WRITE that is not acknowledged hold again what they held before (06 R160, 07 R216). -/
def State.revertBlocks (s : State) (c : Cmd) : State :=
  (List.range (c.desc.len.toNat / 4096)).foldl (fun (a : State) k =>
    let key := convKey c.tenant (c.desc.lba.toNat + k)
    match a.nvm.conv.find key with
    | some b =>
      if b.seq ≠ c.offset + k then a
      else match b.old with
        | some o =>
          let was : ConvBlk := { b with cipher := o.1, poison := o.2.1, seq := o.2.2, onMedia := true, old := none }
          { a with nvm := { a.nvm with conv := a.nvm.conv.put key was } }
        | none => { a with nvm := { a.nvm with conv := a.nvm.conv.del key } }
    | none => a) s

/-- What the blocks of an acknowledged WRITE held before is gone once their programs have ended. -/
def State.forgetOld (s : State) (c : Cmd) : State :=
  { s with nvm := { s.nvm with conv := s.nvm.conv.mapv (fun k b =>
      if convKey c.tenant c.desc.lba.toNat ≤ k && decide (k < convKey c.tenant c.desc.lba.toNat + c.desc.len.toNat / 4096) && b.onMedia then
        { b with old := none } else b) } }

/-- A command that is not acknowledged ends with a status and no effect: its buffers are freed, its blocks hold what they held, and its append
leaves no entry; later appends to the zone, which build on it, end with it (07 R216, log entry 168). -/
def State.endUnstored (s : State) (tag : Tag) (c : Cmd) (st rc : Byte) (r : DWord) : State :=
  let s1 := ((s.freeBufs (s.liveBufs tag c)).leavePipe .x tag).leavePipe .g tag
  let s2 := if c.desc.opc = 0x02 && c.placed then s1.revertBlocks c else s1
  if c.chained then
    let later (e : Cmd) : Bool := e.desc.opc = 0x03 && e.chained && e.tenant = c.tenant && e.zoneId = c.zoneId && decide (c.index < e.index) &&
      (e.phase = .shared || e.phase = .waiting)
    let gone := s2.hqm.cmds.filter (fun e => later e.2)
    let s3 := s2.dropAppends c.tenant (fun z e => decide (z = c.zoneId) && !e.acked && decide (c.index ≤ e.index))
    let s4 := (gone.flatMap (fun e => e.2.bufs)).foldl State.freeBuf s3
    let s5 : State := { s4 with hqm := { s4.hqm with cmds := s4.hqm.cmds.mapv (fun k e =>
      if gone.any (fun g => g.1 = k) then { e with phase := .done st rc r false, bufs := [] } else e) } }
    ((s5.undoOpen [c]).updCmd tag (fun x => { x with bufs := [] })).finish tag st rc r
  else ((s2.undoOpen [c]).updCmd tag (fun x => { x with bufs := [] })).finish tag st rc r

/-- A command fetched before RECOVERY that RECOVERY does not permit ends with ST_SERVICE_LEVEL and no effect: no append is acknowledged
any more (04 R97, R108). -/
def State.endAtLevel (s : State) (tag : Tag) (c : Cmd) : State := s.endUnstored tag c 0x0C 0 0

/-- A WRITE or APPEND that is not acknowledged and has lost a block to an uncorrectable memory error: the first block affected (10 R311,
R312). -/
def Cmd.lostBlock (c : Cmd) : Option Nat :=
  if c.phase = .shared || c.phase = .waiting then
    (if c.desc.opc = 0x02 then c.dramFail.map (fun b => c.desc.lba.toNat + b)
     else if c.desc.opc = 0x03 then c.dramFail.map (fun b => c.offset + b) else none)
  else none

/-- A command that waits becomes done once what it waits for has happened: a WRITE's acknowledgement (01 R17, 07 R217), the
buffers a FLUSH covers, the media reads of a READ or VERIFY, the removal a QUEUE_DELETE asked for. -/
def State.settle (s : State) (tag : Tag) : State :=
  match s.cmd tag with
  | none => s
  | some c =>
    if s.levelEnds c then s.endAtLevel tag c
    else match c.lostBlock with
    | some b => s.endUnstored tag c 0x08 0x03 (res b)
    | none =>
    match c.desc.opc.toNat, c.phase with
    | 0x02, .waiting =>
      let live := s.liveBufs tag c
      let r : Byte := if c.epData = [] then 0 else 0x09
      if s.serving && (!c.desc.fua || live = []) && s.mayCount live.length then
        (((s.countDirty live).forgetOld c).meterIn 0 c.desc.len.toNat).finish tag r 0 0
      else s
    | 0x04, .waiting =>
      if s.bpm.bufs.any (fun p => p.2.dirty && p.2.tenant = c.tenant && decide (p.2.seq < c.offset)) then s else s.finish tag 0 0 0
    | 0x01, .shared | 0x0C, .shared =>
      if s.med.ops.any (fun o => match o.2.kind with | .read _ _ (.host t _) => t = tag | _ => false) then s
      else if (s.ciph.pipe (if c.zoneNo = 0xFFFFF then .x else .g)).maskWait then s
      else s.endRead tag c
    | 0x42, .waiting =>
      let q : Qid := Fin.ofNat 8 (dbits c.desc.aux0 2 0)
      let s1 := s.removeDrained c.tenant q
      if (s1.tnt[c.tenant].qp q).enabled then s1 else s1.finish tag 0 0 0
    | _, _ => s

/-- The 16 bytes of a completion entry (R192). -/
def entryOf (c : Cmd) (st rc : Byte) (phase marked : Bool) (r : DWord) : List Byte :=
  leBytes 2 c.desc.cid.toNat ++ leBytes 2 c.sqHead ++
    [st, rc, BitVec.ofNat 8 ((if phase then 1 else 0) + (if marked then 2 else 0)), BitVec.ofNat 8 c.qp.1] ++ leBytes 8 r.toNat

/-- Free a tag. -/
def State.freeTagOf (s : State) (tag : Tag) : State :=
  { s with hqm := { s.hqm with cmds := s.hqm.cmds.del tag.1 }, pwr := { s.pwr with idleSince := s.now } }

/-- A free slot of a completion ring (R186, log entry 52). -/
def Qp.cqFree (x : Qp) : Bool := decide ((x.cqTail + 1) % x.depth ≠ x.cqHead)

/-- Completion entries due for a function whose Bus Master Enable is 0 are dropped and counted (06 R175). -/
def State.dropEntries (s : State) (fn : Fn) (n : Nat) : State :=
  if s.pcie.fns[fn].bme then s else { s with pcie := { s.pcie with dropped := satAdd s.pcie.dropped n } }

/-- Write the entry of a finished command: the slot is used, the bit of its queue pair sets; with Bus Master Enable 0 the entry
is dropped and counted (R187, R192, R223; 06 R175). -/
def State.writeEntry (s : State) (tag : Tag) (c : Cmd) (st rc : Byte) (r : DWord) (marked : Bool) : State :=
  let t := c.tenant
  let x := s.tnt[t].qp c.qp
  let fn := s.tenantFn t
  let tail := (x.cqTail + 1) % x.depth
  let s1 := (s.updQp t c.qp (fun y => { y with cqTail := tail, phase := if tail = 0 then !y.phase else y.phase })).freeTagOf tag
  let s2 := if s.pcie.fns[fn].bme then
      (s1.emit (.completion t c.qp (x.cqBase + BitVec.ofNat 64 (16 * x.cqTail)) (entryOf c st rc x.phase marked r))).raiseTnt t c.qp.1
    else s1.dropEntries fn 1
  s2.removeDrained t c.qp

/-- The entry of an append waits for those of the tenant's appends before it in the chain (01 R18, R218). -/
def State.entryBlocked (s : State) (c : Cmd) : Bool :=
  c.desc.opc = 0x03 && c.chained && s.hqm.cmds.any (fun e => e.2.tenant = c.tenant && e.2.epoch = c.epoch && e.2.desc.opc = 0x03 &&
    e.2.chained && decide (e.2.index < c.index))

/-- COMPLETION_ENTRY_WRITE (R186): a finished command writes its entry once the ring has a free slot; a command of an old epoch
only gives up its tag (R219), its entry counted as dropped while Bus Master Enable is 0 (06 R175). -/
def execCompletionEntryWrite (tag : Tag) (s : State) : Host.Outcome State Fault Refusal :=
  if !s.active then .next s
  else
    let s1 := s.settle tag
    match s1.cmd tag with
    | none => .next s1
    | some c =>
      match c.phase with
      | .done st rc r m =>
        if c.epoch ≠ s1.tnt[c.tenant].epoch then .next ((s1.freeTagOf tag).dropEntries (s1.tenantFn c.tenant) 1)
        else if !(s1.tnt[c.tenant].qp c.qp).enabled then .next (s1.freeTagOf tag)
        else if s1.entryBlocked c then .next s1
        else if (s1.tnt[c.tenant].qp c.qp).cqFree then .next (s1.writeEntry tag c st rc r m)
        else .next s1
      | _ => .next s1

end Sys2Proof.Machine
end

