-- ==== Sys2Proof/Machine/Append.lean ====
section
/-!
DEFINITION. Appending: admission and Pipe G, the chain step of SEAL, and the acknowledgement point (01 R17, R18; 04 R99;
07 R197 to R200; 08 R232 to R234, R253 to R256; 09 R288; 14 R461 to R464).
-/
namespace Sys2Proof.Machine

/-! ## Admission -/

/-- Commands of the same zone and tenant epoch fetched before a command. -/
def State.earlier (s : State) (c : Cmd) (p : Cmd → Bool) : Bool :=
  s.hqm.cmds.any (fun e => e.2.tenant = c.tenant && e.2.epoch = c.epoch && e.2.zoneNo = c.zoneNo && decide (e.2.no < c.no) && p e.2)

/-- An append not yet in the chain. -/
def Cmd.unchained (c : Cmd) : Bool := c.desc.opc = 0x03 && (c.phase = .fetched || c.phase = .shared && !c.chained)

/-- A seal or finish of the zone that has not run. -/
def Cmd.closing (c : Cmd) : Bool := (c.desc.opc = 0x0A || c.desc.opc = 0x07) && (c.phase = .fetched || c.phase = .core3 || c.phase = .waiting)

/-- An append waits for the appends to its zone fetched before it, and for a seal or finish of the zone fetched before it
(R199; 07, edge case). -/
def State.appendWaits (s : State) (c : Cmd) : Bool := s.earlier c (fun e => e.unchained || e.closing)

/-- Slots left for a gust tenant in its two superblocks, less those its unplaced appends will take (R287, R288). -/
def State.gustRoom (s : State) (d : BoardDesc) (t : Tid) : Nat :=
  let mine := s.nvm.sbs.filter (fun p => p.2.use = .slc && p.2.stream = 8 + t.1)
  mine.foldl (fun a p => if p.2.open_ then a + (p.2.capacity d - p.2.slots) else a) 0 + (2 - mine.length) * d.sbSlots (s.sbWidth d) true -
    s.hqm.cmds.foldl (fun a e => if e.2.tenant = t && e.2.desc.opc = 0x03 && e.2.phase = .shared && !e.2.placed then a + e.2.bufs.length else a) 0

/-- Fragment records that a tenant's unplaced appends will take. -/
def State.fragsDue (s : State) (t : Tid) : Nat :=
  s.hqm.cmds.foldl (fun a e => if e.2.tenant = t && e.2.desc.opc = 0x03 && e.2.phase = .shared && !e.2.placed then
    a + fragsOf e.2.offset e.2.bufs.length else a) 0

/-- A gust append finds its tenant's fragment records or gust reserve full (R288). -/
def State.gustFull (s : State) (d : BoardDesc) (t : Tid) (wp n : Nat) : Bool :=
  decide (1024 < s.gustFrags t + s.fragsDue t + fragsOf wp n) || decide (s.gustRoom d t < n)

/-- How an APPEND fails before it enters Pipe G: status, result code and RESULT. At GUST a zone outside the set, one merged already too, gives
ST_SERVICE_LEVEL (04 R99; log entry 149). -/
def State.appendFault (s : State) (d : BoardDesc) (c : Cmd) (z : Zone) (n : Nat) : Option (Byte × Byte × DWord) :=
  let t := c.tenant
  if z.owner ≠ t then some (0x03, 0, 0)
  else if s.dev.level = .gust && !z.inGustSet then some (0x0C, 0, 0)
  else if s.tnt[t].gcm.isNone then some (0x0D, 0x30, 0)
  else if z.replica || !(z.st = .empty || z.st = .open_) then some (0x04, BitVec.ofNat 8 z.st.code, 0)
  else if z.st = .empty && !s.mayOpen t then some (0x06, 0x02, 0)
  else if s.nvm.readOnly then some (0x08, 0x02, allOnes64)
  else if c.hostFail then some (0x09, 0x02, 0)
  else if c.epOther || c.epData ≠ [] then some (0x09, 0, 0)
  else match c.dramFail with
    | some b => some (0x08, 0x03, res (z.wp + b))
    | none =>
      if s.ciph.g.fenced then some (0x0B, 0x02, 0)
      else if c.desc.wpCheck && c.desc.lba.toNat ≠ z.wp then some (0x05, 0, res z.wp)
      else if 32768 < z.wp + n then some (0x03, 0, 0)
      else if s.dev.level = .gust && s.gustFull d t z.wp n then some (0x0C, 0, 0)
      else none

/-- The append enters Pipe G: the zone opens, the write pointer is assigned, the ciphertext and the tag are computed. -/
def State.appendEnter (s : State) (tag : Tag) (c : Cmd) (z : Zone) (key : Hash × Word) (n : Nat) : State :=
  let t := c.tenant
  if s.pipeFull .g then s
  else match s.drawMasks .g (gcmBlocks c.desc.len.toNat) with
  | none => s.maskStall .g tag
  | some s1 =>
    let iv := z.iv c.zoneNo z.wp
    let cipher := Config.gcmCtr key.1 iv c.bytes
    let gtag := Config.gcmTag key.1 iv c.hdrBytes cipher
    let bufs := (blocksOfBytes cipher n).zipIdx.map (fun p =>
      let b := Buf.fresh .stream c.epoch tag.1 t (.zone c.zoneNo z.gen (z.wp + p.2) 1 0) p.1
      { b with cipherDone := true, gen := z.gen, gust := s.dev.level = .gust, pad := decide (c.desc.len.toNat < 4096 * (p.2 + 1)) })
    match s1.allocAll .ingest bufs with
    | none => s.pause .ingest
    | some (hs, s2) =>
      let s3 := (if s.tnt[t].gustTenant && s.dev.level = .full then s2.rtRequest else s2).updZone c.zoneNo (fun x => { x with st := .open_ })
      (s3.enterPipe .g t c.epoch tag (gcmBlocks c.desc.len.toNat)).updCmd tag (fun x => { x with
        phase := .shared, bufs := hs, zoneId := c.zoneNo, offset := z.wp, gtag := some gtag, opened := decide (z.st = .empty) })

/-- APPEND (R197 to R199). -/
def execAppend (tag : Tag) (s : State) : Host.Outcome State Fault Refusal :=
  .next (s.runOp tag 0x03 (fun _ => true) (fun c =>
    let n := blocksOf c.desc.len.toNat
    match s.zone c.zoneNo, s.boot.desc with
    | none, _ => s.finish tag 0x03 0 0
    | _, none => s
    | some z, some d =>
      if s.appendWaits c then s
      else match s.appendFault d c z n, s.tnt[c.tenant].gcm with
        | some (st, rc, r), _ => s.finish tag st rc r
        | none, some key => s.appendEnter tag c z key n
        | none, none => s))

/-! ## The chain step (08 R253 to R256) -/

/-- SEAL_CHAIN_STEP (R254 to R256): the entry of an append whose tag Pipe G has computed is written, head and digest are
extended and the write pointer advances. It runs on in Squall up to step 2 (11 R350). -/
def execSealChainStep (tag : Tag) (s : State) : Host.Outcome State Fault Refusal :=
  match s.cmd tag with
  | none => .next s
  | some c =>
    match c.gtag, s.zone c.zoneId, s.tnt[c.tenant].gcm with
    | some g, some z, some key =>
      if c.desc.opc ≠ 0x03 || c.phase ≠ .shared || c.chained || !s.awake || (s.squall.running && decide (2 < s.squall.step)) ||
          s.ciph.g.maskWait then .next s
      else
        let t := c.tenant
        let n := s.nvm.chains[t].index + 1
        let hhash := Config.sha256 c.hdrBytes
        let prev := s.chainHead t
        let head := chainNext prev g c.zoneId c.offset c.desc.len.toNat hhash
        let e : AppRec :=
          { index := n, offset := c.offset, len := c.desc.len.toNat, header := c.hdrBytes, gust := s.dev.level = .gust, gen := z.gen,
            opTime := s.opTime, cycles := BitVec.ofNat 32 s.cycleCount, keyId := key.2, tag := g, hhash := hhash, prev := prev,
            head := head, cipher := Config.gcmCtr key.1 (z.iv c.zoneId c.offset) c.bytes, acked := false, accepted := false,
            blocksOn := false, entryOn := false, damaged := false }
        let s1 := s.updZone c.zoneId (fun x => { x with
          log := x.log ++ [e], wp := c.offset + blocksOf c.desc.len.toNat, used := x.used || x.inGustSet })
        let s2 : State := { s1 with
          nvm := { s1.nvm with chains := s1.nvm.chains.set t { index := n, head := head } },
          hqm := { s1.hqm with tagged := s1.hqm.tagged + 1 } }
        let s3 := (s2.leavePipe .g tag).updCmd tag (fun x => { x with chained := true, index := n, tagNo := s.hqm.tagged })
        .next (if s3.streams t && (match s3.zone c.zoneId with | some x => s3.liveZone x | none => false) then s3.mirAppendSend t c.zoneId e else s3)
    | _, _, _ => .next s

/-! ## Acknowledgement (01 R17, R18; 07 R200, R217; 14 R463, R464) -/

/-- The state MIR_STATUS reports: a role without a pair is UNPAIRED (R460). -/
def State.mirState (s : State) : MirSt :=
  if s.windward || s.leeward then (if s.mir.st = .off then .unpaired else s.mir.st) else .off

/-- Bytes a tenant has acknowledged and the partner has not accepted (R463, R472 MIR_LAG). -/
def State.mirLag (s : State) (t : Tid) : Nat :=
  (s.entriesOf t).foldl (fun a p => if p.2.acked && !p.2.accepted then a + p.2.len else a) 0

/-- An append waits for its mirror partner: in sync mode for MIR_ACCEPT, in async mode for the lag bound of 64 MiB. -/
def State.mirrorWaits (s : State) (t : Tid) (e : AppRec) : Bool :=
  s.windward && s.mirrored t && s.mirState = .inSync && !e.accepted &&
    ((s.reg pMIR 0x104 0#32).getLsbD 0 = false || decide (67108864 < s.mirLag t + e.len))

/-- An append of a mirrored tenant completes without its partner. -/
def State.mirrorDegraded (s : State) (t : Tid) : Bool := s.windward && s.mirrored t && s.mirState ≠ .inSync

/-- Earlier entries of a tenant that are not acknowledged. -/
def State.ackBlocked (s : State) (t : Tid) (n : Nat) : Bool :=
  (s.entriesOf t).any (fun p => !p.2.acked && decide (p.2.index < n))

/-- The acknowledgement of an append: it counts against the budget, its entry and zone carry its times, its last block
finishes the zone. -/
def State.acknowledge (s : State) (tag : Tag) (c : Cmd) (e : AppRec) (live : List Nat) : State :=
  let t := c.tenant
  let now := s.opSecs
  let last := decide (32768 ≤ e.offset + blocksOf e.len)
  let s1 := ((s.countDirty live).updEntry c.zoneId e.index (fun x => { x with acked := true })).updZone c.zoneId (fun z =>
    let z1 := { z with firstT := if e.offset = 0 then now else z.firstT, lastT := now }
    if last && decide (z1.st = .open_) then z1.finish now else z1)
  let s2 := if last then s1.mirStateItem t 1 (leBytes 4 c.zoneId) else s1
  let pend := match s.zone c.zoneId with | some z => z.holdPending | none => false
  let s3 := (s2.meterIn (if pend then 2 else 1) e.len).updTnt t (fun x => { x with lastAck := some s.now })
  let r : DWord := BitVec.ofNat 64 (e.offset + e.index % 2 ^ 32 * 2 ^ 32)
  if s.mirrorDegraded t then
    let s4 := if s3.hasFeat t 4 then s3.raiseTnt t 17 else s3.raiseRecStatus (pTNT t) 17 2 (tidByte t)
    s4.finish tag (if s.hasFeat t 4 then 0x0F else 0) 0 r
  else s3.finish tag 0 0 r

/-- APPEND_ACKNOWLEDGEMENT (01 R17): the tag in the log, the head including it, each buffer on media or counted, the earlier
appends of the tenant acknowledged (R18), FUA and the mirror partner satisfied. -/
def execAppendAcknowledgement (tag : Tag) (s : State) : Host.Outcome State Fault Refusal :=
  match s.cmd tag with
  | none => .next s
  | some c =>
    match s.entryAt c.tenant c.index with
    | none => .next s
    | some (_, e) =>
      let live := s.liveBufs tag c
      if c.desc.opc = 0x03 && c.phase = .waiting && c.chained && c.placed && s.serving && !s.ackBlocked c.tenant c.index && c.dramFail.isNone &&
          s.mayCount live.length && (!c.desc.fua || (live = [] && e.entryOn)) && !s.mirrorWaits c.tenant e then
        .next (s.acknowledge tag c e live)
      else .next s

end Sys2Proof.Machine
end

