-- ==== Sys2Proof/Machine/ZoneCmd.lean ====
section
/-!
DEFINITION. Zone management, seal records, the chain exports, the owner's erase, and the hold input (07 R204 to R214;
08 R257 to R260; 11 R370; 13 R420, R421).
-/
namespace Sys2Proof.Machine

/-! ## Opening and finishing (07 R206, R207) -/

/-- The zone a zone opcode names, when its sender may name it: T0 any zone, T1 to T63 their own (R196). -/
def State.named (s : State) (c : Cmd) : Option Zone :=
  match s.zone c.zoneNo with
  | some z => if c.tenant = 0 || z.owner = c.tenant then some z else none
  | none => none

/-- ST_ZONE_STATE with the zone's state code. -/
def State.badState (s : State) (tag : Tag) (z : Zone) : State := s.finish tag 0x04 (BitVec.ofNat 8 z.st.code) 0

/-- ZONE_OPEN (R207). From T0 a named zone opens under its owner's limits (log entry 67). -/
def execZoneOpen (tag : Tag) (s : State) : Host.Outcome State Fault Refusal :=
  .next (s.runOp tag 0x06 (fun _ => true) (fun c =>
    if c.zoneNo = 0xFFFFF then
      if !s.mayOpen c.tenant then s.finish tag 0x06 0x02 0
      else match s.takeZone c.tenant true true with
        | .error rc => s.finish tag 0x06 (BitVec.ofNat 8 rc) 0
        | .ok (z, s1) => (s1.updZone z (fun x => { x with st := .open_ })).finish tag 0 0 (res z)
    else match s.named c with
      | none => s.finish tag 0x03 0 0
      | some z =>
        if z.st ≠ .empty || z.inGustSet || z.replica then s.badState tag z
        else if !s.mayOpen z.owner then s.finish tag 0x06 0x02 0
        else (s.updZone c.zoneNo (fun x => { x with st := .open_ })).finish tag 0 0 (res c.zoneNo)))

/-- Appends to a zone fetched before a command that have neither been acknowledged nor failed (08 R257). -/
def State.appendsBefore (s : State) (c : Cmd) : Bool :=
  s.hqm.cmds.any (fun e => e.2.zoneNo = c.zoneNo && e.2.desc.opc = 0x03 && decide (e.2.no < c.no) &&
    (e.2.phase = .fetched || e.2.phase = .shared || e.2.phase = .waiting))

/-- An OPEN zone is finished, and the partner told (14 R461). -/
def State.finishZone (s : State) (id : Nat) (z : Zone) : State :=
  (s.updZone id (fun x => x.finish s.opSecs)).mirStateItem z.owner 1 (leBytes 4 id)

/-- ZONE_FINISH (R206). It runs after the appends to the zone fetched before it (log entry 68). -/
def execZoneFinish (tag : Tag) (s : State) : Host.Outcome State Fault Refusal :=
  .next (s.runOp tag 0x07 (fun _ => true) (fun c =>
    match s.named c with
    | none => s.finish tag 0x03 0 0
    | some z =>
      if s.appendsBefore c then s
      else if z.st ≠ .open_ || z.replica then s.badState tag z
      else (s.finishZone c.zoneNo z).finish tag 0 0 0))

/-! ## Holds (07 R206, R209, R210, R211) -/

/-- ZONE_HOLD. HELD_MAX bounds the tenant's own HELD zones; replicas lie outside every limit (R209, 14 R462). -/
def execZoneHold (tag : Tag) (s : State) : Host.Outcome State Fault Refusal :=
  .next (s.runOp tag 0x08 (fun _ => true) (fun c =>
    match s.named c with
    | none => s.finish tag 0x03 0 0
    | some z =>
      if z.st = .held then s.finish tag 0 0 0
      else if z.st ≠ .open_ && z.st ≠ .full then s.badState tag z
      else if !z.replica && !z.holdHost && decide (s.tnt[z.owner].heldMax ≤ s.heldHost z.owner) then s.finish tag 0x06 0x03 0
      else
        let s1 := (s.updZone c.zoneNo (fun x => { x with
          holdHost := true, st := if x.st = .full then .held else x.st })).mirStateItem z.owner 2 (leBytes 4 c.zoneNo)
        let s2 := if z.st = .full then (s1.meterIn 2 (4096 * z.wp)).quotaNear z.owner else s1
        s2.finish tag 0 0 0))

/-- ZONE_RELEASE (R210). -/
def execZoneRelease (tag : Tag) (s : State) : Host.Outcome State Fault Refusal :=
  .next (s.runOp tag 0x09 (fun _ => true) (fun c =>
    match s.named c with
    | none => s.finish tag 0x03 0 0
    | some z =>
      if z.st ≠ .held && z.st ≠ .open_ then s.badState tag z
      else if c.tenant ≠ 0 && z.holdEvent then s.finish tag 0x0D 0x40 0
      else
        let s1 := (s.updZone c.zoneNo (fun x => { x with
          holdHost := false, holdEvent := false, st := if x.st = .held then .full else x.st })).mirStateItem z.owner 3 (leBytes 4 c.zoneNo)
        s1.finish tag 0 0 0))

/-- HOLD_EVENT on a zone at a pulse of operating time `t` for a window of `n` minutes (R211). -/
def Zone.holdAt (z : Zone) (t n : Nat) : Zone :=
  if z.st = .full && decide (t ≤ z.lastT + 60 * n) then { z with st := .held, holdEvent := true }
  else if z.st = .open_ then { z with holdEvent := true }
  else z

/-- The hold of one tenant at a pulse: its zones, a notice record with their numbers, TNT_INT_STATUS.HOLD_EVENT, the meter and
the partner. Replica zones are held as the tenant's other zones are (14, edge case). -/
def State.holdTenant (s : State) (t : Tid) (at_ : Nat) : State :=
  let n := s.tnt[t].holdMin
  if n = 0 then s
  else
    let hit := s.nvm.zones.filter (fun p => p.2.owner = t && decide (p.2.holdAt at_ n ≠ p.2))
    let full := hit.filter (fun p => decide (p.2.st = .full))
    let s1 : State := { s with nvm := { s.nvm with zones := s.nvm.zones.mapv (fun _ z => if z.owner = t then z.holdAt at_ n else z) } }
    let s2 := full.foldl (fun a p => a.meterIn 2 (4096 * p.2.wp)) s1
    let s3 := hit.foldl (fun a p => if p.2.replica then a else a.mirStateItem t 2 (leBytes 4 p.1)) s2
    (s3.raiseRec (pTNT t) 10 1 (tidByte t)
      (leBytes 4 (opWord at_).toNat ++ leBytes 4 full.length ++ leBytes 4 (hit.length - full.length))).quotaNear t

/-- The holds of a pulse, tenant by tenant (R211). -/
def State.holdPulse (s : State) (at_ : Nat) : State := allTids.foldl (fun a t => a.holdTenant t at_) s

/-! ## Seals (08 R257) -/

/-- Bytes 0x00 to 0xBF of a seal record. -/
def State.sealBody (s : State) (id : Nat) (z : Zone) (wasOpen : Bool) : List Byte :=
  let t := z.owner
  let first := z.log.head?
  let last := z.log.getLast?
  let head := s.chainHead t
  let flags := (if s.untrusted then 1 else 0) + (if s.squall.running then 2 else 0) + (if wasOpen then 4 else 0)
  leBytes 4 0x52534C4B ++ leBytes 2 1 ++ [tidByte t, BitVec.ofNat 8 flags] ++ serialBytes Config.serial ++ leBytes 4 id ++
    leBytes 4 z.gen.toNat ++ leBytes 4 z.wp ++ leBytes 4 z.log.length ++ leBytes 8 ((first.map (fun e => e.index)).getD 0) ++
    leBytes 8 ((last.map (fun e => e.index)).getD 0) ++ hashBytes ((first.map (fun e => e.prev)).getD head) ++
    hashBytes ((last.map (fun e => e.head)).getD head) ++ hashBytes (zoneDigest id z.log) ++ leBytes 4 s.opTime.toNat ++
    leBytes 4 s.cycleCount ++ leBytes 8 s.utc ++ leBytes 8 (s.nvm.sealIndex + 1) ++ zeroBytes 16

/-- A zone's newest seal record is kept, and SEAL_INDEX is its index (08 R257). -/
def State.putSeal (s : State) (id : Nat) (r : List Byte) : State :=
  { s with nvm := { s.nvm with sealRecs := s.nvm.sealRecs.put id r, sealIndex := s.nvm.sealIndex + 1 } }

/-- Seal a zone: an OPEN one is finished first; the record is stored, SEAL_DONE sets and the partner is told. -/
def State.sealZone (s : State) (id : Nat) (z : Zone) (key : Hash) : State :=
  let wasOpen := decide (z.st = .open_)
  let s1 := if wasOpen then s.finishZone id z else s
  let body := s1.sealBody id z wasOpen
  let rec_ := body ++ wideBytes (Config.ecdsaSign key body)
  let s2 := s1.updZone id (fun x => { x with st := .sealed })
  let s3 := s2.putSeal id rec_
  -- A zone that was not streamed live is sent whole when it is sealed (14 R469).
  let s4 := if s3.streams z.owner && !s3.liveZone z then z.log.foldl (fun a e => a.mirAppendSend z.owner id e) s3 else s3
  (((s4.meterIn 3 (4096 * z.wp)).raise pSEAL 0).mirStateItem z.owner 4 (leBytes 4 id ++ rec_)).quotaNear z.owner

/-- The low 32 bits of the chain index sealed. -/
def lastIndex (z : Zone) : DWord := res (((z.log.getLast?.map (fun e => e.index)).getD 0) % 2 ^ 32)

/-- The rules of ZONE_SEAL on its zone once the appends before it have ended. -/
def State.runSeal (s : State) (tag : Tag) (c : Cmd) (z : Zone) : State :=
  if z.st = .sealed && !z.replica then s.finish tag 0 0 (lastIndex z)
  else if z.replica || !(z.st = .open_ || z.st = .full || z.st = .held) then s.badState tag z
  else if s.tnt[z.owner].evidMax ≤ s.zcountLim z.owner .sealed then s.finish tag 0x06 0x04 0
  else match s.sign.identity with
    | none => s.finish tag 0x0D 0x30 0
    | some k => (s.sealZone c.zoneNo z k).finish tag 0 0 (lastIndex z)

/-- In step 7 of Squall the appends a seal still waits for have their outcome: those wholly on media are kept, the others of the tenant, from the
lowest that is not, fail (R257; 11 R354, R358; log entry 171). -/
def State.settleAppends (s : State) (t : Tid) : State :=
  let out := (s.entriesOf t).filter (fun p => !p.2.acked && !(p.2.blocksOn && p.2.entryOn))
  s.dropAppends t (fun _ e => !e.acked && out.any (fun p => decide (p.2.index ≤ e.index)))

/-- ZONE_SEAL: core 3 starts it, waits for the appends to the zone fetched before it, and seals; one it has started before
Squall begins completes within Squall (R257). -/
def execZoneSeal (tag : Tag) (s : State) : Host.Outcome State Fault Refusal :=
  match s.cmd tag with
  | none => .next s
  | some c =>
    let start := (s.runs tag 0x0A).isSome
    let cont := c.phase = .core3 && s.awake && !s.dbg.halted.getLsbD 3 && (!s.squall.running || decide (s.squall.step ≤ 7))
    if c.desc.opc ≠ 0x0A || !(start || cont) then .next s
    else if s.levelEnds c then .next (s.finish tag 0x0C 0 0)
    else match s.named c with
      | none => .next (s.finish tag 0x03 0 0)
      | some z =>
        if s.appendsBefore c && s.squall.running && s.squall.step = 7 then
          let s1 := s.settleAppends z.owner
          .next (s1.runSeal tag c ((s1.zone c.zoneNo).getD z))
        else if s.appendsBefore c then .next (s.updCmd tag (fun x => { x with phase := .core3 }))
        else .next (s.runSeal tag c z)

/-! ## Reports and exports (07 R204; 08 R258, R259) -/

/-- A zone report entry. -/
def zoneEntry (id : Nat) (z : Zone) : List Byte :=
  let flags := (if z.holdHost then 1 else 0) + (if z.holdEvent then 2 else 0) + (if z.holdPending then 4 else 0)
  leBytes 4 id ++ [BitVec.ofNat 8 z.st.code, BitVec.ofNat 8 flags, tidByte z.owner, 0] ++ leBytes 4 z.wp ++ leBytes 4 z.gen.toNat ++
    leBytes 4 z.firstT ++ leBytes 4 z.lastT ++ leBytes 4 z.fullT ++ leBytes 4 z.log.length

/-- ZONE_REPORT. -/
def execZoneReport (tag : Tag) (s : State) : Host.Outcome State Fault Refusal :=
  .next (s.runOp tag 0x0B (fun _ => true) (fun c =>
    let from_ := dbits c.desc.aux0 19 0
    let l := s.nvm.zones.filter (fun p => (c.tenant = 0 || p.2.owner = c.tenant) && c.desc.aux1.getLsbD p.2.st.code && decide (from_ ≤ p.1))
    let n := min l.length ((c.desc.len.toNat - 16) / 32)
    let out := leBytes 4 n ++ leBytes 4 l.length ++ zeroBytes 8 ++ (l.take n).flatMap (fun p => zoneEntry p.1 p.2)
    (s.sendData c 0 out false).finish tag 0 0 (res n)))

/-- SEAL_EXPORT kind 0x01: the seal record of a zone. -/
def execSealExportSealRecord (tag : Tag) (s : State) : Host.Outcome State Fault Refusal :=
  .next (s.runOp tag 0x4C (fun d => d.sel = 1) (fun c =>
    match s.nvm.sealRecs.find c.zoneNo with
    | none => s.finish tag 0x03 0 0
    | some r =>
      if c.desc.len.toNat < 256 then s.finish tag 0 0 0
      else (s.sendData c 0 r false).finish tag 0 0 (res 1)))

/-- A tag-log entry with its header padded to a multiple of 16 bytes. -/
def exportEntry (id : Nat) (e : AppRec) : List Byte :=
  entryBytes id e ++ padTo ((e.header.length + 15) / 16 * 16) e.header

/-- As many items as fit in a length. -/
def fitting : Nat → List (List Byte) → List (List Byte)
  | _, [] => []
  | n, b :: r => if b.length ≤ n then b :: fitting (n - b.length) r else []

/-- SEAL_EXPORT kind 0x02: tag-log entries of a zone. -/
def execSealExportZoneEntries (tag : Tag) (s : State) : Host.Outcome State Fault Refusal :=
  .next (s.runOp tag 0x4C (fun d => d.sel = 2) (fun c =>
    match s.named c with
    | none => s.finish tag 0x03 0 0
    | some z =>
      let l := fitting c.desc.len.toNat ((z.log.drop c.desc.aux1.toNat).map (exportEntry (z.entryId c.zoneNo)))
      (s.sendData c 0 l.flatten false).finish tag 0 0 (res l.length)))

/-- SEAL_EXPORT kind 0x03: a tenant's entries in chain-index order; an index whose entry is gone is a placeholder (R259). A first
index of 0 names no append (log entry 69). -/
def execSealExportChain (tag : Tag) (s : State) : Host.Outcome State Fault Refusal :=
  .next (s.runOp tag 0x4C (fun d => d.sel = 3) (fun c =>
    let k := dbits c.desc.aux0 15 8
    let first := c.desc.aux1.toNat
    if 63 < k then s.finish tag 0x03 0 0
    else
      let t : Tid := Fin.ofNat 64 k
      let last := s.nvm.chains[t].index
      if first = 0 || last < first then s.finish tag 0x03 0 0
      else
        let n := min (c.desc.len.toNat / 128) (last + 1 - first)
        let out := (List.range n).flatMap (fun i =>
          match s.entryAt t (first + i) with
          | some (z, e) => entryBytes z e
          | none => elidedBytes (first + i))
        (s.sendData c 0 out false).finish tag 0 0 (res n)))

/-! ## The owner's signature and erase (07 R213, R214) -/

/-- The 76-byte owner message. -/
def ownerMessage (challenge : QWord) (op : Byte) (arg : List Byte) : List Byte :=
  ascii "KL4064OW" ++ serialBytes Config.serial ++ tagBytes challenge ++ [op, 0, 0, 0] ++ padTo 32 arg

/-- The live challenge: issued less than 10 minutes ago. -/
def State.liveChallenge (s : State) : Option QWord :=
  match s.own.challenge with
  | some (q, at_) => if s.now < at_ + 600000000 then some q else none
  | none => none

def State.dropChallenge (s : State) : State := { s with own := { s.own with challenge := none } }

/-- A signed owner operation: refused with 0x20 or 0x23, or with ST_OWNER_SIG and the challenge consumed, or carried out. -/
def State.ownerSigned (s : State) (tag : Tag) (op : Byte) (arg sig : List Byte) (act : State → State) : State :=
  if s.nvm.ownerSlots = [] then s.finish tag 0x0D 0x20 0
  else match s.liveChallenge with
    | none => s.finish tag 0x0D 0x23 0
    | some q =>
      let s1 := s.dropChallenge
      if Config.ecdsaVerify s.nvm.ownerKey (ownerMessage q op arg) (wideOf sig) then act s1
      else (s1.raise pOWN 2).finish tag 0x0E 0 0

/-- Erase every block of a zone whose data is no longer valid. -/
def State.eraseZoneBlocks (s : State) (id : Nat) : State :=
  let hit := s.nvm.sbs.filter (fun p => p.2.pieces.any (fun q => match q.2 with | .zone z _ _ _ _ => z = id | _ => false))
  let s1 : State := { s with nvm := { s.nvm with sbs := s.nvm.sbs.mapv (fun _ b => { b with pieces := trimPieces s.nvm b.pieces }) } }
  hit.foldl (fun a p => a.eraseIfEmpty p.1) s1

/-- ZONE_ERASE_SIGNED: the zone-reset record first, then the erase, the critical record, the zone EMPTY (R214, 11 R370). -/
def execZoneEraseSigned (tag : Tag) (s : State) : Host.Outcome State Fault Refusal :=
  .next (s.runOp tag 0x4D (fun _ => true) (fun c =>
    match s.named c with
    | none => s.finish tag 0x03 0 0
    | some z =>
      if z.st ≠ .sealed && z.st ≠ .offline then s.badState tag z
      else
        let arg := leBytes 4 c.zoneNo ++ leBytes 4 z.gen.toNat ++ [tidByte z.owner]
        s.ownerSigned tag 0x10 arg (slice c.bytes 0 64) (fun s1 =>
          let s2 := ((s1.zresetRecord c.zoneNo z 2).emptyZone c.zoneNo).eraseZoneBlocks c.zoneNo
          (s2.record 0x2740 3 (tidByte z.owner) (leBytes 4 c.zoneNo ++ [tidByte z.owner, 0, 0, 0] ++ leBytes 4 z.gen.toNat)).finish tag 0 0 0)))

end Sys2Proof.Machine
end

