-- ==== Sys2Proof/Machine/Admin.lean ====
section
/-!
DEFINITION. Admin commands executed on core 3 (07 R181 to R184, R194, R212, R213, R520; 04 R104 to R107; 11 R369, R370).
-/
namespace Sys2Proof.Machine

/-! ## IDENTIFY -/

/-- A tenant's entry with HOLD_MINUTES in force (table "Identify data"). -/
def tenantEntry (x : Tenant) : List Byte :=
  [BitVec.ofNat 8 x.binding, BitVec.ofNat 8 x.vf, BitVec.ofNat 8 (x.convBlocks / 262144), BitVec.ofNat 8 x.openMax] ++
    leBytes 4 x.quota ++ leBytes 4 x.heldMax ++ leBytes 4 x.evidMax ++ leBytes 4 x.withhold.toNat ++ leBytes 2 x.tagLimit ++
    [BitVec.ofNat 8 x.holdMin] ++ zeroBytes 9

/-- The zones of a tenant's gust set. -/
def State.gustSet (s : State) (t : Tid) : List Nat :=
  (s.nvm.zones.filter (fun p => p.2.owner = t && p.2.inGustSet)).map (fun p => p.1)

/-- The 4,096 bytes of IDENTIFY. -/
def State.identifyData (s : State) (t : Tid) : List Byte :=
  let cap := match s.boot.desc with | some d => d.uCap * 134217728 | none => 0
  let set := (s.gustSet t ++ List.replicate 8 0xFFFFFFFF).take 8
  let counts := [ZState.empty, .open_, .full, .held, .sealed, .offline].flatMap (fun st => leBytes 4 (s.zcount t st))
  padTo 4096 (serialBytes Config.serial ++ leBytes 4 Config.hwType.toNat ++ leBytes 4 s.dev.fwVersion.toNat ++ leBytes 8 cap ++
    leBytes 4 s.zoneCount ++ leBytes 4 s.unownedCount ++ [tidByte t, BitVec.ofNat 8 s.dev.level.code] ++ leBytes 2 4096 ++
    leBytes 4 1048576 ++ leBytes 2 256 ++ leBytes 2 512 ++ zeroBytes 12 ++ tenantEntry s.tnt[t] ++ set.flatMap (fun z => leBytes 4 z) ++
    counts)

def execIdentify (tag : Tag) (s : State) : Host.Outcome State Fault Refusal :=
  .next (s.runOp tag 0x40 (fun _ => true) (fun c => (s.sendData c 0 (s.identifyData c.tenant) false).finish tag 0 0 0))

/-! ## Queue pairs -/

/-- A queue pair as it is created. -/
def Qp.created (depth : Nat) (sq cq : DWord) : Qp := { Qp.reset with enabled := true, depth := depth, sqBase := sq, cqBase := cq }

/-- The rules of R183 on a depth and two ring bases. -/
def ringOk (depth : Nat) (sq cq : DWord) : Bool :=
  16 ≤ depth && depth ≤ 4096 && sq.toNat % 4096 = 0 && cq.toNat % 4096 = 0

/-- The default vector of a queue pair (05 R141). -/
def State.defaultVec (s : State) (t : Tid) (q : Qid) : Nat := if s.tnt[t].binding = 1 then q.1 else t.1

/-- Enable a queue pair and set its route. -/
def State.createQp (s : State) (t : Tid) (q : Qid) (depth : Nat) (sq cq : DWord) (vec : Nat) : State :=
  let s1 := s.updQp t q (fun _ => Qp.created depth sq cq)
  ({ s1 with troutes := s1.troutes.set (trouteIx t q) { valid := true, vec := BitVec.ofNat 7 vec } } : State).updInta

/-- QUEUE_CREATE (R183, R184, 05 R131, R133, R141). A depth or base outside R183 completes with ST_RANGE (log entry 71). -/
def execQueueCreate (tag : Tag) (s : State) : Host.Outcome State Fault Refusal :=
  .next (s.runOp tag 0x41 (fun _ => true) (fun c =>
    let t := c.tenant
    let q : Qid := Fin.ofNat 8 (dbits c.desc.aux0 2 0)
    let depth := dbits c.desc.aux0 28 16
    let named := dbits c.desc.aux0 38 32
    let vec := if s.hasFeat t 16 then named else s.defaultVec t q
    if q = 0 then s.finish tag 0x03 0 0
    else if !s.dev.featLock || !s.tntLocked t then s.finish tag 0x0D 0x10 0
    else if (s.tnt[t].qp q).enabled then s.finish tag 0x0D 0x12 0
    else if (if s.tnt[t].binding = 1 then 8 else 71) < vec then s.finish tag 0x03 0 0
    else if !ringOk depth c.desc.daddr c.desc.haddr then s.finish tag 0x03 0 0
    else (s.createQp t q depth c.desc.daddr c.desc.haddr vec).finish tag 0 0 0))

/-- Stop fetching from a queue pair; with ABORT, its commands not yet in a shared engine complete with ST_ABORTED_RESET. -/
def State.drainQp (s : State) (t : Tid) (q : Qid) (abort : Bool) : State :=
  let s1 := s.updQp t q (fun x => { x with draining := true })
  if abort then { s1 with hqm := { s1.hqm with cmds := s1.hqm.cmds.mapv (fun _ c =>
    if c.tenant = t && c.qp = q && c.epoch = s.tnt[t].epoch && c.phase = .fetched then { c with phase := .done 0x07 0 0 false } else c) } }
  else s1

/-- QUEUE_DELETE. It completes once the queue pair is removed (`settle`). -/
def execQueueDelete (tag : Tag) (s : State) : Host.Outcome State Fault Refusal :=
  .next (s.runOp tag 0x42 (fun _ => true) (fun c =>
    let q : Qid := Fin.ofNat 8 (dbits c.desc.aux0 2 0)
    if q = 0 || !(s.tnt[c.tenant].qp q).enabled then s.finish tag 0x03 0 0
    else ((s.drainQp c.tenant q (c.desc.aux0.getLsbD 8)).removeDrained c.tenant q).updCmd tag (fun x => { x with phase := .waiting })))

/-! ## FEATURE (R520) -/

/-- The tenant a HOLD_MINUTES selector names; none when it is above 63 or bound to nothing. -/
def State.holdTarget (s : State) (c : Cmd) : Option Tid :=
  if c.tenant ≠ 0 then some c.tenant
  else
    let k := dbits c.desc.aux1 15 8
    if h : k < 64 then (if s.tnt[(⟨k, h⟩ : Fin 64)].binding = 0 then none else some ⟨k, h⟩) else none

/-- FEATURE 0x01 without SET. -/
def execFeatureHoldMinutesGet (tag : Tag) (s : State) : Host.Outcome State Fault Refusal :=
  .next (s.runOp tag 0x45 (fun d => d.sel = 1 && !d.setBit) (fun c =>
    match s.holdTarget c with
    | none => s.finish tag 0x03 0 0
    | some t => s.finish tag 0 0 (res s.tnt[t].holdMin)))

/-- T0 sets HOLD_MINUTES of a tenant: in force at once, kept under the policy SEQUENCE in use (R181). -/
def State.setHold (s : State) (t : Tid) (v : Nat) : State :=
  let seq := match s.boot.policy with | some p => p.seq | none => 0
  let s1 := s.updTnt t (fun x => { x with holdMin := v })
  { s1 with nvm := { s1.nvm with holdMin := s1.nvm.holdMin.put t.1 (v, seq) } }

/-- FEATURE 0x01 with SET. -/
def execFeatureHoldMinutesSet (tag : Tag) (s : State) : Host.Outcome State Fault Refusal :=
  .next (s.runOp tag 0x45 (fun d => d.sel = 1 && d.setBit) (fun c =>
    match s.holdTarget c with
    | none => s.finish tag 0x03 0 0
    | some t =>
      let v := dbits c.desc.aux1 7 0
      if 60 < v then s.finish tag 0x03 0 0 else (s.setHold t v).finish tag 0 0 0))

/-- Minutes the host item has left; 0xFF until replaced (12 R390, R393). -/
def State.hostLife (s : State) : Nat :=
  match s.disp.host with
  | none => 0
  | some _ => if s.disp.life = 0 then 0xFF else s.disp.life - (s.now - s.disp.hostAt) / 60000000

/-- FEATURE 0x02 without SET: the 40 characters, spaces when there is no host item (log entry 72). -/
def execFeatureDisplayItemGet (tag : Tag) (s : State) : Host.Outcome State Fault Refusal :=
  .next (s.runOp tag 0x45 (fun d => d.sel = 2 && !d.setBit) (fun c =>
    (s.sendData c 0 (s.disp.host.getD (List.replicate 40 0x20)) false).finish tag 0 0 (res s.hostLife)))

/-- FEATURE 0x02 with SET (12 R390). -/
def execFeatureDisplayItemSet (tag : Tag) (s : State) : Host.Outcome State Fault Refusal :=
  .next (s.runOp tag 0x45 (fun d => d.sel = 2 && d.setBit) (fun c =>
    if !s.hasFeat c.tenant 8 || c.bytes.any (fun b => b.toNat < 0x20 || 0x7E < b.toNat) then s.finish tag 0x02 0x01 0
    else ({ s with disp := { s.disp with host := some c.bytes, life := dbits c.desc.aux1 7 0, hostAt := s.now } } : State).finish tag 0 0 0))

/-- FEATURE 0x03. -/
def execFeatureBudgetGet (tag : Tag) (s : State) : Host.Outcome State Fault Refusal :=
  .next (s.runOp tag 0x45 (fun d => d.sel = 3) (fun c =>
    s.finish tag 0 0 (res (s.budget % 2 ^ 20 + s.dirtyHeld c.tenant * 2 ^ 32))))

/-! ## LOG_READ (11 R369, R370) -/

/-- Every record the device holds, the AON buffer's included, in rising SEQ. -/
def State.allRecords (s : State) : List EvRec := s.nvm.permanent ++ s.nvm.circ ++ s.aon.evBuf.map (fun b => b.ev)

/-- Records from a SEQ on that a tenant may read. -/
def State.recordsFor (s : State) (t : Tid) (from_ : Nat) : List EvRec :=
  s.allRecords.filter (fun r => decide (from_ ≤ r.seq) && (t = 0 || r.tenant = tidByte t))

/-- LOG_READ with log 0x01. -/
def execLogReadEventRecords (tag : Tag) (s : State) : Host.Outcome State Fault Refusal :=
  .next (s.runOp tag 0x46 (fun d => d.sel = 1) (fun c =>
    let from_ := c.desc.aux1.toNat
    if s.aon.nextSeq ≤ from_ then s.finish tag 0x03 0 0
    else
      let l := (s.recordsFor c.tenant from_).take (c.desc.len.toNat / 64)
      (s.sendData c 0 (l.flatMap EvRec.bytes) false).finish tag 0 0 (res l.length)))

/-- LOG_READ with log 0x02. -/
def execLogReadZoneResetLog (tag : Tag) (s : State) : Host.Outcome State Fault Refusal :=
  .next (s.runOp tag 0x46 (fun d => d.sel = 2) (fun c =>
    let from_ := c.desc.aux1.toNat
    if s.nvm.zresetNext ≤ from_ then s.finish tag 0x03 0 0
    else
      let l := (s.nvm.zresets.filter (fun r => decide (from_ ≤ r.seq) && (c.tenant = 0 || r.tenant = c.tenant))).take (c.desc.len.toNat / 64)
      (s.sendData c 0 (l.flatMap ZReset.bytes) false).finish tag 0 0 (res l.length)))

/-! ## Staging (04 R104 to R107) -/

/-- The conditions of the table "Update refusal reasons", as a mask of codes 1 to 4. -/
def State.refusalMask (s : State) : Nat :=
  let vsup := match s.boot.desc with | some d => decide (s.hkp.reads[5] < (d.vsupUpd : Int)) | none => false
  (if s.gpio.motion ≠ .stationary then 1 else 0) + (if vsup then 2 else 0) +
    (if s.pwr.hold ≠ .good && s.dev.level ≠ .recovery then 4 else 0) + (if s.nvm.updLock then 8 else 0)

/-- The lowest code of a mask. -/
def lowestCode (m : Nat) : Nat := if m % 2 = 1 then 1 else if m % 4 ≥ 2 then 2 else if m % 8 ≥ 4 then 3 else 4

/-- IMAGE_STAGE and IMAGE_COMMIT first meet the throttle (15 R479) and the refusals; the rest runs only past both. -/
def State.updateGate (s : State) (tag : Tag) (c : Cmd) (act : State) : State :=
  let m := s.refusalMask
  if 6 ≤ s.thr.level.1 then s.finish tag 0x11 0 0
  else if m ≠ 0 then
    let w := fieldW (lowestCode m) 0 ||| fieldW c.desc.opc.toNat 8 ||| fieldW m 16
    ({ s with upd := { s.upd with lastRefusal := w } } : State).finish tag 0x0D (BitVec.ofNat 8 (lowestCode m)) 0
  else act

/-- Where a target lies in the NOR and how long it is. -/
def State.targetArea (s : State) (target : Nat) (slotB : Bool) : Nat × Nat :=
  match target with
  | 0 => (slotBase slotB, 0x700000)
  | 1 => (descBase (1 - s.boot.descCopy), 4096)
  | _ => (policyBase (1 - s.boot.polCopy), 65536)

/-- A session opens at offset 0: an open one is abandoned with its record (log entry 74), an inactive slot that is ARMED is no
longer so, and the target is erased. -/
def State.openSession (s : State) (target : Nat) : State :=
  let slotB := !s.ctlRec.active
  let s1 := match s.nvm.stage_ with
    | some g => s.record (bitCode pUPD 1) 1 noTenant
        (leBytes 4 s.hdr[pUPD].intStatus.toNat ++ [BitVec.ofNat 8 g.target, BitVec.ofNat 8 target, 0, 0] ++ leBytes 4 g.offset)
    | none => s
  let s2 := if target = 0 && s1.ctlRec.armed = some slotB then s1.writeRec { s1.ctlRec with armed := none } else s1
  let a := s2.targetArea target slotB
  let s3 := s2.norWrite a.1 a.2 []
  { s3 with nvm := { s3.nvm with stage_ := some { target := target, slotB := slotB, offset := 0, head := [] } } }

/-- Write a range of the open session's target; the first 4 bytes of the target stay erased. -/
def State.stageWrite (s : State) (g : StageS) (off : Nat) (b : List Byte) : State :=
  let base := (s.targetArea g.target g.slotB).1
  let nor := if off = 0 then s.nvm.nor.setList (base + 4) (b.drop 4) else s.nvm.nor.setList (base + off) b
  ({ s with nvm := { s.nvm with nor := nor, stage_ := some { g with
      offset := off + b.length, head := if off = 0 then b.take 4 else g.head } } } : State).raise pUPD 1

/-- IMAGE_STAGE (R104). A range past the target's end completes with ST_BAD_FIELD 0x05 (log entry 75). -/
def execImageStage (tag : Tag) (s : State) : Host.Outcome State Fault Refusal :=
  .next (s.runOp tag 0x49 (fun _ => true) (fun c =>
    let target := c.desc.sel
    let off := c.desc.aux1.toNat
    s.updateGate tag c (
      if off = 0 then
        if (s.targetArea target false).2 < c.desc.len.toNat then s.finish tag 0x02 0x05 0
        else
          let s1 := s.openSession target
          match s1.nvm.stage_ with
          | some g => (s1.stageWrite g 0 c.bytes).finish tag 0 0 0
          | none => s1
      else match s.nvm.stage_ with
        | some g =>
          if g.target ≠ target || off ≠ g.offset || off % 256 ≠ 0 ||
              decide ((s.targetArea target g.slotB).2 < off + c.desc.len.toNat) then s.finish tag 0x02 0x05 0
          else (s.stageWrite g off c.bytes).finish tag 0 0 0
        | none => s.finish tag 0x02 0x05 0)))

/-- How a commit fails (R105); the result codes are log entry 76. -/
def State.commitFault (s : State) (target : Nat) (g : StageS) : Option Byte :=
  let base := (s.targetArea g.target g.slotB).1
  let seq := fieldLe (s.norAt base 16) 0x0C 4
  if g.target ≠ target then some 0x05
  else match target with
    | 0 =>
      let h := s.norAt base 256
      if g.offset ≠ 256 + fieldLe h 0x14 4 + fieldLe h 0x18 4 then some 0x02 else none
    | 1 => if g.offset ≠ 4096 then some 0x02
           else match s.boot.desc with | some d => if seq ≤ d.seq then some 0x01 else none | none => none
    | _ => if g.offset ≠ 65536 then some 0x02
           else match s.boot.policy with | some p => if seq ≤ p.seq then some 0x01 else none | none => none

/-- IMAGE_COMMIT (R105): the first 4 bytes, and for a slot a record that arms it. -/
def execImageCommit (tag : Tag) (s : State) : Host.Outcome State Fault Refusal :=
  .next (s.runOp tag 0x4A (fun _ => true) (fun c =>
    s.updateGate tag c (
      match s.nvm.stage_ with
      | none => s.finish tag 0x02 0x05 0
      | some g =>
        match s.commitFault c.desc.sel g with
        | some rc => s.finish tag 0x02 rc 0
        | none =>
          let base := (s.targetArea g.target g.slotB).1
          let s1 : State := { s with nvm := { s.nvm with nor := s.nvm.nor.setList base g.head, stage_ := none } }
          let s2 := if g.target = 0 then s1.writeRec { s1.ctlRec with armed := some g.slotB } else s1
          s2.finish tag 0 0 0)))

/-! ## The owner (07 R212, R213, R225) -/

/-- Run an owner operation on its public key and signature fields, which must be 0 where the operation does not use them; a key
field that is used holds a P-256 public key. -/
def State.ownerOp (s : State) (tag : Tag) (op : Nat) (useKey useSig : Bool) (act : Cmd → List Byte → List Byte → State) : State :=
  s.runOp tag 0x4B (fun d => d.sel = op) (fun c =>
    let key := slice c.bytes 0 64
    let sig := slice c.bytes 64 64
    if (!useKey && !allZero key) || (!useSig && !allZero sig) || (useKey && !Config.validPoint (wideOf key)) then s.finish tag 0x02 0x01 0
    else act c key sig)

/-- The owner record and lock go to the partner at each change (14 R461). -/
def State.ownerChanged (s : State) (b : Nat) : State :=
  (s.raise pOWN b).mirDeviceItem 8 ((s.nvm.ownerSlots.flatMap hashBytes) ++ [if s.nvm.updLock then 1 else 0])

/-- Program a key's hash into the next owner slot. -/
def State.programOwner (s : State) (key : List Byte) : State :=
  ({ s with nvm := { s.nvm with ownerSlots := s.nvm.ownerSlots ++ [Config.sha256 key], ownerKey := wideOf key } } : State).ownerChanged 0

/-- OWNER_AUTH GET_CHALLENGE: a fresh challenge replaces the live one. Without the DRBG it waits (log entry 73). -/
def execGetChallenge (tag : Tag) (s : State) : Host.Outcome State Fault Refusal :=
  .next (s.ownerOp tag 0 false false (fun c _ _ =>
    match s.drbg with
    | none => s
    | some (v, s1) =>
      let q : QWord := v.setWidth 128
      let s2 : State := { s1 with own := { s1.own with challenge := some (q, s1.now) } }
      (s2.sendPlain c c.desc.daddr (tagBytes q)).finish tag 0 0 0))

/-- ENROL. -/
def execEnrol (tag : Tag) (s : State) : Host.Outcome State Fault Refusal :=
  .next (s.ownerOp tag 1 true false (fun _ key _ =>
    if s.nvm.ownerSlots ≠ [] then s.finish tag 0x0D 0x22 0 else (s.programOwner key).finish tag 0 0 0))

/-- The update lock set or cleared; LOCK_CHANGE sets when it changes. -/
def State.setLock (s : State) (b : Bool) : State :=
  if s.nvm.updLock = b then s else ({ s with nvm := { s.nvm with updLock := b } } : State).ownerChanged 1

/-- LOCK_UPDATES. -/
def execLockUpdates (tag : Tag) (s : State) : Host.Outcome State Fault Refusal :=
  .next (s.ownerOp tag 2 false true (fun _ _ sig => s.ownerSigned tag 2 [] sig (fun s1 => (s1.setLock true).finish tag 0 0 0)))

/-- UNLOCK_UPDATES. -/
def execUnlockUpdates (tag : Tag) (s : State) : Host.Outcome State Fault Refusal :=
  .next (s.ownerOp tag 3 false true (fun _ _ sig => s.ownerSigned tag 3 [] sig (fun s1 => (s1.setLock false).finish tag 0 0 0)))

/-- TRANSFER: with all 8 slots programmed it is refused before the challenge is asked for. -/
def execTransfer (tag : Tag) (s : State) : Host.Outcome State Fault Refusal :=
  .next (s.ownerOp tag 4 true true (fun _ key sig =>
    if s.nvm.ownerSlots = [] then s.finish tag 0x0D 0x20 0
    else if 8 ≤ s.nvm.ownerSlots.length then s.finish tag 0x0D 0x21 0
    else s.ownerSigned tag 4 (hashBytes (Config.sha256 key)) sig (fun s1 => (s1.programOwner key).finish tag 0 0 0)))

/-- CHALLENGE_LAPSE: 10 minutes after issue (R213). -/
def execChallengeLapse (s : State) : Host.Outcome State Fault Refusal :=
  match s.own.challenge with
  | some (_, at_) => .next (if at_ + 600000000 ≤ s.now then s.dropChallenge else s)
  | none => .next s

end Sys2Proof.Machine
end

