-- ==== Sys2Proof/Machine/Pair.lean ====
section
/-!
DEFINITION. When a mirror pair forms, and the leeward's checkpoints (14 R459, R460, R468).
-/
namespace Sys2Proof.Machine

/-- The stored advertisement of a live, addressed node. -/
def State.advOf (s : State) (addr : BitVec 16) : Option Adv := s.vfr.advs.find? (fun a => a.addr = addr && !a.unaddr)

/-- Why no pair forms: the reason codes of MIR_STATUS (R459, R472); 0 when one does. -/
def State.pairReason (s : State) : BitVec 3 :=
  if !s.addressed then 4#3
  else match s.advOf s.partner with
    | none => 1#3
    | some a =>
      if a.role ≠ (if s.windward then 2#2 else 1#2) then 2#3
      else if a.partner ≠ s.ownAddr then 3#3
      else 0#3

/-- UNPAIRED, its bit, and its warning record once per start (R459). -/
def State.unpair (s : State) (reason : BitVec 3) : State :=
  let s1 : State := { s with mir := { s.mir with st := .unpaired, reason := reason, warned := true, backlog := [],
                                                 synced := Vector.replicate 64 false } }
  if s.mir.warned then s1.raise pMIR 4 else s1.raiseRecStatus pMIR 4 2 noTenant

/-- H(0) of a tenant's chain on a device (08 R253). -/
def genesisOf (serial : QWord) (t : Tid) : Hash := Config.sha256 (ascii "KL4064CHAIN" ++ serialBytes serial ++ [tidByte t])

/-- Insert by falling index. -/
def insertFalling (x : Nat × Hash) : List (Nat × Hash) → List (Nat × Hash)
  | [] => [x]
  | y :: r => if y.1 < x.1 then x :: y :: r else y :: insertFalling x r

/-- A tenant's checkpoints: the last entry of each of its 16 newest replica zones, or index 0 with H(0) of the windward (R468). -/
def State.checkpoints (s : State) (t : Tid) : List (Nat × Hash) :=
  let l := (s.nvm.zones.filterMap (fun p =>
    if p.2.owner = t && p.2.replica then p.2.log.getLast?.map (fun e => (e.index, e.head)) else none)).foldl
      (fun a x => insertFalling x a) []
  match l with
  | [] => [(0, genesisOf ((s.advOf s.partner).map (fun a => a.serial) |>.getD 0) t)]
  | _ => l.take 16

/-- The payload of MIR_SYNC_REQ (log entry 64). -/
def State.syncReqPayload (s : State) : List Byte :=
  (allTids.filter s.mirrored).flatMap (fun t =>
    (s.checkpoints t).flatMap (fun c => [tidByte t] ++ leBytes 8 c.1 ++ hashBytes c.2))

/-- RESYNC begins; the leeward asks (R460, R468). -/
def State.enterResync (s : State) : State :=
  let s1 : State := { s with mir := { s.mir with st := .resync, reason := 0, lastRx := s.now, backlog := [],
                                                 evSent := s.aon.nextSeq,
                                                 synced := Vector.replicate 64 false } }
  if s.leeward then s1.sendLong (s1.newPkt 0x25 0 s.partner noTenant 0 s1.syncReqPayload) else s1

/-- The pair judged after a change of advertisements or of the own address. A pair that has formed ends in UNPAIRED only when its
conditions fail while the partner is still seen. -/
def State.pairCheck (s : State) : State :=
  if !(s.windward || s.leeward) || s.dev.level ≠ .full then s
  else
    let r := s.pairReason
    if s.mir.st = .off || s.mir.st = .unpaired then
      if r = 0 then s.enterResync
      else if s.mir.st = .off || s.mir.reason ≠ r then s.unpair r else s
    else if r = 0 || r = 1 then s
    else s.unpair r

end Sys2Proof.Machine
end

