-- ==== Sys2Proof/Machine/Meter.lean ====
section
/-!
DEFINITION. UTC and TIME_SET, the load profile, tariff accumulators, signed readings, and the status display (12).
-/
namespace Sys2Proof.Machine

/-! ## Occupancy and bands (R377, R381) -/

/-- KiB of a tenant in a retention class. -/
def State.occupancy (s : State) (t : Tid) (cls : Nat) : Nat :=
  let zones (p : Zone → Bool) : Nat := s.nvm.zones.foldl (fun a e => if e.2.owner = t && p e.2 then a + 4 * e.2.wp else a) 0
  match cls with
  | 0 => 4 * (s.nvm.conv.filter (fun e => e.1 / 2 ^ 48 = t.1)).length
  | 1 => zones (fun z => z.st = .full || (z.st = .open_ && !z.holdPending))
  | 2 => zones (fun z => z.st = .held || z.holdPending)
  | _ => zones (fun z => z.st = .sealed)

/-- The band of an interval from the UTC of its start; 1970-01-01 was a Thursday. -/
def bandOf (m : List Byte) (utc : Nat) : Nat :=
  let b (i : Nat) : Nat := (m.getD i 0).toNat
  let day := (utc / 86400 + 4) % 7
  if (day = 0 || day = 6) && b 0x18 ≠ 0xFF then b 0x18 else b (utc / 3600 % 24)

/-- The tariff of a class and band: the first entry that matches, else 0. -/
def tariffOf (m : List Byte) (cls band : Nat) : Nat :=
  let b (i : Nat) : Nat := (m.getD i 0).toNat
  match (List.range 8).find? (fun k => b (0x20 + 4 * k) = cls && (b (0x21 + 4 * k) = band || b (0x21 + 4 * k) = 0xFF) && b (0x23 + 4 * k) = 1) with
  | some k => b (0x22 + 4 * k) % 8
  | none => 0

/-- The METERING field in use. -/
def State.metering (s : State) : List Byte := match s.boot.policy with | some p => p.metering | none => []

/-- The band of the open interval; band 0 in state NONE. -/
def State.band (s : State) : Nat := if s.mtr.utcState = .none then 0 else bandOf s.metering s.mtr.start

/-! ## Load profile (R378 to R380) -/

/-- The 64 bytes of a load-profile record. -/
def ProfRec.bytes64 (r : ProfRec) : List Byte :=
  let body := leBytes 8 r.start.toNat ++ leBytes 4 r.opTime.toNat ++ leBytes 4 r.cycles.toNat ++
    r.bytes.toList.flatMap (fun n => leBytes 5 n) ++ leBytes 4 r.held ++ leBytes 4 r.sealed ++
    [BitVec.ofInt 8 (r.tmax / 4), BitVec.ofNat 8 (min r.starts 15 + 16 * min r.squalls 15)] ++ leBytes 2 r.flags.toNat ++
    leBytes 8 r.seq ++ zeroBytes 4
  body ++ leBytes 4 (Config.crc32c body).toNat

/-- Put a record into the profile; the 38,400 newest stay (R379). -/
def State.addProfile (s : State) (r : ProfRec) : State :=
  let l := s.nvm.profile ++ [{ r with seq := s.nvm.profNext }]
  { s with nvm := { s.nvm with profile := keepNewest 38400 l, profNext := s.nvm.profNext + 1 } }

/-- The hottest reading of the last round, in 0.25 °C (15 R475). -/
def State.dieMax (s : State) : Int := s.thr.hot

/-- What intervals are timed by: UTC, or operating seconds in state NONE. -/
def State.intervalClock (s : State) : Nat := if s.mtr.utcState = .none then s.opSecs else s.utc

/-- The counts of an interval begin. -/
def State.clearCounts (s : State) : State :=
  { s with mtr := { s.mtr with
    bytes := Vector.replicate 4 0, tmax := s.dieMax, starts := 0, squalls := 0, flags := if 0 < s.thr.level.1 then 0x20#16 else 0#16 } }

/-- A new interval begins at a clock value's quarter-hour. -/
def State.openInterval (s : State) (at_ : Nat) : State :=
  let s1 := s.clearCounts
  { s1 with mtr := { s1.mtr with start := at_ / 900 * 900, next := at_ / 900 * 900 + 900, minute := at_ / 60 } }

/-- The record of the open interval, were it to end now. -/
def State.intervalRecord (s : State) : ProfRec :=
  { seq := 0, start := BitVec.ofNat 64 s.mtr.start, opTime := s.opTime, cycles := BitVec.ofNat 32 s.cycleCount, bytes := s.mtr.bytes,
    held := s.nvm.zones.countv (fun z => z.st = .held || z.holdPending), sealed := s.nvm.zones.countv (fun z => z.st = .sealed),
    tmax := s.mtr.tmax, starts := s.mtr.starts, squalls := s.mtr.squalls,
    flags := s.mtr.flags ||| (if s.untrusted then 2#16 else 0#16) ||| (if s.mtr.utcState = .none then 4#16 else 0#16) }

/-- The record of the interval that ends is written. -/
def State.closeInterval (s : State) : State := s.addProfile s.intervalRecord

/-- An ABSENT record of a skipped quarter-hour. -/
def State.absentRecord (s : State) (start : Nat) : State :=
  s.addProfile
    { seq := 0, start := BitVec.ofNat 64 start, opTime := s.opTime, cycles := BitVec.ofNat 32 s.cycleCount, bytes := Vector.replicate 4 0,
      held := 0, sealed := 0, tmax := 0, starts := 0, squalls := 0, flags := 1#16 ||| (if s.untrusted then 2#16 else 0#16) }

/-! ## The quarter-hour boundary (R382 to R384) -/

/-- What the end of the boundary's round settles: each staging sum goes to its tariff's accumulator, the profile record is
written and the checkpoint is taken. -/
def State.settleBoundary (s : State) : State :=
  if !s.mtr.pendingOn then s
  else
    let m := s.metering
    let b := s.band
    let add (t q : Nat) : Nat := (List.range 4).foldl (fun a k =>
      if tariffOf m k b = q then a + s.mtr.staging.toList.getD (4 * t + k) 0 else a) 0
    let accs := Vector.ofFn (fun k : Fin 512 => s.nvm.accs[k] + add (k.1 / 8) (k.1 % 8))
    let s1 := match s.mtr.closing with | some r => s.addProfile r | none => s
    { s1 with
      nvm := { s1.nvm with accs := accs, ckptAccs := accs, ckptTotal := s1.nvm.total, utcStored := s1.utc },
      mtr := { s1.mtr with staging := Vector.replicate 256 0, pending := 0, pendingOn := false, closing := none,
                           start := s1.intervalClock / 900 * 900 } }

/-- The end of the boundary's round: INTERVAL_DONE, and the partner gets the accumulators and the total (14 R461). -/
def State.endBoundary (s : State) : State :=
  if !s.mtr.pendingOn then s
  else
    let s1 := s.settleBoundary.raise pMTR 1
    if s1.windward && s1.paired then
      s1.mirSend 0x23 1 0 ([7] ++ s1.nvm.accs.toList.flatMap (fun n => leBytes 8 n) ++ leBytes 8 s1.nvm.total)
    else s1

/-- The boundary: MTR_TOTAL first rises by the interval's total, which is then pending; the interval's record stands as it is
now, and the counts of the next interval begin. -/
def State.startBoundary (s : State) : State :=
  let n := s.mtr.staging.toList.foldl (· + ·) 0
  let s1 := s.clearCounts
  { s1 with
    nvm := { s1.nvm with total := s1.nvm.total + n },
    mtr := { s1.mtr with pending := n, pendingOn := true, closing := some s.intervalRecord, next := s.intervalClock / 900 * 900 + 900 } }

/-- QUARTER_HOUR_BOUNDARY, once the open interval's quarter-hour is over: it ends a round that still runs and begins its own, which the next
housekeeping round ends. During Squall it is left to the next start (edge case). -/
def execQuarterHourBoundary (s : State) : Host.Outcome State Fault Refusal :=
  .next (if s.serving && decide (s.mtr.next ≤ s.intervalClock) then s.endBoundary.startBoundary else s)

/-- METER_MINUTE_SAMPLE (R382), once in each whole minute. A round of a boundary that still runs ends first, so that its staging sums are those that
MTR_TOTAL rose by. -/
def execMeterMinuteSample (s : State) : Host.Outcome State Fault Refusal :=
  .next (if s.serving && decide (s.intervalClock / 60 ≠ s.mtr.minute) then
    let s1 := s.endBoundary
    { s1 with mtr := { s1.mtr with minute := s.intervalClock / 60, staging := Vector.ofFn (fun k : Fin 256 =>
        s1.mtr.staging[k] + s1.occupancy (Fin.ofNat 64 (k.1 / 4)) (k.1 % 4)) } }
  else s)

/-! ## UTC (R373 to R376) -/

/-- Set UTC: TIME_SET, and beyond 900 s TIME_STEP with its records. From NONE there is no UTC to step from (log entry 77). -/
def State.setUtc (s : State) (v : Nat) (st : UtcState) : State :=
  let old := s.utc
  let put (a : State) : State :=
    ({ a with mtr := { a.mtr with utcState := st, utcBase := v, utcAt := a.now, next := v / 900 * 900 + 900, minute := v / 60,
                                  signedAt := if st = .signed then a.opSecs else a.mtr.signedAt },
              nvm := { a.nvm with timeSetEver := true } } : State).raise pMTR 2
  if s.mtr.utcState = .none then
    let s1 := put s
    s1.openInterval v
  else if v ≤ old + 900 && old ≤ v + 900 then put s
  else
    let s1 : State := ({ s with mtr := { s.mtr with flags := s.mtr.flags ||| 8#16 } } : State).raise pMTR 3
    if old < v then
      let first := old / 900 + 1
      let n := v / 900 - first
      (List.range (min n 38400)).foldl (fun a k => a.absentRecord (900 * (first + k + (n - min n 38400)))) (put s1)
    else (put s1.closeInterval).openInterval v

/-- SIGNED lapses to HOST (R374). -/
def execSignedLapse (s : State) : Host.Outcome State Fault Refusal :=
  .next (if s.mtr.utcState = .signed && decide (s.mtr.signedAt + 86400 ≤ s.opSecs) then
    { s with mtr := { s.mtr with utcState := .host } } else s)

/-- The live nonce. -/
def State.liveNonce (s : State) : Option QWord :=
  match s.mtr.nonce with
  | some (q, at_) => if s.now < at_ + 600000000 then some q else none
  | none => none

/-- NONCE_LAPSE: 10 minutes after issue (R376). -/
def execNonceLapse (s : State) : Host.Outcome State Fault Refusal :=
  match s.mtr.nonce with
  | some (_, at_) => .next (if at_ + 600000000 ≤ s.now then { s with mtr := { s.mtr with nonce := none } } else s)
  | none => .next s

/-- TIME_SET GET_NONCE. -/
def execGetNonce (tag : Tag) (s : State) : Host.Outcome State Fault Refusal :=
  .next (s.runOp tag 0x48 (fun d => d.sel = 0) (fun c =>
    match s.drbg with
    | none => s
    | some (v, s1) =>
      let q : QWord := v.setWidth 128
      let s2 : State := { s1 with mtr := { s1.mtr with nonce := some (q, s1.now) } }
      (s2.sendData c 0 (tagBytes q) false).finish tag 0 0 0))

/-- TIME_SET SET_HOST; it takes effect after a boundary's round (edge case). -/
def execSetHost (tag : Tag) (s : State) : Host.Outcome State Fault Refusal :=
  .next (s.runOp tag 0x48 (fun d => d.sel = 1) (fun c =>
    if s.mtr.pendingOn then s
    else if c.desc.aux1.toNat < 1577836800 then s.finish tag 0x03 0 0
    else (s.setUtc c.desc.aux1.toNat .host).finish tag 0 0 0))

/-- A time token is valid for the live nonce (R376). -/
def State.tokenOk (s : State) (b : List Byte) (nonce : QWord) : Bool :=
  match s.boot.desc with
  | none => false
  | some d =>
    slice b 0 8 = ascii "KL4064TM" && slice b 8 16 = serialBytes Config.serial && slice b 0x18 16 = tagBytes nonce &&
      allZero (slice b 0x30 16) && Config.sha256 (slice b 0x40 64) = d.fleetHash &&
      Config.ecdsaVerify (wideOf (slice b 0x40 64)) (slice b 0 0x80) (wideOf (slice b 0x80 64))

/-- TIME_SET SET_SIGNED (R376, 15 R493). -/
def execSetSigned (tag : Tag) (s : State) : Host.Outcome State Fault Refusal :=
  .next (s.runOp tag 0x48 (fun d => d.sel = 2) (fun c =>
    if s.mtr.pendingOn then s
    else if s.sign.blocked then s.finish tag 0x0D 0x30 0
    else match s.liveNonce with
      | none => s.finish tag 0x0D 0x23 0
      | some q =>
        let s1 : State := { s with mtr := { s.mtr with nonce := none } }
        let v := fieldLe c.bytes 0x28 8
        if !s.tokenOk c.bytes q then s1.finish tag 0x0A 0 0
        else if v < 1577836800 then s1.finish tag 0x03 0 0
        else (s1.setUtc v .signed).finish tag 0 0 0))

/-! ## Signed readings (R385, R386) -/

/-- MTR_STATUS.UTC_STATE codes. -/
def UtcState.code : UtcState → Nat
  | .none => 0 | .carried => 1 | .host => 2 | .signed => 3

/-- Bytes 0x00 to 0x4F + CONTENT_LEN of a reading. -/
def State.readingBody (s : State) (kind tenant : Byte) (nonce content : List Byte) : List Byte :=
  let seq := match s.boot.policy with | some p => p.seq | none => 0
  leBytes 4 0x524D4C4B ++ leBytes 2 1 ++ [kind, tenant] ++ serialBytes Config.serial ++ padTo 16 nonce ++ leBytes 4 s.opTime.toNat ++
    leBytes 4 s.cycleCount ++ leBytes 8 s.utc ++
    [BitVec.ofNat 8 ((if s.untrusted then 1 else 0) + (if s.mtr.restored then 2 else 0)), BitVec.ofNat 8 s.mtr.utcState.code, 0, 0] ++
    leBytes 4 seq ++ leBytes 4 content.length ++ zeroBytes 12 ++ content

/-- A reading with its signature. -/
def State.reading (s : State) (key : Hash) (kind tenant : Byte) (nonce content : List Byte) : List Byte :=
  let b := s.readingBody kind tenant nonce content
  b ++ wideBytes (Config.ecdsaSign key b)

/-- Accumulators of a tenant, tariff 0 first. -/
def State.tenantAccs (s : State) (t : Nat) : List Byte :=
  (List.range 8).flatMap (fun q => leBytes 8 (s.nvm.accs.toList.getD (8 * t + q) 0))

/-- A reading asked for over I²C is written once no boundary's round runs (13 R411). Without an identity key it is refused (log entry 127). -/
def State.meterServe (s : State) : State :=
  match s.i2ct.meterReq with
  | none => s
  | some (t, nonce) =>
    if s.mtr.pendingOn then s
    else match s.sign.identity with
      | none => { s with i2ct := { s.i2ct with meterReq := none, meterSt := 3#2 } }
      | some k => { s with i2ct := { s.i2ct with
          meterReq := none, meterSt := 2#2, meter := s.reading k 1 (tidByte t) (tagBytes nonce) (s.tenantAccs t.1) } }

/-- METER_READ of one kind: who may read it, its content for a length, its tenant byte. It waits out a boundary's round. -/
def State.meterRead (s : State) (tag : Tag) (c : Cmd) (allowed : Bool) (tenant : Byte) (content : Nat → List Byte) : State :=
  if s.mtr.pendingOn then s
  else if !allowed then s.finish tag 0x0D 0x11 0
  else
    let body := content (c.desc.len.toNat - 144)
    if c.desc.len.toNat < 144 + body.length then s.finish tag 0x02 0x02 0
    else match s.sign.identity with
      | none => s.finish tag 0x0D 0x30 0
      | some k => (s.sendData c 0 (s.reading k (BitVec.ofNat 8 c.desc.sel) tenant c.hdrBytes body) false).finish tag 0 0 0

/-- METER_READ kind 0x01, and any kind outside the table, which no one may read. -/
def execMeterReadTenant (tag : Tag) (s : State) : Host.Outcome State Fault Refusal :=
  .next (s.runOp tag 0x47 (fun d => d.sel ≠ 2 && d.sel ≠ 3) (fun c =>
    let t := dbits c.desc.aux0 15 8
    s.meterRead tag c (c.desc.sel = 1 && decide (t < 64) && (c.tenant = 0 || t = c.tenant.1)) (BitVec.ofNat 8 t) (fun _ => s.tenantAccs t)))

/-- METER_READ kind 0x02. -/
def execMeterReadAll (tag : Tag) (s : State) : Host.Outcome State Fault Refusal :=
  .next (s.runOp tag 0x47 (fun d => d.sel = 2) (fun c =>
    s.meterRead tag c (c.tenant = 0) noTenant (fun _ => (List.range 64).flatMap s.tenantAccs ++ leBytes 8 s.nvm.total)))

/-- METER_READ kind 0x03: profile records from AUX1 on, as many as fit, up to 1,024. -/
def execMeterReadLoadProfile (tag : Tag) (s : State) : Host.Outcome State Fault Refusal :=
  .next (s.runOp tag 0x47 (fun d => d.sel = 3) (fun c =>
    s.meterRead tag c (c.tenant = 0) noTenant (fun n =>
      ((s.nvm.profile.filter (fun r => decide (c.desc.aux1.toNat ≤ r.seq))).take (min 1024 (n / 64))).flatMap ProfRec.bytes64)))

/-! ## Start and Squall (R373, R374, R380, R384) -/

/-- The meter of a start: UTC carried from the stored value when TIME_SET ever succeeded; the accumulators and MTR_TOTAL of the
last checkpoint; the open interval saved at Squall step 8, where there is one. The interval of the Squall and that of the start
are PARTIAL; where a boundary lies between them, it is processed now (edge case). -/
def State.meterStart (s : State) (first : Bool) : State :=
  let st : UtcState := if s.nvm.timeSetEver then .carried else .none
  let s1 : State := { s with
    mtr := { s.mtr with utcState := st, utcBase := s.nvm.utcStored, utcAt := s.now, pending := 0, pendingOn := false, closing := none },
    nvm := { s.nvm with accs := s.nvm.ckptAccs, total := s.nvm.ckptTotal } }
  match s.nvm.openInt with
  | some m =>
    let s2 : State := { s1 with
      mtr := { s1.mtr with staging := m.staging, bytes := m.bytes, tmax := m.tmax, starts := m.starts, squalls := m.squalls + 1,
                           flags := m.flags ||| 16#16, start := m.start, next := m.start + 900,
                           minute := s1.intervalClock / 60 },
      nvm := { s1.nvm with openInt := none } }
    let s3 := if m.start + 900 ≤ s1.intervalClock then s2.startBoundary else s2
    { s3 with mtr := { s3.mtr with starts := s3.mtr.starts + 1, flags := s3.mtr.flags ||| 16#16 } }
  | none =>
    let s3 := s1.openInterval s1.intervalClock
    { s3 with mtr := { s3.mtr with starts := 1, restored := !first, flags := s3.mtr.flags ||| 16#16 } }

/-- What Squall step 8 saves of the meter; a boundary's round that still runs is settled first. -/
def State.meterSave (s : State) : State :=
  let s1 := s.settleBoundary
  { s1 with nvm := { s1.nvm with
    utcStored := s1.utc,
    openInt := some { staging := s1.mtr.staging, bytes := s1.mtr.bytes, tmax := s1.mtr.tmax, starts := s1.mtr.starts,
                      squalls := s1.mtr.squalls, flags := s1.mtr.flags, start := s1.mtr.start } } }

/-! ## The display (R387 to R391) -/

/-- Two hexadecimal digits. -/
def hexByte (b : Byte) : List Byte :=
  let d (n : Nat) : Byte := BitVec.ofNat 8 (if n < 10 then 48 + n else 55 + n)
  [d (b.toNat / 16), d (b.toNat % 16)]

/-- Decimal digits of a number. -/
def decBytes (n : Nat) : List Byte := ascii (toString n)

/-- A signed number. -/
def intBytes (v : Int) : List Byte := if v < 0 then ascii "-" ++ decBytes v.natAbs else decBytes v.natAbs

/-- Names joined with a separator. -/
def joinWith (sep : List Byte) : List (List Byte) → List Byte
  | [] => []
  | [a] => a
  | a :: r => a ++ sep ++ joinWith sep r

/-- Tenants recording, rising, ending in +n when they do not fit in 20 characters. -/
def recordingLine (ts : List Nat) : List Byte :=
  let name (t : Nat) : List Byte := ascii "T" ++ decBytes t
  let whole := joinWith [0x20] (ts.map name)
  if whole.length ≤ 20 then whole
  else
    let some_ (k : Nat) : List Byte := joinWith [0x20] ((ts.take k).map name ++ [ascii "+" ++ decBytes (ts.length - k)])
    match ((List.range ts.length).reverse).find? (fun k => decide ((some_ k).length ≤ 20)) with
    | some k => some_ k
    | none => some_ 0

/-- The oldest HELD zone's last append. -/
def State.oldestHold (s : State) : Option Nat :=
  s.nvm.zones.foldl (fun (a : Option Nat) p => if p.2.st = .held then some (min (a.getD p.2.lastT) p.2.lastT) else a) none

/-- A value not yet available. -/
def notYet : List Byte := ascii "----"

/-- Label and value of an item (table "Display items"); none for an unknown code or a host item that is not shown. -/
def State.displayItem (s : State) (code param : Nat) : Option (List Byte × List Byte) :=
  match code with
  | 1 => some (ascii "SERVICE", match s.dev.level with
      | .none => ascii "NONE" | .gust => ascii "GUST" | .full => ascii "FULL" | .recovery => ascii "RECOVERY")
  | 2 =>
    let ts := allTids.filter (fun t => match s.tnt[t].lastAck with | some a => decide (s.now < a + 10000000) | none => false)
    some (ascii "RECORDING", recordingLine (ts.map (fun t => t.1)))
  | 3 => some (ascii "FREE EVIDENCE", decBytes ((s.unownedCount + s.nvm.zones.countv (fun z => z.st = .empty)) / 8) ++ ascii " GIB")
  | 4 => some (ascii "OLDEST HOLD", match s.oldestHold with | some a => decBytes ((s.opSecs - a) / 3600) ++ ascii " H" | none => notYet)
  | 5 => some (ascii "CHAIN T" ++ decBytes param,
      if h : param < 64 then joinWith [0x20] (((hashBytes (s.chainHead ⟨param, h⟩)).take 4).map hexByte) else notYet)
  | 6 => some (ascii "TEMPERATURE", if s.hkp.rounds = 0 then notYet else intBytes (s.dieMax / 4) ++ ascii " C")
  | 7 => some (ascii "FAULT", if s.evr.critSeen then
      hexByte (BitVec.ofNat 8 (s.evr.newestCrit.toNat / 256)) ++ hexByte (BitVec.ofNat 8 s.evr.newestCrit.toNat) else ascii "NONE")
  | 8 => some (ascii "HOURS", decBytes (s.opSecs / 3600) ++ ascii " H")
  | 9 => some (ascii "METER", decBytes (s.nvm.total / (1440 * 1048576)) ++ ascii " GBD")
  | 10 => match s.disp.host with | some b => some (slice b 0 20, slice b 20 20) | none => none
  | _ => none

/-- 20 characters, left- or right-aligned with spaces. -/
def alignLine (left : Bool) (b : List Byte) : List Byte :=
  let c := b.take 20
  let pad := List.replicate (20 - c.length) (0x20 : Byte)
  if left then c ++ pad else pad ++ c

/-- Item k of the DISPLAY field: code, dwell, parameter. -/
def BoardDesc.item (d : BoardDesc) (k : Nat) : Nat × Nat × Nat :=
  (fieldLe d.display (0x40 + 4 * k) 1, fieldLe d.display (0x41 + 4 * k) 1, fieldLe d.display (0x42 + 4 * k) 1)

/-- The next item to show from item k on, wrapping. -/
def State.showable (s : State) (d : BoardDesc) (k : Nat) : Option Nat :=
  let n := fieldLe d.display 3 1
  ((List.range n).map (fun j => (k + j) % n)).find? (fun j => (s.displayItem (d.item j).1 (d.item j).2.2).isSome)

/-- One second of a dwell: both lines of the item shown (R388). -/
def State.dwell (s : State) (d : BoardDesc) : State :=
  match s.showable d s.disp.item with
  | none => s
  | some k =>
    let it := d.item k
    let sec := if k = s.disp.item then s.disp.second + 1 else 1
    match s.displayItem it.1 it.2.2 with
    | none => s
    | some (a, b) =>
      let pre (n : Nat) : List Byte := slice d.display (0x25 + 8 * n) (fieldLe d.display (0x24 + 8 * n) 1)
      let host := decide (it.1 = 10)
      let f0 := pre 0 ++ alignLine true a
      let f1 := pre 1 ++ alignLine host b
      { s with disp := { s.disp with
        waiting := s.disp.waiting ++ [(false, f0), (false, f1)],
        dwellAt := s.now + 1000000,
        item := if it.2.1 ≤ sec then (k + 1) % fieldLe d.display 3 1 else k,
        second := if it.2.1 ≤ sec then 0 else sec } }

/-- DISPLAY_DWELL_SECOND, each second of a dwell. From the start of Squall DISP sends nothing (R391). -/
def execDisplayDwellSecond (s : State) : Host.Outcome State Fault Refusal :=
  match s.boot.desc with
  | some d => .next (if s.disp.running && s.active && !s.dbg.seqHalted.getLsbD 9 && decide (s.disp.dwellAt ≤ s.now) then s.dwell d else s)
  | none => .next s

/-- HOST_ITEM_EXPIRED (R390, R393). -/
def execHostItemExpired (s : State) : Host.Outcome State Fault Refusal :=
  .next (if s.disp.host.isSome && decide (s.disp.life ≠ 0) && decide (s.disp.hostAt + s.disp.life * 60000000 ≤ s.now) then
    ({ s with disp := { s.disp with host := none, life := 0 } } : State).raise pDISP 0 else s)

end Sys2Proof.Machine
end

