-- ==== Sys2Proof/Machine/Pcie.lean ====
section
/-!
DEFINITION. Tenant reset (07 R219 to R221), and the PCI Express endpoint: resets and bus mastering (06 R171 to R177), interrupt
modes and messages (R155 to R158), configuration space (R147 to R154), poison and AER (R159, R165, R178), link power (R169).
-/
namespace Sys2Proof.Machine

/-! ## Tenant reset (07 R219, R220) -/

/-- A fetched command whose old epoch drops it at steps 1 and 2: all but WRITEs that have all their data and commands that core 3
executes. READ, VERIFY and APPEND end here too (log entry 81). -/
def Cmd.dropped (c : Cmd) : Bool :=
  match c.phase with
  | .fetched => !(c.desc.opc = 0x02 && c.ready && !c.hostFail && !c.epOther)
  | .done _ _ _ _ => true
  | .shared => c.desc.opc ≠ 0x02
  | .waiting => c.desc.opc ≠ 0x02
  | .core3 => false

/-- Commands of a tenant that its reset drops. -/
def State.droppedOf (s : State) (t : Tid) : List (Nat × Cmd) := s.hqm.cmds.filter (fun e => e.2.tenant = t && e.2.dropped)

/-- Bytes of a command's host reads that have not arrived: of its open list segment, or of its data and header. -/
def Cmd.bytesToCome (c : Cmd) : Nat :=
  match c.list with
  | .ok _ => (c.desc.readLen - chunkBytes c.data) + (c.desc.hdrLen - chunkBytes c.header)
  | .more a => segmentLen a
  | .bad => 0

/-- The owner's challenge and the time nonce lapse at any reset (07 R213, 12 R376). -/
def State.lapseNonces (s : State) : State :=
  { s with own := { s.own with challenge := none }, mtr := { s.mtr with nonce := none } }

/-- A tenant reset begins: the epoch, RESET_DONE, dropped commands with their tags, reads and pipe blocks, unacknowledged appends.
A KEY_CLEAR that waits keeps its effect, a KEY_LOAD lapses (07 R220; 08, edge case); the owner's
challenge and the time nonce lapse. Completion entries that were due are dropped under 06 R175. While a sequence runs, another event changes nothing (06 R176). -/
def State.tenantReset (s : State) (t : Tid) : State :=
  if !s.tnt[t].resetDone then s
  else
    let gone := s.droppedOf t
    let isGone (k : Nat) : Bool := gone.any (fun e => e.1 = k)
    let due := (gone.filter (fun e => match e.2.phase with | .done _ _ _ _ => true | _ => false)).length
    let stale := gone.filter (fun e => e.2.phase = .fetched && decide (0 < e.2.bytesToCome))
    let s1 := (s.dropAppends t (fun _ e => !e.acked)).dropEntries (s.tenantFn t) due
    let s2 := ((s1.undoOpen (gone.map (fun e => e.2))).updTnt t (fun x => { x with
      epoch := x.epoch + 1, resetDone := false,
      keyWait := x.keyWait.filter (fun k => match k with | .clear _ _ _ => true | _ => false) })).lapseNonces
    { s2 with
      hqm := { s2.hqm with cmds := s2.hqm.cmds.filter (fun e => !isGone e.1) },
      pcie := { s2.pcie with
        staleReads := stale.foldl (fun m e => m.put e.1 (s.tenantFn t, e.2.bytesToCome, e.2.readAt)) s2.pcie.staleReads },
      ciph := { s2.ciph with
        x := { s2.ciph.x with blocks := s2.ciph.x.blocks.filter (fun b => !isGone b.tag) },
        g := { s2.ciph.g with blocks := s2.ciph.g.blocks.filter (fun b => !isGone b.tag) } },
      med := { s2.med with ops := s2.med.ops.filter (fun o => match o.2.kind with
        | .read _ _ (.host k _) => !isGone k.1
        | _ => true) } }

/-- Reset several tenants. -/
def State.resetTenants (s : State) (ts : List Tid) : State := ts.foldl State.tenantReset s

/-- Neither pipe holds or awaits a block of a tenant. -/
def State.pipesFree (s : State) (t : Tid) : Bool :=
  s.pageQuiet t && !s.hqm.cmds.any (fun e => e.2.tenant = t && decide (e.2.epoch ≠ s.tnt[t].epoch) && e.2.desc.opc = 0x02 && e.2.phase = .fetched)

/-- Buffers of a tenant's discarded work: of an old epoch, unacknowledged, of no live command. -/
def State.discardedBufs (s : State) (t : Tid) : List Nat :=
  (s.bpm.bufs.filter (fun b => b.2.tenant = t && decide (b.2.epoch ≠ s.tnt[t].epoch) && !b.2.dirty && !b.2.quarantined &&
    !s.hqm.cmds.any (fun e => e.1 = b.2.tag && e.2.tenant = t))).map (fun b => b.1)

/-- Tenants a function serves. -/
def State.fnTenants (s : State) (fn : Fn) : List Tid :=
  allTids.filter (fun t => if fn = 0 then s.tnt[t].binding = 2 else s.tnt[t].binding = 1 && s.tnt[t].vf = fn.1)

/-- Functions whose tenants have all reached RESET_DONE are reset no more (06 R173). -/
def State.settleFns (s : State) : State :=
  { s with pcie := { s.pcie with fns := Vector.ofFn (fun n : Fin 64 =>
    let f := s.pcie.fns[n]
    if f.resetting && (s.fnTenants n).all (fun t => s.tnt[t].resetDone) then { f with resetting := false, blocked := false } else f) } }

/-- Steps 4 to 6: the key page zeroised, the buffers returned, the queue pairs disabled, the features cleared, RESET_DONE, the
persisted keys reloaded; the routes that clear can end INTA. -/
def State.finishReset (s : State) (t : Tid) : State :=
  let s0 := (s.tnt[t].keyWait.foldl (fun (a : State) k => match k with | .clear x g _ => a.dropPersisted t x g | _ => a) s).updTnt t
    (fun x => { x with keyWait := [] })
  let s1 := (s0.zeroise t).freeBufs (s0.discardedBufs t)
  let s2 := s1.updTnt t (fun x => { x with
    qps := Vector.replicate 8 Qp.reset, accept := 0#32, featLock := false, featErr := false, rr := 7 })
  let s3 : State := { s2 with troutes := Vector.ofFn (fun k : Fin 512 => if k.1 / 8 = t.1 then TRoute.reset else s2.troutes[k]) }
  let s4 := (s3.raiseTnt t 15).updTnt t (fun x => { x with resetDone := true })
  (((s4.reloadKeys t).raiseTnt t 8).settleFns).updInta

/-- TENANT_RESET_PIPES_DRAINED (R219 steps 4 to 6). -/
def execTenantResetPipesDrained (t : Tid) (s : State) : Host.Outcome State Fault Refusal :=
  .next (if !s.tnt[t].resetDone && s.pipesFree t && s.awake then s.finishReset t else s)

/-! ## Requests of a mode (06 R158) -/

/-- Request afresh on every vector of a function that has an asserted source (R158). -/
def State.requestAll (s : State) (fn : Fn) : State :=
  s.assertedVectors.foldl (fun a x => if x.1 = fn.1 then a.request fn x.2 else a) s

/-! ## Messages (05 R144, 06 R155, R156) -/

/-- Whether a pending message may go now. -/
def State.mayMessage (s : State) (fn : Fn) (k : Nat) : Bool :=
  let f := s.pcie.fns[fn]
  f.pending.contains k && s.canDma fn && s.awake && s.pcie.dlUp &&
    (if f.cfg.msixEn then !f.cfg.msixMask && f.unmasked.contains k else f.cfg.msiEn && !f.msiMasked.contains k)

/-- Send a pending message. -/
def State.sendMessage (s : State) (fn : Fn) (k : Nat) : State :=
  let f := s.pcie.fns[fn]
  let n := min (2 ^ f.cfg.mme.toNat) (if fn = 0 then 32 else 8)
  let m : DWord × Word := if f.cfg.msixEn then (f.entries.find k).getD (0, 0)
    else (f.msiAddr, BitVec.ofNat 32 (f.msiData.toNat / n * n + k))
  (s.updFn fn (fun x => { x with pending := x.pending.filter (fun j => j ≠ k) })).emit (.message fn k m.1 m.2)

/-- Send every pending message of a function that may go. -/
def State.sendPending (s : State) (fn : Fn) : State :=
  s.pcie.fns[fn].pending.foldl (fun a k => if a.mayMessage fn k then a.sendMessage fn k else a) s

/-- INTERRUPT_MESSAGE. -/
def execInterruptMessage (fn : Fn) (vec : Fin 72) (s : State) : Host.Outcome State Fault Refusal :=
  .next (if s.mayMessage fn vec.1 then s.sendMessage fn vec.1 else s)

/-! ## Configuration (06 R149 to R154) -/

/-- Whether a function is claimed: PF0, or an enabled VF. -/
def State.claimed (s : State) (fn : Fn) : Bool := decide (fn.1 ≤ s.pcie.numVfs)

/-- The endpoint answers configuration requests: PERST_L high, DL_Active, not in Squall. -/
def State.cfgAnswers (s : State) : Bool := s.awake && s.pins.perst && s.pcie.dlUp && !s.pcie.squallUr

/-- They take effect: retry status has ended (R153). -/
def State.cfgOpen (s : State) (fn : Fn) : Bool := s.cfgAnswers && decide (s.dev.level ≠ .none) && s.claimed fn

/-- Mask and value of the bits of a configuration doubleword that the manual fixes or the state holds (R147, R149, R150; the
capability IDs and field places are PCI Express Base's, log entry 80). -/
def State.cfgKnown (s : State) (fn : Fn) (dw : Nat) : Word × Word :=
  let pf := decide (fn = 0)
  let f := s.pcie.fns[fn]
  let all : Word := 0xFFFFFFFF#32
  let ext (id next : Nat) : Word × Word := (0xFFF0FFFF#32, fieldW id 0 ||| fieldW next 20)
  let only (v : Word × Word) : Word × Word := if pf then v else (0, 0)
  let bar (v : Word) : Word × Word := (all, if pf then v else 0)
  match 4 * dw with
  | 0x00 => only (all, 0x40641E4F#32)
  | 0x04 => (0x00180406#32, bitW f.mse 1 ||| bitW f.bme 2 ||| bitW (pf && s.pcie.intDisable) 10 ||| bitW (pf && s.pcie.inta) 19 ||| bitW true 20)
  | 0x08 => (all, 0x018000B0#32)
  | 0x10 => bar ((f.bar0.setWidth 32 &&& 0xFFF00000#32) ||| 4#32)
  | 0x14 => bar ((f.bar0 >>> 32).setWidth 32)
  | 0x18 => bar ((f.bar2.setWidth 32 &&& 0xFFFF0000#32) ||| 4#32)
  | 0x1C => bar ((f.bar2 >>> 32).setWidth 32)
  | 0x20 | 0x24 => (all, 0)
  | 0x2C => (all, 0x1E4F#32 ||| fieldW (bits Config.hwType 15 0) 16)
  | 0x34 => (0xFF#32, if pf then 0x40#32 else 0x50#32)
  | 0x3C => (0xFF00#32, if pf then 0x100#32 else 0)
  | 0x40 => only (0xF600FFFF#32, 0xC0005001#32)
  | 0x44 => only (0x010B#32, fieldW (if f.d3hot then 3 else 0) 0 ||| bitW true 3 ||| bitW f.pmeEn 8)
  | 0x50 => (all, 0x7005#32 ||| bitW f.cfg.msiEn 16 ||| fieldW (if pf then 5 else 3) 17 ||| fieldW f.cfg.mme.toNat 20 ||| bitW true 23 ||| bitW true 24)
  | 0x54 => (all, f.msiAddr.setWidth 32)
  | 0x58 => (all, (f.msiAddr >>> 32).setWidth 32)
  | 0x5C => (all, f.msiData)
  | 0x60 => (all, f.msiMasked.foldl (fun a k => a ||| bitW true k) 0)
  | 0x64 => (all, if f.cfg.msixEn then 0 else f.pending.foldl (fun a k => a ||| bitW true k) 0)
  | 0x70 => (0x00FFFFFF#32, 0x0002B010#32)
  | 0x74 => (0x10008027#32, fieldW 2 0 ||| bitW true 5 ||| bitW true 15 ||| bitW true 28)
  | 0x78 => (0x000079F0#32, bitW f.ero 4 ||| fieldW f.mps.toNat 5 ||| bitW f.extTag 8 ||| fieldW f.mrrs.toNat 12)
  | 0x7C => (0x00038FFF#32, fieldW 4 0 ||| fieldW 4 4 ||| fieldW 2 10 ||| fieldW 3 15)
  | 0x80 => (0x03FF0003#32, bitW f.aspmL1 1 ||| fieldW s.pcie.speed.toNat 16 ||| fieldW s.pcie.width.toNat 20)
  | 0x94 => (0x002F3B9F#32, 0x00030817#32)
  | 0x98 => (0x0000775F#32, fieldW f.tmoValue.toNat 0 ||| bitW f.tmoOff 4 ||| bitW f.ltrEn 10 ||| bitW f.tag10 12)
  | 0x9C => (0x000000FE#32, 0x1E#32)
  | 0xB0 => (all, 0x0011#32 ||| fieldW (if pf then 71 else 8) 16 ||| bitW f.cfg.msixMask 30 ||| bitW f.cfg.msixEn 31)
  | 0xB4 => (all, if pf then 0x8002#32 else 0x2000#32)
  | 0xB8 => (all, if pf then 0xC002#32 else 0x3000#32)
  | 0x100 => ext 1 (if pf then 0x148 else 0x1B8)
  | 0x104 => (all, f.aerUnc)
  | 0x108 => (all, f.aerUncMask)
  | 0x10C => (all, f.aerSev)
  | 0x110 => (all, f.aerCorr)
  | 0x114 => (all, f.aerCorrMask)
  | 0x118 => (0xFFF#32, fieldW (f.aerFirst.getD 0) 0 ||| bitW true 5 ||| bitW f.ecrcGen 6 ||| bitW true 7 ||| bitW f.ecrcChk 8)
  | 0x11C | 0x120 | 0x124 | 0x128 => (all, if f.aerLogs = 0 then 0 else Config.tlpHeader fn.1 f.aerLogs (dw - 0x47))
  | 0x148 => only (ext 3 0x158)
  | 0x14C => only (all, Config.serial.setWidth 32)
  | 0x150 => only (all, (Config.serial >>> 32).setWidth 32)
  | 0x158 => only (ext 0x19 0x178)
  | 0x178 => only (ext 0x10 0x1B8)
  | 0x180 => only (0x11#32, bitW s.pcie.vfEnable 0 ||| bitW s.pcie.ari 4)
  | 0x184 => only (all, 0x003F003F#32)
  | 0x188 => only (0xFFFF#32, fieldW s.pcie.nvfs 0)
  | 0x18C => only (all, 0x00010001#32)
  | 0x190 => only (0xFFFF0000#32, 0x40650000#32)
  | 0x194 | 0x198 => only (all, 1#32)
  | 0x19C => only (all, (f.vfBar.setWidth 32 &&& 0xFFFFC000#32) ||| 4#32)
  | 0x1A0 => only (all, (f.vfBar >>> 32).setWidth 32)
  | 0x1A4 | 0x1A8 | 0x1AC | 0x1B0 => only (all, 0)
  | 0x1B8 => ext 0x0E (if pf then 0x1C0 else 0)
  | 0x1C0 => only (ext 0x1E 0x1D0)
  | 0x1C4 => only (0x00FBFF1F#32, 0x1F#32 ||| fieldW 40 8 ||| fieldW 1 16 ||| fieldW 7 19)
  | 0x1C8 => only (0xF#32, fieldW f.l1ss.toNat 0)
  | 0x1D0 => only (ext 0x18 0x1E0)
  | 0x1E0 => only (ext 0x25 0x1F0)
  | 0x1E4 => only (1#32, 1#32)
  | 0x1F0 => only (ext 0x26 0x220)
  | 0x220 => only (ext 0x27 0)
  | _ => (0, 0)

/-- Half of a 64-bit register written. -/
def setHalf (x : DWord) (upper : Bool) (v : Word) : DWord :=
  if upper then (x &&& 0xFFFFFFFF#64) ||| (v.setWidth 64 <<< 32) else (x &&& 0xFFFFFFFF00000000#64) ||| v.setWidth 64

/-- Completion Timeout Values of ranges A, B and C (06 R147; log entry 80). -/
def timeoutValues : List (BitVec 4) := [0x0#4, 0x1#4, 0x2#4, 0x5#4, 0x6#4, 0x9#4, 0xA#4]

/-- Vectors of a function's MSI-X table (06 R150). -/
def msixVectors (fn : Fn) : Nat := if fn = 0 then 72 else 9

/-- A write of address or data of an MSI-X table entry; one with some but not all bytes enabled is ignored and counted PARTIAL in the page
that counts the range's errors (05 R117, R120). -/
def State.msixTableWrite (s : State) (fn : Fn) (vec dw : Nat) (be : BitVec 4) (v : Word) : State :=
  if !s.barOpen fn || s.dev.level = .none || decide (msixVectors fn ≤ vec) || be = 0#4 then s
  else if be ≠ 15#4 then
    if fn = 0 then s.countErr pDEV ePARTIAL (errAddr (0x8000 + 16 * vec + 4 * dw) 1 0)
    else s.countErr (match s.vfTenant fn with | some t => pTNT t | none => pDEV) ePARTIAL (errAddr (0x2000 + 16 * vec + 4 * dw) 2 fn.1)
  else
    s.updFn fn (fun f =>
      let e := (f.entries.find vec).getD (0, 0)
      { f with entries := f.entries.put vec (if dw = 2 then (e.1, v) else (setHalf e.1 (decide (dw = 1)) v, e.2)) })

/-- A configuration request that takes effect. A bit the manual gives no value reads as a free value (log entry 80). -/
def State.cfgAct (s : State) (fn : Fn) : CfgReq → State
  | .read dw =>
    let k := s.cfgKnown fn dw.toNat
    if k.1 = 0xFFFFFFFF#32 then s.emit (.cfgCompletion fn k.2)
    else ((s.emit (.cfgCompletion fn (k.2 ||| ((s.freeVal.setWidth 32) &&& ~~~ k.1)))).drawn)
  | .setMse b => s.updFn fn (fun f => { f with mse := b })
  | .setEro b => s.updFn fn (fun f => { f with ero := b })
  | .setAspmL1 b => s.updFn fn (fun f => { f with aspmL1 := b })
  | .setPmeEn b => if fn = 0 then s.updFn fn (fun f => { f with pmeEn := b }) else s
  | .setMps v => if v.toNat ≤ 2 then s.updFn fn (fun f => { f with mps := v }) else s
  | .setMrrs v => if v.toNat ≤ 5 then s.updFn fn (fun f => { f with mrrs := v }) else s
  | .setBar r up v => if fn ≠ 0 then s else s.updFn fn (fun f => match r with
      | .bar0 => { f with bar0 := setHalf f.bar0 up v }
      | .bar2 => { f with bar2 := setHalf f.bar2 up v }
      | .vfBar0 => { f with vfBar := setHalf f.vfBar up v })
  | .setExtTag b => s.updFn fn (fun f => { f with extTag := b })
  | .setTimeout v off => s.updFn fn (fun f => { f with tmoValue := if timeoutValues.contains v then v else f.tmoValue, tmoOff := off })
  | .setLtr b => s.updFn fn (fun f => { f with ltrEn := b })
  | .setTag10 b => s.updFn fn (fun f => { f with tag10 := b })
  | .setL1ss e => if fn = 0 then s.updFn fn (fun f => { f with l1ss := e }) else s
  | .setEcrc g k => s.updFn fn (fun f => { f with ecrcGen := g, ecrcChk := k })
  | .msixWrite .. => s
  | .setMsi a d => s.updFn fn (fun f => { f with msiAddr := a, msiData := d })
  | .maskVector msix v => s.updFn fn (fun f =>
      if msix then { f with unmasked := f.unmasked.filter (fun k => k ≠ v.1) }
      else { f with msiMasked := if f.msiMasked.contains v.1 || decide (32 ≤ v.1) then f.msiMasked else f.msiMasked ++ [v.1] })
  | .leaveD3hot => s.updFn fn (fun f => { f with d3hot := false })
  | .aerMask corr m => s.updFn fn (fun f => if corr then { f with aerCorrMask := m } else { f with aerUncMask := m })
  | .aerClear corr b => s.updFn fn (fun f => if corr then { f with aerCorr := f.aerCorr &&& ~~~ b } else
      { f with aerUnc := f.aerUnc &&& ~~~ b,
               aerFirst := match f.aerFirst with | some k => if b.getLsbD k then none else some k | none => none })
  | .aerSeverity v => s.updFn fn (fun f => { f with aerSev := v })

/-- A configuration request proper (R153, R177): CRS at NONE, Unsupported Request, logged, in Squall, no answer from a VF that is not
enabled. -/
def State.cfgRequest (s : State) (fn : Fn) (req : CfgReq) : State :=
  if s.awake && s.pins.perst && s.pcie.dlUp && s.pcie.squallUr then (s.aerUncorrectable fn 20).emit (.unsupported fn)
  else if !s.cfgAnswers || !s.claimed fn then s
  else if s.dev.level = .none then s.emit (.crs fn)
  else s.endLull.cfgAct fn req

/-- CONFIGURATION_REQUEST, and the writes of address and data of an MSI-X table entry. -/
def execConfigurationRequest (fn : Fn) (req : CfgReq) (s : State) : Host.Outcome State Fault Refusal :=
  .next (match req with
    | .msixWrite vec dw be v => s.msixTableWrite fn vec.1 dw.1 be v
    | .read dw => s.cfgRequest fn (.read dw)
    | r => s.cfgRequest fn r)

/-! ## Resets (06 R172 to R176) -/

/-- A function's endpoint state is reset until its tenants are done; PME_En is sticky, and with `sticky` the AER registers stay. -/
def FnS.restart (f : FnS) (sticky : Bool) : FnS :=
  { FnS.reset with resetting := true, blocked := true, pmeEn := f.pmeEn,
                   aerCorr := if sticky then f.aerCorr else 0, aerUnc := if sticky then f.aerUnc else 0,
                   aerCorrMask := if sticky then f.aerCorrMask else FnS.reset.aerCorrMask, aerUncMask := if sticky then f.aerUncMask else 0,
                   aerSev := if sticky then f.aerSev else FnS.reset.aerSev, aerFirst := if sticky then f.aerFirst else none,
                   aerLogs := if sticky then f.aerLogs else 0, ecrcGen := sticky && f.ecrcGen, ecrcChk := sticky && f.ecrcChk }

/-- The DEV feature state and every tenant's features return to 0 (05 R130, R132, R133). -/
def State.clearFeatures (s : State) : State :=
  { s with
    dev := { s.dev with featErr := false, featLock := false, accept0 := 0#32, accept1 := 0#32 },
    tnt := s.tnt.map (fun x => { x with offer := 0#32, accept := 0#32, featLock := false, featErr := false }) }

/-- VF Enable clears: every VF is reset. -/
def State.dropVfs (s : State) : State :=
  let was := s.pcie.vfEnable
  let s1 : State := { s with pcie := { s.pcie with
    fns := Vector.ofFn (fun n : Fin 64 => if n.1 ≠ 0 && was && n.1 ≤ s.pcie.numVfs then s.pcie.fns[n].restart false else s.pcie.fns[n]),
    vfEnable := false, numVfs := 0, vfLimit := false, nvfs := 0 } }
  if was then s1.raise pPCIE 6 else s1

/-- VF-bound tenants. -/
def State.vfTenants (s : State) : List Tid := allTids.filter (fun t => s.tnt[t].binding = 1)

/-- The host-side state of every tenant page (log entry 79). -/
def State.clearHostSide (s : State) : State :=
  { s with
    hdr := Vector.ofFn (fun p : Fin 128 => match tenantOfPage p with
      | some _ => { s.hdr[p] with intStatus := 0, intEnable := 0 } | none => s.hdr[p]),
    tnt := s.tnt.map (fun x => { x with sqBase := 0, cqBase := 0, depth := 0, notice := none, noticeNo := 0 }) }

/-- PERST_L, Hot Reset or link down: the whole endpoint and every tenant (R172). -/
def State.pcieReset (s : State) (ltssm : BitVec 5) : State :=
  let up := s.pcie.dlUp
  let s1 := (s.resetTenants allTids).lapseNonces.clearFeatures.clearHostSide
  let s2 : State := { s1 with pcie := { s1.pcie with
    fns := s1.pcie.fns.map (fun f => f.restart false), numVfs := 0, nvfs := 0, vfEnable := false, ari := false, vfLimit := false, inta := false,
    intDisable := false, dlUp := false, ltssm := ltssm, pmState := 0#3, speed := 0#3, width := 0#3 } }
  let s3 := s2.settleFns
  if up then s3.raise pPCIE 1 else s3

/-- Resets of the link are ignored from the start of Squall to its final hold (R177). -/
def State.linkDeaf (s : State) : Bool := !s.awake || (s.squall.running && !s.squall.hold)

/-- PERST_ASSERT. -/
def execPerstAssert (s : State) : Host.Outcome State Fault Refusal :=
  let s1 : State := { s with pins := { s.pins with perst := false } }
  .next (if s.linkDeaf || !s.pins.perst then s1 else (s1.pcieReset 0#5).raise pPCIE 3)

/-- PERST_RELEASE: training starts; PCIE_WAKE_L is released (R153, R171). -/
def execPerstRelease (s : State) : Host.Outcome State Fault Refusal :=
  let s1 : State := { s with pins := { s.pins with perst := true, wake := false } }
  .next (if s.awake && !s.pins.perst then { s1 with pcie := { s1.pcie with ltssm := 1#5 } } else s1)

/-- HOT_RESET. -/
def execHotReset (s : State) : Host.Outcome State Fault Refusal :=
  .next (if s.linkDeaf || !s.pins.perst || !s.pcie.dlUp then s else s.pcieReset 28#5)

/-- LINK_DOWN. -/
def execLinkDown (s : State) : Host.Outcome State Fault Refusal :=
  .next (if s.linkDeaf || !s.pcie.dlUp then s else s.pcieReset 0#5)

/-- LINK_UP (R153). Sources that are asserted already assert INTA (R157). -/
def execLinkUp (speed width : BitVec 3) (s : State) : Host.Outcome State Fault Refusal :=
  .next (if s.awake && s.pins.perst && !s.pcie.dlUp && !s.squall.running then
    (({ s with pcie := { s.pcie with dlUp := true, speed := speed, width := width, ltssm := 11#5, pmState := 0#3, idleAt := s.now } } : State).raise pPCIE 0).updInta
  else s)

/-- States the LTSSM may report with the link up or not (R519; log entry 82). -/
def ltssmLegal (up : Bool) (c : BitVec 5) : Bool :=
  if up then decide (11 ≤ c.toNat ∧ c.toNat ≤ 23) else decide (c.toNat ≤ 10 ∨ (24 ≤ c.toNat ∧ c.toNat ≤ 28))

/-- The link reports another LTSSM state: L1 and L2 carry the power state with them (R179, R519). -/
def PcieS.toLtssm (p : PcieS) (c : BitVec 5) : PcieS :=
  if !ltssmLegal p.dlUp c then p
  else { p with ltssm := c, pmState := if 22 ≤ c.toNat && c.toNat ≤ 23 then 4#3 else
           if c.toNat = 20 || c.toNat = 21 then (if p.pmState = 0#3 then 1#3 else p.pmState) else 0#3 }

/-- SPEED_WIDTH_CHANGE (R179), with the LTSSM state in which the link reports it (R519; log entry 82). -/
def execSpeedWidthChange (speed width : BitVec 3) (ltssm : BitVec 5) (s : State) : Host.Outcome State Fault Refusal :=
  .next (if s.awake && s.pins.perst then
    let s1 : State := { s with pcie := s.pcie.toLtssm ltssm }
    if s.pcie.dlUp && (s.pcie.speed ≠ speed || s.pcie.width ≠ width) then
      ({ s1 with pcie := { s1.pcie with speed := speed, width := width } } : State).raise pPCIE 2
    else s1
  else s)

/-- FLR of a function (R172). Of PF0's sticky bits the AER registers stay; the table gives a VF no such exception. -/
def execFlr (fn : Fn) (s : State) : Host.Outcome State Fault Refusal :=
  .next (if !s.cfgOpen fn then s
    else if fn = 0 then
      let ts := allTids.filter (fun t => s.tnt[t].binding ≠ 0)
      let s1 := ((s.resetTenants ts).lapseNonces.dropVfs.clearFeatures).updFn 0 (fun f => f.restart true)
      ((({ s1 with pcie := { s1.pcie with intDisable := false, ari := false } } : State).updInta).settleFns).raise pPCIE 4
    else
      (((s.resetTenants (s.fnTenants fn)).lapseNonces.updFn fn (fun f => f.restart false)).settleFns).raise pPCIE 4)

/-- VF_ENABLE_SET (R151). -/
def execVfEnableSet (numVfs : Fin 64) (ari : Bool) (s : State) : Host.Outcome State Fault Refusal :=
  .next (if !s.cfgOpen 0 || s.pcie.vfEnable then s
    else
      let limit := !ari && decide (7 < numVfs.1)
      let s1 := ({ s with pcie := { s.pcie with
        vfEnable := true, ari := ari, nvfs := numVfs.1, numVfs := if limit then 7 else numVfs.1, vfLimit := limit } } : State).raise pPCIE 6
      if limit then s1.raise pPCIE 11 else s1)

/-- VF_ENABLE_CLEAR. -/
def execVfEnableClear (s : State) : Host.Outcome State Fault Refusal :=
  .next (if !s.cfgOpen 0 || !s.pcie.vfEnable then s else ((s.resetTenants s.vfTenants).dropVfs).settleFns)

/-- The sequence of a cleared Bus Master Enable: the function's tenants are reset, no endpoint state is (R172, R173). -/
def State.bmeCleared (s : State) (fn : Fn) : State :=
  ((s.resetTenants (s.fnTenants fn)).updFn fn (fun f => { f with resetting := true })).settleFns

/-- BUS_MASTER_ENABLE_CLEAR. -/
def execBusMasterEnableClear (fn : Fn) (s : State) : Host.Outcome State Fault Refusal :=
  .next (if !s.cfgOpen fn || !s.pcie.fns[fn].bme then s
    else ((s.updFn fn (fun f => { f with bme := false })).bmeCleared fn).raise pPCIE 5)

/-- BUS_MASTER_ENABLE_SET: messages held pending go out (R156). -/
def execBusMasterEnableSet (fn : Fn) (s : State) : Host.Outcome State Fault Refusal :=
  .next (if !s.cfgOpen fn then s else (s.updFn fn (fun f => { f with bme := true })).sendPending fn)

/-- INTERRUPT_MODE_CHANGE (R156, R158): messages of a mode whose enable clears are dropped; an enable that sets, a change of mode or
a cleared Function Mask requests afresh. -/
def execInterruptModeChange (fn : Fn) (cfg : IntCfg) (s : State) : Host.Outcome State Fault Refusal :=
  .next (if !s.cfgOpen fn then s
    else
      let o := s.pcie.fns[fn].cfg
      let drop := (o.msixEn && !cfg.msixEn) || (!o.msixEn && o.msiEn && (!cfg.msiEn || cfg.msixEn)) || (!o.msixEn && cfg.msixEn)
      let again := (!o.msixEn && cfg.msixEn) || (!o.msiEn && cfg.msiEn) || (o.msixEn && !cfg.msixEn) || (o.msixMask && !cfg.msixMask)
      let s1 := s.updFn fn (fun f => { f with cfg := cfg, pending := if drop then [] else f.pending })
      let s2 := if again then s1.requestAll fn else s1
      s2.updInta)

/-- VECTOR_UNMASK (R156): of an MSI-X table entry by a memory write, of an MSI message by a configuration write. -/
def execVectorUnmask (fn : Fn) (msix : Bool) (vec : Fin 72) (s : State) : Host.Outcome State Fault Refusal :=
  .next (if !(if msix then s.barOpen fn && decide (s.dev.level ≠ .none) && decide (vec.1 < msixVectors fn) else s.cfgOpen fn) then s
    else
      let s1 := s.updFn fn (fun f =>
        if msix then { f with unmasked := if f.unmasked.contains vec.1 then f.unmasked else f.unmasked ++ [vec.1] }
        else { f with msiMasked := f.msiMasked.filter (fun k => k ≠ vec.1) })
      if s1.pcie.fns[fn].cfg.msixEn = msix && s1.mayMessage fn vec.1 then s1.sendMessage fn vec.1 else s1)

/-- INTERRUPT_DISABLE (R157). -/
def execInterruptDisable (on : Bool) (s : State) : Host.Outcome State Fault Refusal :=
  .next (if !s.cfgOpen 0 then s else ({ s with pcie := { s.pcie with intDisable := on } } : State).updInta)

/-- D3HOT_ENTRY (R171). -/
def execD3hotEntry (fn : Fn) (s : State) : Host.Outcome State Fault Refusal :=
  .next (if !s.cfgOpen fn || s.pcie.fns[fn].d3hot then s
    else (s.updFn fn (fun f => { f with d3hot := true })).bmeCleared fn)

/-! ## Errors and stale completions (06 R148, R165, R174, R178) -/

/-- The function a BAR belongs to. -/
def barFn : BarSpace → Fn
  | .vfBar0 n => n
  | _ => 0

/-- POISONED_MEMORY_WRITE: discarded, counted and logged. -/
def execPoisonedMemoryWrite (space : BarSpace) (s : State) : Host.Outcome State Fault Refusal :=
  .next (if s.awake && s.pcie.dlUp && !s.pcie.squallUr then s.poisonReceived (barFn space) else s)

/-- A link-level error, logged in PF0's AER capability (R178): bit of the correctable status, or of the uncorrectable one (log entry 78). -/
def linkErrorBit : LinkError → Bool × Nat
  | .receiverError => (true, 0)
  | .badTlp => (true, 6)
  | .badDllp => (true, 7)
  | .replayRollover => (true, 8)
  | .replayTimeout => (true, 12)
  | .dataLinkProtocol => (false, 4)
  | .surpriseDown => (false, 5)
  | .flowControl => (false, 13)
  | .overflow => (false, 17)
  | .malformed => (false, 18)
  | .ecrc => (false, 19)

def State.linkErrorLogged (s : State) (e : LinkError) : State :=
  if e = .ecrc && !s.pcie.fns[(0 : Fn)].ecrcChk then s
  else if (linkErrorBit e).1 then s.aerCorrectable 0 (linkErrorBit e).2 else s.aerUncorrectable 0 (linkErrorBit e).2

/-- UNSUPPORTED_REQUEST (R148, R154, R173, R177): AtomicOp and I/O always; memory requests while the function's BARs do not answer or
the level is NONE. Posted writes get no completion. An error of the link is logged (R178; log entry 150). -/
def execUnsupportedRequest (fn : Fn) (kind : UrKind) (s : State) : Host.Outcome State Fault Refusal :=
  let mem := kind = .memRead || kind = .memWrite
  .next (if !s.awake || !s.pcie.dlUp || (mem && s.barOpen fn && decide (s.dev.level ≠ .none)) then s
    else match kind with
      | .link e => s.linkErrorLogged e
      | .memWrite => s.aerUncorrectable fn 20
      | _ => (s.aerUncorrectable fn 20).emit (.unsupported fn))

/-- STALE_COMPLETION (R174): n bytes of a read of an instance that was reset arrive, with EP or without; one that matches no outstanding
read is an Unexpected Completion (R178). -/
def execStaleCompletion (rtag n : Nat) (ep : Bool) (s : State) : Host.Outcome State Fault Refusal :=
  .next (if !s.awake || !s.pcie.dlUp then s
    else match s.pcie.staleReads.find rtag with
      | some r =>
        let left := r.2.1 - n
        let s1 : State := { s with pcie := { s.pcie with
          staleReads := if left = 0 then s.pcie.staleReads.del rtag else s.pcie.staleReads.put rtag (r.1, left, r.2.2),
          stale := satInc s.pcie.stale } }
        if ep then s1.poisonReceived r.1 else s1
      | none => s.aerUncorrectable 0 16)

/-- The L1 state the link enters: a substate needs its enable and PCIE_CLKREQ_L released (06 R169). -/
def PcieS.l1State (p : PcieS) (pciPm clkreqHigh : Bool) : BitVec 3 :=
  let e := p.fns[(0 : Fn)].l1ss
  if !clkreqHigh then 1#3
  else if e.getLsbD (if pciPm then 0 else 2) then 3#3
  else if e.getLsbD (if pciPm then 1 else 3) then 2#3
  else 1#3

/-- ASPM_L1_ENTRY (R169): after the idle time with ASPM L1 enabled; with PF0 in D3hot the link enters L1 by software power management (log
entry 82). -/
def execAspmL1Entry (clkreqHigh : Bool) (s : State) : Host.Outcome State Fault Refusal :=
  let pciPm := s.pcie.fns[(0 : Fn)].d3hot
  .next (if s.awake && s.pcie.dlUp && s.pcie.pmState = 0#3 &&
      (pciPm || (s.pcie.fns[(0 : Fn)].aspmL1 && decide (s.pcie.idleAt + bits (s.reg pPCIE 0x108 32#32) 15 0 ≤ s.now))) then
    { s with pcie := { s.pcie with pmState := s.pcie.l1State pciPm clkreqHigh, ltssm := 21#5 } } else s)

end Sys2Proof.Machine
end

