-- ==== Sys2Proof/Machine/Evr.lean ====
section
/-!
DEFINITION. Programming passes of the AON event buffer and the two event areas (11 R364 to R367).
-/
namespace Sys2Proof.Machine

/-- A record enters the areas (R364, R365): the permanent one by its SEQ, else the circulating one, where a full area gives up
its lowest SEQ among the records no more severe. -/
def State.storeRec (s : State) (r : EvRec) : State :=
  if r.seq < 4096 then { s with nvm := { s.nvm with permanent := s.nvm.permanent ++ [r] } }
  else if s.nvm.circ.length < 65536 then { s with nvm := { s.nvm with circ := s.nvm.circ ++ [r] } }
  else match s.nvm.circ.find? (fun x => x.sev.1 ≤ r.sev.1) with
    | some v => { s with nvm := { s.nvm with circ := s.nvm.circ.filter (fun x => x.seq ≠ v.seq) ++ [r] } }
    | none => s.countDropped

/-- Two dies of different channels, on which each record is kept (R364; which two is the model's choice, log entry 161). -/
def BoardDesc.eventDies (d : BoardDesc) : List Nat :=
  match d.dies.take (16 * d.groups) with
  | x :: r => x :: (r.find? (fun y => y / 32 ≠ x / 32)).toList
  | [] => []

/-- A pass begins: it takes every record in the buffer, and its programs queue in class 1 (R366, 09 R270). -/
def State.passBegin (s : State) : State :=
  let s1 : State := { s with aon := { s.aon with passOn := true, evBuf := s.aon.evBuf.map (fun b => { b with taken := true }) } }
  match s.boot.desc with
  | some d => if s.boot.nandOk then d.eventDies.foldl (fun a x => a.queueOp x 1 (.system .events) []) s1 else s1
  | none => s1

/-- A pass ends: its records are in the areas and their places free. -/
def State.passEnd (s : State) : State :=
  let s1 := (s.aon.evBuf.filter (fun b => b.taken)).foldl (fun a b => a.storeRec b.ev) s
  ({ s1 with aon := { s1.aon with passOn := false, evBuf := s1.aon.evBuf.filter (fun b => !b.taken) } } : State).raise pEVR 2

/-- The triggers of R366, of those outside Squall: 192 records, one of severity 2 or 3, or one that has waited 10 s; and records
retained from before this start. -/
def State.passDue (s : State) : Bool :=
  decide (192 ≤ s.aon.evBuf.length) ||
    s.aon.evBuf.any (fun b => decide (2 ≤ b.ev.sev.1) || decide (b.at_ + 10000000 ≤ s.now) || decide (b.at_ < s.boot.releaseAt))

/-- EVR_PROGRAMMING_PASS (R366), from the first start that reaches GUST. -/
def execEvrProgrammingPass (s : State) : Host.Outcome State Fault Refusal :=
  .next (if s.active && s.boot.tGust.isSome && !s.aon.passOn && s.passDue then s.endLull.passBegin else s)

/-- The programs of a pass that are not done. -/
def State.passOwes (s : State) : Bool :=
  s.med.ops.any (fun o => match o.2.kind with | .system .events => true | _ => false)

/-- EVR_PASS_END (R366): once its programs have ended. -/
def execEvrPassEnd (s : State) : Host.Outcome State Fault Refusal :=
  .next (if s.awake && s.aon.passOn && !s.passOwes then s.passEnd else s)

end Sys2Proof.Machine
end

