-- ==== Sys2Proof/Machine/Squall.lean ====
section
/-!
DEFINITION. The steps of Squall and what ends it (11 R348 to R357; 03 R60 to R64; 15 R481), resets by pin and power (02 R39, 03 R61),
and the crystal monitor (03 R58, R59).
-/
namespace Sys2Proof.Machine

/-! ## Which steps run (R348, R350, R357; 03 R59, R62; 15 R493) -/

/-- Only watchdog or software causes: no mirror notice and no NAND park (R62, R349). -/
def SquallS.resetOnly (q : SquallS) : Bool := decide (q.causes &&& 0x0F#8 = 0#8)

/-- Whether a step runs in this Squall. -/
def State.stepRuns (s : State) (n : Nat) : Bool :=
  match n with
  | 1 => true
  | 9 => !s.squall.short || decide (s.dev.pad.nand ≠ 0#8)
  | 10 => !s.squall.short && !s.squall.resetOnly && !s.clk.backup && (s.windward || s.leeward)
  | 7 => !s.squall.short && !s.sign.blocked
  | 11 => !s.squall.resetOnly
  | _ => !s.squall.short

def State.nextStep (s : State) : Option Nat :=
  ((List.range 12).filter (fun k => decide (s.squall.step < k))).find? (fun k => s.stepRuns k)

/-! ## Flash work of the steps -/

/-- Handles of dirty buffers step 4 flushes: all of them, at GUST at most the budget in force (R357). -/
def State.flushSet (s : State) : List Nat :=
  let l := (s.bpm.bufs.filter (fun e => e.2.dirty)).map (fun e => e.1)
  if s.dev.level = .gust then l.take s.budget else l

def FlashOp.isProgram (o : FlashOp) : Bool :=
  match o.kind with | .program _ _ _ | .parity _ _ _ | .system _ => true | _ => false

/-- Step 3: what waits in classes 2 to 6 is dropped, issued erases stop, issued programs end; no fold or copy runs on (R351).
The programs of dirty buffers wait for step 4 in class 1. -/
def State.dropClasses (s : State) : State :=
  let keep := s.flushSet
  let ops := s.med.ops.filterMap (fun p =>
    if p.2.cls = 1 || (p.2.isProgram && p.2.issued) then some p
    else if p.2.isProgram && p.2.bufs.any (fun h => keep.contains h) then
      some (p.1, { p.2 with cls := 1, bufs := p.2.bufs.filter (fun h => keep.contains h) })
    else none)
  { s with med := { s.med with ops := ops, softQ := [], softIn := [], copies := [], moves := [] } }

/-- Targets whose erases step 3 stops are reset; a die that does not finish its reset within 10 ms is declared failed (09 R272, R302). -/
def State.hungDies (s : State) (hung : List (Fin 256)) : State :=
  (hung.filter (fun x => s.med.ops.any (fun o => o.2.die = x && o.2.issued && o.2.isErase))).foldl (fun a x => a.failDie x.1) s

/-- The stream a buffer's data belongs to. -/
def State.streamOf (s : State) (b : Buf) : Nat :=
  match b.piece with
  | .conv _ _ _ => 0
  | .zone z _ _ _ _ =>
    if b.gust then 8 + b.tenant.1
    else match s.zone z with | some x => if x.replica then 2 else 1 | none => 1
  | _ => 5

/-- Step 4: a dirty buffer no program carries is placed now. -/
def State.flushStart (s : State) : State :=
  match s.boot.desc with
  | none => s
  | some d =>
    let left := s.flushSet.filter (fun h => !s.med.ops.any (fun p => p.2.bufs.contains h))
    left.foldl (fun a h => match a.bpm.bufs.find h with
      | some b => (a.placeIn d (a.streamOf b) 1 [(some h, b.piece)]).getD a
      | none => a) s

/-- Step 5: the parity page of every row that is open, and of rows whose queued parity page step 3 dropped, over the pages written (09 R290).
The open row takes no more data: the next start goes on in the next row (log entry 160). -/
def State.parityStart (s : State) : State :=
  match s.boot.desc with
  | none => s
  | some d => s.nvm.sbs.foldl (fun a p =>
      let b := p.2
      let n := b.rowSlots d
      if b.use ≠ .slc then a
      else
        let rows := ((List.range ((b.slots + (n - 1)) / n)).filter (fun r => decide (b.parity ≤ r))).filter
          (fun r => !a.med.ops.any (fun o => match o.2.kind with | .parity k r' _ => k = p.1 && r' = r | _ => false))
        rows.foldl (fun (x : State) r => x.queueOp (parityBlock d p.1 b).1 1 (.parity p.1 r (min n (b.slots - n * r))) [])
          (a.updSb p.1 (fun x => { x with slots := (b.slots + (n - 1)) / n * n,
                                          open_ := x.open_ && decide ((b.slots + (n - 1)) / n * n < b.capacity d) }))) s

/-- The die a zone's tag-log tail is programmed on, and those of an event pass: two dies of different channels (11 R364, log entry 161). -/
def BoardDesc.tailDie (d : BoardDesc) (zone : Nat) : Nat := d.dies.getD (zone % (16 * d.groups)) 0

/-- Step 6: the tag-log tail of every zone with unwritten entries (11 R350). -/
def State.tailStart (s : State) : State :=
  match s.boot.desc with
  | none => s
  | some d => (s.nvm.zones.filter (fun p => p.2.log.any (fun e => !e.entryOn))).foldl
      (fun a p => a.queueOp (d.tailDie p.1) 1 (.system (.tagTail p.1)) []) s

/-- Appends that have passed Pipe G and are not in the chain yet (step 2). -/
def State.chainOwes (s : State) : Bool :=
  s.hqm.cmds.any (fun e => e.2.desc.opc = 0x03 && e.2.phase = .shared && !e.2.chained && e.2.gtag.isSome &&
    (s.zone e.2.zoneId).isSome && s.tnt[e.2.tenant].gcm.isSome)

/-- A ZONE_SEAL that core 3 has started (step 7). -/
def State.sealOwes (s : State) : Bool := s.hqm.cmds.any (fun e => e.2.desc.opc = 0x0A && e.2.phase = .core3)

/-- Whether the work of the step in progress has ended. -/
def State.stepDone (s : State) : Bool :=
  match s.squall.step with
  | 2 => !s.chainOwes
  | 3 => !s.med.ops.any (fun p => p.2.isProgram && p.2.issued)
  | 4 | 5 | 6 | 9 => !s.med.ops.any (fun p => p.2.cls = 1)
  | 7 => !s.sealOwes
  | _ => true

/-! ## The system record (step 8) -/

def State.squallSummary (s : State) : SqSummary :=
  { causes := s.squall.causes, lastStep := 8, complete := false, backup := s.clk.backup, dirty := s.squall.dirty,
    vcap0 := s.squall.vcap0, vcap8 := s.vcapNow, reported := false }

/-- The system record: chain heads, meter state, gust metadata at GUST, the times and the summary (R350; 12 R374, R384; 15 R483;
R521). -/
def State.systemRecord (s : State) : State :=
  let s0 := if s.boot.tGust.isSome then s.meterSave else s
  let s1 := if s.dev.level = .gust then s0.saveGust else s0
  { s1 with
    nvm := { s1.nvm with storedHeads := s1.nvm.chains, optStored := s.opSecs, optExact := true, summary := s.squallSummary,
                         seqReserved := if s.aon.seqKnown then max s1.nvm.seqReserved (s.aon.nextSeq + 1024) else s1.nvm.seqReserved },
    squall := { s1.squall with vcap8 := s.vcapNow } }

/-- The step that has ended last, as the summary shows it (log entry 85). -/
def State.markStep (s : State) (n : Nat) : State :=
  if s.squall.short || decide (n < 8) then s
  else { s with nvm := { s.nvm with summary := { s.nvm.summary with lastStep := n } } }

/-! ## Entering and leaving a step -/

/-- What begins with a step. -/
def State.enterStep (s : State) (n : Nat) : State :=
  let s1 : State := { s with squall := { s.squall with step := n } }
  match n with
  | 3 => s1.dropClasses
  | 4 => s1.flushStart
  | 5 => s1.parityStart
  | 6 => s1.tailStart
  | 9 => (if s1.aon.passOn then s1.passEnd else s1).passBegin
  | _ => s1

/-- Channel groups wake for the steps that program (01 Lull wake of step 1). -/
def State.wakeChannels (s : State) : State :=
  { s with pwr := { s.pwr with doms := Vector.ofFn (fun k : Fin 5 =>
      if k.1 < 4 then { s.pwr.doms[k] with st := .on, loaded := true } else s.pwr.doms[k]) } }

/-- What a step has done when it ends. -/
def State.leaveStep (s : State) (n : Nat) : State :=
  match n with
  | 1 => s.wakeChannels
  | 6 => { s with nvm := { s.nvm with zones := s.nvm.zones.mapv (fun _ z =>
      { z with log := z.log.map (fun e => { e with entryOn := true }) }) } }
  | 8 => s.systemRecord
  | 9 => if s.aon.passOn then s.passEnd else s
  | 10 => s.sendPkt (s.newPkt 0x27 0 s.partner noTenant 0 [])
  | _ => s

/-! ## The end (R355; 03 R60, R62, R64) -/

/-- The chip reset that ends a watchdog or software Squall (R62); its cause is in the accumulator since it occurred (R63). -/
def State.causeReset (s : State) : State := (if s.squall.resetHeld then s.addCause .chip else s).restart

/-- The final hold state (step 11): pads parked, key pages zeroised, everything but AON off; the operating time stops. -/
def State.finalHold (s : State) : State :=
  let s1 := (s.zeroiseAll).addCause .squallRan
  { s1 with
    dev := { s1.dev with pad := { s1.dev.pad with parked := true }, dramPins := { s1.dev.dramPins with cke := false } },
    pwr := { s1.pwr with doms := s1.pwr.doms.map (fun x => { x with st := .off, loaded := false }) },
    aon := { s1.aon with optBase := s.opSecs, optAt := s.now, optRun := false,
                         thermals := if s.squall.causes = sqTHERMAL then s.aon.thermals + 1 else s.aon.thermals },
    squall := { s1.squall with hold := true, holdAt := s.now } }

/-- Squall has run its last step. A watchdog or software Squall ends in the chip reset, also after a join by causes that restart
nothing themselves (log entry 84); a held RESET_IN_L takes effect at once (02 R39). -/
def State.squallOver (s : State) : State :=
  let s1 : State := if s.squall.short then s else { s with nvm := { s.nvm with summary := { s.nvm.summary with complete := true } } }
  if s1.squall.resetOnly then s1.causeReset
  else
    let s2 := s1.finalHold
    let supply := decide (s.squall.causes &&& 0x03#8 ≠ 0#8)
    if s.squall.resetHeld then s2.internalReset .chip
    else if decide (s.squall.causes &&& 0x30#8 ≠ 0#8) && !supply && !s.squall.clock then s2.restart
    else s2

/-- SQUALL_STEP_END (R350): the step in progress ends once its work has, and the next step that runs begins. Step 3 begins with the resets of the
targets whose erases it stops; `hung` names the dies that do not finish theirs. -/
def execSquallStepEnd (hung : List (Fin 256)) (s : State) : Host.Outcome State Fault Refusal :=
  if s.squall.running && !s.squall.hold && s.stepDone then
    let s1 := (s.leaveStep s.squall.step).markStep s.squall.step
    match s1.nextStep with
    | some n => .next ((if n = 3 then s1.hungDies hung else s1).enterStep n)
    | none => .next s1.squallOver
  else .next s

/-- The condition of 03 R64 has stayed clear for 100 ms: for PFAIL the pin has been high that long since its last fall, for VSUP no
observation has failed; a condition that is no cause of the Squall does not count. -/
def State.supplyClear (s : State) (pfailHigh : Nat) : Bool :=
  (!s.squall.causes.getLsbD 0 || (decide (100000 ≤ pfailHigh) && decide (s.aon.pfailAt + pfailHigh ≤ s.now))) &&
    (!s.squall.causes.getLsbD 1 || decide (s.aon.vsupAt + 100000 ≤ s.now))

/-- SQUALL_RESTART (03 R64): in the final hold the supply condition that started the Squall is clear. The row carries for how many
microseconds PFAIL_L has been high (log entry 87). -/
def execSquallRestart (pfailHigh : Nat) (s : State) : Host.Outcome State Fault Refusal :=
  .next (if s.squall.hold && decide (s.squall.causes &&& 0x03#8 ≠ 0#8) && !s.squall.clock && s.supplyClear pfailHigh then
    s.internalReset .squallRestart else s)

/-- The wait of a thermal restart in µs: 60 s, doubling to 960 s (15 R481). -/
def thermalWait (n : Nat) : Nat := min 960 (60 * 2 ^ (n - 1)) * 1000000

/-- THERMAL_RESTART (15 R481). A thermal Squall that CLOCK has joined is not all THERMAL, and nothing but RESET_IN_L or a power-on ends
its final hold (log entry 84). -/
def execThermalRestart (s : State) : Host.Outcome State Fault Refusal :=
  .next (if s.squall.hold && decide (s.squall.causes = sqTHERMAL) &&
      decide (s.squall.holdAt + thermalWait s.aon.thermals ≤ s.now) then s.internalReset .squallRestart else s)

/-! ## Triggers -/

/-- PFAIL_L_FALL (R348): PFAIL_L is sampled low. -/
def execPfailLFall (s : State) : Host.Outcome State Fault Refusal := .next (s.squallTrigger sqPFAIL)

/-- VSUP_CONVERSION (15 R474, R348; 03 R72). A conversion below the trip starts Squall, during a probe too; in the final hold it stands for the
comparator of 03 R64, which needs 5 % above the trip (log entry 87). -/
def execVsupConversion (mV : Nat) (s : State) : Host.Outcome State Fault Refusal :=
  match s.boot.desc with
  | none => .next s
  | some d =>
    if s.squall.hold then .next (if 100 * mV < 105 * d.vsupTrip then s.squallTrigger sqVSUP else s)
    else .next (if s.awake && decide (mV < d.vsupTrip) then s.squallTrigger sqVSUP else s)

/-- WATCHDOG_EXPIRY (03 R62); in ROM recovery the watchdog is not armed (04, edge case), while a core is
halted it is paused (15 R490). -/
def execWatchdogExpiry (s : State) : Host.Outcome State Fault Refusal :=
  .next (if s.dev.romRecovery || s.dbg.halted ≠ 0#4 then s else s.squallTrigger sqWATCHDOG)

/-! ## Resets (02 R39, 03 R61, 16 R512) -/

/-- POWER_ON_RESET: the whole chip, AON included; NOR, OTP and the media keep what they hold. -/
def execPowerOnReset (s : State) : Host.Outcome State Fault Refusal :=
  .next { State.reset with
    pending := s.pending, now := s.now, freeCtr := s.freeCtr, outbox := s.outbox,
    nvm := s.keptNvm }

/-- RESET_IN_L_ASSERT. A low shorter than 1 µs is ignored; one of 1.0 to 1.1 µs may or may not reset (16 R512): a free value
decides. During Squall the reset waits for the final hold; a fall of PFAIL_L in the same clock, which still waits in the queue, starts
Squall first (02 R40, log entry 136). -/
def execResetInLAssert (lowNs : Nat) (s : State) : Host.Outcome State Fault Refusal :=
  let s0 := if s.pending.contains .pfailLFall then s.squallTrigger sqPFAIL else s
  let low : State := { s0 with pins := { s0.pins with resetIn := false } }
  let act : State :=
    if !s.pins.resetIn then s
    else if s0.squall.running && !s0.squall.hold then { low with squall := { s0.squall with resetHeld := true } }
    else (low.addCause .chip).chipReset
  if lowNs < 1000 then .next s
  else if lowNs ≤ 1100 then .next (if s.freeVal.getLsbD 0 then act.drawn else s.drawn)
  else .next act

/-! ## The crystal monitor (03 R58, R59) -/

/-- CRYSTAL_MONITOR_WINDOW: the count of a window, and whether the monitor trips. -/
def execCrystalMonitorWindow (count : BitVec 16) (noEdge pllLost : Bool) (s : State) : Host.Outcome State Fault Refusal :=
  if !s.awake then .next s
  else
    let inRange := decide (1440 ≤ count.toNat) && decide (count.toNat ≤ 1760)
    let ok := inRange && !noEdge && !pllLost
    .next { s with clk := { s.clk with xmon := count, xtalOk := inRange && !noEdge, tripped := s.clk.tripped || !ok,
                                       pllLock := s.clk.pllLock && !pllLost } }

/-- UTC at HOST or SIGNED lapses to CARRIED when the clocks switch (12 R373, R374). -/
def State.utcLapse (s : State) : State :=
  if s.mtr.utcState = .host || s.mtr.utcState = .signed then { s with mtr := { s.mtr with utcState := .carried } } else s

/-- CRYSTAL_MONITOR_TRIP: the clocks switch to the backup ring oscillator, the fabric stops, Squall starts or goes on. -/
def execCrystalMonitorTrip (s : State) : Host.Outcome State Fault Refusal :=
  if s.awake && s.clk.tripped && !s.clk.backup then
    let s1 := (({ s with clk := { s.clk with backup := true } } : State).addCause .clockLoss).utcLapse
    .next ((s1.linksDown .down).squallTrigger sqCLOCK)
  else .next s

end Sys2Proof.Machine
end

