-- ==== Sys2Proof/Machine/Power.lean ====
section
/-!
DEFINITION. Gateable domains, the drain fence and Lull (03 R65 to R71).
-/
namespace Sys2Proof.Machine

/-- Channels of a group have no flash operation and no fold, refresh or collection scheduled on them (R66). -/
def State.groupQuiet (s : State) (g : Nat) : Bool :=
  let mine (die : Nat) : Bool := decide (die / 64 = g)
  let onMe (key : Nat) : Bool := match s.nvm.sbs.find key with | some b => b.blocks.any (fun x => mine x.1) | none => false
  !s.med.ops.any (fun p => mine p.2.die.1) && !s.med.moves.any (fun m => onMe m.src || onMe m.dst) &&
    !s.med.copies.any (fun c => onMe c.src) &&
    !s.nvm.sbs.any (fun p => p.2.listed && p.2.blocks.any (fun x => mine x.1)) &&
    !(match s.boot.desc with | some d => s.med.collecting.any (fun k => (d.groupDies k).any mine) | none => false)

/-- FAB has no live link and no mirror role (R66). -/
def State.fabQuiet (s : State) : Bool :=
  !(List.finRange 4).any (fun p => s.vfl[p].st = .up || s.vfl[p].lock) && !s.windward && !s.leeward

/-- Whether a domain meets R66, its idle time apart. -/
def State.domQuiet (s : State) (d : Fin 5) : Bool := if d.1 < 4 then s.groupQuiet d.1 else s.fabQuiet

def State.updDom (s : State) (d : Fin 5) (f : Domain → Domain) : State :=
  { s with pwr := { s.pwr with doms := s.pwr.doms.set d (f s.pwr.doms[d]) } }

/-- DOMAIN_GATE (R66, R67 step 1): the drain fence rises. A channel group waits for PWR_GATE_IDLE. -/
def execDomainGate (d : Fin 5) (s : State) : Host.Outcome State Fault Refusal :=
  let allow := (s.reg pPWR 0x100 0x7C#32).getLsbD (2 + d.1)
  let idle := d.1 = 4 || decide (s.pwr.doms[d].idleAt + 10 * bits (s.reg pPWR 0x108 200#32) 15 0 ≤ s.now)
  .next (if s.active && allow && s.pwr.doms[d].st = .on && decide (s.pwr.doms[d].readyAt ≤ s.now) && idle && s.domQuiet d then
    s.updDom d (fun x => { x with st := .fenced }) else s)

/-- Packets a domain has accepted and not completed: the flash operations of its channels that have issued (R67, log entry 88). -/
def State.domInFlight (s : State) (d : Fin 5) : Nat :=
  if d.1 < 4 then s.inFlight (fun o => decide (o.die.1 / 64 = d.1)) else 0

/-- DOMAIN_POWER_DOWN (R67 step 5); its engines lose their microcode (04 R94). -/
def execDomainPowerDown (d : Fin 5) (s : State) : Host.Outcome State Fault Refusal :=
  .next (if s.awake && s.pwr.doms[d].st = .fenced && s.domInFlight d = 0 then
    s.updDom d (fun x => { x with st := .off, loaded := false }) else s)

/-- A domain wakes within 50 µs with its engines loaded (R65, R69, 04 R94). -/
def State.domWake (s : State) (d : Fin 5) : State :=
  if s.pwr.doms[d].st = .on then s
  else s.updDom d (fun x => { st := .on, idleAt := s.now, readyAt := s.now + 50, loaded := true })

/-- A NoC packet to a domain: one that finds the fence up gets a retry response, which PWR_FENCE_RETRY counts, and wakes the domain
(R67 step 3, R69, R82). -/
def State.packetTo (s : State) (d : Fin 5) : State :=
  if s.pwr.doms[d].st = .on then s
  else ({ s with pwr := { s.pwr with retries := satInc s.pwr.retries } } : State).domWake d

/-- DOMAIN_WAKE (R67 step 3, R69). -/
def execDomainWake (d : Fin 5) (s : State) : Host.Outcome State Fault Refusal :=
  .next (if s.active then s.packetTo d else s)

/-- No command in flight and no doorbell pending (R70). -/
def State.noCommands (s : State) : Bool :=
  s.hqm.cmds = [] && !allTids.any (fun t => (List.finRange 8).any (fun q =>
    let x := s.tnt[t].qp q
    x.enabled && x.sqHead ≠ x.sqTail))

/-- LULL_ENTRY (R70). Every gateable domain is off in Lull, so each must have nothing to do (log entry 86). -/
def execLullEntry (s : State) : Host.Outcome State Fault Refusal :=
  let idle := decide (s.pwr.idleSince + 100 * bits (s.reg pPWR 0x10C 100#32) 15 0 ≤ s.now)
  if s.active && !s.pwr.lull && (s.reg pPWR 0x100 0x7C#32).getLsbD 0 && s.noCommands && !s.probeRunning && !s.pwr.probeDue &&
      s.med.moves = [] && s.med.copies = [] && s.med.ops = [] && !s.aon.passOn && idle && s.fabQuiet then
    .next { s with pwr := { s.pwr with lull := true, doms := s.pwr.doms.map (fun x => { x with st := .off, loaded := false }) } }
  else .next s

/-- LULL_EXIT (R71): any of its events ends Lull. -/
def execLullExit (_ev : WakeEvent) (s : State) : Host.Outcome State Fault Refusal :=
  .next s.endLull

end Sys2Proof.Machine
end

