-- ==== Sys2Proof/Machine/Start.lean ====
section
/-!
DEFINITION. The later start (04 R92 steps 13 to 20): GUST, power-fail replay, the gust merge, FULL and the entry to RECOVERY; and the
event input (13 R420, R421; 11 R356).
-/
namespace Sys2Proof.Machine

/-! ## What a start finds (11 R358 to R360) -/

/-- Whether replay treats the Squall before this start as complete (R358 step 1). -/
def State.squallComplete (s : State) : Bool := s.aon.rstCause.getLsbD 6 || !s.boot.prevFull

/-- Entries this start has written itself. -/
def State.ofThisStart (s : State) (e : AppRec) : Bool := decide (e.cycles = BitVec.ofNat 32 s.cycleCount)

/-- An entry of an earlier start that is not wholly on media (R358 step 4). -/
def State.offMedia (s : State) (e : AppRec) : Bool := !s.ofThisStart e && !(e.blocksOn && e.entryOn)

/-- The lowest discarded entry of a tenant and the highest kept above it. -/
def lowestOf (l : List AppRec) : Option AppRec :=
  l.foldl (fun a e => match a with | none => some e | some x => if e.index < x.index then some e else a) none
def highestOf (l : List AppRec) : Option AppRec :=
  l.foldl (fun a e => match a with | none => some e | some x => if x.index < e.index then some e else a) none

/-- Whether replay discards an entry of a tenant: not all of it is on media; after a completed Squall those above such an entry go with it, since
what replay discards then is the tail of the chain (R358 step 4, R359). -/
def State.lostEntry (s : State) (t : Tid) (e : AppRec) : Bool :=
  s.offMedia e || (!s.ofThisStart e && s.aon.rstCause.getLsbD 6 &&
    (s.entriesOf t).any (fun p => s.offMedia p.2 && decide (p.2.index < e.index)))

/-- Indices a tenant misses below its highest kept index (R360). -/
def State.missing (s : State) (t : Tid) : List Nat :=
  let old := ((s.entriesOf t).map (fun p => p.2)).filter (fun e => !s.ofThisStart e)
  match highestOf (old.filter (fun e => !s.lostEntry t e)) with
  | none => []
  | some h => (old.filter (fun e => s.lostEntry t e && decide (e.index < h.index))).map (fun e => e.index)

/-- A zone with its discarded entries gone; the write pointer ends after the last kept append (R358 step 4). -/
def State.keepZone (s : State) (z : Zone) : Zone :=
  let log := z.log.filter (fun e => !s.lostEntry z.owner e)
  if log.length = z.log.length then z
  else { z with log := log, wp := log.foldl (fun a e => max a (e.offset + blocksOf e.len)) 0 }

/-- The head and index after replay: those of the highest kept entry, or of the entry before the lowest discarded one (R358 step 5,
R359). -/
def State.keptHead (s : State) (t : Tid) : Chain :=
  let l := (s.entriesOf t).map (fun p => p.2)
  match lowestOf (l.filter (s.lostEntry t)) with
  | none => s.nvm.chains[t]
  | some e0 =>
    match highestOf (l.filter (fun e => !s.lostEntry t e && decide (e0.index < e.index))) with
    | some h => { index := h.index, head := h.head }
    | none => { index := e0.index - 1, head := e0.prev }

/-- Tag logs, write pointers and heads of some tenants restored from what is on media (R358 steps 3 to 5). -/
def State.restore (s : State) (p : Tid → Bool) : State :=
  let zones := s.nvm.zones.mapv (fun _ z => if p z.owner then s.keepZone z else z)
  let n : Nvm := { s.nvm with
    zones := zones,
    chains := Vector.ofFn (fun t : Fin 64 => if p t then s.keptHead t else s.nvm.chains[t]) }
  { s with nvm := { n with sbs := n.sbs.mapv (fun _ b => { b with pieces := trimPieces n b.pieces }) } }

/-- The chain a tenant had when this start began to extend it. -/
def State.chainBefore (s : State) (t : Tid) : Chain :=
  match lowestOf (((s.entriesOf t).map (fun p => p.2)).filter s.ofThisStart) with
  | some e => { index := e.index - 1, head := e.prev }
  | none => s.nvm.chains[t]

/-! ## GUST (R92 steps 13 and 14) -/

/-- Adeit reads the SEQ reservation: records buffered since a power-on reset take their SEQ values (11 R521). -/
def State.readSeq (s : State) : State :=
  let a := s.aon
  let a1 : AonS := if a.seqKnown then a else
    { a with seqKnown := true, nextSeq := s.nvm.seqReserved + a.evBuf.length,
             evBuf := a.evBuf.zipIdx.map (fun p => { p.1 with ev := { p.1.ev with seq := s.nvm.seqReserved + p.2 } }) }
  { s with aon := a1, nvm := { s.nvm with seqReserved := max s.nvm.seqReserved (a1.nextSeq + 1024) } }

/-- The known-answer tests of the start, bit n − 1 for test n of the table "DETAIL of status-bit events": Pipe X encrypt and decrypt, Pipe G,
SHA-256, ECDSA. Each failing test sets its status bit and writes a record, whose severity the manual does not give (log entry 153); a pipe
that fails is fenced (08 R241). -/
def State.katResults (s : State) (kat : BitVec 5) : State :=
  let s1 := (List.range 5).foldl (fun (a : State) k =>
    if kat.getLsbD k then a else a.drawn.raiseRec pCIPH 5 (Fin.ofNat 4 a.freeVal.toNat) noTenant [BitVec.ofNat 8 (k + 1)]) s
  let xOk := kat.getLsbD 0 && kat.getLsbD 1
  let gOk := kat.getLsbD 2
  let s2 : State := { s1 with ciph := { s1.ciph with x := { s1.ciph.x with kat := xOk }, g := { s1.ciph.g with kat := gOk } } }
  let s3 := if xOk then s2 else s2.fencePipe .x 0x02 0 noTenant 0 0
  let s4 := if gOk then s3 else s3.fencePipe .g 0x02 0 noTenant 0 0
  if kat.getLsbD 3 && kat.getLsbD 4 then s4 else s4.raise pSIGN 2

/-- The persisted keys of the tenants a level serves are loaded before it (07 R217). -/
def State.reloadAll (s : State) : State := allTids.foldl State.reloadKeys s

/-- The PMIC's initialisation transactions have been sent, or can no longer be (R92 step 12, 13 R416 to R418). -/
def State.pmicSettled (s : State) : Bool := s.dev.pad.i2ci && (s.i2ci.initNext.isNone || s.i2ci.stuck)

/-- GUST: the level is reached after steps 10 to 12 (R92, R96); gust zones and the chains of their tenants stand as the reserve shows
them (step 13). A signing unit that fails its tests leads to RECOVERY, with a cause the manual does not give (08 R241; log entry 153). -/
def execGust (kat : BitVec 5) (s : State) : Host.Outcome State Fault Refusal :=
  if s.active && s.dev.level = .none && !s.dev.romRecovery && s.boot.nandOk && s.boot.policy.isSome &&
      s.pmicSettled then
    let s0 := s.readSeq.katResults kat
    if !(kat.getLsbD 3 && kat.getLsbD 4) then .next (s0.drawn.recover (s0.freeVal.setWidth 8) 0)
    else
    let s1 := s0.reloadAll.restore (fun t => s.tnt[t].gustTenant)
    let s2 : State := { s1 with
      boot := { s1.boot with tGust := some ((s.now - s.boot.releaseAt) / 1000) },
      evr := { s1.evr with prev := { s1.nvm.summary with complete := s.squallComplete && s1.nvm.summary.complete } },
      pwr := { s1.pwr with idleSince := s.now } }
    let s3 := s2.meterStart (decide (s.nvm.starts ≤ 1))
    let s4 := if s.nvm.evDropped = 0 then s3 else s3.record 0x1B44 1 noTenant (leBytes 4 s.nvm.evDropped)
    .next (s4.setLevel .gust).dispStart
  else .next s

/-! ## Power-fail replay (R92 step 17) -/

/-- EVR_SQUALL_CAUSE, _DIRTY and _VCAP of a summary (11 R371). -/
def SqSummary.causeWord (q : SqSummary) : Word :=
  fieldW q.causes.toNat 0 ||| fieldW q.lastStep 8 ||| bitW q.complete 12 ||| bitW q.backup 13
def SqSummary.dirtyWord (q : SqSummary) : Word := fieldW (min q.dirty 0xFFFFF) 0
def SqSummary.vcapWord (q : SqSummary) : Word := fieldW (min q.vcap0 0xFFFF) 0 ||| fieldW (min q.vcap8 0xFFFF) 16

/-- The record of the Squall before this start, and SQUALL_INCOMPLETE (11 R362, R372). -/
def State.reportSquall (s : State) (complete : Bool) : State :=
  let q := { s.nvm.summary with complete := complete && s.nvm.summary.complete }
  let s1 : State := { s with evr := { s.evr with prev := q, incomplete := !complete }, nvm := { s.nvm with summary := { s.nvm.summary with reported := true } } }
  if !complete then
    (s1.record 0x1B42 3 noTenant ([BitVec.ofNat 8 q.lastStep] ++ zeroBytes 3 ++ leBytes 4 q.causeWord.toNat)).raise pEVR 3
  else if !s.nvm.summary.reported then
    s1.record 0x1B41 1 noTenant (leBytes 4 q.causeWord.toNat ++ leBytes 4 q.dirtyWord.toNat ++ leBytes 4 q.vcapWord.toNat)
  else s1

/-- Lost acknowledged appends of a tenant: a critical record, EVR_ACK_LOST and its bit (R360). -/
def State.reportLost (s : State) (t : Tid) (miss : List Nat) : State :=
  if miss = [] then s
  else
    let s1 := s.record 0x1B43 3 (tidByte t) ([tidByte t] ++ zeroBytes 7 ++ leBytes 8 miss.length ++ leBytes 8 (miss.foldl min (miss.headD 0)))
    (({ s1 with nvm := { s1.nvm with ackLost := min (s1.nvm.ackLost + miss.length) 0xFFFFFFFF } } : State).raise pEVR 4)

/-- Step 6 of R358, and R360: a head that differs from the stored one, or a loss, sets REPLAY_MISMATCH (log entry 93). -/
def State.compareHead (s : State) (t : Tid) (lost : Bool) : State :=
  let was := s.nvm.storedHeads[t]
  let c := s.chainBefore t
  if lost || c ≠ was then s.drawn.raiseRec pSEAL 1 (Fin.ofNat 4 s.freeVal.toNat) (tidByte t) (leBytes 8 was.index ++ leBytes 8 c.index) else s

/-- Conventional blocks whose program did not reach media fall back to what they held (07 R216). -/
def Nvm.revertConv (n : Nvm) : Nvm :=
  { n with conv := n.conv.filterMap (fun p =>
      if p.2.onMedia then some (p.1, { p.2 with old := none })
      else p.2.old.map (fun o => (p.1, { p.2 with cipher := o.1, poison := o.2.1, onMedia := true, old := none, seq := o.2.2 }))) }

/-- After the start: erases that a power loss stopped are queued again; a superblock whose copies were never mapped is erased, or closed where it
holds other mapped data (09 R272, R295). -/
def State.redoErases (s : State) : State :=
  s.nvm.sbs.foldl (fun a p =>
    if p.2.use = .free then a.queueErases p.1 p.2
    else if !p.2.unmapped then a
    else if a.nvm.validCount p.2 = 0 then a.eraseSb p.1
    else a.updSb p.1 (fun x => { x with unmapped := false, open_ := false })) s

/-- The journal's TRIM records: a block goes back to no codeword with a lower WRITE_SEQ (09 R285). -/
def Nvm.applyTrims (n : Nvm) : Nvm :=
  { n with
    conv := n.conv.filter (fun e => !n.trims.any (fun r =>
      decide (convKey r.tenant r.lba ≤ e.1) && decide (e.1 < convKey r.tenant r.lba + r.n) && decide (e.2.seq < r.seq)))
    trims := [] }

/-- Zone resets that were recorded and not done take effect (11 R370). -/
def State.redoResets (s : State) : State :=
  (s.nvm.zresets.filter (fun r => !r.done)).foldl (fun a r => a.emptyZone r.zone) s

/-- POWER_FAIL_REPLAY (R358 to R360): once the extended part is in DRAM. The start's scrub pass begins (09 R300). -/
def execPowerFailReplay (s : State) : Host.Outcome State Fault Refusal :=
  if s.active && s.dev.level = .gust && s.boot.extOk && !s.boot.replayed then
    let complete := s.squallComplete
    let miss (t : Tid) : List Nat := if complete then [] else s.missing t
    let s1 := s.redoResets.restore (fun _ => true)
    let s2 : State := { s1 with nvm := s1.nvm.revertConv.applyTrims }
    let s3 := allTids.foldl (fun a t => (a.reportLost t (miss t)).compareHead t (decide (miss t ≠ []))) (s2.reportSquall complete)
    let s4 := s3.redoErases
    .next { s4 with
      boot := { s4.boot with replayed := true }, med := { s4.med with scrubPass := true, scrubAt := s.opSecs },
      nvm := { s4.nvm with sbs := s4.nvm.sbs.mapv (fun _ b => { b with scrubRow := 0 }) } }
  else .next s

/-! ## Gust merge and FULL (R92 steps 19 and 20, R100) -/

/-- The first probe of the start has been tried, or none is possible (R92 step 18). -/
def State.probeSettled (s : State) : Bool :=
  !s.probeRunning && (s.pwr.probeAt.isSome || s.pwr.noProbe || s.i2ci.stuck)

/-- Appends in flight to a zone. -/
def State.inFlightTo (s : State) (z : Nat) : Bool :=
  s.hqm.cmds.any (fun e => e.2.desc.opc = 0x03 && (e.2.phase = .shared || e.2.phase = .waiting) && e.2.zoneId = z)

/-- A used gust zone that waits for its merge. -/
def Zone.toMerge (z : Zone) : Bool := z.inGustSet && z.used

/-- GUST_MERGE (R100): the zone keeps everything but its place in the set; after the tenant's last one its gust superblocks are
ordinary SLC data. -/
def execGustMerge (zone : BitVec 20) (s : State) : Host.Outcome State Fault Refusal :=
  match s.zone zone.toNat with
  | none => .next s
  | some z =>
    if s.active && s.dev.level = .gust && s.boot.replayed && s.probeSettled && z.toMerge && !s.inFlightTo zone.toNat then
      let s1 := s.updZone zone.toNat (fun x => { x with inGustSet := false, used := false })
      let last := !s1.nvm.zones.any (fun p => p.2.owner = z.owner && p.2.toMerge)
      .next (if last then
        { s1 with
          nvm := { s1.nvm with sbs := s1.nvm.sbs.mapv (fun _ b =>
            if b.stream = 8 + z.owner.1 then { b with stream := 1, open_ := false } else b) } }
        else s1)
    else .next s

/-- Refill one gust set to its size with EMPTY zones, by loop recycling where the quota leaves none (R100). -/
def State.refillSet (s : State) (t : Tid) : Nat → State
  | 0 => s
  | n + 1 =>
    match s.takeZone t true true with
    | .ok (z, s1) => State.refillSet (s1.updZone z (fun x => { x with inGustSet := true, used := false })) t n
    | .error _ => s

/-- The gust sets as the descriptor asks for them. -/
def State.refillGust (s : State) (d : BoardDesc) : State :=
  let s0 : State := { s with nvm := { s.nvm with zones := s.nvm.zones.mapv (fun _ z =>
    if z.inGustSet && !s.tnt[z.owner].gustTenant then { z with inGustSet := false, used := false } else z) } }
  (d.gustEnts.filter (fun e => decide (e.1 < 64) && s.tnt[(Fin.ofNat 64 e.1 : Tid)].gustTenant)).foldl (fun a e =>
    let t : Tid := Fin.ofNat 64 e.1
    let have_ := a.nvm.zones.countv (fun z => z.owner = t && z.inGustSet)
    a.refillSet t (e.2 - have_)) s0

/-- The slot record, the mark and the rollback floor at FULL (R90, R103). -/
def State.confirmSlot (s : State) : State :=
  match s.boot.booted with
  | none => s
  | some b =>
    let s1 := s.writeRec { s.ctlRec with active := b, armed := none, attempts := 0 }
    { s1 with
      aon := { s1.aon with mark := none, markFault := false },
      nvm := { s1.nvm with floor := min 63 (max s1.nvm.floor (fieldLe (s.slotHeader b) 0x10 4)) } }

/-- Seconds of an OP_TIME word. -/
def secsOf (w : Word) : Nat := w.toNat / 4096 * 3600 + w.toNat % 4096

/-- Pulses latched before FULL take effect (R421, 11 R356). -/
def State.applyLatched (s : State) : State :=
  let s1 : State := { s with aon := { s.aon with evLatch := [] } }
  s.aon.evLatch.foldl (fun a w => a.holdPulse (secsOf w)) s1

/-- FULL (R92 step 20, R96, R100). -/
def execFull (s : State) : Host.Outcome State Fault Refusal :=
  match s.boot.desc with
  | none => .next s
  | some d =>
    if s.active && s.dev.level = .gust && s.boot.replayed && s.boot.dramOk && s.probeSettled &&
        !s.nvm.zones.any (fun p => p.2.toMerge) then
      let s1 := (s.refillGust d).confirmSlot
      let s2 : State := { s1 with
        boot := { s1.boot with tFull := some ((s.now - s.boot.releaseAt) / 1000) },
        dev := { s1.dev with pad := { s1.dev.pad with vfl := d.ports } },
        nvm := { s1.nvm with reachedFull := true },
        vfr := { s1.vfr with claimAt := s.now, advDue := true } }
      let s3 := (s2.setLevel .full).ackCause.applyLatched.startPorts
      -- Under 14 R447 a descriptor whose NODE_ADDR is no address leaves the node unaddressed, with a warning record.
      let s4 := if d.ports ≠ 0 && !s3.addressed then s3.raiseRecStatus pVFR 1 2 noTenant else s3
      .next s4.pairCheck
    else .next s

/-- Whether the check of a cause is one that Adeit is making at this point of the start, and that has not passed (R92, R95): the policy block,
the targets of step 10, the DRAM of step 15, the extended part of step 16. POLICY and IMAGE_EXT fail by what the NOR holds; the others
by what the parts answered, which the command reports (log entry 141). -/
def State.checkFails (s : State) (cause detail : Byte) : Bool :=
  match s.boot.desc, s.boot.booted with
  | some d, some b =>
    match cause.toNat with
    | 0x15 => s.dev.level = .none && s.boot.policy.isNone && (s.choosePolicy d).isNone
    | 0x10 | 0x11 => s.dev.level = .none && s.boot.policy.isSome && !s.boot.nandOk &&
        d.targets.contains (detail.toNat / 8, detail.toNat % 8)
    | 0x12 | 0x13 | 0x14 => s.dev.level = .gust && !s.boot.dramOk && detail = 0
    | 0x20 => s.dev.level = .gust && s.boot.dramOk && !s.boot.extOk && !s.extendedGood b && detail = 0
    | _ => false
  | _, _ => false

/-- RECOVERY (R95, R96, R108): Adeit enters it when one of its checks has failed. -/
def execRecovery (cause detail : Byte) (s : State) : Host.Outcome State Fault Refusal :=
  .next (if s.active && s.checkFails cause detail then s.recover cause detail else s)

/-! ## EVENT_IN_L (13 R420, R421) -/

/-- Operating seconds at a pulse's first low sample, 9 ms before the filter reports it. -/
def State.pulseTime (s : State) : Nat :=
  min (s.aon.optBase + (if s.aon.optRun then (s.now - 9000 - s.aon.optAt) / 1000000 else 0)) (1048575 * 3600 + 3599)

/-- Wake of the host: PCIE_WAKE_L in D3cold, a PM_PME message from D3hot (06 R171). -/
def State.wakeHost (s : State) : State :=
  let f := s.pcie.fns[(0 : Fn)]
  if !f.pmeEn then s
  else if !s.pins.perst then { s with pins := { s.pins with wake := true } }
  else if f.d3hot then s.emit .pme
  else s

/-- EVENT_IN_PULSE (R421): outside FULL, in Squall and in its final hold the pulse is latched (11 R356). -/
def execEventInPulse (s : State) : Host.Outcome State Fault Refusal :=
  let t := s.pulseTime
  let latch (a : State) : State := { a with aon := { a.aon with evLatch := a.aon.evLatch ++ [opWord t] } }
  if !s.awake then .next (latch s)
  else
    let s1 := ({ s with gpio := { s.gpio with count := satInc s.gpio.count, last := opWord t, eventAt := some s.now } } : State).raise pGPIO 4
    if !s.active then .next (latch s1)
    else
      let s2 := ({ s1 with pwr := { s1.pwr with lull := false, idleSince := s.now } } : State).wakeHost
      .next (if s.dev.level = .full then s2.holdPulse t else latch s2)

end Sys2Proof.Machine
end

