-- ==== Sys2Proof/Machine/RomRcv.lean ====
section
/-!
DEFINITION. ROM recovery (04 R109 to R114): sessions of the PCIe mailbox and of the SPI target, the checks of each target, and the
frames of the SPI target.
-/
namespace Sys2Proof.Machine

/-! ## Sessions (R111, R113) -/

/-- UPD_RCV_STATUS (R114). -/
def State.rcvStatusWord (s : State) : Word := fieldW s.upd.rcvStatus 0 ||| fieldW s.upd.rcvError.toNat 8

def State.setRcv (s : State) (st : Nat) (err : Byte) : State := { s with upd := { s.upd with rcvStatus := st, rcvError := err } }

/-- An error: its code, RCV_ERROR, and the session's end (R113, R115). -/
def State.rcvFail (s : State) (err : Byte) : State :=
  (({ s with upd := { s.upd with session := none } } : State).setRcv 5 err).raise pUPD 3

/-- A START on the other transport while a session is open (R113): the session stays. -/
def State.rcvBusy (s : State) : State := (s.setRcv 5 0x02).raise pUPD 3

/-- The session of a transport. -/
def State.rcvOwn (s : State) (spi : Bool) : Option RcvSession := s.upd.session.filter (fun x => x.spi = spi)

/-- Bytes a target can hold; the board-key record has 160 (R110). -/
def rcvSize (target : Nat) : Nat :=
  match target with
  | 0 | 1 => 0x700000
  | 2 => 4096
  | 3 => 65536
  | 4 => 160
  | _ => 0

/-- START. A target that does not exist, or a length that it cannot have, fails (log entry 98). -/
def State.rcvStart (s : State) (spi : Bool) (target total : Nat) : State :=
  match s.upd.session with
  | some x => if x.spi ≠ spi then s.rcvBusy else start
  | none => start
where
  start : State :=
    if 4 < target || total = 0 || decide (rcvSize target < total) || (target = 4 && total ≠ 160) then s.rcvFail 0x04
    else ({ s with upd := { s.upd with session := some { spi := spi, target := target, total := total, data := [] } } } : State).setRcv 1 0

/-- Bytes at an offset. Offsets run on from 0 without a gap (log entry 98). -/
def State.rcvBytes (s : State) (x : RcvSession) (off : Nat) (b : List Byte) : State :=
  if off ≠ x.data.length || decide (x.total < off + b.length) then s.rcvFail 0x05
  else (({ s with upd := { s.upd with session := some { x with data := x.data ++ b } } } : State).setRcv 3 0).raise pUPD 2

/-! ## The checks of each target (R109, R110) -/

/-- A board-key provisioning record is accepted (R110). -/
def keyRecordOk (b : List Byte) : Bool :=
  fieldLe b 0 4 = 0x4B424C4B && fieldLe b 4 2 = 1 && fieldLe b 6 2 = 0 && fieldLe b 8 4 = Config.hwType.toNat &&
    fieldLe b 0x0C 4 = 0 && serialOf (slice b 0x10 16) = Config.serial && Config.validPoint (wideOf (slice b 0x20 64)) &&
    Config.ecdsaVerify (wideOf (slice b 0x20 64)) (slice b 0 0x60) (wideOf (slice b 0x60 64))

/-- The hash a descriptor is judged by: OTP's, or that of its own BOARD_PUBKEY while OTP's is unprogrammed (R109). -/
def State.descHash (s : State) (b : List Byte) : Hash := s.nvm.boardHash.getD (Config.sha256 (slice b 0xF80 64))

/-- The descriptor the ROM would use now. -/
def State.romDesc (s : State) : Option (Nat × BoardDesc) :=
  match s.nvm.boardHash with | some h => s.chooseDesc h | none => none

/-- Whether an object passes the checks the ROM or Adeit makes at boot. -/
def State.rcvOk (s : State) (target : Nat) (b : List Byte) : Bool :=
  match target with
  | 0 | 1 => imageGood s.nvm.floor (b.take 256) (slice b 256 (min (fieldLe b 0x14 4) 0xE0000))
  | 2 => decide (b.length = 4096) && descValid (s.descHash b) b
  | 3 => decide (b.length = 65536) && (match s.romDesc with | some (_, d) => policyValid d b | none => false)
  | _ => keyRecordOk b && (match s.nvm.boardHash with | some h => h = Config.sha256 (slice b 0x20 64) | none => true)

/-- The object goes to its target: a copy that is not in use of a descriptor or policy block (log entry 99). -/
def State.rcvWrite (s : State) (target : Nat) (b : List Byte) : State :=
  match target with
  | 0 | 1 =>
    let s1 := s.norWrite (slotBase (target = 1)) 0x700000 b
    s1.writeRec { s1.ctlRec with active := target = 1, armed := none }
  | 2 => s.norWrite (descBase (match s.romDesc with | some (0, _) => 1 | _ => 0)) 4096 b
  | 3 =>
    let k := match s.romDesc with
      | some (_, d) => (match s.choosePolicy d with | some (0, _) => 1 | _ => 0)
      | none => 0
    s.norWrite (policyBase k) 65536 b
  | _ => { s with nvm := { s.nvm with boardHash := some (Config.sha256 (slice b 0x20 64)) } }

/-- A board key hash whose read-back differs (R110): OTP holds what the write left, which is a free value; error 0x04 and a critical record. -/
def State.otpFailed (s : State) : State :=
  let s1 := ({ s with nvm := { s.nvm with boardHash := some s.freeVal } } : State).drawn.rcvFail 0x04
  s1.recordAs true (bitCode pUPD 3) 3 noTenant (leBytes 4 s1.hdr[pUPD].intStatus.toNat)

/-- FINISH (R109): the checks, the write, the critical record that names the transport, and the chip reset, which is none of the
causes of 03 R84 (log entry 99). `otpGood`: a hash programmed into OTP reads back as written (R110). -/
def State.rcvFinish (s : State) (x : RcvSession) (otpGood : Bool) : State :=
  if x.data.length ≠ x.total || !s.rcvOk x.target x.data then s.rcvFail 0x04
  else if x.target = 4 && s.nvm.boardHash.isNone && !otpGood then s.otpFailed
  else
    let s1 := (s.rcvWrite x.target x.data).setRcv 4 0
    let s2 := s1.recordAs true 0x2642 3 noTenant [if x.spi then 1 else 0, BitVec.ofNat 8 x.target]
    s2.restart

/-! ## The PCIe mailbox (R111) -/

/-- UPD_RCV_START, written through PF0. -/
def State.mailStart (s : State) : State :=
  s.rcvStart false (bits (s.reg pUPD 0x138 0#32) 2 0) (s.reg pUPD 0x140 0#32).toNat

/-- UPD_RCV_CHUNK: a length of 0 or above 64 KiB is error 0x05 (log entry 143). The ROM reads the chunk by DMA, which needs Bus Master Enable; a read that fails is error DMA. -/
def State.mailChunk (s : State) (data : List Byte) (failed : Bool) : State :=
  match s.rcvOwn false with
  | none => s
  | some x =>
    let n := (s.reg pUPD 0x140 0#32).toNat
    let addr : DWord := BitVec.ofNat 64 ((s.reg pUPD 0x144 0#32).toNat + 2 ^ 32 * (s.reg pUPD 0x148 0#32).toNat)
    if n = 0 || decide (65536 < n) then s.rcvFail 0x05
    else if !s.pcie.fns[(0 : Fn)].bme then s.rcvFail 0x03
    else
      let s1 := s.emit (.memRead 0 addr n false)
      if failed || data.length ≠ n then s1.rcvFail 0x03
      else s1.rcvBytes x (s.reg pUPD 0x13C 0#32).toNat data

def State.mailFinish (s : State) (otpGood : Bool) : State :=
  match s.rcvOwn false with | none => s | some x => s.rcvFinish x otpGood

def State.mailAbort (s : State) : State :=
  match s.rcvOwn false with
  | none => s
  | some _ => ({ s with upd := { s.upd with session := none } } : State).setRcv 0 0

/-! ## The SPI target (R112) -/

/-- The bytes of words as they are sent, most significant bit first. -/
def wordBytes (l : List Word) : List Byte := l.flatMap (fun w => beBytes 4 w.toNat)

/-- After each frame: its header word and UPD_RCV_STATUS in the transmit FIFO. -/
def State.rcvAnswer (s : State) (hdr : Word) : State :=
  { s with spit := { s.spit with tx := s.spit.tx ++ [hdr, s.rcvStatusWord] } }

/-- Run a frame of a type: one with a bad CRC is discarded and answered with error 0x01 (log entry 100). -/
def State.rcvFrame (s : State) (type : Nat) (hdr : Word) (payload : List Word) (crc : Word) (act : State) : State :=
  if !s.active || !s.dev.romRecovery || !s.dev.pad.spit || bits hdr 31 24 ≠ type || bits hdr 23 0 ≠ payload.length then s
  else if crc ≠ Config.crc32 (wordBytes (hdr :: payload)) then ((s.setRcv 5 0x01).raise pUPD 3).rcvAnswer hdr
  else if act.dev.romRecovery then act.rcvAnswer hdr else act

/-- RECOVERY_FRAME_START. A payload of other than two words names no target that exists: 0x04, or BUSY while the mailbox owns the session
(R113; log entry 143). -/
def execRecoveryFrameStart (hdr : Word) (payload : List Word) (crc : Word) (s : State) : Host.Outcome State Fault Refusal :=
  .next (s.rcvFrame 1 hdr payload crc (match payload with
    | [t, n] => s.rcvStart true t.toNat n.toNat
    | _ => s.rcvStart true 5 0))

/-- RECOVERY_FRAME_DATA: more than 1,024 words end the session with 0x05 (log entry 143); padding beyond the total length in the last word is left out. -/
def execRecoveryFrameData (hdr : Word) (payload : List Word) (crc : Word) (s : State) : Host.Outcome State Fault Refusal :=
  .next (s.rcvFrame 2 hdr payload crc (match s.rcvOwn true, payload with
    | some x, off :: ws =>
      if 1024 < ws.length then s.rcvFail 0x05
      else s.rcvBytes x off.toNat ((wordBytes ws).take (if x.total - off.toNat + 3 < 4 * ws.length then 4 * ws.length else
        min (4 * ws.length) (x.total - off.toNat)))
    | _, _ => s))

/-- RECOVERY_FRAME_FINISH. -/
def execRecoveryFrameFinish (hdr : Word) (payload : List Word) (crc : Word) (otpGood : Bool) (s : State) :
    Host.Outcome State Fault Refusal :=
  .next (s.rcvFrame 3 hdr payload crc (match s.rcvOwn true with | some x => s.rcvFinish x otpGood | none => s))

/-- RECOVERY_FRAME_STATUS. -/
def execRecoveryFrameStatus (hdr : Word) (payload : List Word) (crc : Word) (s : State) : Host.Outcome State Fault Refusal :=
  .next (s.rcvFrame 4 hdr payload crc s)

end Sys2Proof.Machine
end

