-- ==== Sys2Proof/Machine/Links.lean ====
section
/-!
DEFINITION. The Vuold links (14 R432 to R446, R453): bring-up, link keys, rekey, packets and credits.
-/
namespace Sys2Proof.Machine

/-! ## Certificates and the handshake (R434 to R438) -/

def certAddr (c : List Byte) : BitVec 16 := BitVec.ofNat 16 (fieldLe c 4 2)
def certSerial (c : List Byte) : QWord := serialOf (slice c 8 16)
def certKey (c : List Byte) : List Byte := slice c 0x18 33

/-- A certificate of R435 under a fleet key. -/
def certOk (fleet : Wide) (c : List Byte) : Bool :=
  c.length = 128 && fieldLe c 0 2 = 0x4E56 && fieldLe c 2 1 = 1 && fieldLe c 3 1 = 0 && fieldLe c 6 2 = 0 && fieldLe c 0x39 3 = 0 &&
    Config.ecdsaVerify fleet (slice c 0 0x40) (wideOf (slice c 0x40 64))

/-- A serial as the number R437 compares. -/
def serialNo (q : QWord) : Nat := ofBe (serialBytes q)

/-- This end comes first in the transcript and the key context. -/
def lowerEnd (peer : QWord) : Bool := decide (serialNo Config.serial < serialNo peer)

/-- The transcript (R437). -/
def VflS.transcript (l : VflS) (own : List Byte) : Hash :=
  let mine := own ++ wideBytes (Config.ecPub l.ownEph)
  let theirs := l.peerCert ++ wideBytes l.peerEph
  Config.sha256 (ascii "KL4064 HELLO" ++ (if lowerEnd l.peer then mine ++ theirs else theirs ++ mine))

/-- One block of the link key material (R438). -/
def VflS.keyBlock (l : VflS) (k : Nat) : List Byte :=
  let mine := wideBytes (Config.ecPub l.ownEph)
  let theirs := wideBytes l.peerEph
  let low := lowerEnd l.peer
  let ctx := if low then serialBytes Config.serial ++ serialBytes l.peer ++ mine ++ theirs
    else serialBytes l.peer ++ serialBytes Config.serial ++ theirs ++ mine
  hashBytes (Config.hmacSha256 (hashBytes (Config.ecdh l.ownEph l.peerEph))
    (beBytes 4 k ++ ascii "KL4064 LINK KEY" ++ [0] ++ ctx ++ [0, 0, 2, 0]))

/-- Key and salts of a link; sequence numbers begin anew under a new key (log entry 101). -/
def VflS.keyed (l : VflS) : VflS :=
  let b2 := l.keyBlock 2
  let lo := BitVec.ofNat 32 (ofBe (slice b2 0 4))
  let hi := BitVec.ofNat 32 (ofBe (slice b2 4 4))
  { l with key := hashOf (l.keyBlock 1), saltOut := if lowerEnd l.peer then lo else hi,
           saltIn := if lowerEnd l.peer then hi else lo, seqOut := Vector.replicate 3 0, seqIn := Vector.replicate 3 0 }

/-- A bring-up or rekey fails at a step of the table "Link bring-up": FAILED, HELLO_FAIL and a warning record (R436, R439). -/
def State.linkFail (s : State) (port : Fin 4) (step : Nat) : State :=
  let peer := s.vfl[port].peer
  (s.linkLeave port .failed).raiseRec (pVFL port) 2 2 noTenant (serialBytes peer ++ [BitVec.ofNat 8 step])

/-- Steps 3 to 6 begin: a fresh ephemeral key and HELLO. Without random bytes the port waits. -/
def State.sendHello (s : State) (port : Fin 4) (f : VflS → VflS) : State :=
  match s.drbg, s.nvm.cert with
  | some (e, s1), some cert =>
    let s2 := s1.updVfl port (fun l => { (f l) with ownEph := e, peerEph := 0 })
    s2.sendOn port (s2.newPkt 0x01 0 0xFFFF#16 noTenant 0 (cert ++ wideBytes (Config.ecPub e)))
  | _, _ => s.updVfl port (fun l => { (f l) with ownEph := 0, peerEph := 0 })

/-- A link may come up: the fabric runs, key and certificate are installed, Pipe G is not fenced, debug is locked (R432; 15 R493). -/
def State.linkable (s : State) : Bool := s.fabricRuns && s.canLink && !s.ciph.g.fenced && !s.dbg.unlocked

/-- A port gains block lock (R436 step 2). -/
def State.gainLock (s : State) (port : Fin 4) : State :=
  if s.vfl[port].st ≠ .training || s.vfl[port].lock then s
  else s.advDue.sendHello port (fun l => { l with
    st := .hello, lock := true, lockAt := s.now, credits := Vector.replicate 3 32, outst := Vector.replicate 3 0,
    bringups := satInc l.bringups })

/-- BLOCK_LOCK. -/
def execBlockLock (port : Fin 4) (s : State) : Host.Outcome State Fault Refusal :=
  .next (if s.linkable then s.gainLock port else s)

/-- FAB_WAKE_PROBE (R433): a gated FAB wakes; a port that gains lock within 10 ms keeps it awake. -/
def execFabWakeProbe (locks : BitVec 4) (s : State) : Host.Outcome State Fault Refusal :=
  let d := s.pwr.doms[(4 : Fin 5)]
  if !s.active || s.dev.level ≠ .full || d.st ≠ .off || s.now < d.idleAt + 1000000 then .next s
  else
    let got (p : Fin 4) : Bool := locks.getLsbD p.1 && s.portPresent p
    let s1 := s.domWake 4
    if !(List.finRange 4).any got || s.clk.backup || !s.canLink then
      .next (s.updDom 4 (fun x => { x with idleAt := s.now }))
    else
      -- The probe's 10 ms lie after the wake time.
      let s2 := (s1.updDom 4 (fun x => { x with readyAt := s.now })).startPorts
      .next ((List.finRange 4).foldl (fun a p => if got p && a.linkable then a.gainLock p else a) s2)

/-- HELLO received (R436 step 4): certificate and ephemeral key are checked, and CONFIRM goes out. On an UP link it begins the
peer's rekey. -/
def execHello (port : Fin 4) (cert : List Byte) (eph : Wide) (s : State) : Host.Outcome State Fault Refusal :=
  match s.nvm.fleetKey, s.nvm.cert with
  | some fleet, some own =>
    let st := s.vfl[port].st
    if !s.linkable || !(st = .hello || st = .up) then .next s
    else
      let s0 := if st = .up && !s.vfl[port].rekeying then
          (s.sendHello port (fun l => { l with rekeying := true, lockAt := s.now })).raise (pVFL port) 5
        else s
      if !certOk fleet cert || !Config.validPoint eph then
        .next (s0.linkFail port 4)
      else
        let s1 := s0.updVfl port (fun l => { l with peerCert := cert, peer := certSerial cert, peerEph := eph })
        match s1.identitySign (hashBytes (s1.vfl[port].transcript own)) with
        | none => .next s1
        | some sig => .next (s1.sendOn port (s1.newPkt 0x02 0 0xFFFF#16 noTenant 0 (wideBytes sig)))
  | _, _ => .next s

/-- Something of the fabric near this node has changed: an advertisement and routes are due. -/
def State.topologyChanged (s : State) : State :=
  ({ s with vfr := { s.vfr with changeAt := some (s.vfr.changeAt.getD s.now) } } : State).raise pVFR 1

/-- CONFIRM received (R436 step 6, R438). -/
def execConfirm (port : Fin 4) (sig : Wide) (s : State) : Host.Outcome State Fault Refusal :=
  match s.nvm.cert with
  | none => .next s
  | some own =>
    let l := s.vfl[port]
    if !s.linkable || !(l.st = .hello || l.rekeying) || l.peerCert = [] || l.peerEph = 0 || l.ownEph = 0 then .next s
    else if !Config.ecdsaVerify (Config.decompressPub (certKey l.peerCert)) (hashBytes (l.transcript own)) sig then
      .next (s.linkFail port 6)
    else
      let s1 := s.updVfl port (fun x => { x.keyed with st := .up, rekeying := false, nbr := certAddr l.peerCert })
      let s2 : State := if l.st = .hello then
          ({ s1 with vfr := { s1.vfr with advDue := true } } : State).topologyChanged.raise (pVFL port) 0
        else s1
      .next (s2.drainPort port s2.vfl[port].txq.length)

/-- BRINGUP_TIMEOUT (R436, R439): not UP within 100 ms of block lock, or no CONFIRM again at rekey. -/
def execBringupTimeout (port : Fin 4) (s : State) : Host.Outcome State Fault Refusal :=
  let l := s.vfl[port]
  .next (if s.fabricRuns && (l.st = .hello || l.rekeying) && decide (l.lockAt + 100000 ≤ s.now) then
    s.linkFail port (if l.peerEph = 0 then 3 else 6) else s)

/-- LINK_RETRY (R439): every 10 s; not while Pipe G is fenced (14, edge case). -/
def execLinkRetry (port : Fin 4) (s : State) : Host.Outcome State Fault Refusal :=
  let l := s.vfl[port]
  .next (if s.linkable && l.st = .failed && decide (l.failAt + 10000000 ≤ s.now) then
    (s.updVfl port (fun x => { x with st := .training, lock := false })).advDue else s)

/-- REKEY (R439): a sending sequence number has reached 0xFFFF_0000. -/
def execRekey (port : Fin 4) (s : State) : Host.Outcome State Fault Refusal :=
  let l := s.vfl[port]
  .next (if s.linkable && l.st = .up && !l.rekeying && l.seqOut.any (fun q => decide (0xFFFF0000 ≤ q)) && s.sign.drbg = 1#2 then
    (s.sendHello port (fun x => { x with rekeying := true, lockAt := s.now })).raise (pVFL port) 5 else s)

/-- BLOCK_LOCK_LOSS (R439, R446). -/
def execBlockLockLoss (port : Fin 4) (s : State) : Host.Outcome State Fault Refusal :=
  let l := s.vfl[port]
  if !l.lock then .next s
  else
    let s1 := s.linkLeave port (if l.st = .failed then .failed else .training)
    .next (s1.updVfl port (fun x => { x with lock := false }))

/-! ## Packets (R442, R443) -/

/-- What a receiver finds: the payload in the clear, or none when the tag or the CRC does not check. -/
def VflS.open_ (l : VflS) (h : PktHdr) (payload : List Byte) : Option (List Byte) :=
  if gcmPacket h.type h.vc.toNat then
    let iv := linkIv l.saltIn h.vc.toNat h.seq.toNat
    if h.tag = Config.gcmTag l.key iv (hdrAad h) payload then some (Config.gcmCtr l.key iv payload) else none
  else if h.tag = crcTag h payload then some payload else none

/-- A discarded packet is counted; the 16th whose tag or CRC fails within 1 s takes the link out of UP (R439). -/
def State.discardPkt (s : State) (port : Fin 4) (gcm checks : Bool) : State :=
  let s1 := s.updVfl port (fun l => { l with
    authFail := if gcm then satInc l.authFail else l.authFail, crcFail := if gcm then l.crcFail else satInc l.crcFail,
    fails := if checks then l.fails else (l.fails.filter (fun t => decide (s.now < t + 1000000))) ++ [s.now] })
  if 16 ≤ s1.vfl[port].fails.length && !checks then (s1.raise (pVFL port) 3).linkFail port 6 else s1

/-- A packet for another node: HOPS falls, and the packet leaves by the tables. -/
def State.forwardPkt (s : State) (h : PktHdr) (clear : List Byte) (vc : Fin 3) : State :=
  if h.hops = 0 then { s with vfr := { s.vfr with hopDrop := satInc s.vfr.hopDrop } }
  else s.sendPkt { type := h.type, vc := vc, dest := h.dest, src := h.src, hops := h.hops - 1, txn := h.txn, flags := h.flags,
                   tenant := h.tenant, epoch := h.epoch, payload := clear, at_ := s.now, fwd := true }

/-- PACKET_RECEIVE (R442, R443): its credits go back; a packet that checks is delivered or forwarded. A packet of other than LEN bytes, or of more
than 4,096, checks no more than one with a wrong tag or CRC (log entry 146). What a delivered packet does
is the command of its type. -/
def execPacketReceive (port : Fin 4) (h : PktHdr) (payload : List Byte) (s : State) : Host.Outcome State Fault Refusal :=
  let l := s.vfl[port]
  let hello := h.type = 0x01 || h.type = 0x02
  if !s.fabricRuns || !(if hello then l.st = .hello || l.st = .up else l.st = .up) then .next s
  else if hv : 3 ≤ h.vc.toNat then .next (s.discardPkt port true false)
  else
    let vc : Fin 3 := ⟨h.vc.toNat, by omega⟩
    let gcm := gcmPacket h.type vc.1
    let s1 := s.endLull.emit (.credits port vc.1 (slotsOf payload.length))
    match (if h.len.toNat = payload.length && decide (payload.length ≤ 4096) then l.open_ h payload else none) with
    | none => .next (s1.discardPkt port gcm false)
    | some clear =>
      if h.seq.toNat ≤ l.seqIn[vc] then .next (s1.discardPkt port gcm true)
      else
        let s2 := s1.updVfl port (fun x => { x with rx := satInc x.rx, seqIn := x.seqIn.set vc h.seq.toNat })
        let s3 : State := if h.src = s.partner then { s2 with mir := { s2.mir with lastRx := s.now } } else s2
        .next (if hello || h.dest = 0xFFFF#16 || (s.addressed && h.dest = s.ownAddr) then s3 else s3.forwardPkt h clear vc)

/-- CREDIT_BLOCK (R445): freed slots come back, and what waited for credits is sent. -/
def execCreditBlock (port : Fin 4) (vc0 vc1 vc2 : BitVec 6) (s : State) : Host.Outcome State Fault Refusal :=
  if !s.fabricRuns || !s.vfl[port].lock then .next s
  else
    let n : Vector Nat 3 := #v[vc0.toNat, vc1.toNat, vc2.toNat]
    let s1 := s.updVfl port (fun l => { l with
      credits := Vector.ofFn (fun v : Fin 3 => l.credits[v] + min n[v] l.outst[v]),
      outst := Vector.ofFn (fun v : Fin 3 => l.outst[v] - min n[v] l.outst[v]) })
    .next (s1.drainPort port s1.vfl[port].txq.length)

/-- STUCK_PACKET_DROP (R453): the oldest packet of another node that has waited 1 ms. -/
def execStuckPacketDrop (port : Fin 4) (s : State) : Host.Outcome State Fault Refusal :=
  match s.vfl[port].txq.find? (fun p => p.fwd && decide (p.at_ + 1000 ≤ s.now)) with
  | some p =>
    let s1 := s.updVfl port (fun l => { l with txq := l.txq.erase p })
    .next { s1 with vfr := { s1.vfr with stuckDrop := satInc s1.vfr.stuckDrop } }
  | none => .next s

/-! ## Transactions (R444) -/

/-- A port has a free transaction tag. -/
def VflS.tagFree (l : VflS) : Bool := decide (l.txns.length < 256)

/-- Send a request that waits for a response, with a fresh transaction tag of the port it leaves by; without a route it is
discarded, and waits at the port that held it. -/
def State.sendRequest (s : State) (p : OutPkt) (tag : Option Tag) (tries : Nat) (held : Fin 4) : State :=
  let port := (s.portTo p.dest).getD held
  let l := s.vfl[port]
  let id := ((List.range 256).map (fun k => (l.nextTxn + k) % 256)).find? (fun k => !l.txns.any (fun x => x.id = k))
  match id with
  | none => s
  | some k =>
    let p1 : OutPkt := { p with txn := BitVec.ofNat 8 k, at_ := s.now }
    let t1 : Txn := { id := k, tries := tries, at_ := s.now, pkt := p1, tag := tag }
    let s1 := s.updVfl port (fun x => { x with nextTxn := (k + 1) % 256, txns := x.txns ++ [t1] })
    s1.sendLong p1

/-- A remote read ends unreachable (R458). -/
def State.rreqLost (s : State) : State :=
  ({ s with vfr := { s.vfr with rreqSt := 3, rreqN := 0, rreqWait := none } } : State).raise pVFR 4

/-- A remote read that waits goes out once the port of its route has a free transaction tag (01 R21). -/
def State.serveRreq (s : State) : State :=
  match s.vfr.rreqWait with
  | none => s
  | some p =>
    match (if s.fabricRuns && s.addressed then s.portTo p.dest else none) with
    | none => s.rreqLost
    | some q =>
      if s.vfl[q].tagFree then ({ s with vfr := { s.vfr with rreqWait := none } } : State).sendRequest p none 0 q else s

/-- End the transactions that meet a test; a remote read that waits takes a tag they free. -/
def State.endTxns (s : State) (p : Txn → Bool) : State :=
  ({ s with vfl := s.vfl.map (fun l => { l with txns := l.txns.filter (fun x => !p x) }) } : State).serveRreq

/-- The packet type a command's open request has, if one is open. -/
def State.txnOf (s : State) (tag : Tag) : Option Byte :=
  (List.finRange 4).findSome? (fun q => (s.vfl[q].txns.find? (fun x => x.tag = some tag)).map (fun x => x.pkt.type))

/-- The port whose tag a command's open request holds. -/
def State.txnPort (s : State) (tag : Tag) : Fin 4 :=
  ((List.finRange 4).find? (fun q => s.vfl[q].txns.any (fun x => x.tag = some tag))).getD 0

/-- What a request that fails for good ends: its REMOTE_COPY with PATH_LOST, or the remote read (R456, R458). -/
def State.requestFailed (s : State) (x : Txn) : State :=
  match x.tag with
  | some tag =>
    match s.cmd tag with
    | some c => if c.desc.opc = 0x0D && c.phase = .core3 then s.finish tag 0x10 0x02 0 else s
    | none => s
  | none => s.rreqLost

/-- TRANSACTION_TIMEOUT (R444): after 10 ms a retry with a fresh tag, up to 3; then the request fails. A retry waits where no tag
is free. -/
def execTransactionTimeout (port : Fin 4) (txn : Fin 256) (s : State) : Host.Outcome State Fault Refusal :=
  match s.vfl[port].txns.find? (fun x => x.id = txn.1) with
  | none => .next s
  | some x =>
    if !s.active || s.now < x.at_ + 10000 then .next s
    else
      let s1 := s.updVfl port (fun l => { l with txns := l.txns.filter (fun y => y.id ≠ txn.1) })
      if 3 ≤ x.tries then .next (s1.requestFailed x).serveRreq
      else if s1.vfl[(s1.portTo x.pkt.dest).getD port].tagFree then .next (s1.sendRequest x.pkt x.tag (x.tries + 1) port)
      else .next s

/-! ## Installing the fleet key and the certificate (R434) -/

/-- The bytes of registers of a page that hold a byte string, byte 0 in [7:0] of the first. -/
def State.regBytes (s : State) (p : Page) (off n : Nat) : List Byte :=
  (List.range n).flatMap (fun k => leBytes 4 (s.reg p (off + 4 * k) 0#32).toNat)

/-- INSTALL_FLEET. -/
def State.installFleet (s : State) : State :=
  let b := s.regBytes pVFR 0xA80 16
  match s.boot.desc with
  | none => s.raise pVFR 3
  | some d =>
    if Config.sha256 b = d.fleetHash then
      let s1 : State := { s with nvm := { s.nvm with fleetKey := some (wideOf b) } }
      if s1.fabricRuns then s1.startPorts else s1
    else s.raise pVFR 3

/-- INSTALL_CERT. -/
def State.installCert (s : State) : State :=
  let c := s.regBytes pVFR 0xA00 32
  let ok := match s.nvm.fleetKey, s.boot.desc, s.sign.identity with
    | some f, some d, some k => certOk f c && certSerial c = Config.serial && certKey c = Config.compressPub (Config.ecPub k) &&
        certAddr c = d.node
    | _, _, _ => false
  if ok then
    let s1 : State := { s with nvm := { s.nvm with cert := some c } }
    if s1.fabricRuns then s1.startPorts else s1
  else s.raise pVFR 3

end Sys2Proof.Machine
end

