-- ==== Sys2Proof/Machine/Routes.lean ====
section
/-!
DEFINITION. Node advertisements, address conflicts and routes (14 R447 to R452).
-/
namespace Sys2Proof.Machine

/-! ## Advertisements (R448) -/

/-- The state codes of VFLn_STATUS (R470). -/
def LinkSt.code : LinkSt → Nat
  | .absent => 0 | .down => 1 | .training => 2 | .hello => 3 | .up => 4 | .failed => 5

/-- CLAIM_AGE: seconds since the address became live in this start; 0 while there is none (log entry 107). -/
def State.claimAge (s : State) : Nat := if s.addressed then (s.now - s.vfr.claimAt) / 1000000 else 0

/-- DEV_STRAP.MIRROR_ROLE as an advertisement carries it. -/
def State.ownRole (s : State) : BitVec 2 := s.dev.strap.mirror

/-- The neighbours of this node: serial, address and state of each port. -/
def State.ownNbrs (s : State) : List (QWord × BitVec 16 × Byte) :=
  s.vfl.toList.map (fun l => (l.peer, l.nbr, BitVec.ofNat 8 l.st.code))

/-- This node's advertisement, as it stands among those stored. -/
def State.ownAdv (s : State) : Adv :=
  { serial := Config.serial, addr := s.ownAddr, unaddr := !s.addressed, role := s.ownRole,
    seq := s.cycleCount * 2 ^ 32 + s.vfr.advNo, claim := s.claimAge, partner := s.partner, nbrs := s.ownNbrs, at_ := s.now }

/-- The 128 bytes of an advertisement. -/
def Adv.bytes (a : Adv) : List Byte :=
  leBytes 2 a.addr.toNat ++ [BitVec.ofNat 8 ((if a.unaddr then 1 else 0) + 2 * a.role.toNat), 0] ++ serialBytes a.serial ++
    leBytes 8 a.seq ++ leBytes 4 a.claim ++ leBytes 2 a.partner.toNat ++ zeroBytes 2 ++
    a.nbrs.flatMap (fun n => serialBytes n.1 ++ leBytes 2 n.2.1.toNat ++ [n.2.2, 0]) ++ zeroBytes 12

/-- An advertisement read from its bytes. -/
def advOfBytes (b : List Byte) (now : Nat) : Adv :=
  { serial := serialOf (slice b 4 16), addr := BitVec.ofNat 16 (fieldLe b 0 2), unaddr := (b.getD 2 0).getLsbD 0,
    role := BitVec.ofNat 2 ((b.getD 2 0).toNat / 2), seq := fieldLe b 0x14 8, claim := fieldLe b 0x1C 4,
    partner := BitVec.ofNat 16 (fieldLe b 0x20 2),
    nbrs := (List.range 4).map (fun k =>
      (serialOf (slice b (0x24 + 20 * k) 16), BitVec.ofNat 16 (fieldLe b (0x34 + 20 * k) 2), b.getD (0x36 + 20 * k) 0)),
    at_ := now }

/-- Send an advertisement on the UP ports that meet a test; a forwarded one carries the header of its node (log entry 105). -/
def State.floodAdv (s : State) (a : Adv) (bytes : List Byte) (own : Bool) (dst : Fin 4 → Bool) : State :=
  let p : OutPkt := { s.newPkt 0x03 0 0xFFFF#16 noTenant 0 bytes with src := a.addr, fwd := !own }
  (List.finRange 4).foldl (fun st q => if st.vfl[q].st = .up && dst q then st.sendOn q p else st) s

/-- This node gives way in an address conflict (R449). -/
def State.giveWay (s : State) (other : Adv) : State :=
  let addr := s.ownAddr
  let s1 : State := { s with vfr := { s.vfr with
    conflict := true, conflictWith := other.serial, conflictAddr := addr, advDue := true } }
  s1.raiseRec pVFR 0 3 noTenant (serialBytes other.serial ++ leBytes 2 addr.toNat ++ [1])

/-- The verdict of R449 on this node: more than 2 s apart the smaller CLAIM_AGE gives way, else the higher serial. -/
def State.givesWay (s : State) (other : Adv) : Bool :=
  if s.claimAge + 2 < other.claim then true
  else if other.claim + 2 < s.claimAge then false
  else decide (serialNo other.serial < serialNo Config.serial)

/-- Whether two advertisements of one node agree in what routes and pairs depend on. -/
def Adv.same (a b : Adv) : Bool :=
  a.addr = b.addr && a.unaddr = b.unaddr && a.role = b.role && a.partner = b.partner && decide (a.nbrs = b.nbrs)

/-- NADV received on an UP port (R448, R449). -/
def execNadv (port : Fin 4) (payload : Vector Byte 128) (s : State) : Host.Outcome State Fault Refusal :=
  let a := advOfBytes payload.toList s.now
  let old := s.vfr.advs.find? (fun x => x.serial = a.serial)
  let newer := match old with | some x => decide (x.seq < a.seq) | none => true
  if !s.fabricRuns || s.vfl[port].st ≠ .up || a.serial = Config.serial || !newer then .next s
  else
    let s1 : State := { s with vfr := { s.vfr with advs := s.vfr.advs.filter (fun x => x.serial ≠ a.serial) ++ [a] } }
    let s2 := s1.floodAdv a payload.toList false (fun q => q ≠ port)
    let s3 := if old.any a.same then s2 else s2.topologyChanged
    let s4 := if s3.addressed && !a.unaddr && a.addr = s3.ownAddr && s3.givesWay a then (s3.giveWay a).topologyChanged else s3
    .next s4.pairCheck

/-- ADVERTISEMENT_ORIGINATE (R448): a change of a port or of the address state, and every 1 s. -/
def execAdvertisementOriginate (s : State) : Host.Outcome State Fault Refusal :=
  if s.fabricRuns && (s.vfr.advDue || decide (s.vfr.advAt + 1000000 ≤ s.now)) then
    let s1 : State := { s with vfr := { s.vfr with advNo := s.vfr.advNo + 1, advAt := s.now, advDue := false } }
    .next (s1.floodAdv s1.ownAdv s1.ownAdv.bytes true (fun _ => true))
  else .next s

/-- ADVERTISEMENT_EXPIRY (R448, R449): advertisements not refreshed for 3.5 s go, and the address comes back when the other
node's has gone. -/
def execAdvertisementExpiry (s : State) : Host.Outcome State Fault Refusal :=
  let old (a : Adv) : Bool := decide (a.at_ + 3500000 ≤ s.now)
  if !s.active || s.dev.level ≠ .full || !s.vfr.advs.any old then .next s
  else
    let s1 := ({ s with vfr := { s.vfr with advs := s.vfr.advs.filter (fun a => !old a) } } : State).topologyChanged
    let s2 : State :=
      if s1.vfr.conflict && !s1.vfr.advs.any (fun a => a.serial = s1.vfr.conflictWith) then
        { s1 with vfr := { s1.vfr with conflict := false, claimAt := s1.now, advDue := true } }
      else s1
    .next s2.pairCheck

/-! ## Route computation (R450, R451) -/

/-- The live nodes: this one and those whose advertisements are stored. -/
def State.liveNodes (s : State) : List Adv := s.ownAdv :: s.vfr.advs

/-- Nodes of a fabric as the computation uses them: key, and per port the number of the neighbour over an UP link. -/
structure RNode where
  addr : BitVec 16
  addressed : Bool
  key  : Nat
  nbr  : List (Option Nat)
deriving DecidableEq, Repr

/-- The rank of an unaddressed node's serial among the unaddressed nodes. -/
def serialRank (l : List Adv) (a : Adv) : Nat :=
  (l.filter (fun x => x.unaddr && decide (serialNo x.serial < serialNo a.serial))).length

/-- The graph: a link counts where the node's advertisement shows it UP and the neighbour is live (log entry 107). -/
def graphOf (l : List Adv) : List RNode :=
  l.map (fun a =>
    { addr := a.addr, addressed := !a.unaddr,
      key := if a.unaddr then 0x10000 + serialRank l a else a.addr.toNat,
      nbr := a.nbrs.map (fun n => if n.2.2 = 4 then l.findIdx? (fun x => x.serial = n.1) else none) })

/-- The node number of the lowest key that meets a test. -/
def lowestKey (g : List RNode) (p : RNode → Bool) : Option Nat :=
  (g.zipIdx.foldl (fun (best : Option (Nat × Nat)) x =>
    if p x.1 then
      match best with
      | some (k, _) => if x.1.key < k then some (x.1.key, x.2) else best
      | none => some (x.1.key, x.2)
    else best) none).map (fun b => b.2)

/-- One round of distances: a node without one takes 1 more than the least of the neighbours an allowed hop leads to. -/
def relax (g : List RNode) (allowed : Nat → Nat → Bool) (dist : List (Option Nat)) : List (Option Nat) :=
  g.zipIdx.map (fun x =>
    match dist.getD x.2 none with
    | some k => some k
    | none => (x.1.nbr.foldl (fun (best : Option Nat) n =>
        match n with
        | none => best
        | some y =>
          if allowed x.2 y then
            match dist.getD y none, best with
            | some k, some b => some (min b (k + 1))
            | some k, none => some (k + 1)
            | none, b => b
          else best) none))

/-- Distances after n rounds. -/
def relaxN (g : List RNode) (allowed : Nat → Nat → Bool) : Nat → List (Option Nat) → List (Option Nat)
  | 0, d => d
  | n + 1, d => relaxN g allowed n (relax g allowed d)

/-- Levels: hop distances to the root (R450 stage 2). -/
def levelsOf (g : List RNode) (root : Nat) : List (Option Nat) :=
  relaxN g (fun _ _ => true) g.length (g.zipIdx.map (fun x => if x.2 = root then some 0 else none))

/-- Whether a hop is up (R450 stage 3). -/
def hopUp (g : List RNode) (lv : List (Option Nat)) (x y : Nat) : Bool :=
  match lv.getD x none, lv.getD y none, g[x]?, g[y]? with
  | some a, some b, some n, some m => decide (b < a) || (decide (b = a) && decide (m.key < n.key))
  | _, _, _, _ => false

/-- Distances to a destination by down hops alone. -/
def downDist (g : List RNode) (lv : List (Option Nat)) (dest : Nat) : List (Option Nat) :=
  relaxN g (fun x y => !hopUp g lv x y) g.length (g.zipIdx.map (fun x => if x.2 = dest then some 0 else none))

/-- The lesser of two distances. -/
def lesser (a b : Option Nat) : Option Nat :=
  match a, b with
  | some x, some y => some (min x y)
  | some x, none => some x
  | none, y => y

/-- One round of distances by legal paths: down hops alone, or an up hop first. -/
def relaxUp (g : List RNode) (lv : List (Option Nat)) (dist : List (Option Nat)) : List (Option Nat) :=
  g.zipIdx.map (fun x => x.1.nbr.foldl (fun (best : Option Nat) n =>
    match n with
    | none => best
    | some y => if hopUp g lv x.2 y then lesser best ((dist.getD y none).map (· + 1)) else best) (dist.getD x.2 none))

/-- Distances to a destination by legal paths (R450 stage 4). -/
def legalDist (g : List RNode) (lv down : List (Option Nat)) : List (Option Nat) :=
  (List.range g.length).foldl (fun d _ => relaxUp g lv d) down

/-- The first port of the shortest legal path to a destination, ties to the lowest port (R450 stage 5). -/
def firstPort (g : List RNode) (lv down legal : List (Option Nat)) (x : Nat) : Option Nat :=
  match g[x]? with
  | none => none
  | some n => (n.nbr.zipIdx.foldl (fun (best : Option (Nat × Nat)) q =>
      match q.1 with
      | none => best
      | some y =>
        match (if hopUp g lv x y then legal.getD y none else down.getD y none), best with
        | some k, some (b, _) => if k < b then some (k, q.2) else best
        | some k, none => some (k, q.2)
        | none, b => b) none).map (fun b => b.2)

/-- The next-hop tables of a fabric: for each destination node, each node's port. -/
def portTables (g : List RNode) (lv : List (Option Nat)) : List (List (Option Nat)) :=
  (List.range g.length).map (fun d =>
    let down := downDist g lv d
    let legal := legalDist g lv down
    (List.range g.length).map (firstPort g lv down legal))

/-- A node's region; an unaddressed node has none. -/
def RNode.region (n : RNode) : Option Nat := if n.addressed then some (n.addr.toNat / 256) else none

/-- The lowest live member of a region (R450 stage 6). -/
def regionHead (g : List RNode) (r : Nat) : Option Nat := lowestKey g (fun n => n.region = some r)

/-- The node whose entry a node's tables use for a destination: the destination in its own region, else the region's lowest. -/
def entryTarget (g : List RNode) (x d : Nat) : Option Nat :=
  match g[x]?, g[d]? with
  | some n, some m =>
    match m.region with
    | some r => if n.region = some r then some d else regionHead g r
    | none => none
  | _, _ => none

/-- The node a table-driven route takes next. -/
def nextHop (g : List RNode) (tabs : List (List (Option Nat))) (x d : Nat) : Option Nat :=
  match entryTarget g x d with
  | none => none
  | some e => match (tabs.getD e []).getD x none, g[x]? with
    | some p, some n => n.nbr.getD p none
    | _, _ => none

/-- Whether a route takes a down hop and then an up hop, or revisits a node (R451). -/
def badRoute (g : List RNode) (lv : List (Option Nat)) (tabs : List (List (Option Nat))) (d : Nat) : Nat → Nat → List Nat → Bool → Bool
  | 0, _, _, _ => false
  | k + 1, x, seen, down =>
    if x = d then false
    else match nextHop g tabs x d with
      | none => false
      | some y =>
        let up := hopUp g lv x y
        if seen.contains y || (down && up) then true
        else badRoute g lv tabs d k y (y :: seen) (down || !up)

/-- The regions withheld, in rising order (R451). -/
def withheldRegions (g : List RNode) (lv : List (Option Nat)) (tabs : List (List (Option Nat))) : List Nat :=
  (List.range 256).filter (fun r =>
    g.zipIdx.any (fun d => d.1.region = some r &&
      (List.range g.length).any (fun x => badRoute g lv tabs d.2 (g.length + 1) x [x] false)))

/-- The tables of node 0, this node: region table, member table and withheld regions. -/
def routesOf (g : List RNode) : List (BitVec 4) × List (BitVec 4) × List Nat × BitVec 16 :=
  match lowestKey g (fun _ => true), g[0]? with
  | some root, some me =>
    let lv := levelsOf g root
    let tabs := portTables g lv
    let out := withheldRegions g lv tabs
    let port (d : Option Nat) : BitVec 4 :=
      match d with
      | some 0 => 4#4
      | some e => (match (tabs.getD e []).getD 0 none with | some p => BitVec.ofNat 4 p | none => 7#4)
      | none => 7#4
    let rt := (List.range 256).map (fun r =>
      if me.region = some r then 4#4 else if out.contains r then 7#4 else port (regionHead g r))
    let mt := (List.range 256).map (fun m =>
      match me.region with
      | some r => port (lowestKey g (fun n => n.addressed && n.addr.toNat = 256 * r + m))
      | none => 7#4)
    (rt, mt, out, ((g[root]?).map (fun n => n.addr)).getD 0#16)
  | _, _ => (List.replicate 256 7#4, List.replicate 256 7#4, [], 0#16)

/-- An import in progress is discarded (R456). -/
def State.dropImport (s : State) (i : Import) : State :=
  { s with vfr := { s.vfr with imports := s.vfr.imports.filter (fun x => x.src ≠ i.src) }, nvm := s.nvm.dropPartial i }

/-- ROUTE_COMPUTATION (R450, R451): 10 ms after the first change gathered. -/
def execRouteComputation (s : State) : Host.Outcome State Fault Refusal :=
  match s.vfr.changeAt with
  | none => .next s
  | some t =>
    if !s.fabricRuns || s.dbg.halted.getLsbD 2 || s.now < t + 10000 then .next s
    else
      let (rt, mt, out, root) := routesOf (graphOf s.liveNodes)
      let s1 : State := { s with vfr := { s.vfr with
        rtab := Vector.ofFn (fun k : Fin 256 => rt.getD k.1 7#4), mtab := Vector.ofFn (fun k : Fin 256 => mt.getD k.1 7#4),
        routesOk := true, changeAt := none, root := root, withheld := out.length } }
      let s2 := out.foldl (fun a _ => a.raiseRecStatus pVFR 2 2 noTenant) s1
      let s3 := ((s2.vfr.imports.filter (fun i => (s2.portTo i.src).isNone)).foldl State.dropImport s2).serveRreq
      .next (if s3.paired && (s3.portTo s3.partner).isNone then s3.mirLeave .separated 0#3 else s3)

end Sys2Proof.Machine
end

