-- ==== Sys2Proof/Machine/Remote.lean ====
section
/-!
DEFINITION. Remote zone copy and remote reads (14 R454 to R458). The layouts of the payloads are the model's (log entry 64).
-/
namespace Sys2Proof.Machine

/-! ## The source of a copy (R454) -/

/-- Fields of a seal record (08 R257). -/
def sealSerial (r : List Byte) : QWord := serialOf (slice r 8 16)
def sealTenant (r : List Byte) : Byte := r.getD 6 0
def sealZoneNo (r : List Byte) : Nat := fieldLe r 0x18 4
def sealGen (r : List Byte) : Word := BitVec.ofNat 32 (fieldLe r 0x1C 4)
def sealWp (r : List Byte) : Nat := fieldLe r 0x20 4
def sealAppends (r : List Byte) : Nat := fieldLe r 0x24 4
def sealDigest (r : List Byte) : Hash := hashOf (slice r 0x78 32)
def sealSig (r : List Byte) : Wide := wideOf (slice r 0xC0 64)

/-- Destination node and tenant of a REMOTE_COPY. -/
def Desc.copyDest (d : Desc) : BitVec 16 := BitVec.ofNat 16 (dbits d.aux0 15 0)
def Desc.copyTenant (d : Desc) : Nat := dbits d.aux0 21 16

/-- A packet of a copy: the originating tenant with its epoch. -/
def State.copyPkt (s : State) (c : Cmd) (type : Byte) (vc : Fin 3) (payload : List Byte) : OutPkt :=
  s.newPkt type vc c.desc.copyDest (tidByte c.tenant) c.epoch payload

/-- REMOTE_COPY (R454; 15 R479): COPY_OPEN with the node's certificate and the zone's seal record. A sealed zone without a key to
speak for it is refused (15 R493). -/
def execRemoteCopy (tag : Tag) (s : State) : Host.Outcome State Fault Refusal :=
  .next (s.runOp tag 0x0D (fun _ => true) (fun c =>
    let dest := c.desc.copyDest
    if 6 ≤ s.thr.level.1 then s.finish tag 0x11 0 0
    else match s.named c with
      | none => s.finish tag 0x03 0 0
      | some z =>
        if z.st ≠ .sealed then s.badState tag z
        else if dest = 0#16 || dest = 0xFFFF#16 || dest = s.ownAddr then s.finish tag 0x02 0x01 0
        else if s.sign.identity.isNone then s.finish tag 0x0D 0x30 0
        else match (if s.addressed then s.portTo dest else none), s.nvm.sealRecs.find c.zoneNo, s.nvm.cert with
          | some q, some r, some cert =>
            if !s.vfl[q].tagFree then s
            else (s.sendRequest (s.copyPkt c 0x18 0 ([BitVec.ofNat 8 c.desc.copyTenant] ++ cert ++ r)) (some tag) 0 q).updCmd tag
              (fun x => { x with phase := .core3 })
          | _, _, _ => s.finish tag 0x10 0x01 0))

/-- COPY_DATA and COPY_CLOSE after acceptance: each entry with its header, then each 4 KiB block (log entry 66). -/
def State.sendCopy (s : State) (tag : Tag) (c : Cmd) (z : Zone) (held : Fin 4) : State :=
  let s1 := z.log.foldl (fun a e => a.sendLong (a.copyPkt c 0x1A 2 (entryBytes (z.entryId c.zoneNo) e ++ e.header))) s
  let s2 := z.log.foldl (fun a e => (blocksOfBytes e.cipher (blocksOf e.len)).foldl
    (fun b x => b.sendPkt (b.copyPkt c 0x1A 2 x)) a) s1
  s2.sendRequest (s2.copyPkt c 0x1B 2 []) (some tag) 0 held

/-- COPY_OPEN is accepted: the copy goes out where a tag is free for COPY_CLOSE. -/
def State.copyAccepted (s : State) (tag : Tag) (c : Cmd) (z : Zone) : State :=
  let s1 := s.endTxns (fun x => x.tag = some tag)
  let q := s.txnPort tag
  if s1.vfl[(s1.portTo c.desc.copyDest).getD q].tagFree then s1.sendCopy tag c z q else s

/-- COPY_RSP at the source (R454 to R456, "REMOTE_COPY outcomes at the source"). A response of a stale epoch is discarded (R444);
so is an acceptance while no tag is free for COPY_CLOSE, which the retry of COPY_OPEN asks for again. -/
def execCopyRsp (tag : Tag) (a : CopyAnswer) (s : State) : Host.Outcome State Fault Refusal :=
  match s.cmd tag, s.txnOf tag with
  | some c, some type =>
    if !s.fabricRuns || c.desc.opc ≠ 0x0D || c.phase ≠ .core3 || c.epoch ≠ s.tnt[c.tenant].epoch then .next s
    else
      let s1 := s.endTxns (fun x => x.tag = some tag)
      match a, type with
      | .refused cause, _ => .next (s1.finish tag 0x10 0x03 (res cause.toNat))
      | .held z, _ => .next (s1.finish tag 0 0 (res z.toNat))
      | .accepted z, 0x1B => .next (s1.finish tag 0 0 (res z.toNat))
      | .accepted _, _ =>
        match s1.named c with
        | some z => .next (s.copyAccepted tag c z)
        | none => .next s1
  | _, _ => .next s

/-! ## The destination of a copy (R455 to R457) -/

/-- The import a node holds with a seal record's serial, tenant, zone and generation (R455). -/
def State.heldImport (s : State) (r : List Byte) : Option Nat :=
  (s.nvm.zones.find? (fun p => match p.2.origin, s.nvm.sealRecs.find p.1 with
    | some o, some q => !o.replica && sealSerial q = sealSerial r && sealTenant q = sealTenant r && sealZoneNo q = sealZoneNo r &&
        sealGen q = sealGen r && !s.vfr.imports.any (fun i => i.zone = p.1)
    | _, _ => false)).map (fun p => p.1)

/-- A copy control response: 0 accepted, 1 held, 2 refused; the cause; the zone. -/
def State.copyAnswer (s : State) (src : BitVec 16) (a : CopyAnswer) : State :=
  let b : List Byte := match a with
    | .accepted z => [0, 0] ++ leBytes 4 z.toNat
    | .held z => [1, 0] ++ leBytes 4 z.toNat
    | .refused k => [2, k] ++ leBytes 4 0
  s.sendPkt { s.newPkt 0x19 0 src noTenant 0 b with flags := 1 }

/-- The reason a COPY_OPEN is refused: the cause codes of "REMOTE_COPY outcomes at the source". -/
def State.openCause (s : State) (t : Tid) (cert r : List Byte) : Option Byte :=
  let allow := (s.reg pVFR (0x110 + 4 * (t.1 / 32)) 0#32).getLsbD (t.1 % 32)
  if s.dev.level ≠ .full then some 5
  else if !allow then some 1
  else if !(match s.nvm.fleetKey with | some f => certOk f cert | none => false) then some 3
  else if certSerial cert ≠ sealSerial r then some 3
  else if !Config.ecdsaVerify (Config.decompressPub (certKey cert)) (slice r 0 0xC0) (sealSig r) then some 3
  else if s.tnt[t].evidMax ≤ s.zcountLim t .sealed then some 2
  else none

def State.refuseImport (s : State) (src : BitVec 16) (cause : Byte) : State := (s.copyAnswer src (.refused cause)).raise pVFR 6

/-- COPY_OPEN at the destination (R455). The zone taken is the import's from then on (log entry 109). -/
def execCopyOpen (src : BitVec 16) (tenant : Byte) (cert : List Byte) (rec : Vector Byte 256) (s : State) :
    Host.Outcome State Fault Refusal :=
  if !s.fabricRuns || decide (64 ≤ tenant.toNat) then .next s
  else
    let record := rec.toList
    let t : Tid := Fin.ofNat 64 tenant.toNat
    let s0 := (s.vfr.imports.filter (fun i => i.src = src)).foldl State.dropImport s
    match s0.heldImport record with
    | some z => .next (s0.copyAnswer src (.held (BitVec.ofNat 20 z)))
    | none =>
      match s0.openCause t cert record with
      | some k => .next (s0.refuseImport src k)
      | none =>
        match s0.takeZone t true false with
        | .error _ => .next (s0.refuseImport src 2)
        | .ok (z, s1) =>
          let o : Origin := { tenant := sealTenant record, zone := BitVec.ofNat 20 (sealZoneNo record), gen := sealGen record,
                              replica := false, diverged := false }
          let i : Import := { src := src, tenant := t, zone := z, fresh := !s0.nvm.zones.has z, record := record, entries := [],
                              blocks := [] }
          let s2 := s1.updZone z (fun x => { x with st := .sealed, wp := sealWp record, origin := some o })
          let s3 : State := { s2 with vfr := { s2.vfr with imports := s2.vfr.imports ++ [i] } }
          .next (s3.copyAnswer src (.accepted (BitVec.ofNat 20 z)))

/-- COPY_DATA at the destination: what arrives is kept until COPY_CLOSE. -/
def execCopyData (src : BitVec 16) (item : CopyItem) (s : State) : Host.Outcome State Fault Refusal :=
  if !s.fabricRuns then .next s
  else
    let f (i : Import) : Import :=
      if i.src ≠ src then i
      else match item with
        | .entry b h => { i with entries := i.entries ++ [(b, h)] }
        | .block k b => { i with blocks := i.blocks.put k b }
    .next { s with vfr := { s.vfr with imports := s.vfr.imports.map f } }

/-- A tag-log entry read back from its 128 bytes, with its header and the ciphertext of its blocks. -/
def recordOfEntry (b header cipher : List Byte) (prev : Hash) : AppRec :=
  { index := fieldLe b 0 8, offset := fieldLe b 0x0C 4, len := fieldLe b 0x10 4, header := header, gust := fieldLe b 0x16 2 % 2 = 1,
    gen := BitVec.ofNat 32 (fieldLe b 0x18 4), opTime := BitVec.ofNat 32 (fieldLe b 0x1C 4),
    cycles := BitVec.ofNat 32 (fieldLe b 0x20 4), keyId := BitVec.ofNat 32 (fieldLe b 0x24 4), tag := tagOf (slice b 0x28 16),
    hhash := hashOf (slice b 0x38 32), prev := prev, head := hashOf (slice b 0x58 32), cipher := cipher, acked := true,
    accepted := true, blocksOn := true, entryOn := true, damaged := false }

/-- The tag log of an import, entry by entry. -/
def Import.log (i : Import) : List AppRec :=
  (i.entries.foldl (fun (a : List AppRec × Hash) e =>
    let off := fieldLe e.1 0x0C 4
    let n := blocksOf (fieldLe e.1 0x10 4)
    let cipher := (List.range n).flatMap (fun k => (i.blocks.find (off + k)).getD [])
    let r := recordOfEntry e.1 e.2 cipher a.2
    (a.1 ++ [r], r.head)) ([], hashOf (slice i.record 0x38 32))).1

/-- The checks of R456: the digest, the entry count, and that each block of each entry has come whole; a block's CRC-32C is that
of the packet that carried it. -/
def Import.ok (i : Import) : Bool :=
  let digest := Config.sha256 (i.entries.flatMap (fun e => e.1.take 0x78))
  decide (i.entries.length = sealAppends i.record) && i.entries.all (fun e => e.1.length = 128) && digest = sealDigest i.record &&
    i.entries.all (fun e => (List.range (blocksOf (fieldLe e.1 0x10 4))).all (fun k =>
      match i.blocks.find (fieldLe e.1 0x0C 4 + k) with | some b => b.length = 4096 | none => false))

/-- Place an import's appends on media. Their programs end before the answer goes out (R456, log entry 66). -/
def State.placeImport (s : State) (d : BoardDesc) (z : Nat) (gen : Word) (log : List AppRec) : Option State :=
  (log.foldl (fun (a : Option State) e => match a with
    | none => none
    | some x =>
      let n := blocksOf e.len
      if x.fragRoom (fragsOf e.offset n) && x.journalRoom n then
        x.placeIn d 1 4 ((List.range n).map (fun k => (none, Piece.zone z gen (e.offset + k) 1 (x.nvm.writeSeq + k))))
      else none) (some s)).map
      (fun x => { x with med := { x.med with ops := s.med.ops, nextOp := s.med.nextOp } })

/-- COPY_CLOSE at the destination (R456, R457). A zone that has no place on media yet waits. -/
def execCopyClose (src : BitVec 16) (s : State) : Host.Outcome State Fault Refusal :=
  match s.vfr.imports.find? (fun i => i.src = src), s.boot.desc with
  | some i, some d =>
    if !s.fabricRuns then .next s
    else if !i.ok then .next ((s.dropImport i).refuseImport src 4)
    else
      match s.zone i.zone with
      | none => .next s
      | some z =>
        match s.placeImport d i.zone z.gen i.log with
        | none => .next s
        | some s1 =>
          let now := s1.opSecs
          let s2 := s1.updZone i.zone (fun x => { x with log := i.log, firstT := now, lastT := now, fullT := now })
          let s3 : State := { s2 with
            nvm := { s2.nvm with sealRecs := s2.nvm.sealRecs.put i.zone i.record },
            vfr := { s2.vfr with imports := s2.vfr.imports.filter (fun x => x.src ≠ src) } }
          .next (((s3.meterIn 3 (4096 * z.wp)).copyAnswer src (.accepted (BitVec.ofNat 20 i.zone))).raise pVFR 5)
  | _, _ => .next s

/-! ## Remote status and records (R458; 13, table "Status block") -/

/-- PWR_HOLDUP_STATUS.STATE (03 R82). -/
def HoldState.code : HoldState → Nat
  | .none => 0 | .good => 1 | .degraded => 2 | .failed => 3 | .skipped => 4

/-- The 32-byte status block. In ROM only its first byte and the times are known. -/
def State.statusBlock (s : State) : List Byte :=
  let head := [BitVec.ofNat 8 s.dev.level.code]
  let times := leBytes 4 s.opTime.toNat ++ leBytes 4 s.cycleCount
  if s.boot.booted.isNone then head ++ zeroBytes 3 ++ times ++ zeroBytes 20
  else
    let temp : Byte := if s.hkp.rounds = 0 then 0 else BitVec.ofInt 8 (s.dieMax / 4)
    let flags := (if s.nvm.readOnly then 1 else 0) +
      (if s.mirState ≠ .off && s.mirState ≠ .inSync then 2 else 0) + (if s.untrusted then 4 else 0) +
      (if s.evr.incomplete then 8 else 0)
    head ++ [BitVec.ofNat 8 s.pwr.hold.code, BitVec.ofNat 8 s.thr.level.1, temp] ++ times ++
      leBytes 2 (if s.evr.critSeen then s.evr.newestCrit.toNat else 0) ++ [BitVec.ofNat 8 flags, 0] ++
      leBytes 4 s.dev.fwVersion.toNat ++ leBytes 4 s.budget ++ leBytes 8 s.aon.nextSeq

/-- RREAD_REQ: the node answers, refused while VFR_CTRL.SERVE_REMOTE is 0. Status 2 done, 4 refused. -/
def execRreadReq (src : BitVec 16) (kind : Bool) (seq : DWord) (n : Fin 33) (s : State) : Host.Outcome State Fault Refusal :=
  if !s.fabricRuns then .next s
  else
    let serve := (s.reg pVFR 0x10C 1#32).getLsbD 0
    let body : List Byte := if !kind then s.statusBlock
      else ((s.recordsFor 0 seq.toNat).take n.1).flatMap EvRec.bytes
    let b : List Byte := if serve then [2] ++ body else [4]
    .next (s.sendLong { s.newPkt 0x11 0 src noTenant 0 b with flags := 1 })

/-- RREAD_RSP: DMA of PF0 to VFR_RREQ_ADDR, the status, and RREQ_DONE. -/
def execRreadRsp (refusedByNode : Bool) (bytes : List Byte) (s : State) : Host.Outcome State Fault Refusal :=
  if !s.fabricRuns || s.vfr.rreqSt ≠ 1 || s.vfr.rreqWait.isSome then .next s
  else
    let s1 := s.endTxns (fun x => x.tag.isNone)
    let addr : DWord := BitVec.ofNat 64 ((s1.reg pVFR 0xB10 0#32).toNat + 2 ^ 32 * (s1.reg pVFR 0xB14 0#32).toNat)
    let kind := (s1.reg pVFR 0xB04 0#32).getLsbD 0
    let s2 := if refusedByNode || !s1.canDma 0 then s1 else s1.emit (.memWrite 0 addr bytes false false)
    let n := if refusedByNode || !kind then 0 else bytes.length / 64
    .next (({ s2 with vfr := { s2.vfr with rreqSt := if refusedByNode then 4 else 2, rreqN := n } } : State).raise pVFR 4)

/-- VFR_RREQ_GO that is not ignored: the request goes out, waits for a free tag (01 R21), or without a route is unreachable. -/
def State.rreqGo (s : State) : State :=
  let node : BitVec 16 := BitVec.ofNat 16 (bits (s.reg pVFR 0xB00 0#32) 15 0)
  let kw := s.reg pVFR 0xB04 0#32
  let p := s.newPkt 0x10 0 node noTenant 0
    ([BitVec.ofNat 8 (bits kw 0 0), BitVec.ofNat 8 (bits kw 13 8)] ++ leBytes 4 (s.reg pVFR 0xB08 0#32).toNat ++
      leBytes 4 (s.reg pVFR 0xB0C 0#32).toNat)
  ({ s with vfr := { s.vfr with rreqSt := 1, rreqN := 0, rreqWait := some p } } : State).serveRreq

end Sys2Proof.Machine
end

