-- ==== Sys2Proof/Machine/Mirror.lean ====
section
/-!
DEFINITION. The mirrored pair (14 R460 to R469): beats, replicated appends and states, resynchronisation and loss of the partner.
-/
namespace Sys2Proof.Machine

/-! ## Beats and silence (R460, R465, R467) -/

/-- The highest chain index a tenant has acknowledged: its watermark (R465). -/
def State.watermark (s : State) (t : Tid) : Nat :=
  (s.entriesOf t).foldl (fun a p => if p.2.acked then max a p.2.index else a) 0

/-- Beats go out while a pair is formed, but not while it waits out SPACE (R460, R462). -/
def State.beats (s : State) : Bool :=
  s.fabricRuns && (s.paired || s.mir.st = .partnerDown || (s.mir.st = .separated && s.mir.reason ≠ 5#3))

/-- The event records that entered the AON buffer since the last beat, in the areas by now or not, go to the partner (R461, log entry 65). -/
def State.sendEvents (s : State) : State :=
  if s.windward && s.paired then
    let l := s.allRecords.filter (fun r => decide (s.mir.evSent ≤ r.seq))
    let s1 := l.foldl (fun a r => a.mirSend 0x23 1 0 ([6] ++ r.bytes)) s
    { s1 with mir := { s1.mir with evSent := s.aon.nextSeq } }
  else s

/-- MIR_BEAT_SEND: every 1 ms; a windward's beat carries the watermarks that changed. -/
def execMirBeatSend (s : State) : Host.Outcome State Fault Refusal :=
  if !s.beats || s.now < s.mir.beatAt + 1000 then .next s
  else
    let marks := Vector.ofFn (fun t : Fin 64 => if s.mirrored t then s.watermark t else s.mir.sent[t])
    let changed := allTids.filter (fun t => s.windward && marks[t] ≠ s.mir.sent[t])
    let payload := changed.flatMap (fun t => [tidByte t] ++ leBytes 8 marks[t])
    let s1 := s.sendLong (s.newPkt 0x20 0 s.partner noTenant 0 payload)
    let s2 : State := { s1 with mir := { s1.mir with beatAt := s.now, sent := if s.windward then marks else s.mir.sent } }
    .next s2.sendEvents

/-- MIR_BEAT: the watermarks, and the return to RESYNC from SEPARATED or PARTNER_DOWN. -/
def execMirBeat (marks : List Checkpoint) (s : State) : Host.Outcome State Fault Refusal :=
  if !s.fabricRuns || s.mir.st = .off then .next s
  else
    let m := marks.foldl (fun (v : Vector Nat 64) c => v.set c.tenant (max v[c.tenant] c.index.toNat)) s.mir.marks
    let s1 : State := { s with mir := { s.mir with lastRx := s.now, marks := m } }
    .next (match s.mir.st with
      | .separated => if s.mir.reason = 5#3 then s1 else s1.enterResync
      | .partnerDown => s1.enterResync
      | .unpaired => s1.pairCheck
      | _ => s1)

/-- PARTNER_SILENCE: no packet from the partner for 20 ms. -/
def execPartnerSilence (s : State) : Host.Outcome State Fault Refusal :=
  .next (if s.active && s.paired && decide (s.mir.lastRx + 20000 ≤ s.now) then s.mirLeave .separated 0#3 else s)

/-- POWER_LOSS: PARTNER_DOWN with a notice record. -/
def execPowerLoss (s : State) : Host.Outcome State Fault Refusal :=
  .next (if s.fabricRuns && (s.paired || s.mir.st = .separated) then
    let s1 := s.mirLeave .partnerDown 0#3
    s1.record (bitCode pMIR 3) 1 noTenant (leBytes 4 s1.hdr[pMIR].intStatus.toNat)
  else s)

/-- SPACE_RETRY: a pair separated for SPACE tries again after 60 s (R462). -/
def execSpaceRetry (s : State) : Host.Outcome State Fault Refusal :=
  .next (if s.fabricRuns && s.mir.st = .separated && s.mir.reason = 5#3 && decide (s.mir.spaceAt + 60000000 ≤ s.now) then
    s.enterResync else s)

/-! ## Replicas (R461, R462) -/

/-- Whether a zone is a replica of a source zone of a tenant. -/
def Zone.replicaOf (z : Zone) (t : Tid) (src : Nat) : Bool :=
  match z.origin with
  | some o => o.replica && z.owner = t && o.zone.toNat = src
  | none => false

def Zone.diverged (z : Zone) : Bool := match z.origin with | some o => o.diverged | none => false
def Zone.originGen (z : Zone) : Word := match z.origin with | some o => o.gen | none => 0#32

/-- The replica MIR_RMAP finds for a source zone: one that has not diverged before one that has, the highest generation first. -/
def State.replica (s : State) (t : Tid) (src : Nat) : Option (Nat × Zone) :=
  (s.nvm.zones.filter (fun p => p.2.replicaOf t src)).foldl (fun (a : Option (Nat × Zone)) p =>
    match a with
    | none => some p
    | some q =>
      if (q.2.diverged && !p.2.diverged) || (q.2.diverged = p.2.diverged && decide (q.2.originGen.toNat < p.2.originGen.toNat)) then some p
      else some q) none

/-- Replica zones marked DIVERGED (R472 MIR_DIVERGED). -/
def State.divergedN (s : State) : Nat := s.nvm.zones.countv (fun z => z.replica && z.diverged)

/-- The replica an append goes to: the live one of its zone and generation, or a new one from the unowned pool. -/
def State.replicaFor (s : State) (a : MirAppend) : Option (Nat × State) :=
  match s.replica a.tenant a.zone.toNat with
  | some (z, x) => if !x.diverged && x.originGen = a.gen && (x.st = .open_ || x.st = .empty) then some (z, s) else fresh
  | none => fresh
where
  fresh : Option (Nat × State) :=
    s.unowned.map (fun z =>
      let o : Origin := { tenant := tidByte a.tenant, zone := a.zone, gen := a.gen, replica := true, diverged := false }
      (z, s.putZone z { Zone.fresh a.tenant 0 with st := .open_, origin := some o }))

/-- MIR_ACCEPT to the windward: tenant, index, and whether space was refused. -/
def State.sendAccept (s : State) (t : Tid) (index : Nat) (refused : Bool) : State :=
  s.sendPkt { s.newPkt 0x22 1 s.partner (tidByte t) s.tnt[t].epoch (leBytes 8 index ++ [if refused then 1 else 0]) with flags := 1 }

/-- The log entry of a replicated append. -/
def recordOfAppend (a : MirAppend) (prev : Hash) : AppRec :=
  { index := a.index.toNat, offset := a.offset, len := a.len, header := a.header, gust := a.gust, gen := a.gen, opTime := a.opTime,
    cycles := a.cycles, keyId := a.keyId, tag := a.tag, hhash := Config.sha256 a.header, prev := prev, head := a.head,
    cipher := a.cipher, acked := true, accepted := true, blocksOn := false, entryOn := false, damaged := false }

/-- A replicated append enters its replica: buffers of the mirror applier, placed in its stream in class 2 and counted, the entry
recorded, MIR_ACCEPT sent (R463, R466). -/
def State.applyAppend (s : State) (d : BoardDesc) (a : MirAppend) (z : Nat) (x : Zone) : Option State :=
  let t := a.tenant
  let n := blocksOf a.len
  let bufs := (blocksOfBytes a.cipher n).zipIdx.map (fun p =>
    let b := Buf.fresh .mirror a.epoch 0 t (.zone z x.gen (a.offset + p.2) 1 (s.nvm.writeSeq + p.2)) p.1
    { b with cipherDone := true, gen := x.gen, seq := s.nvm.writeSeq + p.2 })
  match s.allocAll .mirror bufs with
  | none => none
  | some (hs, s1) =>
    let items := hs.zipIdx.map (fun p => (some p.1, Piece.zone z x.gen (a.offset + p.2) 1 (s.nvm.writeSeq + p.2)))
    if !(s.fragRoom (fragsOf a.offset n) && s.journalRoom n) then none
    else match s1.placeIn d 2 2 items with
    | none => none
    | some s2 =>
      let e := recordOfAppend a ((x.log.getLast?.map (fun y => y.head)).getD 0)
      let now := s.opSecs
      let s3 := (s2.rtRequest.countDirty hs).updZone z (fun y => { y with
        log := y.log ++ [e], wp := a.offset + n, firstT := if y.log = [] then now else y.firstT, lastT := now, st := .open_ })
      some ((s3.meterIn (if x.holdPending then 2 else 1) a.len).sendAccept t e.index false)

/-- MIR_APPEND at the leeward (R461 to R463, R466). An entry the replica already has is accepted again; one that finds no buffer,
no budget or no place yet waits. -/
def execMirAppend (a : MirAppend) (s : State) : Host.Outcome State Fault Refusal :=
  match s.boot.desc with
  | none => .next s
  | some d =>
    if !s.fabricRuns || !s.leeward || !s.paired then .next s
    else if (match s.replica a.tenant a.zone.toNat with
        | some (_, x) => !x.diverged && x.originGen = a.gen && x.log.any (fun e => e.index = a.index.toNat && e.head = a.head)
        | none => false) then .next (s.sendAccept a.tenant a.index.toNat false)
    else match s.replicaFor a with
      | none => .next ((s.sendAccept a.tenant a.index.toNat true).mirLeave .separated 5#3)
      | some (z, s1) =>
        match s1.zone z with
        | none => .next s
        | some x =>
          if !s.mayCount (blocksOf a.len) then .next s
          else match s1.applyAppend d a z x with
            | some s2 => .next s2
            | none => .next (s.pause .mirror)

/-- A received event record (11 R361). -/
def evRecOf (b : List Byte) : EvRec :=
  let sv := b.getD 0x10 0
  { seq := fieldLe b 0 8, opTime := BitVec.ofNat 32 (fieldLe b 8 4), cycles := BitVec.ofNat 32 (fieldLe b 0x0C 4),
    sev := Fin.ofNat 4 sv.toNat, untrusted := sv.getLsbD 2, rom := sv.getLsbD 3, tenant := b.getD 0x11 0,
    code := BitVec.ofNat 16 (fieldLe b 0x12 2), utc := BitVec.ofNat 64 (fieldLe b 0x18 8), detail := slice b 0x20 28 }

/-- Change the live replica of a source zone. -/
def State.onReplica (s : State) (t : Tid) (src : Nat) (f : Nat → Zone → State) : State :=
  match s.replica t src with
  | some (z, x) => if x.diverged then s else f z x
  | none => s

/-- A replica is reset: its zone-reset record, and it goes back to the unowned pool it was drawn from (R461, log entry 112). -/
def State.resetReplica (s : State) (z : Nat) (x : Zone) : State :=
  let s1 := (s.zresetRecord z x 1).emptyZone z
  ({ s1 with nvm := { s1.nvm with zones := s1.nvm.zones.del z } } : State).eraseZoneBlocks z

/-- What each item of MIR_STATE changes (R461). -/
def State.applyItem (s : State) : MirItem → State
  | .finish t z => s.onReplica t z.toNat (fun k x => if x.st = .open_ then s.updZone k (fun y => y.finish s.opSecs) else s)
  | .hold t z => s.onReplica t z.toNat (fun k x =>
      let s1 := s.updZone k (fun y => { y with holdHost := true, st := if y.st = .full then .held else y.st })
      if x.st = .full then s1.meterIn 2 (4096 * x.wp) else s1)
  | .release t z => s.onReplica t z.toNat (fun k _ =>
      -- A hold of the leeward's own EVENT_IN_L stays (log entry 111).
      s.updZone k (fun y => { y with holdHost := false, st := if y.st = .held && !y.holdEvent then .full else y.st }))
  | .seal t z r => s.onReplica t z.toNat (fun k x =>
      if x.st = .sealed then s
      else
        let s1 := s.updZone k (fun y => { y with st := .sealed, fullT := if y.st = .open_ then s.opSecs else y.fullT })
        ({ s1 with nvm := { s1.nvm with sealRecs := s1.nvm.sealRecs.put k r } } : State).meterIn 3 (4096 * x.wp))
  | .recycle t z => s.onReplica t z.toNat (fun k x => if x.st = .held || x.st = .sealed then s else s.resetReplica k x)
  | .event b => let l := s.nvm.partnerLog ++ [evRecOf b]
    { s with nvm := { s.nvm with partnerLog := keepNewest 65536 l } }
  | .meter accs total => { s with nvm := { s.nvm with
      partnerAccs := Vector.ofFn (fun k : Fin 512 => ((accs.getD k.1 0#64) : DWord).toNat), partnerTotal := total.toNat } }
  | .owner slots lock => { s with nvm := { s.nvm with partnerOwner := (slots, lock) } }

/-- MIR_STATE at the leeward. -/
def execMirState (item : MirItem) (s : State) : Host.Outcome State Fault Refusal :=
  .next (if s.fabricRuns && s.leeward && s.paired then s.applyItem item else s)

/-- MIR_RETRACT at the leeward (R465): entries at or above the index go, but never one at or below the watermark. -/
def execMirRetract (t : Tid) (index : DWord) (s : State) : Host.Outcome State Fault Refusal :=
  if !s.fabricRuns || !s.leeward || !s.paired then .next s
  else
    let gone (e : AppRec) : Bool := decide (index.toNat ≤ e.index) && decide (s.mir.marks[t] < e.index)
    let zones := s.nvm.zones.mapv (fun _ z =>
      if z.owner = t && z.replica && !z.diverged && z.log.any gone then
        { z with log := z.log.filter (fun e => !gone e),
                 wp := (z.log.filter (fun e => !gone e)).foldl (fun a e => max a (e.offset + blocksOf e.len)) 0 }
      else z)
    let n : Nvm := { s.nvm with zones := zones }
    .next { s with nvm := { n with sbs := n.sbs.mapv (fun _ b => { b with pieces := trimPieces n b.pieces }) } }

/-! ## Acceptance and resynchronisation (R463, R468, R469) -/

/-- IN_SYNC once every tenant's backlog has been sent and accepted; the partner is told (R469, log entry 70). -/
def State.settleSync (s : State) : State :=
  if s.windward && s.mir.st = .resync && s.mir.backlog = [] && allTids.all (fun t => !s.mirrored t || s.mir.synced[t]) then
    let zones := s.nvm.zones.mapv (fun _ z => if z.origin.isNone && s.mirrored z.owner then
      { z with log := z.log.map (fun e => { e with accepted := true }) } else z)
    let s1 : State := { s with mir := { s.mir with st := .inSync, reason := 0 }, nvm := { s.nvm with zones := zones } }
    (s1.raise pMIR 1).sendLong (s1.newPkt 0x26 0 s.partner noTenant 0 [0xFF])
  else s

/-- MIR_ACCEPT at the windward. -/
def execMirAccept (t : Tid) (index : DWord) (refusedSpace : Bool) (s : State) : Host.Outcome State Fault Refusal :=
  if !s.fabricRuns || !s.windward || !s.paired then .next s
  else if refusedSpace then .next (s.mirLeave .separated 5#3)
  else
    let n := index.toNat
    let s1 := match s.entryAt t n with
      | some (z, _) => s.updEntry z n (fun e => { e with accepted := true })
      | none => s
    let s2 : State := { s1 with mir := { s1.mir with backlog := s1.mir.backlog.filter (fun b => !(b.1 = t.1 && b.2 = n)) } }
    .next s2.settleSync

/-- The agreement point of a tenant: the first checkpoint the windward holds or computes with an equal H, and whether it is the
leeward's newest. -/
def State.agree (s : State) (t : Tid) (cps : List Checkpoint) : Option Nat × Bool :=
  let ok (c : Checkpoint) : Bool :=
    if c.index = 0 then decide (c.head = genesis t)
    else match s.entryAt t c.index.toNat with | some (_, e) => decide (e.head = c.head) | none => false
  match cps.find? ok with
  | some c => (some c.index.toNat, match cps.head? with | some h => decide (h = c) | none => false)
  | none => (none, false)

/-- The states of a source zone as MIR_STATE sends them. -/
def State.sendZoneState (s : State) (id : Nat) (z : Zone) : State :=
  let t := z.owner
  let item (a : State) (k : Byte) (b : List Byte) : State := a.mirSend 0x23 1 t ([k] ++ b)
  let s1 := if z.st = .full || z.st = .held || z.st = .sealed then item s 1 (leBytes 4 id) else s
  let s2 := if z.st = .held || z.holdPending then item s1 2 (leBytes 4 id) else s1
  match z.st, s.nvm.sealRecs.find id with
  | .sealed, some r => item s2 4 (leBytes 4 id ++ r)
  | _, _ => s2

/-- The zones of a tenant a resynchronisation sends, with the lowest index to send of each. -/
def State.resyncZones (s : State) (t : Tid) (p : Option Nat) (whole : Bool) : List (Nat × Zone) :=
  let base := p.getD 0
  s.nvm.zones.filter (fun z => z.2.owner = t && z.2.origin.isNone && z.2.log.any (fun e => decide (base < e.index)) &&
    (!whole || z.2.st = .sealed))

/-- One tenant's resynchronisation at the windward (R469): the verdict first, then the entries in index order, then the states. -/
def State.resyncTenant (s : State) (cps : List Checkpoint) (t : Tid) : State :=
  let (p, newest) := s.agree t (cps.filter (fun c => c.tenant = t))
  let diverged := !newest
  let zs := s.resyncZones t p diverged
  let entries := byIndex (zs.flatMap (fun z => (z.2.log.filter (fun e => diverged || decide (p.getD 0 < e.index))).map (fun e => (z.1, e))))
  let s1 := s.sendLong (s.newPkt 0x26 0 s.partner (tidByte t) s.tnt[t].epoch
    ([tidByte t, if diverged then 1 else 0] ++ leBytes 8 (p.getD 0)))
  let s2 := entries.foldl (fun a e => a.mirAppendSend t e.1 e.2) s1
  let s3 := zs.foldl (fun a z => a.sendZoneState z.1 z.2) s2
  { s3 with mir := { s3.mir with
    backlog := s3.mir.backlog ++ entries.map (fun e => (t.1, e.2.index)), synced := s3.mir.synced.set t true,
    liveFrom := s3.mir.liveFrom.set t (if diverged then s.nvm.chains[t].index else 0) } }

/-- MIR_SYNC_REQ at the windward (R468, R469). -/
def execMirSyncReq (cps : List Checkpoint) (s : State) : Host.Outcome State Fault Refusal :=
  if !s.fabricRuns || !s.windward || s.pairReason ≠ 0#3 then .next s
  else
    let s1 := s.enterResync
    .next ((allTids.filter s.mirrored).foldl (fun a t => a.resyncTenant cps t) s1).settleSync

/-- The leeward marks every replica zone of a tenant that holds an entry above the agreement point DIVERGED, with a record for each
(R469; 11 R363). -/
def State.markDiverged (s : State) (t : Tid) (p : Nat) : State :=
  let hit := s.nvm.zones.filter (fun z => z.2.owner = t && z.2.replica && !z.2.diverged && z.2.log.any (fun e => decide (p < e.index)))
  hit.foldl (fun a z =>
    let a1 := a.updZone z.1 (fun x => { x with origin := x.origin.map (fun o => { o with diverged := true }) })
    let src := match z.2.origin with | some o => o.zone.toNat | none => 0
    a1.drawn.raiseRec pMIR 2 (Fin.ofNat 4 a1.freeVal.toNat) (tidByte t) (leBytes 4 src ++ leBytes 4 z.1 ++ leBytes 8 p)) s

/-- MIR_SYNC_RSP at the leeward. -/
def execMirSyncRsp (vs : List SyncVerdict) (s : State) : Host.Outcome State Fault Refusal :=
  if !s.fabricRuns || !s.leeward || s.mir.st ≠ .resync then .next s
  else
    let s1 := vs.foldl (fun a v => if v.diverged then a.markDiverged v.tenant v.point.toNat else a) s
    .next (if vs.any (fun v => v.done) then
      ({ s1 with mir := { s1.mir with st := .inSync, reason := 0 } } : State).raise pMIR 1
    else s1)

end Sys2Proof.Machine
end

