-- ==== Sys2Proof/Machine/Life.lean ====
section
/-!
DEFINITION. The housekeeping round, Vane, life counters, ageing and debug (15).
-/
namespace Sys2Proof.Machine

/-! ## The housekeeping round (R473 to R476) -/

/-- Nominal of the rails of slots 7 to 14 in mV (16 R500); in DDR4 mode VDDQ_DRAM is judged against VDD_DRAM's (R476). -/
def railNominal (ddr4 : Bool) (rail : Nat) : Nat :=
  match rail with
  | 0 | 1 => 750
  | 2 => 1800
  | 3 => 3300
  | 4 => 1200
  | 5 => if ddr4 then 1200 else 1100
  | 6 => if ddr4 then 1200 else 600
  | _ => 800

/-- A reading more than 5 % from its nominal. -/
def railOut (nominal : Nat) (mV : Int) : Bool := decide (mV * 100 < 95 * (nominal : Int)) || decide (105 * (nominal : Int) < mV * 100)

/-- The supply monitor (R476): once per rail and start. -/
def State.supplyReading (s : State) (slot : Nat) (mV : Int) : State :=
  match s.boot.desc with
  | none => s
  | some d =>
    let rail : Fin 8 := Fin.ofNat 8 (slot - 7)
    if railOut (railNominal (d.dramType = 1) rail.1) mV && !s.boot.supply[rail] then
      ({ s with boot := { s.boot with supply := s.boot.supply.set rail true } } : State).raiseRec pHKP 0 2 noTenant
        ([BitVec.ofNat 8 slot, 0, 0, 0] ++ leBytes 4 (mV % 4294967296).toNat)
    else s

/-- A die sensor's reading: one out of range marks the sensor failed (R475). -/
def State.dieReading (s : State) (n : Nat) (r : Int) : State :=
  let bad := decide (r < -220) || decide (600 < r)
  let was := s.hkp.failed.getLsbD n
  let m : BitVec 4 := 1#4 <<< n
  let s1 : State := { s with hkp := { s.hkp with failed := if bad then s.hkp.failed ||| m else s.hkp.failed &&& ~~~m } }
  if bad && !was then s1.raise pHKP 1 else s1

/-- The external diode, invalid when it reads open or shorted. -/
def State.diodeReading (s : State) (ok : Bool) : State :=
  let s1 : State := { s with hkp := { s.hkp with diodeBad := !ok } }
  if !ok && !s.hkp.diodeBad then s1.raise pHKP 2 else s1

/-- The housekeeping micro-engine runs: loaded by Adeit, not halted, no probe on the converter. -/
def State.hkpRuns (s : State) : Bool := s.active && s.boot.hkLoaded && !s.probeRunning && !s.dbg.seqHalted.getLsbD 9

/-- The slot in progress has lasted its 4 ms (R473). -/
def State.slotOver (s : State) : Bool := decide (max s.hkp.slotAt s.boot.releaseAt + 4000 ≤ s.now)

/-- HOUSEKEEPING_SLOT: the slot's mean reading; during a probe the round stands still (R474). Slot 15 measures one ageing monitor in turn, in ppm
(R486). -/
def execHousekeepingSlot (reading : Int) (diodeOk : Bool) (s : State) : Host.Outcome State Fault Refusal :=
  if !s.hkpRuns || !s.slotOver then .next s
  else
    let k := s.hkp.slot
    let mon : Fin 8 := Fin.ofNat 8 s.hkp.monitor
    let s1 : State := { s with hkp := { s.hkp with
      reads := s.hkp.reads.set k reading, slot := k + 1, ended := s.hkp.ended || k = 15,
      slotAt := s.now,
      ages := if k = 15 then s.hkp.ages.set mon (reading.toNat :: s.hkp.ages[mon]) else s.hkp.ages,
      monitor := if k = 15 then (s.hkp.monitor + 1) % 8 else s.hkp.monitor } }
    .next (
      if k.1 < 4 then s1.dieReading k.1 reading
      else if k.1 = 4 then s1.diodeReading diodeOk
      else if k.1 = 6 then s1.vcapReading reading.toNat
      else if 7 ≤ k.1 ∧ k.1 ≤ 14 then s1.supplyReading k.1 reading
      else s1)

/-- The valid die sensors' readings. -/
def HkpS.validDies (h : HkpS) : List Int :=
  ((List.range 4).filter (fun n => !h.failed.getLsbD n)).map (fun n => h.reads.toList.getD n 0)

/-- The hottest reading: 120 °C when fewer than two die sensors are valid (R475). -/
def HkpS.hottest (h : HkpS) : Int :=
  match h.validDies with
  | a :: b :: r => r.foldl max (max a b)
  | _ => 480

/-! ## Vane (R477 to R481) -/

/-- Entry and leave temperatures in °C, less the derating of the stage (R477, R487). -/
def vaneEntry (level : Nat) : Int := [0, 105, 108, 111, 115, 117, 119, 120].getD level 0
def vaneLeave (level : Nat) : Int := [0, 102, 105, 108, 112, 114, 116, 117].getD level 0
def stageShift (stage : Nat) : Int := if stage = 0 then 0 else if stage = 1 then 5 else 10

/-- The level after a round: up at once to the highest whose entry T meets, down by one when T is below the leave of the current. -/
def vaneLevel (stage : Nat) (level : Fin 8) (t : Int) : Fin 8 :=
  let up := ((List.finRange 8).filter (fun k => decide (level < k) && decide ((vaneEntry k.1 - stageShift stage) * 4 ≤ t))).getLast?
  match up with
  | some k => k
  | none => if 0 < level.1 ∧ t < (vaneLeave level.1 - stageShift stage) * 4 then ⟨level.1 - 1, by omega⟩ else level

/-- A level change (R480). -/
def State.setVane (s : State) (k : Fin 8) : State :=
  if s.thr.level = k then s
  else
    let rise := decide (s.thr.level < k) && decide (4 ≤ k.1)
    let s1 : State := { s with thr := { s.thr with level := k } }
    let s2 := if rise then s1.raiseRecStatus pTHR 0 1 noTenant else s1.raise pTHR 0
    s2.raiseTenants (fun _ _ => true) 13

/-- Microseconds at the level that ends or goes on (R496). -/
def State.vaneTime (s : State) : State :=
  { s with thr := { s.thr with times := s.thr.times.set s.thr.level (s.thr.times[s.thr.level] + (s.now - max s.thr.since s.boot.releaseAt)), since := s.now } }

/-! ## The end of a round -/

/-- The band of a reading (R482). -/
def bandIx (t : Int) : Fin 5 := if t < 100 then 0 else if t < 280 then 1 else if t < 380 then 2 else if t < 440 then 3 else 4

/-- Hours of a band in the mission profile. -/
def bandHours (b : Fin 5) : Nat := [35040, 140160, 122640, 45552, 7008].getD b.1 0

/-- 64 ms of operating time in the band of the hottest reading (R485); PROFILE_EXCEEDED when the band's hours pass (R497). -/
def State.bandTime (s : State) (t : Int) : State :=
  let b := bandIx t
  let ms := s.nvm.bandMs[b]
  let past (n : Nat) : Bool := decide (bandHours b < n / 3600000)
  let s1 : State := { s with nvm := { s.nvm with bandMs := s.nvm.bandMs.set b (ms + 64) } }
  if past (ms + 64) && !past ms then s1.raise pLIFE 1 else s1

/-- The rate at which media age (09 R299): by the hotter of the die sensors and the external diode. -/
def State.ageWeight (s : State) : Nat :=
  let t := if s.hkp.diodeBad then s.hkp.hottest else max s.hkp.hottest s.hkp.reads[(4 : Fin 16)]
  if t < 220 then 1 else if t ≤ 280 then 2 else 4

/-- The balances of 01 R24 a round checks: buffers of each pool, credits of each link, meter counts. Tags, slots and budget tokens are
counted from what holds them, so their balance cannot fail here. -/
def State.checkBalances (s : State) : State :=
  let pool (dram : Bool) : Bool := (s.bpm.pool dram).rebuild || (s.bpm.pool dram).free + s.bpm.owned dram = (s.bpm.pool dram).size
  let s1 := if pool false && pool true then s else s.raiseRecStatus pBPM 0 3 noTenant
  let s2 := (List.finRange 4).foldl (fun a p =>
    if (List.finRange 3).all (fun v => a.vfl[p].credits[v] + a.vfl[p].outst[v] = 32) then a else a.raiseRecStatus (pVFL p) 4 3 noTenant) s1
  let sum := s2.nvm.accs.toList.foldl (· + ·) 0 + s2.mtr.pending
  if sum = s2.nvm.total then s2 else s2.raiseRecStatus pMTR 0 3 noTenant

/-- HOUSEKEEPING_ROUND (R477 to R481, R485; 01 R24; 09 R299; 10 R319; 12 R382). The row carries what MR4 of each DRAM channel reads. -/
def execHousekeepingRound (mr4 : Vector Byte 2) (s : State) : Host.Outcome State Fault Refusal :=
  if !s.hkpRuns || !s.hkp.ended then .next s
  else
    let t := s.hkp.hottest
    let s0 := s.endLull.vaneTime
    let s1 : State := { s0 with
      hkp := { s0.hkp with ended := false, rounds := satInc s0.hkp.rounds },
      thr := { s0.thr with hot := t },
      dram := { s0.dram with roundCe := 0, mr4 := if s0.dram.trained then mr4 else s0.dram.mr4 } }
    let s2 := s1.setVane (vaneLevel s1.nvm.stage.1 s1.thr.level t)
    let s3 : State := { s2 with mtr := { s2.mtr with
      tmax := max s2.mtr.tmax t, flags := if 0 < s2.thr.level.1 then s2.mtr.flags ||| 0x20#16 else s2.mtr.flags } }
    let s4 := ((s3.bandTime t).ageMedia (64 * s3.ageWeight)).endBoundary.meterServe.checkBalances
    .next (if 500 ≤ t then (s4.raise pTHR 1).squallTrigger sqTHERMAL else s4)

/-! ## Life (R483, R486, R487) -/

/-- OPERATING_HOUR: at a whole hour the operating time goes to the system area. -/
def execOperatingHour (s : State) : Host.Outcome State Fault Refusal :=
  let h := s.opSecs / 3600 * 3600
  .next (if s.active && s.boot.counted && decide (s.nvm.optStored < h) then
    { s with nvm := { s.nvm with optStored := h, optExact := false } } else s)

/-- Thresholds of the derating stages 1 to 3 in ppm. -/
def stageThreshold (k : Nat) : Nat := [15000, 30000, 50000].getD k 0

/-- Consecutive hours over each threshold after another hourly mean. -/
def overHours (v : Vector Nat 3) (mean : Nat) : Vector Nat 3 :=
  Vector.ofFn (fun k : Fin 3 => if stageThreshold k.1 < mean then v[k] + 1 else 0)

/-- The stage the counts call for: 24 consecutive hours of any monitor (R486). -/
def stageOf (m : Vector (Vector Nat 3) 8) : Nat :=
  if m.any (fun v => decide (24 ≤ v[2])) then 3 else if m.any (fun v => decide (24 ≤ v[1])) then 2
  else if m.any (fun v => decide (24 ≤ v[0])) then 1 else 0

/-- The hourly mean of a monitor; one without a reading in the hour keeps its last mean (log entry 172). -/
def State.hourlyMean (s : State) (k : Fin 8) : Nat :=
  match s.hkp.ages[k] with
  | [] => s.nvm.mons[k]
  | l => l.foldl (· + ·) 0 / l.length

/-- AGEING_HOUR, at the end of each operating hour: the means of the eight monitors in ppm; a stage never falls. -/
def execAgeingHour (s : State) : Host.Outcome State Fault Refusal :=
  if !s.active || s.boot.booted.isNone || decide (s.opSecs / 3600 ≤ s.nvm.ageHour) then .next s
  else
    let mons := Vector.ofFn (fun k : Fin 8 => s.hourlyMean k)
    let hours := Vector.ofFn (fun k : Fin 8 => overHours s.nvm.monOver[k] mons[k])
    let s1 : State := { s with
      nvm := { s.nvm with mons := mons, monOver := hours, ageHour := s.opSecs / 3600 },
      hkp := { s.hkp with ages := Vector.replicate 8 [] } }
    let st : Fin 4 := Fin.ofNat 4 (stageOf hours)
    .next (if s.nvm.stage < st then
      ({ s1 with nvm := { s1.nvm with stage := st } } : State).raiseRecStatus pLIFE 0 (if st = 3 then 3 else 2) noTenant
    else s1)

/-! ## Debug (R488 to R494) -/

/-- The scope bit an instruction needs; none: it needs no unlock (R488). -/
def tapScope (code : Nat) : Option Nat :=
  match code with
  | 0x00 => some 2
  | 0x10 | 0x11 => some 0
  | 0x12 => some 1
  | _ => none

/-- Whether a code is an instruction of the table "TAP instructions". -/
def tapKnown (code : Nat) : Bool := [0x00, 0x01, 0x02, 0x10, 0x11, 0x12, 0x13, 0x1F].contains code

/-- UNLOCK selected: a status word, whose layout the manual does not give, and a fresh challenge are shifted out (R492). -/
def State.issueChallenge (s : State) : State :=
  let st : Word := s.freeVal.setWidth 32
  match s.drawn.drbg with
  | some (v, s1) =>
    let q : QWord := v.setWidth 128
    ({ s1 with dbg := { s1.dbg with challenge := some q } } : State).emit
      (.tdo (st :: (List.range 4).map (fun k => (q >>> (32 * k)).setWidth 32)))
  | none => ({ s.drawn with dbg := { s.dbg with challenge := none } } : State).emit (.tdo [st])

/-- TAP_INSTRUCTION (R488, R489). An instruction whose scope is not open selects BYPASS and is counted (log entry 116). -/
def execTapInstruction (code : BitVec 5) (s : State) : Host.Outcome State Fault Refusal :=
  let c := code.toNat
  let ok := match tapScope c with | some k => s.dbg.unlocked && s.dbg.scope.getLsbD k | none => true
  let ir : BitVec 5 := if tapKnown c && ok then code else 0x1F#5
  let s1 : State := { s with dbg := { s.dbg with ir := ir, denied := if ok then s.dbg.denied else satInc s.dbg.denied } }
  .next (if ir = 0x02#5 then s1.emit (.tdo [0x140644F5#32])
    else if ir = 0x13#5 && s.active then s1.issueChallenge
    else s1)

/-- Whether a token is accepted (R492). -/
def State.tokenAccepted (s : State) (b : List Byte) : Bool :=
  match s.dbg.challenge with
  | none => false
  | some q =>
    let m := slice b 0 0x30
    slice b 0 8 = ascii "KL4064DB" && serialOf (slice b 8 16) = Config.serial && tagOf (slice b 0x18 16) = q &&
      decide (fieldLe b 0x28 4 < 8) && fieldLe b 0x2C 4 = 0 &&
      Config.sha256 (wideBytes Config.oxrusDebugKey) = Config.oxrusDebugKeyHash &&
      Config.ecdsaVerify Config.oxrusDebugKey m (wideOf (slice b 0x30 64)) &&
      (s.nvm.ownerSlots = [] || Config.ecdsaVerify s.nvm.ownerKey m (wideOf (slice b 0x70 64)))

/-- Key changes that wait complete with ST_REFUSED 0x30 (R493). -/
def State.refuseKeyWait (s : State) : State :=
  allTids.foldl (fun a t =>
    let a1 := a.tnt[t].keyWait.foldl (fun (x : State) k =>
      match k with
      | .loadX _ _ _ tag | .loadG _ _ _ tag => x.finish tag 0x0D 0x30 0
      | .clear e g tag => (x.dropPersisted t e g).finish tag 0 0 0) a
    a1.updTnt t (fun x => { x with keyWait := [] })) s

/-- LIFE_DEBUG_UNLOCKS counts an unlock (15 R493). -/
def State.countUnlock (s : State) : State := { s with nvm := { s.nvm with unlocks := s.nvm.unlocks + 1 } }

/-- An accepted token (R493): the record is programmed, keys and scalars are zeroised and links leave UP before a scope opens. Commands
in the pipes need keys that are gone: ST_REFUSED 0x30. -/
def State.unlockDebug (s : State) (scope : BitVec 3) : State :=
  let s1 := s.raiseRecStatus pDBG 0 3 noTenant
  let s2 := if s1.boot.tGust.isSome && !s1.aon.passOn then s1.passBegin.passEnd else s1
  let s3 := (((s2.failPipe .x 0x0D 0x30).failPipe .g 0x0D 0x30).refuseKeyWait.zeroiseAll).raiseTenants (fun _ _ => true) 15
  let s4 : State := { s3.countUnlock with sign := { s3.sign with identity := none, transport := none, blocked := true } }
  let s5 := s4.linksDown .down
  { s5 with dbg := { s5.dbg with unlocked := true, scope := scope, challenge := none } }

/-- UNLOCK (R492, R493). A token that arrives during Squall is not checked, and the challenge lapses. -/
def execUnlock (token : Vector Byte 176) (s : State) : Host.Outcome State Fault Refusal :=
  if s.dbg.ir ≠ 0x13#5 then .next s
  else if !s.active then .next { s with dbg := { s.dbg with challenge := none } }
  else if s.tokenAccepted token.toList then .next (s.unlockDebug (BitVec.ofNat 3 (fieldLe token.toList 0x28 4)))
  else
    .next (({ s with dbg := { s.dbg with challenge := none, fails := satInc s.dbg.fails } } : State).raiseRecStatus pDBG 1 2 noTenant)

def State.updDbg (s : State) (f : DbgS → DbgS) : State := { s with dbg := f s.dbg }

/-- DMI (R490). What an abstract read returns of a register no debugger wrote, and what the system bus returns where no debugger wrote, the
manual does not give: free values. A system-bus write is kept at its address; the manual maps none of the addresses the cores can reach,
so it reaches no unit of the model (log entry 145). -/
def execDmi (op : DmiOp) (s : State) : Host.Outcome State Fault Refusal :=
  if s.dbg.ir ≠ 0x11#5 || !s.awake then .next s
  else
    let bit (core : Fin 4) : BitVec 4 := 1#4 <<< core.1
    let answer (a : State) (v : DWord) : State :=
      (a.updDbg (fun d => { d with lastRead := v })).emit (.tdo [v.setWidth 32, (v >>> 32).setWidth 32])
    match op with
    | .halt c => .next (s.updDbg (fun d => { d with halted := d.halted ||| bit c }))
    | .resume c =>
      let s1 := s.updDbg (fun d => { d with halted := d.halted &&& ~~~bit c })
      .next (if c = 1 then s1.retryRewrites else s1)
    | .singleStep c => .next (if s.dbg.halted.getLsbD c.1 then s.updDbg (fun d => { d with steps := d.steps + 1 }) else s)
    | .setTrigger c k t => .next (s.updDbg (fun d => { d with triggers := match t with
        | some v => d.triggers.put (4 * c.1 + k.1) v
        | none => d.triggers.del (4 * c.1 + k.1) }))
    | .readReg c n => .next (match s.dbg.coreRegs.find (65536 * c.1 + n.toNat) with
        | some v => answer s v
        | none => answer s.drawn (s.freeVal.setWidth 64))
    | .writeReg c n v => .next (s.updDbg (fun d => { d with coreRegs := d.coreRegs.put (65536 * c.1 + n.toNat) v }))
    | .busRead a => .next (match s.dbg.bus.find a.toNat with
        | some v => answer s (v.setWidth 64)
        | none => answer s.drawn (s.freeVal.setWidth 64))
    | .busWrite a v => .next (s.updDbg (fun d => { d with bus := d.bus.put a.toNat v }))

/-- SEQDBG (R491). -/
def execSeqdbg (engine : Fin 10) (op : SeqOp) (s : State) : Host.Outcome State Fault Refusal :=
  if s.dbg.ir ≠ 0x12#5 || !s.awake then .next s
  else
    let bit : BitVec 10 := 1#10 <<< engine.1
    .next (match op with
      | .halt => s.updDbg (fun d => { d with seqHalted := d.seqHalted ||| bit })
      | .resume => s.updDbg (fun d => { d with seqHalted := d.seqHalted &&& ~~~bit })
      | .step => if s.dbg.seqHalted.getLsbD engine.1 then s.updDbg (fun d => { d with steps := d.steps + 1 }) else s
      | .setBreak a => s.updDbg (fun d => { d with breaks := match a with
          | some v => d.breaks.put engine.1 v
          | none => d.breaks.del engine.1 })
      | .readAddr =>
        let v := Config.microPc engine.1 s.dbg.steps
        (s.updDbg (fun d => { d with lastRead := v.setWidth 64 })).emit (.tdo [v]))

end Sys2Proof.Machine
end

