-- ==== Sys2Proof/Machine/RegView.lean ====
section
/-!
DEFINITION. The registers of the 128 pages (00 R8, 05 R116 to R146 and the "Registers" section of each chapter): for each
offset, what a read returns now and which bits a write can change. An offset without an entry is reserved.
-/
namespace Sys2Proof.Machine

/-- One register: its value now; the bits with access RW and RWL, which are stored; the bits with access W1C, W1S or WO, which act.
Every other bit is RO or reserved (00 R8). -/
structure Reg where
  val : Word
  rw  : Word
  rwl : Word
  act : Word
deriving DecidableEq, Repr

/-- The bits a write can change. -/
def Reg.writable (r : Reg) : Word := r.rw ||| r.rwl ||| r.act

/-- A read-only register. -/
def ro (v : Word) : Option Reg := some { val := v, rw := 0, rwl := 0, act := 0 }

/-- A register whose written bits act; `v` is what a read returns. -/
def acting (v mask : Word) : Option Reg := some { val := v, rw := 0, rwl := 0, act := mask }

/-- A stored register with access RW. -/
def State.rwReg (s : State) (p : Page) (off : Nat) (mask rst : Word) : Option Reg :=
  some { val := s.reg p off rst, rw := mask, rwl := 0, act := 0 }

/-- A stored register with access RWL. -/
def State.rwlReg (s : State) (p : Page) (off : Nat) (mask rst : Word) : Option Reg :=
  some { val := s.reg p off rst, rw := 0, rwl := mask, act := 0 }

def allOnes32 : Word := 0xFFFFFFFF#32

/-- A count in a field of n bits from bit k, cut at the field's largest value. -/
def fieldC (v n k : Nat) : Word := fieldW (min v (2 ^ n - 1)) k

/-- A 32-bit count. -/
def countW (v : Nat) : Word := fieldC v 32 0

/-- The two words of a 64-bit value. -/
def loW (v : Nat) : Word := BitVec.ofNat 32 v
def hiW (v : Nat) : Word := BitVec.ofNat 32 (v / 2 ^ 32)

/-- Bit k of a word for each k below 32. -/
def bitsW (p : Nat → Bool) : Word := (List.range 32).foldl (fun a k => a ||| bitW (p k) k) 0

/-- One bit for each tenant, T0 to T31 or T32 to T63. -/
def tenantBits (p : Tid → Bool) (upper : Bool) : Word := bitsW (fun k => p (Fin.ofNat 64 (k + if upper then 32 else 0)))

/-- n bits for each of several numbers, the first lowest. -/
def packW (n : Nat) (l : List Nat) : Word := BitVec.ofNat 32 (l.foldr (fun v a => v % 2 ^ n + 2 ^ n * a) 0)

/-! ## Feature offers (05 R127) -/

/-- DEV_FEAT_OFFER0: 0 in ROM recovery and before a board descriptor is in use. -/
def State.featOffer (s : State) : Word :=
  match s.boot.desc with
  | none => 0#32
  | some d =>
    if s.dev.romRecovery then 0#32
    else
      let fab := d.ports ≠ 0#4
      0xBFECB#32 ||| bitW (d.gustEnts ≠ []) 2 ||| bitW (s.windward || s.leeward) 4 ||| bitW fab 5 |||
        bitW (d.display.getD 0 0 = 1) 8 ||| bitW fab 18

/-! ## The common header (05 R123 to R125, R137) -/

/-- PAGE_ID (R124). -/
def pageId (p : Page) : Word :=
  let k := p.1
  let ty := if 0x08 ≤ k ∧ k < 0x10 then (0x08, k - 0x08) else if 0x28 ≤ k ∧ k < 0x2C then (0x28, k - 0x28)
    else if 0x40 ≤ k then (0x40, k - 0x40) else (k, 0)
  fieldW (0x4B00 + ty.1) 0 ||| fieldW ty.2 16 ||| fieldW 1 24

/-- INT_ROUTE (R137). -/
def intRoute (p : Page) : Word :=
  match tenantOfPage p with
  | some t => fieldW (8 * t.1) 0 ||| fieldW 8 16 ||| bitW true 31
  | none => fieldW (sourceBase p).1 0 ||| fieldW (sourceBase p).2 16

/-- FEAT_LO (R125). -/
def State.featLo (s : State) (p : Page) : Word :=
  if p = pDEV then s.featOffer
  else match tenantOfPage p with
    | some t => s.tnt[t].offer
    | none => 0#32

/-- CTRL: DEV and the tenant pages define one; elsewhere it reads 0 and has no field (log entry 8). TNT_CTRL.FEAT_LOCK of T0 is
read-only (R134). -/
def State.ctrlReg (s : State) (p : Page) : Option Reg :=
  if p = pDEV then acting (bitW s.dev.featLock 0) 1
  else match tenantOfPage p with
    | some t =>
      let q := s.tnt[t].qp 0
      acting (bitW (s.tntLocked t) 1 ||| bitW (q.enabled && !q.draining) 2) (if t = 0 then 5 else 7)
    | none => ro 0

/-- The registers below 0x100. -/
def State.headerReg (s : State) (p : Page) (off : Nat) : Option Reg :=
  let h := s.hdr[p]
  match off with
  | 0x000 => ro (pageId p)
  | 0x004 => ro 0xB0
  | 0x008 => ro (s.featLo p)
  | 0x00C => ro 0
  | 0x020 => s.ctrlReg p
  | 0x024 => ro (s.hdrStatus p)
  | 0x030 => acting h.intStatus (intMask p)
  | 0x034 => acting h.intEnable (intMask p)
  | 0x038 => acting 0 (intMask p)
  | 0x03C => ro (intRoute p)
  | 0x040 => ro (fieldW h.errCause.toNat 0)
  | 0x044 => ro h.errAddr
  | 0x048 => ro (fieldW h.errCount.toNat 0)
  | 0x0F0 => acting (bitW h.locked 0) 1
  | _ => none

/-! ## DEV, CLK, PWR, RST (02 R50, R51; 03 R81 to R84; 05 R145) -/

/-- DEV_PAD_STATE (02 R51). -/
def padWord (p : PadState) : Word :=
  fieldW p.nand.toNat 0 ||| bitW p.dram 8 ||| fieldW p.vfl.toNat 9 ||| bitW p.qspi 13 ||| bitW p.spit 14 ||| bitW p.i2ct 15 |||
    bitW p.i2ci 16 ||| bitW p.gpio 17 ||| bitW p.parked 31

def State.devReg (s : State) (off : Nat) : Option Reg :=
  match off with
  | 0x100 => ro s.featOffer
  | 0x104 => ro 0
  | 0x108 => acting s.dev.accept0 allOnes32
  | 0x10C => acting s.dev.accept1 allOnes32
  | 0x110 | 0x114 | 0x118 | 0x11C => ro (wordAt (serialBytes Config.serial) ((off - 0x110) / 4))
  | 0x120 => ro Config.hwType
  | 0x124 => ro (if s.dev.romRecovery then 0 else s.dev.fwVersion)
  | 0x1C0 => ro (strapWord s.dev.strap)
  | 0x1C4 => ro (padWord s.dev.pad)
  | _ => none

def State.clkReg (s : State) (off : Nat) : Option Reg :=
  match off with
  | 0x100 => ro (bitW s.clk.pllLock 0 ||| bitW s.clk.xtalOk 1 ||| bitW s.clk.backup 2 ||| bitW s.clk.tripped 3)
  | 0x104 => ro (fieldW s.clk.xmon.toNat 0)
  | _ => none

/-- PWR_DOMAIN_STATUS code of a domain: it reads as waking until its wake time has passed (03 R65, R82). -/
def Domain.code (d : Domain) (now : Nat) : Nat :=
  match d.st with
  | .on => if d.readyAt ≤ now then 0 else 3
  | .fenced => 1
  | .off => 2

/-- PWR_DOMAIN_STATUS [11:0]. R82 names [1:0] CHG0, [9:8] CHG3 and [11:10] FAB, which leave five fields for four groups: the model puts
CHG1 at [3:2], CHG2 at [5:4] and nothing at [7:6] (log entry 139). -/
def State.domainStatus (s : State) : Word :=
  let c (d : Fin 5) : Nat := s.pwr.doms[d].code s.now
  packW 2 [c 0, c 1, c 2, 0, c 3, c 4]

/-- Minutes since the last completed probe; 0 before one (log entry 120). -/
def State.probeMinutes (s : State) : Nat := match s.pwr.holdAt with | some a => (s.now - a) / 60000000 | none => 0

/-- I_T of the descriptor, 0 before one is in use. -/
def State.probeLoad (s : State) : Nat := match s.boot.desc with | some d => d.iT | none => 0

/-- Free tokens as 32-bit two's complement (01 R22, 03 R82). -/
def State.freeTokens (s : State) : Word := BitVec.ofInt 32 ((s.budget : Int) - s.held)

def State.pwrReg (s : State) (off : Nat) : Option Reg :=
  match off with
  | 0x100 => some { val := s.reg pPWR 0x100 0x7C, rw := 1, rwl := 0x7C, act := 2 }
  | 0x104 => ro (s.domainStatus ||| bitW s.pwr.lull 12)
  | 0x108 => s.rwlReg pPWR off 0xFFFF 200
  | 0x10C => s.rwlReg pPWR off 0xFFFF 100
  | 0x110 => ro (fieldW s.pwr.hold.code 0 ||| fieldC s.probeMinutes 8 8 ||| bitW s.probeRunning 16)
  | 0x114 => ro (countW (1000 * s.probeLoad / s.pwr.slope))
  | 0x118 => ro (countW (s.pwr.dV / s.probeLoad).toNat)
  | 0x11C => ro (countW s.pwr.v0)
  | 0x120 => ro (countW s.pwr.energy)
  | 0x124 => ro (fieldC s.budget 20 0)
  | 0x128 => ro (fieldC s.budget 20 0)
  | 0x12C => ro s.pwr.auditH
  | 0x130 => ro s.pwr.auditF
  | 0x140 => ro (countW eFixedMJ)
  | 0x144 => ro (countW eBufUJ)
  | 0x148 => ro (match s.boot.desc with | some d => countW d.eFixedBoard | none => 0)
  | 0x14C => ro (match s.boot.desc with | some d => countW d.eBufBoard | none => 0)
  | 0x150 => ro s.pwr.retries
  | _ => none

def State.rstReg (s : State) (off : Nat) : Option Reg :=
  match off with
  | 0x100 => ro (fieldW s.aon.rstCause.toNat 0)
  | 0x104 => acting 0 0xFFFF0003
  | 0x108 => s.rwlReg pRST off 0xFFFF 2000
  | _ => none

/-! ## IRQ (05 R139, R141, R146) -/

/-- Whether a page has an asserted source. -/
def State.pageAsserted (s : State) (k : Nat) : Bool :=
  match s.hdr.toList[k]? with
  | some h => h.intStatus &&& h.intEnable ≠ 0
  | none => false

/-- One half of IRQ_TROUTE. -/
def TRoute.half (r : TRoute) : Nat := r.vec.toNat + (if r.valid then 0x8000 else 0)

def State.irqReg (s : State) (off : Nat) : Option Reg :=
  if 0x100 ≤ off ∧ off < 0xA00 then s.rwlReg pIRQ off 0xBF7F 0x8040
  else if 0xA00 ≤ off ∧ off < 0xE00 then
    let k := (off - 0xA00) / 4
    ro (fieldW (s.troutes[Fin.ofNat 512 (2 * k)]).half 0 ||| fieldW (s.troutes[Fin.ofNat 512 (2 * k + 1)]).half 16)
  else match off with
    | 0xE00 => ro (bitsW s.pageAsserted)
    | 0xE04 => ro (bitsW (fun k => k < 15 && s.pageAsserted (0x20 + k)))
    | 0xE08 => ro (bitsW (fun k => s.pageAsserted (0x40 + k)))
    | 0xE0C => ro (bitsW (fun k => s.pageAsserted (0x60 + k)))
    | _ => none

/-! ## PCIE (06 R179) -/

/-- One bit for each function, 0 to 31 or 32 to 63. -/
def State.fnBits (s : State) (p : FnS → Bool) (upper : Bool) : Word :=
  tenantBits (fun n => p s.pcie.fns[n]) upper

def State.pcieReg (s : State) (off : Nat) : Option Reg :=
  let x := s.pcie
  match off with
  | 0x100 => ro (fieldW x.speed.toNat 0 ||| fieldW x.width.toNat 4 ||| fieldW x.ltssm.toNat 8 ||| fieldW x.pmState.toNat 13 ||| bitW x.dlUp 16)
  | 0x104 => ro (bitW (s.dev.level = .none) 0 ||| bitW x.ari 1 ||| bitW x.vfLimit 2 ||| fieldC x.numVfs 6 8 ||| bitW x.squallUr 16)
  | 0x108 => s.rwlReg pPCIE off 0xFFFF 32
  | 0x10C => ro (s.fnBits (fun f => f.resetting) false)
  | 0x110 => ro (s.fnBits (fun f => f.resetting) true)
  | 0x114 => ro (s.fnBits (fun f => f.bme) false)
  | 0x118 => ro (s.fnBits (fun f => f.bme) true)
  | 0x120 => ro x.poisonRx
  | 0x124 => ro x.poisonTx
  | 0x128 => ro x.timeouts
  | 0x12C => ro x.stale
  | 0x130 => ro x.dropped
  | _ => none

/-! ## Tenant pages, HQM, OWN (07 R222 to R225) -/

/-- TNT_BLOCK_NOTICE (05 R140). -/
def Tenant.noticeWord (x : Tenant) : Word := fieldW x.noticeNo.toNat 0 ||| bitW x.notice.isSome 31

/-- TNT_FEAT_ACCEPT; T0's is read-only (05 R134). -/
def State.acceptReg (s : State) (t : Tid) : Option Reg :=
  if t = 0 then ro (s.accepted t) else acting (s.accepted t) allOnes32

def State.tntReg (s : State) (t : Tid) (off : Nat) : Option Reg :=
  let x := s.tnt[t]
  match off with
  | 0x100 => ro x.offer
  | 0x104 => s.acceptReg t
  | 0x108 => acting x.noticeWord 0x80000000
  | 0x110 => acting (loW x.sqBase.toNat) allOnes32
  | 0x114 => acting (hiW x.sqBase.toNat) allOnes32
  | 0x118 => acting (loW x.cqBase.toNat) allOnes32
  | 0x11C => acting (hiW x.cqBase.toNat) allOnes32
  | 0x120 => acting (fieldW x.depth.toNat 0) 0x1FFF
  | 0x124 => ro (bitsW (fun q => match x.qps.toList[q]? with | some y => y.enabled | none => false))
  | 0x140 => ro (countW x.convBlocks)
  | 0x144 => ro (countW x.quota)
  | 0x148 => ro (fieldC x.openMax 5 0 ||| fieldC x.tagLimit 13 16)
  | 0x14C => ro (countW x.heldMax)
  | 0x150 => ro (countW x.evidMax)
  | 0x154 => acting (fieldC x.holdMin 6 0) allOnes32
  | 0x160 => ro (fieldC (s.zcount t .empty) 21 0)
  | 0x164 => ro (fieldC (s.zcount t .open_) 21 0)
  | 0x168 => ro (fieldC (s.zcount t .full) 21 0)
  | 0x16C => ro (fieldC (s.zcount t .held) 21 0)
  | 0x170 => ro (fieldC (s.zcount t .sealed) 21 0)
  | 0x174 => ro (fieldC (s.zcount t .offline) 21 0)
  | 0x180 => ro (fieldC (s.tagsOf t) 13 0)
  | 0x184 => ro (fieldC (s.dirtyHeld t) 20 0)
  | _ => none

/-- Free and allocated tags, and those of old epochs (07 R224). -/
def State.freeTags (s : State) : Nat := 4096 - s.hqm.cmds.length
def State.staleTags (s : State) : Nat := s.hqm.cmds.countv (fun c => decide (c.epoch ≠ s.tnt[c.tenant].epoch))

def State.hqmReg (s : State) (off : Nat) : Option Reg :=
  match off with
  | 0x100 => ro (fieldC s.freeTags 13 0)
  | 0x104 => ro s.hqm.auditA
  | 0x108 => ro (fieldC s.staleTags 13 0)
  | 0x10C => s.rwlReg pHQM off 0xF 8
  | _ => none

def State.ownReg (s : State) (off : Nat) : Option Reg :=
  let n := s.nvm.ownerSlots.length
  if 0x120 ≤ off ∧ off < 0x140 then
    ro (match s.nvm.ownerSlots.getLast? with | some h => wordAt (hashBytes h) ((off - 0x120) / 4) | none => 0)
  else if off = 0x100 then
    ro (bitW (decide (0 < n)) 0 ||| bitW s.nvm.updLock 1 ||| fieldC n 4 2 ||| bitW s.liveChallenge.isSome 6)
  else none

/-! ## UPD (04 R114) -/

/-- A slot's code: 0 A, 1 B, 3 none. -/
def slotCode : Option Bool → Nat
  | some false => 0
  | some true => 1
  | none => 3

/-- Milliseconds to a level, 0xFFFF if not reached. -/
def levelTime : Option Nat → Word
  | some n => fieldC n 16 0
  | none => 0xFFFF

/-- UPD_SLOT_STATUS (R114). -/
def State.slotStatus (s : State) : Word :=
  let r := s.ctlRec
  fieldW (slotCode s.boot.booted) 0 ||| fieldW (slotCode (some r.active)) 2 ||| fieldW (slotCode r.armed) 4 ||| fieldC r.attempts 2 6 |||
    bitW s.boot.fallback 8 ||| bitW s.boot.aGood 9 ||| bitW s.boot.bGood 10 ||| bitW s.aon.markFault 11

/-- UPD_STAGE_STATUS (R114). -/
def State.stageStatus (s : State) : Word :=
  match s.nvm.stage_ with
  | some g => fieldC g.target 2 0 ||| bitW true 2 ||| fieldC (g.offset / 256) 24 8
  | none => 0

/-- A UPD_RCV_ register: outside ROM recovery it reads 0 and ignores writes. -/
def State.rcvReg (s : State) (r : Option Reg) : Option Reg := if s.dev.romRecovery then r else ro 0

def State.updReg (s : State) (off : Nat) : Option Reg :=
  match off with
  | 0x100 => ro s.slotStatus
  | 0x104 => ro (if s.boot.aGood then s.slotVersion false else 0)
  | 0x108 => ro (if s.boot.bGood then s.slotVersion true else 0)
  | 0x10C => ro (fieldC s.nvm.floor 6 0)
  | 0x110 => ro (levelTime s.boot.tGust)
  | 0x114 => ro (levelTime s.boot.tFull)
  | 0x118 => ro s.stageStatus
  | 0x11C => ro s.upd.lastRefusal
  | 0x120 => ro (rcvCauseWord s.upd.rcvCause s.upd.rcvDetail s.upd.rcvByAdeit)
  | 0x130 => s.rcvReg (acting 0 0xF)
  | 0x134 => s.rcvReg (ro s.rcvStatusWord)
  | 0x138 => s.rcvReg (s.rwReg pUPD off 7 0)
  | 0x13C | 0x140 | 0x144 | 0x148 => s.rcvReg (s.rwReg pUPD off allOnes32 0)
  | _ => none

/-! ## CIPH, SIGN, SEAL (08 R261 to R263) -/

/-- CIPH_FAULT_X and _G. -/
def PipeS.faultWord (x : PipeS) : Word := fieldW x.faults.toNat 0 ||| fieldC x.fStage 5 16 ||| fieldC x.fTenant 6 24

/-- A tenant named by a selector register. -/
def State.selTid (s : State) (p : Page) (off : Nat) : Tid := Fin.ofNat 64 (bits (s.reg p off 0) 5 0)

def State.ciphReg (s : State) (off : Nat) : Option Reg :=
  let x := s.ciph.x
  let g := s.ciph.g
  let busy (t : Tid) : Bool := (x.blocks ++ g.blocks).any (fun b => b.tenant = t)
  let sel := s.tnt[s.selTid pCIPH 0x130]
  match off with
  | 0x100 => ro (bitW x.fenced 0 ||| bitW g.fenced 1 ||| bitW x.maskWait 2 ||| bitW g.maskWait 3 ||| fieldW (min x.blocks.length 28) 4 |||
      fieldW (min g.blocks.length 28) 9 ||| bitW x.kat 16 ||| bitW g.kat 17)
  | 0x104 => ro x.faultWord
  | 0x108 => ro g.faultWord
  | 0x10C => ro (x.stallClocks s.now)
  | 0x110 => ro (g.stallClocks s.now)
  | 0x118 => ro (tenantBits (fun t => s.tnt[t].xts.isSome) false)
  | 0x11C => ro (tenantBits (fun t => s.tnt[t].xts.isSome) true)
  | 0x120 => ro (tenantBits (fun t => s.tnt[t].gcm.isSome) false)
  | 0x124 => ro (tenantBits (fun t => s.tnt[t].gcm.isSome) true)
  | 0x128 => ro (tenantBits busy false)
  | 0x12C => ro (tenantBits busy true)
  | 0x130 => s.rwReg pCIPH off 0x3F 0
  | 0x134 => ro (match sel.xts with | some k => k.2 | none => 0)
  | 0x138 => ro (match sel.gcm with | some k => k.2 | none => 0)
  | _ => none

/-- A byte string in registers, byte 0 in [7:0] of the first. -/
def bytesReg (b : List Byte) (base off : Nat) : Option Reg := ro (wordAt b ((off - base) / 4))

/-- The public key of a scalar, x ‖ y; zeros while there is none. -/
def pubBytes (k : Option Hash) : List Byte := match k with | some d => wideBytes (Config.ecPub d) | none => zeroBytes 64

/-- SIGN_XPORT_SIG: the identity key's signature over SERIAL ‖ SIGN_XPORT_PUB (R262). -/
def State.xportSig (s : State) : List Byte :=
  match s.identitySign (serialBytes Config.serial ++ pubBytes s.sign.transport) with
  | some w => wideBytes w
  | none => zeroBytes 64

/-- Requests that wait in SIGN: those for random bytes while the DRBG gives none (08 R249, R252; log entry 152). -/
def State.signWaiting (s : State) : Nat :=
  if s.sign.drbg = 1#2 then 0
  else s.hqm.cmds.countv (fun c => c.phase = .fetched && c.ready && (c.desc.opc = 0x4B || c.desc.opc = 0x48) && c.desc.sel = 0)

def State.signReg (s : State) (off : Nat) : Option Reg :=
  let x := s.sign
  if 0x200 ≤ off ∧ off < 0x240 then bytesReg (pubBytes x.identity) 0x200 off
  else if 0x240 ≤ off ∧ off < 0x280 then bytesReg (pubBytes x.transport) 0x240 off
  else if 0x280 ≤ off ∧ off < 0x2C0 then bytesReg s.xportSig 0x280 off
  else if 0x2C0 ≤ off ∧ off < 0x300 then bytesReg (wideBytes Config.idCert) 0x2C0 off
  else match off with
    | 0x100 => ro (fieldW x.drbg.toNat 0 ||| bitW x.healthLatched 2 ||| bitW x.blocked 3 ||| fieldC (min s.signWaiting 16) 5 4 |||
        fieldC x.restarts 2 9)
    | 0x104 => ro x.reseeds
    | 0x108 => ro (fieldW x.repFails.toNat 0 ||| fieldW x.propFails.toNat 16)
    | _ => none

def State.sealReg (s : State) (off : Nat) : Option Reg :=
  if 0x120 ≤ off ∧ off < 0x140 then bytesReg (hashBytes s.chainU.capHead) 0x120 off
  else match off with
    | 0x100 => s.rwReg pSEAL off 0x3F 0
    | 0x104 => ro (loW (s.nvm.chains[s.selTid pSEAL 0x100]).index)
    | 0x108 => ro (hiW s.chainU.capIndex.toNat)
    | 0x140 => ro (loW s.nvm.sealIndex)
    | 0x144 => ro (hiW s.nvm.sealIndex)
    | _ => none

/-! ## NFC, FTL, MED, LDPC, XPAR (09 R304 to R308) -/

/-- Flash operations in flight on a channel. -/
def State.chanOps (s : State) (n : Fin 8) : Nat := s.inFlight (fun o => decide (o.die.1 / 32 = n.1))

def State.nfcReg (s : State) (n : Fin 8) (off : Nat) : Option Reg :=
  let x := s.med.nfc[n]
  match off with
  | 0x100 => ro (fieldC (s.chanOps n) 7 0 ||| bitW x.enabled 8 ||| bitW x.timing 9 ||| bitW x.params 10)
  | 0x104 => ro (bitsW (fun k => s.nvm.failedDies.contains (32 * n.1 + k)))
  | 0x108 => ro x.ops
  | 0x10C => ro x.progFail
  | 0x110 => ro x.eraseFail
  | 0x114 => ro x.suspends
  | _ => none

def State.ftlReg (s : State) (off : Nat) : Option Reg :=
  match off with
  | 0x100 => ro (countW s.mapMiB)
  | 0x104 => ro (match s.boot.desc with | some d => fieldC d.uCap 20 0 | none => 0)
  | 0x108 => ro (fieldC s.zoneCount 20 0)
  | 0x10C => ro (fieldC s.fragUsed 23 0)
  | 0x110 => ro (fieldC s.med.journal 17 0)
  | 0x120 | 0x124 | 0x128 | 0x12C => ro (s.med.walkMiss.toList.getD ((off - 0x120) / 4) 0)
  | 0x130 => ro s.med.dirWaits
  | _ => none

/-- Issued flash operation slots of the 512 (09 R274). -/
def State.slotsIssued (s : State) : Nat := s.inFlight (fun _ => true)

/-- Reset values of the native thresholds by the cell type (09 R306). -/
def State.nativeDays (s : State) : Word := match s.boot.desc with | some d => BitVec.ofNat 32 (cellNative d) | none => 180
def State.nativeReads (s : State) : Word := match s.boot.desc with | some d => BitVec.ofNat 32 (cellReads d) | none => 100000

def State.medReg (s : State) (off : Nat) : Option Reg :=
  match off with
  | 0x100 => ro (fieldC (512 - s.slotsIssued) 10 0)
  | 0x104 => ro s.med.auditI
  | 0x108 => ro (fieldC s.slcSize 20 0)
  | 0x10C => ro (fieldC s.nGood 20 0)
  | 0x110 => ro (bitW s.nvm.readOnly 0 ||| bitW s.foldUrgent 1 ||| bitW s.med.scrubPass 2 ||| bitW s.boot.noParams 3)
  | 0x114 => s.rwlReg pMED off 0x7F 25
  | 0x118 => s.rwlReg pMED off 0xFFF 60
  | 0x11C => s.rwlReg pMED off 0xFFF s.nativeDays
  | 0x120 => s.rwlReg pMED off allOnes32 500000
  | 0x124 => s.rwlReg pMED off allOnes32 s.nativeReads
  | 0x128 => s.rwlReg pMED off 0xFF 30
  | 0x12C => ro (countW s.nvm.bad.length)
  | 0x130 => ro s.med.refreshed
  | 0x134 => ro (fieldC (s.nvm.wear.foldl (fun a p => max a p.2) 0) 24 0)
  | 0x138 => ro (fieldC s.sFloor 20 0)
  | 0x13C => ro (fieldC s.roLimit 20 0)
  | _ => none

def State.ldpcReg (s : State) (off : Nat) : Option Reg :=
  match off with
  | 0x100 | 0x104 | 0x108 | 0x10C | 0x110 => ro (s.med.rungs.toList.getD ((off - 0x100) / 4) 0)
  | 0x114 => ro (fieldC s.med.softQ.length 8 0)
  | _ => none

def State.xparReg (s : State) (off : Nat) : Option Reg :=
  match off with
  | 0x100 => ro (packW 2 (s.nvm.groups.toList.map (fun g => g.1)))
  | 0x104 => ro (packW 4 (s.nvm.widths.toList.take 8))
  | 0x108 => ro (packW 4 (s.nvm.widths.toList.drop 8))
  | 0x10C => ro s.med.rebuilds
  | _ => none

/-! ## DRAM, DPHY, SRAM, BPM (10 R344 to R347) -/

/-- DRAM_STATUS; no request is queued between two commands (log entry 122). -/
def State.dramStatus (s : State) : Word :=
  let ddr4 := match s.boot.desc with | some d => decide (d.dramType = 1) | none => false
  bitW ddr4 0 ||| bitW s.dram.trained 1 ||| bitW s.pwr.lull 2 ||| bitW s.clk.backup 3 ||| fieldC s.dram.postponed 3 4

def State.dramReg (s : State) (off : Nat) : Option Reg :=
  match off with
  | 0x100 => ro s.dramStatus
  | 0x104 => ro (fieldC s.dram.usableMiB 14 0)
  | 0x108 => ro s.dram.ce
  | 0x10C => ro s.dram.ue
  | 0x110 => ro (loW s.dram.ueAddr.toNat)
  | 0x114 => ro (hiW s.dram.ueAddr.toNat)
  | 0x118 => ro s.dram.forced
  | 0x11C => ro s.dram.payback
  | 0x120 => ro (Config.timedCount 0 s.now)
  | 0x124 => ro s.dram.passes
  | 0x128 => s.rwlReg pDRAM off 0x1F 16
  | _ => none

/-- DPHY_RD_EYE and _WR_EYE; the centre is floor((first + last) / 2) (10 R314). -/
def Eye.word (e : Eye) : Word := fieldC e.first 7 0 ||| fieldC e.last 7 8 ||| fieldC ((e.first + e.last) / 2) 7 16 ||| fieldC e.width 8 24

def State.dphyReg (s : State) (off : Nat) : Option Reg :=
  match off with
  | 0x100 => ro (bitW s.dram.trained 0 ||| fieldW s.dram.failed.toNat 1 ||| fieldW s.dram.narrow.toNat 6)
  | 0x110 | 0x114 | 0x118 | 0x11C | 0x120 => ro (s.dram.rdEye.toList.getD ((off - 0x110) / 4) Eye.reset).word
  | 0x130 | 0x134 | 0x138 | 0x13C | 0x140 => ro (s.dram.wrEye.toList.getD ((off - 0x130) / 4) Eye.reset).word
  | 0x150 => ro (fieldC s.dram.trainUs 16 0)
  | 0x154 => s.rwlReg pDPHY off 0x7F 16
  | _ => none

def State.sramReg (s : State) (off : Nat) : Option Reg :=
  let m := s.sram
  match off with
  | 0x100 => ro (bitW s.pwr.lull 0 ||| bitW (m.targets ≠ []) 1 ||| bitW m.unrepaired 2 ||| bitW m.otpFull 3)
  | 0x104 => some { val := s.reg pSRAM off 0, rw := 0xE, rwl := 0, act := 1 }
  | 0x108 => ro (fieldC m.failRows 16 0 ||| bitW m.done 16 ||| bitW m.pass 17)
  | 0x10C => ro (packW 4 (m.spares.toList.take 8))
  | 0x110 => ro (packW 4 (m.spares.toList.drop 8))
  | 0x114 => ro (packW 4 m.sparesC.toList ||| (packW 2 m.sparesH.toList <<< 16))
  | 0x118 => ro (fieldC (96 - s.nvm.repairs.length) 7 0)
  | 0x11C => ro m.ce
  | 0x120 => ro m.ue
  | 0x124 => ro (Config.timedCount 1 s.now)
  | _ => none

/-- Buffers an owner code holds; code 0 counts the free ones (10 R335, R347). -/
def State.ownerCount (s : State) (code : Nat) : Nat :=
  s.bpm.bufs.countv (fun b => decide (ownerCode b.owner = code)) + (if code = 0 then s.bpm.sram.free + s.bpm.dram.free else 0)

def State.bpmReg (s : State) (off : Nat) : Option Reg :=
  match off with
  | 0x100 => ro (fieldC s.bpm.dram.free 18 0)
  | 0x104 => ro s.bpm.auditA
  | 0x108 => ro s.bpm.auditB
  | 0x10C => ro s.bpm.auditC
  | 0x110 => ro (fieldC s.bpm.dram.size 18 0)
  | 0x114 => ro (fieldC s.bpm.sram.size 11 0)
  | 0x118 => ro (fieldC (s.bpm.bufs.countv (fun b => b.quarantined)) 18 0)
  | 0x11C => ro s.bpm.pauses
  | 0x120 => ro (fieldC s.bpm.dram.head 20 0)
  | 0x124 => ro (fieldC s.bpm.sram.head 20 0)
  | 0x128 => s.rwReg pBPM off 0x1F 0
  | 0x12C => ro (fieldC (s.ownerCount (bits (s.reg pBPM 0x128 0) 4 0)) 19 0)
  | _ => none

/-! ## EVR, MTR, DISP (11 R371; 12 R392, R393) -/

/-- EVR_STATUS. The permanent area is full once the next SEQ lies above it (log entry 123). -/
def State.evrStatus (s : State) : Word :=
  fieldC s.aon.evBuf.length 9 0 ||| bitW s.aon.passOn 9 ||| bitW (decide (4096 ≤ s.aon.nextSeq)) 10 |||
    bitW (decide (65536 ≤ s.nvm.circ.length)) 11

/-- The lowest SEQ in the circulating area; 0 while it is empty (log entry 123). -/
def State.oldestSeq (s : State) : Nat :=
  match s.nvm.circ with
  | [] => 0
  | r :: l => l.foldl (fun a x => min a x.seq) r.seq

def State.evrReg (s : State) (off : Nat) : Option Reg :=
  match off with
  | 0x100 => ro s.evrStatus
  | 0x104 => ro (loW s.aon.nextSeq)
  | 0x108 => ro s.evr.capHi
  | 0x10C => ro (countW s.nvm.evDropped)
  | 0x110 | 0x114 | 0x118 | 0x11C =>
    ro (fieldC (s.nvm.circ.filter (fun r => decide (r.sev.1 = (off - 0x110) / 4))).length 17 0)
  | 0x120 => ro (loW s.oldestSeq)
  | 0x124 => ro (hiW s.oldestSeq)
  | 0x130 => ro s.evr.prev.causeWord
  | 0x134 => ro s.evr.prev.dirtyWord
  | 0x138 => ro s.evr.prev.vcapWord
  | 0x13C => ro (countW s.nvm.squalls)
  | 0x140 => ro (countW s.nvm.ackLost)
  | _ => none

/-- The accumulator that MTR_ACC_SEL selects. -/
def State.selAcc (s : State) : Nat :=
  let w := s.reg pMTR 0x140 0
  s.nvm.accs.toList.getD (8 * bits w 5 0 + bits w 10 8) 0

/-- MTR_STATUS (12 R392). -/
def State.mtrStatus (s : State) : Word :=
  fieldW s.mtr.utcState.code 0 ||| bitW s.untrusted 2 ||| bitW s.mtr.pendingOn 3 ||| bitW s.liveNonce.isSome 4 ||| bitW s.mtr.restored 5

def State.mtrReg (s : State) (off : Nat) : Option Reg :=
  match off with
  | 0x100 => ro s.mtrStatus
  | 0x104 => ro (loW s.utc)
  | 0x108 => ro s.mtr.capUtcHi
  | 0x10C => ro (loW s.nvm.profNext)
  | 0x110 => ro (hiW s.nvm.profNext)
  | 0x114 => ro (loW s.nvm.total)
  | 0x118 => ro (hiW s.nvm.total)
  | 0x120 => ro (bitW s.mtr.pendingOn 0)
  | 0x124 | 0x128 | 0x12C | 0x130 | 0x134 | 0x138 => ro (s.mtr.cap.toList.getD ((off - 0x124) / 4) 0)
  | 0x140 => s.rwReg pMTR off 0x73F 0
  | 0x144 => ro (loW s.selAcc)
  | 0x148 => ro s.mtr.capAccHi
  | _ => none

def State.dispReg (s : State) (off : Nat) : Option Reg :=
  let b := match s.boot.desc with | some d => d.display | none => []
  match off with
  | 0x100 => ro (bitW (decide (b.getD 0 0 = 1#8)) 0 ||| bitW s.disp.running 1 ||| fieldC s.disp.item 4 2 ||| fieldC (b.getD 3 0).toNat 5 6 |||
      bitW s.disp.host.isSome 11)
  | 0x104 => ro s.disp.frames
  | 0x108 => ro (fieldC s.hostLife 8 0)
  | _ => none

/-! ## Serial ports and discrete inputs (13 R426 to R430) -/

/-- QSPI_STATUS: the user on the bus, of the last frame while the bus is free. -/
def State.qspiStatus (s : State) : Word :=
  let user := match s.qspi.bus.getD s.qspi.lastUser with | .fw => 0 | .disp => 1 | .host => 2
  bitW s.hostBusy 0 ||| bitW s.qspi.bus.isSome 1 ||| fieldW user 2 ||| bitW s.qspi.dmaErr 4

def State.qspiReg (s : State) (off : Nat) : Option Reg :=
  match off with
  | 0x100 => s.rwReg pQSPI off 0xFF07 0
  | 0x104 => s.rwReg pQSPI off 0x77F7F 0
  | 0x108 => s.rwReg pQSPI off 0xFFFF 0
  | 0x10C => s.rwReg pQSPI off allOnes32 0
  | 0x110 => s.rwReg pQSPI off 0x1FFFF 0
  | 0x114 | 0x118 => s.rwReg pQSPI off allOnes32 0
  | 0x11C => acting 0 1
  | 0x120 => ro s.qspiStatus
  | 0x124 => ro s.qspi.hostFrames
  | _ => none

def State.spitReg (s : State) (off : Nat) : Option Reg :=
  let x := s.spit
  match off with
  | 0x100 => s.rwReg pSPIT off 0x7F07 0x100
  | 0x104 => acting (fieldC x.tx.length 7 0 ||| fieldC x.rx.length 7 8 ||| bitW x.underrun 16 ||| bitW x.overflow 17 |||
      bitW x.partial_ 18) 0x70000
  | 0x108 => acting 0 (BitVec.ofNat 32 (2 ^ wordBits s.spitWord - 1))
  | 0x10C => ro (x.rx.headD 0)
  | 0x110 => acting 0 1
  | 0x114 => ro x.lost
  | 0x118 => ro x.repeats
  | _ => none

def State.i2ctReg (s : State) (off : Nat) : Option Reg :=
  let x := s.i2ct
  match off with
  | 0x100 => s.rwlReg pI2CT off 3 0
  | 0x104 => ro (fieldW s.dev.strap.i2cAddr.toNat 0 ||| bitW x.alert 7 ||| fieldW x.window.1 8 ||| fieldW x.meterSt.toNat 10)
  | 0x108 => ro x.ptr
  | 0x10C => s.rwlReg pI2CT off allOnes32 0
  | 0x110 => s.rwlReg pI2CT off 0xFFFFBF3F 0
  | 0x114 => ro x.txns
  | 0x118 => ro x.pecErr
  | 0x11C => ro x.timeouts
  | _ => none

/-- I2CI_STATUS.BUSY: an entry waits for its retry. -/
def State.i2ciReg (s : State) (off : Nat) : Option Reg :=
  let x := s.i2ci
  match off with
  | 0x100 => ro (bitW x.stuck 0 ||| bitW x.txnFail 1 ||| bitW x.pmicFault 2 ||| bitW x.incomplete 3 ||| bitW x.retryIdx.isSome 4 |||
      fieldC x.index 5 8)
  | 0x104 => ro x.txns
  | 0x108 => ro x.nacks
  | 0x10C => ro x.recoveries
  | 0x110 => ro x.lastStatus
  | _ => none

/-- Codes of the motion states (13 R422). -/
def Motion.code : Motion → Nat
  | .stationary => 0 | .moving => 1 | .unstable => 2

/-- GPIO_IN: EVENT_IN_L is high between pulses (log entry 124). -/
def State.gpioReg (s : State) (off : Nat) : Option Reg :=
  match off with
  | 0x100 => ro (fieldW s.pins.gpio.toNat 0 ||| bitW true 4 ||| bitW s.pins.vmotion 5)
  | 0x104 => s.rwReg pGPIO off 0x1F 0
  | 0x108 => s.rwReg pGPIO off 0xFF 0
  | 0x10C => ro (fieldW s.gpio.motion.code 0 ||| fieldC ((s.now - s.gpio.changeAt) / 1000000) 8 8)
  | 0x110 => ro s.gpio.count
  | 0x114 => ro s.gpio.last
  | _ => none

/-! ## VFL, VFR, MIR (14 R470 to R472) -/

/-- Credits and outstanding slots of one VC, as 14 R470 lays them out. -/
def VflS.creditHalf (x : VflS) (vc : Fin 3) : Nat := x.credits[vc] % 64 + x.outst[vc] % 64 * 256

def State.vflReg (s : State) (n : Fin 4) (off : Nat) : Option Reg :=
  let x := s.vfl[n]
  match off with
  | 0x100 => ro (fieldW x.st.code 0 ||| bitW x.lock 8 ||| fieldW x.nbr.toNat 16)
  | 0x104 | 0x108 | 0x10C | 0x110 => ro (wordAt (serialBytes x.peer) ((off - 0x104) / 4))
  | 0x120 => ro (fieldW (x.creditHalf 0) 0 ||| fieldW (x.creditHalf 1) 16)
  | 0x124 => ro x.capVc2
  | 0x128 => ro (fieldC x.txns.length 9 0)
  | 0x12C => ro x.tx
  | 0x130 => ro x.rx
  | 0x134 => ro x.authFail
  | 0x138 => ro x.crcFail
  | 0x13C => ro x.bringups
  | _ => none

def State.vfrReg (s : State) (off : Nat) : Option Reg :=
  let x := s.vfr
  if 0x200 ≤ off ∧ off < 0x280 then
    ro (packW 4 (((x.rtab.toList.map (fun e => e.toNat)).drop (2 * (off - 0x200))).take 8))
  else if 0x280 ≤ off ∧ off < 0x300 then
    ro (packW 4 (((x.mtab.toList.map (fun e => e.toNat)).drop (2 * (off - 0x280))).take 8))
  else if 0xA00 ≤ off ∧ off < 0xAC0 then s.rwReg pVFR off allOnes32 0
  else match off with
    | 0x100 => ro (bitW s.addressed 0 ||| bitW x.conflict 1 ||| bitW s.nvm.fleetKey.isSome 2 ||| bitW s.nvm.cert.isSome 3 |||
        bitW x.routesOk 4 ||| fieldW s.ownAddr.toNat 16)
    | 0x104 => ro (fieldW x.root.toNat 0)
    | 0x108 => ro (fieldC x.advs.length 17 0)
    | 0x10C => s.rwlReg pVFR off 1 1
    | 0x110 | 0x114 => s.rwlReg pVFR off allOnes32 0
    | 0x118 => ro (fieldW x.conflictAddr.toNat 0)
    | 0x11C => ro (fieldC x.withheld 9 0)
    | 0x120 => ro x.hopDrop
    | 0x124 => ro x.stuckDrop
    | 0xAC0 => acting 0 3
    | 0xB00 => s.rwReg pVFR off 0xFFFF 0
    | 0xB04 => s.rwReg pVFR off 0x3F01 0
    | 0xB08 | 0xB0C | 0xB10 | 0xB14 => s.rwReg pVFR off allOnes32 0
    | 0xB18 => acting 0 (if s.hasFeat 0 5 then 1 else 0)
    | 0xB1C => ro (fieldC x.rreqSt 3 0 ||| fieldC x.rreqN 6 8)
    | _ => none

/-- The selected replica (14 R472). -/
def State.rmapWord (s : State) : Word :=
  let w := s.reg pMIR 0x120 0
  match s.replica (Fin.ofNat 64 (bits w 29 24)) (bits w 19 0) with
  | some (z, x) => fieldC z 20 0 ||| bitW x.diverged 30 ||| bitW true 31
  | none => 0

/-- The partner accumulator selected, or with tariff 8 its MTR_TOTAL (14 R472). -/
def State.pmtr (s : State) : Nat :=
  let w := s.reg pMIR 0x180 0
  if bits w 11 8 = 8 then s.nvm.partnerTotal else s.nvm.partnerAccs.toList.getD (8 * bits w 5 0 + bits w 11 8) 0

/-- The partner record of the selected SEQ; 64 bytes of 0xFF if not held (14 R472). -/
def State.plog (s : State) : List Byte :=
  let seq := (s.reg pMIR 0x130 0).toNat + 2 ^ 32 * (s.reg pMIR 0x134 0).toNat
  match s.nvm.partnerLog.find? (fun r => r.seq = seq) with
  | some r => r.bytes
  | none => List.replicate 64 0xFF

/-- MIR states, as 14 R472 codes them in the order of the table of R460. -/
def MirSt.code : MirSt → Nat
  | .off => 0 | .unpaired => 1 | .resync => 2 | .inSync => 3 | .separated => 4 | .partnerDown => 5

def State.mirReg (s : State) (off : Nat) : Option Reg :=
  if 0x144 ≤ off ∧ off < 0x180 then bytesReg s.mir.cap 0x140 off
  else match off with
    | 0x100 => ro (fieldW s.mir.st.code 0 ||| fieldW s.dev.strap.mirror.toNat 3 ||| fieldW s.mir.reason.toNat 5 ||| fieldW s.partner.toNat 16)
    | 0x104 => s.rwlReg pMIR off 1 0
    | 0x108 | 0x10C => s.rwlReg pMIR off allOnes32 allOnes32
    | 0x110 => s.rwReg pMIR off 0x3F 0
    | 0x114 => ro (fieldC (s.mirLag (s.selTid pMIR 0x110)) 27 0)
    | 0x118 => ro (fieldC s.divergedN 21 0)
    | 0x11C => ro s.mir.separations
    | 0x120 => s.rwReg pMIR off 0x3F0FFFFF 0
    | 0x124 => ro s.rmapWord
    | 0x130 | 0x134 => s.rwReg pMIR off allOnes32 0
    | 0x140 => ro (wordAt s.plog 0)
    | 0x180 => s.rwReg pMIR off 0xF3F 0
    | 0x184 => ro (loW s.pmtr)
    | 0x188 => ro (hiW s.pmtr)
    | _ => none

/-! ## HKP, THR, LIFE, DBG (15 R495 to R498) -/

def State.hkpReg (s : State) (off : Nat) : Option Reg :=
  let x := s.hkp
  if 0x140 ≤ off ∧ off < 0x180 then ro (fieldW (BitVec.ofInt 16 (x.reads.toList.getD ((off - 0x140) / 4) 0)).toNat 0)
  else match off with
    | 0x100 => ro (fieldW x.failed.toNat 0 ||| bitW x.diodeBad 4 ||| fieldW x.slot.1 5 ||| bitW s.probeRunning 9)
    | 0x180 => ro x.rounds
    | _ => none

/-- Operating seconds at a level since chip reset. -/
def State.levelSecs (s : State) (k : Nat) : Nat :=
  (s.thr.times.toList.getD k 0 + (if s.thr.level.1 = k then s.now - max s.thr.since s.boot.releaseAt else 0)) / 1000000

def State.thrReg (s : State) (off : Nat) : Option Reg :=
  if 0x110 ≤ off ∧ off < 0x130 then ro (countW (s.levelSecs ((off - 0x110) / 4)))
  else if off = 0x100 then
    ro (fieldW s.thr.level.1 0 ||| fieldW (BitVec.ofInt 8 (s.thr.hot / 4)).toNat 8 ||| fieldW s.nvm.stage.1 16)
  else none

def State.lifeReg (s : State) (off : Nat) : Option Reg :=
  match off with
  | 0x100 => ro s.opTime
  | 0x104 => ro (countW s.cycleCount)
  | 0x108 => ro (countW s.nvm.starts)
  | 0x110 | 0x114 | 0x118 | 0x11C | 0x120 => ro (countW (s.nvm.bandMs.toList.getD ((off - 0x110) / 4) 0 / 3600000))
  | 0x130 | 0x134 | 0x138 | 0x13C | 0x140 | 0x144 | 0x148 | 0x14C => ro (countW (s.nvm.mons.toList.getD ((off - 0x130) / 4) 0))
  | 0x150 => ro (fieldW s.nvm.stage.1 0)
  | 0x154 => ro (countW s.nvm.unlocks)
  | _ => none

def State.dbgReg (s : State) (off : Nat) : Option Reg :=
  let x := s.dbg
  match off with
  | 0x100 => ro (bitW x.unlocked 0 ||| fieldW x.scope.toNat 1 ||| fieldW x.halted.toNat 4 ||| bitW (x.seqHalted ≠ 0#10) 8)
  | 0x104 => ro x.denied
  | 0x108 => ro x.fails
  | _ => none

/-! ## Every page -/

/-- The registers from 0x100 of a page (05, table "Page index"). -/
def State.blockReg (s : State) (p : Page) (off : Nat) : Option Reg :=
  match tenantOfPage p with
  | some t => s.tntReg t off
  | none =>
    match p.1 with
    | 0x00 => s.devReg off
    | 0x01 => s.clkReg off
    | 0x02 => s.pwrReg off
    | 0x03 => s.rstReg off
    | 0x04 => s.irqReg off
    | 0x05 => s.pcieReg off
    | 0x06 => s.hqmReg off
    | 0x08 | 0x09 | 0x0A | 0x0B | 0x0C | 0x0D | 0x0E | 0x0F => s.nfcReg (Fin.ofNat 8 p.1) off
    | 0x10 => s.ftlReg off
    | 0x11 => s.medReg off
    | 0x12 => s.ldpcReg off
    | 0x13 => s.xparReg off
    | 0x14 => s.dramReg off
    | 0x15 => s.dphyReg off
    | 0x16 => s.sramReg off
    | 0x17 => s.bpmReg off
    | 0x18 => s.ciphReg off
    | 0x19 => s.signReg off
    | 0x1A => s.sealReg off
    | 0x1B => s.evrReg off
    | 0x1C => s.mtrReg off
    | 0x1D => s.dispReg off
    | 0x1E => s.qspiReg off
    | 0x1F => s.spitReg off
    | 0x20 => s.i2ctReg off
    | 0x21 => s.i2ciReg off
    | 0x22 => s.gpioReg off
    | 0x23 => s.hkpReg off
    | 0x24 => s.thrReg off
    | 0x25 => s.lifeReg off
    | 0x26 => s.updReg off
    | 0x27 => s.ownReg off
    | 0x28 | 0x29 | 0x2A | 0x2B => s.vflReg (Fin.ofNat 4 p.1) off
    | 0x2C => s.vfrReg off
    | 0x2D => s.mirReg off
    | 0x2E => s.dbgReg off
    | _ => none

/-- The register at an offset of a page that exists; none: the offset is reserved. -/
def State.regAt (s : State) (p : Page) (off : Nat) : Option Reg :=
  if off % 4 ≠ 0 then none
  else if off < 0x100 then s.headerReg p off
  else s.blockReg p off

end Sys2Proof.Machine
end

