-- ==== Sys2Proof/Machine/RegWrite.lean ====
section
/-!
DEFINITION. Register writes: where an access goes (05 R116 to R122, 07 R181, R221), the access codes field by field (00 R8 to R11), the
values a write may carry, what each acting register does, and the meanings of the register rows.
-/
namespace Sys2Proof.Machine

/-! ## Where an access goes -/

/-- Where a register access goes: nowhere (the request is not answered); counted as RESERVED_OFFSET in a
page; or to the register, with the address an error reports. -/
inductive Reach where
  | nowhere
  | reserved (p : Page) (addr : Word)
  | at_ (addr : Word)
deriving DecidableEq, Repr

/-- Whether a page responds now (05 R116, 07 R181): in ROM recovery DEV and UPD alone, and never the page of a tenant bound to
nothing. -/
def State.pageResponds (s : State) (p : Page) : Bool :=
  pageExists p && (!s.dev.romRecovery || p = pDEV || p = pUPD) &&
    (match tenantOfPage p with | some t => decide (s.tnt[t].binding ≠ 0) | none => true)

/-- Whether the I²C target takes commands: its outputs are enabled, in ROM too (13 R406, 02 R30). -/
def State.i2cOn (s : State) : Bool := s.active && s.dev.pad.i2ct

/-- Whether I2CT_WRITE_PAGES lets I²C write a page; never a tenant page (13 R410). -/
def State.i2cWritable (s : State) (p : Page) : Bool :=
  if p.1 < 32 then (s.reg pI2CT 0x10C 0).getLsbD p.1
  else if p.1 < 64 then (s.reg pI2CT 0x110 0).getLsbD (p.1 - 32)
  else false

/-- Where an access of a source to an offset of a page goes (05 R116 to R120; 13 R410). A VF reaches its own tenant's page alone,
and with no tenant its accesses are counted in DEV. -/
def State.reach (s : State) (src : Src) (p : Page) (off : Nat) : Reach :=
  match src with
    | .pf0 =>
      let addr := errAddr (4096 * p.1 + off) 0 0
      if !s.barOpen 0 || s.dev.level = .none then .nowhere
      else if s.pageResponds p then .at_ addr else .reserved pDEV addr
    | .vf n =>
      let addr := errAddr off 2 n.1
      if n = 0 || !s.barOpen n || s.dev.level = .none then .nowhere
      else match s.vfTenant n with
        | none => .reserved pDEV addr
        | some t => if s.dev.romRecovery then .reserved pDEV addr else if p = pTNT t then .at_ addr else .nowhere
    | .i2c =>
      let addr := errAddr (4096 * p.1 + off) 0 0
      if !s.i2cOn || !s.i2cWritable p then .nowhere
      else if s.pageResponds p then .at_ addr else .reserved pDEV addr

/-- The gateable domain a page lies in: the group of an NFC channel, or FAB (03 R65). -/
def pageDomain (p : Page) : Option (Fin 5) :=
  if h : 0x08 ≤ p.1 ∧ p.1 < 0x10 then some ⟨(p.1 - 0x08) / 2, by omega⟩
  else if 0x28 ≤ p.1 ∧ p.1 < 0x2E then some 4
  else none

/-- An access is traffic on the link, and a NoC packet to the gateable domain of its page (05 R122, 03 R69). -/
def State.touchPage (s : State) (src : Src) (p : Page) : State :=
  let s1 : State := if src = .i2c then s else { s with pcie := s.pcie.traffic s.now }
  match pageDomain p with
  | some d => s1.packetTo d
  | none => s1

/-! ## Values and refusals -/

/-- Whether a stored value lies in its fields' ranges (05 R126 code 0x06): MED_FOLD_LOW 5–90, MED_AGE_SLC 1–4,095, MED_SCRUB_DAYS 1–90,
HQM_FETCH_BURST 1–8, PCIE_ASPM_IDLE from 8, DRAM_ROWHIT_CAP 1–16, DPHY_NARROW_MIN 4–64, SRAM_MARCH_CTRL.TARGET 0–2, the QSPI fields
(13 R395, R426), SPIT_CTRL WORD 0–2 and ATTN_LEVEL 1–64, VFR_RREQ_KIND 1–32, MIR_PMTR_SEL tariff 0–8, UPD_RCV_TARGET 0–4. -/
def inRange (p : Page) (off : Nat) (v : Word) : Bool :=
  let f (hi lo a b : Nat) : Bool := a ≤ bits v hi lo && bits v hi lo ≤ b
  match p.1, off with
  | 0x11, 0x114 => f 6 0 5 90
  | 0x11, 0x118 => f 11 0 1 4095
  | 0x11, 0x128 => f 7 0 1 90
  | 0x06, 0x10C => f 3 0 1 8
  | 0x05, 0x108 => f 15 0 8 65535
  | 0x14, 0x128 => f 31 0 1 16
  | 0x15, 0x154 => f 6 0 4 64
  | 0x16, 0x104 => f 3 2 0 2
  | 0x1E, 0x100 => f 1 0 0 2 && f 15 8 1 255
  | 0x1E, 0x104 => f 1 0 0 2 && f 3 2 0 2 && f 6 4 0 4 && f 9 8 0 2 && f 17 16 0 2
  | 0x1E, 0x110 => f 16 0 0 65536
  | 0x1F, 0x100 => f 1 0 0 2 && f 14 8 1 64
  | 0x2C, 0xB04 => f 13 8 1 32
  | 0x2D, 0x180 => f 11 8 0 8
  | 0x26, 0x138 => f 2 0 0 4
  | _, _ => true

/-- Whether a route is allowed: VECTOR up to 71 on PF0, 8 on a VF (05 R139). -/
def routeOk (v : Word) : Bool := if bits v 13 8 = 0 then decide (bits v 6 0 ≤ 71) else decide (bits v 6 0 = 8)

/-- Why a write of TNT_CTRL is ignored: AQ_ENABLE that would set up queue pair 0 with a depth or base outside 07 R183. -/
def State.ctrlRefusal (s : State) (t : Tid) (v : Word) : Option Byte :=
  let x := s.tnt[t]
  if v.getLsbD 2 && !(x.qp 0).enabled && !ringOk x.depth.toNat x.sqBase x.cqBase then some eVALUE else none

/-- Why a tenant-page write is ignored: VF_DENIED, VALUE, FEATURE (05 R119, R133; 07 R222). -/
def State.tntRefusal (s : State) (t : Tid) (vf : Bool) (off : Nat) (v : Word) : Option Byte :=
  match off with
  | 0x020 => s.ctrlRefusal t v
  | 0x120 => if 16 ≤ bits v 12 0 && bits v 12 0 ≤ 4096 then none else some eVALUE
  | 0x104 => if s.tntLocked t || v &&& ~~~ s.tnt[t].offer ≠ 0 then some eFEATURE else none
  | 0x154 => if vf then some eVFDENIED else if 60 < v.toNat then some eVALUE else none
  | _ => none

/-- Why a write is ignored whole: a value outside its range, a refused feature set, a wrong key, or the refusals of the owning chapter. -/
def State.refusal (s : State) (p : Page) (vf : Bool) (off : Nat) (v : Word) : Option Byte :=
  match tenantOfPage p with
  | some t => s.tntRefusal t vf off v
  | none =>
    match p.1, off with
    | 0x00, 0x108 => if s.dev.featLock || v &&& ~~~ s.featOffer ≠ 0 then some eFEATURE else none
    | 0x00, 0x10C => if s.dev.featLock || v ≠ 0 then some eFEATURE else none
    | 0x03, 0x104 => if bits v 31 16 = 0x5A3C then none else some eKEY
    | 0x16, 0x104 => if inRange p off v then s.marchRefusal v else some eVALUE
    | 0x1E, 0x11C => if v.getLsbD 0 then s.goRefusal else none
    | 0x1F, 0x108 => if 64 ≤ s.spit.tx.length then some 0x81 else none
    | 0x2C, 0xB18 => if v.getLsbD 0 && s.hasFeat 0 5 && s.vfr.rreqSt = 1 then some 0x80 else none
    | 0x04, _ => if 0x100 ≤ off && off < 0xA00 && !routeOk v then some eVALUE else none
    | _, _ => if inRange p off v then none else some eVALUE

/-- What an ignored write also sets: FEAT_ERR when the set was not frozen (05 R129, R130, R133), ROUTE_REJECT (R146), FRAME_REFUSED
(13 R398). -/
def State.refused (s : State) (p : Page) (off : Nat) (cause : Byte) : State :=
  match tenantOfPage p with
  | some t => if cause = eFEATURE && !s.tntLocked t then s.updTnt t (fun x => { x with featErr := true }) else s
  | none =>
    if p = pDEV && cause = eFEATURE && !s.dev.featLock then
      ({ s with dev := { s.dev with featErr := true } } : State).raise pDEV 0
    else if p = pIRQ && 0x100 ≤ off && off < 0xA00 then s.raise pIRQ 0
    else if p = pQSPI && cause = eFRAME then s.raise pQSPI 1
    else s

/-! ## What acting registers do -/

/-- W1C of INT_STATUS: bits clear, and a source of which the write carried a 1 and which is still asserted requests a message (05 R143). -/
def State.clearStatus (s : State) (p : Page) (v : Word) : State :=
  let s1 := s.updHdr p (fun h => { h with intStatus := h.intStatus &&& ~~~ v })
  let s2 := match tenantOfPage p with
    | some t => (List.finRange 8).foldl (fun (a : State) q =>
        if v &&& tenantSourceMask q ≠ 0 && a.hdr[p].sourceOn (tenantSourceMask q) then a.requestTenant t q else a) s1
    | none => s1
  s2.updInta

/-- INT_ENABLE: an enable bit that passes from 0 to 1 over a status bit that is 1 requests a message (05 R140, R143). -/
def State.setEnable (s : State) (p : Page) (v : Word) : State :=
  let h := s.hdr[p]
  let new := v &&& ~~~ h.intEnable &&& h.intStatus
  let s1 := s.updHdr p (fun x => { x with intEnable := v })
  let s2 := match tenantOfPage p with
    | some t => (List.finRange 8).foldl (fun (a : State) q => if new &&& tenantSourceMask q ≠ 0 then a.requestTenant t q else a) s1
    | none => (List.range (sourceBase p).2).foldl (fun (a : State) b =>
        if new.getLsbD b then (a.noticeBlock ((sourceBase p).1 + b)).requestBlock ((sourceBase p).1 + b) else a) s1
  s2.updInta

/-- INT_FORCE: each bit written 1 sets as its event would (05 R138). -/
def State.forceStatus (s : State) (p : Page) (v : Word) : State :=
  (List.range 32).foldl (fun (a : State) b => if v.getLsbD b then a.raise p b else a) s

/-- The features a tenant is offered once DEV_CTRL.FEAT_LOCK sets (05 R132): for T1–T63 without OWNER_ERASE, FABRIC, DISPLAY, CHAIN_EXPORT and
TIME_SYNC; GUST for gust tenants alone. -/
def offerTo (accept : Word) (t : Tid) (x : Tenant) : Word :=
  let a := accept &&& ~~~ x.withhold
  let b := if t = 0 then a else a &&& ~~~ 0xA0920#32
  if x.gustTenant then b else b &&& ~~~ 4#32

/-- DEV_CTRL.FEAT_LOCK sets (05 R130, R132). -/
def State.lockFeatures (s : State) : State :=
  if s.dev.featLock then s
  else { s with
    dev := { s.dev with featLock := true },
    tnt := Vector.ofFn (fun t : Tid => { s.tnt[t] with offer := offerTo s.dev.accept0 t s.tnt[t] }) }

/-- TNT_CTRL: AQ_ENABLE sets up or removes queue pair 0 (07 R183), FEAT_LOCK freezes the features (05 R133), RESET starts a tenant reset. -/
def State.tntCtrl (s : State) (t : Tid) (v : Word) : State :=
  let x := s.tnt[t]
  let s1 := if v.getLsbD 1 && t ≠ 0 then s.updTnt t (fun y => { y with featLock := true }) else s
  let s2 :=
    if v.getLsbD 2 && !(x.qp 0).enabled then s1.createQp t 0 x.depth.toNat x.sqBase x.cqBase (s.defaultVec t 0)
    else if !v.getLsbD 2 && (x.qp 0).enabled then (s1.drainQp t 0 false).removeDrained t 0
    else s1
  if v.getLsbD 0 then s2.tenantReset t else s2

/-- One half of a 64-bit address replaced. -/
def halfAddr (a : DWord) (upper : Bool) (v : Word) : DWord :=
  if upper then BitVec.ofNat 64 (v.toNat * 2 ^ 32 + a.toNat % 2 ^ 32) else BitVec.ofNat 64 (a.toNat / 2 ^ 32 * 2 ^ 32 + v.toNat)

/-- Acting registers of a tenant page (07 R222). -/
def State.actTnt (s : State) (t : Tid) (off : Nat) (v : Word) : State :=
  match off with
  | 0x020 => s.tntCtrl t v
  | 0x104 => s.updTnt t (fun x => { x with accept := v, featErr := false })
  | 0x108 => if v.getLsbD 31 then s.updTnt t (fun x => { x with notice := none }) else s
  | 0x110 => s.updTnt t (fun x => { x with sqBase := halfAddr x.sqBase false v })
  | 0x114 => s.updTnt t (fun x => { x with sqBase := halfAddr x.sqBase true v })
  | 0x118 => s.updTnt t (fun x => { x with cqBase := halfAddr x.cqBase false v })
  | 0x11C => s.updTnt t (fun x => { x with cqBase := halfAddr x.cqBase true v })
  | 0x120 => s.updTnt t (fun x => { x with depth := BitVec.ofNat 13 v.toNat })
  | 0x154 => s.setHold t v.toNat
  | _ => s

/-- RST_CTRL with its key: CAUSE_ACK first, then the software reset (03 R62, R84). -/
def State.rstCtrl (s : State) (v : Word) : State :=
  let s1 : State := if v.getLsbD 1 then { s with aon := { s.aon with rstCause := 0#7 } } else s
  if v.getLsbD 0 then s1.squallTrigger sqSOFTWARE else s1

/-- UPD_RCV_CTRL (04 R114). The data of a CHUNK, and whether its DMA or the read-back of a FINISH failed, come with the row. -/
def State.rcvCtrl (s : State) (v : Word) (data : List Byte) (failed : Bool) : State :=
  match bits v 3 0 with
  | 1 => s.mailStart
  | 2 => s.mailChunk data failed
  | 3 => s.mailFinish !failed
  | 4 => s.mailAbort
  | _ => s

/-- VFR_CERT_CTRL (14 R434); with both bits the fleet key goes first (log entry 126). -/
def State.certCtrl (s : State) (v : Word) : State :=
  let s1 := if v.getLsbD 0 then s.installFleet else s
  if v.getLsbD 1 then s1.installCert else s1

/-- Acting registers of the block pages from 0x100. -/
def State.actBlock (s : State) (p : Page) (off : Nat) (v : Word) (data : List Byte) (failed : Bool) : State :=
  match p.1, off with
  | 0x00, 0x108 => { s with dev := { s.dev with accept0 := v, featErr := false } }
  | 0x00, 0x10C => { s with dev := { s.dev with accept1 := v, featErr := false } }
  | 0x02, 0x100 => if v.getLsbD 1 then s.probeNow else s
  | 0x03, 0x104 => s.rstCtrl v
  | 0x16, 0x104 => s.marchStart v
  | 0x1E, 0x11C => if v.getLsbD 0 then s.qspiGo else s
  | 0x1F, 0x100 => s.spitCtrl v
  | 0x1F, 0x104 => { s with spit := { s.spit with
      underrun := s.spit.underrun && !v.getLsbD 16, overflow := s.spit.overflow && !v.getLsbD 17,
      partial_ := s.spit.partial_ && !v.getLsbD 18 } }
  | 0x1F, 0x108 => s.spitTx v
  | 0x1F, 0x110 => if v.getLsbD 0 then s.spitPop else s
  | 0x26, 0x130 => s.rcvCtrl v data failed
  | 0x2C, 0xAC0 => s.certCtrl v
  | 0x2C, 0xB18 => if v.getLsbD 0 && s.hasFeat 0 5 then s.rreqGo else s
  | _, _ => s

/-- What the written bits of an accepted write do, the stored bits apart. `v` holds the register's writable bits alone. -/
def State.act (s : State) (p : Page) (off : Nat) (v : Word) (data : List Byte) (failed : Bool) : State :=
  match off with
  | 0x030 => s.clearStatus p v
  | 0x034 => s.setEnable p v
  | 0x038 => s.forceStatus p v
  | 0x0F0 => if v.getLsbD 0 then s.updHdr p (fun h => { h with locked := true }) else s
  | _ =>
    match tenantOfPage p with
    | some t => s.actTnt t off v
    | none => if p = pDEV && off = 0x020 then (if v.getLsbD 0 then s.lockFeatures else s) else s.actBlock p off v data failed

/-! ## One write -/

/-- Store bits under a mask. -/
def State.storeReg (s : State) (p : Page) (off : Nat) (r : Reg) (mask v : Word) : State :=
  if mask = 0#32 then s else s.setReg p off ((r.val &&& ~~~ mask) ||| (v &&& mask))

/-- An accepted write: bits in force act, then are stored; a change of a route can change INTA (06 R157), one of a threshold the media's status
bits (09 R306). -/
def State.applyWrite (s : State) (p : Page) (off : Nat) (r : Reg) (locked : Bool) (v : Word) (data : List Byte) (failed : Bool) : State :=
  let live := if locked then r.writable &&& ~~~ r.rwl else r.writable
  let s1 := (s.act p off (v &&& live) data failed).storeReg p off r (live &&& (r.rw ||| r.rwl)) v
  if p = pIRQ then s1.updInta else if p = pMED then s1.mediaBits s else s1

/-- Request the message of a block source that is asserted. -/
def State.rerequest (s : State) (p : Page) (b : Nat) : State :=
  if s.hdr[p].sourceOn (bitW true b) then s.requestBlock ((sourceBase p).1 + b) else s

/-- A W1C write to DEV_INT_STATUS that is itself counted: ACCESS_ERR sets in the same access, so the event wins over the clear, and the
source, which is asserted after the write, requests its message (00 R11, 05 R143). -/
def State.clearCounted (s : State) (r : Reg) (v : Word) (data : List Byte) (failed : Bool) : State :=
  let s1 := s.applyWrite pDEV 0x030 r false (v &&& ~~~2#32) data failed
  if v.getLsbD 1 then (s1.rerequest pDEV 1).updInta else s1

/-- A full write to a register that exists (00 R8 to R10). The write is counted once: alone with the cause for which it is ignored whole, or
READ_ONLY before LOCKED for what it carries into read-only, reserved or locked bits while its other fields act. The UPD_RCV_ registers other
than the all-RO UPD_RCV_STATUS ignore writes uncounted outside ROM recovery (04 R114). -/
def State.writeHere (s : State) (p : Page) (vf : Bool) (off : Nat) (r : Reg) (v addr : Word) (data : List Byte) (failed : Bool) : State :=
  if r.writable = 0#32 then
    (if p = pUPD && !s.dev.romRecovery && 0x130 ≤ off && off ≠ 0x134 then s else s.countErr p eREADONLY addr)
  else
    let locked := s.hdr[p].locked && r.rwl ≠ 0#32
    let live := if locked then r.writable &&& ~~~ r.rwl else r.writable
    let fixed := (v ^^^ r.val) &&& ~~~ r.writable ≠ 0#32
    let note (a : State) : State := if fixed then a.countErr p eREADONLY addr else if locked then a.countErr p eLOCKED addr else a
    if live = 0#32 then (note s).refused p off eLOCKED
    else match s.refusal p vf off v with
      | some c => (s.countErr p c addr).refused p off c
      | none =>
        if fixed && p = pDEV && off = 0x030 then (note s).clearCounted r v data failed
        else (note s).applyWrite p off r locked v data failed

/-- A write to the page of a tenant whose reset runs: ignored and counted RESETTING, but for TNT_CTRL.RESET (07 R221). -/
def State.resettingPage (s : State) (p : Page) : Bool :=
  match tenantOfPage p with | some t => !s.tnt[t].resetDone | none => false

/-- A register write (05 R116 to R122). A reserved offset is counted before incomplete byte enables (log entry 9). -/
def State.writeReg (s : State) (p : Page) (off : Nat) (w : Wr) (data : List Byte) (failed : Bool) : State :=
  match (if w.be = 0#4 then .nowhere else s.reach w.src p off) with
  | .nowhere => s
  | .reserved q addr => (s.touchPage w.src pDEV).countErr q eRESERVED addr
  | .at_ addr =>
    let s1 := s.touchPage w.src p
    match s1.regAt p off with
    | none => s1.countErr p eRESERVED addr
    | some r =>
      if w.be ≠ 15#4 then s1.countErr p ePARTIAL addr
      else if s1.resettingPage p then (if off = 0x020 && w.val.getLsbD 0 then s1 else s1.countErr p 0x84 addr)
      else s1.writeHere p (match w.src with | .vf _ => true | _ => false) off r w.val addr data failed

/-- A register write that brings no data of its own: a CHUNK's read fails, a FINISH's read-back does not (log entry 125). -/
def State.write (s : State) (p : Page) (off : Nat) (w : Wr) : Host.Outcome State Fault Refusal :=
  .next (s.writeReg p off w [] (bits w.val 3 0 ≠ 3))

/-! ## The rows -/

/-- TENANT_RESET: TNT_CTRL.RESET (07 R219). -/
def execTenantReset (t : Tid) (w : Wr) (s : State) : Host.Outcome State Fault Refusal := s.write (pTNT t) 0x020 w
/-- AQ_ENABLE: TNT_CTRL.AQ_ENABLE (07 R183). -/
def execAqEnable (t : Tid) (w : Wr) (s : State) : Host.Outcome State Fault Refusal := s.write (pTNT t) 0x020 w
/-- DEV_FEAT_ACCEPT (05 R129). -/
def execDevFeatAccept (upper : Bool) (w : Wr) (s : State) : Host.Outcome State Fault Refusal := s.write pDEV (if upper then 0x10C else 0x108) w
/-- DEV_CTRL_FEAT_LOCK (05 R130, R132). -/
def execDevCtrlFeatLock (w : Wr) (s : State) : Host.Outcome State Fault Refusal := s.write pDEV 0x020 w
/-- TNT_FEAT_ACCEPT (05 R133, R134). -/
def execTntFeatAccept (t : Tid) (w : Wr) (s : State) : Host.Outcome State Fault Refusal := s.write (pTNT t) 0x104 w
/-- TNT_CTRL_FEAT_LOCK (05 R133, R134). -/
def execTntCtrlFeatLock (t : Tid) (w : Wr) (s : State) : Host.Outcome State Fault Refusal := s.write (pTNT t) 0x020 w
/-- TNT_HOLD_MINUTES (07 R181, R222). -/
def execTntHoldMinutes (t : Tid) (w : Wr) (s : State) : Host.Outcome State Fault Refusal := s.write (pTNT t) 0x154 w
/-- INT_STATUS_W1C (05 R143). -/
def execIntStatusW1c (p : Page) (w : Wr) (s : State) : Host.Outcome State Fault Refusal := s.write p 0x030 w
/-- INT_ENABLE_WRITE (05 R143). -/
def execIntEnableWrite (p : Page) (w : Wr) (s : State) : Host.Outcome State Fault Refusal := s.write p 0x034 w
/-- INT_FORCE (05 R138). -/
def execIntForce (p : Page) (w : Wr) (s : State) : Host.Outcome State Fault Refusal := s.write p 0x038 w
/-- LOCK (00 R9). -/
def execLock (p : Page) (w : Wr) (s : State) : Host.Outcome State Fault Refusal := s.write p 0x0F0 w
/-- IRQ_ROUTE (05 R139). -/
def execIrqRoute (n : Fin 576) (w : Wr) (s : State) : Host.Outcome State Fault Refusal := s.write pIRQ (0x100 + 4 * n.1) w
/-- SOFTWARE_RESET: RST_CTRL bit 0 (03 R62, R84). -/
def execSoftwareReset (w : Wr) (s : State) : Host.Outcome State Fault Refusal := s.write pRST 0x104 w
/-- CAUSE_ACK: RST_CTRL bit 1 (03 R63, R84). -/
def execCauseAck (w : Wr) (s : State) : Host.Outcome State Fault Refusal := s.write pRST 0x104 w
/-- PROBE_NOW: PWR_CTRL bit 1 (03 R72, R82). -/
def execProbeNow (w : Wr) (s : State) : Host.Outcome State Fault Refusal := s.write pPWR 0x100 w
/-- UPD_RCV_START (04 R111). -/
def execUpdRcvStart (w : Wr) (s : State) : Host.Outcome State Fault Refusal := s.write pUPD 0x130 w
/-- UPD_RCV_CHUNK (04 R111). -/
def execUpdRcvChunk (w : Wr) (data : List Byte) (failed : Bool) (s : State) : Host.Outcome State Fault Refusal :=
  .next (s.writeReg pUPD 0x130 w data failed)
/-- UPD_RCV_FINISH (04 R109, R110). -/
def execUpdRcvFinish (w : Wr) (otpGood : Bool) (s : State) : Host.Outcome State Fault Refusal :=
  .next (s.writeReg pUPD 0x130 w [] !otpGood)
/-- UPD_RCV_ABORT (04 R113). -/
def execUpdRcvAbort (w : Wr) (s : State) : Host.Outcome State Fault Refusal := s.write pUPD 0x130 w
/-- SRAM_MARCH_START (10 R330). -/
def execSramMarchStart (w : Wr) (s : State) : Host.Outcome State Fault Refusal := s.write pSRAM 0x104 w
/-- QSPI_GO (13 R398). -/
def execQspiGo (w : Wr) (s : State) : Host.Outcome State Fault Refusal := s.write pQSPI 0x11C w
/-- SPIT_TX_DATA (13 R404). -/
def execSpitTxData (w : Wr) (s : State) : Host.Outcome State Fault Refusal := s.write pSPIT 0x108 w
/-- SPIT_RX_POP (13 R401). -/
def execSpitRxPop (w : Wr) (s : State) : Host.Outcome State Fault Refusal := s.write pSPIT 0x110 w
/-- SPIT_CTRL (13 R404). -/
def execSpitCtrl (w : Wr) (s : State) : Host.Outcome State Fault Refusal := s.write pSPIT 0x100 w
/-- INSTALL_FLEET (14 R434). -/
def execInstallFleet (w : Wr) (s : State) : Host.Outcome State Fault Refusal := s.write pVFR 0xAC0 w
/-- INSTALL_CERT (14 R434). -/
def execInstallCert (w : Wr) (s : State) : Host.Outcome State Fault Refusal := s.write pVFR 0xAC0 w
/-- VFR_RREQ_GO (14 R458). -/
def execVfrRreqGo (w : Wr) (s : State) : Host.Outcome State Fault Refusal := s.write pVFR 0xB18 w
/-- REGISTER_WRITE: a register without a row of its own (00 R8, R10). -/
def execRegisterWrite (p : Page) (off : BitVec 12) (w : Wr) (s : State) : Host.Outcome State Fault Refusal := s.write p off.toNat w

/-! ## Reserved offsets (00 R6, 05 R117) -/

/-- Whether an offset of PF0 BAR2 is listed (R117). -/
def bar2Listed (off : Nat) : Bool := off < 0x1000 || (0x8000 ≤ off && off < 0x8480) || (0xC000 ≤ off && off < 0xC010)

/-- Whether an offset of VF BAR0 above the tenant page is listed (R117). -/
def vfListed (off : Nat) : Bool := (0x1000 ≤ off && off < 0x1040) || (0x2000 ≤ off && off < 0x2090) || (0x3000 ≤ off && off < 0x3008)

/-- The page that counts an access to a reserved offset of a BAR, and the address; none where the offset is not reserved, or lies
outside the BAR. The doorbells of PF0 BAR2 are reserved in ROM recovery and for a tenant not bound to PF0 (R116, R118, 07 R181). -/
def State.reservedIn (s : State) (space : BarSpace) (off : Nat) : Option (Page × Word) :=
  match space with
  | .pf0Bar0 =>
    let addr := errAddr off 0 0
    if h : off / 4096 < 128 then
      let p : Page := ⟨off / 4096, h⟩
      if !s.pageResponds p then some (pDEV, addr)
      else if (s.regAt p (off % 4096)).isNone then some (p, addr) else none
    else if off < 0x100000 then some (pDEV, addr) else none
  | .pf0Bar2 =>
    let addr := errAddr off 1 0
    if 0x10000 ≤ off then none
    else if off < 0x1000 then
      (if s.dev.romRecovery || s.tnt[Fin.ofNat 64 (off / 64)].binding = 0 then some (pDEV, addr) else none)
    else if bar2Listed off then none else some (pDEV, addr)
  | .vfBar0 n =>
    let addr := errAddr off 2 n.1
    if 0x4000 ≤ off then none
    else match s.vfTenant n with
      | none => some (pDEV, addr)
      | some t =>
        if s.dev.romRecovery then some (pDEV, addr)
        else if off < 0x1000 then (if (s.regAt (pTNT t) off).isNone then some (pTNT t, addr) else none)
        else if vfListed off then none else some (pTNT t, addr)

/-- RESERVED_ACCESS: counted once for each doubleword with a byte enabled; a write is ignored and a read is answered with 0, with no
byte enabled too (05 R120). -/
def execReservedAccess (space : BarSpace) (off : BitVec 20) (be : BitVec 4) (read : Bool) (s : State) :
    Host.Outcome State Fault Refusal :=
  let vfOk := match space with | .vfBar0 n => decide (n ≠ 0) | _ => true
  .next (if !vfOk || !s.barOpen (barFn space) || s.dev.level = .none then s
    else match s.reservedIn space (off.toNat / 4 * 4) with
      | some (p, addr) =>
        let s1 := if be = 0#4 then s else (s.touchPage .pf0 p).countErr p eRESERVED addr
        if read then s1.emit (.readData 0) else s1
      | none => s)

end Sys2Proof.Machine
end

