-- ==== Sys2Proof/Machine/Captures.lean ====
section
/-!
DEFINITION. Register reads (05 R120, R121): a read returns the enabled bytes and changes nothing, but a capture register captures. The
meanings of the capture rows.
-/
namespace Sys2Proof.Machine

/-- What a read of a capture register captures, all in one clock (03 R82, 07 R224, 08 R263, 09 R274, 10 R343, 11 R371, 12 R392, 14 R446,
R472). No buffer is in transit between two commands (log entry 31). -/
def State.capture (s : State) (p : Page) (off : Nat) : State :=
  match p.1, off with
  | 0x02, 0x128 => { s with pwr := { s.pwr with
      auditB := fieldC s.budget 20 0, auditH := fieldC s.held 20 0, auditF := s.freeTokens } }
  | 0x06, 0x100 => { s with hqm := { s.hqm with auditA := fieldC s.hqm.cmds.length 13 0 } }
  | 0x11, 0x100 => { s with med := { s.med with auditI := fieldC s.slotsIssued 10 0 } }
  | 0x17, 0x100 => { s with bpm := { s.bpm with
      auditA := fieldC (s.bpm.owned true) 18 0,
      auditB := fieldC s.bpm.sram.free 11 0 ||| fieldC (s.bpm.owned false) 11 16,
      auditC := 0 } }
  | 0x28, 0x120 => s.updVfl 0 (fun x => { x with capVc2 := fieldW (x.creditHalf 2) 0 })
  | 0x29, 0x120 => s.updVfl 1 (fun x => { x with capVc2 := fieldW (x.creditHalf 2) 0 })
  | 0x2A, 0x120 => s.updVfl 2 (fun x => { x with capVc2 := fieldW (x.creditHalf 2) 0 })
  | 0x2B, 0x120 => s.updVfl 3 (fun x => { x with capVc2 := fieldW (x.creditHalf 2) 0 })
  | 0x1C, 0x104 => { s with mtr := { s.mtr with capUtcHi := hiW s.utc } }
  | 0x1C, 0x120 =>
    let sum := s.nvm.accs.toList.foldl (· + ·) 0
    { s with mtr := { s.mtr with
      cap := #v[loW sum, hiW sum, loW s.mtr.pending, hiW s.mtr.pending, loW s.nvm.total, hiW s.nvm.total] } }
  | 0x1C, 0x144 => { s with mtr := { s.mtr with capAccHi := hiW s.selAcc } }
  | 0x1A, 0x104 =>
    let t := s.selTid pSEAL 0x100
    { s with chainU := { capIndex := BitVec.ofNat 64 (s.nvm.chains[t]).index, capHead := s.chainHead t } }
  | 0x1B, 0x104 => { s with evr := { s.evr with capHi := hiW s.aon.nextSeq } }
  | 0x2D, 0x140 => { s with mir := { s.mir with cap := s.plog } }
  | _, _ => s

/-- The bytes of a value that are enabled (05 R120). -/
def enabledBytes (be : BitVec 4) (v : Word) : Word :=
  v &&& ((if be.getLsbD 0 then 0xFF#32 else 0) ||| (if be.getLsbD 1 then 0xFF00#32 else 0) |||
    (if be.getLsbD 2 then 0xFF0000#32 else 0) ||| (if be.getLsbD 3 then 0xFF000000#32 else 0))

/-- Where a read goes: I²C reads every page that responds (13 R409). -/
def State.readReach (s : State) (src : Src) (p : Page) (off : Nat) : Reach :=
  match src with
  | .i2c =>
    let addr := errAddr (4096 * p.1 + off) 0 0
    if !s.i2cOn then .nowhere else if s.pageResponds p then .at_ addr else .reserved pDEV addr
  | _ => s.reach src p off

/-- One register read: the state after its captures, and the register's value; none where the request is not answered. With no byte
enabled no access takes place and the doubleword is 0. -/
def State.readReg (s : State) (src : Src) (be : BitVec 4) (p : Page) (off : Nat) : Option (State × Word) :=
  match s.readReach src p off with
  | .nowhere => none
  | .reserved q addr => some (if be = 0#4 then (s, 0) else ((s.touchPage src pDEV).countErr q eRESERVED addr, 0))
  | .at_ addr =>
    if be = 0#4 then some (s, 0) else
    let s1 := s.touchPage src p
    match s1.regAt p off with
    | none => some (s1.countErr p eRESERVED addr, 0)
    | some r => some (s1.capture p off, r.val)

/-- A read by the host: its completion carries the enabled bytes. -/
def State.hostRead (s : State) (r : Rd) (p : Page) (off : Nat) : Host.Outcome State Fault Refusal :=
  .next (match s.readReg r.src r.be p off with
    | none => s
    | some (s1, v) => s1.emit (.readData (enabledBytes r.be v)))

/-- PWR_BUDGET_AUDIT0 (03 R82). -/
def execPwrBudgetAudit0 (r : Rd) (s : State) : Host.Outcome State Fault Refusal := s.hostRead r pPWR 0x128
/-- HQM_TAG_AUDIT0 (07 R224). -/
def execHqmTagAudit0 (r : Rd) (s : State) : Host.Outcome State Fault Refusal := s.hostRead r pHQM 0x100
/-- MED_SLOT_AUDIT0 (09 R274). -/
def execMedSlotAudit0 (r : Rd) (s : State) : Host.Outcome State Fault Refusal := s.hostRead r pMED 0x100
/-- BPM_AUDIT0 (10 R343). -/
def execBpmAudit0 (r : Rd) (s : State) : Host.Outcome State Fault Refusal := s.hostRead r pBPM 0x100
/-- VFLn_CREDIT_AUDIT (14 R446). -/
def execVflCreditAudit (n : Fin 4) (r : Rd) (s : State) : Host.Outcome State Fault Refusal := s.hostRead r (pVFL n) 0x120
/-- MTR_AUDIT0 (12 R392). -/
def execMtrAudit0 (r : Rd) (s : State) : Host.Outcome State Fault Refusal := s.hostRead r pMTR 0x120
/-- MTR_UTC_LO (12 R392). -/
def execMtrUtcLo (r : Rd) (s : State) : Host.Outcome State Fault Refusal := s.hostRead r pMTR 0x104
/-- MTR_ACC_LO (12 R392). -/
def execMtrAccLo (r : Rd) (s : State) : Host.Outcome State Fault Refusal := s.hostRead r pMTR 0x144
/-- SEAL_INDEX_LO (08 R263). -/
def execSealIndexLo (r : Rd) (s : State) : Host.Outcome State Fault Refusal := s.hostRead r pSEAL 0x104
/-- EVR_NEXT_SEQ_LO (11 R371). -/
def execEvrNextSeqLo (r : Rd) (s : State) : Host.Outcome State Fault Refusal := s.hostRead r pEVR 0x104
/-- MIR_PLOG_DATA0 (14 R472). -/
def execMirPlogData0 (r : Rd) (s : State) : Host.Outcome State Fault Refusal := s.hostRead r pMIR 0x140

end Sys2Proof.Machine
end

