-- ==== Sys2Proof/Machine/I2cTarget.lean ====
section
/-!
DEFINITION. The I²C management target (13 R406 to R413, R428): its commands, its windows, PEC, the alert and the timeout.
-/
namespace Sys2Proof.Machine

/-- Change the target's state. -/
def State.updI2ct (s : State) (f : I2ctS → I2ctS) : State := { s with i2ct := f s.i2ct }

/-- I2CT_CTRL: ALERT_EN and PEC. -/
def State.alertEn (s : State) : Bool := (s.reg pI2CT 0x100 0).getLsbD 0
def State.pecOn (s : State) : Bool := (s.reg pI2CT 0x100 0).getLsbD 1

/-- A write transaction: counted; while PEC is on a wrong PEC byte discards the command (R412). Its command ends a READ_N before it. -/
def State.i2cCommand (s : State) (pecOk : Bool) (act : State → State) : State :=
  if !s.i2cOn then s
  else
    let s1 := s.updI2ct (fun x => { x with txns := satInc x.txns, readN := none })
    if s1.pecOn && !pecOk then ((s1.updI2ct (fun x => { x with pecErr := satInc x.pecErr })).raise pI2CT 2).emit .i2cNack
    else act s1

/-- POINTER (R408). A window above 3 does not exist: it is NACKed with no effect (log entry 128). -/
def execPointer (window : Byte) (addr : Word) (pecOk : Bool) (s : State) : Host.Outcome State Fault Refusal :=
  .next (s.i2cCommand pecOk (fun a =>
    if window.toNat < 4 then a.updI2ct (fun x => { x with window := Fin.ofNat 4 window.toNat, ptr := addr }) else a.emit .i2cNack))

/-- WRITE32 (R410): applied as the same write from PF0, or refused, NACKed and counted I2C_DENIED. -/
def execWrite32 (off val : Word) (pecOk : Bool) (s : State) : Host.Outcome State Fault Refusal :=
  .next (s.i2cCommand pecOk (fun a =>
    let k := off.toNat / 4096
    let p : Page := Fin.ofNat 128 k
    if k < 64 && a.i2cWritable p then
      (a.writeReg p (off.toNat % 4096) { src := .i2c, be := 15#4, val := val } [] true).raise pI2CT 0
    else ((a.raise pI2CT 1).countErr pI2CT 0x82 (errAddr off.toNat 0 0)).emit .i2cNack))

/-- METER_REQ (R411): NACKed while busy; a tenant above 63 or a level other than FULL is refused. -/
def execMeterReq (tenant : Byte) (nonce : QWord) (pecOk : Bool) (s : State) : Host.Outcome State Fault Refusal :=
  .next (s.i2cCommand pecOk (fun a =>
    if a.i2ct.meterSt = 1#2 then a.emit .i2cNack
    else if h : tenant.toNat < 64 then
      if a.dev.level = .full then
        (a.updI2ct (fun x => { x with meterSt := 1#2, meter := [], meterReq := some (⟨tenant.toNat, h⟩, nonce) })).meterServe
      else a.updI2ct (fun x => { x with meterSt := 3#2, meter := [] })
    else a.updI2ct (fun x => { x with meterSt := 3#2, meter := [] })))

/-- READ_N (R408, R412): 1 to 32; another count is NACKed with no effect (log entry 128). Its PEC follows the read. -/
def execReadN (n : Byte) (_pecOk : Bool) (s : State) : Host.Outcome State Fault Refusal :=
  .next (if !s.i2cOn then s
    else
      let s1 := s.updI2ct (fun x => { x with txns := satInc x.txns, readN := none })
      if 1 ≤ n.toNat && n.toNat ≤ 32 then s1.updI2ct (fun x => { x with readN := some n.toNat }) else s1.emit .i2cNack)

/-- A byte of a window that is not available now: a free value (log entry 129). -/
def State.freeByte (s : State) : State × Byte := (s.drawn, s.freeVal.setWidth 8)

/-- The register at an offset that is a multiple of 4, read once with its captures, as window 1 latches it (R409). -/
def State.latchReg (s : State) (off : Nat) : State :=
  if h : off / 4096 < 128 then
    match s.readReg .i2c 15#4 ⟨off / 4096, h⟩ (off % 4096) with
    | some (s1, v) => s1.updI2ct (fun x => { x with latch := v, latchAt := some off })
    | none => s
  else
    (s.countErr pDEV eRESERVED (errAddr off 0 0)).updI2ct (fun x => { x with latch := 0, latchAt := some off })

/-- The byte at the pointer of window 1: a register is read at its first byte, or at the first byte of the read. -/
def State.registerByte (s : State) (first : Bool) : State × Byte :=
  let a := s.i2ct.ptr.toNat
  if 0x100000 ≤ a then (s, 0xFF)
  else
    let s1 := if first || a % 4 = 0 then s.latchReg (a / 4 * 4) else s
    (s1, BitVec.ofNat 8 (s1.i2ct.latch.toNat / 2 ^ (8 * (a % 4))))

/-- The byte at the pointer of window 2: SEQ × 64 + byte. -/
def State.eventByte (s : State) : Byte :=
  let a := s.i2ct.ptr.toNat
  match s.allRecords.find? (fun r => r.seq = a / 64) with
  | some r => r.bytes.getD (a % 64) 0xFF
  | none => 0xFF

/-- The byte at the pointer of window 3. -/
def State.meterByte (s : State) : Byte :=
  ([s.i2ct.meterSt.setWidth 8, 0, 0, 0] ++ padTo 208 s.i2ct.meter).getD s.i2ct.ptr.toNat 0xFF

/-- The byte at the pointer of the selected window (R409). -/
def State.windowByte (s : State) (first : Bool) : State × Byte :=
  match s.i2ct.window with
  | 0 => (s, s.statusBlock.getD s.i2ct.ptr.toNat 0xFF)
  | 1 => s.registerByte first
  | 2 => if s.dev.level = .none || s.dev.romRecovery then s.freeByte else (s, s.eventByte)
  | 3 => if s.dev.level = .full then (s, s.meterByte) else s.freeByte

/-- n bytes from the pointer onward; the pointer advances by one for each. -/
def State.windowBytes : Nat → State → Bool → State × List Byte
  | 0, s, _ => (s, [])
  | n + 1, s, first =>
    let b := s.windowByte first
    let r := windowBytes n (b.1.updI2ct (fun x => { x with ptr := x.ptr + 1 })) false
    (r.1, b.2 :: r.2)

/-- The PEC byte that ends the read of a READ_N: over both address bytes, the command, its count and the data (R412). -/
def State.readPec (s : State) (k : Nat) (data : List Byte) : Byte :=
  let a := 2 * s.dev.strap.i2cAddr.toNat
  Config.smbusPec ([BitVec.ofNat 8 a, 0x04, BitVec.ofNat 8 k, BitVec.ofNat 8 (a + 1)] ++ data)

/-- I2C_READ (R409, R412): after READ_N its n bytes and PEC; else n bytes, which are 0xFF with the pointer unmoved while PEC is on. -/
def execI2cRead (n : Nat) (s : State) : Host.Outcome State Fault Refusal :=
  .next (if !s.i2cOn then s
    else match s.i2ct.readN with
      | some k =>
        let r := State.windowBytes k s true
        (r.1.updI2ct (fun x => { x with readN := none })).emit (.i2c (r.2 ++ [r.1.readPec k r.2]))
      | none =>
        let s1 := s.updI2ct (fun x => { x with txns := satInc x.txns })
        if s1.pecOn then s1.emit (.i2c (List.replicate n 0xFF))
        else
          let r := State.windowBytes n s1 true
          r.1.emit (.i2c r.2))

/-- ALERT_RESPONSE (R413): the target's address in [7:1], bit 0 being open (log entry 130); the alert is cleared. -/
def execAlertResponse (s : State) : Host.Outcome State Fault Refusal :=
  .next (if s.i2cOn && s.alertEn && s.i2ct.alert then
    let bit := s.freeVal.toNat % 2
    ((s.updI2ct (fun x => { x with alert := false })).drawn).emit
      (.i2c [BitVec.ofNat 8 (2 * s.dev.strap.i2cAddr.toNat + bit)])
  else s)

/-- SCL_TIMEOUT (R407): the port state resets, and the timeout is counted. -/
def execSclTimeout (s : State) : Host.Outcome State Fault Refusal :=
  .next (if s.i2cOn then
    (s.updI2ct (fun x => { x with timeouts := satInc x.timeouts, readN := none, latchAt := none })).raise pI2CT 3
  else s)

end Sys2Proof.Machine
end

