-- ==== Sys2Proof/Machine/MemErr.lean ====
section
/-!
DEFINITION. Words in error of DRAM and of the on-chip memories, and the patrol scrubber (10 R311, R312, R322, R323).
-/
namespace Sys2Proof.Machine

/-! ## Words in error -/

/-- A corrected word (R311, R344). -/
def State.eccCorrected (s : State) : State :=
  let s1 := ({ s with dram := { s.dram with ce := satInc s.dram.ce, roundCe := s.dram.roundCe + 1 } } : State).raise pDRAM 0
  if s1.dram.roundCe = 17 then s1.raise pDRAM 3 else s1

/-- DETAIL of DRAM ECC_UNCORRECTABLE from offset 0x04 (11 R363). -/
def dramDetail (addr : DWord) (owner : Nat) : List Byte := leBytes 8 addr.toNat ++ [BitVec.ofNat 8 owner]

/-- What lies at an address: a buffer's data or trailer, the controller's own data (map, fragment table, image, Adeit data), or nothing. -/
inductive Region where
  | buffer (h : Nat) | own | unused
deriving DecidableEq, Repr

/-- The table "DRAM regions" (R313). -/
def State.dramRegion (s : State) (addr : Nat) : Region :=
  let data := (s.mapMiB + 128) * 1048576
  let n := s.bpm.dram.size
  if addr < data then .own
  else if addr < data + 4096 * n then .buffer (0x80000 + (addr - data) / 4096)
  else if addr < data + 4160 * n then .buffer (0x80000 + (addr - data - 4096 * n) / 64)
  else .unused

/-- The table "Data SRAM map" (R325). -/
def sramRegion (addr : Nat) : Region :=
  if addr < 0x780000 then .buffer (addr / 4096)
  else if addr < 0x79E000 then .buffer ((addr - 0x780000) / 64)
  else if addr < 0x800000 then .own
  else .unused

/-- Where a word of a memory lies; the handoff and the core-local RAM hold the directory, Adeit and core data. -/
def State.region (s : State) (m : MemKind) (addr : Nat) : Region :=
  match m with
  | .dram => s.dramRegion addr
  | .dataSram => sramRegion addr
  | .handoff => if addr < 65536 then .own else .unused
  | .coreLocal => if addr < 1048576 then .own else .unused

/-- Memory, bank, row and address of a word of the on-chip memories, DETAIL of SRAM events from offset 0x04 (11 R363; log entry 169). -/
def sramDetail (m : MemKind) (addr : Nat) : List Byte :=
  let r : Nat × Nat × Nat := match m with
    | .handoff => (1, addr / 16 % 2, addr / 2048)
    | .coreLocal => (2, addr / 16 % 4, addr / 4096)
    | _ => (0, addr / 16 % 16, addr / 16384)
  [BitVec.ofNat 8 r.1, BitVec.ofNat 8 r.2.1] ++ leBytes 2 r.2.2 ++ leBytes 4 addr

/-- An uncorrectable word counts, and its bit sets; a critical record with it where R311 asks for one (R323, R344, R346). -/
def State.eccEvent (s : State) (m : MemKind) (addr : DWord) (owner : Nat) (tenant : Byte) (rec : Bool) : State :=
  if m = .dram then
    let s1 : State := { s with dram := { s.dram with ue := satInc s.dram.ue, ueAddr := addr } }
    if rec then s1.raiseRec pDRAM 1 3 tenant (dramDetail addr owner) else s1.raise pDRAM 1
  else
    let s1 : State := { s with sram := { s.sram with ue := satInc s.sram.ue } }
    if rec then s1.raiseRec pSRAM 3 3 tenant (sramDetail m addr.toNat) else s1.raise pSRAM 3

/-- A block of read data is read from media once more (R311). -/
def State.readAgain (s : State) (d : BoardDesc) (tag : Tag) (c : Cmd) (k : Nat) : State :=
  let block := c.desc.lba.toNat + k
  if c.zoneNo = 0xFFFFF then
    match s.nvm.conv.find (convKey c.tenant block) with
    | some b => if b.onMedia then s.queueReads d tag [(block, hitConv c.tenant block b.seq)] else s
    | none => s
  else match s.zone c.zoneNo with
    | some z => s.queueReads d tag [(block, hitZone c.zoneNo z.gen block)]
    | none => s

/-- An acknowledged block with an uncorrectable error is programmed as it reads: a conventional one is poisoned, one of an append fails its tag from
then on (R311). -/
def State.spoil (s : State) (h : Nat) (b : Buf) : State :=
  match b.piece with
  | .conv t lba q =>
    let s1 := s.updBuf h (fun x => { x with poison := true })
    { s1 with nvm := { s1.nvm with conv := s1.nvm.conv.upd (convKey t lba) (fun c => if c.seq = q then { c with poison := true } else c) } }
  | .zone z _ f _ _ =>
    s.drawn.updZone z (fun x => { x with log := x.log.map (fun e =>
      if e.offset ≤ f && decide (f < e.offset + blocksOf e.len) then
        { e with damaged := true,
                 cipher := e.cipher.take (4096 * (f - e.offset)) ++
                   (padTo 4096 (Config.errorBlock s.freeCtr)).take (e.cipher.length - 4096 * (f - e.offset)) ++ e.cipher.drop (4096 * (f - e.offset + 1)) }
      else e) })
  | _ => s

/-- An uncorrectable word by where it lies (R311): the controller's own data ends in a critical record and a software reset with its flush; a dirty
buffer's block is spoiled, with a critical record for an append; read data is read from media once more; else the command loses the block. -/
def State.eccUncorrectable (s : State) (m : MemKind) (addr : DWord) : State :=
  match s.region m addr.toNat with
  | .unused => s
  | .own => (s.eccEvent m addr 0xFF noTenant true).squallTrigger sqSOFTWARE
  | .buffer h =>
    match s.bpm.bufs.find h with
    | none => s.eccEvent m addr 0 noTenant false
    | some b =>
      if b.dirty then
        (s.spoil h b).eccEvent m addr (ownerCode b.owner) (tidByte b.tenant) (match b.piece with | .zone _ _ _ _ _ => true | _ => false)
      else
        let s1 := s.eccEvent m addr (ownerCode b.owner) (tidByte b.tenant) false
        match s1.hqm.cmds.find b.tag with
        | none => s1
        | some c =>
          let k := (c.bufs.findIdx? (fun x => x = h)).getD 0
          let again := b.owner = .egress && !b.eccSeen
          match s.boot.desc, again with
          | some d, true => (s1.updBuf h (fun x => { x with eccSeen := true })).readAgain d (Fin.ofNat 4096 b.tag) c k
          | _, _ => { s1 with hqm := { s1.hqm with cmds := s1.hqm.cmds.upd b.tag (fun c =>
              { c with dramFail := some (match c.dramFail with | some j => min j k | none => k) }) } }

/-- A word found in error: corrected and counted, or uncorrectable (R311, R323). -/
def State.wordError (s : State) (e : WordError) : State :=
  if e.uncorrectable then s.eccUncorrectable e.mem e.addr
  else if s.region e.mem e.addr.toNat = .unused then s
  else if e.mem = .dram then s.eccCorrected
  else { s with sram := { s.sram with ce := satInc s.sram.ce } }

/-- PATROL_SCRUB (R322): one pass over every usable word, once in each 24 hours of operation, with the words found in error; those of the on-chip
memories were found by accesses since the pass before (log entry 39). -/
def execPatrolScrub (errors : List WordError) (s : State) : Host.Outcome State Fault Refusal :=
  let day := s.opSecs / 86400
  if s.active && s.dram.trained && !s.pwr.lull && s.dram.patrolDay ≠ some day then
    let s1 := errors.foldl State.wordError s
    .next { s1 with dram := { s1.dram with passes := s1.dram.passes + 1, patrolDay := some day } }
  else .next s

end Sys2Proof.Machine
end

