-- ==== Sys2Proof/Machine/Dispatch.lean ====
section
/-!
DEFINITION. One arm for each command: a direct call of its meaning.
-/
namespace Sys2Proof.Machine

/-- The effect of a command on the block. -/
def exec (i : Instr) (s : State) : Host.Outcome State Fault Refusal :=
  match i with
  | .submissionTailDoorbell v q be val => Sys2Proof.Machine.execSubmissionTailDoorbell v q be val s
  | .completionHeadDoorbell v q be val => Sys2Proof.Machine.execCompletionHeadDoorbell v q be val s
  | .descriptorFetch ds => Sys2Proof.Machine.execDescriptorFetch ds s
  | .completionEntryWrite tag => Sys2Proof.Machine.execCompletionEntryWrite tag s
  | .read tag => Sys2Proof.Machine.execRead tag s
  | .write tag => Sys2Proof.Machine.execWrite tag s
  | .append tag => Sys2Proof.Machine.execAppend tag s
  | .appendAcknowledgement tag => Sys2Proof.Machine.execAppendAcknowledgement tag s
  | .flush tag => Sys2Proof.Machine.execFlush tag s
  | .trim tag => Sys2Proof.Machine.execTrim tag s
  | .zoneOpen tag => Sys2Proof.Machine.execZoneOpen tag s
  | .zoneFinish tag => Sys2Proof.Machine.execZoneFinish tag s
  | .zoneHold tag => Sys2Proof.Machine.execZoneHold tag s
  | .zoneRelease tag => Sys2Proof.Machine.execZoneRelease tag s
  | .zoneSeal tag => Sys2Proof.Machine.execZoneSeal tag s
  | .zoneReport tag => Sys2Proof.Machine.execZoneReport tag s
  | .verify tag => Sys2Proof.Machine.execVerify tag s
  | .remoteCopy tag => Sys2Proof.Machine.execRemoteCopy tag s
  | .identify tag => Sys2Proof.Machine.execIdentify tag s
  | .queueCreate tag => Sys2Proof.Machine.execQueueCreate tag s
  | .queueDelete tag => Sys2Proof.Machine.execQueueDelete tag s
  | .keyLoad tag => Sys2Proof.Machine.execKeyLoad tag s
  | .keyPageChange t => Sys2Proof.Machine.execKeyPageChange t s
  | .keyClear tag => Sys2Proof.Machine.execKeyClear tag s
  | .featureHoldMinutesGet tag => Sys2Proof.Machine.execFeatureHoldMinutesGet tag s
  | .featureHoldMinutesSet tag => Sys2Proof.Machine.execFeatureHoldMinutesSet tag s
  | .featureDisplayItemGet tag => Sys2Proof.Machine.execFeatureDisplayItemGet tag s
  | .featureDisplayItemSet tag => Sys2Proof.Machine.execFeatureDisplayItemSet tag s
  | .featureBudgetGet tag => Sys2Proof.Machine.execFeatureBudgetGet tag s
  | .logReadEventRecords tag => Sys2Proof.Machine.execLogReadEventRecords tag s
  | .logReadZoneResetLog tag => Sys2Proof.Machine.execLogReadZoneResetLog tag s
  | .meterReadTenant tag => Sys2Proof.Machine.execMeterReadTenant tag s
  | .meterReadAll tag => Sys2Proof.Machine.execMeterReadAll tag s
  | .meterReadLoadProfile tag => Sys2Proof.Machine.execMeterReadLoadProfile tag s
  | .getNonce tag => Sys2Proof.Machine.execGetNonce tag s
  | .setHost tag => Sys2Proof.Machine.execSetHost tag s
  | .setSigned tag => Sys2Proof.Machine.execSetSigned tag s
  | .nonceLapse => Sys2Proof.Machine.execNonceLapse s
  | .signedLapse => Sys2Proof.Machine.execSignedLapse s
  | .imageStage tag => Sys2Proof.Machine.execImageStage tag s
  | .imageCommit tag => Sys2Proof.Machine.execImageCommit tag s
  | .getChallenge tag => Sys2Proof.Machine.execGetChallenge tag s
  | .enrol tag => Sys2Proof.Machine.execEnrol tag s
  | .lockUpdates tag => Sys2Proof.Machine.execLockUpdates tag s
  | .unlockUpdates tag => Sys2Proof.Machine.execUnlockUpdates tag s
  | .transfer tag => Sys2Proof.Machine.execTransfer tag s
  | .challengeLapse => Sys2Proof.Machine.execChallengeLapse s
  | .sealExportSealRecord tag => Sys2Proof.Machine.execSealExportSealRecord tag s
  | .sealExportZoneEntries tag => Sys2Proof.Machine.execSealExportZoneEntries tag s
  | .sealExportChain tag => Sys2Proof.Machine.execSealExportChain tag s
  | .zoneEraseSigned tag => Sys2Proof.Machine.execZoneEraseSigned tag s
  | .tenantReset t w => Sys2Proof.Machine.execTenantReset t w s
  | .tenantResetPipesDrained t => Sys2Proof.Machine.execTenantResetPipesDrained t s
  | .aqEnable t w => Sys2Proof.Machine.execAqEnable t w s
  | .devFeatAccept upper w => Sys2Proof.Machine.execDevFeatAccept upper w s
  | .devCtrlFeatLock w => Sys2Proof.Machine.execDevCtrlFeatLock w s
  | .tntFeatAccept t w => Sys2Proof.Machine.execTntFeatAccept t w s
  | .tntCtrlFeatLock t w => Sys2Proof.Machine.execTntCtrlFeatLock t w s
  | .tntHoldMinutes t w => Sys2Proof.Machine.execTntHoldMinutes t w s
  | .intStatusW1c page w => Sys2Proof.Machine.execIntStatusW1c page w s
  | .intEnableWrite page w => Sys2Proof.Machine.execIntEnableWrite page w s
  | .intForce page w => Sys2Proof.Machine.execIntForce page w s
  | .lock page w => Sys2Proof.Machine.execLock page w s
  | .irqRoute n w => Sys2Proof.Machine.execIrqRoute n w s
  | .interruptMessage fn vec => Sys2Proof.Machine.execInterruptMessage fn vec s
  | .softwareReset w => Sys2Proof.Machine.execSoftwareReset w s
  | .causeAck w => Sys2Proof.Machine.execCauseAck w s
  | .probeNow w => Sys2Proof.Machine.execProbeNow w s
  | .updRcvStart w => Sys2Proof.Machine.execUpdRcvStart w s
  | .updRcvChunk w data failed => Sys2Proof.Machine.execUpdRcvChunk w data failed s
  | .updRcvFinish w otpGood => Sys2Proof.Machine.execUpdRcvFinish w otpGood s
  | .updRcvAbort w => Sys2Proof.Machine.execUpdRcvAbort w s
  | .recoveryFrameStart hdr payload crc => Sys2Proof.Machine.execRecoveryFrameStart hdr payload crc s
  | .recoveryFrameData hdr payload crc => Sys2Proof.Machine.execRecoveryFrameData hdr payload crc s
  | .recoveryFrameFinish hdr payload crc otpGood => Sys2Proof.Machine.execRecoveryFrameFinish hdr payload crc otpGood s
  | .recoveryFrameStatus hdr payload crc => Sys2Proof.Machine.execRecoveryFrameStatus hdr payload crc s
  | .sramMarchStart w => Sys2Proof.Machine.execSramMarchStart w s
  | .marchDone fails => Sys2Proof.Machine.execMarchDone fails s
  | .qspiGo w => Sys2Proof.Machine.execQspiGo w s
  | .qspiFrameStart => Sys2Proof.Machine.execQspiFrameStart s
  | .frameDone rd => Sys2Proof.Machine.execFrameDone rd s
  | .spitTxData w => Sys2Proof.Machine.execSpitTxData w s
  | .spitRxPop w => Sys2Proof.Machine.execSpitRxPop w s
  | .spitCtrl w => Sys2Proof.Machine.execSpitCtrl w s
  | .spitWordReceived word => Sys2Proof.Machine.execSpitWordReceived word s
  | .spitWordTake first => Sys2Proof.Machine.execSpitWordTake first s
  | .spitCsRise withinWord => Sys2Proof.Machine.execSpitCsRise withinWord s
  | .installFleet w => Sys2Proof.Machine.execInstallFleet w s
  | .installCert w => Sys2Proof.Machine.execInstallCert w s
  | .vfrRreqGo w => Sys2Proof.Machine.execVfrRreqGo w s
  | .pwrBudgetAudit0 r => Sys2Proof.Machine.execPwrBudgetAudit0 r s
  | .hqmTagAudit0 r => Sys2Proof.Machine.execHqmTagAudit0 r s
  | .medSlotAudit0 r => Sys2Proof.Machine.execMedSlotAudit0 r s
  | .bpmAudit0 r => Sys2Proof.Machine.execBpmAudit0 r s
  | .vflCreditAudit n r => Sys2Proof.Machine.execVflCreditAudit n r s
  | .mtrAudit0 r => Sys2Proof.Machine.execMtrAudit0 r s
  | .mtrUtcLo r => Sys2Proof.Machine.execMtrUtcLo r s
  | .mtrAccLo r => Sys2Proof.Machine.execMtrAccLo r s
  | .sealIndexLo r => Sys2Proof.Machine.execSealIndexLo r s
  | .evrNextSeqLo r => Sys2Proof.Machine.execEvrNextSeqLo r s
  | .mirPlogData0 r => Sys2Proof.Machine.execMirPlogData0 r s
  | .registerWrite page off w => Sys2Proof.Machine.execRegisterWrite page off w s
  | .reservedAccess space off be read => Sys2Proof.Machine.execReservedAccess space off be read s
  | .perstAssert => Sys2Proof.Machine.execPerstAssert s
  | .perstRelease => Sys2Proof.Machine.execPerstRelease s
  | .hotReset => Sys2Proof.Machine.execHotReset s
  | .linkDown => Sys2Proof.Machine.execLinkDown s
  | .linkUp speed width => Sys2Proof.Machine.execLinkUp speed width s
  | .flr fn => Sys2Proof.Machine.execFlr fn s
  | .vfEnableSet numVfs ari => Sys2Proof.Machine.execVfEnableSet numVfs ari s
  | .vfEnableClear => Sys2Proof.Machine.execVfEnableClear s
  | .busMasterEnableClear fn => Sys2Proof.Machine.execBusMasterEnableClear fn s
  | .busMasterEnableSet fn => Sys2Proof.Machine.execBusMasterEnableSet fn s
  | .interruptModeChange fn cfg => Sys2Proof.Machine.execInterruptModeChange fn cfg s
  | .vectorUnmask fn msix vec => Sys2Proof.Machine.execVectorUnmask fn msix vec s
  | .interruptDisable on => Sys2Proof.Machine.execInterruptDisable on s
  | .d3hotEntry fn => Sys2Proof.Machine.execD3hotEntry fn s
  | .configurationRequest fn req => Sys2Proof.Machine.execConfigurationRequest fn req s
  | .poisonedMemoryWrite space => Sys2Proof.Machine.execPoisonedMemoryWrite space s
  | .unsupportedRequest fn kind => Sys2Proof.Machine.execUnsupportedRequest fn kind s
  | .hostReadCompletion tag buf off bytes ep => Sys2Proof.Machine.execHostReadCompletion tag buf off bytes ep s
  | .completionTimeout tag why => Sys2Proof.Machine.execCompletionTimeout tag why s
  | .staleCompletion rtag n ep => Sys2Proof.Machine.execStaleCompletion rtag n ep s
  | .aspmL1Entry clkreqHigh => Sys2Proof.Machine.execAspmL1Entry clkreqHigh s
  | .powerOnReset => Sys2Proof.Machine.execPowerOnReset s
  | .resetInLAssert lowNs => Sys2Proof.Machine.execResetInLAssert lowNs s
  | .resetRelease => Sys2Proof.Machine.execResetRelease s
  | .strapSampling s1 s2 s3 => Sys2Proof.Machine.execStrapSampling s1 s2 s3 s
  | .crystalMonitorWindow count noEdge pllLost => Sys2Proof.Machine.execCrystalMonitorWindow count noEdge pllLost s
  | .crystalMonitorTrip => Sys2Proof.Machine.execCrystalMonitorTrip s
  | .pfailLFall => Sys2Proof.Machine.execPfailLFall s
  | .vsupConversion mV => Sys2Proof.Machine.execVsupConversion mV s
  | .watchdogExpiry => Sys2Proof.Machine.execWatchdogExpiry s
  | .squallStepEnd hung => Sys2Proof.Machine.execSquallStepEnd hung s
  | .squallRestart pfailHigh => Sys2Proof.Machine.execSquallRestart pfailHigh s
  | .thermalRestart => Sys2Proof.Machine.execThermalRestart s
  | .lullEntry => Sys2Proof.Machine.execLullEntry s
  | .lullExit ev => Sys2Proof.Machine.execLullExit ev s
  | .domainGate d => Sys2Proof.Machine.execDomainGate d s
  | .domainPowerDown d => Sys2Proof.Machine.execDomainPowerDown d s
  | .domainWake d => Sys2Proof.Machine.execDomainWake d s
  | .fabWakeProbe locks => Sys2Proof.Machine.execFabWakeProbe locks s
  | .holdupProbe answer => Sys2Proof.Machine.execHoldupProbe answer s
  | .loadPulse v0mV answer => Sys2Proof.Machine.execLoadPulse v0mV answer s
  | .probeComplete vAuV slopeMVs answer => Sys2Proof.Machine.execProbeComplete vAuV slopeMVs answer s
  | .nandIdCheck rs => Sys2Proof.Machine.execNandIdCheck rs s
  | .dramTrainingDone lanes mr gib timeUs => Sys2Proof.Machine.execDramTrainingDone lanes mr gib timeUs s
  | .extendedPartLoaded => Sys2Proof.Machine.execExtendedPartLoaded s
  | .gust kat => Sys2Proof.Machine.execGust kat s
  | .powerFailReplay => Sys2Proof.Machine.execPowerFailReplay s
  | .gustMerge zone => Sys2Proof.Machine.execGustMerge zone s
  | .full => Sys2Proof.Machine.execFull s
  | .recovery cause detail => Sys2Proof.Machine.execRecovery cause detail s
  | .flashIssue die => Sys2Proof.Machine.execFlashIssue die s
  | .eraseResume die => Sys2Proof.Machine.execEraseResume die s
  | .flashProgramDone op pass => Sys2Proof.Machine.execFlashProgramDone op pass s
  | .flashEraseDone op pass => Sys2Proof.Machine.execFlashEraseDone op pass s
  | .flashReadDone op r => Sys2Proof.Machine.execFlashReadDone op r s
  | .softDecode r => Sys2Proof.Machine.execSoftDecode r s
  | .stripeParityRebuild op ok => Sys2Proof.Machine.execStripeParityRebuild op ok s
  | .sealChainStep tag => Sys2Proof.Machine.execSealChainStep tag s
  | .bufferPlacement tag => Sys2Proof.Machine.execBufferPlacement tag s
  | .mapJournalWrite => Sys2Proof.Machine.execMapJournalWrite s
  | .eddyFold => Sys2Proof.Machine.execEddyFold s
  | .foldMapUpdate => Sys2Proof.Machine.execFoldMapUpdate s
  | .refresh sb => Sys2Proof.Machine.execRefresh sb s
  | .scrub sb => Sys2Proof.Machine.execScrub sb s
  | .garbageCollection group => Sys2Proof.Machine.execGarbageCollection group s
  | .mapLineRequest line ws => Sys2Proof.Machine.execMapLineRequest line ws s
  | .mapLineRecall line => Sys2Proof.Machine.execMapLineRecall line s
  | .writebackDone line => Sys2Proof.Machine.execWritebackDone line s
  | .bufferAllocate o tag markerOk => Sys2Proof.Machine.execBufferAllocate o tag markerOk s
  | .listRebuildEnd p => Sys2Proof.Machine.execListRebuildEnd p s
  | .bufferHandoff h fromO toO takes => Sys2Proof.Machine.execBufferHandoff h fromO toO takes s
  | .bufferFree h o => Sys2Proof.Machine.execBufferFree h o s
  | .parityMismatch p stage => Sys2Proof.Machine.execParityMismatch p stage s
  | .maskStarved p => Sys2Proof.Machine.execMaskStarved p s
  | .laneReseed lane => Sys2Proof.Machine.execLaneReseed lane s
  | .drbgReseed => Sys2Proof.Machine.execDrbgReseed s
  | .healthTestFailure test => Sys2Proof.Machine.execHealthTestFailure test s
  | .refreshDue => Sys2Proof.Machine.execRefreshDue s
  | .refreshPayback => Sys2Proof.Machine.execRefreshPayback s
  | .patrolScrub errors => Sys2Proof.Machine.execPatrolScrub errors s
  | .evrProgrammingPass => Sys2Proof.Machine.execEvrProgrammingPass s
  | .evrPassEnd => Sys2Proof.Machine.execEvrPassEnd s
  | .meterMinuteSample => Sys2Proof.Machine.execMeterMinuteSample s
  | .quarterHourBoundary => Sys2Proof.Machine.execQuarterHourBoundary s
  | .displayDwellSecond => Sys2Proof.Machine.execDisplayDwellSecond s
  | .hostItemExpired => Sys2Proof.Machine.execHostItemExpired s
  | .eventInPulse => Sys2Proof.Machine.execEventInPulse s
  | .motionChange level => Sys2Proof.Machine.execMotionChange level s
  | .gpioInputEdge n level => Sys2Proof.Machine.execGpioInputEdge n level s
  | .pointer window addr pecOk => Sys2Proof.Machine.execPointer window addr pecOk s
  | .write32 off val pecOk => Sys2Proof.Machine.execWrite32 off val pecOk s
  | .meterReq tenant nonce pecOk => Sys2Proof.Machine.execMeterReq tenant nonce pecOk s
  | .readN n pecOk => Sys2Proof.Machine.execReadN n pecOk s
  | .i2cRead n => Sys2Proof.Machine.execI2cRead n s
  | .alertResponse => Sys2Proof.Machine.execAlertResponse s
  | .sclTimeout => Sys2Proof.Machine.execSclTimeout s
  | .scriptEntry index answer => Sys2Proof.Machine.execScriptEntry index answer s
  | .statusPoll answer => Sys2Proof.Machine.execStatusPoll answer s
  | .entryRetry answer => Sys2Proof.Machine.execEntryRetry answer s
  | .stuckBusRecovery freedAfter => Sys2Proof.Machine.execStuckBusRecovery freedAfter s
  | .stuckRetry freedAfter => Sys2Proof.Machine.execStuckRetry freedAfter s
  | .blockLock port => Sys2Proof.Machine.execBlockLock port s
  | .hello port cert eph => Sys2Proof.Machine.execHello port cert eph s
  | .confirm port sig => Sys2Proof.Machine.execConfirm port sig s
  | .bringupTimeout port => Sys2Proof.Machine.execBringupTimeout port s
  | .linkRetry port => Sys2Proof.Machine.execLinkRetry port s
  | .rekey port => Sys2Proof.Machine.execRekey port s
  | .packetReceive port h payload => Sys2Proof.Machine.execPacketReceive port h payload s
  | .creditBlock port vc0 vc1 vc2 => Sys2Proof.Machine.execCreditBlock port vc0 vc1 vc2 s
  | .nadv port payload => Sys2Proof.Machine.execNadv port payload s
  | .advertisementOriginate => Sys2Proof.Machine.execAdvertisementOriginate s
  | .advertisementExpiry => Sys2Proof.Machine.execAdvertisementExpiry s
  | .routeComputation => Sys2Proof.Machine.execRouteComputation s
  | .transactionTimeout port txn => Sys2Proof.Machine.execTransactionTimeout port txn s
  | .stuckPacketDrop port => Sys2Proof.Machine.execStuckPacketDrop port s
  | .copyOpen src tenant cert record => Sys2Proof.Machine.execCopyOpen src tenant cert record s
  | .copyRsp tag a => Sys2Proof.Machine.execCopyRsp tag a s
  | .copyData src item => Sys2Proof.Machine.execCopyData src item s
  | .copyClose src => Sys2Proof.Machine.execCopyClose src s
  | .rreadReq src kind seq n => Sys2Proof.Machine.execRreadReq src kind seq n s
  | .rreadRsp refusedByNode bytes => Sys2Proof.Machine.execRreadRsp refusedByNode bytes s
  | .mirBeat marks => Sys2Proof.Machine.execMirBeat marks s
  | .mirBeatSend => Sys2Proof.Machine.execMirBeatSend s
  | .partnerSilence => Sys2Proof.Machine.execPartnerSilence s
  | .mirAppend a => Sys2Proof.Machine.execMirAppend a s
  | .mirAccept t index refusedSpace => Sys2Proof.Machine.execMirAccept t index refusedSpace s
  | .mirState item => Sys2Proof.Machine.execMirState item s
  | .mirRetract t index => Sys2Proof.Machine.execMirRetract t index s
  | .mirSyncReq cps => Sys2Proof.Machine.execMirSyncReq cps s
  | .mirSyncRsp vs => Sys2Proof.Machine.execMirSyncRsp vs s
  | .powerLoss => Sys2Proof.Machine.execPowerLoss s
  | .spaceRetry => Sys2Proof.Machine.execSpaceRetry s
  | .housekeepingSlot reading diodeOk => Sys2Proof.Machine.execHousekeepingSlot reading diodeOk s
  | .housekeepingRound mr4 => Sys2Proof.Machine.execHousekeepingRound mr4 s
  | .ageingHour => Sys2Proof.Machine.execAgeingHour s
  | .operatingHour => Sys2Proof.Machine.execOperatingHour s
  | .tapInstruction code => Sys2Proof.Machine.execTapInstruction code s
  | .unlock token => Sys2Proof.Machine.execUnlock token s
  | .dmi op => Sys2Proof.Machine.execDmi op s
  | .seqdbg engine op => Sys2Proof.Machine.execSeqdbg engine op s
  | .blockLockLoss port => Sys2Proof.Machine.execBlockLockLoss port s
  | .speedWidthChange speed width ltssm => Sys2Proof.Machine.execSpeedWidthChange speed width ltssm s

end Sys2Proof.Machine
end

