-- ==== Sys2Proof/Machine/Pads.lean ====
section
/-!
DEFINITION. The level the controller puts on each ball it drives: high impedance until the point of the table "Output enable points",
the first and running levels, and the parked levels (02 R29, R30, R34, R42, R43, R45, R46).
-/
namespace Sys2Proof.Machine

/-- What a ball carries from the controller: nothing, a held level, electrical idle, a released open drain, or the traffic of its
block. -/
inductive Drive where
  | z | low | high | idle | released | traffic
deriving DecidableEq, Repr

/-- The output and bidirectional balls of 02. `dram k` is one of the DRAM balls with no entry of its own, k its place below. -/
inductive Ball where
  | nfCe (n : Fin 8) (k : Fin 8)
  | nfWp (n : Fin 8)
  | nfCle (n : Fin 8)
  | nfAle (n : Fin 8)
  | nfWe (n : Fin 8)
  | nfRe (n : Fin 8)
  | nfDq (n : Fin 8)
  | dramReset
  | dramCke (k : Fin 2)
  | dramVref
  | dramDq (k : Fin 40)
  | dramDqs (k : Fin 5)
  | dramDm (k : Fin 5)
  | dramCk (k : Fin 2)
  | dramCa (k : Fin 22)
  | dramCs (k : Fin 2)
  | dramOdt
  | qspiCs (k : Fin 3)
  | qspiSck
  | qspiIo (k : Fin 4)
  | i2ctSda
  | i2ctAlert
  | spitSdo
  | spitAttn
  | i2ciScl
  | i2ciSda
  | gpio (n : Fin 4)
  | led
  | vflTx (n : Fin 4)
deriving DecidableEq, Repr

/-- Whether the selected DRAM type uses a DRAM ball (02, table "DRAM signals"): DDR4 leaves CK1 unused; LPDDR4X leaves DQ32 to DQ39,
DQS4, DM4, CA12 to CA21, ODT and VREFCA unused. -/
def dramUses (ddr4 : Bool) : Ball → Bool
  | .dramDq k => ddr4 || decide (k.1 < 32)
  | .dramDqs k | .dramDm k => ddr4 || decide (k.1 < 4)
  | .dramCk k => !ddr4 || k = 0
  | .dramCa k => ddr4 || decide (k.1 < 12)
  | .dramOdt | .dramVref => ddr4
  | _ => true

/-- NFn_WP_L is high only at GUST and FULL while Squall is not running (R43). -/
def State.wpHigh (s : State) : Bool := (s.dev.level = .gust || s.dev.level = .full) && !s.squall.running

/-- The gateable domain of a channel or of the fabric holds its pads parked (R42). -/
def State.padsParked (s : State) (d : Fin 5) : Bool := s.dev.pad.parked || s.pwr.doms[d].st = .off

/-- The channel group of an NFC channel. -/
def groupOf (n : Fin 8) : Fin 5 := ⟨n.1 / 2, by omega⟩

/-- A level a channel holds: high impedance while its outputs are off, `park` while parked, else `run`. -/
def State.nandPad (s : State) (n : Fin 8) (park run : Drive) : Drive :=
  if !s.dev.pad.nand.getLsbD n.1 then .z else if s.padsParked (groupOf n) then park else run

/-- A DRAM ball: high impedance before training starts, and for good where the type does not use it (R30, R46). -/
def State.dramPad (s : State) (b : Ball) (run : Drive) : Drive :=
  let ddr4 := match s.boot.desc with | some d => decide (d.dramType = 1) | none => false
  if s.dev.pad.dram && dramUses ddr4 b then run else .z

/-- A level as a drive. -/
def Drive.of (b : Bool) : Drive := if b then .high else .low

/-- CKE: low from the first level until the type is initialised, and in self-refresh, in Lull and parked (R42, R45; 03 "Lull"). -/
def State.ckeHigh (s : State) : Bool := s.dev.dramPins.cke && !s.pwr.lull && !s.dev.pad.parked

/-- IO lane k of the QSPI bus: a lane no phase of the frame sends on stays high impedance, in a single-lane frame IO1 to IO3 (13 R396). -/
def State.qspiSends (s : State) (k : Fin 4) : Bool :=
  match s.qspi.bus with
  | none => false
  | some .fw => true
  | some .disp => k = 0
  | some .host => (s.qspi.hf.phases ++ [s.qspi.hf.dataPhase []]).any (fun p => p.drives k.1)

/-- I2CT_ALERT_L is low while ALERT_EN is 1 and an alert is pending (13 R413). -/
def State.alertLow (s : State) : Bool := (s.reg pI2CT 0x100 0).getLsbD 0 && s.i2ct.alert

/-- The level an output GPIO holds: before GUST the descriptor's idle level, then its function; from the start of Squall it holds its level (R30;
13 R423, R424). -/
def State.gpioLevel (s : State) (d : BoardDesc) (n : Fin 4) : Bool :=
  if s.squall.running then s.pins.gpioOut.getLsbD n.1
  else if s.dev.level = .none then decide (d.gpio n.1 2 = 1) else s.gpioOutputs.getLsbD n.1

/-- A GPIO ball by its DIR: input, push-pull or open-drain output (13 R423). -/
def State.gpioPad (s : State) (n : Fin 4) : Drive :=
  match s.boot.desc with
  | none => .z
  | some d =>
    if !s.dev.pad.gpio || d.gpio n.1 0 = 0 then .z
    else if d.gpio n.1 0 = 2 && s.gpioLevel d n then .released else .of (s.gpioLevel d n)

/-- STATUS_LED_L lit: before GUST the idle level (13 R423), then by its mode; from the start of Squall it holds. -/
def State.ledLevel (s : State) : Bool :=
  if s.squall.running then s.pins.led
  else if s.dev.level = .none then (match s.boot.desc with | some d => decide (d.gpioField.getD 0x11 0 = 1) | none => false)
  else s.ledOn

/-- The drive of each ball now. A chip reset returns every output to high impedance (R29, R34): it clears the pad states. -/
def State.drive (s : State) (b : Ball) : Drive :=
  match b with
  | .nfCe n _ => s.nandPad n .high .traffic
  | .nfWp n => s.nandPad n .low (.of s.wpHigh)
  | .nfCle n | .nfAle n => s.nandPad n .low .traffic
  | .nfWe n | .nfRe n => s.nandPad n .high .traffic
  | .nfDq n => s.nandPad n .z .traffic
  | .dramReset => s.dramPad b (.of s.dev.dramPins.resetHigh)
  | .dramCke _ => s.dramPad b (.of s.ckeHigh)
  | .dramVref => if s.dev.dramPins.vref then s.dramPad b .traffic else .z
  | .dramDq _ | .dramDqs _ | .dramDm _ | .dramCk _ | .dramCa _ | .dramCs _ | .dramOdt => s.dramPad b .traffic
  | .qspiCs k =>
    if !s.dev.pad.qspi then .z
    else if s.dev.pad.parked || s.qspi.bus.isNone then .high
    else .of (decide ((match s.qspi.bus with | some .fw => 0 | some .disp => 1 | _ => bits s.qspi.hf.frame 1 0) ≠ k.1))
  | .qspiSck => if !s.dev.pad.qspi then .z else if s.qspi.bus.isNone then .low else .traffic
  | .qspiIo k => if s.dev.pad.qspi && s.qspiSends k then .traffic else .z
  | .i2ctSda => if s.dev.pad.i2ct then .released else .z
  | .i2ctAlert => if !s.dev.pad.i2ct then .z else if s.alertLow then .low else .released
  | .spitSdo => if s.dev.pad.spit && !s.squall.running then .traffic else .z
  | .spitAttn => if s.dev.pad.spit then .of !s.attn else .z
  | .i2ciScl | .i2ciSda => if s.dev.pad.i2ci then .released else .z
  | .gpio n => s.gpioPad n
  | .led => if !s.dev.pad.gpio then .z else .of s.ledLevel
  | .vflTx n => if !s.dev.pad.vfl.getLsbD n.1 then .z else if s.padsParked 4 || s.vfl[n].st = .absent then .idle else .traffic

end Sys2Proof.Machine
end

