-- ==== Sys2Proof/Safety.lean ====
section
/-!
DEFINITION. What a sound state is, in the terms the statements use: the balances of the table "Conserved quantities" (01
R22), the canonical form of the boot NOR, and what the permanent counters and logs may do from one state to a later one.
-/
namespace Sys2Proof.Machine

/-- Credits and outstanding slots of every virtual channel of every link balance at 32 (14 R446, 01 R22). -/
def State.creditsOk (s : State) : Prop :=
  ∀ (n : Fin 4) (v : Fin 3), (s.vfl[n]).credits[v] + (s.vfl[n]).outst[v] = 32

/-- The 512 accumulators and the pending amount sum to MTR_TOTAL (12 R383, 01 R22); the last checkpoint holds the same
accumulators with the total they sum to; and the pending amount is what the staging sums of an open round hold. -/
def State.meterOk (s : State) : Prop :=
  s.nvm.accs.toList.sum + s.mtr.pending = s.nvm.total ∧ s.nvm.ckptAccs = s.nvm.accs ∧
    s.nvm.accs.toList.sum = s.nvm.ckptTotal ∧
    s.mtr.pending = if s.mtr.pendingOn then s.mtr.staging.toList.sum else 0

/-- The boot NOR is in its canonical form. -/
def State.norOk (s : State) : Prop := s.nvm.nor.wf = true

/-- The counts that saturate stay in their registers: the rollback floor in its 64 steps (04 R90), EVR_DROPPED and
EVR_ACK_LOST in 32 bits (11 R365, R368). -/
def State.countsOk (s : State) : Prop :=
  s.nvm.floor ≤ 63 ∧ s.nvm.evDropped ≤ 0xFFFFFFFF ∧ s.nvm.ackLost ≤ 0xFFFFFFFF

/-! ## What a status bit and an event record leave alone

Setting a status bit may request a message, and writing an event record may raise the alert. A statement that a command changes
nothing else says so of the state with just those parts put aside. -/

/-- A header without its status bits. -/
def PageHdr.quiet (h : PageHdr) : PageHdr := { h with intStatus := 0#32 }

/-- A function without its pending messages. -/
def FnS.quiet (f : FnS) : FnS := { f with pending := [] }

/-- A tenant without its block notice (05 R140). -/
def Tenant.quiet (x : Tenant) : Tenant := { x with notice := none, noticeNo := 0#10 }

/-- The endpoint without its pending messages and the link's idle time. -/
def PcieS.quiet (p : PcieS) : PcieS :=
  { p with fns := p.fns.map FnS.quiet, inta := false, idleAt := 0, pmState := 0#3, ltssm := 0#5 }

/-- The state without its status bits, what they make the endpoint do, and what is sent. -/
def State.quiet (s : State) : State :=
  { s with outbox := [], hdr := s.hdr.map PageHdr.quiet, tnt := s.tnt.map Tenant.quiet, pcie := s.pcie.quiet }

/-- As `quiet`, and without the event buffer, its counts and the alert (11 R361 to R372). -/
def State.unlogged (s : State) : State :=
  let q := s.quiet
  { q with
    aon := { q.aon with evBuf := [], nextSeq := 0 },
    nvm := { q.nvm with seqReserved := 0, evDropped := 0 },
    evr := { q.evr with newestCrit := 0#16, critSeen := false },
    i2ct := { q.i2ct with alert := false } }

/-- A status bit of a page. -/
def State.bit (s : State) (p : Page) (b : Nat) : Bool := (s.hdr[p]).intStatus.getLsbD b

/-! ## Who may change what

Most commands belong to one part of the block. The two lists below name the commands that may change the units apart from the
storage and the fabric, and those that may change what tenants have stored; a statement of each says that no other command does. -/

/-- The units apart from storage, host and fabric: the registers that hold values (05), the clocks (02), the boot and update unit with the
NOR, OTP, owner record and installed keys (04, 07 R212 to R215, 14 R434), the interrupt routes (05), the owner's challenge, the DRAM
and SRAM units (10), Squall (11), the display, QSPI, SPI, PMIC and discrete-input units (12, 13), housekeeping and Vane (15), the
debug unit (15) and the captured SEAL_INDEX (08). -/
def State.units (s : State) : KMap Word × ClkS × UpdS × Vector TRoute 512 × OwnS × DramS × SramS × SquallS × DispS × QspiS ×
    SpitS × I2ciS × GpioS × HkpS × ThrS × DbgS × SealS × Memory × Option Hash × Nat × List Hash × Wide × Bool × Option Wide ×
    Option (List Byte) × List (Nat × Nat × Nat) :=
  (s.regs, s.clk, s.upd, s.troutes, s.own, s.dram, s.sram, s.squall, s.disp, s.qspi, s.spit, s.i2ci, s.gpio, s.hkp, s.thr, s.dbg,
    s.chainU, s.nvm.nor, s.nvm.boardHash, s.nvm.floor, s.nvm.ownerSlots, s.nvm.ownerKey, s.nvm.updLock, s.nvm.fleetKey, s.nvm.cert,
    s.nvm.repairs)

/-- What tenants have stored: zones with their tag logs, the conventional map, the chains, the seal records and their index, and the
persisted keys (07 R206 to R217; 08 R253 to R257; 09 R281 to R286). -/
def State.stored (s : State) : KMap Zone × KMap ConvBlk × Vector Chain 64 × KMap (List Byte) × Nat × KMap (List Byte) ×
    KMap (List Byte) :=
  (s.nvm.zones, s.nvm.conv, s.nvm.chains, s.nvm.sealRecs, s.nvm.sealIndex, s.nvm.keysX, s.nvm.keysG)

/-- A register write takes effect whole (05 R116 to R122): it reaches the register `r`, all its bytes are enabled, no reset of the page's
tenant runs, the register has a writable field, the reserved and read-only bits are written as they read, no written field is
locked, and the owning chapter has no reason to ignore it. -/
def State.takes (s : State) (p : Page) (off : Nat) (w : Wr) (r : Reg) : Prop :=
  (∃ a, s.reach w.src p off = .at_ a) ∧ (s.touchPage w.src p).regAt p off = some r ∧ w.be = 15#4 ∧
    (s.touchPage w.src p).resettingPage p = false ∧ r.writable ≠ 0#32 ∧ (w.val ^^^ r.val) &&& ~~~ r.writable = 0#32 ∧
    ((s.hdr[p]).locked = false ∨ r.rwl = 0#32) ∧
    (s.touchPage w.src p).refusal p (match w.src with | .vf _ => true | _ => false) off w.val = none

/-- A register read reaches the register `r`. -/
def State.reads (s : State) (p : Page) (off : Nat) (rd : Rd) (r : Reg) : Prop :=
  rd.be ≠ 0#4 ∧ (∃ a, s.readReach rd.src p off = .at_ a) ∧ (s.touchPage rd.src p).regAt p off = some r

/-- A command may act with nothing that failed or came poisoned: it is fetched, all its host data has arrived, the controller is in
operation, no key change of its tenant waits before it, and the service level gives it (07 R193, 06 R163, R164, 08 R243, 04 R108). -/
def State.ready (s : State) (tag : Tag) (opc : Nat) (c : Cmd) : Prop :=
  s.runs tag opc = some c ∧ c.hostFail = false ∧ c.epOther = false ∧ c.epData = [] ∧ s.keyHolds c = false ∧ s.levelEnds c = false

/-- The command of a tag is done with a status, a result code and a result, and its completion entry is not yet written. -/
def State.answered (s : State) (tag : Tag) (st rc : Byte) (r : DWord) : Prop :=
  ∃ c, s.cmd tag = some c ∧ c.phase = .done st rc r false

/-- The state of a controller whose media serve the host in operation (04 R115): out of reset, not in Squall, the straps and
boot done, at GUST or FULL. -/
def State.inService (s : State) : Prop := s.serving = true

end Sys2Proof.Machine

namespace Sys2Proof

/-- The commands that may change one of `Machine.State.units`: register accesses and captures, the start and every reset, the update, owner and
display commands, the service buses, housekeeping, Squall, debug, appends and mirrored appends, whose bursts hold back the DRAM's refresh,
the end of a QUEUE_DELETE, which clears its route, the hour that counts ageing, and whatever resets a tenant, which ends a live
challenge (07 R213). -/
def Instr.actsOnUnits : Instr → Bool
  | .append .. | .mirAppend .. | .completionEntryWrite .. | .queueCreate .. | .queueDelete .. | .featureDisplayItemSet .. | .imageStage ..
  | .imageCommit .. | .getChallenge .. | .enrol .. | .lockUpdates .. | .unlockUpdates .. | .transfer .. | .challengeLapse
  | .zoneEraseSigned .. | .tenantReset .. | .tenantResetPipesDrained .. | .aqEnable .. | .devFeatAccept ..
  | .devCtrlFeatLock .. | .tntFeatAccept .. | .tntCtrlFeatLock .. | .tntHoldMinutes .. | .intStatusW1c ..
  | .intEnableWrite .. | .intForce .. | .lock .. | .irqRoute .. | .softwareReset .. | .causeAck .. | .probeNow ..
  | .updRcvStart .. | .updRcvChunk .. | .updRcvFinish .. | .updRcvAbort .. | .recoveryFrameStart .. | .recoveryFrameData ..
  | .recoveryFrameFinish .. | .recoveryFrameStatus .. | .sramMarchStart .. | .marchDone .. | .qspiGo .. | .qspiFrameStart
  | .frameDone .. | .spitTxData .. | .spitRxPop .. | .spitCtrl .. | .spitWordReceived .. | .spitWordTake .. | .spitCsRise ..
  | .installFleet .. | .installCert .. | .vfrRreqGo .. | .pwrBudgetAudit0 .. | .hqmTagAudit0 .. | .medSlotAudit0 ..
  | .bpmAudit0 .. | .vflCreditAudit .. | .mtrAudit0 .. | .mtrUtcLo .. | .mtrAccLo .. | .sealIndexLo .. | .evrNextSeqLo ..
  | .mirPlogData0 .. | .registerWrite .. | .powerOnReset | .resetInLAssert .. | .resetRelease | .strapSampling ..
  | .crystalMonitorWindow .. | .crystalMonitorTrip | .pfailLFall | .vsupConversion .. | .watchdogExpiry | .squallStepEnd ..
  | .squallRestart .. | .thermalRestart | .holdupProbe .. | .loadPulse .. | .probeComplete .. | .nandIdCheck ..
  | .dramTrainingDone .. | .extendedPartLoaded | .gust .. | .powerFailReplay | .full | .recovery .. | .refreshDue
  | .refreshPayback | .patrolScrub .. | .displayDwellSecond | .hostItemExpired | .eventInPulse | .motionChange ..
  | .write32 .. | .i2cRead .. | .scriptEntry .. | .statusPoll .. | .entryRetry .. | .stuckBusRecovery .. | .stuckRetry ..
  | .ageingHour | .perstAssert | .hotReset | .linkDown | .flr .. | .vfEnableClear | .busMasterEnableClear .. | .d3hotEntry ..
  | .housekeepingSlot .. | .housekeepingRound .. | .tapInstruction .. | .unlock .. | .dmi .. | .seqdbg .. => true
  | _ => false

/-- The commands that may change `Machine.State.stored`: appends, placements and TRIM, the zone commands, key changes, copies between media that
lose what they cannot read, reads that no rung recovers and memory errors that reach stored data, writes that end without their data
and what a fenced pipe undoes, copies and appends from other nodes, events, the start, debug's unlocking, and whatever resets a tenant or
the chip, which discards appends not yet acknowledged (07 R216, R219). -/
def Instr.actsOnStored : Instr → Bool
  | .append .. | .appendAcknowledgement .. | .trim .. | .zoneOpen .. | .zoneFinish .. | .zoneHold .. | .zoneRelease ..
  | .zoneSeal .. | .keyPageChange .. | .zoneEraseSigned .. | .tenantReset .. | .aqEnable .. | .devFeatAccept ..
  | .devCtrlFeatLock .. | .tntFeatAccept .. | .tntCtrlFeatLock .. | .tntHoldMinutes .. | .intStatusW1c ..
  | .intEnableWrite .. | .intForce .. | .lock .. | .irqRoute .. | .softwareReset .. | .causeAck .. | .probeNow ..
  | .updRcvStart .. | .updRcvChunk .. | .updRcvFinish .. | .updRcvAbort .. | .recoveryFrameFinish .. | .sramMarchStart ..
  | .qspiGo .. | .spitTxData .. | .spitRxPop .. | .spitCtrl .. | .installFleet .. | .installCert .. | .vfrRreqGo ..
  | .registerWrite .. | .perstAssert | .hotReset | .linkDown | .flr .. | .vfEnableClear | .busMasterEnableClear ..
  | .d3hotEntry .. | .powerOnReset | .resetInLAssert .. | .strapSampling .. | .squallStepEnd .. | .squallRestart ..
  | .thermalRestart | .nandIdCheck .. | .dramTrainingDone .. | .extendedPartLoaded | .gust .. | .powerFailReplay | .gustMerge ..
  | .full | .recovery .. | .flashProgramDone .. | .sealChainStep .. | .bufferPlacement .. | .eddyFold .. | .refresh ..
  | .garbageCollection .. | .eventInPulse | .write32 .. | .routeComputation | .copyOpen .. | .copyClose .. | .mirAppend ..
  | .mirAccept .. | .mirState .. | .mirRetract .. | .mirSyncReq .. | .mirSyncRsp .. | .flashReadDone .. | .softDecode ..
  | .stripeParityRebuild .. | .completionEntryWrite .. | .patrolScrub .. | .parityMismatch .. | .maskStarved ..
  | .tenantResetPipesDrained .. | .unlock .. => true
  | _ => false

end Sys2Proof
end

