-- ==== Sys2Proof/WellFormed.lean ====
section
/-!
DEFINITION. The shape of a command's operands: the strings, lists and packets the manual gives a length have it. Every other
operand is of a type that holds no ill-formed value.
-/
namespace Sys2Proof

/-- COPY_DATA: a 128-byte tag-log entry with a header of at most 256 bytes, or a block of 4,096 (14 R454). -/
def CopyItem.wf : CopyItem → Bool
  | .entry b h => decide (b.length = 128) && decide (h.length ≤ 256)
  | .block _ b => decide (b.length = 4096)

/-- MIR_STATE: a seal record of 256 bytes, an event record of 64, 512 accumulators, at most 8 owner slots (14 R461, 07 R212). -/
def MirItem.wf : MirItem → Bool
  | .seal _ _ r => decide (r.length = 256)
  | .event r => decide (r.length = 64)
  | .meter a _ => decide (a.length = 512)
  | .owner l _ => decide (l.length ≤ 8)
  | .finish _ _ => true
  | .hold _ _ => true
  | .release _ _ => true
  | .recycle _ _ => true

/-- A replicated append: 1 to 1,048,576 bytes, the ciphertext of its blocks, a header of at most 256 bytes (14 R461; 07, table
"Opcodes"). -/
def MirAppend.wf (a : MirAppend) : Bool :=
  decide (0 < a.len) && decide (a.len ≤ 1048576) && decide (a.len ≤ a.cipher.length) && decide (a.header.length ≤ 256)

/-- Whether a command's operands have the shape the manual gives them. -/
def Instr.wf : Instr → Bool
  | .submissionTailDoorbell _ _ _ _ => true
  | .completionHeadDoorbell _ _ _ _ => true
  | .descriptorFetch _ => true
  | .completionEntryWrite _ => true
  | .read _ => true
  | .write _ => true
  | .append _ => true
  | .appendAcknowledgement _ => true
  | .flush _ => true
  | .trim _ => true
  | .zoneOpen _ => true
  | .zoneFinish _ => true
  | .zoneHold _ => true
  | .zoneRelease _ => true
  | .zoneSeal _ => true
  | .zoneReport _ => true
  | .verify _ => true
  | .remoteCopy _ => true
  | .identify _ => true
  | .queueCreate _ => true
  | .queueDelete _ => true
  | .keyLoad _ => true
  | .keyPageChange _ => true
  | .keyClear _ => true
  | .featureHoldMinutesGet _ => true
  | .featureHoldMinutesSet _ => true
  | .featureDisplayItemGet _ => true
  | .featureDisplayItemSet _ => true
  | .featureBudgetGet _ => true
  | .logReadEventRecords _ => true
  | .logReadZoneResetLog _ => true
  | .meterReadTenant _ => true
  | .meterReadAll _ => true
  | .meterReadLoadProfile _ => true
  | .getNonce _ => true
  | .setHost _ => true
  | .setSigned _ => true
  | .nonceLapse => true
  | .signedLapse => true
  | .imageStage _ => true
  | .imageCommit _ => true
  | .getChallenge _ => true
  | .enrol _ => true
  | .lockUpdates _ => true
  | .unlockUpdates _ => true
  | .transfer _ => true
  | .challengeLapse => true
  | .sealExportSealRecord _ => true
  | .sealExportZoneEntries _ => true
  | .sealExportChain _ => true
  | .zoneEraseSigned _ => true
  | .tenantReset _ _ => true
  | .tenantResetPipesDrained _ => true
  | .aqEnable _ _ => true
  | .devFeatAccept _ _ => true
  | .devCtrlFeatLock _ => true
  | .tntFeatAccept _ _ => true
  | .tntCtrlFeatLock _ _ => true
  | .tntHoldMinutes _ _ => true
  | .intStatusW1c _ _ => true
  | .intEnableWrite _ _ => true
  | .intForce _ _ => true
  | .lock _ _ => true
  | .irqRoute _ _ => true
  | .interruptMessage _ _ => true
  | .softwareReset _ => true
  | .causeAck _ => true
  | .probeNow _ => true
  | .updRcvStart _ => true
  | .updRcvChunk _ data _ => decide (data.length ≤ 65536)
  | .updRcvFinish _ _ => true
  | .updRcvAbort _ => true
  | .recoveryFrameStart _ payload _ => decide (payload.length ≤ 1025)
  | .recoveryFrameData _ payload _ => decide (payload.length ≤ 1025)
  | .recoveryFrameFinish _ payload _ _ => decide (payload.length ≤ 1025)
  | .recoveryFrameStatus _ payload _ => decide (payload.length ≤ 1025)
  | .sramMarchStart _ => true
  | .marchDone _ => true
  | .qspiGo _ => true
  | .qspiFrameStart => true
  | .frameDone _ => true
  | .spitTxData _ => true
  | .spitRxPop _ => true
  | .spitCtrl _ => true
  | .spitWordReceived _ => true
  | .spitWordTake _ => true
  | .spitCsRise _ => true
  | .installFleet _ => true
  | .installCert _ => true
  | .vfrRreqGo _ => true
  | .pwrBudgetAudit0 _ => true
  | .hqmTagAudit0 _ => true
  | .medSlotAudit0 _ => true
  | .bpmAudit0 _ => true
  | .vflCreditAudit _ _ => true
  | .mtrAudit0 _ => true
  | .mtrUtcLo _ => true
  | .mtrAccLo _ => true
  | .sealIndexLo _ => true
  | .evrNextSeqLo _ => true
  | .mirPlogData0 _ => true
  | .registerWrite _ _ _ => true
  | .reservedAccess _ _ _ _ => true
  | .perstAssert => true
  | .perstRelease => true
  | .hotReset => true
  | .linkDown => true
  | .linkUp _ _ => true
  | .flr _ => true
  | .vfEnableSet _ _ => true
  | .vfEnableClear => true
  | .busMasterEnableClear _ => true
  | .busMasterEnableSet _ => true
  | .interruptModeChange _ _ => true
  | .vectorUnmask _ _ _ => true
  | .interruptDisable _ => true
  | .d3hotEntry _ => true
  | .configurationRequest _ _ => true
  | .poisonedMemoryWrite _ => true
  | .unsupportedRequest _ _ => true
  | .hostReadCompletion _ _ _ bytes _ => decide (bytes.length ≤ 4096)
  | .completionTimeout _ _ => true
  | .staleCompletion _ _ _ => true
  | .aspmL1Entry _ => true
  | .powerOnReset => true
  | .resetInLAssert _ => true
  | .resetRelease => true
  | .strapSampling _ _ _ => true
  | .crystalMonitorWindow _ _ _ => true
  | .crystalMonitorTrip => true
  | .pfailLFall => true
  | .vsupConversion _ => true
  | .watchdogExpiry => true
  | .squallStepEnd _ => true
  | .squallRestart _ => true
  | .thermalRestart => true
  | .lullEntry => true
  | .lullExit _ => true
  | .domainGate _ => true
  | .domainPowerDown _ => true
  | .domainWake _ => true
  | .fabWakeProbe _ => true
  | .holdupProbe _ => true
  | .loadPulse _ _ => true
  | .probeComplete _ _ _ => true
  | .nandIdCheck rs => decide (rs.map (fun r => (r.ch, r.ce))).Nodup
  | .dramTrainingDone _ mr _ _ => decide (mr.length ≤ 16)
  | .extendedPartLoaded => true
  | .gust _ => true
  | .powerFailReplay => true
  | .gustMerge _ => true
  | .full => true
  | .recovery _ _ => true
  | .flashIssue _ => true
  | .eraseResume _ => true
  | .flashProgramDone _ _ => true
  | .flashEraseDone _ _ => true
  | .flashReadDone _ _ => true
  | .softDecode _ => true
  | .stripeParityRebuild _ _ => true
  | .sealChainStep _ => true
  | .bufferPlacement _ => true
  | .mapJournalWrite => true
  | .eddyFold => true
  | .foldMapUpdate => true
  | .refresh _ => true
  | .scrub _ => true
  | .garbageCollection _ => true
  | .mapLineRequest _ _ => true
  | .mapLineRecall _ => true
  | .writebackDone _ => true
  | .bufferAllocate _ _ _ => true
  | .listRebuildEnd _ => true
  | .bufferHandoff _ _ _ _ => true
  | .bufferFree _ _ => true
  | .parityMismatch _ _ => true
  | .maskStarved _ => true
  | .laneReseed _ => true
  | .drbgReseed => true
  | .healthTestFailure _ => true
  | .refreshDue => true
  | .refreshPayback => true
  | .patrolScrub _ => true
  | .evrProgrammingPass => true
  | .evrPassEnd => true
  | .meterMinuteSample => true
  | .quarterHourBoundary => true
  | .displayDwellSecond => true
  | .hostItemExpired => true
  | .eventInPulse => true
  | .motionChange _ => true
  | .gpioInputEdge _ _ => true
  | .pointer _ _ _ => true
  | .write32 _ _ _ => true
  | .meterReq _ _ _ => true
  | .readN _ _ => true
  | .i2cRead _ => true
  | .alertResponse => true
  | .sclTimeout => true
  | .scriptEntry _ _ => true
  | .statusPoll _ => true
  | .entryRetry _ => true
  | .stuckBusRecovery _ => true
  | .stuckRetry _ => true
  | .blockLock _ => true
  | .hello _ cert _ => decide (cert.length = 128)
  | .confirm _ _ => true
  | .bringupTimeout _ => true
  | .linkRetry _ => true
  | .rekey _ => true
  | .packetReceive _ h payload => decide (h.len.toNat = payload.length) && decide (payload.length ≤ 4096)
  | .creditBlock _ _ _ _ => true
  | .nadv _ _ => true
  | .advertisementOriginate => true
  | .advertisementExpiry => true
  | .routeComputation => true
  | .transactionTimeout _ _ => true
  | .stuckPacketDrop _ => true
  | .copyOpen _ _ cert _ => decide (cert.length = 128)
  | .copyRsp _ _ => true
  | .copyData _ item => item.wf
  | .copyClose _ => true
  | .rreadReq _ _ _ _ => true
  | .rreadRsp _ _ => true
  | .mirBeat _ => true
  | .mirBeatSend => true
  | .partnerSilence => true
  | .mirAppend a => a.wf
  | .mirAccept _ _ _ => true
  | .mirState item => item.wf
  | .mirRetract _ _ => true
  | .mirSyncReq _ => true
  | .mirSyncRsp _ => true
  | .powerLoss => true
  | .spaceRetry => true
  | .housekeepingSlot _ _ => true
  | .housekeepingRound _ => true
  | .ageingHour => true
  | .operatingHour => true
  | .tapInstruction _ => true
  | .unlock _ => true
  | .dmi _ => true
  | .seqdbg _ _ => true
  | .blockLockLoss _ => true
  | .speedWidthChange _ _ _ => true

end Sys2Proof
end

