-- ==== Sys2Proof/Certificates/Slice0/Obligations.lean ====
section
/-!
DEFINITION. The statements of this row: what the block does with its commands, by family, and what every command keeps. A
statement about one command says what state it answers and under which conditions; the two lists of `Sys2Proof.Safety` say which
commands may change what, so that a statement about a command need not repeat what it leaves alone.
-/
open Sys2Proof Sys2Proof.Machine

/-! ## The queue of commands, and what every command keeps -/

/-- A step takes the command at the front of the queue and runs it on the block with the queue's rest. -/
def Obligations.StepRunsTheFrontCommand : Prop :=
  ∀ (c : Instr) (r : List Instr) (s : State), step { s with pending := c :: r } = exec c { s with pending := r }

/-- On an empty queue the block idles and its clock counts one microsecond: the model's choice (log entry 5). -/
def Obligations.EmptyQueueTicksTheClock : Prop :=
  ∀ s : State, s.pending = [] → step s = .next { s with now := s.now + 1 }

/-- The queue is first in, first out: no command changes what waits behind it, and a step that goes on leaves the queue
without its front command. -/
def Obligations.QueueIsFirstInFirstOut : Prop :=
  (∀ (c : Instr) (s t : State), exec c s = .next t → t.pending = s.pending) ∧
  (∀ (c : Instr) (r : List Instr) (s t : State), s.pending = c :: r → step s = .next t → t.pending = r)

/-- Every command completes: on every state and with every operand each of the 245 constructors of `Instr` answers a next state, and so
does every step; none ends in a fault, and none is refused. What a command finds wrong it reports in a completion entry, a
status bit, a count or an answer (00 R6 to R10; 07 R193 to R195). The other statements say, command by command, what the next
state is. -/
def Obligations.EveryCommandCompletes : Prop :=
  (∀ (c : Instr) (s : State), ∃ t, exec c s = .next t ∧ t.pending = s.pending ∧ s.outbox <+: t.outbox) ∧
  (∀ s : State, ∃ t, step s = .next t)

/-- Credits and outstanding slots of every virtual channel of every link sum to 32 after every step, if they did before it
(14 R446, 01 R22). -/
def Obligations.CreditsBalanceThroughEveryStep : Prop :=
  ∀ s t : State, s.creditsOk → step s = .next t → t.creditsOk

/-- The accumulators and the pending amount sum to MTR_TOTAL after every step, if they did before it, and no accumulator
falls (12 R383, 01 R22). -/
def Obligations.MeterBalancesThroughEveryStep : Prop :=
  ∀ s t : State, s.meterOk → step s = .next t →
    t.meterOk ∧ t.nvm.accs.toList.sum + t.mtr.pending = t.nvm.total ∧ ∀ k : Fin 512, s.nvm.accs[k] ≤ t.nvm.accs[k]

/-- The boot NOR keeps its canonical form through every step. No step lowers the rollback floor (04 R90), erases or rewrites
a record of the permanent event area, or lowers EVR_DROPPED or EVR_ACK_LOST (11 R368). No step lowers a life counter (15
R485), the derating stage (15 R487) or SEAL_INDEX. What the block has sent stays sent: a step only adds to it (the outbox is
the model's own, log entry 4). -/
def Obligations.NothingKeptGoesBack : Prop :=
  (∀ s t : State, s.norOk → step s = .next t → t.norOk) ∧
  (∀ s t : State, s.countsOk → step s = .next t →
    t.countsOk ∧ s.nvm.floor ≤ t.nvm.floor ∧ s.nvm.permanent <+: t.nvm.permanent ∧
      s.nvm.evDropped ≤ t.nvm.evDropped ∧ s.nvm.ackLost ≤ t.nvm.ackLost) ∧
  (∀ s t : State, step s = .next t →
    s.nvm.starts ≤ t.nvm.starts ∧ s.nvm.cycles ≤ t.nvm.cycles ∧ s.nvm.unlocks ≤ t.nvm.unlocks ∧
      (∀ k : Fin 5, s.nvm.bandMs[k] ≤ t.nvm.bandMs[k]) ∧ s.nvm.stage ≤ t.nvm.stage ∧ s.nvm.sealIndex ≤ t.nvm.sealIndex) ∧
  (∀ s t : State, step s = .next t → s.outbox <+: t.outbox)

/-- No command but those of `Instr.actsOnUnits` changes a register that holds a value, a clock, the boot and update unit with
the NOR, OTP, owner record and installed keys, an interrupt route, the owner's challenge, or the DRAM, SRAM, Squall, display,
QSPI, SPI, PMIC, discrete-input, housekeeping, throttle or debug unit. -/
def Obligations.UnitsChangeByTheirOwnCommands : Prop :=
  ∀ (c : Instr) (s t : State), c.actsOnUnits = false → exec c s = .next t → t.units = s.units

/-- No command but those of `Instr.actsOnStored` changes a zone, a tag log, the conventional map, a chain, a seal record or a
persisted key. -/
def Obligations.StoredDataChangeByTheirOwnCommands : Prop :=
  ∀ (c : Instr) (s t : State), c.actsOnStored = false → exec c s = .next t → t.stored = s.stored

/-- The rollback floor: no step lowers it or takes it past its 64 steps, and the start that reaches FULL raises it to the
running image's ROLLBACK_INDEX, at 0x10 of its slot header, if that is higher (04 R90). -/
def Obligations.TheFloorOnlyRises : Prop :=
  (∀ s t : State, s.nvm.floor ≤ 63 → step s = .next t → s.nvm.floor ≤ t.nvm.floor ∧ t.nvm.floor ≤ 63) ∧
  (∀ (s : State) (d : BoardDesc) b, s.boot.desc = some d → s.boot.booted = some b → s.active = true → s.dev.level = .gust →
    s.boot.replayed = true → s.boot.dramOk = true → s.probeSettled = true → s.nvm.zones.any (fun p => p.2.toMerge) = false →
    s.nvm.floor ≤ 63 → fieldLe (s.slotHeader b) 0x10 4 ≤ 63 →
    ∃ u, exec .full s = .next u ∧ u.dev.level = .full ∧
      (s.nvm.floor < fieldLe (s.slotHeader b) 0x10 4 → u.nvm.floor = fieldLe (s.slotHeader b) 0x10 4) ∧
      (fieldLe (s.slotHeader b) 0x10 4 ≤ s.nvm.floor → u.nvm.floor = s.nvm.floor))

/-- After a power-on reset: no command waits, RST_CAUSE.POWER_ON alone reads 1 (03 R84), the service level is NONE, no link
is up, VMOTION reads moving (13 R422), debug is locked, and every invariant of the statements above holds. -/
def Obligations.ResetState : Prop :=
  State.reset.pending = [] ∧ State.reset.aon.rstCause = 1#7 ∧ State.reset.dev.level = .none ∧
    (∀ n : Fin 4, (State.reset.vfl[n]).st = .absent) ∧ State.reset.gpio.motion = .moving ∧ State.reset.dbg.unlocked = false ∧
    State.reset.creditsOk ∧ State.reset.meterOk ∧ State.reset.norOk ∧ State.reset.countsOk

/-! ## 07 and 08: tenants, queues, commands, keys and the chain -/

/-- Doorbells (07 R188): a write to a queue pair that is not enabled, of an index at or beyond its depth, of a completion
head past entries not yet written, or of a submission tail that would make the ring hold more than D − 1 descriptors, is
counted in the tenant page with the cause R188 numbers, sets DOORBELL_ERR and moves nothing, so that what the last accepted
tail covers is still fetched; a tail equal to the current one has no effect; and any other moves its index (one with a 1 in its
reserved bits is RegistersTakeWrites'). While the
tenant's reset runs a doorbell is counted with cause 0x84 and moves nothing (07 R221). It states the completion of
`submissionTailDoorbell` and `completionHeadDoorbell`. -/
def Obligations.DoorbellsMoveTheirIndex : Prop :=
  ∀ (s : State) (v : DbView) (q : Qid) (be : BitVec 4) (val : Word) (t : Tid) (a : Word),
    (s.routeDoorbell v q false be = .tenant t a →
      (s.tnt[t].resetDone = false → exec (.submissionTailDoorbell v q be val) s = .next (s.hostTouch.countErr (pTNT t) 0x84#8 a)) ∧
      (s.tnt[t].resetDone = true → ∀ cause : Byte,
        ((s.tnt[t].qp q).enabled = false ∧ cause = 0x80#8 ∨
         (s.tnt[t].qp q).enabled = true ∧ (s.tnt[t].qp q).depth ≤ bits val 11 0 ∧ cause = 0x81#8 ∨
         (s.tnt[t].qp q).enabled = true ∧ bits val 11 0 < (s.tnt[t].qp q).depth ∧ cause = 0x83#8 ∧
          ((s.tnt[t].qp q).sqHead + (s.tnt[t].qp q).depth - 1 - (s.tnt[t].qp q).sqTail) % (s.tnt[t].qp q).depth <
            (bits val 11 0 + (s.tnt[t].qp q).depth - (s.tnt[t].qp q).sqTail) % (s.tnt[t].qp q).depth) →
        ∃ u, exec (.submissionTailDoorbell v q be val) s = .next u ∧ (u.hdr[pTNT t]).errCause = cause ∧
          (u.hdr[pTNT t]).errAddr = a ∧ (u.hdr[pTNT t]).errCount = satInc (s.hdr[pTNT t]).errCount ∧ u.bit (pTNT t) 14 = true ∧
          u.tnt[t].qps = s.tnt[t].qps) ∧
      (s.tnt[t].resetDone = true → (s.tnt[t].qp q).enabled = true → bits val 11 0 < (s.tnt[t].qp q).depth →
        (bits val 11 0 + (s.tnt[t].qp q).depth - (s.tnt[t].qp q).sqTail) % (s.tnt[t].qp q).depth ≤
          ((s.tnt[t].qp q).sqHead + (s.tnt[t].qp q).depth - 1 - (s.tnt[t].qp q).sqTail) % (s.tnt[t].qp q).depth →
        (bits val 31 12 = 0 → exec (.submissionTailDoorbell v q be val) s =
            .next (s.hostTouch.updQp t q (fun y => { y with sqTail := bits val 11 0 })) ∧
          (bits val 11 0 = (s.tnt[t].qp q).sqTail →
            exec (.submissionTailDoorbell v q be val) s = .next (s.hostTouch.updQp t q (fun y => y)))))) ∧
    (s.routeDoorbell v q true be = .tenant t a →
      (s.tnt[t].resetDone = false → exec (.completionHeadDoorbell v q be val) s = .next (s.hostTouch.countErr (pTNT t) 0x84#8 a)) ∧
      (s.tnt[t].resetDone = true → ∀ cause : Byte,
        ((s.tnt[t].qp q).enabled = false ∧ cause = 0x80#8 ∨
         (s.tnt[t].qp q).enabled = true ∧ (s.tnt[t].qp q).depth ≤ bits val 11 0 ∧ cause = 0x81#8 ∨
         (s.tnt[t].qp q).enabled = true ∧ bits val 11 0 < (s.tnt[t].qp q).depth ∧ cause = 0x82#8 ∧
          ((s.tnt[t].qp q).cqTail + (s.tnt[t].qp q).depth - (s.tnt[t].qp q).cqHead) % (s.tnt[t].qp q).depth <
            (bits val 11 0 + (s.tnt[t].qp q).depth - (s.tnt[t].qp q).cqHead) % (s.tnt[t].qp q).depth) →
        ∃ u, exec (.completionHeadDoorbell v q be val) s = .next u ∧ (u.hdr[pTNT t]).errCause = cause ∧
          (u.hdr[pTNT t]).errAddr = a ∧ (u.hdr[pTNT t]).errCount = satInc (s.hdr[pTNT t]).errCount ∧ u.bit (pTNT t) 14 = true ∧
          u.tnt[t].qps = s.tnt[t].qps) ∧
      (s.tnt[t].resetDone = true → (s.tnt[t].qp q).enabled = true → bits val 11 0 < (s.tnt[t].qp q).depth →
        (bits val 11 0 + (s.tnt[t].qp q).depth - (s.tnt[t].qp q).cqHead) % (s.tnt[t].qp q).depth ≤
          ((s.tnt[t].qp q).cqTail + (s.tnt[t].qp q).depth - (s.tnt[t].qp q).cqHead) % (s.tnt[t].qp q).depth →
        bits val 31 12 = 0 → exec (.completionHeadDoorbell v q be val) s =
          .next (s.hostTouch.updQp t q (fun y => { y with cqHead := bits val 11 0 }))))

/-- HQM's turn with one descriptor: the queue pair that round robin serves next gives its command the lowest free tag, its
head moves by one, and the command holds the descriptor's fields under its tenant's epoch; one that came poisoned is done
with ST_POISONED and a command identifier of all ones (07 R182, R189; 06 R163). Bytes a host read brings join the data or the
header of the command that asked for them, and nothing else of any command changes; poisoned data marks its blocks and
counts, and a read that ends without data marks the command, a timeout only once the function's range for it has passed and
not while the host has turned it off (06 R147, R159, R163, R164). It states the completion of
`descriptorFetch`, `hostReadCompletion` and `completionTimeout`. -/
def Obligations.CommandsAreFetchedAndFed : Prop :=
  (∀ (s : State) (f : FetchedDesc) (t : Tid) (q : Qid), s.nextQueue = some (t, q) →
    1 ≤ bits (s.reg pHQM 0x10C 8#32) 3 0 →
    ∃ u, exec (.descriptorFetch [f]) s = .next u ∧ u.hqm.rr = t.1 ∧ u.hqm.next = s.hqm.next + 1 ∧
      (u.tnt[t].qp q).sqHead = ((s.tnt[t].qp q).sqHead + 1) % (s.tnt[t].qp q).depth ∧
      ∃ c, u.hqm.cmds.find s.freeTag = some c ∧ c.tenant = t ∧ c.qp = q ∧ c.epoch = s.tnt[t].epoch ∧ c.no = s.hqm.next ∧
        (f.ep = true → c.desc.cid = 0xFFFF#16 ∧ c.phase = .done 0x09 0 0 false) ∧
        (f.ep = false → c.desc = parseDescriptor f.bytes.toList ∧
          (∀ st rc, s.generalCheck t q c.desc = some (st, rc) → c.phase = .done st rc 0 false) ∧
          (s.generalCheck t q c.desc = none → c.phase = .fetched))) ∧
  (∀ (s : State) (tag : Tag) (c : Cmd), s.cmd tag = some c → c.phase = .fetched → s.active = true →
    (∀ off b, exec (.hostReadCompletion tag .data off b false) s =
      .next (s.updCmd tag (fun _ => { c with data := c.data.put off b }))) ∧
    (∀ off b, exec (.hostReadCompletion tag .header off b false) s =
      .next (s.updCmd tag (fun _ => { c with header := c.header.put off b }))) ∧
    (∀ off b, ∃ u, exec (.hostReadCompletion tag .data off b true) s = .next u ∧
      u.cmd tag = some { c with data := c.data.put off b, epData := c.epData ++ blocksTouched off b.length } ∧
      u.pcie.poisonRx = satInc s.pcie.poisonRx) ∧
    (∀ why es, why ≠ .timeout → c.list = .ok es →
      exec (.completionTimeout tag why) s = .next (s.updCmd tag (fun x => { x with hostFail := true }))) ∧
    (∀ es, c.list = .ok es → s.mayTimeOut (s.tenantFn c.tenant) c.readAt = true →
      ∃ u, exec (.completionTimeout tag .timeout) s = .next u ∧ u.pcie.timeouts = satInc s.pcie.timeouts ∧
        u.cmd tag = some { c with hostFail := true }) ∧
    (s.mayTimeOut (s.tenantFn c.tenant) c.readAt = false → exec (.completionTimeout tag .timeout) s = .next s))

/-- READ and VERIFY of mapped conventional blocks that find egress buffers, masks and one of Pipe X's sixteen contexts enter it and hold one buffer for
each block; READ of unmapped and mapped blocks alike begins so; VERIFY under Vane level 6 or 7 is turned away with
ST_BUSY_THERMAL; and WRITE enters Pipe X with its ciphertext blocks, not yet placed (08 R228, R229; 07 R205; 15 R479). It states the completion of
`read`, `verify` and `write`. -/
def Obligations.ConventionalCommandsEnterPipeX : Prop :=
  ∀ (s : State) (tag : Tag) (c : Cmd) (d : BoardDesc),
    (∀ opc, s.ready tag opc c → (opc = 0x01 ∨ opc = 0x0C ∧ s.thr.level.1 < 6) → c.zoneNo = 0xFFFFF →
      s.convFault c (c.desc.len.toNat / 4096) = none → s.boot.desc = some d → s.pipeFull .x = false →
      ∀ s1 s2 hs, s.drawMasks .x (257 * (c.desc.len.toNat / 4096)) = some s1 →
        s1.allocAll .egress (List.replicate (c.desc.len.toNat / 4096)
          (Buf.fresh .egress c.epoch tag.1 c.tenant (.conv c.tenant 0 0) [])) = some (hs, s2) →
        ∃ u, exec (if opc = 0x01 then .read tag else .verify tag) s = .next u ∧
          u.cmd tag = some { c with phase := .shared, bufs := hs }) ∧
    (s.ready tag 0x0C c → 6 ≤ s.thr.level.1 →
      exec (.verify tag) s = .next (s.finish tag 0x11 0 0)) ∧
    (s.ready tag 0x02 c → s.writeFault c (c.desc.len.toNat / 4096) = none → s.pipeFull .x = false → ∀ k i, s.tnt[c.tenant].xts = some (k, i) →
      ∀ s1 s2 hs, s.drawMasks .x (257 * (c.desc.len.toNat / 4096)) = some s1 →
        s1.allocAll .ingest ((blocksOfBytes c.bytes (c.desc.len.toNat / 4096)).zipIdx.map (fun p =>
          { Buf.fresh .stream c.epoch tag.1 c.tenant (.conv c.tenant (c.desc.lba.toNat + p.2) 0)
              (Config.xtsEnc k (xtsUnit c.tenant (c.desc.lba.toNat + p.2)) p.1) with
            cipherDone := true, poison := c.epData.contains p.2 })) = some (hs, s2) →
        ∃ u, exec (.write tag) s = .next u ∧ u.cmd tag = some { c with phase := .shared, bufs := hs })

/-- APPEND to a zone it may write takes the zone's write pointer as its offset and the tag Pipe G computes over its header
and ciphertext; the chain step then gives it the tenant's next
index; and its acknowledgement answers ST_OK with the block offset and the index (07 R197 to R199; 08 R233,
R254; 01 R17). It states the completion of
`append`, `sealChainStep` and `appendAcknowledgement`. -/
def Obligations.AppendsEnterTheChain : Prop :=
  ∀ (s : State) (tag : Tag) (c : Cmd) (z : Zone) (key : Hash × Word),
    (∀ d s1 s2 hs, s.ready tag 0x03 c → s.zone c.zoneNo = some z → s.boot.desc = some d → s.appendWaits c = false →
      s.appendFault d c z (blocksOf c.desc.len.toNat) = none → s.tnt[c.tenant].gcm = some key → s.pipeFull .g = false →
      s.drawMasks .g (gcmBlocks c.desc.len.toNat) = some s1 →
      s1.allocAll .ingest ((blocksOfBytes (Config.gcmCtr key.1 (z.iv c.zoneNo z.wp) c.bytes) (blocksOf c.desc.len.toNat)).zipIdx.map
        (fun p => { Buf.fresh .stream c.epoch tag.1 c.tenant (.zone c.zoneNo z.gen (z.wp + p.2) 1 0) p.1 with
          cipherDone := true, gen := z.gen, gust := s.dev.level = .gust,
          pad := decide (c.desc.len.toNat < 4096 * (p.2 + 1)) })) = some (hs, s2) →
      ∃ u, exec (.append tag) s = .next u ∧ u.cmd tag = some { c with
        phase := .shared, bufs := hs, zoneId := c.zoneNo, offset := z.wp, opened := decide (z.st = .empty),
        gtag := some (Config.gcmTag key.1 (z.iv c.zoneNo z.wp) c.hdrBytes (Config.gcmCtr key.1 (z.iv c.zoneNo z.wp) c.bytes)) }) ∧
    (∀ g, s.cmd tag = some c → c.gtag = some g → s.zone c.zoneId = some z → s.tnt[c.tenant].gcm = some key → c.desc.opc = 0x03#8 →
      c.phase = .shared → c.chained = false → s.awake = true → s.squall.running = false → s.ciph.g.maskWait = false →
      ∃ u, exec (.sealChainStep tag) s = .next u ∧
        u.cmd tag = some { c with chained := true, index := s.nvm.chains[c.tenant].index + 1, tagNo := s.hqm.tagged }) ∧
    (∀ e, s.cmd tag = some c → (s.entryAt c.tenant c.index).map (fun p => p.2) = some e → c.desc.opc = 0x03#8 → c.phase = .waiting →
      c.chained = true → c.placed = true → c.dramFail = none → s.serving = true → s.ackBlocked c.tenant c.index = false →
      s.mayCount (s.liveBufs tag c).length = true → c.desc.fua = false → s.mirrorWaits c.tenant e = false →
      s.mirrorDegraded c.tenant = false →
      ∃ u, exec (.appendAcknowledgement tag) s = .next u ∧
        u.answered tag 0 0 (BitVec.ofNat 64 (e.offset + e.index % 2 ^ 32 * 2 ^ 32)))

/-- The chain (08 R254): the chain step of an append makes its tenant's head the SHA-256 of the 92-byte input of the table
"Chain input": the head before it, the GCM tag, the zone ID, the offset and the length, big-endian, and the SHA-256 of its
header bytes, which are none for HLEN 0. The entry it appends to the zone's tag log holds that head, and every other tenant's
chain stays. -/
def Obligations.TheChainIsHashed : Prop :=
  ∀ (s : State) (tag : Tag) (c : Cmd) (z : Zone) (key : Hash × Word) (g : QWord), s.cmd tag = some c → c.gtag = some g →
    s.zone c.zoneId = some z → s.tnt[c.tenant].gcm = some key → c.desc.opc = 0x03#8 → c.phase = .shared → c.chained = false →
    s.awake = true → s.squall.running = false → s.ciph.g.maskWait = false → c.zoneId < 2 ^ 20 →
    ∃ u input, exec (.sealChainStep tag) s = .next u ∧ input.length = 92 ∧
      input = hashBytes (s.chainHead c.tenant) ++ beBytes 16 g.toNat ++ beBytes 4 c.zoneId ++ beBytes 4 c.offset ++
        beBytes 4 c.desc.len.toNat ++ hashBytes (Config.sha256 c.hdrBytes) ∧
      u.nvm.chains[c.tenant] = { index := s.nvm.chains[c.tenant].index + 1, head := Config.sha256 input } ∧
      (∀ t : Tid, t ≠ c.tenant → u.nvm.chains[t] = s.nvm.chains[t]) ∧ (c.desc.hlen = 0 → c.hdrBytes = []) ∧
      ∃ x e, u.zone c.zoneId = some x ∧ x.log = z.log ++ [e] ∧ e.index = s.nvm.chains[c.tenant].index + 1 ∧
        e.head = Config.sha256 input

/-- FLUSH waits with the write sequence it covers; TRIM unmaps its blocks and no other; a WRITE, or a chained APPEND whose turn it
is, that finds room in the journal, the fragment table and a superblock is placed and waits, the WRITE with the write sequence it
was placed under; and a finished command's completion entry, unless an append chained before it still owes its own, takes the next
slot of its ring, sends it and gives up the tag (07 R186, R187, R204, R205, R218; 09 R285, R287). It states the completion of
`flush`, `trim`, `bufferPlacement` and `completionEntryWrite`. -/
def Obligations.FlushTrimAndEntries : Prop :=
  ∀ (s : State) (tag : Tag) (c : Cmd),
    (s.ready tag 0x04 c →
      exec (.flush tag) s = .next (s.updCmd tag (fun x => { x with phase := .waiting, offset := s.nvm.writeSeq }))) ∧
    (s.ready tag 0x05 c → 0 < dbits c.desc.aux0 31 0 → dbits c.desc.aux0 31 0 ≤ 65536 → s.tnt[c.tenant].xts.isSome = true →
      c.desc.lba.toNat + dbits c.desc.aux0 31 0 ≤ s.tnt[c.tenant].convBlocks →
      ∃ u, exec (.trim tag) s = .next u ∧ u.cmd tag = some { c with phase := .waiting } ∧
        (∀ e ∈ s.nvm.conv, e ∈ u.nvm.conv ↔
          e.1 < convKey c.tenant c.desc.lba.toNat ∨ convKey c.tenant c.desc.lba.toNat + dbits c.desc.aux0 31 0 ≤ e.1) ∧
        u.nvm.zones = s.nvm.zones ∧ u.tnt = s.tnt ∧ u.bpm = s.bpm) ∧
    (∀ d s1, s.cmd tag = some c → s.boot.desc = some d → s.active = true → c.phase = .shared → c.placed = false →
      s.med.rewrites = [] → s.journalRoom (s.liveBufs tag c).length = true →
      (c.desc.opc = 0x02#8 → s.ciph.x.maskWait = false →
        s.placeIn d 0 4 ((s.liveBufs tag c).zipIdx.map
          (fun p => (some p.1, Piece.conv c.tenant (c.desc.lba.toNat + p.2) (s.nvm.writeSeq + p.2)))) = some s1 →
        ∃ u, exec (.bufferPlacement tag) s = .next u ∧
          u.cmd tag = some { c with phase := .waiting, placed := true, offset := s.nvm.writeSeq }) ∧
      (∀ z, c.desc.opc = 0x03#8 → c.chained = true → s.zone c.zoneId = some z → s.placesBefore c = false →
        s.dev.level = .full → s.fragRoom (fragsOf c.offset (s.liveBufs tag c).length) = true →
        s.placeIn d 1 4 ((s.liveBufs tag c).zipIdx.map
          (fun p => (some p.1, Piece.zone c.zoneId z.gen (c.offset + p.2) 1 (s.nvm.writeSeq + p.2)))) = some s1 →
        ∃ u, exec (.bufferPlacement tag) s = .next u ∧ u.cmd tag = some { c with phase := .waiting, placed := true })) ∧
    (∀ st rc r, s.cmd tag = some c → c.phase = .done st rc r false → s.active = true → c.epoch = s.tnt[c.tenant].epoch →
      (s.tnt[c.tenant].qp c.qp).enabled = true → s.entryBlocked c = false → (s.tnt[c.tenant].qp c.qp).cqFree = true →
      (s.pcie.fns[s.tenantFn c.tenant]).bme = true →
      ∃ u, exec (.completionEntryWrite tag) s = .next u ∧ u.cmd tag = none ∧
        Output.completion c.tenant c.qp
          ((s.tnt[c.tenant].qp c.qp).cqBase + BitVec.ofNat 64 (16 * (s.tnt[c.tenant].qp c.qp).cqTail))
          (entryOf c st rc (s.tnt[c.tenant].qp c.qp).phase false r) ∈ u.outbox)

/-- The zone opcodes on a zone in the state each asks for: ZONE_OPEN makes an EMPTY zone OPEN, ZONE_FINISH an OPEN one FULL
or HELD, ZONE_HOLD a FULL one HELD, ZONE_RELEASE a HELD one FULL, and each answers ST_OK (07 R206, R207, R209, R210). A zone
opcode on a zone its sender may not name completes with ST_RANGE, and on a zone in a state it does not take with
ST_ZONE_STATE and the state's code; neither changes anything but the command (07 R196, R206). It states the completion of
`zoneOpen`, `zoneFinish`, `zoneHold` and `zoneRelease`. -/
def Obligations.ZoneOpcodesActByState : Prop :=
  (∀ (s : State) (tag : Tag) (c : Cmd) (z : Zone), s.named c = some z → c.zoneNo ≠ 0xFFFFF →
    (s.ready tag 0x06 c → z.st = .empty → z.inGustSet = false → z.replica = false → s.mayOpen z.owner = true →
      exec (.zoneOpen tag) s = .next ((s.updZone c.zoneNo (fun x => { x with st := .open_ })).finish tag 0 0 (res c.zoneNo))) ∧
    (s.ready tag 0x07 c → s.appendsBefore c = false → z.st = .open_ → z.replica = false →
      ∃ u, exec (.zoneFinish tag) s = .next u ∧ u.answered tag 0 0 0 ∧ u.zone c.zoneNo = some (z.finish s.opSecs)) ∧
    (s.ready tag 0x08 c → z.st = .full → s.heldHost z.owner < s.tnt[z.owner].heldMax →
      ∃ u, exec (.zoneHold tag) s = .next u ∧ u.answered tag 0 0 0 ∧
        u.zone c.zoneNo = some { z with holdHost := true, st := .held }) ∧
    (s.ready tag 0x09 c → z.st = .held → c.tenant = 0 →
      ∃ u, exec (.zoneRelease tag) s = .next u ∧ u.answered tag 0 0 0 ∧
        u.zone c.zoneNo = some { z with holdHost := false, holdEvent := false, st := .full })) ∧
  (∀ (s : State) (tag : Tag) (c : Cmd),
    (s.named c = none → c.zoneNo ≠ 0xFFFFF →
      (s.ready tag 0x06 c → exec (.zoneOpen tag) s = .next (s.finish tag 0x03 0 0)) ∧
      (s.ready tag 0x07 c → exec (.zoneFinish tag) s = .next (s.finish tag 0x03 0 0)) ∧
      (s.ready tag 0x08 c → exec (.zoneHold tag) s = .next (s.finish tag 0x03 0 0)) ∧
      (s.ready tag 0x09 c → exec (.zoneRelease tag) s = .next (s.finish tag 0x03 0 0))) ∧
    (∀ z, s.named c = some z → c.zoneNo ≠ 0xFFFFF → z.st = .sealed →
      (s.ready tag 0x06 c → exec (.zoneOpen tag) s = .next (s.badState tag z)) ∧
      (s.ready tag 0x07 c → s.appendsBefore c = false → exec (.zoneFinish tag) s = .next (s.badState tag z)) ∧
      (s.ready tag 0x08 c → exec (.zoneHold tag) s = .next (s.badState tag z)) ∧
      (s.ready tag 0x09 c → exec (.zoneRelease tag) s = .next (s.badState tag z))))

/-- ZONE_SEAL of a FULL or HELD zone of its own within the evidence quota seals it: SEAL_INDEX rises by one, the zone is
SEALED with its log as it was, and the command answers the last chain index; a zone already SEALED is answered again without
a new record (08 R257, 07 R206). ZONE_ERASE_SIGNED of a SEALED zone under a live challenge consumes the challenge either way:
with the owner's signature the zone is EMPTY under its next generation and the zone-reset log holds a record of it; with
another signature the command answers ST_OWNER_SIG and the zone stays (07 R213, R214; 11 R370). It states the completion of
`zoneSeal` and `zoneEraseSigned`. -/
def Obligations.ZonesAreSealedAndErased : Prop :=
  (∀ (s : State) (tag : Tag) (c : Cmd) (z : Zone) (k : Hash),
    s.ready tag 0x0A c → s.named c = some z → s.appendsBefore c = false → z.replica = false →
    (z.st = .sealed → exec (.zoneSeal tag) s = .next (s.finish tag 0 0 (lastIndex z))) ∧
    ((z.st = .full ∨ z.st = .held) → s.zcountLim z.owner .sealed < s.tnt[z.owner].evidMax → s.sign.identity = some k →
      ∃ u, exec (.zoneSeal tag) s = .next u ∧ u.answered tag 0 0 (lastIndex z) ∧ u.nvm.sealIndex = s.nvm.sealIndex + 1 ∧
        u.nvm.sealRecs.has c.zoneNo = true ∧ u.zone c.zoneNo = some { z with st := .sealed } ∧
        u.nvm.chains = s.nvm.chains ∧ u.nvm.sbs = s.nvm.sbs)) ∧
  (∀ (s : State) (tag : Tag) (c : Cmd) (z : Zone) (q : QWord),
    s.ready tag 0x4D c → s.named c = some z → z.st = .sealed → s.nvm.ownerSlots ≠ [] → s.liveChallenge = some q →
    ∃ u, exec (.zoneEraseSigned tag) s = .next u ∧ u.own.challenge = none ∧
      (Config.ecdsaVerify s.nvm.ownerKey
          (ownerMessage q 0x10 (leBytes 4 c.zoneNo ++ leBytes 4 z.gen.toNat ++ [tidByte z.owner])) (wideOf (slice c.bytes 0 64)) = true →
        u.answered tag 0 0 0 ∧ u.nvm.zresetNext = s.nvm.zresetNext + 1 ∧
        u.zone c.zoneNo = some { Zone.fresh z.owner (z.gen + 1) with inGustSet := z.inGustSet }) ∧
      (Config.ecdsaVerify s.nvm.ownerKey
          (ownerMessage q 0x10 (leBytes 4 c.zoneNo ++ leBytes 4 z.gen.toNat ++ [tidByte z.owner])) (wideOf (slice c.bytes 0 64)) = false →
        u.answered tag 0x0E 0 0 ∧ u.nvm = s.nvm))

/-- Reports and exports answer with what they read and change nothing else: ZONE_REPORT, the three kinds of SEAL_EXPORT,
IDENTIFY, and both logs of LOG_READ (07 R204; 08 R258, R259; 11 R369, R370). It states the completion of
`zoneReport`, `sealExportSealRecord`, `sealExportZoneEntries`, `sealExportChain`, `identify`, `logReadEventRecords` and
`logReadZoneResetLog`. -/
def Obligations.ReadersSendAndAnswer : Prop :=
  ∀ (s : State) (tag : Tag) (c : Cmd),
    (s.ready tag 0x0B c → ∃ out n, exec (.zoneReport tag) s = .next ((s.sendData c 0 out false).finish tag 0 0 (res n)) ∧
      n ≤ s.nvm.zones.length ∧ out.length = 16 + 32 * n ∧ (16 ≤ c.desc.len.toNat → out.length ≤ c.desc.len.toNat)) ∧
    (∀ r, s.ready tag 0x4C c → c.desc.sel = 1 → s.nvm.sealRecs.find c.zoneNo = some r → 256 ≤ c.desc.len.toNat →
      exec (.sealExportSealRecord tag) s = .next ((s.sendData c 0 r false).finish tag 0 0 (res 1))) ∧
    (∀ z, s.ready tag 0x4C c → c.desc.sel = 2 → s.named c = some z →
      ∃ l, exec (.sealExportZoneEntries tag) s = .next ((s.sendData c 0 l.flatten false).finish tag 0 0 (res l.length)) ∧
        l <+: (z.log.drop c.desc.aux1.toNat).map (exportEntry (z.entryId c.zoneNo)) ∧ l.flatten.length ≤ c.desc.len.toNat) ∧
    (∀ t : Tid, s.ready tag 0x4C c → c.desc.sel = 3 → dbits c.desc.aux0 15 8 = t.1 → 0 < c.desc.aux1.toNat →
      c.desc.aux1.toNat ≤ s.nvm.chains[t].index →
      ∃ out n, exec (.sealExportChain tag) s = .next ((s.sendData c 0 out false).finish tag 0 0 (res n)) ∧
        n = min (c.desc.len.toNat / 128) (s.nvm.chains[t].index + 1 - c.desc.aux1.toNat)) ∧
    (s.ready tag 0x40 c →
      exec (.identify tag) s = .next ((s.sendData c 0 (s.identifyData c.tenant) false).finish tag 0 0 0)) ∧
    (s.ready tag 0x46 c → c.desc.sel = 1 → c.desc.aux1.toNat < s.aon.nextSeq →
      ∃ l : List EvRec, exec (.logReadEventRecords tag) s = .next ((s.sendData c 0 (l.flatMap EvRec.bytes) false).finish tag 0 0 (res l.length)) ∧
        ∀ r ∈ l, r ∈ s.allRecords ∧ c.desc.aux1.toNat ≤ r.seq ∧ (c.tenant = 0 ∨ r.tenant = tidByte c.tenant)) ∧
    (s.ready tag 0x46 c → c.desc.sel = 2 → c.desc.aux1.toNat < s.nvm.zresetNext →
      ∃ l : List ZReset, exec (.logReadZoneResetLog tag) s = .next ((s.sendData c 0 (l.flatMap ZReset.bytes) false).finish tag 0 0 (res l.length)) ∧
        ∀ r ∈ l, r ∈ s.nvm.zresets ∧ c.desc.aux1.toNat ≤ r.seq ∧ (c.tenant = 0 ∨ r.tenant = c.tenant))

/-- QUEUE_CREATE of a disabled queue pair of a locked tenant, with a depth and bases R183 allows, enables it at its first
slot with phase 1 and sets its route; QUEUE_DELETE stops fetching from an enabled one and waits, touching no other queue pair
(07 R182 to R184; 05 R131, R141). A key that unwraps, with a context of Pipe G free and masks for its blocks, waits at the end of
its tenant's list of key changes; so does KEY_CLEAR; a wrapped key that fails its authentication answers ST_AUTH and changes no
key; and at a quiet key page the first change that waits takes effect and answers its command (08 R242, R243, R248; 07 R204). It
states the completion of `queueCreate`, `queueDelete`, `keyLoad`, `keyClear` and `keyPageChange`. -/
def Obligations.QueuePairsAndKeys : Prop :=
  (∀ (s : State) (tag : Tag) (c : Cmd) (q : Qid), Fin.ofNat 8 (dbits c.desc.aux0 2 0) = q → q ≠ 0 →
    (s.ready tag 0x41 c → s.dev.featLock = true → s.tntLocked c.tenant = true → (s.tnt[c.tenant].qp q).enabled = false →
      (s.hasFeat c.tenant 16 = true → dbits c.desc.aux0 38 32 ≤ if s.tnt[c.tenant].binding = 1 then 8 else 71) →
      ringOk (dbits c.desc.aux0 28 16) c.desc.daddr c.desc.haddr = true →
      ∃ u, exec (.queueCreate tag) s = .next u ∧ u.answered tag 0 0 0 ∧
        u.tnt[c.tenant].qp q = Qp.created (dbits c.desc.aux0 28 16) c.desc.daddr c.desc.haddr ∧
        (u.troutes[trouteIx c.tenant q]).valid = true ∧ (∀ p, p ≠ q → u.tnt[c.tenant].qp p = s.tnt[c.tenant].qp p) ∧
        (∀ t : Tid, t ≠ c.tenant → u.tnt[t] = s.tnt[t]) ∧ u.nvm = s.nvm ∧ u.hdr = s.hdr) ∧
    (s.ready tag 0x42 c → (s.tnt[c.tenant].qp q).enabled = true →
      ∃ u x, exec (.queueDelete tag) s = .next u ∧ u.cmd tag = some x ∧ x.phase = .waiting ∧
        ((u.tnt[c.tenant].qp q).draining = true ∨ (u.tnt[c.tenant].qp q).enabled = false) ∧
        (∀ p, p ≠ q → u.tnt[c.tenant].qp p = s.tnt[c.tenant].qp p) ∧ (∀ t : Tid, t ≠ c.tenant → u.tnt[t] = s.tnt[t]))) ∧
  (∀ (s : State) (tag : Tag) (c : Cmd),
    (∀ d, s.ready tag 0x43 c → s.ciph.g.fenced = false → wrapFormatOk c.bytes = true →
      c.desc.len.toNat = (if c.bytes.getD 5 0 = 1 then 176 else 144) → s.sign.transport = some d → s.pipeFull .g = false →
      (s.drawMasks .g (if c.bytes.getD 5 0 = 1 then 5 else 3)).isSome = true →
      (∀ k id, unwrapKey d c.tenant c.bytes = .xts k id → ∃ u, exec (.keyLoad tag) s = .next u ∧
        u.tnt[c.tenant].keyWait = s.tnt[c.tenant].keyWait ++
          [.loadX k id (if c.desc.aux0.getLsbD 0 then some c.bytes else none) tag] ∧ u.cmd tag = some { c with phase := .waiting } ∧
        u.tnt[c.tenant].xts = s.tnt[c.tenant].xts ∧ u.nvm = s.nvm) ∧
      (unwrapKey d c.tenant c.bytes = .auth → ∃ u, exec (.keyLoad tag) s = .next u ∧ u.answered tag 0x0A 0 0 ∧
        u.tnt[c.tenant].keyWait = s.tnt[c.tenant].keyWait ∧ u.nvm = s.nvm)) ∧
    (s.ready tag 0x44 c → ∃ u, exec (.keyClear tag) s = .next u ∧
      u.tnt[c.tenant].keyWait = s.tnt[c.tenant].keyWait ++ [.clear (c.desc.aux0.getLsbD 0) (c.desc.aux0.getLsbD 1) tag] ∧ u.cmd tag = some { c with phase := .waiting } ∧ u.nvm = s.nvm) ∧
    (∀ (t : Tid) (x g : Bool) (r : List KeyChange), s.tnt[t].keyWait = .clear x g tag :: r → s.active = true → s.pageQuiet t = true →
      s.tnt[t].resetDone = true → s.cmd tag = some c →
      ∃ u, exec (.keyPageChange t) s = .next u ∧ u.answered tag 0 0 0 ∧ u.tnt[t].keyWait = r ∧
        (x = true → u.tnt[t].xts = none ∧ u.nvm.keysX.has t.1 = false) ∧ (g = true → u.tnt[t].gcm = none ∧ u.nvm.keysG.has t.1 = false) ∧
        (x = false → u.tnt[t].xts = s.tnt[t].xts) ∧ (g = false → u.tnt[t].gcm = s.tnt[t].gcm)))

/-- FEATURE: HOLD_MINUTES of the tenant it names is read, or set to a value of 0 to 60 and kept; the display item is read, or
replaced by forty printing characters with its life in minutes; and the budget is read, with the slots the tenant holds as
TNT_DIRTY_HELD gives them (07 R520, R181, R222; 12 R390).
METER_READ: with no round being programmed and room for the 144 bytes of head and signature, tenant 0 reads any tenant's
accumulators, every tenant's with MTR_TOTAL, and the load profile, each under the identity key's signature; a tenant that
asks for another's completes with ST_DENIED and reason 0x11 (07 R204; 12 R386). It states the completion of
`featureHoldMinutesGet`, `featureHoldMinutesSet`, `featureDisplayItemGet`, `featureDisplayItemSet`, `featureBudgetGet`,
`meterReadTenant`, `meterReadAll` and `meterReadLoadProfile`. -/
def Obligations.FeaturesAndMeterReads : Prop :=
  (∀ (s : State) (tag : Tag) (c : Cmd), s.ready tag 0x45 c →
    (∀ t, c.desc.sel = 1 → s.holdTarget c = some t →
      (c.desc.setBit = false → exec (.featureHoldMinutesGet tag) s = .next (s.finish tag 0 0 (res s.tnt[t].holdMin))) ∧
      (c.desc.setBit = true → dbits c.desc.aux1 7 0 ≤ 60 → ∃ u, exec (.featureHoldMinutesSet tag) s = .next u ∧ u.answered tag 0 0 0 ∧
        u.tnt[t] = { s.tnt[t] with holdMin := dbits c.desc.aux1 7 0 } ∧ (∀ x : Tid, x ≠ t → u.tnt[x] = s.tnt[x]) ∧
        (u.nvm.holdMin.find t.1).map (fun p => p.1) = some (dbits c.desc.aux1 7 0)) ∧
      (c.desc.setBit = true → 60 < dbits c.desc.aux1 7 0 → exec (.featureHoldMinutesSet tag) s = .next (s.finish tag 0x03 0 0))) ∧
    (c.desc.sel = 2 → c.desc.setBit = false → exec (.featureDisplayItemGet tag) s =
      .next ((s.sendData c 0 (s.disp.host.getD (List.replicate 40 0x20)) false).finish tag 0 0 (res s.hostLife))) ∧
    (c.desc.sel = 2 → c.desc.setBit = true → s.hasFeat c.tenant 8 = true → (∀ b ∈ c.bytes, 0x20 ≤ b.toNat ∧ b.toNat ≤ 0x7E) →
      exec (.featureDisplayItemSet tag) s = .next (({ s with
        disp := { s.disp with host := some c.bytes, life := dbits c.desc.aux1 7 0, hostAt := s.now } } : State).finish tag 0 0 0)) ∧
    (c.desc.sel = 3 → ∃ r, exec (.featureBudgetGet tag) s = .next (s.finish tag 0 0 r) ∧
      r.toNat % 2 ^ 32 = s.budget % 2 ^ 20 ∧
      (s.hasFeat c.tenant 13 = true → r.toNat / 2 ^ 32 = s.heldBy c.tenant % 2 ^ 20) ∧
      (s.hasFeat c.tenant 13 = false → r.toNat / 2 ^ 32 = 0))) ∧
  (∀ (s : State) (tag : Tag) (c : Cmd) (k : Hash), s.ready tag 0x47 c → s.mtr.pendingOn = false → s.sign.identity = some k →
    (c.desc.sel = 1 → dbits c.desc.aux0 15 8 < 64 → c.tenant = 0 ∨ dbits c.desc.aux0 15 8 = c.tenant.1 →
      144 + (s.tenantAccs (dbits c.desc.aux0 15 8)).length ≤ c.desc.len.toNat →
      exec (.meterReadTenant tag) s = .next ((s.sendData c 0 (s.reading k 1 (BitVec.ofNat 8 (dbits c.desc.aux0 15 8)) c.hdrBytes
        (s.tenantAccs (dbits c.desc.aux0 15 8))) false).finish tag 0 0 0)) ∧
    (c.desc.sel = 1 → c.tenant ≠ 0 → dbits c.desc.aux0 15 8 ≠ c.tenant.1 →
      exec (.meterReadTenant tag) s = .next (s.finish tag 0x0D 0x11 0)) ∧
    (c.desc.sel = 2 → c.tenant = 0 → 144 + ((List.range 64).flatMap s.tenantAccs).length + 8 ≤ c.desc.len.toNat →
      exec (.meterReadAll tag) s = .next ((s.sendData c 0 (s.reading k 2 noTenant c.hdrBytes
        ((List.range 64).flatMap s.tenantAccs ++ leBytes 8 s.nvm.total)) false).finish tag 0 0 0)) ∧
    (c.desc.sel = 3 → c.tenant = 0 → ∀ body, body = ((s.nvm.profile.filter (fun r => decide (c.desc.aux1.toNat ≤ r.seq))).take
        (min 1024 ((c.desc.len.toNat - 144) / 64))).flatMap ProfRec.bytes64 → 144 + body.length ≤ c.desc.len.toNat →
      exec (.meterReadLoadProfile tag) s =
        .next ((s.sendData c 0 (s.reading k 3 noTenant c.hdrBytes body) false).finish tag 0 0 0)))

/-- The clock: GET_NONCE makes a nonce live, which lapses 10 minutes after; SET_HOST with a value of 1577836800
or later sets the clock to it; SET_SIGNED with a token that verifies sets it and consumes the nonce, and with one that does
not consumes the nonce and answers ST_AUTH; and a signed setting lapses to HOST after a day (12 R374 to R376). With no round
running, the boundary of a quarter hour that has passed adds the staging sums to MTR_TOTAL and leaves them pending, the ended
interval's record stands and the counts of the next begin; the sample of a minute that has begun adds to the staging sum of every
tenant and class the KiB it occupies, and changes nothing else; and neither does anything before its time (12 R378, R382, R383). It
states the completion of `getNonce`, `setHost`, `setSigned`, `nonceLapse`, `signedLapse`, `quarterHourBoundary` and
`meterMinuteSample`. -/
def Obligations.TimeIsSetAndMetered : Prop :=
  (∀ (s : State) (tag : Tag) (c : Cmd),
    (s.ready tag 0x48 c → c.desc.sel = 0 → s.sign.drbg = 1#2 → ∃ u q, exec (.getNonce tag) s = .next u ∧ u.answered tag 0 0 0 ∧
      u.mtr = { s.mtr with nonce := some (q, s.now) } ∧ u.nvm = s.nvm) ∧
    (s.ready tag 0x48 c → c.desc.sel = 1 → s.mtr.pendingOn = false → 1577836800 ≤ c.desc.aux1.toNat →
      ∃ u, exec (.setHost tag) s = .next u ∧ u.answered tag 0 0 0 ∧ u.mtr.utcState = .host ∧ u.mtr.utcBase = c.desc.aux1.toNat ∧
        u.mtr.utcAt = s.now ∧ u.nvm.timeSetEver = true ∧ u.nvm.accs = s.nvm.accs ∧ u.nvm.total = s.nvm.total) ∧
    (s.ready tag 0x48 c → c.desc.sel = 1 → s.mtr.pendingOn = false → c.desc.aux1.toNat < 1577836800 →
      exec (.setHost tag) s = .next (s.finish tag 0x03 0 0)) ∧
    (∀ q, s.ready tag 0x48 c → c.desc.sel = 2 → s.mtr.pendingOn = false → s.sign.blocked = false → s.liveNonce = some q →
      ∃ u, exec (.setSigned tag) s = .next u ∧ u.mtr.nonce = none ∧
        (s.tokenOk c.bytes q = false → u.answered tag 0x0A 0 0 ∧ u.mtr.utcBase = s.mtr.utcBase) ∧
        (s.tokenOk c.bytes q = true → 1577836800 ≤ fieldLe c.bytes 0x28 8 →
          u.answered tag 0 0 0 ∧ u.mtr.utcState = .signed ∧ u.mtr.utcBase = fieldLe c.bytes 0x28 8)) ∧
    (∀ q a, s.mtr.nonce = some (q, a) →
      (a + 600000000 ≤ s.now → exec .nonceLapse s = .next { s with mtr := { s.mtr with nonce := none } }) ∧
      (s.now < a + 600000000 → exec .nonceLapse s = .next s)) ∧
    (s.mtr.utcState = .signed → s.mtr.signedAt + 86400 ≤ s.opSecs →
      exec .signedLapse s = .next { s with mtr := { s.mtr with utcState := .host } })) ∧
  (∀ s : State, (s.intervalClock < s.mtr.next → exec .quarterHourBoundary s = .next s) ∧
    (s.intervalClock / 60 = s.mtr.minute → exec .meterMinuteSample s = .next s)) ∧
  (∀ s : State, s.serving = true → s.mtr.pendingOn = false →
    (s.mtr.next ≤ s.intervalClock → exec .quarterHourBoundary s = .next { s with
      nvm := { s.nvm with total := s.nvm.total + s.mtr.staging.toList.sum },
      mtr := { s.mtr with
        pending := s.mtr.staging.toList.sum, pendingOn := true, closing := some s.intervalRecord, bytes := Vector.replicate 4 0,
        tmax := s.dieMax, starts := 0, squalls := 0, flags := if 0 < s.thr.level.1 then 0x20#16 else 0#16,
        next := s.intervalClock / 900 * 900 + 900 } }) ∧
    (s.intervalClock / 60 ≠ s.mtr.minute → ∃ v : Vector Nat 256, exec .meterMinuteSample s =
        .next { s with mtr := { s.mtr with staging := v, minute := s.intervalClock / 60 } } ∧
      ∀ (t : Tid) (cls : Fin 4), v.toList[4 * t.1 + cls.1]? =
        (s.mtr.staging.toList[4 * t.1 + cls.1]?).map (fun n => n + s.occupancy t cls.1)))

/-- IMAGE_STAGE past its gates writes what it carries at the offset the session has reached, raises that offset by the length
and sets CHUNK; IMAGE_COMMIT of a session whose target passes its checks writes the first four bytes and closes the session;
both refuse, with the lowest code that holds, while the device moves, the supply is low, the hold-up is not good or updates
are locked; and throttled under Vane level 6 or 7 they answer ST_BUSY_THERMAL (04 R104 to R107; 15 R479). It states the completion
of `imageStage` and `imageCommit`. -/
def Obligations.ImagesAreStaged : Prop :=
  ∀ (s : State) (tag : Tag) (c : Cmd),
    (s.ready tag 0x49 c → 6 ≤ s.thr.level.1 → exec (.imageStage tag) s = .next (s.finish tag 0x11 0 0)) ∧
    (s.ready tag 0x4A c → 6 ≤ s.thr.level.1 → exec (.imageCommit tag) s = .next (s.finish tag 0x11 0 0)) ∧
    (s.ready tag 0x49 c → s.thr.level.1 < 6 → s.refusalMask ≠ 0 → ∃ u, exec (.imageStage tag) s = .next u ∧
      u.answered tag 0x0D (BitVec.ofNat 8 (lowestCode s.refusalMask)) 0 ∧ u.nvm = s.nvm) ∧
    (∀ g, s.ready tag 0x49 c → s.thr.level.1 < 6 → s.refusalMask = 0 → c.desc.aux1.toNat ≠ 0 → s.nvm.stage_ = some g →
      g.target = c.desc.sel → g.offset = c.desc.aux1.toNat → c.desc.aux1.toNat % 256 = 0 →
      g.offset + c.desc.len.toNat ≤ (s.targetArea g.target g.slotB).2 →
      ∃ u, exec (.imageStage tag) s = .next u ∧ u.answered tag 0 0 0 ∧ u.bit pUPD 1 = true ∧
        u.nvm = { s.nvm with
          nor := s.nvm.nor.setList ((s.targetArea g.target g.slotB).1 + g.offset) c.bytes,
          stage_ := some { g with offset := g.offset + c.bytes.length } }) ∧
    (∀ g, s.ready tag 0x4A c → s.thr.level.1 < 6 → s.refusalMask = 0 → s.nvm.stage_ = some g → g.target ≠ 0 →
      s.commitFault c.desc.sel g = none →
      exec (.imageCommit tag) s = .next (({ s with nvm := { s.nvm with
        nor := s.nvm.nor.setList (s.targetArea g.target g.slotB).1 g.head, stage_ := none } } : State).finish tag 0 0 0)) ∧
    (∀ g, s.ready tag 0x4A c → s.thr.level.1 < 6 → s.refusalMask = 0 → s.nvm.stage_ = some g → g.target = 0 →
      s.commitFault c.desc.sel g = none →
      ∃ u, exec (.imageCommit tag) s = .next u ∧ u.answered tag 0 0 0 ∧ u.nvm.stage_ = none)

/-- The owner: GET_CHALLENGE makes a challenge live, which lapses 10 minutes after its issue; ENROL programs the first slot
and is refused once one is; LOCK, UNLOCK and TRANSFER under a live challenge and the owner's signature consume the challenge
and set the lock, clear it, or program the next slot, and with another signature answer ST_OWNER_SIG and change no slot and
no lock; a key or signature field an operation does not use must be zero (07 R212, R213, R225). It states the completion of
`getChallenge`, `enrol`, `lockUpdates`, `unlockUpdates`, `transfer` and `challengeLapse`. -/
def Obligations.TheOwnerActs : Prop :=
  (∀ (s : State) (tag : Tag) (c : Cmd), s.ready tag 0x4B c →
    (c.desc.sel = 0 → s.sign.drbg = 1#2 → allZero (slice c.bytes 0 64) = true → allZero (slice c.bytes 64 64) = true →
      ∃ u q, exec (.getChallenge tag) s = .next u ∧ u.answered tag 0 0 0 ∧
        u.own.challenge = some (q, s.now) ∧ u.nvm = s.nvm) ∧
    (c.desc.sel = 0 → allZero (slice c.bytes 0 64) = false ∨ allZero (slice c.bytes 64 64) = false →
      exec (.getChallenge tag) s = .next (s.finish tag 0x02 0x01 0)) ∧
    (c.desc.sel = 1 → allZero (slice c.bytes 64 64) = true → Config.validPoint (wideOf (slice c.bytes 0 64)) = true →
      (s.nvm.ownerSlots ≠ [] → exec (.enrol tag) s = .next (s.finish tag 0x0D 0x22 0)) ∧
      (s.nvm.ownerSlots = [] → ∃ u, exec (.enrol tag) s = .next u ∧ u.answered tag 0 0 0 ∧
        u.nvm = { s.nvm with ownerSlots := [Config.sha256 (slice c.bytes 0 64)], ownerKey := wideOf (slice c.bytes 0 64) })) ∧
    (∀ q, s.nvm.ownerSlots ≠ [] → s.liveChallenge = some q →
      (∀ b : Bool, c.desc.sel = (if b then 2 else 3) → allZero (slice c.bytes 0 64) = true →
        ∃ u, exec (if b then .lockUpdates tag else .unlockUpdates tag) s = .next u ∧ u.own.challenge = none ∧
          u.nvm.ownerSlots = s.nvm.ownerSlots ∧
          (Config.ecdsaVerify s.nvm.ownerKey (ownerMessage q (if b then 2 else 3) []) (wideOf (slice c.bytes 64 64)) = true →
            u.answered tag 0 0 0 ∧ u.nvm.updLock = b) ∧
          (Config.ecdsaVerify s.nvm.ownerKey (ownerMessage q (if b then 2 else 3) []) (wideOf (slice c.bytes 64 64)) = false →
            u.answered tag 0x0E 0 0 ∧ u.nvm.updLock = s.nvm.updLock)) ∧
      (c.desc.sel = 4 → Config.validPoint (wideOf (slice c.bytes 0 64)) = true → s.nvm.ownerSlots.length < 8 →
        ∃ u, exec (.transfer tag) s = .next u ∧ u.own.challenge = none ∧ u.nvm.updLock = s.nvm.updLock ∧
          (Config.ecdsaVerify s.nvm.ownerKey (ownerMessage q 4 (hashBytes (Config.sha256 (slice c.bytes 0 64))))
              (wideOf (slice c.bytes 64 64)) = true →
            u.answered tag 0 0 0 ∧ u.nvm.ownerSlots = s.nvm.ownerSlots ++ [Config.sha256 (slice c.bytes 0 64)]) ∧
          (Config.ecdsaVerify s.nvm.ownerKey (ownerMessage q 4 (hashBytes (Config.sha256 (slice c.bytes 0 64))))
              (wideOf (slice c.bytes 64 64)) = false →
            u.answered tag 0x0E 0 0 ∧ u.nvm.ownerSlots = s.nvm.ownerSlots)))) ∧
  (∀ (s : State) q a, s.own.challenge = some (q, a) →
    (a + 600000000 ≤ s.now → exec .challengeLapse s = .next s.dropChallenge) ∧
    (s.now < a + 600000000 → exec .challengeLapse s = .next s))

/-! ## 12 and 15: display, housekeeping, life and debug -/

/-- A parity mismatch is counted with its stage and its tenant: the first within a second runs the blocks again under fresh
masks, or waits where the lanes have none left, and the second fences the pipe; a pipe that has waited 10 µs for masks
sets MASK_STALL, and one whose stalls have lasted 100 ms is fenced (08 R235 to R239). A lane's reseed clears its
count of outputs and takes one DRBG request; the DRBG reseeds itself after 65,536 requests or a second; and a failed health
test is counted, the first two of a start restarting the source and the third putting the DRBG in ERROR (08 R235, R251,
R252). It states the completion of `parityMismatch`, `maskStarved`, `laneReseed`, `drbgReseed` and `healthTestFailure`. -/
def Obligations.PipesAndEntropyAreWatched : Prop :=
  (∀ (s : State) (p : Pipe), (s.ciph.pipe p).fenced = false → s.awake = true →
    (∀ (stage : Fin 28) (b : PipeBlk), (s.ciph.pipe p).blocks[stage.1]? = some b →
      (∀ a, (s.ciph.pipe p).faultAt = some a → a + 1000000 < s.now) →
      ∃ u, exec (.parityMismatch p stage) s = .next u ∧ u.bit pCIPH (pipeNo p) = true ∧
        (u.ciph.pipe p).faults = satInc (s.ciph.pipe p).faults ∧ (u.ciph.pipe p).fStage = stage.1 ∧
        (u.ciph.pipe p).fTenant = b.tenant.1 ∧ (u.ciph.pipe p).faultAt = some s.now ∧
        (u.ciph.pipe p).blocks = (s.ciph.pipe p).blocks ∧ (u.ciph.pipe p).fenced = false ∧
        (∀ s1, s.drawMasks p (s.ciph.pipe p).blocks.length = some s1 → u.ciph.lanes = s1.ciph.lanes ∧
          (u.ciph.pipe p).maskWait = (s.ciph.pipe p).maskWait) ∧
        (s.drawMasks p (s.ciph.pipe p).blocks.length = none → (u.ciph.pipe p).maskWait = true)) ∧
    (∀ (stage : Fin 28) (b : PipeBlk) (a : Nat), (s.ciph.pipe p).blocks[stage.1]? = some b →
      (s.ciph.pipe p).faultAt = some a → s.now ≤ a + 1000000 →
      ∃ u, exec (.parityMismatch p stage) s = .next u ∧ (u.ciph.pipe p).fenced = true ∧ u.bit pCIPH (2 + pipeNo p) = true) ∧
    ((s.ciph.pipe p).maskWait = true → s.now < (s.ciph.pipe p).waitAt + 10 → exec (.maskStarved p) s = .next s) ∧
    ((s.ciph.pipe p).maskWait = true → (s.ciph.pipe p).waitAt + 10 ≤ s.now →
      ((s.ciph.pipe p).stalledFor s.now < 100000 → exec (.maskStarved p) s = .next (s.raise pCIPH 4)) ∧
      (100000 ≤ (s.ciph.pipe p).stalledFor s.now →
        ∃ u, exec (.maskStarved p) s = .next u ∧ (u.ciph.pipe p).fenced = true ∧ u.bit pCIPH 4 = true ∧
          u.bit pCIPH (2 + pipeNo p) = true))) ∧
  (∀ (s : State), s.sign.drbg = 1#2 →
    (∀ lane : Fin 112, ∃ u, exec (.laneReseed lane) s = .next u ∧ u.ciph.lanes[lane] = 0 ∧
      (∀ k : Fin 112, k ≠ lane → u.ciph.lanes[k] = s.ciph.lanes[k]) ∧ u.sign = { s.sign with requests := s.sign.requests + 1 }) ∧
    (65536 ≤ s.sign.requests ∨ s.sign.reseedAt + 1000000 ≤ s.now → exec .drbgReseed s = .next { s with
      sign := { s.sign with reseeds := satInc s.sign.reseeds, requests := 0, reseedAt := s.now } }) ∧
    (s.sign.requests < 65536 → s.now < s.sign.reseedAt + 1000000 → exec .drbgReseed s = .next s) ∧
    (∀ test : HealthTest, ∃ u, exec (.healthTestFailure test) s = .next u ∧ u.bit pSIGN 1 = true ∧ u.sign.healthLatched = true ∧
      u.sign.repFails = (if test = .repetition then satInc s.sign.repFails else s.sign.repFails) ∧
      u.sign.propFails = (if test = .proportion then satInc s.sign.propFails else s.sign.propFails) ∧
      (s.sign.restarts < 2 → u.sign.restarts = s.sign.restarts + 1 ∧ u.sign.drbg = 1#2) ∧
      (2 ≤ s.sign.restarts → u.sign.restarts = s.sign.restarts ∧ u.sign.drbg = 3#2 ∧ u.bit pSIGN 0 = true)))

/-- A dwell second that is due, of a running display with an item to show, sends its two lines to the display's queue and touches
nothing else; with no item to show, or before its time, it changes nothing; and a host item lapses when its minutes have passed,
not before, and never when it has none (12 R388 to R391). A housekeeping slot whose 4 ms are over keeps its mean reading and moves
to the next of sixteen; the round's end judges the hottest diode: Vane goes to the level of R477 and R478, and 125 °C starts Squall
(15 R474 to R481); it takes the DRAM's two MR4 readings as they are (10 R319). The ageing hour, once the hour is over, keeps the
eight means, counts the hours each has stood above a threshold, and raises the derating stage with STAGE set when they call for a
higher one; an hour of operation goes to the system area (15 R485 to R487). It states the completion of `displayDwellSecond`,
`hostItemExpired`, `housekeepingSlot`, `housekeepingRound`, `ageingHour` and `operatingHour`. -/
def Obligations.HouseIsKept : Prop :=
  (∀ s : State,
    (∀ d, s.boot.desc = some d → s.disp.running = true → s.active = true → s.dbg.seqHalted.getLsbD 9 = false →
      (s.showable d s.disp.item = none → exec .displayDwellSecond s = .next s) ∧
      (s.now < s.disp.dwellAt → exec .displayDwellSecond s = .next s) ∧
      (∀ k l, s.disp.dwellAt ≤ s.now → s.showable d s.disp.item = some k → s.displayItem (d.item k).1 (d.item k).2.2 = some l →
        ∃ i n a b, exec .displayDwellSecond s = .next { s with disp := { s.disp with
          item := i, second := n, dwellAt := s.now + 1000000, waiting := s.disp.waiting ++ [(false, a), (false, b)] } })) ∧
    (∀ x, s.disp.host = some x →
      (s.disp.life ≠ 0 → s.disp.hostAt + s.disp.life * 60000000 ≤ s.now → exec .hostItemExpired s =
        .next (({ s with disp := { s.disp with host := none, life := 0 } } : State).raise pDISP 0)) ∧
      (s.disp.life = 0 ∨ s.now < s.disp.hostAt + s.disp.life * 60000000 → exec .hostItemExpired s = .next s))) ∧
  (∀ s : State, s.hkpRuns = true →
    (∀ (reading : Int) (ok : Bool), s.slotOver = true → ∃ u, exec (.housekeepingSlot reading ok) s = .next u ∧ u.hkp.slot = s.hkp.slot + 1 ∧
      u.hkp.reads = s.hkp.reads.set s.hkp.slot reading ∧ u.hkp.rounds = s.hkp.rounds ∧
      u.hkp.ended = (s.hkp.ended || decide (s.hkp.slot = 15)) ∧ u.thr = s.thr) ∧
    (∀ (reading : Int) (ok : Bool), s.slotOver = false → exec (.housekeepingSlot reading ok) s = .next s) ∧
    (∀ mr4 : Vector Byte 2, s.hkp.ended = true → ∃ u, exec (.housekeepingRound mr4) s = .next u ∧ u.hkp.ended = false ∧ u.hkp.rounds = satInc s.hkp.rounds ∧
      u.hkp.reads = s.hkp.reads ∧ u.thr.hot = s.hkp.hottest ∧ u.thr.level = vaneLevel s.nvm.stage.1 s.thr.level s.hkp.hottest ∧
      (500 ≤ s.hkp.hottest → u.squall.running = true) ∧ (s.dram.trained = true → u.dram.mr4 = mr4))) ∧
  (∀ s : State, s.active = true →
    (s.opSecs / 3600 ≤ s.nvm.ageHour → exec .ageingHour s = .next s) ∧
    (s.nvm.ageHour < s.opSecs / 3600 → s.boot.booted.isSome = true →
      ∃ u, exec .ageingHour s = .next u ∧ (∀ k : Fin 8, u.nvm.mons[k] = s.hourlyMean k) ∧ u.nvm.ageHour = s.opSecs / 3600 ∧
        u.nvm.monOver = Vector.ofFn (fun k : Fin 8 => overHours s.nvm.monOver[k] (s.hourlyMean k)) ∧
        u.nvm.stage.1 = max s.nvm.stage.1 (stageOf u.nvm.monOver) ∧ (s.nvm.stage.1 < u.nvm.stage.1 → u.bit pLIFE 0 = true)) ∧
    (s.boot.counted = true → s.nvm.optStored < s.opSecs / 3600 * 3600 →
      exec .operatingHour s = .next { s with nvm := { s.nvm with optStored := s.opSecs / 3600 * 3600, optExact := false } }))

/-- TAP instructions: one whose scope is open, or that needs none, is selected, and IDCODE shifts out 0x140644F5; one whose
scope is not open selects BYPASS and is counted (15 R488, R489). UNLOCK: a token that checks opens the scopes it names, uses
up the challenge, counts in the system area, zeroises every tenant's keys and takes away the device's private keys; another
token uses up the challenge, is counted and opens nothing (15 R492, R493). The debug modules: with DMI selected a core is
halted, resumed, stepped, given a trigger, and a register of it, or a word on the system bus (the model's choice, log entry 145), written and read back; with SEQDBG selected an engine is halted, resumed, stepped
and given a breakpoint, and its address is read (15 R490, R491). It states the completion of
`tapInstruction`, `unlock`, `dmi` and `seqdbg`. -/
def Obligations.DebugNeedsUnlock : Prop :=
  (∀ (s : State) (code : BitVec 5),
    (exec (.tapInstruction 0x02#5) s = .next (({ s with dbg := { s.dbg with ir := 0x02#5 } } : State).emit (.tdo [0x140644F5#32]))) ∧
    (tapKnown code.toNat = true → (∀ k, tapScope code.toNat = some k → s.dbg.unlocked = true ∧ s.dbg.scope.getLsbD k = true) →
      ∃ u, exec (.tapInstruction code) s = .next u ∧ u.dbg.ir = code ∧ u.dbg.denied = s.dbg.denied ∧ u.nvm = s.nvm) ∧
    (∀ k, tapScope code.toNat = some k → s.dbg.unlocked = false ∨ s.dbg.scope.getLsbD k = false →
      exec (.tapInstruction code) s = .next { s with dbg := { s.dbg with ir := 0x1F#5, denied := satInc s.dbg.denied } }) ∧
    s.chipReset.dbg.unlocked = false ∧ s.chipReset.dbg.scope = 0#3 ∧
    (∃ u, exec .powerOnReset s = .next u ∧ u.dbg.unlocked = false)) ∧
  (∀ (s : State) (token : Vector Byte 176), s.dbg.ir = 0x13#5 → s.active = true →
    (s.tokenAccepted token.toList = true → ∃ u, exec (.unlock token) s = .next u ∧ u.dbg.unlocked = true ∧
      u.dbg.scope = BitVec.ofNat 3 (fieldLe token.toList 0x28 4) ∧ u.dbg.challenge = none ∧ u.nvm.unlocks = s.nvm.unlocks + 1 ∧
      (∀ t : Tid, (u.tnt[t]).xts = none ∧ (u.tnt[t]).gcm = none) ∧ u.sign.identity = none ∧
      u.sign.transport = none ∧ u.sign.blocked = true) ∧
    (s.tokenAccepted token.toList = false → ∃ u, exec (.unlock token) s = .next u ∧ u.bit pDBG 1 = true ∧
      u.dbg = { s.dbg with challenge := none, fails := satInc s.dbg.fails } ∧ u.sign = s.sign)) ∧
  (∀ s : State, s.awake = true →
    (s.dbg.ir = 0x11#5 → ∀ c : Fin 4,
      exec (.dmi (.halt c)) s = .next { s with dbg := { s.dbg with halted := s.dbg.halted ||| (1#4 <<< c.1) } } ∧
      (c ≠ 1 ∨ s.med.rewrites = [] →
        exec (.dmi (.resume c)) s = .next { s with dbg := { s.dbg with halted := s.dbg.halted &&& ~~~(1#4 <<< c.1) } }) ∧
      (∃ u, exec (.dmi (.resume c)) s = .next u ∧ u.dbg.halted = s.dbg.halted &&& ~~~(1#4 <<< c.1)) ∧
      (s.dbg.halted.getLsbD c.1 = true →
        exec (.dmi (.singleStep c)) s = .next { s with dbg := { s.dbg with steps := s.dbg.steps + 1 } }) ∧
      (∀ (k : Fin 4) (v : DWord), ∃ u, exec (.dmi (.setTrigger c k (some v))) s = .next u ∧
        u.dbg.triggers.find (4 * c.1 + k.1) = some v ∧ u = { s with dbg := { s.dbg with triggers := u.dbg.triggers } }) ∧
      (∀ (n : BitVec 16) (v : DWord), ∃ u, exec (.dmi (.writeReg c n v)) s = .next u ∧ u.dbg.ir = 0x11#5 ∧ u.awake = true ∧
        ∃ x, exec (.dmi (.readReg c n)) u = .next x ∧ x.dbg.lastRead = v) ∧
      (∀ (a : DWord) (v : Word), ∃ u, exec (.dmi (.busWrite a v)) s = .next u ∧ u.dbg.ir = 0x11#5 ∧ u.awake = true ∧
        ∃ x, exec (.dmi (.busRead a)) u = .next x ∧ x.dbg.lastRead = v.setWidth 64)) ∧
    (s.dbg.ir = 0x12#5 → ∀ e : Fin 10,
      exec (.seqdbg e .halt) s = .next { s with dbg := { s.dbg with seqHalted := s.dbg.seqHalted ||| (1#10 <<< e.1) } } ∧
      exec (.seqdbg e .resume) s = .next { s with dbg := { s.dbg with seqHalted := s.dbg.seqHalted &&& ~~~(1#10 <<< e.1) } } ∧
      (s.dbg.seqHalted.getLsbD e.1 = true →
        exec (.seqdbg e .step) s = .next { s with dbg := { s.dbg with steps := s.dbg.steps + 1 } }) ∧
      (∀ v : Word, exec (.seqdbg e (.setBreak (some v))) s =
        .next { s with dbg := { s.dbg with breaks := s.dbg.breaks.put e.1 v } }) ∧
      exec (.seqdbg e .readAddr) s = .next (({ s with dbg := { s.dbg with
        lastRead := (Config.microPc e.1 s.dbg.steps).setWidth 64 } } : State).emit (.tdo [Config.microPc e.1 s.dbg.steps]))))

/-! ## 05 and 13: registers and ports -/

/-- A write that reaches its register and that nothing refuses acts and is stored, and a field that only holds a value reads
it back; a write with a byte enable clear, to a reserved offset, or with nothing writable in its register changes nothing but
the error count of a page (00 R8 to R10; 05 R120, R121, R123). An access to a reserved offset is counted once in the page R6
and R117 name and touches no register, and a read of one is answered with 0; one without a byte enabled is not counted, and at
level NONE there is neither count nor answer (00 R6; 05 R117, R120). RST_CTRL with its key starts the software reset's Squall, or clears RST_CAUSE; PROBE_NOW asks for a hold-up probe when
the last began 10 s ago or none has run (03 R62, R63, R72, R82, R84). A doorbell with a 1 in its reserved bits [31:12] moves its index and
is counted READ_ONLY in the range's page (05 R118, R120; 00 R10; the model's choice, log entry 138). It states the completion of `registerWrite`, `reservedAccess`,
`softwareReset`, `causeAck` and `probeNow`. -/
def Obligations.RegistersTakeWrites : Prop :=
  (∀ (s : State) (p : Page) (off : BitVec 12) (w : Wr) (r : Reg),
    (s.takes p off.toNat w r →
      exec (.registerWrite p off w) s = .next ((s.touchPage w.src p).applyWrite p off.toNat r false w.val [] (decide (bits w.val 3 0 ≠ 3)))) ∧
    (s.takes p off.toNat w r → p ≠ pIRQ → p ≠ pMED → r.rw ||| r.rwl ≠ 0#32 →
      (∀ (x : State) (v : Word) (b : Bool), x.act p off.toNat v [] b = x) →
      ∃ u, exec (.registerWrite p off w) s = .next u ∧ (∀ d, u.reg p off.toNat d =
        (r.val &&& ~~~ (r.rw ||| r.rwl)) ||| (w.val &&& (r.rw ||| r.rwl))) ∧ u.hdr = s.hdr ∧ u.nvm = s.nvm ∧ u.tnt = s.tnt) ∧
    (w.be = 0#4 → exec (.registerWrite p off w) s = .next s) ∧
    (∀ a, s.reach w.src p off.toNat = .at_ a → w.be ≠ 0#4 →
      ((s.touchPage w.src p).regAt p off.toNat = none → exec (.registerWrite p off w) s =
        .next ((s.touchPage w.src p).countErr p eRESERVED a)) ∧
      ((s.touchPage w.src p).regAt p off.toNat = some r → w.be ≠ 15#4 → exec (.registerWrite p off w) s =
        .next ((s.touchPage w.src p).countErr p ePARTIAL a)) ∧
      ((s.touchPage w.src p).regAt p off.toNat = some r → w.be = 15#4 → (s.touchPage w.src p).resettingPage p = false →
        r.writable = 0#32 → p ≠ pUPD → exec (.registerWrite p off w) s =
        .next ((s.touchPage w.src p).countErr p eREADONLY a)))) ∧
  (∀ (s : State) (space : BarSpace) (off : BitVec 20) (be : BitVec 4),
    (exec (.reservedAccess space off 0#4 false) s = .next s) ∧
    (s.dev.level = .none → ∀ read, exec (.reservedAccess space off be read) s = .next s) ∧
    (∀ p a, s.dev.level ≠ .none → (∀ n, space = .vfBar0 n → n ≠ 0) → s.barOpen (barFn space) = true →
      s.reservedIn space (off.toNat / 4 * 4) = some (p, a) →
      (exec (.reservedAccess space off 0#4 true) s = .next (s.emit (.readData 0))) ∧
      (be ≠ 0#4 → ∀ read : Bool, ∃ u, exec (.reservedAccess space off be read) s = .next u ∧ (u.hdr[p]).errCause = eRESERVED ∧
        (u.hdr[p]).errAddr = a ∧ (u.hdr[p]).errCount = satInc (s.hdr[p]).errCount ∧
        (∀ q : Page, q ≠ p → (u.hdr[q]).errCount = (s.hdr[q]).errCount) ∧ u.regs = s.regs ∧ u.nvm = s.nvm ∧
        (read = true → .readData 0 ∈ u.outbox)))) ∧
  (∀ (s : State) (w : Wr) (r : Reg),
    (s.takes pRST 0x104 w r → (w.val &&& r.writable).getLsbD 0 = true → s.active = true →
      ∃ u, exec (.softwareReset w) s = .next u ∧ u.squall.running = true ∧ u.squall.step = 1 ∧ u.squall.causes = sqSOFTWARE ∧
        u.pcie.squallUr = true) ∧
    (s.takes pRST 0x104 w r → (w.val &&& r.writable).getLsbD 1 = true → (w.val &&& r.writable).getLsbD 0 = false →
      ∃ u, exec (.causeAck w) s = .next u ∧ u.aon = { s.aon with rstCause := 0#7 } ∧ u.squall = s.squall ∧ u.nvm = s.nvm) ∧
    (s.takes pPWR 0x100 w r → (w.val &&& r.writable).getLsbD 1 = true → (∀ a, s.pwr.probeAt = some a → a + 10000000 ≤ s.now) →
      ∃ u, exec (.probeNow w) s = .next u ∧ u.pwr = { s.pwr with probeDue := true } ∧ u.nvm = s.nvm)) ∧
  (∀ (s : State) (v : DbView) (q : Qid) (be : BitVec 4) (val : Word) (t : Tid) (a : Word), s.tnt[t].resetDone = true →
    (s.tnt[t].qp q).enabled = true → bits val 11 0 < (s.tnt[t].qp q).depth → bits val 31 12 ≠ 0 →
    (s.routeDoorbell v q false be = .tenant t a →
      (bits val 11 0 + (s.tnt[t].qp q).depth - (s.tnt[t].qp q).sqTail) % (s.tnt[t].qp q).depth ≤
        ((s.tnt[t].qp q).sqHead + (s.tnt[t].qp q).depth - 1 - (s.tnt[t].qp q).sqTail) % (s.tnt[t].qp q).depth →
      exec (.submissionTailDoorbell v q be val) s =
        .next ((s.hostTouch.countErr (match v with | .pf0 _ => pDEV | .vf _ => pTNT t) eREADONLY a).updQp t q
          (fun y => { y with sqTail := bits val 11 0 }))) ∧
    (s.routeDoorbell v q true be = .tenant t a →
      (bits val 11 0 + (s.tnt[t].qp q).depth - (s.tnt[t].qp q).cqHead) % (s.tnt[t].qp q).depth ≤
        ((s.tnt[t].qp q).cqTail + (s.tnt[t].qp q).depth - (s.tnt[t].qp q).cqHead) % (s.tnt[t].qp q).depth →
      exec (.completionHeadDoorbell v q be val) s =
        .next ((s.hostTouch.countErr (match v with | .pf0 _ => pDEV | .vf _ => pTNT t) eREADONLY a).updQp t q
          (fun y => { y with cqHead := bits val 11 0 }))))

/-- TNT_CTRL and TNT_HOLD_MINUTES: RESET moves the tenant to its next epoch with RESET_DONE 0 and drops the key loads that
wait, while a KEY_CLEAR that waits stands (R220); AQ_ENABLE sets up queue pair 0 at the bases and depth its page holds; FEAT_LOCK freezes the features; and hold minutes
up to 60 are in force and kept (07 R181, R183, R219, R222). The end of a tenant reset, once both pipes are free of the
tenant: RESET_DONE is 1 again under the same epoch, every queue pair of the tenant is disabled and its features are open
again; before that it changes nothing (07 R219, R220). Features: a set within the offer is accepted, by the device and by a
tenant; DEV_CTRL.FEAT_LOCK freezes the device's and offers each tenant what R132 allows it; and after the lock a set changes nothing the
device accepted (05 R129 to R134). It states the completion of `tenantReset`, `aqEnable`, `tntCtrlFeatLock`, `tntHoldMinutes`,
`tenantResetPipesDrained`, `devFeatAccept`, `devCtrlFeatLock` and `tntFeatAccept`. -/
def Obligations.TenantsResetAndNegotiate : Prop :=
  (∀ (s : State) (t : Tid) (w : Wr) (r : Reg), (s.takes (pTNT t) 0x020 w r → (w.val &&& r.writable).getLsbD 0 = true →
      ∃ u, exec (.tenantReset t w) s = .next u ∧ (u.tnt[t]).resetDone = false ∧ (u.tnt[t]).epoch = (s.tnt[t]).epoch + 1 ∧
        (u.tnt[t]).keyWait = (s.tnt[t]).keyWait.filter (fun k => match k with | .clear _ _ _ => true | _ => false)) ∧
    (s.takes (pTNT t) 0x020 w r → (w.val &&& r.writable).getLsbD 0 = false → (w.val &&& r.writable).getLsbD 2 = true →
      ((s.tnt[t]).qp 0).enabled = false →
      ∃ u, exec (.aqEnable t w) s = .next u ∧
        (u.tnt[t]).qp 0 = Qp.created (s.tnt[t]).depth.toNat (s.tnt[t]).sqBase (s.tnt[t]).cqBase ∧
        (u.troutes[trouteIx t 0]).valid = true ∧ (∀ x : Tid, x ≠ t → u.tnt[x] = s.tnt[x])) ∧
    (s.takes (pTNT t) 0x020 w r → (w.val &&& r.writable).getLsbD 0 = false → (w.val &&& r.writable).getLsbD 1 = true → t ≠ 0 →
      ∃ u, exec (.tntCtrlFeatLock t w) s = .next u ∧ (u.tnt[t]).featLock = true ∧ (u.tnt[t]).accept = (s.tnt[t]).accept ∧
        (∀ x : Tid, x ≠ t → u.tnt[x] = s.tnt[x])) ∧
    (s.takes (pTNT t) 0x154 w r →
      ∃ u, exec (.tntHoldMinutes t w) s = .next u ∧ (u.tnt[t]).holdMin = (w.val &&& r.writable).toNat ∧ u.hdr = s.hdr ∧
        (u.nvm.holdMin.find t.1).map (fun x => x.1) = some (w.val &&& r.writable).toNat)) ∧
  (∀ (s : State) (t : Tid), (s.tnt[t]).resetDone = false →
    (s.pipesFree t = false → exec (.tenantResetPipesDrained t) s = .next s) ∧
    (s.pipesFree t = true → s.awake = true →
      ∃ u, exec (.tenantResetPipesDrained t) s = .next u ∧ (u.tnt[t]).resetDone = true ∧ (u.tnt[t]).epoch = (s.tnt[t]).epoch ∧
        (∀ q : Qid, (u.tnt[t]).qp q = Qp.reset) ∧ (u.tnt[t]).featLock = false ∧ (u.tnt[t]).accept = 0#32 ∧ u.nvm.zones = s.nvm.zones)) ∧
  (∀ (s : State) (w : Wr) (r : Reg),
    (∀ upper : Bool, s.takes pDEV (if upper then 0x10C else 0x108) w r →
      ∃ u, exec (.devFeatAccept upper w) s = .next u ∧ u.dev.featErr = false ∧
        (upper = false → u.dev.accept0 = w.val &&& r.writable ∧ u.dev.accept1 = s.dev.accept1) ∧
        (upper = true → u.dev.accept1 = w.val &&& r.writable ∧ u.dev.accept0 = s.dev.accept0)) ∧
    (s.takes pDEV 0x020 w r → (w.val &&& r.writable).getLsbD 0 = true → s.dev.featLock = false →
      ∃ u, exec (.devCtrlFeatLock w) s = .next u ∧ u.dev.featLock = true ∧ u.dev.accept0 = s.dev.accept0 ∧
        ∀ t : Tid, u.tnt[t] = { s.tnt[t] with offer := offerTo s.dev.accept0 t s.tnt[t] }) ∧
    (∀ t : Tid, s.takes (pTNT t) 0x104 w r →
      ∃ u, exec (.tntFeatAccept t w) s = .next u ∧
        u.tnt[t] = { s.tnt[t] with accept := w.val &&& r.writable, featErr := false } ∧ (∀ x : Tid, x ≠ t → u.tnt[x] = s.tnt[x])) ∧
    (∀ a, s.reach w.src pDEV 0x108 = .at_ a → (s.touchPage w.src pDEV).regAt pDEV 0x108 = some r → s.dev.featLock = true →
      ∃ u, exec (.devFeatAccept false w) s = .next u ∧ u.dev = s.dev))

/-- The interrupt registers: a 1 written to INT_STATUS clears its bit and no other, INT_ENABLE holds what is written,
INT_FORCE sets the bits of a block's page as their events would, LOCK sets for good, an allowed route is stored, and a
message that is pending and that nothing holds back goes out once (05 R138 to R143; 00 R9; 06 R155, R156). It states the completion
of `intStatusW1c`, `intEnableWrite`, `intForce`, `lock`, `irqRoute` and `interruptMessage`. -/
def Obligations.InterruptRegistersAct : Prop :=
  ∀ (s : State) (p : Page) (w : Wr) (r : Reg),
    (s.takes p 0x030 w r → ∃ u, exec (.intStatusW1c p w) s = .next u ∧
      (u.hdr[p]).intStatus = (s.hdr[p]).intStatus &&& ~~~ (w.val &&& r.writable) ∧ (u.hdr[p]).intEnable = (s.hdr[p]).intEnable ∧
      (∀ q : Page, q ≠ p → u.hdr[q] = s.hdr[q])) ∧
    (s.takes p 0x034 w r → ∃ u, exec (.intEnableWrite p w) s = .next u ∧ (u.hdr[p]).intEnable = w.val &&& r.writable ∧
      (u.hdr[p]).intStatus = (s.hdr[p]).intStatus ∧ (∀ q : Page, q ≠ p → u.hdr[q] = s.hdr[q])) ∧
    (s.takes p 0x038 w r → tenantOfPage p = none → ∃ u, exec (.intForce p w) s = .next u ∧
      (∀ b : Nat, b < 32 → (w.val &&& r.writable).getLsbD b = true → intMask p &&& bitW true b ≠ 0#32 → u.bit p b = true) ∧
      (∀ b : Nat, s.bit p b = true → u.bit p b = true)) ∧
    (s.takes p 0x0F0 w r → (w.val &&& r.writable).getLsbD 0 = true → ∃ u, exec (.lock p w) s = .next u ∧
      u.hdr[p] = { s.hdr[p] with locked := true } ∧ (∀ q : Page, q ≠ p → u.hdr[q] = s.hdr[q])) ∧
    (∀ n : Fin 576, s.takes pIRQ (0x100 + 4 * n.1) w r → r.act = 0#32 → ∃ u, exec (.irqRoute n w) s = .next u ∧
      (∀ d, u.reg pIRQ (0x100 + 4 * n.1) d = (r.val &&& ~~~ r.writable) ||| (w.val &&& r.writable)) ∧ u.hdr = s.hdr) ∧
    (∀ (fn : Fn) (k : Fin 72), s.mayMessage fn k.1 = true → ∃ u a v, exec (.interruptMessage fn k) s = .next u ∧
      u.outbox = s.outbox ++ [.message fn k.1 a v] ∧ k.1 ∉ (u.pcie.fns[fn]).pending ∧ u.hdr = s.hdr) ∧
    (∀ (fn : Fn) (k : Fin 72), s.mayMessage fn k.1 = false → exec (.interruptMessage fn k) s = .next s)

/-- The PCIe mailbox of ROM recovery: START opens a session of its own on a target and a length the target can have; CHUNK
adds the bytes read at the offset the session has reached; FINISH of an object that is whole and good writes it and resets
the chip, and of another, or of a board key record whose fuses do not read back, ends the session with error 0x04; ABORT ends it
without one; and while the SPI target owns the session START answers BUSY and leaves it (04 R109 to R111, R113). It states the
completion of `updRcvStart`, `updRcvChunk`, `updRcvFinish` and `updRcvAbort`. -/
def Obligations.MailboxSessionsRun : Prop :=
  ∀ (s : State) (w : Wr) (r : Reg), s.takes pUPD 0x130 w r →
    (∀ k n, bits (w.val &&& r.writable) 3 0 = 1 → s.upd.session = none → bits (s.reg pUPD 0x138 0#32) 2 0 = k → k ≤ 4 →
      (s.reg pUPD 0x140 0#32).toNat = n → 0 < n → n ≤ rcvSize k → (k = 4 → n = 160) →
      ∃ u, exec (.updRcvStart w) s = .next u ∧ u.upd = { s.upd with
        session := some { spi := false, target := k, total := n, data := [] }, rcvStatus := 1, rcvError := 0 } ∧ u.nvm = s.nvm) ∧
    (∀ (x : RcvSession) (data : List Byte), bits (w.val &&& r.writable) 3 0 = 2 → s.upd.session = some x → x.spi = false →
      (s.pcie.fns[(0 : Fn)]).bme = true → (s.reg pUPD 0x140 0#32).toNat = data.length → 0 < data.length → data.length ≤ 65536 →
      (s.reg pUPD 0x13C 0#32).toNat = x.data.length → x.data.length + data.length ≤ x.total →
      ∃ u, exec (.updRcvChunk w data false) s = .next u ∧ u.bit pUPD 2 = true ∧ u.nvm = s.nvm ∧ u.upd = { s.upd with
        session := some { x with data := x.data ++ data }, rcvStatus := 3, rcvError := 0 }) ∧
    (∀ (x : RcvSession) (data : List Byte), bits (w.val &&& r.writable) 3 0 = 2 → s.upd.session = some x → x.spi = false →
      (s.pcie.fns[(0 : Fn)]).bme = true → 0 < (s.reg pUPD 0x140 0#32).toNat → (s.reg pUPD 0x140 0#32).toNat ≤ 65536 →
      ∃ u, exec (.updRcvChunk w data true) s = .next u ∧ u.bit pUPD 3 = true ∧
        u.upd = { s.upd with session := none, rcvStatus := 5, rcvError := 3 }) ∧
    (∀ x : RcvSession, bits (w.val &&& r.writable) 3 0 = 3 → s.upd.session = some x → x.spi = false →
      (x.data.length = x.total → (s.touchPage w.src pUPD).rcvOk x.target x.data = true →
        (x.target ≠ 4 ∨ s.nvm.boardHash.isSome = true →
          ∀ b, ∃ u, exec (.updRcvFinish w b) s = .next u ∧ u.upd.session = none ∧ u.dev.level = .none ∧
            u.nvm.nor = (s.rcvWrite x.target x.data).nvm.nor ∧ u.nvm.boardHash = (s.rcvWrite x.target x.data).nvm.boardHash) ∧
        (x.target = 4 → s.nvm.boardHash = none →
          (∃ u, exec (.updRcvFinish w true) s = .next u ∧ u.upd.session = none ∧ u.dev.level = .none ∧
            u.nvm.boardHash = (s.rcvWrite x.target x.data).nvm.boardHash) ∧
          (∃ u, exec (.updRcvFinish w false) s = .next u ∧ u.upd.session = none ∧ u.upd.rcvError = 4 ∧ u.bit pUPD 3 = true ∧
            u.nvm.nor = s.nvm.nor))) ∧
      (x.data.length ≠ x.total → ∀ b, ∃ u, exec (.updRcvFinish w b) s = .next u ∧ u.bit pUPD 3 = true ∧ u.nvm = s.nvm ∧
        u.upd = { s.upd with session := none, rcvStatus := 5, rcvError := 4 })) ∧
    (∀ x : RcvSession, bits (w.val &&& r.writable) 3 0 = 1 → s.upd.session = some x → x.spi = true →
      ∃ u, exec (.updRcvStart w) s = .next u ∧ u.upd.session = some x ∧ u.nvm = s.nvm) ∧
    (∀ x : RcvSession, bits (w.val &&& r.writable) 3 0 = 4 → s.upd.session = some x → x.spi = false →
      ∃ u, exec (.updRcvAbort w) s = .next u ∧ u.upd = { s.upd with session := none, rcvStatus := 0, rcvError := 0 } ∧ u.nvm = s.nvm)

/-- Recovery frames on the SPI target: a frame whose CRC checks runs and is answered with its header and the status; START
opens a session, DATA adds its bytes at the offset the session has reached, FINISH of an object that is whole and good writes it
and resets the chip, and of one that is not whole ends the session with error 0x04, STATUS only answers; a START frame leaves a
session the mailbox owns (R113); and a frame with a bad CRC runs nothing and answers error 0x01 (04 R112). It states the completion
of `recoveryFrameStart`, `recoveryFrameData`, `recoveryFrameFinish` and `recoveryFrameStatus`. -/
def Obligations.RecoveryFramesRun : Prop :=
  ∀ (s : State) (hdr : Word) (l : List Word), s.active = true → s.dev.romRecovery = true → s.dev.pad.spit = true →
    bits hdr 23 0 = l.length →
    (bits hdr 31 24 = 4 → exec (.recoveryFrameStatus hdr l (Config.crc32 (wordBytes (hdr :: l)))) s = .next (s.rcvAnswer hdr)) ∧
    (∀ t n : Word, l = [t, n] → bits hdr 31 24 = 1 → s.upd.session = none → t.toNat ≤ 4 → 0 < n.toNat → n.toNat ≤ rcvSize t.toNat →
      (t.toNat = 4 → n.toNat = 160) →
      ∃ u, exec (.recoveryFrameStart hdr l (Config.crc32 (wordBytes (hdr :: l)))) s = .next u ∧
        u.upd = { s.upd with
          session := some { spi := true, target := t.toNat, total := n.toNat, data := [] }, rcvStatus := 1, rcvError := 0 } ∧
        u.spit.tx = s.spit.tx ++ [hdr, 1#32]) ∧
    (∀ (x : RcvSession) (off : Word) (ws : List Word), l = off :: ws → bits hdr 31 24 = 2 → s.upd.session = some x → x.spi = true →
      ws.length ≤ 1024 → off.toNat = x.data.length → x.data.length ≤ x.total → 4 * ws.length ≤ x.total - x.data.length + 3 →
      ∃ u, exec (.recoveryFrameData hdr l (Config.crc32 (wordBytes (hdr :: l)))) s = .next u ∧ u.bit pUPD 2 = true ∧
        u.upd = { s.upd with rcvStatus := 3, rcvError := 0, session := some { x with
          data := x.data ++ (wordBytes ws).take (min (4 * ws.length) (x.total - x.data.length)) } }) ∧
    (∀ x : RcvSession, bits hdr 31 24 = 3 → s.upd.session = some x → x.spi = true →
      (x.data.length ≠ x.total →
        ∀ b, ∃ u, exec (.recoveryFrameFinish hdr l (Config.crc32 (wordBytes (hdr :: l))) b) s = .next u ∧ u.bit pUPD 3 = true ∧
          u.upd = { s.upd with session := none, rcvStatus := 5, rcvError := 4 } ∧ u.nvm = s.nvm) ∧
      (x.data.length = x.total → s.rcvOk x.target x.data = true →
        ∃ u, exec (.recoveryFrameFinish hdr l (Config.crc32 (wordBytes (hdr :: l))) true) s = .next u ∧ u.upd.session = none ∧
          u.dev.level = .none ∧ u.nvm.nor = (s.rcvWrite x.target x.data).nvm.nor)) ∧
    (∀ x : RcvSession, bits hdr 31 24 = 1 → s.upd.session = some x → x.spi = false →
      ∃ u, exec (.recoveryFrameStart hdr l (Config.crc32 (wordBytes (hdr :: l)))) s = .next u ∧ u.upd.session = some x ∧
        u.nvm = s.nvm) ∧
    (∀ crc, bits hdr 31 24 = 4 → crc ≠ Config.crc32 (wordBytes (hdr :: l)) → ∃ u, exec (.recoveryFrameStatus hdr l crc) s = .next u ∧
      u.upd = { s.upd with rcvStatus := 5, rcvError := 1 } ∧ u.bit pUPD 3 = true)

/-- A march starts on the memory and in the mode its control register names, and ends with its failing rows counted, PASS
when there are none, and MARCH_DONE set (10 R328 to R332). QSPI: GO queues the host frame the registers describe; with the
bus free the waiting ROM and Adeit frames start before the display's and these before the host's; and a frame's end frees the
bus and counts it (13 R395 to R399). It states the completion of `sramMarchStart`, `marchDone`, `qspiGo`, `qspiFrameStart` and
`frameDone`. -/
def Obligations.MarchesAndQspiFramesRun : Prop :=
  (∀ s : State,
    (∀ (w : Wr) (r : Reg), s.takes pSRAM 0x104 w r → (w.val &&& r.writable).getLsbD 0 = true →
      ∃ u, exec (.sramMarchStart w) s = .next u ∧ u.sram = { s.sram with
        mode := (w.val &&& r.writable).getLsbD 1, targets := [bits (w.val &&& r.writable) 3 2], done := false } ∧ u.nvm = s.nvm) ∧
    (∀ (m : Nat) (rest : List Nat) (fails : List FailRow), s.sram.targets = m :: rest →
      ∃ u, exec (.marchDone fails) s = .next u ∧ u.sram.targets = rest ∧ u.sram.done = true ∧ u.sram.pass = fails.isEmpty ∧
        u.sram.failRows = min fails.length 0xFFFF ∧ u.bit pSRAM 0 = true) ∧
    (s.sram.targets = [] → ∀ fails, exec (.marchDone fails) s = .next s)) ∧
  (∀ s : State,
    (∀ (w : Wr) (r : Reg), s.takes pQSPI 0x11C w r → (w.val &&& r.writable).getLsbD 0 = true →
      ∃ u, exec (.qspiGo w) s = .next u ∧
        u.qspi = { s.qspi with hf := s.hostFrameNow, hostWait := true, dmaErr := false } ∧ u.disp = s.disp) ∧
    (s.active = true → s.dev.pad.qspi = true → s.qspi.bus = none →
      (0 < s.qspi.fwWait → exec .qspiFrameStart s =
        .next { s with qspi := { s.qspi with fwWait := s.qspi.fwWait - 1, bus := some .fw, lastUser := .fw } }) ∧
      (∀ f l, s.qspi.fwWait = 0 → s.disp.waiting = f :: l → ∃ u, exec .qspiFrameStart s = .next u ∧
        u.qspi = { s.qspi with bus := some .disp, lastUser := .disp, busInit := f.1 } ∧ u.disp = { s.disp with waiting := l } ∧
        u.outbox = s.outbox ++ [s.dispOut f.2]) ∧
      (s.qspi.fwWait = 0 → s.disp.waiting = [] → s.qspi.hostWait = true → ∃ u, exec .qspiFrameStart s = .next u ∧
        u.qspi = { s.qspi with hostWait := false, bus := some .host, lastUser := .host } ∧ u.disp = s.disp ∧
        u.outbox = s.outbox ++ [s.qspi.hf.out s.qspi.hf.phases])) ∧
    (∀ rd, s.qspi.bus = some .fw → exec (.frameDone rd) s = .next { s with qspi := { s.qspi with bus := none } }) ∧
    (∀ rd, s.qspi.bus = some .disp → s.qspi.busInit = false → exec (.frameDone rd) s = .next { s with
      qspi := { s.qspi with bus := none, busInit := false }, disp := { s.disp with frames := satInc s.disp.frames } }) ∧
    (∀ rd, s.qspi.bus = some .host → ∃ u, exec (.frameDone rd) s = .next u ∧ u.qspi.bus = none ∧
      u.qspi.hostFrames = satInc s.qspi.hostFrames ∧ (s.qspi.hf.len = 0 → u.bit pQSPI 0 = true) ∧
      (s.qspi.hf.len ≠ 0 → (s.pcie.fns[(0 : Fn)]).bme = false → u.qspi.dmaErr = true ∧ u.bit pQSPI 2 = true)))

/-- The SPI target: a received word is kept at the width in effect, or lost and counted when 64 wait; at a word's start the
oldest word written goes out, or the last again with UNDERRUN; a word cut short is discarded with its mark; the host pushes
and pops; and a new width empties both FIFOs (13 R400 to R404). It states the completion of `spitWordReceived`, `spitWordTake`,
`spitCsRise`, `spitTxData`, `spitRxPop` and `spitCtrl`. -/
def Obligations.SpiTargetMovesWords : Prop :=
  ∀ s : State, s.active = true → s.dev.pad.spit = true →
    (∀ word : Word, s.dev.romRecovery = false → s.spit.rx.length < 64 → ∃ u, exec (.spitWordReceived word) s = .next u ∧
      u.spit = { s.spit with rx := s.spit.rx ++ [BitVec.ofNat 32 (word.toNat % 2 ^ wordBits s.spit.width)] } ∧ u.bit pSPIT 0 = true) ∧
    (∀ word : Word, s.dev.romRecovery = false → 64 ≤ s.spit.rx.length → ∃ u, exec (.spitWordReceived word) s = .next u ∧
      u.spit = { s.spit with overflow := true, lost := satInc s.spit.lost } ∧ u.bit pSPIT 3 = true) ∧
    (∀ first x l, s.spit.tx = x :: l → ∃ u, exec (.spitWordTake first) s = .next u ∧
      u.spit = { s.spit with
        tx := l, last := x,
        width := if first then (if s.dev.romRecovery then 2#2 else s.spitWord) else s.spit.width } ∧
      .spiWord x ∈ u.outbox ∧ (l = [] → u.bit pSPIT 1 = true)) ∧
    (∀ first, s.spit.tx = [] → ∃ u, exec (.spitWordTake first) s = .next u ∧ .spiWord s.spit.last ∈ u.outbox ∧ u.bit pSPIT 2 = true ∧
      u.spit = { s.spit with
        underrun := true, repeats := satInc s.spit.repeats,
        width := if first then (if s.dev.romRecovery then 2#2 else s.spitWord) else s.spit.width }) ∧
    State.reset.spit.last = 0#32 ∧
    (∃ r, s.spitReg 0x10C = some r ∧ r.val = s.spit.rx.headD 0 ∧ r.writable = 0#32) ∧
    (∀ (w : Wr) (r : Reg), (∃ a, s.reach w.src pSPIT 0x108 = .at_ a) → (s.touchPage w.src pSPIT).regAt pSPIT 0x108 = some r →
      w.be = 15#4 → (s.hdr[pSPIT]).locked = false → 64 ≤ s.spit.tx.length → ∃ u, exec (.spitTxData w) s = .next u ∧
        u.spit = s.spit ∧ (u.hdr[pSPIT]).errCause = 0x81#8 ∧ (u.hdr[pSPIT]).errCount = satInc (s.hdr[pSPIT]).errCount) ∧
    (∃ u, exec (.spitCsRise true) s = .next u ∧ u.spit = { s.spit with partial_ := true } ∧ u.bit pSPIT 4 = true) ∧
    (exec (.spitCsRise false) s = .next s) ∧
    (∀ (w : Wr) (r : Reg), s.takes pSPIT 0x108 w r → ∃ u, exec (.spitTxData w) s = .next u ∧ u.spit = { s.spit with
      tx := s.spit.tx ++ [BitVec.ofNat 32 ((w.val &&& r.writable).toNat % 2 ^ wordBits s.spitWord)] }) ∧
    (∀ (w : Wr) (r : Reg), s.takes pSPIT 0x110 w r → (w.val &&& r.writable).getLsbD 0 = true →
      ∃ u, exec (.spitRxPop w) s = .next u ∧ u.spit = { s.spit with rx := s.spit.rx.drop 1 }) ∧
    (∀ (w : Wr) (r : Reg), s.takes pSPIT 0x100 w r → ∃ u, exec (.spitCtrl w) s = .next u ∧
      (bits (w.val &&& r.writable) 1 0 ≠ s.spitWord.toNat → u.spit = { s.spit with tx := [], rx := [], last := 0#32 }) ∧
      (bits (w.val &&& r.writable) 1 0 = s.spitWord.toNat → u.spit = s.spit))

/-- The fleet key is installed when its hash is the board descriptor's, the node certificate when it checks; another
key, or a certificate with no fleet key in place, sets VFR bit 3 and installs nothing; and a remote read that can be sent is sent with status 1, one that cannot ends at
once with status 3 and RREQ_DONE, and one that finds no transaction tag free waits as pending (14 R434, R458; 01 R21). It states the
completion of `installFleet`, `installCert` and `vfrRreqGo`. -/
def Obligations.FabricRegistersAct : Prop :=
  ∀ (s : State) (w : Wr) (r : Reg),
    (∀ d, s.takes pVFR 0xAC0 w r → (w.val &&& r.writable).getLsbD 0 = true → (w.val &&& r.writable).getLsbD 1 = false →
      s.boot.desc = some d →
      (Config.sha256 (s.regBytes pVFR 0xA80 16) = d.fleetHash → ∃ u, exec (.installFleet w) s = .next u ∧
        u.nvm = { s.nvm with fleetKey := some (wideOf (s.regBytes pVFR 0xA80 16)) }) ∧
      (Config.sha256 (s.regBytes pVFR 0xA80 16) ≠ d.fleetHash → ∃ u, exec (.installFleet w) s = .next u ∧
        u.nvm = s.nvm ∧ u.bit pVFR 3 = true)) ∧
    (∀ f d k, s.takes pVFR 0xAC0 w r → (w.val &&& r.writable).getLsbD 0 = false → (w.val &&& r.writable).getLsbD 1 = true →
      s.nvm.fleetKey = some f → s.boot.desc = some d → s.sign.identity = some k → certOk f (s.regBytes pVFR 0xA00 32) = true →
      certSerial (s.regBytes pVFR 0xA00 32) = Config.serial →
      certKey (s.regBytes pVFR 0xA00 32) = Config.compressPub (Config.ecPub k) → certAddr (s.regBytes pVFR 0xA00 32) = d.node →
      ∃ u, exec (.installCert w) s = .next u ∧ u.nvm = { s.nvm with cert := some (s.regBytes pVFR 0xA00 32) }) ∧
    (s.takes pVFR 0xAC0 w r → (w.val &&& r.writable).getLsbD 0 = false → (w.val &&& r.writable).getLsbD 1 = true →
      s.nvm.fleetKey = none → ∃ u, exec (.installCert w) s = .next u ∧ u.nvm = s.nvm ∧ u.bit pVFR 3 = true) ∧
    (s.takes pVFR 0xB18 w r → (w.val &&& r.writable).getLsbD 0 = true → s.hasFeat 0 5 = true →
      ∃ u, exec (.vfrRreqGo w) s = .next u ∧ u.vfr.rreqN = 0 ∧ u.nvm = s.nvm ∧
        (∀ q, (s.touchPage w.src pVFR).fabricRuns = true → s.addressed = true →
          s.portTo (BitVec.ofNat 16 (bits (s.reg pVFR 0xB00 0#32) 15 0)) = some q → (s.vfl[q]).tagFree = true → u.vfr.rreqSt = 1 ∧ u.vfr.rreqWait = none) ∧
        (∀ q, (s.touchPage w.src pVFR).fabricRuns = true → s.addressed = true →
          s.portTo (BitVec.ofNat 16 (bits (s.reg pVFR 0xB00 0#32) 15 0)) = some q → (s.vfl[q]).tagFree = false →
          u.vfr.rreqSt = 1 ∧ u.vfr.rreqWait.isSome = true ∧ u.vfl = s.vfl) ∧
        (s.addressed = false → u.vfr.rreqSt = 3 ∧ u.bit pVFR 4 = true))

/-- A read of a capture register captures what its chapter lists, all at one time, answers the register's enabled bytes, and
changes nothing else (03 R82; 07 R224; 08 R263; 09 R274; 10 R343; 11 R371; 12 R392; 14 R446, R472). It states the completion of
`pwrBudgetAudit0`, `hqmTagAudit0`, `medSlotAudit0`, `bpmAudit0`, `vflCreditAudit`, `mtrAudit0`, `mtrUtcLo`, `mtrAccLo`,
`sealIndexLo`, `evrNextSeqLo` and `mirPlogData0`. -/
def Obligations.CaptureReadsCapture : Prop :=
  ∀ (s : State) (rd : Rd) (r : Reg),
    (s.reads pPWR 0x128 rd r → ∃ x, x = s.touchPage rd.src pPWR ∧ exec (.pwrBudgetAudit0 rd) s =
      .next (({ x with pwr := { x.pwr with auditB := fieldC x.budget 20 0, auditH := fieldC x.held 20 0, auditF := x.freeTokens } } :
        State).emit (.readData (enabledBytes rd.be r.val)))) ∧
    (s.reads pHQM 0x100 rd r → ∃ x, x = s.touchPage rd.src pHQM ∧ exec (.hqmTagAudit0 rd) s =
      .next (({ x with hqm := { x.hqm with auditA := fieldC x.hqm.cmds.length 13 0 } } : State).emit
        (.readData (enabledBytes rd.be r.val)))) ∧
    (s.reads pMED 0x100 rd r → ∃ x, x = s.touchPage rd.src pMED ∧ exec (.medSlotAudit0 rd) s =
      .next (({ x with med := { x.med with auditI := fieldC x.slotsIssued 10 0 } } : State).emit
        (.readData (enabledBytes rd.be r.val)))) ∧
    (s.reads pBPM 0x100 rd r → ∃ x, x = s.touchPage rd.src pBPM ∧ exec (.bpmAudit0 rd) s =
      .next (({ x with bpm := { x.bpm with
          auditA := fieldC (x.bpm.owned true) 18 0,
          auditB := fieldC x.bpm.sram.free 11 0 ||| fieldC (x.bpm.owned false) 11 16, auditC := 0 } } : State).emit
        (.readData (enabledBytes rd.be r.val)))) ∧
    (∀ n : Fin 4, s.reads (pVFL n) 0x120 rd r → ∃ x, x = s.touchPage rd.src (pVFL n) ∧ exec (.vflCreditAudit n rd) s =
      .next ((x.updVfl n (fun l => { l with capVc2 := fieldW (l.creditHalf 2) 0 })).emit (.readData (enabledBytes rd.be r.val)))) ∧
    (s.reads pMTR 0x120 rd r → ∃ x, x = s.touchPage rd.src pMTR ∧ exec (.mtrAudit0 rd) s =
      .next (({ x with mtr := { x.mtr with cap := #v[loW x.nvm.accs.toList.sum, hiW x.nvm.accs.toList.sum, loW x.mtr.pending,
        hiW x.mtr.pending, loW x.nvm.total, hiW x.nvm.total] } } : State).emit (.readData (enabledBytes rd.be r.val)))) ∧
    (s.reads pMTR 0x104 rd r → ∃ x, x = s.touchPage rd.src pMTR ∧ exec (.mtrUtcLo rd) s =
      .next (({ x with mtr := { x.mtr with capUtcHi := hiW x.utc } } : State).emit (.readData (enabledBytes rd.be r.val)))) ∧
    (s.reads pMTR 0x144 rd r → ∃ x, x = s.touchPage rd.src pMTR ∧ exec (.mtrAccLo rd) s =
      .next (({ x with mtr := { x.mtr with capAccHi := hiW x.selAcc } } : State).emit (.readData (enabledBytes rd.be r.val)))) ∧
    (s.reads pSEAL 0x104 rd r → ∃ x, x = s.touchPage rd.src pSEAL ∧ exec (.sealIndexLo rd) s =
      .next (({ x with chainU := {
          capIndex := BitVec.ofNat 64 (x.nvm.chains[x.selTid pSEAL 0x100]).index,
          capHead := x.chainHead (x.selTid pSEAL 0x100) } } : State).emit (.readData (enabledBytes rd.be r.val)))) ∧
    (s.reads pEVR 0x104 rd r → ∃ x, x = s.touchPage rd.src pEVR ∧ exec (.evrNextSeqLo rd) s =
      .next (({ x with evr := { x.evr with capHi := hiW x.aon.nextSeq } } : State).emit (.readData (enabledBytes rd.be r.val)))) ∧
    (s.reads pMIR 0x140 rd r → ∃ x, x = s.touchPage rd.src pMIR ∧ exec (.mirPlogData0 rd) s =
      .next (({ x with mir := { x.mir with cap := x.plog } } : State).emit (.readData (enabledBytes rd.be r.val))))

/-! ## 06: the endpoint -/

/-- Conventional resets of the endpoint: PERST, a hot reset and a link that goes down each take the link down, drop the VFs,
clear every accepted feature and start a reset of every tenant that has none running; PERST's release starts training, and a
link that comes up is recorded with its speed and width; the LTSSM code it passes to is shown where the link may be in it (06 R153,
R171 to R176, R519). Function-level resets and VFs: FLR of PF0 drops the VFs and starts a reset of every bound tenant, FLR of a VF
one of its own; VF Enable counts the VFs, 7 without ARI when more are asked for, with VF_LIMIT; and its clearing drops them (06
R151, R172). A conventional reset and an FLR let the owner's challenge and the nonce lapse (07 R213; 12 R375). It states the completion of
`perstAssert`, `perstRelease`, `hotReset`, `linkDown`, `linkUp`, `speedWidthChange`, `flr`, `vfEnableSet` and `vfEnableClear`. -/
def Obligations.FunctionsAndLinksReset : Prop :=
  (∀ s : State,
    (s.linkDeaf = false → s.pins.perst = true → ∃ u, exec .perstAssert s = .next u ∧ u.pins = { s.pins with perst := false } ∧
      u.pcie.dlUp = false ∧ u.pcie.vfEnable = false ∧ u.pcie.numVfs = 0 ∧ u.dev.accept0 = 0#32 ∧ u.dev.featLock = false ∧
      u.bit pPCIE 3 = true ∧ u.own.challenge = none ∧ u.mtr.nonce = none ∧ (∀ t : Tid, (u.tnt[t]).resetDone = false)) ∧
    (s.linkDeaf = false → s.pins.perst = true → s.pcie.dlUp = true → ∃ u, exec .hotReset s = .next u ∧ u.pcie.dlUp = false ∧
      u.pcie.vfEnable = false ∧ u.dev.featLock = false ∧ u.bit pPCIE 1 = true ∧ u.own.challenge = none ∧ u.mtr.nonce = none ∧
      (∀ t : Tid, (u.tnt[t]).resetDone = false)) ∧
    (s.linkDeaf = false → s.pcie.dlUp = true → ∃ u, exec .linkDown s = .next u ∧ u.pcie.dlUp = false ∧
      u.pcie.vfEnable = false ∧ u.dev.featLock = false ∧ u.bit pPCIE 1 = true ∧ u.own.challenge = none ∧ u.mtr.nonce = none ∧
      (∀ t : Tid, (u.tnt[t]).resetDone = false)) ∧
    (s.awake = true → s.pins.perst = false → exec .perstRelease s = .next { s with
      pins := { s.pins with perst := true, wake := false }, pcie := { s.pcie with ltssm := 1#5 } }) ∧
    (∀ speed width : BitVec 3, s.awake = true → s.pins.perst = true → s.pcie.dlUp = false → s.squall.running = false →
      ∃ u, exec (.linkUp speed width) s = .next u ∧ u.pcie.dlUp = true ∧ u.pcie.speed = speed ∧ u.pcie.width = width ∧
        u.bit pPCIE 0 = true ∧ u.nvm = s.nvm) ∧
    (∀ (speed width : BitVec 3) (code : BitVec 5), s.awake = true → s.pins.perst = true →
      (s.pcie.dlUp = true → s.pcie.speed ≠ speed ∨ s.pcie.width ≠ width →
        ∃ u, exec (.speedWidthChange speed width code) s = .next u ∧ u.pcie.speed = speed ∧ u.pcie.width = width ∧
          u.bit pPCIE 2 = true ∧ (ltssmLegal true code = true → u.pcie.ltssm = code) ∧
          u.quiet = { s.quiet with pcie := { (s.pcie.toLtssm code).quiet with speed := speed, width := width } }) ∧
      (s.pcie.dlUp = false ∨ s.pcie.speed = speed ∧ s.pcie.width = width →
        exec (.speedWidthChange speed width code) s = .next { s with pcie := s.pcie.toLtssm code }))) ∧
  (∀ (s : State), (∀ fn : Fn, s.cfgOpen fn = true → ∃ u, exec (.flr fn) s = .next u ∧ u.bit pPCIE 4 = true ∧ u.own.challenge = none ∧ u.mtr.nonce = none ∧
      (u.pcie.fns[fn]).bme = false ∧ (u.pcie.fns[fn]).mse = false ∧ (u.pcie.fns[fn]).pending = [] ∧
      (fn = 0 → u.pcie.vfEnable = false ∧ u.dev.featLock = false ∧ ∀ t : Tid, (s.tnt[t]).binding ≠ 0 → (u.tnt[t]).resetDone = false) ∧
      (∀ t ∈ s.fnTenants fn, (u.tnt[t]).resetDone = false)) ∧
    (∀ (n : Fin 64) (ari : Bool), s.cfgOpen 0 = true → s.pcie.vfEnable = false → ∃ u, exec (.vfEnableSet n ari) s = .next u ∧
      u.pcie.vfEnable = true ∧ u.pcie.ari = ari ∧ u.bit pPCIE 6 = true ∧
      (ari = true ∨ n.1 ≤ 7 → u.pcie.numVfs = n.1 ∧ u.pcie.vfLimit = false) ∧
      (ari = false → 7 < n.1 → u.pcie.numVfs = 7 ∧ u.pcie.vfLimit = true ∧ u.bit pPCIE 11 = true)) ∧
    (s.cfgOpen 0 = true → s.pcie.vfEnable = true → ∃ u, exec .vfEnableClear s = .next u ∧ u.pcie.vfEnable = false ∧
      u.pcie.numVfs = 0 ∧ u.bit pPCIE 6 = true ∧ ∀ t ∈ s.vfTenants, (u.tnt[t]).resetDone = false))

/-- Bus mastering, power and interrupt modes of a function: clearing Bus Master Enable, or entering D3hot, starts a reset of
its tenants; setting it touches no page, tenant or store; a mode change is in force at once; Interrupt Disable and a vector's mask
are as written (06 R155 to R158, R171, R172). Requests the
endpoint answers itself: a configuration request at level NONE gets a retry and from GUST on is answered; an Unsupported
Request is logged in the function's AER, and only one that is not posted is answered; poisoned writes are discarded and
counted; a completion of a read that a reset abandoned is counted, and its tag is free again when all its bytes have come; any other
is an Unexpected Completion; an MSI-X table write fills its entry; and the link enters L1, or L1.2 with CLKREQ high where that is
enabled, after its idle time (06 R148, R153, R154, R159, R169, R173 to R178). It states the completion of `busMasterEnableClear`,
`busMasterEnableSet`, `d3hotEntry`, `interruptModeChange`, `vectorUnmask`, `interruptDisable`, `configurationRequest`,
`unsupportedRequest`, `poisonedMemoryWrite`, `staleCompletion` and `aspmL1Entry`. -/
def Obligations.TheEndpointAnswers : Prop :=
  (∀ (s : State) (fn : Fn), s.cfgOpen fn = true →
    ((s.pcie.fns[fn]).bme = true → ∃ u, exec (.busMasterEnableClear fn) s = .next u ∧ (u.pcie.fns[fn]).bme = false ∧
      u.bit pPCIE 5 = true ∧ ∀ t ∈ s.fnTenants fn, (u.tnt[t]).resetDone = false) ∧
    (∃ u, exec (.busMasterEnableSet fn) s = .next u ∧ (u.pcie.fns[fn]).bme = true ∧ u.hdr = s.hdr ∧ u.tnt = s.tnt ∧ u.nvm = s.nvm) ∧
    ((s.pcie.fns[fn]).d3hot = false → ∃ u, exec (.d3hotEntry fn) s = .next u ∧ (u.pcie.fns[fn]).d3hot = true ∧
      ∀ t ∈ s.fnTenants fn, (u.tnt[t]).resetDone = false) ∧
    (∀ cfg : IntCfg, ∃ u, exec (.interruptModeChange fn cfg) s = .next u ∧ (u.pcie.fns[fn]).cfg = cfg ∧ u.hdr = s.hdr ∧
      u.tnt = s.tnt ∧ u.nvm = s.nvm) ∧
    (∀ vec : Fin 72,
      (s.barOpen fn = true → vec.1 < msixVectors fn →
        ∃ u, exec (.vectorUnmask fn true vec) s = .next u ∧ vec.1 ∈ (u.pcie.fns[fn]).unmasked ∧ u.hdr = s.hdr) ∧
      (∃ u, exec (.vectorUnmask fn false vec) s = .next u ∧ vec.1 ∉ (u.pcie.fns[fn]).msiMasked ∧ u.hdr = s.hdr)) ∧
    (fn = 0 → ∀ on : Bool, ∃ u, exec (.interruptDisable on) s = .next u ∧ u.pcie.intDisable = on ∧ u.hdr = s.hdr ∧ u.nvm = s.nvm)) ∧
  (∀ (s : State) (fn : Fn),
    (∀ req, (∀ vec dw be v, req ≠ .msixWrite vec dw be v) → s.cfgAnswers = true → s.claimed fn = true → s.dev.level = .none →
      exec (.configurationRequest fn req) s = .next (s.emit (.crs fn))) ∧
    (s.cfgOpen fn = true → ∀ b : Bool, exec (.configurationRequest fn (.setMse b)) s =
      .next (s.endLull.updFn fn (fun f => { f with mse := b }))) ∧
    (s.awake = true → s.pins.perst = true → s.pcie.dlUp = true → s.pcie.squallUr = true → ∀ dw,
      ∃ u, exec (.configurationRequest fn (.read dw)) s = .next u ∧ u.bit pPCIE 9 = true ∧ .unsupported fn ∈ u.outbox) ∧
    (∀ (vec : Fin 72) (dw : Fin 3) (v : Word), s.barOpen fn = true → s.dev.level ≠ .none → vec.1 < msixVectors fn →
      ∃ u, exec (.configurationRequest fn (.msixWrite vec dw 15#4 v)) s = .next u ∧ u.hdr = s.hdr ∧
        ∃ e, (u.pcie.fns[fn]).entries.find vec.1 = some e ∧
          (if dw.1 = 0 then e.1.setWidth 32 = v else if dw.1 = 1 then (e.1 >>> 32).setWidth 32 = v else e.2 = v)) ∧
    (∀ e, s.awake = true → s.pcie.dlUp = true → e ≠ .ecrc →
      ∃ u, exec (.unsupportedRequest fn (.link e)) s = .next u ∧
        ((linkErrorBit e).1 = true → u.bit pPCIE 10 = true ∧
          (u.pcie.fns[(0 : Fn)]).aerCorr = (s.pcie.fns[(0 : Fn)]).aerCorr ||| bitW true (linkErrorBit e).2) ∧
        ((linkErrorBit e).1 = false → u.bit pPCIE 9 = true ∧
          (u.pcie.fns[(0 : Fn)]).aerUnc = (s.pcie.fns[(0 : Fn)]).aerUnc ||| bitW true (linkErrorBit e).2)) ∧
    (∀ kind, s.awake = true → s.pcie.dlUp = true → s.barOpen fn = false → (∀ e, kind ≠ .link e) →
      ∃ u, exec (.unsupportedRequest fn kind) s = .next u ∧ u.bit pPCIE 9 = true ∧
        (u.pcie.fns[fn]).aerUnc = (s.pcie.fns[fn]).aerUnc ||| bitW true 20 ∧ (kind ≠ .memWrite → .unsupported fn ∈ u.outbox)) ∧
    (∀ space, s.awake = true → s.pcie.dlUp = true → s.pcie.squallUr = false → ∃ u, exec (.poisonedMemoryWrite space) s = .next u ∧
      u.pcie.poisonRx = satInc s.pcie.poisonRx ∧ u.bit pPCIE 7 = true ∧ u.nvm = s.nvm ∧ u.regs = s.regs) ∧
    (∀ rtag n f left at_, s.awake = true → s.pcie.dlUp = true → s.pcie.staleReads.find rtag = some (f, left, at_) →
      (left ≤ n → exec (.staleCompletion rtag n false) s = .next { s with
        pcie := { s.pcie with staleReads := s.pcie.staleReads.del rtag, stale := satInc s.pcie.stale } }) ∧
      (n < left → exec (.staleCompletion rtag n false) s = .next { s with
        pcie := { s.pcie with staleReads := s.pcie.staleReads.put rtag (f, left - n, at_), stale := satInc s.pcie.stale } })) ∧
    (∀ rtag n, s.awake = true → s.pcie.dlUp = true → s.pcie.staleReads.find rtag = none → ∃ u,
      exec (.staleCompletion rtag n false) s = .next u ∧ u.bit pPCIE 9 = true ∧
        (u.pcie.fns[(0 : Fn)]).aerUnc = (s.pcie.fns[(0 : Fn)]).aerUnc ||| bitW true 16) ∧
    (s.awake = true → s.pcie.dlUp = true → (s.pcie.fns[(0 : Fn)]).aspmL1 = true → s.pcie.pmState = 0#3 →
      (s.pcie.fns[(0 : Fn)]).d3hot = false → s.pcie.idleAt + bits (s.reg pPCIE 0x108 32#32) 15 0 ≤ s.now →
      (exec (.aspmL1Entry false) s = .next { s with pcie := { s.pcie with pmState := 1#3, ltssm := 21#5 } }) ∧
      ((s.pcie.fns[(0 : Fn)]).l1ss.getLsbD 2 = true →
        exec (.aspmL1Entry true) s = .next { s with pcie := { s.pcie with pmState := 3#3, ltssm := 21#5 } })))

/-! ## 02, 03, 04, 11, 13: resets, power, the start and the ports of the board -/

/-- A power-on reset puts every register, queue and buffer at its reset value, AON's too, and keeps what the media, OTP and
NOR hold; a RESET_IN_L low of more than 1.1 µs resets all but AON, one under 1 µs nothing, one between either nothing or all,
and during Squall the reset is held off, a PFAIL_L fall that waits in the queue when the reset comes counting as one that Squall
starts with (02 R40); its release starts the clocks and counts the start (02 R39, 03 R61, 15 R485, 16 R512). The straps of a start are sampled once, each at the value three samples agree on, a strap they do not agree on reading
0 with UNSTABLE; the samples of a strap whose three values agree give that value (02 R35 to R37); and a start that boots an image has its identity
key and its DRBG (08 R249, R250). It states the completion of `powerOnReset`,
`resetInLAssert`, `resetRelease` and `strapSampling`. -/
def Obligations.ResetsAndStraps : Prop :=
  (∀ s : State,
    (∃ u, exec .powerOnReset s = .next u ∧ u.regs = State.reset.regs ∧ u.hdr = State.reset.hdr ∧ u.tnt = State.reset.tnt ∧
      u.aon = State.reset.aon ∧ u.hqm = State.reset.hqm ∧ u.bpm = State.reset.bpm ∧ u.nvm.nor = s.nvm.nor ∧ u.nvm.sbs = s.nvm.sbs ∧
      u.nvm.permanent = s.nvm.permanent ∧ u.nvm.floor = s.nvm.floor ∧ u.nvm.accs = s.nvm.ckptAccs) ∧
    (∀ n, n < 1000 → exec (.resetInLAssert n) s = .next s) ∧
    (∀ n, 1100 < n → s.pins.resetIn = true → s.squall.running = false → .pfailLFall ∉ s.pending →
      ∃ u, exec (.resetInLAssert n) s = .next u ∧ u.regs = State.reset.regs ∧ u.tnt = State.reset.tnt ∧ u.aon.causeAcc = s.aon.causeAcc ||| 2#7 ∧ u.dev.level = .none ∧
      u.dev.strap = s.dev.strap ∧ u.pins.resetIn = false ∧ u.nvm.permanent = s.nvm.permanent) ∧
    (∀ n, 1100 < n → s.pins.resetIn = true → s.active = true → .pfailLFall ∈ s.pending →
      ∃ u, exec (.resetInLAssert n) s = .next u ∧ u.squall.running = true ∧ u.squall.causes = sqPFAIL ∧
        u.squall.resetHeld = true ∧ u.pins.resetIn = false) ∧
    (∀ n, 1100 < n → s.pins.resetIn = true → s.squall.running = true → s.squall.hold = false → .pfailLFall ∉ s.pending →
      exec (.resetInLAssert n) s =
      .next { s with pins := { s.pins with resetIn := false }, squall := { s.squall with resetHeld := true } }) ∧
    (∀ n, 1000 ≤ n → n ≤ 1100 → s.pins.resetIn = true → s.squall.running = false → .pfailLFall ∉ s.pending → ∃ u, exec (.resetInLAssert n) s = .next u ∧
      (u = s.drawn ∨ u.regs = State.reset.regs ∧ u.pins.resetIn = false)) ∧
    (s.pins.resetIn = false → s.squall.running = false → ∃ u, exec .resetRelease s = .next u ∧ u.pins.resetIn = true ∧
      u.clk.pllLock = true ∧ u.nvm.starts = s.nvm.starts + 1 ∧ u.sram.targets = [0, 1, 2] ∧ u.regs = s.regs)) ∧
  (∀ (s : State) (a b c : BitVec 6),
    (s.awake = true → s.boot.strapsIn = false → s.squall.running = false → ∃ u, exec (.strapSampling a b c) s = .next u ∧
      u.boot.strapsIn = true ∧ u.dev.strap = strapOf a b c ∧ u.aon.causeAcc = 0#7 ∧
      (s.boot.booted = none → u.boot.booted.isSome = true → u.sign.drbg = 1#2 ∧
        u.sign.identity = some (deriveScalar "KL4064 IDENTITY"))) ∧
    (s.boot.strapsIn = true → exec (.strapSampling a b c) s = .next s) ∧
    ((strapOf a a a).unstable = false ∧ (strapOf a a a).test = a.getLsbD 0 ∧ (strapOf a a a).recovery = a.getLsbD 1))

/-- The crystal monitor: a window of 1,440 to 1,760 edges with the crystal present and the PLL locked reads good, and any
other trips it for good; a trip switches to the backup clocks, adds its cause, takes the links down and starts Squall (03
R58, R59). Squall starts at a falling supply, a supply below its trip or a watchdog, at step 1 with the one cause, its debug
halts released and the endpoint closed, and a cause that comes while it runs joins it; each step ends into a later one, the
final hold or the reset; and in the hold the chip restarts when PFAIL_L has been high, and the supply above its trip, for 100 ms,
each where it is a cause, or the temperature's wait has passed (11 R348 to R357; 03 R60 to R64; 15 R481). It states the completion of
`crystalMonitorWindow`, `crystalMonitorTrip`, `pfailLFall`, `vsupConversion`, `watchdogExpiry`, `squallStepEnd`, `squallRestart` and
`thermalRestart`. -/
def Obligations.ClockLossAndSquall : Prop :=
  (∀ (s : State), s.awake = true →
    (∀ n : BitVec 16, 1440 ≤ n.toNat → n.toNat ≤ 1760 → exec (.crystalMonitorWindow n false false) s = .next { s with
      clk := { s.clk with xmon := n, xtalOk := true } }) ∧
    (∀ (n : BitVec 16) (e l : Bool), n.toNat < 1440 ∨ 1760 < n.toNat ∨ e = true ∨ l = true →
      ∃ u, exec (.crystalMonitorWindow n e l) s = .next u ∧ u.clk.tripped = true ∧ u.clk.xmon = n ∧ u.nvm = s.nvm) ∧
    (s.clk.tripped = true → s.clk.backup = false → s.squall.running = false → ∃ u, exec .crystalMonitorTrip s = .next u ∧
      u.clk.backup = true ∧ u.aon.causeAcc = s.aon.causeAcc ||| 32#7 ∧ u.squall.running = true ∧ u.squall.causes = sqCLOCK ∧
      (∀ p : Fin 4, (s.vfl[p]).st ≠ .absent → (u.vfl[p]).st = .down))) ∧
  (∀ s : State,
    (s.active = true → ∃ u, exec .pfailLFall s = .next u ∧ u.squall.running = true ∧ u.squall.step = 1 ∧ u.squall.causes = sqPFAIL ∧
      u.pcie.squallUr = true ∧ u.pwr.lull = false ∧ u.dbg.halted = 0#4 ∧ u.nvm.squalls = s.nvm.squalls + 1) ∧
    (s.awake = true → s.squall.running = true → ∃ u, exec .pfailLFall s = .next u ∧
      u.squall = { s.squall with causes := s.squall.causes ||| sqPFAIL } ∧ u.nvm = s.nvm) ∧
    (∀ d mV, s.active = true → s.boot.desc = some d →
      (mV < d.vsupTrip → ∃ u, exec (.vsupConversion mV) s = .next u ∧ u.squall.running = true ∧ u.squall.causes = sqVSUP) ∧
      (d.vsupTrip ≤ mV → exec (.vsupConversion mV) s = .next s)) ∧
    (s.active = true → s.dev.romRecovery = false → s.dbg.halted = 0#4 → ∃ u, exec .watchdogExpiry s = .next u ∧
      u.squall.running = true ∧ u.squall.causes = sqWATCHDOG) ∧
    (s.dbg.halted ≠ 0#4 → exec .watchdogExpiry s = .next s) ∧
    (s.squall.running = true → s.squall.hold = false →
      (s.stepDone = false → ∀ hung, exec (.squallStepEnd hung) s = .next s) ∧
      (s.stepDone = true → ∀ hung, ∃ u, exec (.squallStepEnd hung) s = .next u ∧
        (s.squall.step < u.squall.step ∨ u.squall.hold = true ∨ u.squall.running = false))) ∧
    (s.squall.hold = true → s.squall.causes &&& 3#8 ≠ 0#8 → s.squall.clock = false → ∀ high : Nat,
      ((s.squall.causes.getLsbD 0 = true → 100000 ≤ high ∧ s.aon.pfailAt + high ≤ s.now) →
        (s.squall.causes.getLsbD 1 = true → s.aon.vsupAt + 100000 ≤ s.now) →
        ∃ u, exec (.squallRestart high) s = .next u ∧ u.squall = State.reset.squall ∧ u.aon.causeAcc = s.aon.causeAcc ||| 16#7) ∧
      (s.squall.causes.getLsbD 0 = true ∧ high < 100000 ∨ s.squall.causes.getLsbD 1 = true ∧ s.now < s.aon.vsupAt + 100000 →
        exec (.squallRestart high) s = .next s)) ∧
    (s.squall.hold = true → s.squall.causes = sqTHERMAL →
      (s.squall.holdAt + thermalWait s.aon.thermals ≤ s.now → ∃ u, exec .thermalRestart s = .next u ∧ u.squall = State.reset.squall) ∧
      (s.now < s.squall.holdAt + thermalWait s.aon.thermals → exec .thermalRestart s = .next s)))

/-- A domain with nothing to do is fenced, powered down once nothing is in flight, and woken by traffic with a retry counted;
Lull begins when everything is idle, with every domain off, and ends at any of its events (03 R65 to R71). The hold-up probe:
when one is due it charges and runs the script's CHARGE_HOLD entry; 2.1 ms later the load goes on with V0 as read; after
T_LOAD it ends with the measured step and slope and CHARGE_RESUME runs; each is one PMIC transaction, whose acknowledged
answer leads to the next state of the probe (03 R72, R73). It states the completion of `domainGate`, `domainPowerDown`, `domainWake`,
`lullEntry`, `lullExit`, `fabWakeProbe`, `holdupProbe`, `loadPulse` and `probeComplete`. -/
def Obligations.DomainsAndTheProbe : Prop :=
  (∀ s : State,
    (∀ d : Fin 5, s.active = true → (s.reg pPWR 0x100 0x7C#32).getLsbD (2 + d.1) = true → (s.pwr.doms[d]).st = .on →
      (s.pwr.doms[d]).readyAt ≤ s.now → (s.pwr.doms[d]).idleAt + 10 * bits (s.reg pPWR 0x108 200#32) 15 0 ≤ s.now →
      s.domQuiet d = true → ∃ u, exec (.domainGate d) s = .next u ∧ (u.pwr.doms[d]).st = .fenced ∧
        (∀ k : Fin 5, k ≠ d → u.pwr.doms[k] = s.pwr.doms[k]) ∧ u.med = s.med ∧ u.nvm = s.nvm) ∧
    (∀ d : Fin 5, s.awake = true → (s.pwr.doms[d]).st = .fenced → s.domInFlight d = 0 → ∃ u, exec (.domainPowerDown d) s = .next u ∧
      (u.pwr.doms[d]).st = .off ∧ (u.pwr.doms[d]).loaded = false ∧ (∀ k : Fin 5, k ≠ d → u.pwr.doms[k] = s.pwr.doms[k]) ∧
      u.nvm = s.nvm) ∧
    (∀ d : Fin 5, s.active = true → (s.pwr.doms[d]).st ≠ .on → ∃ u, exec (.domainWake d) s = .next u ∧ (u.pwr.doms[d]).st = .on ∧
      (u.pwr.doms[d]).loaded = true ∧ u.pwr.retries = satInc s.pwr.retries ∧
      (∀ k : Fin 5, k ≠ d → u.pwr.doms[k] = s.pwr.doms[k]) ∧ u.nvm = s.nvm) ∧
    (s.active = true → s.pwr.lull = false → (s.reg pPWR 0x100 0x7C#32).getLsbD 0 = true → s.noCommands = true →
      s.probeRunning = false → s.pwr.probeDue = false → s.med.moves = [] → s.med.copies = [] → s.med.ops = [] → s.aon.passOn = false →
      s.pwr.idleSince + 100 * bits (s.reg pPWR 0x10C 100#32) 15 0 ≤ s.now → s.fabQuiet = true →
      ∃ u, exec .lullEntry s = .next u ∧ u.pwr.lull = true ∧ (∀ k : Fin 5, (u.pwr.doms[k]).st = .off) ∧ u.nvm = s.nvm ∧ u.hdr = s.hdr) ∧
    (∀ ev, s.pwr.lull = true → exec (.lullExit ev) s = .next { s with pwr := { s.pwr with lull := false, idleSince := s.now } }) ∧
    (s.active = true → s.dev.level = .full → (s.pwr.doms[(4 : Fin 5)]).st = .off →
      (s.pwr.doms[(4 : Fin 5)]).idleAt + 1000000 ≤ s.now → exec (.fabWakeProbe 0#4) s =
        .next (s.updDom 4 (fun x => { x with idleAt := s.now })))) ∧
  (∀ (s : State) (d : BoardDesc), s.boot.desc = some d → s.i2ciFree = true →
    (∀ i ans, (d.ofRole 2).head? = some i → s.pwr.noProbe = false → s.i2ci.initNext = none → s.probeRunning = false →
      s.probeIsDue = true → s.folding = false → s.pwr.lull = false → ∃ u, exec (.holdupProbe ans) s = .next u ∧
        u.pwr.probeAt = some s.now ∧ u.pwr.probeDue = false ∧ u.pwr.eb ≤ s.pwr.eb ∧
        .pmic i (slice (d.entry i) 8 (fieldLe (d.entry i) 2 1)) ∈ u.outbox) ∧
    (∀ i v b, (d.ofRole 3).head? = some i → s.pwr.probe = .charging → s.pwr.loadAt + 2100 ≤ s.now →
      entryMatches (d.entry i) (b.take (fieldLe (d.entry i) 3 1)) = true →
      ∃ u, exec (.loadPulse v (.bytes b)) s = .next u ∧ u.pwr.nv0 = v ∧ u.pwr.probe = .loaded ∧ u.pwr.loadAt = s.now) ∧
    (∀ i v g b, (d.ofRole 4).head? = some i → s.pwr.probe = .loaded → s.pwr.loadAt + 1000 * d.tLoad ≤ s.now →
      entryMatches (d.entry i) (b.take (fieldLe (d.entry i) 3 1)) = true →
      ∃ u, exec (.probeComplete v g (.bytes b)) s = .next u ∧ u.pwr.probe = .idle ∧ u.pwr.v0 = s.pwr.nv0 ∧
        u.pwr.dV = (s.pwr.nv0 : Int) * 1000 - v ∧ u.pwr.slope = g ∧ u.pwr.holdAt = some s.now ∧ u.bit pPWR 1 = true))

/-- Steps 10, 15 and 16 of a start, the last two at GUST (04 R92): NAND targets that all answer pass and the channels' pads are on;
lanes that all train, with the DRAM's reset and CKE high 200 µs after its power stood (02 R45),
with the mode registers and the capacity of the descriptor make the DRAM pool of N_DRAM buffers, one lane that fails enters
RECOVERY; an extended part whose hash is the slot header's is accepted, another enters RECOVERY (04 R91, R92, R95; 10 R314,
R315). It states the completion of `nandIdCheck`, `dramTrainingDone` and `extendedPartLoaded`. -/
def Obligations.StartChecksPass : Prop :=
  ∀ (s : State) (d : BoardDesc), s.boot.desc = some d → s.active = true →
    (∀ rs as, as = d.targets.map (targetAnswer rs) → s.boot.policy.isSome = true → s.boot.nandOk = false →
      s.dev.level = .none →
      (nandFailures d as = [] → ∃ u, exec (.nandIdCheck rs) s = .next u ∧ u.boot.nandOk = true ∧ u.dev.level = .none ∧
        u.dev.pad.nand = d.chPresent ∧ u.dev.pad.i2ci = true ∧ u.dev.pad.dram = true ∧ u.nvm.cycles = s.cycleCount) ∧
      (nandFailures d as ≠ [] → ∃ u, exec (.nandIdCheck rs) s = .next u ∧ u.boot.nandOk = false ∧ u.dev.level = .recovery)) ∧
    (∀ (sweeps : Vector LaneSweep 5) mr gib us lanes, lanes = sweeps.toList.take (laneCount d.dramType) → s.dev.pad.dram = true →
      s.boot.dramOk = false → s.dev.level = .gust → s.dev.dramPins.at_ + 200 ≤ s.now →
      (lanes.any laneFailed = false → mr = d.dramMr → d.dramGib ≤ gib → ∃ u, exec (.dramTrainingDone sweeps mr gib us) s = .next u ∧
        u.boot.dramOk = true ∧ u.dram.trained = true ∧ u.dev.dramPins.resetHigh = true ∧ u.dev.dramPins.cke = true ∧ u.bpm.dram.size = s.nDram d ∧ u.dev.level = s.dev.level) ∧
      (lanes.any laneFailed = true → ∃ u, exec (.dramTrainingDone sweeps mr gib us) s = .next u ∧ u.boot.dramOk = false ∧
        u.dev.level = .recovery ∧ u.upd.rcvCause = 0x13#8)) ∧
    (∀ b, s.boot.booted = some b → s.boot.dramOk = true → s.boot.extOk = false → s.dev.level = .gust →
      (Config.sha256 (s.norAt (slotBase b + 256 + fieldLe (s.slotHeader b) 0x14 4) (fieldLe (s.slotHeader b) 0x18 4)) =
          hashOf (slice (s.slotHeader b) 0x40 32) →
        exec .extendedPartLoaded s = .next { s with boot := { s.boot with extOk := true } }) ∧
      (Config.sha256 (s.norAt (slotBase b + 256 + fieldLe (s.slotHeader b) 0x14 4) (fieldLe (s.slotHeader b) 0x18 4)) ≠
          hashOf (slice (s.slotHeader b) 0x40 32) →
        ∃ u, exec .extendedPartLoaded s = .next u ∧ u.boot.extOk = false ∧ u.dev.level = .recovery ∧ u.upd.rcvCause = 0x20#8))

/-- GUST, power-fail replay, the gust merge, FULL and RECOVERY: each service level is reached from the one before it once its
steps have passed, GUST with the PMIC's script run and its self-tests passed, FULL with
RST_CAUSE acknowledged, the port pads on and the start remembered as one that reached FULL; RECOVERY only where a check of R95 can
have failed (02 R30; 04 R92, R95, R96, R100, R108; 11 R358; 08 R241, R249). It states the completion of `gust`, `powerFailReplay`,
`gustMerge`, `full` and `recovery`. -/
def Obligations.ServiceLevelsAreReached : Prop :=
  ∀ s : State, s.active = true →
    (∀ kat : BitVec 5, s.dev.level = .none → s.dev.romRecovery = false → s.boot.nandOk = true → s.boot.policy.isSome = true →
      s.pmicSettled = true →
      (kat.getLsbD 3 = false ∨ kat.getLsbD 4 = false → ∃ u, exec (.gust kat) s = .next u ∧ u.dev.level = .recovery) ∧
      (kat.getLsbD 3 = true → kat.getLsbD 4 = true → ∃ u, exec (.gust kat) s = .next u ∧ u.dev.level = .gust ∧
        u.boot.tGust = some ((s.now - s.boot.releaseAt) / 1000) ∧ u.bit pUPD 0 = true)) ∧
    (s.dev.level = .gust → s.boot.extOk = true → s.boot.replayed = false → ∃ u, exec .powerFailReplay s = .next u ∧
      u.boot.replayed = true ∧ u.med.scrubPass = true ∧ u.dev.level = .gust) ∧
    (∀ (zone : BitVec 20) (z : Zone), s.zone zone.toNat = some z → s.dev.level = .gust → s.boot.replayed = true → z.toMerge = true →
      s.probeSettled = true → s.inFlightTo zone.toNat = false → ∃ u, exec (.gustMerge zone) s = .next u ∧
        u.zone zone.toNat = some { z with inGustSet := false, used := false } ∧
        (∀ k, k ≠ zone.toNat → u.zone k = s.zone k) ∧ u.nvm.chains = s.nvm.chains) ∧
    (∀ d, s.boot.desc = some d → s.dev.level = .gust → s.boot.replayed = true → s.boot.dramOk = true → s.probeSettled = true →
      s.nvm.zones.any (fun p => p.2.toMerge) = false → ∃ u, exec .full s = .next u ∧ u.dev.level = .full ∧ u.aon.rstCause = 0#7 ∧
        u.nvm.reachedFull = true ∧ u.dev.pad.vfl = d.ports ∧ u.aon.evLatch = [] ∧ u.bit pUPD 0 = true) ∧
    (∀ cause detail : Byte,
      (s.checkFails cause detail = true → ∃ u, exec (.recovery cause detail) s = .next u ∧ u.dev.level = .recovery ∧
        u.upd.rcvCause = cause ∧ u.upd.rcvDetail = detail ∧ u.bit pUPD 0 = true) ∧
      (s.checkFails cause detail = false → exec (.recovery cause detail) s = .next s))

/-- Discrete inputs: an event pulse outside reset is counted, ends Lull, sets its bit and, before FULL or in Squall, is latched,
and one in reset is latched; the
motion state follows the level after its hold time and turns UNSTABLE at the eighth change in 10 s; and an input edge that is
selected sets its bit (13 R420 to R424). It states the completion of `eventInPulse`, `motionChange` and `gpioInputEdge`. -/
def Obligations.DiscreteInputsAct : Prop :=
  ∀ s : State,
    (s.active = true → s.dev.level ≠ .full → ∃ u, exec .eventInPulse s = .next u ∧ u.gpio.count = satInc s.gpio.count ∧
      u.pwr.lull = false ∧ u.bit pGPIO 4 = true ∧ u.aon.evLatch = s.aon.evLatch ++ [opWord s.pulseTime] ∧ u.nvm = s.nvm) ∧
    (s.awake = true → s.squall.running = true → ∃ u, exec .eventInPulse s = .next u ∧ u.gpio.count = satInc s.gpio.count ∧
      u.bit pGPIO 4 = true ∧ u.aon.evLatch = s.aon.evLatch ++ [opWord s.pulseTime] ∧ u.nvm = s.nvm) ∧
    (s.awake = false → exec .eventInPulse s =
      .next { s with aon := { s.aon with evLatch := s.aon.evLatch ++ [opWord s.pulseTime] } }) ∧
    (∀ level, s.awake = true → level ≠ s.pins.vmotion → ∃ u, exec (.motionChange level) s = .next u ∧ u.pins.vmotion = level ∧
      u.gpio.changeAt = s.now ∧
      (7 ≤ (s.gpio.changes.filter (fun a => s.now < a + 10000000)).length → u.gpio.motion = .unstable) ∧
      ((s.gpio.changes.filter (fun a => s.now < a + 10000000)).length < 7 → u.gpio.motion = s.gpio.motion)) ∧
    (s.awake = true → s.pins.vmotion = false → s.gpio.motion = .moving → s.gpio.changeAt + 30000000 ≤ s.now →
      ∃ u, exec (.motionChange false) s = .next u ∧ u.gpio.motion = .stationary ∧ u.bit pGPIO 5 = true ∧ u.pins = s.pins) ∧
    (s.awake = true → s.pins.vmotion = true → s.gpio.motion = .stationary → s.gpio.changeAt + 2000000 ≤ s.now →
      ∃ u, exec (.motionChange true) s = .next u ∧ u.gpio.motion = .moving ∧ u.bit pGPIO 5 = true ∧ u.pins = s.pins) ∧
    (∀ (n : Fin 4) d, s.awake = true → s.boot.desc = some d → d.gpio n.1 0 = 0 → s.pins.gpio.getLsbD n.1 = false →
      (s.reg pGPIO 0x108 0#32).getLsbD n.1 = true → ∃ u, exec (.gpioInputEdge n true) s = .next u ∧ u.bit pGPIO n.1 = true ∧
        u.pins.gpio = s.pins.gpio ||| (1#4 <<< n.1) ∧ u.nvm = s.nvm)

/-- The PMIC script: the INIT entry that is due runs, and its acknowledged match passes on to the next; a first
or second NACK is tried again after 1 ms; STATUS runs at its period and keeps what it read, a mismatch being the PMIC fault;
and a bus that stays low after its recovery is STUCK with the hold-up state SKIPPED, until a retry frees it (13 R414 to R419;
03 R78). It states the completion of `scriptEntry`, `entryRetry`, `statusPoll`, `stuckBusRecovery` and `stuckRetry`. -/
def Obligations.TheScriptRuns : Prop :=
  ∀ (s : State) (d : BoardDesc), s.boot.desc = some d →
    (∀ (i : Fin 20) b, s.i2ciFree = true → s.i2ci.initNext = some i.1 → s.i2ci.initAt ≤ s.now → d.role i.1 = 1 →
      entryMatches (d.entry i.1) (b.take (fieldLe (d.entry i.1) 3 1)) = true →
      ∃ u, exec (.scriptEntry i (.bytes b)) s = .next u ∧ u.i2ci.initNext = d.initFrom (i.1 + 1) ∧ u.i2ci.tries = 0 ∧
        u.i2ci.retryIdx = none ∧ u.pwr = s.pwr) ∧
    (∀ (i : Fin 20), s.i2ciFree = true → s.i2ci.initNext = some i.1 → s.i2ci.initAt ≤ s.now → d.role i.1 = 1 → s.i2ci.tries < 2 →
      ∃ u, exec (.scriptEntry i .nack) s = .next u ∧ u.i2ci.initNext = some i.1 ∧ u.i2ci.tries = s.i2ci.tries + 1 ∧
        u.i2ci.retryIdx = some i.1 ∧ u.i2ci.retryAt = s.now + 1000 ∧ u.i2ci.nacks = satInc s.i2ci.nacks) ∧
    (∀ i b, s.active = true → s.i2ci.stuck = false → s.i2ci.retryIdx = some i → s.i2ci.retryAt ≤ s.now → d.role i = 1 →
      entryMatches (d.entry i) (b.take (fieldLe (d.entry i) 3 1)) = true →
      ∃ u, exec (.entryRetry (.bytes b)) s = .next u ∧ u.i2ci.initNext = d.initFrom (i + 1) ∧ u.i2ci.retryIdx = none) ∧
    (∀ i b, (d.ofRole 5).head? = some i → s.i2ciFree = true → s.i2ci.ended = false → s.i2ci.initNext = none →
      s.probeRunning = false → 0 < fieldLe d.script 4 1 → s.i2ci.statusAt + fieldLe d.script 4 1 * 1000000 ≤ s.now →
      ∃ u, exec (.statusPoll (.bytes b)) s = .next u ∧ u.i2ci.statusAt = s.now ∧
        u.i2ci.lastStatus = BitVec.ofNat 32 (ofLe (b.take (fieldLe (d.entry i) 3 1))) ∧
        u.i2ci.pmicFault = !entryMatches (d.entry i) (b.take (fieldLe (d.entry i) 3 1))) ∧
    (s.active = true → s.dev.pad.i2ci = true → s.i2ci.stuck = false → ∃ u, exec (.stuckBusRecovery none) s = .next u ∧
      u.i2ci.stuck = true ∧ u.i2ci.recoveries = satInc s.i2ci.recoveries ∧ u.pwr.hold = .skipped ∧ u.pwr.eb ≤ s.pwr.eb ∧
      u.bit pI2CI 0 = true) ∧
    (∀ n : Fin 10, s.active = true → s.i2ci.stuck = true → s.i2ci.stuckAt + 60000000 ≤ s.now →
      ∃ u, exec (.stuckRetry (some n)) s = .next u ∧ u.i2ci.stuck = false ∧ u.i2ci.stuckAt = s.now ∧ u.pwr = s.pwr)

/-- The I²C target: POINTER selects a window and an address; a READ_N of 1 to 32 and a read return that many bytes, the
former with their PEC; WRITE32 to a page that I2CT_WRITE_PAGES does not open is NACKed and counted; METER_REQ below FULL is
refused; with PEC on a wrong PEC byte discards the command; an alert is answered once with the address; and an SCL timeout
resets the port (13 R406 to R413). It states the completion of `pointer`, `write32`, `meterReq`, `readN`, `i2cRead`, `alertResponse`
and `sclTimeout`. -/
def Obligations.TheI2cTargetAnswers : Prop :=
  ∀ s : State, s.i2cOn = true →
    (∀ (w : Byte) (a : Word) (ok : Bool), s.pecOn = false → w.toNat < 4 → ∃ u, exec (.pointer w a ok) s = .next u ∧
      u.i2ct = { s.i2ct with window := Fin.ofNat 4 w.toNat, ptr := a, txns := satInc s.i2ct.txns, readN := none } ∧ u.nvm = s.nvm) ∧
    (∀ (w : Byte) (a : Word), s.pecOn = true → ∃ u, exec (.pointer w a false) s = .next u ∧ u.bit pI2CT 2 = true ∧
      .i2cNack ∈ u.outbox ∧
      u.i2ct = { s.i2ct with pecErr := satInc s.i2ct.pecErr, txns := satInc s.i2ct.txns, readN := none }) ∧
    (∀ (off v : Word) (ok : Bool), s.pecOn = false → s.i2cWritable (Fin.ofNat 128 (off.toNat / 4096)) = false →
      ∃ u, exec (.write32 off v ok) s = .next u ∧ u.bit pI2CT 1 = true ∧ (u.hdr[pI2CT]).errCause = 0x82#8 ∧
        .i2cNack ∈ u.outbox ∧ u.regs = s.regs ∧ u.nvm = s.nvm) ∧
    (∀ (t : Byte) (q : QWord) (ok : Bool), s.pecOn = false → s.i2ct.meterSt ≠ 1#2 → s.dev.level ≠ .full →
      ∃ u, exec (.meterReq t q ok) s = .next u ∧ u.i2ct.meterSt = 3#2 ∧ u.i2ct.meter = [] ∧ u.nvm = s.nvm) ∧
    (∀ (n : Byte) (ok : Bool), 1 ≤ n.toNat → n.toNat ≤ 32 → exec (.readN n ok) s =
      .next (s.updI2ct (fun x => { x with txns := satInc x.txns, readN := some n.toNat }))) ∧
    (∀ n k, s.i2ct.readN = some k → ∃ u b p, exec (.i2cRead n) s = .next u ∧ b.length = k ∧ .i2c (b ++ [p]) ∈ u.outbox ∧
      u.i2ct.readN = none) ∧
    (∀ n, s.i2ct.readN = none → s.pecOn = true → ∃ u, exec (.i2cRead n) s = .next u ∧ .i2c (List.replicate n 0xFF#8) ∈ u.outbox ∧
      u.i2ct = { s.i2ct with txns := satInc s.i2ct.txns }) ∧
    (s.alertEn = true → s.i2ct.alert = true → ∃ u k, exec .alertResponse s = .next u ∧ u.i2ct = { s.i2ct with alert := false } ∧
      k < 2 ∧ .i2c [BitVec.ofNat 8 (2 * s.dev.strap.i2cAddr.toNat + k)] ∈ u.outbox) ∧
    (∃ u, exec .sclTimeout s = .next u ∧ u.bit pI2CT 3 = true ∧
      u.i2ct = { s.i2ct with timeouts := satInc s.i2ct.timeouts, readN := none, latchAt := none })

/-! ## 09, 10 and 11: the flash, the maps, the buffers, the DRAM and the records -/

/-- The operation a die issues next starts when its channel is powered and its limits allow, and no buffer, zone or command
changes; a read of the host's class suspends an erase of the refresh class that may still be suspended; the erase goes on
once no such read waits; a program that passes gives up its buffers; one that fails raises its status bit and retires its
block; an erase that passes adds one to its block's wear (09 R270 to R273, R291, R296). It states the completion of `flashIssue`,
`eraseResume`, `flashProgramDone` and `flashEraseDone`. -/
def Obligations.FlashOperationsRun : Prop :=
  ∀ (s : State) (k : Nat) (op : FlashOp), s.med.ops.find k = some op →
    (∀ d, s.boot.desc = some d → s.nextIssue d op.die = some (k, op) → s.mediaOn = true → s.chanOn (op.die.1 / 32) = true →
      s.dbg.seqHalted.getLsbD (op.die.1 / 32) = false → s.nvm.failedDies.contains op.die.1 = false →
      s.inFlight (fun _ => true) < 512 → s.inFlight (fun o => o.die.1 / 32 = op.die.1 / 32) < 64 →
      s.inFlight (fun o => o.die = op.die) < 2 →
      ∃ u, exec (.flashIssue op.die) s = .next u ∧ u.nvm.zones = s.nvm.zones ∧ u.nvm.conv = s.nvm.conv ∧ u.bpm = s.bpm ∧
        u.hqm = s.hqm ∧ (op.isRead = false → u.nvm = s.nvm ∧ u.hdr = s.hdr) ∧
        (op.cls ≠ 3 → u.med.ops.find k = some { op with issued := true, issue := k }) ∧
        (op.cls = 3 → op.isRead = true → s.boot.noParams = false → Config.suspendSupport d.nandId = true →
          (∃ p ∈ s.med.ops, p.2.die = op.die ∧ p.2.issued = true ∧ p.2.isErase = true ∧ p.2.cls = 6 ∧ p.2.suspended = false ∧
            p.2.suspends < 4) →
          (u.med.nfc.toList.getD (op.die.1 / 32) NfcS.reset).suspends =
            satInc (s.med.nfc.toList.getD (op.die.1 / 32) NfcS.reset).suspends)) ∧
    (op.suspended = true → s.squall.running = false →
      s.med.ops.any (fun p => p.2.die = op.die && p.2.cls = 3 && !p.2.softWait && !p.2.rebuildsPending) = false →
      ∃ u, exec (.eraseResume op.die) s = .next u ∧ u.med.ops.find k = some { op with suspended := false } ∧ u.nvm = s.nvm ∧
        u.bpm = s.bpm) ∧
    (∀ d key first n, s.boot.desc = some d → op.kind = .program key first n → op.issued = true →
      (∃ u, exec (.flashProgramDone k true) s = .next u ∧
        ∀ h ∈ op.bufs, (∀ x, s.bpm.bufs.find h = some x → x.quarantined = false) → u.bpm.bufs.has h = false) ∧
      (∀ b blk, s.nvm.sbs.find key = some b → b.blocks.find? (fun x => x.1 = op.die.1) = some (op.die.1, blk) →
        ((s.med.dies.find op.die.1).getD { fails := 0, passed := 0, lastAt := 0 }).fails < 15 →
        s.nvm.failedDies.contains op.die.1 = false →
        ∃ u, exec (.flashProgramDone k false) s = .next u ∧ u.bit (pNFC (Fin.ofNat 8 (op.die.1 / 32))) 0 = true ∧
          u.nvm.bad.has (op.die.1 * 65536 + blk) = true)) ∧
    (∀ key blk, op.kind = .erase key blk → op.issued = true → op.suspended = false →
      ∃ u, exec (.flashEraseDone k true) s = .next u ∧ (s.med.rewrites = [] → u.med.ops.has k = false) ∧
        u.nvm.wear.find (op.die.1 * 65536 + blk) =
          some (min ((s.nvm.wear.find (op.die.1 * 65536 + blk)).getD 0 + 1) 0xFFFFFF) ∧
        u.nvm.zones = s.nvm.zones ∧ u.nvm.conv = s.nvm.conv)

/-- The read ladder, for a read of the host: a hard read that corrects, a re-read that corrects, a soft decode that corrects and a
parity rebuild that succeeds each settle the read and are counted at rung 1, 2, 3 and 4; a read that fails waits for the soft
decoder, one that fails there waits for the rebuild, and one that fails there too is uncorrectable, LDPC bit 0, and its command has
lost that block (09 R274 to R280; 10 R340). The reads of a copy and of a scrub go the same rungs (09 R276). It states the completion
of `flashReadDone`, `softDecode` and `stripeParityRebuild`. -/
def Obligations.TheReadLadderRuns : Prop :=
  ∀ (s : State) (k : Nat) (op : FlashOp) (key slot : Nat) (who : ReadFor),
    s.med.ops.find k = some op → op.kind = .read key slot who →
    (∀ (tag : Tag) (block : Nat), who = .host tag block →
      (op.issued = true →
        (∃ u, exec (.flashReadDone k .ok) s = .next u ∧ u.med.ops.has k = false ∧ u.nvm.zones = s.nvm.zones ∧
          u.med.rungs.toList.getD 0 0 = satInc (s.med.rungs.toList.getD 0 0) ∧ u.nvm.conv = s.nvm.conv) ∧
        (s.boot.noParams = false → ∀ n, ∃ u, exec (.flashReadDone k (.reread n)) s = .next u ∧ u.med.ops.has k = false ∧
          u.med.rungs.toList.getD 1 0 = satInc (s.med.rungs.toList.getD 1 0) ∧
          (∀ b, 4 < n.1 → s.nvm.sbs.find key = some b → ∃ x, u.nvm.sbs.find key = some x ∧ x.listed = true))) ∧
      (∀ r, s.med.softIn = k :: r → ∀ e : SoftResult, e ≠ .failed →
        ∃ u, exec (.softDecode e) s = .next u ∧ u.med.ops.has k = false ∧
          u.med.rungs.toList.getD 2 0 = satInc (s.med.rungs.toList.getD 2 0) ∧ u.med.softIn = r ++ s.med.softQ.take 1) ∧
      (op.rebuildsPending = true → s.dbg.halted.getLsbD 1 = false →
        (∀ b, s.nvm.sbs.find key = some b → s.doubleLoss b = false → ∃ u, exec (.stripeParityRebuild k true) s = .next u ∧
          u.med.ops.has k = false ∧ u.med.rungs.toList.getD 3 0 = satInc (s.med.rungs.toList.getD 3 0) ∧ u.bit pXPAR 0 = true ∧
          u.med.rebuilds = satInc s.med.rebuilds) ∧
        (∃ u, exec (.stripeParityRebuild k false) s = .next u ∧ u.med.ops.has k = false ∧
          u.med.rungs.toList.getD 4 0 = satInc (s.med.rungs.toList.getD 4 0) ∧ u.bit pLDPC 0 = true ∧
          ∀ c, s.cmd tag = some c → c.mediaFail = none → u.cmd tag = some { c with mediaFail := some block }))) ∧
    (op.issued = true → s.boot.noParams = false → s.med.softIn.length < 4 → ∃ u, exec (.flashReadDone k .failed) s = .next u ∧
      u.med.ops.find k = some { op with issued := false, softWait := true } ∧ u.med.softIn = s.med.softIn ++ [k]) ∧
    (∀ r, s.med.softIn = k :: r → ∃ u, exec (.softDecode .failed) s = .next u ∧
      u.med.ops.find k = some { op with softWait := false, rebuildsPending := true } ∧ u.nvm.zones = s.nvm.zones ∧
      u.nvm.conv = s.nvm.conv)

/-- The map's lines and journal: a journal write empties the journal, puts the TRIM records it holds on media and completes the TRIMs
it covers; a walker is granted a line nobody holds and waits in turn, once, for one that another holds; a line wanted by another is
recalled after its 1 µs and granted, once written back, to the one that waited longest (01 R25 to R28; 09 R285; 07 R205). It states
the completion of `mapJournalWrite`, `mapLineRequest`, `mapLineRecall` and `writebackDone`. -/
def Obligations.TheMapMoves : Prop :=
  ∀ s : State,
    (s.mediaOn = true → s.squall.running = false → s.dev.level = .full → s.med.journalAt.isSome = true →
      ∃ u, exec .mapJournalWrite s = .next u ∧ u.med.journal = 0 ∧ u.med.journalAt = none ∧ u.med.jlines = [] ∧ u.bpm = s.bpm ∧
        u.nvm = { s.nvm with trims := s.nvm.trims ++ s.med.jtrims } ∧
        ∀ tag c, s.cmd tag = some c → c.desc.opc = 0x05#8 → c.phase = .waiting → u.answered tag 0 0 0) ∧
    (∀ line w, s.med.dir.find line = none → ∃ u, exec (.mapLineRequest line [w]) s = .next u ∧
      u.med.dir.find line = some { owner := some w, wb := false, at_ := s.now, queue := [] } ∧ u.nvm = s.nvm) ∧
    (∀ line w l, s.med.dir.find line = some l → l.owner = some w ∨ w ∈ l.queue → exec (.mapLineRequest line [w]) s = .next s) ∧
    (∀ line w l, s.med.dir.find line = some l → l.owner ≠ some w → w ∉ l.queue → ∃ u, exec (.mapLineRequest line [w]) s = .next u ∧
      u.med.dir.find line = some { l with queue := l.queue ++ [w] } ∧ u.med.dirWaits = satInc s.med.dirWaits ∧ u.nvm = s.nvm) ∧
    (∀ line l, s.med.dir.find line = some l → l.owner.isSome = true → l.queue ≠ [] → l.at_ + 1 ≤ s.now →
      exec (.mapLineRecall line) s =
        .next { s with med := { s.med with dir := s.med.dir.put line { l with owner := none, wb := true } } }) ∧
    (∀ line l, s.med.dir.find line = some l → l.wb = true →
      (l.queue = [] → ∃ u, exec (.writebackDone line) s = .next u ∧ u.med.dir.has line = false ∧ u.nvm = s.nvm) ∧
      (∀ w q, l.queue = w :: q → (∀ m ∈ s.med.moves, m.walker = .gc → m.programmed = false) → ∃ u, exec (.writebackDone line) s = .next u ∧
        u.med.dir.find line = some { owner := some w, wb := false, at_ := s.now, queue := q } ∧ u.nvm = s.nvm))

/-- Copies: Eddy's fold, a refresh and garbage collection begin a copy of the valid data they select, whose reads are queued, and
lose no zone, no map entry and no block; the fold that has been programmed and owns its lines changes the map and is over; a scrub
reads the next row of its superblock; and garbage collection of a group begins below 4 free superblocks and ends at 8 (09 R286, R293
to R301; 01 R19). It states the completion of `eddyFold`, `foldMapUpdate`, `refresh`, `scrub` and `garbageCollection`. -/
def Obligations.CopiesLoseNothing : Prop :=
  ∀ (s : State) (d : BoardDesc), s.boot.desc = some d → s.copying = true →
    (∀ key b p, s.probeRunning = false → s.foldPick = some (key, b, p) → s.foldItems key b p ≠ [] →
      ∃ u c, exec .eddyFold s = .next u ∧ u.med.copies = s.med.copies ++ [c] ∧ c.walker = .eddy ∧ c.src = key ∧ c.use = .native ∧
        c.group = b.group.1 ∧ c.items = s.foldItems key b p ∧ u.nvm = s.nvm ∧ u.bpm = s.bpm) ∧
    (s.foldPick = none → exec .eddyFold s = .next s) ∧
    (∀ m, s.med.moves.find? (fun m => m.walker = .eddy && m.programmed) = some m → (∀ it ∈ m.items, s.ownsLine .eddy it.2.2 = true) →
      ∃ u, exec .foldMapUpdate s = .next u ∧
        m ∉ u.med.moves ∧ u.nvm.zones = s.nvm.zones ∧ u.nvm.conv = s.nvm.conv ∧ u.bpm = s.bpm) ∧
    (∀ key b, s.nvm.sbs.find key = some b → s.refreshDueFor d b = true → s.inMove key = false →
      ∃ u, exec (.refresh key) s = .next u ∧ u.med.refreshed = satInc s.med.refreshed ∧ u.nvm.zones = s.nvm.zones ∧
        u.nvm.conv = s.nvm.conv ∧ u.bpm = s.bpm) ∧
    (∀ key b, s.nvm.sbs.find key = some b → b.use ≠ .free → s.thr.level ≠ 7 → s.med.scrubPass = true →
      b.scrubbed < s.med.scrubAt → b.scrubRow * b.rowSlots d < b.slots → ∃ u, exec (.scrub key) s = .next u ∧
        u.nvm.sbs.find key = some { b with scrubRow := b.scrubRow + 1 } ∧ u.nvm.zones = s.nvm.zones ∧ u.nvm.conv = s.nvm.conv ∧
        u.bpm = s.bpm) ∧
    (∀ group : Fin 16, group.1 < d.groups → s.thr.level ≠ 7 →
      (s.freeNative d group.1 < 4 → ∃ u, exec (.garbageCollection group) s = .next u ∧ group.1 ∈ u.med.collecting ∧
        u.nvm.zones = s.nvm.zones ∧ u.nvm.conv = s.nvm.conv ∧ u.bpm = s.bpm) ∧
      (8 ≤ s.freeNative d group.1 → ∃ u, exec (.garbageCollection group) s = .next u ∧ group.1 ∉ u.med.collecting ∧
        u.nvm = s.nvm))

/-- Buffers: an allocation above the owner's reserve takes the pool's next buffer with its new owner, one below it pauses; a
bad marker starts the rebuild of the list, which ends with exactly the buffers nobody holds; a handoff the taker accepts
changes the owner; the owner's free ends the buffer, a quarantined one staying out of the free list, and another's free quarantines it and raises BPM bit 2 (10
R318 to R329, R340). It states the completion of `bufferAllocate`, `listRebuildEnd`, `bufferHandoff` and `bufferFree`. -/
def Obligations.BuffersComeAndGo : Prop :=
  ∀ s : State,
    (∀ o (tag : Tag), s.active = true → o ≠ .none →
      (∀ h r, (s.bpm.pool (s.homeDram o)).rebuild = false → s.reserveOf o < (s.bpm.pool (s.homeDram o)).free →
        (PoolS.refill 64 (s.bpm.pool (s.homeDram o))).cache = h :: r →
        ∃ u x, exec (.bufferAllocate o tag true) s = .next u ∧ u.bpm.bufs.find h = some x ∧ x.owner = o ∧ x.dirty = false ∧
          (∀ j, j ≠ h → u.bpm.bufs.find j = s.bpm.bufs.find j) ∧ u.nvm = s.nvm) ∧
      ((s.bpm.pool (s.homeDram o)).free ≤ s.reserveOf o → ∃ u, exec (.bufferAllocate o tag true) s = .next u ∧
        u.bpm = { s.bpm with pauses := satInc s.bpm.pauses } ∧ u.nvm = s.nvm) ∧
      ((s.bpm.pool (s.homeDram o)).rebuild = false → 0 < (s.bpm.pool (s.homeDram o)).free →
        ∃ u, exec (.bufferAllocate o tag false) s = .next u ∧ (u.bpm.pool (s.homeDram o)).rebuild = true ∧ u.bit pBPM 1 = true ∧
          u.bpm.bufs = s.bpm.bufs)) ∧
    (∀ p, (s.bpm.pool (decide (p = .dram))).rebuild = true → ∃ u, exec (.listRebuildEnd p) s = .next u ∧
      (u.bpm.pool (decide (p = .dram))).rebuild = false ∧ u.bpm.bufs = s.bpm.bufs ∧
      ∀ h, h ∈ (u.bpm.pool (decide (p = .dram))).list ↔
        (if p = .dram then 0x80000 else 0) ≤ h ∧ h < (s.bpm.pool (decide (p = .dram))).top ∧ s.bpm.bufs.has h = false ∧
          s.bpm.removedH.contains h = false) ∧
    (∀ h b, s.bpm.bufs.find h = some b →
      (∀ toO, b.quarantined = false → toO ≠ .none →
        exec (.bufferHandoff h b.owner toO true) s = .next (s.updBuf h (fun x => { x with owner := toO }))) ∧
      (isDram h = true ∧ h < s.bpm.dram.top ∨ h < s.bpm.sram.top →
        (b.owner ≠ .none → b.quarantined = false → ∃ u, exec (.bufferFree h b.owner) s = .next u ∧ u.bpm.bufs.has h = false ∧
          (∀ j, j ≠ h → u.bpm.bufs.find j = s.bpm.bufs.find j) ∧ u.nvm = s.nvm) ∧
        (b.owner ≠ .none → b.quarantined = true → ∃ u, exec (.bufferFree h b.owner) s = .next u ∧ u.bpm.bufs.has h = true ∧
          u.nvm = s.nvm) ∧
        (∀ o, o ≠ b.owner → s.bpm.removedH.contains h = false → ∃ u, exec (.bufferFree h o) s = .next u ∧ u.bit pBPM 2 = true ∧
          u.bpm.bufs.find h = some { b with quarantined := true })))

/-- DRAM upkeep: a refresh that falls due, tREFI after the last, while a real-time request runs is postponed, the eighth is forced;
the postponed ones are paid back once no request runs; a patrol round of the day that corrects a word counts it, and an
uncorrectable word gives its address, or, in a memory the controller itself works in, starts Squall (10 R309 to R312, R319, R323). A
programming pass takes every record of the event buffer, loses none, and ends, once its programs have ended, with those it took
out of the buffer, the first 4,096 of a drive's life in the permanent area, and EVR bit 2 (11 R364 to R366). It states the completion
of `refreshDue`, `refreshPayback`, `patrolScrub`, `evrProgrammingPass` and `evrPassEnd`. -/
def Obligations.DramAndRecordsAreKept : Prop :=
  (∀ s : State,
    (1000 * s.now < s.dram.refAt → exec .refreshDue s = .next s) ∧
    (s.dram.trained = true → s.dram.refAt ≤ 1000 * s.now → s.pwr.lull = false → s.squall.hold = false →
      (s.rtActive = false → exec .refreshDue s = .next { s with dram := { s.dram with refAt := s.dram.refAt + s.trefi } }) ∧
      (s.rtActive = true → s.dram.postponed < 7 → exec .refreshDue s =
        .next { s with dram := { s.dram with refAt := s.dram.refAt + s.trefi, postponed := s.dram.postponed + 1 } }) ∧
      (s.rtActive = true → 7 ≤ s.dram.postponed → ∃ u, exec .refreshDue s = .next u ∧
        u.dram = { s.dram with refAt := s.dram.refAt + s.trefi, forced := satInc s.dram.forced } ∧ u.bit pDRAM 2 = true)) ∧
    (s.rtActive = false → exec .refreshPayback s =
      .next { s with dram := { s.dram with payback := satAdd s.dram.payback s.dram.postponed, postponed := 0 } }) ∧
    (s.active = true → s.dram.trained = true → s.pwr.lull = false →
      (s.dram.patrolDay = some (s.opSecs / 86400) → ∀ l, exec (.patrolScrub l) s = .next s) ∧
      (s.dram.patrolDay ≠ some (s.opSecs / 86400) →
        (exec (.patrolScrub []) s = .next { s with
          dram := { s.dram with passes := s.dram.passes + 1, patrolDay := some (s.opSecs / 86400) } }) ∧
        (∀ a : DWord, s.region .dram a.toNat ≠ .unused → ∃ u,
          exec (.patrolScrub [{ mem := .dram, addr := a, uncorrectable := false }]) s = .next u ∧
          u.dram.ce = satInc s.dram.ce ∧ u.dram.ue = s.dram.ue ∧ u.dram.passes = s.dram.passes + 1 ∧ u.bit pDRAM 0 = true ∧
          u.bpm = s.bpm) ∧
        (∀ (m : MemKind) (a : DWord), m ≠ .dram → s.region m a.toNat ≠ .unused → ∃ u,
          exec (.patrolScrub [{ mem := m, addr := a, uncorrectable := false }]) s = .next u ∧
          u.sram.ce = satInc s.sram.ce ∧ u.dram.ce = s.dram.ce ∧ u.bpm = s.bpm) ∧
        (∀ (a : DWord) h, s.region .dram a.toNat = .buffer h → s.bpm.bufs.find h = none → ∃ u,
          exec (.patrolScrub [{ mem := .dram, addr := a, uncorrectable := true }]) s = .next u ∧
          u.dram.ue = satInc s.dram.ue ∧ u.dram.ueAddr = a ∧ u.bit pDRAM 1 = true ∧ u.nvm = s.nvm) ∧
        (∀ (m : MemKind) (a : DWord), s.region m a.toNat = .own → ∃ u,
          exec (.patrolScrub [{ mem := m, addr := a, uncorrectable := true }]) s = .next u ∧ u.squall.running = true ∧
          u.squall.causes = sqSOFTWARE ∧
          (if m = .dram then u.dram.ue = satInc s.dram.ue else u.sram.ue = satInc s.sram.ue)))))  ∧
  (∀ s : State,
    (s.active = true → s.boot.tGust.isSome = true → s.aon.passOn = false → s.passDue = true →
      ∃ u, exec .evrProgrammingPass s = .next u ∧ u.aon.passOn = true ∧ (∀ b ∈ u.aon.evBuf, b.taken = true) ∧
        u.aon.evBuf.map (fun b => b.ev) = s.aon.evBuf.map (fun b => b.ev) ∧ u.nvm = s.nvm) ∧
    (s.aon.passOn = false ∨ s.passOwes = true → exec .evrPassEnd s = .next s) ∧
    (s.awake = true → s.aon.passOn = true → s.passOwes = false → ∃ u, exec .evrPassEnd s = .next u ∧ u.aon.passOn = false ∧
      u.aon.evBuf = s.aon.evBuf.filter (fun b => !b.taken) ∧ u.bit pEVR 2 = true ∧
      (∀ r ∈ s.nvm.permanent, r ∈ u.nvm.permanent) ∧
      ∀ b ∈ s.aon.evBuf, b.taken = true → b.ev.seq < 4096 → b.ev ∈ u.nvm.permanent))

/-! ## 14: links, packets, routes, copies and the mirrored pair -/

/-- A link comes up: block lock on a port in TRAINING enters HELLO, which a certificate of the fleet answers, and the peer's
verified confirmation makes it UP with the keys of the table "Link keys"; a bring-up of 100 ms fails, a failed port tries
again after 10 s, an UP port whose sequence numbers run out rekeys, and loss of block lock leaves the link with balanced
credits and no key (14 R435 to R442). It states the completion of `blockLock`, `hello`, `confirm`, `bringupTimeout`, `linkRetry`,
`rekey` and `blockLockLoss`. -/
def Obligations.LinksComeUp : Prop :=
  ∀ (s : State) (port : Fin 4),
    (s.linkable = true → s.vfl[port].st = .training → s.vfl[port].lock = false →
      ∃ u, exec (.blockLock port) s = .next u ∧ u.vfl[port].st = .hello ∧ u.vfl[port].lock = true ∧ u.vfl[port].lockAt = s.now ∧
        u.vfl[port].bringups = satInc s.vfl[port].bringups ∧ ∀ q, q ≠ port → u.vfl[q] = s.vfl[q]) ∧
    (∀ fleet own cert eph sig, s.linkable = true → s.nvm.fleetKey = some fleet → s.nvm.cert = some own → s.vfl[port].st = .hello →
      certOk fleet cert = true → Config.validPoint eph = true → s.sign.identity = some sig →
      ∃ u, exec (.hello port cert eph) s = .next u ∧ u.vfl[port].st = .hello ∧ u.vfl[port].peerCert = cert ∧
        u.vfl[port].peer = certSerial cert ∧ u.vfl[port].peerEph = eph) ∧
    (∀ fleet own cert eph, s.linkable = true → s.nvm.fleetKey = some fleet → s.nvm.cert = some own → s.vfl[port].st = .hello →
      certOk fleet cert = false → ∃ u, exec (.hello port cert eph) s = .next u ∧ u.vfl[port].st = .failed ∧
        u.bit (pVFL port) 2 = true) ∧
    (∀ own sig, s.linkable = true → s.nvm.cert = some own → s.vfl[port].st = .hello → s.vfl[port].peerCert ≠ [] →
      s.vfl[port].peerEph ≠ 0 → s.vfl[port].ownEph ≠ 0 →
      Config.ecdsaVerify (Config.decompressPub (certKey s.vfl[port].peerCert)) (hashBytes (s.vfl[port].transcript own)) sig = true →
      ∃ u, exec (.confirm port sig) s = .next u ∧ u.vfl[port].st = .up ∧ u.vfl[port].key = s.vfl[port].keyed.key ∧
        u.vfl[port].nbr = certAddr s.vfl[port].peerCert ∧ u.vfr.advDue = true ∧ u.bit (pVFL port) 0 = true) ∧
    (s.fabricRuns = true → s.vfl[port].st = .hello → s.vfl[port].lockAt + 100000 ≤ s.now →
      ∃ u, exec (.bringupTimeout port) s = .next u ∧ u.vfl[port].st = .failed ∧ u.vfl[port].failAt = s.now ∧
        u.bit (pVFL port) 2 = true) ∧
    (s.linkable = true → s.vfl[port].st = .failed → s.vfl[port].failAt + 10000000 ≤ s.now →
      exec (.linkRetry port) s = .next (s.updVfl port (fun x => { x with st := .training, lock := false })).advDue) ∧
    (s.linkable = true → s.vfl[port].st = .up → s.vfl[port].rekeying = false →
      s.vfl[port].seqOut.any (fun q => decide (0xFFFF0000 ≤ q)) = true → s.sign.drbg = 1#2 →
      ∃ u, exec (.rekey port) s = .next u ∧ u.vfl[port].st = .up ∧ u.vfl[port].rekeying = true ∧ u.bit (pVFL port) 5 = true) ∧
    (s.vfl[port].lock = true → ∃ u, exec (.blockLockLoss port) s = .next u ∧ u.vfl[port].lock = false ∧ u.vfl[port].key = 0 ∧
      u.vfl[port].st = (if s.vfl[port].st = .failed then .failed else .training) ∧ u.vfl[port].nbr = 0xFFFF#16 ∧
      (∀ v : Fin 3, u.vfl[port].credits[v] = 32 ∧ u.vfl[port].outst[v] = 0) ∧ (∀ q, q ≠ port → u.vfl[q] = s.vfl[q]) ∧
      (s.vfl[port].st = .up → u.bit (pVFL port) 1 = true ∧ u.bit pVFR 1 = true))

/-- A receiver accepts a packet only when its tag or CRC checks and its SEQ exceeds the last one accepted on that VC: it is
counted and its SEQ is the newest; any other is discarded and counted in VFLn_AUTH_FAIL or VFLn_CRC_FAIL, a header that names
no VC among the former; the credits of both are returned (14 R442). A credit block gives credits back, as many as are out and
no more; and a packet that has waited 1 ms for its way on is dropped and counted (14 R445, R453). It states the completion of
`packetReceive`, `creditBlock` and `stuckPacketDrop`. -/
def Obligations.PacketsAreReceived : Prop :=
  ∀ (s : State) (port : Fin 4), s.fabricRuns = true →
    (∀ (h : PktHdr) (payload : List Byte), h.len.toNat = payload.length → payload.length ≤ 4096 →
      (s.vfl[port].st = .up ∨ s.vfl[port].st = .hello ∧ (h.type = 0x01#8 ∨ h.type = 0x02#8)) →
      (∀ vc : Fin 3, h.vc.toNat = vc.1 →
        (∀ clear, s.vfl[port].open_ h payload = some clear → s.vfl[port].seqIn[vc] < h.seq.toNat →
          ∃ u, exec (.packetReceive port h payload) s = .next u ∧ u.vfl[port].rx = satInc s.vfl[port].rx ∧
            u.vfl[port].seqIn = s.vfl[port].seqIn.set vc h.seq.toNat ∧
            u.vfl[port].authFail = s.vfl[port].authFail ∧ u.vfl[port].crcFail = s.vfl[port].crcFail ∧
            .credits port vc.1 (slotsOf payload.length) ∈ u.outbox ∧ u.nvm = s.nvm ∧
            (s.addressed = true → h.dest = s.ownAddr → ∀ q, q ≠ port → u.vfl[q] = s.vfl[q])) ∧
        (s.vfl[port].open_ h payload = none ∨ h.seq.toNat ≤ s.vfl[port].seqIn[vc] →
          ∃ u, exec (.packetReceive port h payload) s = .next u ∧ u.vfl[port].rx = s.vfl[port].rx ∧
            u.vfl[port].authFail = (if gcmPacket h.type vc.1 then satInc s.vfl[port].authFail else s.vfl[port].authFail) ∧
            u.vfl[port].crcFail = (if gcmPacket h.type vc.1 then s.vfl[port].crcFail else satInc s.vfl[port].crcFail) ∧
            (u.vfl[port].seqIn = s.vfl[port].seqIn ∨ u.vfl[port].st = .failed) ∧
            .credits port vc.1 (slotsOf payload.length) ∈ u.outbox ∧ u.nvm.zones = s.nvm.zones)) ∧
      (h.vc = 3#2 → ∃ u, exec (.packetReceive port h payload) s = .next u ∧ u.vfl[port].rx = s.vfl[port].rx ∧
        u.vfl[port].authFail = satInc s.vfl[port].authFail)) ∧
    (∀ n : Vector (BitVec 6) 3, s.vfl[port].lock = true → s.vfl[port].txq = [] →
      ∃ u, exec (.creditBlock port n[0] n[1] n[2]) s = .next u ∧ u.nvm = s.nvm ∧ (∀ q, q ≠ port → u.vfl[q] = s.vfl[q]) ∧
        ∀ v : Fin 3, u.vfl[port].credits[v] = s.vfl[port].credits[v] + min n[v].toNat s.vfl[port].outst[v] ∧
          u.vfl[port].outst[v] = s.vfl[port].outst[v] - min n[v].toNat s.vfl[port].outst[v]) ∧
    (∀ p, s.vfl[port].txq.find? (fun p => p.fwd && decide (p.at_ + 1000 ≤ s.now)) = some p →
      ∃ u, exec (.stuckPacketDrop port) s = .next u ∧ u.vfl[port].txq = s.vfl[port].txq.erase p ∧
        u.vfr.stuckDrop = satInc s.vfr.stuckDrop ∧ u.nvm = s.nvm)

/-- The topology: an advertisement newer than the one held is kept, and starts the computation when its node was not known;
the own one goes out each second and at each change; one not renewed for 3.5 s expires; and the routes are computed 10 ms
after the first change and are then in force (14 R448 to R453). It states the completion of `nadv`, `advertisementOriginate`,
`advertisementExpiry` and `routeComputation`. -/
def Obligations.TheTopologyIsLearnt : Prop :=
  ∀ s : State,
    (∀ (port : Fin 4) (payload : Vector Byte 128), s.fabricRuns = true → s.vfl[port].st = .up →
      (advOfBytes payload.toList s.now).serial ≠ Config.serial →
      s.vfr.advs.find? (fun x => x.serial = (advOfBytes payload.toList s.now).serial) = none →
      ∃ u, exec (.nadv port payload) s = .next u ∧ advOfBytes payload.toList s.now ∈ u.vfr.advs ∧ u.vfr.changeAt.isSome = true) ∧
    (s.fabricRuns = true → (s.vfr.advDue = true ∨ s.vfr.advAt + 1000000 ≤ s.now) →
      ∃ u, exec .advertisementOriginate s = .next u ∧ u.vfr.advNo = s.vfr.advNo + 1 ∧ u.vfr.advAt = s.now ∧ u.vfr.advDue = false ∧
        u.vfr.advs = s.vfr.advs ∧ u.nvm = s.nvm) ∧
    (s.active = true → s.dev.level = .full → s.vfr.advs.any (fun a => decide (a.at_ + 3500000 ≤ s.now)) = true →
      ∃ u, exec .advertisementExpiry s = .next u ∧ u.vfr.advs = s.vfr.advs.filter (fun a => decide (s.now < a.at_ + 3500000)) ∧
        u.vfr.changeAt.isSome = true ∧ u.bit pVFR 1 = true) ∧
    (∀ t, s.vfr.changeAt = some t → s.fabricRuns = true → s.dbg.halted.getLsbD 2 = false → t + 10000 ≤ s.now →
      ∃ u, exec .routeComputation s = .next u ∧ u.vfr.changeAt = none ∧ u.vfr.routesOk = true ∧
        u.vfr.rtab = Vector.ofFn (fun k : Fin 256 => (routesOf (graphOf s.liveNodes)).1.getD k.1 7#4) ∧
        u.vfr.mtab = Vector.ofFn (fun k : Fin 256 => (routesOf (graphOf s.liveNodes)).2.1.getD k.1 7#4) ∧
        u.vfr.root = (routesOf (graphOf s.liveNodes)).2.2.2)

/-- A request not answered for 10 ms goes out again with a free tag, three times, and then fails: the remote read with its
status, the REMOTE_COPY with ST_UNREACHABLE; a REMOTE_COPY completes with the zone its destination took or holds and with
ST_UNREACHABLE and the cause when it refuses; and a remote read's response is written and its register says so (14 R444,
R454 to R456, R458). It states the completion of `transactionTimeout`, `copyRsp`, `rreadReq` and `rreadRsp`. -/
def Obligations.RequestsEnd : Prop :=
  ∀ s : State,
    (∀ (port : Fin 4) (txn : Fin 256) x, s.vfl[port].txns.find? (fun x => x.id = txn.1) = some x → s.active = true →
      x.at_ + 10000 ≤ s.now →
      (∀ q t, x.tries < 3 → q = (s.portTo x.pkt.dest).getD port →
        t = s.updVfl port (fun l => { l with txns := l.txns.filter (fun y => y.id ≠ txn.1) }) → (t.vfl[q]).tagFree = true →
        exec (.transactionTimeout port txn) s = .next (t.sendRequest x.pkt x.tag (x.tries + 1) port)) ∧
      (3 ≤ x.tries → x.tag = none → ∃ u, exec (.transactionTimeout port txn) s = .next u ∧ u.vfr.rreqSt = 3 ∧ u.vfr.rreqN = 0 ∧
        u.bit pVFR 4 = true ∧ ∀ y ∈ u.vfl[port].txns, y.id ≠ txn.1) ∧
      (∀ tag c, 3 ≤ x.tries → x.tag = some tag → s.cmd tag = some c → c.desc.opc = 0x0D#8 → c.phase = .core3 →
        ∃ u, exec (.transactionTimeout port txn) s = .next u ∧ u.answered tag 0x10 0x02 0 ∧
          (s.vfr.rreqWait = none → ∀ y ∈ u.vfl[port].txns, y.id ≠ txn.1))) ∧
    (∀ tag c type, s.cmd tag = some c → s.txnOf tag = some type → s.fabricRuns = true → c.desc.opc = 0x0D#8 → c.phase = .core3 →
      c.epoch = s.tnt[c.tenant].epoch →
      (∀ cause : Byte, ∃ u, exec (.copyRsp tag (.refused cause)) s = .next u ∧ u.answered tag 0x10 0x03 (res cause.toNat) ∧
        ∀ q : Fin 4, ∀ y ∈ u.vfl[q].txns, y.tag ≠ some tag) ∧
      (∀ z : BitVec 20, ∃ u, exec (.copyRsp tag (.held z)) s = .next u ∧ u.answered tag 0 0 (res z.toNat)) ∧
      (∀ z : BitVec 20, type = 0x1B#8 → ∃ u, exec (.copyRsp tag (.accepted z)) s = .next u ∧ u.answered tag 0 0 (res z.toNat)) ∧
      (∀ (z : BitVec 20) x, type ≠ 0x1B#8 → s.named c = some x → ∃ u, exec (.copyRsp tag (.accepted z)) s = .next u ∧
        u.cmd tag = some c ∧ u.nvm = s.nvm)) ∧
    (∀ (src : BitVec 16) kind (seq : DWord) (n : Fin 33), s.fabricRuns = true →
      ((s.reg pVFR 0x10C 1#32).getLsbD 0 = false → exec (.rreadReq src kind seq n) s =
        .next (s.sendLong { s.newPkt 0x11 0 src noTenant 0 [4] with flags := 1 })) ∧
      ((s.reg pVFR 0x10C 1#32).getLsbD 0 = true → kind = false → exec (.rreadReq src kind seq n) s =
        .next (s.sendLong { s.newPkt 0x11 0 src noTenant 0 ([2] ++ s.statusBlock) with flags := 1 })) ∧
      ((s.reg pVFR 0x10C 1#32).getLsbD 0 = true → kind = true → exec (.rreadReq src kind seq n) s =
        .next (s.sendLong { s.newPkt 0x11 0 src noTenant 0
          ([2] ++ ((s.recordsFor 0 seq.toNat).take n.1).flatMap EvRec.bytes) with flags := 1 }))) ∧
    (∀ refused bytes, s.fabricRuns = true → s.vfr.rreqSt = 1 → s.vfr.rreqWait = none → ∃ u, exec (.rreadRsp refused bytes) s = .next u ∧
      u.vfr.rreqSt = (if refused then 4 else 2) ∧ u.bit pVFR 4 = true ∧ u.nvm = s.nvm ∧
      ∀ q : Fin 4, ∀ y ∈ u.vfl[q].txns, y.tag ≠ none)

/-- REMOTE_COPY of a SEALED zone to another node stays with core 3 for the destination's answer and changes nothing stored, and one to the node itself completes with ST_BAD_FIELD (14 R454). A copy arrives: an opening that R455 lets in
takes a zone, SEALED under its origin and marked as an import; one it does not let in takes none and raises VFR bit 6; its
data gather in the import; and a closing whose data match the record's count and digest makes the zone whole with its record
and raises VFR bit 5, one whose data do not raises bit 6 (14 R454 to R456). It states the completion of `remoteCopy`, `copyOpen`,
`copyData` and `copyClose`. -/
def Obligations.CopiesGoAndArrive : Prop :=
  (∀ (s : State) (tag : Tag) (c : Cmd) (z : Zone) (k : Hash) (q : Fin 4) (r cert : List Byte),
    s.ready tag 0x0D c → s.thr.level.1 < 6 → s.named c = some z → z.st = .sealed →
    (c.desc.copyDest = s.ownAddr → exec (.remoteCopy tag) s = .next (s.finish tag 0x02 0x01 0)) ∧
    (c.desc.copyDest ≠ 0 → c.desc.copyDest ≠ 0xFFFF → c.desc.copyDest ≠ s.ownAddr → s.sign.identity = some k → s.addressed = true →
      s.portTo c.desc.copyDest = some q → s.nvm.sealRecs.find c.zoneNo = some r → s.nvm.cert = some cert →
      (s.vfl[q]).tagFree = true →
      ∃ u, exec (.remoteCopy tag) s = .next u ∧ u.cmd tag = some { c with phase := .core3 } ∧
        u.nvm = s.nvm ∧ u.bpm = s.bpm ∧ u.med = s.med ∧ u.mtr = s.mtr)) ∧
  (∀ (s : State) (src : BitVec 16), s.fabricRuns = true →
    (∀ (tenant : Byte) (cert : List Byte) (rec : Vector Byte 256) (record : List Byte), record = rec.toList → tenant.toNat < 64 → (∀ i ∈ s.vfr.imports, i.src ≠ src) →
      s.heldImport record = none →
      (s.openCause (Fin.ofNat 64 tenant.toNat) cert record = none →
        ∀ z s1 x, s.takeZone (Fin.ofNat 64 tenant.toNat) true false = .ok (z, s1) → s1.zone z = some x →
        ∃ u, exec (.copyOpen src tenant cert rec) s = .next u ∧
          u.zone z = some { x with
            st := .sealed, wp := sealWp record,
            origin := some { tenant := sealTenant record, zone := BitVec.ofNat 20 (sealZoneNo record), gen := sealGen record,
                             replica := false, diverged := false } } ∧
          ∃ i ∈ u.vfr.imports, i.src = src ∧ i.zone = z ∧ i.record = record ∧ i.entries = [] ∧ i.blocks = []) ∧
      (∀ k, s.openCause (Fin.ofNat 64 tenant.toNat) cert record = some k → ∃ u, exec (.copyOpen src tenant cert rec) s = .next u ∧
        u.nvm = s.nvm ∧ u.vfr = s.vfr ∧ u.bit pVFR 6 = true)) ∧
    (∀ b h i, i ∈ s.vfr.imports → i.src = src → ∃ u, exec (.copyData src (.entry b h)) s = .next u ∧
      { i with entries := i.entries ++ [(b, h)] } ∈ u.vfr.imports ∧ u.nvm = s.nvm) ∧
    (∀ k b i, i ∈ s.vfr.imports → i.src = src → ∃ u, exec (.copyData src (.block k b)) s = .next u ∧
      { i with blocks := i.blocks.put k b } ∈ u.vfr.imports ∧ u.nvm = s.nvm) ∧
    (∀ i d, s.vfr.imports.find? (fun i => i.src = src) = some i → s.boot.desc = some d →
      (i.ok = false → ∃ u, exec (.copyClose src) s = .next u ∧ (∀ j ∈ u.vfr.imports, j.src ≠ src) ∧ u.bit pVFR 6 = true ∧
        u.nvm.sealRecs.has i.zone = false) ∧
      (∀ z s1 x, i.ok = true → s.zone i.zone = some z → s.placeImport d i.zone z.gen i.log = some s1 → s1.zone i.zone = some x →
        ∃ u, exec (.copyClose src) s = .next u ∧
          u.zone i.zone = some { x with log := i.log, firstT := s1.opSecs, lastT := s1.opSecs, fullT := s1.opSecs } ∧
          u.nvm.sealRecs.find i.zone = some i.record ∧ (∀ j ∈ u.vfr.imports, j.src ≠ src) ∧ u.bit pVFR 5 = true)))

/-- Beats and silence: a beat goes out each millisecond with the windward's watermarks; one that arrives moves its marks up
and never down; 20 ms of silence separate the pair, a partner that reports power loss leaves it PARTNER_DOWN, and after 60 s
of SPACE the pair resynchronises (14 R459 to R463). A resynchronisation: the windward that receives the leeward's checkpoints
gives every mirrored tenant its verdict and is then in RESYNC or, with nothing left to send, IN_SYNC; the leeward is IN_SYNC
at the verdict that says so (14 R467 to R470). It states the completion of `mirBeatSend`, `mirBeat`, `partnerSilence`, `powerLoss`,
`spaceRetry`, `mirSyncReq` and `mirSyncRsp`. -/
def Obligations.ThePairStaysInStep : Prop :=
  (∀ s : State,
    (s.beats = true → s.mir.beatAt + 1000 ≤ s.now → ∃ u, exec .mirBeatSend s = .next u ∧ u.mir.beatAt = s.now ∧ u.mir.st = s.mir.st ∧
      u.nvm = s.nvm ∧ ∀ t, s.windward = true → s.mirrored t = true → u.mir.sent[t] = s.watermark t) ∧
    (∀ marks, s.fabricRuns = true → s.mir.st ≠ .off → ∃ u, exec (.mirBeat marks) s = .next u ∧ u.mir.lastRx = s.now ∧ u.nvm.zones = s.nvm.zones ∧
      (∀ t : Tid, s.mir.marks[t] ≤ u.mir.marks[t]) ∧ (∀ c ∈ marks, c.index.toNat ≤ u.mir.marks[c.tenant])) ∧
    (s.active = true → s.paired = true → s.mir.lastRx + 20000 ≤ s.now → ∃ u, exec .partnerSilence s = .next u ∧
      u.mir = { s.mir with st := .separated, reason := 0, separations := satInc s.mir.separations, backlog := [],
                           synced := Vector.replicate 64 false } ∧ u.bit pMIR 0 = true ∧ u.nvm = s.nvm) ∧
    (s.fabricRuns = true → s.paired = true → ∃ u, exec .powerLoss s = .next u ∧ u.mir.st = .partnerDown ∧ u.mir.backlog = [] ∧
      u.bit pMIR 3 = true ∧ u.nvm.zones = s.nvm.zones) ∧
    (s.fabricRuns = true → s.mir.st = .separated → s.mir.reason = 5#3 → s.mir.spaceAt + 60000000 ≤ s.now →
      ∃ u, exec .spaceRetry s = .next u ∧ u.mir.st = .resync ∧ u.mir.reason = 0 ∧ u.nvm = s.nvm)) ∧
  (∀ s : State, s.fabricRuns = true →
    (∀ cps, s.windward = true → s.pairReason = 0#3 → ∃ u, exec (.mirSyncReq cps) s = .next u ∧ u.mir.reason = 0#3 ∧
      (u.mir.st = .resync ∨ u.mir.st = .inSync) ∧ ∀ t, s.mirrored t = true → u.mir.synced[t] = true) ∧
    (∀ vs, s.leeward = true → s.mir.st = .resync →
      ∃ u, exec (.mirSyncRsp vs) s = .next u ∧
        (vs.any (fun v => v.done) = true → u.mir.st = .inSync ∧ u.mir.reason = 0#3 ∧ u.bit pMIR 1 = true) ∧
        (vs.any (fun v => v.done) = false → u.mir = s.mir) ∧
        (vs.any (fun v => v.diverged) = false → u.nvm.zones = s.nvm.zones)))

/-- Mirrored appends: the leeward stores one it has room for as the newest entry of its replica and answers one it holds
already; without an unowned zone it refuses and the pair separates for SPACE; the windward's entry is accepted when the
answer comes; a retraction takes back what lies above the marks; and an item of MIR_STATE changes the replica it names (14
R460 to R466). It states the completion of `mirAppend`, `mirAccept`, `mirRetract` and `mirState`. -/
def Obligations.AppendsAreMirrored : Prop :=
  ∀ s : State, s.fabricRuns = true → s.paired = true →
    (s.leeward = true →
      (∀ a d z s1 x s2, s.boot.desc = some d → (∀ k y, s.replica a.tenant a.zone.toNat = some (k, y) → ∀ e ∈ y.log, e.index ≠ a.index.toNat) →
        s.replicaFor a = some (z, s1) → s1.zone z = some x → s.mayCount (blocksOf a.len) = true → s1.applyAppend d a z x = some s2 →
        exec (.mirAppend a) s = .next s2 ∧ ∃ y, s2.zone z = some y ∧ y.wp = a.offset + blocksOf a.len ∧ y.st = .open_ ∧
          y.log = x.log ++ [recordOfAppend a ((x.log.getLast?.map (fun e => e.head)).getD 0)]) ∧
      (∀ a d z x e, s.boot.desc = some d → s.replica a.tenant a.zone.toNat = some (z, x) → x.diverged = false → x.originGen = a.gen →
        e ∈ x.log → e.index = a.index.toNat → e.head = a.head →
        exec (.mirAppend a) s = .next (s.sendAccept a.tenant a.index.toNat false)) ∧
      (∀ a d, s.boot.desc = some d → s.replica a.tenant a.zone.toNat = none → s.unowned = none →
        ∃ u, exec (.mirAppend a) s = .next u ∧ u.mir.st = .separated ∧ u.mir.reason = 5#3 ∧ u.mir.spaceAt = s.now ∧ u.nvm = s.nvm) ∧
      (∀ (t : Tid) (index : DWord), ∃ u, exec (.mirRetract t index) s = .next u ∧
        (∀ z x, u.zone z = some x → x.owner = t → x.replica = true → x.diverged = false →
          ∀ e ∈ x.log, e.index < index.toNat ∨ e.index ≤ s.mir.marks[t]) ∧ u.nvm.conv = s.nvm.conv ∧ u.mir = s.mir) ∧
      (∀ item, exec (.mirState item) s = .next (s.applyItem item)) ∧
      (∀ slots lock, ∃ u, exec (.mirState (.owner slots lock)) s = .next u ∧ u.nvm.partnerOwner = (slots, lock) ∧
        u.own = s.own ∧ u.nvm.zones = s.nvm.zones) ∧
      (∀ (t : Tid) (zone : BitVec 20) k x, s.replica t zone.toNat = some (k, x) → s.zone k = some x → x.diverged = false →
        x.st = .open_ → ∃ u, exec (.mirState (.finish t zone)) s = .next u ∧ u.zone k = some (x.finish s.opSecs))) ∧
    (s.windward = true → ∀ (t : Tid) (index : DWord),
      (∃ u, exec (.mirAccept t index false) s = .next u ∧
        (∀ b ∈ u.mir.backlog, ¬(b.1 = t.1 ∧ b.2 = index.toNat)) ∧
        (∀ k z e, s.entryAt t index.toNat = some (k, e) → s.zone k = some z → e ∈ z.log →
          ∃ z' e', u.zone k = some z' ∧ e' ∈ z'.log ∧ e'.index = index.toNat ∧ e'.accepted = true)) ∧
      (∃ u, exec (.mirAccept t index true) s = .next u ∧ u.mir.st = .separated ∧ u.mir.reason = 5#3 ∧ u.mir.backlog = [] ∧
        u.bit pMIR 0 = true ∧ u.nvm = s.nvm))
end

