-- ==== Sys2Proof/Laws/Container.lean ====
section
/-!
SUPPORT. Laws of the containers: reading back a written byte of the boot NOR, the canonical form every memory operation
keeps, and looking up a written key of a table.
-/
namespace Sys2Proof.Machine

/-! ## The boot NOR -/

@[simp] theorem Memory.get_nil (a : Nat) : Memory.get [] a = Memory.erased := rfl

theorem Memory.get_ins (m : Memory) (a b : Nat) (v : Byte) :
    Memory.get (m.ins a v) b = if b = a then v else m.get b := by
  induction m with
  | nil => simp [Memory.ins, Memory.get]
  | cons p r ih =>
    obtain ⟨k, w⟩ := p
    simp only [Memory.ins]
    split_ifs with h1 h2 <;> simp only [Memory.get, ih] <;> split_ifs <;> first | rfl | omega

theorem Memory.get_rem (m : Memory) (a b : Nat) :
    Memory.get (m.rem a) b = if b = a then Memory.erased else m.get b := by
  induction m with
  | nil => simp [Memory.rem]
  | cons p r ih =>
    obtain ⟨k, w⟩ := p
    unfold Memory.rem at ih ⊢
    by_cases hk : k = a
    · subst hk
      simp only [List.filter, ne_eq, not_true_eq_false, decide_false, Memory.get]
      rw [ih]; split_ifs <;> rfl
    · simp only [List.filter, ne_eq, hk, not_false_eq_true, decide_true, Memory.get]
      rw [ih]; split_ifs <;> first | rfl | omega

/-- A read after a write of one byte. -/
theorem Memory.get_set (m : Memory) (a b : Nat) (v : Byte) :
    Memory.get (m.set a v) b = if b = a then v else m.get b := by
  unfold Memory.set
  split_ifs with h h2
  · rw [Memory.get_rem, if_pos h2, h]
  · rw [Memory.get_rem, if_neg h2]
  · rw [Memory.get_ins, if_pos ‹_›]
  · rw [Memory.get_ins, if_neg ‹_›]

/-- A byte outside a written range reads as before. -/
theorem Memory.get_setList_outside (m : Memory) (a b : Nat) (l : List Byte) (h : b < a ∨ a + l.length ≤ b) :
    Memory.get (m.setList a l) b = m.get b := by
  induction l generalizing m a with
  | nil => rfl
  | cons v r ih =>
    simp only [List.length_cons] at h
    rw [Memory.setList, ih _ _ (by omega), Memory.get_set, if_neg (by omega)]

/-- A byte of a written range reads as written. -/
theorem Memory.get_setList_inside (m : Memory) (a k : Nat) (l : List Byte) (h : k < l.length) :
    Memory.get (m.setList a l) (a + k) = l.getD k Memory.erased := by
  induction l generalizing m a k with
  | nil => simp at h
  | cons v r ih =>
    rw [Memory.setList]
    cases k with
    | zero => rw [Memory.get_setList_outside _ _ _ _ (by omega), Memory.get_set]; simp
    | succ k =>
      have := ih (m.set a v) (a + 1) k (by simpa using h)
      rw [show a + (k + 1) = a + 1 + k by omega, this]; simp

theorem Memory.get_eraseRange (m : Memory) (a n b : Nat) :
    Memory.get (m.eraseRange a n) b = if a ≤ b ∧ b < a + n then Memory.erased else m.get b := by
  induction m with
  | nil => simp [Memory.eraseRange]
  | cons p r ih =>
    obtain ⟨k, w⟩ := p
    unfold Memory.eraseRange at ih ⊢
    by_cases hk : k < a ∨ a + n ≤ k
    · simp only [List.filter, hk, decide_true, Memory.get, ih]
      split_ifs <;> first | rfl | (exfalso; omega)
    · simp only [List.filter, hk, decide_false, Memory.get, ih]
      split_ifs <;> first | rfl | (exfalso; omega)

theorem Memory.above_mono {b c : Option Nat} {m : Memory} (h : Memory.above b m = true)
    (hc : ∀ x, c = some x → ∃ y, b = some y ∧ x ≤ y) : Memory.above c m = true := by
  cases m with
  | nil => rfl
  | cons p r =>
    obtain ⟨k, w⟩ := p
    simp only [Memory.above, Bool.and_eq_true] at h ⊢
    refine ⟨⟨?_, h.1.2⟩, h.2⟩
    cases c with
    | none => rfl
    | some x =>
      obtain ⟨y, hy, hxy⟩ := hc x rfl
      subst hy
      simp only [decide_eq_true_eq] at h ⊢
      omega

theorem Memory.above_filter {b : Option Nat} {m : Memory} (p : Nat × Byte → Bool) (h : Memory.above b m = true) :
    Memory.above b (m.filter p) = true := by
  induction m generalizing b with
  | nil => rfl
  | cons q r ih =>
    obtain ⟨k, w⟩ := q
    simp only [Memory.above, Bool.and_eq_true] at h
    rw [List.filter_cons]
    split
    · simp only [Memory.above, Bool.and_eq_true]
      exact ⟨h.1, ih h.2⟩
    · apply Memory.above_mono (ih h.2)
      intro x hx
      subst hx
      refine ⟨k, rfl, ?_⟩
      have := h.1.1
      simp only [decide_eq_true_eq] at this
      omega

theorem Memory.above_ins {b : Option Nat} {m : Memory} {a : Nat} {v : Byte} (h : Memory.above b m = true)
    (hb : ∀ x, b = some x → x < a) (hv : v ≠ Memory.erased) : Memory.above b (m.ins a v) = true := by
  induction m generalizing b with
  | nil =>
    simp only [Memory.ins, Memory.above, Bool.and_eq_true, decide_eq_true_eq, and_true]
    refine ⟨?_, hv⟩
    cases b with
    | none => rfl
    | some x => simpa using hb x rfl
  | cons p r ih =>
    obtain ⟨k, w⟩ := p
    simp only [Memory.above, Bool.and_eq_true, decide_eq_true_eq] at h
    simp only [Memory.ins]
    split_ifs with h1 h2
    · simp only [Memory.above, Bool.and_eq_true, decide_eq_true_eq]
      refine ⟨⟨?_, hv⟩, ⟨h1, h.1.2⟩, h.2⟩
      cases b with
      | none => rfl
      | some x => simpa using hb x rfl
    · subst h2
      simp only [Memory.above, Bool.and_eq_true, decide_eq_true_eq]
      refine ⟨⟨?_, hv⟩, h.2⟩
      cases b with
      | none => rfl
      | some x => simpa using hb x rfl
    · simp only [Memory.above, Bool.and_eq_true, decide_eq_true_eq]
      refine ⟨h.1, ih h.2 ?_⟩
      intro x hx
      simp only [Option.some.injEq] at hx
      omega

/-- A write of one byte keeps the canonical form. -/
theorem Memory.wf_set {m : Memory} (a : Nat) (v : Byte) (h : m.wf = true) : (m.set a v).wf = true := by
  unfold Memory.wf Memory.set at *
  split_ifs with hv
  · exact Memory.above_filter _ h
  · exact Memory.above_ins h (by simp) hv

/-- A write of consecutive bytes keeps the canonical form. -/
theorem Memory.wf_setList {m : Memory} (a : Nat) (l : List Byte) (h : m.wf = true) : (m.setList a l).wf = true := by
  induction l generalizing m a with
  | nil => exact h
  | cons v r ih => exact ih _ (Memory.wf_set a v h)

/-- An erase keeps the canonical form. -/
theorem Memory.wf_eraseRange {m : Memory} (a n : Nat) (h : m.wf = true) : (m.eraseRange a n).wf = true :=
  Memory.above_filter _ h

/-! ## Tables -/

theorem KMap.find_put {α : Type} (m : KMap α) (j k : Nat) (v : α) :
    KMap.find (m.put j v) k = if k = j then some v else m.find k := by
  induction m with
  | nil => simp [KMap.put, KMap.find]
  | cons p r ih =>
    obtain ⟨i, w⟩ := p
    simp only [KMap.put]
    split_ifs with h1 h2 <;> simp only [KMap.find, ih] <;> split_ifs <;> first | rfl | omega

@[simp] theorem KMap.find_put_same {α : Type} (m : KMap α) (j : Nat) (v : α) : KMap.find (m.put j v) j = some v := by
  simp [KMap.find_put]

theorem KMap.find_put_other {α : Type} (m : KMap α) {j k : Nat} (v : α) (h : k ≠ j) :
    KMap.find (m.put j v) k = m.find k := by
  simp [KMap.find_put, h]

theorem KMap.find_upd {α : Type} (m : KMap α) (j k : Nat) (f : α → α) :
    KMap.find (m.upd j f) k = if k = j then (m.find k).map f else m.find k := by
  induction m with
  | nil => simp [KMap.upd, KMap.find]
  | cons p r ih =>
    obtain ⟨i, w⟩ := p
    unfold KMap.upd at ih ⊢
    simp only [List.map_cons]
    by_cases hi : i = j
    · simp only [hi, ↓reduceIte, KMap.find]
      rw [ih]
      split_ifs <;> simp_all
    · simp only [hi, ↓reduceIte, KMap.find]
      rw [ih]
      split_ifs <;> simp_all

theorem KMap.find_del {α : Type} (m : KMap α) (j k : Nat) :
    KMap.find (m.del j) k = if k = j then none else m.find k := by
  induction m with
  | nil => simp [KMap.del, KMap.find]
  | cons p r ih =>
    obtain ⟨i, w⟩ := p
    unfold KMap.del at ih ⊢
    by_cases hi : i = j
    · subst hi
      simp only [List.filter, ne_eq, not_true_eq_false, decide_false, KMap.find]
      rw [ih]; split_ifs <;> simp_all
    · simp only [List.filter, ne_eq, hi, not_false_eq_true, decide_true, KMap.find]
      rw [ih]; split_ifs <;> simp_all

end Sys2Proof.Machine
end

