-- ==== Sys2Proof/Laws/State.lean ====
section
/-!
SUPPORT. What each update of the state leaves as it was: one lemma for each field.
-/
namespace Sys2Proof.Machine

@[simp] theorem State.drawn_pending (s : State) : (State.drawn s).pending = s.pending := rfl
@[simp] theorem State.drawn_now (s : State) : (State.drawn s).now = s.now := rfl
@[simp] theorem State.drawn_outbox (s : State) : (State.drawn s).outbox = s.outbox := rfl
@[simp] theorem State.drawn_aon (s : State) : (State.drawn s).aon = s.aon := rfl
@[simp] theorem State.drawn_nvm (s : State) : (State.drawn s).nvm = s.nvm := rfl
@[simp] theorem State.drawn_hdr (s : State) : (State.drawn s).hdr = s.hdr := rfl
@[simp] theorem State.drawn_regs (s : State) : (State.drawn s).regs = s.regs := rfl
@[simp] theorem State.drawn_pins (s : State) : (State.drawn s).pins = s.pins := rfl
@[simp] theorem State.drawn_dev (s : State) : (State.drawn s).dev = s.dev := rfl
@[simp] theorem State.drawn_clk (s : State) : (State.drawn s).clk = s.clk := rfl
@[simp] theorem State.drawn_pwr (s : State) : (State.drawn s).pwr = s.pwr := rfl
@[simp] theorem State.drawn_boot (s : State) : (State.drawn s).boot = s.boot := rfl
@[simp] theorem State.drawn_upd (s : State) : (State.drawn s).upd = s.upd := rfl
@[simp] theorem State.drawn_pcie (s : State) : (State.drawn s).pcie = s.pcie := rfl
@[simp] theorem State.drawn_troutes (s : State) : (State.drawn s).troutes = s.troutes := rfl
@[simp] theorem State.drawn_tnt (s : State) : (State.drawn s).tnt = s.tnt := rfl
@[simp] theorem State.drawn_hqm (s : State) : (State.drawn s).hqm = s.hqm := rfl
@[simp] theorem State.drawn_own (s : State) : (State.drawn s).own = s.own := rfl
@[simp] theorem State.drawn_ciph (s : State) : (State.drawn s).ciph = s.ciph := rfl
@[simp] theorem State.drawn_sign (s : State) : (State.drawn s).sign = s.sign := rfl
@[simp] theorem State.drawn_chainU (s : State) : (State.drawn s).chainU = s.chainU := rfl
@[simp] theorem State.drawn_med (s : State) : (State.drawn s).med = s.med := rfl
@[simp] theorem State.drawn_dram (s : State) : (State.drawn s).dram = s.dram := rfl
@[simp] theorem State.drawn_sram (s : State) : (State.drawn s).sram = s.sram := rfl
@[simp] theorem State.drawn_bpm (s : State) : (State.drawn s).bpm = s.bpm := rfl
@[simp] theorem State.drawn_squall (s : State) : (State.drawn s).squall = s.squall := rfl
@[simp] theorem State.drawn_evr (s : State) : (State.drawn s).evr = s.evr := rfl
@[simp] theorem State.drawn_mtr (s : State) : (State.drawn s).mtr = s.mtr := rfl
@[simp] theorem State.drawn_disp (s : State) : (State.drawn s).disp = s.disp := rfl
@[simp] theorem State.drawn_qspi (s : State) : (State.drawn s).qspi = s.qspi := rfl
@[simp] theorem State.drawn_spit (s : State) : (State.drawn s).spit = s.spit := rfl
@[simp] theorem State.drawn_i2ct (s : State) : (State.drawn s).i2ct = s.i2ct := rfl
@[simp] theorem State.drawn_i2ci (s : State) : (State.drawn s).i2ci = s.i2ci := rfl
@[simp] theorem State.drawn_gpio (s : State) : (State.drawn s).gpio = s.gpio := rfl
@[simp] theorem State.drawn_vfl (s : State) : (State.drawn s).vfl = s.vfl := rfl
@[simp] theorem State.drawn_vfr (s : State) : (State.drawn s).vfr = s.vfr := rfl
@[simp] theorem State.drawn_mir (s : State) : (State.drawn s).mir = s.mir := rfl
@[simp] theorem State.drawn_hkp (s : State) : (State.drawn s).hkp = s.hkp := rfl
@[simp] theorem State.drawn_thr (s : State) : (State.drawn s).thr = s.thr := rfl
@[simp] theorem State.drawn_dbg (s : State) : (State.drawn s).dbg = s.dbg := rfl
@[simp] theorem State.emit_pending (s : State) (o : Output) : (State.emit s o).pending = s.pending := rfl
@[simp] theorem State.emit_now (s : State) (o : Output) : (State.emit s o).now = s.now := rfl
@[simp] theorem State.emit_freeCtr (s : State) (o : Output) : (State.emit s o).freeCtr = s.freeCtr := rfl
@[simp] theorem State.emit_aon (s : State) (o : Output) : (State.emit s o).aon = s.aon := rfl
@[simp] theorem State.emit_nvm (s : State) (o : Output) : (State.emit s o).nvm = s.nvm := rfl
@[simp] theorem State.emit_hdr (s : State) (o : Output) : (State.emit s o).hdr = s.hdr := rfl
@[simp] theorem State.emit_regs (s : State) (o : Output) : (State.emit s o).regs = s.regs := rfl
@[simp] theorem State.emit_pins (s : State) (o : Output) : (State.emit s o).pins = s.pins := rfl
@[simp] theorem State.emit_dev (s : State) (o : Output) : (State.emit s o).dev = s.dev := rfl
@[simp] theorem State.emit_clk (s : State) (o : Output) : (State.emit s o).clk = s.clk := rfl
@[simp] theorem State.emit_pwr (s : State) (o : Output) : (State.emit s o).pwr = s.pwr := rfl
@[simp] theorem State.emit_boot (s : State) (o : Output) : (State.emit s o).boot = s.boot := rfl
@[simp] theorem State.emit_upd (s : State) (o : Output) : (State.emit s o).upd = s.upd := rfl
@[simp] theorem State.emit_troutes (s : State) (o : Output) : (State.emit s o).troutes = s.troutes := rfl
@[simp] theorem State.emit_tnt (s : State) (o : Output) : (State.emit s o).tnt = s.tnt := rfl
@[simp] theorem State.emit_hqm (s : State) (o : Output) : (State.emit s o).hqm = s.hqm := rfl
@[simp] theorem State.emit_own (s : State) (o : Output) : (State.emit s o).own = s.own := rfl
@[simp] theorem State.emit_ciph (s : State) (o : Output) : (State.emit s o).ciph = s.ciph := rfl
@[simp] theorem State.emit_sign (s : State) (o : Output) : (State.emit s o).sign = s.sign := rfl
@[simp] theorem State.emit_chainU (s : State) (o : Output) : (State.emit s o).chainU = s.chainU := rfl
@[simp] theorem State.emit_med (s : State) (o : Output) : (State.emit s o).med = s.med := rfl
@[simp] theorem State.emit_dram (s : State) (o : Output) : (State.emit s o).dram = s.dram := rfl
@[simp] theorem State.emit_sram (s : State) (o : Output) : (State.emit s o).sram = s.sram := rfl
@[simp] theorem State.emit_bpm (s : State) (o : Output) : (State.emit s o).bpm = s.bpm := rfl
@[simp] theorem State.emit_squall (s : State) (o : Output) : (State.emit s o).squall = s.squall := rfl
@[simp] theorem State.emit_evr (s : State) (o : Output) : (State.emit s o).evr = s.evr := rfl
@[simp] theorem State.emit_mtr (s : State) (o : Output) : (State.emit s o).mtr = s.mtr := rfl
@[simp] theorem State.emit_disp (s : State) (o : Output) : (State.emit s o).disp = s.disp := rfl
@[simp] theorem State.emit_qspi (s : State) (o : Output) : (State.emit s o).qspi = s.qspi := rfl
@[simp] theorem State.emit_spit (s : State) (o : Output) : (State.emit s o).spit = s.spit := rfl
@[simp] theorem State.emit_i2ct (s : State) (o : Output) : (State.emit s o).i2ct = s.i2ct := rfl
@[simp] theorem State.emit_i2ci (s : State) (o : Output) : (State.emit s o).i2ci = s.i2ci := rfl
@[simp] theorem State.emit_gpio (s : State) (o : Output) : (State.emit s o).gpio = s.gpio := rfl
@[simp] theorem State.emit_vfl (s : State) (o : Output) : (State.emit s o).vfl = s.vfl := rfl
@[simp] theorem State.emit_vfr (s : State) (o : Output) : (State.emit s o).vfr = s.vfr := rfl
@[simp] theorem State.emit_mir (s : State) (o : Output) : (State.emit s o).mir = s.mir := rfl
@[simp] theorem State.emit_hkp (s : State) (o : Output) : (State.emit s o).hkp = s.hkp := rfl
@[simp] theorem State.emit_thr (s : State) (o : Output) : (State.emit s o).thr = s.thr := rfl
@[simp] theorem State.emit_dbg (s : State) (o : Output) : (State.emit s o).dbg = s.dbg := rfl
@[simp] theorem State.updHdr_pending (s : State) (p : Page) (f : PageHdr → PageHdr) : (State.updHdr s p f).pending = s.pending := rfl
@[simp] theorem State.updHdr_now (s : State) (p : Page) (f : PageHdr → PageHdr) : (State.updHdr s p f).now = s.now := rfl
@[simp] theorem State.updHdr_freeCtr (s : State) (p : Page) (f : PageHdr → PageHdr) : (State.updHdr s p f).freeCtr = s.freeCtr := rfl
@[simp] theorem State.updHdr_outbox (s : State) (p : Page) (f : PageHdr → PageHdr) : (State.updHdr s p f).outbox = s.outbox := rfl
@[simp] theorem State.updHdr_aon (s : State) (p : Page) (f : PageHdr → PageHdr) : (State.updHdr s p f).aon = s.aon := rfl
@[simp] theorem State.updHdr_nvm (s : State) (p : Page) (f : PageHdr → PageHdr) : (State.updHdr s p f).nvm = s.nvm := rfl
@[simp] theorem State.updHdr_regs (s : State) (p : Page) (f : PageHdr → PageHdr) : (State.updHdr s p f).regs = s.regs := rfl
@[simp] theorem State.updHdr_pins (s : State) (p : Page) (f : PageHdr → PageHdr) : (State.updHdr s p f).pins = s.pins := rfl
@[simp] theorem State.updHdr_dev (s : State) (p : Page) (f : PageHdr → PageHdr) : (State.updHdr s p f).dev = s.dev := rfl
@[simp] theorem State.updHdr_clk (s : State) (p : Page) (f : PageHdr → PageHdr) : (State.updHdr s p f).clk = s.clk := rfl
@[simp] theorem State.updHdr_pwr (s : State) (p : Page) (f : PageHdr → PageHdr) : (State.updHdr s p f).pwr = s.pwr := rfl
@[simp] theorem State.updHdr_boot (s : State) (p : Page) (f : PageHdr → PageHdr) : (State.updHdr s p f).boot = s.boot := rfl
@[simp] theorem State.updHdr_upd (s : State) (p : Page) (f : PageHdr → PageHdr) : (State.updHdr s p f).upd = s.upd := rfl
@[simp] theorem State.updHdr_pcie (s : State) (p : Page) (f : PageHdr → PageHdr) : (State.updHdr s p f).pcie = s.pcie := rfl
@[simp] theorem State.updHdr_troutes (s : State) (p : Page) (f : PageHdr → PageHdr) : (State.updHdr s p f).troutes = s.troutes := rfl
@[simp] theorem State.updHdr_tnt (s : State) (p : Page) (f : PageHdr → PageHdr) : (State.updHdr s p f).tnt = s.tnt := rfl
@[simp] theorem State.updHdr_hqm (s : State) (p : Page) (f : PageHdr → PageHdr) : (State.updHdr s p f).hqm = s.hqm := rfl
@[simp] theorem State.updHdr_own (s : State) (p : Page) (f : PageHdr → PageHdr) : (State.updHdr s p f).own = s.own := rfl
@[simp] theorem State.updHdr_ciph (s : State) (p : Page) (f : PageHdr → PageHdr) : (State.updHdr s p f).ciph = s.ciph := rfl
@[simp] theorem State.updHdr_sign (s : State) (p : Page) (f : PageHdr → PageHdr) : (State.updHdr s p f).sign = s.sign := rfl
@[simp] theorem State.updHdr_chainU (s : State) (p : Page) (f : PageHdr → PageHdr) : (State.updHdr s p f).chainU = s.chainU := rfl
@[simp] theorem State.updHdr_med (s : State) (p : Page) (f : PageHdr → PageHdr) : (State.updHdr s p f).med = s.med := rfl
@[simp] theorem State.updHdr_dram (s : State) (p : Page) (f : PageHdr → PageHdr) : (State.updHdr s p f).dram = s.dram := rfl
@[simp] theorem State.updHdr_sram (s : State) (p : Page) (f : PageHdr → PageHdr) : (State.updHdr s p f).sram = s.sram := rfl
@[simp] theorem State.updHdr_bpm (s : State) (p : Page) (f : PageHdr → PageHdr) : (State.updHdr s p f).bpm = s.bpm := rfl
@[simp] theorem State.updHdr_squall (s : State) (p : Page) (f : PageHdr → PageHdr) : (State.updHdr s p f).squall = s.squall := rfl
@[simp] theorem State.updHdr_evr (s : State) (p : Page) (f : PageHdr → PageHdr) : (State.updHdr s p f).evr = s.evr := rfl
@[simp] theorem State.updHdr_mtr (s : State) (p : Page) (f : PageHdr → PageHdr) : (State.updHdr s p f).mtr = s.mtr := rfl
@[simp] theorem State.updHdr_disp (s : State) (p : Page) (f : PageHdr → PageHdr) : (State.updHdr s p f).disp = s.disp := rfl
@[simp] theorem State.updHdr_qspi (s : State) (p : Page) (f : PageHdr → PageHdr) : (State.updHdr s p f).qspi = s.qspi := rfl
@[simp] theorem State.updHdr_spit (s : State) (p : Page) (f : PageHdr → PageHdr) : (State.updHdr s p f).spit = s.spit := rfl
@[simp] theorem State.updHdr_i2ct (s : State) (p : Page) (f : PageHdr → PageHdr) : (State.updHdr s p f).i2ct = s.i2ct := rfl
@[simp] theorem State.updHdr_i2ci (s : State) (p : Page) (f : PageHdr → PageHdr) : (State.updHdr s p f).i2ci = s.i2ci := rfl
@[simp] theorem State.updHdr_gpio (s : State) (p : Page) (f : PageHdr → PageHdr) : (State.updHdr s p f).gpio = s.gpio := rfl
@[simp] theorem State.updHdr_vfl (s : State) (p : Page) (f : PageHdr → PageHdr) : (State.updHdr s p f).vfl = s.vfl := rfl
@[simp] theorem State.updHdr_vfr (s : State) (p : Page) (f : PageHdr → PageHdr) : (State.updHdr s p f).vfr = s.vfr := rfl
@[simp] theorem State.updHdr_mir (s : State) (p : Page) (f : PageHdr → PageHdr) : (State.updHdr s p f).mir = s.mir := rfl
@[simp] theorem State.updHdr_hkp (s : State) (p : Page) (f : PageHdr → PageHdr) : (State.updHdr s p f).hkp = s.hkp := rfl
@[simp] theorem State.updHdr_thr (s : State) (p : Page) (f : PageHdr → PageHdr) : (State.updHdr s p f).thr = s.thr := rfl
@[simp] theorem State.updHdr_dbg (s : State) (p : Page) (f : PageHdr → PageHdr) : (State.updHdr s p f).dbg = s.dbg := rfl
@[simp] theorem State.updTnt_pending (s : State) (t : Tid) (f : Tenant → Tenant) : (State.updTnt s t f).pending = s.pending := rfl
@[simp] theorem State.updTnt_now (s : State) (t : Tid) (f : Tenant → Tenant) : (State.updTnt s t f).now = s.now := rfl
@[simp] theorem State.updTnt_freeCtr (s : State) (t : Tid) (f : Tenant → Tenant) : (State.updTnt s t f).freeCtr = s.freeCtr := rfl
@[simp] theorem State.updTnt_outbox (s : State) (t : Tid) (f : Tenant → Tenant) : (State.updTnt s t f).outbox = s.outbox := rfl
@[simp] theorem State.updTnt_aon (s : State) (t : Tid) (f : Tenant → Tenant) : (State.updTnt s t f).aon = s.aon := rfl
@[simp] theorem State.updTnt_nvm (s : State) (t : Tid) (f : Tenant → Tenant) : (State.updTnt s t f).nvm = s.nvm := rfl
@[simp] theorem State.updTnt_hdr (s : State) (t : Tid) (f : Tenant → Tenant) : (State.updTnt s t f).hdr = s.hdr := rfl
@[simp] theorem State.updTnt_regs (s : State) (t : Tid) (f : Tenant → Tenant) : (State.updTnt s t f).regs = s.regs := rfl
@[simp] theorem State.updTnt_pins (s : State) (t : Tid) (f : Tenant → Tenant) : (State.updTnt s t f).pins = s.pins := rfl
@[simp] theorem State.updTnt_dev (s : State) (t : Tid) (f : Tenant → Tenant) : (State.updTnt s t f).dev = s.dev := rfl
@[simp] theorem State.updTnt_clk (s : State) (t : Tid) (f : Tenant → Tenant) : (State.updTnt s t f).clk = s.clk := rfl
@[simp] theorem State.updTnt_pwr (s : State) (t : Tid) (f : Tenant → Tenant) : (State.updTnt s t f).pwr = s.pwr := rfl
@[simp] theorem State.updTnt_boot (s : State) (t : Tid) (f : Tenant → Tenant) : (State.updTnt s t f).boot = s.boot := rfl
@[simp] theorem State.updTnt_upd (s : State) (t : Tid) (f : Tenant → Tenant) : (State.updTnt s t f).upd = s.upd := rfl
@[simp] theorem State.updTnt_pcie (s : State) (t : Tid) (f : Tenant → Tenant) : (State.updTnt s t f).pcie = s.pcie := rfl
@[simp] theorem State.updTnt_troutes (s : State) (t : Tid) (f : Tenant → Tenant) : (State.updTnt s t f).troutes = s.troutes := rfl
@[simp] theorem State.updTnt_hqm (s : State) (t : Tid) (f : Tenant → Tenant) : (State.updTnt s t f).hqm = s.hqm := rfl
@[simp] theorem State.updTnt_own (s : State) (t : Tid) (f : Tenant → Tenant) : (State.updTnt s t f).own = s.own := rfl
@[simp] theorem State.updTnt_ciph (s : State) (t : Tid) (f : Tenant → Tenant) : (State.updTnt s t f).ciph = s.ciph := rfl
@[simp] theorem State.updTnt_sign (s : State) (t : Tid) (f : Tenant → Tenant) : (State.updTnt s t f).sign = s.sign := rfl
@[simp] theorem State.updTnt_chainU (s : State) (t : Tid) (f : Tenant → Tenant) : (State.updTnt s t f).chainU = s.chainU := rfl
@[simp] theorem State.updTnt_med (s : State) (t : Tid) (f : Tenant → Tenant) : (State.updTnt s t f).med = s.med := rfl
@[simp] theorem State.updTnt_dram (s : State) (t : Tid) (f : Tenant → Tenant) : (State.updTnt s t f).dram = s.dram := rfl
@[simp] theorem State.updTnt_sram (s : State) (t : Tid) (f : Tenant → Tenant) : (State.updTnt s t f).sram = s.sram := rfl
@[simp] theorem State.updTnt_bpm (s : State) (t : Tid) (f : Tenant → Tenant) : (State.updTnt s t f).bpm = s.bpm := rfl
@[simp] theorem State.updTnt_squall (s : State) (t : Tid) (f : Tenant → Tenant) : (State.updTnt s t f).squall = s.squall := rfl
@[simp] theorem State.updTnt_evr (s : State) (t : Tid) (f : Tenant → Tenant) : (State.updTnt s t f).evr = s.evr := rfl
@[simp] theorem State.updTnt_mtr (s : State) (t : Tid) (f : Tenant → Tenant) : (State.updTnt s t f).mtr = s.mtr := rfl
@[simp] theorem State.updTnt_disp (s : State) (t : Tid) (f : Tenant → Tenant) : (State.updTnt s t f).disp = s.disp := rfl
@[simp] theorem State.updTnt_qspi (s : State) (t : Tid) (f : Tenant → Tenant) : (State.updTnt s t f).qspi = s.qspi := rfl
@[simp] theorem State.updTnt_spit (s : State) (t : Tid) (f : Tenant → Tenant) : (State.updTnt s t f).spit = s.spit := rfl
@[simp] theorem State.updTnt_i2ct (s : State) (t : Tid) (f : Tenant → Tenant) : (State.updTnt s t f).i2ct = s.i2ct := rfl
@[simp] theorem State.updTnt_i2ci (s : State) (t : Tid) (f : Tenant → Tenant) : (State.updTnt s t f).i2ci = s.i2ci := rfl
@[simp] theorem State.updTnt_gpio (s : State) (t : Tid) (f : Tenant → Tenant) : (State.updTnt s t f).gpio = s.gpio := rfl
@[simp] theorem State.updTnt_vfl (s : State) (t : Tid) (f : Tenant → Tenant) : (State.updTnt s t f).vfl = s.vfl := rfl
@[simp] theorem State.updTnt_vfr (s : State) (t : Tid) (f : Tenant → Tenant) : (State.updTnt s t f).vfr = s.vfr := rfl
@[simp] theorem State.updTnt_mir (s : State) (t : Tid) (f : Tenant → Tenant) : (State.updTnt s t f).mir = s.mir := rfl
@[simp] theorem State.updTnt_hkp (s : State) (t : Tid) (f : Tenant → Tenant) : (State.updTnt s t f).hkp = s.hkp := rfl
@[simp] theorem State.updTnt_thr (s : State) (t : Tid) (f : Tenant → Tenant) : (State.updTnt s t f).thr = s.thr := rfl
@[simp] theorem State.updTnt_dbg (s : State) (t : Tid) (f : Tenant → Tenant) : (State.updTnt s t f).dbg = s.dbg := rfl
@[simp] theorem State.updFn_pending (s : State) (n : Fn) (f : FnS → FnS) : (State.updFn s n f).pending = s.pending := rfl
@[simp] theorem State.updFn_now (s : State) (n : Fn) (f : FnS → FnS) : (State.updFn s n f).now = s.now := rfl
@[simp] theorem State.updFn_freeCtr (s : State) (n : Fn) (f : FnS → FnS) : (State.updFn s n f).freeCtr = s.freeCtr := rfl
@[simp] theorem State.updFn_outbox (s : State) (n : Fn) (f : FnS → FnS) : (State.updFn s n f).outbox = s.outbox := rfl
@[simp] theorem State.updFn_aon (s : State) (n : Fn) (f : FnS → FnS) : (State.updFn s n f).aon = s.aon := rfl
@[simp] theorem State.updFn_nvm (s : State) (n : Fn) (f : FnS → FnS) : (State.updFn s n f).nvm = s.nvm := rfl
@[simp] theorem State.updFn_hdr (s : State) (n : Fn) (f : FnS → FnS) : (State.updFn s n f).hdr = s.hdr := rfl
@[simp] theorem State.updFn_regs (s : State) (n : Fn) (f : FnS → FnS) : (State.updFn s n f).regs = s.regs := rfl
@[simp] theorem State.updFn_pins (s : State) (n : Fn) (f : FnS → FnS) : (State.updFn s n f).pins = s.pins := rfl
@[simp] theorem State.updFn_dev (s : State) (n : Fn) (f : FnS → FnS) : (State.updFn s n f).dev = s.dev := rfl
@[simp] theorem State.updFn_clk (s : State) (n : Fn) (f : FnS → FnS) : (State.updFn s n f).clk = s.clk := rfl
@[simp] theorem State.updFn_pwr (s : State) (n : Fn) (f : FnS → FnS) : (State.updFn s n f).pwr = s.pwr := rfl
@[simp] theorem State.updFn_boot (s : State) (n : Fn) (f : FnS → FnS) : (State.updFn s n f).boot = s.boot := rfl
@[simp] theorem State.updFn_upd (s : State) (n : Fn) (f : FnS → FnS) : (State.updFn s n f).upd = s.upd := rfl
@[simp] theorem State.updFn_troutes (s : State) (n : Fn) (f : FnS → FnS) : (State.updFn s n f).troutes = s.troutes := rfl
@[simp] theorem State.updFn_tnt (s : State) (n : Fn) (f : FnS → FnS) : (State.updFn s n f).tnt = s.tnt := rfl
@[simp] theorem State.updFn_hqm (s : State) (n : Fn) (f : FnS → FnS) : (State.updFn s n f).hqm = s.hqm := rfl
@[simp] theorem State.updFn_own (s : State) (n : Fn) (f : FnS → FnS) : (State.updFn s n f).own = s.own := rfl
@[simp] theorem State.updFn_ciph (s : State) (n : Fn) (f : FnS → FnS) : (State.updFn s n f).ciph = s.ciph := rfl
@[simp] theorem State.updFn_sign (s : State) (n : Fn) (f : FnS → FnS) : (State.updFn s n f).sign = s.sign := rfl
@[simp] theorem State.updFn_chainU (s : State) (n : Fn) (f : FnS → FnS) : (State.updFn s n f).chainU = s.chainU := rfl
@[simp] theorem State.updFn_med (s : State) (n : Fn) (f : FnS → FnS) : (State.updFn s n f).med = s.med := rfl
@[simp] theorem State.updFn_dram (s : State) (n : Fn) (f : FnS → FnS) : (State.updFn s n f).dram = s.dram := rfl
@[simp] theorem State.updFn_sram (s : State) (n : Fn) (f : FnS → FnS) : (State.updFn s n f).sram = s.sram := rfl
@[simp] theorem State.updFn_bpm (s : State) (n : Fn) (f : FnS → FnS) : (State.updFn s n f).bpm = s.bpm := rfl
@[simp] theorem State.updFn_squall (s : State) (n : Fn) (f : FnS → FnS) : (State.updFn s n f).squall = s.squall := rfl
@[simp] theorem State.updFn_evr (s : State) (n : Fn) (f : FnS → FnS) : (State.updFn s n f).evr = s.evr := rfl
@[simp] theorem State.updFn_mtr (s : State) (n : Fn) (f : FnS → FnS) : (State.updFn s n f).mtr = s.mtr := rfl
@[simp] theorem State.updFn_disp (s : State) (n : Fn) (f : FnS → FnS) : (State.updFn s n f).disp = s.disp := rfl
@[simp] theorem State.updFn_qspi (s : State) (n : Fn) (f : FnS → FnS) : (State.updFn s n f).qspi = s.qspi := rfl
@[simp] theorem State.updFn_spit (s : State) (n : Fn) (f : FnS → FnS) : (State.updFn s n f).spit = s.spit := rfl
@[simp] theorem State.updFn_i2ct (s : State) (n : Fn) (f : FnS → FnS) : (State.updFn s n f).i2ct = s.i2ct := rfl
@[simp] theorem State.updFn_i2ci (s : State) (n : Fn) (f : FnS → FnS) : (State.updFn s n f).i2ci = s.i2ci := rfl
@[simp] theorem State.updFn_gpio (s : State) (n : Fn) (f : FnS → FnS) : (State.updFn s n f).gpio = s.gpio := rfl
@[simp] theorem State.updFn_vfl (s : State) (n : Fn) (f : FnS → FnS) : (State.updFn s n f).vfl = s.vfl := rfl
@[simp] theorem State.updFn_vfr (s : State) (n : Fn) (f : FnS → FnS) : (State.updFn s n f).vfr = s.vfr := rfl
@[simp] theorem State.updFn_mir (s : State) (n : Fn) (f : FnS → FnS) : (State.updFn s n f).mir = s.mir := rfl
@[simp] theorem State.updFn_hkp (s : State) (n : Fn) (f : FnS → FnS) : (State.updFn s n f).hkp = s.hkp := rfl
@[simp] theorem State.updFn_thr (s : State) (n : Fn) (f : FnS → FnS) : (State.updFn s n f).thr = s.thr := rfl
@[simp] theorem State.updFn_dbg (s : State) (n : Fn) (f : FnS → FnS) : (State.updFn s n f).dbg = s.dbg := rfl
@[simp] theorem State.setReg_pending (s : State) (p : Page) (off : Nat) (v : Word) : (State.setReg s p off v).pending = s.pending := rfl
@[simp] theorem State.setReg_now (s : State) (p : Page) (off : Nat) (v : Word) : (State.setReg s p off v).now = s.now := rfl
@[simp] theorem State.setReg_freeCtr (s : State) (p : Page) (off : Nat) (v : Word) : (State.setReg s p off v).freeCtr = s.freeCtr := rfl
@[simp] theorem State.setReg_outbox (s : State) (p : Page) (off : Nat) (v : Word) : (State.setReg s p off v).outbox = s.outbox := rfl
@[simp] theorem State.setReg_aon (s : State) (p : Page) (off : Nat) (v : Word) : (State.setReg s p off v).aon = s.aon := rfl
@[simp] theorem State.setReg_nvm (s : State) (p : Page) (off : Nat) (v : Word) : (State.setReg s p off v).nvm = s.nvm := rfl
@[simp] theorem State.setReg_hdr (s : State) (p : Page) (off : Nat) (v : Word) : (State.setReg s p off v).hdr = s.hdr := rfl
@[simp] theorem State.setReg_pins (s : State) (p : Page) (off : Nat) (v : Word) : (State.setReg s p off v).pins = s.pins := rfl
@[simp] theorem State.setReg_dev (s : State) (p : Page) (off : Nat) (v : Word) : (State.setReg s p off v).dev = s.dev := rfl
@[simp] theorem State.setReg_clk (s : State) (p : Page) (off : Nat) (v : Word) : (State.setReg s p off v).clk = s.clk := rfl
@[simp] theorem State.setReg_pwr (s : State) (p : Page) (off : Nat) (v : Word) : (State.setReg s p off v).pwr = s.pwr := rfl
@[simp] theorem State.setReg_boot (s : State) (p : Page) (off : Nat) (v : Word) : (State.setReg s p off v).boot = s.boot := rfl
@[simp] theorem State.setReg_upd (s : State) (p : Page) (off : Nat) (v : Word) : (State.setReg s p off v).upd = s.upd := rfl
@[simp] theorem State.setReg_pcie (s : State) (p : Page) (off : Nat) (v : Word) : (State.setReg s p off v).pcie = s.pcie := rfl
@[simp] theorem State.setReg_troutes (s : State) (p : Page) (off : Nat) (v : Word) : (State.setReg s p off v).troutes = s.troutes := rfl
@[simp] theorem State.setReg_tnt (s : State) (p : Page) (off : Nat) (v : Word) : (State.setReg s p off v).tnt = s.tnt := rfl
@[simp] theorem State.setReg_hqm (s : State) (p : Page) (off : Nat) (v : Word) : (State.setReg s p off v).hqm = s.hqm := rfl
@[simp] theorem State.setReg_own (s : State) (p : Page) (off : Nat) (v : Word) : (State.setReg s p off v).own = s.own := rfl
@[simp] theorem State.setReg_ciph (s : State) (p : Page) (off : Nat) (v : Word) : (State.setReg s p off v).ciph = s.ciph := rfl
@[simp] theorem State.setReg_sign (s : State) (p : Page) (off : Nat) (v : Word) : (State.setReg s p off v).sign = s.sign := rfl
@[simp] theorem State.setReg_chainU (s : State) (p : Page) (off : Nat) (v : Word) : (State.setReg s p off v).chainU = s.chainU := rfl
@[simp] theorem State.setReg_med (s : State) (p : Page) (off : Nat) (v : Word) : (State.setReg s p off v).med = s.med := rfl
@[simp] theorem State.setReg_dram (s : State) (p : Page) (off : Nat) (v : Word) : (State.setReg s p off v).dram = s.dram := rfl
@[simp] theorem State.setReg_sram (s : State) (p : Page) (off : Nat) (v : Word) : (State.setReg s p off v).sram = s.sram := rfl
@[simp] theorem State.setReg_bpm (s : State) (p : Page) (off : Nat) (v : Word) : (State.setReg s p off v).bpm = s.bpm := rfl
@[simp] theorem State.setReg_squall (s : State) (p : Page) (off : Nat) (v : Word) : (State.setReg s p off v).squall = s.squall := rfl
@[simp] theorem State.setReg_evr (s : State) (p : Page) (off : Nat) (v : Word) : (State.setReg s p off v).evr = s.evr := rfl
@[simp] theorem State.setReg_mtr (s : State) (p : Page) (off : Nat) (v : Word) : (State.setReg s p off v).mtr = s.mtr := rfl
@[simp] theorem State.setReg_disp (s : State) (p : Page) (off : Nat) (v : Word) : (State.setReg s p off v).disp = s.disp := rfl
@[simp] theorem State.setReg_qspi (s : State) (p : Page) (off : Nat) (v : Word) : (State.setReg s p off v).qspi = s.qspi := rfl
@[simp] theorem State.setReg_spit (s : State) (p : Page) (off : Nat) (v : Word) : (State.setReg s p off v).spit = s.spit := rfl
@[simp] theorem State.setReg_i2ct (s : State) (p : Page) (off : Nat) (v : Word) : (State.setReg s p off v).i2ct = s.i2ct := rfl
@[simp] theorem State.setReg_i2ci (s : State) (p : Page) (off : Nat) (v : Word) : (State.setReg s p off v).i2ci = s.i2ci := rfl
@[simp] theorem State.setReg_gpio (s : State) (p : Page) (off : Nat) (v : Word) : (State.setReg s p off v).gpio = s.gpio := rfl
@[simp] theorem State.setReg_vfl (s : State) (p : Page) (off : Nat) (v : Word) : (State.setReg s p off v).vfl = s.vfl := rfl
@[simp] theorem State.setReg_vfr (s : State) (p : Page) (off : Nat) (v : Word) : (State.setReg s p off v).vfr = s.vfr := rfl
@[simp] theorem State.setReg_mir (s : State) (p : Page) (off : Nat) (v : Word) : (State.setReg s p off v).mir = s.mir := rfl
@[simp] theorem State.setReg_hkp (s : State) (p : Page) (off : Nat) (v : Word) : (State.setReg s p off v).hkp = s.hkp := rfl
@[simp] theorem State.setReg_thr (s : State) (p : Page) (off : Nat) (v : Word) : (State.setReg s p off v).thr = s.thr := rfl
@[simp] theorem State.setReg_dbg (s : State) (p : Page) (off : Nat) (v : Word) : (State.setReg s p off v).dbg = s.dbg := rfl
@[simp] theorem State.updCmd_pending (s : State) (tag : Tag) (f : Cmd → Cmd) : (State.updCmd s tag f).pending = s.pending := rfl
@[simp] theorem State.updCmd_now (s : State) (tag : Tag) (f : Cmd → Cmd) : (State.updCmd s tag f).now = s.now := rfl
@[simp] theorem State.updCmd_freeCtr (s : State) (tag : Tag) (f : Cmd → Cmd) : (State.updCmd s tag f).freeCtr = s.freeCtr := rfl
@[simp] theorem State.updCmd_outbox (s : State) (tag : Tag) (f : Cmd → Cmd) : (State.updCmd s tag f).outbox = s.outbox := rfl
@[simp] theorem State.updCmd_aon (s : State) (tag : Tag) (f : Cmd → Cmd) : (State.updCmd s tag f).aon = s.aon := rfl
@[simp] theorem State.updCmd_nvm (s : State) (tag : Tag) (f : Cmd → Cmd) : (State.updCmd s tag f).nvm = s.nvm := rfl
@[simp] theorem State.updCmd_hdr (s : State) (tag : Tag) (f : Cmd → Cmd) : (State.updCmd s tag f).hdr = s.hdr := rfl
@[simp] theorem State.updCmd_regs (s : State) (tag : Tag) (f : Cmd → Cmd) : (State.updCmd s tag f).regs = s.regs := rfl
@[simp] theorem State.updCmd_pins (s : State) (tag : Tag) (f : Cmd → Cmd) : (State.updCmd s tag f).pins = s.pins := rfl
@[simp] theorem State.updCmd_dev (s : State) (tag : Tag) (f : Cmd → Cmd) : (State.updCmd s tag f).dev = s.dev := rfl
@[simp] theorem State.updCmd_clk (s : State) (tag : Tag) (f : Cmd → Cmd) : (State.updCmd s tag f).clk = s.clk := rfl
@[simp] theorem State.updCmd_pwr (s : State) (tag : Tag) (f : Cmd → Cmd) : (State.updCmd s tag f).pwr = s.pwr := rfl
@[simp] theorem State.updCmd_boot (s : State) (tag : Tag) (f : Cmd → Cmd) : (State.updCmd s tag f).boot = s.boot := rfl
@[simp] theorem State.updCmd_upd (s : State) (tag : Tag) (f : Cmd → Cmd) : (State.updCmd s tag f).upd = s.upd := rfl
@[simp] theorem State.updCmd_pcie (s : State) (tag : Tag) (f : Cmd → Cmd) : (State.updCmd s tag f).pcie = s.pcie := rfl
@[simp] theorem State.updCmd_troutes (s : State) (tag : Tag) (f : Cmd → Cmd) : (State.updCmd s tag f).troutes = s.troutes := rfl
@[simp] theorem State.updCmd_tnt (s : State) (tag : Tag) (f : Cmd → Cmd) : (State.updCmd s tag f).tnt = s.tnt := rfl
@[simp] theorem State.updCmd_own (s : State) (tag : Tag) (f : Cmd → Cmd) : (State.updCmd s tag f).own = s.own := rfl
@[simp] theorem State.updCmd_ciph (s : State) (tag : Tag) (f : Cmd → Cmd) : (State.updCmd s tag f).ciph = s.ciph := rfl
@[simp] theorem State.updCmd_sign (s : State) (tag : Tag) (f : Cmd → Cmd) : (State.updCmd s tag f).sign = s.sign := rfl
@[simp] theorem State.updCmd_chainU (s : State) (tag : Tag) (f : Cmd → Cmd) : (State.updCmd s tag f).chainU = s.chainU := rfl
@[simp] theorem State.updCmd_med (s : State) (tag : Tag) (f : Cmd → Cmd) : (State.updCmd s tag f).med = s.med := rfl
@[simp] theorem State.updCmd_dram (s : State) (tag : Tag) (f : Cmd → Cmd) : (State.updCmd s tag f).dram = s.dram := rfl
@[simp] theorem State.updCmd_sram (s : State) (tag : Tag) (f : Cmd → Cmd) : (State.updCmd s tag f).sram = s.sram := rfl
@[simp] theorem State.updCmd_bpm (s : State) (tag : Tag) (f : Cmd → Cmd) : (State.updCmd s tag f).bpm = s.bpm := rfl
@[simp] theorem State.updCmd_squall (s : State) (tag : Tag) (f : Cmd → Cmd) : (State.updCmd s tag f).squall = s.squall := rfl
@[simp] theorem State.updCmd_evr (s : State) (tag : Tag) (f : Cmd → Cmd) : (State.updCmd s tag f).evr = s.evr := rfl
@[simp] theorem State.updCmd_mtr (s : State) (tag : Tag) (f : Cmd → Cmd) : (State.updCmd s tag f).mtr = s.mtr := rfl
@[simp] theorem State.updCmd_disp (s : State) (tag : Tag) (f : Cmd → Cmd) : (State.updCmd s tag f).disp = s.disp := rfl
@[simp] theorem State.updCmd_qspi (s : State) (tag : Tag) (f : Cmd → Cmd) : (State.updCmd s tag f).qspi = s.qspi := rfl
@[simp] theorem State.updCmd_spit (s : State) (tag : Tag) (f : Cmd → Cmd) : (State.updCmd s tag f).spit = s.spit := rfl
@[simp] theorem State.updCmd_i2ct (s : State) (tag : Tag) (f : Cmd → Cmd) : (State.updCmd s tag f).i2ct = s.i2ct := rfl
@[simp] theorem State.updCmd_i2ci (s : State) (tag : Tag) (f : Cmd → Cmd) : (State.updCmd s tag f).i2ci = s.i2ci := rfl
@[simp] theorem State.updCmd_gpio (s : State) (tag : Tag) (f : Cmd → Cmd) : (State.updCmd s tag f).gpio = s.gpio := rfl
@[simp] theorem State.updCmd_vfl (s : State) (tag : Tag) (f : Cmd → Cmd) : (State.updCmd s tag f).vfl = s.vfl := rfl
@[simp] theorem State.updCmd_vfr (s : State) (tag : Tag) (f : Cmd → Cmd) : (State.updCmd s tag f).vfr = s.vfr := rfl
@[simp] theorem State.updCmd_mir (s : State) (tag : Tag) (f : Cmd → Cmd) : (State.updCmd s tag f).mir = s.mir := rfl
@[simp] theorem State.updCmd_hkp (s : State) (tag : Tag) (f : Cmd → Cmd) : (State.updCmd s tag f).hkp = s.hkp := rfl
@[simp] theorem State.updCmd_thr (s : State) (tag : Tag) (f : Cmd → Cmd) : (State.updCmd s tag f).thr = s.thr := rfl
@[simp] theorem State.updCmd_dbg (s : State) (tag : Tag) (f : Cmd → Cmd) : (State.updCmd s tag f).dbg = s.dbg := rfl
@[simp] theorem State.updVfl_pending (s : State) (p : Fin 4) (f : VflS → VflS) : (State.updVfl s p f).pending = s.pending := rfl
@[simp] theorem State.updVfl_now (s : State) (p : Fin 4) (f : VflS → VflS) : (State.updVfl s p f).now = s.now := rfl
@[simp] theorem State.updVfl_freeCtr (s : State) (p : Fin 4) (f : VflS → VflS) : (State.updVfl s p f).freeCtr = s.freeCtr := rfl
@[simp] theorem State.updVfl_outbox (s : State) (p : Fin 4) (f : VflS → VflS) : (State.updVfl s p f).outbox = s.outbox := rfl
@[simp] theorem State.updVfl_aon (s : State) (p : Fin 4) (f : VflS → VflS) : (State.updVfl s p f).aon = s.aon := rfl
@[simp] theorem State.updVfl_nvm (s : State) (p : Fin 4) (f : VflS → VflS) : (State.updVfl s p f).nvm = s.nvm := rfl
@[simp] theorem State.updVfl_hdr (s : State) (p : Fin 4) (f : VflS → VflS) : (State.updVfl s p f).hdr = s.hdr := rfl
@[simp] theorem State.updVfl_regs (s : State) (p : Fin 4) (f : VflS → VflS) : (State.updVfl s p f).regs = s.regs := rfl
@[simp] theorem State.updVfl_pins (s : State) (p : Fin 4) (f : VflS → VflS) : (State.updVfl s p f).pins = s.pins := rfl
@[simp] theorem State.updVfl_dev (s : State) (p : Fin 4) (f : VflS → VflS) : (State.updVfl s p f).dev = s.dev := rfl
@[simp] theorem State.updVfl_clk (s : State) (p : Fin 4) (f : VflS → VflS) : (State.updVfl s p f).clk = s.clk := rfl
@[simp] theorem State.updVfl_pwr (s : State) (p : Fin 4) (f : VflS → VflS) : (State.updVfl s p f).pwr = s.pwr := rfl
@[simp] theorem State.updVfl_boot (s : State) (p : Fin 4) (f : VflS → VflS) : (State.updVfl s p f).boot = s.boot := rfl
@[simp] theorem State.updVfl_upd (s : State) (p : Fin 4) (f : VflS → VflS) : (State.updVfl s p f).upd = s.upd := rfl
@[simp] theorem State.updVfl_pcie (s : State) (p : Fin 4) (f : VflS → VflS) : (State.updVfl s p f).pcie = s.pcie := rfl
@[simp] theorem State.updVfl_troutes (s : State) (p : Fin 4) (f : VflS → VflS) : (State.updVfl s p f).troutes = s.troutes := rfl
@[simp] theorem State.updVfl_tnt (s : State) (p : Fin 4) (f : VflS → VflS) : (State.updVfl s p f).tnt = s.tnt := rfl
@[simp] theorem State.updVfl_hqm (s : State) (p : Fin 4) (f : VflS → VflS) : (State.updVfl s p f).hqm = s.hqm := rfl
@[simp] theorem State.updVfl_own (s : State) (p : Fin 4) (f : VflS → VflS) : (State.updVfl s p f).own = s.own := rfl
@[simp] theorem State.updVfl_ciph (s : State) (p : Fin 4) (f : VflS → VflS) : (State.updVfl s p f).ciph = s.ciph := rfl
@[simp] theorem State.updVfl_sign (s : State) (p : Fin 4) (f : VflS → VflS) : (State.updVfl s p f).sign = s.sign := rfl
@[simp] theorem State.updVfl_chainU (s : State) (p : Fin 4) (f : VflS → VflS) : (State.updVfl s p f).chainU = s.chainU := rfl
@[simp] theorem State.updVfl_med (s : State) (p : Fin 4) (f : VflS → VflS) : (State.updVfl s p f).med = s.med := rfl
@[simp] theorem State.updVfl_dram (s : State) (p : Fin 4) (f : VflS → VflS) : (State.updVfl s p f).dram = s.dram := rfl
@[simp] theorem State.updVfl_sram (s : State) (p : Fin 4) (f : VflS → VflS) : (State.updVfl s p f).sram = s.sram := rfl
@[simp] theorem State.updVfl_bpm (s : State) (p : Fin 4) (f : VflS → VflS) : (State.updVfl s p f).bpm = s.bpm := rfl
@[simp] theorem State.updVfl_squall (s : State) (p : Fin 4) (f : VflS → VflS) : (State.updVfl s p f).squall = s.squall := rfl
@[simp] theorem State.updVfl_evr (s : State) (p : Fin 4) (f : VflS → VflS) : (State.updVfl s p f).evr = s.evr := rfl
@[simp] theorem State.updVfl_mtr (s : State) (p : Fin 4) (f : VflS → VflS) : (State.updVfl s p f).mtr = s.mtr := rfl
@[simp] theorem State.updVfl_disp (s : State) (p : Fin 4) (f : VflS → VflS) : (State.updVfl s p f).disp = s.disp := rfl
@[simp] theorem State.updVfl_qspi (s : State) (p : Fin 4) (f : VflS → VflS) : (State.updVfl s p f).qspi = s.qspi := rfl
@[simp] theorem State.updVfl_spit (s : State) (p : Fin 4) (f : VflS → VflS) : (State.updVfl s p f).spit = s.spit := rfl
@[simp] theorem State.updVfl_i2ct (s : State) (p : Fin 4) (f : VflS → VflS) : (State.updVfl s p f).i2ct = s.i2ct := rfl
@[simp] theorem State.updVfl_i2ci (s : State) (p : Fin 4) (f : VflS → VflS) : (State.updVfl s p f).i2ci = s.i2ci := rfl
@[simp] theorem State.updVfl_gpio (s : State) (p : Fin 4) (f : VflS → VflS) : (State.updVfl s p f).gpio = s.gpio := rfl
@[simp] theorem State.updVfl_vfr (s : State) (p : Fin 4) (f : VflS → VflS) : (State.updVfl s p f).vfr = s.vfr := rfl
@[simp] theorem State.updVfl_mir (s : State) (p : Fin 4) (f : VflS → VflS) : (State.updVfl s p f).mir = s.mir := rfl
@[simp] theorem State.updVfl_hkp (s : State) (p : Fin 4) (f : VflS → VflS) : (State.updVfl s p f).hkp = s.hkp := rfl
@[simp] theorem State.updVfl_thr (s : State) (p : Fin 4) (f : VflS → VflS) : (State.updVfl s p f).thr = s.thr := rfl
@[simp] theorem State.updVfl_dbg (s : State) (p : Fin 4) (f : VflS → VflS) : (State.updVfl s p f).dbg = s.dbg := rfl
@[simp] theorem State.updZone_pending (s : State) (z : Nat) (f : Zone → Zone) : (State.updZone s z f).pending = s.pending := rfl
@[simp] theorem State.updZone_now (s : State) (z : Nat) (f : Zone → Zone) : (State.updZone s z f).now = s.now := rfl
@[simp] theorem State.updZone_freeCtr (s : State) (z : Nat) (f : Zone → Zone) : (State.updZone s z f).freeCtr = s.freeCtr := rfl
@[simp] theorem State.updZone_outbox (s : State) (z : Nat) (f : Zone → Zone) : (State.updZone s z f).outbox = s.outbox := rfl
@[simp] theorem State.updZone_aon (s : State) (z : Nat) (f : Zone → Zone) : (State.updZone s z f).aon = s.aon := rfl
@[simp] theorem State.updZone_hdr (s : State) (z : Nat) (f : Zone → Zone) : (State.updZone s z f).hdr = s.hdr := rfl
@[simp] theorem State.updZone_regs (s : State) (z : Nat) (f : Zone → Zone) : (State.updZone s z f).regs = s.regs := rfl
@[simp] theorem State.updZone_pins (s : State) (z : Nat) (f : Zone → Zone) : (State.updZone s z f).pins = s.pins := rfl
@[simp] theorem State.updZone_dev (s : State) (z : Nat) (f : Zone → Zone) : (State.updZone s z f).dev = s.dev := rfl
@[simp] theorem State.updZone_clk (s : State) (z : Nat) (f : Zone → Zone) : (State.updZone s z f).clk = s.clk := rfl
@[simp] theorem State.updZone_pwr (s : State) (z : Nat) (f : Zone → Zone) : (State.updZone s z f).pwr = s.pwr := rfl
@[simp] theorem State.updZone_boot (s : State) (z : Nat) (f : Zone → Zone) : (State.updZone s z f).boot = s.boot := rfl
@[simp] theorem State.updZone_upd (s : State) (z : Nat) (f : Zone → Zone) : (State.updZone s z f).upd = s.upd := rfl
@[simp] theorem State.updZone_pcie (s : State) (z : Nat) (f : Zone → Zone) : (State.updZone s z f).pcie = s.pcie := rfl
@[simp] theorem State.updZone_troutes (s : State) (z : Nat) (f : Zone → Zone) : (State.updZone s z f).troutes = s.troutes := rfl
@[simp] theorem State.updZone_tnt (s : State) (z : Nat) (f : Zone → Zone) : (State.updZone s z f).tnt = s.tnt := rfl
@[simp] theorem State.updZone_hqm (s : State) (z : Nat) (f : Zone → Zone) : (State.updZone s z f).hqm = s.hqm := rfl
@[simp] theorem State.updZone_own (s : State) (z : Nat) (f : Zone → Zone) : (State.updZone s z f).own = s.own := rfl
@[simp] theorem State.updZone_ciph (s : State) (z : Nat) (f : Zone → Zone) : (State.updZone s z f).ciph = s.ciph := rfl
@[simp] theorem State.updZone_sign (s : State) (z : Nat) (f : Zone → Zone) : (State.updZone s z f).sign = s.sign := rfl
@[simp] theorem State.updZone_chainU (s : State) (z : Nat) (f : Zone → Zone) : (State.updZone s z f).chainU = s.chainU := rfl
@[simp] theorem State.updZone_med (s : State) (z : Nat) (f : Zone → Zone) : (State.updZone s z f).med = s.med := rfl
@[simp] theorem State.updZone_dram (s : State) (z : Nat) (f : Zone → Zone) : (State.updZone s z f).dram = s.dram := rfl
@[simp] theorem State.updZone_sram (s : State) (z : Nat) (f : Zone → Zone) : (State.updZone s z f).sram = s.sram := rfl
@[simp] theorem State.updZone_bpm (s : State) (z : Nat) (f : Zone → Zone) : (State.updZone s z f).bpm = s.bpm := rfl
@[simp] theorem State.updZone_squall (s : State) (z : Nat) (f : Zone → Zone) : (State.updZone s z f).squall = s.squall := rfl
@[simp] theorem State.updZone_evr (s : State) (z : Nat) (f : Zone → Zone) : (State.updZone s z f).evr = s.evr := rfl
@[simp] theorem State.updZone_mtr (s : State) (z : Nat) (f : Zone → Zone) : (State.updZone s z f).mtr = s.mtr := rfl
@[simp] theorem State.updZone_disp (s : State) (z : Nat) (f : Zone → Zone) : (State.updZone s z f).disp = s.disp := rfl
@[simp] theorem State.updZone_qspi (s : State) (z : Nat) (f : Zone → Zone) : (State.updZone s z f).qspi = s.qspi := rfl
@[simp] theorem State.updZone_spit (s : State) (z : Nat) (f : Zone → Zone) : (State.updZone s z f).spit = s.spit := rfl
@[simp] theorem State.updZone_i2ct (s : State) (z : Nat) (f : Zone → Zone) : (State.updZone s z f).i2ct = s.i2ct := rfl
@[simp] theorem State.updZone_i2ci (s : State) (z : Nat) (f : Zone → Zone) : (State.updZone s z f).i2ci = s.i2ci := rfl
@[simp] theorem State.updZone_gpio (s : State) (z : Nat) (f : Zone → Zone) : (State.updZone s z f).gpio = s.gpio := rfl
@[simp] theorem State.updZone_vfl (s : State) (z : Nat) (f : Zone → Zone) : (State.updZone s z f).vfl = s.vfl := rfl
@[simp] theorem State.updZone_vfr (s : State) (z : Nat) (f : Zone → Zone) : (State.updZone s z f).vfr = s.vfr := rfl
@[simp] theorem State.updZone_mir (s : State) (z : Nat) (f : Zone → Zone) : (State.updZone s z f).mir = s.mir := rfl
@[simp] theorem State.updZone_hkp (s : State) (z : Nat) (f : Zone → Zone) : (State.updZone s z f).hkp = s.hkp := rfl
@[simp] theorem State.updZone_thr (s : State) (z : Nat) (f : Zone → Zone) : (State.updZone s z f).thr = s.thr := rfl
@[simp] theorem State.updZone_dbg (s : State) (z : Nat) (f : Zone → Zone) : (State.updZone s z f).dbg = s.dbg := rfl
@[simp] theorem State.updBuf_pending (s : State) (h : Nat) (f : Buf → Buf) : (State.updBuf s h f).pending = s.pending := rfl
@[simp] theorem State.updBuf_now (s : State) (h : Nat) (f : Buf → Buf) : (State.updBuf s h f).now = s.now := rfl
@[simp] theorem State.updBuf_freeCtr (s : State) (h : Nat) (f : Buf → Buf) : (State.updBuf s h f).freeCtr = s.freeCtr := rfl
@[simp] theorem State.updBuf_outbox (s : State) (h : Nat) (f : Buf → Buf) : (State.updBuf s h f).outbox = s.outbox := rfl
@[simp] theorem State.updBuf_aon (s : State) (h : Nat) (f : Buf → Buf) : (State.updBuf s h f).aon = s.aon := rfl
@[simp] theorem State.updBuf_nvm (s : State) (h : Nat) (f : Buf → Buf) : (State.updBuf s h f).nvm = s.nvm := rfl
@[simp] theorem State.updBuf_hdr (s : State) (h : Nat) (f : Buf → Buf) : (State.updBuf s h f).hdr = s.hdr := rfl
@[simp] theorem State.updBuf_regs (s : State) (h : Nat) (f : Buf → Buf) : (State.updBuf s h f).regs = s.regs := rfl
@[simp] theorem State.updBuf_pins (s : State) (h : Nat) (f : Buf → Buf) : (State.updBuf s h f).pins = s.pins := rfl
@[simp] theorem State.updBuf_dev (s : State) (h : Nat) (f : Buf → Buf) : (State.updBuf s h f).dev = s.dev := rfl
@[simp] theorem State.updBuf_clk (s : State) (h : Nat) (f : Buf → Buf) : (State.updBuf s h f).clk = s.clk := rfl
@[simp] theorem State.updBuf_pwr (s : State) (h : Nat) (f : Buf → Buf) : (State.updBuf s h f).pwr = s.pwr := rfl
@[simp] theorem State.updBuf_boot (s : State) (h : Nat) (f : Buf → Buf) : (State.updBuf s h f).boot = s.boot := rfl
@[simp] theorem State.updBuf_upd (s : State) (h : Nat) (f : Buf → Buf) : (State.updBuf s h f).upd = s.upd := rfl
@[simp] theorem State.updBuf_pcie (s : State) (h : Nat) (f : Buf → Buf) : (State.updBuf s h f).pcie = s.pcie := rfl
@[simp] theorem State.updBuf_troutes (s : State) (h : Nat) (f : Buf → Buf) : (State.updBuf s h f).troutes = s.troutes := rfl
@[simp] theorem State.updBuf_tnt (s : State) (h : Nat) (f : Buf → Buf) : (State.updBuf s h f).tnt = s.tnt := rfl
@[simp] theorem State.updBuf_hqm (s : State) (h : Nat) (f : Buf → Buf) : (State.updBuf s h f).hqm = s.hqm := rfl
@[simp] theorem State.updBuf_own (s : State) (h : Nat) (f : Buf → Buf) : (State.updBuf s h f).own = s.own := rfl
@[simp] theorem State.updBuf_ciph (s : State) (h : Nat) (f : Buf → Buf) : (State.updBuf s h f).ciph = s.ciph := rfl
@[simp] theorem State.updBuf_sign (s : State) (h : Nat) (f : Buf → Buf) : (State.updBuf s h f).sign = s.sign := rfl
@[simp] theorem State.updBuf_chainU (s : State) (h : Nat) (f : Buf → Buf) : (State.updBuf s h f).chainU = s.chainU := rfl
@[simp] theorem State.updBuf_med (s : State) (h : Nat) (f : Buf → Buf) : (State.updBuf s h f).med = s.med := rfl
@[simp] theorem State.updBuf_dram (s : State) (h : Nat) (f : Buf → Buf) : (State.updBuf s h f).dram = s.dram := rfl
@[simp] theorem State.updBuf_sram (s : State) (h : Nat) (f : Buf → Buf) : (State.updBuf s h f).sram = s.sram := rfl
@[simp] theorem State.updBuf_squall (s : State) (h : Nat) (f : Buf → Buf) : (State.updBuf s h f).squall = s.squall := rfl
@[simp] theorem State.updBuf_evr (s : State) (h : Nat) (f : Buf → Buf) : (State.updBuf s h f).evr = s.evr := rfl
@[simp] theorem State.updBuf_mtr (s : State) (h : Nat) (f : Buf → Buf) : (State.updBuf s h f).mtr = s.mtr := rfl
@[simp] theorem State.updBuf_disp (s : State) (h : Nat) (f : Buf → Buf) : (State.updBuf s h f).disp = s.disp := rfl
@[simp] theorem State.updBuf_qspi (s : State) (h : Nat) (f : Buf → Buf) : (State.updBuf s h f).qspi = s.qspi := rfl
@[simp] theorem State.updBuf_spit (s : State) (h : Nat) (f : Buf → Buf) : (State.updBuf s h f).spit = s.spit := rfl
@[simp] theorem State.updBuf_i2ct (s : State) (h : Nat) (f : Buf → Buf) : (State.updBuf s h f).i2ct = s.i2ct := rfl
@[simp] theorem State.updBuf_i2ci (s : State) (h : Nat) (f : Buf → Buf) : (State.updBuf s h f).i2ci = s.i2ci := rfl
@[simp] theorem State.updBuf_gpio (s : State) (h : Nat) (f : Buf → Buf) : (State.updBuf s h f).gpio = s.gpio := rfl
@[simp] theorem State.updBuf_vfl (s : State) (h : Nat) (f : Buf → Buf) : (State.updBuf s h f).vfl = s.vfl := rfl
@[simp] theorem State.updBuf_vfr (s : State) (h : Nat) (f : Buf → Buf) : (State.updBuf s h f).vfr = s.vfr := rfl
@[simp] theorem State.updBuf_mir (s : State) (h : Nat) (f : Buf → Buf) : (State.updBuf s h f).mir = s.mir := rfl
@[simp] theorem State.updBuf_hkp (s : State) (h : Nat) (f : Buf → Buf) : (State.updBuf s h f).hkp = s.hkp := rfl
@[simp] theorem State.updBuf_thr (s : State) (h : Nat) (f : Buf → Buf) : (State.updBuf s h f).thr = s.thr := rfl
@[simp] theorem State.updBuf_dbg (s : State) (h : Nat) (f : Buf → Buf) : (State.updBuf s h f).dbg = s.dbg := rfl
@[simp] theorem State.updSb_pending (s : State) (k : Nat) (f : Superblock → Superblock) : (State.updSb s k f).pending = s.pending := rfl
@[simp] theorem State.updSb_now (s : State) (k : Nat) (f : Superblock → Superblock) : (State.updSb s k f).now = s.now := rfl
@[simp] theorem State.updSb_freeCtr (s : State) (k : Nat) (f : Superblock → Superblock) : (State.updSb s k f).freeCtr = s.freeCtr := rfl
@[simp] theorem State.updSb_outbox (s : State) (k : Nat) (f : Superblock → Superblock) : (State.updSb s k f).outbox = s.outbox := rfl
@[simp] theorem State.updSb_aon (s : State) (k : Nat) (f : Superblock → Superblock) : (State.updSb s k f).aon = s.aon := rfl
@[simp] theorem State.updSb_hdr (s : State) (k : Nat) (f : Superblock → Superblock) : (State.updSb s k f).hdr = s.hdr := rfl
@[simp] theorem State.updSb_regs (s : State) (k : Nat) (f : Superblock → Superblock) : (State.updSb s k f).regs = s.regs := rfl
@[simp] theorem State.updSb_pins (s : State) (k : Nat) (f : Superblock → Superblock) : (State.updSb s k f).pins = s.pins := rfl
@[simp] theorem State.updSb_dev (s : State) (k : Nat) (f : Superblock → Superblock) : (State.updSb s k f).dev = s.dev := rfl
@[simp] theorem State.updSb_clk (s : State) (k : Nat) (f : Superblock → Superblock) : (State.updSb s k f).clk = s.clk := rfl
@[simp] theorem State.updSb_pwr (s : State) (k : Nat) (f : Superblock → Superblock) : (State.updSb s k f).pwr = s.pwr := rfl
@[simp] theorem State.updSb_boot (s : State) (k : Nat) (f : Superblock → Superblock) : (State.updSb s k f).boot = s.boot := rfl
@[simp] theorem State.updSb_upd (s : State) (k : Nat) (f : Superblock → Superblock) : (State.updSb s k f).upd = s.upd := rfl
@[simp] theorem State.updSb_pcie (s : State) (k : Nat) (f : Superblock → Superblock) : (State.updSb s k f).pcie = s.pcie := rfl
@[simp] theorem State.updSb_troutes (s : State) (k : Nat) (f : Superblock → Superblock) : (State.updSb s k f).troutes = s.troutes := rfl
@[simp] theorem State.updSb_tnt (s : State) (k : Nat) (f : Superblock → Superblock) : (State.updSb s k f).tnt = s.tnt := rfl
@[simp] theorem State.updSb_hqm (s : State) (k : Nat) (f : Superblock → Superblock) : (State.updSb s k f).hqm = s.hqm := rfl
@[simp] theorem State.updSb_own (s : State) (k : Nat) (f : Superblock → Superblock) : (State.updSb s k f).own = s.own := rfl
@[simp] theorem State.updSb_ciph (s : State) (k : Nat) (f : Superblock → Superblock) : (State.updSb s k f).ciph = s.ciph := rfl
@[simp] theorem State.updSb_sign (s : State) (k : Nat) (f : Superblock → Superblock) : (State.updSb s k f).sign = s.sign := rfl
@[simp] theorem State.updSb_chainU (s : State) (k : Nat) (f : Superblock → Superblock) : (State.updSb s k f).chainU = s.chainU := rfl
@[simp] theorem State.updSb_med (s : State) (k : Nat) (f : Superblock → Superblock) : (State.updSb s k f).med = s.med := rfl
@[simp] theorem State.updSb_dram (s : State) (k : Nat) (f : Superblock → Superblock) : (State.updSb s k f).dram = s.dram := rfl
@[simp] theorem State.updSb_sram (s : State) (k : Nat) (f : Superblock → Superblock) : (State.updSb s k f).sram = s.sram := rfl
@[simp] theorem State.updSb_bpm (s : State) (k : Nat) (f : Superblock → Superblock) : (State.updSb s k f).bpm = s.bpm := rfl
@[simp] theorem State.updSb_squall (s : State) (k : Nat) (f : Superblock → Superblock) : (State.updSb s k f).squall = s.squall := rfl
@[simp] theorem State.updSb_evr (s : State) (k : Nat) (f : Superblock → Superblock) : (State.updSb s k f).evr = s.evr := rfl
@[simp] theorem State.updSb_mtr (s : State) (k : Nat) (f : Superblock → Superblock) : (State.updSb s k f).mtr = s.mtr := rfl
@[simp] theorem State.updSb_disp (s : State) (k : Nat) (f : Superblock → Superblock) : (State.updSb s k f).disp = s.disp := rfl
@[simp] theorem State.updSb_qspi (s : State) (k : Nat) (f : Superblock → Superblock) : (State.updSb s k f).qspi = s.qspi := rfl
@[simp] theorem State.updSb_spit (s : State) (k : Nat) (f : Superblock → Superblock) : (State.updSb s k f).spit = s.spit := rfl
@[simp] theorem State.updSb_i2ct (s : State) (k : Nat) (f : Superblock → Superblock) : (State.updSb s k f).i2ct = s.i2ct := rfl
@[simp] theorem State.updSb_i2ci (s : State) (k : Nat) (f : Superblock → Superblock) : (State.updSb s k f).i2ci = s.i2ci := rfl
@[simp] theorem State.updSb_gpio (s : State) (k : Nat) (f : Superblock → Superblock) : (State.updSb s k f).gpio = s.gpio := rfl
@[simp] theorem State.updSb_vfl (s : State) (k : Nat) (f : Superblock → Superblock) : (State.updSb s k f).vfl = s.vfl := rfl
@[simp] theorem State.updSb_vfr (s : State) (k : Nat) (f : Superblock → Superblock) : (State.updSb s k f).vfr = s.vfr := rfl
@[simp] theorem State.updSb_mir (s : State) (k : Nat) (f : Superblock → Superblock) : (State.updSb s k f).mir = s.mir := rfl
@[simp] theorem State.updSb_hkp (s : State) (k : Nat) (f : Superblock → Superblock) : (State.updSb s k f).hkp = s.hkp := rfl
@[simp] theorem State.updSb_thr (s : State) (k : Nat) (f : Superblock → Superblock) : (State.updSb s k f).thr = s.thr := rfl
@[simp] theorem State.updSb_dbg (s : State) (k : Nat) (f : Superblock → Superblock) : (State.updSb s k f).dbg = s.dbg := rfl
@[simp] theorem State.updNfc_pending (s : State) (ch : Nat) (f : NfcS → NfcS) : (State.updNfc s ch f).pending = s.pending := rfl
@[simp] theorem State.updNfc_now (s : State) (ch : Nat) (f : NfcS → NfcS) : (State.updNfc s ch f).now = s.now := rfl
@[simp] theorem State.updNfc_freeCtr (s : State) (ch : Nat) (f : NfcS → NfcS) : (State.updNfc s ch f).freeCtr = s.freeCtr := rfl
@[simp] theorem State.updNfc_outbox (s : State) (ch : Nat) (f : NfcS → NfcS) : (State.updNfc s ch f).outbox = s.outbox := rfl
@[simp] theorem State.updNfc_aon (s : State) (ch : Nat) (f : NfcS → NfcS) : (State.updNfc s ch f).aon = s.aon := rfl
@[simp] theorem State.updNfc_nvm (s : State) (ch : Nat) (f : NfcS → NfcS) : (State.updNfc s ch f).nvm = s.nvm := rfl
@[simp] theorem State.updNfc_hdr (s : State) (ch : Nat) (f : NfcS → NfcS) : (State.updNfc s ch f).hdr = s.hdr := rfl
@[simp] theorem State.updNfc_regs (s : State) (ch : Nat) (f : NfcS → NfcS) : (State.updNfc s ch f).regs = s.regs := rfl
@[simp] theorem State.updNfc_pins (s : State) (ch : Nat) (f : NfcS → NfcS) : (State.updNfc s ch f).pins = s.pins := rfl
@[simp] theorem State.updNfc_dev (s : State) (ch : Nat) (f : NfcS → NfcS) : (State.updNfc s ch f).dev = s.dev := rfl
@[simp] theorem State.updNfc_clk (s : State) (ch : Nat) (f : NfcS → NfcS) : (State.updNfc s ch f).clk = s.clk := rfl
@[simp] theorem State.updNfc_pwr (s : State) (ch : Nat) (f : NfcS → NfcS) : (State.updNfc s ch f).pwr = s.pwr := rfl
@[simp] theorem State.updNfc_boot (s : State) (ch : Nat) (f : NfcS → NfcS) : (State.updNfc s ch f).boot = s.boot := rfl
@[simp] theorem State.updNfc_upd (s : State) (ch : Nat) (f : NfcS → NfcS) : (State.updNfc s ch f).upd = s.upd := rfl
@[simp] theorem State.updNfc_pcie (s : State) (ch : Nat) (f : NfcS → NfcS) : (State.updNfc s ch f).pcie = s.pcie := rfl
@[simp] theorem State.updNfc_troutes (s : State) (ch : Nat) (f : NfcS → NfcS) : (State.updNfc s ch f).troutes = s.troutes := rfl
@[simp] theorem State.updNfc_tnt (s : State) (ch : Nat) (f : NfcS → NfcS) : (State.updNfc s ch f).tnt = s.tnt := rfl
@[simp] theorem State.updNfc_hqm (s : State) (ch : Nat) (f : NfcS → NfcS) : (State.updNfc s ch f).hqm = s.hqm := rfl
@[simp] theorem State.updNfc_own (s : State) (ch : Nat) (f : NfcS → NfcS) : (State.updNfc s ch f).own = s.own := rfl
@[simp] theorem State.updNfc_ciph (s : State) (ch : Nat) (f : NfcS → NfcS) : (State.updNfc s ch f).ciph = s.ciph := rfl
@[simp] theorem State.updNfc_sign (s : State) (ch : Nat) (f : NfcS → NfcS) : (State.updNfc s ch f).sign = s.sign := rfl
@[simp] theorem State.updNfc_chainU (s : State) (ch : Nat) (f : NfcS → NfcS) : (State.updNfc s ch f).chainU = s.chainU := rfl
@[simp] theorem State.updNfc_dram (s : State) (ch : Nat) (f : NfcS → NfcS) : (State.updNfc s ch f).dram = s.dram := rfl
@[simp] theorem State.updNfc_sram (s : State) (ch : Nat) (f : NfcS → NfcS) : (State.updNfc s ch f).sram = s.sram := rfl
@[simp] theorem State.updNfc_bpm (s : State) (ch : Nat) (f : NfcS → NfcS) : (State.updNfc s ch f).bpm = s.bpm := rfl
@[simp] theorem State.updNfc_squall (s : State) (ch : Nat) (f : NfcS → NfcS) : (State.updNfc s ch f).squall = s.squall := rfl
@[simp] theorem State.updNfc_evr (s : State) (ch : Nat) (f : NfcS → NfcS) : (State.updNfc s ch f).evr = s.evr := rfl
@[simp] theorem State.updNfc_mtr (s : State) (ch : Nat) (f : NfcS → NfcS) : (State.updNfc s ch f).mtr = s.mtr := rfl
@[simp] theorem State.updNfc_disp (s : State) (ch : Nat) (f : NfcS → NfcS) : (State.updNfc s ch f).disp = s.disp := rfl
@[simp] theorem State.updNfc_qspi (s : State) (ch : Nat) (f : NfcS → NfcS) : (State.updNfc s ch f).qspi = s.qspi := rfl
@[simp] theorem State.updNfc_spit (s : State) (ch : Nat) (f : NfcS → NfcS) : (State.updNfc s ch f).spit = s.spit := rfl
@[simp] theorem State.updNfc_i2ct (s : State) (ch : Nat) (f : NfcS → NfcS) : (State.updNfc s ch f).i2ct = s.i2ct := rfl
@[simp] theorem State.updNfc_i2ci (s : State) (ch : Nat) (f : NfcS → NfcS) : (State.updNfc s ch f).i2ci = s.i2ci := rfl
@[simp] theorem State.updNfc_gpio (s : State) (ch : Nat) (f : NfcS → NfcS) : (State.updNfc s ch f).gpio = s.gpio := rfl
@[simp] theorem State.updNfc_vfl (s : State) (ch : Nat) (f : NfcS → NfcS) : (State.updNfc s ch f).vfl = s.vfl := rfl
@[simp] theorem State.updNfc_vfr (s : State) (ch : Nat) (f : NfcS → NfcS) : (State.updNfc s ch f).vfr = s.vfr := rfl
@[simp] theorem State.updNfc_mir (s : State) (ch : Nat) (f : NfcS → NfcS) : (State.updNfc s ch f).mir = s.mir := rfl
@[simp] theorem State.updNfc_hkp (s : State) (ch : Nat) (f : NfcS → NfcS) : (State.updNfc s ch f).hkp = s.hkp := rfl
@[simp] theorem State.updNfc_thr (s : State) (ch : Nat) (f : NfcS → NfcS) : (State.updNfc s ch f).thr = s.thr := rfl
@[simp] theorem State.updNfc_dbg (s : State) (ch : Nat) (f : NfcS → NfcS) : (State.updNfc s ch f).dbg = s.dbg := rfl
@[simp] theorem State.updDom_pending (s : State) (d : Fin 5) (f : Domain → Domain) : (State.updDom s d f).pending = s.pending := rfl
@[simp] theorem State.updDom_now (s : State) (d : Fin 5) (f : Domain → Domain) : (State.updDom s d f).now = s.now := rfl
@[simp] theorem State.updDom_freeCtr (s : State) (d : Fin 5) (f : Domain → Domain) : (State.updDom s d f).freeCtr = s.freeCtr := rfl
@[simp] theorem State.updDom_outbox (s : State) (d : Fin 5) (f : Domain → Domain) : (State.updDom s d f).outbox = s.outbox := rfl
@[simp] theorem State.updDom_aon (s : State) (d : Fin 5) (f : Domain → Domain) : (State.updDom s d f).aon = s.aon := rfl
@[simp] theorem State.updDom_nvm (s : State) (d : Fin 5) (f : Domain → Domain) : (State.updDom s d f).nvm = s.nvm := rfl
@[simp] theorem State.updDom_hdr (s : State) (d : Fin 5) (f : Domain → Domain) : (State.updDom s d f).hdr = s.hdr := rfl
@[simp] theorem State.updDom_regs (s : State) (d : Fin 5) (f : Domain → Domain) : (State.updDom s d f).regs = s.regs := rfl
@[simp] theorem State.updDom_pins (s : State) (d : Fin 5) (f : Domain → Domain) : (State.updDom s d f).pins = s.pins := rfl
@[simp] theorem State.updDom_dev (s : State) (d : Fin 5) (f : Domain → Domain) : (State.updDom s d f).dev = s.dev := rfl
@[simp] theorem State.updDom_clk (s : State) (d : Fin 5) (f : Domain → Domain) : (State.updDom s d f).clk = s.clk := rfl
@[simp] theorem State.updDom_boot (s : State) (d : Fin 5) (f : Domain → Domain) : (State.updDom s d f).boot = s.boot := rfl
@[simp] theorem State.updDom_upd (s : State) (d : Fin 5) (f : Domain → Domain) : (State.updDom s d f).upd = s.upd := rfl
@[simp] theorem State.updDom_pcie (s : State) (d : Fin 5) (f : Domain → Domain) : (State.updDom s d f).pcie = s.pcie := rfl
@[simp] theorem State.updDom_troutes (s : State) (d : Fin 5) (f : Domain → Domain) : (State.updDom s d f).troutes = s.troutes := rfl
@[simp] theorem State.updDom_tnt (s : State) (d : Fin 5) (f : Domain → Domain) : (State.updDom s d f).tnt = s.tnt := rfl
@[simp] theorem State.updDom_hqm (s : State) (d : Fin 5) (f : Domain → Domain) : (State.updDom s d f).hqm = s.hqm := rfl
@[simp] theorem State.updDom_own (s : State) (d : Fin 5) (f : Domain → Domain) : (State.updDom s d f).own = s.own := rfl
@[simp] theorem State.updDom_ciph (s : State) (d : Fin 5) (f : Domain → Domain) : (State.updDom s d f).ciph = s.ciph := rfl
@[simp] theorem State.updDom_sign (s : State) (d : Fin 5) (f : Domain → Domain) : (State.updDom s d f).sign = s.sign := rfl
@[simp] theorem State.updDom_chainU (s : State) (d : Fin 5) (f : Domain → Domain) : (State.updDom s d f).chainU = s.chainU := rfl
@[simp] theorem State.updDom_med (s : State) (d : Fin 5) (f : Domain → Domain) : (State.updDom s d f).med = s.med := rfl
@[simp] theorem State.updDom_dram (s : State) (d : Fin 5) (f : Domain → Domain) : (State.updDom s d f).dram = s.dram := rfl
@[simp] theorem State.updDom_sram (s : State) (d : Fin 5) (f : Domain → Domain) : (State.updDom s d f).sram = s.sram := rfl
@[simp] theorem State.updDom_bpm (s : State) (d : Fin 5) (f : Domain → Domain) : (State.updDom s d f).bpm = s.bpm := rfl
@[simp] theorem State.updDom_squall (s : State) (d : Fin 5) (f : Domain → Domain) : (State.updDom s d f).squall = s.squall := rfl
@[simp] theorem State.updDom_evr (s : State) (d : Fin 5) (f : Domain → Domain) : (State.updDom s d f).evr = s.evr := rfl
@[simp] theorem State.updDom_mtr (s : State) (d : Fin 5) (f : Domain → Domain) : (State.updDom s d f).mtr = s.mtr := rfl
@[simp] theorem State.updDom_disp (s : State) (d : Fin 5) (f : Domain → Domain) : (State.updDom s d f).disp = s.disp := rfl
@[simp] theorem State.updDom_qspi (s : State) (d : Fin 5) (f : Domain → Domain) : (State.updDom s d f).qspi = s.qspi := rfl
@[simp] theorem State.updDom_spit (s : State) (d : Fin 5) (f : Domain → Domain) : (State.updDom s d f).spit = s.spit := rfl
@[simp] theorem State.updDom_i2ct (s : State) (d : Fin 5) (f : Domain → Domain) : (State.updDom s d f).i2ct = s.i2ct := rfl
@[simp] theorem State.updDom_i2ci (s : State) (d : Fin 5) (f : Domain → Domain) : (State.updDom s d f).i2ci = s.i2ci := rfl
@[simp] theorem State.updDom_gpio (s : State) (d : Fin 5) (f : Domain → Domain) : (State.updDom s d f).gpio = s.gpio := rfl
@[simp] theorem State.updDom_vfl (s : State) (d : Fin 5) (f : Domain → Domain) : (State.updDom s d f).vfl = s.vfl := rfl
@[simp] theorem State.updDom_vfr (s : State) (d : Fin 5) (f : Domain → Domain) : (State.updDom s d f).vfr = s.vfr := rfl
@[simp] theorem State.updDom_mir (s : State) (d : Fin 5) (f : Domain → Domain) : (State.updDom s d f).mir = s.mir := rfl
@[simp] theorem State.updDom_hkp (s : State) (d : Fin 5) (f : Domain → Domain) : (State.updDom s d f).hkp = s.hkp := rfl
@[simp] theorem State.updDom_thr (s : State) (d : Fin 5) (f : Domain → Domain) : (State.updDom s d f).thr = s.thr := rfl
@[simp] theorem State.updDom_dbg (s : State) (d : Fin 5) (f : Domain → Domain) : (State.updDom s d f).dbg = s.dbg := rfl
@[simp] theorem State.updDbg_pending (s : State) (f : DbgS → DbgS) : (State.updDbg s f).pending = s.pending := rfl
@[simp] theorem State.updDbg_now (s : State) (f : DbgS → DbgS) : (State.updDbg s f).now = s.now := rfl
@[simp] theorem State.updDbg_freeCtr (s : State) (f : DbgS → DbgS) : (State.updDbg s f).freeCtr = s.freeCtr := rfl
@[simp] theorem State.updDbg_outbox (s : State) (f : DbgS → DbgS) : (State.updDbg s f).outbox = s.outbox := rfl
@[simp] theorem State.updDbg_aon (s : State) (f : DbgS → DbgS) : (State.updDbg s f).aon = s.aon := rfl
@[simp] theorem State.updDbg_nvm (s : State) (f : DbgS → DbgS) : (State.updDbg s f).nvm = s.nvm := rfl
@[simp] theorem State.updDbg_hdr (s : State) (f : DbgS → DbgS) : (State.updDbg s f).hdr = s.hdr := rfl
@[simp] theorem State.updDbg_regs (s : State) (f : DbgS → DbgS) : (State.updDbg s f).regs = s.regs := rfl
@[simp] theorem State.updDbg_pins (s : State) (f : DbgS → DbgS) : (State.updDbg s f).pins = s.pins := rfl
@[simp] theorem State.updDbg_dev (s : State) (f : DbgS → DbgS) : (State.updDbg s f).dev = s.dev := rfl
@[simp] theorem State.updDbg_clk (s : State) (f : DbgS → DbgS) : (State.updDbg s f).clk = s.clk := rfl
@[simp] theorem State.updDbg_pwr (s : State) (f : DbgS → DbgS) : (State.updDbg s f).pwr = s.pwr := rfl
@[simp] theorem State.updDbg_boot (s : State) (f : DbgS → DbgS) : (State.updDbg s f).boot = s.boot := rfl
@[simp] theorem State.updDbg_upd (s : State) (f : DbgS → DbgS) : (State.updDbg s f).upd = s.upd := rfl
@[simp] theorem State.updDbg_pcie (s : State) (f : DbgS → DbgS) : (State.updDbg s f).pcie = s.pcie := rfl
@[simp] theorem State.updDbg_troutes (s : State) (f : DbgS → DbgS) : (State.updDbg s f).troutes = s.troutes := rfl
@[simp] theorem State.updDbg_tnt (s : State) (f : DbgS → DbgS) : (State.updDbg s f).tnt = s.tnt := rfl
@[simp] theorem State.updDbg_hqm (s : State) (f : DbgS → DbgS) : (State.updDbg s f).hqm = s.hqm := rfl
@[simp] theorem State.updDbg_own (s : State) (f : DbgS → DbgS) : (State.updDbg s f).own = s.own := rfl
@[simp] theorem State.updDbg_ciph (s : State) (f : DbgS → DbgS) : (State.updDbg s f).ciph = s.ciph := rfl
@[simp] theorem State.updDbg_sign (s : State) (f : DbgS → DbgS) : (State.updDbg s f).sign = s.sign := rfl
@[simp] theorem State.updDbg_chainU (s : State) (f : DbgS → DbgS) : (State.updDbg s f).chainU = s.chainU := rfl
@[simp] theorem State.updDbg_med (s : State) (f : DbgS → DbgS) : (State.updDbg s f).med = s.med := rfl
@[simp] theorem State.updDbg_dram (s : State) (f : DbgS → DbgS) : (State.updDbg s f).dram = s.dram := rfl
@[simp] theorem State.updDbg_sram (s : State) (f : DbgS → DbgS) : (State.updDbg s f).sram = s.sram := rfl
@[simp] theorem State.updDbg_bpm (s : State) (f : DbgS → DbgS) : (State.updDbg s f).bpm = s.bpm := rfl
@[simp] theorem State.updDbg_squall (s : State) (f : DbgS → DbgS) : (State.updDbg s f).squall = s.squall := rfl
@[simp] theorem State.updDbg_evr (s : State) (f : DbgS → DbgS) : (State.updDbg s f).evr = s.evr := rfl
@[simp] theorem State.updDbg_mtr (s : State) (f : DbgS → DbgS) : (State.updDbg s f).mtr = s.mtr := rfl
@[simp] theorem State.updDbg_disp (s : State) (f : DbgS → DbgS) : (State.updDbg s f).disp = s.disp := rfl
@[simp] theorem State.updDbg_qspi (s : State) (f : DbgS → DbgS) : (State.updDbg s f).qspi = s.qspi := rfl
@[simp] theorem State.updDbg_spit (s : State) (f : DbgS → DbgS) : (State.updDbg s f).spit = s.spit := rfl
@[simp] theorem State.updDbg_i2ct (s : State) (f : DbgS → DbgS) : (State.updDbg s f).i2ct = s.i2ct := rfl
@[simp] theorem State.updDbg_i2ci (s : State) (f : DbgS → DbgS) : (State.updDbg s f).i2ci = s.i2ci := rfl
@[simp] theorem State.updDbg_gpio (s : State) (f : DbgS → DbgS) : (State.updDbg s f).gpio = s.gpio := rfl
@[simp] theorem State.updDbg_vfl (s : State) (f : DbgS → DbgS) : (State.updDbg s f).vfl = s.vfl := rfl
@[simp] theorem State.updDbg_vfr (s : State) (f : DbgS → DbgS) : (State.updDbg s f).vfr = s.vfr := rfl
@[simp] theorem State.updDbg_mir (s : State) (f : DbgS → DbgS) : (State.updDbg s f).mir = s.mir := rfl
@[simp] theorem State.updDbg_hkp (s : State) (f : DbgS → DbgS) : (State.updDbg s f).hkp = s.hkp := rfl
@[simp] theorem State.updDbg_thr (s : State) (f : DbgS → DbgS) : (State.updDbg s f).thr = s.thr := rfl
@[simp] theorem State.updI2ct_pending (s : State) (f : I2ctS → I2ctS) : (State.updI2ct s f).pending = s.pending := rfl
@[simp] theorem State.updI2ct_now (s : State) (f : I2ctS → I2ctS) : (State.updI2ct s f).now = s.now := rfl
@[simp] theorem State.updI2ct_freeCtr (s : State) (f : I2ctS → I2ctS) : (State.updI2ct s f).freeCtr = s.freeCtr := rfl
@[simp] theorem State.updI2ct_outbox (s : State) (f : I2ctS → I2ctS) : (State.updI2ct s f).outbox = s.outbox := rfl
@[simp] theorem State.updI2ct_aon (s : State) (f : I2ctS → I2ctS) : (State.updI2ct s f).aon = s.aon := rfl
@[simp] theorem State.updI2ct_nvm (s : State) (f : I2ctS → I2ctS) : (State.updI2ct s f).nvm = s.nvm := rfl
@[simp] theorem State.updI2ct_hdr (s : State) (f : I2ctS → I2ctS) : (State.updI2ct s f).hdr = s.hdr := rfl
@[simp] theorem State.updI2ct_regs (s : State) (f : I2ctS → I2ctS) : (State.updI2ct s f).regs = s.regs := rfl
@[simp] theorem State.updI2ct_pins (s : State) (f : I2ctS → I2ctS) : (State.updI2ct s f).pins = s.pins := rfl
@[simp] theorem State.updI2ct_dev (s : State) (f : I2ctS → I2ctS) : (State.updI2ct s f).dev = s.dev := rfl
@[simp] theorem State.updI2ct_clk (s : State) (f : I2ctS → I2ctS) : (State.updI2ct s f).clk = s.clk := rfl
@[simp] theorem State.updI2ct_pwr (s : State) (f : I2ctS → I2ctS) : (State.updI2ct s f).pwr = s.pwr := rfl
@[simp] theorem State.updI2ct_boot (s : State) (f : I2ctS → I2ctS) : (State.updI2ct s f).boot = s.boot := rfl
@[simp] theorem State.updI2ct_upd (s : State) (f : I2ctS → I2ctS) : (State.updI2ct s f).upd = s.upd := rfl
@[simp] theorem State.updI2ct_pcie (s : State) (f : I2ctS → I2ctS) : (State.updI2ct s f).pcie = s.pcie := rfl
@[simp] theorem State.updI2ct_troutes (s : State) (f : I2ctS → I2ctS) : (State.updI2ct s f).troutes = s.troutes := rfl
@[simp] theorem State.updI2ct_tnt (s : State) (f : I2ctS → I2ctS) : (State.updI2ct s f).tnt = s.tnt := rfl
@[simp] theorem State.updI2ct_hqm (s : State) (f : I2ctS → I2ctS) : (State.updI2ct s f).hqm = s.hqm := rfl
@[simp] theorem State.updI2ct_own (s : State) (f : I2ctS → I2ctS) : (State.updI2ct s f).own = s.own := rfl
@[simp] theorem State.updI2ct_ciph (s : State) (f : I2ctS → I2ctS) : (State.updI2ct s f).ciph = s.ciph := rfl
@[simp] theorem State.updI2ct_sign (s : State) (f : I2ctS → I2ctS) : (State.updI2ct s f).sign = s.sign := rfl
@[simp] theorem State.updI2ct_chainU (s : State) (f : I2ctS → I2ctS) : (State.updI2ct s f).chainU = s.chainU := rfl
@[simp] theorem State.updI2ct_med (s : State) (f : I2ctS → I2ctS) : (State.updI2ct s f).med = s.med := rfl
@[simp] theorem State.updI2ct_dram (s : State) (f : I2ctS → I2ctS) : (State.updI2ct s f).dram = s.dram := rfl
@[simp] theorem State.updI2ct_sram (s : State) (f : I2ctS → I2ctS) : (State.updI2ct s f).sram = s.sram := rfl
@[simp] theorem State.updI2ct_bpm (s : State) (f : I2ctS → I2ctS) : (State.updI2ct s f).bpm = s.bpm := rfl
@[simp] theorem State.updI2ct_squall (s : State) (f : I2ctS → I2ctS) : (State.updI2ct s f).squall = s.squall := rfl
@[simp] theorem State.updI2ct_evr (s : State) (f : I2ctS → I2ctS) : (State.updI2ct s f).evr = s.evr := rfl
@[simp] theorem State.updI2ct_mtr (s : State) (f : I2ctS → I2ctS) : (State.updI2ct s f).mtr = s.mtr := rfl
@[simp] theorem State.updI2ct_disp (s : State) (f : I2ctS → I2ctS) : (State.updI2ct s f).disp = s.disp := rfl
@[simp] theorem State.updI2ct_qspi (s : State) (f : I2ctS → I2ctS) : (State.updI2ct s f).qspi = s.qspi := rfl
@[simp] theorem State.updI2ct_spit (s : State) (f : I2ctS → I2ctS) : (State.updI2ct s f).spit = s.spit := rfl
@[simp] theorem State.updI2ct_i2ci (s : State) (f : I2ctS → I2ctS) : (State.updI2ct s f).i2ci = s.i2ci := rfl
@[simp] theorem State.updI2ct_gpio (s : State) (f : I2ctS → I2ctS) : (State.updI2ct s f).gpio = s.gpio := rfl
@[simp] theorem State.updI2ct_vfl (s : State) (f : I2ctS → I2ctS) : (State.updI2ct s f).vfl = s.vfl := rfl
@[simp] theorem State.updI2ct_vfr (s : State) (f : I2ctS → I2ctS) : (State.updI2ct s f).vfr = s.vfr := rfl
@[simp] theorem State.updI2ct_mir (s : State) (f : I2ctS → I2ctS) : (State.updI2ct s f).mir = s.mir := rfl
@[simp] theorem State.updI2ct_hkp (s : State) (f : I2ctS → I2ctS) : (State.updI2ct s f).hkp = s.hkp := rfl
@[simp] theorem State.updI2ct_thr (s : State) (f : I2ctS → I2ctS) : (State.updI2ct s f).thr = s.thr := rfl
@[simp] theorem State.updI2ct_dbg (s : State) (f : I2ctS → I2ctS) : (State.updI2ct s f).dbg = s.dbg := rfl

end Sys2Proof.Machine
end

