-- ==== Sys2Proof/Laws/Frames.lean ====
section
/-!
SUPPORT. What the shared operations may change: setting a status bit (`Told`), writing an event record (`Logged`) and sending on
a link (`Sent`), each said once; and from it, for each operation, one lemma for each field it leaves as it was.
-/
set_option linter.unusedTactic false
set_option linter.unreachableTactic false
set_option linter.unusedVariables false
set_option linter.unusedSimpArgs false

namespace Sys2Proof.Machine

/-- What setting a status bit and requesting its message may change: headers, tenants' notices, the endpoint and what is sent. -/
structure Told (s t : State) : Prop where
  pending : t.pending = s.pending
  now : t.now = s.now
  freeCtr : t.freeCtr = s.freeCtr
  aon : t.aon = s.aon
  nvm : t.nvm = s.nvm
  regs : t.regs = s.regs
  pins : t.pins = s.pins
  dev : t.dev = s.dev
  clk : t.clk = s.clk
  pwr : t.pwr = s.pwr
  boot : t.boot = s.boot
  upd : t.upd = s.upd
  troutes : t.troutes = s.troutes
  hqm : t.hqm = s.hqm
  own : t.own = s.own
  ciph : t.ciph = s.ciph
  sign : t.sign = s.sign
  chainU : t.chainU = s.chainU
  med : t.med = s.med
  dram : t.dram = s.dram
  sram : t.sram = s.sram
  bpm : t.bpm = s.bpm
  squall : t.squall = s.squall
  evr : t.evr = s.evr
  mtr : t.mtr = s.mtr
  disp : t.disp = s.disp
  qspi : t.qspi = s.qspi
  spit : t.spit = s.spit
  i2ct : t.i2ct = s.i2ct
  i2ci : t.i2ci = s.i2ci
  gpio : t.gpio = s.gpio
  vfl : t.vfl = s.vfl
  vfr : t.vfr = s.vfr
  mir : t.mir = s.mir
  hkp : t.hkp = s.hkp
  thr : t.thr = s.thr
  dbg : t.dbg = s.dbg

theorem Told.rfl' (s : State) : Told s s := by constructor <;> rfl

theorem Told.trans {s t u : State} (h : Told s t) (g : Told t u) : Told s u := by
  constructor
  · exact g.pending.trans h.pending
  · exact g.now.trans h.now
  · exact g.freeCtr.trans h.freeCtr
  · exact g.aon.trans h.aon
  · exact g.nvm.trans h.nvm
  · exact g.regs.trans h.regs
  · exact g.pins.trans h.pins
  · exact g.dev.trans h.dev
  · exact g.clk.trans h.clk
  · exact g.pwr.trans h.pwr
  · exact g.boot.trans h.boot
  · exact g.upd.trans h.upd
  · exact g.troutes.trans h.troutes
  · exact g.hqm.trans h.hqm
  · exact g.own.trans h.own
  · exact g.ciph.trans h.ciph
  · exact g.sign.trans h.sign
  · exact g.chainU.trans h.chainU
  · exact g.med.trans h.med
  · exact g.dram.trans h.dram
  · exact g.sram.trans h.sram
  · exact g.bpm.trans h.bpm
  · exact g.squall.trans h.squall
  · exact g.evr.trans h.evr
  · exact g.mtr.trans h.mtr
  · exact g.disp.trans h.disp
  · exact g.qspi.trans h.qspi
  · exact g.spit.trans h.spit
  · exact g.i2ct.trans h.i2ct
  · exact g.i2ci.trans h.i2ci
  · exact g.gpio.trans h.gpio
  · exact g.vfl.trans h.vfl
  · exact g.vfr.trans h.vfr
  · exact g.mir.trans h.mir
  · exact g.hkp.trans h.hkp
  · exact g.thr.trans h.thr
  · exact g.dbg.trans h.dbg

theorem Told.mk2 {s x : State} {outbox : List Output} {hdr : Vector PageHdr 128} {pcie : PcieS} {tnt : Vector Tenant 64} :
    Told s (State.mk x.pending x.now x.freeCtr outbox x.aon x.nvm hdr x.regs x.pins x.dev x.clk x.pwr x.boot x.upd pcie x.troutes tnt x.hqm x.own x.ciph x.sign x.chainU x.med x.dram x.sram x.bpm x.squall x.evr x.mtr x.disp x.qspi x.spit x.i2ct x.i2ci x.gpio x.vfl x.vfr x.mir x.hkp x.thr x.dbg) = Told s x := by
  apply propext
  constructor
  · intro h
    exact h.trans (by constructor <;> rfl)
  · intro h
    exact h.trans (by constructor <;> rfl)

theorem Told.foldl {α : Type} {s x : State} {f : State → α → State} {l : List α} (g : ∀ a b, Told s a → Told s (f a b))
    (h : Told s x) : Told s (l.foldl f x) := by
  induction l generalizing x with
  | nil => exact h
  | cons b r ih => exact ih (g x b h)


theorem told_emit {s0 : State} (s : State) (o : Output) (hk : Told s0 s) : Told s0 (State.emit s o) := by
  unfold State.emit
  try dsimp only
  repeat' (first | with_reducible assumption | simp only [Told.mk2] | (intro _) | split)

theorem told_updHdr {s0 : State} (s : State) (p : Page) (f : PageHdr → PageHdr) (hk : Told s0 s) : Told s0 (State.updHdr s p f) := by
  unfold State.updHdr
  try dsimp only
  repeat' (first | with_reducible assumption | simp only [Told.mk2] | (intro _) | split)

theorem told_updTnt {s0 : State} (s : State) (t : Tid) (f : Tenant → Tenant) (hk : Told s0 s) : Told s0 (State.updTnt s t f) := by
  unfold State.updTnt
  try dsimp only
  repeat' (first | with_reducible assumption | simp only [Told.mk2] | (intro _) | split)

theorem told_updFn {s0 : State} (s : State) (n : Fn) (f : FnS → FnS) (hk : Told s0 s) : Told s0 (State.updFn s n f) := by
  unfold State.updFn
  try dsimp only
  repeat' (first | with_reducible assumption | simp only [Told.mk2] | (intro _) | split)

theorem told_request {s0 : State} (s : State) (fn : Fn) (vec : Nat) (hk : Told s0 s) : Told s0 (State.request s fn vec) := by
  unfold State.request
  try dsimp only
  repeat' (first | with_reducible assumption | with_reducible apply told_emit | with_reducible apply told_updFn | simp only [Told.mk2] | (intro _) | split)

theorem told_requestBlock {s0 : State} (s : State) (n : Nat) (hk : Told s0 s) : Told s0 (State.requestBlock s n) := by
  unfold State.requestBlock
  try dsimp only
  repeat' (first | with_reducible assumption | with_reducible apply told_request | simp only [Told.mk2] | (intro _) | split)

theorem told_noticeBlock {s0 : State} (s : State) (n : Nat) (hk : Told s0 s) : Told s0 (State.noticeBlock s n) := by
  unfold State.noticeBlock
  try dsimp only
  repeat' (first | with_reducible assumption | with_reducible apply told_updTnt | simp only [Told.mk2] | (intro _) | split)

theorem told_requestTenant {s0 : State} (s : State) (t : Tid) (q : Qid) (hk : Told s0 s) : Told s0 (State.requestTenant s t q) := by
  unfold State.requestTenant
  try dsimp only
  repeat' (first | with_reducible assumption | with_reducible apply told_request | simp only [Told.mk2] | (intro _) | split)

theorem told_raise {s0 : State} (s : State) (p : Page) (b : Nat) (hk : Told s0 s) : Told s0 (State.raise s p b) := by
  unfold State.raise
  try dsimp only
  repeat' (first | with_reducible assumption | with_reducible apply told_updHdr | with_reducible apply told_requestBlock | with_reducible apply told_noticeBlock | with_reducible apply told_requestTenant | simp only [Told.mk2] | (intro _) | split)

theorem told_raiseTnt {s0 : State} (s : State) (t : Tid) (b : Nat) (hk : Told s0 s) : Told s0 (State.raiseTnt s t b) := by
  unfold State.raiseTnt
  try dsimp only
  repeat' (first | with_reducible assumption | with_reducible apply told_raise | simp only [Told.mk2] | (intro _) | split)

theorem told_raiseTenants {s0 : State} (s : State) (p : State → Tid → Bool) (b : Nat) (hk : Told s0 s) : Told s0 (State.raiseTenants s p b) := by
  unfold State.raiseTenants
  try dsimp only
  repeat' (first | with_reducible assumption | with_reducible apply told_raiseTnt | with_reducible apply Told.foldl | simp only [Told.mk2] | (intro _) | split)

theorem told_countErr {s0 : State} (s : State) (p : Page) (cause : Byte) (addr : Word) (hk : Told s0 s) : Told s0 (State.countErr s p cause addr) := by
  unfold State.countErr
  try dsimp only
  repeat' (first | with_reducible assumption | with_reducible apply told_updHdr | with_reducible apply told_raise | simp only [Told.mk2] | (intro _) | split)

theorem told_aerUncorrectable {s0 : State} (s : State) (fn : Fn) (bit : Nat) (hk : Told s0 s) : Told s0 (State.aerUncorrectable s fn bit) := by
  unfold State.aerUncorrectable
  try dsimp only
  repeat' (first | with_reducible assumption | with_reducible apply told_updFn | with_reducible apply told_raise | simp only [Told.mk2] | (intro _) | split)

theorem told_aerAdvisory {s0 : State} (s : State) (fn : Fn) (bit : Nat) (hk : Told s0 s) : Told s0 (State.aerAdvisory s fn bit) := by
  unfold State.aerAdvisory
  try dsimp only
  repeat' (first | with_reducible assumption | with_reducible apply told_aerUncorrectable | with_reducible apply told_updFn | with_reducible apply told_raise | simp only [Told.mk2] | (intro _) | split)
@[simp] theorem State.request_pending (s : State) (fn : Fn) (vec : Nat) : (State.request s fn vec).pending = s.pending := (told_request s fn vec (Told.rfl' s)).pending
@[simp] theorem State.request_now (s : State) (fn : Fn) (vec : Nat) : (State.request s fn vec).now = s.now := (told_request s fn vec (Told.rfl' s)).now
@[simp] theorem State.request_freeCtr (s : State) (fn : Fn) (vec : Nat) : (State.request s fn vec).freeCtr = s.freeCtr := (told_request s fn vec (Told.rfl' s)).freeCtr
@[simp] theorem State.request_aon (s : State) (fn : Fn) (vec : Nat) : (State.request s fn vec).aon = s.aon := (told_request s fn vec (Told.rfl' s)).aon
@[simp] theorem State.request_nvm (s : State) (fn : Fn) (vec : Nat) : (State.request s fn vec).nvm = s.nvm := (told_request s fn vec (Told.rfl' s)).nvm
@[simp] theorem State.request_regs (s : State) (fn : Fn) (vec : Nat) : (State.request s fn vec).regs = s.regs := (told_request s fn vec (Told.rfl' s)).regs
@[simp] theorem State.request_pins (s : State) (fn : Fn) (vec : Nat) : (State.request s fn vec).pins = s.pins := (told_request s fn vec (Told.rfl' s)).pins
@[simp] theorem State.request_dev (s : State) (fn : Fn) (vec : Nat) : (State.request s fn vec).dev = s.dev := (told_request s fn vec (Told.rfl' s)).dev
@[simp] theorem State.request_clk (s : State) (fn : Fn) (vec : Nat) : (State.request s fn vec).clk = s.clk := (told_request s fn vec (Told.rfl' s)).clk
@[simp] theorem State.request_pwr (s : State) (fn : Fn) (vec : Nat) : (State.request s fn vec).pwr = s.pwr := (told_request s fn vec (Told.rfl' s)).pwr
@[simp] theorem State.request_boot (s : State) (fn : Fn) (vec : Nat) : (State.request s fn vec).boot = s.boot := (told_request s fn vec (Told.rfl' s)).boot
@[simp] theorem State.request_upd (s : State) (fn : Fn) (vec : Nat) : (State.request s fn vec).upd = s.upd := (told_request s fn vec (Told.rfl' s)).upd
@[simp] theorem State.request_troutes (s : State) (fn : Fn) (vec : Nat) : (State.request s fn vec).troutes = s.troutes := (told_request s fn vec (Told.rfl' s)).troutes
@[simp] theorem State.request_hqm (s : State) (fn : Fn) (vec : Nat) : (State.request s fn vec).hqm = s.hqm := (told_request s fn vec (Told.rfl' s)).hqm
@[simp] theorem State.request_own (s : State) (fn : Fn) (vec : Nat) : (State.request s fn vec).own = s.own := (told_request s fn vec (Told.rfl' s)).own
@[simp] theorem State.request_ciph (s : State) (fn : Fn) (vec : Nat) : (State.request s fn vec).ciph = s.ciph := (told_request s fn vec (Told.rfl' s)).ciph
@[simp] theorem State.request_sign (s : State) (fn : Fn) (vec : Nat) : (State.request s fn vec).sign = s.sign := (told_request s fn vec (Told.rfl' s)).sign
@[simp] theorem State.request_chainU (s : State) (fn : Fn) (vec : Nat) : (State.request s fn vec).chainU = s.chainU := (told_request s fn vec (Told.rfl' s)).chainU
@[simp] theorem State.request_med (s : State) (fn : Fn) (vec : Nat) : (State.request s fn vec).med = s.med := (told_request s fn vec (Told.rfl' s)).med
@[simp] theorem State.request_dram (s : State) (fn : Fn) (vec : Nat) : (State.request s fn vec).dram = s.dram := (told_request s fn vec (Told.rfl' s)).dram
@[simp] theorem State.request_sram (s : State) (fn : Fn) (vec : Nat) : (State.request s fn vec).sram = s.sram := (told_request s fn vec (Told.rfl' s)).sram
@[simp] theorem State.request_bpm (s : State) (fn : Fn) (vec : Nat) : (State.request s fn vec).bpm = s.bpm := (told_request s fn vec (Told.rfl' s)).bpm
@[simp] theorem State.request_squall (s : State) (fn : Fn) (vec : Nat) : (State.request s fn vec).squall = s.squall := (told_request s fn vec (Told.rfl' s)).squall
@[simp] theorem State.request_evr (s : State) (fn : Fn) (vec : Nat) : (State.request s fn vec).evr = s.evr := (told_request s fn vec (Told.rfl' s)).evr
@[simp] theorem State.request_mtr (s : State) (fn : Fn) (vec : Nat) : (State.request s fn vec).mtr = s.mtr := (told_request s fn vec (Told.rfl' s)).mtr
@[simp] theorem State.request_disp (s : State) (fn : Fn) (vec : Nat) : (State.request s fn vec).disp = s.disp := (told_request s fn vec (Told.rfl' s)).disp
@[simp] theorem State.request_qspi (s : State) (fn : Fn) (vec : Nat) : (State.request s fn vec).qspi = s.qspi := (told_request s fn vec (Told.rfl' s)).qspi
@[simp] theorem State.request_spit (s : State) (fn : Fn) (vec : Nat) : (State.request s fn vec).spit = s.spit := (told_request s fn vec (Told.rfl' s)).spit
@[simp] theorem State.request_i2ct (s : State) (fn : Fn) (vec : Nat) : (State.request s fn vec).i2ct = s.i2ct := (told_request s fn vec (Told.rfl' s)).i2ct
@[simp] theorem State.request_i2ci (s : State) (fn : Fn) (vec : Nat) : (State.request s fn vec).i2ci = s.i2ci := (told_request s fn vec (Told.rfl' s)).i2ci
@[simp] theorem State.request_gpio (s : State) (fn : Fn) (vec : Nat) : (State.request s fn vec).gpio = s.gpio := (told_request s fn vec (Told.rfl' s)).gpio
@[simp] theorem State.request_vfl (s : State) (fn : Fn) (vec : Nat) : (State.request s fn vec).vfl = s.vfl := (told_request s fn vec (Told.rfl' s)).vfl
@[simp] theorem State.request_vfr (s : State) (fn : Fn) (vec : Nat) : (State.request s fn vec).vfr = s.vfr := (told_request s fn vec (Told.rfl' s)).vfr
@[simp] theorem State.request_mir (s : State) (fn : Fn) (vec : Nat) : (State.request s fn vec).mir = s.mir := (told_request s fn vec (Told.rfl' s)).mir
@[simp] theorem State.request_hkp (s : State) (fn : Fn) (vec : Nat) : (State.request s fn vec).hkp = s.hkp := (told_request s fn vec (Told.rfl' s)).hkp
@[simp] theorem State.request_thr (s : State) (fn : Fn) (vec : Nat) : (State.request s fn vec).thr = s.thr := (told_request s fn vec (Told.rfl' s)).thr
@[simp] theorem State.request_dbg (s : State) (fn : Fn) (vec : Nat) : (State.request s fn vec).dbg = s.dbg := (told_request s fn vec (Told.rfl' s)).dbg
@[simp] theorem State.requestBlock_pending (s : State) (n : Nat) : (State.requestBlock s n).pending = s.pending := (told_requestBlock s n (Told.rfl' s)).pending
@[simp] theorem State.requestBlock_now (s : State) (n : Nat) : (State.requestBlock s n).now = s.now := (told_requestBlock s n (Told.rfl' s)).now
@[simp] theorem State.requestBlock_freeCtr (s : State) (n : Nat) : (State.requestBlock s n).freeCtr = s.freeCtr := (told_requestBlock s n (Told.rfl' s)).freeCtr
@[simp] theorem State.requestBlock_aon (s : State) (n : Nat) : (State.requestBlock s n).aon = s.aon := (told_requestBlock s n (Told.rfl' s)).aon
@[simp] theorem State.requestBlock_nvm (s : State) (n : Nat) : (State.requestBlock s n).nvm = s.nvm := (told_requestBlock s n (Told.rfl' s)).nvm
@[simp] theorem State.requestBlock_regs (s : State) (n : Nat) : (State.requestBlock s n).regs = s.regs := (told_requestBlock s n (Told.rfl' s)).regs
@[simp] theorem State.requestBlock_pins (s : State) (n : Nat) : (State.requestBlock s n).pins = s.pins := (told_requestBlock s n (Told.rfl' s)).pins
@[simp] theorem State.requestBlock_dev (s : State) (n : Nat) : (State.requestBlock s n).dev = s.dev := (told_requestBlock s n (Told.rfl' s)).dev
@[simp] theorem State.requestBlock_clk (s : State) (n : Nat) : (State.requestBlock s n).clk = s.clk := (told_requestBlock s n (Told.rfl' s)).clk
@[simp] theorem State.requestBlock_pwr (s : State) (n : Nat) : (State.requestBlock s n).pwr = s.pwr := (told_requestBlock s n (Told.rfl' s)).pwr
@[simp] theorem State.requestBlock_boot (s : State) (n : Nat) : (State.requestBlock s n).boot = s.boot := (told_requestBlock s n (Told.rfl' s)).boot
@[simp] theorem State.requestBlock_upd (s : State) (n : Nat) : (State.requestBlock s n).upd = s.upd := (told_requestBlock s n (Told.rfl' s)).upd
@[simp] theorem State.requestBlock_troutes (s : State) (n : Nat) : (State.requestBlock s n).troutes = s.troutes := (told_requestBlock s n (Told.rfl' s)).troutes
@[simp] theorem State.requestBlock_hqm (s : State) (n : Nat) : (State.requestBlock s n).hqm = s.hqm := (told_requestBlock s n (Told.rfl' s)).hqm
@[simp] theorem State.requestBlock_own (s : State) (n : Nat) : (State.requestBlock s n).own = s.own := (told_requestBlock s n (Told.rfl' s)).own
@[simp] theorem State.requestBlock_ciph (s : State) (n : Nat) : (State.requestBlock s n).ciph = s.ciph := (told_requestBlock s n (Told.rfl' s)).ciph
@[simp] theorem State.requestBlock_sign (s : State) (n : Nat) : (State.requestBlock s n).sign = s.sign := (told_requestBlock s n (Told.rfl' s)).sign
@[simp] theorem State.requestBlock_chainU (s : State) (n : Nat) : (State.requestBlock s n).chainU = s.chainU := (told_requestBlock s n (Told.rfl' s)).chainU
@[simp] theorem State.requestBlock_med (s : State) (n : Nat) : (State.requestBlock s n).med = s.med := (told_requestBlock s n (Told.rfl' s)).med
@[simp] theorem State.requestBlock_dram (s : State) (n : Nat) : (State.requestBlock s n).dram = s.dram := (told_requestBlock s n (Told.rfl' s)).dram
@[simp] theorem State.requestBlock_sram (s : State) (n : Nat) : (State.requestBlock s n).sram = s.sram := (told_requestBlock s n (Told.rfl' s)).sram
@[simp] theorem State.requestBlock_bpm (s : State) (n : Nat) : (State.requestBlock s n).bpm = s.bpm := (told_requestBlock s n (Told.rfl' s)).bpm
@[simp] theorem State.requestBlock_squall (s : State) (n : Nat) : (State.requestBlock s n).squall = s.squall := (told_requestBlock s n (Told.rfl' s)).squall
@[simp] theorem State.requestBlock_evr (s : State) (n : Nat) : (State.requestBlock s n).evr = s.evr := (told_requestBlock s n (Told.rfl' s)).evr
@[simp] theorem State.requestBlock_mtr (s : State) (n : Nat) : (State.requestBlock s n).mtr = s.mtr := (told_requestBlock s n (Told.rfl' s)).mtr
@[simp] theorem State.requestBlock_disp (s : State) (n : Nat) : (State.requestBlock s n).disp = s.disp := (told_requestBlock s n (Told.rfl' s)).disp
@[simp] theorem State.requestBlock_qspi (s : State) (n : Nat) : (State.requestBlock s n).qspi = s.qspi := (told_requestBlock s n (Told.rfl' s)).qspi
@[simp] theorem State.requestBlock_spit (s : State) (n : Nat) : (State.requestBlock s n).spit = s.spit := (told_requestBlock s n (Told.rfl' s)).spit
@[simp] theorem State.requestBlock_i2ct (s : State) (n : Nat) : (State.requestBlock s n).i2ct = s.i2ct := (told_requestBlock s n (Told.rfl' s)).i2ct
@[simp] theorem State.requestBlock_i2ci (s : State) (n : Nat) : (State.requestBlock s n).i2ci = s.i2ci := (told_requestBlock s n (Told.rfl' s)).i2ci
@[simp] theorem State.requestBlock_gpio (s : State) (n : Nat) : (State.requestBlock s n).gpio = s.gpio := (told_requestBlock s n (Told.rfl' s)).gpio
@[simp] theorem State.requestBlock_vfl (s : State) (n : Nat) : (State.requestBlock s n).vfl = s.vfl := (told_requestBlock s n (Told.rfl' s)).vfl
@[simp] theorem State.requestBlock_vfr (s : State) (n : Nat) : (State.requestBlock s n).vfr = s.vfr := (told_requestBlock s n (Told.rfl' s)).vfr
@[simp] theorem State.requestBlock_mir (s : State) (n : Nat) : (State.requestBlock s n).mir = s.mir := (told_requestBlock s n (Told.rfl' s)).mir
@[simp] theorem State.requestBlock_hkp (s : State) (n : Nat) : (State.requestBlock s n).hkp = s.hkp := (told_requestBlock s n (Told.rfl' s)).hkp
@[simp] theorem State.requestBlock_thr (s : State) (n : Nat) : (State.requestBlock s n).thr = s.thr := (told_requestBlock s n (Told.rfl' s)).thr
@[simp] theorem State.requestBlock_dbg (s : State) (n : Nat) : (State.requestBlock s n).dbg = s.dbg := (told_requestBlock s n (Told.rfl' s)).dbg
@[simp] theorem State.noticeBlock_pending (s : State) (n : Nat) : (State.noticeBlock s n).pending = s.pending := (told_noticeBlock s n (Told.rfl' s)).pending
@[simp] theorem State.noticeBlock_now (s : State) (n : Nat) : (State.noticeBlock s n).now = s.now := (told_noticeBlock s n (Told.rfl' s)).now
@[simp] theorem State.noticeBlock_freeCtr (s : State) (n : Nat) : (State.noticeBlock s n).freeCtr = s.freeCtr := (told_noticeBlock s n (Told.rfl' s)).freeCtr
@[simp] theorem State.noticeBlock_aon (s : State) (n : Nat) : (State.noticeBlock s n).aon = s.aon := (told_noticeBlock s n (Told.rfl' s)).aon
@[simp] theorem State.noticeBlock_nvm (s : State) (n : Nat) : (State.noticeBlock s n).nvm = s.nvm := (told_noticeBlock s n (Told.rfl' s)).nvm
@[simp] theorem State.noticeBlock_regs (s : State) (n : Nat) : (State.noticeBlock s n).regs = s.regs := (told_noticeBlock s n (Told.rfl' s)).regs
@[simp] theorem State.noticeBlock_pins (s : State) (n : Nat) : (State.noticeBlock s n).pins = s.pins := (told_noticeBlock s n (Told.rfl' s)).pins
@[simp] theorem State.noticeBlock_dev (s : State) (n : Nat) : (State.noticeBlock s n).dev = s.dev := (told_noticeBlock s n (Told.rfl' s)).dev
@[simp] theorem State.noticeBlock_clk (s : State) (n : Nat) : (State.noticeBlock s n).clk = s.clk := (told_noticeBlock s n (Told.rfl' s)).clk
@[simp] theorem State.noticeBlock_pwr (s : State) (n : Nat) : (State.noticeBlock s n).pwr = s.pwr := (told_noticeBlock s n (Told.rfl' s)).pwr
@[simp] theorem State.noticeBlock_boot (s : State) (n : Nat) : (State.noticeBlock s n).boot = s.boot := (told_noticeBlock s n (Told.rfl' s)).boot
@[simp] theorem State.noticeBlock_upd (s : State) (n : Nat) : (State.noticeBlock s n).upd = s.upd := (told_noticeBlock s n (Told.rfl' s)).upd
@[simp] theorem State.noticeBlock_troutes (s : State) (n : Nat) : (State.noticeBlock s n).troutes = s.troutes := (told_noticeBlock s n (Told.rfl' s)).troutes
@[simp] theorem State.noticeBlock_hqm (s : State) (n : Nat) : (State.noticeBlock s n).hqm = s.hqm := (told_noticeBlock s n (Told.rfl' s)).hqm
@[simp] theorem State.noticeBlock_own (s : State) (n : Nat) : (State.noticeBlock s n).own = s.own := (told_noticeBlock s n (Told.rfl' s)).own
@[simp] theorem State.noticeBlock_ciph (s : State) (n : Nat) : (State.noticeBlock s n).ciph = s.ciph := (told_noticeBlock s n (Told.rfl' s)).ciph
@[simp] theorem State.noticeBlock_sign (s : State) (n : Nat) : (State.noticeBlock s n).sign = s.sign := (told_noticeBlock s n (Told.rfl' s)).sign
@[simp] theorem State.noticeBlock_chainU (s : State) (n : Nat) : (State.noticeBlock s n).chainU = s.chainU := (told_noticeBlock s n (Told.rfl' s)).chainU
@[simp] theorem State.noticeBlock_med (s : State) (n : Nat) : (State.noticeBlock s n).med = s.med := (told_noticeBlock s n (Told.rfl' s)).med
@[simp] theorem State.noticeBlock_dram (s : State) (n : Nat) : (State.noticeBlock s n).dram = s.dram := (told_noticeBlock s n (Told.rfl' s)).dram
@[simp] theorem State.noticeBlock_sram (s : State) (n : Nat) : (State.noticeBlock s n).sram = s.sram := (told_noticeBlock s n (Told.rfl' s)).sram
@[simp] theorem State.noticeBlock_bpm (s : State) (n : Nat) : (State.noticeBlock s n).bpm = s.bpm := (told_noticeBlock s n (Told.rfl' s)).bpm
@[simp] theorem State.noticeBlock_squall (s : State) (n : Nat) : (State.noticeBlock s n).squall = s.squall := (told_noticeBlock s n (Told.rfl' s)).squall
@[simp] theorem State.noticeBlock_evr (s : State) (n : Nat) : (State.noticeBlock s n).evr = s.evr := (told_noticeBlock s n (Told.rfl' s)).evr
@[simp] theorem State.noticeBlock_mtr (s : State) (n : Nat) : (State.noticeBlock s n).mtr = s.mtr := (told_noticeBlock s n (Told.rfl' s)).mtr
@[simp] theorem State.noticeBlock_disp (s : State) (n : Nat) : (State.noticeBlock s n).disp = s.disp := (told_noticeBlock s n (Told.rfl' s)).disp
@[simp] theorem State.noticeBlock_qspi (s : State) (n : Nat) : (State.noticeBlock s n).qspi = s.qspi := (told_noticeBlock s n (Told.rfl' s)).qspi
@[simp] theorem State.noticeBlock_spit (s : State) (n : Nat) : (State.noticeBlock s n).spit = s.spit := (told_noticeBlock s n (Told.rfl' s)).spit
@[simp] theorem State.noticeBlock_i2ct (s : State) (n : Nat) : (State.noticeBlock s n).i2ct = s.i2ct := (told_noticeBlock s n (Told.rfl' s)).i2ct
@[simp] theorem State.noticeBlock_i2ci (s : State) (n : Nat) : (State.noticeBlock s n).i2ci = s.i2ci := (told_noticeBlock s n (Told.rfl' s)).i2ci
@[simp] theorem State.noticeBlock_gpio (s : State) (n : Nat) : (State.noticeBlock s n).gpio = s.gpio := (told_noticeBlock s n (Told.rfl' s)).gpio
@[simp] theorem State.noticeBlock_vfl (s : State) (n : Nat) : (State.noticeBlock s n).vfl = s.vfl := (told_noticeBlock s n (Told.rfl' s)).vfl
@[simp] theorem State.noticeBlock_vfr (s : State) (n : Nat) : (State.noticeBlock s n).vfr = s.vfr := (told_noticeBlock s n (Told.rfl' s)).vfr
@[simp] theorem State.noticeBlock_mir (s : State) (n : Nat) : (State.noticeBlock s n).mir = s.mir := (told_noticeBlock s n (Told.rfl' s)).mir
@[simp] theorem State.noticeBlock_hkp (s : State) (n : Nat) : (State.noticeBlock s n).hkp = s.hkp := (told_noticeBlock s n (Told.rfl' s)).hkp
@[simp] theorem State.noticeBlock_thr (s : State) (n : Nat) : (State.noticeBlock s n).thr = s.thr := (told_noticeBlock s n (Told.rfl' s)).thr
@[simp] theorem State.noticeBlock_dbg (s : State) (n : Nat) : (State.noticeBlock s n).dbg = s.dbg := (told_noticeBlock s n (Told.rfl' s)).dbg
@[simp] theorem State.requestTenant_pending (s : State) (t : Tid) (q : Qid) : (State.requestTenant s t q).pending = s.pending := (told_requestTenant s t q (Told.rfl' s)).pending
@[simp] theorem State.requestTenant_now (s : State) (t : Tid) (q : Qid) : (State.requestTenant s t q).now = s.now := (told_requestTenant s t q (Told.rfl' s)).now
@[simp] theorem State.requestTenant_freeCtr (s : State) (t : Tid) (q : Qid) : (State.requestTenant s t q).freeCtr = s.freeCtr := (told_requestTenant s t q (Told.rfl' s)).freeCtr
@[simp] theorem State.requestTenant_aon (s : State) (t : Tid) (q : Qid) : (State.requestTenant s t q).aon = s.aon := (told_requestTenant s t q (Told.rfl' s)).aon
@[simp] theorem State.requestTenant_nvm (s : State) (t : Tid) (q : Qid) : (State.requestTenant s t q).nvm = s.nvm := (told_requestTenant s t q (Told.rfl' s)).nvm
@[simp] theorem State.requestTenant_regs (s : State) (t : Tid) (q : Qid) : (State.requestTenant s t q).regs = s.regs := (told_requestTenant s t q (Told.rfl' s)).regs
@[simp] theorem State.requestTenant_pins (s : State) (t : Tid) (q : Qid) : (State.requestTenant s t q).pins = s.pins := (told_requestTenant s t q (Told.rfl' s)).pins
@[simp] theorem State.requestTenant_dev (s : State) (t : Tid) (q : Qid) : (State.requestTenant s t q).dev = s.dev := (told_requestTenant s t q (Told.rfl' s)).dev
@[simp] theorem State.requestTenant_clk (s : State) (t : Tid) (q : Qid) : (State.requestTenant s t q).clk = s.clk := (told_requestTenant s t q (Told.rfl' s)).clk
@[simp] theorem State.requestTenant_pwr (s : State) (t : Tid) (q : Qid) : (State.requestTenant s t q).pwr = s.pwr := (told_requestTenant s t q (Told.rfl' s)).pwr
@[simp] theorem State.requestTenant_boot (s : State) (t : Tid) (q : Qid) : (State.requestTenant s t q).boot = s.boot := (told_requestTenant s t q (Told.rfl' s)).boot
@[simp] theorem State.requestTenant_upd (s : State) (t : Tid) (q : Qid) : (State.requestTenant s t q).upd = s.upd := (told_requestTenant s t q (Told.rfl' s)).upd
@[simp] theorem State.requestTenant_troutes (s : State) (t : Tid) (q : Qid) : (State.requestTenant s t q).troutes = s.troutes := (told_requestTenant s t q (Told.rfl' s)).troutes
@[simp] theorem State.requestTenant_hqm (s : State) (t : Tid) (q : Qid) : (State.requestTenant s t q).hqm = s.hqm := (told_requestTenant s t q (Told.rfl' s)).hqm
@[simp] theorem State.requestTenant_own (s : State) (t : Tid) (q : Qid) : (State.requestTenant s t q).own = s.own := (told_requestTenant s t q (Told.rfl' s)).own
@[simp] theorem State.requestTenant_ciph (s : State) (t : Tid) (q : Qid) : (State.requestTenant s t q).ciph = s.ciph := (told_requestTenant s t q (Told.rfl' s)).ciph
@[simp] theorem State.requestTenant_sign (s : State) (t : Tid) (q : Qid) : (State.requestTenant s t q).sign = s.sign := (told_requestTenant s t q (Told.rfl' s)).sign
@[simp] theorem State.requestTenant_chainU (s : State) (t : Tid) (q : Qid) : (State.requestTenant s t q).chainU = s.chainU := (told_requestTenant s t q (Told.rfl' s)).chainU
@[simp] theorem State.requestTenant_med (s : State) (t : Tid) (q : Qid) : (State.requestTenant s t q).med = s.med := (told_requestTenant s t q (Told.rfl' s)).med
@[simp] theorem State.requestTenant_dram (s : State) (t : Tid) (q : Qid) : (State.requestTenant s t q).dram = s.dram := (told_requestTenant s t q (Told.rfl' s)).dram
@[simp] theorem State.requestTenant_sram (s : State) (t : Tid) (q : Qid) : (State.requestTenant s t q).sram = s.sram := (told_requestTenant s t q (Told.rfl' s)).sram
@[simp] theorem State.requestTenant_bpm (s : State) (t : Tid) (q : Qid) : (State.requestTenant s t q).bpm = s.bpm := (told_requestTenant s t q (Told.rfl' s)).bpm
@[simp] theorem State.requestTenant_squall (s : State) (t : Tid) (q : Qid) : (State.requestTenant s t q).squall = s.squall := (told_requestTenant s t q (Told.rfl' s)).squall
@[simp] theorem State.requestTenant_evr (s : State) (t : Tid) (q : Qid) : (State.requestTenant s t q).evr = s.evr := (told_requestTenant s t q (Told.rfl' s)).evr
@[simp] theorem State.requestTenant_mtr (s : State) (t : Tid) (q : Qid) : (State.requestTenant s t q).mtr = s.mtr := (told_requestTenant s t q (Told.rfl' s)).mtr
@[simp] theorem State.requestTenant_disp (s : State) (t : Tid) (q : Qid) : (State.requestTenant s t q).disp = s.disp := (told_requestTenant s t q (Told.rfl' s)).disp
@[simp] theorem State.requestTenant_qspi (s : State) (t : Tid) (q : Qid) : (State.requestTenant s t q).qspi = s.qspi := (told_requestTenant s t q (Told.rfl' s)).qspi
@[simp] theorem State.requestTenant_spit (s : State) (t : Tid) (q : Qid) : (State.requestTenant s t q).spit = s.spit := (told_requestTenant s t q (Told.rfl' s)).spit
@[simp] theorem State.requestTenant_i2ct (s : State) (t : Tid) (q : Qid) : (State.requestTenant s t q).i2ct = s.i2ct := (told_requestTenant s t q (Told.rfl' s)).i2ct
@[simp] theorem State.requestTenant_i2ci (s : State) (t : Tid) (q : Qid) : (State.requestTenant s t q).i2ci = s.i2ci := (told_requestTenant s t q (Told.rfl' s)).i2ci
@[simp] theorem State.requestTenant_gpio (s : State) (t : Tid) (q : Qid) : (State.requestTenant s t q).gpio = s.gpio := (told_requestTenant s t q (Told.rfl' s)).gpio
@[simp] theorem State.requestTenant_vfl (s : State) (t : Tid) (q : Qid) : (State.requestTenant s t q).vfl = s.vfl := (told_requestTenant s t q (Told.rfl' s)).vfl
@[simp] theorem State.requestTenant_vfr (s : State) (t : Tid) (q : Qid) : (State.requestTenant s t q).vfr = s.vfr := (told_requestTenant s t q (Told.rfl' s)).vfr
@[simp] theorem State.requestTenant_mir (s : State) (t : Tid) (q : Qid) : (State.requestTenant s t q).mir = s.mir := (told_requestTenant s t q (Told.rfl' s)).mir
@[simp] theorem State.requestTenant_hkp (s : State) (t : Tid) (q : Qid) : (State.requestTenant s t q).hkp = s.hkp := (told_requestTenant s t q (Told.rfl' s)).hkp
@[simp] theorem State.requestTenant_thr (s : State) (t : Tid) (q : Qid) : (State.requestTenant s t q).thr = s.thr := (told_requestTenant s t q (Told.rfl' s)).thr
@[simp] theorem State.requestTenant_dbg (s : State) (t : Tid) (q : Qid) : (State.requestTenant s t q).dbg = s.dbg := (told_requestTenant s t q (Told.rfl' s)).dbg
@[simp] theorem State.raise_pending (s : State) (p : Page) (b : Nat) : (State.raise s p b).pending = s.pending := (told_raise s p b (Told.rfl' s)).pending
@[simp] theorem State.raise_now (s : State) (p : Page) (b : Nat) : (State.raise s p b).now = s.now := (told_raise s p b (Told.rfl' s)).now
@[simp] theorem State.raise_freeCtr (s : State) (p : Page) (b : Nat) : (State.raise s p b).freeCtr = s.freeCtr := (told_raise s p b (Told.rfl' s)).freeCtr
@[simp] theorem State.raise_aon (s : State) (p : Page) (b : Nat) : (State.raise s p b).aon = s.aon := (told_raise s p b (Told.rfl' s)).aon
@[simp] theorem State.raise_nvm (s : State) (p : Page) (b : Nat) : (State.raise s p b).nvm = s.nvm := (told_raise s p b (Told.rfl' s)).nvm
@[simp] theorem State.raise_regs (s : State) (p : Page) (b : Nat) : (State.raise s p b).regs = s.regs := (told_raise s p b (Told.rfl' s)).regs
@[simp] theorem State.raise_pins (s : State) (p : Page) (b : Nat) : (State.raise s p b).pins = s.pins := (told_raise s p b (Told.rfl' s)).pins
@[simp] theorem State.raise_dev (s : State) (p : Page) (b : Nat) : (State.raise s p b).dev = s.dev := (told_raise s p b (Told.rfl' s)).dev
@[simp] theorem State.raise_clk (s : State) (p : Page) (b : Nat) : (State.raise s p b).clk = s.clk := (told_raise s p b (Told.rfl' s)).clk
@[simp] theorem State.raise_pwr (s : State) (p : Page) (b : Nat) : (State.raise s p b).pwr = s.pwr := (told_raise s p b (Told.rfl' s)).pwr
@[simp] theorem State.raise_boot (s : State) (p : Page) (b : Nat) : (State.raise s p b).boot = s.boot := (told_raise s p b (Told.rfl' s)).boot
@[simp] theorem State.raise_upd (s : State) (p : Page) (b : Nat) : (State.raise s p b).upd = s.upd := (told_raise s p b (Told.rfl' s)).upd
@[simp] theorem State.raise_troutes (s : State) (p : Page) (b : Nat) : (State.raise s p b).troutes = s.troutes := (told_raise s p b (Told.rfl' s)).troutes
@[simp] theorem State.raise_hqm (s : State) (p : Page) (b : Nat) : (State.raise s p b).hqm = s.hqm := (told_raise s p b (Told.rfl' s)).hqm
@[simp] theorem State.raise_own (s : State) (p : Page) (b : Nat) : (State.raise s p b).own = s.own := (told_raise s p b (Told.rfl' s)).own
@[simp] theorem State.raise_ciph (s : State) (p : Page) (b : Nat) : (State.raise s p b).ciph = s.ciph := (told_raise s p b (Told.rfl' s)).ciph
@[simp] theorem State.raise_sign (s : State) (p : Page) (b : Nat) : (State.raise s p b).sign = s.sign := (told_raise s p b (Told.rfl' s)).sign
@[simp] theorem State.raise_chainU (s : State) (p : Page) (b : Nat) : (State.raise s p b).chainU = s.chainU := (told_raise s p b (Told.rfl' s)).chainU
@[simp] theorem State.raise_med (s : State) (p : Page) (b : Nat) : (State.raise s p b).med = s.med := (told_raise s p b (Told.rfl' s)).med
@[simp] theorem State.raise_dram (s : State) (p : Page) (b : Nat) : (State.raise s p b).dram = s.dram := (told_raise s p b (Told.rfl' s)).dram
@[simp] theorem State.raise_sram (s : State) (p : Page) (b : Nat) : (State.raise s p b).sram = s.sram := (told_raise s p b (Told.rfl' s)).sram
@[simp] theorem State.raise_bpm (s : State) (p : Page) (b : Nat) : (State.raise s p b).bpm = s.bpm := (told_raise s p b (Told.rfl' s)).bpm
@[simp] theorem State.raise_squall (s : State) (p : Page) (b : Nat) : (State.raise s p b).squall = s.squall := (told_raise s p b (Told.rfl' s)).squall
@[simp] theorem State.raise_evr (s : State) (p : Page) (b : Nat) : (State.raise s p b).evr = s.evr := (told_raise s p b (Told.rfl' s)).evr
@[simp] theorem State.raise_mtr (s : State) (p : Page) (b : Nat) : (State.raise s p b).mtr = s.mtr := (told_raise s p b (Told.rfl' s)).mtr
@[simp] theorem State.raise_disp (s : State) (p : Page) (b : Nat) : (State.raise s p b).disp = s.disp := (told_raise s p b (Told.rfl' s)).disp
@[simp] theorem State.raise_qspi (s : State) (p : Page) (b : Nat) : (State.raise s p b).qspi = s.qspi := (told_raise s p b (Told.rfl' s)).qspi
@[simp] theorem State.raise_spit (s : State) (p : Page) (b : Nat) : (State.raise s p b).spit = s.spit := (told_raise s p b (Told.rfl' s)).spit
@[simp] theorem State.raise_i2ct (s : State) (p : Page) (b : Nat) : (State.raise s p b).i2ct = s.i2ct := (told_raise s p b (Told.rfl' s)).i2ct
@[simp] theorem State.raise_i2ci (s : State) (p : Page) (b : Nat) : (State.raise s p b).i2ci = s.i2ci := (told_raise s p b (Told.rfl' s)).i2ci
@[simp] theorem State.raise_gpio (s : State) (p : Page) (b : Nat) : (State.raise s p b).gpio = s.gpio := (told_raise s p b (Told.rfl' s)).gpio
@[simp] theorem State.raise_vfl (s : State) (p : Page) (b : Nat) : (State.raise s p b).vfl = s.vfl := (told_raise s p b (Told.rfl' s)).vfl
@[simp] theorem State.raise_vfr (s : State) (p : Page) (b : Nat) : (State.raise s p b).vfr = s.vfr := (told_raise s p b (Told.rfl' s)).vfr
@[simp] theorem State.raise_mir (s : State) (p : Page) (b : Nat) : (State.raise s p b).mir = s.mir := (told_raise s p b (Told.rfl' s)).mir
@[simp] theorem State.raise_hkp (s : State) (p : Page) (b : Nat) : (State.raise s p b).hkp = s.hkp := (told_raise s p b (Told.rfl' s)).hkp
@[simp] theorem State.raise_thr (s : State) (p : Page) (b : Nat) : (State.raise s p b).thr = s.thr := (told_raise s p b (Told.rfl' s)).thr
@[simp] theorem State.raise_dbg (s : State) (p : Page) (b : Nat) : (State.raise s p b).dbg = s.dbg := (told_raise s p b (Told.rfl' s)).dbg
@[simp] theorem State.raiseTnt_pending (s : State) (t : Tid) (b : Nat) : (State.raiseTnt s t b).pending = s.pending := (told_raiseTnt s t b (Told.rfl' s)).pending
@[simp] theorem State.raiseTnt_now (s : State) (t : Tid) (b : Nat) : (State.raiseTnt s t b).now = s.now := (told_raiseTnt s t b (Told.rfl' s)).now
@[simp] theorem State.raiseTnt_freeCtr (s : State) (t : Tid) (b : Nat) : (State.raiseTnt s t b).freeCtr = s.freeCtr := (told_raiseTnt s t b (Told.rfl' s)).freeCtr
@[simp] theorem State.raiseTnt_aon (s : State) (t : Tid) (b : Nat) : (State.raiseTnt s t b).aon = s.aon := (told_raiseTnt s t b (Told.rfl' s)).aon
@[simp] theorem State.raiseTnt_nvm (s : State) (t : Tid) (b : Nat) : (State.raiseTnt s t b).nvm = s.nvm := (told_raiseTnt s t b (Told.rfl' s)).nvm
@[simp] theorem State.raiseTnt_regs (s : State) (t : Tid) (b : Nat) : (State.raiseTnt s t b).regs = s.regs := (told_raiseTnt s t b (Told.rfl' s)).regs
@[simp] theorem State.raiseTnt_pins (s : State) (t : Tid) (b : Nat) : (State.raiseTnt s t b).pins = s.pins := (told_raiseTnt s t b (Told.rfl' s)).pins
@[simp] theorem State.raiseTnt_dev (s : State) (t : Tid) (b : Nat) : (State.raiseTnt s t b).dev = s.dev := (told_raiseTnt s t b (Told.rfl' s)).dev
@[simp] theorem State.raiseTnt_clk (s : State) (t : Tid) (b : Nat) : (State.raiseTnt s t b).clk = s.clk := (told_raiseTnt s t b (Told.rfl' s)).clk
@[simp] theorem State.raiseTnt_pwr (s : State) (t : Tid) (b : Nat) : (State.raiseTnt s t b).pwr = s.pwr := (told_raiseTnt s t b (Told.rfl' s)).pwr
@[simp] theorem State.raiseTnt_boot (s : State) (t : Tid) (b : Nat) : (State.raiseTnt s t b).boot = s.boot := (told_raiseTnt s t b (Told.rfl' s)).boot
@[simp] theorem State.raiseTnt_upd (s : State) (t : Tid) (b : Nat) : (State.raiseTnt s t b).upd = s.upd := (told_raiseTnt s t b (Told.rfl' s)).upd
@[simp] theorem State.raiseTnt_troutes (s : State) (t : Tid) (b : Nat) : (State.raiseTnt s t b).troutes = s.troutes := (told_raiseTnt s t b (Told.rfl' s)).troutes
@[simp] theorem State.raiseTnt_hqm (s : State) (t : Tid) (b : Nat) : (State.raiseTnt s t b).hqm = s.hqm := (told_raiseTnt s t b (Told.rfl' s)).hqm
@[simp] theorem State.raiseTnt_own (s : State) (t : Tid) (b : Nat) : (State.raiseTnt s t b).own = s.own := (told_raiseTnt s t b (Told.rfl' s)).own
@[simp] theorem State.raiseTnt_ciph (s : State) (t : Tid) (b : Nat) : (State.raiseTnt s t b).ciph = s.ciph := (told_raiseTnt s t b (Told.rfl' s)).ciph
@[simp] theorem State.raiseTnt_sign (s : State) (t : Tid) (b : Nat) : (State.raiseTnt s t b).sign = s.sign := (told_raiseTnt s t b (Told.rfl' s)).sign
@[simp] theorem State.raiseTnt_chainU (s : State) (t : Tid) (b : Nat) : (State.raiseTnt s t b).chainU = s.chainU := (told_raiseTnt s t b (Told.rfl' s)).chainU
@[simp] theorem State.raiseTnt_med (s : State) (t : Tid) (b : Nat) : (State.raiseTnt s t b).med = s.med := (told_raiseTnt s t b (Told.rfl' s)).med
@[simp] theorem State.raiseTnt_dram (s : State) (t : Tid) (b : Nat) : (State.raiseTnt s t b).dram = s.dram := (told_raiseTnt s t b (Told.rfl' s)).dram
@[simp] theorem State.raiseTnt_sram (s : State) (t : Tid) (b : Nat) : (State.raiseTnt s t b).sram = s.sram := (told_raiseTnt s t b (Told.rfl' s)).sram
@[simp] theorem State.raiseTnt_bpm (s : State) (t : Tid) (b : Nat) : (State.raiseTnt s t b).bpm = s.bpm := (told_raiseTnt s t b (Told.rfl' s)).bpm
@[simp] theorem State.raiseTnt_squall (s : State) (t : Tid) (b : Nat) : (State.raiseTnt s t b).squall = s.squall := (told_raiseTnt s t b (Told.rfl' s)).squall
@[simp] theorem State.raiseTnt_evr (s : State) (t : Tid) (b : Nat) : (State.raiseTnt s t b).evr = s.evr := (told_raiseTnt s t b (Told.rfl' s)).evr
@[simp] theorem State.raiseTnt_mtr (s : State) (t : Tid) (b : Nat) : (State.raiseTnt s t b).mtr = s.mtr := (told_raiseTnt s t b (Told.rfl' s)).mtr
@[simp] theorem State.raiseTnt_disp (s : State) (t : Tid) (b : Nat) : (State.raiseTnt s t b).disp = s.disp := (told_raiseTnt s t b (Told.rfl' s)).disp
@[simp] theorem State.raiseTnt_qspi (s : State) (t : Tid) (b : Nat) : (State.raiseTnt s t b).qspi = s.qspi := (told_raiseTnt s t b (Told.rfl' s)).qspi
@[simp] theorem State.raiseTnt_spit (s : State) (t : Tid) (b : Nat) : (State.raiseTnt s t b).spit = s.spit := (told_raiseTnt s t b (Told.rfl' s)).spit
@[simp] theorem State.raiseTnt_i2ct (s : State) (t : Tid) (b : Nat) : (State.raiseTnt s t b).i2ct = s.i2ct := (told_raiseTnt s t b (Told.rfl' s)).i2ct
@[simp] theorem State.raiseTnt_i2ci (s : State) (t : Tid) (b : Nat) : (State.raiseTnt s t b).i2ci = s.i2ci := (told_raiseTnt s t b (Told.rfl' s)).i2ci
@[simp] theorem State.raiseTnt_gpio (s : State) (t : Tid) (b : Nat) : (State.raiseTnt s t b).gpio = s.gpio := (told_raiseTnt s t b (Told.rfl' s)).gpio
@[simp] theorem State.raiseTnt_vfl (s : State) (t : Tid) (b : Nat) : (State.raiseTnt s t b).vfl = s.vfl := (told_raiseTnt s t b (Told.rfl' s)).vfl
@[simp] theorem State.raiseTnt_vfr (s : State) (t : Tid) (b : Nat) : (State.raiseTnt s t b).vfr = s.vfr := (told_raiseTnt s t b (Told.rfl' s)).vfr
@[simp] theorem State.raiseTnt_mir (s : State) (t : Tid) (b : Nat) : (State.raiseTnt s t b).mir = s.mir := (told_raiseTnt s t b (Told.rfl' s)).mir
@[simp] theorem State.raiseTnt_hkp (s : State) (t : Tid) (b : Nat) : (State.raiseTnt s t b).hkp = s.hkp := (told_raiseTnt s t b (Told.rfl' s)).hkp
@[simp] theorem State.raiseTnt_thr (s : State) (t : Tid) (b : Nat) : (State.raiseTnt s t b).thr = s.thr := (told_raiseTnt s t b (Told.rfl' s)).thr
@[simp] theorem State.raiseTnt_dbg (s : State) (t : Tid) (b : Nat) : (State.raiseTnt s t b).dbg = s.dbg := (told_raiseTnt s t b (Told.rfl' s)).dbg
@[simp] theorem State.raiseTenants_pending (s : State) (p : State → Tid → Bool) (b : Nat) : (State.raiseTenants s p b).pending = s.pending := (told_raiseTenants s p b (Told.rfl' s)).pending
@[simp] theorem State.raiseTenants_now (s : State) (p : State → Tid → Bool) (b : Nat) : (State.raiseTenants s p b).now = s.now := (told_raiseTenants s p b (Told.rfl' s)).now
@[simp] theorem State.raiseTenants_freeCtr (s : State) (p : State → Tid → Bool) (b : Nat) : (State.raiseTenants s p b).freeCtr = s.freeCtr := (told_raiseTenants s p b (Told.rfl' s)).freeCtr
@[simp] theorem State.raiseTenants_aon (s : State) (p : State → Tid → Bool) (b : Nat) : (State.raiseTenants s p b).aon = s.aon := (told_raiseTenants s p b (Told.rfl' s)).aon
@[simp] theorem State.raiseTenants_nvm (s : State) (p : State → Tid → Bool) (b : Nat) : (State.raiseTenants s p b).nvm = s.nvm := (told_raiseTenants s p b (Told.rfl' s)).nvm
@[simp] theorem State.raiseTenants_regs (s : State) (p : State → Tid → Bool) (b : Nat) : (State.raiseTenants s p b).regs = s.regs := (told_raiseTenants s p b (Told.rfl' s)).regs
@[simp] theorem State.raiseTenants_pins (s : State) (p : State → Tid → Bool) (b : Nat) : (State.raiseTenants s p b).pins = s.pins := (told_raiseTenants s p b (Told.rfl' s)).pins
@[simp] theorem State.raiseTenants_dev (s : State) (p : State → Tid → Bool) (b : Nat) : (State.raiseTenants s p b).dev = s.dev := (told_raiseTenants s p b (Told.rfl' s)).dev
@[simp] theorem State.raiseTenants_clk (s : State) (p : State → Tid → Bool) (b : Nat) : (State.raiseTenants s p b).clk = s.clk := (told_raiseTenants s p b (Told.rfl' s)).clk
@[simp] theorem State.raiseTenants_pwr (s : State) (p : State → Tid → Bool) (b : Nat) : (State.raiseTenants s p b).pwr = s.pwr := (told_raiseTenants s p b (Told.rfl' s)).pwr
@[simp] theorem State.raiseTenants_boot (s : State) (p : State → Tid → Bool) (b : Nat) : (State.raiseTenants s p b).boot = s.boot := (told_raiseTenants s p b (Told.rfl' s)).boot
@[simp] theorem State.raiseTenants_upd (s : State) (p : State → Tid → Bool) (b : Nat) : (State.raiseTenants s p b).upd = s.upd := (told_raiseTenants s p b (Told.rfl' s)).upd
@[simp] theorem State.raiseTenants_troutes (s : State) (p : State → Tid → Bool) (b : Nat) : (State.raiseTenants s p b).troutes = s.troutes := (told_raiseTenants s p b (Told.rfl' s)).troutes
@[simp] theorem State.raiseTenants_hqm (s : State) (p : State → Tid → Bool) (b : Nat) : (State.raiseTenants s p b).hqm = s.hqm := (told_raiseTenants s p b (Told.rfl' s)).hqm
@[simp] theorem State.raiseTenants_own (s : State) (p : State → Tid → Bool) (b : Nat) : (State.raiseTenants s p b).own = s.own := (told_raiseTenants s p b (Told.rfl' s)).own
@[simp] theorem State.raiseTenants_ciph (s : State) (p : State → Tid → Bool) (b : Nat) : (State.raiseTenants s p b).ciph = s.ciph := (told_raiseTenants s p b (Told.rfl' s)).ciph
@[simp] theorem State.raiseTenants_sign (s : State) (p : State → Tid → Bool) (b : Nat) : (State.raiseTenants s p b).sign = s.sign := (told_raiseTenants s p b (Told.rfl' s)).sign
@[simp] theorem State.raiseTenants_chainU (s : State) (p : State → Tid → Bool) (b : Nat) : (State.raiseTenants s p b).chainU = s.chainU := (told_raiseTenants s p b (Told.rfl' s)).chainU
@[simp] theorem State.raiseTenants_med (s : State) (p : State → Tid → Bool) (b : Nat) : (State.raiseTenants s p b).med = s.med := (told_raiseTenants s p b (Told.rfl' s)).med
@[simp] theorem State.raiseTenants_dram (s : State) (p : State → Tid → Bool) (b : Nat) : (State.raiseTenants s p b).dram = s.dram := (told_raiseTenants s p b (Told.rfl' s)).dram
@[simp] theorem State.raiseTenants_sram (s : State) (p : State → Tid → Bool) (b : Nat) : (State.raiseTenants s p b).sram = s.sram := (told_raiseTenants s p b (Told.rfl' s)).sram
@[simp] theorem State.raiseTenants_bpm (s : State) (p : State → Tid → Bool) (b : Nat) : (State.raiseTenants s p b).bpm = s.bpm := (told_raiseTenants s p b (Told.rfl' s)).bpm
@[simp] theorem State.raiseTenants_squall (s : State) (p : State → Tid → Bool) (b : Nat) : (State.raiseTenants s p b).squall = s.squall := (told_raiseTenants s p b (Told.rfl' s)).squall
@[simp] theorem State.raiseTenants_evr (s : State) (p : State → Tid → Bool) (b : Nat) : (State.raiseTenants s p b).evr = s.evr := (told_raiseTenants s p b (Told.rfl' s)).evr
@[simp] theorem State.raiseTenants_mtr (s : State) (p : State → Tid → Bool) (b : Nat) : (State.raiseTenants s p b).mtr = s.mtr := (told_raiseTenants s p b (Told.rfl' s)).mtr
@[simp] theorem State.raiseTenants_disp (s : State) (p : State → Tid → Bool) (b : Nat) : (State.raiseTenants s p b).disp = s.disp := (told_raiseTenants s p b (Told.rfl' s)).disp
@[simp] theorem State.raiseTenants_qspi (s : State) (p : State → Tid → Bool) (b : Nat) : (State.raiseTenants s p b).qspi = s.qspi := (told_raiseTenants s p b (Told.rfl' s)).qspi
@[simp] theorem State.raiseTenants_spit (s : State) (p : State → Tid → Bool) (b : Nat) : (State.raiseTenants s p b).spit = s.spit := (told_raiseTenants s p b (Told.rfl' s)).spit
@[simp] theorem State.raiseTenants_i2ct (s : State) (p : State → Tid → Bool) (b : Nat) : (State.raiseTenants s p b).i2ct = s.i2ct := (told_raiseTenants s p b (Told.rfl' s)).i2ct
@[simp] theorem State.raiseTenants_i2ci (s : State) (p : State → Tid → Bool) (b : Nat) : (State.raiseTenants s p b).i2ci = s.i2ci := (told_raiseTenants s p b (Told.rfl' s)).i2ci
@[simp] theorem State.raiseTenants_gpio (s : State) (p : State → Tid → Bool) (b : Nat) : (State.raiseTenants s p b).gpio = s.gpio := (told_raiseTenants s p b (Told.rfl' s)).gpio
@[simp] theorem State.raiseTenants_vfl (s : State) (p : State → Tid → Bool) (b : Nat) : (State.raiseTenants s p b).vfl = s.vfl := (told_raiseTenants s p b (Told.rfl' s)).vfl
@[simp] theorem State.raiseTenants_vfr (s : State) (p : State → Tid → Bool) (b : Nat) : (State.raiseTenants s p b).vfr = s.vfr := (told_raiseTenants s p b (Told.rfl' s)).vfr
@[simp] theorem State.raiseTenants_mir (s : State) (p : State → Tid → Bool) (b : Nat) : (State.raiseTenants s p b).mir = s.mir := (told_raiseTenants s p b (Told.rfl' s)).mir
@[simp] theorem State.raiseTenants_hkp (s : State) (p : State → Tid → Bool) (b : Nat) : (State.raiseTenants s p b).hkp = s.hkp := (told_raiseTenants s p b (Told.rfl' s)).hkp
@[simp] theorem State.raiseTenants_thr (s : State) (p : State → Tid → Bool) (b : Nat) : (State.raiseTenants s p b).thr = s.thr := (told_raiseTenants s p b (Told.rfl' s)).thr
@[simp] theorem State.raiseTenants_dbg (s : State) (p : State → Tid → Bool) (b : Nat) : (State.raiseTenants s p b).dbg = s.dbg := (told_raiseTenants s p b (Told.rfl' s)).dbg
@[simp] theorem State.countErr_pending (s : State) (p : Page) (cause : Byte) (addr : Word) : (State.countErr s p cause addr).pending = s.pending := (told_countErr s p cause addr (Told.rfl' s)).pending
@[simp] theorem State.countErr_now (s : State) (p : Page) (cause : Byte) (addr : Word) : (State.countErr s p cause addr).now = s.now := (told_countErr s p cause addr (Told.rfl' s)).now
@[simp] theorem State.countErr_freeCtr (s : State) (p : Page) (cause : Byte) (addr : Word) : (State.countErr s p cause addr).freeCtr = s.freeCtr := (told_countErr s p cause addr (Told.rfl' s)).freeCtr
@[simp] theorem State.countErr_aon (s : State) (p : Page) (cause : Byte) (addr : Word) : (State.countErr s p cause addr).aon = s.aon := (told_countErr s p cause addr (Told.rfl' s)).aon
@[simp] theorem State.countErr_nvm (s : State) (p : Page) (cause : Byte) (addr : Word) : (State.countErr s p cause addr).nvm = s.nvm := (told_countErr s p cause addr (Told.rfl' s)).nvm
@[simp] theorem State.countErr_regs (s : State) (p : Page) (cause : Byte) (addr : Word) : (State.countErr s p cause addr).regs = s.regs := (told_countErr s p cause addr (Told.rfl' s)).regs
@[simp] theorem State.countErr_pins (s : State) (p : Page) (cause : Byte) (addr : Word) : (State.countErr s p cause addr).pins = s.pins := (told_countErr s p cause addr (Told.rfl' s)).pins
@[simp] theorem State.countErr_dev (s : State) (p : Page) (cause : Byte) (addr : Word) : (State.countErr s p cause addr).dev = s.dev := (told_countErr s p cause addr (Told.rfl' s)).dev
@[simp] theorem State.countErr_clk (s : State) (p : Page) (cause : Byte) (addr : Word) : (State.countErr s p cause addr).clk = s.clk := (told_countErr s p cause addr (Told.rfl' s)).clk
@[simp] theorem State.countErr_pwr (s : State) (p : Page) (cause : Byte) (addr : Word) : (State.countErr s p cause addr).pwr = s.pwr := (told_countErr s p cause addr (Told.rfl' s)).pwr
@[simp] theorem State.countErr_boot (s : State) (p : Page) (cause : Byte) (addr : Word) : (State.countErr s p cause addr).boot = s.boot := (told_countErr s p cause addr (Told.rfl' s)).boot
@[simp] theorem State.countErr_upd (s : State) (p : Page) (cause : Byte) (addr : Word) : (State.countErr s p cause addr).upd = s.upd := (told_countErr s p cause addr (Told.rfl' s)).upd
@[simp] theorem State.countErr_troutes (s : State) (p : Page) (cause : Byte) (addr : Word) : (State.countErr s p cause addr).troutes = s.troutes := (told_countErr s p cause addr (Told.rfl' s)).troutes
@[simp] theorem State.countErr_hqm (s : State) (p : Page) (cause : Byte) (addr : Word) : (State.countErr s p cause addr).hqm = s.hqm := (told_countErr s p cause addr (Told.rfl' s)).hqm
@[simp] theorem State.countErr_own (s : State) (p : Page) (cause : Byte) (addr : Word) : (State.countErr s p cause addr).own = s.own := (told_countErr s p cause addr (Told.rfl' s)).own
@[simp] theorem State.countErr_ciph (s : State) (p : Page) (cause : Byte) (addr : Word) : (State.countErr s p cause addr).ciph = s.ciph := (told_countErr s p cause addr (Told.rfl' s)).ciph
@[simp] theorem State.countErr_sign (s : State) (p : Page) (cause : Byte) (addr : Word) : (State.countErr s p cause addr).sign = s.sign := (told_countErr s p cause addr (Told.rfl' s)).sign
@[simp] theorem State.countErr_chainU (s : State) (p : Page) (cause : Byte) (addr : Word) : (State.countErr s p cause addr).chainU = s.chainU := (told_countErr s p cause addr (Told.rfl' s)).chainU
@[simp] theorem State.countErr_med (s : State) (p : Page) (cause : Byte) (addr : Word) : (State.countErr s p cause addr).med = s.med := (told_countErr s p cause addr (Told.rfl' s)).med
@[simp] theorem State.countErr_dram (s : State) (p : Page) (cause : Byte) (addr : Word) : (State.countErr s p cause addr).dram = s.dram := (told_countErr s p cause addr (Told.rfl' s)).dram
@[simp] theorem State.countErr_sram (s : State) (p : Page) (cause : Byte) (addr : Word) : (State.countErr s p cause addr).sram = s.sram := (told_countErr s p cause addr (Told.rfl' s)).sram
@[simp] theorem State.countErr_bpm (s : State) (p : Page) (cause : Byte) (addr : Word) : (State.countErr s p cause addr).bpm = s.bpm := (told_countErr s p cause addr (Told.rfl' s)).bpm
@[simp] theorem State.countErr_squall (s : State) (p : Page) (cause : Byte) (addr : Word) : (State.countErr s p cause addr).squall = s.squall := (told_countErr s p cause addr (Told.rfl' s)).squall
@[simp] theorem State.countErr_evr (s : State) (p : Page) (cause : Byte) (addr : Word) : (State.countErr s p cause addr).evr = s.evr := (told_countErr s p cause addr (Told.rfl' s)).evr
@[simp] theorem State.countErr_mtr (s : State) (p : Page) (cause : Byte) (addr : Word) : (State.countErr s p cause addr).mtr = s.mtr := (told_countErr s p cause addr (Told.rfl' s)).mtr
@[simp] theorem State.countErr_disp (s : State) (p : Page) (cause : Byte) (addr : Word) : (State.countErr s p cause addr).disp = s.disp := (told_countErr s p cause addr (Told.rfl' s)).disp
@[simp] theorem State.countErr_qspi (s : State) (p : Page) (cause : Byte) (addr : Word) : (State.countErr s p cause addr).qspi = s.qspi := (told_countErr s p cause addr (Told.rfl' s)).qspi
@[simp] theorem State.countErr_spit (s : State) (p : Page) (cause : Byte) (addr : Word) : (State.countErr s p cause addr).spit = s.spit := (told_countErr s p cause addr (Told.rfl' s)).spit
@[simp] theorem State.countErr_i2ct (s : State) (p : Page) (cause : Byte) (addr : Word) : (State.countErr s p cause addr).i2ct = s.i2ct := (told_countErr s p cause addr (Told.rfl' s)).i2ct
@[simp] theorem State.countErr_i2ci (s : State) (p : Page) (cause : Byte) (addr : Word) : (State.countErr s p cause addr).i2ci = s.i2ci := (told_countErr s p cause addr (Told.rfl' s)).i2ci
@[simp] theorem State.countErr_gpio (s : State) (p : Page) (cause : Byte) (addr : Word) : (State.countErr s p cause addr).gpio = s.gpio := (told_countErr s p cause addr (Told.rfl' s)).gpio
@[simp] theorem State.countErr_vfl (s : State) (p : Page) (cause : Byte) (addr : Word) : (State.countErr s p cause addr).vfl = s.vfl := (told_countErr s p cause addr (Told.rfl' s)).vfl
@[simp] theorem State.countErr_vfr (s : State) (p : Page) (cause : Byte) (addr : Word) : (State.countErr s p cause addr).vfr = s.vfr := (told_countErr s p cause addr (Told.rfl' s)).vfr
@[simp] theorem State.countErr_mir (s : State) (p : Page) (cause : Byte) (addr : Word) : (State.countErr s p cause addr).mir = s.mir := (told_countErr s p cause addr (Told.rfl' s)).mir
@[simp] theorem State.countErr_hkp (s : State) (p : Page) (cause : Byte) (addr : Word) : (State.countErr s p cause addr).hkp = s.hkp := (told_countErr s p cause addr (Told.rfl' s)).hkp
@[simp] theorem State.countErr_thr (s : State) (p : Page) (cause : Byte) (addr : Word) : (State.countErr s p cause addr).thr = s.thr := (told_countErr s p cause addr (Told.rfl' s)).thr
@[simp] theorem State.countErr_dbg (s : State) (p : Page) (cause : Byte) (addr : Word) : (State.countErr s p cause addr).dbg = s.dbg := (told_countErr s p cause addr (Told.rfl' s)).dbg
@[simp] theorem State.aerUncorrectable_pending (s : State) (fn : Fn) (bit : Nat) : (State.aerUncorrectable s fn bit).pending = s.pending := (told_aerUncorrectable s fn bit (Told.rfl' s)).pending
@[simp] theorem State.aerUncorrectable_now (s : State) (fn : Fn) (bit : Nat) : (State.aerUncorrectable s fn bit).now = s.now := (told_aerUncorrectable s fn bit (Told.rfl' s)).now
@[simp] theorem State.aerUncorrectable_freeCtr (s : State) (fn : Fn) (bit : Nat) : (State.aerUncorrectable s fn bit).freeCtr = s.freeCtr := (told_aerUncorrectable s fn bit (Told.rfl' s)).freeCtr
@[simp] theorem State.aerUncorrectable_aon (s : State) (fn : Fn) (bit : Nat) : (State.aerUncorrectable s fn bit).aon = s.aon := (told_aerUncorrectable s fn bit (Told.rfl' s)).aon
@[simp] theorem State.aerUncorrectable_nvm (s : State) (fn : Fn) (bit : Nat) : (State.aerUncorrectable s fn bit).nvm = s.nvm := (told_aerUncorrectable s fn bit (Told.rfl' s)).nvm
@[simp] theorem State.aerUncorrectable_regs (s : State) (fn : Fn) (bit : Nat) : (State.aerUncorrectable s fn bit).regs = s.regs := (told_aerUncorrectable s fn bit (Told.rfl' s)).regs
@[simp] theorem State.aerUncorrectable_pins (s : State) (fn : Fn) (bit : Nat) : (State.aerUncorrectable s fn bit).pins = s.pins := (told_aerUncorrectable s fn bit (Told.rfl' s)).pins
@[simp] theorem State.aerUncorrectable_dev (s : State) (fn : Fn) (bit : Nat) : (State.aerUncorrectable s fn bit).dev = s.dev := (told_aerUncorrectable s fn bit (Told.rfl' s)).dev
@[simp] theorem State.aerUncorrectable_clk (s : State) (fn : Fn) (bit : Nat) : (State.aerUncorrectable s fn bit).clk = s.clk := (told_aerUncorrectable s fn bit (Told.rfl' s)).clk
@[simp] theorem State.aerUncorrectable_pwr (s : State) (fn : Fn) (bit : Nat) : (State.aerUncorrectable s fn bit).pwr = s.pwr := (told_aerUncorrectable s fn bit (Told.rfl' s)).pwr
@[simp] theorem State.aerUncorrectable_boot (s : State) (fn : Fn) (bit : Nat) : (State.aerUncorrectable s fn bit).boot = s.boot := (told_aerUncorrectable s fn bit (Told.rfl' s)).boot
@[simp] theorem State.aerUncorrectable_upd (s : State) (fn : Fn) (bit : Nat) : (State.aerUncorrectable s fn bit).upd = s.upd := (told_aerUncorrectable s fn bit (Told.rfl' s)).upd
@[simp] theorem State.aerUncorrectable_troutes (s : State) (fn : Fn) (bit : Nat) : (State.aerUncorrectable s fn bit).troutes = s.troutes := (told_aerUncorrectable s fn bit (Told.rfl' s)).troutes
@[simp] theorem State.aerUncorrectable_hqm (s : State) (fn : Fn) (bit : Nat) : (State.aerUncorrectable s fn bit).hqm = s.hqm := (told_aerUncorrectable s fn bit (Told.rfl' s)).hqm
@[simp] theorem State.aerUncorrectable_own (s : State) (fn : Fn) (bit : Nat) : (State.aerUncorrectable s fn bit).own = s.own := (told_aerUncorrectable s fn bit (Told.rfl' s)).own
@[simp] theorem State.aerUncorrectable_ciph (s : State) (fn : Fn) (bit : Nat) : (State.aerUncorrectable s fn bit).ciph = s.ciph := (told_aerUncorrectable s fn bit (Told.rfl' s)).ciph
@[simp] theorem State.aerUncorrectable_sign (s : State) (fn : Fn) (bit : Nat) : (State.aerUncorrectable s fn bit).sign = s.sign := (told_aerUncorrectable s fn bit (Told.rfl' s)).sign
@[simp] theorem State.aerUncorrectable_chainU (s : State) (fn : Fn) (bit : Nat) : (State.aerUncorrectable s fn bit).chainU = s.chainU := (told_aerUncorrectable s fn bit (Told.rfl' s)).chainU
@[simp] theorem State.aerUncorrectable_med (s : State) (fn : Fn) (bit : Nat) : (State.aerUncorrectable s fn bit).med = s.med := (told_aerUncorrectable s fn bit (Told.rfl' s)).med
@[simp] theorem State.aerUncorrectable_dram (s : State) (fn : Fn) (bit : Nat) : (State.aerUncorrectable s fn bit).dram = s.dram := (told_aerUncorrectable s fn bit (Told.rfl' s)).dram
@[simp] theorem State.aerUncorrectable_sram (s : State) (fn : Fn) (bit : Nat) : (State.aerUncorrectable s fn bit).sram = s.sram := (told_aerUncorrectable s fn bit (Told.rfl' s)).sram
@[simp] theorem State.aerUncorrectable_bpm (s : State) (fn : Fn) (bit : Nat) : (State.aerUncorrectable s fn bit).bpm = s.bpm := (told_aerUncorrectable s fn bit (Told.rfl' s)).bpm
@[simp] theorem State.aerUncorrectable_squall (s : State) (fn : Fn) (bit : Nat) : (State.aerUncorrectable s fn bit).squall = s.squall := (told_aerUncorrectable s fn bit (Told.rfl' s)).squall
@[simp] theorem State.aerUncorrectable_evr (s : State) (fn : Fn) (bit : Nat) : (State.aerUncorrectable s fn bit).evr = s.evr := (told_aerUncorrectable s fn bit (Told.rfl' s)).evr
@[simp] theorem State.aerUncorrectable_mtr (s : State) (fn : Fn) (bit : Nat) : (State.aerUncorrectable s fn bit).mtr = s.mtr := (told_aerUncorrectable s fn bit (Told.rfl' s)).mtr
@[simp] theorem State.aerUncorrectable_disp (s : State) (fn : Fn) (bit : Nat) : (State.aerUncorrectable s fn bit).disp = s.disp := (told_aerUncorrectable s fn bit (Told.rfl' s)).disp
@[simp] theorem State.aerUncorrectable_qspi (s : State) (fn : Fn) (bit : Nat) : (State.aerUncorrectable s fn bit).qspi = s.qspi := (told_aerUncorrectable s fn bit (Told.rfl' s)).qspi
@[simp] theorem State.aerUncorrectable_spit (s : State) (fn : Fn) (bit : Nat) : (State.aerUncorrectable s fn bit).spit = s.spit := (told_aerUncorrectable s fn bit (Told.rfl' s)).spit
@[simp] theorem State.aerUncorrectable_i2ct (s : State) (fn : Fn) (bit : Nat) : (State.aerUncorrectable s fn bit).i2ct = s.i2ct := (told_aerUncorrectable s fn bit (Told.rfl' s)).i2ct
@[simp] theorem State.aerUncorrectable_i2ci (s : State) (fn : Fn) (bit : Nat) : (State.aerUncorrectable s fn bit).i2ci = s.i2ci := (told_aerUncorrectable s fn bit (Told.rfl' s)).i2ci
@[simp] theorem State.aerUncorrectable_gpio (s : State) (fn : Fn) (bit : Nat) : (State.aerUncorrectable s fn bit).gpio = s.gpio := (told_aerUncorrectable s fn bit (Told.rfl' s)).gpio
@[simp] theorem State.aerUncorrectable_vfl (s : State) (fn : Fn) (bit : Nat) : (State.aerUncorrectable s fn bit).vfl = s.vfl := (told_aerUncorrectable s fn bit (Told.rfl' s)).vfl
@[simp] theorem State.aerUncorrectable_vfr (s : State) (fn : Fn) (bit : Nat) : (State.aerUncorrectable s fn bit).vfr = s.vfr := (told_aerUncorrectable s fn bit (Told.rfl' s)).vfr
@[simp] theorem State.aerUncorrectable_mir (s : State) (fn : Fn) (bit : Nat) : (State.aerUncorrectable s fn bit).mir = s.mir := (told_aerUncorrectable s fn bit (Told.rfl' s)).mir
@[simp] theorem State.aerUncorrectable_hkp (s : State) (fn : Fn) (bit : Nat) : (State.aerUncorrectable s fn bit).hkp = s.hkp := (told_aerUncorrectable s fn bit (Told.rfl' s)).hkp
@[simp] theorem State.aerUncorrectable_thr (s : State) (fn : Fn) (bit : Nat) : (State.aerUncorrectable s fn bit).thr = s.thr := (told_aerUncorrectable s fn bit (Told.rfl' s)).thr
@[simp] theorem State.aerUncorrectable_dbg (s : State) (fn : Fn) (bit : Nat) : (State.aerUncorrectable s fn bit).dbg = s.dbg := (told_aerUncorrectable s fn bit (Told.rfl' s)).dbg
@[simp] theorem State.aerAdvisory_pending (s : State) (fn : Fn) (bit : Nat) : (State.aerAdvisory s fn bit).pending = s.pending := (told_aerAdvisory s fn bit (Told.rfl' s)).pending
@[simp] theorem State.aerAdvisory_now (s : State) (fn : Fn) (bit : Nat) : (State.aerAdvisory s fn bit).now = s.now := (told_aerAdvisory s fn bit (Told.rfl' s)).now
@[simp] theorem State.aerAdvisory_freeCtr (s : State) (fn : Fn) (bit : Nat) : (State.aerAdvisory s fn bit).freeCtr = s.freeCtr := (told_aerAdvisory s fn bit (Told.rfl' s)).freeCtr
@[simp] theorem State.aerAdvisory_aon (s : State) (fn : Fn) (bit : Nat) : (State.aerAdvisory s fn bit).aon = s.aon := (told_aerAdvisory s fn bit (Told.rfl' s)).aon
@[simp] theorem State.aerAdvisory_nvm (s : State) (fn : Fn) (bit : Nat) : (State.aerAdvisory s fn bit).nvm = s.nvm := (told_aerAdvisory s fn bit (Told.rfl' s)).nvm
@[simp] theorem State.aerAdvisory_regs (s : State) (fn : Fn) (bit : Nat) : (State.aerAdvisory s fn bit).regs = s.regs := (told_aerAdvisory s fn bit (Told.rfl' s)).regs
@[simp] theorem State.aerAdvisory_pins (s : State) (fn : Fn) (bit : Nat) : (State.aerAdvisory s fn bit).pins = s.pins := (told_aerAdvisory s fn bit (Told.rfl' s)).pins
@[simp] theorem State.aerAdvisory_dev (s : State) (fn : Fn) (bit : Nat) : (State.aerAdvisory s fn bit).dev = s.dev := (told_aerAdvisory s fn bit (Told.rfl' s)).dev
@[simp] theorem State.aerAdvisory_clk (s : State) (fn : Fn) (bit : Nat) : (State.aerAdvisory s fn bit).clk = s.clk := (told_aerAdvisory s fn bit (Told.rfl' s)).clk
@[simp] theorem State.aerAdvisory_pwr (s : State) (fn : Fn) (bit : Nat) : (State.aerAdvisory s fn bit).pwr = s.pwr := (told_aerAdvisory s fn bit (Told.rfl' s)).pwr
@[simp] theorem State.aerAdvisory_boot (s : State) (fn : Fn) (bit : Nat) : (State.aerAdvisory s fn bit).boot = s.boot := (told_aerAdvisory s fn bit (Told.rfl' s)).boot
@[simp] theorem State.aerAdvisory_upd (s : State) (fn : Fn) (bit : Nat) : (State.aerAdvisory s fn bit).upd = s.upd := (told_aerAdvisory s fn bit (Told.rfl' s)).upd
@[simp] theorem State.aerAdvisory_troutes (s : State) (fn : Fn) (bit : Nat) : (State.aerAdvisory s fn bit).troutes = s.troutes := (told_aerAdvisory s fn bit (Told.rfl' s)).troutes
@[simp] theorem State.aerAdvisory_hqm (s : State) (fn : Fn) (bit : Nat) : (State.aerAdvisory s fn bit).hqm = s.hqm := (told_aerAdvisory s fn bit (Told.rfl' s)).hqm
@[simp] theorem State.aerAdvisory_own (s : State) (fn : Fn) (bit : Nat) : (State.aerAdvisory s fn bit).own = s.own := (told_aerAdvisory s fn bit (Told.rfl' s)).own
@[simp] theorem State.aerAdvisory_ciph (s : State) (fn : Fn) (bit : Nat) : (State.aerAdvisory s fn bit).ciph = s.ciph := (told_aerAdvisory s fn bit (Told.rfl' s)).ciph
@[simp] theorem State.aerAdvisory_sign (s : State) (fn : Fn) (bit : Nat) : (State.aerAdvisory s fn bit).sign = s.sign := (told_aerAdvisory s fn bit (Told.rfl' s)).sign
@[simp] theorem State.aerAdvisory_chainU (s : State) (fn : Fn) (bit : Nat) : (State.aerAdvisory s fn bit).chainU = s.chainU := (told_aerAdvisory s fn bit (Told.rfl' s)).chainU
@[simp] theorem State.aerAdvisory_med (s : State) (fn : Fn) (bit : Nat) : (State.aerAdvisory s fn bit).med = s.med := (told_aerAdvisory s fn bit (Told.rfl' s)).med
@[simp] theorem State.aerAdvisory_dram (s : State) (fn : Fn) (bit : Nat) : (State.aerAdvisory s fn bit).dram = s.dram := (told_aerAdvisory s fn bit (Told.rfl' s)).dram
@[simp] theorem State.aerAdvisory_sram (s : State) (fn : Fn) (bit : Nat) : (State.aerAdvisory s fn bit).sram = s.sram := (told_aerAdvisory s fn bit (Told.rfl' s)).sram
@[simp] theorem State.aerAdvisory_bpm (s : State) (fn : Fn) (bit : Nat) : (State.aerAdvisory s fn bit).bpm = s.bpm := (told_aerAdvisory s fn bit (Told.rfl' s)).bpm
@[simp] theorem State.aerAdvisory_squall (s : State) (fn : Fn) (bit : Nat) : (State.aerAdvisory s fn bit).squall = s.squall := (told_aerAdvisory s fn bit (Told.rfl' s)).squall
@[simp] theorem State.aerAdvisory_evr (s : State) (fn : Fn) (bit : Nat) : (State.aerAdvisory s fn bit).evr = s.evr := (told_aerAdvisory s fn bit (Told.rfl' s)).evr
@[simp] theorem State.aerAdvisory_mtr (s : State) (fn : Fn) (bit : Nat) : (State.aerAdvisory s fn bit).mtr = s.mtr := (told_aerAdvisory s fn bit (Told.rfl' s)).mtr
@[simp] theorem State.aerAdvisory_disp (s : State) (fn : Fn) (bit : Nat) : (State.aerAdvisory s fn bit).disp = s.disp := (told_aerAdvisory s fn bit (Told.rfl' s)).disp
@[simp] theorem State.aerAdvisory_qspi (s : State) (fn : Fn) (bit : Nat) : (State.aerAdvisory s fn bit).qspi = s.qspi := (told_aerAdvisory s fn bit (Told.rfl' s)).qspi
@[simp] theorem State.aerAdvisory_spit (s : State) (fn : Fn) (bit : Nat) : (State.aerAdvisory s fn bit).spit = s.spit := (told_aerAdvisory s fn bit (Told.rfl' s)).spit
@[simp] theorem State.aerAdvisory_i2ct (s : State) (fn : Fn) (bit : Nat) : (State.aerAdvisory s fn bit).i2ct = s.i2ct := (told_aerAdvisory s fn bit (Told.rfl' s)).i2ct
@[simp] theorem State.aerAdvisory_i2ci (s : State) (fn : Fn) (bit : Nat) : (State.aerAdvisory s fn bit).i2ci = s.i2ci := (told_aerAdvisory s fn bit (Told.rfl' s)).i2ci
@[simp] theorem State.aerAdvisory_gpio (s : State) (fn : Fn) (bit : Nat) : (State.aerAdvisory s fn bit).gpio = s.gpio := (told_aerAdvisory s fn bit (Told.rfl' s)).gpio
@[simp] theorem State.aerAdvisory_vfl (s : State) (fn : Fn) (bit : Nat) : (State.aerAdvisory s fn bit).vfl = s.vfl := (told_aerAdvisory s fn bit (Told.rfl' s)).vfl
@[simp] theorem State.aerAdvisory_vfr (s : State) (fn : Fn) (bit : Nat) : (State.aerAdvisory s fn bit).vfr = s.vfr := (told_aerAdvisory s fn bit (Told.rfl' s)).vfr
@[simp] theorem State.aerAdvisory_mir (s : State) (fn : Fn) (bit : Nat) : (State.aerAdvisory s fn bit).mir = s.mir := (told_aerAdvisory s fn bit (Told.rfl' s)).mir
@[simp] theorem State.aerAdvisory_hkp (s : State) (fn : Fn) (bit : Nat) : (State.aerAdvisory s fn bit).hkp = s.hkp := (told_aerAdvisory s fn bit (Told.rfl' s)).hkp
@[simp] theorem State.aerAdvisory_thr (s : State) (fn : Fn) (bit : Nat) : (State.aerAdvisory s fn bit).thr = s.thr := (told_aerAdvisory s fn bit (Told.rfl' s)).thr
@[simp] theorem State.aerAdvisory_dbg (s : State) (fn : Fn) (bit : Nat) : (State.aerAdvisory s fn bit).dbg = s.dbg := (told_aerAdvisory s fn bit (Told.rfl' s)).dbg

/-! ## Event records -/

/-- What an event record may change besides. -/
structure Logged (s t : State) : Prop where
  pending : t.pending = s.pending
  now : t.now = s.now
  freeCtr : t.freeCtr = s.freeCtr
  regs : t.regs = s.regs
  pins : t.pins = s.pins
  dev : t.dev = s.dev
  clk : t.clk = s.clk
  pwr : t.pwr = s.pwr
  boot : t.boot = s.boot
  upd : t.upd = s.upd
  troutes : t.troutes = s.troutes
  hqm : t.hqm = s.hqm
  own : t.own = s.own
  ciph : t.ciph = s.ciph
  sign : t.sign = s.sign
  chainU : t.chainU = s.chainU
  med : t.med = s.med
  dram : t.dram = s.dram
  sram : t.sram = s.sram
  bpm : t.bpm = s.bpm
  squall : t.squall = s.squall
  mtr : t.mtr = s.mtr
  disp : t.disp = s.disp
  qspi : t.qspi = s.qspi
  spit : t.spit = s.spit
  i2ci : t.i2ci = s.i2ci
  gpio : t.gpio = s.gpio
  vfl : t.vfl = s.vfl
  vfr : t.vfr = s.vfr
  mir : t.mir = s.mir
  hkp : t.hkp = s.hkp
  thr : t.thr = s.thr
  dbg : t.dbg = s.dbg

theorem Logged.rfl' (s : State) : Logged s s := by constructor <;> rfl

theorem Logged.trans {s t u : State} (h : Logged s t) (g : Logged t u) : Logged s u := by
  constructor
  · exact g.pending.trans h.pending
  · exact g.now.trans h.now
  · exact g.freeCtr.trans h.freeCtr
  · exact g.regs.trans h.regs
  · exact g.pins.trans h.pins
  · exact g.dev.trans h.dev
  · exact g.clk.trans h.clk
  · exact g.pwr.trans h.pwr
  · exact g.boot.trans h.boot
  · exact g.upd.trans h.upd
  · exact g.troutes.trans h.troutes
  · exact g.hqm.trans h.hqm
  · exact g.own.trans h.own
  · exact g.ciph.trans h.ciph
  · exact g.sign.trans h.sign
  · exact g.chainU.trans h.chainU
  · exact g.med.trans h.med
  · exact g.dram.trans h.dram
  · exact g.sram.trans h.sram
  · exact g.bpm.trans h.bpm
  · exact g.squall.trans h.squall
  · exact g.mtr.trans h.mtr
  · exact g.disp.trans h.disp
  · exact g.qspi.trans h.qspi
  · exact g.spit.trans h.spit
  · exact g.i2ci.trans h.i2ci
  · exact g.gpio.trans h.gpio
  · exact g.vfl.trans h.vfl
  · exact g.vfr.trans h.vfr
  · exact g.mir.trans h.mir
  · exact g.hkp.trans h.hkp
  · exact g.thr.trans h.thr
  · exact g.dbg.trans h.dbg

theorem Logged.mk2 {s x : State} {outbox : List Output} {hdr : Vector PageHdr 128} {pcie : PcieS} {tnt : Vector Tenant 64} {aon : AonS} {nvm : Nvm} {evr : EvrS} {i2ct : I2ctS} :
    Logged s (State.mk x.pending x.now x.freeCtr outbox aon nvm hdr x.regs x.pins x.dev x.clk x.pwr x.boot x.upd pcie x.troutes tnt x.hqm x.own x.ciph x.sign x.chainU x.med x.dram x.sram x.bpm x.squall evr x.mtr x.disp x.qspi x.spit i2ct x.i2ci x.gpio x.vfl x.vfr x.mir x.hkp x.thr x.dbg) = Logged s x := by
  apply propext
  constructor
  · intro h
    exact h.trans (by constructor <;> rfl)
  · intro h
    exact h.trans (by constructor <;> rfl)

theorem Logged.foldl {α : Type} {s x : State} {f : State → α → State} {l : List α} (g : ∀ a b, Logged s a → Logged s (f a b))
    (h : Logged s x) : Logged s (l.foldl f x) := by
  induction l generalizing x with
  | nil => exact h
  | cons b r ih => exact ih (g x b h)


theorem Told.logged {s t : State} (h : Told s t) : Logged s t := by
  constructor
  · exact h.pending
  · exact h.now
  · exact h.freeCtr
  · exact h.regs
  · exact h.pins
  · exact h.dev
  · exact h.clk
  · exact h.pwr
  · exact h.boot
  · exact h.upd
  · exact h.troutes
  · exact h.hqm
  · exact h.own
  · exact h.ciph
  · exact h.sign
  · exact h.chainU
  · exact h.med
  · exact h.dram
  · exact h.sram
  · exact h.bpm
  · exact h.squall
  · exact h.mtr
  · exact h.disp
  · exact h.qspi
  · exact h.spit
  · exact h.i2ci
  · exact h.gpio
  · exact h.vfl
  · exact h.vfr
  · exact h.mir
  · exact h.hkp
  · exact h.thr
  · exact h.dbg

theorem logged_raise {s0 : State} (s : State) (p : Page) (b : Nat) (hk : Logged s0 s) : Logged s0 (State.raise s p b) :=
  hk.trans (told_raise s p b (Told.rfl' s)).logged

theorem logged_reserveSeq {s0 : State} (s : State) (hk : Logged s0 s) : Logged s0 (State.reserveSeq s) := by
  unfold State.reserveSeq
  try dsimp only
  repeat' (first | with_reducible assumption | simp only [Logged.mk2] | (intro _) | split)

theorem logged_countDropped {s0 : State} (s : State) (hk : Logged s0 s) : Logged s0 (State.countDropped s) := by
  unfold State.countDropped
  try dsimp only
  repeat' (first | with_reducible assumption | with_reducible apply logged_raise | simp only [Logged.mk2] | (intro _) | split)

theorem logged_bufferRec {s0 : State} (s : State) (r : EvRec) (hk : Logged s0 s) : Logged s0 (State.bufferRec s r) := by
  unfold State.bufferRec
  try dsimp only
  repeat' (first | with_reducible assumption | with_reducible apply logged_reserveSeq | with_reducible apply logged_countDropped | simp only [Logged.mk2] | (intro _) | split)

theorem logged_critical {s0 : State} (s : State) (code : Nat) (hk : Logged s0 s) : Logged s0 (State.critical s code) := by
  unfold State.critical
  try dsimp only
  repeat' (first | with_reducible assumption | with_reducible apply logged_raise | simp only [Logged.mk2] | (intro _) | split)

theorem logged_recordAs {s0 : State} (s : State) (rom : Bool) (code : Nat) (sev : Fin 4) (tenant : Byte) (detail : List Byte) (hk : Logged s0 s) : Logged s0 (State.recordAs s rom code sev tenant detail) := by
  unfold State.recordAs
  try dsimp only
  repeat' (first | with_reducible assumption | with_reducible apply logged_bufferRec | with_reducible apply logged_critical | simp only [Logged.mk2] | (intro _) | split)

theorem logged_record {s0 : State} (s : State) (code : Nat) (sev : Fin 4) (tenant : Byte) (detail : List Byte) (hk : Logged s0 s) : Logged s0 (State.record s code sev tenant detail) := by
  unfold State.record
  try dsimp only
  repeat' (first | with_reducible assumption | with_reducible apply logged_recordAs | simp only [Logged.mk2] | (intro _) | split)

theorem logged_raiseRec {s0 : State} (s : State) (p : Page) (b : Nat) (sev : Fin 4) (tenant : Byte) (detail : List Byte) (hk : Logged s0 s) : Logged s0 (State.raiseRec s p b sev tenant detail) := by
  unfold State.raiseRec
  try dsimp only
  repeat' (first | with_reducible assumption | with_reducible apply logged_raise | with_reducible apply logged_record | simp only [Logged.mk2] | (intro _) | split)

theorem logged_raiseRecStatus {s0 : State} (s : State) (p : Page) (b : Nat) (sev : Fin 4) (tenant : Byte) (hk : Logged s0 s) : Logged s0 (State.raiseRecStatus s p b sev tenant) := by
  unfold State.raiseRecStatus
  try dsimp only
  repeat' (first | with_reducible assumption | with_reducible apply logged_raise | with_reducible apply logged_record | simp only [Logged.mk2] | (intro _) | split)
@[simp] theorem State.reserveSeq_pending (s : State) : (State.reserveSeq s).pending = s.pending := (logged_reserveSeq s (Logged.rfl' s)).pending
@[simp] theorem State.reserveSeq_now (s : State) : (State.reserveSeq s).now = s.now := (logged_reserveSeq s (Logged.rfl' s)).now
@[simp] theorem State.reserveSeq_freeCtr (s : State) : (State.reserveSeq s).freeCtr = s.freeCtr := (logged_reserveSeq s (Logged.rfl' s)).freeCtr
@[simp] theorem State.reserveSeq_regs (s : State) : (State.reserveSeq s).regs = s.regs := (logged_reserveSeq s (Logged.rfl' s)).regs
@[simp] theorem State.reserveSeq_pins (s : State) : (State.reserveSeq s).pins = s.pins := (logged_reserveSeq s (Logged.rfl' s)).pins
@[simp] theorem State.reserveSeq_dev (s : State) : (State.reserveSeq s).dev = s.dev := (logged_reserveSeq s (Logged.rfl' s)).dev
@[simp] theorem State.reserveSeq_clk (s : State) : (State.reserveSeq s).clk = s.clk := (logged_reserveSeq s (Logged.rfl' s)).clk
@[simp] theorem State.reserveSeq_pwr (s : State) : (State.reserveSeq s).pwr = s.pwr := (logged_reserveSeq s (Logged.rfl' s)).pwr
@[simp] theorem State.reserveSeq_boot (s : State) : (State.reserveSeq s).boot = s.boot := (logged_reserveSeq s (Logged.rfl' s)).boot
@[simp] theorem State.reserveSeq_upd (s : State) : (State.reserveSeq s).upd = s.upd := (logged_reserveSeq s (Logged.rfl' s)).upd
@[simp] theorem State.reserveSeq_troutes (s : State) : (State.reserveSeq s).troutes = s.troutes := (logged_reserveSeq s (Logged.rfl' s)).troutes
@[simp] theorem State.reserveSeq_hqm (s : State) : (State.reserveSeq s).hqm = s.hqm := (logged_reserveSeq s (Logged.rfl' s)).hqm
@[simp] theorem State.reserveSeq_own (s : State) : (State.reserveSeq s).own = s.own := (logged_reserveSeq s (Logged.rfl' s)).own
@[simp] theorem State.reserveSeq_ciph (s : State) : (State.reserveSeq s).ciph = s.ciph := (logged_reserveSeq s (Logged.rfl' s)).ciph
@[simp] theorem State.reserveSeq_sign (s : State) : (State.reserveSeq s).sign = s.sign := (logged_reserveSeq s (Logged.rfl' s)).sign
@[simp] theorem State.reserveSeq_chainU (s : State) : (State.reserveSeq s).chainU = s.chainU := (logged_reserveSeq s (Logged.rfl' s)).chainU
@[simp] theorem State.reserveSeq_med (s : State) : (State.reserveSeq s).med = s.med := (logged_reserveSeq s (Logged.rfl' s)).med
@[simp] theorem State.reserveSeq_dram (s : State) : (State.reserveSeq s).dram = s.dram := (logged_reserveSeq s (Logged.rfl' s)).dram
@[simp] theorem State.reserveSeq_sram (s : State) : (State.reserveSeq s).sram = s.sram := (logged_reserveSeq s (Logged.rfl' s)).sram
@[simp] theorem State.reserveSeq_bpm (s : State) : (State.reserveSeq s).bpm = s.bpm := (logged_reserveSeq s (Logged.rfl' s)).bpm
@[simp] theorem State.reserveSeq_squall (s : State) : (State.reserveSeq s).squall = s.squall := (logged_reserveSeq s (Logged.rfl' s)).squall
@[simp] theorem State.reserveSeq_mtr (s : State) : (State.reserveSeq s).mtr = s.mtr := (logged_reserveSeq s (Logged.rfl' s)).mtr
@[simp] theorem State.reserveSeq_disp (s : State) : (State.reserveSeq s).disp = s.disp := (logged_reserveSeq s (Logged.rfl' s)).disp
@[simp] theorem State.reserveSeq_qspi (s : State) : (State.reserveSeq s).qspi = s.qspi := (logged_reserveSeq s (Logged.rfl' s)).qspi
@[simp] theorem State.reserveSeq_spit (s : State) : (State.reserveSeq s).spit = s.spit := (logged_reserveSeq s (Logged.rfl' s)).spit
@[simp] theorem State.reserveSeq_i2ci (s : State) : (State.reserveSeq s).i2ci = s.i2ci := (logged_reserveSeq s (Logged.rfl' s)).i2ci
@[simp] theorem State.reserveSeq_gpio (s : State) : (State.reserveSeq s).gpio = s.gpio := (logged_reserveSeq s (Logged.rfl' s)).gpio
@[simp] theorem State.reserveSeq_vfl (s : State) : (State.reserveSeq s).vfl = s.vfl := (logged_reserveSeq s (Logged.rfl' s)).vfl
@[simp] theorem State.reserveSeq_vfr (s : State) : (State.reserveSeq s).vfr = s.vfr := (logged_reserveSeq s (Logged.rfl' s)).vfr
@[simp] theorem State.reserveSeq_mir (s : State) : (State.reserveSeq s).mir = s.mir := (logged_reserveSeq s (Logged.rfl' s)).mir
@[simp] theorem State.reserveSeq_hkp (s : State) : (State.reserveSeq s).hkp = s.hkp := (logged_reserveSeq s (Logged.rfl' s)).hkp
@[simp] theorem State.reserveSeq_thr (s : State) : (State.reserveSeq s).thr = s.thr := (logged_reserveSeq s (Logged.rfl' s)).thr
@[simp] theorem State.reserveSeq_dbg (s : State) : (State.reserveSeq s).dbg = s.dbg := (logged_reserveSeq s (Logged.rfl' s)).dbg
@[simp] theorem State.countDropped_pending (s : State) : (State.countDropped s).pending = s.pending := (logged_countDropped s (Logged.rfl' s)).pending
@[simp] theorem State.countDropped_now (s : State) : (State.countDropped s).now = s.now := (logged_countDropped s (Logged.rfl' s)).now
@[simp] theorem State.countDropped_freeCtr (s : State) : (State.countDropped s).freeCtr = s.freeCtr := (logged_countDropped s (Logged.rfl' s)).freeCtr
@[simp] theorem State.countDropped_regs (s : State) : (State.countDropped s).regs = s.regs := (logged_countDropped s (Logged.rfl' s)).regs
@[simp] theorem State.countDropped_pins (s : State) : (State.countDropped s).pins = s.pins := (logged_countDropped s (Logged.rfl' s)).pins
@[simp] theorem State.countDropped_dev (s : State) : (State.countDropped s).dev = s.dev := (logged_countDropped s (Logged.rfl' s)).dev
@[simp] theorem State.countDropped_clk (s : State) : (State.countDropped s).clk = s.clk := (logged_countDropped s (Logged.rfl' s)).clk
@[simp] theorem State.countDropped_pwr (s : State) : (State.countDropped s).pwr = s.pwr := (logged_countDropped s (Logged.rfl' s)).pwr
@[simp] theorem State.countDropped_boot (s : State) : (State.countDropped s).boot = s.boot := (logged_countDropped s (Logged.rfl' s)).boot
@[simp] theorem State.countDropped_upd (s : State) : (State.countDropped s).upd = s.upd := (logged_countDropped s (Logged.rfl' s)).upd
@[simp] theorem State.countDropped_troutes (s : State) : (State.countDropped s).troutes = s.troutes := (logged_countDropped s (Logged.rfl' s)).troutes
@[simp] theorem State.countDropped_hqm (s : State) : (State.countDropped s).hqm = s.hqm := (logged_countDropped s (Logged.rfl' s)).hqm
@[simp] theorem State.countDropped_own (s : State) : (State.countDropped s).own = s.own := (logged_countDropped s (Logged.rfl' s)).own
@[simp] theorem State.countDropped_ciph (s : State) : (State.countDropped s).ciph = s.ciph := (logged_countDropped s (Logged.rfl' s)).ciph
@[simp] theorem State.countDropped_sign (s : State) : (State.countDropped s).sign = s.sign := (logged_countDropped s (Logged.rfl' s)).sign
@[simp] theorem State.countDropped_chainU (s : State) : (State.countDropped s).chainU = s.chainU := (logged_countDropped s (Logged.rfl' s)).chainU
@[simp] theorem State.countDropped_med (s : State) : (State.countDropped s).med = s.med := (logged_countDropped s (Logged.rfl' s)).med
@[simp] theorem State.countDropped_dram (s : State) : (State.countDropped s).dram = s.dram := (logged_countDropped s (Logged.rfl' s)).dram
@[simp] theorem State.countDropped_sram (s : State) : (State.countDropped s).sram = s.sram := (logged_countDropped s (Logged.rfl' s)).sram
@[simp] theorem State.countDropped_bpm (s : State) : (State.countDropped s).bpm = s.bpm := (logged_countDropped s (Logged.rfl' s)).bpm
@[simp] theorem State.countDropped_squall (s : State) : (State.countDropped s).squall = s.squall := (logged_countDropped s (Logged.rfl' s)).squall
@[simp] theorem State.countDropped_mtr (s : State) : (State.countDropped s).mtr = s.mtr := (logged_countDropped s (Logged.rfl' s)).mtr
@[simp] theorem State.countDropped_disp (s : State) : (State.countDropped s).disp = s.disp := (logged_countDropped s (Logged.rfl' s)).disp
@[simp] theorem State.countDropped_qspi (s : State) : (State.countDropped s).qspi = s.qspi := (logged_countDropped s (Logged.rfl' s)).qspi
@[simp] theorem State.countDropped_spit (s : State) : (State.countDropped s).spit = s.spit := (logged_countDropped s (Logged.rfl' s)).spit
@[simp] theorem State.countDropped_i2ci (s : State) : (State.countDropped s).i2ci = s.i2ci := (logged_countDropped s (Logged.rfl' s)).i2ci
@[simp] theorem State.countDropped_gpio (s : State) : (State.countDropped s).gpio = s.gpio := (logged_countDropped s (Logged.rfl' s)).gpio
@[simp] theorem State.countDropped_vfl (s : State) : (State.countDropped s).vfl = s.vfl := (logged_countDropped s (Logged.rfl' s)).vfl
@[simp] theorem State.countDropped_vfr (s : State) : (State.countDropped s).vfr = s.vfr := (logged_countDropped s (Logged.rfl' s)).vfr
@[simp] theorem State.countDropped_mir (s : State) : (State.countDropped s).mir = s.mir := (logged_countDropped s (Logged.rfl' s)).mir
@[simp] theorem State.countDropped_hkp (s : State) : (State.countDropped s).hkp = s.hkp := (logged_countDropped s (Logged.rfl' s)).hkp
@[simp] theorem State.countDropped_thr (s : State) : (State.countDropped s).thr = s.thr := (logged_countDropped s (Logged.rfl' s)).thr
@[simp] theorem State.countDropped_dbg (s : State) : (State.countDropped s).dbg = s.dbg := (logged_countDropped s (Logged.rfl' s)).dbg
@[simp] theorem State.bufferRec_pending (s : State) (r : EvRec) : (State.bufferRec s r).pending = s.pending := (logged_bufferRec s r (Logged.rfl' s)).pending
@[simp] theorem State.bufferRec_now (s : State) (r : EvRec) : (State.bufferRec s r).now = s.now := (logged_bufferRec s r (Logged.rfl' s)).now
@[simp] theorem State.bufferRec_freeCtr (s : State) (r : EvRec) : (State.bufferRec s r).freeCtr = s.freeCtr := (logged_bufferRec s r (Logged.rfl' s)).freeCtr
@[simp] theorem State.bufferRec_regs (s : State) (r : EvRec) : (State.bufferRec s r).regs = s.regs := (logged_bufferRec s r (Logged.rfl' s)).regs
@[simp] theorem State.bufferRec_pins (s : State) (r : EvRec) : (State.bufferRec s r).pins = s.pins := (logged_bufferRec s r (Logged.rfl' s)).pins
@[simp] theorem State.bufferRec_dev (s : State) (r : EvRec) : (State.bufferRec s r).dev = s.dev := (logged_bufferRec s r (Logged.rfl' s)).dev
@[simp] theorem State.bufferRec_clk (s : State) (r : EvRec) : (State.bufferRec s r).clk = s.clk := (logged_bufferRec s r (Logged.rfl' s)).clk
@[simp] theorem State.bufferRec_pwr (s : State) (r : EvRec) : (State.bufferRec s r).pwr = s.pwr := (logged_bufferRec s r (Logged.rfl' s)).pwr
@[simp] theorem State.bufferRec_boot (s : State) (r : EvRec) : (State.bufferRec s r).boot = s.boot := (logged_bufferRec s r (Logged.rfl' s)).boot
@[simp] theorem State.bufferRec_upd (s : State) (r : EvRec) : (State.bufferRec s r).upd = s.upd := (logged_bufferRec s r (Logged.rfl' s)).upd
@[simp] theorem State.bufferRec_troutes (s : State) (r : EvRec) : (State.bufferRec s r).troutes = s.troutes := (logged_bufferRec s r (Logged.rfl' s)).troutes
@[simp] theorem State.bufferRec_hqm (s : State) (r : EvRec) : (State.bufferRec s r).hqm = s.hqm := (logged_bufferRec s r (Logged.rfl' s)).hqm
@[simp] theorem State.bufferRec_own (s : State) (r : EvRec) : (State.bufferRec s r).own = s.own := (logged_bufferRec s r (Logged.rfl' s)).own
@[simp] theorem State.bufferRec_ciph (s : State) (r : EvRec) : (State.bufferRec s r).ciph = s.ciph := (logged_bufferRec s r (Logged.rfl' s)).ciph
@[simp] theorem State.bufferRec_sign (s : State) (r : EvRec) : (State.bufferRec s r).sign = s.sign := (logged_bufferRec s r (Logged.rfl' s)).sign
@[simp] theorem State.bufferRec_chainU (s : State) (r : EvRec) : (State.bufferRec s r).chainU = s.chainU := (logged_bufferRec s r (Logged.rfl' s)).chainU
@[simp] theorem State.bufferRec_med (s : State) (r : EvRec) : (State.bufferRec s r).med = s.med := (logged_bufferRec s r (Logged.rfl' s)).med
@[simp] theorem State.bufferRec_dram (s : State) (r : EvRec) : (State.bufferRec s r).dram = s.dram := (logged_bufferRec s r (Logged.rfl' s)).dram
@[simp] theorem State.bufferRec_sram (s : State) (r : EvRec) : (State.bufferRec s r).sram = s.sram := (logged_bufferRec s r (Logged.rfl' s)).sram
@[simp] theorem State.bufferRec_bpm (s : State) (r : EvRec) : (State.bufferRec s r).bpm = s.bpm := (logged_bufferRec s r (Logged.rfl' s)).bpm
@[simp] theorem State.bufferRec_squall (s : State) (r : EvRec) : (State.bufferRec s r).squall = s.squall := (logged_bufferRec s r (Logged.rfl' s)).squall
@[simp] theorem State.bufferRec_mtr (s : State) (r : EvRec) : (State.bufferRec s r).mtr = s.mtr := (logged_bufferRec s r (Logged.rfl' s)).mtr
@[simp] theorem State.bufferRec_disp (s : State) (r : EvRec) : (State.bufferRec s r).disp = s.disp := (logged_bufferRec s r (Logged.rfl' s)).disp
@[simp] theorem State.bufferRec_qspi (s : State) (r : EvRec) : (State.bufferRec s r).qspi = s.qspi := (logged_bufferRec s r (Logged.rfl' s)).qspi
@[simp] theorem State.bufferRec_spit (s : State) (r : EvRec) : (State.bufferRec s r).spit = s.spit := (logged_bufferRec s r (Logged.rfl' s)).spit
@[simp] theorem State.bufferRec_i2ci (s : State) (r : EvRec) : (State.bufferRec s r).i2ci = s.i2ci := (logged_bufferRec s r (Logged.rfl' s)).i2ci
@[simp] theorem State.bufferRec_gpio (s : State) (r : EvRec) : (State.bufferRec s r).gpio = s.gpio := (logged_bufferRec s r (Logged.rfl' s)).gpio
@[simp] theorem State.bufferRec_vfl (s : State) (r : EvRec) : (State.bufferRec s r).vfl = s.vfl := (logged_bufferRec s r (Logged.rfl' s)).vfl
@[simp] theorem State.bufferRec_vfr (s : State) (r : EvRec) : (State.bufferRec s r).vfr = s.vfr := (logged_bufferRec s r (Logged.rfl' s)).vfr
@[simp] theorem State.bufferRec_mir (s : State) (r : EvRec) : (State.bufferRec s r).mir = s.mir := (logged_bufferRec s r (Logged.rfl' s)).mir
@[simp] theorem State.bufferRec_hkp (s : State) (r : EvRec) : (State.bufferRec s r).hkp = s.hkp := (logged_bufferRec s r (Logged.rfl' s)).hkp
@[simp] theorem State.bufferRec_thr (s : State) (r : EvRec) : (State.bufferRec s r).thr = s.thr := (logged_bufferRec s r (Logged.rfl' s)).thr
@[simp] theorem State.bufferRec_dbg (s : State) (r : EvRec) : (State.bufferRec s r).dbg = s.dbg := (logged_bufferRec s r (Logged.rfl' s)).dbg
@[simp] theorem State.critical_pending (s : State) (code : Nat) : (State.critical s code).pending = s.pending := (logged_critical s code (Logged.rfl' s)).pending
@[simp] theorem State.critical_now (s : State) (code : Nat) : (State.critical s code).now = s.now := (logged_critical s code (Logged.rfl' s)).now
@[simp] theorem State.critical_freeCtr (s : State) (code : Nat) : (State.critical s code).freeCtr = s.freeCtr := (logged_critical s code (Logged.rfl' s)).freeCtr
@[simp] theorem State.critical_regs (s : State) (code : Nat) : (State.critical s code).regs = s.regs := (logged_critical s code (Logged.rfl' s)).regs
@[simp] theorem State.critical_pins (s : State) (code : Nat) : (State.critical s code).pins = s.pins := (logged_critical s code (Logged.rfl' s)).pins
@[simp] theorem State.critical_dev (s : State) (code : Nat) : (State.critical s code).dev = s.dev := (logged_critical s code (Logged.rfl' s)).dev
@[simp] theorem State.critical_clk (s : State) (code : Nat) : (State.critical s code).clk = s.clk := (logged_critical s code (Logged.rfl' s)).clk
@[simp] theorem State.critical_pwr (s : State) (code : Nat) : (State.critical s code).pwr = s.pwr := (logged_critical s code (Logged.rfl' s)).pwr
@[simp] theorem State.critical_boot (s : State) (code : Nat) : (State.critical s code).boot = s.boot := (logged_critical s code (Logged.rfl' s)).boot
@[simp] theorem State.critical_upd (s : State) (code : Nat) : (State.critical s code).upd = s.upd := (logged_critical s code (Logged.rfl' s)).upd
@[simp] theorem State.critical_troutes (s : State) (code : Nat) : (State.critical s code).troutes = s.troutes := (logged_critical s code (Logged.rfl' s)).troutes
@[simp] theorem State.critical_hqm (s : State) (code : Nat) : (State.critical s code).hqm = s.hqm := (logged_critical s code (Logged.rfl' s)).hqm
@[simp] theorem State.critical_own (s : State) (code : Nat) : (State.critical s code).own = s.own := (logged_critical s code (Logged.rfl' s)).own
@[simp] theorem State.critical_ciph (s : State) (code : Nat) : (State.critical s code).ciph = s.ciph := (logged_critical s code (Logged.rfl' s)).ciph
@[simp] theorem State.critical_sign (s : State) (code : Nat) : (State.critical s code).sign = s.sign := (logged_critical s code (Logged.rfl' s)).sign
@[simp] theorem State.critical_chainU (s : State) (code : Nat) : (State.critical s code).chainU = s.chainU := (logged_critical s code (Logged.rfl' s)).chainU
@[simp] theorem State.critical_med (s : State) (code : Nat) : (State.critical s code).med = s.med := (logged_critical s code (Logged.rfl' s)).med
@[simp] theorem State.critical_dram (s : State) (code : Nat) : (State.critical s code).dram = s.dram := (logged_critical s code (Logged.rfl' s)).dram
@[simp] theorem State.critical_sram (s : State) (code : Nat) : (State.critical s code).sram = s.sram := (logged_critical s code (Logged.rfl' s)).sram
@[simp] theorem State.critical_bpm (s : State) (code : Nat) : (State.critical s code).bpm = s.bpm := (logged_critical s code (Logged.rfl' s)).bpm
@[simp] theorem State.critical_squall (s : State) (code : Nat) : (State.critical s code).squall = s.squall := (logged_critical s code (Logged.rfl' s)).squall
@[simp] theorem State.critical_mtr (s : State) (code : Nat) : (State.critical s code).mtr = s.mtr := (logged_critical s code (Logged.rfl' s)).mtr
@[simp] theorem State.critical_disp (s : State) (code : Nat) : (State.critical s code).disp = s.disp := (logged_critical s code (Logged.rfl' s)).disp
@[simp] theorem State.critical_qspi (s : State) (code : Nat) : (State.critical s code).qspi = s.qspi := (logged_critical s code (Logged.rfl' s)).qspi
@[simp] theorem State.critical_spit (s : State) (code : Nat) : (State.critical s code).spit = s.spit := (logged_critical s code (Logged.rfl' s)).spit
@[simp] theorem State.critical_i2ci (s : State) (code : Nat) : (State.critical s code).i2ci = s.i2ci := (logged_critical s code (Logged.rfl' s)).i2ci
@[simp] theorem State.critical_gpio (s : State) (code : Nat) : (State.critical s code).gpio = s.gpio := (logged_critical s code (Logged.rfl' s)).gpio
@[simp] theorem State.critical_vfl (s : State) (code : Nat) : (State.critical s code).vfl = s.vfl := (logged_critical s code (Logged.rfl' s)).vfl
@[simp] theorem State.critical_vfr (s : State) (code : Nat) : (State.critical s code).vfr = s.vfr := (logged_critical s code (Logged.rfl' s)).vfr
@[simp] theorem State.critical_mir (s : State) (code : Nat) : (State.critical s code).mir = s.mir := (logged_critical s code (Logged.rfl' s)).mir
@[simp] theorem State.critical_hkp (s : State) (code : Nat) : (State.critical s code).hkp = s.hkp := (logged_critical s code (Logged.rfl' s)).hkp
@[simp] theorem State.critical_thr (s : State) (code : Nat) : (State.critical s code).thr = s.thr := (logged_critical s code (Logged.rfl' s)).thr
@[simp] theorem State.critical_dbg (s : State) (code : Nat) : (State.critical s code).dbg = s.dbg := (logged_critical s code (Logged.rfl' s)).dbg
@[simp] theorem State.recordAs_pending (s : State) (rom : Bool) (code : Nat) (sev : Fin 4) (tenant : Byte) (detail : List Byte) : (State.recordAs s rom code sev tenant detail).pending = s.pending := (logged_recordAs s rom code sev tenant detail (Logged.rfl' s)).pending
@[simp] theorem State.recordAs_now (s : State) (rom : Bool) (code : Nat) (sev : Fin 4) (tenant : Byte) (detail : List Byte) : (State.recordAs s rom code sev tenant detail).now = s.now := (logged_recordAs s rom code sev tenant detail (Logged.rfl' s)).now
@[simp] theorem State.recordAs_freeCtr (s : State) (rom : Bool) (code : Nat) (sev : Fin 4) (tenant : Byte) (detail : List Byte) : (State.recordAs s rom code sev tenant detail).freeCtr = s.freeCtr := (logged_recordAs s rom code sev tenant detail (Logged.rfl' s)).freeCtr
@[simp] theorem State.recordAs_regs (s : State) (rom : Bool) (code : Nat) (sev : Fin 4) (tenant : Byte) (detail : List Byte) : (State.recordAs s rom code sev tenant detail).regs = s.regs := (logged_recordAs s rom code sev tenant detail (Logged.rfl' s)).regs
@[simp] theorem State.recordAs_pins (s : State) (rom : Bool) (code : Nat) (sev : Fin 4) (tenant : Byte) (detail : List Byte) : (State.recordAs s rom code sev tenant detail).pins = s.pins := (logged_recordAs s rom code sev tenant detail (Logged.rfl' s)).pins
@[simp] theorem State.recordAs_dev (s : State) (rom : Bool) (code : Nat) (sev : Fin 4) (tenant : Byte) (detail : List Byte) : (State.recordAs s rom code sev tenant detail).dev = s.dev := (logged_recordAs s rom code sev tenant detail (Logged.rfl' s)).dev
@[simp] theorem State.recordAs_clk (s : State) (rom : Bool) (code : Nat) (sev : Fin 4) (tenant : Byte) (detail : List Byte) : (State.recordAs s rom code sev tenant detail).clk = s.clk := (logged_recordAs s rom code sev tenant detail (Logged.rfl' s)).clk
@[simp] theorem State.recordAs_pwr (s : State) (rom : Bool) (code : Nat) (sev : Fin 4) (tenant : Byte) (detail : List Byte) : (State.recordAs s rom code sev tenant detail).pwr = s.pwr := (logged_recordAs s rom code sev tenant detail (Logged.rfl' s)).pwr
@[simp] theorem State.recordAs_boot (s : State) (rom : Bool) (code : Nat) (sev : Fin 4) (tenant : Byte) (detail : List Byte) : (State.recordAs s rom code sev tenant detail).boot = s.boot := (logged_recordAs s rom code sev tenant detail (Logged.rfl' s)).boot
@[simp] theorem State.recordAs_upd (s : State) (rom : Bool) (code : Nat) (sev : Fin 4) (tenant : Byte) (detail : List Byte) : (State.recordAs s rom code sev tenant detail).upd = s.upd := (logged_recordAs s rom code sev tenant detail (Logged.rfl' s)).upd
@[simp] theorem State.recordAs_troutes (s : State) (rom : Bool) (code : Nat) (sev : Fin 4) (tenant : Byte) (detail : List Byte) : (State.recordAs s rom code sev tenant detail).troutes = s.troutes := (logged_recordAs s rom code sev tenant detail (Logged.rfl' s)).troutes
@[simp] theorem State.recordAs_hqm (s : State) (rom : Bool) (code : Nat) (sev : Fin 4) (tenant : Byte) (detail : List Byte) : (State.recordAs s rom code sev tenant detail).hqm = s.hqm := (logged_recordAs s rom code sev tenant detail (Logged.rfl' s)).hqm
@[simp] theorem State.recordAs_own (s : State) (rom : Bool) (code : Nat) (sev : Fin 4) (tenant : Byte) (detail : List Byte) : (State.recordAs s rom code sev tenant detail).own = s.own := (logged_recordAs s rom code sev tenant detail (Logged.rfl' s)).own
@[simp] theorem State.recordAs_ciph (s : State) (rom : Bool) (code : Nat) (sev : Fin 4) (tenant : Byte) (detail : List Byte) : (State.recordAs s rom code sev tenant detail).ciph = s.ciph := (logged_recordAs s rom code sev tenant detail (Logged.rfl' s)).ciph
@[simp] theorem State.recordAs_sign (s : State) (rom : Bool) (code : Nat) (sev : Fin 4) (tenant : Byte) (detail : List Byte) : (State.recordAs s rom code sev tenant detail).sign = s.sign := (logged_recordAs s rom code sev tenant detail (Logged.rfl' s)).sign
@[simp] theorem State.recordAs_chainU (s : State) (rom : Bool) (code : Nat) (sev : Fin 4) (tenant : Byte) (detail : List Byte) : (State.recordAs s rom code sev tenant detail).chainU = s.chainU := (logged_recordAs s rom code sev tenant detail (Logged.rfl' s)).chainU
@[simp] theorem State.recordAs_med (s : State) (rom : Bool) (code : Nat) (sev : Fin 4) (tenant : Byte) (detail : List Byte) : (State.recordAs s rom code sev tenant detail).med = s.med := (logged_recordAs s rom code sev tenant detail (Logged.rfl' s)).med
@[simp] theorem State.recordAs_dram (s : State) (rom : Bool) (code : Nat) (sev : Fin 4) (tenant : Byte) (detail : List Byte) : (State.recordAs s rom code sev tenant detail).dram = s.dram := (logged_recordAs s rom code sev tenant detail (Logged.rfl' s)).dram
@[simp] theorem State.recordAs_sram (s : State) (rom : Bool) (code : Nat) (sev : Fin 4) (tenant : Byte) (detail : List Byte) : (State.recordAs s rom code sev tenant detail).sram = s.sram := (logged_recordAs s rom code sev tenant detail (Logged.rfl' s)).sram
@[simp] theorem State.recordAs_bpm (s : State) (rom : Bool) (code : Nat) (sev : Fin 4) (tenant : Byte) (detail : List Byte) : (State.recordAs s rom code sev tenant detail).bpm = s.bpm := (logged_recordAs s rom code sev tenant detail (Logged.rfl' s)).bpm
@[simp] theorem State.recordAs_squall (s : State) (rom : Bool) (code : Nat) (sev : Fin 4) (tenant : Byte) (detail : List Byte) : (State.recordAs s rom code sev tenant detail).squall = s.squall := (logged_recordAs s rom code sev tenant detail (Logged.rfl' s)).squall
@[simp] theorem State.recordAs_mtr (s : State) (rom : Bool) (code : Nat) (sev : Fin 4) (tenant : Byte) (detail : List Byte) : (State.recordAs s rom code sev tenant detail).mtr = s.mtr := (logged_recordAs s rom code sev tenant detail (Logged.rfl' s)).mtr
@[simp] theorem State.recordAs_disp (s : State) (rom : Bool) (code : Nat) (sev : Fin 4) (tenant : Byte) (detail : List Byte) : (State.recordAs s rom code sev tenant detail).disp = s.disp := (logged_recordAs s rom code sev tenant detail (Logged.rfl' s)).disp
@[simp] theorem State.recordAs_qspi (s : State) (rom : Bool) (code : Nat) (sev : Fin 4) (tenant : Byte) (detail : List Byte) : (State.recordAs s rom code sev tenant detail).qspi = s.qspi := (logged_recordAs s rom code sev tenant detail (Logged.rfl' s)).qspi
@[simp] theorem State.recordAs_spit (s : State) (rom : Bool) (code : Nat) (sev : Fin 4) (tenant : Byte) (detail : List Byte) : (State.recordAs s rom code sev tenant detail).spit = s.spit := (logged_recordAs s rom code sev tenant detail (Logged.rfl' s)).spit
@[simp] theorem State.recordAs_i2ci (s : State) (rom : Bool) (code : Nat) (sev : Fin 4) (tenant : Byte) (detail : List Byte) : (State.recordAs s rom code sev tenant detail).i2ci = s.i2ci := (logged_recordAs s rom code sev tenant detail (Logged.rfl' s)).i2ci
@[simp] theorem State.recordAs_gpio (s : State) (rom : Bool) (code : Nat) (sev : Fin 4) (tenant : Byte) (detail : List Byte) : (State.recordAs s rom code sev tenant detail).gpio = s.gpio := (logged_recordAs s rom code sev tenant detail (Logged.rfl' s)).gpio
@[simp] theorem State.recordAs_vfl (s : State) (rom : Bool) (code : Nat) (sev : Fin 4) (tenant : Byte) (detail : List Byte) : (State.recordAs s rom code sev tenant detail).vfl = s.vfl := (logged_recordAs s rom code sev tenant detail (Logged.rfl' s)).vfl
@[simp] theorem State.recordAs_vfr (s : State) (rom : Bool) (code : Nat) (sev : Fin 4) (tenant : Byte) (detail : List Byte) : (State.recordAs s rom code sev tenant detail).vfr = s.vfr := (logged_recordAs s rom code sev tenant detail (Logged.rfl' s)).vfr
@[simp] theorem State.recordAs_mir (s : State) (rom : Bool) (code : Nat) (sev : Fin 4) (tenant : Byte) (detail : List Byte) : (State.recordAs s rom code sev tenant detail).mir = s.mir := (logged_recordAs s rom code sev tenant detail (Logged.rfl' s)).mir
@[simp] theorem State.recordAs_hkp (s : State) (rom : Bool) (code : Nat) (sev : Fin 4) (tenant : Byte) (detail : List Byte) : (State.recordAs s rom code sev tenant detail).hkp = s.hkp := (logged_recordAs s rom code sev tenant detail (Logged.rfl' s)).hkp
@[simp] theorem State.recordAs_thr (s : State) (rom : Bool) (code : Nat) (sev : Fin 4) (tenant : Byte) (detail : List Byte) : (State.recordAs s rom code sev tenant detail).thr = s.thr := (logged_recordAs s rom code sev tenant detail (Logged.rfl' s)).thr
@[simp] theorem State.recordAs_dbg (s : State) (rom : Bool) (code : Nat) (sev : Fin 4) (tenant : Byte) (detail : List Byte) : (State.recordAs s rom code sev tenant detail).dbg = s.dbg := (logged_recordAs s rom code sev tenant detail (Logged.rfl' s)).dbg
@[simp] theorem State.record_pending (s : State) (code : Nat) (sev : Fin 4) (tenant : Byte) (detail : List Byte) : (State.record s code sev tenant detail).pending = s.pending := (logged_record s code sev tenant detail (Logged.rfl' s)).pending
@[simp] theorem State.record_now (s : State) (code : Nat) (sev : Fin 4) (tenant : Byte) (detail : List Byte) : (State.record s code sev tenant detail).now = s.now := (logged_record s code sev tenant detail (Logged.rfl' s)).now
@[simp] theorem State.record_freeCtr (s : State) (code : Nat) (sev : Fin 4) (tenant : Byte) (detail : List Byte) : (State.record s code sev tenant detail).freeCtr = s.freeCtr := (logged_record s code sev tenant detail (Logged.rfl' s)).freeCtr
@[simp] theorem State.record_regs (s : State) (code : Nat) (sev : Fin 4) (tenant : Byte) (detail : List Byte) : (State.record s code sev tenant detail).regs = s.regs := (logged_record s code sev tenant detail (Logged.rfl' s)).regs
@[simp] theorem State.record_pins (s : State) (code : Nat) (sev : Fin 4) (tenant : Byte) (detail : List Byte) : (State.record s code sev tenant detail).pins = s.pins := (logged_record s code sev tenant detail (Logged.rfl' s)).pins
@[simp] theorem State.record_dev (s : State) (code : Nat) (sev : Fin 4) (tenant : Byte) (detail : List Byte) : (State.record s code sev tenant detail).dev = s.dev := (logged_record s code sev tenant detail (Logged.rfl' s)).dev
@[simp] theorem State.record_clk (s : State) (code : Nat) (sev : Fin 4) (tenant : Byte) (detail : List Byte) : (State.record s code sev tenant detail).clk = s.clk := (logged_record s code sev tenant detail (Logged.rfl' s)).clk
@[simp] theorem State.record_pwr (s : State) (code : Nat) (sev : Fin 4) (tenant : Byte) (detail : List Byte) : (State.record s code sev tenant detail).pwr = s.pwr := (logged_record s code sev tenant detail (Logged.rfl' s)).pwr
@[simp] theorem State.record_boot (s : State) (code : Nat) (sev : Fin 4) (tenant : Byte) (detail : List Byte) : (State.record s code sev tenant detail).boot = s.boot := (logged_record s code sev tenant detail (Logged.rfl' s)).boot
@[simp] theorem State.record_upd (s : State) (code : Nat) (sev : Fin 4) (tenant : Byte) (detail : List Byte) : (State.record s code sev tenant detail).upd = s.upd := (logged_record s code sev tenant detail (Logged.rfl' s)).upd
@[simp] theorem State.record_troutes (s : State) (code : Nat) (sev : Fin 4) (tenant : Byte) (detail : List Byte) : (State.record s code sev tenant detail).troutes = s.troutes := (logged_record s code sev tenant detail (Logged.rfl' s)).troutes
@[simp] theorem State.record_hqm (s : State) (code : Nat) (sev : Fin 4) (tenant : Byte) (detail : List Byte) : (State.record s code sev tenant detail).hqm = s.hqm := (logged_record s code sev tenant detail (Logged.rfl' s)).hqm
@[simp] theorem State.record_own (s : State) (code : Nat) (sev : Fin 4) (tenant : Byte) (detail : List Byte) : (State.record s code sev tenant detail).own = s.own := (logged_record s code sev tenant detail (Logged.rfl' s)).own
@[simp] theorem State.record_ciph (s : State) (code : Nat) (sev : Fin 4) (tenant : Byte) (detail : List Byte) : (State.record s code sev tenant detail).ciph = s.ciph := (logged_record s code sev tenant detail (Logged.rfl' s)).ciph
@[simp] theorem State.record_sign (s : State) (code : Nat) (sev : Fin 4) (tenant : Byte) (detail : List Byte) : (State.record s code sev tenant detail).sign = s.sign := (logged_record s code sev tenant detail (Logged.rfl' s)).sign
@[simp] theorem State.record_chainU (s : State) (code : Nat) (sev : Fin 4) (tenant : Byte) (detail : List Byte) : (State.record s code sev tenant detail).chainU = s.chainU := (logged_record s code sev tenant detail (Logged.rfl' s)).chainU
@[simp] theorem State.record_med (s : State) (code : Nat) (sev : Fin 4) (tenant : Byte) (detail : List Byte) : (State.record s code sev tenant detail).med = s.med := (logged_record s code sev tenant detail (Logged.rfl' s)).med
@[simp] theorem State.record_dram (s : State) (code : Nat) (sev : Fin 4) (tenant : Byte) (detail : List Byte) : (State.record s code sev tenant detail).dram = s.dram := (logged_record s code sev tenant detail (Logged.rfl' s)).dram
@[simp] theorem State.record_sram (s : State) (code : Nat) (sev : Fin 4) (tenant : Byte) (detail : List Byte) : (State.record s code sev tenant detail).sram = s.sram := (logged_record s code sev tenant detail (Logged.rfl' s)).sram
@[simp] theorem State.record_bpm (s : State) (code : Nat) (sev : Fin 4) (tenant : Byte) (detail : List Byte) : (State.record s code sev tenant detail).bpm = s.bpm := (logged_record s code sev tenant detail (Logged.rfl' s)).bpm
@[simp] theorem State.record_squall (s : State) (code : Nat) (sev : Fin 4) (tenant : Byte) (detail : List Byte) : (State.record s code sev tenant detail).squall = s.squall := (logged_record s code sev tenant detail (Logged.rfl' s)).squall
@[simp] theorem State.record_mtr (s : State) (code : Nat) (sev : Fin 4) (tenant : Byte) (detail : List Byte) : (State.record s code sev tenant detail).mtr = s.mtr := (logged_record s code sev tenant detail (Logged.rfl' s)).mtr
@[simp] theorem State.record_disp (s : State) (code : Nat) (sev : Fin 4) (tenant : Byte) (detail : List Byte) : (State.record s code sev tenant detail).disp = s.disp := (logged_record s code sev tenant detail (Logged.rfl' s)).disp
@[simp] theorem State.record_qspi (s : State) (code : Nat) (sev : Fin 4) (tenant : Byte) (detail : List Byte) : (State.record s code sev tenant detail).qspi = s.qspi := (logged_record s code sev tenant detail (Logged.rfl' s)).qspi
@[simp] theorem State.record_spit (s : State) (code : Nat) (sev : Fin 4) (tenant : Byte) (detail : List Byte) : (State.record s code sev tenant detail).spit = s.spit := (logged_record s code sev tenant detail (Logged.rfl' s)).spit
@[simp] theorem State.record_i2ci (s : State) (code : Nat) (sev : Fin 4) (tenant : Byte) (detail : List Byte) : (State.record s code sev tenant detail).i2ci = s.i2ci := (logged_record s code sev tenant detail (Logged.rfl' s)).i2ci
@[simp] theorem State.record_gpio (s : State) (code : Nat) (sev : Fin 4) (tenant : Byte) (detail : List Byte) : (State.record s code sev tenant detail).gpio = s.gpio := (logged_record s code sev tenant detail (Logged.rfl' s)).gpio
@[simp] theorem State.record_vfl (s : State) (code : Nat) (sev : Fin 4) (tenant : Byte) (detail : List Byte) : (State.record s code sev tenant detail).vfl = s.vfl := (logged_record s code sev tenant detail (Logged.rfl' s)).vfl
@[simp] theorem State.record_vfr (s : State) (code : Nat) (sev : Fin 4) (tenant : Byte) (detail : List Byte) : (State.record s code sev tenant detail).vfr = s.vfr := (logged_record s code sev tenant detail (Logged.rfl' s)).vfr
@[simp] theorem State.record_mir (s : State) (code : Nat) (sev : Fin 4) (tenant : Byte) (detail : List Byte) : (State.record s code sev tenant detail).mir = s.mir := (logged_record s code sev tenant detail (Logged.rfl' s)).mir
@[simp] theorem State.record_hkp (s : State) (code : Nat) (sev : Fin 4) (tenant : Byte) (detail : List Byte) : (State.record s code sev tenant detail).hkp = s.hkp := (logged_record s code sev tenant detail (Logged.rfl' s)).hkp
@[simp] theorem State.record_thr (s : State) (code : Nat) (sev : Fin 4) (tenant : Byte) (detail : List Byte) : (State.record s code sev tenant detail).thr = s.thr := (logged_record s code sev tenant detail (Logged.rfl' s)).thr
@[simp] theorem State.record_dbg (s : State) (code : Nat) (sev : Fin 4) (tenant : Byte) (detail : List Byte) : (State.record s code sev tenant detail).dbg = s.dbg := (logged_record s code sev tenant detail (Logged.rfl' s)).dbg
@[simp] theorem State.raiseRec_pending (s : State) (p : Page) (b : Nat) (sev : Fin 4) (tenant : Byte) (detail : List Byte) : (State.raiseRec s p b sev tenant detail).pending = s.pending := (logged_raiseRec s p b sev tenant detail (Logged.rfl' s)).pending
@[simp] theorem State.raiseRec_now (s : State) (p : Page) (b : Nat) (sev : Fin 4) (tenant : Byte) (detail : List Byte) : (State.raiseRec s p b sev tenant detail).now = s.now := (logged_raiseRec s p b sev tenant detail (Logged.rfl' s)).now
@[simp] theorem State.raiseRec_freeCtr (s : State) (p : Page) (b : Nat) (sev : Fin 4) (tenant : Byte) (detail : List Byte) : (State.raiseRec s p b sev tenant detail).freeCtr = s.freeCtr := (logged_raiseRec s p b sev tenant detail (Logged.rfl' s)).freeCtr
@[simp] theorem State.raiseRec_regs (s : State) (p : Page) (b : Nat) (sev : Fin 4) (tenant : Byte) (detail : List Byte) : (State.raiseRec s p b sev tenant detail).regs = s.regs := (logged_raiseRec s p b sev tenant detail (Logged.rfl' s)).regs
@[simp] theorem State.raiseRec_pins (s : State) (p : Page) (b : Nat) (sev : Fin 4) (tenant : Byte) (detail : List Byte) : (State.raiseRec s p b sev tenant detail).pins = s.pins := (logged_raiseRec s p b sev tenant detail (Logged.rfl' s)).pins
@[simp] theorem State.raiseRec_dev (s : State) (p : Page) (b : Nat) (sev : Fin 4) (tenant : Byte) (detail : List Byte) : (State.raiseRec s p b sev tenant detail).dev = s.dev := (logged_raiseRec s p b sev tenant detail (Logged.rfl' s)).dev
@[simp] theorem State.raiseRec_clk (s : State) (p : Page) (b : Nat) (sev : Fin 4) (tenant : Byte) (detail : List Byte) : (State.raiseRec s p b sev tenant detail).clk = s.clk := (logged_raiseRec s p b sev tenant detail (Logged.rfl' s)).clk
@[simp] theorem State.raiseRec_pwr (s : State) (p : Page) (b : Nat) (sev : Fin 4) (tenant : Byte) (detail : List Byte) : (State.raiseRec s p b sev tenant detail).pwr = s.pwr := (logged_raiseRec s p b sev tenant detail (Logged.rfl' s)).pwr
@[simp] theorem State.raiseRec_boot (s : State) (p : Page) (b : Nat) (sev : Fin 4) (tenant : Byte) (detail : List Byte) : (State.raiseRec s p b sev tenant detail).boot = s.boot := (logged_raiseRec s p b sev tenant detail (Logged.rfl' s)).boot
@[simp] theorem State.raiseRec_upd (s : State) (p : Page) (b : Nat) (sev : Fin 4) (tenant : Byte) (detail : List Byte) : (State.raiseRec s p b sev tenant detail).upd = s.upd := (logged_raiseRec s p b sev tenant detail (Logged.rfl' s)).upd
@[simp] theorem State.raiseRec_troutes (s : State) (p : Page) (b : Nat) (sev : Fin 4) (tenant : Byte) (detail : List Byte) : (State.raiseRec s p b sev tenant detail).troutes = s.troutes := (logged_raiseRec s p b sev tenant detail (Logged.rfl' s)).troutes
@[simp] theorem State.raiseRec_hqm (s : State) (p : Page) (b : Nat) (sev : Fin 4) (tenant : Byte) (detail : List Byte) : (State.raiseRec s p b sev tenant detail).hqm = s.hqm := (logged_raiseRec s p b sev tenant detail (Logged.rfl' s)).hqm
@[simp] theorem State.raiseRec_own (s : State) (p : Page) (b : Nat) (sev : Fin 4) (tenant : Byte) (detail : List Byte) : (State.raiseRec s p b sev tenant detail).own = s.own := (logged_raiseRec s p b sev tenant detail (Logged.rfl' s)).own
@[simp] theorem State.raiseRec_ciph (s : State) (p : Page) (b : Nat) (sev : Fin 4) (tenant : Byte) (detail : List Byte) : (State.raiseRec s p b sev tenant detail).ciph = s.ciph := (logged_raiseRec s p b sev tenant detail (Logged.rfl' s)).ciph
@[simp] theorem State.raiseRec_sign (s : State) (p : Page) (b : Nat) (sev : Fin 4) (tenant : Byte) (detail : List Byte) : (State.raiseRec s p b sev tenant detail).sign = s.sign := (logged_raiseRec s p b sev tenant detail (Logged.rfl' s)).sign
@[simp] theorem State.raiseRec_chainU (s : State) (p : Page) (b : Nat) (sev : Fin 4) (tenant : Byte) (detail : List Byte) : (State.raiseRec s p b sev tenant detail).chainU = s.chainU := (logged_raiseRec s p b sev tenant detail (Logged.rfl' s)).chainU
@[simp] theorem State.raiseRec_med (s : State) (p : Page) (b : Nat) (sev : Fin 4) (tenant : Byte) (detail : List Byte) : (State.raiseRec s p b sev tenant detail).med = s.med := (logged_raiseRec s p b sev tenant detail (Logged.rfl' s)).med
@[simp] theorem State.raiseRec_dram (s : State) (p : Page) (b : Nat) (sev : Fin 4) (tenant : Byte) (detail : List Byte) : (State.raiseRec s p b sev tenant detail).dram = s.dram := (logged_raiseRec s p b sev tenant detail (Logged.rfl' s)).dram
@[simp] theorem State.raiseRec_sram (s : State) (p : Page) (b : Nat) (sev : Fin 4) (tenant : Byte) (detail : List Byte) : (State.raiseRec s p b sev tenant detail).sram = s.sram := (logged_raiseRec s p b sev tenant detail (Logged.rfl' s)).sram
@[simp] theorem State.raiseRec_bpm (s : State) (p : Page) (b : Nat) (sev : Fin 4) (tenant : Byte) (detail : List Byte) : (State.raiseRec s p b sev tenant detail).bpm = s.bpm := (logged_raiseRec s p b sev tenant detail (Logged.rfl' s)).bpm
@[simp] theorem State.raiseRec_squall (s : State) (p : Page) (b : Nat) (sev : Fin 4) (tenant : Byte) (detail : List Byte) : (State.raiseRec s p b sev tenant detail).squall = s.squall := (logged_raiseRec s p b sev tenant detail (Logged.rfl' s)).squall
@[simp] theorem State.raiseRec_mtr (s : State) (p : Page) (b : Nat) (sev : Fin 4) (tenant : Byte) (detail : List Byte) : (State.raiseRec s p b sev tenant detail).mtr = s.mtr := (logged_raiseRec s p b sev tenant detail (Logged.rfl' s)).mtr
@[simp] theorem State.raiseRec_disp (s : State) (p : Page) (b : Nat) (sev : Fin 4) (tenant : Byte) (detail : List Byte) : (State.raiseRec s p b sev tenant detail).disp = s.disp := (logged_raiseRec s p b sev tenant detail (Logged.rfl' s)).disp
@[simp] theorem State.raiseRec_qspi (s : State) (p : Page) (b : Nat) (sev : Fin 4) (tenant : Byte) (detail : List Byte) : (State.raiseRec s p b sev tenant detail).qspi = s.qspi := (logged_raiseRec s p b sev tenant detail (Logged.rfl' s)).qspi
@[simp] theorem State.raiseRec_spit (s : State) (p : Page) (b : Nat) (sev : Fin 4) (tenant : Byte) (detail : List Byte) : (State.raiseRec s p b sev tenant detail).spit = s.spit := (logged_raiseRec s p b sev tenant detail (Logged.rfl' s)).spit
@[simp] theorem State.raiseRec_i2ci (s : State) (p : Page) (b : Nat) (sev : Fin 4) (tenant : Byte) (detail : List Byte) : (State.raiseRec s p b sev tenant detail).i2ci = s.i2ci := (logged_raiseRec s p b sev tenant detail (Logged.rfl' s)).i2ci
@[simp] theorem State.raiseRec_gpio (s : State) (p : Page) (b : Nat) (sev : Fin 4) (tenant : Byte) (detail : List Byte) : (State.raiseRec s p b sev tenant detail).gpio = s.gpio := (logged_raiseRec s p b sev tenant detail (Logged.rfl' s)).gpio
@[simp] theorem State.raiseRec_vfl (s : State) (p : Page) (b : Nat) (sev : Fin 4) (tenant : Byte) (detail : List Byte) : (State.raiseRec s p b sev tenant detail).vfl = s.vfl := (logged_raiseRec s p b sev tenant detail (Logged.rfl' s)).vfl
@[simp] theorem State.raiseRec_vfr (s : State) (p : Page) (b : Nat) (sev : Fin 4) (tenant : Byte) (detail : List Byte) : (State.raiseRec s p b sev tenant detail).vfr = s.vfr := (logged_raiseRec s p b sev tenant detail (Logged.rfl' s)).vfr
@[simp] theorem State.raiseRec_mir (s : State) (p : Page) (b : Nat) (sev : Fin 4) (tenant : Byte) (detail : List Byte) : (State.raiseRec s p b sev tenant detail).mir = s.mir := (logged_raiseRec s p b sev tenant detail (Logged.rfl' s)).mir
@[simp] theorem State.raiseRec_hkp (s : State) (p : Page) (b : Nat) (sev : Fin 4) (tenant : Byte) (detail : List Byte) : (State.raiseRec s p b sev tenant detail).hkp = s.hkp := (logged_raiseRec s p b sev tenant detail (Logged.rfl' s)).hkp
@[simp] theorem State.raiseRec_thr (s : State) (p : Page) (b : Nat) (sev : Fin 4) (tenant : Byte) (detail : List Byte) : (State.raiseRec s p b sev tenant detail).thr = s.thr := (logged_raiseRec s p b sev tenant detail (Logged.rfl' s)).thr
@[simp] theorem State.raiseRec_dbg (s : State) (p : Page) (b : Nat) (sev : Fin 4) (tenant : Byte) (detail : List Byte) : (State.raiseRec s p b sev tenant detail).dbg = s.dbg := (logged_raiseRec s p b sev tenant detail (Logged.rfl' s)).dbg
@[simp] theorem State.raiseRecStatus_pending (s : State) (p : Page) (b : Nat) (sev : Fin 4) (tenant : Byte) : (State.raiseRecStatus s p b sev tenant).pending = s.pending := (logged_raiseRecStatus s p b sev tenant (Logged.rfl' s)).pending
@[simp] theorem State.raiseRecStatus_now (s : State) (p : Page) (b : Nat) (sev : Fin 4) (tenant : Byte) : (State.raiseRecStatus s p b sev tenant).now = s.now := (logged_raiseRecStatus s p b sev tenant (Logged.rfl' s)).now
@[simp] theorem State.raiseRecStatus_freeCtr (s : State) (p : Page) (b : Nat) (sev : Fin 4) (tenant : Byte) : (State.raiseRecStatus s p b sev tenant).freeCtr = s.freeCtr := (logged_raiseRecStatus s p b sev tenant (Logged.rfl' s)).freeCtr
@[simp] theorem State.raiseRecStatus_regs (s : State) (p : Page) (b : Nat) (sev : Fin 4) (tenant : Byte) : (State.raiseRecStatus s p b sev tenant).regs = s.regs := (logged_raiseRecStatus s p b sev tenant (Logged.rfl' s)).regs
@[simp] theorem State.raiseRecStatus_pins (s : State) (p : Page) (b : Nat) (sev : Fin 4) (tenant : Byte) : (State.raiseRecStatus s p b sev tenant).pins = s.pins := (logged_raiseRecStatus s p b sev tenant (Logged.rfl' s)).pins
@[simp] theorem State.raiseRecStatus_dev (s : State) (p : Page) (b : Nat) (sev : Fin 4) (tenant : Byte) : (State.raiseRecStatus s p b sev tenant).dev = s.dev := (logged_raiseRecStatus s p b sev tenant (Logged.rfl' s)).dev
@[simp] theorem State.raiseRecStatus_clk (s : State) (p : Page) (b : Nat) (sev : Fin 4) (tenant : Byte) : (State.raiseRecStatus s p b sev tenant).clk = s.clk := (logged_raiseRecStatus s p b sev tenant (Logged.rfl' s)).clk
@[simp] theorem State.raiseRecStatus_pwr (s : State) (p : Page) (b : Nat) (sev : Fin 4) (tenant : Byte) : (State.raiseRecStatus s p b sev tenant).pwr = s.pwr := (logged_raiseRecStatus s p b sev tenant (Logged.rfl' s)).pwr
@[simp] theorem State.raiseRecStatus_boot (s : State) (p : Page) (b : Nat) (sev : Fin 4) (tenant : Byte) : (State.raiseRecStatus s p b sev tenant).boot = s.boot := (logged_raiseRecStatus s p b sev tenant (Logged.rfl' s)).boot
@[simp] theorem State.raiseRecStatus_upd (s : State) (p : Page) (b : Nat) (sev : Fin 4) (tenant : Byte) : (State.raiseRecStatus s p b sev tenant).upd = s.upd := (logged_raiseRecStatus s p b sev tenant (Logged.rfl' s)).upd
@[simp] theorem State.raiseRecStatus_troutes (s : State) (p : Page) (b : Nat) (sev : Fin 4) (tenant : Byte) : (State.raiseRecStatus s p b sev tenant).troutes = s.troutes := (logged_raiseRecStatus s p b sev tenant (Logged.rfl' s)).troutes
@[simp] theorem State.raiseRecStatus_hqm (s : State) (p : Page) (b : Nat) (sev : Fin 4) (tenant : Byte) : (State.raiseRecStatus s p b sev tenant).hqm = s.hqm := (logged_raiseRecStatus s p b sev tenant (Logged.rfl' s)).hqm
@[simp] theorem State.raiseRecStatus_own (s : State) (p : Page) (b : Nat) (sev : Fin 4) (tenant : Byte) : (State.raiseRecStatus s p b sev tenant).own = s.own := (logged_raiseRecStatus s p b sev tenant (Logged.rfl' s)).own
@[simp] theorem State.raiseRecStatus_ciph (s : State) (p : Page) (b : Nat) (sev : Fin 4) (tenant : Byte) : (State.raiseRecStatus s p b sev tenant).ciph = s.ciph := (logged_raiseRecStatus s p b sev tenant (Logged.rfl' s)).ciph
@[simp] theorem State.raiseRecStatus_sign (s : State) (p : Page) (b : Nat) (sev : Fin 4) (tenant : Byte) : (State.raiseRecStatus s p b sev tenant).sign = s.sign := (logged_raiseRecStatus s p b sev tenant (Logged.rfl' s)).sign
@[simp] theorem State.raiseRecStatus_chainU (s : State) (p : Page) (b : Nat) (sev : Fin 4) (tenant : Byte) : (State.raiseRecStatus s p b sev tenant).chainU = s.chainU := (logged_raiseRecStatus s p b sev tenant (Logged.rfl' s)).chainU
@[simp] theorem State.raiseRecStatus_med (s : State) (p : Page) (b : Nat) (sev : Fin 4) (tenant : Byte) : (State.raiseRecStatus s p b sev tenant).med = s.med := (logged_raiseRecStatus s p b sev tenant (Logged.rfl' s)).med
@[simp] theorem State.raiseRecStatus_dram (s : State) (p : Page) (b : Nat) (sev : Fin 4) (tenant : Byte) : (State.raiseRecStatus s p b sev tenant).dram = s.dram := (logged_raiseRecStatus s p b sev tenant (Logged.rfl' s)).dram
@[simp] theorem State.raiseRecStatus_sram (s : State) (p : Page) (b : Nat) (sev : Fin 4) (tenant : Byte) : (State.raiseRecStatus s p b sev tenant).sram = s.sram := (logged_raiseRecStatus s p b sev tenant (Logged.rfl' s)).sram
@[simp] theorem State.raiseRecStatus_bpm (s : State) (p : Page) (b : Nat) (sev : Fin 4) (tenant : Byte) : (State.raiseRecStatus s p b sev tenant).bpm = s.bpm := (logged_raiseRecStatus s p b sev tenant (Logged.rfl' s)).bpm
@[simp] theorem State.raiseRecStatus_squall (s : State) (p : Page) (b : Nat) (sev : Fin 4) (tenant : Byte) : (State.raiseRecStatus s p b sev tenant).squall = s.squall := (logged_raiseRecStatus s p b sev tenant (Logged.rfl' s)).squall
@[simp] theorem State.raiseRecStatus_mtr (s : State) (p : Page) (b : Nat) (sev : Fin 4) (tenant : Byte) : (State.raiseRecStatus s p b sev tenant).mtr = s.mtr := (logged_raiseRecStatus s p b sev tenant (Logged.rfl' s)).mtr
@[simp] theorem State.raiseRecStatus_disp (s : State) (p : Page) (b : Nat) (sev : Fin 4) (tenant : Byte) : (State.raiseRecStatus s p b sev tenant).disp = s.disp := (logged_raiseRecStatus s p b sev tenant (Logged.rfl' s)).disp
@[simp] theorem State.raiseRecStatus_qspi (s : State) (p : Page) (b : Nat) (sev : Fin 4) (tenant : Byte) : (State.raiseRecStatus s p b sev tenant).qspi = s.qspi := (logged_raiseRecStatus s p b sev tenant (Logged.rfl' s)).qspi
@[simp] theorem State.raiseRecStatus_spit (s : State) (p : Page) (b : Nat) (sev : Fin 4) (tenant : Byte) : (State.raiseRecStatus s p b sev tenant).spit = s.spit := (logged_raiseRecStatus s p b sev tenant (Logged.rfl' s)).spit
@[simp] theorem State.raiseRecStatus_i2ci (s : State) (p : Page) (b : Nat) (sev : Fin 4) (tenant : Byte) : (State.raiseRecStatus s p b sev tenant).i2ci = s.i2ci := (logged_raiseRecStatus s p b sev tenant (Logged.rfl' s)).i2ci
@[simp] theorem State.raiseRecStatus_gpio (s : State) (p : Page) (b : Nat) (sev : Fin 4) (tenant : Byte) : (State.raiseRecStatus s p b sev tenant).gpio = s.gpio := (logged_raiseRecStatus s p b sev tenant (Logged.rfl' s)).gpio
@[simp] theorem State.raiseRecStatus_vfl (s : State) (p : Page) (b : Nat) (sev : Fin 4) (tenant : Byte) : (State.raiseRecStatus s p b sev tenant).vfl = s.vfl := (logged_raiseRecStatus s p b sev tenant (Logged.rfl' s)).vfl
@[simp] theorem State.raiseRecStatus_vfr (s : State) (p : Page) (b : Nat) (sev : Fin 4) (tenant : Byte) : (State.raiseRecStatus s p b sev tenant).vfr = s.vfr := (logged_raiseRecStatus s p b sev tenant (Logged.rfl' s)).vfr
@[simp] theorem State.raiseRecStatus_mir (s : State) (p : Page) (b : Nat) (sev : Fin 4) (tenant : Byte) : (State.raiseRecStatus s p b sev tenant).mir = s.mir := (logged_raiseRecStatus s p b sev tenant (Logged.rfl' s)).mir
@[simp] theorem State.raiseRecStatus_hkp (s : State) (p : Page) (b : Nat) (sev : Fin 4) (tenant : Byte) : (State.raiseRecStatus s p b sev tenant).hkp = s.hkp := (logged_raiseRecStatus s p b sev tenant (Logged.rfl' s)).hkp
@[simp] theorem State.raiseRecStatus_thr (s : State) (p : Page) (b : Nat) (sev : Fin 4) (tenant : Byte) : (State.raiseRecStatus s p b sev tenant).thr = s.thr := (logged_raiseRecStatus s p b sev tenant (Logged.rfl' s)).thr
@[simp] theorem State.raiseRecStatus_dbg (s : State) (p : Page) (b : Nat) (sev : Fin 4) (tenant : Byte) : (State.raiseRecStatus s p b sev tenant).dbg = s.dbg := (logged_raiseRecStatus s p b sev tenant (Logged.rfl' s)).dbg

/-! ## Packets -/

/-- What sending on a link may change. -/
structure Sent (s t : State) : Prop where
  pending : t.pending = s.pending
  now : t.now = s.now
  freeCtr : t.freeCtr = s.freeCtr
  aon : t.aon = s.aon
  nvm : t.nvm = s.nvm
  regs : t.regs = s.regs
  pins : t.pins = s.pins
  dev : t.dev = s.dev
  clk : t.clk = s.clk
  pwr : t.pwr = s.pwr
  boot : t.boot = s.boot
  upd : t.upd = s.upd
  troutes : t.troutes = s.troutes
  hqm : t.hqm = s.hqm
  own : t.own = s.own
  ciph : t.ciph = s.ciph
  sign : t.sign = s.sign
  chainU : t.chainU = s.chainU
  med : t.med = s.med
  dram : t.dram = s.dram
  sram : t.sram = s.sram
  bpm : t.bpm = s.bpm
  squall : t.squall = s.squall
  evr : t.evr = s.evr
  mtr : t.mtr = s.mtr
  disp : t.disp = s.disp
  qspi : t.qspi = s.qspi
  spit : t.spit = s.spit
  i2ct : t.i2ct = s.i2ct
  i2ci : t.i2ci = s.i2ci
  gpio : t.gpio = s.gpio
  vfr : t.vfr = s.vfr
  mir : t.mir = s.mir
  hkp : t.hkp = s.hkp
  thr : t.thr = s.thr
  dbg : t.dbg = s.dbg

theorem Sent.rfl' (s : State) : Sent s s := by constructor <;> rfl

theorem Sent.trans {s t u : State} (h : Sent s t) (g : Sent t u) : Sent s u := by
  constructor
  · exact g.pending.trans h.pending
  · exact g.now.trans h.now
  · exact g.freeCtr.trans h.freeCtr
  · exact g.aon.trans h.aon
  · exact g.nvm.trans h.nvm
  · exact g.regs.trans h.regs
  · exact g.pins.trans h.pins
  · exact g.dev.trans h.dev
  · exact g.clk.trans h.clk
  · exact g.pwr.trans h.pwr
  · exact g.boot.trans h.boot
  · exact g.upd.trans h.upd
  · exact g.troutes.trans h.troutes
  · exact g.hqm.trans h.hqm
  · exact g.own.trans h.own
  · exact g.ciph.trans h.ciph
  · exact g.sign.trans h.sign
  · exact g.chainU.trans h.chainU
  · exact g.med.trans h.med
  · exact g.dram.trans h.dram
  · exact g.sram.trans h.sram
  · exact g.bpm.trans h.bpm
  · exact g.squall.trans h.squall
  · exact g.evr.trans h.evr
  · exact g.mtr.trans h.mtr
  · exact g.disp.trans h.disp
  · exact g.qspi.trans h.qspi
  · exact g.spit.trans h.spit
  · exact g.i2ct.trans h.i2ct
  · exact g.i2ci.trans h.i2ci
  · exact g.gpio.trans h.gpio
  · exact g.vfr.trans h.vfr
  · exact g.mir.trans h.mir
  · exact g.hkp.trans h.hkp
  · exact g.thr.trans h.thr
  · exact g.dbg.trans h.dbg

theorem Sent.mk2 {s x : State} {outbox : List Output} {hdr : Vector PageHdr 128} {pcie : PcieS} {tnt : Vector Tenant 64} {vfl : Vector VflS 4} :
    Sent s (State.mk x.pending x.now x.freeCtr outbox x.aon x.nvm hdr x.regs x.pins x.dev x.clk x.pwr x.boot x.upd pcie x.troutes tnt x.hqm x.own x.ciph x.sign x.chainU x.med x.dram x.sram x.bpm x.squall x.evr x.mtr x.disp x.qspi x.spit x.i2ct x.i2ci x.gpio vfl x.vfr x.mir x.hkp x.thr x.dbg) = Sent s x := by
  apply propext
  constructor
  · intro h
    exact h.trans (by constructor <;> rfl)
  · intro h
    exact h.trans (by constructor <;> rfl)

theorem Sent.foldl {α : Type} {s x : State} {f : State → α → State} {l : List α} (g : ∀ a b, Sent s a → Sent s (f a b))
    (h : Sent s x) : Sent s (l.foldl f x) := by
  induction l generalizing x with
  | nil => exact h
  | cons b r ih => exact ih (g x b h)


theorem Told.sent {s t : State} (h : Told s t) : Sent s t := by
  constructor
  · exact h.pending
  · exact h.now
  · exact h.freeCtr
  · exact h.aon
  · exact h.nvm
  · exact h.regs
  · exact h.pins
  · exact h.dev
  · exact h.clk
  · exact h.pwr
  · exact h.boot
  · exact h.upd
  · exact h.troutes
  · exact h.hqm
  · exact h.own
  · exact h.ciph
  · exact h.sign
  · exact h.chainU
  · exact h.med
  · exact h.dram
  · exact h.sram
  · exact h.bpm
  · exact h.squall
  · exact h.evr
  · exact h.mtr
  · exact h.disp
  · exact h.qspi
  · exact h.spit
  · exact h.i2ct
  · exact h.i2ci
  · exact h.gpio
  · exact h.vfr
  · exact h.mir
  · exact h.hkp
  · exact h.thr
  · exact h.dbg

theorem sent_raise {s0 : State} (s : State) (p : Page) (b : Nat) (hk : Sent s0 s) : Sent s0 (State.raise s p b) :=
  hk.trans (told_raise s p b (Told.rfl' s)).sent

theorem sent_emit {s0 : State} (s : State) (o : Output) (hk : Sent s0 s) : Sent s0 (State.emit s o) :=
  hk.trans (told_emit s o (Told.rfl' s)).sent

theorem sent_updVfl {s0 : State} (s : State) (p : Fin 4) (f : VflS → VflS) (hk : Sent s0 s) : Sent s0 (State.updVfl s p f) := by
  unfold State.updVfl
  try dsimp only
  repeat' (first | with_reducible assumption | simp only [Sent.mk2] | (intro _) | split)

theorem sent_sendOne {s0 t : State} (s : State) (port : Fin 4) (e : State.sendOne s port = some t) (hk : Sent s0 s) : Sent s0 t := by
  unfold State.sendOne at e
  split at e
  · cases e
  · cases e
    exact sent_emit _ _ (sent_updVfl _ _ _ hk)

theorem sent_drainPort {s0 : State} (s : State) (port : Fin 4) (n : Nat) (hk : Sent s0 s) : Sent s0 (State.drainPort s port n) := by
  induction n generalizing s with
  | zero => exact hk
  | succ k ih =>
    unfold State.drainPort
    split
    · rename_i s1 e
      exact ih s1 (sent_sendOne s port e hk)
    · exact hk

theorem sent_sendOn {s0 : State} (s : State) (port : Fin 4) (p : OutPkt) (hk : Sent s0 s) : Sent s0 (State.sendOn s port p) := by
  unfold State.sendOn
  try dsimp only
  repeat' (first | with_reducible assumption | with_reducible apply sent_updVfl | with_reducible apply sent_drainPort | simp only [Sent.mk2] | (intro _) | split)

theorem sent_sendPkt {s0 : State} (s : State) (p : OutPkt) (hk : Sent s0 s) : Sent s0 (State.sendPkt s p) := by
  unfold State.sendPkt
  try dsimp only
  repeat' (first | with_reducible assumption | with_reducible apply sent_sendOn | simp only [Sent.mk2] | (intro _) | split)

theorem sent_sendLong {s0 : State} (s : State) (p : OutPkt) (hk : Sent s0 s) : Sent s0 (State.sendLong s p) := by
  unfold State.sendLong
  try dsimp only
  repeat' (first | with_reducible assumption | with_reducible apply sent_sendPkt | with_reducible apply Sent.foldl | simp only [Sent.mk2] | (intro _) | split)

theorem sent_mirSend {s0 : State} (s : State) (type : Byte) (vc : Fin 3) (t : Tid) (payload : List Byte) (hk : Sent s0 s) : Sent s0 (State.mirSend s type vc t payload) := by
  unfold State.mirSend
  try dsimp only
  repeat' (first | with_reducible assumption | with_reducible apply sent_sendLong | simp only [Sent.mk2] | (intro _) | split)
@[simp] theorem State.sendOn_pending (s : State) (port : Fin 4) (p : OutPkt) : (State.sendOn s port p).pending = s.pending := (sent_sendOn s port p (Sent.rfl' s)).pending
@[simp] theorem State.sendOn_now (s : State) (port : Fin 4) (p : OutPkt) : (State.sendOn s port p).now = s.now := (sent_sendOn s port p (Sent.rfl' s)).now
@[simp] theorem State.sendOn_freeCtr (s : State) (port : Fin 4) (p : OutPkt) : (State.sendOn s port p).freeCtr = s.freeCtr := (sent_sendOn s port p (Sent.rfl' s)).freeCtr
@[simp] theorem State.sendOn_aon (s : State) (port : Fin 4) (p : OutPkt) : (State.sendOn s port p).aon = s.aon := (sent_sendOn s port p (Sent.rfl' s)).aon
@[simp] theorem State.sendOn_nvm (s : State) (port : Fin 4) (p : OutPkt) : (State.sendOn s port p).nvm = s.nvm := (sent_sendOn s port p (Sent.rfl' s)).nvm
@[simp] theorem State.sendOn_regs (s : State) (port : Fin 4) (p : OutPkt) : (State.sendOn s port p).regs = s.regs := (sent_sendOn s port p (Sent.rfl' s)).regs
@[simp] theorem State.sendOn_pins (s : State) (port : Fin 4) (p : OutPkt) : (State.sendOn s port p).pins = s.pins := (sent_sendOn s port p (Sent.rfl' s)).pins
@[simp] theorem State.sendOn_dev (s : State) (port : Fin 4) (p : OutPkt) : (State.sendOn s port p).dev = s.dev := (sent_sendOn s port p (Sent.rfl' s)).dev
@[simp] theorem State.sendOn_clk (s : State) (port : Fin 4) (p : OutPkt) : (State.sendOn s port p).clk = s.clk := (sent_sendOn s port p (Sent.rfl' s)).clk
@[simp] theorem State.sendOn_pwr (s : State) (port : Fin 4) (p : OutPkt) : (State.sendOn s port p).pwr = s.pwr := (sent_sendOn s port p (Sent.rfl' s)).pwr
@[simp] theorem State.sendOn_boot (s : State) (port : Fin 4) (p : OutPkt) : (State.sendOn s port p).boot = s.boot := (sent_sendOn s port p (Sent.rfl' s)).boot
@[simp] theorem State.sendOn_upd (s : State) (port : Fin 4) (p : OutPkt) : (State.sendOn s port p).upd = s.upd := (sent_sendOn s port p (Sent.rfl' s)).upd
@[simp] theorem State.sendOn_troutes (s : State) (port : Fin 4) (p : OutPkt) : (State.sendOn s port p).troutes = s.troutes := (sent_sendOn s port p (Sent.rfl' s)).troutes
@[simp] theorem State.sendOn_hqm (s : State) (port : Fin 4) (p : OutPkt) : (State.sendOn s port p).hqm = s.hqm := (sent_sendOn s port p (Sent.rfl' s)).hqm
@[simp] theorem State.sendOn_own (s : State) (port : Fin 4) (p : OutPkt) : (State.sendOn s port p).own = s.own := (sent_sendOn s port p (Sent.rfl' s)).own
@[simp] theorem State.sendOn_ciph (s : State) (port : Fin 4) (p : OutPkt) : (State.sendOn s port p).ciph = s.ciph := (sent_sendOn s port p (Sent.rfl' s)).ciph
@[simp] theorem State.sendOn_sign (s : State) (port : Fin 4) (p : OutPkt) : (State.sendOn s port p).sign = s.sign := (sent_sendOn s port p (Sent.rfl' s)).sign
@[simp] theorem State.sendOn_chainU (s : State) (port : Fin 4) (p : OutPkt) : (State.sendOn s port p).chainU = s.chainU := (sent_sendOn s port p (Sent.rfl' s)).chainU
@[simp] theorem State.sendOn_med (s : State) (port : Fin 4) (p : OutPkt) : (State.sendOn s port p).med = s.med := (sent_sendOn s port p (Sent.rfl' s)).med
@[simp] theorem State.sendOn_dram (s : State) (port : Fin 4) (p : OutPkt) : (State.sendOn s port p).dram = s.dram := (sent_sendOn s port p (Sent.rfl' s)).dram
@[simp] theorem State.sendOn_sram (s : State) (port : Fin 4) (p : OutPkt) : (State.sendOn s port p).sram = s.sram := (sent_sendOn s port p (Sent.rfl' s)).sram
@[simp] theorem State.sendOn_bpm (s : State) (port : Fin 4) (p : OutPkt) : (State.sendOn s port p).bpm = s.bpm := (sent_sendOn s port p (Sent.rfl' s)).bpm
@[simp] theorem State.sendOn_squall (s : State) (port : Fin 4) (p : OutPkt) : (State.sendOn s port p).squall = s.squall := (sent_sendOn s port p (Sent.rfl' s)).squall
@[simp] theorem State.sendOn_evr (s : State) (port : Fin 4) (p : OutPkt) : (State.sendOn s port p).evr = s.evr := (sent_sendOn s port p (Sent.rfl' s)).evr
@[simp] theorem State.sendOn_mtr (s : State) (port : Fin 4) (p : OutPkt) : (State.sendOn s port p).mtr = s.mtr := (sent_sendOn s port p (Sent.rfl' s)).mtr
@[simp] theorem State.sendOn_disp (s : State) (port : Fin 4) (p : OutPkt) : (State.sendOn s port p).disp = s.disp := (sent_sendOn s port p (Sent.rfl' s)).disp
@[simp] theorem State.sendOn_qspi (s : State) (port : Fin 4) (p : OutPkt) : (State.sendOn s port p).qspi = s.qspi := (sent_sendOn s port p (Sent.rfl' s)).qspi
@[simp] theorem State.sendOn_spit (s : State) (port : Fin 4) (p : OutPkt) : (State.sendOn s port p).spit = s.spit := (sent_sendOn s port p (Sent.rfl' s)).spit
@[simp] theorem State.sendOn_i2ct (s : State) (port : Fin 4) (p : OutPkt) : (State.sendOn s port p).i2ct = s.i2ct := (sent_sendOn s port p (Sent.rfl' s)).i2ct
@[simp] theorem State.sendOn_i2ci (s : State) (port : Fin 4) (p : OutPkt) : (State.sendOn s port p).i2ci = s.i2ci := (sent_sendOn s port p (Sent.rfl' s)).i2ci
@[simp] theorem State.sendOn_gpio (s : State) (port : Fin 4) (p : OutPkt) : (State.sendOn s port p).gpio = s.gpio := (sent_sendOn s port p (Sent.rfl' s)).gpio
@[simp] theorem State.sendOn_vfr (s : State) (port : Fin 4) (p : OutPkt) : (State.sendOn s port p).vfr = s.vfr := (sent_sendOn s port p (Sent.rfl' s)).vfr
@[simp] theorem State.sendOn_mir (s : State) (port : Fin 4) (p : OutPkt) : (State.sendOn s port p).mir = s.mir := (sent_sendOn s port p (Sent.rfl' s)).mir
@[simp] theorem State.sendOn_hkp (s : State) (port : Fin 4) (p : OutPkt) : (State.sendOn s port p).hkp = s.hkp := (sent_sendOn s port p (Sent.rfl' s)).hkp
@[simp] theorem State.sendOn_thr (s : State) (port : Fin 4) (p : OutPkt) : (State.sendOn s port p).thr = s.thr := (sent_sendOn s port p (Sent.rfl' s)).thr
@[simp] theorem State.sendOn_dbg (s : State) (port : Fin 4) (p : OutPkt) : (State.sendOn s port p).dbg = s.dbg := (sent_sendOn s port p (Sent.rfl' s)).dbg
@[simp] theorem State.sendPkt_pending (s : State) (p : OutPkt) : (State.sendPkt s p).pending = s.pending := (sent_sendPkt s p (Sent.rfl' s)).pending
@[simp] theorem State.sendPkt_now (s : State) (p : OutPkt) : (State.sendPkt s p).now = s.now := (sent_sendPkt s p (Sent.rfl' s)).now
@[simp] theorem State.sendPkt_freeCtr (s : State) (p : OutPkt) : (State.sendPkt s p).freeCtr = s.freeCtr := (sent_sendPkt s p (Sent.rfl' s)).freeCtr
@[simp] theorem State.sendPkt_aon (s : State) (p : OutPkt) : (State.sendPkt s p).aon = s.aon := (sent_sendPkt s p (Sent.rfl' s)).aon
@[simp] theorem State.sendPkt_nvm (s : State) (p : OutPkt) : (State.sendPkt s p).nvm = s.nvm := (sent_sendPkt s p (Sent.rfl' s)).nvm
@[simp] theorem State.sendPkt_regs (s : State) (p : OutPkt) : (State.sendPkt s p).regs = s.regs := (sent_sendPkt s p (Sent.rfl' s)).regs
@[simp] theorem State.sendPkt_pins (s : State) (p : OutPkt) : (State.sendPkt s p).pins = s.pins := (sent_sendPkt s p (Sent.rfl' s)).pins
@[simp] theorem State.sendPkt_dev (s : State) (p : OutPkt) : (State.sendPkt s p).dev = s.dev := (sent_sendPkt s p (Sent.rfl' s)).dev
@[simp] theorem State.sendPkt_clk (s : State) (p : OutPkt) : (State.sendPkt s p).clk = s.clk := (sent_sendPkt s p (Sent.rfl' s)).clk
@[simp] theorem State.sendPkt_pwr (s : State) (p : OutPkt) : (State.sendPkt s p).pwr = s.pwr := (sent_sendPkt s p (Sent.rfl' s)).pwr
@[simp] theorem State.sendPkt_boot (s : State) (p : OutPkt) : (State.sendPkt s p).boot = s.boot := (sent_sendPkt s p (Sent.rfl' s)).boot
@[simp] theorem State.sendPkt_upd (s : State) (p : OutPkt) : (State.sendPkt s p).upd = s.upd := (sent_sendPkt s p (Sent.rfl' s)).upd
@[simp] theorem State.sendPkt_troutes (s : State) (p : OutPkt) : (State.sendPkt s p).troutes = s.troutes := (sent_sendPkt s p (Sent.rfl' s)).troutes
@[simp] theorem State.sendPkt_hqm (s : State) (p : OutPkt) : (State.sendPkt s p).hqm = s.hqm := (sent_sendPkt s p (Sent.rfl' s)).hqm
@[simp] theorem State.sendPkt_own (s : State) (p : OutPkt) : (State.sendPkt s p).own = s.own := (sent_sendPkt s p (Sent.rfl' s)).own
@[simp] theorem State.sendPkt_ciph (s : State) (p : OutPkt) : (State.sendPkt s p).ciph = s.ciph := (sent_sendPkt s p (Sent.rfl' s)).ciph
@[simp] theorem State.sendPkt_sign (s : State) (p : OutPkt) : (State.sendPkt s p).sign = s.sign := (sent_sendPkt s p (Sent.rfl' s)).sign
@[simp] theorem State.sendPkt_chainU (s : State) (p : OutPkt) : (State.sendPkt s p).chainU = s.chainU := (sent_sendPkt s p (Sent.rfl' s)).chainU
@[simp] theorem State.sendPkt_med (s : State) (p : OutPkt) : (State.sendPkt s p).med = s.med := (sent_sendPkt s p (Sent.rfl' s)).med
@[simp] theorem State.sendPkt_dram (s : State) (p : OutPkt) : (State.sendPkt s p).dram = s.dram := (sent_sendPkt s p (Sent.rfl' s)).dram
@[simp] theorem State.sendPkt_sram (s : State) (p : OutPkt) : (State.sendPkt s p).sram = s.sram := (sent_sendPkt s p (Sent.rfl' s)).sram
@[simp] theorem State.sendPkt_bpm (s : State) (p : OutPkt) : (State.sendPkt s p).bpm = s.bpm := (sent_sendPkt s p (Sent.rfl' s)).bpm
@[simp] theorem State.sendPkt_squall (s : State) (p : OutPkt) : (State.sendPkt s p).squall = s.squall := (sent_sendPkt s p (Sent.rfl' s)).squall
@[simp] theorem State.sendPkt_evr (s : State) (p : OutPkt) : (State.sendPkt s p).evr = s.evr := (sent_sendPkt s p (Sent.rfl' s)).evr
@[simp] theorem State.sendPkt_mtr (s : State) (p : OutPkt) : (State.sendPkt s p).mtr = s.mtr := (sent_sendPkt s p (Sent.rfl' s)).mtr
@[simp] theorem State.sendPkt_disp (s : State) (p : OutPkt) : (State.sendPkt s p).disp = s.disp := (sent_sendPkt s p (Sent.rfl' s)).disp
@[simp] theorem State.sendPkt_qspi (s : State) (p : OutPkt) : (State.sendPkt s p).qspi = s.qspi := (sent_sendPkt s p (Sent.rfl' s)).qspi
@[simp] theorem State.sendPkt_spit (s : State) (p : OutPkt) : (State.sendPkt s p).spit = s.spit := (sent_sendPkt s p (Sent.rfl' s)).spit
@[simp] theorem State.sendPkt_i2ct (s : State) (p : OutPkt) : (State.sendPkt s p).i2ct = s.i2ct := (sent_sendPkt s p (Sent.rfl' s)).i2ct
@[simp] theorem State.sendPkt_i2ci (s : State) (p : OutPkt) : (State.sendPkt s p).i2ci = s.i2ci := (sent_sendPkt s p (Sent.rfl' s)).i2ci
@[simp] theorem State.sendPkt_gpio (s : State) (p : OutPkt) : (State.sendPkt s p).gpio = s.gpio := (sent_sendPkt s p (Sent.rfl' s)).gpio
@[simp] theorem State.sendPkt_vfr (s : State) (p : OutPkt) : (State.sendPkt s p).vfr = s.vfr := (sent_sendPkt s p (Sent.rfl' s)).vfr
@[simp] theorem State.sendPkt_mir (s : State) (p : OutPkt) : (State.sendPkt s p).mir = s.mir := (sent_sendPkt s p (Sent.rfl' s)).mir
@[simp] theorem State.sendPkt_hkp (s : State) (p : OutPkt) : (State.sendPkt s p).hkp = s.hkp := (sent_sendPkt s p (Sent.rfl' s)).hkp
@[simp] theorem State.sendPkt_thr (s : State) (p : OutPkt) : (State.sendPkt s p).thr = s.thr := (sent_sendPkt s p (Sent.rfl' s)).thr
@[simp] theorem State.sendPkt_dbg (s : State) (p : OutPkt) : (State.sendPkt s p).dbg = s.dbg := (sent_sendPkt s p (Sent.rfl' s)).dbg
@[simp] theorem State.sendLong_pending (s : State) (p : OutPkt) : (State.sendLong s p).pending = s.pending := (sent_sendLong s p (Sent.rfl' s)).pending
@[simp] theorem State.sendLong_now (s : State) (p : OutPkt) : (State.sendLong s p).now = s.now := (sent_sendLong s p (Sent.rfl' s)).now
@[simp] theorem State.sendLong_freeCtr (s : State) (p : OutPkt) : (State.sendLong s p).freeCtr = s.freeCtr := (sent_sendLong s p (Sent.rfl' s)).freeCtr
@[simp] theorem State.sendLong_aon (s : State) (p : OutPkt) : (State.sendLong s p).aon = s.aon := (sent_sendLong s p (Sent.rfl' s)).aon
@[simp] theorem State.sendLong_nvm (s : State) (p : OutPkt) : (State.sendLong s p).nvm = s.nvm := (sent_sendLong s p (Sent.rfl' s)).nvm
@[simp] theorem State.sendLong_regs (s : State) (p : OutPkt) : (State.sendLong s p).regs = s.regs := (sent_sendLong s p (Sent.rfl' s)).regs
@[simp] theorem State.sendLong_pins (s : State) (p : OutPkt) : (State.sendLong s p).pins = s.pins := (sent_sendLong s p (Sent.rfl' s)).pins
@[simp] theorem State.sendLong_dev (s : State) (p : OutPkt) : (State.sendLong s p).dev = s.dev := (sent_sendLong s p (Sent.rfl' s)).dev
@[simp] theorem State.sendLong_clk (s : State) (p : OutPkt) : (State.sendLong s p).clk = s.clk := (sent_sendLong s p (Sent.rfl' s)).clk
@[simp] theorem State.sendLong_pwr (s : State) (p : OutPkt) : (State.sendLong s p).pwr = s.pwr := (sent_sendLong s p (Sent.rfl' s)).pwr
@[simp] theorem State.sendLong_boot (s : State) (p : OutPkt) : (State.sendLong s p).boot = s.boot := (sent_sendLong s p (Sent.rfl' s)).boot
@[simp] theorem State.sendLong_upd (s : State) (p : OutPkt) : (State.sendLong s p).upd = s.upd := (sent_sendLong s p (Sent.rfl' s)).upd
@[simp] theorem State.sendLong_troutes (s : State) (p : OutPkt) : (State.sendLong s p).troutes = s.troutes := (sent_sendLong s p (Sent.rfl' s)).troutes
@[simp] theorem State.sendLong_hqm (s : State) (p : OutPkt) : (State.sendLong s p).hqm = s.hqm := (sent_sendLong s p (Sent.rfl' s)).hqm
@[simp] theorem State.sendLong_own (s : State) (p : OutPkt) : (State.sendLong s p).own = s.own := (sent_sendLong s p (Sent.rfl' s)).own
@[simp] theorem State.sendLong_ciph (s : State) (p : OutPkt) : (State.sendLong s p).ciph = s.ciph := (sent_sendLong s p (Sent.rfl' s)).ciph
@[simp] theorem State.sendLong_sign (s : State) (p : OutPkt) : (State.sendLong s p).sign = s.sign := (sent_sendLong s p (Sent.rfl' s)).sign
@[simp] theorem State.sendLong_chainU (s : State) (p : OutPkt) : (State.sendLong s p).chainU = s.chainU := (sent_sendLong s p (Sent.rfl' s)).chainU
@[simp] theorem State.sendLong_med (s : State) (p : OutPkt) : (State.sendLong s p).med = s.med := (sent_sendLong s p (Sent.rfl' s)).med
@[simp] theorem State.sendLong_dram (s : State) (p : OutPkt) : (State.sendLong s p).dram = s.dram := (sent_sendLong s p (Sent.rfl' s)).dram
@[simp] theorem State.sendLong_sram (s : State) (p : OutPkt) : (State.sendLong s p).sram = s.sram := (sent_sendLong s p (Sent.rfl' s)).sram
@[simp] theorem State.sendLong_bpm (s : State) (p : OutPkt) : (State.sendLong s p).bpm = s.bpm := (sent_sendLong s p (Sent.rfl' s)).bpm
@[simp] theorem State.sendLong_squall (s : State) (p : OutPkt) : (State.sendLong s p).squall = s.squall := (sent_sendLong s p (Sent.rfl' s)).squall
@[simp] theorem State.sendLong_evr (s : State) (p : OutPkt) : (State.sendLong s p).evr = s.evr := (sent_sendLong s p (Sent.rfl' s)).evr
@[simp] theorem State.sendLong_mtr (s : State) (p : OutPkt) : (State.sendLong s p).mtr = s.mtr := (sent_sendLong s p (Sent.rfl' s)).mtr
@[simp] theorem State.sendLong_disp (s : State) (p : OutPkt) : (State.sendLong s p).disp = s.disp := (sent_sendLong s p (Sent.rfl' s)).disp
@[simp] theorem State.sendLong_qspi (s : State) (p : OutPkt) : (State.sendLong s p).qspi = s.qspi := (sent_sendLong s p (Sent.rfl' s)).qspi
@[simp] theorem State.sendLong_spit (s : State) (p : OutPkt) : (State.sendLong s p).spit = s.spit := (sent_sendLong s p (Sent.rfl' s)).spit
@[simp] theorem State.sendLong_i2ct (s : State) (p : OutPkt) : (State.sendLong s p).i2ct = s.i2ct := (sent_sendLong s p (Sent.rfl' s)).i2ct
@[simp] theorem State.sendLong_i2ci (s : State) (p : OutPkt) : (State.sendLong s p).i2ci = s.i2ci := (sent_sendLong s p (Sent.rfl' s)).i2ci
@[simp] theorem State.sendLong_gpio (s : State) (p : OutPkt) : (State.sendLong s p).gpio = s.gpio := (sent_sendLong s p (Sent.rfl' s)).gpio
@[simp] theorem State.sendLong_vfr (s : State) (p : OutPkt) : (State.sendLong s p).vfr = s.vfr := (sent_sendLong s p (Sent.rfl' s)).vfr
@[simp] theorem State.sendLong_mir (s : State) (p : OutPkt) : (State.sendLong s p).mir = s.mir := (sent_sendLong s p (Sent.rfl' s)).mir
@[simp] theorem State.sendLong_hkp (s : State) (p : OutPkt) : (State.sendLong s p).hkp = s.hkp := (sent_sendLong s p (Sent.rfl' s)).hkp
@[simp] theorem State.sendLong_thr (s : State) (p : OutPkt) : (State.sendLong s p).thr = s.thr := (sent_sendLong s p (Sent.rfl' s)).thr
@[simp] theorem State.sendLong_dbg (s : State) (p : OutPkt) : (State.sendLong s p).dbg = s.dbg := (sent_sendLong s p (Sent.rfl' s)).dbg
@[simp] theorem State.mirSend_pending (s : State) (type : Byte) (vc : Fin 3) (t : Tid) (payload : List Byte) : (State.mirSend s type vc t payload).pending = s.pending := (sent_mirSend s type vc t payload (Sent.rfl' s)).pending
@[simp] theorem State.mirSend_now (s : State) (type : Byte) (vc : Fin 3) (t : Tid) (payload : List Byte) : (State.mirSend s type vc t payload).now = s.now := (sent_mirSend s type vc t payload (Sent.rfl' s)).now
@[simp] theorem State.mirSend_freeCtr (s : State) (type : Byte) (vc : Fin 3) (t : Tid) (payload : List Byte) : (State.mirSend s type vc t payload).freeCtr = s.freeCtr := (sent_mirSend s type vc t payload (Sent.rfl' s)).freeCtr
@[simp] theorem State.mirSend_aon (s : State) (type : Byte) (vc : Fin 3) (t : Tid) (payload : List Byte) : (State.mirSend s type vc t payload).aon = s.aon := (sent_mirSend s type vc t payload (Sent.rfl' s)).aon
@[simp] theorem State.mirSend_nvm (s : State) (type : Byte) (vc : Fin 3) (t : Tid) (payload : List Byte) : (State.mirSend s type vc t payload).nvm = s.nvm := (sent_mirSend s type vc t payload (Sent.rfl' s)).nvm
@[simp] theorem State.mirSend_regs (s : State) (type : Byte) (vc : Fin 3) (t : Tid) (payload : List Byte) : (State.mirSend s type vc t payload).regs = s.regs := (sent_mirSend s type vc t payload (Sent.rfl' s)).regs
@[simp] theorem State.mirSend_pins (s : State) (type : Byte) (vc : Fin 3) (t : Tid) (payload : List Byte) : (State.mirSend s type vc t payload).pins = s.pins := (sent_mirSend s type vc t payload (Sent.rfl' s)).pins
@[simp] theorem State.mirSend_dev (s : State) (type : Byte) (vc : Fin 3) (t : Tid) (payload : List Byte) : (State.mirSend s type vc t payload).dev = s.dev := (sent_mirSend s type vc t payload (Sent.rfl' s)).dev
@[simp] theorem State.mirSend_clk (s : State) (type : Byte) (vc : Fin 3) (t : Tid) (payload : List Byte) : (State.mirSend s type vc t payload).clk = s.clk := (sent_mirSend s type vc t payload (Sent.rfl' s)).clk
@[simp] theorem State.mirSend_pwr (s : State) (type : Byte) (vc : Fin 3) (t : Tid) (payload : List Byte) : (State.mirSend s type vc t payload).pwr = s.pwr := (sent_mirSend s type vc t payload (Sent.rfl' s)).pwr
@[simp] theorem State.mirSend_boot (s : State) (type : Byte) (vc : Fin 3) (t : Tid) (payload : List Byte) : (State.mirSend s type vc t payload).boot = s.boot := (sent_mirSend s type vc t payload (Sent.rfl' s)).boot
@[simp] theorem State.mirSend_upd (s : State) (type : Byte) (vc : Fin 3) (t : Tid) (payload : List Byte) : (State.mirSend s type vc t payload).upd = s.upd := (sent_mirSend s type vc t payload (Sent.rfl' s)).upd
@[simp] theorem State.mirSend_troutes (s : State) (type : Byte) (vc : Fin 3) (t : Tid) (payload : List Byte) : (State.mirSend s type vc t payload).troutes = s.troutes := (sent_mirSend s type vc t payload (Sent.rfl' s)).troutes
@[simp] theorem State.mirSend_hqm (s : State) (type : Byte) (vc : Fin 3) (t : Tid) (payload : List Byte) : (State.mirSend s type vc t payload).hqm = s.hqm := (sent_mirSend s type vc t payload (Sent.rfl' s)).hqm
@[simp] theorem State.mirSend_own (s : State) (type : Byte) (vc : Fin 3) (t : Tid) (payload : List Byte) : (State.mirSend s type vc t payload).own = s.own := (sent_mirSend s type vc t payload (Sent.rfl' s)).own
@[simp] theorem State.mirSend_ciph (s : State) (type : Byte) (vc : Fin 3) (t : Tid) (payload : List Byte) : (State.mirSend s type vc t payload).ciph = s.ciph := (sent_mirSend s type vc t payload (Sent.rfl' s)).ciph
@[simp] theorem State.mirSend_sign (s : State) (type : Byte) (vc : Fin 3) (t : Tid) (payload : List Byte) : (State.mirSend s type vc t payload).sign = s.sign := (sent_mirSend s type vc t payload (Sent.rfl' s)).sign
@[simp] theorem State.mirSend_chainU (s : State) (type : Byte) (vc : Fin 3) (t : Tid) (payload : List Byte) : (State.mirSend s type vc t payload).chainU = s.chainU := (sent_mirSend s type vc t payload (Sent.rfl' s)).chainU
@[simp] theorem State.mirSend_med (s : State) (type : Byte) (vc : Fin 3) (t : Tid) (payload : List Byte) : (State.mirSend s type vc t payload).med = s.med := (sent_mirSend s type vc t payload (Sent.rfl' s)).med
@[simp] theorem State.mirSend_dram (s : State) (type : Byte) (vc : Fin 3) (t : Tid) (payload : List Byte) : (State.mirSend s type vc t payload).dram = s.dram := (sent_mirSend s type vc t payload (Sent.rfl' s)).dram
@[simp] theorem State.mirSend_sram (s : State) (type : Byte) (vc : Fin 3) (t : Tid) (payload : List Byte) : (State.mirSend s type vc t payload).sram = s.sram := (sent_mirSend s type vc t payload (Sent.rfl' s)).sram
@[simp] theorem State.mirSend_bpm (s : State) (type : Byte) (vc : Fin 3) (t : Tid) (payload : List Byte) : (State.mirSend s type vc t payload).bpm = s.bpm := (sent_mirSend s type vc t payload (Sent.rfl' s)).bpm
@[simp] theorem State.mirSend_squall (s : State) (type : Byte) (vc : Fin 3) (t : Tid) (payload : List Byte) : (State.mirSend s type vc t payload).squall = s.squall := (sent_mirSend s type vc t payload (Sent.rfl' s)).squall
@[simp] theorem State.mirSend_evr (s : State) (type : Byte) (vc : Fin 3) (t : Tid) (payload : List Byte) : (State.mirSend s type vc t payload).evr = s.evr := (sent_mirSend s type vc t payload (Sent.rfl' s)).evr
@[simp] theorem State.mirSend_mtr (s : State) (type : Byte) (vc : Fin 3) (t : Tid) (payload : List Byte) : (State.mirSend s type vc t payload).mtr = s.mtr := (sent_mirSend s type vc t payload (Sent.rfl' s)).mtr
@[simp] theorem State.mirSend_disp (s : State) (type : Byte) (vc : Fin 3) (t : Tid) (payload : List Byte) : (State.mirSend s type vc t payload).disp = s.disp := (sent_mirSend s type vc t payload (Sent.rfl' s)).disp
@[simp] theorem State.mirSend_qspi (s : State) (type : Byte) (vc : Fin 3) (t : Tid) (payload : List Byte) : (State.mirSend s type vc t payload).qspi = s.qspi := (sent_mirSend s type vc t payload (Sent.rfl' s)).qspi
@[simp] theorem State.mirSend_spit (s : State) (type : Byte) (vc : Fin 3) (t : Tid) (payload : List Byte) : (State.mirSend s type vc t payload).spit = s.spit := (sent_mirSend s type vc t payload (Sent.rfl' s)).spit
@[simp] theorem State.mirSend_i2ct (s : State) (type : Byte) (vc : Fin 3) (t : Tid) (payload : List Byte) : (State.mirSend s type vc t payload).i2ct = s.i2ct := (sent_mirSend s type vc t payload (Sent.rfl' s)).i2ct
@[simp] theorem State.mirSend_i2ci (s : State) (type : Byte) (vc : Fin 3) (t : Tid) (payload : List Byte) : (State.mirSend s type vc t payload).i2ci = s.i2ci := (sent_mirSend s type vc t payload (Sent.rfl' s)).i2ci
@[simp] theorem State.mirSend_gpio (s : State) (type : Byte) (vc : Fin 3) (t : Tid) (payload : List Byte) : (State.mirSend s type vc t payload).gpio = s.gpio := (sent_mirSend s type vc t payload (Sent.rfl' s)).gpio
@[simp] theorem State.mirSend_vfr (s : State) (type : Byte) (vc : Fin 3) (t : Tid) (payload : List Byte) : (State.mirSend s type vc t payload).vfr = s.vfr := (sent_mirSend s type vc t payload (Sent.rfl' s)).vfr
@[simp] theorem State.mirSend_mir (s : State) (type : Byte) (vc : Fin 3) (t : Tid) (payload : List Byte) : (State.mirSend s type vc t payload).mir = s.mir := (sent_mirSend s type vc t payload (Sent.rfl' s)).mir
@[simp] theorem State.mirSend_hkp (s : State) (type : Byte) (vc : Fin 3) (t : Tid) (payload : List Byte) : (State.mirSend s type vc t payload).hkp = s.hkp := (sent_mirSend s type vc t payload (Sent.rfl' s)).hkp
@[simp] theorem State.mirSend_thr (s : State) (type : Byte) (vc : Fin 3) (t : Tid) (payload : List Byte) : (State.mirSend s type vc t payload).thr = s.thr := (sent_mirSend s type vc t payload (Sent.rfl' s)).thr
@[simp] theorem State.mirSend_dbg (s : State) (type : Byte) (vc : Fin 3) (t : Tid) (payload : List Byte) : (State.mirSend s type vc t payload).dbg = s.dbg := (sent_mirSend s type vc t payload (Sent.rfl' s)).dbg

end Sys2Proof.Machine
end

