-- ==== Sys2Proof/Laws/Quiet.lean ====
section
/-!
SUPPORT. Status bits and event records: a status bit set by an event reads 1 and stays, and the shared operations of both change
nothing that `State.quiet` and `State.unlogged` keep.
-/
namespace Sys2Proof.Machine

theorem map_set_same {α β : Type} {n : Nat} (v : Vector α n) (f : α → β) (i : Nat) (h : i < n) (x : α) (e : f x = f v[i]) :
    (v.set i x h).map f = v.map f := by
  ext j hj
  simp only [Vector.getElem_map, Vector.getElem_set]
  split
  · rename_i g; subst g; exact e
  · rfl

theorem updHdr_quiet (s : State) (p : Page) (f : PageHdr → PageHdr) (h : ∀ x, (f x).quiet = x.quiet) :
    (s.updHdr p f).quiet = s.quiet := by
  have e : (s.hdr.set p (f s.hdr[p]) p.2).map PageHdr.quiet = s.hdr.map PageHdr.quiet := map_set_same _ _ _ _ _ (h _)
  unfold State.updHdr State.quiet
  dsimp only
  rw [e]

theorem updTnt_quiet (s : State) (t : Tid) (f : Tenant → Tenant) (h : ∀ x, (f x).quiet = x.quiet) :
    (s.updTnt t f).quiet = s.quiet := by
  have e : (s.tnt.set t (f s.tnt[t]) t.2).map Tenant.quiet = s.tnt.map Tenant.quiet := map_set_same _ _ _ _ _ (h _)
  unfold State.updTnt State.quiet
  dsimp only
  rw [e]

theorem updFn_quiet (s : State) (n : Fn) (f : FnS → FnS) (h : ∀ x, (f x).quiet = x.quiet) :
    (s.updFn n f).quiet = s.quiet := by
  have e : (s.pcie.fns.set n (f s.pcie.fns[n]) n.2).map FnS.quiet = s.pcie.fns.map FnS.quiet := map_set_same _ _ _ _ _ (h _)
  unfold State.updFn State.quiet PcieS.quiet
  dsimp only
  rw [e]

@[simp] theorem emit_quiet (s : State) (o : Output) : (s.emit o).quiet = s.quiet := by
  unfold State.emit State.quiet
  cases o.isTlp <;> rfl

@[simp] theorem request_quiet (s : State) (fn : Fn) (v : Nat) : (s.request fn v).quiet = s.quiet := by
  unfold State.request
  dsimp only
  split
  · rfl
  · split
    · split
      · rfl
      · exact updFn_quiet _ _ _ (fun _ => rfl)
    · split
      · split
        · rfl
        · exact updFn_quiet _ _ _ (fun _ => rfl)
      · split
        · split
          · rfl
          · rw [emit_quiet]; rfl
        · rfl

@[simp] theorem requestBlock_quiet (s : State) (n : Nat) : (s.requestBlock n).quiet = s.quiet := by
  unfold State.requestBlock
  dsimp only
  split
  · split
    · exact request_quiet _ _ _
    · exact request_quiet _ _ _
  · rfl

@[simp] theorem noticeBlock_quiet (s : State) (n : Nat) : (s.noticeBlock n).quiet = s.quiet := by
  unfold State.noticeBlock
  dsimp only
  split
  · split
    · exact updTnt_quiet _ _ _ (fun _ => rfl)
    · rfl
  · rfl

@[simp] theorem requestTenant_quiet (s : State) (t : Tid) (q : Qid) : (s.requestTenant t q).quiet = s.quiet := by
  unfold State.requestTenant
  dsimp only
  split
  · exact request_quiet _ _ _
  · rfl

/-- A status bit's event changes nothing that `quiet` keeps. -/
@[simp] theorem raise_quiet (s : State) (p : Page) (b : Nat) : (s.raise p b).quiet = s.quiet := by
  unfold State.raise
  dsimp only
  have h : ∀ m : Word, (s.updHdr p (fun h => { h with intStatus := h.intStatus ||| m })).quiet = s.quiet :=
    fun m => updHdr_quiet _ _ _ (fun _ => rfl)
  split
  · rfl
  · split
    · split
      · split
        · rw [requestTenant_quiet, h]
        · rw [h]
      · rfl
    · split
      · rw [requestBlock_quiet, noticeBlock_quiet, h]
      · rw [h]

@[simp] theorem raiseTnt_quiet (s : State) (t : Tid) (b : Nat) : (s.raiseTnt t b).quiet = s.quiet := raise_quiet _ _ _

/-! ## Headers -/

@[simp] theorem updTnt_hdr' (s : State) (t : Tid) (f : Tenant → Tenant) : (s.updTnt t f).hdr = s.hdr := rfl

@[simp] theorem request_hdr (s : State) (fn : Fn) (v : Nat) : (s.request fn v).hdr = s.hdr := by
  unfold State.request
  dsimp only
  repeat' split
  all_goals rfl

@[simp] theorem requestBlock_hdr (s : State) (n : Nat) : (s.requestBlock n).hdr = s.hdr := by
  unfold State.requestBlock
  dsimp only
  repeat' split
  all_goals simp only [request_hdr]

@[simp] theorem noticeBlock_hdr (s : State) (n : Nat) : (s.noticeBlock n).hdr = s.hdr := by
  unfold State.noticeBlock
  dsimp only
  repeat' split
  all_goals rfl

@[simp] theorem requestTenant_hdr (s : State) (t : Tid) (q : Qid) : (s.requestTenant t q).hdr = s.hdr := by
  unfold State.requestTenant
  dsimp only
  split
  · exact request_hdr _ _ _
  · rfl

/-- The headers after an event: its page's status gains the bit, when the page has it and its tenant may see it. -/
theorem raise_hdr (s : State) (p : Page) (b : Nat) : (s.raise p b).hdr = s.hdr ∨
    (s.raise p b).hdr = s.hdr.set p { s.hdr[p] with intStatus := s.hdr[p].intStatus ||| bitW true b } := by
  unfold State.raise
  dsimp only
  split
  · exact Or.inl rfl
  · split
    · split
      · split
        · rw [requestTenant_hdr]; exact Or.inr rfl
        · exact Or.inr rfl
      · exact Or.inl rfl
    · split
      · rw [requestBlock_hdr, noticeBlock_hdr]; exact Or.inr rfl
      · exact Or.inr rfl

theorem raise_hdr_set (s : State) (p : Page) (b : Nat) (h : intMask p &&& bitW true b ≠ 0#32) (n : tenantOfPage p = none) :
    (s.raise p b).hdr = s.hdr.set p { s.hdr[p] with intStatus := s.hdr[p].intStatus ||| bitW true b } := by
  unfold State.raise
  dsimp only
  rw [if_neg h, n]
  dsimp only
  split
  · rw [requestBlock_hdr, noticeBlock_hdr]; rfl
  · rfl

theorem bitW_bit (b : Nat) (h : b < 32) : (bitW true b).getLsbD b = true := by
  simp only [bitW, if_true]
  rw [BitVec.getLsbD_shiftLeft]
  simp [h]

/-- A block's status bit reads 1 after its event. -/
theorem raise_bit (s : State) (p : Page) (b : Nat) (hb : b < 32) (h : intMask p &&& bitW true b ≠ 0#32)
    (n : tenantOfPage p = none) : (s.raise p b).bit p b = true := by
  unfold State.bit
  rw [raise_hdr_set s p b h n]
  simp [bitW_bit b hb]

/-- A status bit that reads 1 stays through any event. -/
theorem raise_keeps (s : State) (p q : Page) (b c : Nat) (h : s.bit q c = true) : (s.raise p b).bit q c = true := by
  unfold State.bit at *
  rcases raise_hdr s p b with e | e <;> rw [e]
  · exact h
  · simp only [Fin.getElem_fin, Vector.getElem_set] at h ⊢
    split
    · rename_i g
      have g' : p = q := Fin.ext g
      subst g'
      simp [h]
    · exact h

@[simp] theorem emit_hdr' (s : State) (o : Output) : (s.emit o).hdr = s.hdr := rfl

/-! ## Fields of the endpoint and of a tenant through an event -/

theorem quiet_tnt {s u : State} (h : u.quiet = s.quiet) (t : Tid) : (u.tnt[t]).quiet = (s.tnt[t]).quiet := by
  have e := congrArg (fun x => x.tnt[t]) h
  simpa [State.quiet] using e

@[simp] theorem raise_pcie_numVfs (s : State) (p : Page) (b : Nat) : (s.raise p b).pcie.numVfs = s.pcie.numVfs :=
  congrArg (fun x => x.pcie.numVfs) (raise_quiet s p b)
@[simp] theorem raise_pcie_vfEnable (s : State) (p : Page) (b : Nat) : (s.raise p b).pcie.vfEnable = s.pcie.vfEnable :=
  congrArg (fun x => x.pcie.vfEnable) (raise_quiet s p b)
@[simp] theorem raise_pcie_ari (s : State) (p : Page) (b : Nat) : (s.raise p b).pcie.ari = s.pcie.ari :=
  congrArg (fun x => x.pcie.ari) (raise_quiet s p b)
@[simp] theorem raise_pcie_vfLimit (s : State) (p : Page) (b : Nat) : (s.raise p b).pcie.vfLimit = s.pcie.vfLimit :=
  congrArg (fun x => x.pcie.vfLimit) (raise_quiet s p b)
@[simp] theorem raise_pcie_intDisable (s : State) (p : Page) (b : Nat) : (s.raise p b).pcie.intDisable = s.pcie.intDisable :=
  congrArg (fun x => x.pcie.intDisable) (raise_quiet s p b)
@[simp] theorem raise_pcie_speed (s : State) (p : Page) (b : Nat) : (s.raise p b).pcie.speed = s.pcie.speed :=
  congrArg (fun x => x.pcie.speed) (raise_quiet s p b)
@[simp] theorem raise_pcie_width (s : State) (p : Page) (b : Nat) : (s.raise p b).pcie.width = s.pcie.width :=
  congrArg (fun x => x.pcie.width) (raise_quiet s p b)
@[simp] theorem raise_pcie_dlUp (s : State) (p : Page) (b : Nat) : (s.raise p b).pcie.dlUp = s.pcie.dlUp :=
  congrArg (fun x => x.pcie.dlUp) (raise_quiet s p b)
@[simp] theorem raise_pcie_squallUr (s : State) (p : Page) (b : Nat) : (s.raise p b).pcie.squallUr = s.pcie.squallUr :=
  congrArg (fun x => x.pcie.squallUr) (raise_quiet s p b)
@[simp] theorem raise_pcie_poisonRx (s : State) (p : Page) (b : Nat) : (s.raise p b).pcie.poisonRx = s.pcie.poisonRx :=
  congrArg (fun x => x.pcie.poisonRx) (raise_quiet s p b)
@[simp] theorem raise_pcie_poisonTx (s : State) (p : Page) (b : Nat) : (s.raise p b).pcie.poisonTx = s.pcie.poisonTx :=
  congrArg (fun x => x.pcie.poisonTx) (raise_quiet s p b)
@[simp] theorem raise_pcie_timeouts (s : State) (p : Page) (b : Nat) : (s.raise p b).pcie.timeouts = s.pcie.timeouts :=
  congrArg (fun x => x.pcie.timeouts) (raise_quiet s p b)
@[simp] theorem raise_pcie_stale (s : State) (p : Page) (b : Nat) : (s.raise p b).pcie.stale = s.pcie.stale :=
  congrArg (fun x => x.pcie.stale) (raise_quiet s p b)
@[simp] theorem raise_pcie_dropped (s : State) (p : Page) (b : Nat) : (s.raise p b).pcie.dropped = s.pcie.dropped :=
  congrArg (fun x => x.pcie.dropped) (raise_quiet s p b)
@[simp] theorem raise_pcie_staleReads (s : State) (p : Page) (b : Nat) : (s.raise p b).pcie.staleReads = s.pcie.staleReads :=
  congrArg (fun x => x.pcie.staleReads) (raise_quiet s p b)
@[simp] theorem raise_tnt_binding (s : State) (p : Page) (b : Nat) (t : Tid) : ((s.raise p b).tnt[t]).binding = (s.tnt[t]).binding :=
  congrArg (fun x => x.binding) (quiet_tnt (raise_quiet s p b) t)
@[simp] theorem raise_tnt_vf (s : State) (p : Page) (b : Nat) (t : Tid) : ((s.raise p b).tnt[t]).vf = (s.tnt[t]).vf :=
  congrArg (fun x => x.vf) (quiet_tnt (raise_quiet s p b) t)
@[simp] theorem raise_tnt_gustTenant (s : State) (p : Page) (b : Nat) (t : Tid) : ((s.raise p b).tnt[t]).gustTenant = (s.tnt[t]).gustTenant :=
  congrArg (fun x => x.gustTenant) (quiet_tnt (raise_quiet s p b) t)
@[simp] theorem raise_tnt_convBlocks (s : State) (p : Page) (b : Nat) (t : Tid) : ((s.raise p b).tnt[t]).convBlocks = (s.tnt[t]).convBlocks :=
  congrArg (fun x => x.convBlocks) (quiet_tnt (raise_quiet s p b) t)
@[simp] theorem raise_tnt_openMax (s : State) (p : Page) (b : Nat) (t : Tid) : ((s.raise p b).tnt[t]).openMax = (s.tnt[t]).openMax :=
  congrArg (fun x => x.openMax) (quiet_tnt (raise_quiet s p b) t)
@[simp] theorem raise_tnt_quota (s : State) (p : Page) (b : Nat) (t : Tid) : ((s.raise p b).tnt[t]).quota = (s.tnt[t]).quota :=
  congrArg (fun x => x.quota) (quiet_tnt (raise_quiet s p b) t)
@[simp] theorem raise_tnt_heldMax (s : State) (p : Page) (b : Nat) (t : Tid) : ((s.raise p b).tnt[t]).heldMax = (s.tnt[t]).heldMax :=
  congrArg (fun x => x.heldMax) (quiet_tnt (raise_quiet s p b) t)
@[simp] theorem raise_tnt_evidMax (s : State) (p : Page) (b : Nat) (t : Tid) : ((s.raise p b).tnt[t]).evidMax = (s.tnt[t]).evidMax :=
  congrArg (fun x => x.evidMax) (quiet_tnt (raise_quiet s p b) t)
@[simp] theorem raise_tnt_withhold (s : State) (p : Page) (b : Nat) (t : Tid) : ((s.raise p b).tnt[t]).withhold = (s.tnt[t]).withhold :=
  congrArg (fun x => x.withhold) (quiet_tnt (raise_quiet s p b) t)
@[simp] theorem raise_tnt_tagLimit (s : State) (p : Page) (b : Nat) (t : Tid) : ((s.raise p b).tnt[t]).tagLimit = (s.tnt[t]).tagLimit :=
  congrArg (fun x => x.tagLimit) (quiet_tnt (raise_quiet s p b) t)
@[simp] theorem raise_tnt_holdMin (s : State) (p : Page) (b : Nat) (t : Tid) : ((s.raise p b).tnt[t]).holdMin = (s.tnt[t]).holdMin :=
  congrArg (fun x => x.holdMin) (quiet_tnt (raise_quiet s p b) t)
@[simp] theorem raise_tnt_offer (s : State) (p : Page) (b : Nat) (t : Tid) : ((s.raise p b).tnt[t]).offer = (s.tnt[t]).offer :=
  congrArg (fun x => x.offer) (quiet_tnt (raise_quiet s p b) t)
@[simp] theorem raise_tnt_accept (s : State) (p : Page) (b : Nat) (t : Tid) : ((s.raise p b).tnt[t]).accept = (s.tnt[t]).accept :=
  congrArg (fun x => x.accept) (quiet_tnt (raise_quiet s p b) t)
@[simp] theorem raise_tnt_featLock (s : State) (p : Page) (b : Nat) (t : Tid) : ((s.raise p b).tnt[t]).featLock = (s.tnt[t]).featLock :=
  congrArg (fun x => x.featLock) (quiet_tnt (raise_quiet s p b) t)
@[simp] theorem raise_tnt_featErr (s : State) (p : Page) (b : Nat) (t : Tid) : ((s.raise p b).tnt[t]).featErr = (s.tnt[t]).featErr :=
  congrArg (fun x => x.featErr) (quiet_tnt (raise_quiet s p b) t)
@[simp] theorem raise_tnt_resetDone (s : State) (p : Page) (b : Nat) (t : Tid) : ((s.raise p b).tnt[t]).resetDone = (s.tnt[t]).resetDone :=
  congrArg (fun x => x.resetDone) (quiet_tnt (raise_quiet s p b) t)
@[simp] theorem raise_tnt_epoch (s : State) (p : Page) (b : Nat) (t : Tid) : ((s.raise p b).tnt[t]).epoch = (s.tnt[t]).epoch :=
  congrArg (fun x => x.epoch) (quiet_tnt (raise_quiet s p b) t)
@[simp] theorem raise_tnt_sqBase (s : State) (p : Page) (b : Nat) (t : Tid) : ((s.raise p b).tnt[t]).sqBase = (s.tnt[t]).sqBase :=
  congrArg (fun x => x.sqBase) (quiet_tnt (raise_quiet s p b) t)
@[simp] theorem raise_tnt_cqBase (s : State) (p : Page) (b : Nat) (t : Tid) : ((s.raise p b).tnt[t]).cqBase = (s.tnt[t]).cqBase :=
  congrArg (fun x => x.cqBase) (quiet_tnt (raise_quiet s p b) t)
@[simp] theorem raise_tnt_depth (s : State) (p : Page) (b : Nat) (t : Tid) : ((s.raise p b).tnt[t]).depth = (s.tnt[t]).depth :=
  congrArg (fun x => x.depth) (quiet_tnt (raise_quiet s p b) t)
@[simp] theorem raise_tnt_qps (s : State) (p : Page) (b : Nat) (t : Tid) : ((s.raise p b).tnt[t]).qps = (s.tnt[t]).qps :=
  congrArg (fun x => x.qps) (quiet_tnt (raise_quiet s p b) t)
@[simp] theorem raise_tnt_rr (s : State) (p : Page) (b : Nat) (t : Tid) : ((s.raise p b).tnt[t]).rr = (s.tnt[t]).rr :=
  congrArg (fun x => x.rr) (quiet_tnt (raise_quiet s p b) t)
@[simp] theorem raise_tnt_xts (s : State) (p : Page) (b : Nat) (t : Tid) : ((s.raise p b).tnt[t]).xts = (s.tnt[t]).xts :=
  congrArg (fun x => x.xts) (quiet_tnt (raise_quiet s p b) t)
@[simp] theorem raise_tnt_gcm (s : State) (p : Page) (b : Nat) (t : Tid) : ((s.raise p b).tnt[t]).gcm = (s.tnt[t]).gcm :=
  congrArg (fun x => x.gcm) (quiet_tnt (raise_quiet s p b) t)
@[simp] theorem raise_tnt_keyWait (s : State) (p : Page) (b : Nat) (t : Tid) : ((s.raise p b).tnt[t]).keyWait = (s.tnt[t]).keyWait :=
  congrArg (fun x => x.keyWait) (quiet_tnt (raise_quiet s p b) t)
@[simp] theorem raise_tnt_lastAck (s : State) (p : Page) (b : Nat) (t : Tid) : ((s.raise p b).tnt[t]).lastAck = (s.tnt[t]).lastAck :=
  congrArg (fun x => x.lastAck) (quiet_tnt (raise_quiet s p b) t)

/-! ## Event records -/

theorem quiet_unlogged {s t : State} (h : s.quiet = t.quiet) : s.unlogged = t.unlogged := by
  unfold State.unlogged; rw [h]

@[simp] theorem raise_unlogged (s : State) (p : Page) (b : Nat) : (s.raise p b).unlogged = s.unlogged :=
  quiet_unlogged (raise_quiet s p b)

@[simp] theorem reserveSeq_unlogged (s : State) : s.reserveSeq.unlogged = s.unlogged := by
  unfold State.reserveSeq
  split <;> rfl

@[simp] theorem countDropped_unlogged (s : State) : s.countDropped.unlogged = s.unlogged := by
  unfold State.countDropped
  rw [raise_unlogged]; rfl

@[simp] theorem bufferRec_unlogged (s : State) (r : EvRec) : (s.bufferRec r).unlogged = s.unlogged := by
  unfold State.bufferRec
  dsimp only
  split
  · rw [reserveSeq_unlogged]; rfl
  · split
    · rw [reserveSeq_unlogged, countDropped_unlogged]; rfl
    · rw [countDropped_unlogged]

@[simp] theorem critical_unlogged (s : State) (c : Nat) : (s.critical c).unlogged = s.unlogged := by
  unfold State.critical
  rw [raise_unlogged]; rfl

/-- An event record changes nothing that `unlogged` keeps. -/
@[simp] theorem recordAs_unlogged (s : State) (rom : Bool) (c : Nat) (sev : Fin 4) (t : Byte) (d : List Byte) :
    (s.recordAs rom c sev t d).unlogged = s.unlogged := by
  unfold State.recordAs
  dsimp only
  split
  · rw [critical_unlogged, bufferRec_unlogged]
  · rw [bufferRec_unlogged]

@[simp] theorem record_unlogged (s : State) (c : Nat) (sev : Fin 4) (t : Byte) (d : List Byte) :
    (s.record c sev t d).unlogged = s.unlogged := recordAs_unlogged _ _ _ _ _ _

@[simp] theorem raiseRec_unlogged (s : State) (p : Page) (b : Nat) (sev : Fin 4) (t : Byte) (d : List Byte) :
    (s.raiseRec p b sev t d).unlogged = s.unlogged := by
  unfold State.raiseRec
  rw [record_unlogged, raise_unlogged]

@[simp] theorem raiseRecStatus_unlogged (s : State) (p : Page) (b : Nat) (sev : Fin 4) (t : Byte) :
    (s.raiseRecStatus p b sev t).unlogged = s.unlogged := by
  unfold State.raiseRecStatus
  rw [record_unlogged, raise_unlogged]

theorem reserveSeq_hdr (s : State) : s.reserveSeq.hdr = s.hdr := by
  unfold State.reserveSeq; split <;> rfl

theorem countDropped_keeps (s : State) (p : Page) (b : Nat) (h : s.bit p b = true) : s.countDropped.bit p b = true :=
  raise_keeps _ _ _ _ _ h

theorem bufferRec_keeps (s : State) (r : EvRec) (p : Page) (b : Nat) (h : s.bit p b = true) : (s.bufferRec r).bit p b = true := by
  unfold State.bufferRec
  dsimp only
  split
  · unfold State.bit; rw [reserveSeq_hdr]; exact h
  · split
    · unfold State.bit; rw [reserveSeq_hdr]; exact countDropped_keeps _ p b h
    · exact countDropped_keeps _ p b h

/-- A status bit that reads 1 stays through any event record. -/
theorem recordAs_keeps (s : State) (rom : Bool) (c : Nat) (sev : Fin 4) (t : Byte) (d : List Byte) (p : Page) (b : Nat)
    (h : s.bit p b = true) : (s.recordAs rom c sev t d).bit p b = true := by
  unfold State.recordAs
  dsimp only
  split
  · exact raise_keeps _ _ _ _ _ (bufferRec_keeps _ _ p b h)
  · exact bufferRec_keeps _ _ p b h

theorem record_keeps (s : State) (c : Nat) (sev : Fin 4) (t : Byte) (d : List Byte) (p : Page) (b : Nat)
    (h : s.bit p b = true) : (s.record c sev t d).bit p b = true := recordAs_keeps _ _ _ _ _ _ _ _ h

/-- An event with a record leaves its bit set. -/
theorem raiseRec_bit (s : State) (p : Page) (b : Nat) (sev : Fin 4) (t : Byte) (d : List Byte) (hb : b < 32)
    (h : intMask p &&& bitW true b ≠ 0#32) (n : tenantOfPage p = none) : (s.raiseRec p b sev t d).bit p b = true :=
  record_keeps _ _ _ _ _ _ _ (raise_bit s p b hb h n)

theorem raiseRecStatus_bit (s : State) (p : Page) (b : Nat) (sev : Fin 4) (t : Byte) (hb : b < 32)
    (h : intMask p &&& bitW true b ≠ 0#32) (n : tenantOfPage p = none) : (s.raiseRecStatus p b sev t).bit p b = true :=
  record_keeps _ _ _ _ _ _ _ (raise_bit s p b hb h n)

end Sys2Proof.Machine
end

