-- ==== Sys2Proof/Laws/SameHqm.lean ====
section
/-!
SUPPORT. Operations that leave the commands in flight as they were: one lemma for each, over the relation `SameHqm`.
-/
set_option linter.unusedTactic false
set_option linter.unreachableTactic false
set_option linter.unusedVariables false
set_option linter.unusedSimpArgs false

namespace Sys2Proof.Machine
/-- The commands in flight are the same. -/
structure SameHqm (s t : State) : Prop where
  eq : t.hqm = s.hqm
theorem SameHqm.rfl' (s : State) : SameHqm s s := ⟨rfl⟩
theorem SameHqm.trans {s t u : State} (h : SameHqm s t) (g : SameHqm t u) : SameHqm s u := ⟨g.eq.trans h.eq⟩
theorem SameHqm.mk3 {s x : State} {pending : List Instr} {now : Nat} {freeCtr : Nat} {outbox : List Output} {aon :
    AonS} {nvm : Nvm} {hdr : Vector PageHdr 128} {regs : KMap Word} {pins : Pins} {dev : DevS} {clk : ClkS} {pwr :
    PwrS} {boot : BootS} {upd : UpdS} {pcie : PcieS} {troutes : Vector TRoute 512} {tnt : Vector Tenant 64} {own :
    OwnS} {ciph : CiphS} {sign : SignS} {chainU : SealS} {med : MedS} {dram : DramS} {sram : SramS} {bpm : BpmS}
    {squall : SquallS} {evr : EvrS} {mtr : MtrS} {disp : DispS} {qspi : QspiS} {spit : SpitS} {i2ct : I2ctS} {i2ci :
    I2ciS} {gpio : GpioS} {vfl : Vector VflS 4} {vfr : VfrS} {mir : MirS} {hkp : HkpS} {thr : ThrS} {dbg : DbgS} :
    SameHqm s (State.mk pending now freeCtr outbox aon nvm hdr regs pins dev clk pwr boot upd pcie troutes tnt x.hqm
    own ciph sign chainU med dram sram bpm squall evr mtr disp qspi spit i2ct i2ci gpio vfl vfr mir hkp thr dbg) =
    SameHqm s x := propext ⟨fun h => ⟨h.eq⟩, fun h => ⟨h.eq⟩⟩
theorem SameHqm.foldl {α : Type} {s x : State} {f : State → α → State} {l : List α} (g : ∀ a b, SameHqm s a → SameHqm s (f a b))
    (h : SameHqm s x) : SameHqm s (l.foldl f x) := by
  induction l generalizing x with
  | nil => exact h
  | cons b r ih => exact ih (g x b h)
/-- A state that may be absent keeps. -/
structure SameHqmK1 (s : State) (o : Option State) : Prop where
  out : ∀ t, o = some t → SameHqm s t
/-- As `SameHqmK1`, with a result beside the state. -/
structure SameHqmK2 {α : Type} (s : State) (o : Option (α × State)) : Prop where
  out : ∀ a t, o = some (a, t) → SameHqm s t
/-- As `SameHqmK2`, the state first. -/
structure SameHqmK3 {α : Type} (s : State) (o : Option (State × α)) : Prop where
  out : ∀ a t, o = some (t, a) → SameHqm s t
/-- A state with a result beside it keeps. -/
structure SameHqmK4 {α : Type} (s : State) (p : State × α) : Prop where
  fst : SameHqm s p.1
/-- A state or a code keeps. -/
structure SameHqmK5 {α ε : Type} (s : State) (o : Except ε (α × State)) : Prop where
  out : ∀ a t, o = .ok (a, t) → SameHqm s t

theorem SameHqmK1.none {s : State} : SameHqmK1 s none := ⟨fun _ h => by cases h⟩
theorem SameHqmK1.some {s t : State} (h : SameHqm s t) : SameHqmK1 s (some t) := ⟨fun _ e => by cases e; exact h⟩
theorem SameHqmK1.elim {s t : State} {o : Option State} (h : SameHqmK1 s o) (e : o = Option.some t) : SameHqm s t := h.out _ e
theorem SameHqmK1.getD {s x : State} {o : Option State} (h : SameHqmK1 s o) (g : SameHqm s x) : SameHqm s (o.getD x) := by
  cases o with
  | none => exact g
  | some t => exact h.out _ rfl
theorem SameHqmK1.findSome {α : Type} {s : State} {l : List α} {f : α → Option State} (h : ∀ a, SameHqmK1 s (f a)) :
    SameHqmK1 s (l.findSome? f) := ⟨fun _ e => by
  obtain ⟨_, a, _, _, h2, _⟩ := List.findSome?_eq_some_iff.mp e
  exact (h a).out _ h2⟩
theorem SameHqmK2.findSome {α β : Type} {s : State} {l : List α} {f : α → Option (β × State)} (h : ∀ a, SameHqmK2 s (f a)) :
    SameHqmK2 s (l.findSome? f) := ⟨fun _ _ e => by
  obtain ⟨_, a, _, _, h2, _⟩ := List.findSome?_eq_some_iff.mp e
  exact (h a).out _ _ h2⟩
theorem SameHqmK2.none {α : Type} {s : State} : SameHqmK2 (α := α) s none := ⟨fun _ _ h => by cases h⟩
theorem SameHqmK2.some {α : Type} {s t : State} {a : α} (h : SameHqm s t) : SameHqmK2 s (some (a, t)) := ⟨fun _ _ e => by cases e; exact h⟩
theorem SameHqmK2.elim {α : Type} {s t : State} {a : α} {o : Option (α × State)} (h : SameHqmK2 s o) (e : o = Option.some (a, t)) :
    SameHqm s t := h.out _ _ e
theorem SameHqmK3.none {α : Type} {s : State} : SameHqmK3 (α := α) s none := ⟨fun _ _ h => by cases h⟩
theorem SameHqmK3.some {α : Type} {s t : State} {a : α} (h : SameHqm s t) : SameHqmK3 s (some (t, a)) := ⟨fun _ _ e => by cases e; exact h⟩
theorem SameHqmK3.elim {α : Type} {s t : State} {a : α} {o : Option (State × α)} (h : SameHqmK3 s o) (e : o = Option.some (t, a)) :
    SameHqm s t := h.out _ _ e
theorem SameHqmK4.elim {α : Type} {s t : State} {a : α} {p : State × α} (h : SameHqmK4 s p) (e : p = (t, a)) : SameHqm s t := by
  subst e; exact h.fst
theorem SameHqmK5.error {α ε : Type} {s : State} {c : ε} : SameHqmK5 (α := α) s (.error c) := ⟨fun _ _ h => by cases h⟩
theorem SameHqmK5.ok {α ε : Type} {s t : State} {a : α} (h : SameHqm s t) : SameHqmK5 (ε := ε) s (.ok (a, t)) := ⟨fun _ _ e => by cases e; exact h⟩
theorem SameHqmK5.elim {α ε : Type} {s t : State} {a : α} {o : Except ε (α × State)} (h : SameHqmK5 s o) (e : o = .ok (a, t)) :
    SameHqm s t := h.out _ _ e
theorem SameHqmK4.foldl {α β : Type} {s : State} {f : State × β → α → State × β} {l : List α} {x : State × β}
    (g : ∀ a b, SameHqmK4 s a → SameHqmK4 s (f a b)) (h : SameHqmK4 s x) : SameHqmK4 s (l.foldl f x) := by
  induction l generalizing x with
  | nil => exact h
  | cons b r ih => exact ih (g x b h)
theorem SameHqmK1.foldl {α : Type} {s : State} {f : Option State → α → Option State} {l : List α} {x : Option State}
    (g : ∀ a b, SameHqmK1 s a → SameHqmK1 s (f a b)) (h : SameHqmK1 s x) : SameHqmK1 s (l.foldl f x) := by
  induction l generalizing x with
  | nil => exact h
  | cons b r ih => exact ih (g x b h)
theorem SameHqmK1.map {s : State} {f : State → State} {o : Option State} (g : ∀ t, SameHqm s t → SameHqm s (f t)) (h : SameHqmK1 s o) :
    SameHqmK1 s (o.map f) := ⟨fun t e => by
  cases o with
  | none => cases e
  | some y => cases e; exact g y (h.out y rfl)⟩

theorem hqm_drawn {s0 : State} (s : State) (hks : SameHqm s0 s) : SameHqm s0 (State.drawn s) := by
  unfold State.drawn
  try dsimp only
  repeat' (first | with_reducible assumption | simp only [SameHqm.mk3] | (intro _) | split)

theorem hqm_emit {s0 : State} (s : State) (o : Output) (hks : SameHqm s0 s) : SameHqm s0 (State.emit s o) := by
  unfold State.emit
  try dsimp only
  repeat' (first | with_reducible assumption | simp only [SameHqm.mk3] | (intro _) | split)

theorem hqm_endLull {s0 : State} (s : State) (hks : SameHqm s0 s) : SameHqm s0 (State.endLull s) := by
  unfold State.endLull
  try dsimp only
  repeat' (first | with_reducible assumption | simp only [SameHqm.mk3] | (intro _) | split)

theorem hqm_updHdr {s0 : State} (s : State) (p : Page) (f : PageHdr → PageHdr) (hks : SameHqm s0 s) : SameHqm s0 (State.updHdr
      s p f) := by
  unfold State.updHdr
  try dsimp only
  repeat' (first | with_reducible assumption | simp only [SameHqm.mk3] | (intro _) | split)

theorem hqm_updTnt {s0 : State} (s : State) (t : Tid) (f : Tenant → Tenant) (hks : SameHqm s0 s) : SameHqm s0 (State.updTnt s
      t f) := by
  unfold State.updTnt
  try dsimp only
  repeat' (first | with_reducible assumption | simp only [SameHqm.mk3] | (intro _) | split)

theorem hqm_updFn {s0 : State} (s : State) (n : Fn) (f : FnS → FnS) (hks : SameHqm s0 s) : SameHqm s0 (State.updFn s n f) := by
  unfold State.updFn
  try dsimp only
  repeat' (first | with_reducible assumption | simp only [SameHqm.mk3] | (intro _) | split)

theorem hqm_setReg {s0 : State} (s : State) (p : Page) (off : Nat) (v : Word) (hks : SameHqm s0 s) : SameHqm s0 (State.setReg
      s p off v) := by
  unfold State.setReg
  try dsimp only
  repeat' (first | with_reducible assumption | simp only [SameHqm.mk3] | (intro _) | split)

theorem hqm_request {s0 : State} (s : State) (fn : Fn) (vec : Nat) (hks : SameHqm s0 s) : SameHqm s0 (State.request s fn vec)
      := by
  unfold State.request
  try dsimp only
  repeat' (first | with_reducible assumption | with_reducible apply hqm_emit | with_reducible apply hqm_updFn | simp only [SameHqm.mk3] | (intro _) | split)

theorem hqm_requestBlock {s0 : State} (s : State) (n : Nat) (hks : SameHqm s0 s) : SameHqm s0 (State.requestBlock s n) := by
  unfold State.requestBlock
  try dsimp only
  repeat' (first | with_reducible assumption | with_reducible apply hqm_request | simp only [SameHqm.mk3] | (intro _) | split)

theorem hqm_noticeBlock {s0 : State} (s : State) (n : Nat) (hks : SameHqm s0 s) : SameHqm s0 (State.noticeBlock s n) := by
  unfold State.noticeBlock
  try dsimp only
  repeat' (first | with_reducible assumption | with_reducible apply hqm_updTnt | simp only [SameHqm.mk3] | (intro _) | split)

theorem hqm_requestTenant {s0 : State} (s : State) (t : Tid) (q : Qid) (hks : SameHqm s0 s) : SameHqm s0 (State.requestTenant
      s t q) := by
  unfold State.requestTenant
  try dsimp only
  repeat' (first | with_reducible assumption | with_reducible apply hqm_request | simp only [SameHqm.mk3] | (intro _) | split)

theorem hqm_updInta {s0 : State} (s : State) (hks : SameHqm s0 s) : SameHqm s0 (State.updInta s) := by
  unfold State.updInta
  try dsimp only
  repeat' (first | with_reducible assumption | with_reducible apply hqm_emit | simp only [SameHqm.mk3] | (intro _) | split)

theorem hqm_raise {s0 : State} (s : State) (p : Page) (b : Nat) (hks : SameHqm s0 s) : SameHqm s0 (State.raise s p b) := by
  unfold State.raise
  try dsimp only
  repeat' (first | with_reducible assumption | with_reducible apply hqm_updHdr | with_reducible apply hqm_requestBlock | with_reducible apply hqm_noticeBlock | with_reducible apply hqm_requestTenant | simp only [SameHqm.mk3] | (intro _) | split)

theorem hqm_raiseTnt {s0 : State} (s : State) (t : Tid) (b : Nat) (hks : SameHqm s0 s) : SameHqm s0 (State.raiseTnt s t b) := by
  unfold State.raiseTnt
  try dsimp only
  repeat' (first | with_reducible assumption | with_reducible apply hqm_raise | simp only [SameHqm.mk3] | (intro _) | split)

theorem hqm_raiseTenants {s0 : State} (s : State) (p : State → Tid → Bool) (b : Nat) (hks : SameHqm s0 s) : SameHqm s0
      (State.raiseTenants s p b) := by
  unfold State.raiseTenants
  try dsimp only
  repeat' (first | with_reducible assumption | with_reducible apply hqm_raiseTnt | with_reducible apply SameHqm.foldl | simp only [SameHqm.mk3] | (intro _) | split)

theorem hqm_countErr {s0 : State} (s : State) (p : Page) (cause : Byte) (addr : Word) (hks : SameHqm s0 s) : SameHqm s0
      (State.countErr s p cause addr) := by
  unfold State.countErr
  try dsimp only
  repeat' (first | with_reducible assumption | with_reducible apply hqm_updHdr | with_reducible apply hqm_raise | simp only [SameHqm.mk3] | (intro _) | split)

theorem hqm_aerUncorrectable {s0 : State} (s : State) (fn : Fn) (bit : Nat) (hks : SameHqm s0 s) : SameHqm s0
      (State.aerUncorrectable s fn bit) := by
  unfold State.aerUncorrectable
  try dsimp only
  repeat' (first | with_reducible assumption | with_reducible apply hqm_updFn | with_reducible apply hqm_raise | simp only [SameHqm.mk3] | (intro _) | split)

theorem hqm_aerCorrectable {s0 : State} (s : State) (fn : Fn) (bit : Nat) (hks : SameHqm s0 s) : SameHqm s0
      (State.aerCorrectable s fn bit) := by
  unfold State.aerCorrectable
  try dsimp only
  repeat' (first | with_reducible assumption | with_reducible apply hqm_updFn | with_reducible apply hqm_raise | simp only [SameHqm.mk3] | (intro _) | split)

theorem hqm_aerAdvisory {s0 : State} (s : State) (fn : Fn) (bit : Nat) (hks : SameHqm s0 s) : SameHqm s0 (State.aerAdvisory s
      fn bit) := by
  unfold State.aerAdvisory
  try dsimp only
  repeat' (first | with_reducible assumption | with_reducible apply hqm_updFn | with_reducible apply hqm_raise | with_reducible apply hqm_aerUncorrectable | simp only [SameHqm.mk3] | (intro _) | split)

theorem hqm_poisonReceived {s0 : State} (s : State) (fn : Fn) (hks : SameHqm s0 s) : SameHqm s0 (State.poisonReceived s fn) :=
      by
  unfold State.poisonReceived
  try dsimp only
  repeat' (first | with_reducible assumption | with_reducible apply hqm_raise | with_reducible apply hqm_aerAdvisory | simp only [SameHqm.mk3] | (intro _) | split)

theorem hqm_reserveSeq {s0 : State} (s : State) (hks : SameHqm s0 s) : SameHqm s0 (State.reserveSeq s) := by
  unfold State.reserveSeq
  try dsimp only
  repeat' (first | with_reducible assumption | simp only [SameHqm.mk3] | (intro _) | split)

theorem hqm_countDropped {s0 : State} (s : State) (hks : SameHqm s0 s) : SameHqm s0 (State.countDropped s) := by
  unfold State.countDropped
  try dsimp only
  repeat' (first | with_reducible assumption | with_reducible apply hqm_raise | simp only [SameHqm.mk3] | (intro _) | split)

theorem hqm_bufferRec {s0 : State} (s : State) (r : EvRec) (hks : SameHqm s0 s) : SameHqm s0 (State.bufferRec s r) := by
  unfold State.bufferRec
  try dsimp only
  repeat' (first | with_reducible assumption | with_reducible apply hqm_reserveSeq | with_reducible apply hqm_countDropped | simp only [SameHqm.mk3] | (intro _) | split)

theorem hqm_critical {s0 : State} (s : State) (code : Nat) (hks : SameHqm s0 s) : SameHqm s0 (State.critical s code) := by
  unfold State.critical
  try dsimp only
  repeat' (first | with_reducible assumption | with_reducible apply hqm_raise | simp only [SameHqm.mk3] | (intro _) | split)

theorem hqm_recordAs {s0 : State} (s : State) (rom : Bool) (code : Nat) (sev : Fin 4) (tenant : Byte) (detail : List Byte)
      (hks : SameHqm s0 s) : SameHqm s0 (State.recordAs s rom code sev tenant detail) := by
  unfold State.recordAs
  try dsimp only
  repeat' (first | with_reducible assumption | with_reducible apply hqm_bufferRec | with_reducible apply hqm_critical | simp only [SameHqm.mk3] | (intro _) | split)

theorem hqm_record {s0 : State} (s : State) (code : Nat) (sev : Fin 4) (tenant : Byte) (detail : List Byte) (hks : SameHqm s0
      s) : SameHqm s0 (State.record s code sev tenant detail) := by
  unfold State.record
  try dsimp only
  repeat' (first | with_reducible assumption | with_reducible apply hqm_recordAs | simp only [SameHqm.mk3] | (intro _) | split)

theorem hqm_raiseRec {s0 : State} (s : State) (p : Page) (b : Nat) (sev : Fin 4) (tenant : Byte) (detail : List Byte) (hks :
      SameHqm s0 s) : SameHqm s0 (State.raiseRec s p b sev tenant detail) := by
  unfold State.raiseRec
  try dsimp only
  repeat' (first | with_reducible assumption | with_reducible apply hqm_raise | with_reducible apply hqm_record | simp only [SameHqm.mk3] | (intro _) | split)

theorem hqm_raiseRecStatus {s0 : State} (s : State) (p : Page) (b : Nat) (sev : Fin 4) (tenant : Byte) (hks : SameHqm s0 s) :
      SameHqm s0 (State.raiseRecStatus s p b sev tenant) := by
  unfold State.raiseRecStatus
  try dsimp only
  repeat' (first | with_reducible assumption | with_reducible apply hqm_raise | with_reducible apply hqm_record | simp only [SameHqm.mk3] | (intro _) | split)

theorem hqm_setEb {s0 : State} (s : State) (n : Nat) (hks : SameHqm s0 s) : SameHqm s0 (State.setEb s n) := by
  unfold State.setEb
  try dsimp only
  repeat' (first | with_reducible assumption | with_reducible apply hqm_raise | with_reducible apply hqm_raiseTenants | simp only [SameHqm.mk3] | (intro _) | split)

theorem hqm_vcapReading {s0 : State} (s : State) (mV : Nat) (hks : SameHqm s0 s) : SameHqm s0 (State.vcapReading s mV) := by
  unfold State.vcapReading
  try dsimp only
  repeat' (first | with_reducible assumption | with_reducible apply hqm_setEb | simp only [SameHqm.mk3] | (intro _) | split)

theorem hqm_probeShrink {s0 : State} (s : State) (hks : SameHqm s0 s) : SameHqm s0 (State.probeShrink s) := by
  unfold State.probeShrink
  try dsimp only
  repeat' (first | with_reducible assumption | with_reducible apply hqm_setEb | simp only [SameHqm.mk3] | (intro _) | split)

theorem hqm_holdupSkipped {s0 : State} (s : State) (hks : SameHqm s0 s) : SameHqm s0 (State.holdupSkipped s) := by
  unfold State.holdupSkipped
  try dsimp only
  repeat' (first | with_reducible assumption | with_reducible apply hqm_setEb | simp only [SameHqm.mk3] | (intro _) | split)

theorem hqm_pmicShrink {s0 : State} (s : State) (hks : SameHqm s0 s) : SameHqm s0 (State.pmicShrink s) := by
  unfold State.pmicShrink
  try dsimp only
  repeat' (first | with_reducible assumption | with_reducible apply hqm_drawn | with_reducible apply hqm_setEb | simp only [SameHqm.mk3] | (intro _) | split)

theorem hqm_addCause {s0 : State} (s : State) (c : RstCause) (hks : SameHqm s0 s) : SameHqm s0 (State.addCause s c) := by
  unfold State.addCause
  try dsimp only
  repeat' (first | with_reducible assumption | simp only [SameHqm.mk3] | (intro _) | split)

theorem hqm_release {s0 : State} (s : State) (hks : SameHqm s0 s) : SameHqm s0 (State.release s) := by
  unfold State.release
  try dsimp only
  repeat' (first | with_reducible assumption | simp only [SameHqm.mk3] | (intro _) | split)

theorem hqm_setLevel {s0 : State} (s : State) (l : Level) (hks : SameHqm s0 s) : SameHqm s0 (State.setLevel s l) := by
  unfold State.setLevel
  try dsimp only
  repeat' (first | with_reducible assumption | with_reducible apply hqm_raise | with_reducible apply hqm_raiseTenants | simp only [SameHqm.mk3] | (intro _) | split)

theorem hqm_supplySeen {s0 : State} (s : State) (cause : Byte) (hks : SameHqm s0 s) : SameHqm s0 (State.supplySeen s cause) :=
      by
  unfold State.supplySeen
  try dsimp only
  repeat' (first | with_reducible assumption | simp only [SameHqm.mk3] | (intro _) | split)

theorem hqm_collect {s0 : State} (s : State) (cause : Byte) (hks : SameHqm s0 s) : SameHqm s0 (State.collect s cause) := by
  unfold State.collect
  try dsimp only
  repeat' (first | with_reducible assumption | with_reducible apply hqm_addCause | simp only [SameHqm.mk3] | (intro _) | split)

theorem hqm_squallStart {s0 : State} (s : State) (cause : Byte) (hks : SameHqm s0 s) : SameHqm s0 (State.squallStart s cause)
      := by
  unfold State.squallStart
  try dsimp only
  repeat' (first | with_reducible assumption | with_reducible apply hqm_record | with_reducible apply hqm_step | simp only [SameHqm.mk3] | (intro _) | split)

theorem hqm_squallTrigger {s0 : State} (s : State) (cause : Byte) (hks : SameHqm s0 s) : SameHqm s0 (State.squallTrigger s
      cause) := by
  unfold State.squallTrigger
  try dsimp only
  repeat' (first | with_reducible assumption | with_reducible apply hqm_supplySeen | with_reducible apply hqm_collect | with_reducible apply hqm_squallStart | simp only [SameHqm.mk3] | (intro _) | split)

theorem hqm_updVfl {s0 : State} (s : State) (p : Fin 4) (f : VflS → VflS) (hks : SameHqm s0 s) : SameHqm s0 (State.updVfl s p
      f) := by
  unfold State.updVfl
  try dsimp only
  repeat' (first | with_reducible assumption | simp only [SameHqm.mk3] | (intro _) | split)

theorem hqm_advDue {s0 : State} (s : State) (hks : SameHqm s0 s) : SameHqm s0 (State.advDue s) := by
  unfold State.advDue
  try dsimp only
  repeat' (first | with_reducible assumption | simp only [SameHqm.mk3] | (intro _) | split)

theorem hqm_startPorts {s0 : State} (s : State) (hks : SameHqm s0 s) : SameHqm s0 (State.startPorts s) := by
  unfold State.startPorts
  try dsimp only
  repeat' (first | with_reducible assumption | with_reducible apply hqm_advDue | simp only [SameHqm.mk3] | (intro _) | split)

theorem hqm_sendOne {s0 : State} (s : State) (port : Fin 4) (hks : SameHqm s0 s) : SameHqmK1 s0 (State.sendOne s port) := by
  unfold State.sendOne
  try dsimp only
  repeat' (first | with_reducible assumption | with_reducible apply hqm_emit | with_reducible apply hqm_updVfl | exact fun h => h | with_reducible apply SameHqmK1.none | with_reducible apply SameHqmK1.some | with_reducible apply SameHqmK1.findSome | simp only [SameHqm.mk3] | (intro _) | split)

theorem hqm_drainPort {s0 : State} (s : State) (port : Fin 4) (n : Nat) (hks : SameHqm s0 s) : SameHqm s0 (State.drainPort s
      port n) := by
  induction n generalizing s with
  | zero => exact hks
  | succ k ih =>
    unfold State.drainPort
    split
    · rename_i s1 e
      exact ih s1 ((hqm_sendOne s port hks).elim e)
    · exact hks

theorem hqm_sendOn {s0 : State} (s : State) (port : Fin 4) (p : OutPkt) (hks : SameHqm s0 s) : SameHqm s0 (State.sendOn s port
      p) := by
  unfold State.sendOn
  try dsimp only
  repeat' (first | with_reducible assumption | with_reducible apply hqm_updVfl | with_reducible apply hqm_drainPort | exact fun h => h | simp only [SameHqm.mk3] | (intro _) | split)

theorem hqm_sendPkt {s0 : State} (s : State) (p : OutPkt) (hks : SameHqm s0 s) : SameHqm s0 (State.sendPkt s p) := by
  unfold State.sendPkt
  try dsimp only
  repeat' (first | with_reducible assumption | with_reducible apply hqm_sendOn | simp only [SameHqm.mk3] | (intro _) | split)

theorem hqm_sendLong {s0 : State} (s : State) (p : OutPkt) (hks : SameHqm s0 s) : SameHqm s0 (State.sendLong s p) := by
  unfold State.sendLong
  try dsimp only
  repeat' (first | with_reducible assumption | with_reducible apply hqm_sendPkt | with_reducible apply SameHqm.foldl | simp only [SameHqm.mk3] | (intro _) | split)

theorem hqm_linkLeave {s0 : State} (s : State) (port : Fin 4) (dst : LinkSt) (hks : SameHqm s0 s) : SameHqm s0
      (State.linkLeave s port dst) := by
  unfold State.linkLeave
  try dsimp only
  repeat' (first | with_reducible assumption | with_reducible apply hqm_raise | with_reducible apply hqm_updVfl | exact fun h => h | with_reducible apply SameHqmK1.getD | simp only [SameHqm.mk3] | (intro _) | split)

theorem hqm_linksDown {s0 : State} (s : State) (dst : LinkSt) (hks : SameHqm s0 s) : SameHqm s0 (State.linksDown s dst) := by
  unfold State.linksDown
  try dsimp only
  repeat' (first | with_reducible assumption | with_reducible apply hqm_linkLeave | with_reducible apply SameHqm.foldl | simp only [SameHqm.mk3] | (intro _) | split)

theorem hqm_mirLeave {s0 : State} (s : State) (st : MirSt) (reason : BitVec 3) (hks : SameHqm s0 s) : SameHqm s0
      (State.mirLeave s st reason) := by
  unfold State.mirLeave
  try dsimp only
  repeat' (first | with_reducible assumption | with_reducible apply hqm_raise | simp only [SameHqm.mk3] | (intro _) | split)

theorem hqm_mirSend {s0 : State} (s : State) (type : Byte) (vc : Fin 3) (t : Tid) (payload : List Byte) (hks : SameHqm s0 s) :
      SameHqm s0 (State.mirSend s type vc t payload) := by
  unfold State.mirSend
  try dsimp only
  repeat' (first | with_reducible assumption | with_reducible apply hqm_sendLong | simp only [SameHqm.mk3] | (intro _) | split)

theorem hqm_mirStateItem {s0 : State} (s : State) (t : Tid) (item : Byte) (payload : List Byte) (hks : SameHqm s0 s) : SameHqm
      s0 (State.mirStateItem s t item payload) := by
  unfold State.mirStateItem
  try dsimp only
  repeat' (first | with_reducible assumption | with_reducible apply hqm_mirSend | simp only [SameHqm.mk3] | (intro _) | split)

theorem hqm_mirDeviceItem {s0 : State} (s : State) (item : Byte) (payload : List Byte) (hks : SameHqm s0 s) : SameHqm s0
      (State.mirDeviceItem s item payload) := by
  unfold State.mirDeviceItem
  try dsimp only
  repeat' (first | with_reducible assumption | with_reducible apply hqm_mirSend | simp only [SameHqm.mk3] | (intro _) | split)

theorem hqm_updZone {s0 : State} (s : State) (z : Nat) (f : Zone → Zone) (hks : SameHqm s0 s) : SameHqm s0 (State.updZone s z
      f) := by
  unfold State.updZone
  try dsimp only
  repeat' (first | with_reducible assumption | simp only [SameHqm.mk3] | (intro _) | split)

theorem hqm_putZone {s0 : State} (s : State) (z : Nat) (x : Zone) (hks : SameHqm s0 s) : SameHqm s0 (State.putZone s z x) := by
  unfold State.putZone
  try dsimp only
  repeat' (first | with_reducible assumption | simp only [SameHqm.mk3] | (intro _) | split)

theorem hqm_meterIn {s0 : State} (s : State) (cls : Fin 4) (n : Nat) (hks : SameHqm s0 s) : SameHqm s0 (State.meterIn s cls n)
      := by
  unfold State.meterIn
  try dsimp only
  repeat' (first | with_reducible assumption | simp only [SameHqm.mk3] | (intro _) | split)

theorem hqm_quotaNear {s0 : State} (s : State) (t : Tid) (hks : SameHqm s0 s) : SameHqm s0 (State.quotaNear s t) := by
  unfold State.quotaNear
  try dsimp only
  repeat' (first | with_reducible assumption | with_reducible apply hqm_raiseTnt | simp only [SameHqm.mk3] | (intro _) | split)

theorem hqm_updEntry {s0 : State} (s : State) (z : Nat) (n : Nat) (f : AppRec → AppRec) (hks : SameHqm s0 s) : SameHqm s0
      (State.updEntry s z n f) := by
  unfold State.updEntry
  try dsimp only
  repeat' (first | with_reducible assumption | with_reducible apply hqm_updZone | simp only [SameHqm.mk3] | (intro _) | split)

theorem hqm_mirAppendSend {s0 : State} (s : State) (t : Tid) (z : Nat) (e : AppRec) (hks : SameHqm s0 s) : SameHqm s0
      (State.mirAppendSend s t z e) := by
  unfold State.mirAppendSend
  try dsimp only
  repeat' (first | with_reducible assumption | with_reducible apply hqm_mirSend | simp only [SameHqm.mk3] | (intro _) | split)

theorem hqm_withdraw {s0 : State} (s : State) (t : Tid) (lowest : Nat) (again : List (Nat × AppRec)) (hks : SameHqm s0 s) :
      SameHqm s0 (State.withdraw s t lowest again) := by
  unfold State.withdraw
  try dsimp only
  repeat' (first | with_reducible assumption | with_reducible apply hqm_mirSend | with_reducible apply hqm_mirAppendSend | with_reducible apply SameHqm.foldl | simp only [SameHqm.mk3] | (intro _) | split)

theorem hqm_zresetRecord {s0 : State} (s : State) (z : Nat) (x : Zone) (cause : Byte) (hks : SameHqm s0 s) : SameHqm s0
      (State.zresetRecord s z x cause) := by
  unfold State.zresetRecord
  try dsimp only
  repeat' (first | with_reducible assumption | with_reducible apply SameHqmK1.getD | simp only [SameHqm.mk3] | (intro _) | split)

theorem hqm_emptyZone {s0 : State} (s : State) (z : Nat) (hks : SameHqm s0 s) : SameHqm s0 (State.emptyZone s z) := by
  unfold State.emptyZone
  try dsimp only
  repeat' (first | with_reducible assumption | with_reducible apply hqm_updZone | simp only [SameHqm.mk3] | (intro _) | split)

theorem hqm_recycleZone {s0 : State} (s : State) (z : Nat) (hks : SameHqm s0 s) : SameHqm s0 (State.recycleZone s z) := by
  unfold State.recycleZone
  try dsimp only
  repeat' (first | with_reducible assumption | with_reducible apply hqm_raiseRec | with_reducible apply hqm_mirStateItem | with_reducible apply hqm_zresetRecord | with_reducible apply hqm_emptyZone | simp only [SameHqm.mk3] | (intro _) | split)

theorem hqm_takeZone {s0 : State} (s : State) (t : Tid) (own : Bool) (recycle : Bool) (hks : SameHqm s0 s) : SameHqmK5 s0
      (State.takeZone s t own recycle) := by
  unfold State.takeZone
  try dsimp only
  repeat' (first | with_reducible assumption | with_reducible apply hqm_putZone | with_reducible apply hqm_quotaNear | with_reducible apply hqm_recycleZone | with_reducible apply SameHqmK5.error | with_reducible apply SameHqmK5.ok | simp only [SameHqm.mk3] | (intro _) | split)

theorem hqm_norWrite {s0 : State} (s : State) (a : Nat) (n : Nat) (b : List Byte) (hks : SameHqm s0 s) : SameHqm s0
      (State.norWrite s a n b) := by
  unfold State.norWrite
  try dsimp only
  repeat' (first | with_reducible assumption | simp only [SameHqm.mk3] | (intro _) | split)

theorem hqm_writeRec {s0 : State} (s : State) (r : CtlRec) (hks : SameHqm s0 s) : SameHqm s0 (State.writeRec s r) := by
  unfold State.writeRec
  try dsimp only
  repeat' (first | with_reducible assumption | with_reducible apply hqm_norWrite | simp only [SameHqm.mk3] | (intro _) | split)

theorem hqm_romRecover {s0 : State} (s : State) (cause : Byte) (detail : Byte) (hks : SameHqm s0 s) : SameHqm s0
      (State.romRecover s cause detail) := by
  unfold State.romRecover
  try dsimp only
  repeat' (first | with_reducible assumption | with_reducible apply hqm_raise | with_reducible apply hqm_recordAs | simp only [SameHqm.mk3] | (intro _) | split)

theorem hqm_ackCause {s0 : State} (s : State) (hks : SameHqm s0 s) : SameHqm s0 (State.ackCause s) := by
  unfold State.ackCause
  try dsimp only
  repeat' (first | with_reducible assumption | with_reducible apply hqm_record | simp only [SameHqm.mk3] | (intro _) | split)

theorem hqm_saveGust {s0 : State} (s : State) (hks : SameHqm s0 s) : SameHqm s0 (State.saveGust s) := by
  unfold State.saveGust
  try dsimp only
  repeat' (first | with_reducible assumption | simp only [SameHqm.mk3] | (intro _) | split)

theorem hqm_dispStart {s0 : State} (s : State) (hks : SameHqm s0 s) : SameHqm s0 (State.dispStart s) := by
  unfold State.dispStart
  try dsimp only
  repeat' (first | with_reducible assumption | simp only [SameHqm.mk3] | (intro _) | split)

theorem hqm_recover {s0 : State} (s : State) (cause : Byte) (detail : Byte) (hks : SameHqm s0 s) : SameHqm s0 (State.recover s
      cause detail) := by
  unfold State.recover
  try dsimp only
  repeat' (first | with_reducible assumption | with_reducible apply hqm_record | with_reducible apply hqm_setLevel | with_reducible apply hqm_ackCause | with_reducible apply hqm_saveGust | with_reducible apply hqm_dispStart | simp only [SameHqm.mk3] | (intro _) | split)

theorem hqm_judgeMark {s0 : State} (s : State) (taken : BitVec 7) (hks : SameHqm s0 s) : SameHqm s0 (State.judgeMark s taken)
      := by
  unfold State.judgeMark
  try dsimp only
  repeat' (first | with_reducible assumption | with_reducible apply hqm_writeRec | simp only [SameHqm.mk3] | (intro _) | split)

theorem hqm_strapRecords {s0 : State} (s : State) (hks : SameHqm s0 s) : SameHqm s0 (State.strapRecords s) := by
  unfold State.strapRecords
  try dsimp only
  repeat' (first | with_reducible assumption | with_reducible apply hqm_recordAs | simp only [SameHqm.mk3] | (intro _) | split)

theorem hqm_gustWarnings {s0 : State} (s : State) (d : BoardDesc) (p : Policy) (hks : SameHqm s0 s) : SameHqm s0
      (State.gustWarnings s d p) := by
  unfold State.gustWarnings
  try dsimp only
  repeat' (first | with_reducible assumption | with_reducible apply hqm_record | with_reducible apply SameHqm.foldl | simp only [SameHqm.mk3] | (intro _) | split)

theorem hqm_adeitStart {s0 : State} (s : State) (d : BoardDesc) (hks : SameHqm s0 s) : SameHqm s0 (State.adeitStart s d) := by
  unfold State.adeitStart
  try dsimp only
  repeat' (first | with_reducible assumption | with_reducible apply hqm_recover | with_reducible apply hqm_gustWarnings | with_reducible refine SameHqmK2.elim (hqm_drbg _ ?_) ‹_› | with_reducible apply hqm_drbg | simp only [SameHqm.mk3] | (intro _) | split)

theorem hqm_romSlots {s0 : State} (s : State) (d : BoardDesc) (hks : SameHqm s0 s) : SameHqm s0 (State.romSlots s d) := by
  unfold State.romSlots
  try dsimp only
  repeat' (first | with_reducible assumption | with_reducible apply hqm_recordAs | with_reducible apply hqm_writeRec | with_reducible apply hqm_romRecover | with_reducible apply hqm_adeitStart | with_reducible apply SameHqmK1.getD | simp only [SameHqm.mk3] | (intro _) | split)

theorem hqm_romBoot {s0 : State} (s : State) (hks : SameHqm s0 s) : SameHqm s0 (State.romBoot s) := by
  unfold State.romBoot
  try dsimp only
  repeat' (first | with_reducible assumption | with_reducible apply hqm_romRecover | with_reducible apply hqm_judgeMark | with_reducible apply hqm_strapRecords | with_reducible apply hqm_romSlots | simp only [SameHqm.mk3] | (intro _) | split)

theorem hqm_pause {s0 : State} (s : State) (o : Owner) (hks : SameHqm s0 s) : SameHqm s0 (State.pause s o) := by
  unfold State.pause
  try dsimp only
  repeat' (first | with_reducible assumption | with_reducible apply hqm_raise | simp only [SameHqm.mk3] | (intro _) | split)

theorem hqm_alloc {s0 : State} (s : State) (o : Owner) (b : Buf) (hks : SameHqm s0 s) : SameHqmK2 s0 (State.alloc s o b) := by
  unfold State.alloc
  try dsimp only
  repeat' (first | with_reducible assumption | with_reducible apply SameHqmK2.none | with_reducible apply SameHqmK2.some | with_reducible apply SameHqmK2.findSome | simp only [SameHqm.mk3] | (intro _) | split)

theorem hqm_allocAll {s0 : State} (s : State) (o : Owner) (l : List Buf) (hks : SameHqm s0 s) : SameHqmK2 s0 (State.allocAll s
      o l) := by
  induction l generalizing s with
  | nil => exact SameHqmK2.some hks
  | cons b r ih =>
    unfold State.allocAll
    split
    · exact SameHqmK2.none
    · rename_i h s1 e
      split
      · exact SameHqmK2.none
      · rename_i hs s2 e2
        exact SameHqmK2.some ((ih s1 ((hqm_alloc s o b hks).elim e)).elim e2)

theorem hqm_freeBuf {s0 : State} (s : State) (h : Nat) (hks : SameHqm s0 s) : SameHqm s0 (State.freeBuf s h) := by
  unfold State.freeBuf
  try dsimp only
  repeat' (first | with_reducible assumption | simp only [SameHqm.mk3] | (intro _) | split)

theorem hqm_freeBufs {s0 : State} (s : State) (hs : List Nat) (hks : SameHqm s0 s) : SameHqm s0 (State.freeBufs s hs) := by
  unfold State.freeBufs
  try dsimp only
  repeat' (first | with_reducible assumption | with_reducible apply hqm_freeBuf | with_reducible apply SameHqm.foldl | simp only [SameHqm.mk3] | (intro _) | split)

theorem hqm_updBuf {s0 : State} (s : State) (h : Nat) (f : Buf → Buf) (hks : SameHqm s0 s) : SameHqm s0 (State.updBuf s h f)
      := by
  unfold State.updBuf
  try dsimp only
  repeat' (first | with_reducible assumption | simp only [SameHqm.mk3] | (intro _) | split)

theorem hqm_updBufs {s0 : State} (s : State) (hs : List Nat) (f : Buf → Buf) (hks : SameHqm s0 s) : SameHqm s0 (State.updBufs
      s hs f) := by
  unfold State.updBufs
  try dsimp only
  repeat' (first | with_reducible assumption | with_reducible apply hqm_updBuf | with_reducible apply SameHqm.foldl | simp only [SameHqm.mk3] | (intro _) | split)

theorem hqm_loseSram {s0 : State} (s : State) (hks : SameHqm s0 s) : SameHqm s0 (State.loseSram s) := by
  unfold State.loseSram
  try dsimp only
  repeat' (first | with_reducible assumption | simp only [SameHqm.mk3] | (intro _) | split)

theorem hqm_marchStart {s0 : State} (s : State) (v : Word) (hks : SameHqm s0 s) : SameHqm s0 (State.marchStart s v) := by
  unfold State.marchStart
  try dsimp only
  repeat' (first | with_reducible assumption | with_reducible apply hqm_loseSram | simp only [SameHqm.mk3] | (intro _) | split)

theorem hqm_removeSram {s0 : State} (s : State) (hs : List Nat) (hks : SameHqm s0 s) : SameHqm s0 (State.removeSram s hs) := by
  unfold State.removeSram
  try dsimp only
  repeat' (first | with_reducible assumption | with_reducible apply SameHqm.foldl | simp only [SameHqm.mk3] | (intro _) | split)

theorem hqm_repairRow {s0 : State} (s : State) (target : Nat) (f : FailRow) (hks : SameHqm s0 s) : SameHqm s0 (State.repairRow
      s target f) := by
  unfold State.repairRow
  try dsimp only
  repeat' (first | with_reducible assumption | with_reducible apply hqm_raise | with_reducible apply hqm_raiseRec | with_reducible apply hqm_removeSram | simp only [SameHqm.mk3] | (intro _) | split)

theorem hqm_rtRequest {s0 : State} (s : State) (hks : SameHqm s0 s) : SameHqm s0 (State.rtRequest s) := by
  unfold State.rtRequest
  try dsimp only
  repeat' (first | with_reducible assumption | simp only [SameHqm.mk3] | (intro _) | split)

theorem hqm_trainReport {s0 : State} (s : State) (lanes : List LaneSweep) (timeUs : Nat) (hks : SameHqm s0 s) : SameHqm s0
      (State.trainReport s lanes timeUs) := by
  unfold State.trainReport
  try dsimp only
  repeat' (first | with_reducible assumption | with_reducible apply hqm_raiseRecStatus | with_reducible apply SameHqm.foldl | simp only [SameHqm.mk3] | (intro _) | split)

theorem hqm_qspiGo {s0 : State} (s : State) (hks : SameHqm s0 s) : SameHqm s0 (State.qspiGo s) := by
  unfold State.qspiGo
  try dsimp only
  repeat' (first | with_reducible assumption | simp only [SameHqm.mk3] | (intro _) | split)

theorem hqm_hostFrameEnd {s0 : State} (s : State) (data : List Byte) (hks : SameHqm s0 s) : SameHqm s0 (State.hostFrameEnd s
      data) := by
  unfold State.hostFrameEnd
  try dsimp only
  repeat' (first | with_reducible assumption | with_reducible apply hqm_emit | with_reducible apply hqm_raise | simp only [SameHqm.mk3] | (intro _) | split)

theorem hqm_spitTx {s0 : State} (s : State) (v : Word) (hks : SameHqm s0 s) : SameHqm s0 (State.spitTx s v) := by
  unfold State.spitTx
  try dsimp only
  repeat' (first | with_reducible assumption | simp only [SameHqm.mk3] | (intro _) | split)

theorem hqm_spitPop {s0 : State} (s : State) (hks : SameHqm s0 s) : SameHqm s0 (State.spitPop s) := by
  unfold State.spitPop
  try dsimp only
  repeat' (first | with_reducible assumption | simp only [SameHqm.mk3] | (intro _) | split)

theorem hqm_spitCtrl {s0 : State} (s : State) (v : Word) (hks : SameHqm s0 s) : SameHqm s0 (State.spitCtrl s v) := by
  unfold State.spitCtrl
  try dsimp only
  repeat' (first | with_reducible assumption | simp only [SameHqm.mk3] | (intro _) | split)

theorem hqm_setMotion {s0 : State} (s : State) (m : Motion) (hks : SameHqm s0 s) : SameHqm s0 (State.setMotion s m) := by
  unfold State.setMotion
  try dsimp only
  repeat' (first | with_reducible assumption | with_reducible apply hqm_raise | with_reducible apply hqm_raiseRecStatus | simp only [SameHqm.mk3] | (intro _) | split)

theorem hqm_tryEntry {s0 : State} (s : State) (d : BoardDesc) (i : Nat) (ans : PmicAnswer) (hks : SameHqm s0 s) : SameHqmK4 s0
      (State.tryEntry s d i ans) := by
  unfold State.tryEntry
  try dsimp only
  repeat' (first | with_reducible assumption | with_reducible apply hqm_emit | with_reducible apply hqm_raiseRec | with_reducible apply SameHqmK4.mk | simp only [SameHqm.mk3] | (intro _) | split)

theorem hqm_probeDone {s0 : State} (s : State) (d : BoardDesc) (hks : SameHqm s0 s) : SameHqm s0 (State.probeDone s d) := by
  unfold State.probeDone
  try dsimp only
  repeat' (first | with_reducible assumption | with_reducible apply hqm_raise | with_reducible apply hqm_raiseRec | with_reducible apply hqm_setEb | simp only [SameHqm.mk3] | (intro _) | split)

theorem hqm_afterTry {s0 : State} (s : State) (d : BoardDesc) (i : Nat) (e : TryEnd) (hks : SameHqm s0 s) : SameHqm s0
      (State.afterTry s d i e) := by
  unfold State.afterTry
  try dsimp only
  repeat' (first | with_reducible assumption | with_reducible apply hqm_probeDone | simp only [SameHqm.mk3] | (intro _) | split)

theorem hqm_runEntry {s0 : State} (s : State) (d : BoardDesc) (i : Nat) (ans : PmicAnswer) (hks : SameHqm s0 s) : SameHqm s0
      (State.runEntry s d i ans) := by
  unfold State.runEntry
  try dsimp only
  repeat' (first | with_reducible assumption | with_reducible apply SameHqmK4.fst; with_reducible apply hqm_tryEntry | with_reducible refine SameHqmK4.elim (hqm_tryEntry _ _ _ _ ?_) ‹_› | with_reducible apply hqm_tryEntry | with_reducible apply hqm_afterTry | simp only [SameHqm.mk3] | (intro _) | split)

theorem hqm_afterStatus {s0 : State} (s : State) (d : BoardDesc) (i : Nat) (ans : PmicAnswer) (e : TryEnd) (hks : SameHqm s0
      s) : SameHqm s0 (State.afterStatus s d i ans e) := by
  unfold State.afterStatus
  try dsimp only
  repeat' (first | with_reducible assumption | with_reducible apply hqm_raiseRec | with_reducible apply hqm_pmicShrink | simp only [SameHqm.mk3] | (intro _) | split)

theorem hqm_recoverBus {s0 : State} (s : State) (freedAfter : Option (Fin 10)) (hks : SameHqm s0 s) : SameHqm s0
      (State.recoverBus s freedAfter) := by
  unfold State.recoverBus
  try dsimp only
  repeat' (first | with_reducible assumption | with_reducible apply hqm_record | with_reducible apply hqm_raiseRec | with_reducible apply hqm_holdupSkipped | simp only [SameHqm.mk3] | (intro _) | split)

theorem hqm_probeNow {s0 : State} (s : State) (hks : SameHqm s0 s) : SameHqm s0 (State.probeNow s) := by
  unfold State.probeNow
  try dsimp only
  repeat' (first | with_reducible assumption | simp only [SameHqm.mk3] | (intro _) | split)

theorem hqm_formSb {s0 : State} (s : State) (d : BoardDesc) (g : Nat) (use : SbUse) (stream : Nat) (hks : SameHqm s0 s) :
      SameHqmK2 s0 (State.formSb s d g use stream) := by
  unfold State.formSb
  try dsimp only
  repeat' (first | with_reducible assumption | with_reducible apply SameHqmK2.none | with_reducible apply SameHqmK2.some | with_reducible apply SameHqmK1.getD | simp only [SameHqm.mk3] | (intro _) | split)

theorem hqm_formSysSb {s0 : State} (s : State) (d : BoardDesc) (g : Nat) (hks : SameHqm s0 s) : SameHqm s0 (State.formSysSb s
      d g) := by
  unfold State.formSysSb
  try dsimp only
  repeat' (first | with_reducible assumption | simp only [SameHqm.mk3] | (intro _) | split)

theorem hqm_updSb {s0 : State} (s : State) (k : Nat) (f : Superblock → Superblock) (hks : SameHqm s0 s) : SameHqm s0
      (State.updSb s k f) := by
  unfold State.updSb
  try dsimp only
  repeat' (first | with_reducible assumption | simp only [SameHqm.mk3] | (intro _) | split)

theorem hqm_mediaBits {s0 : State} (s before : State) (hks : SameHqm s0 s) (hkbefore : SameHqm s0 before) : SameHqm s0
      (State.mediaBits s before) := by
  unfold State.mediaBits
  try dsimp only
  repeat' (first | with_reducible assumption | with_reducible apply hqm_raise | with_reducible apply SameHqm.foldl | simp only [SameHqm.mk3] | (intro _) | split)

theorem hqm_streamSb {s0 : State} (s : State) (d : BoardDesc) (g : Nat) (stream : Nat) (use : SbUse) (hks : SameHqm s0 s) :
      SameHqmK2 s0 (State.streamSb s d g stream use) := by
  unfold State.streamSb
  try dsimp only
  repeat' (first | with_reducible assumption | with_reducible refine SameHqmK2.elim (hqm_formSb _ _ _ _ _ ?_) ‹_› | with_reducible apply hqm_formSb | with_reducible apply SameHqmK2.none | with_reducible apply SameHqmK2.some | with_reducible apply SameHqmK2.findSome | simp only [SameHqm.mk3] | (intro _) | split)

theorem hqm_chanTouch {s0 : State} (s : State) (ch : Nat) (hks : SameHqm s0 s) : SameHqm s0 (State.chanTouch s ch) := by
  unfold State.chanTouch
  try dsimp only
  repeat' (first | with_reducible assumption | with_reducible apply SameHqmK1.getD | simp only [SameHqm.mk3] | (intro _) | split)

theorem hqm_queueOp {s0 : State} (s : State) (die : Nat) (cls : Nat) (k : FlashKind) (bufs : List Nat) (hks : SameHqm s0 s) :
      SameHqm s0 (State.queueOp s die cls k bufs) := by
  unfold State.queueOp
  try dsimp only
  repeat' (first | with_reducible assumption | with_reducible apply hqm_chanTouch | simp only [SameHqm.mk3] | (intro _) | split)

theorem hqm_queuePages {s0 : State} (s : State) (d : BoardDesc) (key : Nat) (b : Superblock) (cls : Nat) (first : Nat) (n :
      Nat) (hs : List Nat) (hks : SameHqm s0 s) : SameHqm s0 (State.queuePages s d key b cls first n hs) := by
  unfold State.queuePages
  try dsimp only
  repeat' (first | with_reducible assumption | with_reducible apply hqm_queueOp | with_reducible apply SameHqm.foldl | simp only [SameHqm.mk3] | (intro _) | split)

theorem hqm_fillSb {s0 : State} (s : State) (d : BoardDesc) (key : Nat) (cls : Nat) (items : List (Option Nat × Piece)) (hks :
      SameHqm s0 s) : SameHqm s0 (State.fillSb s d key cls items) := by
  unfold State.fillSb
  try dsimp only
  repeat' (first | with_reducible assumption | with_reducible apply hqm_queuePages | with_reducible apply SameHqm.foldl | simp only [SameHqm.mk3] | (intro _) | split)

theorem hqm_journalLines {s0 : State} (s : State) (ps : List Piece) (hks : SameHqm s0 s) : SameHqm s0 (State.journalLines s
      ps) := by
  unfold State.journalLines
  try dsimp only
  repeat' (first | with_reducible assumption | with_reducible apply SameHqmK1.getD | with_reducible apply SameHqm.foldl | simp only [SameHqm.mk3] | (intro _) | split)

theorem hqm_placeFrom {s0 : State} (s : State) (d : BoardDesc) (gs : List Nat) (stream cls : Nat) (items : List (Option Nat ×
      Piece)) (hks : SameHqm s0 s) : SameHqmK1 s0 (State.placeFrom s d gs stream cls items) := by
  unfold State.placeFrom
  try dsimp only
  repeat' (first | with_reducible assumption | with_reducible apply hqm_mediaBits | with_reducible refine SameHqmK2.elim (hqm_streamSb _ _ _ _ _ ?_) ‹_› | with_reducible apply hqm_streamSb | with_reducible apply hqm_fillSb | with_reducible apply hqm_journalLines | with_reducible apply SameHqmK1.none | with_reducible apply SameHqmK1.some | with_reducible apply SameHqmK1.findSome | simp only [SameHqm.mk3] | (intro _) | split)

theorem hqm_placeIn {s0 : State} (s : State) (d : BoardDesc) (stream : Nat) (cls : Nat) (items : List (Option Nat × Piece))
      (hks : SameHqm s0 s) : SameHqmK1 s0 (State.placeIn s d stream cls items) := by
  unfold State.placeIn
  try dsimp only
  repeat' (first | with_reducible assumption | with_reducible refine SameHqmK1.elim (hqm_placeFrom _ _ _ _ _ _ ?_) ‹_› | with_reducible apply hqm_placeFrom | with_reducible apply SameHqmK1.none | with_reducible apply SameHqmK1.some | simp only [SameHqm.mk3] | (intro _) | split)

theorem hqm_journalLag {s0 : State} (s : State) (hks : SameHqm s0 s) : SameHqm s0 (State.journalLag s) := by
  unfold State.journalLag
  try dsimp only
  repeat' (first | with_reducible assumption | with_reducible apply hqm_raise | simp only [SameHqm.mk3] | (intro _) | split)

theorem hqm_judgeReadOnly {s0 : State} (s : State) (hks : SameHqm s0 s) : SameHqm s0 (State.judgeReadOnly s) := by
  unfold State.judgeReadOnly
  try dsimp only
  repeat' (first | with_reducible assumption | with_reducible apply hqm_raiseRec | simp only [SameHqm.mk3] | (intro _) | split)

theorem hqm_retireBlock {s0 : State} (s : State) (die : Nat) (blk : Nat) (cause : Byte) (hks : SameHqm s0 s) : SameHqm s0
      (State.retireBlock s die blk cause) := by
  unfold State.retireBlock
  try dsimp only
  repeat' (first | with_reducible assumption | with_reducible apply hqm_raise | with_reducible apply hqm_mediaBits | with_reducible apply hqm_judgeReadOnly | simp only [SameHqm.mk3] | (intro _) | split)

theorem hqm_settleGroups {s0 : State} (s : State) (hks : SameHqm s0 s) : SameHqm s0 (State.settleGroups s) := by
  unfold State.settleGroups
  try dsimp only
  repeat' (first | with_reducible assumption | simp only [SameHqm.mk3] | (intro _) | split)

theorem hqm_failDie {s0 : State} (s : State) (die : Nat) (hks : SameHqm s0 s) : SameHqm s0 (State.failDie s die) := by
  unfold State.failDie
  try dsimp only
  repeat' (first | with_reducible assumption | with_reducible apply hqm_raise | with_reducible apply hqm_raiseRec | with_reducible apply hqm_mediaBits | with_reducible apply hqm_judgeReadOnly | with_reducible apply hqm_settleGroups | with_reducible apply SameHqmK1.getD | simp only [SameHqm.mk3] | (intro _) | split)

theorem hqm_dieOutcome {s0 : State} (s : State) (die : Nat) (pass : Bool) (hks : SameHqm s0 s) : SameHqm s0 (State.dieOutcome
      s die pass) := by
  unfold State.dieOutcome
  try dsimp only
  repeat' (first | with_reducible assumption | with_reducible apply hqm_failDie | with_reducible apply SameHqmK1.getD | simp only [SameHqm.mk3] | (intro _) | split)

theorem hqm_updNfc {s0 : State} (s : State) (ch : Nat) (f : NfcS → NfcS) (hks : SameHqm s0 s) : SameHqm s0 (State.updNfc s ch
      f) := by
  unfold State.updNfc
  try dsimp only
  repeat' (first | with_reducible assumption | with_reducible apply SameHqmK1.getD | simp only [SameHqm.mk3] | (intro _) | split)

theorem hqm_dropOp {s0 : State} (s : State) (k : Nat) (hks : SameHqm s0 s) : SameHqm s0 (State.dropOp s k) := by
  unfold State.dropOp
  try dsimp only
  repeat' (first | with_reducible assumption | with_reducible apply hqm_chanTouch | simp only [SameHqm.mk3] | (intro _) | split)

theorem hqm_finishErase {s0 : State} (s : State) (key : Nat) (hks : SameHqm s0 s) : SameHqm s0 (State.finishErase s key) := by
  unfold State.finishErase
  try dsimp only
  repeat' (first | with_reducible assumption | with_reducible apply hqm_settleGroups | simp only [SameHqm.mk3] | (intro _) | split)

theorem hqm_queueErases {s0 : State} (s : State) (key : Nat) (b : Superblock) (hks : SameHqm s0 s) : SameHqm s0
      (State.queueErases s key b) := by
  unfold State.queueErases
  try dsimp only
  repeat' (first | with_reducible assumption | with_reducible apply hqm_queueOp | with_reducible apply hqm_finishErase | with_reducible apply SameHqm.foldl | simp only [SameHqm.mk3] | (intro _) | split)

theorem hqm_eraseSb {s0 : State} (s : State) (key : Nat) (hks : SameHqm s0 s) : SameHqm s0 (State.eraseSb s key) := by
  unfold State.eraseSb
  try dsimp only
  repeat' (first | with_reducible assumption | with_reducible apply hqm_updSb | with_reducible apply hqm_queueErases | simp only [SameHqm.mk3] | (intro _) | split)

theorem hqm_eraseIfEmpty {s0 : State} (s : State) (key : Nat) (hks : SameHqm s0 s) : SameHqm s0 (State.eraseIfEmpty s key) := by
  unfold State.eraseIfEmpty
  try dsimp only
  repeat' (first | with_reducible assumption | with_reducible apply hqm_eraseSb | simp only [SameHqm.mk3] | (intro _) | split)

theorem hqm_bufferOnMedia {s0 : State} (s : State) (h : Nat) (hks : SameHqm s0 s) : SameHqm s0 (State.bufferOnMedia s h) := by
  unfold State.bufferOnMedia
  try dsimp only
  repeat' (first | with_reducible assumption | with_reducible apply hqm_updEntry | with_reducible apply hqm_freeBuf | simp only [SameHqm.mk3] | (intro _) | split)

theorem hqm_grant {s0 : State} (s : State) (line : Nat) (w : Walker) (q : List Walker) (hks : SameHqm s0 s) : SameHqm s0
      (State.grant s line w q) := by
  unfold State.grant
  try dsimp only
  repeat' (first | with_reducible assumption | with_reducible apply SameHqm.foldl | with_reducible apply SameHqmK1.getD | simp only [SameHqm.mk3] | (intro _) | split)

theorem hqm_lineRequest {s0 : State} (s : State) (line : Nat) (w : Walker) (hks : SameHqm s0 s) : SameHqm s0
      (State.lineRequest s line w) := by
  unfold State.lineRequest
  try dsimp only
  repeat' (first | with_reducible assumption | with_reducible apply hqm_grant | simp only [SameHqm.mk3] | (intro _) | split)

theorem hqm_moveItem {s0 : State} (s : State) (dst : Nat) (it : Nat × Nat × Piece) (hks : SameHqm s0 s) : SameHqm s0
      (State.moveItem s dst it) := by
  unfold State.moveItem
  try dsimp only
  repeat' (first | with_reducible assumption | with_reducible apply hqm_updSb | simp only [SameHqm.mk3] | (intro _) | split)

theorem hqm_applyMove {s0 : State} (s : State) (m : Move) (hks : SameHqm s0 s) : SameHqm s0 (State.applyMove s m) := by
  unfold State.applyMove
  try dsimp only
  repeat' (first | with_reducible assumption | with_reducible apply hqm_updSb | with_reducible apply hqm_journalLines | with_reducible apply hqm_eraseIfEmpty | with_reducible apply hqm_lineRequest | with_reducible apply hqm_moveItem | with_reducible apply SameHqm.foldl | simp only [SameHqm.mk3] | (intro _) | split)

theorem hqm_gcMoves {s0 : State} (s : State) (hks : SameHqm s0 s) : SameHqm s0 (State.gcMoves s) := by
  unfold State.gcMoves
  try dsimp only
  repeat' (first | with_reducible assumption | with_reducible apply hqm_applyMove | with_reducible apply SameHqm.foldl | simp only [SameHqm.mk3] | (intro _) | split)

theorem hqm_movesProgrammed {s0 : State} (s : State) (key : Nat) (hks : SameHqm s0 s) : SameHqm s0 (State.movesProgrammed s
      key) := by
  unfold State.movesProgrammed
  try dsimp only
  repeat' (first | with_reducible assumption | with_reducible apply hqm_gcMoves | simp only [SameHqm.mk3] | (intro _) | split)

theorem hqm_copyNew {s0 : State} (s : State) (d : BoardDesc) (g stream : Nat) (use : SbUse) (pads : List (Nat × Nat × Nat))
      (hks : SameHqm s0 s) : SameHqmK2 s0 (State.copyNew s d g stream use pads) := by
  unfold State.copyNew
  try dsimp only
  repeat' (first | with_reducible assumption | with_reducible refine SameHqmK2.elim (hqm_formSb _ _ _ _ _ ?_) ‹_› | with_reducible apply hqm_formSb | with_reducible apply SameHqmK2.none | with_reducible apply SameHqmK2.some | simp only [SameHqm.mk3] | (intro _) | split)

theorem hqm_copySb {s0 : State} (s : State) (d : BoardDesc) (g stream : Nat) (use : SbUse) (n : Nat) (hks : SameHqm s0 s) :
      SameHqmK2 s0 (State.copySb s d g stream use n) := by
  unfold State.copySb
  try dsimp only
  repeat' (first | with_reducible assumption | with_reducible apply hqm_updSb | with_reducible refine SameHqmK2.elim (hqm_copyNew _ _ _ _ _ _ ?_) ‹_› | with_reducible apply hqm_copyNew | with_reducible apply SameHqmK2.none | with_reducible apply SameHqmK2.some | simp only [SameHqm.mk3] | (intro _) | split)

theorem hqm_reserveCopies {s0 : State} (s : State) (d : BoardDesc) (g stream : Nat) (use : SbUse) (items : List (Nat × Piece))
      (hks : SameHqm s0 s) : SameHqmK4 s0 (State.reserveCopies s d g stream use items) := by
  unfold State.reserveCopies
  try dsimp only
  repeat' (first | with_reducible assumption | with_reducible apply hqm_updSb | with_reducible refine SameHqmK2.elim (hqm_copySb _ _ _ _ _ _ ?_) ‹_› | with_reducible apply hqm_copySb | with_reducible refine SameHqmK4.foldl (fun _ _ _ => ?_) ?_ | with_reducible exact SameHqmK4.fst ‹_› | with_reducible apply SameHqmK4.mk | with_reducible apply SameHqm.foldl | simp only [SameHqm.mk3] | (intro _) | split)

theorem hqm_startMove {s0 : State} (s : State) (d : BoardDesc) (g : Nat) (stream : Nat) (use : SbUse) (cls : Nat) (w : Walker)
      (src : Nat) (items : List (Nat × Piece)) (hks : SameHqm s0 s) : SameHqm s0 (State.startMove s d g stream use cls w src
      items) := by
  unfold State.startMove
  try dsimp only
  repeat' (first | with_reducible assumption | with_reducible apply hqm_queuePages | with_reducible apply SameHqmK4.fst; with_reducible apply hqm_reserveCopies | with_reducible refine SameHqmK4.elim (hqm_reserveCopies _ _ _ _ _ _ ?_) ‹_› | with_reducible apply hqm_reserveCopies | with_reducible apply SameHqm.foldl | simp only [SameHqm.mk3] | (intro _) | split)

theorem hqm_queueCodewords {s0 : State} (s : State) (d : BoardDesc) (key : Nat) (b : Superblock) (cls first n : Nat) (who :
      ReadFor) (hks : SameHqm s0 s) : SameHqm s0 (State.queueCodewords s d key b cls first n who) := by
  unfold State.queueCodewords
  try dsimp only
  repeat' (first | with_reducible assumption | with_reducible apply hqm_queueOp | with_reducible apply SameHqm.foldl | simp only [SameHqm.mk3] | (intro _) | split)

theorem hqm_startCopy {s0 : State} (s : State) (d : BoardDesc) (g stream : Nat) (use : SbUse) (w : Walker) (src : Nat) (items
      : List (Nat × Nat × Piece)) (hks : SameHqm s0 s) : SameHqm s0 (State.startCopy s d g stream use w src items) := by
  unfold State.startCopy
  try dsimp only
  repeat' (first | with_reducible assumption | with_reducible apply hqm_eraseIfEmpty | with_reducible apply hqm_queueCodewords | with_reducible apply SameHqm.foldl | simp only [SameHqm.mk3] | (intro _) | split)

theorem hqm_copySettled {s0 : State} (s : State) (no : Nat) (hks : SameHqm s0 s) : SameHqm s0 (State.copySettled s no) := by
  unfold State.copySettled
  try dsimp only
  repeat' (first | with_reducible assumption | with_reducible apply hqm_eraseIfEmpty | with_reducible apply hqm_startMove | simp only [SameHqm.mk3] | (intro _) | split)

theorem hqm_rewrite {s0 : State} (s : State) (d : BoardDesc) (avoid : List Nat) (r : Rewrite) (hks : SameHqm s0 s) : SameHqm
      s0 (State.rewrite s d avoid r) := by
  unfold State.rewrite
  try dsimp only
  repeat' (first | with_reducible assumption | with_reducible refine SameHqmK1.elim (hqm_placeFrom _ _ _ _ _ _ ?_) ‹_› | with_reducible apply hqm_placeFrom | simp only [SameHqm.mk3] | (intro _) | split)

theorem hqm_retryRewrites {s0 : State} (s : State) (hks : SameHqm s0 s) : SameHqm s0 (State.retryRewrites s) := by
  unfold State.retryRewrites
  try dsimp only
  repeat' (first | with_reducible assumption | with_reducible apply hqm_rewrite | with_reducible apply SameHqm.foldl | simp only [SameHqm.mk3] | (intro _) | split)

theorem hqm_redoMoves {s0 : State} (s : State) (d : BoardDesc) (key : Nat) (b : Superblock) (hks : SameHqm s0 s) : SameHqm s0
      (State.redoMoves s d key b) := by
  unfold State.redoMoves
  try dsimp only
  repeat' (first | with_reducible assumption | with_reducible apply hqm_startMove | with_reducible apply SameHqm.foldl | simp only [SameHqm.mk3] | (intro _) | split)

theorem hqm_programFailed {s0 : State} (s : State) (d : BoardDesc) (op : FlashOp) (key first n : Nat) (avoid : List Nat) (hks
      : SameHqm s0 s) : SameHqm s0 (State.programFailed s d op key first n avoid) := by
  unfold State.programFailed
  try dsimp only
  repeat' (first | with_reducible assumption | with_reducible apply hqm_updSb | with_reducible apply hqm_retireBlock | with_reducible apply hqm_rewrite | with_reducible apply hqm_redoMoves | with_reducible apply SameHqmK1.getD | simp only [SameHqm.mk3] | (intro _) | split)

theorem hqm_countReads {s0 : State} (s : State) (key die n : Nat) (hks : SameHqm s0 s) : SameHqm s0 (State.countReads s key
      die n) := by
  unfold State.countReads
  try dsimp only
  repeat' (first | with_reducible assumption | with_reducible apply hqm_updSb | with_reducible apply hqm_mediaBits | with_reducible apply SameHqmK1.getD | simp only [SameHqm.mk3] | (intro _) | split)

theorem hqm_countOps {s0 : State} (s : State) (die n : Nat) (hks : SameHqm s0 s) : SameHqm s0 (State.countOps s die n) := by
  unfold State.countOps
  try dsimp only
  repeat' (first | with_reducible assumption | with_reducible apply hqm_updNfc | simp only [SameHqm.mk3] | (intro _) | split)

theorem hqm_progFail {s0 : State} (s : State) (ch : Nat) (hks : SameHqm s0 s) : SameHqm s0 (State.progFail s ch) := by
  unfold State.progFail
  try dsimp only
  repeat' (first | with_reducible assumption | with_reducible apply hqm_raise | with_reducible apply hqm_updNfc | simp only [SameHqm.mk3] | (intro _) | split)

theorem hqm_countRung {s0 : State} (s : State) (r : Nat) (hks : SameHqm s0 s) : SameHqm s0 (State.countRung s r) := by
  unfold State.countRung
  try dsimp only
  repeat' (first | with_reducible assumption | with_reducible apply SameHqmK1.getD | simp only [SameHqm.mk3] | (intro _) | split)

theorem hqm_listSb {s0 : State} (s : State) (key : Nat) (hks : SameHqm s0 s) : SameHqm s0 (State.listSb s key) := by
  unfold State.listSb
  try dsimp only
  repeat' (first | with_reducible assumption | with_reducible apply hqm_updSb | simp only [SameHqm.mk3] | (intro _) | split)

theorem hqm_scrubSettled {s0 : State} (s : State) (key : Nat) (hks : SameHqm s0 s) : SameHqm s0 (State.scrubSettled s key) := by
  unfold State.scrubSettled
  try dsimp only
  repeat' (first | with_reducible assumption | with_reducible apply hqm_updSb | simp only [SameHqm.mk3] | (intro _) | split)

theorem hqm_toSoft {s0 : State} (s : State) (k : Nat) (op : FlashOp) (hks : SameHqm s0 s) : SameHqm s0 (State.toSoft s k op)
      := by
  unfold State.toSoft
  try dsimp only
  repeat' (first | with_reducible assumption | with_reducible apply hqm_countReads | with_reducible apply hqm_countOps | simp only [SameHqm.mk3] | (intro _) | split)

theorem hqm_rebuildReads {s0 : State} (s : State) (key die : Nat) (hks : SameHqm s0 s) : SameHqm s0 (State.rebuildReads s key
      die) := by
  unfold State.rebuildReads
  try dsimp only
  repeat' (first | with_reducible assumption | with_reducible apply hqm_countReads | with_reducible apply hqm_countOps | with_reducible apply SameHqm.foldl | simp only [SameHqm.mk3] | (intro _) | split)

theorem hqm_nandFailed {s0 : State} (s : State) (a0 : List (Byte × Nat)) (hks : SameHqm s0 s) : SameHqm s0 (State.nandFailed s
      a0) := by
  unfold State.nandFailed
  try dsimp only
  repeat' (first | with_reducible assumption | with_reducible apply hqm_record | with_reducible apply hqm_recover | with_reducible apply SameHqm.foldl | simp only [SameHqm.mk3] | (intro _) | split)

theorem hqm_formSystem {s0 : State} (s : State) (d : BoardDesc) (rs : List TargetResult) (hks : SameHqm s0 s) : SameHqm s0
      (State.formSystem s d rs) := by
  unfold State.formSystem
  try dsimp only
  repeat' (first | with_reducible assumption | with_reducible apply hqm_formSysSb | with_reducible apply hqm_retireBlock | with_reducible apply SameHqm.foldl | simp only [SameHqm.mk3] | (intro _) | split)

theorem hqm_nandPassed {s0 : State} (s : State) (d : BoardDesc) (rs : List TargetResult) (hks : SameHqm s0 s) : SameHqm s0
      (State.nandPassed s d rs) := by
  unfold State.nandPassed
  try dsimp only
  repeat' (first | with_reducible assumption | with_reducible apply hqm_raise | with_reducible apply hqm_record | with_reducible apply hqm_judgeReadOnly | with_reducible apply hqm_failDie | with_reducible apply hqm_formSystem | with_reducible apply SameHqmK1.getD | with_reducible apply SameHqm.foldl | simp only [SameHqm.mk3] | (intro _) | split)

theorem hqm_ageMedia {s0 : State} (s : State) (ms : Nat) (hks : SameHqm s0 s) : SameHqm s0 (State.ageMedia s ms) := by
  unfold State.ageMedia
  try dsimp only
  repeat' (first | with_reducible assumption | with_reducible apply hqm_mediaBits | simp only [SameHqm.mk3] | (intro _) | split)

theorem hqm_updQp {s0 : State} (s : State) (t : Tid) (q : Qid) (f : Qp → Qp) (hks : SameHqm s0 s) : SameHqm s0 (State.updQp s
      t q f) := by
  unfold State.updQp
  try dsimp only
  repeat' (first | with_reducible assumption | with_reducible apply hqm_updTnt | simp only [SameHqm.mk3] | (intro _) | split)

theorem hqm_hostTouch {s0 : State} (s : State) (hks : SameHqm s0 s) : SameHqm s0 (State.hostTouch s) := by
  unfold State.hostTouch
  try dsimp only
  repeat' (first | with_reducible assumption | simp only [SameHqm.mk3] | (intro _) | split)

theorem hqm_doorbellErr {s0 : State} (s : State) (t : Tid) (cause : Byte) (addr : Word) (hks : SameHqm s0 s) : SameHqm s0
      (State.doorbellErr s t cause addr) := by
  unfold State.doorbellErr
  try dsimp only
  repeat' (first | with_reducible assumption | with_reducible apply hqm_raise | with_reducible apply hqm_raiseTnt | with_reducible apply hqm_countErr | simp only [SameHqm.mk3] | (intro _) | split)

theorem hqm_doorbell {s0 : State} (s : State) (v : DbView) (t : Tid) (q : Qid) (head : Bool) (val addr : Word) (hks : SameHqm
      s0 s) : SameHqm s0 (State.doorbell s v t q head val addr) := by
  unfold State.doorbell
  try dsimp only
  repeat' (first | with_reducible assumption | with_reducible apply hqm_countErr | with_reducible apply hqm_updQp | with_reducible apply hqm_doorbellErr | simp only [SameHqm.mk3] | (intro _) | split)

theorem hqm_sendData {s0 : State} (s : State) (c : Cmd) (off : Nat) (b : List Byte) (ep : Bool) (hks : SameHqm s0 s) : SameHqm
      s0 (State.sendData s c off b ep) := by
  unfold State.sendData
  try dsimp only
  repeat' (first | with_reducible assumption | with_reducible apply hqm_emit | with_reducible apply SameHqm.foldl | simp only [SameHqm.mk3] | (intro _) | split)

theorem hqm_sendPlain {s0 : State} (s : State) (c : Cmd) (addr : DWord) (b : List Byte) (hks : SameHqm s0 s) : SameHqm s0
      (State.sendPlain s c addr b) := by
  unfold State.sendPlain
  try dsimp only
  repeat' (first | with_reducible assumption | with_reducible apply hqm_emit | simp only [SameHqm.mk3] | (intro _) | split)

theorem hqm_readHost {s0 : State} (s : State) (c : Cmd) (hks : SameHqm s0 s) : SameHqm s0 (State.readHost s c) := by
  unfold State.readHost
  try dsimp only
  repeat' (first | with_reducible assumption | with_reducible apply hqm_emit | with_reducible apply SameHqm.foldl | simp only [SameHqm.mk3] | (intro _) | split)

theorem hqm_startReads {s0 : State} (s : State) (c : Cmd) (hks : SameHqm s0 s) : SameHqm s0 (State.startReads s c) := by
  unfold State.startReads
  try dsimp only
  repeat' (first | with_reducible assumption | with_reducible apply hqm_emit | with_reducible apply hqm_readHost | simp only [SameHqm.mk3] | (intro _) | split)

theorem hqm_timedOut {s0 : State} (s : State) (fn : Fn) (hks : SameHqm s0 s) : SameHqm s0 (State.timedOut s fn) := by
  unfold State.timedOut
  try dsimp only
  repeat' (first | with_reducible assumption | with_reducible apply hqm_raise | with_reducible apply hqm_aerAdvisory | simp only [SameHqm.mk3] | (intro _) | split)

theorem hqm_staleTimeout {s0 : State} (s : State) (rtag : Nat) (hks : SameHqm s0 s) : SameHqm s0 (State.staleTimeout s rtag)
      := by
  unfold State.staleTimeout
  try dsimp only
  repeat' (first | with_reducible assumption | with_reducible apply hqm_timedOut | simp only [SameHqm.mk3] | (intro _) | split)

theorem hqm_updPipe {s0 : State} (s : State) (p : Pipe) (f : PipeS → PipeS) (hks : SameHqm s0 s) : SameHqm s0 (State.updPipe s
      p f) := by
  unfold State.updPipe
  try dsimp only
  repeat' (first | with_reducible assumption | simp only [SameHqm.mk3] | (intro _) | split)

theorem hqm_enterPipe {s0 : State} (s : State) (p : Pipe) (t : Tid) (epoch : Byte) (tag : Tag) (n : Nat) (hks : SameHqm s0 s)
      : SameHqm s0 (State.enterPipe s p t epoch tag n) := by
  unfold State.enterPipe
  try dsimp only
  repeat' (first | with_reducible assumption | with_reducible apply hqm_updPipe | with_reducible apply SameHqm.foldl | simp only [SameHqm.mk3] | (intro _) | split)

theorem hqm_leavePipe {s0 : State} (s : State) (p : Pipe) (tag : Tag) (hks : SameHqm s0 s) : SameHqm s0 (State.leavePipe s p
      tag) := by
  unfold State.leavePipe
  try dsimp only
  repeat' (first | with_reducible assumption | with_reducible apply hqm_updPipe | simp only [SameHqm.mk3] | (intro _) | split)

theorem hqm_drawMasks {s0 : State} (s : State) (p : Pipe) (n : Nat) (hks : SameHqm s0 s) : SameHqmK1 s0 (State.drawMasks s p
      n) := by
  unfold State.drawMasks
  try dsimp only
  repeat' (first | with_reducible assumption | with_reducible apply SameHqmK1.none | with_reducible apply SameHqmK1.some | simp only [SameHqm.mk3] | (intro _) | split)

theorem hqm_fenceLinks {s0 : State} (s : State) (p : Pipe) (hks : SameHqm s0 s) : SameHqm s0 (State.fenceLinks s p) := by
  unfold State.fenceLinks
  try dsimp only
  repeat' (first | with_reducible assumption | with_reducible apply hqm_linksDown | with_reducible apply hqm_mirLeave | simp only [SameHqm.mk3] | (intro _) | split)

theorem hqm_undoOpen {s0 : State} (s : State) (cs : List Cmd) (hks : SameHqm s0 s) : SameHqm s0 (State.undoOpen s cs) := by
  unfold State.undoOpen
  try dsimp only
  repeat' (first | with_reducible assumption | with_reducible apply hqm_updZone | with_reducible apply SameHqm.foldl | simp only [SameHqm.mk3] | (intro _) | split)

theorem hqm_remask {s0 : State} (s : State) (p : Pipe) (n : Nat) (hks : SameHqm s0 s) : SameHqm s0 (State.remask s p n) := by
  unfold State.remask
  try dsimp only
  repeat' (first | with_reducible assumption | with_reducible apply hqm_updPipe | with_reducible refine SameHqmK1.elim (hqm_drawMasks _ _ _ ?_) ‹_› | with_reducible apply hqm_drawMasks | simp only [SameHqm.mk3] | (intro _) | split)

theorem hqm_drbg {s0 : State} (s : State) (hks : SameHqm s0 s) : SameHqmK2 s0 (State.drbg s) := by
  unfold State.drbg
  try dsimp only
  repeat' (first | with_reducible assumption | with_reducible apply hqm_drawn | with_reducible apply SameHqmK2.none | with_reducible apply SameHqmK2.some | with_reducible apply SameHqmK2.findSome | simp only [SameHqm.mk3] | (intro _) | split)

theorem hqm_zeroise {s0 : State} (s : State) (t : Tid) (hks : SameHqm s0 s) : SameHqm s0 (State.zeroise s t) := by
  unfold State.zeroise
  try dsimp only
  repeat' (first | with_reducible assumption | with_reducible apply hqm_updTnt | simp only [SameHqm.mk3] | (intro _) | split)

theorem hqm_zeroiseAll {s0 : State} (s : State) (hks : SameHqm s0 s) : SameHqm s0 (State.zeroiseAll s) := by
  unfold State.zeroiseAll
  try dsimp only
  repeat' (first | with_reducible assumption | simp only [SameHqm.mk3] | (intro _) | split)

theorem hqm_loadKey {s0 : State} (s : State) (t : Tid) (a0 : Unwrapped) (hks : SameHqm s0 s) : SameHqm s0 (State.loadKey s t
      a0) := by
  unfold State.loadKey
  try dsimp only
  repeat' (first | with_reducible assumption | with_reducible apply hqm_updTnt | simp only [SameHqm.mk3] | (intro _) | split)

theorem hqm_reloadKeys {s0 : State} (s : State) (t : Tid) (hks : SameHqm s0 s) : SameHqm s0 (State.reloadKeys s t) := by
  unfold State.reloadKeys
  try dsimp only
  repeat' (first | with_reducible assumption | with_reducible apply hqm_loadKey | simp only [SameHqm.mk3] | (intro _) | split)

theorem hqm_dropPersisted {s0 : State} (s : State) (t : Tid) (x g : Bool) (hks : SameHqm s0 s) : SameHqm s0
      (State.dropPersisted s t x g) := by
  unfold State.dropPersisted
  try dsimp only
  repeat' (first | with_reducible assumption | simp only [SameHqm.mk3] | (intro _) | split)

theorem hqm_countDirty {s0 : State} (s : State) (hs : List Nat) (hks : SameHqm s0 s) : SameHqm s0 (State.countDirty s hs) := by
  unfold State.countDirty
  try dsimp only
  repeat' (first | with_reducible assumption | with_reducible apply hqm_updBufs | simp only [SameHqm.mk3] | (intro _) | split)

theorem hqm_queueReads {s0 : State} (s : State) (d : BoardDesc) (tag : Tag) (items : List (Nat × (Piece → Option Nat))) (hks :
      SameHqm s0 s) : SameHqm s0 (State.queueReads s d tag items) := by
  unfold State.queueReads
  try dsimp only
  repeat' (first | with_reducible assumption | with_reducible apply hqm_queueOp | with_reducible apply SameHqm.foldl | simp only [SameHqm.mk3] | (intro _) | split)

theorem hqm_sendAppends {s0 : State} (s : State) (c : Cmd) (z : Zone) (id : Nat) (key : Hash × Word) (base i : Nat) (l : List
      AppRec)
    (hks : SameHqm s0 s) : SameHqmK4 s0 (State.sendAppends s c z id key base i l) := by
  induction l generalizing s i with
  | nil => exact ⟨hks⟩
  | cons e r ih =>
    unfold State.sendAppends
    dsimp only
    split
    · exact ⟨hks⟩
    · refine ⟨(ih _ _ ?_).fst⟩
      repeat' (first | with_reducible assumption | with_reducible apply hqm_sendPlain | with_reducible apply hqm_sendData | split)

theorem hqm_removeDrained {s0 : State} (s : State) (t : Tid) (q : Qid) (hks : SameHqm s0 s) : SameHqm s0 (State.removeDrained
      s t q) := by
  unfold State.removeDrained
  try dsimp only
  repeat' (first | with_reducible assumption | with_reducible apply hqm_updInta | with_reducible apply hqm_updQp | simp only [SameHqm.mk3] | (intro _) | split)

theorem hqm_revertBlocks {s0 : State} (s : State) (c : Cmd) (hks : SameHqm s0 s) : SameHqm s0 (State.revertBlocks s c) := by
  unfold State.revertBlocks
  try dsimp only
  repeat' (first | with_reducible assumption | with_reducible apply SameHqm.foldl | simp only [SameHqm.mk3] | (intro _) | split)

theorem hqm_forgetOld {s0 : State} (s : State) (c : Cmd) (hks : SameHqm s0 s) : SameHqm s0 (State.forgetOld s c) := by
  unfold State.forgetOld
  try dsimp only
  repeat' (first | with_reducible assumption | simp only [SameHqm.mk3] | (intro _) | split)

theorem hqm_dropEntries {s0 : State} (s : State) (fn : Fn) (n : Nat) (hks : SameHqm s0 s) : SameHqm s0 (State.dropEntries s fn
      n) := by
  unfold State.dropEntries
  try dsimp only
  repeat' (first | with_reducible assumption | simp only [SameHqm.mk3] | (intro _) | split)

theorem hqm_finishZone {s0 : State} (s : State) (id : Nat) (z : Zone) (hks : SameHqm s0 s) : SameHqm s0 (State.finishZone s id
      z) := by
  unfold State.finishZone
  try dsimp only
  repeat' (first | with_reducible assumption | with_reducible apply hqm_mirStateItem | with_reducible apply hqm_updZone | simp only [SameHqm.mk3] | (intro _) | split)

theorem hqm_holdTenant {s0 : State} (s : State) (t : Tid) (at_ : Nat) (hks : SameHqm s0 s) : SameHqm s0 (State.holdTenant s t
      at_) := by
  unfold State.holdTenant
  try dsimp only
  repeat' (first | with_reducible assumption | with_reducible apply hqm_raiseRec | with_reducible apply hqm_mirStateItem | with_reducible apply hqm_meterIn | with_reducible apply hqm_quotaNear | with_reducible apply SameHqm.foldl | simp only [SameHqm.mk3] | (intro _) | split)

theorem hqm_holdPulse {s0 : State} (s : State) (at_ : Nat) (hks : SameHqm s0 s) : SameHqm s0 (State.holdPulse s at_) := by
  unfold State.holdPulse
  try dsimp only
  repeat' (first | with_reducible assumption | with_reducible apply hqm_holdTenant | with_reducible apply SameHqm.foldl | simp only [SameHqm.mk3] | (intro _) | split)

theorem hqm_putSeal {s0 : State} (s : State) (id : Nat) (r : List Byte) (hks : SameHqm s0 s) : SameHqm s0 (State.putSeal s id
      r) := by
  unfold State.putSeal
  try dsimp only
  repeat' (first | with_reducible assumption | simp only [SameHqm.mk3] | (intro _) | split)

theorem hqm_sealZone {s0 : State} (s : State) (id : Nat) (z : Zone) (key : Hash) (hks : SameHqm s0 s) : SameHqm s0
      (State.sealZone s id z key) := by
  unfold State.sealZone
  try dsimp only
  repeat' (first | with_reducible assumption | with_reducible apply hqm_raise | with_reducible apply hqm_mirStateItem | with_reducible apply hqm_updZone | with_reducible apply hqm_meterIn | with_reducible apply hqm_quotaNear | with_reducible apply hqm_mirAppendSend | with_reducible apply hqm_finishZone | with_reducible apply hqm_putSeal | with_reducible apply SameHqm.foldl | simp only [SameHqm.mk3] | (intro _) | split)

theorem hqm_dropChallenge {s0 : State} (s : State) (hks : SameHqm s0 s) : SameHqm s0 (State.dropChallenge s) := by
  unfold State.dropChallenge
  try dsimp only
  repeat' (first | with_reducible assumption | simp only [SameHqm.mk3] | (intro _) | split)

theorem hqm_eraseZoneBlocks {s0 : State} (s : State) (id : Nat) (hks : SameHqm s0 s) : SameHqm s0 (State.eraseZoneBlocks s id)
      := by
  unfold State.eraseZoneBlocks
  try dsimp only
  repeat' (first | with_reducible assumption | with_reducible apply hqm_eraseIfEmpty | with_reducible apply SameHqm.foldl | simp only [SameHqm.mk3] | (intro _) | split)

theorem hqm_createQp {s0 : State} (s : State) (t : Tid) (q : Qid) (depth : Nat) (sq : DWord) (cq : DWord) (vec : Nat) (hks :
      SameHqm s0 s) : SameHqm s0 (State.createQp s t q depth sq cq vec) := by
  unfold State.createQp
  try dsimp only
  repeat' (first | with_reducible assumption | with_reducible apply hqm_updInta | with_reducible apply hqm_updQp | simp only [SameHqm.mk3] | (intro _) | split)

theorem hqm_setHold {s0 : State} (s : State) (t : Tid) (v : Nat) (hks : SameHqm s0 s) : SameHqm s0 (State.setHold s t v) := by
  unfold State.setHold
  try dsimp only
  repeat' (first | with_reducible assumption | with_reducible apply hqm_updTnt | simp only [SameHqm.mk3] | (intro _) | split)

theorem hqm_openSession {s0 : State} (s : State) (target : Nat) (hks : SameHqm s0 s) : SameHqm s0 (State.openSession s target)
      := by
  unfold State.openSession
  try dsimp only
  repeat' (first | with_reducible assumption | with_reducible apply hqm_record | with_reducible apply hqm_norWrite | with_reducible apply hqm_writeRec | simp only [SameHqm.mk3] | (intro _) | split)

theorem hqm_stageWrite {s0 : State} (s : State) (g : StageS) (off : Nat) (b : List Byte) (hks : SameHqm s0 s) : SameHqm s0
      (State.stageWrite s g off b) := by
  unfold State.stageWrite
  try dsimp only
  repeat' (first | with_reducible assumption | with_reducible apply hqm_raise | simp only [SameHqm.mk3] | (intro _) | split)

theorem hqm_ownerChanged {s0 : State} (s : State) (b : Nat) (hks : SameHqm s0 s) : SameHqm s0 (State.ownerChanged s b) := by
  unfold State.ownerChanged
  try dsimp only
  repeat' (first | with_reducible assumption | with_reducible apply hqm_raise | with_reducible apply hqm_mirDeviceItem | simp only [SameHqm.mk3] | (intro _) | split)

theorem hqm_programOwner {s0 : State} (s : State) (key : List Byte) (hks : SameHqm s0 s) : SameHqm s0 (State.programOwner s
      key) := by
  unfold State.programOwner
  try dsimp only
  repeat' (first | with_reducible assumption | with_reducible apply hqm_ownerChanged | simp only [SameHqm.mk3] | (intro _) | split)

theorem hqm_setLock {s0 : State} (s : State) (b : Bool) (hks : SameHqm s0 s) : SameHqm s0 (State.setLock s b) := by
  unfold State.setLock
  try dsimp only
  repeat' (first | with_reducible assumption | with_reducible apply hqm_ownerChanged | simp only [SameHqm.mk3] | (intro _) | split)

theorem hqm_addProfile {s0 : State} (s : State) (r : ProfRec) (hks : SameHqm s0 s) : SameHqm s0 (State.addProfile s r) := by
  unfold State.addProfile
  try dsimp only
  repeat' (first | with_reducible assumption | simp only [SameHqm.mk3] | (intro _) | split)

theorem hqm_clearCounts {s0 : State} (s : State) (hks : SameHqm s0 s) : SameHqm s0 (State.clearCounts s) := by
  unfold State.clearCounts
  try dsimp only
  repeat' (first | with_reducible assumption | simp only [SameHqm.mk3] | (intro _) | split)

theorem hqm_openInterval {s0 : State} (s : State) (at_ : Nat) (hks : SameHqm s0 s) : SameHqm s0 (State.openInterval s at_) := by
  unfold State.openInterval
  try dsimp only
  repeat' (first | with_reducible assumption | with_reducible apply hqm_clearCounts | simp only [SameHqm.mk3] | (intro _) | split)

theorem hqm_closeInterval {s0 : State} (s : State) (hks : SameHqm s0 s) : SameHqm s0 (State.closeInterval s) := by
  unfold State.closeInterval
  try dsimp only
  repeat' (first | with_reducible assumption | with_reducible apply hqm_addProfile | simp only [SameHqm.mk3] | (intro _) | split)

theorem hqm_absentRecord {s0 : State} (s : State) (start : Nat) (hks : SameHqm s0 s) : SameHqm s0 (State.absentRecord s start)
      := by
  unfold State.absentRecord
  try dsimp only
  repeat' (first | with_reducible assumption | with_reducible apply hqm_addProfile | simp only [SameHqm.mk3] | (intro _) | split)

theorem hqm_settleBoundary {s0 : State} (s : State) (hks : SameHqm s0 s) : SameHqm s0 (State.settleBoundary s) := by
  unfold State.settleBoundary
  try dsimp only
  repeat' (first | with_reducible assumption | with_reducible apply hqm_raise | with_reducible apply hqm_mirSend | with_reducible apply hqm_openInterval | with_reducible apply hqm_addProfile | with_reducible apply SameHqm.foldl | with_reducible apply SameHqmK1.getD | simp only [SameHqm.mk3] | (intro _) | split)

theorem hqm_endBoundary {s0 : State} (s : State) (hks : SameHqm s0 s) : SameHqm s0 (State.endBoundary s) := by
  unfold State.endBoundary
  try dsimp only
  repeat' (first | with_reducible assumption | with_reducible apply hqm_settleBoundary | with_reducible apply hqm_raise | with_reducible apply hqm_mirSend | with_reducible apply hqm_openInterval | with_reducible apply hqm_closeInterval | with_reducible apply SameHqm.foldl | with_reducible apply SameHqmK1.getD | simp only [SameHqm.mk3] | (intro _) | split)

theorem hqm_startBoundary {s0 : State} (s : State) (hks : SameHqm s0 s) : SameHqm s0 (State.startBoundary s) := by
  unfold State.startBoundary
  try dsimp only
  repeat' (first | with_reducible assumption | with_reducible apply hqm_clearCounts | with_reducible apply SameHqm.foldl | simp only [SameHqm.mk3] | (intro _) | split)

theorem hqm_setUtc {s0 : State} (s : State) (v : Nat) (st : UtcState) (hks : SameHqm s0 s) : SameHqm s0 (State.setUtc s v st)
      := by
  unfold State.setUtc
  try dsimp only
  repeat' (first | with_reducible assumption | with_reducible apply hqm_raise | with_reducible apply hqm_openInterval | with_reducible apply hqm_closeInterval | with_reducible apply hqm_absentRecord | with_reducible apply SameHqm.foldl | simp only [SameHqm.mk3] | (intro _) | split)

theorem hqm_meterServe {s0 : State} (s : State) (hks : SameHqm s0 s) : SameHqm s0 (State.meterServe s) := by
  unfold State.meterServe
  try dsimp only
  repeat' (first | with_reducible assumption | simp only [SameHqm.mk3] | (intro _) | split)

theorem hqm_meterStart {s0 : State} (s : State) (first : Bool) (hks : SameHqm s0 s) : SameHqm s0 (State.meterStart s first) :=
      by
  unfold State.meterStart
  try dsimp only
  repeat' (first | with_reducible assumption | with_reducible apply hqm_openInterval | with_reducible apply hqm_startBoundary | simp only [SameHqm.mk3] | (intro _) | split)

theorem hqm_meterSave {s0 : State} (s : State) (hks : SameHqm s0 s) : SameHqm s0 (State.meterSave s) := by
  unfold State.meterSave
  try dsimp only
  repeat' (first | with_reducible assumption | with_reducible apply hqm_settleBoundary | simp only [SameHqm.mk3] | (intro _) | split)

theorem hqm_dwell {s0 : State} (s : State) (d : BoardDesc) (hks : SameHqm s0 s) : SameHqm s0 (State.dwell s d) := by
  unfold State.dwell
  try dsimp only
  repeat' (first | with_reducible assumption | simp only [SameHqm.mk3] | (intro _) | split)

theorem hqm_lapseNonces {s0 : State} (s : State) (hks : SameHqm s0 s) : SameHqm s0 (State.lapseNonces s) := by
  unfold State.lapseNonces
  try dsimp only
  repeat' (first | with_reducible assumption | simp only [SameHqm.mk3] | (intro _) | split)

theorem hqm_settleFns {s0 : State} (s : State) (hks : SameHqm s0 s) : SameHqm s0 (State.settleFns s) := by
  unfold State.settleFns
  try dsimp only
  repeat' (first | with_reducible assumption | simp only [SameHqm.mk3] | (intro _) | split)

theorem hqm_finishReset {s0 : State} (s : State) (t : Tid) (hks : SameHqm s0 s) : SameHqm s0 (State.finishReset s t) := by
  unfold State.finishReset
  try dsimp only
  repeat' (first | with_reducible assumption | with_reducible apply hqm_updTnt | with_reducible apply hqm_updInta | with_reducible apply hqm_raiseTnt | with_reducible apply hqm_freeBufs | with_reducible apply hqm_zeroise | with_reducible apply hqm_reloadKeys | with_reducible apply hqm_dropPersisted | with_reducible apply hqm_settleFns | with_reducible apply SameHqm.foldl | simp only [SameHqm.mk3] | (intro _) | split)

theorem hqm_requestAll {s0 : State} (s : State) (fn : Fn) (hks : SameHqm s0 s) : SameHqm s0 (State.requestAll s fn) := by
  unfold State.requestAll
  try dsimp only
  repeat' (first | with_reducible assumption | with_reducible apply hqm_request | with_reducible apply SameHqm.foldl | simp only [SameHqm.mk3] | (intro _) | split)

theorem hqm_sendMessage {s0 : State} (s : State) (fn : Fn) (k : Nat) (hks : SameHqm s0 s) : SameHqm s0 (State.sendMessage s fn
      k) := by
  unfold State.sendMessage
  try dsimp only
  repeat' (first | with_reducible assumption | with_reducible apply hqm_emit | with_reducible apply hqm_updFn | with_reducible apply SameHqmK1.getD | simp only [SameHqm.mk3] | (intro _) | split)

theorem hqm_sendPending {s0 : State} (s : State) (fn : Fn) (hks : SameHqm s0 s) : SameHqm s0 (State.sendPending s fn) := by
  unfold State.sendPending
  try dsimp only
  repeat' (first | with_reducible assumption | with_reducible apply hqm_sendMessage | with_reducible apply SameHqm.foldl | simp only [SameHqm.mk3] | (intro _) | split)

theorem hqm_msixTableWrite {s0 : State} (s : State) (fn : Fn) (vec dw : Nat) (be : BitVec 4) (v : Word) (hks : SameHqm s0 s) :
      SameHqm s0 (State.msixTableWrite s fn vec dw be v) := by
  unfold State.msixTableWrite
  try dsimp only
  repeat' (first | with_reducible assumption | with_reducible apply hqm_updFn | with_reducible apply hqm_countErr | with_reducible apply SameHqmK1.getD | simp only [SameHqm.mk3] | (intro _) | split)

theorem hqm_cfgAct {s0 : State} (s : State) (fn : Fn) (a0 : CfgReq) (hks : SameHqm s0 s) : SameHqm s0 (State.cfgAct s fn a0)
      := by
  unfold State.cfgAct
  try dsimp only
  repeat' (first | with_reducible assumption | with_reducible apply hqm_drawn | with_reducible apply hqm_emit | with_reducible apply hqm_updFn | simp only [SameHqm.mk3] | (intro _) | split)

theorem hqm_cfgRequest {s0 : State} (s : State) (fn : Fn) (req : CfgReq) (hks : SameHqm s0 s) : SameHqm s0 (State.cfgRequest s
      fn req) := by
  unfold State.cfgRequest
  try dsimp only
  repeat' (first | with_reducible assumption | with_reducible apply hqm_emit | with_reducible apply hqm_endLull | with_reducible apply hqm_aerUncorrectable | with_reducible apply hqm_cfgAct | simp only [SameHqm.mk3] | (intro _) | split)

theorem hqm_clearFeatures {s0 : State} (s : State) (hks : SameHqm s0 s) : SameHqm s0 (State.clearFeatures s) := by
  unfold State.clearFeatures
  try dsimp only
  repeat' (first | with_reducible assumption | simp only [SameHqm.mk3] | (intro _) | split)

theorem hqm_dropVfs {s0 : State} (s : State) (hks : SameHqm s0 s) : SameHqm s0 (State.dropVfs s) := by
  unfold State.dropVfs
  try dsimp only
  repeat' (first | with_reducible assumption | with_reducible apply hqm_raise | with_reducible apply hqm_restart | simp only [SameHqm.mk3] | (intro _) | split)

theorem hqm_clearHostSide {s0 : State} (s : State) (hks : SameHqm s0 s) : SameHqm s0 (State.clearHostSide s) := by
  unfold State.clearHostSide
  try dsimp only
  repeat' (first | with_reducible assumption | simp only [SameHqm.mk3] | (intro _) | split)

theorem hqm_linkErrorLogged {s0 : State} (s : State) (e : LinkError) (hks : SameHqm s0 s) : SameHqm s0 (State.linkErrorLogged
      s e) := by
  unfold State.linkErrorLogged
  try dsimp only
  repeat' (first | with_reducible assumption | with_reducible apply hqm_aerUncorrectable | with_reducible apply hqm_aerCorrectable | simp only [SameHqm.mk3] | (intro _) | split)

theorem hqm_storeRec {s0 : State} (s : State) (r : EvRec) (hks : SameHqm s0 s) : SameHqm s0 (State.storeRec s r) := by
  unfold State.storeRec
  try dsimp only
  repeat' (first | with_reducible assumption | with_reducible apply hqm_countDropped | simp only [SameHqm.mk3] | (intro _) | split)

theorem hqm_passBegin {s0 : State} (s : State) (hks : SameHqm s0 s) : SameHqm s0 (State.passBegin s) := by
  unfold State.passBegin
  try dsimp only
  repeat' (first | with_reducible assumption | with_reducible apply hqm_queueOp | with_reducible apply SameHqm.foldl | simp only [SameHqm.mk3] | (intro _) | split)

theorem hqm_passEnd {s0 : State} (s : State) (hks : SameHqm s0 s) : SameHqm s0 (State.passEnd s) := by
  unfold State.passEnd
  try dsimp only
  repeat' (first | with_reducible assumption | with_reducible apply hqm_raise | with_reducible apply hqm_storeRec | with_reducible apply SameHqm.foldl | simp only [SameHqm.mk3] | (intro _) | split)

theorem hqm_dropClasses {s0 : State} (s : State) (hks : SameHqm s0 s) : SameHqm s0 (State.dropClasses s) := by
  unfold State.dropClasses
  try dsimp only
  repeat' (first | with_reducible assumption | simp only [SameHqm.mk3] | (intro _) | split)

theorem hqm_hungDies {s0 : State} (s : State) (hung : List (Fin 256)) (hks : SameHqm s0 s) : SameHqm s0 (State.hungDies s
      hung) := by
  unfold State.hungDies
  try dsimp only
  repeat' (first | with_reducible assumption | with_reducible apply hqm_failDie | with_reducible apply SameHqm.foldl | simp only [SameHqm.mk3] | (intro _) | split)

theorem hqm_flushStart {s0 : State} (s : State) (hks : SameHqm s0 s) : SameHqm s0 (State.flushStart s) := by
  unfold State.flushStart
  try dsimp only
  repeat' (first | with_reducible assumption | with_reducible refine SameHqmK1.elim (hqm_placeIn _ _ _ _ _ ?_) ‹_› | with_reducible apply hqm_placeIn | with_reducible apply SameHqm.foldl | with_reducible apply SameHqmK1.getD | simp only [SameHqm.mk3] | (intro _) | split)

theorem hqm_parityStart {s0 : State} (s : State) (hks : SameHqm s0 s) : SameHqm s0 (State.parityStart s) := by
  unfold State.parityStart
  try dsimp only
  repeat' (first | with_reducible assumption | with_reducible apply hqm_updSb | with_reducible apply hqm_queueOp | with_reducible apply SameHqm.foldl | simp only [SameHqm.mk3] | (intro _) | split)

theorem hqm_tailStart {s0 : State} (s : State) (hks : SameHqm s0 s) : SameHqm s0 (State.tailStart s) := by
  unfold State.tailStart
  try dsimp only
  repeat' (first | with_reducible assumption | with_reducible apply hqm_queueOp | with_reducible apply SameHqm.foldl | simp only [SameHqm.mk3] | (intro _) | split)

theorem hqm_systemRecord {s0 : State} (s : State) (hks : SameHqm s0 s) : SameHqm s0 (State.systemRecord s) := by
  unfold State.systemRecord
  try dsimp only
  repeat' (first | with_reducible assumption | with_reducible apply hqm_saveGust | with_reducible apply hqm_meterSave | simp only [SameHqm.mk3] | (intro _) | split)

theorem hqm_markStep {s0 : State} (s : State) (n : Nat) (hks : SameHqm s0 s) : SameHqm s0 (State.markStep s n) := by
  unfold State.markStep
  try dsimp only
  repeat' (first | with_reducible assumption | simp only [SameHqm.mk3] | (intro _) | split)

theorem hqm_enterStep {s0 : State} (s : State) (n : Nat) (hks : SameHqm s0 s) : SameHqm s0 (State.enterStep s n) := by
  unfold State.enterStep
  try dsimp only
  repeat' (first | with_reducible assumption | with_reducible apply hqm_passBegin | with_reducible apply hqm_passEnd | with_reducible apply hqm_dropClasses | with_reducible apply hqm_flushStart | with_reducible apply hqm_parityStart | with_reducible apply hqm_tailStart | with_reducible apply hqm_step | simp only [SameHqm.mk3] | (intro _) | split)

theorem hqm_wakeChannels {s0 : State} (s : State) (hks : SameHqm s0 s) : SameHqm s0 (State.wakeChannels s) := by
  unfold State.wakeChannels
  try dsimp only
  repeat' (first | with_reducible assumption | simp only [SameHqm.mk3] | (intro _) | split)

theorem hqm_leaveStep {s0 : State} (s : State) (n : Nat) (hks : SameHqm s0 s) : SameHqm s0 (State.leaveStep s n) := by
  unfold State.leaveStep
  try dsimp only
  repeat' (first | with_reducible assumption | with_reducible apply hqm_sendPkt | with_reducible apply hqm_passEnd | with_reducible apply hqm_systemRecord | with_reducible apply hqm_wakeChannels | simp only [SameHqm.mk3] | (intro _) | split)

theorem hqm_finalHold {s0 : State} (s : State) (hks : SameHqm s0 s) : SameHqm s0 (State.finalHold s) := by
  unfold State.finalHold
  try dsimp only
  repeat' (first | with_reducible assumption | with_reducible apply hqm_addCause | with_reducible apply hqm_zeroiseAll | simp only [SameHqm.mk3] | (intro _) | split)

theorem hqm_utcLapse {s0 : State} (s : State) (hks : SameHqm s0 s) : SameHqm s0 (State.utcLapse s) := by
  unfold State.utcLapse
  try dsimp only
  repeat' (first | with_reducible assumption | simp only [SameHqm.mk3] | (intro _) | split)

theorem hqm_updDom {s0 : State} (s : State) (d : Fin 5) (f : Domain → Domain) (hks : SameHqm s0 s) : SameHqm s0 (State.updDom
      s d f) := by
  unfold State.updDom
  try dsimp only
  repeat' (first | with_reducible assumption | simp only [SameHqm.mk3] | (intro _) | split)

theorem hqm_domWake {s0 : State} (s : State) (d : Fin 5) (hks : SameHqm s0 s) : SameHqm s0 (State.domWake s d) := by
  unfold State.domWake
  try dsimp only
  repeat' (first | with_reducible assumption | with_reducible apply hqm_updDom | simp only [SameHqm.mk3] | (intro _) | split)

theorem hqm_packetTo {s0 : State} (s : State) (d : Fin 5) (hks : SameHqm s0 s) : SameHqm s0 (State.packetTo s d) := by
  unfold State.packetTo
  try dsimp only
  repeat' (first | with_reducible assumption | with_reducible apply hqm_domWake | simp only [SameHqm.mk3] | (intro _) | split)

theorem hqm_unpair {s0 : State} (s : State) (reason : BitVec 3) (hks : SameHqm s0 s) : SameHqm s0 (State.unpair s reason) := by
  unfold State.unpair
  try dsimp only
  repeat' (first | with_reducible assumption | with_reducible apply hqm_raise | with_reducible apply hqm_raiseRecStatus | simp only [SameHqm.mk3] | (intro _) | split)

theorem hqm_enterResync {s0 : State} (s : State) (hks : SameHqm s0 s) : SameHqm s0 (State.enterResync s) := by
  unfold State.enterResync
  try dsimp only
  repeat' (first | with_reducible assumption | with_reducible apply hqm_sendLong | simp only [SameHqm.mk3] | (intro _) | split)

theorem hqm_pairCheck {s0 : State} (s : State) (hks : SameHqm s0 s) : SameHqm s0 (State.pairCheck s) := by
  unfold State.pairCheck
  try dsimp only
  repeat' (first | with_reducible assumption | with_reducible apply hqm_unpair | with_reducible apply hqm_enterResync | simp only [SameHqm.mk3] | (intro _) | split)

theorem hqm_restore {s0 : State} (s : State) (p : Tid → Bool) (hks : SameHqm s0 s) : SameHqm s0 (State.restore s p) := by
  unfold State.restore
  try dsimp only
  repeat' (first | with_reducible assumption | simp only [SameHqm.mk3] | (intro _) | split)

theorem hqm_readSeq {s0 : State} (s : State) (hks : SameHqm s0 s) : SameHqm s0 (State.readSeq s) := by
  unfold State.readSeq
  try dsimp only
  repeat' (first | with_reducible assumption | simp only [SameHqm.mk3] | (intro _) | split)

theorem hqm_reloadAll {s0 : State} (s : State) (hks : SameHqm s0 s) : SameHqm s0 (State.reloadAll s) := by
  unfold State.reloadAll
  try dsimp only
  repeat' (first | with_reducible assumption | with_reducible apply hqm_reloadKeys | with_reducible apply SameHqm.foldl | simp only [SameHqm.mk3] | (intro _) | split)

theorem hqm_reportSquall {s0 : State} (s : State) (complete : Bool) (hks : SameHqm s0 s) : SameHqm s0 (State.reportSquall s
      complete) := by
  unfold State.reportSquall
  try dsimp only
  repeat' (first | with_reducible assumption | with_reducible apply hqm_raise | with_reducible apply hqm_record | simp only [SameHqm.mk3] | (intro _) | split)

theorem hqm_reportLost {s0 : State} (s : State) (t : Tid) (miss : List Nat) (hks : SameHqm s0 s) : SameHqm s0
      (State.reportLost s t miss) := by
  unfold State.reportLost
  try dsimp only
  repeat' (first | with_reducible assumption | with_reducible apply hqm_raise | with_reducible apply hqm_record | with_reducible apply SameHqm.foldl | simp only [SameHqm.mk3] | (intro _) | split)

theorem hqm_compareHead {s0 : State} (s : State) (t : Tid) (lost : Bool) (hks : SameHqm s0 s) : SameHqm s0 (State.compareHead
      s t lost) := by
  unfold State.compareHead
  try dsimp only
  repeat' (first | with_reducible assumption | with_reducible apply hqm_drawn | with_reducible apply hqm_raiseRec | simp only [SameHqm.mk3] | (intro _) | split)

theorem hqm_redoErases {s0 : State} (s : State) (hks : SameHqm s0 s) : SameHqm s0 (State.redoErases s) := by
  unfold State.redoErases
  try dsimp only
  repeat' (first | with_reducible assumption | with_reducible apply hqm_updSb | with_reducible apply hqm_queueErases | with_reducible apply hqm_eraseSb | with_reducible apply SameHqm.foldl | simp only [SameHqm.mk3] | (intro _) | split)

theorem hqm_redoResets {s0 : State} (s : State) (hks : SameHqm s0 s) : SameHqm s0 (State.redoResets s) := by
  unfold State.redoResets
  try dsimp only
  repeat' (first | with_reducible assumption | with_reducible apply hqm_emptyZone | with_reducible apply SameHqm.foldl | simp only [SameHqm.mk3] | (intro _) | split)

theorem hqm_refillSet {s0 : State} (s : State) (t : Tid) (n : Nat) (hks : SameHqm s0 s) : SameHqm s0 (State.refillSet s t n)
      := by
  induction n generalizing s with
  | zero => exact hks
  | succ k ih =>
    unfold State.refillSet
    split
    · rename_i z s1 e
      exact ih _ (hqm_updZone _ _ _ ((hqm_takeZone s t true true hks).elim e))
    · exact hks

theorem hqm_refillGust {s0 : State} (s : State) (d : BoardDesc) (hks : SameHqm s0 s) : SameHqm s0 (State.refillGust s d) := by
  unfold State.refillGust
  try dsimp only
  repeat' (first | with_reducible assumption | with_reducible apply hqm_refillSet | with_reducible apply SameHqm.foldl | simp only [SameHqm.mk3] | (intro _) | split)

theorem hqm_confirmSlot {s0 : State} (s : State) (hks : SameHqm s0 s) : SameHqm s0 (State.confirmSlot s) := by
  unfold State.confirmSlot
  try dsimp only
  repeat' (first | with_reducible assumption | with_reducible apply hqm_writeRec | simp only [SameHqm.mk3] | (intro _) | split)

theorem hqm_applyLatched {s0 : State} (s : State) (hks : SameHqm s0 s) : SameHqm s0 (State.applyLatched s) := by
  unfold State.applyLatched
  try dsimp only
  repeat' (first | with_reducible assumption | with_reducible apply hqm_holdPulse | with_reducible apply SameHqm.foldl | simp only [SameHqm.mk3] | (intro _) | split)

theorem hqm_wakeHost {s0 : State} (s : State) (hks : SameHqm s0 s) : SameHqm s0 (State.wakeHost s) := by
  unfold State.wakeHost
  try dsimp only
  repeat' (first | with_reducible assumption | with_reducible apply hqm_emit | simp only [SameHqm.mk3] | (intro _) | split)

theorem hqm_setRcv {s0 : State} (s : State) (st : Nat) (err : Byte) (hks : SameHqm s0 s) : SameHqm s0 (State.setRcv s st err)
      := by
  unfold State.setRcv
  try dsimp only
  repeat' (first | with_reducible assumption | simp only [SameHqm.mk3] | (intro _) | split)

theorem hqm_rcvFail {s0 : State} (s : State) (err : Byte) (hks : SameHqm s0 s) : SameHqm s0 (State.rcvFail s err) := by
  unfold State.rcvFail
  try dsimp only
  repeat' (first | with_reducible assumption | with_reducible apply hqm_raise | with_reducible apply hqm_setRcv | simp only [SameHqm.mk3] | (intro _) | split)

theorem hqm_rcvBusy {s0 : State} (s : State) (hks : SameHqm s0 s) : SameHqm s0 (State.rcvBusy s) := by
  unfold State.rcvBusy
  try dsimp only
  repeat' (first | with_reducible assumption | with_reducible apply hqm_raise | with_reducible apply hqm_setRcv | simp only [SameHqm.mk3] | (intro _) | split)

theorem hqm_rcvStart_start {s0 : State} (s : State) (spi : Bool) (target total : Nat) (hks : SameHqm s0 s) :
    SameHqm s0 (State.rcvStart.start s spi target total) := by
  unfold State.rcvStart.start
  repeat' (first | with_reducible assumption | with_reducible apply hqm_rcvFail | with_reducible apply hqm_setRcv | simp only [SameHqm.mk3] | split)

theorem hqm_rcvStart {s0 : State} (s : State) (spi : Bool) (target total : Nat) (hks : SameHqm s0 s) : SameHqm s0
      (State.rcvStart s spi target total) := by
  unfold State.rcvStart
  repeat' (first | with_reducible assumption | with_reducible apply hqm_rcvBusy | with_reducible apply hqm_rcvStart_start | split)

theorem hqm_rcvBytes {s0 : State} (s : State) (x : RcvSession) (off : Nat) (b : List Byte) (hks : SameHqm s0 s) : SameHqm s0
      (State.rcvBytes s x off b) := by
  unfold State.rcvBytes
  try dsimp only
  repeat' (first | with_reducible assumption | with_reducible apply hqm_raise | with_reducible apply hqm_setRcv | with_reducible apply hqm_rcvFail | simp only [SameHqm.mk3] | (intro _) | split)

theorem hqm_rcvWrite {s0 : State} (s : State) (target : Nat) (b : List Byte) (hks : SameHqm s0 s) : SameHqm s0 (State.rcvWrite
      s target b) := by
  unfold State.rcvWrite
  try dsimp only
  repeat' (first | with_reducible assumption | with_reducible apply hqm_norWrite | with_reducible apply hqm_writeRec | simp only [SameHqm.mk3] | (intro _) | split)

theorem hqm_otpFailed {s0 : State} (s : State) (hks : SameHqm s0 s) : SameHqm s0 (State.otpFailed s) := by
  unfold State.otpFailed
  try dsimp only
  repeat' (first | with_reducible assumption | with_reducible apply hqm_drawn | with_reducible apply hqm_recordAs | with_reducible apply hqm_rcvFail | simp only [SameHqm.mk3] | (intro _) | split)

theorem hqm_mailStart {s0 : State} (s : State) (hks : SameHqm s0 s) : SameHqm s0 (State.mailStart s) := by
  unfold State.mailStart
  try dsimp only
  repeat' (first | with_reducible assumption | with_reducible apply hqm_rcvStart | simp only [SameHqm.mk3] | (intro _) | split)

theorem hqm_mailChunk {s0 : State} (s : State) (data : List Byte) (failed : Bool) (hks : SameHqm s0 s) : SameHqm s0
      (State.mailChunk s data failed) := by
  unfold State.mailChunk
  try dsimp only
  repeat' (first | with_reducible assumption | with_reducible apply hqm_emit | with_reducible apply hqm_rcvFail | with_reducible apply hqm_rcvBytes | simp only [SameHqm.mk3] | (intro _) | split)

theorem hqm_mailAbort {s0 : State} (s : State) (hks : SameHqm s0 s) : SameHqm s0 (State.mailAbort s) := by
  unfold State.mailAbort
  try dsimp only
  repeat' (first | with_reducible assumption | with_reducible apply hqm_setRcv | simp only [SameHqm.mk3] | (intro _) | split)

theorem hqm_rcvAnswer {s0 : State} (s : State) (hdr : Word) (hks : SameHqm s0 s) : SameHqm s0 (State.rcvAnswer s hdr) := by
  unfold State.rcvAnswer
  try dsimp only
  repeat' (first | with_reducible assumption | simp only [SameHqm.mk3] | (intro _) | split)

theorem hqm_rcvFrame {s0 : State} (s : State) (type : Nat) (hdr : Word) (payload : List Word) (crc : Word) (act : State) (hks
      : SameHqm s0 s) (hkact : SameHqm s0 act) : SameHqm s0 (State.rcvFrame s type hdr payload crc act) := by
  unfold State.rcvFrame
  try dsimp only
  repeat' (first | with_reducible assumption | with_reducible apply hqm_raise | with_reducible apply hqm_setRcv | with_reducible apply hqm_rcvAnswer | simp only [SameHqm.mk3] | (intro _) | split)

theorem hqm_linkFail {s0 : State} (s : State) (port : Fin 4) (step : Nat) (hks : SameHqm s0 s) : SameHqm s0 (State.linkFail s
      port step) := by
  unfold State.linkFail
  try dsimp only
  repeat' (first | with_reducible assumption | with_reducible apply hqm_raiseRec | with_reducible apply hqm_linkLeave | simp only [SameHqm.mk3] | (intro _) | split)

theorem hqm_sendHello {s0 : State} (s : State) (port : Fin 4) (f : VflS → VflS) (hks : SameHqm s0 s) : SameHqm s0
      (State.sendHello s port f) := by
  unfold State.sendHello
  try dsimp only
  repeat' (first | with_reducible assumption | with_reducible apply hqm_updVfl | with_reducible apply hqm_sendOn | with_reducible refine SameHqmK2.elim (hqm_drbg _ ?_) ‹_› | with_reducible apply hqm_drbg | exact fun h => h | simp only [SameHqm.mk3] | (intro _) | split)

theorem hqm_gainLock {s0 : State} (s : State) (port : Fin 4) (hks : SameHqm s0 s) : SameHqm s0 (State.gainLock s port) := by
  unfold State.gainLock
  try dsimp only
  repeat' (first | with_reducible assumption | with_reducible apply hqm_advDue | with_reducible apply hqm_sendHello | exact fun _ h => h | simp only [SameHqm.mk3] | (intro _) | split)

theorem hqm_topologyChanged {s0 : State} (s : State) (hks : SameHqm s0 s) : SameHqm s0 (State.topologyChanged s) := by
  unfold State.topologyChanged
  try dsimp only
  repeat' (first | with_reducible assumption | with_reducible apply hqm_raise | with_reducible apply SameHqmK1.getD | simp only [SameHqm.mk3] | (intro _) | split)

theorem hqm_discardPkt {s0 : State} (s : State) (port : Fin 4) (gcm : Bool) (checks : Bool) (hks : SameHqm s0 s) : SameHqm s0
      (State.discardPkt s port gcm checks) := by
  unfold State.discardPkt
  try dsimp only
  repeat' (first | with_reducible assumption | with_reducible apply hqm_raise | with_reducible apply hqm_updVfl | with_reducible apply hqm_linkFail | exact fun h => h | simp only [SameHqm.mk3] | (intro _) | split)

theorem hqm_forwardPkt {s0 : State} (s : State) (h : PktHdr) (clear : List Byte) (vc : Fin 3) (hks : SameHqm s0 s) : SameHqm
      s0 (State.forwardPkt s h clear vc) := by
  unfold State.forwardPkt
  try dsimp only
  repeat' (first | with_reducible assumption | with_reducible apply hqm_sendPkt | simp only [SameHqm.mk3] | (intro _) | split)

theorem hqm_sendRequest {s0 : State} (s : State) (p : OutPkt) (tag : Option Tag) (tries : Nat) (held : Fin 4) (hks : SameHqm
      s0 s) : SameHqm s0 (State.sendRequest s p tag tries held) := by
  unfold State.sendRequest
  try dsimp only
  repeat' (first | with_reducible assumption | with_reducible apply hqm_updVfl | with_reducible apply hqm_sendLong | exact fun h => h | simp only [SameHqm.mk3] | (intro _) | split)

theorem hqm_rreqLost {s0 : State} (s : State) (hks : SameHqm s0 s) : SameHqm s0 (State.rreqLost s) := by
  unfold State.rreqLost
  try dsimp only
  repeat' (first | with_reducible assumption | with_reducible apply hqm_raise | simp only [SameHqm.mk3] | (intro _) | split)

theorem hqm_serveRreq {s0 : State} (s : State) (hks : SameHqm s0 s) : SameHqm s0 (State.serveRreq s) := by
  unfold State.serveRreq
  try dsimp only
  repeat' (first | with_reducible assumption | with_reducible apply hqm_sendRequest | with_reducible apply hqm_rreqLost | simp only [SameHqm.mk3] | (intro _) | split)

theorem hqm_endTxns {s0 : State} (s : State) (p : Txn → Bool) (hks : SameHqm s0 s) : SameHqm s0 (State.endTxns s p) := by
  unfold State.endTxns
  try dsimp only
  repeat' (first | with_reducible assumption | with_reducible apply hqm_serveRreq | simp only [SameHqm.mk3] | (intro _) | split)

theorem hqm_installFleet {s0 : State} (s : State) (hks : SameHqm s0 s) : SameHqm s0 (State.installFleet s) := by
  unfold State.installFleet
  try dsimp only
  repeat' (first | with_reducible assumption | with_reducible apply hqm_raise | with_reducible apply hqm_startPorts | simp only [SameHqm.mk3] | (intro _) | split)

theorem hqm_installCert {s0 : State} (s : State) (hks : SameHqm s0 s) : SameHqm s0 (State.installCert s) := by
  unfold State.installCert
  try dsimp only
  repeat' (first | with_reducible assumption | with_reducible apply hqm_raise | with_reducible apply hqm_startPorts | simp only [SameHqm.mk3] | (intro _) | split)

theorem hqm_floodAdv {s0 : State} (s : State) (a : Adv) (bytes : List Byte) (own : Bool) (dst : Fin 4 → Bool) (hks : SameHqm
      s0 s) : SameHqm s0 (State.floodAdv s a bytes own dst) := by
  unfold State.floodAdv
  try dsimp only
  repeat' (first | with_reducible assumption | with_reducible apply hqm_sendOn | with_reducible apply SameHqm.foldl | simp only [SameHqm.mk3] | (intro _) | split)

theorem hqm_giveWay {s0 : State} (s : State) (other : Adv) (hks : SameHqm s0 s) : SameHqm s0 (State.giveWay s other) := by
  unfold State.giveWay
  try dsimp only
  repeat' (first | with_reducible assumption | with_reducible apply hqm_raiseRec | simp only [SameHqm.mk3] | (intro _) | split)

theorem hqm_dropImport {s0 : State} (s : State) (i : Import) (hks : SameHqm s0 s) : SameHqm s0 (State.dropImport s i) := by
  unfold State.dropImport
  try dsimp only
  repeat' (first | with_reducible assumption | simp only [SameHqm.mk3] | (intro _) | split)

theorem hqm_sendCopy {s0 : State} (s : State) (tag : Tag) (c : Cmd) (z : Zone) (held : Fin 4) (hks : SameHqm s0 s) : SameHqm
      s0 (State.sendCopy s tag c z held) := by
  unfold State.sendCopy
  try dsimp only
  repeat' (first | with_reducible assumption | with_reducible apply hqm_sendPkt | with_reducible apply hqm_sendLong | with_reducible apply hqm_sendRequest | with_reducible apply SameHqm.foldl | simp only [SameHqm.mk3] | (intro _) | split)

theorem hqm_copyAnswer {s0 : State} (s : State) (src : BitVec 16) (a : CopyAnswer) (hks : SameHqm s0 s) : SameHqm s0
      (State.copyAnswer s src a) := by
  unfold State.copyAnswer
  try dsimp only
  repeat' (first | with_reducible assumption | with_reducible apply hqm_sendPkt | simp only [SameHqm.mk3] | (intro _) | split)

theorem hqm_refuseImport {s0 : State} (s : State) (src : BitVec 16) (cause : Byte) (hks : SameHqm s0 s) : SameHqm s0
      (State.refuseImport s src cause) := by
  unfold State.refuseImport
  try dsimp only
  repeat' (first | with_reducible assumption | with_reducible apply hqm_raise | with_reducible apply hqm_copyAnswer | simp only [SameHqm.mk3] | (intro _) | split)

theorem hqm_placeImport {s0 : State} (s : State) (d : BoardDesc) (z : Nat) (gen : Word) (log : List AppRec) (hks : SameHqm s0
      s) : SameHqmK1 s0 (State.placeImport s d z gen log) := by
  unfold State.placeImport
  try dsimp only
  repeat' (first | with_reducible assumption | with_reducible refine SameHqmK1.elim (hqm_placeIn _ _ _ _ _ ?_) ‹_› | with_reducible apply hqm_placeIn | with_reducible apply SameHqmK1.none | with_reducible apply SameHqmK1.some | with_reducible refine SameHqmK1.map (fun _ _ => ?_) ?_ | with_reducible refine SameHqmK1.foldl (fun _ _ _ => ?_) ?_ | with_reducible exact SameHqmK1.elim ‹_› ‹_› | with_reducible exact SameHqmK1.elim ‹_› rfl | with_reducible apply SameHqm.foldl | simp only [SameHqm.mk3] | (intro _) | split)

theorem hqm_rreqGo {s0 : State} (s : State) (hks : SameHqm s0 s) : SameHqm s0 (State.rreqGo s) := by
  unfold State.rreqGo
  try dsimp only
  repeat' (first | with_reducible assumption | with_reducible apply hqm_serveRreq | simp only [SameHqm.mk3] | (intro _) | split)

theorem hqm_sendEvents {s0 : State} (s : State) (hks : SameHqm s0 s) : SameHqm s0 (State.sendEvents s) := by
  unfold State.sendEvents
  try dsimp only
  repeat' (first | with_reducible assumption | with_reducible apply hqm_mirSend | with_reducible apply SameHqm.foldl | simp only [SameHqm.mk3] | (intro _) | split)

theorem hqm_replicaFor_fresh {s0 : State} (s : State) (a : MirAppend) (hks : SameHqm s0 s) : SameHqmK2 s0
      (State.replicaFor.fresh s a) := by
  unfold State.replicaFor.fresh
  constructor
  intro z t e
  obtain ⟨y, _, h⟩ := Option.map_eq_some_iff.mp e
  obtain ⟨_, rfl⟩ := Prod.mk.inj h
  exact hqm_putZone _ _ _ hks

theorem hqm_replicaFor {s0 : State} (s : State) (a : MirAppend) (hks : SameHqm s0 s) : SameHqmK2 s0 (State.replicaFor s a) := by
  unfold State.replicaFor
  split
  · split
    · exact SameHqmK2.some hks
    · exact hqm_replicaFor_fresh s a hks
  · exact hqm_replicaFor_fresh s a hks

theorem hqm_sendAccept {s0 : State} (s : State) (t : Tid) (index : Nat) (refused : Bool) (hks : SameHqm s0 s) : SameHqm s0
      (State.sendAccept s t index refused) := by
  unfold State.sendAccept
  try dsimp only
  repeat' (first | with_reducible assumption | with_reducible apply hqm_sendPkt | simp only [SameHqm.mk3] | (intro _) | split)

theorem hqm_applyAppend {s0 : State} (s : State) (d : BoardDesc) (a : MirAppend) (z : Nat) (x : Zone) (hks : SameHqm s0 s) :
      SameHqmK1 s0 (State.applyAppend s d a z x) := by
  unfold State.applyAppend
  try dsimp only
  repeat' (first | with_reducible assumption | with_reducible apply hqm_updZone | with_reducible apply hqm_meterIn | with_reducible refine SameHqmK2.elim (hqm_allocAll _ _ _ ?_) ‹_› | with_reducible apply hqm_allocAll | with_reducible apply hqm_rtRequest | with_reducible refine SameHqmK1.elim (hqm_placeIn _ _ _ _ _ ?_) ‹_› | with_reducible apply hqm_placeIn | with_reducible apply hqm_countDirty | with_reducible apply hqm_sendAccept | with_reducible apply SameHqmK1.none | with_reducible apply SameHqmK1.some | with_reducible apply SameHqmK1.getD | simp only [SameHqm.mk3] | (intro _) | split)

theorem hqm_onReplica {s0 : State} (s : State) (t : Tid) (src : Nat) (f : Nat → Zone → State) (hf : ∀ v0 v1, SameHqm s0 (f v0
      v1)) (hks : SameHqm s0 s) : SameHqm s0 (State.onReplica s t src f) := by
  unfold State.onReplica
  try dsimp only
  repeat' (first | with_reducible assumption | with_reducible apply hf | simp only [SameHqm.mk3] | (intro _) | split)

theorem hqm_resetReplica {s0 : State} (s : State) (z : Nat) (x : Zone) (hks : SameHqm s0 s) : SameHqm s0 (State.resetReplica s
      z x) := by
  unfold State.resetReplica
  try dsimp only
  repeat' (first | with_reducible assumption | with_reducible apply hqm_zresetRecord | with_reducible apply hqm_emptyZone | with_reducible apply hqm_eraseZoneBlocks | simp only [SameHqm.mk3] | (intro _) | split)

theorem hqm_applyItem {s0 : State} (s : State) (a0 : MirItem) (hks : SameHqm s0 s) : SameHqm s0 (State.applyItem s a0) := by
  unfold State.applyItem
  try dsimp only
  repeat' (first | with_reducible assumption | with_reducible apply hqm_release | with_reducible apply hqm_updZone | with_reducible apply hqm_meterIn | with_reducible apply hqm_onReplica | with_reducible apply hqm_resetReplica | with_reducible apply SameHqmK1.getD | simp only [SameHqm.mk3] | (intro _) | split)

theorem hqm_settleSync {s0 : State} (s : State) (hks : SameHqm s0 s) : SameHqm s0 (State.settleSync s) := by
  unfold State.settleSync
  try dsimp only
  repeat' (first | with_reducible assumption | with_reducible apply hqm_raise | with_reducible apply hqm_sendLong | simp only [SameHqm.mk3] | (intro _) | split)

theorem hqm_sendZoneState {s0 : State} (s : State) (id : Nat) (z : Zone) (hks : SameHqm s0 s) : SameHqm s0
      (State.sendZoneState s id z) := by
  unfold State.sendZoneState
  try dsimp only
  repeat' (first | with_reducible assumption | with_reducible apply hqm_mirSend | simp only [SameHqm.mk3] | (intro _) | split)

theorem hqm_resyncTenant {s0 : State} (s : State) (cps : List Checkpoint) (t : Tid) (hks : SameHqm s0 s) : SameHqm s0
      (State.resyncTenant s cps t) := by
  unfold State.resyncTenant
  try dsimp only
  repeat' (first | with_reducible assumption | with_reducible apply hqm_sendLong | with_reducible apply hqm_mirAppendSend | with_reducible apply hqm_sendZoneState | with_reducible apply SameHqm.foldl | with_reducible apply SameHqmK1.getD | simp only [SameHqm.mk3] | (intro _) | split)

theorem hqm_markDiverged {s0 : State} (s : State) (t : Tid) (p : Nat) (hks : SameHqm s0 s) : SameHqm s0 (State.markDiverged s
      t p) := by
  unfold State.markDiverged
  try dsimp only
  repeat' (first | with_reducible assumption | with_reducible apply hqm_drawn | with_reducible apply hqm_raiseRec | with_reducible apply hqm_updZone | with_reducible apply SameHqm.foldl | simp only [SameHqm.mk3] | (intro _) | split)

theorem hqm_supplyReading {s0 : State} (s : State) (slot : Nat) (mV : Int) (hks : SameHqm s0 s) : SameHqm s0
      (State.supplyReading s slot mV) := by
  unfold State.supplyReading
  try dsimp only
  repeat' (first | with_reducible assumption | with_reducible apply hqm_raiseRec | simp only [SameHqm.mk3] | (intro _) | split)

theorem hqm_dieReading {s0 : State} (s : State) (n : Nat) (r : Int) (hks : SameHqm s0 s) : SameHqm s0 (State.dieReading s n r)
      := by
  unfold State.dieReading
  try dsimp only
  repeat' (first | with_reducible assumption | with_reducible apply hqm_raise | simp only [SameHqm.mk3] | (intro _) | split)

theorem hqm_diodeReading {s0 : State} (s : State) (ok : Bool) (hks : SameHqm s0 s) : SameHqm s0 (State.diodeReading s ok) := by
  unfold State.diodeReading
  try dsimp only
  repeat' (first | with_reducible assumption | with_reducible apply hqm_raise | simp only [SameHqm.mk3] | (intro _) | split)

theorem hqm_setVane {s0 : State} (s : State) (k : Fin 8) (hks : SameHqm s0 s) : SameHqm s0 (State.setVane s k) := by
  unfold State.setVane
  try dsimp only
  repeat' (first | with_reducible assumption | with_reducible apply hqm_raise | with_reducible apply hqm_raiseTenants | with_reducible apply hqm_raiseRecStatus | simp only [SameHqm.mk3] | (intro _) | split)

theorem hqm_vaneTime {s0 : State} (s : State) (hks : SameHqm s0 s) : SameHqm s0 (State.vaneTime s) := by
  unfold State.vaneTime
  try dsimp only
  repeat' (first | with_reducible assumption | simp only [SameHqm.mk3] | (intro _) | split)

theorem hqm_bandTime {s0 : State} (s : State) (t : Int) (hks : SameHqm s0 s) : SameHqm s0 (State.bandTime s t) := by
  unfold State.bandTime
  try dsimp only
  repeat' (first | with_reducible assumption | with_reducible apply hqm_raise | simp only [SameHqm.mk3] | (intro _) | split)

theorem hqm_checkBalances {s0 : State} (s : State) (hks : SameHqm s0 s) : SameHqm s0 (State.checkBalances s) := by
  unfold State.checkBalances
  try dsimp only
  repeat' (first | with_reducible assumption | with_reducible apply hqm_raiseRecStatus | with_reducible apply SameHqm.foldl | simp only [SameHqm.mk3] | (intro _) | split)

theorem hqm_issueChallenge {s0 : State} (s : State) (hks : SameHqm s0 s) : SameHqm s0 (State.issueChallenge s) := by
  unfold State.issueChallenge
  try dsimp only
  repeat' (first | with_reducible assumption | with_reducible apply hqm_drawn | with_reducible apply hqm_emit | with_reducible refine SameHqmK2.elim (hqm_drbg _ ?_) ‹_› | with_reducible apply hqm_drbg | simp only [SameHqm.mk3] | (intro _) | split)

theorem hqm_countUnlock {s0 : State} (s : State) (hks : SameHqm s0 s) : SameHqm s0 (State.countUnlock s) := by
  unfold State.countUnlock
  try dsimp only
  repeat' (first | with_reducible assumption | simp only [SameHqm.mk3] | (intro _) | split)

theorem hqm_updDbg {s0 : State} (s : State) (f : DbgS → DbgS) (hks : SameHqm s0 s) : SameHqm s0 (State.updDbg s f) := by
  unfold State.updDbg
  try dsimp only
  repeat' (first | with_reducible assumption | simp only [SameHqm.mk3] | (intro _) | split)

theorem hqm_touchPage {s0 : State} (s : State) (src : Src) (p : Page) (hks : SameHqm s0 s) : SameHqm s0 (State.touchPage s src
      p) := by
  unfold State.touchPage
  try dsimp only
  repeat' (first | with_reducible assumption | with_reducible apply hqm_packetTo | simp only [SameHqm.mk3] | (intro _) | split)

theorem hqm_refused {s0 : State} (s : State) (p : Page) (off : Nat) (cause : Byte) (hks : SameHqm s0 s) : SameHqm s0
      (State.refused s p off cause) := by
  unfold State.refused
  try dsimp only
  repeat' (first | with_reducible assumption | with_reducible apply hqm_updTnt | with_reducible apply hqm_raise | simp only [SameHqm.mk3] | (intro _) | split)

theorem hqm_clearStatus {s0 : State} (s : State) (p : Page) (v : Word) (hks : SameHqm s0 s) : SameHqm s0 (State.clearStatus s
      p v) := by
  unfold State.clearStatus
  try dsimp only
  repeat' (first | with_reducible assumption | with_reducible apply hqm_updHdr | with_reducible apply hqm_requestTenant | with_reducible apply hqm_updInta | with_reducible apply SameHqm.foldl | simp only [SameHqm.mk3] | (intro _) | split)

theorem hqm_setEnable {s0 : State} (s : State) (p : Page) (v : Word) (hks : SameHqm s0 s) : SameHqm s0 (State.setEnable s p v)
      := by
  unfold State.setEnable
  try dsimp only
  repeat' (first | with_reducible assumption | with_reducible apply hqm_updHdr | with_reducible apply hqm_requestBlock | with_reducible apply hqm_noticeBlock | with_reducible apply hqm_requestTenant | with_reducible apply hqm_updInta | with_reducible apply SameHqm.foldl | simp only [SameHqm.mk3] | (intro _) | split)

theorem hqm_forceStatus {s0 : State} (s : State) (p : Page) (v : Word) (hks : SameHqm s0 s) : SameHqm s0 (State.forceStatus s
      p v) := by
  unfold State.forceStatus
  try dsimp only
  repeat' (first | with_reducible assumption | with_reducible apply hqm_raise | with_reducible apply SameHqm.foldl | simp only [SameHqm.mk3] | (intro _) | split)

theorem hqm_lockFeatures {s0 : State} (s : State) (hks : SameHqm s0 s) : SameHqm s0 (State.lockFeatures s) := by
  unfold State.lockFeatures
  try dsimp only
  repeat' (first | with_reducible assumption | simp only [SameHqm.mk3] | (intro _) | split)

theorem hqm_rstCtrl {s0 : State} (s : State) (v : Word) (hks : SameHqm s0 s) : SameHqm s0 (State.rstCtrl s v) := by
  unfold State.rstCtrl
  try dsimp only
  repeat' (first | with_reducible assumption | with_reducible apply hqm_squallTrigger | simp only [SameHqm.mk3] | (intro _) | split)

theorem hqm_certCtrl {s0 : State} (s : State) (v : Word) (hks : SameHqm s0 s) : SameHqm s0 (State.certCtrl s v) := by
  unfold State.certCtrl
  try dsimp only
  repeat' (first | with_reducible assumption | with_reducible apply hqm_installFleet | with_reducible apply hqm_installCert | simp only [SameHqm.mk3] | (intro _) | split)

theorem hqm_storeReg {s0 : State} (s : State) (p : Page) (off : Nat) (r : Reg) (mask : Word) (v : Word) (hks : SameHqm s0 s) :
      SameHqm s0 (State.storeReg s p off r mask v) := by
  unfold State.storeReg
  try dsimp only
  repeat' (first | with_reducible assumption | with_reducible apply hqm_setReg | simp only [SameHqm.mk3] | (intro _) | split)

theorem hqm_rerequest {s0 : State} (s : State) (p : Page) (b : Nat) (hks : SameHqm s0 s) : SameHqm s0 (State.rerequest s p b)
      := by
  unfold State.rerequest
  try dsimp only
  repeat' (first | with_reducible assumption | with_reducible apply hqm_requestBlock | simp only [SameHqm.mk3] | (intro _) | split)

theorem hqm_updI2ct {s0 : State} (s : State) (f : I2ctS → I2ctS) (hks : SameHqm s0 s) : SameHqm s0 (State.updI2ct s f) := by
  unfold State.updI2ct
  try dsimp only
  repeat' (first | with_reducible assumption | simp only [SameHqm.mk3] | (intro _) | split)

theorem hqm_i2cCommand {s0 : State} (s : State) (pecOk : Bool) (act : State → State) (hact : ∀ v0, SameHqm s0 v0 → SameHqm s0
      (act v0)) (hks : SameHqm s0 s) : SameHqm s0 (State.i2cCommand s pecOk act) := by
  unfold State.i2cCommand
  try dsimp only
  repeat' (first | with_reducible assumption | with_reducible apply hqm_emit | with_reducible apply hqm_raise | with_reducible apply hqm_updI2ct | with_reducible apply hact | simp only [SameHqm.mk3] | (intro _) | split)

theorem hqm_freeByte {s0 : State} (s : State) (hks : SameHqm s0 s) : SameHqmK4 s0 (State.freeByte s) := by
  unfold State.freeByte
  try dsimp only
  repeat' (first | with_reducible assumption | with_reducible apply hqm_drawn | with_reducible apply SameHqmK4.mk | simp only [SameHqm.mk3] | (intro _) | split)

theorem hqm_eccCorrected {s0 : State} (s : State) (hks : SameHqm s0 s) : SameHqm s0 (State.eccCorrected s) := by
  unfold State.eccCorrected
  try dsimp only
  repeat' (first | with_reducible assumption | with_reducible apply hqm_raise | simp only [SameHqm.mk3] | (intro _) | split)

theorem hqm_eccEvent {s0 : State} (s : State) (m : MemKind) (addr : DWord) (owner : Nat) (tenant : Byte) (rec : Bool) (hks :
      SameHqm s0 s) : SameHqm s0 (State.eccEvent s m addr owner tenant rec) := by
  unfold State.eccEvent
  try dsimp only
  repeat' (first | with_reducible assumption | with_reducible apply hqm_raise | with_reducible apply hqm_raiseRec | simp only [SameHqm.mk3] | (intro _) | split)

theorem hqm_readAgain {s0 : State} (s : State) (d : BoardDesc) (tag : Tag) (c : Cmd) (k : Nat) (hks : SameHqm s0 s) : SameHqm
      s0 (State.readAgain s d tag c k) := by
  unfold State.readAgain
  try dsimp only
  repeat' (first | with_reducible assumption | with_reducible apply hqm_queueReads | simp only [SameHqm.mk3] | (intro _) | split)

theorem hqm_spoil {s0 : State} (s : State) (h : Nat) (b : Buf) (hks : SameHqm s0 s) : SameHqm s0 (State.spoil s h b) := by
  unfold State.spoil
  try dsimp only
  repeat' (first | with_reducible assumption | with_reducible apply hqm_drawn | with_reducible apply hqm_updZone | with_reducible apply hqm_updBuf | simp only [SameHqm.mk3] | (intro _) | split)
end Sys2Proof.Machine
end

