-- ==== Sys2Proof/Laws/Commands.lean ====
section
/-!
SUPPORT. The commands in flight: reading one back after it changes, finishing one, and running an opcode's rules on one.
-/
namespace Sys2Proof.Machine

theorem cmd_of_hqm {s u : State} (h : u.hqm = s.hqm) (tag : Tag) : u.cmd tag = s.cmd tag := by
  unfold State.cmd; rw [h]

/-- A command that changes reads back changed. -/
theorem updCmd_cmd (s : State) (tag : Tag) (f : Cmd → Cmd) (c : Cmd) (h : s.cmd tag = some c) :
    (s.updCmd tag f).cmd tag = some (f c) := by
  unfold State.cmd State.updCmd at *
  simp [KMap.find_upd, h]

/-- Every other command stays. -/
theorem updCmd_other (s : State) {tag j : Tag} (f : Cmd → Cmd) (h : j ≠ tag) : (s.updCmd tag f).cmd j = s.cmd j := by
  unfold State.cmd State.updCmd
  have e : j.1 ≠ tag.1 := fun g => h (Fin.ext g)
  simp [KMap.find_upd, e]

/-- A finished command is answered. -/
theorem finish_answered (s : State) (tag : Tag) (st rc : Byte) (r : DWord) (c : Cmd) (h : s.cmd tag = some c) :
    (s.finish tag st rc r).answered tag st rc r :=
  ⟨_, updCmd_cmd s tag _ c h, rfl⟩

theorem runs_cmd {s : State} {tag : Tag} {opc : Nat} {c : Cmd} (h : s.runs tag opc = some c) : s.cmd tag = some c := by
  unfold State.runs at h
  split at h
  · split at h
    · cases h; assumption
    · cases h
  · cases h

theorem ready_cmd {s : State} {tag : Tag} {opc : Nat} {c : Cmd} (h : s.ready tag opc c) : s.cmd tag = some c := runs_cmd h.1

/-- An opcode's rules run on a command that is ready. -/
theorem runOp_ready {s : State} {tag : Tag} {opc : Nat} {c : Cmd} (p : Desc → Bool) (f : Cmd → State)
    (h : s.ready tag opc c) (hp : p c.desc = true) : s.runOp tag opc p f = f c := by
  unfold State.runOp
  rw [h.1]
  obtain ⟨-, h1, h2, h3, h4, h5⟩ := h
  simp [hp, h1, h2, h3, h4, h5]

/-- A command finished after operations that leave the commands alone is answered. -/
theorem answered_after {s u : State} {tag : Tag} {c : Cmd} (st rc : Byte) (r : DWord) (h : s.cmd tag = some c)
    (e : u.hqm = s.hqm) : (u.finish tag st rc r).answered tag st rc r :=
  finish_answered _ _ _ _ _ c (by rw [cmd_of_hqm e]; exact h)

end Sys2Proof.Machine
end

