-- ==== Sys2Proof/Laws/Kept.lean ====
section
/-!
SUPPORT. What every command keeps. `Kept s t` says of a later state t what no operation of the block may break; one lemma for
each shared operation says that it keeps it, so that a statement about every command needs no operation unfolded.
-/
namespace Sys2Proof.Machine

/-- What every operation keeps of NOR, OTP and the system area: the NOR's canonical form, the permanent records, and that the
life counters, the floor and the derating stage never fall (04 R90, 11 R368, 15 R485, R487). -/
structure NvmKept (a b : Nvm) : Prop where
  nor       : a.nor.wf = true → b.nor.wf = true
  floor     : a.floor ≤ 63 → a.floor ≤ b.floor ∧ b.floor ≤ 63
  permanent : a.permanent <+: b.permanent
  evDropped : a.evDropped ≤ 0xFFFFFFFF → a.evDropped ≤ b.evDropped ∧ b.evDropped ≤ 0xFFFFFFFF
  ackLost   : a.ackLost ≤ 0xFFFFFFFF → a.ackLost ≤ b.ackLost ∧ b.ackLost ≤ 0xFFFFFFFF
  starts    : a.starts ≤ b.starts
  cycles    : a.cycles ≤ b.cycles
  squalls   : a.squalls ≤ b.squalls
  unlocks   : a.unlocks ≤ b.unlocks
  bands     : ∀ k : Fin 5, a.bandMs[k] ≤ b.bandMs[k]
  stage     : a.stage ≤ b.stage
  sealIndex : a.sealIndex ≤ b.sealIndex
  reserved  : a.seqReserved ≤ b.seqReserved

theorem NvmKept.rfl' (a : Nvm) : NvmKept a a :=
  { nor := id, floor := fun h => ⟨le_refl _, h⟩, permanent := List.prefix_rfl, evDropped := fun h => ⟨le_refl _, h⟩,
    ackLost := fun h => ⟨le_refl _, h⟩, starts := le_refl _, cycles := le_refl _, squalls := le_refl _,
    unlocks := le_refl _, bands := fun _ => le_refl _, stage := le_refl _, sealIndex := le_refl _, reserved := le_refl _ }

theorem NvmKept.trans {a b c : Nvm} (h : NvmKept a b) (g : NvmKept b c) : NvmKept a c :=
  { nor := fun x => g.nor (h.nor x),
    floor := fun x => ⟨(h.floor x).1.trans (g.floor (h.floor x).2).1, (g.floor (h.floor x).2).2⟩,
    permanent := h.permanent.trans g.permanent,
    evDropped := fun x => ⟨(h.evDropped x).1.trans (g.evDropped (h.evDropped x).2).1, (g.evDropped (h.evDropped x).2).2⟩,
    ackLost := fun x => ⟨(h.ackLost x).1.trans (g.ackLost (h.ackLost x).2).1, (g.ackLost (h.ackLost x).2).2⟩,
    starts := h.starts.trans g.starts, cycles := h.cycles.trans g.cycles, squalls := h.squalls.trans g.squalls,
    unlocks := h.unlocks.trans g.unlocks, bands := fun k => (h.bands k).trans (g.bands k), stage := h.stage.trans g.stage,
    sealIndex := h.sealIndex.trans g.sealIndex, reserved := h.reserved.trans g.reserved }

/-- What every operation keeps. -/
structure Kept (s t : State) : Prop where
  queue   : t.pending = s.pending
  clock   : t.now = s.now
  sent    : s.outbox <+: t.outbox
  free    : s.freeCtr ≤ t.freeCtr
  nvm     : NvmKept s.nvm t.nvm
  credits : s.creditsOk → t.creditsOk
  meter   : s.meterOk → t.meterOk ∧ ∀ k : Fin 512, s.nvm.accs[k] ≤ t.nvm.accs[k]

theorem Kept.rfl' (s : State) : Kept s s :=
  { queue := rfl, clock := rfl, sent := List.prefix_rfl, free := le_refl _, nvm := NvmKept.rfl' _, credits := id,
    meter := fun h => ⟨h, fun _ => le_refl _⟩ }

theorem Kept.trans {s t u : State} (h : Kept s t) (g : Kept t u) : Kept s u :=
  { queue := g.queue.trans h.queue, clock := g.clock.trans h.clock, sent := h.sent.trans g.sent, free := h.free.trans g.free,
    nvm := h.nvm.trans g.nvm, credits := fun x => g.credits (h.credits x),
    meter := fun x => ⟨(g.meter (h.meter x).1).1, fun k => ((h.meter x).2 k).trans ((g.meter (h.meter x).1).2 k)⟩ }

/-- The part of NOR, OTP and the system area that `Kept` speaks of. -/
def Nvm.tracked (n : Nvm) : Memory × Nat × List EvRec × Nat × Nat × Nat × Nat × Nat × Nat × Vector Nat 5 × Fin 4 × Nat × Nat ×
    Vector Nat 512 × Nat × Vector Nat 512 × Nat :=
  (n.nor, n.floor, n.permanent, n.evDropped, n.ackLost, n.starts, n.cycles, n.squalls, n.unlocks, n.bandMs, n.stage, n.sealIndex,
    n.seqReserved, n.accs, n.total, n.ckptAccs, n.ckptTotal)

/-- The rest of the state that `Kept` speaks of. -/
def State.tracked (s : State) : Nat × List Output × Nat × Vector VflS 4 × Nat × Bool × Vector Nat 256 :=
  (s.now, s.outbox, s.freeCtr, s.vfl, s.mtr.pending, s.mtr.pendingOn, s.mtr.staging)

theorem NvmKept.same {a b : Nvm} (e : b.tracked = a.tracked) : NvmKept a b := by
  simp only [Nvm.tracked, Prod.mk.injEq] at e
  obtain ⟨e1, e2, e3, e4, e5, e6, e7, e8, e9, e10, e11, e12, e13, -, -, -, -⟩ := e
  have h := NvmKept.rfl' a
  constructor <;> simp only [e1, e2, e3, e4, e5, e6, e7, e8, e9, e10, e11, e12, e13]
  · exact h.nor
  · exact h.floor
  · exact h.permanent
  · exact h.evDropped
  · exact h.ackLost
  · exact h.starts
  · exact h.cycles
  · exact h.squalls
  · exact h.unlocks
  · exact h.bands
  · exact h.stage
  · exact h.sealIndex
  · exact h.reserved

/-- A change of fields that `Kept` does not speak of. -/
theorem Kept.upd {s x t : State} (h : Kept s x) (q : t.pending = x.pending) (e : t.tracked = x.tracked)
    (n : t.nvm.tracked = x.nvm.tracked) : Kept s t := by
  refine h.trans ?_
  have hn : NvmKept x.nvm t.nvm := NvmKept.same n
  simp only [State.tracked, Nvm.tracked, Prod.mk.injEq] at e n
  obtain ⟨e1, e2, e3, e4, e5, e6, e7⟩ := e
  obtain ⟨-, -, -, -, -, -, -, -, -, -, -, -, -, a1, a2, a3, a4⟩ := n
  exact { queue := q, clock := e1, sent := e2 ▸ List.prefix_rfl, free := e3 ▸ le_refl _, nvm := hn,
          credits := fun g => by simpa only [State.creditsOk, e4] using g,
          meter := fun g => ⟨by simpa only [State.meterOk, e5, e6, e7, a1, a2, a3, a4] using g, fun k => by rw [a1]⟩ }

/-- A change of NOR, OTP or the system area that leaves the meter alone. -/
theorem Kept.updNvm {s x t : State} (h : Kept s x) (q : t.pending = x.pending) (e : t.tracked = x.tracked)
    (n : NvmKept x.nvm t.nvm) (a : (t.nvm.accs, t.nvm.total, t.nvm.ckptAccs, t.nvm.ckptTotal) =
      (x.nvm.accs, x.nvm.total, x.nvm.ckptAccs, x.nvm.ckptTotal)) : Kept s t := by
  refine h.trans ?_
  simp only [State.tracked, Prod.mk.injEq] at e a
  obtain ⟨e1, e2, e3, e4, e5, e6, e7⟩ := e
  obtain ⟨a1, a2, a3, a4⟩ := a
  exact { queue := q, clock := e1, sent := e2 ▸ List.prefix_rfl, free := e3 ▸ le_refl _, nvm := n,
          credits := fun g => by simpa only [State.creditsOk, e4] using g,
          meter := fun g => ⟨by simpa only [State.meterOk, e5, e6, e7, a1, a2, a3, a4] using g, fun k => by rw [a1]⟩ }

/-- A change of fields that `Kept` does not speak of, for a state written field by field. -/
theorem Kept.mk3 {s x : State}
    {aon : AonS} {hdr : Vector PageHdr 128} {regs : KMap Word} {pins : Pins} {dev : DevS} {clk : ClkS} {pwr : PwrS}
    {boot : BootS} {upd : UpdS} {pcie : PcieS} {troutes : Vector TRoute 512} {tnt : Vector Tenant 64} {hqm : HqmS}
    {own : OwnS} {ciph : CiphS} {sign : SignS} {chainU : SealS} {med : MedS} {dram : DramS} {sram : SramS} {bpm :
    BpmS} {squall : SquallS} {evr : EvrS} {mtr : MtrS} {disp : DispS} {qspi : QspiS} {spit : SpitS} {i2ct : I2ctS}
    {i2ci : I2ciS} {gpio : GpioS} {vfr : VfrS} {mir : MirS} {hkp : HkpS} {thr : ThrS} {dbg : DbgS}
    (m1 : mtr.pending = x.mtr.pending) (m2 : mtr.pendingOn = x.mtr.pendingOn) (m3 : mtr.staging = x.mtr.staging) :
    Kept s (State.mk
    x.pending x.now x.freeCtr x.outbox aon x.nvm hdr regs pins dev clk pwr boot upd pcie troutes tnt hqm own ciph
    sign chainU med dram sram bpm squall evr mtr disp qspi spit i2ct i2ci gpio x.vfl vfr mir hkp thr dbg) = Kept s x :=
  propext ⟨fun h => h.upd rfl (by simp only [State.tracked, m1, m2, m3]) rfl,
           fun h => h.upd rfl (by simp only [State.tracked, m1, m2, m3]) rfl⟩

/-- The same, with other fields of NOR, OTP and the system area changed. -/
theorem Kept.mk4 {s x : State} {aon : AonS} {hdr : Vector PageHdr 128} {regs : KMap Word} {pins : Pins} {dev : DevS}
    {clk : ClkS} {pwr : PwrS} {boot : BootS} {upd : UpdS} {pcie : PcieS} {troutes : Vector TRoute 512} {tnt : Vector
    Tenant 64} {hqm : HqmS} {own : OwnS} {ciph : CiphS} {sign : SignS} {chainU : SealS} {med : MedS} {dram : DramS}
    {sram : SramS} {bpm : BpmS} {squall : SquallS} {evr : EvrS} {mtr : MtrS} {disp : DispS} {qspi : QspiS} {spit :
    SpitS} {i2ct : I2ctS} {i2ci : I2ciS} {gpio : GpioS} {vfr : VfrS} {mir : MirS} {hkp : HkpS} {thr : ThrS} {dbg : DbgS}
    {n_boardHash : Option Hash} {n_ownerSlots : List Hash} {n_repairs : List (Nat × Nat × Nat)} {n_ownerKey : Wide}
    {n_updLock : Bool} {n_holdMin : KMap (Nat × Nat)} {n_keysX : KMap (List Byte)} {n_keysG : KMap (List Byte)} {n_zones
    : KMap Zone} {n_conv : KMap ConvBlk} {n_chains : Vector Chain 64} {n_storedHeads : Vector Chain 64} {n_sealRecs :
    KMap (List Byte)} {n_circ : List EvRec} {n_summary : SqSummary} {n_reachedFull : Bool} {n_zresets : List ZReset}
    {n_zresetNext : Nat} {n_profile : List ProfRec} {n_profNext : Nat} {n_openInt : Option MeterSave} {n_utcStored :
    Nat} {n_timeSetEver : Bool} {n_optStored : Nat} {n_optExact : Bool} {n_mons : Vector Nat 8} {n_ageHour : Nat}
    {n_monOver : Vector (Vector Nat 3) 8} {n_fleetKey : Option Wide} {n_cert : Option (List Byte)} {n_readOnly : Bool}
    {n_sbs : KMap Superblock} {n_wear : KMap Nat} {n_bad : KMap Byte} {n_rebuilt : KMap Nat} {n_trims : List TrimRec}
    {n_sbNext : Nat} {n_failedDies : List Nat} {n_groups : Vector (Fin 4) 16} {n_widths : Vector Nat 16} {n_writeSeq :
    Nat} {n_stage_ : Option StageS} {n_partnerLog : List EvRec} {n_partnerAccs : Vector Nat 512} {n_partnerTotal : Nat}
    {n_partnerOwner : List Hash × Bool} (m1 : mtr.pending = x.mtr.pending) (m2 : mtr.pendingOn = x.mtr.pendingOn) (m3 :
    mtr.staging = x.mtr.staging) : Kept s (State.mk x.pending x.now x.freeCtr x.outbox aon (Nvm.mk x.nvm.nor n_boardHash
    x.nvm.floor n_ownerSlots n_repairs n_ownerKey n_updLock n_holdMin n_keysX n_keysG n_zones n_conv n_chains
    n_storedHeads n_sealRecs x.nvm.sealIndex x.nvm.permanent n_circ x.nvm.seqReserved x.nvm.evDropped x.nvm.ackLost
    x.nvm.squalls n_summary n_reachedFull n_zresets n_zresetNext x.nvm.accs x.nvm.total x.nvm.ckptAccs x.nvm.ckptTotal
    n_profile n_profNext n_openInt n_utcStored n_timeSetEver n_optStored n_optExact x.nvm.cycles x.nvm.starts
    x.nvm.bandMs x.nvm.stage n_mons n_ageHour n_monOver x.nvm.unlocks n_fleetKey n_cert n_readOnly n_sbs n_wear n_bad
    n_rebuilt n_trims n_sbNext n_failedDies n_groups n_widths n_writeSeq n_stage_ n_partnerLog n_partnerAccs
    n_partnerTotal n_partnerOwner) hdr regs pins dev clk pwr boot upd pcie troutes tnt hqm own ciph sign chainU med dram
    sram bpm squall evr mtr disp qspi spit i2ct i2ci gpio x.vfl vfr mir hkp thr dbg) = Kept s x := propext ⟨fun h =>
    h.upd rfl (by simp only [State.tracked, m1, m2, m3]) rfl, fun h => h.upd rfl (by simp only [State.tracked, m1, m2,
    m3]) rfl⟩

/-- A change of NOR, OTP or the system area alone. -/
theorem Kept.nvmSet {s x : State} {n : Nvm} (h : Kept s x) (k : NvmKept x.nvm n)
    (a : (n.accs, n.total, n.ckptAccs, n.ckptTotal) = (x.nvm.accs, x.nvm.total, x.nvm.ckptAccs, x.nvm.ckptTotal)) :
    Kept s { x with nvm := n } := h.updNvm rfl rfl k a

/-- A change of the links alone. -/
theorem Kept.vflSet {s x : State} {l : Vector VflS 4} (h : Kept s x)
    (k : x.creditsOk → ({ x with vfl := l } : State).creditsOk) : Kept s { x with vfl := l } :=
  h.trans { queue := rfl, clock := rfl, sent := List.prefix_rfl, free := le_refl _, nvm := NvmKept.rfl' _, credits := k,
            meter := fun g => ⟨g, fun _ => le_refl _⟩ }

/-- A fold of an operation. -/
theorem Kept.foldl {α : Type} {s x : State} {f : State → α → State} {l : List α} (g : ∀ a b, Kept s a → Kept s (f a b))
    (h : Kept s x) : Kept s (l.foldl f x) := by
  induction l generalizing x with
  | nil => exact h
  | cons b r ih => exact ih (g x b h)

/-- A state that may be absent keeps. -/
structure K1 (s : State) (o : Option State) : Prop where
  out : ∀ t, o = some t → Kept s t
/-- As `K1`, with a result beside the state. -/
structure K2 {α : Type} (s : State) (o : Option (α × State)) : Prop where
  out : ∀ a t, o = some (a, t) → Kept s t
/-- As `K2`, the state first. -/
structure K3 {α : Type} (s : State) (o : Option (State × α)) : Prop where
  out : ∀ a t, o = some (t, a) → Kept s t
/-- A state with a result beside it keeps. -/
structure K4 {α : Type} (s : State) (p : State × α) : Prop where
  fst : Kept s p.1
/-- A state or a code keeps. -/
structure K5 {α ε : Type} (s : State) (o : Except ε (α × State)) : Prop where
  out : ∀ a t, o = .ok (a, t) → Kept s t

theorem K1.none {s : State} : K1 s none := ⟨fun _ h => by cases h⟩
theorem K1.some {s t : State} (h : Kept s t) : K1 s (some t) := ⟨fun _ e => by cases e; exact h⟩
theorem K1.elim {s t : State} {o : Option State} (h : K1 s o) (e : o = Option.some t) : Kept s t := h.out _ e
theorem K1.getD {s x : State} {o : Option State} (h : K1 s o) (g : Kept s x) : Kept s (o.getD x) := by
  cases o with
  | none => exact g
  | some t => exact h.out _ rfl
theorem K1.findSome {α : Type} {s : State} {l : List α} {f : α → Option State} (h : ∀ a, K1 s (f a)) :
    K1 s (l.findSome? f) := ⟨fun _ e => by
  obtain ⟨_, a, _, _, h2, _⟩ := List.findSome?_eq_some_iff.mp e
  exact (h a).out _ h2⟩
theorem K2.findSome {α β : Type} {s : State} {l : List α} {f : α → Option (β × State)} (h : ∀ a, K2 s (f a)) :
    K2 s (l.findSome? f) := ⟨fun _ _ e => by
  obtain ⟨_, a, _, _, h2, _⟩ := List.findSome?_eq_some_iff.mp e
  exact (h a).out _ _ h2⟩
theorem K2.none {α : Type} {s : State} : K2 (α := α) s none := ⟨fun _ _ h => by cases h⟩
theorem K2.some {α : Type} {s t : State} {a : α} (h : Kept s t) : K2 s (some (a, t)) := ⟨fun _ _ e => by cases e; exact h⟩
theorem K2.elim {α : Type} {s t : State} {a : α} {o : Option (α × State)} (h : K2 s o) (e : o = Option.some (a, t)) :
    Kept s t := h.out _ _ e
theorem K3.none {α : Type} {s : State} : K3 (α := α) s none := ⟨fun _ _ h => by cases h⟩
theorem K3.some {α : Type} {s t : State} {a : α} (h : Kept s t) : K3 s (some (t, a)) := ⟨fun _ _ e => by cases e; exact h⟩
theorem K3.elim {α : Type} {s t : State} {a : α} {o : Option (State × α)} (h : K3 s o) (e : o = Option.some (t, a)) :
    Kept s t := h.out _ _ e
theorem K4.elim {α : Type} {s t : State} {a : α} {p : State × α} (h : K4 s p) (e : p = (t, a)) : Kept s t := by
  subst e; exact h.fst
theorem K5.error {α ε : Type} {s : State} {c : ε} : K5 (α := α) s (.error c) := ⟨fun _ _ h => by cases h⟩
theorem K5.ok {α ε : Type} {s t : State} {a : α} (h : Kept s t) : K5 (ε := ε) s (.ok (a, t)) := ⟨fun _ _ e => by cases e; exact h⟩
theorem K5.elim {α ε : Type} {s t : State} {a : α} {o : Except ε (α × State)} (h : K5 s o) (e : o = .ok (a, t)) :
    Kept s t := h.out _ _ e

theorem K4.foldl {α β : Type} {s : State} {f : State × β → α → State × β} {l : List α} {x : State × β}
    (g : ∀ a b, K4 s a → K4 s (f a b)) (h : K4 s x) : K4 s (l.foldl f x) := by
  induction l generalizing x with
  | nil => exact h
  | cons b r ih => exact ih (g x b h)
theorem K1.foldl {α : Type} {s : State} {f : Option State → α → Option State} {l : List α} {x : Option State}
    (g : ∀ a b, K1 s a → K1 s (f a b)) (h : K1 s x) : K1 s (l.foldl f x) := by
  induction l generalizing x with
  | nil => exact h
  | cons b r ih => exact ih (g x b h)
theorem K1.map {s : State} {f : State → State} {o : Option State} (g : ∀ t, Kept s t → Kept s (f t)) (h : K1 s o) :
    K1 s (o.map f) := ⟨fun t e => by
  cases o with
  | none => cases e
  | some y => cases e; exact g y (h.out y rfl)⟩

/-- An outcome keeps what a next state keeps. -/
def OutKept (s : State) : Host.Outcome State Fault Refusal → Prop
  | .next t => Kept s t
  | _ => True

theorem OutKept.next {s t : State} (h : Kept s t) : OutKept s (.next t) := h
theorem OutKept.fault {s : State} (f : Fault) : OutKept s (.fault f) := True.intro
theorem OutKept.refused {s : State} (r : Refusal) : OutKept s (.refused r) := True.intro

theorem OutKept.kept {s t : State} {o : Host.Outcome State Fault Refusal} (h : OutKept s o) (e : o = .next t) : Kept s t := by
  subst e; exact h

end Sys2Proof.Machine
end

