-- ==== Sys2Proof/Laws/KeptOps.lean ====
section
/-!
SUPPORT. What the operations of Machine/Ops.lean keep.
-/
set_option linter.unusedTactic false
set_option linter.unreachableTactic false
set_option linter.unusedVariables false
set_option linter.unusedSimpArgs false

namespace Sys2Proof.Machine

theorem kept_drawn {s0 : State} (s : State) (hk : Kept s0 s) : Kept s0 s.drawn :=
  hk.trans { queue := rfl, clock := rfl, sent := List.prefix_rfl, free := Nat.le_succ _, nvm := NvmKept.rfl' _, credits := id,
             meter := fun h => ⟨h, fun _ => le_refl _⟩ }

theorem kept_emit {s0 : State} (s : State) (o : Output) (hk : Kept s0 s) : Kept s0 (s.emit o) :=
  hk.trans { queue := rfl, clock := rfl, sent := List.prefix_append _ _, free := le_refl _, nvm := NvmKept.rfl' _, credits := id,
             meter := fun h => ⟨h, fun _ => le_refl _⟩ }

theorem kept_endLull {s0 : State} (s : State) (hks : Kept s0 s) : Kept s0 (State.endLull s) := by
  unfold State.endLull
  try dsimp only
  repeat' (first | with_reducible assumption | simp only [Kept.mk3, Kept.mk4] | (intro _) | split)

theorem kept_updHdr {s0 : State} (s : State) (p : Page) (f : PageHdr → PageHdr) (hks : Kept s0 s) : Kept s0 (State.updHdr s p
      f) := by
  unfold State.updHdr
  try dsimp only
  repeat' (first | with_reducible assumption | simp only [Kept.mk3, Kept.mk4] | (intro _) | split)

theorem kept_updTnt {s0 : State} (s : State) (t : Tid) (f : Tenant → Tenant) (hks : Kept s0 s) : Kept s0 (State.updTnt s t f)
      := by
  unfold State.updTnt
  try dsimp only
  repeat' (first | with_reducible assumption | simp only [Kept.mk3, Kept.mk4] | (intro _) | split)

theorem kept_updFn {s0 : State} (s : State) (n : Fn) (f : FnS → FnS) (hks : Kept s0 s) : Kept s0 (State.updFn s n f) := by
  unfold State.updFn
  try dsimp only
  repeat' (first | with_reducible assumption | simp only [Kept.mk3, Kept.mk4] | (intro _) | split)

theorem kept_setReg {s0 : State} (s : State) (p : Page) (off : Nat) (v : Word) (hks : Kept s0 s) : Kept s0 (State.setReg s p
      off v) := by
  unfold State.setReg
  try dsimp only
  repeat' (first | with_reducible assumption | simp only [Kept.mk3, Kept.mk4] | (intro _) | split)

theorem kept_request {s0 : State} (s : State) (fn : Fn) (vec : Nat) (hks : Kept s0 s) : Kept s0 (State.request s fn vec) := by
  unfold State.request
  try dsimp only
  repeat' (first | with_reducible assumption | with_reducible apply kept_emit | with_reducible apply kept_updFn | simp only [Kept.mk3, Kept.mk4] | (intro _) | split)

theorem kept_requestBlock {s0 : State} (s : State) (n : Nat) (hks : Kept s0 s) : Kept s0 (State.requestBlock s n) := by
  unfold State.requestBlock
  try dsimp only
  repeat' (first | with_reducible assumption | with_reducible apply kept_request | simp only [Kept.mk3, Kept.mk4] | (intro _) | split)

theorem kept_noticeBlock {s0 : State} (s : State) (n : Nat) (hks : Kept s0 s) : Kept s0 (State.noticeBlock s n) := by
  unfold State.noticeBlock
  try dsimp only
  repeat' (first | with_reducible assumption | with_reducible apply kept_updTnt | simp only [Kept.mk3, Kept.mk4] | (intro _) | split)

theorem kept_requestTenant {s0 : State} (s : State) (t : Tid) (q : Qid) (hks : Kept s0 s) : Kept s0 (State.requestTenant s t
      q) := by
  unfold State.requestTenant
  try dsimp only
  repeat' (first | with_reducible assumption | with_reducible apply kept_request | simp only [Kept.mk3, Kept.mk4] | (intro _) | split)

theorem kept_updInta {s0 : State} (s : State) (hks : Kept s0 s) : Kept s0 (State.updInta s) := by
  unfold State.updInta
  try dsimp only
  repeat' (first | with_reducible assumption | with_reducible apply kept_emit | simp only [Kept.mk3, Kept.mk4] | (intro _) | split)

theorem kept_raise {s0 : State} (s : State) (p : Page) (b : Nat) (hks : Kept s0 s) : Kept s0 (State.raise s p b) := by
  unfold State.raise
  try dsimp only
  repeat' (first | with_reducible assumption | with_reducible apply kept_updHdr | with_reducible apply kept_requestBlock | with_reducible apply kept_noticeBlock | with_reducible apply kept_requestTenant | simp only [Kept.mk3, Kept.mk4] | (intro _) | split)

theorem kept_raiseTnt {s0 : State} (s : State) (t : Tid) (b : Nat) (hks : Kept s0 s) : Kept s0 (State.raiseTnt s t b) := by
  unfold State.raiseTnt
  try dsimp only
  repeat' (first | with_reducible assumption | with_reducible apply kept_raise | simp only [Kept.mk3, Kept.mk4] | (intro _) | split)

theorem kept_raiseTenants {s0 : State} (s : State) (p : State → Tid → Bool) (b : Nat) (hks : Kept s0 s) : Kept s0
      (State.raiseTenants s p b) := by
  unfold State.raiseTenants
  try dsimp only
  repeat' (first | with_reducible assumption | with_reducible apply kept_raiseTnt | with_reducible apply Kept.foldl | simp only [Kept.mk3, Kept.mk4] | (intro _) | split)

theorem kept_countErr {s0 : State} (s : State) (p : Page) (cause : Byte) (addr : Word) (hks : Kept s0 s) : Kept s0
      (State.countErr s p cause addr) := by
  unfold State.countErr
  try dsimp only
  repeat' (first | with_reducible assumption | with_reducible apply kept_updHdr | with_reducible apply kept_raise | simp only [Kept.mk3, Kept.mk4] | (intro _) | split)

theorem kept_aerUncorrectable {s0 : State} (s : State) (fn : Fn) (bit : Nat) (hks : Kept s0 s) : Kept s0
      (State.aerUncorrectable s fn bit) := by
  unfold State.aerUncorrectable
  try dsimp only
  repeat' (first | with_reducible assumption | with_reducible apply kept_updFn | with_reducible apply kept_raise | simp only [Kept.mk3, Kept.mk4] | (intro _) | split)

theorem kept_aerCorrectable {s0 : State} (s : State) (fn : Fn) (bit : Nat) (hks : Kept s0 s) : Kept s0 (State.aerCorrectable s
      fn bit) := by
  unfold State.aerCorrectable
  try dsimp only
  repeat' (first | with_reducible assumption | with_reducible apply kept_updFn | with_reducible apply kept_raise | simp only [Kept.mk3, Kept.mk4] | (intro _) | split)

theorem kept_aerAdvisory {s0 : State} (s : State) (fn : Fn) (bit : Nat) (hks : Kept s0 s) : Kept s0 (State.aerAdvisory s fn
      bit) := by
  unfold State.aerAdvisory
  try dsimp only
  repeat' (first | with_reducible assumption | with_reducible apply kept_updFn | with_reducible apply kept_raise | with_reducible apply kept_aerUncorrectable | simp only [Kept.mk3, Kept.mk4] | (intro _) | split)

theorem kept_poisonReceived {s0 : State} (s : State) (fn : Fn) (hks : Kept s0 s) : Kept s0 (State.poisonReceived s fn) := by
  unfold State.poisonReceived
  try dsimp only
  repeat' (first | with_reducible assumption | with_reducible apply kept_raise | with_reducible apply kept_aerAdvisory | simp only [Kept.mk3, Kept.mk4] | (intro _) | split)

theorem kept_reserveSeq {s0 : State} (s : State) (hks : Kept s0 s) : Kept s0 (State.reserveSeq s) := by
  unfold State.reserveSeq
  split
  · rename_i h
    simp only [Bool.and_eq_true, decide_eq_true_eq] at h
    refine hks.nvmSet { NvmKept.rfl' s.nvm with reserved := ?_ } rfl
    show s.nvm.seqReserved ≤ s.aon.nextSeq + 1024
    omega
  · exact hks

theorem kept_countDropped {s0 : State} (s : State) (hks : Kept s0 s) : Kept s0 (State.countDropped s) := by
  unfold State.countDropped
  apply kept_raise
  refine hks.nvmSet { NvmKept.rfl' s.nvm with evDropped := fun h => ?_ } rfl
  constructor
  · show s.nvm.evDropped ≤ min (s.nvm.evDropped + 1) _
    omega
  · exact Nat.min_le_right _ _

theorem kept_bufferRec {s0 : State} (s : State) (r : EvRec) (hks : Kept s0 s) : Kept s0 (State.bufferRec s r) := by
  unfold State.bufferRec
  try dsimp only
  repeat' (first | with_reducible assumption | with_reducible apply kept_reserveSeq | with_reducible apply kept_countDropped | simp only [Kept.mk3, Kept.mk4] | (intro _) | split)

theorem kept_critical {s0 : State} (s : State) (code : Nat) (hks : Kept s0 s) : Kept s0 (State.critical s code) := by
  unfold State.critical
  try dsimp only
  repeat' (first | with_reducible assumption | with_reducible apply kept_raise | simp only [Kept.mk3, Kept.mk4] | (intro _) | split)

theorem kept_recordAs {s0 : State} (s : State) (rom : Bool) (code : Nat) (sev : Fin 4) (tenant : Byte) (detail : List Byte)
      (hks : Kept s0 s) : Kept s0 (State.recordAs s rom code sev tenant detail) := by
  unfold State.recordAs
  try dsimp only
  repeat' (first | with_reducible assumption | with_reducible apply kept_bufferRec | with_reducible apply kept_critical | simp only [Kept.mk3, Kept.mk4] | (intro _) | split)

theorem kept_record {s0 : State} (s : State) (code : Nat) (sev : Fin 4) (tenant : Byte) (detail : List Byte) (hks : Kept s0 s)
      : Kept s0 (State.record s code sev tenant detail) := by
  unfold State.record
  try dsimp only
  repeat' (first | with_reducible assumption | with_reducible apply kept_recordAs | simp only [Kept.mk3, Kept.mk4] | (intro _) | split)

theorem kept_raiseRec {s0 : State} (s : State) (p : Page) (b : Nat) (sev : Fin 4) (tenant : Byte) (detail : List Byte) (hks :
      Kept s0 s) : Kept s0 (State.raiseRec s p b sev tenant detail) := by
  unfold State.raiseRec
  try dsimp only
  repeat' (first | with_reducible assumption | with_reducible apply kept_raise | with_reducible apply kept_record | simp only [Kept.mk3, Kept.mk4] | (intro _) | split)

theorem kept_raiseRecStatus {s0 : State} (s : State) (p : Page) (b : Nat) (sev : Fin 4) (tenant : Byte) (hks : Kept s0 s) :
      Kept s0 (State.raiseRecStatus s p b sev tenant) := by
  unfold State.raiseRecStatus
  try dsimp only
  repeat' (first | with_reducible assumption | with_reducible apply kept_raise | with_reducible apply kept_record | simp only [Kept.mk3, Kept.mk4] | (intro _) | split)

theorem kept_updCmd {s0 : State} (s : State) (tag : Tag) (f : Cmd → Cmd) (hks : Kept s0 s) : Kept s0 (State.updCmd s tag f) :=
      by
  unfold State.updCmd
  try dsimp only
  repeat' (first | with_reducible assumption | simp only [Kept.mk3, Kept.mk4] | (intro _) | split)

end Sys2Proof.Machine
end

