-- ==== Sys2Proof/Laws/KeptBudget.lean ====
section
/-!
SUPPORT. What the operations of Machine/Budget.lean keep.
-/
set_option linter.unusedTactic false
set_option linter.unreachableTactic false
set_option linter.unusedVariables false
set_option linter.unusedSimpArgs false

namespace Sys2Proof.Machine

theorem kept_setEb {s0 : State} (s : State) (n : Nat) (hks : Kept s0 s) : Kept s0 (State.setEb s n) := by
  unfold State.setEb
  try dsimp only
  repeat' (first | with_reducible assumption | with_reducible apply kept_raise | with_reducible apply kept_raiseTenants | simp only [Kept.mk3, Kept.mk4] | (intro _) | split)

theorem kept_vcapReading {s0 : State} (s : State) (mV : Nat) (hks : Kept s0 s) : Kept s0 (State.vcapReading s mV) := by
  unfold State.vcapReading
  try dsimp only
  repeat' (first | with_reducible assumption | with_reducible apply kept_setEb | simp only [Kept.mk3, Kept.mk4] | (intro _) | split)

theorem kept_probeShrink {s0 : State} (s : State) (hks : Kept s0 s) : Kept s0 (State.probeShrink s) := by
  unfold State.probeShrink
  try dsimp only
  repeat' (first | with_reducible assumption | with_reducible apply kept_setEb | simp only [Kept.mk3, Kept.mk4] | (intro _) | split)

theorem kept_holdupSkipped {s0 : State} (s : State) (hks : Kept s0 s) : Kept s0 (State.holdupSkipped s) := by
  unfold State.holdupSkipped
  try dsimp only
  repeat' (first | with_reducible assumption | with_reducible apply kept_setEb | simp only [Kept.mk3, Kept.mk4] | (intro _) | split)

theorem kept_pmicShrink {s0 : State} (s : State) (hks : Kept s0 s) : Kept s0 (State.pmicShrink s) := by
  unfold State.pmicShrink
  try dsimp only
  repeat' (first | with_reducible assumption | with_reducible apply kept_drawn | with_reducible apply kept_setEb | simp only [Kept.mk3, Kept.mk4] | (intro _) | split)

end Sys2Proof.Machine
end

