-- ==== Sys2Proof/Laws/KeptReset.lean ====
section
/-!
SUPPORT. What the operations of Machine/Reset.lean keep.
-/
set_option linter.unusedTactic false
set_option linter.unreachableTactic false
set_option linter.unusedVariables false
set_option linter.unusedSimpArgs false

namespace Sys2Proof.Machine

theorem kept_addCause {s0 : State} (s : State) (c : RstCause) (hks : Kept s0 s) : Kept s0 (State.addCause s c) := by
  unfold State.addCause
  try dsimp only
  repeat' (first | with_reducible assumption | simp only [Kept.mk3, Kept.mk4] | (intro _) | split)

theorem nvmKept_dropPartial (n : Nvm) (i : Import) : NvmKept n (n.dropPartial i) := NvmKept.same rfl

theorem nvmKept_dropAll (l : List Import) (n : Nvm) : NvmKept n (l.foldl Nvm.dropPartial n) := by
  induction l generalizing n with
  | nil => exact NvmKept.rfl' _
  | cons i r ih => exact (nvmKept_dropPartial n i).trans (ih _)

theorem accs_dropAll (l : List Import) (n : Nvm) : (l.foldl Nvm.dropPartial n).ckptAccs = n.ckptAccs ∧
    (l.foldl Nvm.dropPartial n).ckptTotal = n.ckptTotal := by
  induction l generalizing n with
  | nil => exact ⟨rfl, rfl⟩
  | cons i r ih => exact ih (n.dropPartial i)

/-- A reset of everything but what NOR, OTP and the media hold. -/
theorem kept_reset {s t : State} (q : t.pending = s.pending) (c : t.now = s.now) (o : t.outbox = s.outbox)
    (f : t.freeCtr = s.freeCtr) (n : t.nvm = s.keptNvm) (v : t.vfl = Vector.replicate 4 VflS.reset)
    (m : t.mtr = MtrS.reset) : Kept s t :=
  { queue := q, clock := c, sent := o ▸ List.prefix_rfl, free := f ▸ le_refl _,
    nvm := n ▸ (nvmKept_dropAll s.vfr.imports s.nvm).trans { NvmKept.rfl' _ with nor := id },
    credits := fun _ k w => by
      simp only [v, Fin.getElem_fin, Vector.getElem_replicate, VflS.reset],
    meter := fun g => by
      obtain ⟨_, g2, g3, _⟩ := g
      have ha : t.nvm.accs = s.nvm.ckptAccs := by rw [n]; rfl
      have ht : t.nvm.total = s.nvm.ckptTotal := by rw [n]; rfl
      have hc : t.nvm.ckptAccs = s.nvm.ckptAccs := by rw [n]; exact (accs_dropAll _ _).1
      have hd : t.nvm.ckptTotal = s.nvm.ckptTotal := by rw [n]; exact (accs_dropAll _ _).2
      refine ⟨⟨?_, ?_, ?_, ?_⟩, fun k => ?_⟩
      · rw [ha, ht, m, g2, g3]; rfl
      · rw [ha, hc]
      · rw [ha, hd, g2, g3]
      · rw [m]; rfl
      · rw [ha, g2] }

theorem kept_chipReset {s0 : State} (s : State) (hks : Kept s0 s) : Kept s0 s.chipReset :=
  hks.trans (kept_reset rfl rfl rfl rfl rfl rfl rfl)

theorem kept_release {s0 : State} (s : State) (hks : Kept s0 s) : Kept s0 (State.release s) := by
  refine hks.updNvm rfl rfl { NvmKept.rfl' s.nvm with starts := Nat.le_succ _ } rfl

theorem kept_restart {s0 : State} (s : State) (hks : Kept s0 s) : Kept s0 (State.restart s) := by
  unfold State.restart
  try dsimp only
  repeat' (first | with_reducible assumption | with_reducible apply kept_chipReset | with_reducible apply kept_release | simp only [Kept.mk3, Kept.mk4] | (intro _) | split)

theorem kept_internalReset {s0 : State} (s : State) (c : RstCause) (hks : Kept s0 s) : Kept s0 (State.internalReset s c) := by
  unfold State.internalReset
  try dsimp only
  repeat' (first | with_reducible assumption | with_reducible apply kept_addCause | with_reducible apply kept_restart | simp only [Kept.mk3, Kept.mk4] | (intro _) | split)

theorem kept_setLevel {s0 : State} (s : State) (l : Level) (hks : Kept s0 s) : Kept s0 (State.setLevel s l) := by
  unfold State.setLevel
  try dsimp only
  repeat' (first | with_reducible assumption | with_reducible apply kept_raise | with_reducible apply kept_raiseTenants | simp only [Kept.mk3, Kept.mk4] | (intro _) | split)

theorem kept_supplySeen {s0 : State} (s : State) (cause : Byte) (hks : Kept s0 s) : Kept s0 (State.supplySeen s cause) := by
  unfold State.supplySeen
  try dsimp only
  repeat' (first | with_reducible assumption | simp only [Kept.mk3, Kept.mk4] | (intro _) | split)

theorem kept_collect {s0 : State} (s : State) (cause : Byte) (hks : Kept s0 s) : Kept s0 (State.collect s cause) := by
  unfold State.collect
  try dsimp only
  repeat' (first | with_reducible assumption | with_reducible apply kept_addCause | simp only [Kept.mk3, Kept.mk4] | (intro _) | split)

theorem kept_squallStart {s0 : State} (s : State) (cause : Byte) (hks : Kept s0 s) : Kept s0 (State.squallStart s cause) := by
  unfold State.squallStart
  dsimp only
  refine Kept.updNvm (kept_record s 0x1B40 1 noTenant _ hks) rfl rfl ?_ rfl
  exact { NvmKept.rfl' _ with squalls := Nat.le_succ _ }

theorem kept_squallTrigger {s0 : State} (s : State) (cause : Byte) (hks : Kept s0 s) : Kept s0 (State.squallTrigger s cause)
      := by
  unfold State.squallTrigger
  try dsimp only
  repeat' (first | with_reducible assumption | with_reducible apply kept_supplySeen | with_reducible apply kept_collect | with_reducible apply kept_squallStart | simp only [Kept.mk3, Kept.mk4] | (intro _) | split)

end Sys2Proof.Machine
end

