-- ==== Sys2Proof/Laws/KeptFabric.lean ====
section
/-!
SUPPORT. What the operations of Machine/Fabric.lean keep.
-/
set_option linter.unusedTactic false
set_option linter.unreachableTactic false
set_option linter.unusedVariables false
set_option linter.unusedSimpArgs false

namespace Sys2Proof.Machine

/-- A link's credits and outstanding slots balance. -/
def VflS.ok (l : VflS) : Prop := ∀ v : Fin 3, l.credits[v] + l.outst[v] = 32

theorem kept_updVfl {s0 : State} (s : State) (p : Fin 4) (f : VflS → VflS) (hks : Kept s0 s)
    (hf : (s.vfl[p]).ok → (f s.vfl[p]).ok) : Kept s0 (State.updVfl s p f) := by
  refine hks.vflSet (fun h n v => ?_)
  simp only [Fin.getElem_fin, Vector.getElem_set]
  split
  · exact hf (h p) v
  · exact h n v

theorem kept_advDue {s0 : State} (s : State) (hks : Kept s0 s) : Kept s0 (State.advDue s) := by
  unfold State.advDue
  try dsimp only
  repeat' (first | with_reducible assumption | simp only [Kept.mk3, Kept.mk4] | (intro _) | split)

theorem kept_startPorts {s0 : State} (s : State) (hks : Kept s0 s) : Kept s0 (State.startPorts s) := by
  unfold State.startPorts
  dsimp only
  have e : ∀ b : Bool, Kept s0 (if b = true then s.advDue else s) ∧ (if b = true then s.advDue else s).vfl = s.vfl := by
    intro b; split
    · exact ⟨kept_advDue _ hks, rfl⟩
    · exact ⟨hks, rfl⟩
  refine (e _).1.vflSet (fun h n v => ?_)
  have h2 := h n v
  rw [(e _).2] at h2
  simp only [Fin.getElem_fin, Vector.getElem_ofFn, Fin.eta]
  repeat' (first | exact h2 | split)

theorem VflS.headOf_fits (l : VflS) (v : Fin 3) (p : OutPkt) (h : l.headOf v = some p) :
    p.vc = v ∧ slotsOf p.payload.length ≤ l.credits[v] := by
  unfold VflS.headOf at h
  split at h
  · split at h
    · cases h
      rename_i hf hc
      have := List.find?_some hf
      simp only [decide_eq_true_eq, Bool.and_eq_true] at this hc
      exact ⟨this, hc.2⟩
    · cases h
  · cases h

theorem VflS.pick_fits (l : VflS) (p : OutPkt) (r : Nat) (h : l.pick = some (p, r)) :
    slotsOf p.payload.length ≤ l.credits[p.vc] := by
  have key : ∀ v, l.headOf v = some p → slotsOf p.payload.length ≤ l.credits[p.vc] := fun v hv => by
    obtain ⟨e, g⟩ := l.headOf_fits v p hv
    subst e; exact g
  unfold VflS.pick at h
  repeat' split at h
  all_goals first
    | (cases h; exact key 0 ‹_›)
    | (cases h; exact key 1 ‹_›)
    | (cases h; exact key 2 ‹_›)
    | cases h

theorem kept_sendOne {s0 : State} (s : State) (port : Fin 4) (hks : Kept s0 s) : K1 s0 (State.sendOne s port) := by
  unfold State.sendOne
  split
  · exact K1.none
  · rename_i p run hp
    have hfit := VflS.pick_fits _ p run hp
    refine K1.some (kept_emit _ _ (kept_updVfl _ _ _ hks (fun h v => ?_)))
    have hv := h v
    have hc := h p.vc
    simp only [Fin.getElem_fin, Vector.getElem_set] at hv hc hfit ⊢
    split
    · rename_i e
      have e' : p.vc = v := Fin.ext e
      subst e'
      omega
    · exact hv

theorem kept_drainPort {s0 : State} (s : State) (port : Fin 4) (n : Nat) (hks : Kept s0 s) : Kept s0 (State.drainPort s port
      n) := by
  induction n generalizing s with
  | zero => exact hks
  | succ k ih =>
    unfold State.drainPort
    split
    · rename_i s1 e
      exact ih s1 ((kept_sendOne s port hks).elim e)
    · exact hks

theorem kept_sendOn {s0 : State} (s : State) (port : Fin 4) (p : OutPkt) (hks : Kept s0 s) : Kept s0 (State.sendOn s port p)
      := by
  unfold State.sendOn
  try dsimp only
  repeat' (first | with_reducible assumption | with_reducible apply kept_updVfl | with_reducible apply kept_drainPort | exact fun h => h | simp only [Kept.mk3, Kept.mk4] | (intro _) | split)

theorem kept_sendPkt {s0 : State} (s : State) (p : OutPkt) (hks : Kept s0 s) : Kept s0 (State.sendPkt s p) := by
  unfold State.sendPkt
  try dsimp only
  repeat' (first | with_reducible assumption | with_reducible apply kept_sendOn | simp only [Kept.mk3, Kept.mk4] | (intro _) | split)

theorem kept_sendLong {s0 : State} (s : State) (p : OutPkt) (hks : Kept s0 s) : Kept s0 (State.sendLong s p) := by
  unfold State.sendLong
  try dsimp only
  repeat' (first | with_reducible assumption | with_reducible apply kept_sendPkt | with_reducible apply Kept.foldl | simp only [Kept.mk3, Kept.mk4] | (intro _) | split)

theorem kept_linkLeave {s0 : State} (s : State) (port : Fin 4) (dst : LinkSt) (hks : Kept s0 s) : Kept s0 (State.linkLeave s
      port dst) := by
  unfold State.linkLeave
  have h1 : Kept s0 (s.updVfl port (fun l => { l with
      st := dst, failAt := s.now, nbr := 0xFFFF#16, peer := 0, peerCert := [], ownEph := 0, peerEph := 0, key := 0, saltOut := 0,
      saltIn := 0, credits := Vector.replicate 3 32, outst := Vector.replicate 3 0, seqOut := Vector.replicate 3 0,
      seqIn := Vector.replicate 3 0, rekeying := false, fails := [], txq := l.txq.filter (fun p => p.fwd) })) :=
    kept_updVfl _ _ _ hks (fun _ v => by simp)
  dsimp only
  split
  · apply kept_raise
    apply kept_raise
    simp only [Kept.mk3]
    exact h1
  · simp only [Kept.mk3]
    exact h1

theorem kept_linksDown {s0 : State} (s : State) (dst : LinkSt) (hks : Kept s0 s) : Kept s0 (State.linksDown s dst) := by
  unfold State.linksDown
  try dsimp only
  repeat' (first | with_reducible assumption | with_reducible apply kept_linkLeave | with_reducible apply Kept.foldl | simp only [Kept.mk3, Kept.mk4] | (intro _) | split)

theorem kept_mirLeave {s0 : State} (s : State) (st : MirSt) (reason : BitVec 3) (hks : Kept s0 s) : Kept s0 (State.mirLeave s
      st reason) := by
  unfold State.mirLeave
  try dsimp only
  repeat' (first | with_reducible assumption | with_reducible apply kept_raise | simp only [Kept.mk3, Kept.mk4] | (intro _) | split)

theorem kept_mirSend {s0 : State} (s : State) (type : Byte) (vc : Fin 3) (t : Tid) (payload : List Byte) (hks : Kept s0 s) :
      Kept s0 (State.mirSend s type vc t payload) := by
  unfold State.mirSend
  try dsimp only
  repeat' (first | with_reducible assumption | with_reducible apply kept_sendLong | simp only [Kept.mk3, Kept.mk4] | (intro _) | split)

theorem kept_mirStateItem {s0 : State} (s : State) (t : Tid) (item : Byte) (payload : List Byte) (hks : Kept s0 s) : Kept s0
      (State.mirStateItem s t item payload) := by
  unfold State.mirStateItem
  try dsimp only
  repeat' (first | with_reducible assumption | with_reducible apply kept_mirSend | simp only [Kept.mk3, Kept.mk4] | (intro _) | split)

theorem kept_mirDeviceItem {s0 : State} (s : State) (item : Byte) (payload : List Byte) (hks : Kept s0 s) : Kept s0
      (State.mirDeviceItem s item payload) := by
  unfold State.mirDeviceItem
  try dsimp only
  repeat' (first | with_reducible assumption | with_reducible apply kept_mirSend | simp only [Kept.mk3, Kept.mk4] | (intro _) | split)

end Sys2Proof.Machine
end

