-- ==== Sys2Proof/Laws/KeptZone.lean ====
section
/-!
SUPPORT. What the operations of Machine/Zone.lean keep.
-/
set_option linter.unusedTactic false
set_option linter.unreachableTactic false
set_option linter.unusedVariables false
set_option linter.unusedSimpArgs false

namespace Sys2Proof.Machine

theorem kept_updZone {s0 : State} (s : State) (z : Nat) (f : Zone → Zone) (hks : Kept s0 s) : Kept s0 (State.updZone s z f) :=
      by
  unfold State.updZone
  try dsimp only
  repeat' (first | with_reducible assumption | simp only [Kept.mk3, Kept.mk4] | (intro _) | split)

theorem kept_putZone {s0 : State} (s : State) (z : Nat) (x : Zone) (hks : Kept s0 s) : Kept s0 (State.putZone s z x) := by
  unfold State.putZone
  try dsimp only
  repeat' (first | with_reducible assumption | simp only [Kept.mk3, Kept.mk4] | (intro _) | split)

theorem kept_meterIn {s0 : State} (s : State) (cls : Fin 4) (n : Nat) (hks : Kept s0 s) : Kept s0 (State.meterIn s cls n) := by
  unfold State.meterIn
  try dsimp only
  repeat' (first | with_reducible assumption | simp only [Kept.mk3, Kept.mk4] | (intro _) | split)

theorem kept_quotaNear {s0 : State} (s : State) (t : Tid) (hks : Kept s0 s) : Kept s0 (State.quotaNear s t) := by
  unfold State.quotaNear
  try dsimp only
  repeat' (first | with_reducible assumption | with_reducible apply kept_raiseTnt | simp only [Kept.mk3, Kept.mk4] | (intro _) | split)

theorem kept_updEntry {s0 : State} (s : State) (z : Nat) (n : Nat) (f : AppRec → AppRec) (hks : Kept s0 s) : Kept s0
      (State.updEntry s z n f) := by
  unfold State.updEntry
  try dsimp only
  repeat' (first | with_reducible assumption | with_reducible apply kept_updZone | simp only [Kept.mk3, Kept.mk4] | (intro _) | split)

theorem kept_mirAppendSend {s0 : State} (s : State) (t : Tid) (z : Nat) (e : AppRec) (hks : Kept s0 s) : Kept s0
      (State.mirAppendSend s t z e) := by
  unfold State.mirAppendSend
  try dsimp only
  repeat' (first | with_reducible assumption | with_reducible apply kept_mirSend | simp only [Kept.mk3, Kept.mk4] | (intro _) | split)

theorem kept_withdraw {s0 : State} (s : State) (t : Tid) (lowest : Nat) (again : List (Nat × AppRec)) (hks : Kept s0 s) : Kept
      s0 (State.withdraw s t lowest again) := by
  unfold State.withdraw
  try dsimp only
  repeat' (first | with_reducible assumption | with_reducible apply kept_mirSend | with_reducible apply kept_mirAppendSend | with_reducible apply Kept.foldl | simp only [Kept.mk3, Kept.mk4] | (intro _) | split)

theorem kept_discardAppends {s0 : State} (s : State) (t : Tid) (gone : Nat → AppRec → Bool) (hks : Kept s0 s) : Kept s0
      (State.discardAppends s t gone) := by
  unfold State.discardAppends
  try dsimp only
  repeat' (first | with_reducible assumption | with_reducible apply kept_withdraw | simp only [Kept.mk3, Kept.mk4] | (intro _) | split)

theorem kept_offlineZone {s0 : State} (s : State) (z : Nat) (hks : Kept s0 s) : Kept s0 (State.offlineZone s z) := by
  unfold State.offlineZone
  try dsimp only
  repeat' (first | with_reducible assumption | with_reducible apply kept_record | with_reducible apply kept_updZone | with_reducible apply kept_discardAppends | simp only [Kept.mk3, Kept.mk4] | (intro _) | split)

theorem kept_zresetRecord {s0 : State} (s : State) (z : Nat) (x : Zone) (cause : Byte) (hks : Kept s0 s) : Kept s0
      (State.zresetRecord s z x cause) := by
  unfold State.zresetRecord
  try dsimp only
  repeat' (first | with_reducible assumption | with_reducible apply K1.getD | simp only [Kept.mk3, Kept.mk4] | (intro _) | split)

theorem kept_emptyZone {s0 : State} (s : State) (z : Nat) (hks : Kept s0 s) : Kept s0 (State.emptyZone s z) := by
  unfold State.emptyZone
  try dsimp only
  repeat' (first | with_reducible assumption | with_reducible apply kept_updZone | simp only [Kept.mk3, Kept.mk4] | (intro _) | split)

theorem kept_recycleZone {s0 : State} (s : State) (z : Nat) (hks : Kept s0 s) : Kept s0 (State.recycleZone s z) := by
  unfold State.recycleZone
  try dsimp only
  repeat' (first | with_reducible assumption | with_reducible apply kept_raiseRec | with_reducible apply kept_mirStateItem | with_reducible apply kept_zresetRecord | with_reducible apply kept_emptyZone | simp only [Kept.mk3, Kept.mk4] | (intro _) | split)

theorem kept_takeZone {s0 : State} (s : State) (t : Tid) (own : Bool) (recycle : Bool) (hks : Kept s0 s) : K5 s0
      (State.takeZone s t own recycle) := by
  unfold State.takeZone
  try dsimp only
  repeat' (first | with_reducible assumption | with_reducible apply kept_putZone | with_reducible apply kept_quotaNear | with_reducible apply kept_recycleZone | with_reducible apply K5.error | with_reducible apply K5.ok | simp only [Kept.mk3, Kept.mk4] | (intro _) | split)

end Sys2Proof.Machine
end

