-- ==== Sys2Proof/Laws/KeptBoot.lean ====
section
/-!
SUPPORT. What the operations of Machine/Boot.lean keep.
-/
set_option linter.unusedTactic false
set_option linter.unreachableTactic false
set_option linter.unusedVariables false
set_option linter.unusedSimpArgs false

namespace Sys2Proof.Machine

theorem kept_norWrite {s0 : State} (s : State) (a : Nat) (n : Nat) (b : List Byte) (hks : Kept s0 s) : Kept s0 (State.norWrite
      s a n b) := by
  refine hks.nvmSet { NvmKept.rfl' s.nvm with nor := fun h => ?_ } rfl
  exact Memory.wf_setList _ _ (Memory.wf_eraseRange _ _ h)

theorem kept_writeRec {s0 : State} (s : State) (r : CtlRec) (hks : Kept s0 s) : Kept s0 (State.writeRec s r) := by
  unfold State.writeRec
  try dsimp only
  repeat' (first | with_reducible assumption | with_reducible apply kept_norWrite | simp only [Kept.mk3, Kept.mk4] | (intro _) | split)

theorem kept_romRecover {s0 : State} (s : State) (cause : Byte) (detail : Byte) (hks : Kept s0 s) : Kept s0 (State.romRecover
      s cause detail) := by
  unfold State.romRecover
  try dsimp only
  repeat' (first | with_reducible assumption | with_reducible apply kept_raise | with_reducible apply kept_recordAs | simp only [Kept.mk3, Kept.mk4] | (intro _) | split)

theorem kept_ackCause {s0 : State} (s : State) (hks : Kept s0 s) : Kept s0 (State.ackCause s) := by
  unfold State.ackCause
  try dsimp only
  repeat' (first | with_reducible assumption | with_reducible apply kept_record | simp only [Kept.mk3, Kept.mk4] | (intro _) | split)

theorem kept_saveGust {s0 : State} (s : State) (hks : Kept s0 s) : Kept s0 (State.saveGust s) := by
  unfold State.saveGust
  try dsimp only
  repeat' (first | with_reducible assumption | simp only [Kept.mk3, Kept.mk4] | (intro _) | split)

theorem kept_dispStart {s0 : State} (s : State) (hks : Kept s0 s) : Kept s0 (State.dispStart s) := by
  unfold State.dispStart
  try dsimp only
  repeat' (first | with_reducible assumption | simp only [Kept.mk3, Kept.mk4] | (intro _) | split)

theorem kept_recover {s0 : State} (s : State) (cause : Byte) (detail : Byte) (hks : Kept s0 s) : Kept s0 (State.recover s
      cause detail) := by
  unfold State.recover
  try dsimp only
  repeat' (first | with_reducible assumption | with_reducible apply kept_record | with_reducible apply kept_setLevel | with_reducible apply kept_ackCause | with_reducible apply kept_saveGust | with_reducible apply kept_dispStart | simp only [Kept.mk3, Kept.mk4] | (intro _) | split)

theorem kept_judgeMark {s0 : State} (s : State) (taken : BitVec 7) (hks : Kept s0 s) : Kept s0 (State.judgeMark s taken) := by
  unfold State.judgeMark
  try dsimp only
  repeat' (first | with_reducible assumption | with_reducible apply kept_writeRec | simp only [Kept.mk3, Kept.mk4] | (intro _) | split)

theorem kept_strapRecords {s0 : State} (s : State) (hks : Kept s0 s) : Kept s0 (State.strapRecords s) := by
  unfold State.strapRecords
  try dsimp only
  repeat' (first | with_reducible assumption | with_reducible apply kept_recordAs | simp only [Kept.mk3, Kept.mk4] | (intro _) | split)

theorem kept_gustWarnings {s0 : State} (s : State) (d : BoardDesc) (p : Policy) (hks : Kept s0 s) : Kept s0
      (State.gustWarnings s d p) := by
  unfold State.gustWarnings
  try dsimp only
  repeat' (first | with_reducible assumption | with_reducible apply kept_record | with_reducible apply Kept.foldl | simp only [Kept.mk3, Kept.mk4] | (intro _) | split)

theorem kept_adeitStart {s0 : State} (s : State) (d : BoardDesc) (hks : Kept s0 s) : Kept s0 (State.adeitStart s d) := by
  unfold State.adeitStart
  try dsimp only
  repeat' (first | with_reducible assumption | with_reducible apply kept_recover | with_reducible apply kept_gustWarnings | with_reducible refine K2.elim (kept_drbg _ ?_) ‹_› | with_reducible apply kept_drbg | simp only [Kept.mk3, Kept.mk4] | (intro _) | split)

theorem kept_romSlots {s0 : State} (s : State) (d : BoardDesc) (hks : Kept s0 s) : Kept s0 (State.romSlots s d) := by
  unfold State.romSlots
  try dsimp only
  repeat' (first | with_reducible assumption | with_reducible apply kept_recordAs | with_reducible apply kept_writeRec | with_reducible apply kept_romRecover | with_reducible apply kept_adeitStart | with_reducible apply K1.getD | simp only [Kept.mk3, Kept.mk4] | (intro _) | split)

theorem kept_romBoot {s0 : State} (s : State) (hks : Kept s0 s) : Kept s0 (State.romBoot s) := by
  unfold State.romBoot
  try dsimp only
  repeat' (first | with_reducible assumption | with_reducible apply kept_romRecover | with_reducible apply kept_judgeMark | with_reducible apply kept_strapRecords | with_reducible apply kept_romSlots | simp only [Kept.mk3, Kept.mk4] | (intro _) | split)

theorem kept_execResetRelease {s0 : State} (s : State) (hks : Kept s0 s) : OutKept s0 (execResetRelease s) := by
  unfold execResetRelease
  try dsimp only
  repeat' (first | with_reducible assumption | with_reducible apply kept_release | with_reducible apply OutKept.next | exact OutKept.fault _ | exact OutKept.refused _ | simp only [Kept.mk3, Kept.mk4] | (intro _) | split)

theorem kept_execStrapSampling {s0 : State} (a : BitVec 6) (b : BitVec 6) (c : BitVec 6) (s : State) (hks : Kept s0 s) :
      OutKept s0 (execStrapSampling a b c s) := by
  unfold execStrapSampling
  try dsimp only
  repeat' (first | with_reducible assumption | with_reducible apply kept_romBoot | with_reducible apply OutKept.next | exact OutKept.fault _ | exact OutKept.refused _ | simp only [Kept.mk3, Kept.mk4] | (intro _) | split)

end Sys2Proof.Machine
end

