-- ==== Sys2Proof/Laws/KeptPool.lean ====
section
/-!
SUPPORT. What the operations of Machine/Pool.lean keep.
-/
set_option linter.unusedTactic false
set_option linter.unreachableTactic false
set_option linter.unusedVariables false
set_option linter.unusedSimpArgs false

namespace Sys2Proof.Machine

theorem kept_pause {s0 : State} (s : State) (o : Owner) (hks : Kept s0 s) : Kept s0 (State.pause s o) := by
  unfold State.pause
  try dsimp only
  repeat' (first | with_reducible assumption | with_reducible apply kept_raise | simp only [Kept.mk3, Kept.mk4] | (intro _) | split)

theorem kept_alloc {s0 : State} (s : State) (o : Owner) (b : Buf) (hks : Kept s0 s) : K2 s0 (State.alloc s o b) := by
  unfold State.alloc
  try dsimp only
  repeat' (first | with_reducible assumption | with_reducible apply K2.none | with_reducible apply K2.some | with_reducible apply K2.findSome | simp only [Kept.mk3, Kept.mk4] | (intro _) | split)

theorem kept_allocAll {s0 : State} (s : State) (o : Owner) (l : List Buf) (hks : Kept s0 s) : K2 s0 (State.allocAll s o l) := by
  induction l generalizing s with
  | nil => exact K2.some hks
  | cons b r ih =>
    unfold State.allocAll
    split
    · exact K2.none
    · rename_i h s1 e
      split
      · exact K2.none
      · rename_i hs s2 e2
        exact K2.some ((ih s1 ((kept_alloc s o b hks).elim e)).elim e2)

theorem kept_freeBuf {s0 : State} (s : State) (h : Nat) (hks : Kept s0 s) : Kept s0 (State.freeBuf s h) := by
  unfold State.freeBuf
  try dsimp only
  repeat' (first | with_reducible assumption | simp only [Kept.mk3, Kept.mk4] | (intro _) | split)

theorem kept_freeBufs {s0 : State} (s : State) (hs : List Nat) (hks : Kept s0 s) : Kept s0 (State.freeBufs s hs) := by
  unfold State.freeBufs
  try dsimp only
  repeat' (first | with_reducible assumption | with_reducible apply kept_freeBuf | with_reducible apply Kept.foldl | simp only [Kept.mk3, Kept.mk4] | (intro _) | split)

theorem kept_updBuf {s0 : State} (s : State) (h : Nat) (f : Buf → Buf) (hks : Kept s0 s) : Kept s0 (State.updBuf s h f) := by
  unfold State.updBuf
  try dsimp only
  repeat' (first | with_reducible assumption | simp only [Kept.mk3, Kept.mk4] | (intro _) | split)

theorem kept_updBufs {s0 : State} (s : State) (hs : List Nat) (f : Buf → Buf) (hks : Kept s0 s) : Kept s0 (State.updBufs s hs
      f) := by
  unfold State.updBufs
  try dsimp only
  repeat' (first | with_reducible assumption | with_reducible apply kept_updBuf | with_reducible apply Kept.foldl | simp only [Kept.mk3, Kept.mk4] | (intro _) | split)

theorem kept_execBufferAllocate {s0 : State} (o : Owner) (tag : Tag) (markerOk : Bool) (s : State) (hks : Kept s0 s) : OutKept
      s0 (execBufferAllocate o tag markerOk s) := by
  unfold execBufferAllocate
  try dsimp only
  repeat' (first | with_reducible assumption | with_reducible apply kept_drawn | with_reducible apply kept_raiseRec | with_reducible apply kept_updCmd | with_reducible apply kept_pause | with_reducible refine K2.elim (kept_alloc _ _ _ ?_) ‹_› | with_reducible apply kept_alloc | with_reducible apply OutKept.next | exact OutKept.fault _ | exact OutKept.refused _ | simp only [Kept.mk3, Kept.mk4] | (intro _) | split)

theorem kept_execListRebuildEnd {s0 : State} (p : Pool) (s : State) (hks : Kept s0 s) : OutKept s0 (execListRebuildEnd p s) :=
      by
  unfold execListRebuildEnd
  try dsimp only
  repeat' (first | with_reducible assumption | with_reducible apply OutKept.next | exact OutKept.fault _ | exact OutKept.refused _ | simp only [Kept.mk3, Kept.mk4] | (intro _) | split)

theorem kept_execBufferHandoff {s0 : State} (h : Nat) (fromO : Owner) (toO : Owner) (takes : Bool) (s : State) (hks : Kept s0
      s) : OutKept s0 (execBufferHandoff h fromO toO takes s) := by
  unfold execBufferHandoff
  try dsimp only
  repeat' (first | with_reducible assumption | with_reducible apply kept_updBuf | with_reducible apply OutKept.next | exact OutKept.fault _ | exact OutKept.refused _ | simp only [Kept.mk3, Kept.mk4] | (intro _) | split)

theorem kept_execBufferFree {s0 : State} (h : Nat) (o : Owner) (s : State) (hks : Kept s0 s) : OutKept s0 (execBufferFree h o
      s) := by
  unfold execBufferFree
  try dsimp only
  repeat' (first | with_reducible assumption | with_reducible apply kept_raiseRec | with_reducible apply kept_freeBuf | with_reducible apply kept_updBuf | with_reducible apply OutKept.next | exact OutKept.fault _ | exact OutKept.refused _ | simp only [Kept.mk3, Kept.mk4] | (intro _) | split)

theorem kept_loseSram {s0 : State} (s : State) (hks : Kept s0 s) : Kept s0 (State.loseSram s) := by
  unfold State.loseSram
  try dsimp only
  repeat' (first | with_reducible assumption | simp only [Kept.mk3, Kept.mk4] | (intro _) | split)

theorem kept_marchStart {s0 : State} (s : State) (v : Word) (hks : Kept s0 s) : Kept s0 (State.marchStart s v) := by
  unfold State.marchStart
  try dsimp only
  repeat' (first | with_reducible assumption | with_reducible apply kept_loseSram | simp only [Kept.mk3, Kept.mk4] | (intro _) | split)

theorem kept_removeSram {s0 : State} (s : State) (hs : List Nat) (hks : Kept s0 s) : Kept s0 (State.removeSram s hs) := by
  unfold State.removeSram
  try dsimp only
  repeat' (first | with_reducible assumption | with_reducible apply Kept.foldl | simp only [Kept.mk3, Kept.mk4] | (intro _) | split)

theorem kept_repairRow {s0 : State} (s : State) (target : Nat) (f : FailRow) (hks : Kept s0 s) : Kept s0 (State.repairRow s
      target f) := by
  unfold State.repairRow
  try dsimp only
  repeat' (first | with_reducible assumption | with_reducible apply kept_raise | with_reducible apply kept_raiseRec | with_reducible apply kept_removeSram | simp only [Kept.mk3, Kept.mk4] | (intro _) | split)

theorem kept_execMarchDone {s0 : State} (fails : List FailRow) (s : State) (hks : Kept s0 s) : OutKept s0 (execMarchDone fails
      s) := by
  unfold execMarchDone
  try dsimp only
  repeat' (first | with_reducible assumption | with_reducible apply kept_raise | with_reducible apply kept_repairRow | with_reducible apply OutKept.next | exact OutKept.fault _ | exact OutKept.refused _ | with_reducible apply Kept.foldl | simp only [Kept.mk3, Kept.mk4] | (intro _) | split)

theorem kept_rtRequest {s0 : State} (s : State) (hks : Kept s0 s) : Kept s0 (State.rtRequest s) := by
  unfold State.rtRequest
  try dsimp only
  repeat' (first | with_reducible assumption | simp only [Kept.mk3, Kept.mk4] | (intro _) | split)

end Sys2Proof.Machine
end

