-- ==== Sys2Proof/Laws/KeptDram.lean ====
section
/-!
SUPPORT. What the operations of Machine/Dram.lean keep.
-/
set_option linter.unusedTactic false
set_option linter.unreachableTactic false
set_option linter.unusedVariables false
set_option linter.unusedSimpArgs false

namespace Sys2Proof.Machine

theorem kept_trainReport {s0 : State} (s : State) (lanes : List LaneSweep) (timeUs : Nat) (hks : Kept s0 s) : Kept s0
      (State.trainReport s lanes timeUs) := by
  unfold State.trainReport
  try dsimp only
  repeat' (first | with_reducible assumption | with_reducible apply kept_raiseRecStatus | with_reducible apply Kept.foldl | simp only [Kept.mk3, Kept.mk4] | (intro _) | split)

theorem kept_execDramTrainingDone {s0 : State} (sweeps : Vector LaneSweep 5) (mr : List Byte) (gib timeUs : Nat) (s : State)
      (hks : Kept s0 s) : OutKept s0 (execDramTrainingDone sweeps mr gib timeUs s) := by
  unfold execDramTrainingDone
  try dsimp only
  repeat' (first | with_reducible assumption | with_reducible apply kept_raise | with_reducible apply kept_recover | with_reducible apply kept_trainReport | with_reducible apply OutKept.next | exact OutKept.fault _ | exact OutKept.refused _ | simp only [Kept.mk3, Kept.mk4] | (intro _) | split)

theorem kept_execExtendedPartLoaded {s0 : State} (s : State) (hks : Kept s0 s) : OutKept s0 (execExtendedPartLoaded s) := by
  unfold execExtendedPartLoaded
  try dsimp only
  repeat' (first | with_reducible assumption | with_reducible apply kept_recover | with_reducible apply OutKept.next | exact OutKept.fault _ | exact OutKept.refused _ | simp only [Kept.mk3, Kept.mk4] | (intro _) | split)

theorem kept_execRefreshDue {s0 : State} (s : State) (hks : Kept s0 s) : OutKept s0 (execRefreshDue s) := by
  unfold execRefreshDue
  try dsimp only
  repeat' (first | with_reducible assumption | with_reducible apply kept_raise | with_reducible apply OutKept.next | exact OutKept.fault _ | exact OutKept.refused _ | simp only [Kept.mk3, Kept.mk4] | (intro _) | split)

theorem kept_execRefreshPayback {s0 : State} (s : State) (hks : Kept s0 s) : OutKept s0 (execRefreshPayback s) := by
  unfold execRefreshPayback
  try dsimp only
  repeat' (first | with_reducible assumption | with_reducible apply OutKept.next | exact OutKept.fault _ | exact OutKept.refused _ | simp only [Kept.mk3, Kept.mk4] | (intro _) | split)

end Sys2Proof.Machine
end

