-- ==== Sys2Proof/Laws/KeptSerial.lean ====
section
/-!
SUPPORT. What the operations of Machine/Serial.lean keep.
-/
set_option linter.unusedTactic false
set_option linter.unreachableTactic false
set_option linter.unusedVariables false
set_option linter.unusedSimpArgs false

namespace Sys2Proof.Machine

theorem kept_qspiGo {s0 : State} (s : State) (hks : Kept s0 s) : Kept s0 (State.qspiGo s) := by
  unfold State.qspiGo
  try dsimp only
  repeat' (first | with_reducible assumption | simp only [Kept.mk3, Kept.mk4] | (intro _) | split)

theorem kept_execQspiFrameStart {s0 : State} (s : State) (hks : Kept s0 s) : OutKept s0 (execQspiFrameStart s) := by
  unfold execQspiFrameStart
  try dsimp only
  repeat' (first | with_reducible assumption | with_reducible apply kept_emit | with_reducible apply OutKept.next | exact OutKept.fault _ | exact OutKept.refused _ | simp only [Kept.mk3, Kept.mk4] | (intro _) | split)

theorem kept_hostFrameEnd {s0 : State} (s : State) (data : List Byte) (hks : Kept s0 s) : Kept s0 (State.hostFrameEnd s data)
      := by
  unfold State.hostFrameEnd
  try dsimp only
  repeat' (first | with_reducible assumption | with_reducible apply kept_emit | with_reducible apply kept_raise | simp only [Kept.mk3, Kept.mk4] | (intro _) | split)

theorem kept_execFrameDone {s0 : State} (rd : List Byte) (s : State) (hks : Kept s0 s) : OutKept s0 (execFrameDone rd s) := by
  unfold execFrameDone
  try dsimp only
  repeat' (first | with_reducible assumption | with_reducible apply kept_raise | with_reducible apply kept_hostFrameEnd | with_reducible apply OutKept.next | exact OutKept.fault _ | exact OutKept.refused _ | simp only [Kept.mk3, Kept.mk4] | (intro _) | split)

theorem kept_spitTx {s0 : State} (s : State) (v : Word) (hks : Kept s0 s) : Kept s0 (State.spitTx s v) := by
  unfold State.spitTx
  try dsimp only
  repeat' (first | with_reducible assumption | simp only [Kept.mk3, Kept.mk4] | (intro _) | split)

theorem kept_spitPop {s0 : State} (s : State) (hks : Kept s0 s) : Kept s0 (State.spitPop s) := by
  unfold State.spitPop
  try dsimp only
  repeat' (first | with_reducible assumption | simp only [Kept.mk3, Kept.mk4] | (intro _) | split)

theorem kept_spitCtrl {s0 : State} (s : State) (v : Word) (hks : Kept s0 s) : Kept s0 (State.spitCtrl s v) := by
  unfold State.spitCtrl
  try dsimp only
  repeat' (first | with_reducible assumption | simp only [Kept.mk3, Kept.mk4] | (intro _) | split)

theorem kept_execSpitWordReceived {s0 : State} (word : Word) (s : State) (hks : Kept s0 s) : OutKept s0 (execSpitWordReceived
      word s) := by
  unfold execSpitWordReceived
  try dsimp only
  repeat' (first | with_reducible assumption | with_reducible apply kept_raise | with_reducible apply OutKept.next | exact OutKept.fault _ | exact OutKept.refused _ | simp only [Kept.mk3, Kept.mk4] | (intro _) | split)

theorem kept_execSpitWordTake {s0 : State} (first : Bool) (s : State) (hks : Kept s0 s) : OutKept s0 (execSpitWordTake first
      s) := by
  unfold execSpitWordTake
  try dsimp only
  repeat' (first | with_reducible assumption | with_reducible apply kept_emit | with_reducible apply kept_raise | with_reducible apply OutKept.next | exact OutKept.fault _ | exact OutKept.refused _ | simp only [Kept.mk3, Kept.mk4] | (intro _) | split)

theorem kept_execSpitCsRise {s0 : State} (withinWord : Bool) (s : State) (hks : Kept s0 s) : OutKept s0 (execSpitCsRise
      withinWord s) := by
  unfold execSpitCsRise
  try dsimp only
  repeat' (first | with_reducible assumption | with_reducible apply kept_raise | with_reducible apply OutKept.next | exact OutKept.fault _ | exact OutKept.refused _ | simp only [Kept.mk3, Kept.mk4] | (intro _) | split)

theorem kept_setMotion {s0 : State} (s : State) (m : Motion) (hks : Kept s0 s) : Kept s0 (State.setMotion s m) := by
  unfold State.setMotion
  try dsimp only
  repeat' (first | with_reducible assumption | with_reducible apply kept_raise | with_reducible apply kept_raiseRecStatus | simp only [Kept.mk3, Kept.mk4] | (intro _) | split)

theorem kept_execMotionChange {s0 : State} (level : Bool) (s : State) (hks : Kept s0 s) : OutKept s0 (execMotionChange level
      s) := by
  unfold execMotionChange
  try dsimp only
  repeat' (first | with_reducible assumption | with_reducible apply kept_setMotion | with_reducible apply OutKept.next | exact OutKept.fault _ | exact OutKept.refused _ | simp only [Kept.mk3, Kept.mk4] | (intro _) | split)

theorem kept_execGpioInputEdge {s0 : State} (n : Fin 4) (level : Bool) (s : State) (hks : Kept s0 s) : OutKept s0
      (execGpioInputEdge n level s) := by
  unfold execGpioInputEdge
  try dsimp only
  repeat' (first | with_reducible assumption | with_reducible apply kept_raise | with_reducible apply OutKept.next | exact OutKept.fault _ | exact OutKept.refused _ | simp only [Kept.mk3, Kept.mk4] | (intro _) | split)

theorem kept_tryEntry {s0 : State} (s : State) (d : BoardDesc) (i : Nat) (ans : PmicAnswer) (hks : Kept s0 s) : K4 s0
      (State.tryEntry s d i ans) := by
  unfold State.tryEntry
  try dsimp only
  repeat' (first | with_reducible assumption | with_reducible apply kept_emit | with_reducible apply kept_raiseRec | with_reducible apply K4.mk | simp only [Kept.mk3, Kept.mk4] | (intro _) | split)

theorem kept_probeDone {s0 : State} (s : State) (d : BoardDesc) (hks : Kept s0 s) : Kept s0 (State.probeDone s d) := by
  unfold State.probeDone
  try dsimp only
  repeat' (first | with_reducible assumption | with_reducible apply kept_raise | with_reducible apply kept_raiseRec | with_reducible apply kept_setEb | simp only [Kept.mk3, Kept.mk4] | (intro _) | split)

theorem kept_afterTry {s0 : State} (s : State) (d : BoardDesc) (i : Nat) (e : TryEnd) (hks : Kept s0 s) : Kept s0
      (State.afterTry s d i e) := by
  unfold State.afterTry
  try dsimp only
  repeat' (first | with_reducible assumption | with_reducible apply kept_probeDone | simp only [Kept.mk3, Kept.mk4] | (intro _) | split)

theorem kept_runEntry {s0 : State} (s : State) (d : BoardDesc) (i : Nat) (ans : PmicAnswer) (hks : Kept s0 s) : Kept s0
      (State.runEntry s d i ans) := by
  unfold State.runEntry
  try dsimp only
  repeat' (first | with_reducible assumption | with_reducible apply K4.fst; with_reducible apply kept_tryEntry | with_reducible refine K4.elim (kept_tryEntry _ _ _ _ ?_) ‹_› | with_reducible apply kept_tryEntry | with_reducible apply kept_afterTry | simp only [Kept.mk3, Kept.mk4] | (intro _) | split)

theorem kept_execScriptEntry {s0 : State} (index : Fin 20) (ans : PmicAnswer) (s : State) (hks : Kept s0 s) : OutKept s0
      (execScriptEntry index ans s) := by
  unfold execScriptEntry
  try dsimp only
  repeat' (first | with_reducible assumption | with_reducible apply kept_runEntry | with_reducible apply OutKept.next | exact OutKept.fault _ | exact OutKept.refused _ | simp only [Kept.mk3, Kept.mk4] | (intro _) | split)

theorem kept_afterStatus {s0 : State} (s : State) (d : BoardDesc) (i : Nat) (ans : PmicAnswer) (e : TryEnd) (hks : Kept s0 s)
      : Kept s0 (State.afterStatus s d i ans e) := by
  unfold State.afterStatus
  try dsimp only
  repeat' (first | with_reducible assumption | with_reducible apply kept_raiseRec | with_reducible apply kept_pmicShrink | simp only [Kept.mk3, Kept.mk4] | (intro _) | split)

theorem kept_execEntryRetry {s0 : State} (ans : PmicAnswer) (s : State) (hks : Kept s0 s) : OutKept s0 (execEntryRetry ans s)
      := by
  unfold execEntryRetry
  try dsimp only
  repeat' (first | with_reducible assumption | with_reducible apply K4.fst; with_reducible apply kept_tryEntry | with_reducible refine K4.elim (kept_tryEntry _ _ _ _ ?_) ‹_› | with_reducible apply kept_tryEntry | with_reducible apply kept_runEntry | with_reducible apply kept_afterStatus | with_reducible apply OutKept.next | exact OutKept.fault _ | exact OutKept.refused _ | simp only [Kept.mk3, Kept.mk4] | (intro _) | split)

theorem kept_execStatusPoll {s0 : State} (ans : PmicAnswer) (s : State) (hks : Kept s0 s) : OutKept s0 (execStatusPoll ans s)
      := by
  unfold execStatusPoll
  try dsimp only
  repeat' (first | with_reducible assumption | with_reducible apply K4.fst; with_reducible apply kept_tryEntry | with_reducible refine K4.elim (kept_tryEntry _ _ _ _ ?_) ‹_› | with_reducible apply kept_tryEntry | with_reducible apply kept_afterStatus | with_reducible apply OutKept.next | exact OutKept.fault _ | exact OutKept.refused _ | simp only [Kept.mk3, Kept.mk4] | (intro _) | split)

theorem kept_recoverBus {s0 : State} (s : State) (freedAfter : Option (Fin 10)) (hks : Kept s0 s) : Kept s0 (State.recoverBus
      s freedAfter) := by
  unfold State.recoverBus
  try dsimp only
  repeat' (first | with_reducible assumption | with_reducible apply kept_record | with_reducible apply kept_raiseRec | with_reducible apply kept_holdupSkipped | simp only [Kept.mk3, Kept.mk4] | (intro _) | split)

theorem kept_execStuckBusRecovery {s0 : State} (freedAfter : Option (Fin 10)) (s : State) (hks : Kept s0 s) : OutKept s0
      (execStuckBusRecovery freedAfter s) := by
  unfold execStuckBusRecovery
  try dsimp only
  repeat' (first | with_reducible assumption | with_reducible apply kept_recoverBus | with_reducible apply OutKept.next | exact OutKept.fault _ | exact OutKept.refused _ | simp only [Kept.mk3, Kept.mk4] | (intro _) | split)

theorem kept_execStuckRetry {s0 : State} (freedAfter : Option (Fin 10)) (s : State) (hks : Kept s0 s) : OutKept s0
      (execStuckRetry freedAfter s) := by
  unfold execStuckRetry
  try dsimp only
  repeat' (first | with_reducible assumption | with_reducible apply kept_recoverBus | with_reducible apply OutKept.next | exact OutKept.fault _ | exact OutKept.refused _ | simp only [Kept.mk3, Kept.mk4] | (intro _) | split)

theorem kept_probeNow {s0 : State} (s : State) (hks : Kept s0 s) : Kept s0 (State.probeNow s) := by
  unfold State.probeNow
  try dsimp only
  repeat' (first | with_reducible assumption | simp only [Kept.mk3, Kept.mk4] | (intro _) | split)

theorem kept_execHoldupProbe {s0 : State} (ans : PmicAnswer) (s : State) (hks : Kept s0 s) : OutKept s0 (execHoldupProbe ans
      s) := by
  unfold execHoldupProbe
  try dsimp only
  repeat' (first | with_reducible assumption | with_reducible apply kept_probeShrink | with_reducible apply kept_runEntry | with_reducible apply OutKept.next | exact OutKept.fault _ | exact OutKept.refused _ | simp only [Kept.mk3, Kept.mk4] | (intro _) | split)

theorem kept_execLoadPulse {s0 : State} (v0mV : Nat) (ans : PmicAnswer) (s : State) (hks : Kept s0 s) : OutKept s0
      (execLoadPulse v0mV ans s) := by
  unfold execLoadPulse
  try dsimp only
  repeat' (first | with_reducible assumption | with_reducible apply kept_runEntry | with_reducible apply OutKept.next | exact OutKept.fault _ | exact OutKept.refused _ | simp only [Kept.mk3, Kept.mk4] | (intro _) | split)

theorem kept_execProbeComplete {s0 : State} (vAuV : Nat) (slopeMVs : Nat) (ans : PmicAnswer) (s : State) (hks : Kept s0 s) :
      OutKept s0 (execProbeComplete vAuV slopeMVs ans s) := by
  unfold execProbeComplete
  try dsimp only
  repeat' (first | with_reducible assumption | with_reducible apply kept_runEntry | with_reducible apply OutKept.next | exact OutKept.fault _ | exact OutKept.refused _ | simp only [Kept.mk3, Kept.mk4] | (intro _) | split)

end Sys2Proof.Machine
end

