-- ==== Sys2Proof/Laws/KeptMedia.lean ====
section
/-!
SUPPORT. What the operations of Machine/Media.lean keep.
-/
set_option linter.unusedTactic false
set_option linter.unreachableTactic false
set_option linter.unusedVariables false
set_option linter.unusedSimpArgs false

namespace Sys2Proof.Machine

theorem kept_formSb {s0 : State} (s : State) (d : BoardDesc) (g : Nat) (use : SbUse) (stream : Nat) (hks : Kept s0 s) : K2 s0
      (State.formSb s d g use stream) := by
  unfold State.formSb
  try dsimp only
  repeat' (first | with_reducible assumption | with_reducible apply K2.none | with_reducible apply K2.some | with_reducible apply K1.getD | simp only [Kept.mk3, Kept.mk4] | (intro _) | split)

theorem kept_formSysSb {s0 : State} (s : State) (d : BoardDesc) (g : Nat) (hks : Kept s0 s) : Kept s0 (State.formSysSb s d g)
      := by
  unfold State.formSysSb
  try dsimp only
  repeat' (first | with_reducible assumption | simp only [Kept.mk3, Kept.mk4] | (intro _) | split)

theorem kept_updSb {s0 : State} (s : State) (k : Nat) (f : Superblock → Superblock) (hks : Kept s0 s) : Kept s0 (State.updSb s
      k f) := by
  unfold State.updSb
  try dsimp only
  repeat' (first | with_reducible assumption | simp only [Kept.mk3, Kept.mk4] | (intro _) | split)

theorem kept_dropAppends {s0 : State} (s : State) (t : Tid) (gone : Nat → AppRec → Bool) (hks : Kept s0 s) : Kept s0
      (State.dropAppends s t gone) := by
  unfold State.dropAppends
  try dsimp only
  repeat' (first | with_reducible assumption | with_reducible apply kept_discardAppends | simp only [Kept.mk3, Kept.mk4] | (intro _) | split)

theorem kept_mediaBits {s0 : State} (s before : State) (hks : Kept s0 s) (hkbefore : Kept s0 before) : Kept s0
      (State.mediaBits s before) := by
  unfold State.mediaBits
  try dsimp only
  repeat' (first | with_reducible assumption | with_reducible apply kept_raise | with_reducible apply Kept.foldl | simp only [Kept.mk3, Kept.mk4] | (intro _) | split)

theorem kept_streamSb {s0 : State} (s : State) (d : BoardDesc) (g : Nat) (stream : Nat) (use : SbUse) (hks : Kept s0 s) : K2
      s0 (State.streamSb s d g stream use) := by
  unfold State.streamSb
  try dsimp only
  repeat' (first | with_reducible assumption | with_reducible refine K2.elim (kept_formSb _ _ _ _ _ ?_) ‹_› | with_reducible apply kept_formSb | with_reducible apply K2.none | with_reducible apply K2.some | with_reducible apply K2.findSome | simp only [Kept.mk3, Kept.mk4] | (intro _) | split)

theorem kept_chanTouch {s0 : State} (s : State) (ch : Nat) (hks : Kept s0 s) : Kept s0 (State.chanTouch s ch) := by
  unfold State.chanTouch
  try dsimp only
  repeat' (first | with_reducible assumption | with_reducible apply K1.getD | simp only [Kept.mk3, Kept.mk4] | (intro _) | split)

theorem kept_queueOp {s0 : State} (s : State) (die : Nat) (cls : Nat) (k : FlashKind) (bufs : List Nat) (hks : Kept s0 s) :
      Kept s0 (State.queueOp s die cls k bufs) := by
  unfold State.queueOp
  try dsimp only
  repeat' (first | with_reducible assumption | with_reducible apply kept_chanTouch | simp only [Kept.mk3, Kept.mk4] | (intro _) | split)

theorem kept_queuePages {s0 : State} (s : State) (d : BoardDesc) (key : Nat) (b : Superblock) (cls : Nat) (first : Nat) (n :
      Nat) (hs : List Nat) (hks : Kept s0 s) : Kept s0 (State.queuePages s d key b cls first n hs) := by
  unfold State.queuePages
  try dsimp only
  repeat' (first | with_reducible assumption | with_reducible apply kept_queueOp | with_reducible apply Kept.foldl | simp only [Kept.mk3, Kept.mk4] | (intro _) | split)

theorem kept_fillSb {s0 : State} (s : State) (d : BoardDesc) (key : Nat) (cls : Nat) (items : List (Option Nat × Piece)) (hks
      : Kept s0 s) : Kept s0 (State.fillSb s d key cls items) := by
  unfold State.fillSb
  try dsimp only
  repeat' (first | with_reducible assumption | with_reducible apply kept_queuePages | with_reducible apply Kept.foldl | simp only [Kept.mk3, Kept.mk4] | (intro _) | split)

theorem kept_journalLines {s0 : State} (s : State) (ps : List Piece) (hks : Kept s0 s) : Kept s0 (State.journalLines s ps) := by
  unfold State.journalLines
  try dsimp only
  repeat' (first | with_reducible assumption | with_reducible apply K1.getD | with_reducible apply Kept.foldl | simp only [Kept.mk3, Kept.mk4] | (intro _) | split)

theorem kept_placeFrom {s0 : State} (s : State) (d : BoardDesc) (gs : List Nat) (stream cls : Nat) (items : List (Option Nat ×
      Piece)) (hks : Kept s0 s) : K1 s0 (State.placeFrom s d gs stream cls items) := by
  unfold State.placeFrom
  try dsimp only
  repeat' (first | with_reducible assumption | with_reducible apply kept_mediaBits | with_reducible refine K2.elim (kept_streamSb _ _ _ _ _ ?_) ‹_› | with_reducible apply kept_streamSb | with_reducible apply kept_fillSb | with_reducible apply kept_journalLines | with_reducible apply K1.none | with_reducible apply K1.some | with_reducible apply K1.findSome | simp only [Kept.mk3, Kept.mk4] | (intro _) | split)

theorem kept_placeIn {s0 : State} (s : State) (d : BoardDesc) (stream : Nat) (cls : Nat) (items : List (Option Nat × Piece))
      (hks : Kept s0 s) : K1 s0 (State.placeIn s d stream cls items) := by
  unfold State.placeIn
  try dsimp only
  repeat' (first | with_reducible assumption | with_reducible refine K1.elim (kept_placeFrom _ _ _ _ _ _ ?_) ‹_› | with_reducible apply kept_placeFrom | with_reducible apply K1.none | with_reducible apply K1.some | simp only [Kept.mk3, Kept.mk4] | (intro _) | split)

theorem kept_journalLag {s0 : State} (s : State) (hks : Kept s0 s) : Kept s0 (State.journalLag s) := by
  unfold State.journalLag
  try dsimp only
  repeat' (first | with_reducible assumption | with_reducible apply kept_raise | simp only [Kept.mk3, Kept.mk4] | (intro _) | split)

theorem kept_judgeReadOnly {s0 : State} (s : State) (hks : Kept s0 s) : Kept s0 (State.judgeReadOnly s) := by
  unfold State.judgeReadOnly
  try dsimp only
  repeat' (first | with_reducible assumption | with_reducible apply kept_raiseRec | simp only [Kept.mk3, Kept.mk4] | (intro _) | split)

theorem kept_retireBlock {s0 : State} (s : State) (die : Nat) (blk : Nat) (cause : Byte) (hks : Kept s0 s) : Kept s0
      (State.retireBlock s die blk cause) := by
  unfold State.retireBlock
  try dsimp only
  repeat' (first | with_reducible assumption | with_reducible apply kept_raise | with_reducible apply kept_mediaBits | with_reducible apply kept_judgeReadOnly | simp only [Kept.mk3, Kept.mk4] | (intro _) | split)

theorem kept_settleGroups {s0 : State} (s : State) (hks : Kept s0 s) : Kept s0 (State.settleGroups s) := by
  unfold State.settleGroups
  try dsimp only
  repeat' (first | with_reducible assumption | simp only [Kept.mk3, Kept.mk4] | (intro _) | split)

theorem kept_failDie {s0 : State} (s : State) (die : Nat) (hks : Kept s0 s) : Kept s0 (State.failDie s die) := by
  unfold State.failDie
  try dsimp only
  repeat' (first | with_reducible assumption | with_reducible apply kept_raise | with_reducible apply kept_raiseRec | with_reducible apply kept_mediaBits | with_reducible apply kept_judgeReadOnly | with_reducible apply kept_settleGroups | with_reducible apply K1.getD | simp only [Kept.mk3, Kept.mk4] | (intro _) | split)

theorem kept_dieOutcome {s0 : State} (s : State) (die : Nat) (pass : Bool) (hks : Kept s0 s) : Kept s0 (State.dieOutcome s die
      pass) := by
  unfold State.dieOutcome
  try dsimp only
  repeat' (first | with_reducible assumption | with_reducible apply kept_failDie | with_reducible apply K1.getD | simp only [Kept.mk3, Kept.mk4] | (intro _) | split)

theorem kept_updNfc {s0 : State} (s : State) (ch : Nat) (f : NfcS → NfcS) (hks : Kept s0 s) : Kept s0 (State.updNfc s ch f) :=
      by
  unfold State.updNfc
  try dsimp only
  repeat' (first | with_reducible assumption | with_reducible apply K1.getD | simp only [Kept.mk3, Kept.mk4] | (intro _) | split)

theorem kept_dropOp {s0 : State} (s : State) (k : Nat) (hks : Kept s0 s) : Kept s0 (State.dropOp s k) := by
  unfold State.dropOp
  try dsimp only
  repeat' (first | with_reducible assumption | with_reducible apply kept_chanTouch | simp only [Kept.mk3, Kept.mk4] | (intro _) | split)

theorem kept_finishErase {s0 : State} (s : State) (key : Nat) (hks : Kept s0 s) : Kept s0 (State.finishErase s key) := by
  unfold State.finishErase
  try dsimp only
  repeat' (first | with_reducible assumption | with_reducible apply kept_settleGroups | simp only [Kept.mk3, Kept.mk4] | (intro _) | split)

theorem kept_queueErases {s0 : State} (s : State) (key : Nat) (b : Superblock) (hks : Kept s0 s) : Kept s0 (State.queueErases
      s key b) := by
  unfold State.queueErases
  try dsimp only
  repeat' (first | with_reducible assumption | with_reducible apply kept_queueOp | with_reducible apply kept_finishErase | with_reducible apply Kept.foldl | simp only [Kept.mk3, Kept.mk4] | (intro _) | split)

theorem kept_eraseSb {s0 : State} (s : State) (key : Nat) (hks : Kept s0 s) : Kept s0 (State.eraseSb s key) := by
  unfold State.eraseSb
  try dsimp only
  repeat' (first | with_reducible assumption | with_reducible apply kept_updSb | with_reducible apply kept_queueErases | simp only [Kept.mk3, Kept.mk4] | (intro _) | split)

theorem kept_eraseIfEmpty {s0 : State} (s : State) (key : Nat) (hks : Kept s0 s) : Kept s0 (State.eraseIfEmpty s key) := by
  unfold State.eraseIfEmpty
  try dsimp only
  repeat' (first | with_reducible assumption | with_reducible apply kept_eraseSb | simp only [Kept.mk3, Kept.mk4] | (intro _) | split)

theorem kept_bufferOnMedia {s0 : State} (s : State) (h : Nat) (hks : Kept s0 s) : Kept s0 (State.bufferOnMedia s h) := by
  unfold State.bufferOnMedia
  try dsimp only
  repeat' (first | with_reducible assumption | with_reducible apply kept_updEntry | with_reducible apply kept_freeBuf | simp only [Kept.mk3, Kept.mk4] | (intro _) | split)

end Sys2Proof.Machine
end

