-- ==== Sys2Proof/Laws/KeptMoves.lean ====
section
/-!
SUPPORT. What the operations of Machine/Moves.lean keep.
-/
set_option linter.unusedTactic false
set_option linter.unreachableTactic false
set_option linter.unusedVariables false
set_option linter.unusedSimpArgs false

namespace Sys2Proof.Machine

theorem kept_grant {s0 : State} (s : State) (line : Nat) (w : Walker) (q : List Walker) (hks : Kept s0 s) : Kept s0
      (State.grant s line w q) := by
  unfold State.grant
  try dsimp only
  repeat' (first | with_reducible assumption | with_reducible apply Kept.foldl | with_reducible apply K1.getD | simp only [Kept.mk3, Kept.mk4] | (intro _) | split)

theorem kept_lineRequest {s0 : State} (s : State) (line : Nat) (w : Walker) (hks : Kept s0 s) : Kept s0 (State.lineRequest s
      line w) := by
  unfold State.lineRequest
  try dsimp only
  repeat' (first | with_reducible assumption | with_reducible apply kept_grant | simp only [Kept.mk3, Kept.mk4] | (intro _) | split)

theorem kept_moveItem {s0 : State} (s : State) (dst : Nat) (it : Nat × Nat × Piece) (hks : Kept s0 s) : Kept s0
      (State.moveItem s dst it) := by
  unfold State.moveItem
  try dsimp only
  repeat' (first | with_reducible assumption | with_reducible apply kept_updSb | simp only [Kept.mk3, Kept.mk4] | (intro _) | split)

theorem kept_applyMove {s0 : State} (s : State) (m : Move) (hks : Kept s0 s) : Kept s0 (State.applyMove s m) := by
  unfold State.applyMove
  try dsimp only
  repeat' (first | with_reducible assumption | with_reducible apply kept_updSb | with_reducible apply kept_journalLines | with_reducible apply kept_eraseIfEmpty | with_reducible apply kept_lineRequest | with_reducible apply kept_moveItem | with_reducible apply Kept.foldl | simp only [Kept.mk3, Kept.mk4] | (intro _) | split)

theorem kept_gcMoves {s0 : State} (s : State) (hks : Kept s0 s) : Kept s0 (State.gcMoves s) := by
  unfold State.gcMoves
  try dsimp only
  repeat' (first | with_reducible assumption | with_reducible apply kept_applyMove | with_reducible apply Kept.foldl | simp only [Kept.mk3, Kept.mk4] | (intro _) | split)

theorem kept_movesProgrammed {s0 : State} (s : State) (key : Nat) (hks : Kept s0 s) : Kept s0 (State.movesProgrammed s key) :=
      by
  unfold State.movesProgrammed
  try dsimp only
  repeat' (first | with_reducible assumption | with_reducible apply kept_gcMoves | simp only [Kept.mk3, Kept.mk4] | (intro _) | split)

theorem kept_copyNew {s0 : State} (s : State) (d : BoardDesc) (g stream : Nat) (use : SbUse) (pads : List (Nat × Nat × Nat))
      (hks : Kept s0 s) : K2 s0 (State.copyNew s d g stream use pads) := by
  unfold State.copyNew
  try dsimp only
  repeat' (first | with_reducible assumption | with_reducible refine K2.elim (kept_formSb _ _ _ _ _ ?_) ‹_› | with_reducible apply kept_formSb | with_reducible apply K2.none | with_reducible apply K2.some | simp only [Kept.mk3, Kept.mk4] | (intro _) | split)

theorem kept_copySb {s0 : State} (s : State) (d : BoardDesc) (g stream : Nat) (use : SbUse) (n : Nat) (hks : Kept s0 s) : K2
      s0 (State.copySb s d g stream use n) := by
  unfold State.copySb
  try dsimp only
  repeat' (first | with_reducible assumption | with_reducible apply kept_updSb | with_reducible refine K2.elim (kept_copyNew _ _ _ _ _ _ ?_) ‹_› | with_reducible apply kept_copyNew | with_reducible apply K2.none | with_reducible apply K2.some | simp only [Kept.mk3, Kept.mk4] | (intro _) | split)

theorem kept_reserveCopies {s0 : State} (s : State) (d : BoardDesc) (g stream : Nat) (use : SbUse) (items : List (Nat ×
      Piece)) (hks : Kept s0 s) : K4 s0 (State.reserveCopies s d g stream use items) := by
  unfold State.reserveCopies
  try dsimp only
  repeat' (first | with_reducible assumption | with_reducible apply kept_updSb | with_reducible refine K2.elim (kept_copySb _ _ _ _ _ _ ?_) ‹_› | with_reducible apply kept_copySb | with_reducible refine K4.foldl (fun _ _ _ => ?_) ?_ | with_reducible exact K4.fst ‹_› | with_reducible apply K4.mk | with_reducible apply Kept.foldl | simp only [Kept.mk3, Kept.mk4] | (intro _) | split)

theorem kept_startMove {s0 : State} (s : State) (d : BoardDesc) (g : Nat) (stream : Nat) (use : SbUse) (cls : Nat) (w :
      Walker) (src : Nat) (items : List (Nat × Piece)) (hks : Kept s0 s) : Kept s0 (State.startMove s d g stream use cls w src
      items) := by
  unfold State.startMove
  try dsimp only
  repeat' (first | with_reducible assumption | with_reducible apply kept_queuePages | with_reducible apply K4.fst; with_reducible apply kept_reserveCopies | with_reducible refine K4.elim (kept_reserveCopies _ _ _ _ _ _ ?_) ‹_› | with_reducible apply kept_reserveCopies | with_reducible apply Kept.foldl | simp only [Kept.mk3, Kept.mk4] | (intro _) | split)

theorem kept_queueCodewords {s0 : State} (s : State) (d : BoardDesc) (key : Nat) (b : Superblock) (cls first n : Nat) (who :
      ReadFor) (hks : Kept s0 s) : Kept s0 (State.queueCodewords s d key b cls first n who) := by
  unfold State.queueCodewords
  try dsimp only
  repeat' (first | with_reducible assumption | with_reducible apply kept_queueOp | with_reducible apply Kept.foldl | simp only [Kept.mk3, Kept.mk4] | (intro _) | split)

theorem kept_startCopy {s0 : State} (s : State) (d : BoardDesc) (g stream : Nat) (use : SbUse) (w : Walker) (src : Nat) (items
      : List (Nat × Nat × Piece)) (hks : Kept s0 s) : Kept s0 (State.startCopy s d g stream use w src items) := by
  unfold State.startCopy
  try dsimp only
  repeat' (first | with_reducible assumption | with_reducible apply kept_eraseIfEmpty | with_reducible apply kept_queueCodewords | with_reducible apply Kept.foldl | simp only [Kept.mk3, Kept.mk4] | (intro _) | split)

theorem kept_copySettled {s0 : State} (s : State) (no : Nat) (hks : Kept s0 s) : Kept s0 (State.copySettled s no) := by
  unfold State.copySettled
  try dsimp only
  repeat' (first | with_reducible assumption | with_reducible apply kept_eraseIfEmpty | with_reducible apply kept_startMove | simp only [Kept.mk3, Kept.mk4] | (intro _) | split)

theorem kept_rewrite {s0 : State} (s : State) (d : BoardDesc) (avoid : List Nat) (r : Rewrite) (hks : Kept s0 s) : Kept s0
      (State.rewrite s d avoid r) := by
  unfold State.rewrite
  try dsimp only
  repeat' (first | with_reducible assumption | with_reducible refine K1.elim (kept_placeFrom _ _ _ _ _ _ ?_) ‹_› | with_reducible apply kept_placeFrom | simp only [Kept.mk3, Kept.mk4] | (intro _) | split)

theorem kept_retryRewrites {s0 : State} (s : State) (hks : Kept s0 s) : Kept s0 (State.retryRewrites s) := by
  unfold State.retryRewrites
  try dsimp only
  repeat' (first | with_reducible assumption | with_reducible apply kept_rewrite | with_reducible apply Kept.foldl | simp only [Kept.mk3, Kept.mk4] | (intro _) | split)

theorem kept_redoMoves {s0 : State} (s : State) (d : BoardDesc) (key : Nat) (b : Superblock) (hks : Kept s0 s) : Kept s0
      (State.redoMoves s d key b) := by
  unfold State.redoMoves
  try dsimp only
  repeat' (first | with_reducible assumption | with_reducible apply kept_startMove | with_reducible apply Kept.foldl | simp only [Kept.mk3, Kept.mk4] | (intro _) | split)

theorem kept_programFailed {s0 : State} (s : State) (d : BoardDesc) (op : FlashOp) (key first n : Nat) (avoid : List Nat) (hks
      : Kept s0 s) : Kept s0 (State.programFailed s d op key first n avoid) := by
  unfold State.programFailed
  try dsimp only
  repeat' (first | with_reducible assumption | with_reducible apply kept_updSb | with_reducible apply kept_retireBlock | with_reducible apply kept_rewrite | with_reducible apply kept_redoMoves | with_reducible apply K1.getD | simp only [Kept.mk3, Kept.mk4] | (intro _) | split)

end Sys2Proof.Machine
end

