-- ==== Sys2Proof/Laws/KeptFlash.lean ====
section
/-!
SUPPORT. What the operations of Machine/Flash.lean keep.
-/
set_option linter.unusedTactic false
set_option linter.unreachableTactic false
set_option linter.unusedVariables false
set_option linter.unusedSimpArgs false

namespace Sys2Proof.Machine

theorem kept_countReads {s0 : State} (s : State) (key die n : Nat) (hks : Kept s0 s) : Kept s0 (State.countReads s key die n)
      := by
  unfold State.countReads
  try dsimp only
  repeat' (first | with_reducible assumption | with_reducible apply kept_updSb | with_reducible apply kept_mediaBits | with_reducible apply K1.getD | simp only [Kept.mk3, Kept.mk4] | (intro _) | split)

theorem kept_countOps {s0 : State} (s : State) (die n : Nat) (hks : Kept s0 s) : Kept s0 (State.countOps s die n) := by
  unfold State.countOps
  try dsimp only
  repeat' (first | with_reducible assumption | with_reducible apply kept_updNfc | simp only [Kept.mk3, Kept.mk4] | (intro _) | split)

theorem kept_execFlashIssue {s0 : State} (die : Fin 256) (s : State) (hks : Kept s0 s) : OutKept s0 (execFlashIssue die s) := by
  unfold execFlashIssue
  try dsimp only
  repeat' (first | with_reducible assumption | with_reducible apply kept_updNfc | with_reducible apply kept_dropOp | with_reducible apply kept_finishErase | with_reducible apply kept_programFailed | with_reducible apply kept_countReads | with_reducible apply kept_countOps | with_reducible apply OutKept.next | exact OutKept.fault _ | exact OutKept.refused _ | with_reducible apply K1.getD | simp only [Kept.mk3, Kept.mk4] | (intro _) | split)

theorem kept_execEraseResume {s0 : State} (die : Fin 256) (s : State) (hks : Kept s0 s) : OutKept s0 (execEraseResume die s)
      := by
  unfold execEraseResume
  try dsimp only
  repeat' (first | with_reducible assumption | with_reducible apply OutKept.next | exact OutKept.fault _ | exact OutKept.refused _ | simp only [Kept.mk3, Kept.mk4] | (intro _) | split)

theorem kept_progFail {s0 : State} (s : State) (ch : Nat) (hks : Kept s0 s) : Kept s0 (State.progFail s ch) := by
  unfold State.progFail
  try dsimp only
  repeat' (first | with_reducible assumption | with_reducible apply kept_raise | with_reducible apply kept_updNfc | simp only [Kept.mk3, Kept.mk4] | (intro _) | split)

theorem kept_execFlashProgramDone {s0 : State} (k : Nat) (pass : Bool) (s : State) (hks : Kept s0 s) : OutKept s0
      (execFlashProgramDone k pass s) := by
  unfold execFlashProgramDone
  try dsimp only
  repeat' (first | with_reducible assumption | with_reducible apply kept_updSb | with_reducible apply kept_queueOp | with_reducible apply kept_retireBlock | with_reducible apply kept_dieOutcome | with_reducible apply kept_dropOp | with_reducible apply kept_bufferOnMedia | with_reducible apply kept_movesProgrammed | with_reducible apply kept_programFailed | with_reducible apply kept_progFail | with_reducible apply OutKept.next | exact OutKept.fault _ | exact OutKept.refused _ | with_reducible apply Kept.foldl | simp only [Kept.mk3, Kept.mk4] | (intro _) | split)

theorem kept_execFlashEraseDone {s0 : State} (k : Nat) (pass : Bool) (s : State) (hks : Kept s0 s) : OutKept s0
      (execFlashEraseDone k pass s) := by
  unfold execFlashEraseDone
  try dsimp only
  repeat' (first | with_reducible assumption | with_reducible apply kept_raise | with_reducible apply kept_retireBlock | with_reducible apply kept_dieOutcome | with_reducible apply kept_updNfc | with_reducible apply kept_dropOp | with_reducible apply kept_finishErase | with_reducible apply kept_retryRewrites | with_reducible apply OutKept.next | exact OutKept.fault _ | exact OutKept.refused _ | with_reducible apply K1.getD | simp only [Kept.mk3, Kept.mk4] | (intro _) | split)

theorem kept_countRung {s0 : State} (s : State) (r : Nat) (hks : Kept s0 s) : Kept s0 (State.countRung s r) := by
  unfold State.countRung
  try dsimp only
  repeat' (first | with_reducible assumption | with_reducible apply K1.getD | simp only [Kept.mk3, Kept.mk4] | (intro _) | split)

theorem kept_listSb {s0 : State} (s : State) (key : Nat) (hks : Kept s0 s) : Kept s0 (State.listSb s key) := by
  unfold State.listSb
  try dsimp only
  repeat' (first | with_reducible assumption | with_reducible apply kept_updSb | simp only [Kept.mk3, Kept.mk4] | (intro _) | split)

theorem kept_failBlock {s0 : State} (s : State) (tag : Tag) (block : Nat) (hks : Kept s0 s) : Kept s0 (State.failBlock s tag
      block) := by
  unfold State.failBlock
  try dsimp only
  repeat' (first | with_reducible assumption | with_reducible apply kept_updCmd | simp only [Kept.mk3, Kept.mk4] | (intro _) | split)

theorem kept_loseCodeword {s0 : State} (s : State) (key slot : Nat) (hks : Kept s0 s) : Kept s0 (State.loseCodeword s key
      slot) := by
  unfold State.loseCodeword
  try dsimp only
  repeat' (first | with_reducible assumption | with_reducible apply kept_offlineZone | with_reducible apply kept_updSb | simp only [Kept.mk3, Kept.mk4] | (intro _) | split)

theorem kept_scrubSettled {s0 : State} (s : State) (key : Nat) (hks : Kept s0 s) : Kept s0 (State.scrubSettled s key) := by
  unfold State.scrubSettled
  try dsimp only
  repeat' (first | with_reducible assumption | with_reducible apply kept_updSb | simp only [Kept.mk3, Kept.mk4] | (intro _) | split)

theorem kept_readSettled {s0 : State} (s : State) (k : Nat) (op : FlashOp) (rung : Nat) (hks : Kept s0 s) : Kept s0
      (State.readSettled s k op rung) := by
  unfold State.readSettled
  try dsimp only
  repeat' (first | with_reducible assumption | with_reducible apply kept_raise | with_reducible apply kept_dropOp | with_reducible apply kept_copySettled | with_reducible apply kept_countRung | with_reducible apply kept_listSb | with_reducible apply kept_failBlock | with_reducible apply kept_loseCodeword | with_reducible apply kept_scrubSettled | simp only [Kept.mk3, Kept.mk4] | (intro _) | split)

theorem kept_toSoft {s0 : State} (s : State) (k : Nat) (op : FlashOp) (hks : Kept s0 s) : Kept s0 (State.toSoft s k op) := by
  unfold State.toSoft
  try dsimp only
  repeat' (first | with_reducible assumption | with_reducible apply kept_countReads | with_reducible apply kept_countOps | simp only [Kept.mk3, Kept.mk4] | (intro _) | split)

theorem kept_execFlashReadDone {s0 : State} (k : Nat) (r : HardResult) (s : State) (hks : Kept s0 s) : OutKept s0
      (execFlashReadDone k r s) := by
  unfold execFlashReadDone
  try dsimp only
  repeat' (first | with_reducible assumption | with_reducible apply kept_raise | with_reducible apply kept_dieOutcome | with_reducible apply kept_countReads | with_reducible apply kept_countOps | with_reducible apply kept_listSb | with_reducible apply kept_readSettled | with_reducible apply kept_toSoft | with_reducible apply OutKept.next | exact OutKept.fault _ | exact OutKept.refused _ | simp only [Kept.mk3, Kept.mk4] | (intro _) | split)

theorem kept_execSoftDecode {s0 : State} (r : SoftResult) (s : State) (hks : Kept s0 s) : OutKept s0 (execSoftDecode r s) := by
  unfold execSoftDecode
  try dsimp only
  repeat' (first | with_reducible assumption | with_reducible apply kept_countReads | with_reducible apply kept_countOps | with_reducible apply kept_readSettled | with_reducible apply OutKept.next | exact OutKept.fault _ | exact OutKept.refused _ | simp only [Kept.mk3, Kept.mk4] | (intro _) | split)

theorem kept_rebuildReads {s0 : State} (s : State) (key die : Nat) (hks : Kept s0 s) : Kept s0 (State.rebuildReads s key die)
      := by
  unfold State.rebuildReads
  try dsimp only
  repeat' (first | with_reducible assumption | with_reducible apply kept_countReads | with_reducible apply kept_countOps | with_reducible apply Kept.foldl | simp only [Kept.mk3, Kept.mk4] | (intro _) | split)

theorem kept_execStripeParityRebuild {s0 : State} (k : Nat) (ok : Bool) (s : State) (hks : Kept s0 s) : OutKept s0
      (execStripeParityRebuild k ok s) := by
  unfold execStripeParityRebuild
  try dsimp only
  repeat' (first | with_reducible assumption | with_reducible apply kept_raise | with_reducible apply kept_retireBlock | with_reducible apply kept_readSettled | with_reducible apply kept_rebuildReads | with_reducible apply OutKept.next | exact OutKept.fault _ | exact OutKept.refused _ | with_reducible apply K1.getD | simp only [Kept.mk3, Kept.mk4] | (intro _) | split)

theorem kept_execMapJournalWrite {s0 : State} (s : State) (hks : Kept s0 s) : OutKept s0 (execMapJournalWrite s) := by
  unfold execMapJournalWrite
  try dsimp only
  repeat' (first | with_reducible assumption | with_reducible apply OutKept.next | exact OutKept.fault _ | exact OutKept.refused _ | simp only [Kept.mk3, Kept.mk4] | (intro _) | split)

theorem kept_execMapLineRequest {s0 : State} (line : Nat) (ws : List Walker) (s : State) (hks : Kept s0 s) : OutKept s0
      (execMapLineRequest line ws s) := by
  unfold execMapLineRequest
  try dsimp only
  repeat' (first | with_reducible assumption | with_reducible apply kept_lineRequest | with_reducible apply OutKept.next | exact OutKept.fault _ | exact OutKept.refused _ | with_reducible apply Kept.foldl | simp only [Kept.mk3, Kept.mk4] | (intro _) | split)

theorem kept_execMapLineRecall {s0 : State} (line : Nat) (s : State) (hks : Kept s0 s) : OutKept s0 (execMapLineRecall line s)
      := by
  unfold execMapLineRecall
  try dsimp only
  repeat' (first | with_reducible assumption | with_reducible apply OutKept.next | exact OutKept.fault _ | exact OutKept.refused _ | simp only [Kept.mk3, Kept.mk4] | (intro _) | split)

theorem kept_execWritebackDone {s0 : State} (line : Nat) (s : State) (hks : Kept s0 s) : OutKept s0 (execWritebackDone line s)
      := by
  unfold execWritebackDone
  try dsimp only
  repeat' (first | with_reducible assumption | with_reducible apply kept_grant | with_reducible apply kept_gcMoves | with_reducible apply OutKept.next | exact OutKept.fault _ | exact OutKept.refused _ | simp only [Kept.mk3, Kept.mk4] | (intro _) | split)

theorem kept_nandFailed {s0 : State} (s : State) (a0 : List (Byte × Nat)) (hks : Kept s0 s) : Kept s0 (State.nandFailed s a0)
      := by
  unfold State.nandFailed
  try dsimp only
  repeat' (first | with_reducible assumption | with_reducible apply kept_record | with_reducible apply kept_recover | with_reducible apply Kept.foldl | simp only [Kept.mk3, Kept.mk4] | (intro _) | split)

theorem kept_formSystem {s0 : State} (s : State) (d : BoardDesc) (rs : List TargetResult) (hks : Kept s0 s) : Kept s0
      (State.formSystem s d rs) := by
  unfold State.formSystem
  try dsimp only
  repeat' (first | with_reducible assumption | with_reducible apply kept_formSysSb | with_reducible apply kept_retireBlock | with_reducible apply Kept.foldl | simp only [Kept.mk3, Kept.mk4] | (intro _) | split)

theorem kept_nandPassed {s0 : State} (s : State) (d : BoardDesc) (rs : List TargetResult) (hks : Kept s0 s) : Kept s0
      (State.nandPassed s d rs) := by
  unfold State.nandPassed
  try dsimp only
  repeat' (first | with_reducible assumption | with_reducible apply kept_raise | with_reducible apply kept_record | with_reducible apply kept_judgeReadOnly | with_reducible apply kept_failDie | with_reducible apply kept_formSystem | exact hks.updNvm rfl rfl { NvmKept.rfl' s.nvm with cycles := Nat.le_add_right _ _ } rfl | with_reducible apply K1.getD | with_reducible apply Kept.foldl | simp only [Kept.mk3, Kept.mk4] | (intro _) | split)

theorem kept_execNandIdCheck {s0 : State} (rs : List TargetResult) (s : State) (hks : Kept s0 s) : OutKept s0 (execNandIdCheck
      rs s) := by
  unfold execNandIdCheck
  try dsimp only
  repeat' (first | with_reducible assumption | with_reducible apply kept_nandFailed | with_reducible apply kept_nandPassed | with_reducible apply OutKept.next | exact OutKept.fault _ | exact OutKept.refused _ | simp only [Kept.mk3, Kept.mk4] | (intro _) | split)

end Sys2Proof.Machine
end

