-- ==== Sys2Proof/Laws/KeptCopies.lean ====
section
/-!
SUPPORT. What the operations of Machine/Copies.lean keep.
-/
set_option linter.unusedTactic false
set_option linter.unreachableTactic false
set_option linter.unusedVariables false
set_option linter.unusedSimpArgs false

namespace Sys2Proof.Machine

theorem kept_execEddyFold {s0 : State} (s : State) (hks : Kept s0 s) : OutKept s0 (execEddyFold s) := by
  unfold execEddyFold
  try dsimp only
  repeat' (first | with_reducible assumption | with_reducible apply kept_startCopy | with_reducible apply OutKept.next | exact OutKept.fault _ | exact OutKept.refused _ | with_reducible apply Kept.foldl | simp only [Kept.mk3, Kept.mk4] | (intro _) | split)

theorem kept_execFoldMapUpdate {s0 : State} (s : State) (hks : Kept s0 s) : OutKept s0 (execFoldMapUpdate s) := by
  unfold execFoldMapUpdate
  try dsimp only
  repeat' (first | with_reducible assumption | with_reducible apply kept_applyMove | with_reducible apply OutKept.next | exact OutKept.fault _ | exact OutKept.refused _ | simp only [Kept.mk3, Kept.mk4] | (intro _) | split)

theorem kept_execRefresh {s0 : State} (key : Nat) (s : State) (hks : Kept s0 s) : OutKept s0 (execRefresh key s) := by
  unfold execRefresh
  try dsimp only
  repeat' (first | with_reducible assumption | with_reducible apply kept_updSb | with_reducible apply kept_startCopy | with_reducible apply OutKept.next | exact OutKept.fault _ | exact OutKept.refused _ | simp only [Kept.mk3, Kept.mk4] | (intro _) | split)

theorem kept_execScrub {s0 : State} (key : Nat) (s : State) (hks : Kept s0 s) : OutKept s0 (execScrub key s) := by
  unfold execScrub
  try dsimp only
  repeat' (first | with_reducible assumption | with_reducible apply kept_updSb | with_reducible apply kept_queueCodewords | with_reducible apply OutKept.next | exact OutKept.fault _ | exact OutKept.refused _ | simp only [Kept.mk3, Kept.mk4] | (intro _) | split)

theorem kept_execGarbageCollection {s0 : State} (group : Fin 16) (s : State) (hks : Kept s0 s) : OutKept s0
      (execGarbageCollection group s) := by
  unfold execGarbageCollection
  try dsimp only
  repeat' (first | with_reducible assumption | with_reducible apply kept_startCopy | with_reducible apply OutKept.next | exact OutKept.fault _ | exact OutKept.refused _ | simp only [Kept.mk3, Kept.mk4] | (intro _) | split)

theorem kept_ageMedia {s0 : State} (s : State) (ms : Nat) (hks : Kept s0 s) : Kept s0 (State.ageMedia s ms) := by
  unfold State.ageMedia
  try dsimp only
  repeat' (first | with_reducible assumption | with_reducible apply kept_mediaBits | simp only [Kept.mk3, Kept.mk4] | (intro _) | split)

end Sys2Proof.Machine
end

