-- ==== Sys2Proof/Laws/KeptQueue.lean ====
section
/-!
SUPPORT. What the operations of Machine/Queue.lean keep.
-/
set_option linter.unusedTactic false
set_option linter.unreachableTactic false
set_option linter.unusedVariables false
set_option linter.unusedSimpArgs false

namespace Sys2Proof.Machine

theorem kept_updQp {s0 : State} (s : State) (t : Tid) (q : Qid) (f : Qp → Qp) (hks : Kept s0 s) : Kept s0 (State.updQp s t q
      f) := by
  unfold State.updQp
  try dsimp only
  repeat' (first | with_reducible assumption | with_reducible apply kept_updTnt | simp only [Kept.mk3, Kept.mk4] | (intro _) | split)

theorem kept_hostTouch {s0 : State} (s : State) (hks : Kept s0 s) : Kept s0 (State.hostTouch s) := by
  unfold State.hostTouch
  try dsimp only
  repeat' (first | with_reducible assumption | simp only [Kept.mk3, Kept.mk4] | (intro _) | split)

theorem kept_doorbellErr {s0 : State} (s : State) (t : Tid) (cause : Byte) (addr : Word) (hks : Kept s0 s) : Kept s0
      (State.doorbellErr s t cause addr) := by
  unfold State.doorbellErr
  try dsimp only
  repeat' (first | with_reducible assumption | with_reducible apply kept_raise | with_reducible apply kept_raiseTnt | with_reducible apply kept_countErr | simp only [Kept.mk3, Kept.mk4] | (intro _) | split)

theorem kept_doorbell {s0 : State} (s : State) (v : DbView) (t : Tid) (q : Qid) (head : Bool) (val addr : Word) (hks : Kept s0
      s) : Kept s0 (State.doorbell s v t q head val addr) := by
  unfold State.doorbell
  try dsimp only
  repeat' (first | with_reducible assumption | with_reducible apply kept_countErr | with_reducible apply kept_updQp | with_reducible apply kept_doorbellErr | simp only [Kept.mk3, Kept.mk4] | (intro _) | split)

theorem kept_execSubmissionTailDoorbell {s0 : State} (v : DbView) (q : Qid) (be : BitVec 4) (val : Word) (s : State) (hks :
      Kept s0 s) : OutKept s0 (execSubmissionTailDoorbell v q be val s) := by
  unfold execSubmissionTailDoorbell
  try dsimp only
  repeat' (first | with_reducible assumption | with_reducible apply kept_countErr | with_reducible apply kept_hostTouch | with_reducible apply kept_doorbell | with_reducible apply OutKept.next | exact OutKept.fault _ | exact OutKept.refused _ | simp only [Kept.mk3, Kept.mk4] | (intro _) | split)

theorem kept_execCompletionHeadDoorbell {s0 : State} (v : DbView) (q : Qid) (be : BitVec 4) (val : Word) (s : State) (hks :
      Kept s0 s) : OutKept s0 (execCompletionHeadDoorbell v q be val s) := by
  unfold execCompletionHeadDoorbell
  try dsimp only
  repeat' (first | with_reducible assumption | with_reducible apply kept_countErr | with_reducible apply kept_hostTouch | with_reducible apply kept_doorbell | with_reducible apply OutKept.next | exact OutKept.fault _ | exact OutKept.refused _ | simp only [Kept.mk3, Kept.mk4] | (intro _) | split)

theorem kept_sendData {s0 : State} (s : State) (c : Cmd) (off : Nat) (b : List Byte) (ep : Bool) (hks : Kept s0 s) : Kept s0
      (State.sendData s c off b ep) := by
  unfold State.sendData
  try dsimp only
  repeat' (first | with_reducible assumption | with_reducible apply kept_emit | with_reducible apply Kept.foldl | simp only [Kept.mk3, Kept.mk4] | (intro _) | split)

theorem kept_sendPlain {s0 : State} (s : State) (c : Cmd) (addr : DWord) (b : List Byte) (hks : Kept s0 s) : Kept s0
      (State.sendPlain s c addr b) := by
  unfold State.sendPlain
  try dsimp only
  repeat' (first | with_reducible assumption | with_reducible apply kept_emit | simp only [Kept.mk3, Kept.mk4] | (intro _) | split)

theorem kept_readHost {s0 : State} (s : State) (c : Cmd) (hks : Kept s0 s) : Kept s0 (State.readHost s c) := by
  unfold State.readHost
  try dsimp only
  repeat' (first | with_reducible assumption | with_reducible apply kept_emit | with_reducible apply Kept.foldl | simp only [Kept.mk3, Kept.mk4] | (intro _) | split)

theorem kept_startReads {s0 : State} (s : State) (c : Cmd) (hks : Kept s0 s) : Kept s0 (State.startReads s c) := by
  unfold State.startReads
  try dsimp only
  repeat' (first | with_reducible assumption | with_reducible apply kept_emit | with_reducible apply kept_readHost | simp only [Kept.mk3, Kept.mk4] | (intro _) | split)

theorem kept_finish {s0 : State} (s : State) (tag : Tag) (st : Byte) (rc : Byte) (result : DWord) (hks : Kept s0 s) : Kept s0
      (State.finish s tag st rc result) := by
  unfold State.finish
  try dsimp only
  repeat' (first | with_reducible assumption | with_reducible apply kept_updCmd | simp only [Kept.mk3, Kept.mk4] | (intro _) | split)

theorem kept_fetchOne {s0 : State} (s : State) (t : Tid) (q : Qid) (f : FetchedDesc) (hks : Kept s0 s) : Kept s0
      (State.fetchOne s t q f) := by
  unfold State.fetchOne
  try dsimp only
  repeat' (first | with_reducible assumption | with_reducible apply kept_emit | with_reducible apply kept_poisonReceived | with_reducible apply kept_updQp | with_reducible apply kept_startReads | simp only [Kept.mk3, Kept.mk4] | (intro _) | split)

theorem kept_fetchTurn {s0 : State} (s : State) (t : Tid) (q : Qid) (n : Nat) (l : List FetchedDesc) (hks : Kept s0 s) :
    Kept s0 (State.fetchTurn s t q n l) := by
  induction n generalizing s l with
  | zero => simp only [State.fetchTurn]; exact hks
  | succ n ih =>
    cases l with
    | nil => simp only [State.fetchTurn]; exact hks
    | cons f r =>
      simp only [State.fetchTurn]
      split
      · exact ih _ _ (kept_fetchOne _ _ _ _ hks)
      · exact hks

theorem kept_execDescriptorFetch {s0 : State} (ds : List FetchedDesc) (s : State) (hks : Kept s0 s) : OutKept s0
      (execDescriptorFetch ds s) := by
  unfold execDescriptorFetch
  try dsimp only
  repeat' (first | with_reducible assumption | with_reducible apply kept_updTnt | with_reducible apply kept_fetchTurn | with_reducible apply OutKept.next | exact OutKept.fault _ | exact OutKept.refused _ | simp only [Kept.mk3, Kept.mk4] | (intro _) | split)

theorem kept_execHostReadCompletion {s0 : State} (tag : Tag) (buf : HostBuf) (off : Nat) (b : List Byte) (ep : Bool) (s :
      State) (hks : Kept s0 s) : OutKept s0 (execHostReadCompletion tag buf off b ep s) := by
  unfold execHostReadCompletion
  try dsimp only
  repeat' (first | with_reducible assumption | with_reducible apply kept_emit | with_reducible apply kept_poisonReceived | with_reducible apply kept_updCmd | with_reducible apply kept_readHost | with_reducible apply kept_finish | with_reducible apply OutKept.next | exact OutKept.fault _ | exact OutKept.refused _ | simp only [Kept.mk3, Kept.mk4] | (intro _) | split)

theorem kept_timedOut {s0 : State} (s : State) (fn : Fn) (hks : Kept s0 s) : Kept s0 (State.timedOut s fn) := by
  unfold State.timedOut
  try dsimp only
  repeat' (first | with_reducible assumption | with_reducible apply kept_raise | with_reducible apply kept_aerAdvisory | simp only [Kept.mk3, Kept.mk4] | (intro _) | split)

theorem kept_staleTimeout {s0 : State} (s : State) (rtag : Nat) (hks : Kept s0 s) : Kept s0 (State.staleTimeout s rtag) := by
  unfold State.staleTimeout
  try dsimp only
  repeat' (first | with_reducible assumption | with_reducible apply kept_timedOut | simp only [Kept.mk3, Kept.mk4] | (intro _) | split)

theorem kept_execCompletionTimeout {s0 : State} (tag : Tag) (why : ReadFailure) (s : State) (hks : Kept s0 s) : OutKept s0
      (execCompletionTimeout tag why s) := by
  unfold execCompletionTimeout
  try dsimp only
  repeat' (first | with_reducible assumption | with_reducible apply kept_updCmd | with_reducible apply kept_finish | with_reducible apply kept_timedOut | with_reducible apply kept_staleTimeout | with_reducible apply OutKept.next | exact OutKept.fault _ | exact OutKept.refused _ | simp only [Kept.mk3, Kept.mk4] | (intro _) | split)

theorem kept_runOp {s0 : State} (s : State) (tag : Tag) (opc : Nat) (p : Desc → Bool) (f : Cmd → State) (hf : ∀ v0, Kept s0 (f
      v0)) (hks : Kept s0 s) : Kept s0 (State.runOp s tag opc p f) := by
  unfold State.runOp
  try dsimp only
  repeat' (first | with_reducible assumption | with_reducible apply kept_finish | with_reducible apply hf | simp only [Kept.mk3, Kept.mk4] | (intro _) | split)

end Sys2Proof.Machine
end

