-- ==== Sys2Proof/Laws/KeptCipher.lean ====
section
/-!
SUPPORT. What the operations of Machine/Cipher.lean keep.
-/
set_option linter.unusedTactic false
set_option linter.unreachableTactic false
set_option linter.unusedVariables false
set_option linter.unusedSimpArgs false

namespace Sys2Proof.Machine

theorem kept_updPipe {s0 : State} (s : State) (p : Pipe) (f : PipeS → PipeS) (hks : Kept s0 s) : Kept s0 (State.updPipe s p f)
      := by
  unfold State.updPipe
  try dsimp only
  repeat' (first | with_reducible assumption | simp only [Kept.mk3, Kept.mk4] | (intro _) | split)

theorem kept_enterPipe {s0 : State} (s : State) (p : Pipe) (t : Tid) (epoch : Byte) (tag : Tag) (n : Nat) (hks : Kept s0 s) :
      Kept s0 (State.enterPipe s p t epoch tag n) := by
  unfold State.enterPipe
  try dsimp only
  repeat' (first | with_reducible assumption | with_reducible apply kept_updPipe | with_reducible apply Kept.foldl | simp only [Kept.mk3, Kept.mk4] | (intro _) | split)

theorem kept_leavePipe {s0 : State} (s : State) (p : Pipe) (tag : Tag) (hks : Kept s0 s) : Kept s0 (State.leavePipe s p tag)
      := by
  unfold State.leavePipe
  try dsimp only
  repeat' (first | with_reducible assumption | with_reducible apply kept_updPipe | simp only [Kept.mk3, Kept.mk4] | (intro _) | split)

theorem kept_drawMasks {s0 : State} (s : State) (p : Pipe) (n : Nat) (hks : Kept s0 s) : K1 s0 (State.drawMasks s p n) := by
  unfold State.drawMasks
  try dsimp only
  repeat' (first | with_reducible assumption | with_reducible apply K1.none | with_reducible apply K1.some | simp only [Kept.mk3, Kept.mk4] | (intro _) | split)

theorem kept_maskStall {s0 : State} (s : State) (p : Pipe) (tag : Tag) (hks : Kept s0 s) : Kept s0 (State.maskStall s p tag)
      := by
  unfold State.maskStall
  try dsimp only
  repeat' (first | with_reducible assumption | with_reducible apply kept_updCmd | with_reducible apply kept_updPipe | simp only [Kept.mk3, Kept.mk4] | (intro _) | split)

theorem kept_fenceLinks {s0 : State} (s : State) (p : Pipe) (hks : Kept s0 s) : Kept s0 (State.fenceLinks s p) := by
  unfold State.fenceLinks
  try dsimp only
  repeat' (first | with_reducible assumption | with_reducible apply kept_linksDown | with_reducible apply kept_mirLeave | simp only [Kept.mk3, Kept.mk4] | (intro _) | split)

theorem kept_undoOpen {s0 : State} (s : State) (cs : List Cmd) (hks : Kept s0 s) : Kept s0 (State.undoOpen s cs) := by
  unfold State.undoOpen
  try dsimp only
  repeat' (first | with_reducible assumption | with_reducible apply kept_updZone | with_reducible apply Kept.foldl | simp only [Kept.mk3, Kept.mk4] | (intro _) | split)

theorem kept_failPipe {s0 : State} (s : State) (p : Pipe) (st : Byte) (rc : Byte) (hks : Kept s0 s) : Kept s0 (State.failPipe
      s p st rc) := by
  unfold State.failPipe
  try dsimp only
  repeat' (first | with_reducible assumption | with_reducible apply kept_freeBuf | with_reducible apply kept_updPipe | with_reducible apply kept_undoOpen | with_reducible apply Kept.foldl | simp only [Kept.mk3, Kept.mk4] | (intro _) | split)

theorem kept_fencePipe {s0 : State} (s : State) (p : Pipe) (rc : Byte) (stage : Nat) (tenant : Byte) (tag : Nat) (n : Nat)
      (hks : Kept s0 s) : Kept s0 (State.fencePipe s p rc stage tenant tag n) := by
  unfold State.fencePipe
  try dsimp only
  repeat' (first | with_reducible assumption | with_reducible apply kept_raiseRec | with_reducible apply kept_updPipe | with_reducible apply kept_fenceLinks | with_reducible apply kept_failPipe | simp only [Kept.mk3, Kept.mk4] | (intro _) | split)

theorem kept_remask {s0 : State} (s : State) (p : Pipe) (n : Nat) (hks : Kept s0 s) : Kept s0 (State.remask s p n) := by
  unfold State.remask
  try dsimp only
  repeat' (first | with_reducible assumption | with_reducible apply kept_updPipe | with_reducible refine K1.elim (kept_drawMasks _ _ _ ?_) ‹_› | with_reducible apply kept_drawMasks | simp only [Kept.mk3, Kept.mk4] | (intro _) | split)

theorem kept_execParityMismatch {s0 : State} (p : Pipe) (stage : Fin 28) (s : State) (hks : Kept s0 s) : OutKept s0
      (execParityMismatch p stage s) := by
  unfold execParityMismatch
  try dsimp only
  repeat' (first | with_reducible assumption | with_reducible apply kept_raise | with_reducible apply kept_raiseRec | with_reducible apply kept_updPipe | with_reducible apply kept_fencePipe | with_reducible apply kept_remask | with_reducible apply OutKept.next | exact OutKept.fault _ | exact OutKept.refused _ | simp only [Kept.mk3, Kept.mk4] | (intro _) | split)

theorem kept_execMaskStarved {s0 : State} (p : Pipe) (s : State) (hks : Kept s0 s) : OutKept s0 (execMaskStarved p s) := by
  unfold execMaskStarved
  try dsimp only
  repeat' (first | with_reducible assumption | with_reducible apply kept_raise | with_reducible apply kept_updPipe | with_reducible apply kept_fencePipe | with_reducible apply OutKept.next | exact OutKept.fault _ | exact OutKept.refused _ | simp only [Kept.mk3, Kept.mk4] | (intro _) | split)

theorem kept_drbg {s0 : State} (s : State) (hks : Kept s0 s) : K2 s0 (State.drbg s) := by
  unfold State.drbg
  try dsimp only
  repeat' (first | with_reducible assumption | with_reducible apply kept_drawn | with_reducible apply K2.none | with_reducible apply K2.some | with_reducible apply K2.findSome | simp only [Kept.mk3, Kept.mk4] | (intro _) | split)

theorem kept_endStall {s0 : State} (s : State) (p : Pipe) (hks : Kept s0 s) : Kept s0 (State.endStall s p) := by
  unfold State.endStall
  try dsimp only
  repeat' (first | with_reducible assumption | with_reducible apply kept_raise | with_reducible apply kept_updPipe | simp only [Kept.mk3, Kept.mk4] | (intro _) | split)

theorem kept_execLaneReseed {s0 : State} (lane : Fin 112) (s : State) (hks : Kept s0 s) : OutKept s0 (execLaneReseed lane s)
      := by
  unfold execLaneReseed
  try dsimp only
  repeat' (first | with_reducible assumption | with_reducible refine K2.elim (kept_drbg _ ?_) ‹_› | with_reducible apply kept_drbg | with_reducible apply kept_endStall | with_reducible apply OutKept.next | exact OutKept.fault _ | exact OutKept.refused _ | simp only [Kept.mk3, Kept.mk4] | (intro _) | split)

theorem kept_execDrbgReseed {s0 : State} (s : State) (hks : Kept s0 s) : OutKept s0 (execDrbgReseed s) := by
  unfold execDrbgReseed
  try dsimp only
  repeat' (first | with_reducible assumption | with_reducible refine K2.elim (kept_drbg _ ?_) ‹_› | with_reducible apply kept_drbg | with_reducible apply OutKept.next | exact OutKept.fault _ | exact OutKept.refused _ | simp only [Kept.mk3, Kept.mk4] | (intro _) | split)

theorem kept_execHealthTestFailure {s0 : State} (test : HealthTest) (s : State) (hks : Kept s0 s) : OutKept s0
      (execHealthTestFailure test s) := by
  unfold execHealthTestFailure
  try dsimp only
  repeat' (first | with_reducible assumption | with_reducible apply kept_raise | with_reducible apply kept_raiseRec | with_reducible refine K2.elim (kept_drbg _ ?_) ‹_› | with_reducible apply kept_drbg | with_reducible apply OutKept.next | exact OutKept.fault _ | exact OutKept.refused _ | simp only [Kept.mk3, Kept.mk4] | (intro _) | split)

theorem kept_zeroise {s0 : State} (s : State) (t : Tid) (hks : Kept s0 s) : Kept s0 (State.zeroise s t) := by
  unfold State.zeroise
  try dsimp only
  repeat' (first | with_reducible assumption | with_reducible apply kept_updTnt | simp only [Kept.mk3, Kept.mk4] | (intro _) | split)

theorem kept_zeroiseAll {s0 : State} (s : State) (hks : Kept s0 s) : Kept s0 (State.zeroiseAll s) := by
  unfold State.zeroiseAll
  try dsimp only
  repeat' (first | with_reducible assumption | simp only [Kept.mk3, Kept.mk4] | (intro _) | split)

theorem kept_loadKey {s0 : State} (s : State) (t : Tid) (a0 : Unwrapped) (hks : Kept s0 s) : Kept s0 (State.loadKey s t a0) :=
      by
  unfold State.loadKey
  try dsimp only
  repeat' (first | with_reducible assumption | with_reducible apply kept_updTnt | simp only [Kept.mk3, Kept.mk4] | (intro _) | split)

theorem kept_reloadKeys {s0 : State} (s : State) (t : Tid) (hks : Kept s0 s) : Kept s0 (State.reloadKeys s t) := by
  unfold State.reloadKeys
  try dsimp only
  repeat' (first | with_reducible assumption | with_reducible apply kept_loadKey | simp only [Kept.mk3, Kept.mk4] | (intro _) | split)

theorem kept_dropPersisted {s0 : State} (s : State) (t : Tid) (x g : Bool) (hks : Kept s0 s) : Kept s0 (State.dropPersisted s
      t x g) := by
  unfold State.dropPersisted
  try dsimp only
  repeat' (first | with_reducible assumption | simp only [Kept.mk3, Kept.mk4] | (intro _) | split)

theorem kept_applyKey {s0 : State} (s : State) (t : Tid) (a0 : KeyChange) (hks : Kept s0 s) : Kept s0 (State.applyKey s t a0)
      := by
  unfold State.applyKey
  try dsimp only
  repeat' (first | with_reducible assumption | with_reducible apply kept_updTnt | with_reducible apply kept_raiseTnt | with_reducible apply kept_finish | with_reducible apply kept_loadKey | with_reducible apply kept_dropPersisted | simp only [Kept.mk3, Kept.mk4] | (intro _) | split)

theorem kept_queueKey {s0 : State} (s : State) (t : Tid) (tag : Tag) (k : KeyChange) (hks : Kept s0 s) : Kept s0
      (State.queueKey s t tag k) := by
  unfold State.queueKey
  try dsimp only
  repeat' (first | with_reducible assumption | with_reducible apply kept_updTnt | with_reducible apply kept_updCmd | simp only [Kept.mk3, Kept.mk4] | (intro _) | split)

theorem kept_execKeyLoad {s0 : State} (tag : Tag) (s : State) (hks : Kept s0 s) : OutKept s0 (execKeyLoad tag s) := by
  unfold execKeyLoad
  try dsimp only
  repeat' (first | with_reducible assumption | with_reducible apply kept_raise | with_reducible apply kept_finish | with_reducible apply kept_runOp | with_reducible refine K1.elim (kept_drawMasks _ _ _ ?_) ‹_› | with_reducible apply kept_drawMasks | with_reducible apply kept_maskStall | with_reducible apply kept_queueKey | with_reducible apply OutKept.next | exact OutKept.fault _ | exact OutKept.refused _ | with_reducible apply K1.getD | simp only [Kept.mk3, Kept.mk4] | (intro _) | split)

theorem kept_execKeyClear {s0 : State} (tag : Tag) (s : State) (hks : Kept s0 s) : OutKept s0 (execKeyClear tag s) := by
  unfold execKeyClear
  try dsimp only
  repeat' (first | with_reducible assumption | with_reducible apply kept_runOp | with_reducible apply kept_queueKey | with_reducible apply OutKept.next | exact OutKept.fault _ | exact OutKept.refused _ | simp only [Kept.mk3, Kept.mk4] | (intro _) | split)

theorem kept_execKeyPageChange {s0 : State} (t : Tid) (s : State) (hks : Kept s0 s) : OutKept s0 (execKeyPageChange t s) := by
  unfold execKeyPageChange
  try dsimp only
  repeat' (first | with_reducible assumption | with_reducible apply kept_updTnt | with_reducible apply kept_applyKey | with_reducible apply OutKept.next | exact OutKept.fault _ | exact OutKept.refused _ | simp only [Kept.mk3, Kept.mk4] | (intro _) | split)

end Sys2Proof.Machine
end

