-- ==== Sys2Proof/Laws/KeptData.lean ====
section
/-!
SUPPORT. What the operations of Machine/Data.lean keep.
-/
set_option linter.unusedTactic false
set_option linter.unreachableTactic false
set_option linter.unusedVariables false
set_option linter.unusedSimpArgs false

namespace Sys2Proof.Machine

theorem kept_countDirty {s0 : State} (s : State) (hs : List Nat) (hks : Kept s0 s) : Kept s0 (State.countDirty s hs) := by
  unfold State.countDirty
  try dsimp only
  repeat' (first | with_reducible assumption | with_reducible apply kept_updBufs | simp only [Kept.mk3, Kept.mk4] | (intro _) | split)

theorem kept_execWrite {s0 : State} (tag : Tag) (s : State) (hks : Kept s0 s) : OutKept s0 (execWrite tag s) := by
  unfold execWrite
  try dsimp only
  repeat' (first | with_reducible assumption | with_reducible apply kept_updCmd | with_reducible apply kept_pause | with_reducible refine K2.elim (kept_allocAll _ _ _ ?_) ‹_› | with_reducible apply kept_allocAll | with_reducible apply kept_finish | with_reducible apply kept_runOp | with_reducible apply kept_enterPipe | with_reducible refine K1.elim (kept_drawMasks _ _ _ ?_) ‹_› | with_reducible apply kept_drawMasks | with_reducible apply kept_maskStall | with_reducible apply OutKept.next | exact OutKept.fault _ | exact OutKept.refused _ | simp only [Kept.mk3, Kept.mk4] | (intro _) | split)

theorem kept_placeWrite {s0 : State} (s : State) (d : BoardDesc) (tag : Tag) (c : Cmd) (hks : Kept s0 s) : Kept s0
      (State.placeWrite s d tag c) := by
  unfold State.placeWrite
  try dsimp only
  repeat' (first | with_reducible assumption | with_reducible apply kept_updCmd | with_reducible apply kept_updBuf | with_reducible refine K1.elim (kept_placeIn _ _ _ _ _ ?_) ‹_› | with_reducible apply kept_placeIn | with_reducible apply kept_journalLag | with_reducible apply kept_leavePipe | with_reducible apply Kept.foldl | simp only [Kept.mk3, Kept.mk4] | (intro _) | split)

theorem kept_placeAppend {s0 : State} (s : State) (d : BoardDesc) (tag : Tag) (c : Cmd) (hks : Kept s0 s) : Kept s0
      (State.placeAppend s d tag c) := by
  unfold State.placeAppend
  try dsimp only
  repeat' (first | with_reducible assumption | with_reducible apply kept_updCmd | with_reducible apply kept_updBuf | with_reducible refine K1.elim (kept_placeIn _ _ _ _ _ ?_) ‹_› | with_reducible apply kept_placeIn | with_reducible apply kept_journalLag | with_reducible apply Kept.foldl | simp only [Kept.mk3, Kept.mk4] | (intro _) | split)

theorem kept_execBufferPlacement {s0 : State} (tag : Tag) (s : State) (hks : Kept s0 s) : OutKept s0 (execBufferPlacement tag
      s) := by
  unfold execBufferPlacement
  try dsimp only
  repeat' (first | with_reducible assumption | with_reducible apply kept_retryRewrites | with_reducible apply kept_placeWrite | with_reducible apply kept_placeAppend | with_reducible apply OutKept.next | exact OutKept.fault _ | exact OutKept.refused _ | simp only [Kept.mk3, Kept.mk4] | (intro _) | split)

theorem kept_queueReads {s0 : State} (s : State) (d : BoardDesc) (tag : Tag) (items : List (Nat × (Piece → Option Nat))) (hks
      : Kept s0 s) : Kept s0 (State.queueReads s d tag items) := by
  unfold State.queueReads
  try dsimp only
  repeat' (first | with_reducible assumption | with_reducible apply kept_queueOp | with_reducible apply Kept.foldl | simp only [Kept.mk3, Kept.mk4] | (intro _) | split)

theorem kept_startRead {s0 : State} (s : State) (tag : Tag) (c : Cmd) (p : Pipe) (n : Nat) (m : Nat) (reads : List (Nat ×
      (Piece → Option Nat))) (hks : Kept s0 s) : Kept s0 (State.startRead s tag c p n m reads) := by
  unfold State.startRead
  try dsimp only
  repeat' (first | with_reducible assumption | with_reducible apply kept_updCmd | with_reducible apply kept_pause | with_reducible refine K2.elim (kept_allocAll _ _ _ ?_) ‹_› | with_reducible apply kept_allocAll | with_reducible apply kept_enterPipe | with_reducible refine K1.elim (kept_drawMasks _ _ _ ?_) ‹_› | with_reducible apply kept_drawMasks | with_reducible apply kept_maskStall | with_reducible apply kept_queueReads | simp only [Kept.mk3, Kept.mk4] | (intro _) | split)

theorem kept_beginRead {s0 : State} (s : State) (tag : Tag) (c : Cmd) (hks : Kept s0 s) : Kept s0 (State.beginRead s tag c) :=
      by
  unfold State.beginRead
  try dsimp only
  repeat' (first | with_reducible assumption | with_reducible apply kept_finish | with_reducible apply kept_startRead | with_reducible apply Kept.foldl | simp only [Kept.mk3, Kept.mk4] | (intro _) | split)

theorem kept_execRead {s0 : State} (tag : Tag) (s : State) (hks : Kept s0 s) : OutKept s0 (execRead tag s) := by
  unfold execRead
  try dsimp only
  repeat' (first | with_reducible assumption | with_reducible apply kept_runOp | with_reducible apply kept_beginRead | with_reducible apply OutKept.next | exact OutKept.fault _ | exact OutKept.refused _ | simp only [Kept.mk3, Kept.mk4] | (intro _) | split)

theorem kept_execVerify {s0 : State} (tag : Tag) (s : State) (hks : Kept s0 s) : OutKept s0 (execVerify tag s) := by
  unfold execVerify
  try dsimp only
  repeat' (first | with_reducible assumption | with_reducible apply kept_finish | with_reducible apply kept_runOp | with_reducible apply kept_beginRead | with_reducible apply OutKept.next | exact OutKept.fault _ | exact OutKept.refused _ | simp only [Kept.mk3, Kept.mk4] | (intro _) | split)

theorem kept_sendAppends {s0 : State} (s : State) (c : Cmd) (z : Zone) (id : Nat) (key : Hash × Word) (base i : Nat) (l : List
      AppRec)
    (hks : Kept s0 s) : K4 s0 (State.sendAppends s c z id key base i l) := by
  induction l generalizing s i with
  | nil => exact ⟨hks⟩
  | cons e r ih =>
    unfold State.sendAppends
    dsimp only
    split
    · exact ⟨hks⟩
    · refine ⟨(ih _ _ ?_).fst⟩
      repeat' (first | with_reducible assumption | with_reducible apply kept_sendPlain | with_reducible apply kept_sendData | split)

theorem kept_endRead {s0 : State} (s : State) (tag : Tag) (c : Cmd) (hks : Kept s0 s) : Kept s0 (State.endRead s tag c) := by
  unfold State.endRead
  try dsimp only
  repeat' (first | with_reducible assumption | with_reducible apply kept_updCmd | with_reducible apply kept_freeBufs | with_reducible apply kept_sendData | with_reducible apply kept_finish | with_reducible apply kept_leavePipe | with_reducible apply K4.fst; with_reducible apply kept_sendAppends | with_reducible refine K4.elim (kept_sendAppends _ _ _ _ _ _ _ _ ?_) ‹_› | with_reducible apply kept_sendAppends | with_reducible apply Kept.foldl | simp only [Kept.mk3, Kept.mk4] | (intro _) | split)

theorem kept_execFlush {s0 : State} (tag : Tag) (s : State) (hks : Kept s0 s) : OutKept s0 (execFlush tag s) := by
  unfold execFlush
  try dsimp only
  repeat' (first | with_reducible assumption | with_reducible apply kept_updCmd | with_reducible apply kept_runOp | with_reducible apply OutKept.next | exact OutKept.fault _ | exact OutKept.refused _ | simp only [Kept.mk3, Kept.mk4] | (intro _) | split)

theorem kept_execTrim {s0 : State} (tag : Tag) (s : State) (hks : Kept s0 s) : OutKept s0 (execTrim tag s) := by
  unfold execTrim
  try dsimp only
  repeat' (first | with_reducible assumption | with_reducible apply kept_updCmd | with_reducible apply kept_journalLines | with_reducible apply kept_finish | with_reducible apply kept_runOp | with_reducible apply OutKept.next | exact OutKept.fault _ | exact OutKept.refused _ | simp only [Kept.mk3, Kept.mk4] | (intro _) | split)

theorem kept_removeDrained {s0 : State} (s : State) (t : Tid) (q : Qid) (hks : Kept s0 s) : Kept s0 (State.removeDrained s t
      q) := by
  unfold State.removeDrained
  try dsimp only
  repeat' (first | with_reducible assumption | with_reducible apply kept_updInta | with_reducible apply kept_updQp | simp only [Kept.mk3, Kept.mk4] | (intro _) | split)

theorem kept_revertBlocks {s0 : State} (s : State) (c : Cmd) (hks : Kept s0 s) : Kept s0 (State.revertBlocks s c) := by
  unfold State.revertBlocks
  try dsimp only
  repeat' (first | with_reducible assumption | with_reducible apply Kept.foldl | simp only [Kept.mk3, Kept.mk4] | (intro _) | split)

theorem kept_forgetOld {s0 : State} (s : State) (c : Cmd) (hks : Kept s0 s) : Kept s0 (State.forgetOld s c) := by
  unfold State.forgetOld
  try dsimp only
  repeat' (first | with_reducible assumption | simp only [Kept.mk3, Kept.mk4] | (intro _) | split)

theorem kept_endUnstored {s0 : State} (s : State) (tag : Tag) (c : Cmd) (st rc : Byte) (r : DWord) (hks : Kept s0 s) : Kept s0
      (State.endUnstored s tag c st rc r) := by
  unfold State.endUnstored
  try dsimp only
  repeat' (first | with_reducible assumption | with_reducible apply kept_updCmd | with_reducible apply kept_freeBuf | with_reducible apply kept_freeBufs | with_reducible apply kept_dropAppends | with_reducible apply kept_finish | with_reducible apply kept_leavePipe | with_reducible apply kept_undoOpen | with_reducible apply kept_revertBlocks | with_reducible apply Kept.foldl | simp only [Kept.mk3, Kept.mk4] | (intro _) | split)

theorem kept_endAtLevel {s0 : State} (s : State) (tag : Tag) (c : Cmd) (hks : Kept s0 s) : Kept s0 (State.endAtLevel s tag c)
      := by
  unfold State.endAtLevel
  try dsimp only
  repeat' (first | with_reducible assumption | with_reducible apply kept_endUnstored | simp only [Kept.mk3, Kept.mk4] | (intro _) | split)

theorem kept_settle {s0 : State} (s : State) (tag : Tag) (hks : Kept s0 s) : Kept s0 (State.settle s tag) := by
  unfold State.settle
  try dsimp only
  repeat' (first | with_reducible assumption | with_reducible apply kept_meterIn | with_reducible apply kept_finish | with_reducible apply kept_countDirty | with_reducible apply kept_endRead | with_reducible apply kept_removeDrained | with_reducible apply kept_forgetOld | with_reducible apply kept_endUnstored | with_reducible apply kept_endAtLevel | simp only [Kept.mk3, Kept.mk4] | (intro _) | split)

theorem kept_freeTagOf {s0 : State} (s : State) (tag : Tag) (hks : Kept s0 s) : Kept s0 (State.freeTagOf s tag) := by
  unfold State.freeTagOf
  try dsimp only
  repeat' (first | with_reducible assumption | simp only [Kept.mk3, Kept.mk4] | (intro _) | split)

theorem kept_dropEntries {s0 : State} (s : State) (fn : Fn) (n : Nat) (hks : Kept s0 s) : Kept s0 (State.dropEntries s fn n)
      := by
  unfold State.dropEntries
  try dsimp only
  repeat' (first | with_reducible assumption | simp only [Kept.mk3, Kept.mk4] | (intro _) | split)

theorem kept_writeEntry {s0 : State} (s : State) (tag : Tag) (c : Cmd) (st : Byte) (rc : Byte) (r : DWord) (marked : Bool)
      (hks : Kept s0 s) : Kept s0 (State.writeEntry s tag c st rc r marked) := by
  unfold State.writeEntry
  try dsimp only
  repeat' (first | with_reducible assumption | with_reducible apply kept_emit | with_reducible apply kept_raiseTnt | with_reducible apply kept_updQp | with_reducible apply kept_removeDrained | with_reducible apply kept_freeTagOf | with_reducible apply kept_dropEntries | simp only [Kept.mk3, Kept.mk4] | (intro _) | split)

theorem kept_execCompletionEntryWrite {s0 : State} (tag : Tag) (s : State) (hks : Kept s0 s) : OutKept s0
      (execCompletionEntryWrite tag s) := by
  unfold execCompletionEntryWrite
  try dsimp only
  repeat' (first | with_reducible assumption | with_reducible apply kept_settle | with_reducible apply kept_freeTagOf | with_reducible apply kept_dropEntries | with_reducible apply kept_writeEntry | with_reducible apply OutKept.next | exact OutKept.fault _ | exact OutKept.refused _ | simp only [Kept.mk3, Kept.mk4] | (intro _) | split)

end Sys2Proof.Machine
end

