-- ==== Sys2Proof/Laws/KeptAppend.lean ====
section
/-!
SUPPORT. What the operations of Machine/Append.lean keep.
-/
set_option linter.unusedTactic false
set_option linter.unreachableTactic false
set_option linter.unusedVariables false
set_option linter.unusedSimpArgs false

namespace Sys2Proof.Machine

theorem kept_appendEnter {s0 : State} (s : State) (tag : Tag) (c : Cmd) (z : Zone) (key : Hash × Word) (n : Nat) (hks : Kept
      s0 s) : Kept s0 (State.appendEnter s tag c z key n) := by
  unfold State.appendEnter
  try dsimp only
  repeat' (first | with_reducible assumption | with_reducible apply kept_updCmd | with_reducible apply kept_updZone | with_reducible apply kept_pause | with_reducible refine K2.elim (kept_allocAll _ _ _ ?_) ‹_› | with_reducible apply kept_allocAll | with_reducible apply kept_rtRequest | with_reducible apply kept_enterPipe | with_reducible refine K1.elim (kept_drawMasks _ _ _ ?_) ‹_› | with_reducible apply kept_drawMasks | with_reducible apply kept_maskStall | simp only [Kept.mk3, Kept.mk4] | (intro _) | split)

theorem kept_execAppend {s0 : State} (tag : Tag) (s : State) (hks : Kept s0 s) : OutKept s0 (execAppend tag s) := by
  unfold execAppend
  try dsimp only
  repeat' (first | with_reducible assumption | with_reducible apply kept_finish | with_reducible apply kept_runOp | with_reducible apply kept_appendEnter | with_reducible apply OutKept.next | exact OutKept.fault _ | exact OutKept.refused _ | simp only [Kept.mk3, Kept.mk4] | (intro _) | split)

theorem kept_execSealChainStep {s0 : State} (tag : Tag) (s : State) (hks : Kept s0 s) : OutKept s0 (execSealChainStep tag s)
      := by
  unfold execSealChainStep
  try dsimp only
  repeat' (first | with_reducible assumption | with_reducible apply kept_updCmd | with_reducible apply kept_updZone | with_reducible apply kept_mirAppendSend | with_reducible apply kept_leavePipe | with_reducible apply kept_step | with_reducible apply OutKept.next | exact OutKept.fault _ | exact OutKept.refused _ | simp only [Kept.mk3, Kept.mk4] | (intro _) | split)

theorem kept_acknowledge {s0 : State} (s : State) (tag : Tag) (c : Cmd) (e : AppRec) (live : List Nat) (hks : Kept s0 s) :
      Kept s0 (State.acknowledge s tag c e live) := by
  unfold State.acknowledge
  try dsimp only
  repeat' (first | with_reducible assumption | with_reducible apply kept_updTnt | with_reducible apply kept_raiseTnt | with_reducible apply kept_raiseRecStatus | with_reducible apply kept_mirStateItem | with_reducible apply kept_updZone | with_reducible apply kept_meterIn | with_reducible apply kept_updEntry | with_reducible apply kept_finish | with_reducible apply kept_countDirty | simp only [Kept.mk3, Kept.mk4] | (intro _) | split)

theorem kept_execAppendAcknowledgement {s0 : State} (tag : Tag) (s : State) (hks : Kept s0 s) : OutKept s0
      (execAppendAcknowledgement tag s) := by
  unfold execAppendAcknowledgement
  try dsimp only
  repeat' (first | with_reducible assumption | with_reducible apply kept_acknowledge | with_reducible apply OutKept.next | exact OutKept.fault _ | exact OutKept.refused _ | simp only [Kept.mk3, Kept.mk4] | (intro _) | split)

end Sys2Proof.Machine
end

