-- ==== Sys2Proof/Laws/KeptZoneCmd.lean ====
section
/-!
SUPPORT. What the operations of Machine/ZoneCmd.lean keep.
-/
set_option linter.unusedTactic false
set_option linter.unreachableTactic false
set_option linter.unusedVariables false
set_option linter.unusedSimpArgs false

namespace Sys2Proof.Machine

theorem kept_badState {s0 : State} (s : State) (tag : Tag) (z : Zone) (hks : Kept s0 s) : Kept s0 (State.badState s tag z) := by
  unfold State.badState
  try dsimp only
  repeat' (first | with_reducible assumption | with_reducible apply kept_finish | simp only [Kept.mk3, Kept.mk4] | (intro _) | split)

theorem kept_execZoneOpen {s0 : State} (tag : Tag) (s : State) (hks : Kept s0 s) : OutKept s0 (execZoneOpen tag s) := by
  unfold execZoneOpen
  try dsimp only
  repeat' (first | with_reducible assumption | with_reducible apply kept_updZone | with_reducible refine K5.elim (kept_takeZone _ _ _ _ ?_) ‹_› | with_reducible apply kept_takeZone | with_reducible apply kept_finish | with_reducible apply kept_runOp | with_reducible apply kept_badState | with_reducible apply OutKept.next | exact OutKept.fault _ | exact OutKept.refused _ | simp only [Kept.mk3, Kept.mk4] | (intro _) | split)

theorem kept_finishZone {s0 : State} (s : State) (id : Nat) (z : Zone) (hks : Kept s0 s) : Kept s0 (State.finishZone s id z)
      := by
  unfold State.finishZone
  try dsimp only
  repeat' (first | with_reducible assumption | with_reducible apply kept_mirStateItem | with_reducible apply kept_updZone | with_reducible apply kept_finish | simp only [Kept.mk3, Kept.mk4] | (intro _) | split)

theorem kept_execZoneFinish {s0 : State} (tag : Tag) (s : State) (hks : Kept s0 s) : OutKept s0 (execZoneFinish tag s) := by
  unfold execZoneFinish
  try dsimp only
  repeat' (first | with_reducible assumption | with_reducible apply kept_finish | with_reducible apply kept_runOp | with_reducible apply kept_badState | with_reducible apply kept_finishZone | with_reducible apply OutKept.next | exact OutKept.fault _ | exact OutKept.refused _ | simp only [Kept.mk3, Kept.mk4] | (intro _) | split)

theorem kept_execZoneHold {s0 : State} (tag : Tag) (s : State) (hks : Kept s0 s) : OutKept s0 (execZoneHold tag s) := by
  unfold execZoneHold
  try dsimp only
  repeat' (first | with_reducible assumption | with_reducible apply kept_mirStateItem | with_reducible apply kept_updZone | with_reducible apply kept_meterIn | with_reducible apply kept_quotaNear | with_reducible apply kept_finish | with_reducible apply kept_runOp | with_reducible apply kept_badState | with_reducible apply OutKept.next | exact OutKept.fault _ | exact OutKept.refused _ | simp only [Kept.mk3, Kept.mk4] | (intro _) | split)

theorem kept_execZoneRelease {s0 : State} (tag : Tag) (s : State) (hks : Kept s0 s) : OutKept s0 (execZoneRelease tag s) := by
  unfold execZoneRelease
  try dsimp only
  repeat' (first | with_reducible assumption | with_reducible apply kept_mirStateItem | with_reducible apply kept_updZone | with_reducible apply kept_finish | with_reducible apply kept_runOp | with_reducible apply kept_badState | with_reducible apply OutKept.next | exact OutKept.fault _ | exact OutKept.refused _ | simp only [Kept.mk3, Kept.mk4] | (intro _) | split)

theorem kept_holdTenant {s0 : State} (s : State) (t : Tid) (at_ : Nat) (hks : Kept s0 s) : Kept s0 (State.holdTenant s t at_)
      := by
  unfold State.holdTenant
  try dsimp only
  repeat' (first | with_reducible assumption | with_reducible apply kept_raiseRec | with_reducible apply kept_mirStateItem | with_reducible apply kept_meterIn | with_reducible apply kept_quotaNear | with_reducible apply Kept.foldl | simp only [Kept.mk3, Kept.mk4] | (intro _) | split)

theorem kept_holdPulse {s0 : State} (s : State) (at_ : Nat) (hks : Kept s0 s) : Kept s0 (State.holdPulse s at_) := by
  unfold State.holdPulse
  try dsimp only
  repeat' (first | with_reducible assumption | with_reducible apply kept_holdTenant | with_reducible apply Kept.foldl | simp only [Kept.mk3, Kept.mk4] | (intro _) | split)

theorem kept_putSeal {s0 : State} (s : State) (id : Nat) (r : List Byte) (hks : Kept s0 s) : Kept s0 (State.putSeal s id r) :=
      by
  exact hks.nvmSet { NvmKept.rfl' s.nvm with sealIndex := Nat.le_succ _ } rfl

theorem kept_sealZone {s0 : State} (s : State) (id : Nat) (z : Zone) (key : Hash) (hks : Kept s0 s) : Kept s0 (State.sealZone
      s id z key) := by
  unfold State.sealZone
  try dsimp only
  repeat' (first | with_reducible assumption | with_reducible apply kept_raise | with_reducible apply kept_mirStateItem | with_reducible apply kept_updZone | with_reducible apply kept_meterIn | with_reducible apply kept_quotaNear | with_reducible apply kept_mirAppendSend | with_reducible apply kept_finishZone | with_reducible apply kept_putSeal | with_reducible apply Kept.foldl | simp only [Kept.mk3, Kept.mk4] | (intro _) | split)

theorem kept_runSeal {s0 : State} (s : State) (tag : Tag) (c : Cmd) (z : Zone) (hks : Kept s0 s) : Kept s0 (State.runSeal s
      tag c z) := by
  unfold State.runSeal
  try dsimp only
  repeat' (first | with_reducible assumption | with_reducible apply kept_finish | with_reducible apply kept_badState | with_reducible apply kept_sealZone | simp only [Kept.mk3, Kept.mk4] | (intro _) | split)

theorem kept_settleAppends {s0 : State} (s : State) (t : Tid) (hks : Kept s0 s) : Kept s0 (State.settleAppends s t) := by
  unfold State.settleAppends
  try dsimp only
  repeat' (first | with_reducible assumption | with_reducible apply kept_dropAppends | simp only [Kept.mk3, Kept.mk4] | (intro _) | split)

theorem kept_execZoneSeal {s0 : State} (tag : Tag) (s : State) (hks : Kept s0 s) : OutKept s0 (execZoneSeal tag s) := by
  unfold execZoneSeal
  try dsimp only
  repeat' (first | with_reducible assumption | with_reducible apply kept_updCmd | with_reducible apply kept_finish | with_reducible apply kept_runSeal | with_reducible apply kept_settleAppends | with_reducible apply kept_step | with_reducible apply OutKept.next | exact OutKept.fault _ | exact OutKept.refused _ | with_reducible apply K1.getD | simp only [Kept.mk3, Kept.mk4] | (intro _) | split)

theorem kept_execZoneReport {s0 : State} (tag : Tag) (s : State) (hks : Kept s0 s) : OutKept s0 (execZoneReport tag s) := by
  unfold execZoneReport
  try dsimp only
  repeat' (first | with_reducible assumption | with_reducible apply kept_sendData | with_reducible apply kept_finish | with_reducible apply kept_runOp | with_reducible apply OutKept.next | exact OutKept.fault _ | exact OutKept.refused _ | simp only [Kept.mk3, Kept.mk4] | (intro _) | split)

theorem kept_execSealExportSealRecord {s0 : State} (tag : Tag) (s : State) (hks : Kept s0 s) : OutKept s0
      (execSealExportSealRecord tag s) := by
  unfold execSealExportSealRecord
  try dsimp only
  repeat' (first | with_reducible assumption | with_reducible apply kept_sendData | with_reducible apply kept_finish | with_reducible apply kept_runOp | with_reducible apply OutKept.next | exact OutKept.fault _ | exact OutKept.refused _ | simp only [Kept.mk3, Kept.mk4] | (intro _) | split)

theorem kept_execSealExportZoneEntries {s0 : State} (tag : Tag) (s : State) (hks : Kept s0 s) : OutKept s0
      (execSealExportZoneEntries tag s) := by
  unfold execSealExportZoneEntries
  try dsimp only
  repeat' (first | with_reducible assumption | with_reducible apply kept_sendData | with_reducible apply kept_finish | with_reducible apply kept_runOp | with_reducible apply OutKept.next | exact OutKept.fault _ | exact OutKept.refused _ | simp only [Kept.mk3, Kept.mk4] | (intro _) | split)

theorem kept_execSealExportChain {s0 : State} (tag : Tag) (s : State) (hks : Kept s0 s) : OutKept s0 (execSealExportChain tag
      s) := by
  unfold execSealExportChain
  try dsimp only
  repeat' (first | with_reducible assumption | with_reducible apply kept_sendData | with_reducible apply kept_finish | with_reducible apply kept_runOp | with_reducible apply OutKept.next | exact OutKept.fault _ | exact OutKept.refused _ | simp only [Kept.mk3, Kept.mk4] | (intro _) | split)

theorem kept_dropChallenge {s0 : State} (s : State) (hks : Kept s0 s) : Kept s0 (State.dropChallenge s) := by
  unfold State.dropChallenge
  try dsimp only
  repeat' (first | with_reducible assumption | simp only [Kept.mk3, Kept.mk4] | (intro _) | split)

theorem kept_ownerSigned {s0 : State} (s : State) (tag : Tag) (op : Byte) (arg : List Byte) (sig : List Byte) (act : State →
      State) (hact : ∀ v0, Kept s0 v0 → Kept s0 (act v0)) (hks : Kept s0 s) : Kept s0 (State.ownerSigned s tag op arg sig act)
      := by
  unfold State.ownerSigned
  try dsimp only
  repeat' (first | with_reducible assumption | with_reducible apply kept_raise | with_reducible apply kept_finish | with_reducible apply kept_dropChallenge | with_reducible apply hact | simp only [Kept.mk3, Kept.mk4] | (intro _) | split)

theorem kept_eraseZoneBlocks {s0 : State} (s : State) (id : Nat) (hks : Kept s0 s) : Kept s0 (State.eraseZoneBlocks s id) := by
  unfold State.eraseZoneBlocks
  try dsimp only
  repeat' (first | with_reducible assumption | with_reducible apply kept_eraseIfEmpty | with_reducible apply Kept.foldl | simp only [Kept.mk3, Kept.mk4] | (intro _) | split)

theorem kept_execZoneEraseSigned {s0 : State} (tag : Tag) (s : State) (hks : Kept s0 s) : OutKept s0 (execZoneEraseSigned tag
      s) := by
  unfold execZoneEraseSigned
  try dsimp only
  repeat' (first | with_reducible assumption | with_reducible apply kept_record | with_reducible apply kept_zresetRecord | with_reducible apply kept_emptyZone | with_reducible apply kept_finish | with_reducible apply kept_runOp | with_reducible apply kept_badState | with_reducible apply kept_ownerSigned | with_reducible apply kept_eraseZoneBlocks | with_reducible apply OutKept.next | exact OutKept.fault _ | exact OutKept.refused _ | simp only [Kept.mk3, Kept.mk4] | (intro _) | split)

end Sys2Proof.Machine
end

