-- ==== Sys2Proof/Laws/KeptAdmin.lean ====
section
/-!
SUPPORT. What the operations of Machine/Admin.lean keep.
-/
set_option linter.unusedTactic false
set_option linter.unreachableTactic false
set_option linter.unusedVariables false
set_option linter.unusedSimpArgs false

namespace Sys2Proof.Machine

theorem kept_execIdentify {s0 : State} (tag : Tag) (s : State) (hks : Kept s0 s) : OutKept s0 (execIdentify tag s) := by
  unfold execIdentify
  try dsimp only
  repeat' (first | with_reducible assumption | with_reducible apply kept_sendData | with_reducible apply kept_finish | with_reducible apply kept_runOp | with_reducible apply OutKept.next | exact OutKept.fault _ | exact OutKept.refused _ | simp only [Kept.mk3, Kept.mk4] | (intro _) | split)

theorem kept_createQp {s0 : State} (s : State) (t : Tid) (q : Qid) (depth : Nat) (sq : DWord) (cq : DWord) (vec : Nat) (hks :
      Kept s0 s) : Kept s0 (State.createQp s t q depth sq cq vec) := by
  unfold State.createQp
  try dsimp only
  repeat' (first | with_reducible assumption | with_reducible apply kept_updInta | with_reducible apply kept_updQp | simp only [Kept.mk3, Kept.mk4] | (intro _) | split)

theorem kept_execQueueCreate {s0 : State} (tag : Tag) (s : State) (hks : Kept s0 s) : OutKept s0 (execQueueCreate tag s) := by
  unfold execQueueCreate
  try dsimp only
  repeat' (first | with_reducible assumption | with_reducible apply kept_finish | with_reducible apply kept_runOp | with_reducible apply kept_createQp | with_reducible apply OutKept.next | exact OutKept.fault _ | exact OutKept.refused _ | simp only [Kept.mk3, Kept.mk4] | (intro _) | split)

theorem kept_drainQp {s0 : State} (s : State) (t : Tid) (q : Qid) (abort : Bool) (hks : Kept s0 s) : Kept s0 (State.drainQp s
      t q abort) := by
  unfold State.drainQp
  try dsimp only
  repeat' (first | with_reducible assumption | with_reducible apply kept_updQp | simp only [Kept.mk3, Kept.mk4] | (intro _) | split)

theorem kept_execQueueDelete {s0 : State} (tag : Tag) (s : State) (hks : Kept s0 s) : OutKept s0 (execQueueDelete tag s) := by
  unfold execQueueDelete
  try dsimp only
  repeat' (first | with_reducible assumption | with_reducible apply kept_updCmd | with_reducible apply kept_finish | with_reducible apply kept_runOp | with_reducible apply kept_removeDrained | with_reducible apply kept_drainQp | with_reducible apply OutKept.next | exact OutKept.fault _ | exact OutKept.refused _ | simp only [Kept.mk3, Kept.mk4] | (intro _) | split)

theorem kept_execFeatureHoldMinutesGet {s0 : State} (tag : Tag) (s : State) (hks : Kept s0 s) : OutKept s0
      (execFeatureHoldMinutesGet tag s) := by
  unfold execFeatureHoldMinutesGet
  try dsimp only
  repeat' (first | with_reducible assumption | with_reducible apply kept_finish | with_reducible apply kept_runOp | with_reducible apply OutKept.next | exact OutKept.fault _ | exact OutKept.refused _ | simp only [Kept.mk3, Kept.mk4] | (intro _) | split)

theorem kept_setHold {s0 : State} (s : State) (t : Tid) (v : Nat) (hks : Kept s0 s) : Kept s0 (State.setHold s t v) := by
  unfold State.setHold
  try dsimp only
  repeat' (first | with_reducible assumption | with_reducible apply kept_updTnt | simp only [Kept.mk3, Kept.mk4] | (intro _) | split)

theorem kept_execFeatureHoldMinutesSet {s0 : State} (tag : Tag) (s : State) (hks : Kept s0 s) : OutKept s0
      (execFeatureHoldMinutesSet tag s) := by
  unfold execFeatureHoldMinutesSet
  try dsimp only
  repeat' (first | with_reducible assumption | with_reducible apply kept_finish | with_reducible apply kept_runOp | with_reducible apply kept_setHold | with_reducible apply OutKept.next | exact OutKept.fault _ | exact OutKept.refused _ | simp only [Kept.mk3, Kept.mk4] | (intro _) | split)

theorem kept_execFeatureDisplayItemGet {s0 : State} (tag : Tag) (s : State) (hks : Kept s0 s) : OutKept s0
      (execFeatureDisplayItemGet tag s) := by
  unfold execFeatureDisplayItemGet
  try dsimp only
  repeat' (first | with_reducible assumption | with_reducible apply kept_sendData | with_reducible apply kept_finish | with_reducible apply kept_runOp | with_reducible apply OutKept.next | exact OutKept.fault _ | exact OutKept.refused _ | with_reducible apply K1.getD | simp only [Kept.mk3, Kept.mk4] | (intro _) | split)

theorem kept_execFeatureDisplayItemSet {s0 : State} (tag : Tag) (s : State) (hks : Kept s0 s) : OutKept s0
      (execFeatureDisplayItemSet tag s) := by
  unfold execFeatureDisplayItemSet
  try dsimp only
  repeat' (first | with_reducible assumption | with_reducible apply kept_finish | with_reducible apply kept_runOp | with_reducible apply OutKept.next | exact OutKept.fault _ | exact OutKept.refused _ | simp only [Kept.mk3, Kept.mk4] | (intro _) | split)

theorem kept_execFeatureBudgetGet {s0 : State} (tag : Tag) (s : State) (hks : Kept s0 s) : OutKept s0 (execFeatureBudgetGet
      tag s) := by
  unfold execFeatureBudgetGet
  try dsimp only
  repeat' (first | with_reducible assumption | with_reducible apply kept_finish | with_reducible apply kept_runOp | with_reducible apply OutKept.next | exact OutKept.fault _ | exact OutKept.refused _ | simp only [Kept.mk3, Kept.mk4] | (intro _) | split)

theorem kept_execLogReadEventRecords {s0 : State} (tag : Tag) (s : State) (hks : Kept s0 s) : OutKept s0
      (execLogReadEventRecords tag s) := by
  unfold execLogReadEventRecords
  try dsimp only
  repeat' (first | with_reducible assumption | with_reducible apply kept_sendData | with_reducible apply kept_finish | with_reducible apply kept_runOp | with_reducible apply OutKept.next | exact OutKept.fault _ | exact OutKept.refused _ | simp only [Kept.mk3, Kept.mk4] | (intro _) | split)

theorem kept_execLogReadZoneResetLog {s0 : State} (tag : Tag) (s : State) (hks : Kept s0 s) : OutKept s0
      (execLogReadZoneResetLog tag s) := by
  unfold execLogReadZoneResetLog
  try dsimp only
  repeat' (first | with_reducible assumption | with_reducible apply kept_sendData | with_reducible apply kept_finish | with_reducible apply kept_runOp | with_reducible apply OutKept.next | exact OutKept.fault _ | exact OutKept.refused _ | simp only [Kept.mk3, Kept.mk4] | (intro _) | split)

theorem kept_updateGate {s0 : State} (s : State) (tag : Tag) (c : Cmd) (act : State) (hks : Kept s0 s) (hkact : Kept s0 act) :
      Kept s0 (State.updateGate s tag c act) := by
  unfold State.updateGate
  try dsimp only
  repeat' (first | with_reducible assumption | with_reducible apply kept_finish | simp only [Kept.mk3, Kept.mk4] | (intro _) | split)

theorem kept_openSession {s0 : State} (s : State) (target : Nat) (hks : Kept s0 s) : Kept s0 (State.openSession s target) := by
  unfold State.openSession
  try dsimp only
  repeat' (first | with_reducible assumption | with_reducible apply kept_record | with_reducible apply kept_norWrite | with_reducible apply kept_writeRec | simp only [Kept.mk3, Kept.mk4] | (intro _) | split)

theorem kept_stageWrite {s0 : State} (s : State) (g : StageS) (off : Nat) (b : List Byte) (hks : Kept s0 s) : Kept s0
      (State.stageWrite s g off b) := by
  unfold State.stageWrite
  apply kept_raise
  refine hks.nvmSet { NvmKept.rfl' s.nvm with nor := fun h => ?_ } rfl
  dsimp only
  split
  · exact Memory.wf_setList _ _ h
  · exact Memory.wf_setList _ _ h

theorem kept_execImageStage {s0 : State} (tag : Tag) (s : State) (hks : Kept s0 s) : OutKept s0 (execImageStage tag s) := by
  unfold execImageStage
  try dsimp only
  repeat' (first | with_reducible assumption | with_reducible apply kept_finish | with_reducible apply kept_runOp | with_reducible apply kept_updateGate | with_reducible apply kept_openSession | with_reducible apply kept_stageWrite | with_reducible apply OutKept.next | exact OutKept.fault _ | exact OutKept.refused _ | simp only [Kept.mk3, Kept.mk4] | (intro _) | split)

theorem kept_execImageCommit {s0 : State} (tag : Tag) (s : State) (hks : Kept s0 s) : OutKept s0 (execImageCommit tag s) := by
  unfold execImageCommit
  try dsimp only
  repeat' (first | with_reducible assumption | with_reducible apply kept_writeRec | with_reducible apply kept_finish | with_reducible apply kept_runOp | with_reducible apply kept_updateGate | with_reducible apply OutKept.next | exact OutKept.fault _ | exact OutKept.refused _ | simp only [Kept.mk3, Kept.mk4] | (intro _) | split | exact hks.nvmSet { NvmKept.rfl' s.nvm with nor := fun h => Memory.wf_setList _ _ h } rfl)

theorem kept_ownerOp {s0 : State} (s : State) (tag : Tag) (op : Nat) (useKey : Bool) (useSig : Bool) (act : Cmd → List Byte →
      List Byte → State) (hact : ∀ v0 v1 v2, Kept s0 (act v0 v1 v2)) (hks : Kept s0 s) : Kept s0 (State.ownerOp s tag op
      useKey useSig act) := by
  unfold State.ownerOp
  try dsimp only
  repeat' (first | with_reducible assumption | with_reducible apply kept_finish | with_reducible apply kept_runOp | with_reducible apply hact | simp only [Kept.mk3, Kept.mk4] | (intro _) | split)

theorem kept_ownerChanged {s0 : State} (s : State) (b : Nat) (hks : Kept s0 s) : Kept s0 (State.ownerChanged s b) := by
  unfold State.ownerChanged
  try dsimp only
  repeat' (first | with_reducible assumption | with_reducible apply kept_raise | with_reducible apply kept_mirDeviceItem | simp only [Kept.mk3, Kept.mk4] | (intro _) | split)

theorem kept_programOwner {s0 : State} (s : State) (key : List Byte) (hks : Kept s0 s) : Kept s0 (State.programOwner s key) :=
      by
  unfold State.programOwner
  try dsimp only
  repeat' (first | with_reducible assumption | with_reducible apply kept_ownerChanged | simp only [Kept.mk3, Kept.mk4] | (intro _) | split)

theorem kept_execGetChallenge {s0 : State} (tag : Tag) (s : State) (hks : Kept s0 s) : OutKept s0 (execGetChallenge tag s) := by
  unfold execGetChallenge
  try dsimp only
  repeat' (first | with_reducible assumption | with_reducible apply kept_sendPlain | with_reducible apply kept_finish | with_reducible refine K2.elim (kept_drbg _ ?_) ‹_› | with_reducible apply kept_drbg | with_reducible apply kept_ownerOp | with_reducible apply OutKept.next | exact OutKept.fault _ | exact OutKept.refused _ | simp only [Kept.mk3, Kept.mk4] | (intro _) | split)

theorem kept_execEnrol {s0 : State} (tag : Tag) (s : State) (hks : Kept s0 s) : OutKept s0 (execEnrol tag s) := by
  unfold execEnrol
  try dsimp only
  repeat' (first | with_reducible assumption | with_reducible apply kept_finish | with_reducible apply kept_ownerOp | with_reducible apply kept_programOwner | with_reducible apply OutKept.next | exact OutKept.fault _ | exact OutKept.refused _ | simp only [Kept.mk3, Kept.mk4] | (intro _) | split)

theorem kept_setLock {s0 : State} (s : State) (b : Bool) (hks : Kept s0 s) : Kept s0 (State.setLock s b) := by
  unfold State.setLock
  try dsimp only
  repeat' (first | with_reducible assumption | with_reducible apply kept_ownerChanged | simp only [Kept.mk3, Kept.mk4] | (intro _) | split)

theorem kept_execLockUpdates {s0 : State} (tag : Tag) (s : State) (hks : Kept s0 s) : OutKept s0 (execLockUpdates tag s) := by
  unfold execLockUpdates
  try dsimp only
  repeat' (first | with_reducible assumption | with_reducible apply kept_finish | with_reducible apply kept_ownerSigned | with_reducible apply kept_ownerOp | with_reducible apply kept_setLock | with_reducible apply OutKept.next | exact OutKept.fault _ | exact OutKept.refused _ | simp only [Kept.mk3, Kept.mk4] | (intro _) | split)

theorem kept_execUnlockUpdates {s0 : State} (tag : Tag) (s : State) (hks : Kept s0 s) : OutKept s0 (execUnlockUpdates tag s)
      := by
  unfold execUnlockUpdates
  try dsimp only
  repeat' (first | with_reducible assumption | with_reducible apply kept_finish | with_reducible apply kept_ownerSigned | with_reducible apply kept_ownerOp | with_reducible apply kept_setLock | with_reducible apply OutKept.next | exact OutKept.fault _ | exact OutKept.refused _ | simp only [Kept.mk3, Kept.mk4] | (intro _) | split)

theorem kept_execTransfer {s0 : State} (tag : Tag) (s : State) (hks : Kept s0 s) : OutKept s0 (execTransfer tag s) := by
  unfold execTransfer
  try dsimp only
  repeat' (first | with_reducible assumption | with_reducible apply kept_finish | with_reducible apply kept_ownerSigned | with_reducible apply kept_ownerOp | with_reducible apply kept_programOwner | with_reducible apply OutKept.next | exact OutKept.fault _ | exact OutKept.refused _ | simp only [Kept.mk3, Kept.mk4] | (intro _) | split)

theorem kept_execChallengeLapse {s0 : State} (s : State) (hks : Kept s0 s) : OutKept s0 (execChallengeLapse s) := by
  unfold execChallengeLapse
  try dsimp only
  repeat' (first | with_reducible assumption | with_reducible apply kept_dropChallenge | with_reducible apply OutKept.next | exact OutKept.fault _ | exact OutKept.refused _ | simp only [Kept.mk3, Kept.mk4] | (intro _) | split)

end Sys2Proof.Machine
end

