-- ==== Sys2Proof/Laws/KeptMeter.lean ====
section
/-!
SUPPORT. What the operations of Machine/Meter.lean keep.
-/
set_option linter.unusedTactic false
set_option linter.unreachableTactic false
set_option linter.unusedVariables false
set_option linter.unusedSimpArgs false

namespace Sys2Proof.Machine

theorem kept_addProfile {s0 : State} (s : State) (r : ProfRec) (hks : Kept s0 s) : Kept s0 (State.addProfile s r) := by
  unfold State.addProfile
  try dsimp only
  repeat' (first | with_reducible assumption | simp only [Kept.mk3, Kept.mk4] | (intro _) | split)

theorem kept_clearCounts {s0 : State} (s : State) (hks : Kept s0 s) : Kept s0 (State.clearCounts s) := by
  unfold State.clearCounts
  try dsimp only
  repeat' (first | with_reducible assumption | simp only [Kept.mk3, Kept.mk4] | (intro _) | split)

theorem kept_openInterval {s0 : State} (s : State) (at_ : Nat) (hks : Kept s0 s) : Kept s0 (State.openInterval s at_) := by
  unfold State.openInterval
  try dsimp only
  repeat' (first | with_reducible assumption | with_reducible apply kept_clearCounts | simp only [Kept.mk3, Kept.mk4] | (intro _) | split)

theorem kept_closeInterval {s0 : State} (s : State) (hks : Kept s0 s) : Kept s0 (State.closeInterval s) := by
  unfold State.closeInterval
  try dsimp only
  repeat' (first | with_reducible assumption | with_reducible apply kept_addProfile | simp only [Kept.mk3, Kept.mk4] | (intro _) | split)

theorem kept_absentRecord {s0 : State} (s : State) (start : Nat) (hks : Kept s0 s) : Kept s0 (State.absentRecord s start) := by
  unfold State.absentRecord
  try dsimp only
  repeat' (first | with_reducible assumption | with_reducible apply kept_addProfile | simp only [Kept.mk3, Kept.mk4] | (intro _) | split)

theorem tariffOf_lt (m : List Byte) (c b : Nat) : tariffOf m c b < 8 := by
  unfold tariffOf
  dsimp only
  split
  · exact Nat.mod_lt _ (by decide)
  · decide

theorem toList_sum {n : Nat} (v : Vector Nat n) : v.toList.sum = ∑ k : Fin n, v[k] := by
  have h : v = Vector.ofFn (fun k : Fin n => v[k]) := by ext i hi; simp
  conv_lhs => rw [h]
  rw [Vector.toList_ofFn, List.sum_ofFn]

theorem sum_blocks (f : Nat → Nat → Nat) (m n : Nat) (hm : 0 < m) :
    ∑ k ∈ Finset.range (m * n), f (k / m) (k % m) = ∑ t ∈ Finset.range n, ∑ q ∈ Finset.range m, f t q := by
  induction n with
  | zero => simp
  | succ n ih =>
    rw [Nat.mul_succ, Finset.sum_range_add, ih, Finset.sum_range_succ]
    congr 1
    refine Finset.sum_congr rfl (fun q hq => ?_)
    have hq' := Finset.mem_range.mp hq
    rw [Nat.mul_add_div hm, Nat.mul_add_mod, Nat.div_eq_of_lt hq', Nat.mod_eq_of_lt hq', Nat.add_zero]

theorem add4 (p : Nat → Prop) [DecidablePred p] (g : Nat → Nat) :
    (List.range 4).foldl (fun a k => if p k then a + g k else a) 0 = ∑ k ∈ Finset.range 4, if p k then g k else 0 := by
  simp only [show List.range 4 = [0, 1, 2, 3] from rfl, List.foldl, Finset.sum_range_succ, Finset.sum_range_zero]
  split_ifs <;> omega

/-- Each staging sum goes to exactly one of a tenant's eight accumulators. -/
theorem staging_spread (m : List Byte) (b : Nat) (v : Vector Nat 256) :
    ∑ k : Fin 512, (List.range 4).foldl (fun a c =>
      if tariffOf m c b = k.1 % 8 then a + v.toList.getD (4 * (k.1 / 8) + c) 0 else a) 0 = v.toList.sum := by
  simp only [add4 (fun c => tariffOf m c b = _)]
  rw [Finset.sum_range (fun k => ∑ c ∈ Finset.range 4, if tariffOf m c b = k % 8 then v.toList.getD (4 * (k / 8) + c) 0 else 0)
    |>.symm]
  rw [show (512 : Nat) = 8 * 64 from rfl,
    sum_blocks (fun t q => ∑ c ∈ Finset.range 4, if tariffOf m c b = q then v.toList.getD (4 * t + c) 0 else 0) 8 64 (by decide)]
  have h1 : ∀ t, (∑ q ∈ Finset.range 8, ∑ c ∈ Finset.range 4, if tariffOf m c b = q then v.toList.getD (4 * t + c) 0 else 0) =
      ∑ c ∈ Finset.range 4, v.toList.getD (4 * t + c) 0 := by
    intro t
    rw [Finset.sum_comm]
    refine Finset.sum_congr rfl (fun c _ => ?_)
    rw [Finset.sum_ite_eq]
    rw [if_pos (Finset.mem_range.mpr (tariffOf_lt m c b))]
  simp only [h1]
  rw [← sum_blocks (fun t c => v.toList.getD (4 * t + c) 0) 4 64 (by decide), toList_sum, show 4 * 64 = 256 from rfl,
    Finset.sum_range]
  refine Finset.sum_congr rfl (fun k _ => ?_)
  rw [Nat.div_add_mod]
  simp

/-- The accumulators after a boundary. -/
theorem accs_sum (m : List Byte) (b : Nat) (a : Vector Nat 512) (v : Vector Nat 256) :
    (Vector.ofFn fun k : Fin 512 => a[k] + (List.range 4).foldl (fun x c =>
      if tariffOf m c b = k.1 % 8 then x + v.toList.getD (4 * (k.1 / 8) + c) 0 else x) 0).toList.sum =
      a.toList.sum + v.toList.sum := by
  rw [Vector.toList_ofFn, List.sum_ofFn, Finset.sum_add_distrib, staging_spread, toList_sum a]

theorem kept_closeAccs {s c : State} (accs : Vector Nat 512) (u st : Nat) (z : Vector Nat 256) (h1 : Kept s c) (hp :
      s.mtr.pendingOn = true)
    (e2 : c.nvm.total = s.nvm.total) (hsum : accs.toList.sum = s.nvm.accs.toList.sum + s.mtr.staging.toList.sum)
    (hle : ∀ k : Fin 512, s.nvm.accs[k] ≤ accs[k]) :
    Kept s ({ c with nvm := { c.nvm with accs := accs, ckptAccs := accs, ckptTotal := c.nvm.total, utcStored := u }, mtr := { c.mtr with staging := z, pending := 0, pendingOn := false, closing := none, start := st } } : State) := by
  refine { queue := h1.queue, clock := h1.clock, sent := h1.sent, free := h1.free, nvm := h1.nvm.trans { NvmKept.rfl' c.nvm with nor := id }, credits := h1.credits, meter := fun g => ⟨⟨?_, rfl, ?_, ?_⟩, hle⟩ }
  · obtain ⟨g1, _, _, g4⟩ := g
    rw [hp, if_pos rfl] at g4
    show accs.toList.sum + 0 = c.nvm.total
    rw [hsum, Nat.add_zero, ← g4, e2]; exact g1
  · obtain ⟨g1, _, _, g4⟩ := g
    rw [hp, if_pos rfl] at g4
    show accs.toList.sum = c.nvm.total
    rw [hsum, ← g4, e2]; exact g1
  · show (0 : Nat) = if false = true then _ else 0
    rw [if_neg Bool.false_ne_true]

theorem kept_settleBoundary {s0 : State} (s : State) (hks : Kept s0 s) : Kept s0 (State.settleBoundary s) := by
  unfold State.settleBoundary
  split
  · exact hks
  · rename_i hp
    simp only [Bool.not_eq_true, Bool.not_eq_false'] at hp
    refine hks.trans ?_
    split
    · exact kept_closeAccs _ _ _ _ (kept_addProfile _ _ (Kept.rfl' s)) hp rfl
        (accs_sum s.metering s.band s.nvm.accs s.mtr.staging) (fun k => by
          simp only [Fin.getElem_fin, Vector.getElem_ofFn, Nat.le_add_right])
    · exact kept_closeAccs _ _ _ _ (Kept.rfl' s) hp rfl
        (accs_sum s.metering s.band s.nvm.accs s.mtr.staging) (fun k => by
          simp only [Fin.getElem_fin, Vector.getElem_ofFn, Nat.le_add_right])

theorem kept_endBoundary {s0 : State} (s : State) (hks : Kept s0 s) : Kept s0 (State.endBoundary s) := by
  unfold State.endBoundary
  try dsimp only
  repeat' (first | with_reducible assumption | with_reducible apply kept_mirSend | with_reducible apply kept_raise | with_reducible apply kept_settleBoundary | split)

theorem settleBoundary_off (s : State) : s.settleBoundary.mtr.pendingOn = false := by
  unfold State.settleBoundary
  split
  · rename_i hp
    simpa using hp
  · rfl

theorem endBoundary_off (s : State) : s.endBoundary.mtr.pendingOn = false := by
  unfold State.endBoundary
  split
  · rename_i hp
    simpa using hp
  · dsimp only
    split
    · simp only [State.mirSend_mtr, State.raise_mtr, settleBoundary_off]
    · simp only [State.raise_mtr, settleBoundary_off]

/-- A boundary begins where no round runs. -/
theorem kept_startBoundary {s0 : State} (s : State) (hks : Kept s0 s) (hp : s.mtr.pendingOn = false) :
    Kept s0 (State.startBoundary s) := by
  refine hks.trans ?_
  exact { queue := rfl, clock := rfl, sent := List.prefix_rfl, free := le_refl _, nvm := { NvmKept.rfl' s.nvm with nor := id },
          credits := id, meter := fun g => by
            obtain ⟨g1, g2, g3, g4⟩ := g
            rw [hp] at g4
            have e : s.mtr.staging.toList.foldl (· + ·) 0 = s.mtr.staging.toList.sum := by
              rw [List.sum_eq_foldl]
            refine ⟨⟨?_, g2, g3, ?_⟩, fun _ => le_refl _⟩
            · show s.nvm.accs.toList.sum + _ = s.nvm.total + _
              rw [← g1, g4]; rfl
            · exact e }

theorem kept_execQuarterHourBoundary {s0 : State} (s : State) (hks : Kept s0 s) : OutKept s0 (execQuarterHourBoundary s) := by
  unfold execQuarterHourBoundary
  refine OutKept.next ?_
  split
  · exact kept_startBoundary _ (kept_endBoundary _ hks) (endBoundary_off s)
  · exact hks

/-- A change of the staging sums where no round runs. -/
theorem kept_staging {s0 : State} (s : State) (m : MtrS) (hks : Kept s0 s) (hp : s.mtr.pendingOn = false)
    (h1 : m.pending = s.mtr.pending) (h2 : m.pendingOn = s.mtr.pendingOn) : Kept s0 { s with mtr := m } :=
  hks.trans { queue := rfl, clock := rfl, sent := List.prefix_rfl, free := le_refl _, nvm := NvmKept.rfl' s.nvm, credits := id,
              meter := fun g => ⟨⟨by simpa only [h1] using g.1, g.2.1, g.2.2.1, by
                have := g.2.2.2
                simp only [h1, h2, hp] at this ⊢
                exact this⟩, fun _ => le_refl _⟩ }

theorem kept_execMeterMinuteSample {s0 : State} (s : State) (hks : Kept s0 s) : OutKept s0 (execMeterMinuteSample s) := by
  unfold execMeterMinuteSample
  refine OutKept.next ?_
  split
  · exact kept_staging _ _ (kept_endBoundary _ hks) (endBoundary_off s) rfl rfl
  · exact hks

theorem kept_setUtc {s0 : State} (s : State) (v : Nat) (st : UtcState) (hks : Kept s0 s) : Kept s0 (State.setUtc s v st) := by
  unfold State.setUtc
  try dsimp only
  repeat' (first | with_reducible assumption | with_reducible apply kept_raise | with_reducible apply kept_openInterval | with_reducible apply kept_closeInterval | with_reducible apply kept_absentRecord | with_reducible apply Kept.foldl | simp only [Kept.mk3, Kept.mk4] | (intro _) | split)

theorem kept_execSignedLapse {s0 : State} (s : State) (hks : Kept s0 s) : OutKept s0 (execSignedLapse s) := by
  unfold execSignedLapse
  try dsimp only
  repeat' (first | with_reducible assumption | with_reducible apply OutKept.next | exact OutKept.fault _ | exact OutKept.refused _ | simp only [Kept.mk3, Kept.mk4] | (intro _) | split)

theorem kept_execNonceLapse {s0 : State} (s : State) (hks : Kept s0 s) : OutKept s0 (execNonceLapse s) := by
  unfold execNonceLapse
  try dsimp only
  repeat' (first | with_reducible assumption | with_reducible apply OutKept.next | exact OutKept.fault _ | exact OutKept.refused _ | simp only [Kept.mk3, Kept.mk4] | (intro _) | split)

theorem kept_execGetNonce {s0 : State} (tag : Tag) (s : State) (hks : Kept s0 s) : OutKept s0 (execGetNonce tag s) := by
  unfold execGetNonce
  try dsimp only
  repeat' (first | with_reducible assumption | with_reducible apply kept_sendData | with_reducible apply kept_finish | with_reducible apply kept_runOp | with_reducible refine K2.elim (kept_drbg _ ?_) ‹_› | with_reducible apply kept_drbg | with_reducible apply OutKept.next | exact OutKept.fault _ | exact OutKept.refused _ | simp only [Kept.mk3, Kept.mk4] | (intro _) | split)

theorem kept_execSetHost {s0 : State} (tag : Tag) (s : State) (hks : Kept s0 s) : OutKept s0 (execSetHost tag s) := by
  unfold execSetHost
  try dsimp only
  repeat' (first | with_reducible assumption | with_reducible apply kept_finish | with_reducible apply kept_runOp | with_reducible apply kept_setUtc | with_reducible apply OutKept.next | exact OutKept.fault _ | exact OutKept.refused _ | simp only [Kept.mk3, Kept.mk4] | (intro _) | split)

theorem kept_execSetSigned {s0 : State} (tag : Tag) (s : State) (hks : Kept s0 s) : OutKept s0 (execSetSigned tag s) := by
  unfold execSetSigned
  try dsimp only
  repeat' (first | with_reducible assumption | with_reducible apply kept_finish | with_reducible apply kept_runOp | with_reducible apply kept_setUtc | with_reducible apply OutKept.next | exact OutKept.fault _ | exact OutKept.refused _ | simp only [Kept.mk3, Kept.mk4] | (intro _) | split)

theorem kept_meterServe {s0 : State} (s : State) (hks : Kept s0 s) : Kept s0 (State.meterServe s) := by
  unfold State.meterServe
  try dsimp only
  repeat' (first | with_reducible assumption | simp only [Kept.mk3, Kept.mk4] | (intro _) | split)

theorem kept_meterRead {s0 : State} (s : State) (tag : Tag) (c : Cmd) (allowed : Bool) (tenant : Byte) (content : Nat → List
      Byte) (hks : Kept s0 s) : Kept s0 (State.meterRead s tag c allowed tenant content) := by
  unfold State.meterRead
  try dsimp only
  repeat' (first | with_reducible assumption | with_reducible apply kept_sendData | with_reducible apply kept_finish | simp only [Kept.mk3, Kept.mk4] | (intro _) | split)

theorem kept_execMeterReadTenant {s0 : State} (tag : Tag) (s : State) (hks : Kept s0 s) : OutKept s0 (execMeterReadTenant tag
      s) := by
  unfold execMeterReadTenant
  try dsimp only
  repeat' (first | with_reducible assumption | with_reducible apply kept_runOp | with_reducible apply kept_meterRead | with_reducible apply OutKept.next | exact OutKept.fault _ | exact OutKept.refused _ | simp only [Kept.mk3, Kept.mk4] | (intro _) | split)

theorem kept_execMeterReadAll {s0 : State} (tag : Tag) (s : State) (hks : Kept s0 s) : OutKept s0 (execMeterReadAll tag s) := by
  unfold execMeterReadAll
  try dsimp only
  repeat' (first | with_reducible assumption | with_reducible apply kept_runOp | with_reducible apply kept_meterRead | with_reducible apply OutKept.next | exact OutKept.fault _ | exact OutKept.refused _ | simp only [Kept.mk3, Kept.mk4] | (intro _) | split)

theorem kept_execMeterReadLoadProfile {s0 : State} (tag : Tag) (s : State) (hks : Kept s0 s) : OutKept s0
      (execMeterReadLoadProfile tag s) := by
  unfold execMeterReadLoadProfile
  try dsimp only
  repeat' (first | with_reducible assumption | with_reducible apply kept_runOp | with_reducible apply kept_meterRead | with_reducible apply OutKept.next | exact OutKept.fault _ | exact OutKept.refused _ | simp only [Kept.mk3, Kept.mk4] | (intro _) | split)

/-- The meter works from its last checkpoint, and no round runs. -/
theorem kept_meterReset {s0 s t : State} (hks : Kept s0 s) (q : t.pending = s.pending) (c : t.now = s.now) (o : t.outbox =
      s.outbox)
    (f : t.freeCtr = s.freeCtr) (v : t.vfl = s.vfl) (n : NvmKept s.nvm t.nvm) (a : t.nvm.accs = s.nvm.ckptAccs)
    (b : t.nvm.total = s.nvm.ckptTotal) (d : t.nvm.ckptAccs = s.nvm.ckptAccs) (e : t.nvm.ckptTotal = s.nvm.ckptTotal)
    (p : t.mtr.pending = 0) (r : t.mtr.pendingOn = false) : Kept s0 t :=
  hks.trans
  { queue := q, clock := c, sent := o ▸ List.prefix_rfl, free := f ▸ le_refl _, nvm := n,
    credits := fun g => by simpa only [State.creditsOk, v] using g,
    meter := fun g => by
      obtain ⟨_, g2, g3, _⟩ := g
      refine ⟨⟨?_, ?_, ?_, ?_⟩, fun k => ?_⟩
      · rw [a, b, p, g2, g3]; rfl
      · rw [a, d]
      · rw [a, e, g2, g3]
      · rw [p, r]; rfl
      · rw [a, g2] }

theorem kept_meterStart {s0 : State} (s : State) (first : Bool) (hks : Kept s0 s) : Kept s0 (State.meterStart s first) := by
  unfold State.meterStart
  dsimp only
  split
  · simp only [Kept.mk3]
    repeat' (first | exact kept_meterReset hks rfl rfl rfl rfl rfl { NvmKept.rfl' s.nvm with nor := id } rfl rfl rfl rfl rfl rfl | (with_reducible apply kept_startBoundary) | rfl | split)
  · exact kept_meterReset hks rfl rfl rfl rfl rfl { NvmKept.rfl' s.nvm with nor := id } rfl rfl rfl rfl rfl rfl

theorem kept_meterSave {s0 : State} (s : State) (hks : Kept s0 s) : Kept s0 (State.meterSave s) := by
  unfold State.meterSave
  try dsimp only
  repeat' (first | with_reducible assumption | with_reducible apply kept_settleBoundary | simp only [Kept.mk3, Kept.mk4] | (intro _) | split)

theorem kept_dwell {s0 : State} (s : State) (d : BoardDesc) (hks : Kept s0 s) : Kept s0 (State.dwell s d) := by
  unfold State.dwell
  try dsimp only
  repeat' (first | with_reducible assumption | simp only [Kept.mk3, Kept.mk4] | (intro _) | split)

theorem kept_execDisplayDwellSecond {s0 : State} (s : State) (hks : Kept s0 s) : OutKept s0 (execDisplayDwellSecond s) := by
  unfold execDisplayDwellSecond
  try dsimp only
  repeat' (first | with_reducible assumption | with_reducible apply kept_dwell | with_reducible apply OutKept.next | exact OutKept.fault _ | exact OutKept.refused _ | simp only [Kept.mk3, Kept.mk4] | (intro _) | split)

theorem kept_execHostItemExpired {s0 : State} (s : State) (hks : Kept s0 s) : OutKept s0 (execHostItemExpired s) := by
  unfold execHostItemExpired
  try dsimp only
  repeat' (first | with_reducible assumption | with_reducible apply kept_raise | with_reducible apply OutKept.next | exact OutKept.fault _ | exact OutKept.refused _ | simp only [Kept.mk3, Kept.mk4] | (intro _) | split)

end Sys2Proof.Machine
end

