-- ==== Sys2Proof/Laws/KeptPcie.lean ====
section
/-!
SUPPORT. What the operations of Machine/Pcie.lean keep.
-/
set_option linter.unusedTactic false
set_option linter.unreachableTactic false
set_option linter.unusedVariables false
set_option linter.unusedSimpArgs false

namespace Sys2Proof.Machine

theorem kept_lapseNonces {s0 : State} (s : State) (hks : Kept s0 s) : Kept s0 (State.lapseNonces s) := by
  unfold State.lapseNonces
  try dsimp only
  repeat' (first | with_reducible assumption | simp only [Kept.mk3, Kept.mk4] | (intro _) | split)

theorem kept_tenantReset {s0 : State} (s : State) (t : Tid) (hks : Kept s0 s) : Kept s0 (State.tenantReset s t) := by
  unfold State.tenantReset
  try dsimp only
  repeat' (first | with_reducible assumption | with_reducible apply kept_updTnt | with_reducible apply kept_dropAppends | with_reducible apply kept_undoOpen | with_reducible apply kept_dropEntries | with_reducible apply kept_lapseNonces | with_reducible apply Kept.foldl | simp only [Kept.mk3, Kept.mk4] | (intro _) | split)

theorem kept_resetTenants {s0 : State} (s : State) (ts : List Tid) (hks : Kept s0 s) : Kept s0 (State.resetTenants s ts) := by
  unfold State.resetTenants
  try dsimp only
  repeat' (first | with_reducible assumption | with_reducible apply kept_tenantReset | with_reducible apply Kept.foldl | simp only [Kept.mk3, Kept.mk4] | (intro _) | split)

theorem kept_settleFns {s0 : State} (s : State) (hks : Kept s0 s) : Kept s0 (State.settleFns s) := by
  unfold State.settleFns
  try dsimp only
  repeat' (first | with_reducible assumption | simp only [Kept.mk3, Kept.mk4] | (intro _) | split)

theorem kept_finishReset {s0 : State} (s : State) (t : Tid) (hks : Kept s0 s) : Kept s0 (State.finishReset s t) := by
  unfold State.finishReset
  try dsimp only
  repeat' (first | with_reducible assumption | with_reducible apply kept_updTnt | with_reducible apply kept_updInta | with_reducible apply kept_raiseTnt | with_reducible apply kept_freeBufs | with_reducible apply kept_zeroise | with_reducible apply kept_reloadKeys | with_reducible apply kept_dropPersisted | with_reducible apply kept_settleFns | with_reducible apply Kept.foldl | simp only [Kept.mk3, Kept.mk4] | (intro _) | split)

theorem kept_execTenantResetPipesDrained {s0 : State} (t : Tid) (s : State) (hks : Kept s0 s) : OutKept s0
      (execTenantResetPipesDrained t s) := by
  unfold execTenantResetPipesDrained
  try dsimp only
  repeat' (first | with_reducible assumption | with_reducible apply kept_finishReset | with_reducible apply OutKept.next | exact OutKept.fault _ | exact OutKept.refused _ | simp only [Kept.mk3, Kept.mk4] | (intro _) | split)

theorem kept_requestAll {s0 : State} (s : State) (fn : Fn) (hks : Kept s0 s) : Kept s0 (State.requestAll s fn) := by
  unfold State.requestAll
  try dsimp only
  repeat' (first | with_reducible assumption | with_reducible apply kept_request | with_reducible apply Kept.foldl | simp only [Kept.mk3, Kept.mk4] | (intro _) | split)

theorem kept_sendMessage {s0 : State} (s : State) (fn : Fn) (k : Nat) (hks : Kept s0 s) : Kept s0 (State.sendMessage s fn k)
      := by
  unfold State.sendMessage
  try dsimp only
  repeat' (first | with_reducible assumption | with_reducible apply kept_emit | with_reducible apply kept_updFn | with_reducible apply K1.getD | simp only [Kept.mk3, Kept.mk4] | (intro _) | split)

theorem kept_sendPending {s0 : State} (s : State) (fn : Fn) (hks : Kept s0 s) : Kept s0 (State.sendPending s fn) := by
  unfold State.sendPending
  try dsimp only
  repeat' (first | with_reducible assumption | with_reducible apply kept_sendMessage | with_reducible apply Kept.foldl | simp only [Kept.mk3, Kept.mk4] | (intro _) | split)

theorem kept_execInterruptMessage {s0 : State} (fn : Fn) (vec : Fin 72) (s : State) (hks : Kept s0 s) : OutKept s0
      (execInterruptMessage fn vec s) := by
  unfold execInterruptMessage
  try dsimp only
  repeat' (first | with_reducible assumption | with_reducible apply kept_sendMessage | with_reducible apply OutKept.next | exact OutKept.fault _ | exact OutKept.refused _ | simp only [Kept.mk3, Kept.mk4] | (intro _) | split)

theorem kept_msixTableWrite {s0 : State} (s : State) (fn : Fn) (vec dw : Nat) (be : BitVec 4) (v : Word) (hks : Kept s0 s) :
      Kept s0 (State.msixTableWrite s fn vec dw be v) := by
  unfold State.msixTableWrite
  try dsimp only
  repeat' (first | with_reducible assumption | with_reducible apply kept_updFn | with_reducible apply kept_countErr | with_reducible apply K1.getD | simp only [Kept.mk3, Kept.mk4] | (intro _) | split)

theorem kept_cfgAct {s0 : State} (s : State) (fn : Fn) (a0 : CfgReq) (hks : Kept s0 s) : Kept s0 (State.cfgAct s fn a0) := by
  unfold State.cfgAct
  try dsimp only
  repeat' (first | with_reducible assumption | with_reducible apply kept_drawn | with_reducible apply kept_emit | with_reducible apply kept_updFn | simp only [Kept.mk3, Kept.mk4] | (intro _) | split)

theorem kept_cfgRequest {s0 : State} (s : State) (fn : Fn) (req : CfgReq) (hks : Kept s0 s) : Kept s0 (State.cfgRequest s fn
      req) := by
  unfold State.cfgRequest
  try dsimp only
  repeat' (first | with_reducible assumption | with_reducible apply kept_emit | with_reducible apply kept_endLull | with_reducible apply kept_aerUncorrectable | with_reducible apply kept_cfgAct | simp only [Kept.mk3, Kept.mk4] | (intro _) | split)

theorem kept_execConfigurationRequest {s0 : State} (fn : Fn) (req : CfgReq) (s : State) (hks : Kept s0 s) : OutKept s0
      (execConfigurationRequest fn req s) := by
  unfold execConfigurationRequest
  try dsimp only
  repeat' (first | with_reducible assumption | with_reducible apply kept_msixTableWrite | with_reducible apply kept_cfgRequest | with_reducible apply OutKept.next | exact OutKept.fault _ | exact OutKept.refused _ | simp only [Kept.mk3, Kept.mk4] | (intro _) | split)

theorem kept_clearFeatures {s0 : State} (s : State) (hks : Kept s0 s) : Kept s0 (State.clearFeatures s) := by
  unfold State.clearFeatures
  try dsimp only
  repeat' (first | with_reducible assumption | simp only [Kept.mk3, Kept.mk4] | (intro _) | split)

theorem kept_dropVfs {s0 : State} (s : State) (hks : Kept s0 s) : Kept s0 (State.dropVfs s) := by
  unfold State.dropVfs
  try dsimp only
  repeat' (first | with_reducible assumption | with_reducible apply kept_raise | with_reducible apply kept_restart | simp only [Kept.mk3, Kept.mk4] | (intro _) | split)

theorem kept_clearHostSide {s0 : State} (s : State) (hks : Kept s0 s) : Kept s0 (State.clearHostSide s) := by
  unfold State.clearHostSide
  try dsimp only
  repeat' (first | with_reducible assumption | simp only [Kept.mk3, Kept.mk4] | (intro _) | split)

theorem kept_pcieReset {s0 : State} (s : State) (ltssm : BitVec 5) (hks : Kept s0 s) : Kept s0 (State.pcieReset s ltssm) := by
  unfold State.pcieReset
  try dsimp only
  repeat' (first | with_reducible assumption | with_reducible apply kept_raise | with_reducible apply kept_restart | with_reducible apply kept_lapseNonces | with_reducible apply kept_resetTenants | with_reducible apply kept_settleFns | with_reducible apply kept_clearFeatures | with_reducible apply kept_clearHostSide | simp only [Kept.mk3, Kept.mk4] | (intro _) | split)

theorem kept_execPerstAssert {s0 : State} (s : State) (hks : Kept s0 s) : OutKept s0 (execPerstAssert s) := by
  unfold execPerstAssert
  try dsimp only
  repeat' (first | with_reducible assumption | with_reducible apply kept_raise | with_reducible apply kept_pcieReset | with_reducible apply OutKept.next | exact OutKept.fault _ | exact OutKept.refused _ | simp only [Kept.mk3, Kept.mk4] | (intro _) | split)

theorem kept_execPerstRelease {s0 : State} (s : State) (hks : Kept s0 s) : OutKept s0 (execPerstRelease s) := by
  unfold execPerstRelease
  try dsimp only
  repeat' (first | with_reducible assumption | with_reducible apply OutKept.next | exact OutKept.fault _ | exact OutKept.refused _ | simp only [Kept.mk3, Kept.mk4] | (intro _) | split)

theorem kept_execHotReset {s0 : State} (s : State) (hks : Kept s0 s) : OutKept s0 (execHotReset s) := by
  unfold execHotReset
  try dsimp only
  repeat' (first | with_reducible assumption | with_reducible apply kept_pcieReset | with_reducible apply OutKept.next | exact OutKept.fault _ | exact OutKept.refused _ | simp only [Kept.mk3, Kept.mk4] | (intro _) | split)

theorem kept_execLinkDown {s0 : State} (s : State) (hks : Kept s0 s) : OutKept s0 (execLinkDown s) := by
  unfold execLinkDown
  try dsimp only
  repeat' (first | with_reducible assumption | with_reducible apply kept_pcieReset | with_reducible apply OutKept.next | exact OutKept.fault _ | exact OutKept.refused _ | simp only [Kept.mk3, Kept.mk4] | (intro _) | split)

theorem kept_execLinkUp {s0 : State} (speed : BitVec 3) (width : BitVec 3) (s : State) (hks : Kept s0 s) : OutKept s0
      (execLinkUp speed width s) := by
  unfold execLinkUp
  try dsimp only
  repeat' (first | with_reducible assumption | with_reducible apply kept_updInta | with_reducible apply kept_raise | with_reducible apply OutKept.next | exact OutKept.fault _ | exact OutKept.refused _ | simp only [Kept.mk3, Kept.mk4] | (intro _) | split)

theorem kept_execSpeedWidthChange {s0 : State} (speed width : BitVec 3) (ltssm : BitVec 5) (s : State) (hks : Kept s0 s) :
      OutKept s0 (execSpeedWidthChange speed width ltssm s) := by
  unfold execSpeedWidthChange
  try dsimp only
  repeat' (first | with_reducible assumption | with_reducible apply kept_raise | with_reducible apply OutKept.next | exact OutKept.fault _ | exact OutKept.refused _ | simp only [Kept.mk3, Kept.mk4] | (intro _) | split)

theorem kept_execFlr {s0 : State} (fn : Fn) (s : State) (hks : Kept s0 s) : OutKept s0 (execFlr fn s) := by
  unfold execFlr
  try dsimp only
  repeat' (first | with_reducible assumption | with_reducible apply kept_updFn | with_reducible apply kept_updInta | with_reducible apply kept_raise | with_reducible apply kept_restart | with_reducible apply kept_lapseNonces | with_reducible apply kept_resetTenants | with_reducible apply kept_settleFns | with_reducible apply kept_clearFeatures | with_reducible apply kept_dropVfs | with_reducible apply OutKept.next | exact OutKept.fault _ | exact OutKept.refused _ | simp only [Kept.mk3, Kept.mk4] | (intro _) | split)

theorem kept_execVfEnableSet {s0 : State} (numVfs : Fin 64) (ari : Bool) (s : State) (hks : Kept s0 s) : OutKept s0
      (execVfEnableSet numVfs ari s) := by
  unfold execVfEnableSet
  try dsimp only
  repeat' (first | with_reducible assumption | with_reducible apply kept_raise | with_reducible apply OutKept.next | exact OutKept.fault _ | exact OutKept.refused _ | simp only [Kept.mk3, Kept.mk4] | (intro _) | split)

theorem kept_execVfEnableClear {s0 : State} (s : State) (hks : Kept s0 s) : OutKept s0 (execVfEnableClear s) := by
  unfold execVfEnableClear
  try dsimp only
  repeat' (first | with_reducible assumption | with_reducible apply kept_resetTenants | with_reducible apply kept_settleFns | with_reducible apply kept_dropVfs | with_reducible apply OutKept.next | exact OutKept.fault _ | exact OutKept.refused _ | simp only [Kept.mk3, Kept.mk4] | (intro _) | split)

theorem kept_bmeCleared {s0 : State} (s : State) (fn : Fn) (hks : Kept s0 s) : Kept s0 (State.bmeCleared s fn) := by
  unfold State.bmeCleared
  try dsimp only
  repeat' (first | with_reducible assumption | with_reducible apply kept_updFn | with_reducible apply kept_resetTenants | with_reducible apply kept_settleFns | simp only [Kept.mk3, Kept.mk4] | (intro _) | split)

theorem kept_execBusMasterEnableClear {s0 : State} (fn : Fn) (s : State) (hks : Kept s0 s) : OutKept s0
      (execBusMasterEnableClear fn s) := by
  unfold execBusMasterEnableClear
  try dsimp only
  repeat' (first | with_reducible assumption | with_reducible apply kept_updFn | with_reducible apply kept_raise | with_reducible apply kept_bmeCleared | with_reducible apply OutKept.next | exact OutKept.fault _ | exact OutKept.refused _ | simp only [Kept.mk3, Kept.mk4] | (intro _) | split)

theorem kept_execBusMasterEnableSet {s0 : State} (fn : Fn) (s : State) (hks : Kept s0 s) : OutKept s0 (execBusMasterEnableSet
      fn s) := by
  unfold execBusMasterEnableSet
  try dsimp only
  repeat' (first | with_reducible assumption | with_reducible apply kept_updFn | with_reducible apply kept_sendPending | with_reducible apply OutKept.next | exact OutKept.fault _ | exact OutKept.refused _ | simp only [Kept.mk3, Kept.mk4] | (intro _) | split)

theorem kept_execInterruptModeChange {s0 : State} (fn : Fn) (cfg : IntCfg) (s : State) (hks : Kept s0 s) : OutKept s0
      (execInterruptModeChange fn cfg s) := by
  unfold execInterruptModeChange
  try dsimp only
  repeat' (first | with_reducible assumption | with_reducible apply kept_updFn | with_reducible apply kept_updInta | with_reducible apply kept_requestAll | with_reducible apply OutKept.next | exact OutKept.fault _ | exact OutKept.refused _ | simp only [Kept.mk3, Kept.mk4] | (intro _) | split)

theorem kept_execVectorUnmask {s0 : State} (fn : Fn) (msix : Bool) (vec : Fin 72) (s : State) (hks : Kept s0 s) : OutKept s0
      (execVectorUnmask fn msix vec s) := by
  unfold execVectorUnmask
  try dsimp only
  repeat' (first | with_reducible assumption | with_reducible apply kept_updFn | with_reducible apply kept_sendMessage | with_reducible apply OutKept.next | exact OutKept.fault _ | exact OutKept.refused _ | simp only [Kept.mk3, Kept.mk4] | (intro _) | split)

theorem kept_execInterruptDisable {s0 : State} (on : Bool) (s : State) (hks : Kept s0 s) : OutKept s0 (execInterruptDisable on
      s) := by
  unfold execInterruptDisable
  try dsimp only
  repeat' (first | with_reducible assumption | with_reducible apply kept_updInta | with_reducible apply OutKept.next | exact OutKept.fault _ | exact OutKept.refused _ | simp only [Kept.mk3, Kept.mk4] | (intro _) | split)

theorem kept_execD3hotEntry {s0 : State} (fn : Fn) (s : State) (hks : Kept s0 s) : OutKept s0 (execD3hotEntry fn s) := by
  unfold execD3hotEntry
  try dsimp only
  repeat' (first | with_reducible assumption | with_reducible apply kept_updFn | with_reducible apply kept_bmeCleared | with_reducible apply OutKept.next | exact OutKept.fault _ | exact OutKept.refused _ | simp only [Kept.mk3, Kept.mk4] | (intro _) | split)

theorem kept_execPoisonedMemoryWrite {s0 : State} (space : BarSpace) (s : State) (hks : Kept s0 s) : OutKept s0
      (execPoisonedMemoryWrite space s) := by
  unfold execPoisonedMemoryWrite
  try dsimp only
  repeat' (first | with_reducible assumption | with_reducible apply kept_poisonReceived | with_reducible apply OutKept.next | exact OutKept.fault _ | exact OutKept.refused _ | simp only [Kept.mk3, Kept.mk4] | (intro _) | split)

theorem kept_linkErrorLogged {s0 : State} (s : State) (e : LinkError) (hks : Kept s0 s) : Kept s0 (State.linkErrorLogged s e)
      := by
  unfold State.linkErrorLogged
  try dsimp only
  repeat' (first | with_reducible assumption | with_reducible apply kept_aerUncorrectable | with_reducible apply kept_aerCorrectable | simp only [Kept.mk3, Kept.mk4] | (intro _) | split)

theorem kept_execUnsupportedRequest {s0 : State} (fn : Fn) (kind : UrKind) (s : State) (hks : Kept s0 s) : OutKept s0
      (execUnsupportedRequest fn kind s) := by
  unfold execUnsupportedRequest
  try dsimp only
  repeat' (first | with_reducible assumption | with_reducible apply kept_emit | with_reducible apply kept_aerUncorrectable | with_reducible apply kept_linkErrorLogged | with_reducible apply OutKept.next | exact OutKept.fault _ | exact OutKept.refused _ | simp only [Kept.mk3, Kept.mk4] | (intro _) | split)

theorem kept_execStaleCompletion {s0 : State} (rtag n : Nat) (ep : Bool) (s : State) (hks : Kept s0 s) : OutKept s0
      (execStaleCompletion rtag n ep s) := by
  unfold execStaleCompletion
  try dsimp only
  repeat' (first | with_reducible assumption | with_reducible apply kept_aerUncorrectable | with_reducible apply kept_poisonReceived | with_reducible apply OutKept.next | exact OutKept.fault _ | exact OutKept.refused _ | simp only [Kept.mk3, Kept.mk4] | (intro _) | split)

theorem kept_execAspmL1Entry {s0 : State} (clkreqHigh : Bool) (s : State) (hks : Kept s0 s) : OutKept s0 (execAspmL1Entry
      clkreqHigh s) := by
  unfold execAspmL1Entry
  try dsimp only
  repeat' (first | with_reducible assumption | with_reducible apply OutKept.next | exact OutKept.fault _ | exact OutKept.refused _ | simp only [Kept.mk3, Kept.mk4] | (intro _) | split)

end Sys2Proof.Machine
end

