-- ==== Sys2Proof/Laws/KeptEvr.lean ====
section
/-!
SUPPORT. What the operations of Machine/Evr.lean keep.
-/
set_option linter.unusedTactic false
set_option linter.unreachableTactic false
set_option linter.unusedVariables false
set_option linter.unusedSimpArgs false

namespace Sys2Proof.Machine

theorem kept_storeRec {s0 : State} (s : State) (r : EvRec) (hks : Kept s0 s) : Kept s0 (State.storeRec s r) := by
  unfold State.storeRec
  split
  · exact hks.nvmSet { NvmKept.rfl' s.nvm with permanent := List.prefix_append _ _ } rfl
  · split
    · simp only [Kept.mk4]; exact hks
    · split
      · simp only [Kept.mk4]; exact hks
      · exact kept_countDropped _ hks

theorem kept_passBegin {s0 : State} (s : State) (hks : Kept s0 s) : Kept s0 (State.passBegin s) := by
  unfold State.passBegin
  try dsimp only
  repeat' (first | with_reducible assumption | with_reducible apply kept_queueOp | with_reducible apply Kept.foldl | simp only [Kept.mk3, Kept.mk4] | (intro _) | split)

theorem kept_passEnd {s0 : State} (s : State) (hks : Kept s0 s) : Kept s0 (State.passEnd s) := by
  unfold State.passEnd
  try dsimp only
  repeat' (first | with_reducible assumption | with_reducible apply kept_raise | with_reducible apply kept_storeRec | with_reducible apply Kept.foldl | simp only [Kept.mk3, Kept.mk4] | (intro _) | split)

theorem kept_execEvrProgrammingPass {s0 : State} (s : State) (hks : Kept s0 s) : OutKept s0 (execEvrProgrammingPass s) := by
  unfold execEvrProgrammingPass
  try dsimp only
  repeat' (first | with_reducible assumption | with_reducible apply kept_endLull | with_reducible apply kept_passBegin | with_reducible apply OutKept.next | exact OutKept.fault _ | exact OutKept.refused _ | simp only [Kept.mk3, Kept.mk4] | (intro _) | split)

theorem kept_execEvrPassEnd {s0 : State} (s : State) (hks : Kept s0 s) : OutKept s0 (execEvrPassEnd s) := by
  unfold execEvrPassEnd
  try dsimp only
  repeat' (first | with_reducible assumption | with_reducible apply kept_passEnd | with_reducible apply OutKept.next | exact OutKept.fault _ | exact OutKept.refused _ | simp only [Kept.mk3, Kept.mk4] | (intro _) | split)

end Sys2Proof.Machine
end

