-- ==== Sys2Proof/Laws/KeptSquall.lean ====
section
/-!
SUPPORT. What the operations of Machine/Squall.lean keep.
-/
set_option linter.unusedTactic false
set_option linter.unreachableTactic false
set_option linter.unusedVariables false
set_option linter.unusedSimpArgs false

namespace Sys2Proof.Machine

theorem kept_dropClasses {s0 : State} (s : State) (hks : Kept s0 s) : Kept s0 (State.dropClasses s) := by
  unfold State.dropClasses
  try dsimp only
  repeat' (first | with_reducible assumption | simp only [Kept.mk3, Kept.mk4] | (intro _) | split)

theorem kept_hungDies {s0 : State} (s : State) (hung : List (Fin 256)) (hks : Kept s0 s) : Kept s0 (State.hungDies s hung) := by
  unfold State.hungDies
  try dsimp only
  repeat' (first | with_reducible assumption | with_reducible apply kept_failDie | with_reducible apply Kept.foldl | simp only [Kept.mk3, Kept.mk4] | (intro _) | split)

theorem kept_flushStart {s0 : State} (s : State) (hks : Kept s0 s) : Kept s0 (State.flushStart s) := by
  unfold State.flushStart
  try dsimp only
  repeat' (first | with_reducible assumption | with_reducible refine K1.elim (kept_placeIn _ _ _ _ _ ?_) ‹_› | with_reducible apply kept_placeIn | with_reducible apply Kept.foldl | with_reducible apply K1.getD | simp only [Kept.mk3, Kept.mk4] | (intro _) | split)

theorem kept_parityStart {s0 : State} (s : State) (hks : Kept s0 s) : Kept s0 (State.parityStart s) := by
  unfold State.parityStart
  try dsimp only
  repeat' (first | with_reducible assumption | with_reducible apply kept_updSb | with_reducible apply kept_queueOp | with_reducible apply Kept.foldl | simp only [Kept.mk3, Kept.mk4] | (intro _) | split)

theorem kept_tailStart {s0 : State} (s : State) (hks : Kept s0 s) : Kept s0 (State.tailStart s) := by
  unfold State.tailStart
  try dsimp only
  repeat' (first | with_reducible assumption | with_reducible apply kept_queueOp | with_reducible apply Kept.foldl | simp only [Kept.mk3, Kept.mk4] | (intro _) | split)

theorem kept_systemRecord {s0 : State} (s : State) (hks : Kept s0 s) : Kept s0 (State.systemRecord s) := by
  unfold State.systemRecord
  have h1 : Kept s0 (if s.boot.tGust.isSome then s.meterSave else s) := by
    split
    · exact kept_meterSave _ hks
    · exact hks
  generalize (if s.boot.tGust.isSome then s.meterSave else s) = a at h1
  have h2 : Kept s0 (if s.dev.level = .gust then a.saveGust else a) := by
    split
    · exact kept_saveGust _ h1
    · exact h1
  dsimp only
  generalize (if s.dev.level = .gust then a.saveGust else a) = b at h2
  refine h2.updNvm rfl rfl { NvmKept.rfl' b.nvm with reserved := ?_ } rfl
  dsimp only
  split
  · exact Nat.le_max_left _ _
  · exact le_refl _

theorem kept_markStep {s0 : State} (s : State) (n : Nat) (hks : Kept s0 s) : Kept s0 (State.markStep s n) := by
  unfold State.markStep
  try dsimp only
  repeat' (first | with_reducible assumption | simp only [Kept.mk3, Kept.mk4] | (intro _) | split)

theorem kept_enterStep {s0 : State} (s : State) (n : Nat) (hks : Kept s0 s) : Kept s0 (State.enterStep s n) := by
  unfold State.enterStep
  try dsimp only
  repeat' (first | with_reducible assumption | with_reducible apply kept_passBegin | with_reducible apply kept_passEnd | with_reducible apply kept_dropClasses | with_reducible apply kept_flushStart | with_reducible apply kept_parityStart | with_reducible apply kept_tailStart | with_reducible apply kept_step | simp only [Kept.mk3, Kept.mk4] | (intro _) | split)

theorem kept_wakeChannels {s0 : State} (s : State) (hks : Kept s0 s) : Kept s0 (State.wakeChannels s) := by
  unfold State.wakeChannels
  try dsimp only
  repeat' (first | with_reducible assumption | simp only [Kept.mk3, Kept.mk4] | (intro _) | split)

theorem kept_leaveStep {s0 : State} (s : State) (n : Nat) (hks : Kept s0 s) : Kept s0 (State.leaveStep s n) := by
  unfold State.leaveStep
  try dsimp only
  repeat' (first | with_reducible assumption | with_reducible apply kept_sendPkt | with_reducible apply kept_passEnd | with_reducible apply kept_systemRecord | with_reducible apply kept_wakeChannels | simp only [Kept.mk3, Kept.mk4] | (intro _) | split)

theorem kept_causeReset {s0 : State} (s : State) (hks : Kept s0 s) : Kept s0 (State.causeReset s) := by
  unfold State.causeReset
  try dsimp only
  repeat' (first | with_reducible assumption | with_reducible apply kept_addCause | with_reducible apply kept_restart | simp only [Kept.mk3, Kept.mk4] | (intro _) | split)

theorem kept_finalHold {s0 : State} (s : State) (hks : Kept s0 s) : Kept s0 (State.finalHold s) := by
  unfold State.finalHold
  try dsimp only
  repeat' (first | with_reducible assumption | with_reducible apply kept_addCause | with_reducible apply kept_zeroiseAll | simp only [Kept.mk3, Kept.mk4] | (intro _) | split)

theorem kept_squallOver {s0 : State} (s : State) (hks : Kept s0 s) : Kept s0 (State.squallOver s) := by
  unfold State.squallOver
  try dsimp only
  repeat' (first | with_reducible assumption | with_reducible apply kept_restart | with_reducible apply kept_internalReset | with_reducible apply kept_causeReset | with_reducible apply kept_finalHold | simp only [Kept.mk3, Kept.mk4] | (intro _) | split)

theorem kept_execSquallStepEnd {s0 : State} (hung : List (Fin 256)) (s : State) (hks : Kept s0 s) : OutKept s0
      (execSquallStepEnd hung s) := by
  unfold execSquallStepEnd
  try dsimp only
  repeat' (first | with_reducible assumption | with_reducible apply kept_hungDies | with_reducible apply kept_markStep | with_reducible apply kept_enterStep | with_reducible apply kept_leaveStep | with_reducible apply kept_squallOver | with_reducible apply kept_step | with_reducible apply OutKept.next | exact OutKept.fault _ | exact OutKept.refused _ | simp only [Kept.mk3, Kept.mk4] | (intro _) | split)

theorem kept_execSquallRestart {s0 : State} (pfailHigh : Nat) (s : State) (hks : Kept s0 s) : OutKept s0 (execSquallRestart
      pfailHigh s) := by
  unfold execSquallRestart
  try dsimp only
  repeat' (first | with_reducible assumption | with_reducible apply kept_internalReset | with_reducible apply OutKept.next | exact OutKept.fault _ | exact OutKept.refused _ | simp only [Kept.mk3, Kept.mk4] | (intro _) | split)

theorem kept_execThermalRestart {s0 : State} (s : State) (hks : Kept s0 s) : OutKept s0 (execThermalRestart s) := by
  unfold execThermalRestart
  try dsimp only
  repeat' (first | with_reducible assumption | with_reducible apply kept_internalReset | with_reducible apply OutKept.next | exact OutKept.fault _ | exact OutKept.refused _ | simp only [Kept.mk3, Kept.mk4] | (intro _) | split)

theorem kept_execPfailLFall {s0 : State} (s : State) (hks : Kept s0 s) : OutKept s0 (execPfailLFall s) := by
  unfold execPfailLFall
  try dsimp only
  repeat' (first | with_reducible assumption | with_reducible apply kept_squallTrigger | with_reducible apply OutKept.next | exact OutKept.fault _ | exact OutKept.refused _ | simp only [Kept.mk3, Kept.mk4] | (intro _) | split)

theorem kept_execVsupConversion {s0 : State} (mV : Nat) (s : State) (hks : Kept s0 s) : OutKept s0 (execVsupConversion mV s)
      := by
  unfold execVsupConversion
  try dsimp only
  repeat' (first | with_reducible assumption | with_reducible apply kept_squallTrigger | with_reducible apply OutKept.next | exact OutKept.fault _ | exact OutKept.refused _ | simp only [Kept.mk3, Kept.mk4] | (intro _) | split)

theorem kept_execWatchdogExpiry {s0 : State} (s : State) (hks : Kept s0 s) : OutKept s0 (execWatchdogExpiry s) := by
  unfold execWatchdogExpiry
  try dsimp only
  repeat' (first | with_reducible assumption | with_reducible apply kept_squallTrigger | with_reducible apply OutKept.next | exact OutKept.fault _ | exact OutKept.refused _ | simp only [Kept.mk3, Kept.mk4] | (intro _) | split)

theorem kept_execPowerOnReset {s0 : State} (s : State) (hks : Kept s0 s) : OutKept s0 (execPowerOnReset s) :=
  OutKept.next (hks.trans (kept_reset rfl rfl rfl rfl rfl rfl rfl))

theorem kept_execResetInLAssert {s0 : State} (lowNs : Nat) (s : State) (hks : Kept s0 s) : OutKept s0 (execResetInLAssert
      lowNs s) := by
  unfold execResetInLAssert
  try dsimp only
  repeat' (first | with_reducible assumption | with_reducible apply kept_drawn | with_reducible apply kept_addCause | with_reducible apply kept_chipReset | with_reducible apply kept_squallTrigger | with_reducible apply kept_act | with_reducible apply OutKept.next | exact OutKept.fault _ | exact OutKept.refused _ | simp only [Kept.mk3, Kept.mk4] | (intro _) | split)

theorem kept_execCrystalMonitorWindow {s0 : State} (count : BitVec 16) (noEdge : Bool) (pllLost : Bool) (s : State) (hks :
      Kept s0 s) : OutKept s0 (execCrystalMonitorWindow count noEdge pllLost s) := by
  unfold execCrystalMonitorWindow
  try dsimp only
  repeat' (first | with_reducible assumption | with_reducible apply OutKept.next | exact OutKept.fault _ | exact OutKept.refused _ | simp only [Kept.mk3, Kept.mk4] | (intro _) | split)

theorem kept_utcLapse {s0 : State} (s : State) (hks : Kept s0 s) : Kept s0 (State.utcLapse s) := by
  unfold State.utcLapse
  try dsimp only
  repeat' (first | with_reducible assumption | simp only [Kept.mk3, Kept.mk4] | (intro _) | split)

theorem kept_execCrystalMonitorTrip {s0 : State} (s : State) (hks : Kept s0 s) : OutKept s0 (execCrystalMonitorTrip s) := by
  unfold execCrystalMonitorTrip
  try dsimp only
  repeat' (first | with_reducible assumption | with_reducible apply kept_addCause | with_reducible apply kept_squallTrigger | with_reducible apply kept_linksDown | with_reducible apply kept_utcLapse | with_reducible apply OutKept.next | exact OutKept.fault _ | exact OutKept.refused _ | simp only [Kept.mk3, Kept.mk4] | (intro _) | split)

end Sys2Proof.Machine
end

