-- ==== Sys2Proof/Laws/KeptPower.lean ====
section
/-!
SUPPORT. What the operations of Machine/Power.lean keep.
-/
set_option linter.unusedTactic false
set_option linter.unreachableTactic false
set_option linter.unusedVariables false
set_option linter.unusedSimpArgs false

namespace Sys2Proof.Machine

theorem kept_updDom {s0 : State} (s : State) (d : Fin 5) (f : Domain → Domain) (hks : Kept s0 s) : Kept s0 (State.updDom s d
      f) := by
  unfold State.updDom
  try dsimp only
  repeat' (first | with_reducible assumption | simp only [Kept.mk3, Kept.mk4] | (intro _) | split)

theorem kept_execDomainGate {s0 : State} (d : Fin 5) (s : State) (hks : Kept s0 s) : OutKept s0 (execDomainGate d s) := by
  unfold execDomainGate
  try dsimp only
  repeat' (first | with_reducible assumption | with_reducible apply kept_updDom | with_reducible apply OutKept.next | exact OutKept.fault _ | exact OutKept.refused _ | simp only [Kept.mk3, Kept.mk4] | (intro _) | split)

theorem kept_execDomainPowerDown {s0 : State} (d : Fin 5) (s : State) (hks : Kept s0 s) : OutKept s0 (execDomainPowerDown d s)
      := by
  unfold execDomainPowerDown
  try dsimp only
  repeat' (first | with_reducible assumption | with_reducible apply kept_updDom | with_reducible apply OutKept.next | exact OutKept.fault _ | exact OutKept.refused _ | simp only [Kept.mk3, Kept.mk4] | (intro _) | split)

theorem kept_domWake {s0 : State} (s : State) (d : Fin 5) (hks : Kept s0 s) : Kept s0 (State.domWake s d) := by
  unfold State.domWake
  try dsimp only
  repeat' (first | with_reducible assumption | with_reducible apply kept_updDom | simp only [Kept.mk3, Kept.mk4] | (intro _) | split)

theorem kept_packetTo {s0 : State} (s : State) (d : Fin 5) (hks : Kept s0 s) : Kept s0 (State.packetTo s d) := by
  unfold State.packetTo
  try dsimp only
  repeat' (first | with_reducible assumption | with_reducible apply kept_domWake | simp only [Kept.mk3, Kept.mk4] | (intro _) | split)

theorem kept_execDomainWake {s0 : State} (d : Fin 5) (s : State) (hks : Kept s0 s) : OutKept s0 (execDomainWake d s) := by
  unfold execDomainWake
  try dsimp only
  repeat' (first | with_reducible assumption | with_reducible apply kept_packetTo | with_reducible apply OutKept.next | exact OutKept.fault _ | exact OutKept.refused _ | simp only [Kept.mk3, Kept.mk4] | (intro _) | split)

theorem kept_execLullEntry {s0 : State} (s : State) (hks : Kept s0 s) : OutKept s0 (execLullEntry s) := by
  unfold execLullEntry
  try dsimp only
  repeat' (first | with_reducible assumption | with_reducible apply OutKept.next | exact OutKept.fault _ | exact OutKept.refused _ | simp only [Kept.mk3, Kept.mk4] | (intro _) | split)

theorem kept_execLullExit {s0 : State} (_ev : WakeEvent) (s : State) (hks : Kept s0 s) : OutKept s0 (execLullExit _ev s) := by
  unfold execLullExit
  try dsimp only
  repeat' (first | with_reducible assumption | with_reducible apply kept_endLull | with_reducible apply OutKept.next | exact OutKept.fault _ | exact OutKept.refused _ | simp only [Kept.mk3, Kept.mk4] | (intro _) | split)

end Sys2Proof.Machine
end

