-- ==== Sys2Proof/Laws/KeptPair.lean ====
section
/-!
SUPPORT. What the operations of Machine/Pair.lean keep.
-/
set_option linter.unusedTactic false
set_option linter.unreachableTactic false
set_option linter.unusedVariables false
set_option linter.unusedSimpArgs false

namespace Sys2Proof.Machine

theorem kept_unpair {s0 : State} (s : State) (reason : BitVec 3) (hks : Kept s0 s) : Kept s0 (State.unpair s reason) := by
  unfold State.unpair
  try dsimp only
  repeat' (first | with_reducible assumption | with_reducible apply kept_raise | with_reducible apply kept_raiseRecStatus | simp only [Kept.mk3, Kept.mk4] | (intro _) | split)

theorem kept_enterResync {s0 : State} (s : State) (hks : Kept s0 s) : Kept s0 (State.enterResync s) := by
  unfold State.enterResync
  try dsimp only
  repeat' (first | with_reducible assumption | with_reducible apply kept_sendLong | simp only [Kept.mk3, Kept.mk4] | (intro _) | split)

theorem kept_pairCheck {s0 : State} (s : State) (hks : Kept s0 s) : Kept s0 (State.pairCheck s) := by
  unfold State.pairCheck
  try dsimp only
  repeat' (first | with_reducible assumption | with_reducible apply kept_unpair | with_reducible apply kept_enterResync | simp only [Kept.mk3, Kept.mk4] | (intro _) | split)

end Sys2Proof.Machine
end

