-- ==== Sys2Proof/Laws/KeptStart.lean ====
section
/-!
SUPPORT. What the operations of Machine/Start.lean keep.
-/
set_option linter.unusedTactic false
set_option linter.unreachableTactic false
set_option linter.unusedVariables false
set_option linter.unusedSimpArgs false

namespace Sys2Proof.Machine

theorem kept_restore {s0 : State} (s : State) (p : Tid → Bool) (hks : Kept s0 s) : Kept s0 (State.restore s p) := by
  unfold State.restore
  try dsimp only
  repeat' (first | with_reducible assumption | simp only [Kept.mk3, Kept.mk4] | (intro _) | split)

theorem kept_readSeq {s0 : State} (s : State) (hks : Kept s0 s) : Kept s0 (State.readSeq s) := by
  exact hks.updNvm rfl rfl { NvmKept.rfl' s.nvm with reserved := Nat.le_max_left _ _ } rfl

theorem kept_katResults {s0 : State} (s : State) (kat : BitVec 5) (hks : Kept s0 s) : Kept s0 (State.katResults s kat) := by
  unfold State.katResults
  try dsimp only
  repeat' (first | with_reducible assumption | with_reducible apply kept_drawn | with_reducible apply kept_raise | with_reducible apply kept_raiseRec | with_reducible apply kept_fencePipe | with_reducible apply Kept.foldl | simp only [Kept.mk3, Kept.mk4] | (intro _) | split)

theorem kept_reloadAll {s0 : State} (s : State) (hks : Kept s0 s) : Kept s0 (State.reloadAll s) := by
  unfold State.reloadAll
  try dsimp only
  repeat' (first | with_reducible assumption | with_reducible apply kept_reloadKeys | with_reducible apply Kept.foldl | simp only [Kept.mk3, Kept.mk4] | (intro _) | split)

theorem kept_execGust {s0 : State} (kat : BitVec 5) (s : State) (hks : Kept s0 s) : OutKept s0 (execGust kat s) := by
  unfold execGust
  try dsimp only
  repeat' (first | with_reducible assumption | with_reducible apply kept_drawn | with_reducible apply kept_record | with_reducible apply kept_setLevel | with_reducible apply kept_dispStart | with_reducible apply kept_recover | with_reducible apply kept_meterStart | with_reducible apply kept_restore | with_reducible apply kept_readSeq | with_reducible apply kept_katResults | with_reducible apply kept_reloadAll | with_reducible apply OutKept.next | exact OutKept.fault _ | exact OutKept.refused _ | simp only [Kept.mk3, Kept.mk4] | (intro _) | split)

theorem kept_reportSquall {s0 : State} (s : State) (complete : Bool) (hks : Kept s0 s) : Kept s0 (State.reportSquall s
      complete) := by
  unfold State.reportSquall
  try dsimp only
  repeat' (first | with_reducible assumption | with_reducible apply kept_raise | with_reducible apply kept_record | simp only [Kept.mk3, Kept.mk4] | (intro _) | split)

theorem kept_reportLost {s0 : State} (s : State) (t : Tid) (miss : List Nat) (hks : Kept s0 s) : Kept s0 (State.reportLost s t
      miss) := by
  unfold State.reportLost
  split
  · exact hks
  · dsimp only
    apply kept_raise
    refine (kept_record s 0x1B43 3 (tidByte t) _ hks).nvmSet { NvmKept.rfl' _ with ackLost := fun h => ?_ } rfl
    dsimp only
    omega

theorem kept_compareHead {s0 : State} (s : State) (t : Tid) (lost : Bool) (hks : Kept s0 s) : Kept s0 (State.compareHead s t
      lost) := by
  unfold State.compareHead
  try dsimp only
  repeat' (first | with_reducible assumption | with_reducible apply kept_drawn | with_reducible apply kept_raiseRec | simp only [Kept.mk3, Kept.mk4] | (intro _) | split)

theorem kept_redoErases {s0 : State} (s : State) (hks : Kept s0 s) : Kept s0 (State.redoErases s) := by
  unfold State.redoErases
  try dsimp only
  repeat' (first | with_reducible assumption | with_reducible apply kept_updSb | with_reducible apply kept_queueErases | with_reducible apply kept_eraseSb | with_reducible apply Kept.foldl | simp only [Kept.mk3, Kept.mk4] | (intro _) | split)

theorem kept_redoResets {s0 : State} (s : State) (hks : Kept s0 s) : Kept s0 (State.redoResets s) := by
  unfold State.redoResets
  try dsimp only
  repeat' (first | with_reducible assumption | with_reducible apply kept_emptyZone | with_reducible apply Kept.foldl | simp only [Kept.mk3, Kept.mk4] | (intro _) | split)

theorem kept_execPowerFailReplay {s0 : State} (s : State) (hks : Kept s0 s) : OutKept s0 (execPowerFailReplay s) := by
  unfold execPowerFailReplay
  try dsimp only
  repeat' (first | with_reducible assumption | with_reducible apply kept_restore | with_reducible apply kept_reportSquall | with_reducible apply kept_reportLost | with_reducible apply kept_compareHead | with_reducible apply kept_redoErases | with_reducible apply kept_redoResets | with_reducible apply OutKept.next | exact OutKept.fault _ | exact OutKept.refused _ | with_reducible apply Kept.foldl | simp only [Kept.mk3, Kept.mk4] | (intro _) | split | refine Kept.updNvm (x := s.redoResets.restore (fun _ => true)) ?_ rfl rfl (NvmKept.same rfl) rfl)

theorem kept_execGustMerge {s0 : State} (zone : BitVec 20) (s : State) (hks : Kept s0 s) : OutKept s0 (execGustMerge zone s)
      := by
  unfold execGustMerge
  try dsimp only
  repeat' (first | with_reducible assumption | with_reducible apply kept_updZone | with_reducible apply OutKept.next | exact OutKept.fault _ | exact OutKept.refused _ | simp only [Kept.mk3, Kept.mk4] | (intro _) | split)

theorem kept_refillSet {s0 : State} (s : State) (t : Tid) (n : Nat) (hks : Kept s0 s) : Kept s0 (State.refillSet s t n) := by
  induction n generalizing s with
  | zero => exact hks
  | succ k ih =>
    unfold State.refillSet
    split
    · rename_i z s1 e
      exact ih _ (kept_updZone _ _ _ ((kept_takeZone s t true true hks).elim e))
    · exact hks

theorem kept_refillGust {s0 : State} (s : State) (d : BoardDesc) (hks : Kept s0 s) : Kept s0 (State.refillGust s d) := by
  unfold State.refillGust
  try dsimp only
  repeat' (first | with_reducible assumption | with_reducible apply kept_refillSet | with_reducible apply Kept.foldl | simp only [Kept.mk3, Kept.mk4] | (intro _) | split)

theorem kept_confirmSlot {s0 : State} (s : State) (hks : Kept s0 s) : Kept s0 (State.confirmSlot s) := by
  unfold State.confirmSlot
  split
  · exact hks
  · refine Kept.updNvm (kept_writeRec s _ hks) rfl rfl { NvmKept.rfl' _ with floor := fun h => ?_ } rfl
    exact ⟨Nat.le_min.mpr ⟨h, Nat.le_max_left _ _⟩, Nat.min_le_left _ _⟩

theorem kept_applyLatched {s0 : State} (s : State) (hks : Kept s0 s) : Kept s0 (State.applyLatched s) := by
  unfold State.applyLatched
  try dsimp only
  repeat' (first | with_reducible assumption | with_reducible apply kept_holdPulse | with_reducible apply Kept.foldl | simp only [Kept.mk3, Kept.mk4] | (intro _) | split)

theorem kept_execFull {s0 : State} (s : State) (hks : Kept s0 s) : OutKept s0 (execFull s) := by
  unfold execFull
  try dsimp only
  repeat' (first | with_reducible assumption | with_reducible apply kept_raiseRecStatus | with_reducible apply kept_setLevel | with_reducible apply kept_advDue | with_reducible apply kept_startPorts | with_reducible apply kept_ackCause | with_reducible apply kept_pairCheck | with_reducible apply kept_refillGust | with_reducible apply kept_confirmSlot | with_reducible apply kept_applyLatched | with_reducible apply OutKept.next | exact OutKept.fault _ | exact OutKept.refused _ | simp only [Kept.mk3, Kept.mk4] | (intro _) | split)

theorem kept_execRecovery {s0 : State} (cause : Byte) (detail : Byte) (s : State) (hks : Kept s0 s) : OutKept s0 (execRecovery
      cause detail s) := by
  unfold execRecovery
  try dsimp only
  repeat' (first | with_reducible assumption | with_reducible apply kept_recover | with_reducible apply OutKept.next | exact OutKept.fault _ | exact OutKept.refused _ | simp only [Kept.mk3, Kept.mk4] | (intro _) | split)

theorem kept_wakeHost {s0 : State} (s : State) (hks : Kept s0 s) : Kept s0 (State.wakeHost s) := by
  unfold State.wakeHost
  try dsimp only
  repeat' (first | with_reducible assumption | with_reducible apply kept_emit | simp only [Kept.mk3, Kept.mk4] | (intro _) | split)

theorem kept_execEventInPulse {s0 : State} (s : State) (hks : Kept s0 s) : OutKept s0 (execEventInPulse s) := by
  unfold execEventInPulse
  try dsimp only
  repeat' (first | with_reducible assumption | with_reducible apply kept_raise | with_reducible apply kept_holdPulse | with_reducible apply kept_wakeHost | with_reducible apply OutKept.next | exact OutKept.fault _ | exact OutKept.refused _ | simp only [Kept.mk3, Kept.mk4] | (intro _) | split)

end Sys2Proof.Machine
end

