-- ==== Sys2Proof/Laws/KeptRomRcv.lean ====
section
/-!
SUPPORT. What the operations of Machine/RomRcv.lean keep.
-/
set_option linter.unusedTactic false
set_option linter.unreachableTactic false
set_option linter.unusedVariables false
set_option linter.unusedSimpArgs false

namespace Sys2Proof.Machine

theorem kept_setRcv {s0 : State} (s : State) (st : Nat) (err : Byte) (hks : Kept s0 s) : Kept s0 (State.setRcv s st err) := by
  unfold State.setRcv
  try dsimp only
  repeat' (first | with_reducible assumption | simp only [Kept.mk3, Kept.mk4] | (intro _) | split)

theorem kept_rcvFail {s0 : State} (s : State) (err : Byte) (hks : Kept s0 s) : Kept s0 (State.rcvFail s err) := by
  unfold State.rcvFail
  try dsimp only
  repeat' (first | with_reducible assumption | with_reducible apply kept_raise | with_reducible apply kept_setRcv | simp only [Kept.mk3, Kept.mk4] | (intro _) | split)

theorem kept_rcvBusy {s0 : State} (s : State) (hks : Kept s0 s) : Kept s0 (State.rcvBusy s) := by
  unfold State.rcvBusy
  try dsimp only
  repeat' (first | with_reducible assumption | with_reducible apply kept_raise | with_reducible apply kept_setRcv | simp only [Kept.mk3, Kept.mk4] | (intro _) | split)

theorem kept_rcvStart_start {s0 : State} (s : State) (spi : Bool) (target total : Nat) (hks : Kept s0 s) :
    Kept s0 (State.rcvStart.start s spi target total) := by
  unfold State.rcvStart.start
  repeat' (first | with_reducible assumption | with_reducible apply kept_rcvFail | with_reducible apply kept_setRcv | simp only [Kept.mk3] | split)

theorem kept_rcvStart {s0 : State} (s : State) (spi : Bool) (target total : Nat) (hks : Kept s0 s) : Kept s0 (State.rcvStart s
      spi target total) := by
  unfold State.rcvStart
  repeat' (first | with_reducible assumption | with_reducible apply kept_rcvBusy | with_reducible apply kept_rcvStart_start | split)

theorem kept_rcvBytes {s0 : State} (s : State) (x : RcvSession) (off : Nat) (b : List Byte) (hks : Kept s0 s) : Kept s0
      (State.rcvBytes s x off b) := by
  unfold State.rcvBytes
  try dsimp only
  repeat' (first | with_reducible assumption | with_reducible apply kept_raise | with_reducible apply kept_setRcv | with_reducible apply kept_rcvFail | simp only [Kept.mk3, Kept.mk4] | (intro _) | split)

theorem kept_rcvWrite {s0 : State} (s : State) (target : Nat) (b : List Byte) (hks : Kept s0 s) : Kept s0 (State.rcvWrite s
      target b) := by
  unfold State.rcvWrite
  try dsimp only
  repeat' (first | with_reducible assumption | with_reducible apply kept_norWrite | with_reducible apply kept_writeRec | simp only [Kept.mk3, Kept.mk4] | (intro _) | split)

theorem kept_otpFailed {s0 : State} (s : State) (hks : Kept s0 s) : Kept s0 (State.otpFailed s) := by
  unfold State.otpFailed
  try dsimp only
  repeat' (first | with_reducible assumption | with_reducible apply kept_drawn | with_reducible apply kept_recordAs | with_reducible apply kept_rcvFail | simp only [Kept.mk3, Kept.mk4] | (intro _) | split)

theorem kept_rcvFinish {s0 : State} (s : State) (x : RcvSession) (otpGood : Bool) (hks : Kept s0 s) : Kept s0 (State.rcvFinish
      s x otpGood) := by
  unfold State.rcvFinish
  try dsimp only
  repeat' (first | with_reducible assumption | with_reducible apply kept_recordAs | with_reducible apply kept_restart | with_reducible apply kept_setRcv | with_reducible apply kept_rcvFail | with_reducible apply kept_rcvWrite | with_reducible apply kept_otpFailed | simp only [Kept.mk3, Kept.mk4] | (intro _) | split)

theorem kept_mailStart {s0 : State} (s : State) (hks : Kept s0 s) : Kept s0 (State.mailStart s) := by
  unfold State.mailStart
  try dsimp only
  repeat' (first | with_reducible assumption | with_reducible apply kept_rcvStart | simp only [Kept.mk3, Kept.mk4] | (intro _) | split)

theorem kept_mailChunk {s0 : State} (s : State) (data : List Byte) (failed : Bool) (hks : Kept s0 s) : Kept s0
      (State.mailChunk s data failed) := by
  unfold State.mailChunk
  try dsimp only
  repeat' (first | with_reducible assumption | with_reducible apply kept_emit | with_reducible apply kept_rcvFail | with_reducible apply kept_rcvBytes | simp only [Kept.mk3, Kept.mk4] | (intro _) | split)

theorem kept_mailFinish {s0 : State} (s : State) (otpGood : Bool) (hks : Kept s0 s) : Kept s0 (State.mailFinish s otpGood) := by
  unfold State.mailFinish
  try dsimp only
  repeat' (first | with_reducible assumption | with_reducible apply kept_rcvFinish | simp only [Kept.mk3, Kept.mk4] | (intro _) | split)

theorem kept_mailAbort {s0 : State} (s : State) (hks : Kept s0 s) : Kept s0 (State.mailAbort s) := by
  unfold State.mailAbort
  try dsimp only
  repeat' (first | with_reducible assumption | with_reducible apply kept_setRcv | simp only [Kept.mk3, Kept.mk4] | (intro _) | split)

theorem kept_rcvAnswer {s0 : State} (s : State) (hdr : Word) (hks : Kept s0 s) : Kept s0 (State.rcvAnswer s hdr) := by
  unfold State.rcvAnswer
  try dsimp only
  repeat' (first | with_reducible assumption | simp only [Kept.mk3, Kept.mk4] | (intro _) | split)

theorem kept_rcvFrame {s0 : State} (s : State) (type : Nat) (hdr : Word) (payload : List Word) (crc : Word) (act : State) (hks
      : Kept s0 s) (hkact : Kept s0 act) : Kept s0 (State.rcvFrame s type hdr payload crc act) := by
  unfold State.rcvFrame
  try dsimp only
  repeat' (first | with_reducible assumption | with_reducible apply kept_raise | with_reducible apply kept_setRcv | with_reducible apply kept_rcvAnswer | simp only [Kept.mk3, Kept.mk4] | (intro _) | split)

theorem kept_execRecoveryFrameStart {s0 : State} (hdr : Word) (payload : List Word) (crc : Word) (s : State) (hks : Kept s0 s)
      : OutKept s0 (execRecoveryFrameStart hdr payload crc s) := by
  unfold execRecoveryFrameStart
  try dsimp only
  repeat' (first | with_reducible assumption | with_reducible apply kept_rcvStart | with_reducible apply kept_rcvFrame | with_reducible apply OutKept.next | exact OutKept.fault _ | exact OutKept.refused _ | simp only [Kept.mk3, Kept.mk4] | (intro _) | split)

theorem kept_execRecoveryFrameData {s0 : State} (hdr : Word) (payload : List Word) (crc : Word) (s : State) (hks : Kept s0 s)
      : OutKept s0 (execRecoveryFrameData hdr payload crc s) := by
  unfold execRecoveryFrameData
  try dsimp only
  repeat' (first | with_reducible assumption | with_reducible apply kept_rcvFail | with_reducible apply kept_rcvBytes | with_reducible apply kept_rcvFrame | with_reducible apply OutKept.next | exact OutKept.fault _ | exact OutKept.refused _ | simp only [Kept.mk3, Kept.mk4] | (intro _) | split)

theorem kept_execRecoveryFrameFinish {s0 : State} (hdr : Word) (payload : List Word) (crc : Word) (otpGood : Bool) (s : State)
      (hks : Kept s0 s) : OutKept s0 (execRecoveryFrameFinish hdr payload crc otpGood s) := by
  unfold execRecoveryFrameFinish
  try dsimp only
  repeat' (first | with_reducible assumption | with_reducible apply kept_rcvFinish | with_reducible apply kept_rcvFrame | with_reducible apply OutKept.next | exact OutKept.fault _ | exact OutKept.refused _ | simp only [Kept.mk3, Kept.mk4] | (intro _) | split)

theorem kept_execRecoveryFrameStatus {s0 : State} (hdr : Word) (payload : List Word) (crc : Word) (s : State) (hks : Kept s0
      s) : OutKept s0 (execRecoveryFrameStatus hdr payload crc s) := by
  unfold execRecoveryFrameStatus
  try dsimp only
  repeat' (first | with_reducible assumption | with_reducible apply kept_rcvFrame | with_reducible apply OutKept.next | exact OutKept.fault _ | exact OutKept.refused _ | simp only [Kept.mk3, Kept.mk4] | (intro _) | split)

end Sys2Proof.Machine
end

