-- ==== Sys2Proof/Laws/KeptLinks.lean ====
section
/-!
SUPPORT. What the operations of Machine/Links.lean keep.
-/
set_option linter.unusedTactic false
set_option linter.unreachableTactic false
set_option linter.unusedVariables false
set_option linter.unusedSimpArgs false

namespace Sys2Proof.Machine

theorem kept_linkFail {s0 : State} (s : State) (port : Fin 4) (step : Nat) (hks : Kept s0 s) : Kept s0 (State.linkFail s port
      step) := by
  unfold State.linkFail
  try dsimp only
  repeat' (first | with_reducible assumption | with_reducible apply kept_raiseRec | with_reducible apply kept_linkLeave | simp only [Kept.mk3, Kept.mk4] | (intro _) | split)

theorem kept_sendHello {s0 : State} (s : State) (port : Fin 4) (f : VflS → VflS) (hks : Kept s0 s) (hf : ∀ l : VflS, l.ok → (f
      l).ok) :
    Kept s0 (State.sendHello s port f) := by
  unfold State.sendHello
  dsimp only
  split
  · rename_i e s1 c hd hc
    exact kept_sendOn _ _ _ (kept_updVfl _ _ _ ((kept_drbg s hks).elim hd) (fun h v => hf _ h v))
  · exact kept_updVfl _ _ _ hks (fun h v => hf _ h v)

theorem kept_gainLock {s0 : State} (s : State) (port : Fin 4) (hks : Kept s0 s) : Kept s0 (State.gainLock s port) := by
  unfold State.gainLock
  split
  · exact hks
  · refine kept_sendHello _ _ _ (kept_advDue _ hks) (fun l _ v => ?_)
    simp only [Fin.getElem_fin, Vector.getElem_replicate]

theorem kept_execBlockLock {s0 : State} (port : Fin 4) (s : State) (hks : Kept s0 s) : OutKept s0 (execBlockLock port s) := by
  unfold execBlockLock
  try dsimp only
  repeat' (first | with_reducible assumption | with_reducible apply kept_gainLock | with_reducible apply OutKept.next | exact OutKept.fault _ | exact OutKept.refused _ | simp only [Kept.mk3, Kept.mk4] | (intro _) | split)

theorem kept_execFabWakeProbe {s0 : State} (locks : BitVec 4) (s : State) (hks : Kept s0 s) : OutKept s0 (execFabWakeProbe
      locks s) := by
  unfold execFabWakeProbe
  try dsimp only
  repeat' (first | with_reducible assumption | with_reducible apply kept_startPorts | with_reducible apply kept_updDom | with_reducible apply kept_domWake | with_reducible apply kept_gainLock | with_reducible apply OutKept.next | exact OutKept.fault _ | exact OutKept.refused _ | with_reducible apply Kept.foldl | simp only [Kept.mk3, Kept.mk4] | (intro _) | split)

theorem kept_execHello {s0 : State} (port : Fin 4) (cert : List Byte) (eph : Wide) (s : State) (hks : Kept s0 s) : OutKept s0
      (execHello port cert eph s) := by
  unfold execHello
  try dsimp only
  repeat' (first | with_reducible assumption | with_reducible apply kept_raise | with_reducible apply kept_updVfl | with_reducible apply kept_sendOn | with_reducible apply kept_linkFail | with_reducible apply kept_sendHello | with_reducible apply OutKept.next | exact OutKept.fault _ | exact OutKept.refused _ | exact fun _ h => h | exact fun h => h | simp only [Kept.mk3, Kept.mk4] | (intro _) | split)

theorem kept_topologyChanged {s0 : State} (s : State) (hks : Kept s0 s) : Kept s0 (State.topologyChanged s) := by
  unfold State.topologyChanged
  try dsimp only
  repeat' (first | with_reducible assumption | with_reducible apply kept_raise | with_reducible apply K1.getD | simp only [Kept.mk3, Kept.mk4] | (intro _) | split)

theorem kept_execConfirm {s0 : State} (port : Fin 4) (sig : Wide) (s : State) (hks : Kept s0 s) : OutKept s0 (execConfirm port
      sig s) := by
  unfold execConfirm
  split
  · exact OutKept.next hks
  · rename_i own _
    dsimp only
    have h1 : Kept s0 (s.updVfl port (fun x => { x.keyed with st := .up, rekeying := false, nbr := certAddr s.vfl[port].peerCert })) :=
      kept_updVfl _ _ _ hks (fun h v => by
        have := h v
        simpa only [VflS.keyed] using this)
    generalize (s.updVfl port (fun x => { x.keyed with st := .up, rekeying := false, nbr := certAddr s.vfl[port].peerCert })) = a at h1
    split
    · exact OutKept.next hks
    · split
      · exact OutKept.next (kept_linkFail _ _ _ hks)
      · refine OutKept.next (kept_drainPort _ _ _ ?_)
        split
        · apply kept_raise
          apply kept_topologyChanged
          simp only [Kept.mk3]
          exact h1
        · exact h1

theorem kept_execBringupTimeout {s0 : State} (port : Fin 4) (s : State) (hks : Kept s0 s) : OutKept s0 (execBringupTimeout
      port s) := by
  unfold execBringupTimeout
  try dsimp only
  repeat' (first | with_reducible assumption | with_reducible apply kept_linkFail | with_reducible apply OutKept.next | exact OutKept.fault _ | exact OutKept.refused _ | simp only [Kept.mk3, Kept.mk4] | (intro _) | split)

theorem kept_execLinkRetry {s0 : State} (port : Fin 4) (s : State) (hks : Kept s0 s) : OutKept s0 (execLinkRetry port s) := by
  unfold execLinkRetry
  try dsimp only
  repeat' (first | with_reducible assumption | with_reducible apply kept_updVfl | with_reducible apply kept_advDue | with_reducible apply OutKept.next | exact OutKept.fault _ | exact OutKept.refused _ | exact fun h => h | simp only [Kept.mk3, Kept.mk4] | (intro _) | split)

theorem kept_execRekey {s0 : State} (port : Fin 4) (s : State) (hks : Kept s0 s) : OutKept s0 (execRekey port s) := by
  unfold execRekey
  try dsimp only
  repeat' (first | with_reducible assumption | with_reducible apply kept_raise | with_reducible refine K2.elim (kept_drbg _ ?_) ‹_› | with_reducible apply kept_drbg | with_reducible apply kept_sendHello | with_reducible apply OutKept.next | exact OutKept.fault _ | exact OutKept.refused _ | exact fun _ h => h | simp only [Kept.mk3, Kept.mk4] | (intro _) | split)

theorem kept_execBlockLockLoss {s0 : State} (port : Fin 4) (s : State) (hks : Kept s0 s) : OutKept s0 (execBlockLockLoss port
      s) := by
  unfold execBlockLockLoss
  try dsimp only
  repeat' (first | with_reducible assumption | with_reducible apply kept_updVfl | with_reducible apply kept_linkLeave | with_reducible apply OutKept.next | exact OutKept.fault _ | exact OutKept.refused _ | exact fun h => h | simp only [Kept.mk3, Kept.mk4] | (intro _) | split)

theorem kept_discardPkt {s0 : State} (s : State) (port : Fin 4) (gcm : Bool) (checks : Bool) (hks : Kept s0 s) : Kept s0
      (State.discardPkt s port gcm checks) := by
  unfold State.discardPkt
  try dsimp only
  repeat' (first | with_reducible assumption | with_reducible apply kept_raise | with_reducible apply kept_updVfl | with_reducible apply kept_linkFail | exact fun h => h | simp only [Kept.mk3, Kept.mk4] | (intro _) | split)

theorem kept_forwardPkt {s0 : State} (s : State) (h : PktHdr) (clear : List Byte) (vc : Fin 3) (hks : Kept s0 s) : Kept s0
      (State.forwardPkt s h clear vc) := by
  unfold State.forwardPkt
  try dsimp only
  repeat' (first | with_reducible assumption | with_reducible apply kept_sendPkt | simp only [Kept.mk3, Kept.mk4] | (intro _) | split)

theorem kept_execPacketReceive {s0 : State} (port : Fin 4) (h : PktHdr) (payload : List Byte) (s : State) (hks : Kept s0 s) :
      OutKept s0 (execPacketReceive port h payload s) := by
  unfold execPacketReceive
  try dsimp only
  repeat' (first | with_reducible assumption | with_reducible apply kept_emit | with_reducible apply kept_endLull | with_reducible apply kept_updVfl | with_reducible apply kept_discardPkt | with_reducible apply kept_forwardPkt | exact fun h => h | with_reducible apply OutKept.next | exact OutKept.fault _ | exact OutKept.refused _ | simp only [Kept.mk3, Kept.mk4] | (intro _) | split)

theorem kept_execCreditBlock {s0 : State} (port : Fin 4) (vc0 : BitVec 6) (vc1 : BitVec 6) (vc2 : BitVec 6) (s : State) (hks :
      Kept s0 s) : OutKept s0 (execCreditBlock port vc0 vc1 vc2 s) := by
  unfold execCreditBlock
  split
  · exact OutKept.next hks
  · dsimp only
    refine OutKept.next (kept_drainPort _ _ _ (kept_updVfl _ _ _ hks (fun h v => ?_)))
    have := h v
    simp only [Fin.getElem_fin, Vector.getElem_ofFn] at this ⊢
    have hm := Nat.min_le_right (#v[vc0.toNat, vc1.toNat, vc2.toNat] : Vector Nat 3)[v.1] s.vfl[port.1].outst[v.1]
    omega

theorem kept_execStuckPacketDrop {s0 : State} (port : Fin 4) (s : State) (hks : Kept s0 s) : OutKept s0 (execStuckPacketDrop
      port s) := by
  unfold execStuckPacketDrop
  try dsimp only
  repeat' (first | with_reducible assumption | with_reducible apply kept_updVfl | with_reducible apply OutKept.next | exact OutKept.fault _ | exact OutKept.refused _ | exact fun h => h | simp only [Kept.mk3, Kept.mk4] | (intro _) | split)

theorem kept_sendRequest {s0 : State} (s : State) (p : OutPkt) (tag : Option Tag) (tries : Nat) (held : Fin 4) (hks : Kept s0
      s) : Kept s0 (State.sendRequest s p tag tries held) := by
  unfold State.sendRequest
  try dsimp only
  repeat' (first | with_reducible assumption | with_reducible apply kept_updVfl | with_reducible apply kept_sendLong | exact fun h => h | with_reducible apply K1.getD | simp only [Kept.mk3, Kept.mk4] | (intro _) | split)

theorem kept_rreqLost {s0 : State} (s : State) (hks : Kept s0 s) : Kept s0 (State.rreqLost s) := by
  unfold State.rreqLost
  try dsimp only
  repeat' (first | with_reducible assumption | with_reducible apply kept_raise | simp only [Kept.mk3, Kept.mk4] | (intro _) | split)

theorem kept_serveRreq {s0 : State} (s : State) (hks : Kept s0 s) : Kept s0 (State.serveRreq s) := by
  unfold State.serveRreq
  try dsimp only
  repeat' (first | with_reducible assumption | with_reducible apply kept_sendRequest | with_reducible apply kept_rreqLost | simp only [Kept.mk3, Kept.mk4] | (intro _) | split)

theorem kept_endTxns {s0 : State} (s : State) (p : Txn → Bool) (hks : Kept s0 s) : Kept s0 (State.endTxns s p) := by
  refine kept_serveRreq _ (hks.vflSet (fun h n v => ?_))
  simp only [Fin.getElem_fin, Vector.getElem_map]
  exact h n v

theorem kept_requestFailed {s0 : State} (s : State) (x : Txn) (hks : Kept s0 s) : Kept s0 (State.requestFailed s x) := by
  unfold State.requestFailed
  try dsimp only
  repeat' (first | with_reducible assumption | with_reducible apply kept_finish | with_reducible apply kept_rreqLost | simp only [Kept.mk3, Kept.mk4] | (intro _) | split)

theorem kept_execTransactionTimeout {s0 : State} (port : Fin 4) (txn : Fin 256) (s : State) (hks : Kept s0 s) : OutKept s0
      (execTransactionTimeout port txn s) := by
  unfold execTransactionTimeout
  try dsimp only
  repeat' (first | with_reducible assumption | with_reducible apply kept_updVfl | with_reducible apply kept_sendRequest | with_reducible apply kept_serveRreq | with_reducible apply kept_requestFailed | exact fun h => h | with_reducible apply OutKept.next | exact OutKept.fault _ | exact OutKept.refused _ | with_reducible apply K1.getD | simp only [Kept.mk3, Kept.mk4] | (intro _) | split)

theorem kept_installFleet {s0 : State} (s : State) (hks : Kept s0 s) : Kept s0 (State.installFleet s) := by
  unfold State.installFleet
  try dsimp only
  repeat' (first | with_reducible assumption | with_reducible apply kept_raise | with_reducible apply kept_startPorts | simp only [Kept.mk3, Kept.mk4] | (intro _) | split)

theorem kept_installCert {s0 : State} (s : State) (hks : Kept s0 s) : Kept s0 (State.installCert s) := by
  unfold State.installCert
  try dsimp only
  repeat' (first | with_reducible assumption | with_reducible apply kept_raise | with_reducible apply kept_startPorts | simp only [Kept.mk3, Kept.mk4] | (intro _) | split)

end Sys2Proof.Machine
end

