-- ==== Sys2Proof/Laws/KeptRoutes.lean ====
section
/-!
SUPPORT. What the operations of Machine/Routes.lean keep.
-/
set_option linter.unusedTactic false
set_option linter.unreachableTactic false
set_option linter.unusedVariables false
set_option linter.unusedSimpArgs false

namespace Sys2Proof.Machine

theorem kept_floodAdv {s0 : State} (s : State) (a : Adv) (bytes : List Byte) (own : Bool) (dst : Fin 4 → Bool) (hks : Kept s0
      s) : Kept s0 (State.floodAdv s a bytes own dst) := by
  unfold State.floodAdv
  try dsimp only
  repeat' (first | with_reducible assumption | with_reducible apply kept_sendOn | with_reducible apply Kept.foldl | simp only [Kept.mk3, Kept.mk4] | (intro _) | split)

theorem kept_giveWay {s0 : State} (s : State) (other : Adv) (hks : Kept s0 s) : Kept s0 (State.giveWay s other) := by
  unfold State.giveWay
  try dsimp only
  repeat' (first | with_reducible assumption | with_reducible apply kept_raiseRec | with_reducible apply kept_advDue | simp only [Kept.mk3, Kept.mk4] | (intro _) | split)

theorem kept_execNadv {s0 : State} (port : Fin 4) (payload : Vector Byte 128) (s : State) (hks : Kept s0 s) : OutKept s0
      (execNadv port payload s) := by
  unfold execNadv
  try dsimp only
  repeat' (first | with_reducible assumption | with_reducible apply kept_pairCheck | with_reducible apply kept_topologyChanged | with_reducible apply kept_floodAdv | with_reducible apply kept_giveWay | with_reducible apply OutKept.next | exact OutKept.fault _ | exact OutKept.refused _ | simp only [Kept.mk3, Kept.mk4] | (intro _) | split)

theorem kept_execAdvertisementOriginate {s0 : State} (s : State) (hks : Kept s0 s) : OutKept s0 (execAdvertisementOriginate s)
      := by
  unfold execAdvertisementOriginate
  try dsimp only
  repeat' (first | with_reducible assumption | with_reducible apply kept_advDue | with_reducible apply kept_floodAdv | with_reducible apply OutKept.next | exact OutKept.fault _ | exact OutKept.refused _ | simp only [Kept.mk3, Kept.mk4] | (intro _) | split)

theorem kept_execAdvertisementExpiry {s0 : State} (s : State) (hks : Kept s0 s) : OutKept s0 (execAdvertisementExpiry s) := by
  unfold execAdvertisementExpiry
  try dsimp only
  repeat' (first | with_reducible assumption | with_reducible apply kept_advDue | with_reducible apply kept_pairCheck | with_reducible apply kept_topologyChanged | with_reducible apply OutKept.next | exact OutKept.fault _ | exact OutKept.refused _ | simp only [Kept.mk3, Kept.mk4] | (intro _) | split)

theorem kept_dropImport {s0 : State} (s : State) (i : Import) (hks : Kept s0 s) : Kept s0 (State.dropImport s i) := by
  exact hks.updNvm rfl rfl (nvmKept_dropPartial _ _) rfl

theorem kept_execRouteComputation {s0 : State} (s : State) (hks : Kept s0 s) : OutKept s0 (execRouteComputation s) := by
  unfold execRouteComputation
  try dsimp only
  repeat' (first | with_reducible assumption | with_reducible apply kept_raiseRecStatus | with_reducible apply kept_mirLeave | with_reducible apply kept_serveRreq | with_reducible apply kept_dropImport | with_reducible apply OutKept.next | exact OutKept.fault _ | exact OutKept.refused _ | with_reducible apply K1.getD | with_reducible apply Kept.foldl | simp only [Kept.mk3, Kept.mk4] | (intro _) | split)

end Sys2Proof.Machine
end

