-- ==== Sys2Proof/Laws/KeptRemote.lean ====
section
/-!
SUPPORT. What the operations of Machine/Remote.lean keep.
-/
set_option linter.unusedTactic false
set_option linter.unreachableTactic false
set_option linter.unusedVariables false
set_option linter.unusedSimpArgs false

namespace Sys2Proof.Machine

theorem kept_execRemoteCopy {s0 : State} (tag : Tag) (s : State) (hks : Kept s0 s) : OutKept s0 (execRemoteCopy tag s) := by
  unfold execRemoteCopy
  try dsimp only
  repeat' (first | with_reducible assumption | with_reducible apply kept_updCmd | with_reducible apply kept_finish | with_reducible apply kept_runOp | with_reducible apply kept_badState | with_reducible apply kept_sendRequest | with_reducible apply OutKept.next | exact OutKept.fault _ | exact OutKept.refused _ | simp only [Kept.mk3, Kept.mk4] | (intro _) | split)

theorem kept_sendCopy {s0 : State} (s : State) (tag : Tag) (c : Cmd) (z : Zone) (held : Fin 4) (hks : Kept s0 s) : Kept s0
      (State.sendCopy s tag c z held) := by
  unfold State.sendCopy
  try dsimp only
  repeat' (first | with_reducible assumption | with_reducible apply kept_sendPkt | with_reducible apply kept_sendLong | with_reducible apply kept_sendRequest | with_reducible apply Kept.foldl | simp only [Kept.mk3, Kept.mk4] | (intro _) | split)

theorem kept_copyAccepted {s0 : State} (s : State) (tag : Tag) (c : Cmd) (z : Zone) (hks : Kept s0 s) : Kept s0
      (State.copyAccepted s tag c z) := by
  unfold State.copyAccepted
  try dsimp only
  repeat' (first | with_reducible assumption | with_reducible apply kept_endTxns | with_reducible apply kept_sendCopy | with_reducible apply K1.getD | simp only [Kept.mk3, Kept.mk4] | (intro _) | split)

theorem kept_execCopyRsp {s0 : State} (tag : Tag) (a : CopyAnswer) (s : State) (hks : Kept s0 s) : OutKept s0 (execCopyRsp tag
      a s) := by
  unfold execCopyRsp
  try dsimp only
  repeat' (first | with_reducible assumption | with_reducible apply kept_finish | with_reducible apply kept_endTxns | with_reducible apply kept_copyAccepted | with_reducible apply OutKept.next | exact OutKept.fault _ | exact OutKept.refused _ | simp only [Kept.mk3, Kept.mk4] | (intro _) | split)

theorem kept_copyAnswer {s0 : State} (s : State) (src : BitVec 16) (a : CopyAnswer) (hks : Kept s0 s) : Kept s0
      (State.copyAnswer s src a) := by
  unfold State.copyAnswer
  try dsimp only
  repeat' (first | with_reducible assumption | with_reducible apply kept_sendPkt | simp only [Kept.mk3, Kept.mk4] | (intro _) | split)

theorem kept_refuseImport {s0 : State} (s : State) (src : BitVec 16) (cause : Byte) (hks : Kept s0 s) : Kept s0
      (State.refuseImport s src cause) := by
  unfold State.refuseImport
  try dsimp only
  repeat' (first | with_reducible assumption | with_reducible apply kept_raise | with_reducible apply kept_copyAnswer | simp only [Kept.mk3, Kept.mk4] | (intro _) | split)

theorem kept_execCopyOpen {s0 : State} (src : BitVec 16) (tenant : Byte) (cert : List Byte) (rec : Vector Byte 256) (s :
      State) (hks : Kept s0 s) : OutKept s0 (execCopyOpen src tenant cert rec s) := by
  unfold execCopyOpen
  try dsimp only
  repeat' (first | with_reducible assumption | with_reducible apply kept_record | with_reducible apply kept_updZone | with_reducible refine K5.elim (kept_takeZone _ _ _ _ ?_) ‹_› | with_reducible apply kept_takeZone | with_reducible apply kept_dropImport | with_reducible apply kept_copyAnswer | with_reducible apply kept_refuseImport | with_reducible apply OutKept.next | exact OutKept.fault _ | exact OutKept.refused _ | with_reducible apply Kept.foldl | simp only [Kept.mk3, Kept.mk4] | (intro _) | split)

theorem kept_execCopyData {s0 : State} (src : BitVec 16) (item : CopyItem) (s : State) (hks : Kept s0 s) : OutKept s0
      (execCopyData src item s) := by
  unfold execCopyData
  try dsimp only
  repeat' (first | with_reducible assumption | with_reducible apply OutKept.next | exact OutKept.fault _ | exact OutKept.refused _ | simp only [Kept.mk3, Kept.mk4] | (intro _) | split)

theorem kept_placeImport {s0 : State} (s : State) (d : BoardDesc) (z : Nat) (gen : Word) (log : List AppRec) (hks : Kept s0 s)
      : K1 s0 (State.placeImport s d z gen log) := by
  unfold State.placeImport
  try dsimp only
  repeat' (first | with_reducible assumption | with_reducible refine K1.elim (kept_placeIn _ _ _ _ _ ?_) ‹_› | with_reducible apply kept_placeIn | with_reducible apply K1.none | with_reducible apply K1.some | with_reducible refine K1.map (fun _ _ => ?_) ?_ | with_reducible refine K1.foldl (fun _ _ _ => ?_) ?_ | with_reducible exact K1.elim ‹_› ‹_› | with_reducible exact K1.elim ‹_› rfl | with_reducible apply Kept.foldl | simp only [Kept.mk3, Kept.mk4] | (intro _) | split)

theorem kept_execCopyClose {s0 : State} (src : BitVec 16) (s : State) (hks : Kept s0 s) : OutKept s0 (execCopyClose src s) := by
  unfold execCopyClose
  try dsimp only
  repeat' (first | with_reducible assumption | with_reducible apply kept_raise | with_reducible apply kept_record | with_reducible apply kept_updZone | with_reducible apply kept_meterIn | with_reducible apply kept_dropImport | with_reducible apply kept_copyAnswer | with_reducible apply kept_refuseImport | with_reducible refine K1.elim (kept_placeImport _ _ _ _ _ ?_) ‹_› | with_reducible apply kept_placeImport | with_reducible apply OutKept.next | exact OutKept.fault _ | exact OutKept.refused _ | simp only [Kept.mk3, Kept.mk4] | (intro _) | split)

theorem kept_execRreadReq {s0 : State} (src : BitVec 16) (kind : Bool) (seq : DWord) (n : Fin 33) (s : State) (hks : Kept s0
      s) : OutKept s0 (execRreadReq src kind seq n s) := by
  unfold execRreadReq
  try dsimp only
  repeat' (first | with_reducible assumption | with_reducible apply kept_sendLong | with_reducible apply OutKept.next | exact OutKept.fault _ | exact OutKept.refused _ | simp only [Kept.mk3, Kept.mk4] | (intro _) | split)

theorem kept_execRreadRsp {s0 : State} (refusedByNode : Bool) (bytes : List Byte) (s : State) (hks : Kept s0 s) : OutKept s0
      (execRreadRsp refusedByNode bytes s) := by
  unfold execRreadRsp
  try dsimp only
  repeat' (first | with_reducible assumption | with_reducible apply kept_emit | with_reducible apply kept_raise | with_reducible apply kept_endTxns | with_reducible apply OutKept.next | exact OutKept.fault _ | exact OutKept.refused _ | simp only [Kept.mk3, Kept.mk4] | (intro _) | split)

theorem kept_rreqGo {s0 : State} (s : State) (hks : Kept s0 s) : Kept s0 (State.rreqGo s) := by
  unfold State.rreqGo
  try dsimp only
  repeat' (first | with_reducible assumption | with_reducible apply kept_serveRreq | simp only [Kept.mk3, Kept.mk4] | (intro _) | split)

end Sys2Proof.Machine
end

