-- ==== Sys2Proof/Laws/KeptMirror.lean ====
section
/-!
SUPPORT. What the operations of Machine/Mirror.lean keep.
-/
set_option linter.unusedTactic false
set_option linter.unreachableTactic false
set_option linter.unusedVariables false
set_option linter.unusedSimpArgs false

namespace Sys2Proof.Machine

theorem kept_sendEvents {s0 : State} (s : State) (hks : Kept s0 s) : Kept s0 (State.sendEvents s) := by
  unfold State.sendEvents
  try dsimp only
  repeat' (first | with_reducible assumption | with_reducible apply kept_mirSend | with_reducible apply Kept.foldl | simp only [Kept.mk3, Kept.mk4] | (intro _) | split)

theorem kept_execMirBeatSend {s0 : State} (s : State) (hks : Kept s0 s) : OutKept s0 (execMirBeatSend s) := by
  unfold execMirBeatSend
  try dsimp only
  repeat' (first | with_reducible assumption | with_reducible apply kept_sendLong | with_reducible apply kept_sendEvents | with_reducible apply OutKept.next | exact OutKept.fault _ | exact OutKept.refused _ | simp only [Kept.mk3, Kept.mk4] | (intro _) | split)

theorem kept_execMirBeat {s0 : State} (marks : List Checkpoint) (s : State) (hks : Kept s0 s) : OutKept s0 (execMirBeat marks
      s) := by
  unfold execMirBeat
  try dsimp only
  repeat' (first | with_reducible assumption | with_reducible apply kept_enterResync | with_reducible apply kept_pairCheck | with_reducible apply OutKept.next | exact OutKept.fault _ | exact OutKept.refused _ | with_reducible apply Kept.foldl | simp only [Kept.mk3, Kept.mk4] | (intro _) | split)

theorem kept_execPartnerSilence {s0 : State} (s : State) (hks : Kept s0 s) : OutKept s0 (execPartnerSilence s) := by
  unfold execPartnerSilence
  try dsimp only
  repeat' (first | with_reducible assumption | with_reducible apply kept_mirLeave | with_reducible apply OutKept.next | exact OutKept.fault _ | exact OutKept.refused _ | simp only [Kept.mk3, Kept.mk4] | (intro _) | split)

theorem kept_execPowerLoss {s0 : State} (s : State) (hks : Kept s0 s) : OutKept s0 (execPowerLoss s) := by
  unfold execPowerLoss
  try dsimp only
  repeat' (first | with_reducible assumption | with_reducible apply kept_record | with_reducible apply kept_mirLeave | with_reducible apply OutKept.next | exact OutKept.fault _ | exact OutKept.refused _ | simp only [Kept.mk3, Kept.mk4] | (intro _) | split)

theorem kept_execSpaceRetry {s0 : State} (s : State) (hks : Kept s0 s) : OutKept s0 (execSpaceRetry s) := by
  unfold execSpaceRetry
  try dsimp only
  repeat' (first | with_reducible assumption | with_reducible apply kept_enterResync | with_reducible apply OutKept.next | exact OutKept.fault _ | exact OutKept.refused _ | simp only [Kept.mk3, Kept.mk4] | (intro _) | split)

theorem kept_replicaFor_fresh {s0 : State} (s : State) (a : MirAppend) (hks : Kept s0 s) : K2 s0 (State.replicaFor.fresh s a)
      := by
  unfold State.replicaFor.fresh
  constructor
  intro z t e
  obtain ⟨y, _, h⟩ := Option.map_eq_some_iff.mp e
  obtain ⟨_, rfl⟩ := Prod.mk.inj h
  exact kept_putZone _ _ _ hks

theorem kept_replicaFor {s0 : State} (s : State) (a : MirAppend) (hks : Kept s0 s) : K2 s0 (State.replicaFor s a) := by
  unfold State.replicaFor
  split
  · split
    · exact K2.some hks
    · exact kept_replicaFor_fresh s a hks
  · exact kept_replicaFor_fresh s a hks

theorem kept_sendAccept {s0 : State} (s : State) (t : Tid) (index : Nat) (refused : Bool) (hks : Kept s0 s) : Kept s0
      (State.sendAccept s t index refused) := by
  unfold State.sendAccept
  try dsimp only
  repeat' (first | with_reducible assumption | with_reducible apply kept_sendPkt | simp only [Kept.mk3, Kept.mk4] | (intro _) | split)

theorem kept_applyAppend {s0 : State} (s : State) (d : BoardDesc) (a : MirAppend) (z : Nat) (x : Zone) (hks : Kept s0 s) : K1
      s0 (State.applyAppend s d a z x) := by
  unfold State.applyAppend
  try dsimp only
  repeat' (first | with_reducible assumption | with_reducible apply kept_updZone | with_reducible apply kept_meterIn | with_reducible refine K2.elim (kept_allocAll _ _ _ ?_) ‹_› | with_reducible apply kept_allocAll | with_reducible apply kept_rtRequest | with_reducible refine K1.elim (kept_placeIn _ _ _ _ _ ?_) ‹_› | with_reducible apply kept_placeIn | with_reducible apply kept_countDirty | with_reducible apply kept_sendAccept | with_reducible apply K1.none | with_reducible apply K1.some | with_reducible apply K1.getD | simp only [Kept.mk3, Kept.mk4] | (intro _) | split)

theorem kept_execMirAppend {s0 : State} (a : MirAppend) (s : State) (hks : Kept s0 s) : OutKept s0 (execMirAppend a s) := by
  unfold execMirAppend
  try dsimp only
  repeat' (first | with_reducible assumption | with_reducible apply kept_mirLeave | with_reducible apply kept_pause | with_reducible refine K2.elim (kept_replicaFor _ _ ?_) ‹_› | with_reducible apply kept_replicaFor | with_reducible apply kept_sendAccept | with_reducible refine K1.elim (kept_applyAppend _ _ _ _ _ ?_) ‹_› | with_reducible apply kept_applyAppend | with_reducible apply OutKept.next | exact OutKept.fault _ | exact OutKept.refused _ | simp only [Kept.mk3, Kept.mk4] | (intro _) | split)

theorem kept_onReplica {s0 : State} (s : State) (t : Tid) (src : Nat) (f : Nat → Zone → State) (hf : ∀ v0 v1, Kept s0 (f v0
      v1)) (hks : Kept s0 s) : Kept s0 (State.onReplica s t src f) := by
  unfold State.onReplica
  try dsimp only
  repeat' (first | with_reducible assumption | with_reducible apply hf | simp only [Kept.mk3, Kept.mk4] | (intro _) | split)

theorem kept_resetReplica {s0 : State} (s : State) (z : Nat) (x : Zone) (hks : Kept s0 s) : Kept s0 (State.resetReplica s z x)
      := by
  unfold State.resetReplica
  try dsimp only
  repeat' (first | with_reducible assumption | with_reducible apply kept_zresetRecord | with_reducible apply kept_emptyZone | with_reducible apply kept_eraseZoneBlocks | simp only [Kept.mk3, Kept.mk4] | (intro _) | split)

theorem kept_applyItem {s0 : State} (s : State) (a0 : MirItem) (hks : Kept s0 s) : Kept s0 (State.applyItem s a0) := by
  unfold State.applyItem
  try dsimp only
  repeat' (first | with_reducible assumption | with_reducible apply kept_release | with_reducible apply kept_updZone | with_reducible apply kept_meterIn | with_reducible apply kept_finish | with_reducible apply kept_onReplica | with_reducible apply kept_resetReplica | with_reducible apply K1.getD | simp only [Kept.mk3, Kept.mk4] | (intro _) | split)

theorem kept_execMirState {s0 : State} (item : MirItem) (s : State) (hks : Kept s0 s) : OutKept s0 (execMirState item s) := by
  unfold execMirState
  try dsimp only
  repeat' (first | with_reducible assumption | with_reducible apply kept_applyItem | with_reducible apply OutKept.next | exact OutKept.fault _ | exact OutKept.refused _ | simp only [Kept.mk3, Kept.mk4] | (intro _) | split)

theorem kept_execMirRetract {s0 : State} (t : Tid) (index : DWord) (s : State) (hks : Kept s0 s) : OutKept s0 (execMirRetract
      t index s) := by
  unfold execMirRetract
  try dsimp only
  repeat' (first | with_reducible assumption | with_reducible apply OutKept.next | exact OutKept.fault _ | exact OutKept.refused _ | with_reducible apply Kept.foldl | simp only [Kept.mk3, Kept.mk4] | (intro _) | split)

theorem kept_settleSync {s0 : State} (s : State) (hks : Kept s0 s) : Kept s0 (State.settleSync s) := by
  unfold State.settleSync
  try dsimp only
  repeat' (first | with_reducible assumption | with_reducible apply kept_raise | with_reducible apply kept_sendLong | simp only [Kept.mk3, Kept.mk4] | (intro _) | split)

theorem kept_execMirAccept {s0 : State} (t : Tid) (index : DWord) (refusedSpace : Bool) (s : State) (hks : Kept s0 s) :
      OutKept s0 (execMirAccept t index refusedSpace s) := by
  unfold execMirAccept
  try dsimp only
  repeat' (first | with_reducible assumption | with_reducible apply kept_mirLeave | with_reducible apply kept_updEntry | with_reducible apply kept_settleSync | with_reducible apply OutKept.next | exact OutKept.fault _ | exact OutKept.refused _ | simp only [Kept.mk3, Kept.mk4] | (intro _) | split)

theorem kept_sendZoneState {s0 : State} (s : State) (id : Nat) (z : Zone) (hks : Kept s0 s) : Kept s0 (State.sendZoneState s
      id z) := by
  unfold State.sendZoneState
  try dsimp only
  repeat' (first | with_reducible assumption | with_reducible apply kept_mirSend | simp only [Kept.mk3, Kept.mk4] | (intro _) | split)

theorem kept_resyncTenant {s0 : State} (s : State) (cps : List Checkpoint) (t : Tid) (hks : Kept s0 s) : Kept s0
      (State.resyncTenant s cps t) := by
  unfold State.resyncTenant
  try dsimp only
  repeat' (first | with_reducible assumption | with_reducible apply kept_sendLong | with_reducible apply kept_mirAppendSend | with_reducible apply kept_sendZoneState | with_reducible apply Kept.foldl | with_reducible apply K1.getD | simp only [Kept.mk3, Kept.mk4] | (intro _) | split)

theorem kept_execMirSyncReq {s0 : State} (cps : List Checkpoint) (s : State) (hks : Kept s0 s) : OutKept s0 (execMirSyncReq
      cps s) := by
  unfold execMirSyncReq
  try dsimp only
  repeat' (first | with_reducible assumption | with_reducible apply kept_enterResync | with_reducible apply kept_settleSync | with_reducible apply kept_resyncTenant | with_reducible apply OutKept.next | exact OutKept.fault _ | exact OutKept.refused _ | with_reducible apply Kept.foldl | simp only [Kept.mk3, Kept.mk4] | (intro _) | split)

theorem kept_markDiverged {s0 : State} (s : State) (t : Tid) (p : Nat) (hks : Kept s0 s) : Kept s0 (State.markDiverged s t p)
      := by
  unfold State.markDiverged
  try dsimp only
  repeat' (first | with_reducible assumption | with_reducible apply kept_drawn | with_reducible apply kept_raiseRec | with_reducible apply kept_updZone | with_reducible apply Kept.foldl | simp only [Kept.mk3, Kept.mk4] | (intro _) | split)

theorem kept_execMirSyncRsp {s0 : State} (vs : List SyncVerdict) (s : State) (hks : Kept s0 s) : OutKept s0 (execMirSyncRsp vs
      s) := by
  unfold execMirSyncRsp
  try dsimp only
  repeat' (first | with_reducible assumption | with_reducible apply kept_raise | with_reducible apply kept_markDiverged | with_reducible apply OutKept.next | exact OutKept.fault _ | exact OutKept.refused _ | with_reducible apply Kept.foldl | simp only [Kept.mk3, Kept.mk4] | (intro _) | split)

end Sys2Proof.Machine
end

