-- ==== Sys2Proof/Laws/KeptLife.lean ====
section
/-!
SUPPORT. What the operations of Machine/Life.lean keep.
-/
set_option linter.unusedTactic false
set_option linter.unreachableTactic false
set_option linter.unusedVariables false
set_option linter.unusedSimpArgs false

namespace Sys2Proof.Machine

theorem kept_supplyReading {s0 : State} (s : State) (slot : Nat) (mV : Int) (hks : Kept s0 s) : Kept s0 (State.supplyReading s
      slot mV) := by
  unfold State.supplyReading
  try dsimp only
  repeat' (first | with_reducible assumption | with_reducible apply kept_raiseRec | simp only [Kept.mk3, Kept.mk4] | (intro _) | split)

theorem kept_dieReading {s0 : State} (s : State) (n : Nat) (r : Int) (hks : Kept s0 s) : Kept s0 (State.dieReading s n r) := by
  unfold State.dieReading
  try dsimp only
  repeat' (first | with_reducible assumption | with_reducible apply kept_raise | simp only [Kept.mk3, Kept.mk4] | (intro _) | split)

theorem kept_diodeReading {s0 : State} (s : State) (ok : Bool) (hks : Kept s0 s) : Kept s0 (State.diodeReading s ok) := by
  unfold State.diodeReading
  try dsimp only
  repeat' (first | with_reducible assumption | with_reducible apply kept_raise | simp only [Kept.mk3, Kept.mk4] | (intro _) | split)

theorem kept_execHousekeepingSlot {s0 : State} (reading : Int) (diodeOk : Bool) (s : State) (hks : Kept s0 s) : OutKept s0
      (execHousekeepingSlot reading diodeOk s) := by
  unfold execHousekeepingSlot
  try dsimp only
  repeat' (first | with_reducible assumption | with_reducible apply kept_vcapReading | with_reducible apply kept_supplyReading | with_reducible apply kept_dieReading | with_reducible apply kept_diodeReading | with_reducible apply OutKept.next | exact OutKept.fault _ | exact OutKept.refused _ | simp only [Kept.mk3, Kept.mk4] | (intro _) | split)

theorem kept_setVane {s0 : State} (s : State) (k : Fin 8) (hks : Kept s0 s) : Kept s0 (State.setVane s k) := by
  unfold State.setVane
  try dsimp only
  repeat' (first | with_reducible assumption | with_reducible apply kept_raise | with_reducible apply kept_raiseTenants | with_reducible apply kept_raiseRecStatus | simp only [Kept.mk3, Kept.mk4] | (intro _) | split)

theorem kept_vaneTime {s0 : State} (s : State) (hks : Kept s0 s) : Kept s0 (State.vaneTime s) := by
  unfold State.vaneTime
  try dsimp only
  repeat' (first | with_reducible assumption | simp only [Kept.mk3, Kept.mk4] | (intro _) | split)

theorem kept_bandTime {s0 : State} (s : State) (t : Int) (hks : Kept s0 s) : Kept s0 (State.bandTime s t) := by
  unfold State.bandTime
  have h1 : Kept s0 { s with nvm := { s.nvm with bandMs := s.nvm.bandMs.set (bandIx t) (s.nvm.bandMs[bandIx t] + 64) } } := by
    refine hks.nvmSet { NvmKept.rfl' s.nvm with bands := fun k => ?_ } rfl
    simp only [Fin.getElem_fin, Vector.getElem_set]
    split
    · rename_i e
      simp only [e]; omega
    · exact le_refl _
  dsimp only
  split
  · exact kept_raise _ _ _ h1
  · exact h1

theorem kept_checkBalances {s0 : State} (s : State) (hks : Kept s0 s) : Kept s0 (State.checkBalances s) := by
  unfold State.checkBalances
  try dsimp only
  repeat' (first | with_reducible assumption | with_reducible apply kept_raiseRecStatus | with_reducible apply Kept.foldl | simp only [Kept.mk3, Kept.mk4] | (intro _) | split)

theorem kept_execHousekeepingRound {s0 : State} (mr4 : Vector Byte 2) (s : State) (hks : Kept s0 s) : OutKept s0
      (execHousekeepingRound mr4 s) := by
  unfold execHousekeepingRound
  try dsimp only
  repeat' (first | with_reducible assumption | with_reducible apply kept_endLull | with_reducible apply kept_raise | with_reducible apply kept_squallTrigger | with_reducible apply kept_ageMedia | with_reducible apply kept_endBoundary | with_reducible apply kept_meterServe | with_reducible apply kept_setVane | with_reducible apply kept_vaneTime | with_reducible apply kept_bandTime | with_reducible apply kept_checkBalances | with_reducible apply OutKept.next | exact OutKept.fault _ | exact OutKept.refused _ | simp only [Kept.mk3, Kept.mk4] | (intro _) | split)

theorem kept_execOperatingHour {s0 : State} (s : State) (hks : Kept s0 s) : OutKept s0 (execOperatingHour s) := by
  unfold execOperatingHour
  try dsimp only
  repeat' (first | with_reducible assumption | with_reducible apply OutKept.next | exact OutKept.fault _ | exact OutKept.refused _ | simp only [Kept.mk3, Kept.mk4] | (intro _) | split)

theorem kept_execAgeingHour {s0 : State} (s : State) (hks : Kept s0 s) : OutKept s0 (execAgeingHour s) := by
  unfold execAgeingHour
  split
  · exact OutKept.next hks
  · dsimp only
    split
    · rename_i hlt
      refine OutKept.next (kept_raiseRecStatus _ _ _ _ _ (hks.updNvm rfl rfl { NvmKept.rfl' s.nvm with stage := le_of_lt hlt } rfl))
    · simp only [Kept.mk4, OutKept]; exact hks

theorem kept_issueChallenge {s0 : State} (s : State) (hks : Kept s0 s) : Kept s0 (State.issueChallenge s) := by
  unfold State.issueChallenge
  try dsimp only
  repeat' (first | with_reducible assumption | with_reducible apply kept_drawn | with_reducible apply kept_emit | with_reducible refine K2.elim (kept_drbg _ ?_) ‹_› | with_reducible apply kept_drbg | simp only [Kept.mk3, Kept.mk4] | (intro _) | split)

theorem kept_execTapInstruction {s0 : State} (code : BitVec 5) (s : State) (hks : Kept s0 s) : OutKept s0 (execTapInstruction
      code s) := by
  unfold execTapInstruction
  try dsimp only
  repeat' (first | with_reducible assumption | with_reducible apply kept_emit | with_reducible apply kept_issueChallenge | with_reducible apply OutKept.next | exact OutKept.fault _ | exact OutKept.refused _ | simp only [Kept.mk3, Kept.mk4] | (intro _) | split)

theorem kept_refuseKeyWait {s0 : State} (s : State) (hks : Kept s0 s) : Kept s0 (State.refuseKeyWait s) := by
  unfold State.refuseKeyWait
  try dsimp only
  repeat' (first | with_reducible assumption | with_reducible apply kept_updTnt | with_reducible apply kept_finish | with_reducible apply kept_dropPersisted | with_reducible apply Kept.foldl | simp only [Kept.mk3, Kept.mk4] | (intro _) | split)

theorem kept_countUnlock {s0 : State} (s : State) (hks : Kept s0 s) : Kept s0 (State.countUnlock s) := by
  exact hks.nvmSet { NvmKept.rfl' s.nvm with unlocks := Nat.le_succ _ } rfl

theorem kept_unlockDebug {s0 : State} (s : State) (scope : BitVec 3) (hks : Kept s0 s) : Kept s0 (State.unlockDebug s scope)
      := by
  unfold State.unlockDebug
  try dsimp only
  repeat' (first | with_reducible assumption | with_reducible apply kept_raiseTenants | with_reducible apply kept_raiseRecStatus | with_reducible apply kept_linksDown | with_reducible apply kept_failPipe | with_reducible apply kept_zeroiseAll | with_reducible apply kept_passBegin | with_reducible apply kept_passEnd | with_reducible apply kept_refuseKeyWait | with_reducible apply kept_countUnlock | simp only [Kept.mk3, Kept.mk4] | (intro _) | split)

theorem kept_execUnlock {s0 : State} (token : Vector Byte 176) (s : State) (hks : Kept s0 s) : OutKept s0 (execUnlock token s)
      := by
  unfold execUnlock
  try dsimp only
  repeat' (first | with_reducible assumption | with_reducible apply kept_raiseRecStatus | with_reducible apply kept_unlockDebug | with_reducible apply OutKept.next | exact OutKept.fault _ | exact OutKept.refused _ | simp only [Kept.mk3, Kept.mk4] | (intro _) | split)

theorem kept_updDbg {s0 : State} (s : State) (f : DbgS → DbgS) (hks : Kept s0 s) : Kept s0 (State.updDbg s f) := by
  unfold State.updDbg
  try dsimp only
  repeat' (first | with_reducible assumption | simp only [Kept.mk3, Kept.mk4] | (intro _) | split)

theorem kept_execDmi {s0 : State} (op : DmiOp) (s : State) (hks : Kept s0 s) : OutKept s0 (execDmi op s) := by
  unfold execDmi
  try dsimp only
  repeat' (first | with_reducible assumption | with_reducible apply kept_drawn | with_reducible apply kept_emit | with_reducible apply kept_retryRewrites | with_reducible apply kept_updDbg | with_reducible apply kept_writeReg | with_reducible refine K3.elim (kept_readReg _ _ _ _ _ ?_) ‹_› | with_reducible apply kept_readReg | with_reducible apply OutKept.next | exact OutKept.fault _ | exact OutKept.refused _ | simp only [Kept.mk3, Kept.mk4] | (intro _) | split)

theorem kept_execSeqdbg {s0 : State} (engine : Fin 10) (op : SeqOp) (s : State) (hks : Kept s0 s) : OutKept s0 (execSeqdbg
      engine op s) := by
  unfold execSeqdbg
  try dsimp only
  repeat' (first | with_reducible assumption | with_reducible apply kept_emit | with_reducible apply kept_updDbg | with_reducible apply OutKept.next | exact OutKept.fault _ | exact OutKept.refused _ | simp only [Kept.mk3, Kept.mk4] | (intro _) | split)

end Sys2Proof.Machine
end

