-- ==== Sys2Proof/Laws/KeptRegWrite.lean ====
section
/-!
SUPPORT. What the operations of Machine/RegWrite.lean keep.
-/
set_option linter.unusedTactic false
set_option linter.unreachableTactic false
set_option linter.unusedVariables false
set_option linter.unusedSimpArgs false

namespace Sys2Proof.Machine

theorem kept_touchPage {s0 : State} (s : State) (src : Src) (p : Page) (hks : Kept s0 s) : Kept s0 (State.touchPage s src p)
      := by
  unfold State.touchPage
  try dsimp only
  repeat' (first | with_reducible assumption | with_reducible apply kept_packetTo | simp only [Kept.mk3, Kept.mk4] | (intro _) | split)

theorem kept_refused {s0 : State} (s : State) (p : Page) (off : Nat) (cause : Byte) (hks : Kept s0 s) : Kept s0 (State.refused
      s p off cause) := by
  unfold State.refused
  try dsimp only
  repeat' (first | with_reducible assumption | with_reducible apply kept_updTnt | with_reducible apply kept_raise | simp only [Kept.mk3, Kept.mk4] | (intro _) | split)

theorem kept_clearStatus {s0 : State} (s : State) (p : Page) (v : Word) (hks : Kept s0 s) : Kept s0 (State.clearStatus s p v)
      := by
  unfold State.clearStatus
  try dsimp only
  repeat' (first | with_reducible assumption | with_reducible apply kept_updHdr | with_reducible apply kept_requestTenant | with_reducible apply kept_updInta | with_reducible apply Kept.foldl | simp only [Kept.mk3, Kept.mk4] | (intro _) | split)

theorem kept_setEnable {s0 : State} (s : State) (p : Page) (v : Word) (hks : Kept s0 s) : Kept s0 (State.setEnable s p v) := by
  unfold State.setEnable
  try dsimp only
  repeat' (first | with_reducible assumption | with_reducible apply kept_updHdr | with_reducible apply kept_requestBlock | with_reducible apply kept_noticeBlock | with_reducible apply kept_requestTenant | with_reducible apply kept_updInta | with_reducible apply Kept.foldl | simp only [Kept.mk3, Kept.mk4] | (intro _) | split)

theorem kept_forceStatus {s0 : State} (s : State) (p : Page) (v : Word) (hks : Kept s0 s) : Kept s0 (State.forceStatus s p v)
      := by
  unfold State.forceStatus
  try dsimp only
  repeat' (first | with_reducible assumption | with_reducible apply kept_raise | with_reducible apply Kept.foldl | simp only [Kept.mk3, Kept.mk4] | (intro _) | split)

theorem kept_lockFeatures {s0 : State} (s : State) (hks : Kept s0 s) : Kept s0 (State.lockFeatures s) := by
  unfold State.lockFeatures
  try dsimp only
  repeat' (first | with_reducible assumption | simp only [Kept.mk3, Kept.mk4] | (intro _) | split)

theorem kept_tntCtrl {s0 : State} (s : State) (t : Tid) (v : Word) (hks : Kept s0 s) : Kept s0 (State.tntCtrl s t v) := by
  unfold State.tntCtrl
  try dsimp only
  repeat' (first | with_reducible assumption | with_reducible apply kept_updTnt | with_reducible apply kept_removeDrained | with_reducible apply kept_createQp | with_reducible apply kept_drainQp | with_reducible apply kept_tenantReset | simp only [Kept.mk3, Kept.mk4] | (intro _) | split)

theorem kept_actTnt {s0 : State} (s : State) (t : Tid) (off : Nat) (v : Word) (hks : Kept s0 s) : Kept s0 (State.actTnt s t
      off v) := by
  unfold State.actTnt
  try dsimp only
  repeat' (first | with_reducible assumption | with_reducible apply kept_updTnt | with_reducible apply kept_setHold | with_reducible apply kept_tntCtrl | simp only [Kept.mk3, Kept.mk4] | (intro _) | split)

theorem kept_rstCtrl {s0 : State} (s : State) (v : Word) (hks : Kept s0 s) : Kept s0 (State.rstCtrl s v) := by
  unfold State.rstCtrl
  try dsimp only
  repeat' (first | with_reducible assumption | with_reducible apply kept_squallTrigger | simp only [Kept.mk3, Kept.mk4] | (intro _) | split)

theorem kept_rcvCtrl {s0 : State} (s : State) (v : Word) (data : List Byte) (failed : Bool) (hks : Kept s0 s) : Kept s0
      (State.rcvCtrl s v data failed) := by
  unfold State.rcvCtrl
  try dsimp only
  repeat' (first | with_reducible assumption | with_reducible apply kept_mailStart | with_reducible apply kept_mailChunk | with_reducible apply kept_mailFinish | with_reducible apply kept_mailAbort | simp only [Kept.mk3, Kept.mk4] | (intro _) | split)

theorem kept_certCtrl {s0 : State} (s : State) (v : Word) (hks : Kept s0 s) : Kept s0 (State.certCtrl s v) := by
  unfold State.certCtrl
  try dsimp only
  repeat' (first | with_reducible assumption | with_reducible apply kept_installFleet | with_reducible apply kept_installCert | simp only [Kept.mk3, Kept.mk4] | (intro _) | split)

theorem kept_actBlock {s0 : State} (s : State) (p : Page) (off : Nat) (v : Word) (data : List Byte) (failed : Bool) (hks :
      Kept s0 s) : Kept s0 (State.actBlock s p off v data failed) := by
  unfold State.actBlock
  try dsimp only
  repeat' (first | with_reducible assumption | with_reducible apply kept_qspiGo | with_reducible apply kept_spitTx | with_reducible apply kept_spitPop | with_reducible apply kept_spitCtrl | with_reducible apply kept_probeNow | with_reducible apply kept_marchStart | with_reducible apply kept_rreqGo | with_reducible apply kept_rstCtrl | with_reducible apply kept_rcvCtrl | with_reducible apply kept_certCtrl | simp only [Kept.mk3, Kept.mk4] | (intro _) | split)

theorem kept_act {s0 : State} (s : State) (p : Page) (off : Nat) (v : Word) (data : List Byte) (failed : Bool) (hks : Kept s0
      s) : Kept s0 (State.act s p off v data failed) := by
  unfold State.act
  try dsimp only
  repeat' (first | with_reducible assumption | with_reducible apply kept_updHdr | with_reducible apply kept_clearStatus | with_reducible apply kept_setEnable | with_reducible apply kept_forceStatus | with_reducible apply kept_lockFeatures | with_reducible apply kept_actTnt | with_reducible apply kept_actBlock | simp only [Kept.mk3, Kept.mk4] | (intro _) | split)

theorem kept_storeReg {s0 : State} (s : State) (p : Page) (off : Nat) (r : Reg) (mask : Word) (v : Word) (hks : Kept s0 s) :
      Kept s0 (State.storeReg s p off r mask v) := by
  unfold State.storeReg
  try dsimp only
  repeat' (first | with_reducible assumption | with_reducible apply kept_setReg | simp only [Kept.mk3, Kept.mk4] | (intro _) | split)

theorem kept_applyWrite {s0 : State} (s : State) (p : Page) (off : Nat) (r : Reg) (locked : Bool) (v : Word) (data : List
      Byte) (failed : Bool) (hks : Kept s0 s) : Kept s0 (State.applyWrite s p off r locked v data failed) := by
  unfold State.applyWrite
  try dsimp only
  repeat' (first | with_reducible assumption | with_reducible apply kept_updInta | with_reducible apply kept_mediaBits | with_reducible apply kept_act | with_reducible apply kept_storeReg | simp only [Kept.mk3, Kept.mk4] | (intro _) | split)

theorem kept_rerequest {s0 : State} (s : State) (p : Page) (b : Nat) (hks : Kept s0 s) : Kept s0 (State.rerequest s p b) := by
  unfold State.rerequest
  try dsimp only
  repeat' (first | with_reducible assumption | with_reducible apply kept_requestBlock | simp only [Kept.mk3, Kept.mk4] | (intro _) | split)

theorem kept_clearCounted {s0 : State} (s : State) (r : Reg) (v : Word) (data : List Byte) (failed : Bool) (hks : Kept s0 s) :
      Kept s0 (State.clearCounted s r v data failed) := by
  unfold State.clearCounted
  try dsimp only
  repeat' (first | with_reducible assumption | with_reducible apply kept_updInta | with_reducible apply kept_applyWrite | with_reducible apply kept_rerequest | simp only [Kept.mk3, Kept.mk4] | (intro _) | split)

theorem kept_writeHere {s0 : State} (s : State) (p : Page) (vf : Bool) (off : Nat) (r : Reg) (v : Word) (addr : Word) (data :
      List Byte) (failed : Bool) (hks : Kept s0 s) : Kept s0 (State.writeHere s p vf off r v addr data failed) := by
  unfold State.writeHere
  try dsimp only
  repeat' (first | with_reducible assumption | with_reducible apply kept_countErr | with_reducible apply kept_refused | with_reducible apply kept_applyWrite | with_reducible apply kept_clearCounted | simp only [Kept.mk3, Kept.mk4] | (intro _) | split)

theorem kept_writeReg {s0 : State} (s : State) (p : Page) (off : Nat) (w : Wr) (data : List Byte) (failed : Bool) (hks : Kept
      s0 s) : Kept s0 (State.writeReg s p off w data failed) := by
  unfold State.writeReg
  try dsimp only
  repeat' (first | with_reducible assumption | with_reducible apply kept_countErr | with_reducible apply kept_touchPage | with_reducible apply kept_writeHere | simp only [Kept.mk3, Kept.mk4] | (intro _) | split)

theorem kept_write {s0 : State} (s : State) (p : Page) (off : Nat) (w : Wr) (hks : Kept s0 s) : OutKept s0 (State.write s p
      off w) := by
  unfold State.write
  try dsimp only
  repeat' (first | with_reducible assumption | with_reducible apply kept_writeReg | with_reducible apply OutKept.next | exact OutKept.fault _ | exact OutKept.refused _ | simp only [Kept.mk3, Kept.mk4] | (intro _) | split)

theorem kept_execTenantReset {s0 : State} (t : Tid) (w : Wr) (s : State) (hks : Kept s0 s) : OutKept s0 (execTenantReset t w
      s) := by
  unfold execTenantReset
  try dsimp only
  repeat' (first | with_reducible assumption | with_reducible apply kept_write | with_reducible apply OutKept.next | exact OutKept.fault _ | exact OutKept.refused _ | simp only [Kept.mk3, Kept.mk4] | (intro _) | split)

theorem kept_execAqEnable {s0 : State} (t : Tid) (w : Wr) (s : State) (hks : Kept s0 s) : OutKept s0 (execAqEnable t w s) := by
  unfold execAqEnable
  try dsimp only
  repeat' (first | with_reducible assumption | with_reducible apply kept_write | with_reducible apply OutKept.next | exact OutKept.fault _ | exact OutKept.refused _ | simp only [Kept.mk3, Kept.mk4] | (intro _) | split)

theorem kept_execDevFeatAccept {s0 : State} (upper : Bool) (w : Wr) (s : State) (hks : Kept s0 s) : OutKept s0
      (execDevFeatAccept upper w s) := by
  unfold execDevFeatAccept
  try dsimp only
  repeat' (first | with_reducible assumption | with_reducible apply kept_write | with_reducible apply OutKept.next | exact OutKept.fault _ | exact OutKept.refused _ | simp only [Kept.mk3, Kept.mk4] | (intro _) | split)

theorem kept_execDevCtrlFeatLock {s0 : State} (w : Wr) (s : State) (hks : Kept s0 s) : OutKept s0 (execDevCtrlFeatLock w s) :=
      by
  unfold execDevCtrlFeatLock
  try dsimp only
  repeat' (first | with_reducible assumption | with_reducible apply kept_write | with_reducible apply OutKept.next | exact OutKept.fault _ | exact OutKept.refused _ | simp only [Kept.mk3, Kept.mk4] | (intro _) | split)

theorem kept_execTntFeatAccept {s0 : State} (t : Tid) (w : Wr) (s : State) (hks : Kept s0 s) : OutKept s0 (execTntFeatAccept t
      w s) := by
  unfold execTntFeatAccept
  try dsimp only
  repeat' (first | with_reducible assumption | with_reducible apply kept_write | with_reducible apply OutKept.next | exact OutKept.fault _ | exact OutKept.refused _ | simp only [Kept.mk3, Kept.mk4] | (intro _) | split)

theorem kept_execTntCtrlFeatLock {s0 : State} (t : Tid) (w : Wr) (s : State) (hks : Kept s0 s) : OutKept s0
      (execTntCtrlFeatLock t w s) := by
  unfold execTntCtrlFeatLock
  try dsimp only
  repeat' (first | with_reducible assumption | with_reducible apply kept_write | with_reducible apply OutKept.next | exact OutKept.fault _ | exact OutKept.refused _ | simp only [Kept.mk3, Kept.mk4] | (intro _) | split)

theorem kept_execTntHoldMinutes {s0 : State} (t : Tid) (w : Wr) (s : State) (hks : Kept s0 s) : OutKept s0 (execTntHoldMinutes
      t w s) := by
  unfold execTntHoldMinutes
  try dsimp only
  repeat' (first | with_reducible assumption | with_reducible apply kept_write | with_reducible apply OutKept.next | exact OutKept.fault _ | exact OutKept.refused _ | simp only [Kept.mk3, Kept.mk4] | (intro _) | split)

theorem kept_execIntStatusW1c {s0 : State} (p : Page) (w : Wr) (s : State) (hks : Kept s0 s) : OutKept s0 (execIntStatusW1c p
      w s) := by
  unfold execIntStatusW1c
  try dsimp only
  repeat' (first | with_reducible assumption | with_reducible apply kept_write | with_reducible apply OutKept.next | exact OutKept.fault _ | exact OutKept.refused _ | simp only [Kept.mk3, Kept.mk4] | (intro _) | split)

theorem kept_execIntEnableWrite {s0 : State} (p : Page) (w : Wr) (s : State) (hks : Kept s0 s) : OutKept s0
      (execIntEnableWrite p w s) := by
  unfold execIntEnableWrite
  try dsimp only
  repeat' (first | with_reducible assumption | with_reducible apply kept_write | with_reducible apply OutKept.next | exact OutKept.fault _ | exact OutKept.refused _ | simp only [Kept.mk3, Kept.mk4] | (intro _) | split)

theorem kept_execIntForce {s0 : State} (p : Page) (w : Wr) (s : State) (hks : Kept s0 s) : OutKept s0 (execIntForce p w s) := by
  unfold execIntForce
  try dsimp only
  repeat' (first | with_reducible assumption | with_reducible apply kept_write | with_reducible apply OutKept.next | exact OutKept.fault _ | exact OutKept.refused _ | simp only [Kept.mk3, Kept.mk4] | (intro _) | split)

theorem kept_execLock {s0 : State} (p : Page) (w : Wr) (s : State) (hks : Kept s0 s) : OutKept s0 (execLock p w s) := by
  unfold execLock
  try dsimp only
  repeat' (first | with_reducible assumption | with_reducible apply kept_write | with_reducible apply OutKept.next | exact OutKept.fault _ | exact OutKept.refused _ | simp only [Kept.mk3, Kept.mk4] | (intro _) | split)

theorem kept_execIrqRoute {s0 : State} (n : Fin 576) (w : Wr) (s : State) (hks : Kept s0 s) : OutKept s0 (execIrqRoute n w s)
      := by
  unfold execIrqRoute
  try dsimp only
  repeat' (first | with_reducible assumption | with_reducible apply kept_write | with_reducible apply OutKept.next | exact OutKept.fault _ | exact OutKept.refused _ | simp only [Kept.mk3, Kept.mk4] | (intro _) | split)

theorem kept_execSoftwareReset {s0 : State} (w : Wr) (s : State) (hks : Kept s0 s) : OutKept s0 (execSoftwareReset w s) := by
  unfold execSoftwareReset
  try dsimp only
  repeat' (first | with_reducible assumption | with_reducible apply kept_write | with_reducible apply OutKept.next | exact OutKept.fault _ | exact OutKept.refused _ | simp only [Kept.mk3, Kept.mk4] | (intro _) | split)

theorem kept_execCauseAck {s0 : State} (w : Wr) (s : State) (hks : Kept s0 s) : OutKept s0 (execCauseAck w s) := by
  unfold execCauseAck
  try dsimp only
  repeat' (first | with_reducible assumption | with_reducible apply kept_write | with_reducible apply OutKept.next | exact OutKept.fault _ | exact OutKept.refused _ | simp only [Kept.mk3, Kept.mk4] | (intro _) | split)

theorem kept_execProbeNow {s0 : State} (w : Wr) (s : State) (hks : Kept s0 s) : OutKept s0 (execProbeNow w s) := by
  unfold execProbeNow
  try dsimp only
  repeat' (first | with_reducible assumption | with_reducible apply kept_write | with_reducible apply OutKept.next | exact OutKept.fault _ | exact OutKept.refused _ | simp only [Kept.mk3, Kept.mk4] | (intro _) | split)

theorem kept_execUpdRcvStart {s0 : State} (w : Wr) (s : State) (hks : Kept s0 s) : OutKept s0 (execUpdRcvStart w s) := by
  unfold execUpdRcvStart
  try dsimp only
  repeat' (first | with_reducible assumption | with_reducible apply kept_write | with_reducible apply OutKept.next | exact OutKept.fault _ | exact OutKept.refused _ | simp only [Kept.mk3, Kept.mk4] | (intro _) | split)

theorem kept_execUpdRcvChunk {s0 : State} (w : Wr) (data : List Byte) (failed : Bool) (s : State) (hks : Kept s0 s) : OutKept
      s0 (execUpdRcvChunk w data failed s) := by
  unfold execUpdRcvChunk
  try dsimp only
  repeat' (first | with_reducible assumption | with_reducible apply kept_writeReg | with_reducible apply OutKept.next | exact OutKept.fault _ | exact OutKept.refused _ | simp only [Kept.mk3, Kept.mk4] | (intro _) | split)

theorem kept_execUpdRcvFinish {s0 : State} (w : Wr) (otpGood : Bool) (s : State) (hks : Kept s0 s) : OutKept s0
      (execUpdRcvFinish w otpGood s) := by
  unfold execUpdRcvFinish
  try dsimp only
  repeat' (first | with_reducible assumption | with_reducible apply kept_writeReg | with_reducible apply OutKept.next | exact OutKept.fault _ | exact OutKept.refused _ | simp only [Kept.mk3, Kept.mk4] | (intro _) | split)

theorem kept_execUpdRcvAbort {s0 : State} (w : Wr) (s : State) (hks : Kept s0 s) : OutKept s0 (execUpdRcvAbort w s) := by
  unfold execUpdRcvAbort
  try dsimp only
  repeat' (first | with_reducible assumption | with_reducible apply kept_write | with_reducible apply OutKept.next | exact OutKept.fault _ | exact OutKept.refused _ | simp only [Kept.mk3, Kept.mk4] | (intro _) | split)

theorem kept_execSramMarchStart {s0 : State} (w : Wr) (s : State) (hks : Kept s0 s) : OutKept s0 (execSramMarchStart w s) := by
  unfold execSramMarchStart
  try dsimp only
  repeat' (first | with_reducible assumption | with_reducible apply kept_write | with_reducible apply OutKept.next | exact OutKept.fault _ | exact OutKept.refused _ | simp only [Kept.mk3, Kept.mk4] | (intro _) | split)

theorem kept_execQspiGo {s0 : State} (w : Wr) (s : State) (hks : Kept s0 s) : OutKept s0 (execQspiGo w s) := by
  unfold execQspiGo
  try dsimp only
  repeat' (first | with_reducible assumption | with_reducible apply kept_write | with_reducible apply OutKept.next | exact OutKept.fault _ | exact OutKept.refused _ | simp only [Kept.mk3, Kept.mk4] | (intro _) | split)

theorem kept_execSpitTxData {s0 : State} (w : Wr) (s : State) (hks : Kept s0 s) : OutKept s0 (execSpitTxData w s) := by
  unfold execSpitTxData
  try dsimp only
  repeat' (first | with_reducible assumption | with_reducible apply kept_write | with_reducible apply OutKept.next | exact OutKept.fault _ | exact OutKept.refused _ | simp only [Kept.mk3, Kept.mk4] | (intro _) | split)

theorem kept_execSpitRxPop {s0 : State} (w : Wr) (s : State) (hks : Kept s0 s) : OutKept s0 (execSpitRxPop w s) := by
  unfold execSpitRxPop
  try dsimp only
  repeat' (first | with_reducible assumption | with_reducible apply kept_write | with_reducible apply OutKept.next | exact OutKept.fault _ | exact OutKept.refused _ | simp only [Kept.mk3, Kept.mk4] | (intro _) | split)

theorem kept_execSpitCtrl {s0 : State} (w : Wr) (s : State) (hks : Kept s0 s) : OutKept s0 (execSpitCtrl w s) := by
  unfold execSpitCtrl
  try dsimp only
  repeat' (first | with_reducible assumption | with_reducible apply kept_write | with_reducible apply OutKept.next | exact OutKept.fault _ | exact OutKept.refused _ | simp only [Kept.mk3, Kept.mk4] | (intro _) | split)

theorem kept_execInstallFleet {s0 : State} (w : Wr) (s : State) (hks : Kept s0 s) : OutKept s0 (execInstallFleet w s) := by
  unfold execInstallFleet
  try dsimp only
  repeat' (first | with_reducible assumption | with_reducible apply kept_write | with_reducible apply OutKept.next | exact OutKept.fault _ | exact OutKept.refused _ | simp only [Kept.mk3, Kept.mk4] | (intro _) | split)

theorem kept_execInstallCert {s0 : State} (w : Wr) (s : State) (hks : Kept s0 s) : OutKept s0 (execInstallCert w s) := by
  unfold execInstallCert
  try dsimp only
  repeat' (first | with_reducible assumption | with_reducible apply kept_write | with_reducible apply OutKept.next | exact OutKept.fault _ | exact OutKept.refused _ | simp only [Kept.mk3, Kept.mk4] | (intro _) | split)

theorem kept_execVfrRreqGo {s0 : State} (w : Wr) (s : State) (hks : Kept s0 s) : OutKept s0 (execVfrRreqGo w s) := by
  unfold execVfrRreqGo
  try dsimp only
  repeat' (first | with_reducible assumption | with_reducible apply kept_write | with_reducible apply OutKept.next | exact OutKept.fault _ | exact OutKept.refused _ | simp only [Kept.mk3, Kept.mk4] | (intro _) | split)

theorem kept_execRegisterWrite {s0 : State} (p : Page) (off : BitVec 12) (w : Wr) (s : State) (hks : Kept s0 s) : OutKept s0
      (execRegisterWrite p off w s) := by
  unfold execRegisterWrite
  try dsimp only
  repeat' (first | with_reducible assumption | with_reducible apply kept_write | with_reducible apply OutKept.next | exact OutKept.fault _ | exact OutKept.refused _ | simp only [Kept.mk3, Kept.mk4] | (intro _) | split)

theorem kept_execReservedAccess {s0 : State} (space : BarSpace) (off : BitVec 20) (be : BitVec 4) (read : Bool) (s : State)
      (hks : Kept s0 s) : OutKept s0 (execReservedAccess space off be read s) := by
  unfold execReservedAccess
  try dsimp only
  repeat' (first | with_reducible assumption | with_reducible apply kept_emit | with_reducible apply kept_countErr | with_reducible apply kept_touchPage | with_reducible apply OutKept.next | exact OutKept.fault _ | exact OutKept.refused _ | simp only [Kept.mk3, Kept.mk4] | (intro _) | split)

end Sys2Proof.Machine
end

