-- ==== Sys2Proof/Laws/KeptCaptures.lean ====
section
/-!
SUPPORT. What the operations of Machine/Captures.lean keep.
-/
set_option linter.unusedTactic false
set_option linter.unreachableTactic false
set_option linter.unusedVariables false
set_option linter.unusedSimpArgs false

namespace Sys2Proof.Machine

theorem kept_capture {s0 : State} (s : State) (p : Page) (off : Nat) (hks : Kept s0 s) : Kept s0 (State.capture s p off) := by
  unfold State.capture
  try dsimp only
  repeat' (first | with_reducible assumption | with_reducible apply kept_updVfl | exact fun h => h | with_reducible apply Kept.foldl | simp only [Kept.mk3, Kept.mk4] | (intro _) | split)

theorem kept_readReg {s0 : State} (s : State) (src : Src) (be : BitVec 4) (p : Page) (off : Nat) (hks : Kept s0 s) : K3 s0
      (State.readReg s src be p off) := by
  unfold State.readReg
  try dsimp only
  repeat' (first | with_reducible assumption | with_reducible apply kept_countErr | with_reducible apply kept_touchPage | with_reducible apply kept_capture | with_reducible apply K3.none | with_reducible apply K3.some | simp only [Kept.mk3, Kept.mk4] | (intro _) | split)

theorem kept_hostRead {s0 : State} (s : State) (r : Rd) (p : Page) (off : Nat) (hks : Kept s0 s) : OutKept s0 (State.hostRead
      s r p off) := by
  unfold State.hostRead
  try dsimp only
  repeat' (first | with_reducible assumption | with_reducible apply kept_emit | with_reducible refine K3.elim (kept_readReg _ _ _ _ _ ?_) ‹_› | with_reducible apply kept_readReg | with_reducible apply OutKept.next | exact OutKept.fault _ | exact OutKept.refused _ | simp only [Kept.mk3, Kept.mk4] | (intro _) | split)

theorem kept_execPwrBudgetAudit0 {s0 : State} (r : Rd) (s : State) (hks : Kept s0 s) : OutKept s0 (execPwrBudgetAudit0 r s) :=
      by
  unfold execPwrBudgetAudit0
  try dsimp only
  repeat' (first | with_reducible assumption | with_reducible apply kept_hostRead | with_reducible apply OutKept.next | exact OutKept.fault _ | exact OutKept.refused _ | simp only [Kept.mk3, Kept.mk4] | (intro _) | split)

theorem kept_execHqmTagAudit0 {s0 : State} (r : Rd) (s : State) (hks : Kept s0 s) : OutKept s0 (execHqmTagAudit0 r s) := by
  unfold execHqmTagAudit0
  try dsimp only
  repeat' (first | with_reducible assumption | with_reducible apply kept_hostRead | with_reducible apply OutKept.next | exact OutKept.fault _ | exact OutKept.refused _ | simp only [Kept.mk3, Kept.mk4] | (intro _) | split)

theorem kept_execMedSlotAudit0 {s0 : State} (r : Rd) (s : State) (hks : Kept s0 s) : OutKept s0 (execMedSlotAudit0 r s) := by
  unfold execMedSlotAudit0
  try dsimp only
  repeat' (first | with_reducible assumption | with_reducible apply kept_hostRead | with_reducible apply OutKept.next | exact OutKept.fault _ | exact OutKept.refused _ | simp only [Kept.mk3, Kept.mk4] | (intro _) | split)

theorem kept_execBpmAudit0 {s0 : State} (r : Rd) (s : State) (hks : Kept s0 s) : OutKept s0 (execBpmAudit0 r s) := by
  unfold execBpmAudit0
  try dsimp only
  repeat' (first | with_reducible assumption | with_reducible apply kept_hostRead | with_reducible apply OutKept.next | exact OutKept.fault _ | exact OutKept.refused _ | simp only [Kept.mk3, Kept.mk4] | (intro _) | split)

theorem kept_execVflCreditAudit {s0 : State} (n : Fin 4) (r : Rd) (s : State) (hks : Kept s0 s) : OutKept s0
      (execVflCreditAudit n r s) := by
  unfold execVflCreditAudit
  try dsimp only
  repeat' (first | with_reducible assumption | with_reducible apply kept_hostRead | with_reducible apply OutKept.next | exact OutKept.fault _ | exact OutKept.refused _ | simp only [Kept.mk3, Kept.mk4] | (intro _) | split)

theorem kept_execMtrAudit0 {s0 : State} (r : Rd) (s : State) (hks : Kept s0 s) : OutKept s0 (execMtrAudit0 r s) := by
  unfold execMtrAudit0
  try dsimp only
  repeat' (first | with_reducible assumption | with_reducible apply kept_hostRead | with_reducible apply OutKept.next | exact OutKept.fault _ | exact OutKept.refused _ | simp only [Kept.mk3, Kept.mk4] | (intro _) | split)

theorem kept_execMtrUtcLo {s0 : State} (r : Rd) (s : State) (hks : Kept s0 s) : OutKept s0 (execMtrUtcLo r s) := by
  unfold execMtrUtcLo
  try dsimp only
  repeat' (first | with_reducible assumption | with_reducible apply kept_hostRead | with_reducible apply OutKept.next | exact OutKept.fault _ | exact OutKept.refused _ | simp only [Kept.mk3, Kept.mk4] | (intro _) | split)

theorem kept_execMtrAccLo {s0 : State} (r : Rd) (s : State) (hks : Kept s0 s) : OutKept s0 (execMtrAccLo r s) := by
  unfold execMtrAccLo
  try dsimp only
  repeat' (first | with_reducible assumption | with_reducible apply kept_hostRead | with_reducible apply OutKept.next | exact OutKept.fault _ | exact OutKept.refused _ | simp only [Kept.mk3, Kept.mk4] | (intro _) | split)

theorem kept_execSealIndexLo {s0 : State} (r : Rd) (s : State) (hks : Kept s0 s) : OutKept s0 (execSealIndexLo r s) := by
  unfold execSealIndexLo
  try dsimp only
  repeat' (first | with_reducible assumption | with_reducible apply kept_hostRead | with_reducible apply OutKept.next | exact OutKept.fault _ | exact OutKept.refused _ | simp only [Kept.mk3, Kept.mk4] | (intro _) | split)

theorem kept_execEvrNextSeqLo {s0 : State} (r : Rd) (s : State) (hks : Kept s0 s) : OutKept s0 (execEvrNextSeqLo r s) := by
  unfold execEvrNextSeqLo
  try dsimp only
  repeat' (first | with_reducible assumption | with_reducible apply kept_hostRead | with_reducible apply OutKept.next | exact OutKept.fault _ | exact OutKept.refused _ | simp only [Kept.mk3, Kept.mk4] | (intro _) | split)

theorem kept_execMirPlogData0 {s0 : State} (r : Rd) (s : State) (hks : Kept s0 s) : OutKept s0 (execMirPlogData0 r s) := by
  unfold execMirPlogData0
  try dsimp only
  repeat' (first | with_reducible assumption | with_reducible apply kept_hostRead | with_reducible apply OutKept.next | exact OutKept.fault _ | exact OutKept.refused _ | simp only [Kept.mk3, Kept.mk4] | (intro _) | split)

end Sys2Proof.Machine
end

