-- ==== Sys2Proof/Laws/KeptI2cTarget.lean ====
section
/-!
SUPPORT. What the operations of Machine/I2cTarget.lean keep.
-/
set_option linter.unusedTactic false
set_option linter.unreachableTactic false
set_option linter.unusedVariables false
set_option linter.unusedSimpArgs false

namespace Sys2Proof.Machine

theorem kept_updI2ct {s0 : State} (s : State) (f : I2ctS → I2ctS) (hks : Kept s0 s) : Kept s0 (State.updI2ct s f) := by
  unfold State.updI2ct
  try dsimp only
  repeat' (first | with_reducible assumption | simp only [Kept.mk3, Kept.mk4] | (intro _) | split)

theorem kept_i2cCommand {s0 : State} (s : State) (pecOk : Bool) (act : State → State) (hact : ∀ v0, Kept s0 v0 → Kept s0 (act
      v0)) (hks : Kept s0 s) : Kept s0 (State.i2cCommand s pecOk act) := by
  unfold State.i2cCommand
  try dsimp only
  repeat' (first | with_reducible assumption | with_reducible apply kept_emit | with_reducible apply kept_raise | with_reducible apply kept_act | with_reducible apply kept_updI2ct | with_reducible apply hact | simp only [Kept.mk3, Kept.mk4] | (intro _) | split)

theorem kept_execPointer {s0 : State} (window : Byte) (addr : Word) (pecOk : Bool) (s : State) (hks : Kept s0 s) : OutKept s0
      (execPointer window addr pecOk s) := by
  unfold execPointer
  try dsimp only
  repeat' (first | with_reducible assumption | with_reducible apply kept_emit | with_reducible apply kept_updI2ct | with_reducible apply kept_i2cCommand | with_reducible apply OutKept.next | exact OutKept.fault _ | exact OutKept.refused _ | simp only [Kept.mk3, Kept.mk4] | (intro _) | split)

theorem kept_execWrite32 {s0 : State} (off : Word) (val : Word) (pecOk : Bool) (s : State) (hks : Kept s0 s) : OutKept s0
      (execWrite32 off val pecOk s) := by
  unfold execWrite32
  try dsimp only
  repeat' (first | with_reducible assumption | with_reducible apply kept_emit | with_reducible apply kept_raise | with_reducible apply kept_countErr | with_reducible apply kept_writeReg | with_reducible apply kept_i2cCommand | with_reducible apply OutKept.next | exact OutKept.fault _ | exact OutKept.refused _ | simp only [Kept.mk3, Kept.mk4] | (intro _) | split)

theorem kept_execMeterReq {s0 : State} (tenant : Byte) (nonce : QWord) (pecOk : Bool) (s : State) (hks : Kept s0 s) : OutKept
      s0 (execMeterReq tenant nonce pecOk s) := by
  unfold execMeterReq
  try dsimp only
  repeat' (first | with_reducible assumption | with_reducible apply kept_emit | with_reducible apply kept_meterServe | with_reducible apply kept_updI2ct | with_reducible apply kept_i2cCommand | with_reducible apply OutKept.next | exact OutKept.fault _ | exact OutKept.refused _ | simp only [Kept.mk3, Kept.mk4] | (intro _) | split)

theorem kept_execReadN {s0 : State} (n : Byte) (_pecOk : Bool) (s : State) (hks : Kept s0 s) : OutKept s0 (execReadN n _pecOk
      s) := by
  unfold execReadN
  try dsimp only
  repeat' (first | with_reducible assumption | with_reducible apply kept_emit | with_reducible apply kept_updI2ct | with_reducible apply OutKept.next | exact OutKept.fault _ | exact OutKept.refused _ | simp only [Kept.mk3, Kept.mk4] | (intro _) | split)

theorem kept_freeByte {s0 : State} (s : State) (hks : Kept s0 s) : K4 s0 (State.freeByte s) := by
  unfold State.freeByte
  try dsimp only
  repeat' (first | with_reducible assumption | with_reducible apply kept_drawn | with_reducible apply K4.mk | simp only [Kept.mk3, Kept.mk4] | (intro _) | split)

theorem kept_latchReg {s0 : State} (s : State) (off : Nat) (hks : Kept s0 s) : Kept s0 (State.latchReg s off) := by
  unfold State.latchReg
  try dsimp only
  repeat' (first | with_reducible assumption | with_reducible apply kept_countErr | with_reducible refine K3.elim (kept_readReg _ _ _ _ _ ?_) ‹_› | with_reducible apply kept_readReg | with_reducible apply kept_updI2ct | simp only [Kept.mk3, Kept.mk4] | (intro _) | split)

theorem kept_registerByte {s0 : State} (s : State) (first : Bool) (hks : Kept s0 s) : K4 s0 (State.registerByte s first) := by
  unfold State.registerByte
  try dsimp only
  repeat' (first | with_reducible assumption | with_reducible apply kept_latchReg | with_reducible apply K4.mk | simp only [Kept.mk3, Kept.mk4] | (intro _) | split)

theorem kept_windowByte {s0 : State} (s : State) (first : Bool) (hks : Kept s0 s) : K4 s0 (State.windowByte s first) := by
  unfold State.windowByte
  try dsimp only
  repeat' (first | with_reducible assumption | with_reducible apply K4.fst; with_reducible apply kept_freeByte | with_reducible refine K4.elim (kept_freeByte _ ?_) ‹_› | with_reducible apply kept_freeByte | with_reducible apply K4.fst; with_reducible apply kept_registerByte | with_reducible refine K4.elim (kept_registerByte _ _ ?_) ‹_› | with_reducible apply kept_registerByte | with_reducible apply K4.mk | with_reducible apply K1.getD | simp only [Kept.mk3, Kept.mk4] | (intro _) | split)

theorem kept_windowBytes {s0 : State} (n : Nat) (s : State) (f : Bool) (hks : Kept s0 s) : K4 s0 (State.windowBytes n s f) := by
  induction n generalizing s f with
  | zero => exact ⟨hks⟩
  | succ k ih =>
    unfold State.windowBytes
    exact ⟨(ih _ _ (kept_updI2ct _ _ (kept_windowByte _ _ hks).fst)).fst⟩

theorem kept_execI2cRead {s0 : State} (n : Nat) (s : State) (hks : Kept s0 s) : OutKept s0 (execI2cRead n s) := by
  unfold execI2cRead
  try dsimp only
  repeat' (first | with_reducible assumption | with_reducible apply kept_emit | with_reducible apply kept_updI2ct | with_reducible apply K4.fst; with_reducible apply kept_windowBytes | with_reducible refine K4.elim (kept_windowBytes _ _ _ ?_) ‹_› | with_reducible apply kept_windowBytes | with_reducible apply OutKept.next | exact OutKept.fault _ | exact OutKept.refused _ | simp only [Kept.mk3, Kept.mk4] | (intro _) | split)

theorem kept_execAlertResponse {s0 : State} (s : State) (hks : Kept s0 s) : OutKept s0 (execAlertResponse s) := by
  unfold execAlertResponse
  try dsimp only
  repeat' (first | with_reducible assumption | with_reducible apply kept_drawn | with_reducible apply kept_emit | with_reducible apply kept_updI2ct | with_reducible apply OutKept.next | exact OutKept.fault _ | exact OutKept.refused _ | simp only [Kept.mk3, Kept.mk4] | (intro _) | split)

theorem kept_execSclTimeout {s0 : State} (s : State) (hks : Kept s0 s) : OutKept s0 (execSclTimeout s) := by
  unfold execSclTimeout
  try dsimp only
  repeat' (first | with_reducible assumption | with_reducible apply kept_raise | with_reducible apply kept_updI2ct | with_reducible apply OutKept.next | exact OutKept.fault _ | exact OutKept.refused _ | simp only [Kept.mk3, Kept.mk4] | (intro _) | split)

end Sys2Proof.Machine
end

