-- ==== Sys2Proof/Laws/KeptMemErr.lean ====
section
/-!
SUPPORT. What the operations of Machine/MemErr.lean keep.
-/
set_option linter.unusedTactic false
set_option linter.unreachableTactic false
set_option linter.unusedVariables false
set_option linter.unusedSimpArgs false

namespace Sys2Proof.Machine

theorem kept_eccCorrected {s0 : State} (s : State) (hks : Kept s0 s) : Kept s0 (State.eccCorrected s) := by
  unfold State.eccCorrected
  try dsimp only
  repeat' (first | with_reducible assumption | with_reducible apply kept_raise | simp only [Kept.mk3, Kept.mk4] | (intro _) | split)

theorem kept_eccEvent {s0 : State} (s : State) (m : MemKind) (addr : DWord) (owner : Nat) (tenant : Byte) (rec : Bool) (hks :
      Kept s0 s) : Kept s0 (State.eccEvent s m addr owner tenant rec) := by
  unfold State.eccEvent
  try dsimp only
  repeat' (first | with_reducible assumption | with_reducible apply kept_raise | with_reducible apply kept_raiseRec | simp only [Kept.mk3, Kept.mk4] | (intro _) | split)

theorem kept_readAgain {s0 : State} (s : State) (d : BoardDesc) (tag : Tag) (c : Cmd) (k : Nat) (hks : Kept s0 s) : Kept s0
      (State.readAgain s d tag c k) := by
  unfold State.readAgain
  try dsimp only
  repeat' (first | with_reducible assumption | with_reducible apply kept_queueReads | simp only [Kept.mk3, Kept.mk4] | (intro _) | split)

theorem kept_spoil {s0 : State} (s : State) (h : Nat) (b : Buf) (hks : Kept s0 s) : Kept s0 (State.spoil s h b) := by
  unfold State.spoil
  try dsimp only
  repeat' (first | with_reducible assumption | with_reducible apply kept_drawn | with_reducible apply kept_updZone | with_reducible apply kept_updBuf | simp only [Kept.mk3, Kept.mk4] | (intro _) | split)

theorem kept_eccUncorrectable {s0 : State} (s : State) (m : MemKind) (addr : DWord) (hks : Kept s0 s) : Kept s0
      (State.eccUncorrectable s m addr) := by
  unfold State.eccUncorrectable
  try dsimp only
  repeat' (first | with_reducible assumption | with_reducible apply kept_squallTrigger | with_reducible apply kept_updBuf | with_reducible apply kept_eccEvent | with_reducible apply kept_readAgain | with_reducible apply kept_spoil | with_reducible apply K1.getD | simp only [Kept.mk3, Kept.mk4] | (intro _) | split)

theorem kept_wordError {s0 : State} (s : State) (e : WordError) (hks : Kept s0 s) : Kept s0 (State.wordError s e) := by
  unfold State.wordError
  try dsimp only
  repeat' (first | with_reducible assumption | with_reducible apply kept_eccCorrected | with_reducible apply kept_eccUncorrectable | simp only [Kept.mk3, Kept.mk4] | (intro _) | split)

theorem kept_execPatrolScrub {s0 : State} (errors : List WordError) (s : State) (hks : Kept s0 s) : OutKept s0
      (execPatrolScrub errors s) := by
  unfold execPatrolScrub
  try dsimp only
  repeat' (first | with_reducible assumption | with_reducible apply kept_wordError | with_reducible apply OutKept.next | exact OutKept.fault _ | exact OutKept.refused _ | with_reducible apply Kept.foldl | simp only [Kept.mk3, Kept.mk4] | (intro _) | split)

end Sys2Proof.Machine
end

