-- ==== Sys2Proof/Laws/Runs.lean ====
section
/-!
SUPPORT. Every meaning answers a next state on every state and operand: one lemma for each.
-/

set_option linter.unusedTactic false
set_option linter.unreachableTactic false

namespace Sys2Proof.Machine
theorem execSubmissionTailDoorbell_next (v : DbView) (q : Qid) (be : BitVec 4) (val : Word) (s : State) : ∃ u, execSubmissionTailDoorbell v q be val s = .next u := by
  unfold execSubmissionTailDoorbell
  repeat' (first | exact ⟨_, rfl⟩ | split | dsimp only)
theorem execCompletionHeadDoorbell_next (v : DbView) (q : Qid) (be : BitVec 4) (val : Word) (s : State) : ∃ u, execCompletionHeadDoorbell v q be val s = .next u := by
  unfold execCompletionHeadDoorbell
  repeat' (first | exact ⟨_, rfl⟩ | split | dsimp only)
theorem execDescriptorFetch_next (ds : List FetchedDesc) (s : State) : ∃ u, execDescriptorFetch ds s = .next u := by
  unfold execDescriptorFetch
  repeat' (first | exact ⟨_, rfl⟩ | split | dsimp only)
theorem execCompletionEntryWrite_next (tag : Tag) (s : State) : ∃ u, execCompletionEntryWrite tag s = .next u := by
  unfold execCompletionEntryWrite
  repeat' (first | exact ⟨_, rfl⟩ | split | dsimp only)
theorem execRead_next (tag : Tag) (s : State) : ∃ u, execRead tag s = .next u := by
  unfold execRead
  repeat' (first | exact ⟨_, rfl⟩ | split | dsimp only)
theorem execWrite_next (tag : Tag) (s : State) : ∃ u, execWrite tag s = .next u := by
  unfold execWrite
  repeat' (first | exact ⟨_, rfl⟩ | split | dsimp only)
theorem execAppend_next (tag : Tag) (s : State) : ∃ u, execAppend tag s = .next u := by
  unfold execAppend
  repeat' (first | exact ⟨_, rfl⟩ | split | dsimp only)
theorem execAppendAcknowledgement_next (tag : Tag) (s : State) : ∃ u, execAppendAcknowledgement tag s = .next u := by
  unfold execAppendAcknowledgement
  repeat' (first | exact ⟨_, rfl⟩ | split | dsimp only)
theorem execFlush_next (tag : Tag) (s : State) : ∃ u, execFlush tag s = .next u := by
  unfold execFlush
  repeat' (first | exact ⟨_, rfl⟩ | split | dsimp only)
theorem execTrim_next (tag : Tag) (s : State) : ∃ u, execTrim tag s = .next u := by
  unfold execTrim
  repeat' (first | exact ⟨_, rfl⟩ | split | dsimp only)
theorem execZoneOpen_next (tag : Tag) (s : State) : ∃ u, execZoneOpen tag s = .next u := by
  unfold execZoneOpen
  repeat' (first | exact ⟨_, rfl⟩ | split | dsimp only)
theorem execZoneFinish_next (tag : Tag) (s : State) : ∃ u, execZoneFinish tag s = .next u := by
  unfold execZoneFinish
  repeat' (first | exact ⟨_, rfl⟩ | split | dsimp only)
theorem execZoneHold_next (tag : Tag) (s : State) : ∃ u, execZoneHold tag s = .next u := by
  unfold execZoneHold
  repeat' (first | exact ⟨_, rfl⟩ | split | dsimp only)
theorem execZoneRelease_next (tag : Tag) (s : State) : ∃ u, execZoneRelease tag s = .next u := by
  unfold execZoneRelease
  repeat' (first | exact ⟨_, rfl⟩ | split | dsimp only)
theorem execZoneSeal_next (tag : Tag) (s : State) : ∃ u, execZoneSeal tag s = .next u := by
  unfold execZoneSeal
  repeat' (first | exact ⟨_, rfl⟩ | split | dsimp only)
theorem execZoneReport_next (tag : Tag) (s : State) : ∃ u, execZoneReport tag s = .next u := by
  unfold execZoneReport
  repeat' (first | exact ⟨_, rfl⟩ | split | dsimp only)
theorem execVerify_next (tag : Tag) (s : State) : ∃ u, execVerify tag s = .next u := by
  unfold execVerify
  repeat' (first | exact ⟨_, rfl⟩ | split | dsimp only)
theorem execRemoteCopy_next (tag : Tag) (s : State) : ∃ u, execRemoteCopy tag s = .next u := by
  unfold execRemoteCopy
  repeat' (first | exact ⟨_, rfl⟩ | split | dsimp only)
theorem execIdentify_next (tag : Tag) (s : State) : ∃ u, execIdentify tag s = .next u := by
  unfold execIdentify
  repeat' (first | exact ⟨_, rfl⟩ | split | dsimp only)
theorem execQueueCreate_next (tag : Tag) (s : State) : ∃ u, execQueueCreate tag s = .next u := by
  unfold execQueueCreate
  repeat' (first | exact ⟨_, rfl⟩ | split | dsimp only)
theorem execQueueDelete_next (tag : Tag) (s : State) : ∃ u, execQueueDelete tag s = .next u := by
  unfold execQueueDelete
  repeat' (first | exact ⟨_, rfl⟩ | split | dsimp only)
theorem execKeyLoad_next (tag : Tag) (s : State) : ∃ u, execKeyLoad tag s = .next u := by
  unfold execKeyLoad
  repeat' (first | exact ⟨_, rfl⟩ | split | dsimp only)
theorem execKeyPageChange_next (t : Tid) (s : State) : ∃ u, execKeyPageChange t s = .next u := by
  unfold execKeyPageChange
  repeat' (first | exact ⟨_, rfl⟩ | split | dsimp only)
theorem execKeyClear_next (tag : Tag) (s : State) : ∃ u, execKeyClear tag s = .next u := by
  unfold execKeyClear
  repeat' (first | exact ⟨_, rfl⟩ | split | dsimp only)
theorem execFeatureHoldMinutesGet_next (tag : Tag) (s : State) : ∃ u, execFeatureHoldMinutesGet tag s = .next u := by
  unfold execFeatureHoldMinutesGet
  repeat' (first | exact ⟨_, rfl⟩ | split | dsimp only)
theorem execFeatureHoldMinutesSet_next (tag : Tag) (s : State) : ∃ u, execFeatureHoldMinutesSet tag s = .next u := by
  unfold execFeatureHoldMinutesSet
  repeat' (first | exact ⟨_, rfl⟩ | split | dsimp only)
theorem execFeatureDisplayItemGet_next (tag : Tag) (s : State) : ∃ u, execFeatureDisplayItemGet tag s = .next u := by
  unfold execFeatureDisplayItemGet
  repeat' (first | exact ⟨_, rfl⟩ | split | dsimp only)
theorem execFeatureDisplayItemSet_next (tag : Tag) (s : State) : ∃ u, execFeatureDisplayItemSet tag s = .next u := by
  unfold execFeatureDisplayItemSet
  repeat' (first | exact ⟨_, rfl⟩ | split | dsimp only)
theorem execFeatureBudgetGet_next (tag : Tag) (s : State) : ∃ u, execFeatureBudgetGet tag s = .next u := by
  unfold execFeatureBudgetGet
  repeat' (first | exact ⟨_, rfl⟩ | split | dsimp only)
theorem execLogReadEventRecords_next (tag : Tag) (s : State) : ∃ u, execLogReadEventRecords tag s = .next u := by
  unfold execLogReadEventRecords
  repeat' (first | exact ⟨_, rfl⟩ | split | dsimp only)
theorem execLogReadZoneResetLog_next (tag : Tag) (s : State) : ∃ u, execLogReadZoneResetLog tag s = .next u := by
  unfold execLogReadZoneResetLog
  repeat' (first | exact ⟨_, rfl⟩ | split | dsimp only)
theorem execMeterReadTenant_next (tag : Tag) (s : State) : ∃ u, execMeterReadTenant tag s = .next u := by
  unfold execMeterReadTenant
  repeat' (first | exact ⟨_, rfl⟩ | split | dsimp only)
theorem execMeterReadAll_next (tag : Tag) (s : State) : ∃ u, execMeterReadAll tag s = .next u := by
  unfold execMeterReadAll
  repeat' (first | exact ⟨_, rfl⟩ | split | dsimp only)
theorem execMeterReadLoadProfile_next (tag : Tag) (s : State) : ∃ u, execMeterReadLoadProfile tag s = .next u := by
  unfold execMeterReadLoadProfile
  repeat' (first | exact ⟨_, rfl⟩ | split | dsimp only)
theorem execGetNonce_next (tag : Tag) (s : State) : ∃ u, execGetNonce tag s = .next u := by
  unfold execGetNonce
  repeat' (first | exact ⟨_, rfl⟩ | split | dsimp only)
theorem execSetHost_next (tag : Tag) (s : State) : ∃ u, execSetHost tag s = .next u := by
  unfold execSetHost
  repeat' (first | exact ⟨_, rfl⟩ | split | dsimp only)
theorem execSetSigned_next (tag : Tag) (s : State) : ∃ u, execSetSigned tag s = .next u := by
  unfold execSetSigned
  repeat' (first | exact ⟨_, rfl⟩ | split | dsimp only)
theorem execNonceLapse_next (s : State) : ∃ u, execNonceLapse s = .next u := by
  unfold execNonceLapse
  repeat' (first | exact ⟨_, rfl⟩ | split | dsimp only)
theorem execSignedLapse_next (s : State) : ∃ u, execSignedLapse s = .next u := by
  unfold execSignedLapse
  repeat' (first | exact ⟨_, rfl⟩ | split | dsimp only)
theorem execImageStage_next (tag : Tag) (s : State) : ∃ u, execImageStage tag s = .next u := by
  unfold execImageStage
  repeat' (first | exact ⟨_, rfl⟩ | split | dsimp only)
theorem execImageCommit_next (tag : Tag) (s : State) : ∃ u, execImageCommit tag s = .next u := by
  unfold execImageCommit
  repeat' (first | exact ⟨_, rfl⟩ | split | dsimp only)
theorem execGetChallenge_next (tag : Tag) (s : State) : ∃ u, execGetChallenge tag s = .next u := by
  unfold execGetChallenge
  repeat' (first | exact ⟨_, rfl⟩ | split | dsimp only)
theorem execEnrol_next (tag : Tag) (s : State) : ∃ u, execEnrol tag s = .next u := by
  unfold execEnrol
  repeat' (first | exact ⟨_, rfl⟩ | split | dsimp only)
theorem execLockUpdates_next (tag : Tag) (s : State) : ∃ u, execLockUpdates tag s = .next u := by
  unfold execLockUpdates
  repeat' (first | exact ⟨_, rfl⟩ | split | dsimp only)
theorem execUnlockUpdates_next (tag : Tag) (s : State) : ∃ u, execUnlockUpdates tag s = .next u := by
  unfold execUnlockUpdates
  repeat' (first | exact ⟨_, rfl⟩ | split | dsimp only)
theorem execTransfer_next (tag : Tag) (s : State) : ∃ u, execTransfer tag s = .next u := by
  unfold execTransfer
  repeat' (first | exact ⟨_, rfl⟩ | split | dsimp only)
theorem execChallengeLapse_next (s : State) : ∃ u, execChallengeLapse s = .next u := by
  unfold execChallengeLapse
  repeat' (first | exact ⟨_, rfl⟩ | split | dsimp only)
theorem execSealExportSealRecord_next (tag : Tag) (s : State) : ∃ u, execSealExportSealRecord tag s = .next u := by
  unfold execSealExportSealRecord
  repeat' (first | exact ⟨_, rfl⟩ | split | dsimp only)
theorem execSealExportZoneEntries_next (tag : Tag) (s : State) : ∃ u, execSealExportZoneEntries tag s = .next u := by
  unfold execSealExportZoneEntries
  repeat' (first | exact ⟨_, rfl⟩ | split | dsimp only)
theorem execSealExportChain_next (tag : Tag) (s : State) : ∃ u, execSealExportChain tag s = .next u := by
  unfold execSealExportChain
  repeat' (first | exact ⟨_, rfl⟩ | split | dsimp only)
theorem execZoneEraseSigned_next (tag : Tag) (s : State) : ∃ u, execZoneEraseSigned tag s = .next u := by
  unfold execZoneEraseSigned
  repeat' (first | exact ⟨_, rfl⟩ | split | dsimp only)
theorem execTenantReset_next (t : Tid) (w : Wr) (s : State) : ∃ u, execTenantReset t w s = .next u := by
  unfold execTenantReset
  try unfold State.write
  repeat' (first | exact ⟨_, rfl⟩ | split | dsimp only)
theorem execTenantResetPipesDrained_next (t : Tid) (s : State) : ∃ u, execTenantResetPipesDrained t s = .next u := by
  unfold execTenantResetPipesDrained
  repeat' (first | exact ⟨_, rfl⟩ | split | dsimp only)
theorem execAqEnable_next (t : Tid) (w : Wr) (s : State) : ∃ u, execAqEnable t w s = .next u := by
  unfold execAqEnable
  try unfold State.write
  repeat' (first | exact ⟨_, rfl⟩ | split | dsimp only)
theorem execDevFeatAccept_next (upper : Bool) (w : Wr) (s : State) : ∃ u, execDevFeatAccept upper w s = .next u := by
  unfold execDevFeatAccept
  try unfold State.write
  repeat' (first | exact ⟨_, rfl⟩ | split | dsimp only)
theorem execDevCtrlFeatLock_next (w : Wr) (s : State) : ∃ u, execDevCtrlFeatLock w s = .next u := by
  unfold execDevCtrlFeatLock
  try unfold State.write
  repeat' (first | exact ⟨_, rfl⟩ | split | dsimp only)
theorem execTntFeatAccept_next (t : Tid) (w : Wr) (s : State) : ∃ u, execTntFeatAccept t w s = .next u := by
  unfold execTntFeatAccept
  try unfold State.write
  repeat' (first | exact ⟨_, rfl⟩ | split | dsimp only)
theorem execTntCtrlFeatLock_next (t : Tid) (w : Wr) (s : State) : ∃ u, execTntCtrlFeatLock t w s = .next u := by
  unfold execTntCtrlFeatLock
  try unfold State.write
  repeat' (first | exact ⟨_, rfl⟩ | split | dsimp only)
theorem execTntHoldMinutes_next (t : Tid) (w : Wr) (s : State) : ∃ u, execTntHoldMinutes t w s = .next u := by
  unfold execTntHoldMinutes
  try unfold State.write
  repeat' (first | exact ⟨_, rfl⟩ | split | dsimp only)
theorem execIntStatusW1c_next (p : Page) (w : Wr) (s : State) : ∃ u, execIntStatusW1c p w s = .next u := by
  unfold execIntStatusW1c
  try unfold State.write
  repeat' (first | exact ⟨_, rfl⟩ | split | dsimp only)
theorem execIntEnableWrite_next (p : Page) (w : Wr) (s : State) : ∃ u, execIntEnableWrite p w s = .next u := by
  unfold execIntEnableWrite
  try unfold State.write
  repeat' (first | exact ⟨_, rfl⟩ | split | dsimp only)
theorem execIntForce_next (p : Page) (w : Wr) (s : State) : ∃ u, execIntForce p w s = .next u := by
  unfold execIntForce
  try unfold State.write
  repeat' (first | exact ⟨_, rfl⟩ | split | dsimp only)
theorem execLock_next (p : Page) (w : Wr) (s : State) : ∃ u, execLock p w s = .next u := by
  unfold execLock
  try unfold State.write
  repeat' (first | exact ⟨_, rfl⟩ | split | dsimp only)
theorem execIrqRoute_next (n : Fin 576) (w : Wr) (s : State) : ∃ u, execIrqRoute n w s = .next u := by
  unfold execIrqRoute
  try unfold State.write
  repeat' (first | exact ⟨_, rfl⟩ | split | dsimp only)
theorem execInterruptMessage_next (fn : Fn) (vec : Fin 72) (s : State) : ∃ u, execInterruptMessage fn vec s = .next u := by
  unfold execInterruptMessage
  repeat' (first | exact ⟨_, rfl⟩ | split | dsimp only)
theorem execSoftwareReset_next (w : Wr) (s : State) : ∃ u, execSoftwareReset w s = .next u := by
  unfold execSoftwareReset
  try unfold State.write
  repeat' (first | exact ⟨_, rfl⟩ | split | dsimp only)
theorem execCauseAck_next (w : Wr) (s : State) : ∃ u, execCauseAck w s = .next u := by
  unfold execCauseAck
  try unfold State.write
  repeat' (first | exact ⟨_, rfl⟩ | split | dsimp only)
theorem execProbeNow_next (w : Wr) (s : State) : ∃ u, execProbeNow w s = .next u := by
  unfold execProbeNow
  try unfold State.write
  repeat' (first | exact ⟨_, rfl⟩ | split | dsimp only)
theorem execUpdRcvStart_next (w : Wr) (s : State) : ∃ u, execUpdRcvStart w s = .next u := by
  unfold execUpdRcvStart
  try unfold State.write
  repeat' (first | exact ⟨_, rfl⟩ | split | dsimp only)
theorem execUpdRcvChunk_next (w : Wr) (data : List Byte) (failed : Bool) (s : State) : ∃ u, execUpdRcvChunk w data failed s = .next u := by
  unfold execUpdRcvChunk
  repeat' (first | exact ⟨_, rfl⟩ | split | dsimp only)
theorem execUpdRcvFinish_next (w : Wr) (otpGood : Bool) (s : State) : ∃ u, execUpdRcvFinish w otpGood s = .next u := by
  unfold execUpdRcvFinish
  try unfold State.write
  repeat' (first | exact ⟨_, rfl⟩ | split | dsimp only)
theorem execUpdRcvAbort_next (w : Wr) (s : State) : ∃ u, execUpdRcvAbort w s = .next u := by
  unfold execUpdRcvAbort
  try unfold State.write
  repeat' (first | exact ⟨_, rfl⟩ | split | dsimp only)
theorem execRecoveryFrameStart_next (hdr : Word) (payload : List Word) (crc : Word) (s : State) : ∃ u, execRecoveryFrameStart hdr payload crc s = .next u := by
  unfold execRecoveryFrameStart
  repeat' (first | exact ⟨_, rfl⟩ | split | dsimp only)
theorem execRecoveryFrameData_next (hdr : Word) (payload : List Word) (crc : Word) (s : State) : ∃ u, execRecoveryFrameData hdr payload crc s = .next u := by
  unfold execRecoveryFrameData
  repeat' (first | exact ⟨_, rfl⟩ | split | dsimp only)
theorem execRecoveryFrameFinish_next (hdr : Word) (payload : List Word) (crc : Word) (otpGood : Bool) (s : State) : ∃ u, execRecoveryFrameFinish hdr payload crc otpGood s = .next u := by
  unfold execRecoveryFrameFinish
  repeat' (first | exact ⟨_, rfl⟩ | split | dsimp only)
theorem execRecoveryFrameStatus_next (hdr : Word) (payload : List Word) (crc : Word) (s : State) : ∃ u, execRecoveryFrameStatus hdr payload crc s = .next u := by
  unfold execRecoveryFrameStatus
  repeat' (first | exact ⟨_, rfl⟩ | split | dsimp only)
theorem execSramMarchStart_next (w : Wr) (s : State) : ∃ u, execSramMarchStart w s = .next u := by
  unfold execSramMarchStart
  try unfold State.write
  repeat' (first | exact ⟨_, rfl⟩ | split | dsimp only)
theorem execMarchDone_next (fails : List FailRow) (s : State) : ∃ u, execMarchDone fails s = .next u := by
  unfold execMarchDone
  repeat' (first | exact ⟨_, rfl⟩ | split | dsimp only)
theorem execQspiGo_next (w : Wr) (s : State) : ∃ u, execQspiGo w s = .next u := by
  unfold execQspiGo
  try unfold State.write
  repeat' (first | exact ⟨_, rfl⟩ | split | dsimp only)
theorem execQspiFrameStart_next (s : State) : ∃ u, execQspiFrameStart s = .next u := by
  unfold execQspiFrameStart
  repeat' (first | exact ⟨_, rfl⟩ | split | dsimp only)
theorem execFrameDone_next (rd : List Byte) (s : State) : ∃ u, execFrameDone rd s = .next u := by
  unfold execFrameDone
  repeat' (first | exact ⟨_, rfl⟩ | split | dsimp only)
theorem execSpitTxData_next (w : Wr) (s : State) : ∃ u, execSpitTxData w s = .next u := by
  unfold execSpitTxData
  try unfold State.write
  repeat' (first | exact ⟨_, rfl⟩ | split | dsimp only)
theorem execSpitRxPop_next (w : Wr) (s : State) : ∃ u, execSpitRxPop w s = .next u := by
  unfold execSpitRxPop
  try unfold State.write
  repeat' (first | exact ⟨_, rfl⟩ | split | dsimp only)
theorem execSpitCtrl_next (w : Wr) (s : State) : ∃ u, execSpitCtrl w s = .next u := by
  unfold execSpitCtrl
  try unfold State.write
  repeat' (first | exact ⟨_, rfl⟩ | split | dsimp only)
theorem execSpitWordReceived_next (word : Word) (s : State) : ∃ u, execSpitWordReceived word s = .next u := by
  unfold execSpitWordReceived
  repeat' (first | exact ⟨_, rfl⟩ | split | dsimp only)
theorem execSpitWordTake_next (first : Bool) (s : State) : ∃ u, execSpitWordTake first s = .next u := by
  unfold execSpitWordTake
  repeat' (first | exact ⟨_, rfl⟩ | split | dsimp only)
theorem execSpitCsRise_next (withinWord : Bool) (s : State) : ∃ u, execSpitCsRise withinWord s = .next u := by
  unfold execSpitCsRise
  repeat' (first | exact ⟨_, rfl⟩ | split | dsimp only)
theorem execInstallFleet_next (w : Wr) (s : State) : ∃ u, execInstallFleet w s = .next u := by
  unfold execInstallFleet
  try unfold State.write
  repeat' (first | exact ⟨_, rfl⟩ | split | dsimp only)
theorem execInstallCert_next (w : Wr) (s : State) : ∃ u, execInstallCert w s = .next u := by
  unfold execInstallCert
  try unfold State.write
  repeat' (first | exact ⟨_, rfl⟩ | split | dsimp only)
theorem execVfrRreqGo_next (w : Wr) (s : State) : ∃ u, execVfrRreqGo w s = .next u := by
  unfold execVfrRreqGo
  try unfold State.write
  repeat' (first | exact ⟨_, rfl⟩ | split | dsimp only)
theorem execPwrBudgetAudit0_next (r : Rd) (s : State) : ∃ u, execPwrBudgetAudit0 r s = .next u := by
  unfold execPwrBudgetAudit0
  repeat' (first | exact ⟨_, rfl⟩ | split | dsimp only)
theorem execHqmTagAudit0_next (r : Rd) (s : State) : ∃ u, execHqmTagAudit0 r s = .next u := by
  unfold execHqmTagAudit0
  repeat' (first | exact ⟨_, rfl⟩ | split | dsimp only)
theorem execMedSlotAudit0_next (r : Rd) (s : State) : ∃ u, execMedSlotAudit0 r s = .next u := by
  unfold execMedSlotAudit0
  repeat' (first | exact ⟨_, rfl⟩ | split | dsimp only)
theorem execBpmAudit0_next (r : Rd) (s : State) : ∃ u, execBpmAudit0 r s = .next u := by
  unfold execBpmAudit0
  repeat' (first | exact ⟨_, rfl⟩ | split | dsimp only)
theorem execVflCreditAudit_next (n : Fin 4) (r : Rd) (s : State) : ∃ u, execVflCreditAudit n r s = .next u := by
  unfold execVflCreditAudit
  repeat' (first | exact ⟨_, rfl⟩ | split | dsimp only)
theorem execMtrAudit0_next (r : Rd) (s : State) : ∃ u, execMtrAudit0 r s = .next u := by
  unfold execMtrAudit0
  repeat' (first | exact ⟨_, rfl⟩ | split | dsimp only)
theorem execMtrUtcLo_next (r : Rd) (s : State) : ∃ u, execMtrUtcLo r s = .next u := by
  unfold execMtrUtcLo
  repeat' (first | exact ⟨_, rfl⟩ | split | dsimp only)
theorem execMtrAccLo_next (r : Rd) (s : State) : ∃ u, execMtrAccLo r s = .next u := by
  unfold execMtrAccLo
  repeat' (first | exact ⟨_, rfl⟩ | split | dsimp only)
theorem execSealIndexLo_next (r : Rd) (s : State) : ∃ u, execSealIndexLo r s = .next u := by
  unfold execSealIndexLo
  repeat' (first | exact ⟨_, rfl⟩ | split | dsimp only)
theorem execEvrNextSeqLo_next (r : Rd) (s : State) : ∃ u, execEvrNextSeqLo r s = .next u := by
  unfold execEvrNextSeqLo
  repeat' (first | exact ⟨_, rfl⟩ | split | dsimp only)
theorem execMirPlogData0_next (r : Rd) (s : State) : ∃ u, execMirPlogData0 r s = .next u := by
  unfold execMirPlogData0
  repeat' (first | exact ⟨_, rfl⟩ | split | dsimp only)
theorem execRegisterWrite_next (p : Page) (off : BitVec 12) (w : Wr) (s : State) : ∃ u, execRegisterWrite p off w s = .next u := by
  unfold execRegisterWrite
  try unfold State.write
  repeat' (first | exact ⟨_, rfl⟩ | split | dsimp only)
theorem execReservedAccess_next (space : BarSpace) (off : BitVec 20) (be : BitVec 4) (read : Bool) (s : State) : ∃ u, execReservedAccess space off be read s = .next u := by
  unfold execReservedAccess
  repeat' (first | exact ⟨_, rfl⟩ | split | dsimp only)
theorem execPerstAssert_next (s : State) : ∃ u, execPerstAssert s = .next u := by
  unfold execPerstAssert
  repeat' (first | exact ⟨_, rfl⟩ | split | dsimp only)
theorem execPerstRelease_next (s : State) : ∃ u, execPerstRelease s = .next u := by
  unfold execPerstRelease
  repeat' (first | exact ⟨_, rfl⟩ | split | dsimp only)
theorem execHotReset_next (s : State) : ∃ u, execHotReset s = .next u := by
  unfold execHotReset
  repeat' (first | exact ⟨_, rfl⟩ | split | dsimp only)
theorem execLinkDown_next (s : State) : ∃ u, execLinkDown s = .next u := by
  unfold execLinkDown
  repeat' (first | exact ⟨_, rfl⟩ | split | dsimp only)
theorem execLinkUp_next (speed width : BitVec 3) (s : State) : ∃ u, execLinkUp speed width s = .next u := by
  unfold execLinkUp
  repeat' (first | exact ⟨_, rfl⟩ | split | dsimp only)
theorem execFlr_next (fn : Fn) (s : State) : ∃ u, execFlr fn s = .next u := by
  unfold execFlr
  repeat' (first | exact ⟨_, rfl⟩ | split | dsimp only)
theorem execVfEnableSet_next (numVfs : Fin 64) (ari : Bool) (s : State) : ∃ u, execVfEnableSet numVfs ari s = .next u := by
  unfold execVfEnableSet
  repeat' (first | exact ⟨_, rfl⟩ | split | dsimp only)
theorem execVfEnableClear_next (s : State) : ∃ u, execVfEnableClear s = .next u := by
  unfold execVfEnableClear
  repeat' (first | exact ⟨_, rfl⟩ | split | dsimp only)
theorem execBusMasterEnableClear_next (fn : Fn) (s : State) : ∃ u, execBusMasterEnableClear fn s = .next u := by
  unfold execBusMasterEnableClear
  repeat' (first | exact ⟨_, rfl⟩ | split | dsimp only)
theorem execBusMasterEnableSet_next (fn : Fn) (s : State) : ∃ u, execBusMasterEnableSet fn s = .next u := by
  unfold execBusMasterEnableSet
  repeat' (first | exact ⟨_, rfl⟩ | split | dsimp only)
theorem execInterruptModeChange_next (fn : Fn) (cfg : IntCfg) (s : State) : ∃ u, execInterruptModeChange fn cfg s = .next u := by
  unfold execInterruptModeChange
  repeat' (first | exact ⟨_, rfl⟩ | split | dsimp only)
theorem execVectorUnmask_next (fn : Fn) (msix : Bool) (vec : Fin 72) (s : State) : ∃ u, execVectorUnmask fn msix vec s = .next u := by
  unfold execVectorUnmask
  repeat' (first | exact ⟨_, rfl⟩ | split | dsimp only)
theorem execInterruptDisable_next (on : Bool) (s : State) : ∃ u, execInterruptDisable on s = .next u := by
  unfold execInterruptDisable
  repeat' (first | exact ⟨_, rfl⟩ | split | dsimp only)
theorem execD3hotEntry_next (fn : Fn) (s : State) : ∃ u, execD3hotEntry fn s = .next u := by
  unfold execD3hotEntry
  repeat' (first | exact ⟨_, rfl⟩ | split | dsimp only)
theorem execConfigurationRequest_next (fn : Fn) (req : CfgReq) (s : State) : ∃ u, execConfigurationRequest fn req s = .next u := by
  unfold execConfigurationRequest
  repeat' (first | exact ⟨_, rfl⟩ | split | dsimp only)
theorem execPoisonedMemoryWrite_next (space : BarSpace) (s : State) : ∃ u, execPoisonedMemoryWrite space s = .next u := by
  unfold execPoisonedMemoryWrite
  repeat' (first | exact ⟨_, rfl⟩ | split | dsimp only)
theorem execUnsupportedRequest_next (fn : Fn) (kind : UrKind) (s : State) : ∃ u, execUnsupportedRequest fn kind s = .next u := by
  unfold execUnsupportedRequest
  repeat' (first | exact ⟨_, rfl⟩ | split | dsimp only)
theorem execHostReadCompletion_next (tag : Tag) (buf : HostBuf) (off : Nat) (b : List Byte) (ep : Bool) (s : State) : ∃ u, execHostReadCompletion tag buf off b ep s = .next u := by
  unfold execHostReadCompletion
  repeat' (first | exact ⟨_, rfl⟩ | split | dsimp only)
theorem execCompletionTimeout_next (tag : Tag) (why : ReadFailure) (s : State) : ∃ u, execCompletionTimeout tag why s = .next u := by
  unfold execCompletionTimeout
  repeat' (first | exact ⟨_, rfl⟩ | split | dsimp only)
theorem execStaleCompletion_next (rtag n : Nat) (ep : Bool) (s : State) : ∃ u, execStaleCompletion rtag n ep s = .next u := by
  unfold execStaleCompletion
  repeat' (first | exact ⟨_, rfl⟩ | split | dsimp only)
theorem execAspmL1Entry_next (clkreqHigh : Bool) (s : State) : ∃ u, execAspmL1Entry clkreqHigh s = .next u := by
  unfold execAspmL1Entry
  repeat' (first | exact ⟨_, rfl⟩ | split | dsimp only)
theorem execPowerOnReset_next (s : State) : ∃ u, execPowerOnReset s = .next u := by
  unfold execPowerOnReset
  repeat' (first | exact ⟨_, rfl⟩ | split | dsimp only)
theorem execResetInLAssert_next (lowNs : Nat) (s : State) : ∃ u, execResetInLAssert lowNs s = .next u := by
  unfold execResetInLAssert
  repeat' (first | exact ⟨_, rfl⟩ | split | dsimp only)
theorem execResetRelease_next (s : State) : ∃ u, execResetRelease s = .next u := by
  unfold execResetRelease
  repeat' (first | exact ⟨_, rfl⟩ | split | dsimp only)
theorem execStrapSampling_next (a b c : BitVec 6) (s : State) : ∃ u, execStrapSampling a b c s = .next u := by
  unfold execStrapSampling
  repeat' (first | exact ⟨_, rfl⟩ | split | dsimp only)
theorem execCrystalMonitorWindow_next (count : BitVec 16) (noEdge pllLost : Bool) (s : State) : ∃ u, execCrystalMonitorWindow count noEdge pllLost s = .next u := by
  unfold execCrystalMonitorWindow
  repeat' (first | exact ⟨_, rfl⟩ | split | dsimp only)
theorem execCrystalMonitorTrip_next (s : State) : ∃ u, execCrystalMonitorTrip s = .next u := by
  unfold execCrystalMonitorTrip
  repeat' (first | exact ⟨_, rfl⟩ | split | dsimp only)
theorem execPfailLFall_next (s : State) : ∃ u, execPfailLFall s = .next u := by
  unfold execPfailLFall
  repeat' (first | exact ⟨_, rfl⟩ | split | dsimp only)
theorem execVsupConversion_next (mV : Nat) (s : State) : ∃ u, execVsupConversion mV s = .next u := by
  unfold execVsupConversion
  repeat' (first | exact ⟨_, rfl⟩ | split | dsimp only)
theorem execWatchdogExpiry_next (s : State) : ∃ u, execWatchdogExpiry s = .next u := by
  unfold execWatchdogExpiry
  repeat' (first | exact ⟨_, rfl⟩ | split | dsimp only)
theorem execSquallStepEnd_next (hung : List (Fin 256)) (s : State) : ∃ u, execSquallStepEnd hung s = .next u := by
  unfold execSquallStepEnd
  repeat' (first | exact ⟨_, rfl⟩ | split | dsimp only)
theorem execSquallRestart_next (pfailHigh : Nat) (s : State) : ∃ u, execSquallRestart pfailHigh s = .next u := by
  unfold execSquallRestart
  repeat' (first | exact ⟨_, rfl⟩ | split | dsimp only)
theorem execThermalRestart_next (s : State) : ∃ u, execThermalRestart s = .next u := by
  unfold execThermalRestart
  repeat' (first | exact ⟨_, rfl⟩ | split | dsimp only)
theorem execLullEntry_next (s : State) : ∃ u, execLullEntry s = .next u := by
  unfold execLullEntry
  repeat' (first | exact ⟨_, rfl⟩ | split | dsimp only)
theorem execLullExit_next (_ev : WakeEvent) (s : State) : ∃ u, execLullExit _ev s = .next u := by
  unfold execLullExit
  repeat' (first | exact ⟨_, rfl⟩ | split | dsimp only)
theorem execDomainGate_next (d : Fin 5) (s : State) : ∃ u, execDomainGate d s = .next u := by
  unfold execDomainGate
  repeat' (first | exact ⟨_, rfl⟩ | split | dsimp only)
theorem execDomainPowerDown_next (d : Fin 5) (s : State) : ∃ u, execDomainPowerDown d s = .next u := by
  unfold execDomainPowerDown
  repeat' (first | exact ⟨_, rfl⟩ | split | dsimp only)
theorem execDomainWake_next (d : Fin 5) (s : State) : ∃ u, execDomainWake d s = .next u := by
  unfold execDomainWake
  repeat' (first | exact ⟨_, rfl⟩ | split | dsimp only)
theorem execFabWakeProbe_next (locks : BitVec 4) (s : State) : ∃ u, execFabWakeProbe locks s = .next u := by
  unfold execFabWakeProbe
  repeat' (first | exact ⟨_, rfl⟩ | split | dsimp only)
theorem execHoldupProbe_next (ans : PmicAnswer) (s : State) : ∃ u, execHoldupProbe ans s = .next u := by
  unfold execHoldupProbe
  repeat' (first | exact ⟨_, rfl⟩ | split | dsimp only)
theorem execLoadPulse_next (v0mV : Nat) (ans : PmicAnswer) (s : State) : ∃ u, execLoadPulse v0mV ans s = .next u := by
  unfold execLoadPulse
  repeat' (first | exact ⟨_, rfl⟩ | split | dsimp only)
theorem execProbeComplete_next (vAuV slopeMVs : Nat) (ans : PmicAnswer) (s : State) : ∃ u, execProbeComplete vAuV slopeMVs ans s = .next u := by
  unfold execProbeComplete
  repeat' (first | exact ⟨_, rfl⟩ | split | dsimp only)
theorem execNandIdCheck_next (rs : List TargetResult) (s : State) : ∃ u, execNandIdCheck rs s = .next u := by
  unfold execNandIdCheck
  repeat' (first | exact ⟨_, rfl⟩ | split | dsimp only)
theorem execDramTrainingDone_next (sweeps : Vector LaneSweep 5) (mr : List Byte) (gib timeUs : Nat) (s : State) : ∃ u, execDramTrainingDone sweeps mr gib timeUs s = .next u := by
  unfold execDramTrainingDone
  repeat' (first | exact ⟨_, rfl⟩ | split | dsimp only)
theorem execExtendedPartLoaded_next (s : State) : ∃ u, execExtendedPartLoaded s = .next u := by
  unfold execExtendedPartLoaded
  repeat' (first | exact ⟨_, rfl⟩ | split | dsimp only)
theorem execGust_next (kat : BitVec 5) (s : State) : ∃ u, execGust kat s = .next u := by
  unfold execGust
  repeat' (first | exact ⟨_, rfl⟩ | split | dsimp only)
theorem execPowerFailReplay_next (s : State) : ∃ u, execPowerFailReplay s = .next u := by
  unfold execPowerFailReplay
  repeat' (first | exact ⟨_, rfl⟩ | split | dsimp only)
theorem execGustMerge_next (zone : BitVec 20) (s : State) : ∃ u, execGustMerge zone s = .next u := by
  unfold execGustMerge
  repeat' (first | exact ⟨_, rfl⟩ | split | dsimp only)
theorem execFull_next (s : State) : ∃ u, execFull s = .next u := by
  unfold execFull
  repeat' (first | exact ⟨_, rfl⟩ | split | dsimp only)
theorem execRecovery_next (cause detail : Byte) (s : State) : ∃ u, execRecovery cause detail s = .next u := by
  unfold execRecovery
  repeat' (first | exact ⟨_, rfl⟩ | split | dsimp only)
theorem execFlashIssue_next (die : Fin 256) (s : State) : ∃ u, execFlashIssue die s = .next u := by
  unfold execFlashIssue
  repeat' (first | exact ⟨_, rfl⟩ | split | dsimp only)
theorem execEraseResume_next (die : Fin 256) (s : State) : ∃ u, execEraseResume die s = .next u := by
  unfold execEraseResume
  repeat' (first | exact ⟨_, rfl⟩ | split | dsimp only)
theorem execFlashProgramDone_next (k : Nat) (pass : Bool) (s : State) : ∃ u, execFlashProgramDone k pass s = .next u := by
  unfold execFlashProgramDone
  repeat' (first | exact ⟨_, rfl⟩ | split | dsimp only)
theorem execFlashEraseDone_next (k : Nat) (pass : Bool) (s : State) : ∃ u, execFlashEraseDone k pass s = .next u := by
  unfold execFlashEraseDone
  repeat' (first | exact ⟨_, rfl⟩ | split | dsimp only)
theorem execFlashReadDone_next (k : Nat) (r : HardResult) (s : State) : ∃ u, execFlashReadDone k r s = .next u := by
  unfold execFlashReadDone
  repeat' (first | exact ⟨_, rfl⟩ | split | dsimp only)
theorem execSoftDecode_next (r : SoftResult) (s : State) : ∃ u, execSoftDecode r s = .next u := by
  unfold execSoftDecode
  repeat' (first | exact ⟨_, rfl⟩ | split | dsimp only)
theorem execStripeParityRebuild_next (k : Nat) (ok : Bool) (s : State) : ∃ u, execStripeParityRebuild k ok s = .next u := by
  unfold execStripeParityRebuild
  repeat' (first | exact ⟨_, rfl⟩ | split | dsimp only)
theorem execSealChainStep_next (tag : Tag) (s : State) : ∃ u, execSealChainStep tag s = .next u := by
  unfold execSealChainStep
  repeat' (first | exact ⟨_, rfl⟩ | split | dsimp only)
theorem execBufferPlacement_next (tag : Tag) (s : State) : ∃ u, execBufferPlacement tag s = .next u := by
  unfold execBufferPlacement
  repeat' (first | exact ⟨_, rfl⟩ | split | dsimp only)
theorem execMapJournalWrite_next (s : State) : ∃ u, execMapJournalWrite s = .next u := by
  unfold execMapJournalWrite
  repeat' (first | exact ⟨_, rfl⟩ | split | dsimp only)
theorem execEddyFold_next (s : State) : ∃ u, execEddyFold s = .next u := by
  unfold execEddyFold
  repeat' (first | exact ⟨_, rfl⟩ | split | dsimp only)
theorem execFoldMapUpdate_next (s : State) : ∃ u, execFoldMapUpdate s = .next u := by
  unfold execFoldMapUpdate
  repeat' (first | exact ⟨_, rfl⟩ | split | dsimp only)
theorem execRefresh_next (key : Nat) (s : State) : ∃ u, execRefresh key s = .next u := by
  unfold execRefresh
  repeat' (first | exact ⟨_, rfl⟩ | split | dsimp only)
theorem execScrub_next (key : Nat) (s : State) : ∃ u, execScrub key s = .next u := by
  unfold execScrub
  repeat' (first | exact ⟨_, rfl⟩ | split | dsimp only)
theorem execGarbageCollection_next (group : Fin 16) (s : State) : ∃ u, execGarbageCollection group s = .next u := by
  unfold execGarbageCollection
  repeat' (first | exact ⟨_, rfl⟩ | split | dsimp only)
theorem execMapLineRequest_next (line : Nat) (ws : List Walker) (s : State) : ∃ u, execMapLineRequest line ws s = .next u := by
  unfold execMapLineRequest
  repeat' (first | exact ⟨_, rfl⟩ | split | dsimp only)
theorem execMapLineRecall_next (line : Nat) (s : State) : ∃ u, execMapLineRecall line s = .next u := by
  unfold execMapLineRecall
  repeat' (first | exact ⟨_, rfl⟩ | split | dsimp only)
theorem execWritebackDone_next (line : Nat) (s : State) : ∃ u, execWritebackDone line s = .next u := by
  unfold execWritebackDone
  repeat' (first | exact ⟨_, rfl⟩ | split | dsimp only)
theorem execBufferAllocate_next (o : Owner) (tag : Tag) (markerOk : Bool) (s : State) : ∃ u, execBufferAllocate o tag markerOk s = .next u := by
  unfold execBufferAllocate
  repeat' (first | exact ⟨_, rfl⟩ | split | dsimp only)
theorem execListRebuildEnd_next (p : Pool) (s : State) : ∃ u, execListRebuildEnd p s = .next u := by
  unfold execListRebuildEnd
  repeat' (first | exact ⟨_, rfl⟩ | split | dsimp only)
theorem execBufferHandoff_next (h : Nat) (fromO toO : Owner) (takes : Bool) (s : State) : ∃ u, execBufferHandoff h fromO toO takes s = .next u := by
  unfold execBufferHandoff
  repeat' (first | exact ⟨_, rfl⟩ | split | dsimp only)
theorem execBufferFree_next (h : Nat) (o : Owner) (s : State) : ∃ u, execBufferFree h o s = .next u := by
  unfold execBufferFree
  repeat' (first | exact ⟨_, rfl⟩ | split | dsimp only)
theorem execParityMismatch_next (p : Pipe) (stage : Fin 28) (s : State) : ∃ u, execParityMismatch p stage s = .next u := by
  unfold execParityMismatch
  repeat' (first | exact ⟨_, rfl⟩ | split | dsimp only)
theorem execMaskStarved_next (p : Pipe) (s : State) : ∃ u, execMaskStarved p s = .next u := by
  unfold execMaskStarved
  repeat' (first | exact ⟨_, rfl⟩ | split | dsimp only)
theorem execLaneReseed_next (lane : Fin 112) (s : State) : ∃ u, execLaneReseed lane s = .next u := by
  unfold execLaneReseed
  repeat' (first | exact ⟨_, rfl⟩ | split | dsimp only)
theorem execDrbgReseed_next (s : State) : ∃ u, execDrbgReseed s = .next u := by
  unfold execDrbgReseed
  repeat' (first | exact ⟨_, rfl⟩ | split | dsimp only)
theorem execHealthTestFailure_next (test : HealthTest) (s : State) : ∃ u, execHealthTestFailure test s = .next u := by
  unfold execHealthTestFailure
  repeat' (first | exact ⟨_, rfl⟩ | split | dsimp only)
theorem execRefreshDue_next (s : State) : ∃ u, execRefreshDue s = .next u := by
  unfold execRefreshDue
  repeat' (first | exact ⟨_, rfl⟩ | split | dsimp only)
theorem execRefreshPayback_next (s : State) : ∃ u, execRefreshPayback s = .next u := by
  unfold execRefreshPayback
  repeat' (first | exact ⟨_, rfl⟩ | split | dsimp only)
theorem execPatrolScrub_next (errors : List WordError) (s : State) : ∃ u, execPatrolScrub errors s = .next u := by
  unfold execPatrolScrub
  repeat' (first | exact ⟨_, rfl⟩ | split | dsimp only)
theorem execEvrProgrammingPass_next (s : State) : ∃ u, execEvrProgrammingPass s = .next u := by
  unfold execEvrProgrammingPass
  repeat' (first | exact ⟨_, rfl⟩ | split | dsimp only)
theorem execEvrPassEnd_next (s : State) : ∃ u, execEvrPassEnd s = .next u := by
  unfold execEvrPassEnd
  repeat' (first | exact ⟨_, rfl⟩ | split | dsimp only)
theorem execMeterMinuteSample_next (s : State) : ∃ u, execMeterMinuteSample s = .next u := by
  unfold execMeterMinuteSample
  repeat' (first | exact ⟨_, rfl⟩ | split | dsimp only)
theorem execQuarterHourBoundary_next (s : State) : ∃ u, execQuarterHourBoundary s = .next u := by
  unfold execQuarterHourBoundary
  repeat' (first | exact ⟨_, rfl⟩ | split | dsimp only)
theorem execDisplayDwellSecond_next (s : State) : ∃ u, execDisplayDwellSecond s = .next u := by
  unfold execDisplayDwellSecond
  repeat' (first | exact ⟨_, rfl⟩ | split | dsimp only)
theorem execHostItemExpired_next (s : State) : ∃ u, execHostItemExpired s = .next u := by
  unfold execHostItemExpired
  repeat' (first | exact ⟨_, rfl⟩ | split | dsimp only)
theorem execEventInPulse_next (s : State) : ∃ u, execEventInPulse s = .next u := by
  unfold execEventInPulse
  repeat' (first | exact ⟨_, rfl⟩ | split | dsimp only)
theorem execMotionChange_next (level : Bool) (s : State) : ∃ u, execMotionChange level s = .next u := by
  unfold execMotionChange
  repeat' (first | exact ⟨_, rfl⟩ | split | dsimp only)
theorem execGpioInputEdge_next (n : Fin 4) (level : Bool) (s : State) : ∃ u, execGpioInputEdge n level s = .next u := by
  unfold execGpioInputEdge
  repeat' (first | exact ⟨_, rfl⟩ | split | dsimp only)
theorem execPointer_next (window : Byte) (addr : Word) (pecOk : Bool) (s : State) : ∃ u, execPointer window addr pecOk s = .next u := by
  unfold execPointer
  repeat' (first | exact ⟨_, rfl⟩ | split | dsimp only)
theorem execWrite32_next (off val : Word) (pecOk : Bool) (s : State) : ∃ u, execWrite32 off val pecOk s = .next u := by
  unfold execWrite32
  repeat' (first | exact ⟨_, rfl⟩ | split | dsimp only)
theorem execMeterReq_next (tenant : Byte) (nonce : QWord) (pecOk : Bool) (s : State) : ∃ u, execMeterReq tenant nonce pecOk s = .next u := by
  unfold execMeterReq
  repeat' (first | exact ⟨_, rfl⟩ | split | dsimp only)
theorem execReadN_next (n : Byte) (_pecOk : Bool) (s : State) : ∃ u, execReadN n _pecOk s = .next u := by
  unfold execReadN
  repeat' (first | exact ⟨_, rfl⟩ | split | dsimp only)
theorem execI2cRead_next (n : Nat) (s : State) : ∃ u, execI2cRead n s = .next u := by
  unfold execI2cRead
  repeat' (first | exact ⟨_, rfl⟩ | split | dsimp only)
theorem execAlertResponse_next (s : State) : ∃ u, execAlertResponse s = .next u := by
  unfold execAlertResponse
  repeat' (first | exact ⟨_, rfl⟩ | split | dsimp only)
theorem execSclTimeout_next (s : State) : ∃ u, execSclTimeout s = .next u := by
  unfold execSclTimeout
  repeat' (first | exact ⟨_, rfl⟩ | split | dsimp only)
theorem execScriptEntry_next (index : Fin 20) (ans : PmicAnswer) (s : State) : ∃ u, execScriptEntry index ans s = .next u := by
  unfold execScriptEntry
  repeat' (first | exact ⟨_, rfl⟩ | split | dsimp only)
theorem execStatusPoll_next (ans : PmicAnswer) (s : State) : ∃ u, execStatusPoll ans s = .next u := by
  unfold execStatusPoll
  repeat' (first | exact ⟨_, rfl⟩ | split | dsimp only)
theorem execEntryRetry_next (ans : PmicAnswer) (s : State) : ∃ u, execEntryRetry ans s = .next u := by
  unfold execEntryRetry
  repeat' (first | exact ⟨_, rfl⟩ | split | dsimp only)
theorem execStuckBusRecovery_next (freedAfter : Option (Fin 10)) (s : State) : ∃ u, execStuckBusRecovery freedAfter s = .next u := by
  unfold execStuckBusRecovery
  repeat' (first | exact ⟨_, rfl⟩ | split | dsimp only)
theorem execStuckRetry_next (freedAfter : Option (Fin 10)) (s : State) : ∃ u, execStuckRetry freedAfter s = .next u := by
  unfold execStuckRetry
  repeat' (first | exact ⟨_, rfl⟩ | split | dsimp only)
theorem execBlockLock_next (port : Fin 4) (s : State) : ∃ u, execBlockLock port s = .next u := by
  unfold execBlockLock
  repeat' (first | exact ⟨_, rfl⟩ | split | dsimp only)
theorem execHello_next (port : Fin 4) (cert : List Byte) (eph : Wide) (s : State) : ∃ u, execHello port cert eph s = .next u := by
  unfold execHello
  repeat' (first | exact ⟨_, rfl⟩ | split | dsimp only)
theorem execConfirm_next (port : Fin 4) (sig : Wide) (s : State) : ∃ u, execConfirm port sig s = .next u := by
  unfold execConfirm
  repeat' (first | exact ⟨_, rfl⟩ | split | dsimp only)
theorem execBringupTimeout_next (port : Fin 4) (s : State) : ∃ u, execBringupTimeout port s = .next u := by
  unfold execBringupTimeout
  repeat' (first | exact ⟨_, rfl⟩ | split | dsimp only)
theorem execLinkRetry_next (port : Fin 4) (s : State) : ∃ u, execLinkRetry port s = .next u := by
  unfold execLinkRetry
  repeat' (first | exact ⟨_, rfl⟩ | split | dsimp only)
theorem execRekey_next (port : Fin 4) (s : State) : ∃ u, execRekey port s = .next u := by
  unfold execRekey
  repeat' (first | exact ⟨_, rfl⟩ | split | dsimp only)
theorem execPacketReceive_next (port : Fin 4) (h : PktHdr) (payload : List Byte) (s : State) : ∃ u, execPacketReceive port h payload s = .next u := by
  unfold execPacketReceive
  repeat' (first | exact ⟨_, rfl⟩ | split | dsimp only)
theorem execCreditBlock_next (port : Fin 4) (vc0 vc1 vc2 : BitVec 6) (s : State) : ∃ u, execCreditBlock port vc0 vc1 vc2 s = .next u := by
  unfold execCreditBlock
  repeat' (first | exact ⟨_, rfl⟩ | split | dsimp only)
theorem execNadv_next (port : Fin 4) (payload : Vector Byte 128) (s : State) : ∃ u, execNadv port payload s = .next u := by
  unfold execNadv
  repeat' (first | exact ⟨_, rfl⟩ | split | dsimp only)
theorem execAdvertisementOriginate_next (s : State) : ∃ u, execAdvertisementOriginate s = .next u := by
  unfold execAdvertisementOriginate
  repeat' (first | exact ⟨_, rfl⟩ | split | dsimp only)
theorem execAdvertisementExpiry_next (s : State) : ∃ u, execAdvertisementExpiry s = .next u := by
  unfold execAdvertisementExpiry
  repeat' (first | exact ⟨_, rfl⟩ | split | dsimp only)
theorem execRouteComputation_next (s : State) : ∃ u, execRouteComputation s = .next u := by
  unfold execRouteComputation
  repeat' (first | exact ⟨_, rfl⟩ | split | dsimp only)
theorem execTransactionTimeout_next (port : Fin 4) (txn : Fin 256) (s : State) : ∃ u, execTransactionTimeout port txn s = .next u := by
  unfold execTransactionTimeout
  repeat' (first | exact ⟨_, rfl⟩ | split | dsimp only)
theorem execStuckPacketDrop_next (port : Fin 4) (s : State) : ∃ u, execStuckPacketDrop port s = .next u := by
  unfold execStuckPacketDrop
  repeat' (first | exact ⟨_, rfl⟩ | split | dsimp only)
theorem execCopyOpen_next (src : BitVec 16) (tenant : Byte) (cert : List Byte) (rec : Vector Byte 256) (s : State) : ∃ u, execCopyOpen src tenant cert rec s = .next u := by
  unfold execCopyOpen
  repeat' (first | exact ⟨_, rfl⟩ | split | dsimp only)
theorem execCopyRsp_next (tag : Tag) (a : CopyAnswer) (s : State) : ∃ u, execCopyRsp tag a s = .next u := by
  unfold execCopyRsp
  repeat' (first | exact ⟨_, rfl⟩ | split | dsimp only)
theorem execCopyData_next (src : BitVec 16) (item : CopyItem) (s : State) : ∃ u, execCopyData src item s = .next u := by
  unfold execCopyData
  repeat' (first | exact ⟨_, rfl⟩ | split | dsimp only)
theorem execCopyClose_next (src : BitVec 16) (s : State) : ∃ u, execCopyClose src s = .next u := by
  unfold execCopyClose
  repeat' (first | exact ⟨_, rfl⟩ | split | dsimp only)
theorem execRreadReq_next (src : BitVec 16) (kind : Bool) (seq : DWord) (n : Fin 33) (s : State) : ∃ u, execRreadReq src kind seq n s = .next u := by
  unfold execRreadReq
  repeat' (first | exact ⟨_, rfl⟩ | split | dsimp only)
theorem execRreadRsp_next (refusedByNode : Bool) (bytes : List Byte) (s : State) : ∃ u, execRreadRsp refusedByNode bytes s = .next u := by
  unfold execRreadRsp
  repeat' (first | exact ⟨_, rfl⟩ | split | dsimp only)
theorem execMirBeat_next (marks : List Checkpoint) (s : State) : ∃ u, execMirBeat marks s = .next u := by
  unfold execMirBeat
  repeat' (first | exact ⟨_, rfl⟩ | split | dsimp only)
theorem execMirBeatSend_next (s : State) : ∃ u, execMirBeatSend s = .next u := by
  unfold execMirBeatSend
  repeat' (first | exact ⟨_, rfl⟩ | split | dsimp only)
theorem execPartnerSilence_next (s : State) : ∃ u, execPartnerSilence s = .next u := by
  unfold execPartnerSilence
  repeat' (first | exact ⟨_, rfl⟩ | split | dsimp only)
theorem execMirAppend_next (a : MirAppend) (s : State) : ∃ u, execMirAppend a s = .next u := by
  unfold execMirAppend
  repeat' (first | exact ⟨_, rfl⟩ | split | dsimp only)
theorem execMirAccept_next (t : Tid) (index : DWord) (refusedSpace : Bool) (s : State) : ∃ u, execMirAccept t index refusedSpace s = .next u := by
  unfold execMirAccept
  repeat' (first | exact ⟨_, rfl⟩ | split | dsimp only)
theorem execMirState_next (item : MirItem) (s : State) : ∃ u, execMirState item s = .next u := by
  unfold execMirState
  repeat' (first | exact ⟨_, rfl⟩ | split | dsimp only)
theorem execMirRetract_next (t : Tid) (index : DWord) (s : State) : ∃ u, execMirRetract t index s = .next u := by
  unfold execMirRetract
  repeat' (first | exact ⟨_, rfl⟩ | split | dsimp only)
theorem execMirSyncReq_next (cps : List Checkpoint) (s : State) : ∃ u, execMirSyncReq cps s = .next u := by
  unfold execMirSyncReq
  repeat' (first | exact ⟨_, rfl⟩ | split | dsimp only)
theorem execMirSyncRsp_next (vs : List SyncVerdict) (s : State) : ∃ u, execMirSyncRsp vs s = .next u := by
  unfold execMirSyncRsp
  repeat' (first | exact ⟨_, rfl⟩ | split | dsimp only)
theorem execPowerLoss_next (s : State) : ∃ u, execPowerLoss s = .next u := by
  unfold execPowerLoss
  repeat' (first | exact ⟨_, rfl⟩ | split | dsimp only)
theorem execSpaceRetry_next (s : State) : ∃ u, execSpaceRetry s = .next u := by
  unfold execSpaceRetry
  repeat' (first | exact ⟨_, rfl⟩ | split | dsimp only)
theorem execHousekeepingSlot_next (reading : Int) (diodeOk : Bool) (s : State) : ∃ u, execHousekeepingSlot reading diodeOk s = .next u := by
  unfold execHousekeepingSlot
  repeat' (first | exact ⟨_, rfl⟩ | split | dsimp only)
theorem execHousekeepingRound_next (mr4 : Vector Byte 2) (s : State) : ∃ u, execHousekeepingRound mr4 s = .next u := by
  unfold execHousekeepingRound
  repeat' (first | exact ⟨_, rfl⟩ | split | dsimp only)
theorem execAgeingHour_next (s : State) : ∃ u, execAgeingHour s = .next u := by
  unfold execAgeingHour
  repeat' (first | exact ⟨_, rfl⟩ | split | dsimp only)
theorem execOperatingHour_next (s : State) : ∃ u, execOperatingHour s = .next u := by
  unfold execOperatingHour
  repeat' (first | exact ⟨_, rfl⟩ | split | dsimp only)
theorem execTapInstruction_next (code : BitVec 5) (s : State) : ∃ u, execTapInstruction code s = .next u := by
  unfold execTapInstruction
  repeat' (first | exact ⟨_, rfl⟩ | split | dsimp only)
theorem execUnlock_next (token : Vector Byte 176) (s : State) : ∃ u, execUnlock token s = .next u := by
  unfold execUnlock
  repeat' (first | exact ⟨_, rfl⟩ | split | dsimp only)
theorem execDmi_next (op : DmiOp) (s : State) : ∃ u, execDmi op s = .next u := by
  unfold execDmi
  repeat' (first | exact ⟨_, rfl⟩ | split | dsimp only)
theorem execSeqdbg_next (engine : Fin 10) (op : SeqOp) (s : State) : ∃ u, execSeqdbg engine op s = .next u := by
  unfold execSeqdbg
  repeat' (first | exact ⟨_, rfl⟩ | split | dsimp only)
theorem execBlockLockLoss_next (port : Fin 4) (s : State) : ∃ u, execBlockLockLoss port s = .next u := by
  unfold execBlockLockLoss
  repeat' (first | exact ⟨_, rfl⟩ | split | dsimp only)
theorem execSpeedWidthChange_next (speed width : BitVec 3) (ltssm : BitVec 5) (s : State) : ∃ u, execSpeedWidthChange speed width ltssm s = .next u := by
  unfold execSpeedWidthChange
  repeat' (first | exact ⟨_, rfl⟩ | split | dsimp only)
end Sys2Proof.Machine
end

