-- ==== Sys2Proof/Laws/SameStored.lean ====
section
/-!
SUPPORT. What leaves the stored data of `State.stored` as they were: one lemma for each shared operation and for each command
      that does.
-/
set_option linter.unusedTactic false
set_option linter.unreachableTactic false
set_option linter.unusedVariables false
set_option linter.unusedSimpArgs false

namespace Sys2Proof.Machine
/-- `State.stored` is the same. -/
structure SameStore (s t : State) : Prop where
  eq : t.stored = s.stored
theorem SameStore.rfl' (s : State) : SameStore s s := ⟨rfl⟩
theorem SameStore.trans {s t u : State} (h : SameStore s t) (g : SameStore t u) : SameStore s u := ⟨g.eq.trans h.eq⟩
theorem SameStore.mk3 {s x : State} {pending : List Instr} {now : Nat} {freeCtr : Nat} {outbox : List Output} {aon : AonS} {hdr
      : Vector PageHdr 128} {regs : KMap Word} {pins : Pins} {dev : DevS} {clk : ClkS} {pwr : PwrS} {boot : BootS} {upd : UpdS}
      {pcie : PcieS} {troutes : Vector TRoute 512} {tnt : Vector Tenant 64} {hqm : HqmS} {own : OwnS} {ciph : CiphS} {sign :
      SignS} {chainU : SealS} {med : MedS} {dram : DramS} {sram : SramS} {bpm : BpmS} {squall : SquallS} {evr : EvrS} {mtr :
      MtrS} {disp : DispS} {qspi : QspiS} {spit : SpitS} {i2ct : I2ctS} {i2ci : I2ciS} {gpio : GpioS} {vfl : Vector VflS 4}
      {vfr : VfrS} {mir : MirS} {hkp : HkpS} {thr : ThrS} {dbg : DbgS} : SameStore s (State.mk pending now freeCtr outbox aon
      x.nvm hdr regs pins dev clk pwr boot upd pcie troutes tnt hqm own ciph sign chainU med dram sram bpm squall evr mtr disp
      qspi spit i2ct i2ci gpio vfl vfr mir hkp thr dbg) = SameStore s x := propext ⟨fun h => ⟨h.eq⟩, fun h => ⟨h.eq⟩⟩
theorem SameStore.foldl {α : Type} {s x : State} {f : State → α → State} {l : List α} (g : ∀ a b, SameStore s a → SameStore s
      (f a b))
    (h : SameStore s x) : SameStore s (l.foldl f x) := by
  induction l generalizing x with
  | nil => exact h
  | cons b r ih => exact ih (g x b h)
theorem SameStore.mk4 {s x : State} {pending : List Instr} {now : Nat} {freeCtr : Nat} {outbox : List Output} {aon :
    AonS} {hdr : Vector PageHdr 128} {regs : KMap Word} {pins : Pins} {dev : DevS} {clk : ClkS} {pwr : PwrS} {boot :
    BootS} {upd : UpdS} {pcie : PcieS} {troutes : Vector TRoute 512} {tnt : Vector Tenant 64} {hqm : HqmS} {own : OwnS}
    {ciph : CiphS} {sign : SignS} {chainU : SealS} {med : MedS} {dram : DramS} {sram : SramS} {bpm : BpmS} {squall :
    SquallS} {evr : EvrS} {mtr : MtrS} {disp : DispS} {qspi : QspiS} {spit : SpitS} {i2ct : I2ctS} {i2ci : I2ciS} {gpio
    : GpioS} {vfl : Vector VflS 4} {vfr : VfrS} {mir : MirS} {hkp : HkpS} {thr : ThrS} {dbg : DbgS} {n_nor : Memory}
    {n_boardHash : Option Hash} {n_floor : Nat} {n_ownerSlots : List Hash} {n_repairs : List (Nat × Nat × Nat)}
    {n_ownerKey : Wide} {n_updLock : Bool} {n_holdMin : KMap (Nat × Nat)} {n_storedHeads : Vector Chain 64} {n_permanent
    : List EvRec} {n_circ : List EvRec} {n_seqReserved : Nat} {n_evDropped : Nat} {n_ackLost : Nat} {n_squalls : Nat}
    {n_summary : SqSummary} {n_reachedFull : Bool} {n_zresets : List ZReset} {n_zresetNext : Nat} {n_accs : Vector Nat
    512} {n_total : Nat} {n_ckptAccs : Vector Nat 512} {n_ckptTotal : Nat} {n_profile : List ProfRec} {n_profNext : Nat}
    {n_openInt : Option MeterSave} {n_utcStored : Nat} {n_timeSetEver : Bool} {n_optStored : Nat} {n_optExact : Bool}
    {n_cycles : Nat} {n_starts : Nat} {n_bandMs : Vector Nat 5} {n_stage : Fin 4} {n_mons : Vector Nat 8} {n_ageHour :
    Nat} {n_monOver : Vector (Vector Nat 3) 8} {n_unlocks : Nat} {n_fleetKey : Option Wide} {n_cert : Option (List
    Byte)} {n_readOnly : Bool} {n_sbs : KMap Superblock} {n_wear : KMap Nat} {n_bad : KMap Byte} {n_rebuilt : KMap Nat}
    {n_trims : List TrimRec} {n_sbNext : Nat} {n_failedDies : List Nat} {n_groups : Vector (Fin 4) 16} {n_widths :
    Vector Nat 16} {n_writeSeq : Nat} {n_stage_ : Option StageS} {n_partnerLog : List EvRec} {n_partnerAccs : Vector Nat
    512} {n_partnerTotal : Nat} {n_partnerOwner : List Hash × Bool} : SameStore s (State.mk pending now freeCtr outbox
    aon (Nvm.mk n_nor n_boardHash n_floor n_ownerSlots n_repairs n_ownerKey n_updLock n_holdMin x.nvm.keysX x.nvm.keysG
    x.nvm.zones x.nvm.conv x.nvm.chains n_storedHeads x.nvm.sealRecs x.nvm.sealIndex n_permanent n_circ n_seqReserved
    n_evDropped n_ackLost n_squalls n_summary n_reachedFull n_zresets n_zresetNext n_accs n_total n_ckptAccs n_ckptTotal
    n_profile n_profNext n_openInt n_utcStored n_timeSetEver n_optStored n_optExact n_cycles n_starts n_bandMs n_stage
    n_mons n_ageHour n_monOver n_unlocks n_fleetKey n_cert n_readOnly n_sbs n_wear n_bad n_rebuilt n_trims n_sbNext
    n_failedDies n_groups n_widths n_writeSeq n_stage_ n_partnerLog n_partnerAccs n_partnerTotal n_partnerOwner) hdr
    regs pins dev clk pwr boot upd pcie troutes tnt hqm own ciph sign chainU med dram sram bpm squall evr mtr disp qspi
    spit i2ct i2ci gpio vfl vfr mir hkp thr dbg) = SameStore s x := propext ⟨fun h => ⟨h.eq⟩, fun h => ⟨h.eq⟩⟩
/-- A state that may be absent keeps. -/
structure SameStoreK1 (s : State) (o : Option State) : Prop where
  out : ∀ t, o = some t → SameStore s t
/-- As `SameStoreK1`, with a result beside the state. -/
structure SameStoreK2 {α : Type} (s : State) (o : Option (α × State)) : Prop where
  out : ∀ a t, o = some (a, t) → SameStore s t
/-- As `SameStoreK2`, the state first. -/
structure SameStoreK3 {α : Type} (s : State) (o : Option (State × α)) : Prop where
  out : ∀ a t, o = some (t, a) → SameStore s t
/-- A state with a result beside it keeps. -/
structure SameStoreK4 {α : Type} (s : State) (p : State × α) : Prop where
  fst : SameStore s p.1
/-- A state or a code keeps. -/
structure SameStoreK5 {α ε : Type} (s : State) (o : Except ε (α × State)) : Prop where
  out : ∀ a t, o = .ok (a, t) → SameStore s t

theorem SameStoreK1.none {s : State} : SameStoreK1 s none := ⟨fun _ h => by cases h⟩
theorem SameStoreK1.some {s t : State} (h : SameStore s t) : SameStoreK1 s (some t) := ⟨fun _ e => by cases e; exact h⟩
theorem SameStoreK1.elim {s t : State} {o : Option State} (h : SameStoreK1 s o) (e : o = Option.some t) : SameStore s t :=
      h.out _ e
theorem SameStoreK1.getD {s x : State} {o : Option State} (h : SameStoreK1 s o) (g : SameStore s x) : SameStore s (o.getD x) := by
  cases o with
  | none => exact g
  | some t => exact h.out _ rfl
theorem SameStoreK1.findSome {α : Type} {s : State} {l : List α} {f : α → Option State} (h : ∀ a, SameStoreK1 s (f a)) :
    SameStoreK1 s (l.findSome? f) := ⟨fun _ e => by
  obtain ⟨_, a, _, _, h2, _⟩ := List.findSome?_eq_some_iff.mp e
  exact (h a).out _ h2⟩
theorem SameStoreK2.findSome {α β : Type} {s : State} {l : List α} {f : α → Option (β × State)} (h : ∀ a, SameStoreK2 s (f a)) :
    SameStoreK2 s (l.findSome? f) := ⟨fun _ _ e => by
  obtain ⟨_, a, _, _, h2, _⟩ := List.findSome?_eq_some_iff.mp e
  exact (h a).out _ _ h2⟩
theorem SameStoreK2.none {α : Type} {s : State} : SameStoreK2 (α := α) s none := ⟨fun _ _ h => by cases h⟩
theorem SameStoreK2.some {α : Type} {s t : State} {a : α} (h : SameStore s t) : SameStoreK2 s (some (a, t)) := ⟨fun _ _ e => by
      cases e; exact h⟩
theorem SameStoreK2.elim {α : Type} {s t : State} {a : α} {o : Option (α × State)} (h : SameStoreK2 s o) (e : o = Option.some
      (a, t)) :
    SameStore s t := h.out _ _ e
theorem SameStoreK3.none {α : Type} {s : State} : SameStoreK3 (α := α) s none := ⟨fun _ _ h => by cases h⟩
theorem SameStoreK3.some {α : Type} {s t : State} {a : α} (h : SameStore s t) : SameStoreK3 s (some (t, a)) := ⟨fun _ _ e => by
      cases e; exact h⟩
theorem SameStoreK3.elim {α : Type} {s t : State} {a : α} {o : Option (State × α)} (h : SameStoreK3 s o) (e : o = Option.some
      (t, a)) :
    SameStore s t := h.out _ _ e
theorem SameStoreK4.elim {α : Type} {s t : State} {a : α} {p : State × α} (h : SameStoreK4 s p) (e : p = (t, a)) : SameStore s
      t := by
  subst e; exact h.fst
theorem SameStoreK5.error {α ε : Type} {s : State} {c : ε} : SameStoreK5 (α := α) s (.error c) := ⟨fun _ _ h => by cases h⟩
theorem SameStoreK5.ok {α ε : Type} {s t : State} {a : α} (h : SameStore s t) : SameStoreK5 (ε := ε) s (.ok (a, t)) := ⟨fun _ _
      e => by cases e; exact h⟩
theorem SameStoreK5.elim {α ε : Type} {s t : State} {a : α} {o : Except ε (α × State)} (h : SameStoreK5 s o) (e : o = .ok (a,
      t)) :
    SameStore s t := h.out _ _ e

/-- An outcome keeps what a next state keeps. -/
def OutSameStore (s : State) : Host.Outcome State Fault Refusal → Prop
  | .next t => SameStore s t
  | _ => True

theorem OutSameStore.next {s t : State} (h : SameStore s t) : OutSameStore s (.next t) := h
theorem OutSameStore.fault {s : State} (f : Fault) : OutSameStore s (.fault f) := True.intro
theorem OutSameStore.refused {s : State} (r : Refusal) : OutSameStore s (.refused r) := True.intro
theorem SameStoreK4.foldl {α β : Type} {s : State} {f : State × β → α → State × β} {l : List α} {x : State × β}
    (g : ∀ a b, SameStoreK4 s a → SameStoreK4 s (f a b)) (h : SameStoreK4 s x) : SameStoreK4 s (l.foldl f x) := by
  induction l generalizing x with
  | nil => exact h
  | cons b r ih => exact ih (g x b h)
theorem SameStoreK1.foldl {α : Type} {s : State} {f : Option State → α → Option State} {l : List α} {x : Option State}
    (g : ∀ a b, SameStoreK1 s a → SameStoreK1 s (f a b)) (h : SameStoreK1 s x) : SameStoreK1 s (l.foldl f x) := by
  induction l generalizing x with
  | nil => exact h
  | cons b r ih => exact ih (g x b h)
theorem SameStoreK1.map {s : State} {f : State → State} {o : Option State} (g : ∀ t, SameStore s t → SameStore s (f t)) (h : SameStoreK1 s o) :
    SameStoreK1 s (o.map f) := ⟨fun t e => by
  cases o with
  | none => cases e
  | some y => cases e; exact g y (h.out y rfl)⟩

theorem stored_drawn {s0 : State} (s : State) (hks : SameStore s0 s) : SameStore s0 (State.drawn s) := by
  unfold State.drawn
  try dsimp only
  repeat' (first | with_reducible assumption | simp only [SameStore.mk3, SameStore.mk4] | (intro _) | split)

theorem stored_emit {s0 : State} (s : State) (o : Output) (hks : SameStore s0 s) : SameStore s0 (State.emit s o) := by
  unfold State.emit
  try dsimp only
  repeat' (first | with_reducible assumption | simp only [SameStore.mk3, SameStore.mk4] | (intro _) | split)

theorem stored_endLull {s0 : State} (s : State) (hks : SameStore s0 s) : SameStore s0 (State.endLull s) := by
  unfold State.endLull
  try dsimp only
  repeat' (first | with_reducible assumption | simp only [SameStore.mk3, SameStore.mk4] | (intro _) | split)

theorem stored_updHdr {s0 : State} (s : State) (p : Page) (f : PageHdr → PageHdr) (hks : SameStore s0 s) : SameStore s0
      (State.updHdr s p f) := by
  unfold State.updHdr
  try dsimp only
  repeat' (first | with_reducible assumption | simp only [SameStore.mk3, SameStore.mk4] | (intro _) | split)

theorem stored_updTnt {s0 : State} (s : State) (t : Tid) (f : Tenant → Tenant) (hks : SameStore s0 s) : SameStore s0
      (State.updTnt s t f) := by
  unfold State.updTnt
  try dsimp only
  repeat' (first | with_reducible assumption | simp only [SameStore.mk3, SameStore.mk4] | (intro _) | split)

theorem stored_updFn {s0 : State} (s : State) (n : Fn) (f : FnS → FnS) (hks : SameStore s0 s) : SameStore s0 (State.updFn s n
      f) := by
  unfold State.updFn
  try dsimp only
  repeat' (first | with_reducible assumption | simp only [SameStore.mk3, SameStore.mk4] | (intro _) | split)

theorem stored_setReg {s0 : State} (s : State) (p : Page) (off : Nat) (v : Word) (hks : SameStore s0 s) : SameStore s0
      (State.setReg s p off v) := by
  unfold State.setReg
  try dsimp only
  repeat' (first | with_reducible assumption | simp only [SameStore.mk3, SameStore.mk4] | (intro _) | split)

theorem stored_request {s0 : State} (s : State) (fn : Fn) (vec : Nat) (hks : SameStore s0 s) : SameStore s0 (State.request s fn
      vec) := by
  unfold State.request
  try dsimp only
  repeat' (first | with_reducible assumption | with_reducible apply stored_emit | with_reducible apply stored_updFn | simp only [SameStore.mk3, SameStore.mk4] | (intro _) | split)

theorem stored_requestBlock {s0 : State} (s : State) (n : Nat) (hks : SameStore s0 s) : SameStore s0 (State.requestBlock s n)
      := by
  unfold State.requestBlock
  try dsimp only
  repeat' (first | with_reducible assumption | with_reducible apply stored_request | simp only [SameStore.mk3, SameStore.mk4] | (intro _) | split)

theorem stored_noticeBlock {s0 : State} (s : State) (n : Nat) (hks : SameStore s0 s) : SameStore s0 (State.noticeBlock s n) :=
      by
  unfold State.noticeBlock
  try dsimp only
  repeat' (first | with_reducible assumption | with_reducible apply stored_updTnt | simp only [SameStore.mk3, SameStore.mk4] | (intro _) | split)

theorem stored_requestTenant {s0 : State} (s : State) (t : Tid) (q : Qid) (hks : SameStore s0 s) : SameStore s0
      (State.requestTenant s t q) := by
  unfold State.requestTenant
  try dsimp only
  repeat' (first | with_reducible assumption | with_reducible apply stored_request | simp only [SameStore.mk3, SameStore.mk4] | (intro _) | split)

theorem stored_updInta {s0 : State} (s : State) (hks : SameStore s0 s) : SameStore s0 (State.updInta s) := by
  unfold State.updInta
  try dsimp only
  repeat' (first | with_reducible assumption | with_reducible apply stored_emit | simp only [SameStore.mk3, SameStore.mk4] | (intro _) | split)

theorem stored_raise {s0 : State} (s : State) (p : Page) (b : Nat) (hks : SameStore s0 s) : SameStore s0 (State.raise s p b)
      := by
  unfold State.raise
  try dsimp only
  repeat' (first | with_reducible assumption | with_reducible apply stored_updHdr | with_reducible apply stored_requestBlock | with_reducible apply stored_noticeBlock | with_reducible apply stored_requestTenant | simp only [SameStore.mk3, SameStore.mk4] | (intro _) | split)

theorem stored_raiseTnt {s0 : State} (s : State) (t : Tid) (b : Nat) (hks : SameStore s0 s) : SameStore s0 (State.raiseTnt s t
      b) := by
  unfold State.raiseTnt
  try dsimp only
  repeat' (first | with_reducible assumption | with_reducible apply stored_raise | simp only [SameStore.mk3, SameStore.mk4] | (intro _) | split)

theorem stored_raiseTenants {s0 : State} (s : State) (p : State → Tid → Bool) (b : Nat) (hks : SameStore s0 s) : SameStore s0
      (State.raiseTenants s p b) := by
  unfold State.raiseTenants
  try dsimp only
  repeat' (first | with_reducible assumption | with_reducible apply stored_raiseTnt | with_reducible apply SameStore.foldl | simp only [SameStore.mk3, SameStore.mk4] | (intro _) | split)

theorem stored_countErr {s0 : State} (s : State) (p : Page) (cause : Byte) (addr : Word) (hks : SameStore s0 s) : SameStore s0
      (State.countErr s p cause addr) := by
  unfold State.countErr
  try dsimp only
  repeat' (first | with_reducible assumption | with_reducible apply stored_updHdr | with_reducible apply stored_raise | simp only [SameStore.mk3, SameStore.mk4] | (intro _) | split)

theorem stored_aerUncorrectable {s0 : State} (s : State) (fn : Fn) (bit : Nat) (hks : SameStore s0 s) : SameStore s0
      (State.aerUncorrectable s fn bit) := by
  unfold State.aerUncorrectable
  try dsimp only
  repeat' (first | with_reducible assumption | with_reducible apply stored_updFn | with_reducible apply stored_raise | simp only [SameStore.mk3, SameStore.mk4] | (intro _) | split)

theorem stored_aerCorrectable {s0 : State} (s : State) (fn : Fn) (bit : Nat) (hks : SameStore s0 s) : SameStore s0
      (State.aerCorrectable s fn bit) := by
  unfold State.aerCorrectable
  try dsimp only
  repeat' (first | with_reducible assumption | with_reducible apply stored_updFn | with_reducible apply stored_raise | simp only [SameStore.mk3, SameStore.mk4] | (intro _) | split)

theorem stored_aerAdvisory {s0 : State} (s : State) (fn : Fn) (bit : Nat) (hks : SameStore s0 s) : SameStore s0
      (State.aerAdvisory s fn bit) := by
  unfold State.aerAdvisory
  try dsimp only
  repeat' (first | with_reducible assumption | with_reducible apply stored_updFn | with_reducible apply stored_raise | with_reducible apply stored_aerUncorrectable | simp only [SameStore.mk3, SameStore.mk4] | (intro _) | split)

theorem stored_poisonReceived {s0 : State} (s : State) (fn : Fn) (hks : SameStore s0 s) : SameStore s0 (State.poisonReceived s
      fn) := by
  unfold State.poisonReceived
  try dsimp only
  repeat' (first | with_reducible assumption | with_reducible apply stored_raise | with_reducible apply stored_aerAdvisory | simp only [SameStore.mk3, SameStore.mk4] | (intro _) | split)

theorem stored_reserveSeq {s0 : State} (s : State) (hks : SameStore s0 s) : SameStore s0 (State.reserveSeq s) := by
  unfold State.reserveSeq
  try dsimp only
  repeat' (first | with_reducible assumption | simp only [SameStore.mk3, SameStore.mk4] | (intro _) | split)

theorem stored_countDropped {s0 : State} (s : State) (hks : SameStore s0 s) : SameStore s0 (State.countDropped s) := by
  unfold State.countDropped
  try dsimp only
  repeat' (first | with_reducible assumption | with_reducible apply stored_raise | simp only [SameStore.mk3, SameStore.mk4] | (intro _) | split)

theorem stored_bufferRec {s0 : State} (s : State) (r : EvRec) (hks : SameStore s0 s) : SameStore s0 (State.bufferRec s r) := by
  unfold State.bufferRec
  try dsimp only
  repeat' (first | with_reducible assumption | with_reducible apply stored_reserveSeq | with_reducible apply stored_countDropped | simp only [SameStore.mk3, SameStore.mk4] | (intro _) | split)

theorem stored_critical {s0 : State} (s : State) (code : Nat) (hks : SameStore s0 s) : SameStore s0 (State.critical s code) :=
      by
  unfold State.critical
  try dsimp only
  repeat' (first | with_reducible assumption | with_reducible apply stored_raise | simp only [SameStore.mk3, SameStore.mk4] | (intro _) | split)

theorem stored_recordAs {s0 : State} (s : State) (rom : Bool) (code : Nat) (sev : Fin 4) (tenant : Byte) (detail : List Byte)
      (hks : SameStore s0 s) : SameStore s0 (State.recordAs s rom code sev tenant detail) := by
  unfold State.recordAs
  try dsimp only
  repeat' (first | with_reducible assumption | with_reducible apply stored_bufferRec | with_reducible apply stored_critical | simp only [SameStore.mk3, SameStore.mk4] | (intro _) | split)

theorem stored_record {s0 : State} (s : State) (code : Nat) (sev : Fin 4) (tenant : Byte) (detail : List Byte) (hks : SameStore
      s0 s) : SameStore s0 (State.record s code sev tenant detail) := by
  unfold State.record
  try dsimp only
  repeat' (first | with_reducible assumption | with_reducible apply stored_recordAs | simp only [SameStore.mk3, SameStore.mk4] | (intro _) | split)

theorem stored_raiseRec {s0 : State} (s : State) (p : Page) (b : Nat) (sev : Fin 4) (tenant : Byte) (detail : List Byte) (hks :
      SameStore s0 s) : SameStore s0 (State.raiseRec s p b sev tenant detail) := by
  unfold State.raiseRec
  try dsimp only
  repeat' (first | with_reducible assumption | with_reducible apply stored_raise | with_reducible apply stored_record | simp only [SameStore.mk3, SameStore.mk4] | (intro _) | split)

theorem stored_raiseRecStatus {s0 : State} (s : State) (p : Page) (b : Nat) (sev : Fin 4) (tenant : Byte) (hks : SameStore s0
      s) : SameStore s0 (State.raiseRecStatus s p b sev tenant) := by
  unfold State.raiseRecStatus
  try dsimp only
  repeat' (first | with_reducible assumption | with_reducible apply stored_raise | with_reducible apply stored_record | simp only [SameStore.mk3, SameStore.mk4] | (intro _) | split)

theorem stored_updCmd {s0 : State} (s : State) (tag : Tag) (f : Cmd → Cmd) (hks : SameStore s0 s) : SameStore s0 (State.updCmd
      s tag f) := by
  unfold State.updCmd
  try dsimp only
  repeat' (first | with_reducible assumption | simp only [SameStore.mk3, SameStore.mk4] | (intro _) | split)

theorem stored_setEb {s0 : State} (s : State) (n : Nat) (hks : SameStore s0 s) : SameStore s0 (State.setEb s n) := by
  unfold State.setEb
  try dsimp only
  repeat' (first | with_reducible assumption | with_reducible apply stored_raise | with_reducible apply stored_raiseTenants | simp only [SameStore.mk3, SameStore.mk4] | (intro _) | split)

theorem stored_vcapReading {s0 : State} (s : State) (mV : Nat) (hks : SameStore s0 s) : SameStore s0 (State.vcapReading s mV)
      := by
  unfold State.vcapReading
  try dsimp only
  repeat' (first | with_reducible assumption | with_reducible apply stored_setEb | simp only [SameStore.mk3, SameStore.mk4] | (intro _) | split)

theorem stored_probeShrink {s0 : State} (s : State) (hks : SameStore s0 s) : SameStore s0 (State.probeShrink s) := by
  unfold State.probeShrink
  try dsimp only
  repeat' (first | with_reducible assumption | with_reducible apply stored_setEb | simp only [SameStore.mk3, SameStore.mk4] | (intro _) | split)

theorem stored_holdupSkipped {s0 : State} (s : State) (hks : SameStore s0 s) : SameStore s0 (State.holdupSkipped s) := by
  unfold State.holdupSkipped
  try dsimp only
  repeat' (first | with_reducible assumption | with_reducible apply stored_setEb | simp only [SameStore.mk3, SameStore.mk4] | (intro _) | split)

theorem stored_pmicShrink {s0 : State} (s : State) (hks : SameStore s0 s) : SameStore s0 (State.pmicShrink s) := by
  unfold State.pmicShrink
  try dsimp only
  repeat' (first | with_reducible assumption | with_reducible apply stored_drawn | with_reducible apply stored_setEb | simp only [SameStore.mk3, SameStore.mk4] | (intro _) | split)

theorem stored_addCause {s0 : State} (s : State) (c : RstCause) (hks : SameStore s0 s) : SameStore s0 (State.addCause s c) := by
  unfold State.addCause
  try dsimp only
  repeat' (first | with_reducible assumption | simp only [SameStore.mk3, SameStore.mk4] | (intro _) | split)

theorem stored_release {s0 : State} (s : State) (hks : SameStore s0 s) : SameStore s0 (State.release s) := by
  unfold State.release
  try dsimp only
  repeat' (first | with_reducible assumption | simp only [SameStore.mk3, SameStore.mk4] | (intro _) | split)

theorem stored_setLevel {s0 : State} (s : State) (l : Level) (hks : SameStore s0 s) : SameStore s0 (State.setLevel s l) := by
  unfold State.setLevel
  try dsimp only
  repeat' (first | with_reducible assumption | with_reducible apply stored_raise | with_reducible apply stored_raiseTenants | simp only [SameStore.mk3, SameStore.mk4] | (intro _) | split)

theorem stored_supplySeen {s0 : State} (s : State) (cause : Byte) (hks : SameStore s0 s) : SameStore s0 (State.supplySeen s
      cause) := by
  unfold State.supplySeen
  try dsimp only
  repeat' (first | with_reducible assumption | simp only [SameStore.mk3, SameStore.mk4] | (intro _) | split)

theorem stored_collect {s0 : State} (s : State) (cause : Byte) (hks : SameStore s0 s) : SameStore s0 (State.collect s cause)
      := by
  unfold State.collect
  try dsimp only
  repeat' (first | with_reducible assumption | with_reducible apply stored_addCause | simp only [SameStore.mk3, SameStore.mk4] | (intro _) | split)

theorem stored_squallStart {s0 : State} (s : State) (cause : Byte) (hks : SameStore s0 s) : SameStore s0 (State.squallStart s
      cause) := by
  unfold State.squallStart
  try dsimp only
  repeat' (first | with_reducible assumption | with_reducible apply stored_record | with_reducible apply stored_step | simp only [SameStore.mk3, SameStore.mk4] | (intro _) | split)

theorem stored_squallTrigger {s0 : State} (s : State) (cause : Byte) (hks : SameStore s0 s) : SameStore s0 (State.squallTrigger
      s cause) := by
  unfold State.squallTrigger
  try dsimp only
  repeat' (first | with_reducible assumption | with_reducible apply stored_supplySeen | with_reducible apply stored_collect | with_reducible apply stored_squallStart | simp only [SameStore.mk3, SameStore.mk4] | (intro _) | split)

theorem stored_updVfl {s0 : State} (s : State) (p : Fin 4) (f : VflS → VflS) (hks : SameStore s0 s) : SameStore s0
      (State.updVfl s p f) := by
  unfold State.updVfl
  try dsimp only
  repeat' (first | with_reducible assumption | simp only [SameStore.mk3, SameStore.mk4] | (intro _) | split)

theorem stored_advDue {s0 : State} (s : State) (hks : SameStore s0 s) : SameStore s0 (State.advDue s) := by
  unfold State.advDue
  try dsimp only
  repeat' (first | with_reducible assumption | simp only [SameStore.mk3, SameStore.mk4] | (intro _) | split)

theorem stored_startPorts {s0 : State} (s : State) (hks : SameStore s0 s) : SameStore s0 (State.startPorts s) := by
  unfold State.startPorts
  try dsimp only
  repeat' (first | with_reducible assumption | with_reducible apply stored_advDue | simp only [SameStore.mk3, SameStore.mk4] | (intro _) | split)

theorem stored_sendOne {s0 : State} (s : State) (port : Fin 4) (hks : SameStore s0 s) : SameStoreK1 s0 (State.sendOne s port)
      := by
  unfold State.sendOne
  try dsimp only
  repeat' (first | with_reducible assumption | with_reducible apply stored_emit | with_reducible apply stored_updVfl | exact fun h => h | with_reducible apply SameStoreK1.none | with_reducible apply SameStoreK1.some | with_reducible apply SameStoreK1.findSome | simp only [SameStore.mk3, SameStore.mk4] | (intro _) | split)

theorem stored_drainPort {s0 : State} (s : State) (port : Fin 4) (n : Nat) (hks : SameStore s0 s) : SameStore s0
      (State.drainPort s port n) := by
  induction n generalizing s with
  | zero => exact hks
  | succ k ih =>
    unfold State.drainPort
    split
    · rename_i s1 e
      exact ih s1 ((stored_sendOne s port hks).elim e)
    · exact hks

theorem stored_sendOn {s0 : State} (s : State) (port : Fin 4) (p : OutPkt) (hks : SameStore s0 s) : SameStore s0 (State.sendOn
      s port p) := by
  unfold State.sendOn
  try dsimp only
  repeat' (first | with_reducible assumption | with_reducible apply stored_updVfl | with_reducible apply stored_drainPort | exact fun h => h | simp only [SameStore.mk3, SameStore.mk4] | (intro _) | split)

theorem stored_sendPkt {s0 : State} (s : State) (p : OutPkt) (hks : SameStore s0 s) : SameStore s0 (State.sendPkt s p) := by
  unfold State.sendPkt
  try dsimp only
  repeat' (first | with_reducible assumption | with_reducible apply stored_sendOn | simp only [SameStore.mk3, SameStore.mk4] | (intro _) | split)

theorem stored_sendLong {s0 : State} (s : State) (p : OutPkt) (hks : SameStore s0 s) : SameStore s0 (State.sendLong s p) := by
  unfold State.sendLong
  try dsimp only
  repeat' (first | with_reducible assumption | with_reducible apply stored_sendPkt | with_reducible apply SameStore.foldl | simp only [SameStore.mk3, SameStore.mk4] | (intro _) | split)

theorem stored_linkLeave {s0 : State} (s : State) (port : Fin 4) (dst : LinkSt) (hks : SameStore s0 s) : SameStore s0
      (State.linkLeave s port dst) := by
  unfold State.linkLeave
  try dsimp only
  repeat' (first | with_reducible assumption | with_reducible apply stored_raise | with_reducible apply stored_updVfl | exact fun h => h | with_reducible apply SameStoreK1.getD | simp only [SameStore.mk3, SameStore.mk4] | (intro _) | split)

theorem stored_linksDown {s0 : State} (s : State) (dst : LinkSt) (hks : SameStore s0 s) : SameStore s0 (State.linksDown s dst)
      := by
  unfold State.linksDown
  try dsimp only
  repeat' (first | with_reducible assumption | with_reducible apply stored_linkLeave | with_reducible apply SameStore.foldl | simp only [SameStore.mk3, SameStore.mk4] | (intro _) | split)

theorem stored_mirLeave {s0 : State} (s : State) (st : MirSt) (reason : BitVec 3) (hks : SameStore s0 s) : SameStore s0
      (State.mirLeave s st reason) := by
  unfold State.mirLeave
  try dsimp only
  repeat' (first | with_reducible assumption | with_reducible apply stored_raise | simp only [SameStore.mk3, SameStore.mk4] | (intro _) | split)

theorem stored_mirSend {s0 : State} (s : State) (type : Byte) (vc : Fin 3) (t : Tid) (payload : List Byte) (hks : SameStore s0
      s) : SameStore s0 (State.mirSend s type vc t payload) := by
  unfold State.mirSend
  try dsimp only
  repeat' (first | with_reducible assumption | with_reducible apply stored_sendLong | simp only [SameStore.mk3, SameStore.mk4] | (intro _) | split)

theorem stored_mirStateItem {s0 : State} (s : State) (t : Tid) (item : Byte) (payload : List Byte) (hks : SameStore s0 s) :
      SameStore s0 (State.mirStateItem s t item payload) := by
  unfold State.mirStateItem
  try dsimp only
  repeat' (first | with_reducible assumption | with_reducible apply stored_mirSend | simp only [SameStore.mk3, SameStore.mk4] | (intro _) | split)

theorem stored_mirDeviceItem {s0 : State} (s : State) (item : Byte) (payload : List Byte) (hks : SameStore s0 s) : SameStore
      s0 (State.mirDeviceItem s item payload) := by
  unfold State.mirDeviceItem
  try dsimp only
  repeat' (first | with_reducible assumption | with_reducible apply stored_mirSend | simp only [SameStore.mk3, SameStore.mk4] | (intro _) | split)

theorem stored_meterIn {s0 : State} (s : State) (cls : Fin 4) (n : Nat) (hks : SameStore s0 s) : SameStore s0 (State.meterIn s
      cls n) := by
  unfold State.meterIn
  try dsimp only
  repeat' (first | with_reducible assumption | simp only [SameStore.mk3, SameStore.mk4] | (intro _) | split)

theorem stored_quotaNear {s0 : State} (s : State) (t : Tid) (hks : SameStore s0 s) : SameStore s0 (State.quotaNear s t) := by
  unfold State.quotaNear
  try dsimp only
  repeat' (first | with_reducible assumption | with_reducible apply stored_raiseTnt | simp only [SameStore.mk3, SameStore.mk4] | (intro _) | split)

theorem stored_mirAppendSend {s0 : State} (s : State) (t : Tid) (z : Nat) (e : AppRec) (hks : SameStore s0 s) : SameStore s0
      (State.mirAppendSend s t z e) := by
  unfold State.mirAppendSend
  try dsimp only
  repeat' (first | with_reducible assumption | with_reducible apply stored_mirSend | simp only [SameStore.mk3, SameStore.mk4] | (intro _) | split)

theorem stored_withdraw {s0 : State} (s : State) (t : Tid) (lowest : Nat) (again : List (Nat × AppRec)) (hks : SameStore s0 s)
      : SameStore s0 (State.withdraw s t lowest again) := by
  unfold State.withdraw
  try dsimp only
  repeat' (first | with_reducible assumption | with_reducible apply stored_mirSend | with_reducible apply stored_mirAppendSend | with_reducible apply SameStore.foldl | simp only [SameStore.mk3, SameStore.mk4] | (intro _) | split)

theorem stored_zresetRecord {s0 : State} (s : State) (z : Nat) (x : Zone) (cause : Byte) (hks : SameStore s0 s) : SameStore s0
      (State.zresetRecord s z x cause) := by
  unfold State.zresetRecord
  try dsimp only
  repeat' (first | with_reducible assumption | with_reducible apply SameStoreK1.getD | simp only [SameStore.mk3, SameStore.mk4] | (intro _) | split)

theorem stored_norWrite {s0 : State} (s : State) (a : Nat) (n : Nat) (b : List Byte) (hks : SameStore s0 s) : SameStore s0
      (State.norWrite s a n b) := by
  unfold State.norWrite
  try dsimp only
  repeat' (first | with_reducible assumption | simp only [SameStore.mk3, SameStore.mk4] | (intro _) | split)

theorem stored_writeRec {s0 : State} (s : State) (r : CtlRec) (hks : SameStore s0 s) : SameStore s0 (State.writeRec s r) := by
  unfold State.writeRec
  try dsimp only
  repeat' (first | with_reducible assumption | with_reducible apply stored_norWrite | simp only [SameStore.mk3, SameStore.mk4] | (intro _) | split)

theorem stored_romRecover {s0 : State} (s : State) (cause : Byte) (detail : Byte) (hks : SameStore s0 s) : SameStore s0
      (State.romRecover s cause detail) := by
  unfold State.romRecover
  try dsimp only
  repeat' (first | with_reducible assumption | with_reducible apply stored_raise | with_reducible apply stored_recordAs | simp only [SameStore.mk3, SameStore.mk4] | (intro _) | split)

theorem stored_ackCause {s0 : State} (s : State) (hks : SameStore s0 s) : SameStore s0 (State.ackCause s) := by
  unfold State.ackCause
  try dsimp only
  repeat' (first | with_reducible assumption | with_reducible apply stored_record | simp only [SameStore.mk3, SameStore.mk4] | (intro _) | split)

theorem stored_dispStart {s0 : State} (s : State) (hks : SameStore s0 s) : SameStore s0 (State.dispStart s) := by
  unfold State.dispStart
  try dsimp only
  repeat' (first | with_reducible assumption | simp only [SameStore.mk3, SameStore.mk4] | (intro _) | split)

theorem stored_judgeMark {s0 : State} (s : State) (taken : BitVec 7) (hks : SameStore s0 s) : SameStore s0 (State.judgeMark s
      taken) := by
  unfold State.judgeMark
  try dsimp only
  repeat' (first | with_reducible assumption | with_reducible apply stored_writeRec | simp only [SameStore.mk3, SameStore.mk4] | (intro _) | split)

theorem stored_strapRecords {s0 : State} (s : State) (hks : SameStore s0 s) : SameStore s0 (State.strapRecords s) := by
  unfold State.strapRecords
  try dsimp only
  repeat' (first | with_reducible assumption | with_reducible apply stored_recordAs | simp only [SameStore.mk3, SameStore.mk4] | (intro _) | split)

theorem stored_gustWarnings {s0 : State} (s : State) (d : BoardDesc) (p : Policy) (hks : SameStore s0 s) : SameStore s0
      (State.gustWarnings s d p) := by
  unfold State.gustWarnings
  try dsimp only
  repeat' (first | with_reducible assumption | with_reducible apply stored_record | with_reducible apply SameStore.foldl | simp only [SameStore.mk3, SameStore.mk4] | (intro _) | split)

theorem stored_execResetRelease {s0 : State} (s : State) (hks : SameStore s0 s) : OutSameStore s0 (execResetRelease s) := by
  unfold execResetRelease
  try dsimp only
  repeat' (first | with_reducible assumption | with_reducible apply stored_release | with_reducible apply OutSameStore.next | exact OutSameStore.fault _ | exact OutSameStore.refused _ | simp only [SameStore.mk3, SameStore.mk4] | (intro _) | split)

theorem stored_pause {s0 : State} (s : State) (o : Owner) (hks : SameStore s0 s) : SameStore s0 (State.pause s o) := by
  unfold State.pause
  try dsimp only
  repeat' (first | with_reducible assumption | with_reducible apply stored_raise | simp only [SameStore.mk3, SameStore.mk4] | (intro _) | split)

theorem stored_alloc {s0 : State} (s : State) (o : Owner) (b : Buf) (hks : SameStore s0 s) : SameStoreK2 s0 (State.alloc s o b)
      := by
  unfold State.alloc
  try dsimp only
  repeat' (first | with_reducible assumption | with_reducible apply SameStoreK2.none | with_reducible apply SameStoreK2.some | with_reducible apply SameStoreK2.findSome | simp only [SameStore.mk3, SameStore.mk4] | (intro _) | split)

theorem stored_allocAll {s0 : State} (s : State) (o : Owner) (l : List Buf) (hks : SameStore s0 s) : SameStoreK2 s0
      (State.allocAll s o l) := by
  induction l generalizing s with
  | nil => exact SameStoreK2.some hks
  | cons b r ih =>
    unfold State.allocAll
    split
    · exact SameStoreK2.none
    · rename_i h s1 e
      split
      · exact SameStoreK2.none
      · rename_i hs s2 e2
        exact SameStoreK2.some ((ih s1 ((stored_alloc s o b hks).elim e)).elim e2)

theorem stored_freeBuf {s0 : State} (s : State) (h : Nat) (hks : SameStore s0 s) : SameStore s0 (State.freeBuf s h) := by
  unfold State.freeBuf
  try dsimp only
  repeat' (first | with_reducible assumption | simp only [SameStore.mk3, SameStore.mk4] | (intro _) | split)

theorem stored_freeBufs {s0 : State} (s : State) (hs : List Nat) (hks : SameStore s0 s) : SameStore s0 (State.freeBufs s hs)
      := by
  unfold State.freeBufs
  try dsimp only
  repeat' (first | with_reducible assumption | with_reducible apply stored_freeBuf | with_reducible apply SameStore.foldl | simp only [SameStore.mk3, SameStore.mk4] | (intro _) | split)

theorem stored_updBuf {s0 : State} (s : State) (h : Nat) (f : Buf → Buf) (hks : SameStore s0 s) : SameStore s0 (State.updBuf s
      h f) := by
  unfold State.updBuf
  try dsimp only
  repeat' (first | with_reducible assumption | simp only [SameStore.mk3, SameStore.mk4] | (intro _) | split)

theorem stored_updBufs {s0 : State} (s : State) (hs : List Nat) (f : Buf → Buf) (hks : SameStore s0 s) : SameStore s0
      (State.updBufs s hs f) := by
  unfold State.updBufs
  try dsimp only
  repeat' (first | with_reducible assumption | with_reducible apply stored_updBuf | with_reducible apply SameStore.foldl | simp only [SameStore.mk3, SameStore.mk4] | (intro _) | split)

theorem stored_execBufferAllocate {s0 : State} (o : Owner) (tag : Tag) (markerOk : Bool) (s : State) (hks : SameStore s0 s) :
      OutSameStore s0 (execBufferAllocate o tag markerOk s) := by
  unfold execBufferAllocate
  try dsimp only
  repeat' (first | with_reducible assumption | with_reducible apply stored_drawn | with_reducible apply stored_raiseRec | with_reducible apply stored_updCmd | with_reducible apply stored_pause | with_reducible refine SameStoreK2.elim (stored_alloc _ _ _ ?_) ‹_› | with_reducible apply stored_alloc | with_reducible apply OutSameStore.next | exact OutSameStore.fault _ | exact OutSameStore.refused _ | simp only [SameStore.mk3, SameStore.mk4] | (intro _) | split)

theorem stored_execListRebuildEnd {s0 : State} (p : Pool) (s : State) (hks : SameStore s0 s) : OutSameStore s0
      (execListRebuildEnd p s) := by
  unfold execListRebuildEnd
  try dsimp only
  repeat' (first | with_reducible assumption | with_reducible apply OutSameStore.next | exact OutSameStore.fault _ | exact OutSameStore.refused _ | simp only [SameStore.mk3, SameStore.mk4] | (intro _) | split)

theorem stored_execBufferHandoff {s0 : State} (h : Nat) (fromO : Owner) (toO : Owner) (takes : Bool) (s : State) (hks :
      SameStore s0 s) : OutSameStore s0 (execBufferHandoff h fromO toO takes s) := by
  unfold execBufferHandoff
  try dsimp only
  repeat' (first | with_reducible assumption | with_reducible apply stored_updBuf | with_reducible apply OutSameStore.next | exact OutSameStore.fault _ | exact OutSameStore.refused _ | simp only [SameStore.mk3, SameStore.mk4] | (intro _) | split)

theorem stored_execBufferFree {s0 : State} (h : Nat) (o : Owner) (s : State) (hks : SameStore s0 s) : OutSameStore s0
      (execBufferFree h o s) := by
  unfold execBufferFree
  try dsimp only
  repeat' (first | with_reducible assumption | with_reducible apply stored_raiseRec | with_reducible apply stored_freeBuf | with_reducible apply stored_updBuf | with_reducible apply OutSameStore.next | exact OutSameStore.fault _ | exact OutSameStore.refused _ | simp only [SameStore.mk3, SameStore.mk4] | (intro _) | split)

theorem stored_loseSram {s0 : State} (s : State) (hks : SameStore s0 s) : SameStore s0 (State.loseSram s) := by
  unfold State.loseSram
  try dsimp only
  repeat' (first | with_reducible assumption | simp only [SameStore.mk3, SameStore.mk4] | (intro _) | split)

theorem stored_marchStart {s0 : State} (s : State) (v : Word) (hks : SameStore s0 s) : SameStore s0 (State.marchStart s v) := by
  unfold State.marchStart
  try dsimp only
  repeat' (first | with_reducible assumption | with_reducible apply stored_loseSram | simp only [SameStore.mk3, SameStore.mk4] | (intro _) | split)

theorem stored_removeSram {s0 : State} (s : State) (hs : List Nat) (hks : SameStore s0 s) : SameStore s0 (State.removeSram s
      hs) := by
  unfold State.removeSram
  try dsimp only
  repeat' (first | with_reducible assumption | with_reducible apply SameStore.foldl | simp only [SameStore.mk3, SameStore.mk4] | (intro _) | split)

theorem stored_repairRow {s0 : State} (s : State) (target : Nat) (f : FailRow) (hks : SameStore s0 s) : SameStore s0
      (State.repairRow s target f) := by
  unfold State.repairRow
  try dsimp only
  repeat' (first | with_reducible assumption | with_reducible apply stored_raise | with_reducible apply stored_raiseRec | with_reducible apply stored_removeSram | simp only [SameStore.mk3, SameStore.mk4] | (intro _) | split)

theorem stored_execMarchDone {s0 : State} (fails : List FailRow) (s : State) (hks : SameStore s0 s) : OutSameStore s0
      (execMarchDone fails s) := by
  unfold execMarchDone
  try dsimp only
  repeat' (first | with_reducible assumption | with_reducible apply stored_raise | with_reducible apply stored_repairRow | with_reducible apply OutSameStore.next | exact OutSameStore.fault _ | exact OutSameStore.refused _ | with_reducible apply SameStore.foldl | simp only [SameStore.mk3, SameStore.mk4] | (intro _) | split)

theorem stored_rtRequest {s0 : State} (s : State) (hks : SameStore s0 s) : SameStore s0 (State.rtRequest s) := by
  unfold State.rtRequest
  try dsimp only
  repeat' (first | with_reducible assumption | simp only [SameStore.mk3, SameStore.mk4] | (intro _) | split)

theorem stored_trainReport {s0 : State} (s : State) (lanes : List LaneSweep) (timeUs : Nat) (hks : SameStore s0 s) : SameStore
      s0 (State.trainReport s lanes timeUs) := by
  unfold State.trainReport
  try dsimp only
  repeat' (first | with_reducible assumption | with_reducible apply stored_raiseRecStatus | with_reducible apply SameStore.foldl | simp only [SameStore.mk3, SameStore.mk4] | (intro _) | split)

theorem stored_execRefreshDue {s0 : State} (s : State) (hks : SameStore s0 s) : OutSameStore s0 (execRefreshDue s) := by
  unfold execRefreshDue
  try dsimp only
  repeat' (first | with_reducible assumption | with_reducible apply stored_raise | with_reducible apply OutSameStore.next | exact OutSameStore.fault _ | exact OutSameStore.refused _ | simp only [SameStore.mk3, SameStore.mk4] | (intro _) | split)

theorem stored_execRefreshPayback {s0 : State} (s : State) (hks : SameStore s0 s) : OutSameStore s0 (execRefreshPayback s) := by
  unfold execRefreshPayback
  try dsimp only
  repeat' (first | with_reducible assumption | with_reducible apply OutSameStore.next | exact OutSameStore.fault _ | exact OutSameStore.refused _ | simp only [SameStore.mk3, SameStore.mk4] | (intro _) | split)

theorem stored_qspiGo {s0 : State} (s : State) (hks : SameStore s0 s) : SameStore s0 (State.qspiGo s) := by
  unfold State.qspiGo
  try dsimp only
  repeat' (first | with_reducible assumption | simp only [SameStore.mk3, SameStore.mk4] | (intro _) | split)

theorem stored_execQspiFrameStart {s0 : State} (s : State) (hks : SameStore s0 s) : OutSameStore s0 (execQspiFrameStart s) := by
  unfold execQspiFrameStart
  try dsimp only
  repeat' (first | with_reducible assumption | with_reducible apply stored_emit | with_reducible apply OutSameStore.next | exact OutSameStore.fault _ | exact OutSameStore.refused _ | simp only [SameStore.mk3, SameStore.mk4] | (intro _) | split)

theorem stored_hostFrameEnd {s0 : State} (s : State) (data : List Byte) (hks : SameStore s0 s) : SameStore s0
      (State.hostFrameEnd s data) := by
  unfold State.hostFrameEnd
  try dsimp only
  repeat' (first | with_reducible assumption | with_reducible apply stored_emit | with_reducible apply stored_raise | simp only [SameStore.mk3, SameStore.mk4] | (intro _) | split)

theorem stored_execFrameDone {s0 : State} (rd : List Byte) (s : State) (hks : SameStore s0 s) : OutSameStore s0 (execFrameDone
      rd s) := by
  unfold execFrameDone
  try dsimp only
  repeat' (first | with_reducible assumption | with_reducible apply stored_raise | with_reducible apply stored_hostFrameEnd | with_reducible apply OutSameStore.next | exact OutSameStore.fault _ | exact OutSameStore.refused _ | simp only [SameStore.mk3, SameStore.mk4] | (intro _) | split)

theorem stored_spitTx {s0 : State} (s : State) (v : Word) (hks : SameStore s0 s) : SameStore s0 (State.spitTx s v) := by
  unfold State.spitTx
  try dsimp only
  repeat' (first | with_reducible assumption | simp only [SameStore.mk3, SameStore.mk4] | (intro _) | split)

theorem stored_spitPop {s0 : State} (s : State) (hks : SameStore s0 s) : SameStore s0 (State.spitPop s) := by
  unfold State.spitPop
  try dsimp only
  repeat' (first | with_reducible assumption | simp only [SameStore.mk3, SameStore.mk4] | (intro _) | split)

theorem stored_spitCtrl {s0 : State} (s : State) (v : Word) (hks : SameStore s0 s) : SameStore s0 (State.spitCtrl s v) := by
  unfold State.spitCtrl
  try dsimp only
  repeat' (first | with_reducible assumption | simp only [SameStore.mk3, SameStore.mk4] | (intro _) | split)

theorem stored_execSpitWordReceived {s0 : State} (word : Word) (s : State) (hks : SameStore s0 s) : OutSameStore s0
      (execSpitWordReceived word s) := by
  unfold execSpitWordReceived
  try dsimp only
  repeat' (first | with_reducible assumption | with_reducible apply stored_raise | with_reducible apply OutSameStore.next | exact OutSameStore.fault _ | exact OutSameStore.refused _ | simp only [SameStore.mk3, SameStore.mk4] | (intro _) | split)

theorem stored_execSpitWordTake {s0 : State} (first : Bool) (s : State) (hks : SameStore s0 s) : OutSameStore s0
      (execSpitWordTake first s) := by
  unfold execSpitWordTake
  try dsimp only
  repeat' (first | with_reducible assumption | with_reducible apply stored_emit | with_reducible apply stored_raise | with_reducible apply OutSameStore.next | exact OutSameStore.fault _ | exact OutSameStore.refused _ | simp only [SameStore.mk3, SameStore.mk4] | (intro _) | split)

theorem stored_execSpitCsRise {s0 : State} (withinWord : Bool) (s : State) (hks : SameStore s0 s) : OutSameStore s0
      (execSpitCsRise withinWord s) := by
  unfold execSpitCsRise
  try dsimp only
  repeat' (first | with_reducible assumption | with_reducible apply stored_raise | with_reducible apply OutSameStore.next | exact OutSameStore.fault _ | exact OutSameStore.refused _ | simp only [SameStore.mk3, SameStore.mk4] | (intro _) | split)

theorem stored_setMotion {s0 : State} (s : State) (m : Motion) (hks : SameStore s0 s) : SameStore s0 (State.setMotion s m) := by
  unfold State.setMotion
  try dsimp only
  repeat' (first | with_reducible assumption | with_reducible apply stored_raise | with_reducible apply stored_raiseRecStatus | simp only [SameStore.mk3, SameStore.mk4] | (intro _) | split)

theorem stored_execMotionChange {s0 : State} (level : Bool) (s : State) (hks : SameStore s0 s) : OutSameStore s0
      (execMotionChange level s) := by
  unfold execMotionChange
  try dsimp only
  repeat' (first | with_reducible assumption | with_reducible apply stored_setMotion | with_reducible apply OutSameStore.next | exact OutSameStore.fault _ | exact OutSameStore.refused _ | simp only [SameStore.mk3, SameStore.mk4] | (intro _) | split)

theorem stored_execGpioInputEdge {s0 : State} (n : Fin 4) (level : Bool) (s : State) (hks : SameStore s0 s) : OutSameStore s0
      (execGpioInputEdge n level s) := by
  unfold execGpioInputEdge
  try dsimp only
  repeat' (first | with_reducible assumption | with_reducible apply stored_raise | with_reducible apply OutSameStore.next | exact OutSameStore.fault _ | exact OutSameStore.refused _ | simp only [SameStore.mk3, SameStore.mk4] | (intro _) | split)

theorem stored_tryEntry {s0 : State} (s : State) (d : BoardDesc) (i : Nat) (ans : PmicAnswer) (hks : SameStore s0 s) :
      SameStoreK4 s0 (State.tryEntry s d i ans) := by
  unfold State.tryEntry
  try dsimp only
  repeat' (first | with_reducible assumption | with_reducible apply stored_emit | with_reducible apply stored_raiseRec | with_reducible apply SameStoreK4.mk | simp only [SameStore.mk3, SameStore.mk4] | (intro _) | split)

theorem stored_probeDone {s0 : State} (s : State) (d : BoardDesc) (hks : SameStore s0 s) : SameStore s0 (State.probeDone s d)
      := by
  unfold State.probeDone
  try dsimp only
  repeat' (first | with_reducible assumption | with_reducible apply stored_raise | with_reducible apply stored_raiseRec | with_reducible apply stored_setEb | simp only [SameStore.mk3, SameStore.mk4] | (intro _) | split)

theorem stored_afterTry {s0 : State} (s : State) (d : BoardDesc) (i : Nat) (e : TryEnd) (hks : SameStore s0 s) : SameStore s0
      (State.afterTry s d i e) := by
  unfold State.afterTry
  try dsimp only
  repeat' (first | with_reducible assumption | with_reducible apply stored_probeDone | simp only [SameStore.mk3, SameStore.mk4] | (intro _) | split)

theorem stored_runEntry {s0 : State} (s : State) (d : BoardDesc) (i : Nat) (ans : PmicAnswer) (hks : SameStore s0 s) :
      SameStore s0 (State.runEntry s d i ans) := by
  unfold State.runEntry
  try dsimp only
  repeat' (first | with_reducible assumption | with_reducible apply SameStoreK4.fst; with_reducible apply stored_tryEntry | with_reducible refine SameStoreK4.elim (stored_tryEntry _ _ _ _ ?_) ‹_› | with_reducible apply stored_tryEntry | with_reducible apply stored_afterTry | simp only [SameStore.mk3, SameStore.mk4] | (intro _) | split)

theorem stored_execScriptEntry {s0 : State} (index : Fin 20) (ans : PmicAnswer) (s : State) (hks : SameStore s0 s) :
      OutSameStore s0 (execScriptEntry index ans s) := by
  unfold execScriptEntry
  try dsimp only
  repeat' (first | with_reducible assumption | with_reducible apply stored_runEntry | with_reducible apply OutSameStore.next | exact OutSameStore.fault _ | exact OutSameStore.refused _ | simp only [SameStore.mk3, SameStore.mk4] | (intro _) | split)

theorem stored_afterStatus {s0 : State} (s : State) (d : BoardDesc) (i : Nat) (ans : PmicAnswer) (e : TryEnd) (hks : SameStore
      s0 s) : SameStore s0 (State.afterStatus s d i ans e) := by
  unfold State.afterStatus
  try dsimp only
  repeat' (first | with_reducible assumption | with_reducible apply stored_raiseRec | with_reducible apply stored_pmicShrink | simp only [SameStore.mk3, SameStore.mk4] | (intro _) | split)

theorem stored_execEntryRetry {s0 : State} (ans : PmicAnswer) (s : State) (hks : SameStore s0 s) : OutSameStore s0
      (execEntryRetry ans s) := by
  unfold execEntryRetry
  try dsimp only
  repeat' (first | with_reducible assumption | with_reducible apply SameStoreK4.fst; with_reducible apply stored_tryEntry | with_reducible refine SameStoreK4.elim (stored_tryEntry _ _ _ _ ?_) ‹_› | with_reducible apply stored_tryEntry | with_reducible apply stored_runEntry | with_reducible apply stored_afterStatus | with_reducible apply OutSameStore.next | exact OutSameStore.fault _ | exact OutSameStore.refused _ | simp only [SameStore.mk3, SameStore.mk4] | (intro _) | split)

theorem stored_execStatusPoll {s0 : State} (ans : PmicAnswer) (s : State) (hks : SameStore s0 s) : OutSameStore s0
      (execStatusPoll ans s) := by
  unfold execStatusPoll
  try dsimp only
  repeat' (first | with_reducible assumption | with_reducible apply SameStoreK4.fst; with_reducible apply stored_tryEntry | with_reducible refine SameStoreK4.elim (stored_tryEntry _ _ _ _ ?_) ‹_› | with_reducible apply stored_tryEntry | with_reducible apply stored_afterStatus | with_reducible apply OutSameStore.next | exact OutSameStore.fault _ | exact OutSameStore.refused _ | simp only [SameStore.mk3, SameStore.mk4] | (intro _) | split)

theorem stored_recoverBus {s0 : State} (s : State) (freedAfter : Option (Fin 10)) (hks : SameStore s0 s) : SameStore s0
      (State.recoverBus s freedAfter) := by
  unfold State.recoverBus
  try dsimp only
  repeat' (first | with_reducible assumption | with_reducible apply stored_record | with_reducible apply stored_raiseRec | with_reducible apply stored_holdupSkipped | simp only [SameStore.mk3, SameStore.mk4] | (intro _) | split)

theorem stored_execStuckBusRecovery {s0 : State} (freedAfter : Option (Fin 10)) (s : State) (hks : SameStore s0 s) :
      OutSameStore s0 (execStuckBusRecovery freedAfter s) := by
  unfold execStuckBusRecovery
  try dsimp only
  repeat' (first | with_reducible assumption | with_reducible apply stored_recoverBus | with_reducible apply OutSameStore.next | exact OutSameStore.fault _ | exact OutSameStore.refused _ | simp only [SameStore.mk3, SameStore.mk4] | (intro _) | split)

theorem stored_execStuckRetry {s0 : State} (freedAfter : Option (Fin 10)) (s : State) (hks : SameStore s0 s) : OutSameStore s0
      (execStuckRetry freedAfter s) := by
  unfold execStuckRetry
  try dsimp only
  repeat' (first | with_reducible assumption | with_reducible apply stored_recoverBus | with_reducible apply OutSameStore.next | exact OutSameStore.fault _ | exact OutSameStore.refused _ | simp only [SameStore.mk3, SameStore.mk4] | (intro _) | split)

theorem stored_probeNow {s0 : State} (s : State) (hks : SameStore s0 s) : SameStore s0 (State.probeNow s) := by
  unfold State.probeNow
  try dsimp only
  repeat' (first | with_reducible assumption | simp only [SameStore.mk3, SameStore.mk4] | (intro _) | split)

theorem stored_execHoldupProbe {s0 : State} (ans : PmicAnswer) (s : State) (hks : SameStore s0 s) : OutSameStore s0
      (execHoldupProbe ans s) := by
  unfold execHoldupProbe
  try dsimp only
  repeat' (first | with_reducible assumption | with_reducible apply stored_probeShrink | with_reducible apply stored_runEntry | with_reducible apply OutSameStore.next | exact OutSameStore.fault _ | exact OutSameStore.refused _ | simp only [SameStore.mk3, SameStore.mk4] | (intro _) | split)

theorem stored_execLoadPulse {s0 : State} (v0mV : Nat) (ans : PmicAnswer) (s : State) (hks : SameStore s0 s) : OutSameStore s0
      (execLoadPulse v0mV ans s) := by
  unfold execLoadPulse
  try dsimp only
  repeat' (first | with_reducible assumption | with_reducible apply stored_runEntry | with_reducible apply OutSameStore.next | exact OutSameStore.fault _ | exact OutSameStore.refused _ | simp only [SameStore.mk3, SameStore.mk4] | (intro _) | split)

theorem stored_execProbeComplete {s0 : State} (vAuV : Nat) (slopeMVs : Nat) (ans : PmicAnswer) (s : State) (hks : SameStore s0
      s) : OutSameStore s0 (execProbeComplete vAuV slopeMVs ans s) := by
  unfold execProbeComplete
  try dsimp only
  repeat' (first | with_reducible assumption | with_reducible apply stored_runEntry | with_reducible apply OutSameStore.next | exact OutSameStore.fault _ | exact OutSameStore.refused _ | simp only [SameStore.mk3, SameStore.mk4] | (intro _) | split)

theorem stored_formSb {s0 : State} (s : State) (d : BoardDesc) (g : Nat) (use : SbUse) (stream : Nat) (hks : SameStore s0 s) :
      SameStoreK2 s0 (State.formSb s d g use stream) := by
  unfold State.formSb
  try dsimp only
  repeat' (first | with_reducible assumption | with_reducible apply SameStoreK2.none | with_reducible apply SameStoreK2.some | with_reducible apply SameStoreK1.getD | simp only [SameStore.mk3, SameStore.mk4] | (intro _) | split)

theorem stored_formSysSb {s0 : State} (s : State) (d : BoardDesc) (g : Nat) (hks : SameStore s0 s) : SameStore s0
      (State.formSysSb s d g) := by
  unfold State.formSysSb
  try dsimp only
  repeat' (first | with_reducible assumption | simp only [SameStore.mk3, SameStore.mk4] | (intro _) | split)

theorem stored_updSb {s0 : State} (s : State) (k : Nat) (f : Superblock → Superblock) (hks : SameStore s0 s) : SameStore s0
      (State.updSb s k f) := by
  unfold State.updSb
  try dsimp only
  repeat' (first | with_reducible assumption | simp only [SameStore.mk3, SameStore.mk4] | (intro _) | split)

theorem stored_mediaBits {s0 : State} (s before : State) (hks : SameStore s0 s) (hkbefore : SameStore s0 before) : SameStore
      s0 (State.mediaBits s before) := by
  unfold State.mediaBits
  try dsimp only
  repeat' (first | with_reducible assumption | with_reducible apply stored_raise | with_reducible apply SameStore.foldl | simp only [SameStore.mk3, SameStore.mk4] | (intro _) | split)

theorem stored_streamSb {s0 : State} (s : State) (d : BoardDesc) (g : Nat) (stream : Nat) (use : SbUse) (hks : SameStore s0 s)
      : SameStoreK2 s0 (State.streamSb s d g stream use) := by
  unfold State.streamSb
  try dsimp only
  repeat' (first | with_reducible assumption | with_reducible refine SameStoreK2.elim (stored_formSb _ _ _ _ _ ?_) ‹_› | with_reducible apply stored_formSb | with_reducible apply SameStoreK2.none | with_reducible apply SameStoreK2.some | with_reducible apply SameStoreK2.findSome | simp only [SameStore.mk3, SameStore.mk4] | (intro _) | split)

theorem stored_chanTouch {s0 : State} (s : State) (ch : Nat) (hks : SameStore s0 s) : SameStore s0 (State.chanTouch s ch) := by
  unfold State.chanTouch
  try dsimp only
  repeat' (first | with_reducible assumption | with_reducible apply SameStoreK1.getD | simp only [SameStore.mk3, SameStore.mk4] | (intro _) | split)

theorem stored_queueOp {s0 : State} (s : State) (die : Nat) (cls : Nat) (k : FlashKind) (bufs : List Nat) (hks : SameStore s0
      s) : SameStore s0 (State.queueOp s die cls k bufs) := by
  unfold State.queueOp
  try dsimp only
  repeat' (first | with_reducible assumption | with_reducible apply stored_chanTouch | simp only [SameStore.mk3, SameStore.mk4] | (intro _) | split)

theorem stored_queuePages {s0 : State} (s : State) (d : BoardDesc) (key : Nat) (b : Superblock) (cls : Nat) (first : Nat) (n :
      Nat) (hs : List Nat) (hks : SameStore s0 s) : SameStore s0 (State.queuePages s d key b cls first n hs) := by
  unfold State.queuePages
  try dsimp only
  repeat' (first | with_reducible assumption | with_reducible apply stored_queueOp | with_reducible apply SameStore.foldl | simp only [SameStore.mk3, SameStore.mk4] | (intro _) | split)

theorem stored_fillSb {s0 : State} (s : State) (d : BoardDesc) (key : Nat) (cls : Nat) (items : List (Option Nat × Piece)) (hks
      : SameStore s0 s) : SameStore s0 (State.fillSb s d key cls items) := by
  unfold State.fillSb
  try dsimp only
  repeat' (first | with_reducible assumption | with_reducible apply stored_queuePages | with_reducible apply SameStore.foldl | simp only [SameStore.mk3, SameStore.mk4] | (intro _) | split)

theorem stored_journalLines {s0 : State} (s : State) (ps : List Piece) (hks : SameStore s0 s) : SameStore s0
      (State.journalLines s ps) := by
  unfold State.journalLines
  try dsimp only
  repeat' (first | with_reducible assumption | with_reducible apply SameStoreK1.getD | with_reducible apply SameStore.foldl | simp only [SameStore.mk3, SameStore.mk4] | (intro _) | split)

theorem stored_placeFrom {s0 : State} (s : State) (d : BoardDesc) (gs : List Nat) (stream cls : Nat) (items : List (Option Nat
      × Piece)) (hks : SameStore s0 s) : SameStoreK1 s0 (State.placeFrom s d gs stream cls items) := by
  unfold State.placeFrom
  try dsimp only
  repeat' (first | with_reducible assumption | with_reducible apply stored_mediaBits | with_reducible refine SameStoreK2.elim (stored_streamSb _ _ _ _ _ ?_) ‹_› | with_reducible apply stored_streamSb | with_reducible apply stored_fillSb | with_reducible apply stored_journalLines | with_reducible apply SameStoreK1.none | with_reducible apply SameStoreK1.some | with_reducible apply SameStoreK1.findSome | simp only [SameStore.mk3, SameStore.mk4] | (intro _) | split)

theorem stored_placeIn {s0 : State} (s : State) (d : BoardDesc) (stream : Nat) (cls : Nat) (items : List (Option Nat × Piece))
      (hks : SameStore s0 s) : SameStoreK1 s0 (State.placeIn s d stream cls items) := by
  unfold State.placeIn
  try dsimp only
  repeat' (first | with_reducible assumption | with_reducible refine SameStoreK1.elim (stored_placeFrom _ _ _ _ _ _ ?_) ‹_› | with_reducible apply stored_placeFrom | with_reducible apply SameStoreK1.none | with_reducible apply SameStoreK1.some | simp only [SameStore.mk3, SameStore.mk4] | (intro _) | split)

theorem stored_journalLag {s0 : State} (s : State) (hks : SameStore s0 s) : SameStore s0 (State.journalLag s) := by
  unfold State.journalLag
  try dsimp only
  repeat' (first | with_reducible assumption | with_reducible apply stored_raise | simp only [SameStore.mk3, SameStore.mk4] | (intro _) | split)

theorem stored_judgeReadOnly {s0 : State} (s : State) (hks : SameStore s0 s) : SameStore s0 (State.judgeReadOnly s) := by
  unfold State.judgeReadOnly
  try dsimp only
  repeat' (first | with_reducible assumption | with_reducible apply stored_raiseRec | simp only [SameStore.mk3, SameStore.mk4] | (intro _) | split)

theorem stored_retireBlock {s0 : State} (s : State) (die : Nat) (blk : Nat) (cause : Byte) (hks : SameStore s0 s) : SameStore
      s0 (State.retireBlock s die blk cause) := by
  unfold State.retireBlock
  try dsimp only
  repeat' (first | with_reducible assumption | with_reducible apply stored_raise | with_reducible apply stored_mediaBits | with_reducible apply stored_judgeReadOnly | simp only [SameStore.mk3, SameStore.mk4] | (intro _) | split)

theorem stored_settleGroups {s0 : State} (s : State) (hks : SameStore s0 s) : SameStore s0 (State.settleGroups s) := by
  unfold State.settleGroups
  try dsimp only
  repeat' (first | with_reducible assumption | simp only [SameStore.mk3, SameStore.mk4] | (intro _) | split)

theorem stored_failDie {s0 : State} (s : State) (die : Nat) (hks : SameStore s0 s) : SameStore s0 (State.failDie s die) := by
  unfold State.failDie
  try dsimp only
  repeat' (first | with_reducible assumption | with_reducible apply stored_raise | with_reducible apply stored_raiseRec | with_reducible apply stored_mediaBits | with_reducible apply stored_judgeReadOnly | with_reducible apply stored_settleGroups | with_reducible apply SameStoreK1.getD | simp only [SameStore.mk3, SameStore.mk4] | (intro _) | split)

theorem stored_dieOutcome {s0 : State} (s : State) (die : Nat) (pass : Bool) (hks : SameStore s0 s) : SameStore s0
      (State.dieOutcome s die pass) := by
  unfold State.dieOutcome
  try dsimp only
  repeat' (first | with_reducible assumption | with_reducible apply stored_failDie | with_reducible apply SameStoreK1.getD | simp only [SameStore.mk3, SameStore.mk4] | (intro _) | split)

theorem stored_updNfc {s0 : State} (s : State) (ch : Nat) (f : NfcS → NfcS) (hks : SameStore s0 s) : SameStore s0 (State.updNfc
      s ch f) := by
  unfold State.updNfc
  try dsimp only
  repeat' (first | with_reducible assumption | with_reducible apply SameStoreK1.getD | simp only [SameStore.mk3, SameStore.mk4] | (intro _) | split)

theorem stored_dropOp {s0 : State} (s : State) (k : Nat) (hks : SameStore s0 s) : SameStore s0 (State.dropOp s k) := by
  unfold State.dropOp
  try dsimp only
  repeat' (first | with_reducible assumption | with_reducible apply stored_chanTouch | simp only [SameStore.mk3, SameStore.mk4] | (intro _) | split)

theorem stored_finishErase {s0 : State} (s : State) (key : Nat) (hks : SameStore s0 s) : SameStore s0 (State.finishErase s
      key) := by
  unfold State.finishErase
  try dsimp only
  repeat' (first | with_reducible assumption | with_reducible apply stored_settleGroups | simp only [SameStore.mk3, SameStore.mk4] | (intro _) | split)

theorem stored_queueErases {s0 : State} (s : State) (key : Nat) (b : Superblock) (hks : SameStore s0 s) : SameStore s0
      (State.queueErases s key b) := by
  unfold State.queueErases
  try dsimp only
  repeat' (first | with_reducible assumption | with_reducible apply stored_queueOp | with_reducible apply stored_finishErase | with_reducible apply SameStore.foldl | simp only [SameStore.mk3, SameStore.mk4] | (intro _) | split)

theorem stored_eraseSb {s0 : State} (s : State) (key : Nat) (hks : SameStore s0 s) : SameStore s0 (State.eraseSb s key) := by
  unfold State.eraseSb
  try dsimp only
  repeat' (first | with_reducible assumption | with_reducible apply stored_updSb | with_reducible apply stored_queueErases | simp only [SameStore.mk3, SameStore.mk4] | (intro _) | split)

theorem stored_eraseIfEmpty {s0 : State} (s : State) (key : Nat) (hks : SameStore s0 s) : SameStore s0 (State.eraseIfEmpty s
      key) := by
  unfold State.eraseIfEmpty
  try dsimp only
  repeat' (first | with_reducible assumption | with_reducible apply stored_eraseSb | simp only [SameStore.mk3, SameStore.mk4] | (intro _) | split)

theorem stored_grant {s0 : State} (s : State) (line : Nat) (w : Walker) (q : List Walker) (hks : SameStore s0 s) : SameStore s0
      (State.grant s line w q) := by
  unfold State.grant
  try dsimp only
  repeat' (first | with_reducible assumption | with_reducible apply SameStore.foldl | with_reducible apply SameStoreK1.getD | simp only [SameStore.mk3, SameStore.mk4] | (intro _) | split)

theorem stored_lineRequest {s0 : State} (s : State) (line : Nat) (w : Walker) (hks : SameStore s0 s) : SameStore s0
      (State.lineRequest s line w) := by
  unfold State.lineRequest
  try dsimp only
  repeat' (first | with_reducible assumption | with_reducible apply stored_grant | simp only [SameStore.mk3, SameStore.mk4] | (intro _) | split)

theorem stored_moveItem {s0 : State} (s : State) (dst : Nat) (it : Nat × Nat × Piece) (hks : SameStore s0 s) : SameStore s0
      (State.moveItem s dst it) := by
  unfold State.moveItem
  try dsimp only
  repeat' (first | with_reducible assumption | with_reducible apply stored_updSb | simp only [SameStore.mk3, SameStore.mk4] | (intro _) | split)

theorem stored_applyMove {s0 : State} (s : State) (m : Move) (hks : SameStore s0 s) : SameStore s0 (State.applyMove s m) := by
  unfold State.applyMove
  try dsimp only
  repeat' (first | with_reducible assumption | with_reducible apply stored_updSb | with_reducible apply stored_journalLines | with_reducible apply stored_eraseIfEmpty | with_reducible apply stored_lineRequest | with_reducible apply stored_moveItem | with_reducible apply SameStore.foldl | simp only [SameStore.mk3, SameStore.mk4] | (intro _) | split)

theorem stored_gcMoves {s0 : State} (s : State) (hks : SameStore s0 s) : SameStore s0 (State.gcMoves s) := by
  unfold State.gcMoves
  try dsimp only
  repeat' (first | with_reducible assumption | with_reducible apply stored_applyMove | with_reducible apply SameStore.foldl | simp only [SameStore.mk3, SameStore.mk4] | (intro _) | split)

theorem stored_movesProgrammed {s0 : State} (s : State) (key : Nat) (hks : SameStore s0 s) : SameStore s0
      (State.movesProgrammed s key) := by
  unfold State.movesProgrammed
  try dsimp only
  repeat' (first | with_reducible assumption | with_reducible apply stored_gcMoves | simp only [SameStore.mk3, SameStore.mk4] | (intro _) | split)

theorem stored_copyNew {s0 : State} (s : State) (d : BoardDesc) (g stream : Nat) (use : SbUse) (pads : List (Nat × Nat × Nat))
      (hks : SameStore s0 s) : SameStoreK2 s0 (State.copyNew s d g stream use pads) := by
  unfold State.copyNew
  try dsimp only
  repeat' (first | with_reducible assumption | with_reducible refine SameStoreK2.elim (stored_formSb _ _ _ _ _ ?_) ‹_› | with_reducible apply stored_formSb | with_reducible apply SameStoreK2.none | with_reducible apply SameStoreK2.some | simp only [SameStore.mk3, SameStore.mk4] | (intro _) | split)

theorem stored_copySb {s0 : State} (s : State) (d : BoardDesc) (g stream : Nat) (use : SbUse) (n : Nat) (hks : SameStore s0 s)
      : SameStoreK2 s0 (State.copySb s d g stream use n) := by
  unfold State.copySb
  try dsimp only
  repeat' (first | with_reducible assumption | with_reducible apply stored_updSb | with_reducible refine SameStoreK2.elim (stored_copyNew _ _ _ _ _ _ ?_) ‹_› | with_reducible apply stored_copyNew | with_reducible apply SameStoreK2.none | with_reducible apply SameStoreK2.some | simp only [SameStore.mk3, SameStore.mk4] | (intro _) | split)

theorem stored_reserveCopies {s0 : State} (s : State) (d : BoardDesc) (g stream : Nat) (use : SbUse) (items : List (Nat ×
      Piece)) (hks : SameStore s0 s) : SameStoreK4 s0 (State.reserveCopies s d g stream use items) := by
  unfold State.reserveCopies
  try dsimp only
  repeat' (first | with_reducible assumption | with_reducible apply stored_updSb | with_reducible refine SameStoreK2.elim (stored_copySb _ _ _ _ _ _ ?_) ‹_› | with_reducible apply stored_copySb | with_reducible refine SameStoreK4.foldl (fun _ _ _ => ?_) ?_ | with_reducible exact SameStoreK4.fst ‹_› | with_reducible apply SameStoreK4.mk | with_reducible apply SameStore.foldl | simp only [SameStore.mk3, SameStore.mk4] | (intro _) | split)

theorem stored_startMove {s0 : State} (s : State) (d : BoardDesc) (g : Nat) (stream : Nat) (use : SbUse) (cls : Nat) (w :
      Walker) (src : Nat) (items : List (Nat × Piece)) (hks : SameStore s0 s) : SameStore s0 (State.startMove s d g stream use
      cls w src items) := by
  unfold State.startMove
  try dsimp only
  repeat' (first | with_reducible assumption | with_reducible apply stored_queuePages | with_reducible apply SameStoreK4.fst; with_reducible apply stored_reserveCopies | with_reducible refine SameStoreK4.elim (stored_reserveCopies _ _ _ _ _ _ ?_) ‹_› | with_reducible apply stored_reserveCopies | with_reducible apply SameStore.foldl | simp only [SameStore.mk3, SameStore.mk4] | (intro _) | split)

theorem stored_queueCodewords {s0 : State} (s : State) (d : BoardDesc) (key : Nat) (b : Superblock) (cls first n : Nat) (who :
      ReadFor) (hks : SameStore s0 s) : SameStore s0 (State.queueCodewords s d key b cls first n who) := by
  unfold State.queueCodewords
  try dsimp only
  repeat' (first | with_reducible assumption | with_reducible apply stored_queueOp | with_reducible apply SameStore.foldl | simp only [SameStore.mk3, SameStore.mk4] | (intro _) | split)

theorem stored_startCopy {s0 : State} (s : State) (d : BoardDesc) (g stream : Nat) (use : SbUse) (w : Walker) (src : Nat)
      (items : List (Nat × Nat × Piece)) (hks : SameStore s0 s) : SameStore s0 (State.startCopy s d g stream use w src items)
      := by
  unfold State.startCopy
  try dsimp only
  repeat' (first | with_reducible assumption | with_reducible apply stored_eraseIfEmpty | with_reducible apply stored_queueCodewords | with_reducible apply SameStore.foldl | simp only [SameStore.mk3, SameStore.mk4] | (intro _) | split)

theorem stored_copySettled {s0 : State} (s : State) (no : Nat) (hks : SameStore s0 s) : SameStore s0 (State.copySettled s no)
      := by
  unfold State.copySettled
  try dsimp only
  repeat' (first | with_reducible assumption | with_reducible apply stored_eraseIfEmpty | with_reducible apply stored_startMove | simp only [SameStore.mk3, SameStore.mk4] | (intro _) | split)

theorem stored_rewrite {s0 : State} (s : State) (d : BoardDesc) (avoid : List Nat) (r : Rewrite) (hks : SameStore s0 s) :
      SameStore s0 (State.rewrite s d avoid r) := by
  unfold State.rewrite
  try dsimp only
  repeat' (first | with_reducible assumption | with_reducible refine SameStoreK1.elim (stored_placeFrom _ _ _ _ _ _ ?_) ‹_› | with_reducible apply stored_placeFrom | simp only [SameStore.mk3, SameStore.mk4] | (intro _) | split)

theorem stored_retryRewrites {s0 : State} (s : State) (hks : SameStore s0 s) : SameStore s0 (State.retryRewrites s) := by
  unfold State.retryRewrites
  try dsimp only
  repeat' (first | with_reducible assumption | with_reducible apply stored_rewrite | with_reducible apply SameStore.foldl | simp only [SameStore.mk3, SameStore.mk4] | (intro _) | split)

theorem stored_redoMoves {s0 : State} (s : State) (d : BoardDesc) (key : Nat) (b : Superblock) (hks : SameStore s0 s) :
      SameStore s0 (State.redoMoves s d key b) := by
  unfold State.redoMoves
  try dsimp only
  repeat' (first | with_reducible assumption | with_reducible apply stored_startMove | with_reducible apply SameStore.foldl | simp only [SameStore.mk3, SameStore.mk4] | (intro _) | split)

theorem stored_programFailed {s0 : State} (s : State) (d : BoardDesc) (op : FlashOp) (key first n : Nat) (avoid : List Nat)
      (hks : SameStore s0 s) : SameStore s0 (State.programFailed s d op key first n avoid) := by
  unfold State.programFailed
  try dsimp only
  repeat' (first | with_reducible assumption | with_reducible apply stored_updSb | with_reducible apply stored_retireBlock | with_reducible apply stored_rewrite | with_reducible apply stored_redoMoves | with_reducible apply SameStoreK1.getD | simp only [SameStore.mk3, SameStore.mk4] | (intro _) | split)

theorem stored_countReads {s0 : State} (s : State) (key die n : Nat) (hks : SameStore s0 s) : SameStore s0 (State.countReads s
      key die n) := by
  unfold State.countReads
  try dsimp only
  repeat' (first | with_reducible assumption | with_reducible apply stored_updSb | with_reducible apply stored_mediaBits | with_reducible apply SameStoreK1.getD | simp only [SameStore.mk3, SameStore.mk4] | (intro _) | split)

theorem stored_countOps {s0 : State} (s : State) (die n : Nat) (hks : SameStore s0 s) : SameStore s0 (State.countOps s die n)
      := by
  unfold State.countOps
  try dsimp only
  repeat' (first | with_reducible assumption | with_reducible apply stored_updNfc | simp only [SameStore.mk3, SameStore.mk4] | (intro _) | split)

theorem stored_execFlashIssue {s0 : State} (die : Fin 256) (s : State) (hks : SameStore s0 s) : OutSameStore s0 (execFlashIssue
      die s) := by
  unfold execFlashIssue
  try dsimp only
  repeat' (first | with_reducible assumption | with_reducible apply stored_updNfc | with_reducible apply stored_dropOp | with_reducible apply stored_finishErase | with_reducible apply stored_programFailed | with_reducible apply stored_countReads | with_reducible apply stored_countOps | with_reducible apply OutSameStore.next | exact OutSameStore.fault _ | exact OutSameStore.refused _ | with_reducible apply SameStoreK1.getD | simp only [SameStore.mk3, SameStore.mk4] | (intro _) | split)

theorem stored_execEraseResume {s0 : State} (die : Fin 256) (s : State) (hks : SameStore s0 s) : OutSameStore s0
      (execEraseResume die s) := by
  unfold execEraseResume
  try dsimp only
  repeat' (first | with_reducible assumption | with_reducible apply OutSameStore.next | exact OutSameStore.fault _ | exact OutSameStore.refused _ | simp only [SameStore.mk3, SameStore.mk4] | (intro _) | split)

theorem stored_progFail {s0 : State} (s : State) (ch : Nat) (hks : SameStore s0 s) : SameStore s0 (State.progFail s ch) := by
  unfold State.progFail
  try dsimp only
  repeat' (first | with_reducible assumption | with_reducible apply stored_raise | with_reducible apply stored_updNfc | simp only [SameStore.mk3, SameStore.mk4] | (intro _) | split)

theorem stored_execFlashEraseDone {s0 : State} (k : Nat) (pass : Bool) (s : State) (hks : SameStore s0 s) : OutSameStore s0
      (execFlashEraseDone k pass s) := by
  unfold execFlashEraseDone
  try dsimp only
  repeat' (first | with_reducible assumption | with_reducible apply stored_raise | with_reducible apply stored_retireBlock | with_reducible apply stored_dieOutcome | with_reducible apply stored_updNfc | with_reducible apply stored_dropOp | with_reducible apply stored_finishErase | with_reducible apply stored_retryRewrites | with_reducible apply OutSameStore.next | exact OutSameStore.fault _ | exact OutSameStore.refused _ | with_reducible apply SameStoreK1.getD | simp only [SameStore.mk3, SameStore.mk4] | (intro _) | split)

theorem stored_countRung {s0 : State} (s : State) (r : Nat) (hks : SameStore s0 s) : SameStore s0 (State.countRung s r) := by
  unfold State.countRung
  try dsimp only
  repeat' (first | with_reducible assumption | with_reducible apply SameStoreK1.getD | simp only [SameStore.mk3, SameStore.mk4] | (intro _) | split)

theorem stored_listSb {s0 : State} (s : State) (key : Nat) (hks : SameStore s0 s) : SameStore s0 (State.listSb s key) := by
  unfold State.listSb
  try dsimp only
  repeat' (first | with_reducible assumption | with_reducible apply stored_updSb | simp only [SameStore.mk3, SameStore.mk4] | (intro _) | split)

theorem stored_failBlock {s0 : State} (s : State) (tag : Tag) (block : Nat) (hks : SameStore s0 s) : SameStore s0
      (State.failBlock s tag block) := by
  unfold State.failBlock
  try dsimp only
  repeat' (first | with_reducible assumption | with_reducible apply stored_updCmd | simp only [SameStore.mk3, SameStore.mk4] | (intro _) | split)

theorem stored_scrubSettled {s0 : State} (s : State) (key : Nat) (hks : SameStore s0 s) : SameStore s0 (State.scrubSettled s
      key) := by
  unfold State.scrubSettled
  try dsimp only
  repeat' (first | with_reducible assumption | with_reducible apply stored_updSb | simp only [SameStore.mk3, SameStore.mk4] | (intro _) | split)

theorem stored_toSoft {s0 : State} (s : State) (k : Nat) (op : FlashOp) (hks : SameStore s0 s) : SameStore s0 (State.toSoft s
      k op) := by
  unfold State.toSoft
  try dsimp only
  repeat' (first | with_reducible assumption | with_reducible apply stored_countReads | with_reducible apply stored_countOps | simp only [SameStore.mk3, SameStore.mk4] | (intro _) | split)

theorem stored_rebuildReads {s0 : State} (s : State) (key die : Nat) (hks : SameStore s0 s) : SameStore s0 (State.rebuildReads
      s key die) := by
  unfold State.rebuildReads
  try dsimp only
  repeat' (first | with_reducible assumption | with_reducible apply stored_countReads | with_reducible apply stored_countOps | with_reducible apply SameStore.foldl | simp only [SameStore.mk3, SameStore.mk4] | (intro _) | split)

theorem stored_execMapJournalWrite {s0 : State} (s : State) (hks : SameStore s0 s) : OutSameStore s0 (execMapJournalWrite s)
      := by
  unfold execMapJournalWrite
  try dsimp only
  repeat' (first | with_reducible assumption | with_reducible apply OutSameStore.next | exact OutSameStore.fault _ | exact OutSameStore.refused _ | simp only [SameStore.mk3, SameStore.mk4] | (intro _) | split)

theorem stored_execMapLineRequest {s0 : State} (line : Nat) (ws : List Walker) (s : State) (hks : SameStore s0 s) :
      OutSameStore s0 (execMapLineRequest line ws s) := by
  unfold execMapLineRequest
  try dsimp only
  repeat' (first | with_reducible assumption | with_reducible apply stored_lineRequest | with_reducible apply OutSameStore.next | exact OutSameStore.fault _ | exact OutSameStore.refused _ | with_reducible apply SameStore.foldl | simp only [SameStore.mk3, SameStore.mk4] | (intro _) | split)

theorem stored_execMapLineRecall {s0 : State} (line : Nat) (s : State) (hks : SameStore s0 s) : OutSameStore s0
      (execMapLineRecall line s) := by
  unfold execMapLineRecall
  try dsimp only
  repeat' (first | with_reducible assumption | with_reducible apply OutSameStore.next | exact OutSameStore.fault _ | exact OutSameStore.refused _ | simp only [SameStore.mk3, SameStore.mk4] | (intro _) | split)

theorem stored_execWritebackDone {s0 : State} (line : Nat) (s : State) (hks : SameStore s0 s) : OutSameStore s0
      (execWritebackDone line s) := by
  unfold execWritebackDone
  try dsimp only
  repeat' (first | with_reducible assumption | with_reducible apply stored_grant | with_reducible apply stored_gcMoves | with_reducible apply OutSameStore.next | exact OutSameStore.fault _ | exact OutSameStore.refused _ | simp only [SameStore.mk3, SameStore.mk4] | (intro _) | split)

theorem stored_formSystem {s0 : State} (s : State) (d : BoardDesc) (rs : List TargetResult) (hks : SameStore s0 s) : SameStore
      s0 (State.formSystem s d rs) := by
  unfold State.formSystem
  try dsimp only
  repeat' (first | with_reducible assumption | with_reducible apply stored_formSysSb | with_reducible apply stored_retireBlock | with_reducible apply SameStore.foldl | simp only [SameStore.mk3, SameStore.mk4] | (intro _) | split)

theorem stored_nandPassed {s0 : State} (s : State) (d : BoardDesc) (rs : List TargetResult) (hks : SameStore s0 s) : SameStore
      s0 (State.nandPassed s d rs) := by
  unfold State.nandPassed
  try dsimp only
  repeat' (first | with_reducible assumption | with_reducible apply stored_raise | with_reducible apply stored_record | with_reducible apply stored_judgeReadOnly | with_reducible apply stored_failDie | with_reducible apply stored_formSystem | with_reducible apply SameStoreK1.getD | with_reducible apply SameStore.foldl | simp only [SameStore.mk3, SameStore.mk4] | (intro _) | split)

theorem stored_execFoldMapUpdate {s0 : State} (s : State) (hks : SameStore s0 s) : OutSameStore s0 (execFoldMapUpdate s) := by
  unfold execFoldMapUpdate
  try dsimp only
  repeat' (first | with_reducible assumption | with_reducible apply stored_applyMove | with_reducible apply OutSameStore.next | exact OutSameStore.fault _ | exact OutSameStore.refused _ | simp only [SameStore.mk3, SameStore.mk4] | (intro _) | split)

theorem stored_execScrub {s0 : State} (key : Nat) (s : State) (hks : SameStore s0 s) : OutSameStore s0 (execScrub key s) := by
  unfold execScrub
  try dsimp only
  repeat' (first | with_reducible assumption | with_reducible apply stored_updSb | with_reducible apply stored_queueCodewords | with_reducible apply OutSameStore.next | exact OutSameStore.fault _ | exact OutSameStore.refused _ | simp only [SameStore.mk3, SameStore.mk4] | (intro _) | split)

theorem stored_ageMedia {s0 : State} (s : State) (ms : Nat) (hks : SameStore s0 s) : SameStore s0 (State.ageMedia s ms) := by
  unfold State.ageMedia
  try dsimp only
  repeat' (first | with_reducible assumption | with_reducible apply stored_mediaBits | simp only [SameStore.mk3, SameStore.mk4] | (intro _) | split)

theorem stored_updQp {s0 : State} (s : State) (t : Tid) (q : Qid) (f : Qp → Qp) (hks : SameStore s0 s) : SameStore s0
      (State.updQp s t q f) := by
  unfold State.updQp
  try dsimp only
  repeat' (first | with_reducible assumption | with_reducible apply stored_updTnt | simp only [SameStore.mk3, SameStore.mk4] | (intro _) | split)

theorem stored_hostTouch {s0 : State} (s : State) (hks : SameStore s0 s) : SameStore s0 (State.hostTouch s) := by
  unfold State.hostTouch
  try dsimp only
  repeat' (first | with_reducible assumption | simp only [SameStore.mk3, SameStore.mk4] | (intro _) | split)

theorem stored_doorbellErr {s0 : State} (s : State) (t : Tid) (cause : Byte) (addr : Word) (hks : SameStore s0 s) : SameStore
      s0 (State.doorbellErr s t cause addr) := by
  unfold State.doorbellErr
  try dsimp only
  repeat' (first | with_reducible assumption | with_reducible apply stored_raise | with_reducible apply stored_raiseTnt | with_reducible apply stored_countErr | simp only [SameStore.mk3, SameStore.mk4] | (intro _) | split)

theorem stored_doorbell {s0 : State} (s : State) (v : DbView) (t : Tid) (q : Qid) (head : Bool) (val addr : Word) (hks :
      SameStore s0 s) : SameStore s0 (State.doorbell s v t q head val addr) := by
  unfold State.doorbell
  try dsimp only
  repeat' (first | with_reducible assumption | with_reducible apply stored_countErr | with_reducible apply stored_updQp | with_reducible apply stored_doorbellErr | simp only [SameStore.mk3, SameStore.mk4] | (intro _) | split)

theorem stored_execSubmissionTailDoorbell {s0 : State} (v : DbView) (q : Qid) (be : BitVec 4) (val : Word) (s : State) (hks :
      SameStore s0 s) : OutSameStore s0 (execSubmissionTailDoorbell v q be val s) := by
  unfold execSubmissionTailDoorbell
  try dsimp only
  repeat' (first | with_reducible assumption | with_reducible apply stored_countErr | with_reducible apply stored_hostTouch | with_reducible apply stored_doorbell | with_reducible apply OutSameStore.next | exact OutSameStore.fault _ | exact OutSameStore.refused _ | simp only [SameStore.mk3, SameStore.mk4] | (intro _) | split)

theorem stored_execCompletionHeadDoorbell {s0 : State} (v : DbView) (q : Qid) (be : BitVec 4) (val : Word) (s : State) (hks :
      SameStore s0 s) : OutSameStore s0 (execCompletionHeadDoorbell v q be val s) := by
  unfold execCompletionHeadDoorbell
  try dsimp only
  repeat' (first | with_reducible assumption | with_reducible apply stored_countErr | with_reducible apply stored_hostTouch | with_reducible apply stored_doorbell | with_reducible apply OutSameStore.next | exact OutSameStore.fault _ | exact OutSameStore.refused _ | simp only [SameStore.mk3, SameStore.mk4] | (intro _) | split)

theorem stored_sendData {s0 : State} (s : State) (c : Cmd) (off : Nat) (b : List Byte) (ep : Bool) (hks : SameStore s0 s) :
      SameStore s0 (State.sendData s c off b ep) := by
  unfold State.sendData
  try dsimp only
  repeat' (first | with_reducible assumption | with_reducible apply stored_emit | with_reducible apply SameStore.foldl | simp only [SameStore.mk3, SameStore.mk4] | (intro _) | split)

theorem stored_sendPlain {s0 : State} (s : State) (c : Cmd) (addr : DWord) (b : List Byte) (hks : SameStore s0 s) : SameStore
      s0 (State.sendPlain s c addr b) := by
  unfold State.sendPlain
  try dsimp only
  repeat' (first | with_reducible assumption | with_reducible apply stored_emit | simp only [SameStore.mk3, SameStore.mk4] | (intro _) | split)

theorem stored_readHost {s0 : State} (s : State) (c : Cmd) (hks : SameStore s0 s) : SameStore s0 (State.readHost s c) := by
  unfold State.readHost
  try dsimp only
  repeat' (first | with_reducible assumption | with_reducible apply stored_emit | with_reducible apply SameStore.foldl | simp only [SameStore.mk3, SameStore.mk4] | (intro _) | split)

theorem stored_startReads {s0 : State} (s : State) (c : Cmd) (hks : SameStore s0 s) : SameStore s0 (State.startReads s c) := by
  unfold State.startReads
  try dsimp only
  repeat' (first | with_reducible assumption | with_reducible apply stored_emit | with_reducible apply stored_readHost | simp only [SameStore.mk3, SameStore.mk4] | (intro _) | split)

theorem stored_finish {s0 : State} (s : State) (tag : Tag) (st : Byte) (rc : Byte) (result : DWord) (hks : SameStore s0 s) :
      SameStore s0 (State.finish s tag st rc result) := by
  unfold State.finish
  try dsimp only
  repeat' (first | with_reducible assumption | with_reducible apply stored_updCmd | simp only [SameStore.mk3, SameStore.mk4] | (intro _) | split)

theorem stored_fetchOne {s0 : State} (s : State) (t : Tid) (q : Qid) (f : FetchedDesc) (hks : SameStore s0 s) : SameStore s0
      (State.fetchOne s t q f) := by
  unfold State.fetchOne
  try dsimp only
  repeat' (first | with_reducible assumption | with_reducible apply stored_emit | with_reducible apply stored_poisonReceived | with_reducible apply stored_updQp | with_reducible apply stored_startReads | simp only [SameStore.mk3, SameStore.mk4] | (intro _) | split)

theorem stored_fetchTurn {s0 : State} (s : State) (t : Tid) (q : Qid) (n : Nat) (l : List FetchedDesc) (hks : SameStore s0 s) :
    SameStore s0 (State.fetchTurn s t q n l) := by
  induction n generalizing s l with
  | zero => simp only [State.fetchTurn]; exact hks
  | succ n ih =>
    cases l with
    | nil => simp only [State.fetchTurn]; exact hks
    | cons f r =>
      simp only [State.fetchTurn]
      split
      · exact ih _ _ (stored_fetchOne _ _ _ _ hks)
      · exact hks

theorem stored_execDescriptorFetch {s0 : State} (ds : List FetchedDesc) (s : State) (hks : SameStore s0 s) : OutSameStore s0
      (execDescriptorFetch ds s) := by
  unfold execDescriptorFetch
  try dsimp only
  repeat' (first | with_reducible assumption | with_reducible apply stored_updTnt | with_reducible apply stored_fetchTurn | with_reducible apply OutSameStore.next | exact OutSameStore.fault _ | exact OutSameStore.refused _ | simp only [SameStore.mk3, SameStore.mk4] | (intro _) | split)

theorem stored_execHostReadCompletion {s0 : State} (tag : Tag) (buf : HostBuf) (off : Nat) (b : List Byte) (ep : Bool) (s :
      State) (hks : SameStore s0 s) : OutSameStore s0 (execHostReadCompletion tag buf off b ep s) := by
  unfold execHostReadCompletion
  try dsimp only
  repeat' (first | with_reducible assumption | with_reducible apply stored_emit | with_reducible apply stored_poisonReceived | with_reducible apply stored_updCmd | with_reducible apply stored_readHost | with_reducible apply stored_finish | with_reducible apply OutSameStore.next | exact OutSameStore.fault _ | exact OutSameStore.refused _ | simp only [SameStore.mk3, SameStore.mk4] | (intro _) | split)

theorem stored_timedOut {s0 : State} (s : State) (fn : Fn) (hks : SameStore s0 s) : SameStore s0 (State.timedOut s fn) := by
  unfold State.timedOut
  try dsimp only
  repeat' (first | with_reducible assumption | with_reducible apply stored_raise | with_reducible apply stored_aerAdvisory | simp only [SameStore.mk3, SameStore.mk4] | (intro _) | split)

theorem stored_staleTimeout {s0 : State} (s : State) (rtag : Nat) (hks : SameStore s0 s) : SameStore s0 (State.staleTimeout s
      rtag) := by
  unfold State.staleTimeout
  try dsimp only
  repeat' (first | with_reducible assumption | with_reducible apply stored_timedOut | simp only [SameStore.mk3, SameStore.mk4] | (intro _) | split)

theorem stored_execCompletionTimeout {s0 : State} (tag : Tag) (why : ReadFailure) (s : State) (hks : SameStore s0 s) :
      OutSameStore s0 (execCompletionTimeout tag why s) := by
  unfold execCompletionTimeout
  try dsimp only
  repeat' (first | with_reducible assumption | with_reducible apply stored_updCmd | with_reducible apply stored_finish | with_reducible apply stored_timedOut | with_reducible apply stored_staleTimeout | with_reducible apply OutSameStore.next | exact OutSameStore.fault _ | exact OutSameStore.refused _ | simp only [SameStore.mk3, SameStore.mk4] | (intro _) | split)

theorem stored_runOp {s0 : State} (s : State) (tag : Tag) (opc : Nat) (p : Desc → Bool) (f : Cmd → State) (hf : ∀ v0, SameStore
      s0 (f v0)) (hks : SameStore s0 s) : SameStore s0 (State.runOp s tag opc p f) := by
  unfold State.runOp
  try dsimp only
  repeat' (first | with_reducible assumption | with_reducible apply stored_finish | with_reducible apply hf | simp only [SameStore.mk3, SameStore.mk4] | (intro _) | split)

theorem stored_updPipe {s0 : State} (s : State) (p : Pipe) (f : PipeS → PipeS) (hks : SameStore s0 s) : SameStore s0
      (State.updPipe s p f) := by
  unfold State.updPipe
  try dsimp only
  repeat' (first | with_reducible assumption | simp only [SameStore.mk3, SameStore.mk4] | (intro _) | split)

theorem stored_enterPipe {s0 : State} (s : State) (p : Pipe) (t : Tid) (epoch : Byte) (tag : Tag) (n : Nat) (hks : SameStore
      s0 s) : SameStore s0 (State.enterPipe s p t epoch tag n) := by
  unfold State.enterPipe
  try dsimp only
  repeat' (first | with_reducible assumption | with_reducible apply stored_updPipe | with_reducible apply SameStore.foldl | simp only [SameStore.mk3, SameStore.mk4] | (intro _) | split)

theorem stored_leavePipe {s0 : State} (s : State) (p : Pipe) (tag : Tag) (hks : SameStore s0 s) : SameStore s0 (State.leavePipe
      s p tag) := by
  unfold State.leavePipe
  try dsimp only
  repeat' (first | with_reducible assumption | with_reducible apply stored_updPipe | simp only [SameStore.mk3, SameStore.mk4] | (intro _) | split)

theorem stored_drawMasks {s0 : State} (s : State) (p : Pipe) (n : Nat) (hks : SameStore s0 s) : SameStoreK1 s0 (State.drawMasks
      s p n) := by
  unfold State.drawMasks
  try dsimp only
  repeat' (first | with_reducible assumption | with_reducible apply SameStoreK1.none | with_reducible apply SameStoreK1.some | simp only [SameStore.mk3, SameStore.mk4] | (intro _) | split)

theorem stored_maskStall {s0 : State} (s : State) (p : Pipe) (tag : Tag) (hks : SameStore s0 s) : SameStore s0
      (State.maskStall s p tag) := by
  unfold State.maskStall
  try dsimp only
  repeat' (first | with_reducible assumption | with_reducible apply stored_updCmd | with_reducible apply stored_updPipe | simp only [SameStore.mk3, SameStore.mk4] | (intro _) | split)

theorem stored_fenceLinks {s0 : State} (s : State) (p : Pipe) (hks : SameStore s0 s) : SameStore s0 (State.fenceLinks s p) := by
  unfold State.fenceLinks
  try dsimp only
  repeat' (first | with_reducible assumption | with_reducible apply stored_linksDown | with_reducible apply stored_mirLeave | simp only [SameStore.mk3, SameStore.mk4] | (intro _) | split)

theorem stored_remask {s0 : State} (s : State) (p : Pipe) (n : Nat) (hks : SameStore s0 s) : SameStore s0 (State.remask s p n)
      := by
  unfold State.remask
  try dsimp only
  repeat' (first | with_reducible assumption | with_reducible apply stored_updPipe | with_reducible refine SameStoreK1.elim (stored_drawMasks _ _ _ ?_) ‹_› | with_reducible apply stored_drawMasks | simp only [SameStore.mk3, SameStore.mk4] | (intro _) | split)

theorem stored_drbg {s0 : State} (s : State) (hks : SameStore s0 s) : SameStoreK2 s0 (State.drbg s) := by
  unfold State.drbg
  try dsimp only
  repeat' (first | with_reducible assumption | with_reducible apply stored_drawn | with_reducible apply SameStoreK2.none | with_reducible apply SameStoreK2.some | with_reducible apply SameStoreK2.findSome | simp only [SameStore.mk3, SameStore.mk4] | (intro _) | split)

theorem stored_endStall {s0 : State} (s : State) (p : Pipe) (hks : SameStore s0 s) : SameStore s0 (State.endStall s p) := by
  unfold State.endStall
  try dsimp only
  repeat' (first | with_reducible assumption | with_reducible apply stored_raise | with_reducible apply stored_updPipe | simp only [SameStore.mk3, SameStore.mk4] | (intro _) | split)

theorem stored_execLaneReseed {s0 : State} (lane : Fin 112) (s : State) (hks : SameStore s0 s) : OutSameStore s0
      (execLaneReseed lane s) := by
  unfold execLaneReseed
  try dsimp only
  repeat' (first | with_reducible assumption | with_reducible apply stored_endStall | with_reducible apply stored_updPipe | with_reducible refine SameStoreK2.elim (stored_drbg _ ?_) ‹_› | with_reducible apply stored_drbg | with_reducible apply OutSameStore.next | exact OutSameStore.fault _ | exact OutSameStore.refused _ | simp only [SameStore.mk3, SameStore.mk4] | (intro _) | split)

theorem stored_execDrbgReseed {s0 : State} (s : State) (hks : SameStore s0 s) : OutSameStore s0 (execDrbgReseed s) := by
  unfold execDrbgReseed
  try dsimp only
  repeat' (first | with_reducible assumption | with_reducible refine SameStoreK2.elim (stored_drbg _ ?_) ‹_› | with_reducible apply stored_drbg | with_reducible apply OutSameStore.next | exact OutSameStore.fault _ | exact OutSameStore.refused _ | simp only [SameStore.mk3, SameStore.mk4] | (intro _) | split)

theorem stored_execHealthTestFailure {s0 : State} (test : HealthTest) (s : State) (hks : SameStore s0 s) : OutSameStore s0
      (execHealthTestFailure test s) := by
  unfold execHealthTestFailure
  try dsimp only
  repeat' (first | with_reducible assumption | with_reducible apply stored_raise | with_reducible apply stored_raiseRec | with_reducible refine SameStoreK2.elim (stored_drbg _ ?_) ‹_› | with_reducible apply stored_drbg | with_reducible apply OutSameStore.next | exact OutSameStore.fault _ | exact OutSameStore.refused _ | simp only [SameStore.mk3, SameStore.mk4] | (intro _) | split)

theorem stored_zeroise {s0 : State} (s : State) (t : Tid) (hks : SameStore s0 s) : SameStore s0 (State.zeroise s t) := by
  unfold State.zeroise
  try dsimp only
  repeat' (first | with_reducible assumption | with_reducible apply stored_updTnt | simp only [SameStore.mk3, SameStore.mk4] | (intro _) | split)

theorem stored_zeroiseAll {s0 : State} (s : State) (hks : SameStore s0 s) : SameStore s0 (State.zeroiseAll s) := by
  unfold State.zeroiseAll
  try dsimp only
  repeat' (first | with_reducible assumption | simp only [SameStore.mk3, SameStore.mk4] | (intro _) | split)

theorem stored_loadKey {s0 : State} (s : State) (t : Tid) (a0 : Unwrapped) (hks : SameStore s0 s) : SameStore s0 (State.loadKey
      s t a0) := by
  unfold State.loadKey
  try dsimp only
  repeat' (first | with_reducible assumption | with_reducible apply stored_updTnt | simp only [SameStore.mk3, SameStore.mk4] | (intro _) | split)

theorem stored_reloadKeys {s0 : State} (s : State) (t : Tid) (hks : SameStore s0 s) : SameStore s0 (State.reloadKeys s t) := by
  unfold State.reloadKeys
  try dsimp only
  repeat' (first | with_reducible assumption | with_reducible apply stored_loadKey | simp only [SameStore.mk3, SameStore.mk4] | (intro _) | split)

theorem stored_queueKey {s0 : State} (s : State) (t : Tid) (tag : Tag) (k : KeyChange) (hks : SameStore s0 s) : SameStore s0
      (State.queueKey s t tag k) := by
  unfold State.queueKey
  try dsimp only
  repeat' (first | with_reducible assumption | with_reducible apply stored_updTnt | with_reducible apply stored_updCmd | simp only [SameStore.mk3, SameStore.mk4] | (intro _) | split)

theorem stored_execKeyLoad {s0 : State} (tag : Tag) (s : State) (hks : SameStore s0 s) : OutSameStore s0 (execKeyLoad tag s)
      := by
  unfold execKeyLoad
  try dsimp only
  repeat' (first | with_reducible assumption | with_reducible apply stored_raise | with_reducible apply stored_finish | with_reducible apply stored_runOp | with_reducible refine SameStoreK1.elim (stored_drawMasks _ _ _ ?_) ‹_› | with_reducible apply stored_drawMasks | with_reducible apply stored_maskStall | with_reducible apply stored_queueKey | with_reducible apply OutSameStore.next | exact OutSameStore.fault _ | exact OutSameStore.refused _ | with_reducible apply SameStoreK1.getD | simp only [SameStore.mk3, SameStore.mk4] | (intro _) | split)

theorem stored_execKeyClear {s0 : State} (tag : Tag) (s : State) (hks : SameStore s0 s) : OutSameStore s0 (execKeyClear tag s)
      := by
  unfold execKeyClear
  try dsimp only
  repeat' (first | with_reducible assumption | with_reducible apply stored_runOp | with_reducible apply stored_queueKey | with_reducible apply OutSameStore.next | exact OutSameStore.fault _ | exact OutSameStore.refused _ | simp only [SameStore.mk3, SameStore.mk4] | (intro _) | split)

theorem stored_countDirty {s0 : State} (s : State) (hs : List Nat) (hks : SameStore s0 s) : SameStore s0 (State.countDirty s
      hs) := by
  unfold State.countDirty
  try dsimp only
  repeat' (first | with_reducible assumption | with_reducible apply stored_updBufs | simp only [SameStore.mk3, SameStore.mk4] | (intro _) | split)

theorem stored_execWrite {s0 : State} (tag : Tag) (s : State) (hks : SameStore s0 s) : OutSameStore s0 (execWrite tag s) := by
  unfold execWrite
  try dsimp only
  repeat' (first | with_reducible assumption | with_reducible apply stored_updCmd | with_reducible apply stored_pause | with_reducible refine SameStoreK2.elim (stored_allocAll _ _ _ ?_) ‹_› | with_reducible apply stored_allocAll | with_reducible apply stored_finish | with_reducible apply stored_runOp | with_reducible apply stored_enterPipe | with_reducible refine SameStoreK1.elim (stored_drawMasks _ _ _ ?_) ‹_› | with_reducible apply stored_drawMasks | with_reducible apply stored_maskStall | with_reducible apply OutSameStore.next | exact OutSameStore.fault _ | exact OutSameStore.refused _ | simp only [SameStore.mk3, SameStore.mk4] | (intro _) | split)

theorem stored_placeAppend {s0 : State} (s : State) (d : BoardDesc) (tag : Tag) (c : Cmd) (hks : SameStore s0 s) : SameStore s0
      (State.placeAppend s d tag c) := by
  unfold State.placeAppend
  try dsimp only
  repeat' (first | with_reducible assumption | with_reducible apply stored_updCmd | with_reducible apply stored_updBuf | with_reducible refine SameStoreK1.elim (stored_placeIn _ _ _ _ _ ?_) ‹_› | with_reducible apply stored_placeIn | with_reducible apply stored_journalLag | with_reducible apply SameStore.foldl | simp only [SameStore.mk3, SameStore.mk4] | (intro _) | split)

theorem stored_queueReads {s0 : State} (s : State) (d : BoardDesc) (tag : Tag) (items : List (Nat × (Piece → Option Nat))) (hks
      : SameStore s0 s) : SameStore s0 (State.queueReads s d tag items) := by
  unfold State.queueReads
  try dsimp only
  repeat' (first | with_reducible assumption | with_reducible apply stored_queueOp | with_reducible apply SameStore.foldl | simp only [SameStore.mk3, SameStore.mk4] | (intro _) | split)

theorem stored_startRead {s0 : State} (s : State) (tag : Tag) (c : Cmd) (p : Pipe) (n : Nat) (m : Nat) (reads : List (Nat ×
      (Piece →
      Option Nat))) (hks : SameStore s0 s) : SameStore s0 (State.startRead s tag c p n m reads) := by
  unfold State.startRead
  try dsimp only
  repeat' (first | with_reducible assumption | with_reducible apply stored_updCmd | with_reducible apply stored_pause | with_reducible refine SameStoreK2.elim (stored_allocAll _ _ _ ?_) ‹_› | with_reducible apply stored_allocAll | with_reducible apply stored_enterPipe | with_reducible refine SameStoreK1.elim (stored_drawMasks _ _ _ ?_) ‹_› | with_reducible apply stored_drawMasks | with_reducible apply stored_maskStall | with_reducible apply stored_queueReads | simp only [SameStore.mk3, SameStore.mk4] | (intro _) | split)

theorem stored_beginRead {s0 : State} (s : State) (tag : Tag) (c : Cmd) (hks : SameStore s0 s) : SameStore s0 (State.beginRead
      s tag c) := by
  unfold State.beginRead
  try dsimp only
  repeat' (first | with_reducible assumption | with_reducible apply stored_finish | with_reducible apply stored_startRead | simp only [SameStore.mk3, SameStore.mk4] | (intro _) | split)

theorem stored_execRead {s0 : State} (tag : Tag) (s : State) (hks : SameStore s0 s) : OutSameStore s0 (execRead tag s) := by
  unfold execRead
  try dsimp only
  repeat' (first | with_reducible assumption | with_reducible apply stored_runOp | with_reducible apply stored_beginRead | with_reducible apply OutSameStore.next | exact OutSameStore.fault _ | exact OutSameStore.refused _ | simp only [SameStore.mk3, SameStore.mk4] | (intro _) | split)

theorem stored_execVerify {s0 : State} (tag : Tag) (s : State) (hks : SameStore s0 s) : OutSameStore s0 (execVerify tag s) := by
  unfold execVerify
  try dsimp only
  repeat' (first | with_reducible assumption | with_reducible apply stored_finish | with_reducible apply stored_runOp | with_reducible apply stored_beginRead | with_reducible apply OutSameStore.next | exact OutSameStore.fault _ | exact OutSameStore.refused _ | simp only [SameStore.mk3, SameStore.mk4] | (intro _) | split)

theorem stored_sendAppends {s0 : State} (s : State) (c : Cmd) (z : Zone) (id : Nat) (key : Hash × Word) (base i : Nat) (l :
      List AppRec)
    (hks : SameStore s0 s) : SameStoreK4 s0 (State.sendAppends s c z id key base i l) := by
  induction l generalizing s i with
  | nil => exact ⟨hks⟩
  | cons e r ih =>
    unfold State.sendAppends
    dsimp only
    split
    · exact ⟨hks⟩
    · refine ⟨(ih _ _ ?_).fst⟩
      repeat' (first | with_reducible assumption | with_reducible apply stored_sendPlain | with_reducible apply stored_sendData | split)

theorem stored_endRead {s0 : State} (s : State) (tag : Tag) (c : Cmd) (hks : SameStore s0 s) : SameStore s0 (State.endRead s
      tag c) := by
  unfold State.endRead
  try dsimp only
  repeat' (first | with_reducible assumption | with_reducible apply stored_updCmd | with_reducible apply stored_freeBufs | with_reducible apply stored_sendData | with_reducible apply stored_finish | with_reducible apply stored_leavePipe | with_reducible apply SameStoreK4.fst; with_reducible apply stored_sendAppends | with_reducible refine SameStoreK4.elim (stored_sendAppends _ _ _ _ _ _ _ _ ?_) ‹_› | with_reducible apply stored_sendAppends | with_reducible apply SameStore.foldl | simp only [SameStore.mk3, SameStore.mk4] | (intro _) | split)

theorem stored_execFlush {s0 : State} (tag : Tag) (s : State) (hks : SameStore s0 s) : OutSameStore s0 (execFlush tag s) := by
  unfold execFlush
  try dsimp only
  repeat' (first | with_reducible assumption | with_reducible apply stored_updCmd | with_reducible apply stored_runOp | with_reducible apply OutSameStore.next | exact OutSameStore.fault _ | exact OutSameStore.refused _ | simp only [SameStore.mk3, SameStore.mk4] | (intro _) | split)

theorem stored_removeDrained {s0 : State} (s : State) (t : Tid) (q : Qid) (hks : SameStore s0 s) : SameStore s0
      (State.removeDrained s t q) := by
  unfold State.removeDrained
  try dsimp only
  repeat' (first | with_reducible assumption | with_reducible apply stored_updInta | with_reducible apply stored_updQp | simp only [SameStore.mk3, SameStore.mk4] | (intro _) | split)

theorem stored_freeTagOf {s0 : State} (s : State) (tag : Tag) (hks : SameStore s0 s) : SameStore s0 (State.freeTagOf s tag) :=
      by
  unfold State.freeTagOf
  try dsimp only
  repeat' (first | with_reducible assumption | simp only [SameStore.mk3, SameStore.mk4] | (intro _) | split)

theorem stored_dropEntries {s0 : State} (s : State) (fn : Fn) (n : Nat) (hks : SameStore s0 s) : SameStore s0
      (State.dropEntries s fn n) := by
  unfold State.dropEntries
  try dsimp only
  repeat' (first | with_reducible assumption | simp only [SameStore.mk3, SameStore.mk4] | (intro _) | split)

theorem stored_writeEntry {s0 : State} (s : State) (tag : Tag) (c : Cmd) (st : Byte) (rc : Byte) (r : DWord) (marked : Bool)
      (hks : SameStore s0 s) : SameStore s0 (State.writeEntry s tag c st rc r marked) := by
  unfold State.writeEntry
  try dsimp only
  repeat' (first | with_reducible assumption | with_reducible apply stored_emit | with_reducible apply stored_raiseTnt | with_reducible apply stored_updQp | with_reducible apply stored_removeDrained | with_reducible apply stored_freeTagOf | with_reducible apply stored_dropEntries | simp only [SameStore.mk3, SameStore.mk4] | (intro _) | split)

theorem stored_badState {s0 : State} (s : State) (tag : Tag) (z : Zone) (hks : SameStore s0 s) : SameStore s0 (State.badState s
      tag z) := by
  unfold State.badState
  try dsimp only
  repeat' (first | with_reducible assumption | with_reducible apply stored_finish | simp only [SameStore.mk3, SameStore.mk4] | (intro _) | split)

theorem stored_execZoneReport {s0 : State} (tag : Tag) (s : State) (hks : SameStore s0 s) : OutSameStore s0 (execZoneReport tag
      s) := by
  unfold execZoneReport
  try dsimp only
  repeat' (first | with_reducible assumption | with_reducible apply stored_sendData | with_reducible apply stored_finish | with_reducible apply stored_runOp | with_reducible apply OutSameStore.next | exact OutSameStore.fault _ | exact OutSameStore.refused _ | simp only [SameStore.mk3, SameStore.mk4] | (intro _) | split)

theorem stored_execSealExportSealRecord {s0 : State} (tag : Tag) (s : State) (hks : SameStore s0 s) : OutSameStore s0
      (execSealExportSealRecord tag s) := by
  unfold execSealExportSealRecord
  try dsimp only
  repeat' (first | with_reducible assumption | with_reducible apply stored_sendData | with_reducible apply stored_finish | with_reducible apply stored_runOp | with_reducible apply OutSameStore.next | exact OutSameStore.fault _ | exact OutSameStore.refused _ | simp only [SameStore.mk3, SameStore.mk4] | (intro _) | split)

theorem stored_execSealExportZoneEntries {s0 : State} (tag : Tag) (s : State) (hks : SameStore s0 s) : OutSameStore s0
      (execSealExportZoneEntries tag s) := by
  unfold execSealExportZoneEntries
  try dsimp only
  repeat' (first | with_reducible assumption | with_reducible apply stored_sendData | with_reducible apply stored_finish | with_reducible apply stored_runOp | with_reducible apply OutSameStore.next | exact OutSameStore.fault _ | exact OutSameStore.refused _ | simp only [SameStore.mk3, SameStore.mk4] | (intro _) | split)

theorem stored_execSealExportChain {s0 : State} (tag : Tag) (s : State) (hks : SameStore s0 s) : OutSameStore s0
      (execSealExportChain tag s) := by
  unfold execSealExportChain
  try dsimp only
  repeat' (first | with_reducible assumption | with_reducible apply stored_sendData | with_reducible apply stored_finish | with_reducible apply stored_runOp | with_reducible apply OutSameStore.next | exact OutSameStore.fault _ | exact OutSameStore.refused _ | simp only [SameStore.mk3, SameStore.mk4] | (intro _) | split)

theorem stored_dropChallenge {s0 : State} (s : State) (hks : SameStore s0 s) : SameStore s0 (State.dropChallenge s) := by
  unfold State.dropChallenge
  try dsimp only
  repeat' (first | with_reducible assumption | simp only [SameStore.mk3, SameStore.mk4] | (intro _) | split)

theorem stored_ownerSigned {s0 : State} (s : State) (tag : Tag) (op : Byte) (arg : List Byte) (sig : List Byte) (act : State →
      State) (hact : ∀ v0, SameStore s0 v0 → SameStore s0 (act v0)) (hks : SameStore s0 s) : SameStore s0 (State.ownerSigned s
      tag op arg sig act) := by
  unfold State.ownerSigned
  try dsimp only
  repeat' (first | with_reducible assumption | with_reducible apply stored_raise | with_reducible apply stored_finish | with_reducible apply stored_dropChallenge | with_reducible apply hact | simp only [SameStore.mk3, SameStore.mk4] | (intro _) | split)

theorem stored_eraseZoneBlocks {s0 : State} (s : State) (id : Nat) (hks : SameStore s0 s) : SameStore s0 (State.eraseZoneBlocks
      s id) := by
  unfold State.eraseZoneBlocks
  try dsimp only
  repeat' (first | with_reducible assumption | with_reducible apply stored_eraseIfEmpty | with_reducible apply SameStore.foldl | simp only [SameStore.mk3, SameStore.mk4] | (intro _) | split)

theorem stored_execIdentify {s0 : State} (tag : Tag) (s : State) (hks : SameStore s0 s) : OutSameStore s0 (execIdentify tag s)
      := by
  unfold execIdentify
  try dsimp only
  repeat' (first | with_reducible assumption | with_reducible apply stored_sendData | with_reducible apply stored_finish | with_reducible apply stored_runOp | with_reducible apply OutSameStore.next | exact OutSameStore.fault _ | exact OutSameStore.refused _ | simp only [SameStore.mk3, SameStore.mk4] | (intro _) | split)

theorem stored_createQp {s0 : State} (s : State) (t : Tid) (q : Qid) (depth : Nat) (sq : DWord) (cq : DWord) (vec : Nat) (hks :
      SameStore s0 s) : SameStore s0 (State.createQp s t q depth sq cq vec) := by
  unfold State.createQp
  try dsimp only
  repeat' (first | with_reducible assumption | with_reducible apply stored_updInta | with_reducible apply stored_updQp | simp only [SameStore.mk3, SameStore.mk4] | (intro _) | split)

theorem stored_execQueueCreate {s0 : State} (tag : Tag) (s : State) (hks : SameStore s0 s) : OutSameStore s0 (execQueueCreate
      tag s) := by
  unfold execQueueCreate
  try dsimp only
  repeat' (first | with_reducible assumption | with_reducible apply stored_finish | with_reducible apply stored_runOp | with_reducible apply stored_createQp | with_reducible apply OutSameStore.next | exact OutSameStore.fault _ | exact OutSameStore.refused _ | simp only [SameStore.mk3, SameStore.mk4] | (intro _) | split)

theorem stored_drainQp {s0 : State} (s : State) (t : Tid) (q : Qid) (abort : Bool) (hks : SameStore s0 s) : SameStore s0
      (State.drainQp s t q abort) := by
  unfold State.drainQp
  try dsimp only
  repeat' (first | with_reducible assumption | with_reducible apply stored_updQp | simp only [SameStore.mk3, SameStore.mk4] | (intro _) | split)

theorem stored_execQueueDelete {s0 : State} (tag : Tag) (s : State) (hks : SameStore s0 s) : OutSameStore s0 (execQueueDelete
      tag s) := by
  unfold execQueueDelete
  try dsimp only
  repeat' (first | with_reducible assumption | with_reducible apply stored_updCmd | with_reducible apply stored_finish | with_reducible apply stored_runOp | with_reducible apply stored_removeDrained | with_reducible apply stored_drainQp | with_reducible apply OutSameStore.next | exact OutSameStore.fault _ | exact OutSameStore.refused _ | simp only [SameStore.mk3, SameStore.mk4] | (intro _) | split)

theorem stored_execFeatureHoldMinutesGet {s0 : State} (tag : Tag) (s : State) (hks : SameStore s0 s) : OutSameStore s0
      (execFeatureHoldMinutesGet tag s) := by
  unfold execFeatureHoldMinutesGet
  try dsimp only
  repeat' (first | with_reducible assumption | with_reducible apply stored_finish | with_reducible apply stored_runOp | with_reducible apply OutSameStore.next | exact OutSameStore.fault _ | exact OutSameStore.refused _ | simp only [SameStore.mk3, SameStore.mk4] | (intro _) | split)

theorem stored_setHold {s0 : State} (s : State) (t : Tid) (v : Nat) (hks : SameStore s0 s) : SameStore s0 (State.setHold s t v)
      := by
  unfold State.setHold
  try dsimp only
  repeat' (first | with_reducible assumption | with_reducible apply stored_updTnt | simp only [SameStore.mk3, SameStore.mk4] | (intro _) | split)

theorem stored_execFeatureHoldMinutesSet {s0 : State} (tag : Tag) (s : State) (hks : SameStore s0 s) : OutSameStore s0
      (execFeatureHoldMinutesSet tag s) := by
  unfold execFeatureHoldMinutesSet
  try dsimp only
  repeat' (first | with_reducible assumption | with_reducible apply stored_finish | with_reducible apply stored_runOp | with_reducible apply stored_setHold | with_reducible apply OutSameStore.next | exact OutSameStore.fault _ | exact OutSameStore.refused _ | simp only [SameStore.mk3, SameStore.mk4] | (intro _) | split)

theorem stored_execFeatureDisplayItemGet {s0 : State} (tag : Tag) (s : State) (hks : SameStore s0 s) : OutSameStore s0
      (execFeatureDisplayItemGet tag s) := by
  unfold execFeatureDisplayItemGet
  try dsimp only
  repeat' (first | with_reducible assumption | with_reducible apply stored_sendData | with_reducible apply stored_finish | with_reducible apply stored_runOp | with_reducible apply OutSameStore.next | exact OutSameStore.fault _ | exact OutSameStore.refused _ | with_reducible apply SameStoreK1.getD | simp only [SameStore.mk3, SameStore.mk4] | (intro _) | split)

theorem stored_execFeatureDisplayItemSet {s0 : State} (tag : Tag) (s : State) (hks : SameStore s0 s) : OutSameStore s0
      (execFeatureDisplayItemSet tag s) := by
  unfold execFeatureDisplayItemSet
  try dsimp only
  repeat' (first | with_reducible assumption | with_reducible apply stored_finish | with_reducible apply stored_runOp | with_reducible apply OutSameStore.next | exact OutSameStore.fault _ | exact OutSameStore.refused _ | simp only [SameStore.mk3, SameStore.mk4] | (intro _) | split)

theorem stored_execFeatureBudgetGet {s0 : State} (tag : Tag) (s : State) (hks : SameStore s0 s) : OutSameStore s0
      (execFeatureBudgetGet tag s) := by
  unfold execFeatureBudgetGet
  try dsimp only
  repeat' (first | with_reducible assumption | with_reducible apply stored_finish | with_reducible apply stored_runOp | with_reducible apply OutSameStore.next | exact OutSameStore.fault _ | exact OutSameStore.refused _ | simp only [SameStore.mk3, SameStore.mk4] | (intro _) | split)

theorem stored_execLogReadEventRecords {s0 : State} (tag : Tag) (s : State) (hks : SameStore s0 s) : OutSameStore s0
      (execLogReadEventRecords tag s) := by
  unfold execLogReadEventRecords
  try dsimp only
  repeat' (first | with_reducible assumption | with_reducible apply stored_sendData | with_reducible apply stored_finish | with_reducible apply stored_runOp | with_reducible apply OutSameStore.next | exact OutSameStore.fault _ | exact OutSameStore.refused _ | simp only [SameStore.mk3, SameStore.mk4] | (intro _) | split)

theorem stored_execLogReadZoneResetLog {s0 : State} (tag : Tag) (s : State) (hks : SameStore s0 s) : OutSameStore s0
      (execLogReadZoneResetLog tag s) := by
  unfold execLogReadZoneResetLog
  try dsimp only
  repeat' (first | with_reducible assumption | with_reducible apply stored_sendData | with_reducible apply stored_finish | with_reducible apply stored_runOp | with_reducible apply OutSameStore.next | exact OutSameStore.fault _ | exact OutSameStore.refused _ | simp only [SameStore.mk3, SameStore.mk4] | (intro _) | split)

theorem stored_updateGate {s0 : State} (s : State) (tag : Tag) (c : Cmd) (act : State) (hks : SameStore s0 s) (hkact :
      SameStore s0 act) : SameStore s0 (State.updateGate s tag c act) := by
  unfold State.updateGate
  try dsimp only
  repeat' (first | with_reducible assumption | with_reducible apply stored_finish | simp only [SameStore.mk3, SameStore.mk4] | (intro _) | split)

theorem stored_openSession {s0 : State} (s : State) (target : Nat) (hks : SameStore s0 s) : SameStore s0 (State.openSession s
      target) := by
  unfold State.openSession
  try dsimp only
  repeat' (first | with_reducible assumption | with_reducible apply stored_record | with_reducible apply stored_norWrite | with_reducible apply stored_writeRec | simp only [SameStore.mk3, SameStore.mk4] | (intro _) | split)

theorem stored_stageWrite {s0 : State} (s : State) (g : StageS) (off : Nat) (b : List Byte) (hks : SameStore s0 s) : SameStore
      s0 (State.stageWrite s g off b) := by
  unfold State.stageWrite
  try dsimp only
  repeat' (first | with_reducible assumption | with_reducible apply stored_raise | simp only [SameStore.mk3, SameStore.mk4] | (intro _) | split)

theorem stored_execImageStage {s0 : State} (tag : Tag) (s : State) (hks : SameStore s0 s) : OutSameStore s0 (execImageStage tag
      s) := by
  unfold execImageStage
  try dsimp only
  repeat' (first | with_reducible assumption | with_reducible apply stored_finish | with_reducible apply stored_runOp | with_reducible apply stored_updateGate | with_reducible apply stored_openSession | with_reducible apply stored_stageWrite | with_reducible apply OutSameStore.next | exact OutSameStore.fault _ | exact OutSameStore.refused _ | simp only [SameStore.mk3, SameStore.mk4] | (intro _) | split)

theorem stored_execImageCommit {s0 : State} (tag : Tag) (s : State) (hks : SameStore s0 s) : OutSameStore s0 (execImageCommit
      tag s) := by
  unfold execImageCommit
  try dsimp only
  repeat' (first | with_reducible assumption | with_reducible apply stored_writeRec | with_reducible apply stored_finish | with_reducible apply stored_runOp | with_reducible apply stored_updateGate | with_reducible apply OutSameStore.next | exact OutSameStore.fault _ | exact OutSameStore.refused _ | simp only [SameStore.mk3, SameStore.mk4] | (intro _) | split)

theorem stored_ownerOp {s0 : State} (s : State) (tag : Tag) (op : Nat) (useKey : Bool) (useSig : Bool) (act : Cmd → List Byte →
      List Byte → State) (hact : ∀ v0 v1 v2, SameStore s0 (act v0 v1 v2)) (hks : SameStore s0 s) : SameStore s0 (State.ownerOp
      s tag op useKey useSig act) := by
  unfold State.ownerOp
  try dsimp only
  repeat' (first | with_reducible assumption | with_reducible apply stored_finish | with_reducible apply stored_runOp | with_reducible apply hact | simp only [SameStore.mk3, SameStore.mk4] | (intro _) | split)

theorem stored_ownerChanged {s0 : State} (s : State) (b : Nat) (hks : SameStore s0 s) : SameStore s0 (State.ownerChanged s b)
      := by
  unfold State.ownerChanged
  try dsimp only
  repeat' (first | with_reducible assumption | with_reducible apply stored_raise | with_reducible apply stored_mirDeviceItem | simp only [SameStore.mk3, SameStore.mk4] | (intro _) | split)

theorem stored_programOwner {s0 : State} (s : State) (key : List Byte) (hks : SameStore s0 s) : SameStore s0
      (State.programOwner s key) := by
  unfold State.programOwner
  try dsimp only
  repeat' (first | with_reducible assumption | with_reducible apply stored_ownerChanged | simp only [SameStore.mk3, SameStore.mk4] | (intro _) | split)

theorem stored_execGetChallenge {s0 : State} (tag : Tag) (s : State) (hks : SameStore s0 s) : OutSameStore s0 (execGetChallenge
      tag s) := by
  unfold execGetChallenge
  try dsimp only
  repeat' (first | with_reducible assumption | with_reducible apply stored_sendPlain | with_reducible apply stored_finish | with_reducible refine SameStoreK2.elim (stored_drbg _ ?_) ‹_› | with_reducible apply stored_drbg | with_reducible apply stored_ownerOp | with_reducible apply OutSameStore.next | exact OutSameStore.fault _ | exact OutSameStore.refused _ | simp only [SameStore.mk3, SameStore.mk4] | (intro _) | split)

theorem stored_execEnrol {s0 : State} (tag : Tag) (s : State) (hks : SameStore s0 s) : OutSameStore s0 (execEnrol tag s) := by
  unfold execEnrol
  try dsimp only
  repeat' (first | with_reducible assumption | with_reducible apply stored_finish | with_reducible apply stored_ownerOp | with_reducible apply stored_programOwner | with_reducible apply OutSameStore.next | exact OutSameStore.fault _ | exact OutSameStore.refused _ | simp only [SameStore.mk3, SameStore.mk4] | (intro _) | split)

theorem stored_setLock {s0 : State} (s : State) (b : Bool) (hks : SameStore s0 s) : SameStore s0 (State.setLock s b) := by
  unfold State.setLock
  try dsimp only
  repeat' (first | with_reducible assumption | with_reducible apply stored_ownerChanged | simp only [SameStore.mk3, SameStore.mk4] | (intro _) | split)

theorem stored_execLockUpdates {s0 : State} (tag : Tag) (s : State) (hks : SameStore s0 s) : OutSameStore s0 (execLockUpdates
      tag s) := by
  unfold execLockUpdates
  try dsimp only
  repeat' (first | with_reducible assumption | with_reducible apply stored_finish | with_reducible apply stored_ownerSigned | with_reducible apply stored_ownerOp | with_reducible apply stored_setLock | with_reducible apply OutSameStore.next | exact OutSameStore.fault _ | exact OutSameStore.refused _ | simp only [SameStore.mk3, SameStore.mk4] | (intro _) | split)

theorem stored_execUnlockUpdates {s0 : State} (tag : Tag) (s : State) (hks : SameStore s0 s) : OutSameStore s0
      (execUnlockUpdates tag s) := by
  unfold execUnlockUpdates
  try dsimp only
  repeat' (first | with_reducible assumption | with_reducible apply stored_finish | with_reducible apply stored_ownerSigned | with_reducible apply stored_ownerOp | with_reducible apply stored_setLock | with_reducible apply OutSameStore.next | exact OutSameStore.fault _ | exact OutSameStore.refused _ | simp only [SameStore.mk3, SameStore.mk4] | (intro _) | split)

theorem stored_execTransfer {s0 : State} (tag : Tag) (s : State) (hks : SameStore s0 s) : OutSameStore s0 (execTransfer tag s)
      := by
  unfold execTransfer
  try dsimp only
  repeat' (first | with_reducible assumption | with_reducible apply stored_finish | with_reducible apply stored_ownerSigned | with_reducible apply stored_ownerOp | with_reducible apply stored_programOwner | with_reducible apply OutSameStore.next | exact OutSameStore.fault _ | exact OutSameStore.refused _ | simp only [SameStore.mk3, SameStore.mk4] | (intro _) | split)

theorem stored_execChallengeLapse {s0 : State} (s : State) (hks : SameStore s0 s) : OutSameStore s0 (execChallengeLapse s) := by
  unfold execChallengeLapse
  try dsimp only
  repeat' (first | with_reducible assumption | with_reducible apply stored_dropChallenge | with_reducible apply OutSameStore.next | exact OutSameStore.fault _ | exact OutSameStore.refused _ | simp only [SameStore.mk3, SameStore.mk4] | (intro _) | split)

theorem stored_addProfile {s0 : State} (s : State) (r : ProfRec) (hks : SameStore s0 s) : SameStore s0 (State.addProfile s r)
      := by
  unfold State.addProfile
  try dsimp only
  repeat' (first | with_reducible assumption | simp only [SameStore.mk3, SameStore.mk4] | (intro _) | split)

theorem stored_clearCounts {s0 : State} (s : State) (hks : SameStore s0 s) : SameStore s0 (State.clearCounts s) := by
  unfold State.clearCounts
  try dsimp only
  repeat' (first | with_reducible assumption | simp only [SameStore.mk3, SameStore.mk4] | (intro _) | split)

theorem stored_openInterval {s0 : State} (s : State) (at_ : Nat) (hks : SameStore s0 s) : SameStore s0 (State.openInterval s
      at_) := by
  unfold State.openInterval
  try dsimp only
  repeat' (first | with_reducible assumption | with_reducible apply stored_clearCounts | simp only [SameStore.mk3, SameStore.mk4] | (intro _) | split)

theorem stored_closeInterval {s0 : State} (s : State) (hks : SameStore s0 s) : SameStore s0 (State.closeInterval s) := by
  unfold State.closeInterval
  try dsimp only
  repeat' (first | with_reducible assumption | with_reducible apply stored_addProfile | simp only [SameStore.mk3, SameStore.mk4] | (intro _) | split)

theorem stored_absentRecord {s0 : State} (s : State) (start : Nat) (hks : SameStore s0 s) : SameStore s0 (State.absentRecord s
      start) := by
  unfold State.absentRecord
  try dsimp only
  repeat' (first | with_reducible assumption | with_reducible apply stored_addProfile | simp only [SameStore.mk3, SameStore.mk4] | (intro _) | split)

theorem stored_settleBoundary {s0 : State} (s : State) (hks : SameStore s0 s) : SameStore s0 (State.settleBoundary s) := by
  unfold State.settleBoundary
  try dsimp only
  repeat' (first | with_reducible assumption | with_reducible apply stored_raise | with_reducible apply stored_mirSend | with_reducible apply stored_openInterval | with_reducible apply stored_addProfile | with_reducible apply SameStore.foldl | with_reducible apply SameStoreK1.getD | simp only [SameStore.mk3, SameStore.mk4] | (intro _) | split)

theorem stored_endBoundary {s0 : State} (s : State) (hks : SameStore s0 s) : SameStore s0 (State.endBoundary s) := by
  unfold State.endBoundary
  try dsimp only
  repeat' (first | with_reducible assumption | with_reducible apply stored_settleBoundary | with_reducible apply stored_raise | with_reducible apply stored_mirSend | with_reducible apply stored_openInterval | with_reducible apply stored_closeInterval | with_reducible apply SameStore.foldl | with_reducible apply SameStoreK1.getD | simp only [SameStore.mk3, SameStore.mk4] | (intro _) | split)

theorem stored_startBoundary {s0 : State} (s : State) (hks : SameStore s0 s) : SameStore s0 (State.startBoundary s) := by
  unfold State.startBoundary
  try dsimp only
  repeat' (first | with_reducible assumption | with_reducible apply stored_clearCounts | with_reducible apply SameStore.foldl | simp only [SameStore.mk3, SameStore.mk4] | (intro _) | split)

theorem stored_execQuarterHourBoundary {s0 : State} (s : State) (hks : SameStore s0 s) : OutSameStore s0
      (execQuarterHourBoundary s) := by
  unfold execQuarterHourBoundary
  try dsimp only
  repeat' (first | with_reducible assumption | with_reducible apply stored_endBoundary | with_reducible apply stored_startBoundary | with_reducible apply OutSameStore.next | exact OutSameStore.fault _ | exact OutSameStore.refused _ | simp only [SameStore.mk3, SameStore.mk4] | (intro _) | split)

theorem stored_execMeterMinuteSample {s0 : State} (s : State) (hks : SameStore s0 s) : OutSameStore s0 (execMeterMinuteSample
      s) := by
  unfold execMeterMinuteSample
  try dsimp only
  repeat' (first | with_reducible assumption | with_reducible apply stored_endBoundary | with_reducible apply OutSameStore.next | exact OutSameStore.fault _ | exact OutSameStore.refused _ | simp only [SameStore.mk3, SameStore.mk4] | (intro _) | split)

theorem stored_setUtc {s0 : State} (s : State) (v : Nat) (st : UtcState) (hks : SameStore s0 s) : SameStore s0 (State.setUtc s
      v st) := by
  unfold State.setUtc
  try dsimp only
  repeat' (first | with_reducible assumption | with_reducible apply stored_raise | with_reducible apply stored_openInterval | with_reducible apply stored_closeInterval | with_reducible apply stored_absentRecord | with_reducible apply SameStore.foldl | simp only [SameStore.mk3, SameStore.mk4] | (intro _) | split)

theorem stored_execSignedLapse {s0 : State} (s : State) (hks : SameStore s0 s) : OutSameStore s0 (execSignedLapse s) := by
  unfold execSignedLapse
  try dsimp only
  repeat' (first | with_reducible assumption | with_reducible apply OutSameStore.next | exact OutSameStore.fault _ | exact OutSameStore.refused _ | simp only [SameStore.mk3, SameStore.mk4] | (intro _) | split)

theorem stored_execNonceLapse {s0 : State} (s : State) (hks : SameStore s0 s) : OutSameStore s0 (execNonceLapse s) := by
  unfold execNonceLapse
  try dsimp only
  repeat' (first | with_reducible assumption | with_reducible apply OutSameStore.next | exact OutSameStore.fault _ | exact OutSameStore.refused _ | simp only [SameStore.mk3, SameStore.mk4] | (intro _) | split)

theorem stored_execGetNonce {s0 : State} (tag : Tag) (s : State) (hks : SameStore s0 s) : OutSameStore s0 (execGetNonce tag s)
      := by
  unfold execGetNonce
  try dsimp only
  repeat' (first | with_reducible assumption | with_reducible apply stored_sendData | with_reducible apply stored_finish | with_reducible apply stored_runOp | with_reducible refine SameStoreK2.elim (stored_drbg _ ?_) ‹_› | with_reducible apply stored_drbg | with_reducible apply OutSameStore.next | exact OutSameStore.fault _ | exact OutSameStore.refused _ | simp only [SameStore.mk3, SameStore.mk4] | (intro _) | split)

theorem stored_execSetHost {s0 : State} (tag : Tag) (s : State) (hks : SameStore s0 s) : OutSameStore s0 (execSetHost tag s)
      := by
  unfold execSetHost
  try dsimp only
  repeat' (first | with_reducible assumption | with_reducible apply stored_finish | with_reducible apply stored_runOp | with_reducible apply stored_setUtc | with_reducible apply OutSameStore.next | exact OutSameStore.fault _ | exact OutSameStore.refused _ | simp only [SameStore.mk3, SameStore.mk4] | (intro _) | split)

theorem stored_execSetSigned {s0 : State} (tag : Tag) (s : State) (hks : SameStore s0 s) : OutSameStore s0 (execSetSigned tag
      s) := by
  unfold execSetSigned
  try dsimp only
  repeat' (first | with_reducible assumption | with_reducible apply stored_finish | with_reducible apply stored_runOp | with_reducible apply stored_setUtc | with_reducible apply OutSameStore.next | exact OutSameStore.fault _ | exact OutSameStore.refused _ | simp only [SameStore.mk3, SameStore.mk4] | (intro _) | split)

theorem stored_meterServe {s0 : State} (s : State) (hks : SameStore s0 s) : SameStore s0 (State.meterServe s) := by
  unfold State.meterServe
  try dsimp only
  repeat' (first | with_reducible assumption | simp only [SameStore.mk3, SameStore.mk4] | (intro _) | split)

theorem stored_meterRead {s0 : State} (s : State) (tag : Tag) (c : Cmd) (allowed : Bool) (tenant : Byte) (content : Nat → List
      Byte) (hks : SameStore s0 s) : SameStore s0 (State.meterRead s tag c allowed tenant content) := by
  unfold State.meterRead
  try dsimp only
  repeat' (first | with_reducible assumption | with_reducible apply stored_sendData | with_reducible apply stored_finish | simp only [SameStore.mk3, SameStore.mk4] | (intro _) | split)

theorem stored_execMeterReadTenant {s0 : State} (tag : Tag) (s : State) (hks : SameStore s0 s) : OutSameStore s0
      (execMeterReadTenant tag s) := by
  unfold execMeterReadTenant
  try dsimp only
  repeat' (first | with_reducible assumption | with_reducible apply stored_runOp | with_reducible apply stored_meterRead | with_reducible apply OutSameStore.next | exact OutSameStore.fault _ | exact OutSameStore.refused _ | simp only [SameStore.mk3, SameStore.mk4] | (intro _) | split)

theorem stored_execMeterReadAll {s0 : State} (tag : Tag) (s : State) (hks : SameStore s0 s) : OutSameStore s0 (execMeterReadAll
      tag s) := by
  unfold execMeterReadAll
  try dsimp only
  repeat' (first | with_reducible assumption | with_reducible apply stored_runOp | with_reducible apply stored_meterRead | with_reducible apply OutSameStore.next | exact OutSameStore.fault _ | exact OutSameStore.refused _ | simp only [SameStore.mk3, SameStore.mk4] | (intro _) | split)

theorem stored_execMeterReadLoadProfile {s0 : State} (tag : Tag) (s : State) (hks : SameStore s0 s) : OutSameStore s0
      (execMeterReadLoadProfile tag s) := by
  unfold execMeterReadLoadProfile
  try dsimp only
  repeat' (first | with_reducible assumption | with_reducible apply stored_runOp | with_reducible apply stored_meterRead | with_reducible apply OutSameStore.next | exact OutSameStore.fault _ | exact OutSameStore.refused _ | simp only [SameStore.mk3, SameStore.mk4] | (intro _) | split)

theorem stored_meterStart {s0 : State} (s : State) (first : Bool) (hks : SameStore s0 s) : SameStore s0 (State.meterStart s
      first) := by
  unfold State.meterStart
  try dsimp only
  repeat' (first | with_reducible assumption | with_reducible apply stored_openInterval | with_reducible apply stored_startBoundary | simp only [SameStore.mk3, SameStore.mk4] | (intro _) | split)

theorem stored_meterSave {s0 : State} (s : State) (hks : SameStore s0 s) : SameStore s0 (State.meterSave s) := by
  unfold State.meterSave
  try dsimp only
  repeat' (first | with_reducible assumption | with_reducible apply stored_settleBoundary | simp only [SameStore.mk3, SameStore.mk4] | (intro _) | split)

theorem stored_dwell {s0 : State} (s : State) (d : BoardDesc) (hks : SameStore s0 s) : SameStore s0 (State.dwell s d) := by
  unfold State.dwell
  try dsimp only
  repeat' (first | with_reducible assumption | simp only [SameStore.mk3, SameStore.mk4] | (intro _) | split)

theorem stored_execDisplayDwellSecond {s0 : State} (s : State) (hks : SameStore s0 s) : OutSameStore s0 (execDisplayDwellSecond
      s) := by
  unfold execDisplayDwellSecond
  try dsimp only
  repeat' (first | with_reducible assumption | with_reducible apply stored_dwell | with_reducible apply OutSameStore.next | exact OutSameStore.fault _ | exact OutSameStore.refused _ | simp only [SameStore.mk3, SameStore.mk4] | (intro _) | split)

theorem stored_execHostItemExpired {s0 : State} (s : State) (hks : SameStore s0 s) : OutSameStore s0 (execHostItemExpired s)
      := by
  unfold execHostItemExpired
  try dsimp only
  repeat' (first | with_reducible assumption | with_reducible apply stored_raise | with_reducible apply OutSameStore.next | exact OutSameStore.fault _ | exact OutSameStore.refused _ | simp only [SameStore.mk3, SameStore.mk4] | (intro _) | split)

theorem stored_lapseNonces {s0 : State} (s : State) (hks : SameStore s0 s) : SameStore s0 (State.lapseNonces s) := by
  unfold State.lapseNonces
  try dsimp only
  repeat' (first | with_reducible assumption | simp only [SameStore.mk3, SameStore.mk4] | (intro _) | split)

theorem stored_settleFns {s0 : State} (s : State) (hks : SameStore s0 s) : SameStore s0 (State.settleFns s) := by
  unfold State.settleFns
  try dsimp only
  repeat' (first | with_reducible assumption | simp only [SameStore.mk3, SameStore.mk4] | (intro _) | split)

theorem stored_requestAll {s0 : State} (s : State) (fn : Fn) (hks : SameStore s0 s) : SameStore s0 (State.requestAll s fn) := by
  unfold State.requestAll
  try dsimp only
  repeat' (first | with_reducible assumption | with_reducible apply stored_request | with_reducible apply SameStore.foldl | simp only [SameStore.mk3, SameStore.mk4] | (intro _) | split)

theorem stored_sendMessage {s0 : State} (s : State) (fn : Fn) (k : Nat) (hks : SameStore s0 s) : SameStore s0
      (State.sendMessage s fn k) := by
  unfold State.sendMessage
  try dsimp only
  repeat' (first | with_reducible assumption | with_reducible apply stored_emit | with_reducible apply stored_updFn | with_reducible apply SameStoreK1.getD | simp only [SameStore.mk3, SameStore.mk4] | (intro _) | split)

theorem stored_sendPending {s0 : State} (s : State) (fn : Fn) (hks : SameStore s0 s) : SameStore s0 (State.sendPending s fn)
      := by
  unfold State.sendPending
  try dsimp only
  repeat' (first | with_reducible assumption | with_reducible apply stored_sendMessage | with_reducible apply SameStore.foldl | simp only [SameStore.mk3, SameStore.mk4] | (intro _) | split)

theorem stored_execInterruptMessage {s0 : State} (fn : Fn) (vec : Fin 72) (s : State) (hks : SameStore s0 s) : OutSameStore s0
      (execInterruptMessage fn vec s) := by
  unfold execInterruptMessage
  try dsimp only
  repeat' (first | with_reducible assumption | with_reducible apply stored_sendMessage | with_reducible apply OutSameStore.next | exact OutSameStore.fault _ | exact OutSameStore.refused _ | simp only [SameStore.mk3, SameStore.mk4] | (intro _) | split)

theorem stored_msixTableWrite {s0 : State} (s : State) (fn : Fn) (vec dw : Nat) (be : BitVec 4) (v : Word) (hks : SameStore s0
      s) : SameStore s0 (State.msixTableWrite s fn vec dw be v) := by
  unfold State.msixTableWrite
  try dsimp only
  repeat' (first | with_reducible assumption | with_reducible apply stored_updFn | with_reducible apply stored_countErr | with_reducible apply SameStoreK1.getD | simp only [SameStore.mk3, SameStore.mk4] | (intro _) | split)

theorem stored_cfgAct {s0 : State} (s : State) (fn : Fn) (a0 : CfgReq) (hks : SameStore s0 s) : SameStore s0 (State.cfgAct s fn
      a0) := by
  unfold State.cfgAct
  try dsimp only
  repeat' (first | with_reducible assumption | with_reducible apply stored_drawn | with_reducible apply stored_emit | with_reducible apply stored_updFn | simp only [SameStore.mk3, SameStore.mk4] | (intro _) | split)

theorem stored_cfgRequest {s0 : State} (s : State) (fn : Fn) (req : CfgReq) (hks : SameStore s0 s) : SameStore s0
      (State.cfgRequest s fn req) := by
  unfold State.cfgRequest
  try dsimp only
  repeat' (first | with_reducible assumption | with_reducible apply stored_emit | with_reducible apply stored_endLull | with_reducible apply stored_aerUncorrectable | with_reducible apply stored_cfgAct | simp only [SameStore.mk3, SameStore.mk4] | (intro _) | split)

theorem stored_execConfigurationRequest {s0 : State} (fn : Fn) (req : CfgReq) (s : State) (hks : SameStore s0 s) : OutSameStore
      s0 (execConfigurationRequest fn req s) := by
  unfold execConfigurationRequest
  try dsimp only
  repeat' (first | with_reducible assumption | with_reducible apply stored_msixTableWrite | with_reducible apply stored_cfgRequest | with_reducible apply OutSameStore.next | exact OutSameStore.fault _ | exact OutSameStore.refused _ | simp only [SameStore.mk3, SameStore.mk4] | (intro _) | split)

theorem stored_clearFeatures {s0 : State} (s : State) (hks : SameStore s0 s) : SameStore s0 (State.clearFeatures s) := by
  unfold State.clearFeatures
  try dsimp only
  repeat' (first | with_reducible assumption | simp only [SameStore.mk3, SameStore.mk4] | (intro _) | split)

theorem stored_dropVfs {s0 : State} (s : State) (hks : SameStore s0 s) : SameStore s0 (State.dropVfs s) := by
  unfold State.dropVfs
  try dsimp only
  repeat' (first | with_reducible assumption | with_reducible apply stored_raise | with_reducible apply stored_restart | simp only [SameStore.mk3, SameStore.mk4] | (intro _) | split)

theorem stored_clearHostSide {s0 : State} (s : State) (hks : SameStore s0 s) : SameStore s0 (State.clearHostSide s) := by
  unfold State.clearHostSide
  try dsimp only
  repeat' (first | with_reducible assumption | simp only [SameStore.mk3, SameStore.mk4] | (intro _) | split)

theorem stored_execPerstRelease {s0 : State} (s : State) (hks : SameStore s0 s) : OutSameStore s0 (execPerstRelease s) := by
  unfold execPerstRelease
  try dsimp only
  repeat' (first | with_reducible assumption | with_reducible apply OutSameStore.next | exact OutSameStore.fault _ | exact OutSameStore.refused _ | simp only [SameStore.mk3, SameStore.mk4] | (intro _) | split)

theorem stored_execLinkUp {s0 : State} (speed : BitVec 3) (width : BitVec 3) (s : State) (hks : SameStore s0 s) : OutSameStore
      s0 (execLinkUp speed width s) := by
  unfold execLinkUp
  try dsimp only
  repeat' (first | with_reducible assumption | with_reducible apply stored_updInta | with_reducible apply stored_raise | with_reducible apply OutSameStore.next | exact OutSameStore.fault _ | exact OutSameStore.refused _ | simp only [SameStore.mk3, SameStore.mk4] | (intro _) | split)

theorem stored_execSpeedWidthChange {s0 : State} (speed width : BitVec 3) (ltssm : BitVec 5) (s : State) (hks : SameStore s0
      s) : OutSameStore s0 (execSpeedWidthChange speed width ltssm s) := by
  unfold execSpeedWidthChange
  try dsimp only
  repeat' (first | with_reducible assumption | with_reducible apply stored_raise | with_reducible apply OutSameStore.next | exact OutSameStore.fault _ | exact OutSameStore.refused _ | simp only [SameStore.mk3, SameStore.mk4] | (intro _) | split)

theorem stored_execVfEnableSet {s0 : State} (numVfs : Fin 64) (ari : Bool) (s : State) (hks : SameStore s0 s) : OutSameStore s0
      (execVfEnableSet numVfs ari s) := by
  unfold execVfEnableSet
  try dsimp only
  repeat' (first | with_reducible assumption | with_reducible apply stored_raise | with_reducible apply OutSameStore.next | exact OutSameStore.fault _ | exact OutSameStore.refused _ | simp only [SameStore.mk3, SameStore.mk4] | (intro _) | split)

theorem stored_execBusMasterEnableSet {s0 : State} (fn : Fn) (s : State) (hks : SameStore s0 s) : OutSameStore s0
      (execBusMasterEnableSet fn s) := by
  unfold execBusMasterEnableSet
  try dsimp only
  repeat' (first | with_reducible assumption | with_reducible apply stored_updFn | with_reducible apply stored_sendPending | with_reducible apply OutSameStore.next | exact OutSameStore.fault _ | exact OutSameStore.refused _ | simp only [SameStore.mk3, SameStore.mk4] | (intro _) | split)

theorem stored_execInterruptModeChange {s0 : State} (fn : Fn) (cfg : IntCfg) (s : State) (hks : SameStore s0 s) : OutSameStore
      s0 (execInterruptModeChange fn cfg s) := by
  unfold execInterruptModeChange
  try dsimp only
  repeat' (first | with_reducible assumption | with_reducible apply stored_updFn | with_reducible apply stored_updInta | with_reducible apply stored_requestAll | with_reducible apply OutSameStore.next | exact OutSameStore.fault _ | exact OutSameStore.refused _ | simp only [SameStore.mk3, SameStore.mk4] | (intro _) | split)

theorem stored_execVectorUnmask {s0 : State} (fn : Fn) (msix : Bool) (vec : Fin 72) (s : State) (hks : SameStore s0 s) :
      OutSameStore s0 (execVectorUnmask fn msix vec s) := by
  unfold execVectorUnmask
  try dsimp only
  repeat' (first | with_reducible assumption | with_reducible apply stored_updFn | with_reducible apply stored_sendMessage | with_reducible apply OutSameStore.next | exact OutSameStore.fault _ | exact OutSameStore.refused _ | simp only [SameStore.mk3, SameStore.mk4] | (intro _) | split)

theorem stored_execInterruptDisable {s0 : State} (on : Bool) (s : State) (hks : SameStore s0 s) : OutSameStore s0
      (execInterruptDisable on s) := by
  unfold execInterruptDisable
  try dsimp only
  repeat' (first | with_reducible assumption | with_reducible apply stored_updInta | with_reducible apply OutSameStore.next | exact OutSameStore.fault _ | exact OutSameStore.refused _ | simp only [SameStore.mk3, SameStore.mk4] | (intro _) | split)

theorem stored_execPoisonedMemoryWrite {s0 : State} (space : BarSpace) (s : State) (hks : SameStore s0 s) : OutSameStore s0
      (execPoisonedMemoryWrite space s) := by
  unfold execPoisonedMemoryWrite
  try dsimp only
  repeat' (first | with_reducible assumption | with_reducible apply stored_poisonReceived | with_reducible apply OutSameStore.next | exact OutSameStore.fault _ | exact OutSameStore.refused _ | simp only [SameStore.mk3, SameStore.mk4] | (intro _) | split)

theorem stored_linkErrorLogged {s0 : State} (s : State) (e : LinkError) (hks : SameStore s0 s) : SameStore s0
      (State.linkErrorLogged s e) := by
  unfold State.linkErrorLogged
  try dsimp only
  repeat' (first | with_reducible assumption | with_reducible apply stored_aerUncorrectable | with_reducible apply stored_aerCorrectable | simp only [SameStore.mk3, SameStore.mk4] | (intro _) | split)

theorem stored_execUnsupportedRequest {s0 : State} (fn : Fn) (kind : UrKind) (s : State) (hks : SameStore s0 s) : OutSameStore
      s0 (execUnsupportedRequest fn kind s) := by
  unfold execUnsupportedRequest
  try dsimp only
  repeat' (first | with_reducible assumption | with_reducible apply stored_emit | with_reducible apply stored_aerUncorrectable | with_reducible apply stored_linkErrorLogged | with_reducible apply OutSameStore.next | exact OutSameStore.fault _ | exact OutSameStore.refused _ | simp only [SameStore.mk3, SameStore.mk4] | (intro _) | split)

theorem stored_execStaleCompletion {s0 : State} (rtag n : Nat) (ep : Bool) (s : State) (hks : SameStore s0 s) : OutSameStore
      s0 (execStaleCompletion rtag n ep s) := by
  unfold execStaleCompletion
  try dsimp only
  repeat' (first | with_reducible assumption | with_reducible apply stored_aerUncorrectable | with_reducible apply stored_poisonReceived | with_reducible apply OutSameStore.next | exact OutSameStore.fault _ | exact OutSameStore.refused _ | simp only [SameStore.mk3, SameStore.mk4] | (intro _) | split)

theorem stored_execAspmL1Entry {s0 : State} (clkreqHigh : Bool) (s : State) (hks : SameStore s0 s) : OutSameStore s0
      (execAspmL1Entry clkreqHigh s) := by
  unfold execAspmL1Entry
  try dsimp only
  repeat' (first | with_reducible assumption | with_reducible apply OutSameStore.next | exact OutSameStore.fault _ | exact OutSameStore.refused _ | simp only [SameStore.mk3, SameStore.mk4] | (intro _) | split)

theorem stored_storeRec {s0 : State} (s : State) (r : EvRec) (hks : SameStore s0 s) : SameStore s0 (State.storeRec s r) := by
  unfold State.storeRec
  try dsimp only
  repeat' (first | with_reducible assumption | with_reducible apply stored_countDropped | simp only [SameStore.mk3, SameStore.mk4] | (intro _) | split)

theorem stored_passBegin {s0 : State} (s : State) (hks : SameStore s0 s) : SameStore s0 (State.passBegin s) := by
  unfold State.passBegin
  try dsimp only
  repeat' (first | with_reducible assumption | with_reducible apply stored_queueOp | with_reducible apply SameStore.foldl | simp only [SameStore.mk3, SameStore.mk4] | (intro _) | split)

theorem stored_passEnd {s0 : State} (s : State) (hks : SameStore s0 s) : SameStore s0 (State.passEnd s) := by
  unfold State.passEnd
  try dsimp only
  repeat' (first | with_reducible assumption | with_reducible apply stored_raise | with_reducible apply stored_storeRec | with_reducible apply SameStore.foldl | simp only [SameStore.mk3, SameStore.mk4] | (intro _) | split)

theorem stored_execEvrProgrammingPass {s0 : State} (s : State) (hks : SameStore s0 s) : OutSameStore s0 (execEvrProgrammingPass
      s) := by
  unfold execEvrProgrammingPass
  try dsimp only
  repeat' (first | with_reducible assumption | with_reducible apply stored_endLull | with_reducible apply stored_passBegin | with_reducible apply OutSameStore.next | exact OutSameStore.fault _ | exact OutSameStore.refused _ | simp only [SameStore.mk3, SameStore.mk4] | (intro _) | split)

theorem stored_execEvrPassEnd {s0 : State} (s : State) (hks : SameStore s0 s) : OutSameStore s0 (execEvrPassEnd s) := by
  unfold execEvrPassEnd
  try dsimp only
  repeat' (first | with_reducible assumption | with_reducible apply stored_passEnd | with_reducible apply OutSameStore.next | exact OutSameStore.fault _ | exact OutSameStore.refused _ | simp only [SameStore.mk3, SameStore.mk4] | (intro _) | split)

theorem stored_dropClasses {s0 : State} (s : State) (hks : SameStore s0 s) : SameStore s0 (State.dropClasses s) := by
  unfold State.dropClasses
  try dsimp only
  repeat' (first | with_reducible assumption | simp only [SameStore.mk3, SameStore.mk4] | (intro _) | split)

theorem stored_hungDies {s0 : State} (s : State) (hung : List (Fin 256)) (hks : SameStore s0 s) : SameStore s0 (State.hungDies
      s hung) := by
  unfold State.hungDies
  try dsimp only
  repeat' (first | with_reducible assumption | with_reducible apply stored_failDie | with_reducible apply SameStore.foldl | simp only [SameStore.mk3, SameStore.mk4] | (intro _) | split)

theorem stored_flushStart {s0 : State} (s : State) (hks : SameStore s0 s) : SameStore s0 (State.flushStart s) := by
  unfold State.flushStart
  try dsimp only
  repeat' (first | with_reducible assumption | with_reducible refine SameStoreK1.elim (stored_placeIn _ _ _ _ _ ?_) ‹_› | with_reducible apply stored_placeIn | with_reducible apply SameStore.foldl | with_reducible apply SameStoreK1.getD | simp only [SameStore.mk3, SameStore.mk4] | (intro _) | split)

theorem stored_parityStart {s0 : State} (s : State) (hks : SameStore s0 s) : SameStore s0 (State.parityStart s) := by
  unfold State.parityStart
  try dsimp only
  repeat' (first | with_reducible assumption | with_reducible apply stored_updSb | with_reducible apply stored_queueOp | with_reducible apply SameStore.foldl | simp only [SameStore.mk3, SameStore.mk4] | (intro _) | split)

theorem stored_tailStart {s0 : State} (s : State) (hks : SameStore s0 s) : SameStore s0 (State.tailStart s) := by
  unfold State.tailStart
  try dsimp only
  repeat' (first | with_reducible assumption | with_reducible apply stored_queueOp | with_reducible apply SameStore.foldl | simp only [SameStore.mk3, SameStore.mk4] | (intro _) | split)

theorem stored_markStep {s0 : State} (s : State) (n : Nat) (hks : SameStore s0 s) : SameStore s0 (State.markStep s n) := by
  unfold State.markStep
  try dsimp only
  repeat' (first | with_reducible assumption | simp only [SameStore.mk3, SameStore.mk4] | (intro _) | split)

theorem stored_enterStep {s0 : State} (s : State) (n : Nat) (hks : SameStore s0 s) : SameStore s0 (State.enterStep s n) := by
  unfold State.enterStep
  try dsimp only
  repeat' (first | with_reducible assumption | with_reducible apply stored_passBegin | with_reducible apply stored_passEnd | with_reducible apply stored_dropClasses | with_reducible apply stored_flushStart | with_reducible apply stored_parityStart | with_reducible apply stored_tailStart | with_reducible apply stored_step | simp only [SameStore.mk3, SameStore.mk4] | (intro _) | split)

theorem stored_wakeChannels {s0 : State} (s : State) (hks : SameStore s0 s) : SameStore s0 (State.wakeChannels s) := by
  unfold State.wakeChannels
  try dsimp only
  repeat' (first | with_reducible assumption | simp only [SameStore.mk3, SameStore.mk4] | (intro _) | split)

theorem stored_finalHold {s0 : State} (s : State) (hks : SameStore s0 s) : SameStore s0 (State.finalHold s) := by
  unfold State.finalHold
  try dsimp only
  repeat' (first | with_reducible assumption | with_reducible apply stored_addCause | with_reducible apply stored_zeroiseAll | simp only [SameStore.mk3, SameStore.mk4] | (intro _) | split)

theorem stored_execPfailLFall {s0 : State} (s : State) (hks : SameStore s0 s) : OutSameStore s0 (execPfailLFall s) := by
  unfold execPfailLFall
  try dsimp only
  repeat' (first | with_reducible assumption | with_reducible apply stored_squallTrigger | with_reducible apply OutSameStore.next | exact OutSameStore.fault _ | exact OutSameStore.refused _ | simp only [SameStore.mk3, SameStore.mk4] | (intro _) | split)

theorem stored_execVsupConversion {s0 : State} (mV : Nat) (s : State) (hks : SameStore s0 s) : OutSameStore s0
      (execVsupConversion mV s) := by
  unfold execVsupConversion
  try dsimp only
  repeat' (first | with_reducible assumption | with_reducible apply stored_squallTrigger | with_reducible apply OutSameStore.next | exact OutSameStore.fault _ | exact OutSameStore.refused _ | simp only [SameStore.mk3, SameStore.mk4] | (intro _) | split)

theorem stored_execWatchdogExpiry {s0 : State} (s : State) (hks : SameStore s0 s) : OutSameStore s0 (execWatchdogExpiry s) := by
  unfold execWatchdogExpiry
  try dsimp only
  repeat' (first | with_reducible assumption | with_reducible apply stored_squallTrigger | with_reducible apply OutSameStore.next | exact OutSameStore.fault _ | exact OutSameStore.refused _ | simp only [SameStore.mk3, SameStore.mk4] | (intro _) | split)

theorem stored_execCrystalMonitorWindow {s0 : State} (count : BitVec 16) (noEdge : Bool) (pllLost : Bool) (s : State) (hks :
      SameStore s0 s) : OutSameStore s0 (execCrystalMonitorWindow count noEdge pllLost s) := by
  unfold execCrystalMonitorWindow
  try dsimp only
  repeat' (first | with_reducible assumption | with_reducible apply OutSameStore.next | exact OutSameStore.fault _ | exact OutSameStore.refused _ | simp only [SameStore.mk3, SameStore.mk4] | (intro _) | split)

theorem stored_utcLapse {s0 : State} (s : State) (hks : SameStore s0 s) : SameStore s0 (State.utcLapse s) := by
  unfold State.utcLapse
  try dsimp only
  repeat' (first | with_reducible assumption | simp only [SameStore.mk3, SameStore.mk4] | (intro _) | split)

theorem stored_execCrystalMonitorTrip {s0 : State} (s : State) (hks : SameStore s0 s) : OutSameStore s0 (execCrystalMonitorTrip
      s) := by
  unfold execCrystalMonitorTrip
  try dsimp only
  repeat' (first | with_reducible assumption | with_reducible apply stored_addCause | with_reducible apply stored_squallTrigger | with_reducible apply stored_linksDown | with_reducible apply stored_utcLapse | with_reducible apply OutSameStore.next | exact OutSameStore.fault _ | exact OutSameStore.refused _ | simp only [SameStore.mk3, SameStore.mk4] | (intro _) | split)

theorem stored_updDom {s0 : State} (s : State) (d : Fin 5) (f : Domain → Domain) (hks : SameStore s0 s) : SameStore s0
      (State.updDom s d f) := by
  unfold State.updDom
  try dsimp only
  repeat' (first | with_reducible assumption | simp only [SameStore.mk3, SameStore.mk4] | (intro _) | split)

theorem stored_execDomainGate {s0 : State} (d : Fin 5) (s : State) (hks : SameStore s0 s) : OutSameStore s0 (execDomainGate d
      s) := by
  unfold execDomainGate
  try dsimp only
  repeat' (first | with_reducible assumption | with_reducible apply stored_updDom | with_reducible apply OutSameStore.next | exact OutSameStore.fault _ | exact OutSameStore.refused _ | simp only [SameStore.mk3, SameStore.mk4] | (intro _) | split)

theorem stored_execDomainPowerDown {s0 : State} (d : Fin 5) (s : State) (hks : SameStore s0 s) : OutSameStore s0
      (execDomainPowerDown d s) := by
  unfold execDomainPowerDown
  try dsimp only
  repeat' (first | with_reducible assumption | with_reducible apply stored_updDom | with_reducible apply OutSameStore.next | exact OutSameStore.fault _ | exact OutSameStore.refused _ | simp only [SameStore.mk3, SameStore.mk4] | (intro _) | split)

theorem stored_domWake {s0 : State} (s : State) (d : Fin 5) (hks : SameStore s0 s) : SameStore s0 (State.domWake s d) := by
  unfold State.domWake
  try dsimp only
  repeat' (first | with_reducible assumption | with_reducible apply stored_updDom | simp only [SameStore.mk3, SameStore.mk4] | (intro _) | split)

theorem stored_packetTo {s0 : State} (s : State) (d : Fin 5) (hks : SameStore s0 s) : SameStore s0 (State.packetTo s d) := by
  unfold State.packetTo
  try dsimp only
  repeat' (first | with_reducible assumption | with_reducible apply stored_domWake | simp only [SameStore.mk3, SameStore.mk4] | (intro _) | split)

theorem stored_execDomainWake {s0 : State} (d : Fin 5) (s : State) (hks : SameStore s0 s) : OutSameStore s0 (execDomainWake d
      s) := by
  unfold execDomainWake
  try dsimp only
  repeat' (first | with_reducible assumption | with_reducible apply stored_packetTo | with_reducible apply OutSameStore.next | exact OutSameStore.fault _ | exact OutSameStore.refused _ | simp only [SameStore.mk3, SameStore.mk4] | (intro _) | split)

theorem stored_execLullEntry {s0 : State} (s : State) (hks : SameStore s0 s) : OutSameStore s0 (execLullEntry s) := by
  unfold execLullEntry
  try dsimp only
  repeat' (first | with_reducible assumption | with_reducible apply OutSameStore.next | exact OutSameStore.fault _ | exact OutSameStore.refused _ | simp only [SameStore.mk3, SameStore.mk4] | (intro _) | split)

theorem stored_execLullExit {s0 : State} (_ev : WakeEvent) (s : State) (hks : SameStore s0 s) : OutSameStore s0 (execLullExit
      _ev s) := by
  unfold execLullExit
  try dsimp only
  repeat' (first | with_reducible assumption | with_reducible apply stored_endLull | with_reducible apply OutSameStore.next | exact OutSameStore.fault _ | exact OutSameStore.refused _ | simp only [SameStore.mk3, SameStore.mk4] | (intro _) | split)

theorem stored_unpair {s0 : State} (s : State) (reason : BitVec 3) (hks : SameStore s0 s) : SameStore s0 (State.unpair s
      reason) := by
  unfold State.unpair
  try dsimp only
  repeat' (first | with_reducible assumption | with_reducible apply stored_raise | with_reducible apply stored_raiseRecStatus | simp only [SameStore.mk3, SameStore.mk4] | (intro _) | split)

theorem stored_enterResync {s0 : State} (s : State) (hks : SameStore s0 s) : SameStore s0 (State.enterResync s) := by
  unfold State.enterResync
  try dsimp only
  repeat' (first | with_reducible assumption | with_reducible apply stored_sendLong | simp only [SameStore.mk3, SameStore.mk4] | (intro _) | split)

theorem stored_pairCheck {s0 : State} (s : State) (hks : SameStore s0 s) : SameStore s0 (State.pairCheck s) := by
  unfold State.pairCheck
  try dsimp only
  repeat' (first | with_reducible assumption | with_reducible apply stored_unpair | with_reducible apply stored_enterResync | simp only [SameStore.mk3, SameStore.mk4] | (intro _) | split)

theorem stored_readSeq {s0 : State} (s : State) (hks : SameStore s0 s) : SameStore s0 (State.readSeq s) := by
  unfold State.readSeq
  try dsimp only
  repeat' (first | with_reducible assumption | simp only [SameStore.mk3, SameStore.mk4] | (intro _) | split)

theorem stored_reloadAll {s0 : State} (s : State) (hks : SameStore s0 s) : SameStore s0 (State.reloadAll s) := by
  unfold State.reloadAll
  try dsimp only
  repeat' (first | with_reducible assumption | with_reducible apply stored_reloadKeys | with_reducible apply SameStore.foldl | simp only [SameStore.mk3, SameStore.mk4] | (intro _) | split)

theorem stored_reportSquall {s0 : State} (s : State) (complete : Bool) (hks : SameStore s0 s) : SameStore s0
      (State.reportSquall s complete) := by
  unfold State.reportSquall
  try dsimp only
  repeat' (first | with_reducible assumption | with_reducible apply stored_raise | with_reducible apply stored_record | simp only [SameStore.mk3, SameStore.mk4] | (intro _) | split)

theorem stored_reportLost {s0 : State} (s : State) (t : Tid) (miss : List Nat) (hks : SameStore s0 s) : SameStore s0
      (State.reportLost s t miss) := by
  unfold State.reportLost
  try dsimp only
  repeat' (first | with_reducible assumption | with_reducible apply stored_raise | with_reducible apply stored_record | with_reducible apply SameStore.foldl | simp only [SameStore.mk3, SameStore.mk4] | (intro _) | split)

theorem stored_compareHead {s0 : State} (s : State) (t : Tid) (lost : Bool) (hks : SameStore s0 s) : SameStore s0
      (State.compareHead s t lost) := by
  unfold State.compareHead
  try dsimp only
  repeat' (first | with_reducible assumption | with_reducible apply stored_drawn | with_reducible apply stored_raiseRec | simp only [SameStore.mk3, SameStore.mk4] | (intro _) | split)

theorem stored_redoErases {s0 : State} (s : State) (hks : SameStore s0 s) : SameStore s0 (State.redoErases s) := by
  unfold State.redoErases
  try dsimp only
  repeat' (first | with_reducible assumption | with_reducible apply stored_updSb | with_reducible apply stored_queueErases | with_reducible apply stored_eraseSb | with_reducible apply SameStore.foldl | simp only [SameStore.mk3, SameStore.mk4] | (intro _) | split)

theorem stored_confirmSlot {s0 : State} (s : State) (hks : SameStore s0 s) : SameStore s0 (State.confirmSlot s) := by
  unfold State.confirmSlot
  try dsimp only
  repeat' (first | with_reducible assumption | with_reducible apply stored_writeRec | simp only [SameStore.mk3, SameStore.mk4] | (intro _) | split)

theorem stored_wakeHost {s0 : State} (s : State) (hks : SameStore s0 s) : SameStore s0 (State.wakeHost s) := by
  unfold State.wakeHost
  try dsimp only
  repeat' (first | with_reducible assumption | with_reducible apply stored_emit | simp only [SameStore.mk3, SameStore.mk4] | (intro _) | split)

theorem stored_setRcv {s0 : State} (s : State) (st : Nat) (err : Byte) (hks : SameStore s0 s) : SameStore s0 (State.setRcv s st
      err) := by
  unfold State.setRcv
  try dsimp only
  repeat' (first | with_reducible assumption | simp only [SameStore.mk3, SameStore.mk4] | (intro _) | split)

theorem stored_rcvFail {s0 : State} (s : State) (err : Byte) (hks : SameStore s0 s) : SameStore s0 (State.rcvFail s err) := by
  unfold State.rcvFail
  try dsimp only
  repeat' (first | with_reducible assumption | with_reducible apply stored_raise | with_reducible apply stored_setRcv | simp only [SameStore.mk3, SameStore.mk4] | (intro _) | split)

theorem stored_rcvBusy {s0 : State} (s : State) (hks : SameStore s0 s) : SameStore s0 (State.rcvBusy s) := by
  unfold State.rcvBusy
  try dsimp only
  repeat' (first | with_reducible assumption | with_reducible apply stored_raise | with_reducible apply stored_setRcv | simp only [SameStore.mk3, SameStore.mk4] | (intro _) | split)

theorem stored_rcvStart_start {s0 : State} (s : State) (spi : Bool) (target total : Nat) (hks : SameStore s0 s) :
    SameStore s0 (State.rcvStart.start s spi target total) := by
  unfold State.rcvStart.start
  repeat' (first | with_reducible assumption | with_reducible apply stored_rcvFail | with_reducible apply stored_setRcv | simp only [SameStore.mk3] | split)

theorem stored_rcvStart {s0 : State} (s : State) (spi : Bool) (target total : Nat) (hks : SameStore s0 s) : SameStore s0
      (State.rcvStart s spi target total) := by
  unfold State.rcvStart
  repeat' (first | with_reducible assumption | with_reducible apply stored_rcvBusy | with_reducible apply stored_rcvStart_start | split)

theorem stored_rcvBytes {s0 : State} (s : State) (x : RcvSession) (off : Nat) (b : List Byte) (hks : SameStore s0 s) :
      SameStore s0 (State.rcvBytes s x off b) := by
  unfold State.rcvBytes
  try dsimp only
  repeat' (first | with_reducible assumption | with_reducible apply stored_raise | with_reducible apply stored_setRcv | with_reducible apply stored_rcvFail | simp only [SameStore.mk3, SameStore.mk4] | (intro _) | split)

theorem stored_rcvWrite {s0 : State} (s : State) (target : Nat) (b : List Byte) (hks : SameStore s0 s) : SameStore s0
      (State.rcvWrite s target b) := by
  unfold State.rcvWrite
  try dsimp only
  repeat' (first | with_reducible assumption | with_reducible apply stored_norWrite | with_reducible apply stored_writeRec | simp only [SameStore.mk3, SameStore.mk4] | (intro _) | split)

theorem stored_otpFailed {s0 : State} (s : State) (hks : SameStore s0 s) : SameStore s0 (State.otpFailed s) := by
  unfold State.otpFailed
  try dsimp only
  repeat' (first | with_reducible assumption | with_reducible apply stored_drawn | with_reducible apply stored_recordAs | with_reducible apply stored_rcvFail | simp only [SameStore.mk3, SameStore.mk4] | (intro _) | split)

theorem stored_mailStart {s0 : State} (s : State) (hks : SameStore s0 s) : SameStore s0 (State.mailStart s) := by
  unfold State.mailStart
  try dsimp only
  repeat' (first | with_reducible assumption | with_reducible apply stored_rcvStart | simp only [SameStore.mk3, SameStore.mk4] | (intro _) | split)

theorem stored_mailChunk {s0 : State} (s : State) (data : List Byte) (failed : Bool) (hks : SameStore s0 s) : SameStore s0
      (State.mailChunk s data failed) := by
  unfold State.mailChunk
  try dsimp only
  repeat' (first | with_reducible assumption | with_reducible apply stored_emit | with_reducible apply stored_rcvFail | with_reducible apply stored_rcvBytes | simp only [SameStore.mk3, SameStore.mk4] | (intro _) | split)

theorem stored_mailAbort {s0 : State} (s : State) (hks : SameStore s0 s) : SameStore s0 (State.mailAbort s) := by
  unfold State.mailAbort
  try dsimp only
  repeat' (first | with_reducible assumption | with_reducible apply stored_setRcv | simp only [SameStore.mk3, SameStore.mk4] | (intro _) | split)

theorem stored_rcvAnswer {s0 : State} (s : State) (hdr : Word) (hks : SameStore s0 s) : SameStore s0 (State.rcvAnswer s hdr)
      := by
  unfold State.rcvAnswer
  try dsimp only
  repeat' (first | with_reducible assumption | simp only [SameStore.mk3, SameStore.mk4] | (intro _) | split)

theorem stored_rcvFrame {s0 : State} (s : State) (type : Nat) (hdr : Word) (payload : List Word) (crc : Word) (act : State)
      (hks : SameStore s0 s) (hkact : SameStore s0 act) : SameStore s0 (State.rcvFrame s type hdr payload crc act) := by
  unfold State.rcvFrame
  try dsimp only
  repeat' (first | with_reducible assumption | with_reducible apply stored_raise | with_reducible apply stored_setRcv | with_reducible apply stored_rcvAnswer | simp only [SameStore.mk3, SameStore.mk4] | (intro _) | split)

theorem stored_execRecoveryFrameStart {s0 : State} (hdr : Word) (payload : List Word) (crc : Word) (s : State) (hks : SameStore
      s0 s) : OutSameStore s0 (execRecoveryFrameStart hdr payload crc s) := by
  unfold execRecoveryFrameStart
  try dsimp only
  repeat' (first | with_reducible assumption | with_reducible apply stored_rcvStart | with_reducible apply stored_rcvFrame | with_reducible apply OutSameStore.next | exact OutSameStore.fault _ | exact OutSameStore.refused _ | simp only [SameStore.mk3, SameStore.mk4] | (intro _) | split)

theorem stored_execRecoveryFrameData {s0 : State} (hdr : Word) (payload : List Word) (crc : Word) (s : State) (hks : SameStore
      s0 s) : OutSameStore s0 (execRecoveryFrameData hdr payload crc s) := by
  unfold execRecoveryFrameData
  try dsimp only
  repeat' (first | with_reducible assumption | with_reducible apply stored_rcvFail | with_reducible apply stored_rcvBytes | with_reducible apply stored_rcvFrame | with_reducible apply OutSameStore.next | exact OutSameStore.fault _ | exact OutSameStore.refused _ | simp only [SameStore.mk3, SameStore.mk4] | (intro _) | split)

theorem stored_execRecoveryFrameStatus {s0 : State} (hdr : Word) (payload : List Word) (crc : Word) (s : State) (hks :
      SameStore s0 s) : OutSameStore s0 (execRecoveryFrameStatus hdr payload crc s) := by
  unfold execRecoveryFrameStatus
  try dsimp only
  repeat' (first | with_reducible assumption | with_reducible apply stored_rcvFrame | with_reducible apply OutSameStore.next | exact OutSameStore.fault _ | exact OutSameStore.refused _ | simp only [SameStore.mk3, SameStore.mk4] | (intro _) | split)

theorem stored_linkFail {s0 : State} (s : State) (port : Fin 4) (step : Nat) (hks : SameStore s0 s) : SameStore s0
      (State.linkFail s port step) := by
  unfold State.linkFail
  try dsimp only
  repeat' (first | with_reducible assumption | with_reducible apply stored_raiseRec | with_reducible apply stored_linkLeave | simp only [SameStore.mk3, SameStore.mk4] | (intro _) | split)

theorem stored_sendHello {s0 : State} (s : State) (port : Fin 4) (f : VflS → VflS) (hks : SameStore s0 s) : SameStore s0
      (State.sendHello s port f) := by
  unfold State.sendHello
  try dsimp only
  repeat' (first | with_reducible assumption | with_reducible apply stored_updVfl | with_reducible apply stored_sendOn | with_reducible refine SameStoreK2.elim (stored_drbg _ ?_) ‹_› | with_reducible apply stored_drbg | exact fun h => h | simp only [SameStore.mk3, SameStore.mk4] | (intro _) | split)

theorem stored_gainLock {s0 : State} (s : State) (port : Fin 4) (hks : SameStore s0 s) : SameStore s0 (State.gainLock s port)
      := by
  unfold State.gainLock
  try dsimp only
  repeat' (first | with_reducible assumption | with_reducible apply stored_advDue | with_reducible apply stored_sendHello | exact fun _ h => h | simp only [SameStore.mk3, SameStore.mk4] | (intro _) | split)

theorem stored_execBlockLock {s0 : State} (port : Fin 4) (s : State) (hks : SameStore s0 s) : OutSameStore s0 (execBlockLock
      port s) := by
  unfold execBlockLock
  try dsimp only
  repeat' (first | with_reducible assumption | with_reducible apply stored_gainLock | with_reducible apply OutSameStore.next | exact OutSameStore.fault _ | exact OutSameStore.refused _ | simp only [SameStore.mk3, SameStore.mk4] | (intro _) | split)

theorem stored_execFabWakeProbe {s0 : State} (locks : BitVec 4) (s : State) (hks : SameStore s0 s) : OutSameStore s0
      (execFabWakeProbe locks s) := by
  unfold execFabWakeProbe
  try dsimp only
  repeat' (first | with_reducible assumption | with_reducible apply stored_startPorts | with_reducible apply stored_updDom | with_reducible apply stored_domWake | with_reducible apply stored_gainLock | with_reducible apply OutSameStore.next | exact OutSameStore.fault _ | exact OutSameStore.refused _ | with_reducible apply SameStore.foldl | simp only [SameStore.mk3, SameStore.mk4] | (intro _) | split)

theorem stored_execHello {s0 : State} (port : Fin 4) (cert : List Byte) (eph : Wide) (s : State) (hks : SameStore s0 s) :
      OutSameStore s0 (execHello port cert eph s) := by
  unfold execHello
  try dsimp only
  repeat' (first | with_reducible assumption | with_reducible apply stored_raise | with_reducible apply stored_updVfl | with_reducible apply stored_sendOn | with_reducible apply stored_linkFail | with_reducible apply stored_sendHello | with_reducible apply OutSameStore.next | exact OutSameStore.fault _ | exact OutSameStore.refused _ | exact fun _ h => h | exact fun h => h | simp only [SameStore.mk3, SameStore.mk4] | (intro _) | split)

theorem stored_topologyChanged {s0 : State} (s : State) (hks : SameStore s0 s) : SameStore s0 (State.topologyChanged s) := by
  unfold State.topologyChanged
  try dsimp only
  repeat' (first | with_reducible assumption | with_reducible apply stored_raise | with_reducible apply SameStoreK1.getD | simp only [SameStore.mk3, SameStore.mk4] | (intro _) | split)

theorem stored_execConfirm {s0 : State} (port : Fin 4) (sig : Wide) (s : State) (hks : SameStore s0 s) : OutSameStore s0
      (execConfirm port sig s) := by
  unfold execConfirm
  try dsimp only
  repeat' (first | with_reducible assumption | with_reducible apply stored_raise | with_reducible apply stored_updVfl | with_reducible apply stored_drainPort | with_reducible apply stored_linkFail | with_reducible apply stored_topologyChanged | with_reducible apply OutSameStore.next | exact OutSameStore.fault _ | exact OutSameStore.refused _ | exact fun h => h | simp only [SameStore.mk3, SameStore.mk4] | (intro _) | split)

theorem stored_execBringupTimeout {s0 : State} (port : Fin 4) (s : State) (hks : SameStore s0 s) : OutSameStore s0
      (execBringupTimeout port s) := by
  unfold execBringupTimeout
  try dsimp only
  repeat' (first | with_reducible assumption | with_reducible apply stored_linkFail | with_reducible apply OutSameStore.next | exact OutSameStore.fault _ | exact OutSameStore.refused _ | simp only [SameStore.mk3, SameStore.mk4] | (intro _) | split)

theorem stored_execLinkRetry {s0 : State} (port : Fin 4) (s : State) (hks : SameStore s0 s) : OutSameStore s0 (execLinkRetry
      port s) := by
  unfold execLinkRetry
  try dsimp only
  repeat' (first | with_reducible assumption | with_reducible apply stored_advDue | with_reducible apply stored_updVfl | with_reducible apply OutSameStore.next | exact OutSameStore.fault _ | exact OutSameStore.refused _ | exact fun h => h | simp only [SameStore.mk3, SameStore.mk4] | (intro _) | split)

theorem stored_execRekey {s0 : State} (port : Fin 4) (s : State) (hks : SameStore s0 s) : OutSameStore s0 (execRekey port s)
      := by
  unfold execRekey
  try dsimp only
  repeat' (first | with_reducible assumption | with_reducible apply stored_raise | with_reducible refine SameStoreK2.elim (stored_drbg _ ?_) ‹_› | with_reducible apply stored_drbg | with_reducible apply stored_sendHello | with_reducible apply OutSameStore.next | exact OutSameStore.fault _ | exact OutSameStore.refused _ | exact fun _ h => h | simp only [SameStore.mk3, SameStore.mk4] | (intro _) | split)

theorem stored_execBlockLockLoss {s0 : State} (port : Fin 4) (s : State) (hks : SameStore s0 s) : OutSameStore s0
      (execBlockLockLoss port s) := by
  unfold execBlockLockLoss
  try dsimp only
  repeat' (first | with_reducible assumption | with_reducible apply stored_updVfl | with_reducible apply stored_linkLeave | with_reducible apply OutSameStore.next | exact OutSameStore.fault _ | exact OutSameStore.refused _ | exact fun h => h | simp only [SameStore.mk3, SameStore.mk4] | (intro _) | split)

theorem stored_discardPkt {s0 : State} (s : State) (port : Fin 4) (gcm : Bool) (checks : Bool) (hks : SameStore s0 s) :
      SameStore s0 (State.discardPkt s port gcm checks) := by
  unfold State.discardPkt
  try dsimp only
  repeat' (first | with_reducible assumption | with_reducible apply stored_raise | with_reducible apply stored_updVfl | with_reducible apply stored_linkFail | exact fun h => h | simp only [SameStore.mk3, SameStore.mk4] | (intro _) | split)

theorem stored_forwardPkt {s0 : State} (s : State) (h : PktHdr) (clear : List Byte) (vc : Fin 3) (hks : SameStore s0 s) :
      SameStore s0 (State.forwardPkt s h clear vc) := by
  unfold State.forwardPkt
  try dsimp only
  repeat' (first | with_reducible assumption | with_reducible apply stored_sendPkt | simp only [SameStore.mk3, SameStore.mk4] | (intro _) | split)

theorem stored_execPacketReceive {s0 : State} (port : Fin 4) (h : PktHdr) (payload : List Byte) (s : State) (hks : SameStore s0
      s) : OutSameStore s0 (execPacketReceive port h payload s) := by
  unfold execPacketReceive
  try dsimp only
  repeat' (first | with_reducible assumption | with_reducible apply stored_emit | with_reducible apply stored_endLull | with_reducible apply stored_updVfl | with_reducible apply stored_discardPkt | with_reducible apply stored_forwardPkt | with_reducible apply OutSameStore.next | exact OutSameStore.fault _ | exact OutSameStore.refused _ | simp only [SameStore.mk3, SameStore.mk4] | (intro _) | split)

theorem stored_execCreditBlock {s0 : State} (port : Fin 4) (vc0 : BitVec 6) (vc1 : BitVec 6) (vc2 : BitVec 6) (s : State) (hks
      : SameStore s0 s) : OutSameStore s0 (execCreditBlock port vc0 vc1 vc2 s) := by
  unfold execCreditBlock
  try dsimp only
  repeat' (first | with_reducible assumption | with_reducible apply stored_updVfl | with_reducible apply stored_drainPort | with_reducible apply OutSameStore.next | exact OutSameStore.fault _ | exact OutSameStore.refused _ | exact fun h => h | simp only [SameStore.mk3, SameStore.mk4] | (intro _) | split)

theorem stored_execStuckPacketDrop {s0 : State} (port : Fin 4) (s : State) (hks : SameStore s0 s) : OutSameStore s0
      (execStuckPacketDrop port s) := by
  unfold execStuckPacketDrop
  try dsimp only
  repeat' (first | with_reducible assumption | with_reducible apply stored_updVfl | with_reducible apply OutSameStore.next | exact OutSameStore.fault _ | exact OutSameStore.refused _ | exact fun h => h | simp only [SameStore.mk3, SameStore.mk4] | (intro _) | split)

theorem stored_sendRequest {s0 : State} (s : State) (p : OutPkt) (tag : Option Tag) (tries : Nat) (held : Fin 4) (hks :
      SameStore s0 s) :
      SameStore s0 (State.sendRequest s p tag tries held) := by
  unfold State.sendRequest
  try dsimp only
  repeat' (first | with_reducible assumption | with_reducible apply stored_updVfl | with_reducible apply stored_sendLong | exact fun h => h | simp only [SameStore.mk3, SameStore.mk4] | (intro _) | split)

theorem stored_rreqLost {s0 : State} (s : State) (hks : SameStore s0 s) : SameStore s0 (State.rreqLost s) := by
  unfold State.rreqLost
  try dsimp only
  repeat' (first | with_reducible assumption | with_reducible apply stored_raise | simp only [SameStore.mk3, SameStore.mk4] | (intro _) | split)

theorem stored_serveRreq {s0 : State} (s : State) (hks : SameStore s0 s) : SameStore s0 (State.serveRreq s) := by
  unfold State.serveRreq
  try dsimp only
  repeat' (first | with_reducible assumption | with_reducible apply stored_sendRequest | with_reducible apply stored_rreqLost | simp only [SameStore.mk3, SameStore.mk4] | (intro _) | split)

theorem stored_endTxns {s0 : State} (s : State) (p : Txn → Bool) (hks : SameStore s0 s) : SameStore s0 (State.endTxns s p) := by
  unfold State.endTxns
  try dsimp only
  repeat' (first | with_reducible assumption | with_reducible apply stored_serveRreq | simp only [SameStore.mk3, SameStore.mk4] | (intro _) | split)

theorem stored_requestFailed {s0 : State} (s : State) (x : Txn) (hks : SameStore s0 s) : SameStore s0 (State.requestFailed s x)
      := by
  unfold State.requestFailed
  try dsimp only
  repeat' (first | with_reducible assumption | with_reducible apply stored_finish | with_reducible apply stored_rreqLost | simp only [SameStore.mk3, SameStore.mk4] | (intro _) | split)

theorem stored_execTransactionTimeout {s0 : State} (port : Fin 4) (txn : Fin 256) (s : State) (hks : SameStore s0 s) :
      OutSameStore s0 (execTransactionTimeout port txn s) := by
  unfold execTransactionTimeout
  try dsimp only
  repeat' (first | with_reducible assumption | with_reducible apply stored_updVfl | with_reducible apply stored_sendRequest | with_reducible apply stored_serveRreq | with_reducible apply stored_requestFailed | with_reducible apply OutSameStore.next | exact OutSameStore.fault _ | exact OutSameStore.refused _ | with_reducible apply SameStoreK1.getD | simp only [SameStore.mk3, SameStore.mk4] | (intro _) | split)

theorem stored_installFleet {s0 : State} (s : State) (hks : SameStore s0 s) : SameStore s0 (State.installFleet s) := by
  unfold State.installFleet
  try dsimp only
  repeat' (first | with_reducible assumption | with_reducible apply stored_raise | with_reducible apply stored_startPorts | simp only [SameStore.mk3, SameStore.mk4] | (intro _) | split)

theorem stored_installCert {s0 : State} (s : State) (hks : SameStore s0 s) : SameStore s0 (State.installCert s) := by
  unfold State.installCert
  try dsimp only
  repeat' (first | with_reducible assumption | with_reducible apply stored_raise | with_reducible apply stored_startPorts | simp only [SameStore.mk3, SameStore.mk4] | (intro _) | split)

theorem stored_floodAdv {s0 : State} (s : State) (a : Adv) (bytes : List Byte) (own : Bool) (dst : Fin 4 → Bool) (hks :
      SameStore s0 s) : SameStore s0 (State.floodAdv s a bytes own dst) := by
  unfold State.floodAdv
  try dsimp only
  repeat' (first | with_reducible assumption | with_reducible apply stored_sendOn | with_reducible apply SameStore.foldl | simp only [SameStore.mk3, SameStore.mk4] | (intro _) | split)

theorem stored_giveWay {s0 : State} (s : State) (other : Adv) (hks : SameStore s0 s) : SameStore s0 (State.giveWay s other) :=
      by
  unfold State.giveWay
  try dsimp only
  repeat' (first | with_reducible assumption | with_reducible apply stored_raiseRec | simp only [SameStore.mk3, SameStore.mk4] | (intro _) | split)

theorem stored_execNadv {s0 : State} (port : Fin 4) (payload : Vector Byte 128) (s : State) (hks : SameStore s0 s) :
      OutSameStore s0 (execNadv port payload s) := by
  unfold execNadv
  try dsimp only
  repeat' (first | with_reducible assumption | with_reducible apply stored_pairCheck | with_reducible apply stored_topologyChanged | with_reducible apply stored_floodAdv | with_reducible apply stored_giveWay | with_reducible apply OutSameStore.next | exact OutSameStore.fault _ | exact OutSameStore.refused _ | simp only [SameStore.mk3, SameStore.mk4] | (intro _) | split)

theorem stored_execAdvertisementOriginate {s0 : State} (s : State) (hks : SameStore s0 s) : OutSameStore s0
      (execAdvertisementOriginate s) := by
  unfold execAdvertisementOriginate
  try dsimp only
  repeat' (first | with_reducible assumption | with_reducible apply stored_floodAdv | with_reducible apply OutSameStore.next | exact OutSameStore.fault _ | exact OutSameStore.refused _ | simp only [SameStore.mk3, SameStore.mk4] | (intro _) | split)

theorem stored_execAdvertisementExpiry {s0 : State} (s : State) (hks : SameStore s0 s) : OutSameStore s0
      (execAdvertisementExpiry s) := by
  unfold execAdvertisementExpiry
  try dsimp only
  repeat' (first | with_reducible assumption | with_reducible apply stored_pairCheck | with_reducible apply stored_topologyChanged | with_reducible apply OutSameStore.next | exact OutSameStore.fault _ | exact OutSameStore.refused _ | simp only [SameStore.mk3, SameStore.mk4] | (intro _) | split)

theorem stored_execRemoteCopy {s0 : State} (tag : Tag) (s : State) (hks : SameStore s0 s) : OutSameStore s0 (execRemoteCopy tag
      s) := by
  unfold execRemoteCopy
  try dsimp only
  repeat' (first | with_reducible assumption | with_reducible apply stored_updCmd | with_reducible apply stored_finish | with_reducible apply stored_runOp | with_reducible apply stored_badState | with_reducible apply stored_sendRequest | with_reducible apply OutSameStore.next | exact OutSameStore.fault _ | exact OutSameStore.refused _ | simp only [SameStore.mk3, SameStore.mk4] | (intro _) | split)

theorem stored_sendCopy {s0 : State} (s : State) (tag : Tag) (c : Cmd) (z : Zone) (held : Fin 4) (hks : SameStore s0 s) :
      SameStore s0
      (State.sendCopy s tag c z held) := by
  unfold State.sendCopy
  try dsimp only
  repeat' (first | with_reducible assumption | with_reducible apply stored_sendPkt | with_reducible apply stored_sendLong | with_reducible apply stored_sendRequest | with_reducible apply SameStore.foldl | simp only [SameStore.mk3, SameStore.mk4] | (intro _) | split)

theorem stored_copyAccepted {s0 : State} (s : State) (tag : Tag) (c : Cmd) (z : Zone) (hks : SameStore s0 s) : SameStore s0
      (State.copyAccepted s tag c z) := by
  unfold State.copyAccepted
  try dsimp only
  repeat' (first | with_reducible assumption | with_reducible apply stored_endTxns | with_reducible apply stored_sendCopy | simp only [SameStore.mk3, SameStore.mk4] | (intro _) | split)

theorem stored_execCopyRsp {s0 : State} (tag : Tag) (a : CopyAnswer) (s : State) (hks : SameStore s0 s) : OutSameStore s0
      (execCopyRsp tag a s) := by
  unfold execCopyRsp
  try dsimp only
  repeat' (first | with_reducible assumption | with_reducible apply stored_finish | with_reducible apply stored_endTxns | with_reducible apply stored_copyAccepted | with_reducible apply OutSameStore.next | exact OutSameStore.fault _ | exact OutSameStore.refused _ | simp only [SameStore.mk3, SameStore.mk4] | (intro _) | split)

theorem stored_copyAnswer {s0 : State} (s : State) (src : BitVec 16) (a : CopyAnswer) (hks : SameStore s0 s) : SameStore s0
      (State.copyAnswer s src a) := by
  unfold State.copyAnswer
  try dsimp only
  repeat' (first | with_reducible assumption | with_reducible apply stored_sendPkt | simp only [SameStore.mk3, SameStore.mk4] | (intro _) | split)

theorem stored_refuseImport {s0 : State} (s : State) (src : BitVec 16) (cause : Byte) (hks : SameStore s0 s) : SameStore s0
      (State.refuseImport s src cause) := by
  unfold State.refuseImport
  try dsimp only
  repeat' (first | with_reducible assumption | with_reducible apply stored_raise | with_reducible apply stored_copyAnswer | simp only [SameStore.mk3, SameStore.mk4] | (intro _) | split)

theorem stored_execCopyData {s0 : State} (src : BitVec 16) (item : CopyItem) (s : State) (hks : SameStore s0 s) : OutSameStore
      s0 (execCopyData src item s) := by
  unfold execCopyData
  try dsimp only
  repeat' (first | with_reducible assumption | with_reducible apply OutSameStore.next | exact OutSameStore.fault _ | exact OutSameStore.refused _ | simp only [SameStore.mk3, SameStore.mk4] | (intro _) | split)

theorem stored_placeImport {s0 : State} (s : State) (d : BoardDesc) (z : Nat) (gen : Word) (log : List AppRec) (hks :
      SameStore s0 s) : SameStoreK1 s0 (State.placeImport s d z gen log) := by
  unfold State.placeImport
  try dsimp only
  repeat' (first | with_reducible assumption | with_reducible refine SameStoreK1.elim (stored_placeIn _ _ _ _ _ ?_) ‹_› | with_reducible apply stored_placeIn | with_reducible apply SameStoreK1.none | with_reducible apply SameStoreK1.some | with_reducible refine SameStoreK1.map (fun _ _ => ?_) ?_ | with_reducible refine SameStoreK1.foldl (fun _ _ _ => ?_) ?_ | with_reducible exact SameStoreK1.elim ‹_› ‹_› | with_reducible exact SameStoreK1.elim ‹_› rfl | with_reducible apply SameStore.foldl | simp only [SameStore.mk3, SameStore.mk4] | (intro _) | split)

theorem stored_execRreadReq {s0 : State} (src : BitVec 16) (kind : Bool) (seq : DWord) (n : Fin 33) (s : State) (hks :
      SameStore s0 s) : OutSameStore s0 (execRreadReq src kind seq n s) := by
  unfold execRreadReq
  try dsimp only
  repeat' (first | with_reducible assumption | with_reducible apply stored_sendLong | with_reducible apply OutSameStore.next | exact OutSameStore.fault _ | exact OutSameStore.refused _ | simp only [SameStore.mk3, SameStore.mk4] | (intro _) | split)

theorem stored_execRreadRsp {s0 : State} (refusedByNode : Bool) (bytes : List Byte) (s : State) (hks : SameStore s0 s) :
      OutSameStore s0 (execRreadRsp refusedByNode bytes s) := by
  unfold execRreadRsp
  try dsimp only
  repeat' (first | with_reducible assumption | with_reducible apply stored_emit | with_reducible apply stored_raise | with_reducible apply stored_endTxns | with_reducible apply OutSameStore.next | exact OutSameStore.fault _ | exact OutSameStore.refused _ | simp only [SameStore.mk3, SameStore.mk4] | (intro _) | split)

theorem stored_rreqGo {s0 : State} (s : State) (hks : SameStore s0 s) : SameStore s0 (State.rreqGo s) := by
  unfold State.rreqGo
  try dsimp only
  repeat' (first | with_reducible assumption | with_reducible apply stored_serveRreq | simp only [SameStore.mk3, SameStore.mk4] | (intro _) | split)

theorem stored_sendEvents {s0 : State} (s : State) (hks : SameStore s0 s) : SameStore s0 (State.sendEvents s) := by
  unfold State.sendEvents
  try dsimp only
  repeat' (first | with_reducible assumption | with_reducible apply stored_mirSend | with_reducible apply SameStore.foldl | simp only [SameStore.mk3, SameStore.mk4] | (intro _) | split)

theorem stored_execMirBeatSend {s0 : State} (s : State) (hks : SameStore s0 s) : OutSameStore s0 (execMirBeatSend s) := by
  unfold execMirBeatSend
  try dsimp only
  repeat' (first | with_reducible assumption | with_reducible apply stored_sendLong | with_reducible apply stored_sendEvents | with_reducible apply OutSameStore.next | exact OutSameStore.fault _ | exact OutSameStore.refused _ | simp only [SameStore.mk3, SameStore.mk4] | (intro _) | split)

theorem stored_execMirBeat {s0 : State} (marks : List Checkpoint) (s : State) (hks : SameStore s0 s) : OutSameStore s0
      (execMirBeat marks s) := by
  unfold execMirBeat
  try dsimp only
  repeat' (first | with_reducible assumption | with_reducible apply stored_enterResync | with_reducible apply stored_pairCheck | with_reducible apply OutSameStore.next | exact OutSameStore.fault _ | exact OutSameStore.refused _ | with_reducible apply SameStore.foldl | simp only [SameStore.mk3, SameStore.mk4] | (intro _) | split)

theorem stored_execPartnerSilence {s0 : State} (s : State) (hks : SameStore s0 s) : OutSameStore s0 (execPartnerSilence s) := by
  unfold execPartnerSilence
  try dsimp only
  repeat' (first | with_reducible assumption | with_reducible apply stored_mirLeave | with_reducible apply OutSameStore.next | exact OutSameStore.fault _ | exact OutSameStore.refused _ | simp only [SameStore.mk3, SameStore.mk4] | (intro _) | split)

theorem stored_execPowerLoss {s0 : State} (s : State) (hks : SameStore s0 s) : OutSameStore s0 (execPowerLoss s) := by
  unfold execPowerLoss
  try dsimp only
  repeat' (first | with_reducible assumption | with_reducible apply stored_record | with_reducible apply stored_mirLeave | with_reducible apply OutSameStore.next | exact OutSameStore.fault _ | exact OutSameStore.refused _ | simp only [SameStore.mk3, SameStore.mk4] | (intro _) | split)

theorem stored_execSpaceRetry {s0 : State} (s : State) (hks : SameStore s0 s) : OutSameStore s0 (execSpaceRetry s) := by
  unfold execSpaceRetry
  try dsimp only
  repeat' (first | with_reducible assumption | with_reducible apply stored_enterResync | with_reducible apply OutSameStore.next | exact OutSameStore.fault _ | exact OutSameStore.refused _ | simp only [SameStore.mk3, SameStore.mk4] | (intro _) | split)

theorem stored_sendAccept {s0 : State} (s : State) (t : Tid) (index : Nat) (refused : Bool) (hks : SameStore s0 s) : SameStore
      s0 (State.sendAccept s t index refused) := by
  unfold State.sendAccept
  try dsimp only
  repeat' (first | with_reducible assumption | with_reducible apply stored_sendPkt | simp only [SameStore.mk3, SameStore.mk4] | (intro _) | split)

theorem stored_onReplica {s0 : State} (s : State) (t : Tid) (src : Nat) (f : Nat → Zone → State) (hf : ∀ v0 v1, SameStore s0 (f
      v0 v1)) (hks : SameStore s0 s) : SameStore s0 (State.onReplica s t src f) := by
  unfold State.onReplica
  try dsimp only
  repeat' (first | with_reducible assumption | with_reducible apply hf | simp only [SameStore.mk3, SameStore.mk4] | (intro _) | split)

theorem stored_sendZoneState {s0 : State} (s : State) (id : Nat) (z : Zone) (hks : SameStore s0 s) : SameStore s0
      (State.sendZoneState s id z) := by
  unfold State.sendZoneState
  try dsimp only
  repeat' (first | with_reducible assumption | with_reducible apply stored_mirSend | simp only [SameStore.mk3, SameStore.mk4] | (intro _) | split)

theorem stored_resyncTenant {s0 : State} (s : State) (cps : List Checkpoint) (t : Tid) (hks : SameStore s0 s) : SameStore s0
      (State.resyncTenant s cps t) := by
  unfold State.resyncTenant
  try dsimp only
  repeat' (first | with_reducible assumption | with_reducible apply stored_sendLong | with_reducible apply stored_mirAppendSend | with_reducible apply stored_sendZoneState | with_reducible apply SameStore.foldl | with_reducible apply SameStoreK1.getD | simp only [SameStore.mk3, SameStore.mk4] | (intro _) | split)

theorem stored_supplyReading {s0 : State} (s : State) (slot : Nat) (mV : Int) (hks : SameStore s0 s) : SameStore s0
      (State.supplyReading s slot mV) := by
  unfold State.supplyReading
  try dsimp only
  repeat' (first | with_reducible assumption | with_reducible apply stored_raiseRec | simp only [SameStore.mk3, SameStore.mk4] | (intro _) | split)

theorem stored_dieReading {s0 : State} (s : State) (n : Nat) (r : Int) (hks : SameStore s0 s) : SameStore s0 (State.dieReading
      s n r) := by
  unfold State.dieReading
  try dsimp only
  repeat' (first | with_reducible assumption | with_reducible apply stored_raise | simp only [SameStore.mk3, SameStore.mk4] | (intro _) | split)

theorem stored_diodeReading {s0 : State} (s : State) (ok : Bool) (hks : SameStore s0 s) : SameStore s0 (State.diodeReading s
      ok) := by
  unfold State.diodeReading
  try dsimp only
  repeat' (first | with_reducible assumption | with_reducible apply stored_raise | simp only [SameStore.mk3, SameStore.mk4] | (intro _) | split)

theorem stored_execHousekeepingSlot {s0 : State} (reading : Int) (diodeOk : Bool) (s : State) (hks : SameStore s0 s) :
      OutSameStore s0 (execHousekeepingSlot reading diodeOk s) := by
  unfold execHousekeepingSlot
  try dsimp only
  repeat' (first | with_reducible assumption | with_reducible apply stored_vcapReading | with_reducible apply stored_supplyReading | with_reducible apply stored_dieReading | with_reducible apply stored_diodeReading | with_reducible apply OutSameStore.next | exact OutSameStore.fault _ | exact OutSameStore.refused _ | simp only [SameStore.mk3, SameStore.mk4] | (intro _) | split)

theorem stored_setVane {s0 : State} (s : State) (k : Fin 8) (hks : SameStore s0 s) : SameStore s0 (State.setVane s k) := by
  unfold State.setVane
  try dsimp only
  repeat' (first | with_reducible assumption | with_reducible apply stored_raise | with_reducible apply stored_raiseTenants | with_reducible apply stored_raiseRecStatus | simp only [SameStore.mk3, SameStore.mk4] | (intro _) | split)

theorem stored_vaneTime {s0 : State} (s : State) (hks : SameStore s0 s) : SameStore s0 (State.vaneTime s) := by
  unfold State.vaneTime
  try dsimp only
  repeat' (first | with_reducible assumption | simp only [SameStore.mk3, SameStore.mk4] | (intro _) | split)

theorem stored_bandTime {s0 : State} (s : State) (t : Int) (hks : SameStore s0 s) : SameStore s0 (State.bandTime s t) := by
  unfold State.bandTime
  try dsimp only
  repeat' (first | with_reducible assumption | with_reducible apply stored_raise | simp only [SameStore.mk3, SameStore.mk4] | (intro _) | split)

theorem stored_checkBalances {s0 : State} (s : State) (hks : SameStore s0 s) : SameStore s0 (State.checkBalances s) := by
  unfold State.checkBalances
  try dsimp only
  repeat' (first | with_reducible assumption | with_reducible apply stored_raiseRecStatus | with_reducible apply SameStore.foldl | simp only [SameStore.mk3, SameStore.mk4] | (intro _) | split)

theorem stored_execHousekeepingRound {s0 : State} (mr4 : Vector Byte 2) (s : State) (hks : SameStore s0 s) : OutSameStore s0
      (execHousekeepingRound mr4 s) := by
  unfold execHousekeepingRound
  try dsimp only
  repeat' (first | with_reducible assumption | with_reducible apply stored_endLull | with_reducible apply stored_raise | with_reducible apply stored_squallTrigger | with_reducible apply stored_ageMedia | with_reducible apply stored_endBoundary | with_reducible apply stored_meterServe | with_reducible apply stored_setVane | with_reducible apply stored_vaneTime | with_reducible apply stored_bandTime | with_reducible apply stored_checkBalances | with_reducible apply OutSameStore.next | exact OutSameStore.fault _ | exact OutSameStore.refused _ | simp only [SameStore.mk3, SameStore.mk4] | (intro _) | split)

theorem stored_execOperatingHour {s0 : State} (s : State) (hks : SameStore s0 s) : OutSameStore s0 (execOperatingHour s) := by
  unfold execOperatingHour
  try dsimp only
  repeat' (first | with_reducible assumption | with_reducible apply OutSameStore.next | exact OutSameStore.fault _ | exact OutSameStore.refused _ | simp only [SameStore.mk3, SameStore.mk4] | (intro _) | split)

theorem stored_execAgeingHour {s0 : State} (s : State) (hks : SameStore s0 s) : OutSameStore s0 (execAgeingHour s) := by
  unfold execAgeingHour
  try dsimp only
  repeat' (first | with_reducible assumption | with_reducible apply stored_raiseRecStatus | with_reducible apply OutSameStore.next | exact OutSameStore.fault _ | exact OutSameStore.refused _ | simp only [SameStore.mk3, SameStore.mk4] | (intro _) | split)

theorem stored_issueChallenge {s0 : State} (s : State) (hks : SameStore s0 s) : SameStore s0 (State.issueChallenge s) := by
  unfold State.issueChallenge
  try dsimp only
  repeat' (first | with_reducible assumption | with_reducible apply stored_drawn | with_reducible apply stored_emit | with_reducible refine SameStoreK2.elim (stored_drbg _ ?_) ‹_› | with_reducible apply stored_drbg | simp only [SameStore.mk3, SameStore.mk4] | (intro _) | split)

theorem stored_execTapInstruction {s0 : State} (code : BitVec 5) (s : State) (hks : SameStore s0 s) : OutSameStore s0
      (execTapInstruction code s) := by
  unfold execTapInstruction
  try dsimp only
  repeat' (first | with_reducible assumption | with_reducible apply stored_emit | with_reducible apply stored_issueChallenge | with_reducible apply OutSameStore.next | exact OutSameStore.fault _ | exact OutSameStore.refused _ | simp only [SameStore.mk3, SameStore.mk4] | (intro _) | split)

theorem stored_countUnlock {s0 : State} (s : State) (hks : SameStore s0 s) : SameStore s0 (State.countUnlock s) := by
  unfold State.countUnlock
  try dsimp only
  repeat' (first | with_reducible assumption | simp only [SameStore.mk3, SameStore.mk4] | (intro _) | split)

theorem stored_updDbg {s0 : State} (s : State) (f : DbgS → DbgS) (hks : SameStore s0 s) : SameStore s0 (State.updDbg s f) := by
  unfold State.updDbg
  try dsimp only
  repeat' (first | with_reducible assumption | simp only [SameStore.mk3, SameStore.mk4] | (intro _) | split)

theorem stored_execDmi {s0 : State} (op : DmiOp) (s : State) (hks : SameStore s0 s) : OutSameStore s0 (execDmi op s) := by
  unfold execDmi
  try dsimp only
  repeat' (first | with_reducible assumption | with_reducible apply stored_drawn | with_reducible apply stored_emit | with_reducible apply stored_retryRewrites | with_reducible apply stored_updDbg | with_reducible apply stored_writeReg | with_reducible refine SameStoreK3.elim (stored_readReg _ _ _ _ _ ?_) ‹_› | with_reducible apply stored_readReg | with_reducible apply OutSameStore.next | exact OutSameStore.fault _ | exact OutSameStore.refused _ | simp only [SameStore.mk3, SameStore.mk4] | (intro _) | split)

theorem stored_execSeqdbg {s0 : State} (engine : Fin 10) (op : SeqOp) (s : State) (hks : SameStore s0 s) : OutSameStore s0
      (execSeqdbg engine op s) := by
  unfold execSeqdbg
  try dsimp only
  repeat' (first | with_reducible assumption | with_reducible apply stored_emit | with_reducible apply stored_updDbg | with_reducible apply OutSameStore.next | exact OutSameStore.fault _ | exact OutSameStore.refused _ | simp only [SameStore.mk3, SameStore.mk4] | (intro _) | split)

theorem stored_touchPage {s0 : State} (s : State) (src : Src) (p : Page) (hks : SameStore s0 s) : SameStore s0 (State.touchPage
      s src p) := by
  unfold State.touchPage
  try dsimp only
  repeat' (first | with_reducible assumption | with_reducible apply stored_packetTo | simp only [SameStore.mk3, SameStore.mk4] | (intro _) | split)

theorem stored_refused {s0 : State} (s : State) (p : Page) (off : Nat) (cause : Byte) (hks : SameStore s0 s) : SameStore s0
      (State.refused s p off cause) := by
  unfold State.refused
  try dsimp only
  repeat' (first | with_reducible assumption | with_reducible apply stored_updTnt | with_reducible apply stored_raise | simp only [SameStore.mk3, SameStore.mk4] | (intro _) | split)

theorem stored_clearStatus {s0 : State} (s : State) (p : Page) (v : Word) (hks : SameStore s0 s) : SameStore s0
      (State.clearStatus s p v) := by
  unfold State.clearStatus
  try dsimp only
  repeat' (first | with_reducible assumption | with_reducible apply stored_updHdr | with_reducible apply stored_requestTenant | with_reducible apply stored_updInta | with_reducible apply SameStore.foldl | simp only [SameStore.mk3, SameStore.mk4] | (intro _) | split)

theorem stored_setEnable {s0 : State} (s : State) (p : Page) (v : Word) (hks : SameStore s0 s) : SameStore s0 (State.setEnable
      s p v) := by
  unfold State.setEnable
  try dsimp only
  repeat' (first | with_reducible assumption | with_reducible apply stored_updHdr | with_reducible apply stored_requestBlock | with_reducible apply stored_noticeBlock | with_reducible apply stored_requestTenant | with_reducible apply stored_updInta | with_reducible apply SameStore.foldl | simp only [SameStore.mk3, SameStore.mk4] | (intro _) | split)

theorem stored_forceStatus {s0 : State} (s : State) (p : Page) (v : Word) (hks : SameStore s0 s) : SameStore s0
      (State.forceStatus s p v) := by
  unfold State.forceStatus
  try dsimp only
  repeat' (first | with_reducible assumption | with_reducible apply stored_raise | with_reducible apply SameStore.foldl | simp only [SameStore.mk3, SameStore.mk4] | (intro _) | split)

theorem stored_lockFeatures {s0 : State} (s : State) (hks : SameStore s0 s) : SameStore s0 (State.lockFeatures s) := by
  unfold State.lockFeatures
  try dsimp only
  repeat' (first | with_reducible assumption | simp only [SameStore.mk3, SameStore.mk4] | (intro _) | split)

theorem stored_rstCtrl {s0 : State} (s : State) (v : Word) (hks : SameStore s0 s) : SameStore s0 (State.rstCtrl s v) := by
  unfold State.rstCtrl
  try dsimp only
  repeat' (first | with_reducible assumption | with_reducible apply stored_squallTrigger | simp only [SameStore.mk3, SameStore.mk4] | (intro _) | split)

theorem stored_certCtrl {s0 : State} (s : State) (v : Word) (hks : SameStore s0 s) : SameStore s0 (State.certCtrl s v) := by
  unfold State.certCtrl
  try dsimp only
  repeat' (first | with_reducible assumption | with_reducible apply stored_installFleet | with_reducible apply stored_installCert | simp only [SameStore.mk3, SameStore.mk4] | (intro _) | split)

theorem stored_storeReg {s0 : State} (s : State) (p : Page) (off : Nat) (r : Reg) (mask : Word) (v : Word) (hks : SameStore s0
      s) : SameStore s0 (State.storeReg s p off r mask v) := by
  unfold State.storeReg
  try dsimp only
  repeat' (first | with_reducible assumption | with_reducible apply stored_setReg | simp only [SameStore.mk3, SameStore.mk4] | (intro _) | split)

theorem stored_rerequest {s0 : State} (s : State) (p : Page) (b : Nat) (hks : SameStore s0 s) : SameStore s0 (State.rerequest
      s p b) := by
  unfold State.rerequest
  try dsimp only
  repeat' (first | with_reducible assumption | with_reducible apply stored_requestBlock | simp only [SameStore.mk3, SameStore.mk4] | (intro _) | split)

theorem stored_execReservedAccess {s0 : State} (space : BarSpace) (off : BitVec 20) (be : BitVec 4) (read : Bool) (s : State)
      (hks : SameStore s0 s) : OutSameStore s0 (execReservedAccess space off be read s) := by
  unfold execReservedAccess
  try dsimp only
  repeat' (first | with_reducible assumption | with_reducible apply stored_emit | with_reducible apply stored_countErr | with_reducible apply stored_touchPage | with_reducible apply OutSameStore.next | exact OutSameStore.fault _ | exact OutSameStore.refused _ | simp only [SameStore.mk3, SameStore.mk4] | (intro _) | split)

theorem stored_capture {s0 : State} (s : State) (p : Page) (off : Nat) (hks : SameStore s0 s) : SameStore s0 (State.capture s p
      off) := by
  unfold State.capture
  try dsimp only
  repeat' (first | with_reducible assumption | with_reducible apply stored_updVfl | exact fun h => h | with_reducible apply SameStore.foldl | simp only [SameStore.mk3, SameStore.mk4] | (intro _) | split)

theorem stored_readReg {s0 : State} (s : State) (src : Src) (be : BitVec 4) (p : Page) (off : Nat) (hks : SameStore s0 s) :
      SameStoreK3 s0 (State.readReg s src be p off) := by
  unfold State.readReg
  try dsimp only
  repeat' (first | with_reducible assumption | with_reducible apply stored_countErr | with_reducible apply stored_touchPage | with_reducible apply stored_capture | with_reducible apply SameStoreK3.none | with_reducible apply SameStoreK3.some | simp only [SameStore.mk3, SameStore.mk4] | (intro _) | split)

theorem stored_hostRead {s0 : State} (s : State) (r : Rd) (p : Page) (off : Nat) (hks : SameStore s0 s) : OutSameStore s0
      (State.hostRead s r p off) := by
  unfold State.hostRead
  try dsimp only
  repeat' (first | with_reducible assumption | with_reducible apply stored_emit | with_reducible refine SameStoreK3.elim (stored_readReg _ _ _ _ _ ?_) ‹_› | with_reducible apply stored_readReg | with_reducible apply OutSameStore.next | exact OutSameStore.fault _ | exact OutSameStore.refused _ | simp only [SameStore.mk3, SameStore.mk4] | (intro _) | split)

theorem stored_execPwrBudgetAudit0 {s0 : State} (r : Rd) (s : State) (hks : SameStore s0 s) : OutSameStore s0
      (execPwrBudgetAudit0 r s) := by
  unfold execPwrBudgetAudit0
  try dsimp only
  repeat' (first | with_reducible assumption | with_reducible apply stored_hostRead | with_reducible apply OutSameStore.next | exact OutSameStore.fault _ | exact OutSameStore.refused _ | simp only [SameStore.mk3, SameStore.mk4] | (intro _) | split)

theorem stored_execHqmTagAudit0 {s0 : State} (r : Rd) (s : State) (hks : SameStore s0 s) : OutSameStore s0 (execHqmTagAudit0 r
      s) := by
  unfold execHqmTagAudit0
  try dsimp only
  repeat' (first | with_reducible assumption | with_reducible apply stored_hostRead | with_reducible apply OutSameStore.next | exact OutSameStore.fault _ | exact OutSameStore.refused _ | simp only [SameStore.mk3, SameStore.mk4] | (intro _) | split)

theorem stored_execMedSlotAudit0 {s0 : State} (r : Rd) (s : State) (hks : SameStore s0 s) : OutSameStore s0 (execMedSlotAudit0
      r s) := by
  unfold execMedSlotAudit0
  try dsimp only
  repeat' (first | with_reducible assumption | with_reducible apply stored_hostRead | with_reducible apply OutSameStore.next | exact OutSameStore.fault _ | exact OutSameStore.refused _ | simp only [SameStore.mk3, SameStore.mk4] | (intro _) | split)

theorem stored_execBpmAudit0 {s0 : State} (r : Rd) (s : State) (hks : SameStore s0 s) : OutSameStore s0 (execBpmAudit0 r s) :=
      by
  unfold execBpmAudit0
  try dsimp only
  repeat' (first | with_reducible assumption | with_reducible apply stored_hostRead | with_reducible apply OutSameStore.next | exact OutSameStore.fault _ | exact OutSameStore.refused _ | simp only [SameStore.mk3, SameStore.mk4] | (intro _) | split)

theorem stored_execVflCreditAudit {s0 : State} (n : Fin 4) (r : Rd) (s : State) (hks : SameStore s0 s) : OutSameStore s0
      (execVflCreditAudit n r s) := by
  unfold execVflCreditAudit
  try dsimp only
  repeat' (first | with_reducible assumption | with_reducible apply stored_hostRead | with_reducible apply OutSameStore.next | exact OutSameStore.fault _ | exact OutSameStore.refused _ | simp only [SameStore.mk3, SameStore.mk4] | (intro _) | split)

theorem stored_execMtrAudit0 {s0 : State} (r : Rd) (s : State) (hks : SameStore s0 s) : OutSameStore s0 (execMtrAudit0 r s) :=
      by
  unfold execMtrAudit0
  try dsimp only
  repeat' (first | with_reducible assumption | with_reducible apply stored_hostRead | with_reducible apply OutSameStore.next | exact OutSameStore.fault _ | exact OutSameStore.refused _ | simp only [SameStore.mk3, SameStore.mk4] | (intro _) | split)

theorem stored_execMtrUtcLo {s0 : State} (r : Rd) (s : State) (hks : SameStore s0 s) : OutSameStore s0 (execMtrUtcLo r s) := by
  unfold execMtrUtcLo
  try dsimp only
  repeat' (first | with_reducible assumption | with_reducible apply stored_hostRead | with_reducible apply OutSameStore.next | exact OutSameStore.fault _ | exact OutSameStore.refused _ | simp only [SameStore.mk3, SameStore.mk4] | (intro _) | split)

theorem stored_execMtrAccLo {s0 : State} (r : Rd) (s : State) (hks : SameStore s0 s) : OutSameStore s0 (execMtrAccLo r s) := by
  unfold execMtrAccLo
  try dsimp only
  repeat' (first | with_reducible assumption | with_reducible apply stored_hostRead | with_reducible apply OutSameStore.next | exact OutSameStore.fault _ | exact OutSameStore.refused _ | simp only [SameStore.mk3, SameStore.mk4] | (intro _) | split)

theorem stored_execSealIndexLo {s0 : State} (r : Rd) (s : State) (hks : SameStore s0 s) : OutSameStore s0 (execSealIndexLo r s)
      := by
  unfold execSealIndexLo
  try dsimp only
  repeat' (first | with_reducible assumption | with_reducible apply stored_hostRead | with_reducible apply OutSameStore.next | exact OutSameStore.fault _ | exact OutSameStore.refused _ | simp only [SameStore.mk3, SameStore.mk4] | (intro _) | split)

theorem stored_execEvrNextSeqLo {s0 : State} (r : Rd) (s : State) (hks : SameStore s0 s) : OutSameStore s0 (execEvrNextSeqLo r
      s) := by
  unfold execEvrNextSeqLo
  try dsimp only
  repeat' (first | with_reducible assumption | with_reducible apply stored_hostRead | with_reducible apply OutSameStore.next | exact OutSameStore.fault _ | exact OutSameStore.refused _ | simp only [SameStore.mk3, SameStore.mk4] | (intro _) | split)

theorem stored_execMirPlogData0 {s0 : State} (r : Rd) (s : State) (hks : SameStore s0 s) : OutSameStore s0 (execMirPlogData0 r
      s) := by
  unfold execMirPlogData0
  try dsimp only
  repeat' (first | with_reducible assumption | with_reducible apply stored_hostRead | with_reducible apply OutSameStore.next | exact OutSameStore.fault _ | exact OutSameStore.refused _ | simp only [SameStore.mk3, SameStore.mk4] | (intro _) | split)

theorem stored_updI2ct {s0 : State} (s : State) (f : I2ctS → I2ctS) (hks : SameStore s0 s) : SameStore s0 (State.updI2ct s f)
      := by
  unfold State.updI2ct
  try dsimp only
  repeat' (first | with_reducible assumption | simp only [SameStore.mk3, SameStore.mk4] | (intro _) | split)

theorem stored_i2cCommand {s0 : State} (s : State) (pecOk : Bool) (act : State → State) (hact : ∀ v0, SameStore s0 v0 →
      SameStore s0 (act v0)) (hks : SameStore s0 s) : SameStore s0 (State.i2cCommand s pecOk act) := by
  unfold State.i2cCommand
  try dsimp only
  repeat' (first | with_reducible assumption | with_reducible apply stored_emit | with_reducible apply stored_raise | with_reducible apply stored_updI2ct | with_reducible apply hact | simp only [SameStore.mk3, SameStore.mk4] | (intro _) | split)

theorem stored_execPointer {s0 : State} (window : Byte) (addr : Word) (pecOk : Bool) (s : State) (hks : SameStore s0 s) :
      OutSameStore s0 (execPointer window addr pecOk s) := by
  unfold execPointer
  try dsimp only
  repeat' (first | with_reducible assumption | with_reducible apply stored_emit | with_reducible apply stored_updI2ct | with_reducible apply stored_i2cCommand | with_reducible apply OutSameStore.next | exact OutSameStore.fault _ | exact OutSameStore.refused _ | simp only [SameStore.mk3, SameStore.mk4] | (intro _) | split)

theorem stored_execMeterReq {s0 : State} (tenant : Byte) (nonce : QWord) (pecOk : Bool) (s : State) (hks : SameStore s0 s) :
      OutSameStore s0 (execMeterReq tenant nonce pecOk s) := by
  unfold execMeterReq
  try dsimp only
  repeat' (first | with_reducible assumption | with_reducible apply stored_emit | with_reducible apply stored_meterServe | with_reducible apply stored_updI2ct | with_reducible apply stored_i2cCommand | with_reducible apply OutSameStore.next | exact OutSameStore.fault _ | exact OutSameStore.refused _ | simp only [SameStore.mk3, SameStore.mk4] | (intro _) | split)

theorem stored_execReadN {s0 : State} (n : Byte) (_pecOk : Bool) (s : State) (hks : SameStore s0 s) : OutSameStore s0
      (execReadN n _pecOk s) := by
  unfold execReadN
  try dsimp only
  repeat' (first | with_reducible assumption | with_reducible apply stored_emit | with_reducible apply stored_updI2ct | with_reducible apply OutSameStore.next | exact OutSameStore.fault _ | exact OutSameStore.refused _ | simp only [SameStore.mk3, SameStore.mk4] | (intro _) | split)

theorem stored_freeByte {s0 : State} (s : State) (hks : SameStore s0 s) : SameStoreK4 s0 (State.freeByte s) := by
  unfold State.freeByte
  try dsimp only
  repeat' (first | with_reducible assumption | with_reducible apply stored_drawn | with_reducible apply SameStoreK4.mk | simp only [SameStore.mk3, SameStore.mk4] | (intro _) | split)

theorem stored_latchReg {s0 : State} (s : State) (off : Nat) (hks : SameStore s0 s) : SameStore s0 (State.latchReg s off) := by
  unfold State.latchReg
  try dsimp only
  repeat' (first | with_reducible assumption | with_reducible apply stored_countErr | with_reducible refine SameStoreK3.elim (stored_readReg _ _ _ _ _ ?_) ‹_› | with_reducible apply stored_readReg | with_reducible apply stored_updI2ct | simp only [SameStore.mk3, SameStore.mk4] | (intro _) | split)

theorem stored_registerByte {s0 : State} (s : State) (first : Bool) (hks : SameStore s0 s) : SameStoreK4 s0 (State.registerByte
      s first) := by
  unfold State.registerByte
  try dsimp only
  repeat' (first | with_reducible assumption | with_reducible apply stored_latchReg | with_reducible apply SameStoreK4.mk | simp only [SameStore.mk3, SameStore.mk4] | (intro _) | split)

theorem stored_windowByte {s0 : State} (s : State) (first : Bool) (hks : SameStore s0 s) : SameStoreK4 s0 (State.windowByte s
      first) := by
  unfold State.windowByte
  try dsimp only
  repeat' (first | with_reducible assumption | with_reducible apply SameStoreK4.fst; with_reducible apply stored_freeByte | with_reducible refine SameStoreK4.elim (stored_freeByte _ ?_) ‹_› | with_reducible apply stored_freeByte | with_reducible apply SameStoreK4.fst; with_reducible apply stored_registerByte | with_reducible refine SameStoreK4.elim (stored_registerByte _ _ ?_) ‹_› | with_reducible apply stored_registerByte | with_reducible apply SameStoreK4.mk | with_reducible apply SameStoreK1.getD | simp only [SameStore.mk3, SameStore.mk4] | (intro _) | split)

theorem stored_windowBytes {s0 : State} (n : Nat) (s : State) (f : Bool) (hks : SameStore s0 s) : SameStoreK4 s0
      (State.windowBytes n s f) := by
  induction n generalizing s f with
  | zero => exact ⟨hks⟩
  | succ k ih =>
    unfold State.windowBytes
    exact ⟨(ih _ _ (stored_updI2ct _ _ (stored_windowByte _ _ hks).fst)).fst⟩

theorem stored_execI2cRead {s0 : State} (n : Nat) (s : State) (hks : SameStore s0 s) : OutSameStore s0 (execI2cRead n s) := by
  unfold execI2cRead
  try dsimp only
  repeat' (first | with_reducible assumption | with_reducible apply stored_emit | with_reducible apply stored_updI2ct | with_reducible apply SameStoreK4.fst; with_reducible apply stored_windowBytes | with_reducible refine SameStoreK4.elim (stored_windowBytes _ _ _ ?_) ‹_› | with_reducible apply stored_windowBytes | with_reducible apply OutSameStore.next | exact OutSameStore.fault _ | exact OutSameStore.refused _ | simp only [SameStore.mk3, SameStore.mk4] | (intro _) | split)

theorem stored_execAlertResponse {s0 : State} (s : State) (hks : SameStore s0 s) : OutSameStore s0 (execAlertResponse s) := by
  unfold execAlertResponse
  try dsimp only
  repeat' (first | with_reducible assumption | with_reducible apply stored_drawn | with_reducible apply stored_emit | with_reducible apply stored_updI2ct | with_reducible apply OutSameStore.next | exact OutSameStore.fault _ | exact OutSameStore.refused _ | simp only [SameStore.mk3, SameStore.mk4] | (intro _) | split)

theorem stored_execSclTimeout {s0 : State} (s : State) (hks : SameStore s0 s) : OutSameStore s0 (execSclTimeout s) := by
  unfold execSclTimeout
  try dsimp only
  repeat' (first | with_reducible assumption | with_reducible apply stored_raise | with_reducible apply stored_updI2ct | with_reducible apply OutSameStore.next | exact OutSameStore.fault _ | exact OutSameStore.refused _ | simp only [SameStore.mk3, SameStore.mk4] | (intro _) | split)

theorem stored_eccCorrected {s0 : State} (s : State) (hks : SameStore s0 s) : SameStore s0 (State.eccCorrected s) := by
  unfold State.eccCorrected
  try dsimp only
  repeat' (first | with_reducible assumption | with_reducible apply stored_raise | simp only [SameStore.mk3, SameStore.mk4] | (intro _) | split)

theorem stored_eccEvent {s0 : State} (s : State) (m : MemKind) (addr : DWord) (owner : Nat) (tenant : Byte) (rec : Bool) (hks
      : SameStore s0 s) : SameStore s0 (State.eccEvent s m addr owner tenant rec) := by
  unfold State.eccEvent
  try dsimp only
  repeat' (first | with_reducible assumption | with_reducible apply stored_raise | with_reducible apply stored_raiseRec | simp only [SameStore.mk3, SameStore.mk4] | (intro _) | split)

theorem stored_readAgain {s0 : State} (s : State) (d : BoardDesc) (tag : Tag) (c : Cmd) (k : Nat) (hks : SameStore s0 s) :
      SameStore s0 (State.readAgain s d tag c k) := by
  unfold State.readAgain
  try dsimp only
  repeat' (first | with_reducible assumption | with_reducible apply stored_queueReads | simp only [SameStore.mk3, SameStore.mk4] | (intro _) | split)
end Sys2Proof.Machine
end

