-- ==== Sys2Proof/Laws/SameUnits.lean ====
section
/-!
SUPPORT. What leaves the units of `State.units` as they were: one lemma for each shared operation and for each command that does.
-/
set_option linter.unusedTactic false
set_option linter.unreachableTactic false
set_option linter.unusedVariables false
set_option linter.unusedSimpArgs false

namespace Sys2Proof.Machine
/-- `State.units` is the same. -/
structure SameUnits (s t : State) : Prop where
  eq : t.units = s.units
theorem SameUnits.rfl' (s : State) : SameUnits s s := ⟨rfl⟩
theorem SameUnits.trans {s t u : State} (h : SameUnits s t) (g : SameUnits t u) : SameUnits s u := ⟨g.eq.trans h.eq⟩
theorem SameUnits.mk3 {s x : State} {pending : List Instr} {now : Nat} {freeCtr : Nat} {outbox : List Output} {aon : AonS} {hdr
      : Vector PageHdr 128} {pins : Pins} {dev : DevS} {pwr : PwrS} {boot : BootS} {pcie : PcieS} {tnt : Vector Tenant 64} {hqm
      : HqmS} {ciph : CiphS} {sign : SignS} {med : MedS} {bpm : BpmS} {evr : EvrS} {mtr : MtrS} {i2ct : I2ctS} {vfl : Vector
      VflS 4} {vfr : VfrS} {mir : MirS} : SameUnits s (State.mk pending now freeCtr outbox aon x.nvm hdr x.regs pins dev x.clk
      pwr boot x.upd pcie x.troutes tnt hqm x.own ciph sign x.chainU med x.dram x.sram bpm x.squall evr mtr x.disp x.qspi
      x.spit i2ct x.i2ci x.gpio vfl vfr mir x.hkp x.thr x.dbg) = SameUnits s x := propext ⟨fun h => ⟨h.eq⟩, fun h => ⟨h.eq⟩⟩
theorem SameUnits.foldl {α : Type} {s x : State} {f : State → α → State} {l : List α} (g : ∀ a b, SameUnits s a → SameUnits s
      (f a b))
    (h : SameUnits s x) : SameUnits s (l.foldl f x) := by
  induction l generalizing x with
  | nil => exact h
  | cons b r ih => exact ih (g x b h)
theorem SameUnits.mk4 {s x : State} {pending : List Instr} {now : Nat} {freeCtr : Nat} {outbox : List Output} {aon :
    AonS} {hdr : Vector PageHdr 128} {pins : Pins} {dev : DevS} {pwr : PwrS} {boot : BootS} {pcie : PcieS} {tnt : Vector
    Tenant 64} {hqm : HqmS} {ciph : CiphS} {sign : SignS} {med : MedS} {bpm : BpmS} {evr : EvrS} {mtr : MtrS} {i2ct :
    I2ctS} {vfl : Vector VflS 4} {vfr : VfrS} {mir : MirS} {n_holdMin : KMap (Nat × Nat)} {n_keysX : KMap (List Byte)}
    {n_keysG : KMap (List Byte)} {n_zones : KMap Zone} {n_conv : KMap ConvBlk} {n_chains : Vector Chain 64}
    {n_storedHeads : Vector Chain 64} {n_sealRecs : KMap (List Byte)} {n_sealIndex : Nat} {n_permanent : List EvRec}
    {n_circ : List EvRec} {n_seqReserved : Nat} {n_evDropped : Nat} {n_ackLost : Nat} {n_squalls : Nat} {n_summary :
    SqSummary} {n_reachedFull : Bool} {n_zresets : List ZReset} {n_zresetNext : Nat} {n_accs : Vector Nat 512} {n_total
    : Nat} {n_ckptAccs : Vector Nat 512} {n_ckptTotal : Nat} {n_profile : List ProfRec} {n_profNext : Nat} {n_openInt :
    Option MeterSave} {n_utcStored : Nat} {n_timeSetEver : Bool} {n_optStored : Nat} {n_optExact : Bool} {n_cycles :
    Nat} {n_starts : Nat} {n_bandMs : Vector Nat 5} {n_stage : Fin 4} {n_mons : Vector Nat 8} {n_ageHour : Nat}
    {n_monOver : Vector (Vector Nat 3) 8} {n_unlocks : Nat} {n_readOnly : Bool} {n_sbs : KMap Superblock} {n_wear : KMap
    Nat} {n_bad : KMap Byte} {n_rebuilt : KMap Nat} {n_trims : List TrimRec} {n_sbNext : Nat} {n_failedDies : List Nat}
    {n_groups : Vector (Fin 4) 16} {n_widths : Vector Nat 16} {n_writeSeq : Nat} {n_stage_ : Option StageS}
    {n_partnerLog : List EvRec} {n_partnerAccs : Vector Nat 512} {n_partnerTotal : Nat} {n_partnerOwner : List Hash ×
    Bool} : SameUnits s (State.mk pending now freeCtr outbox aon (Nvm.mk x.nvm.nor x.nvm.boardHash x.nvm.floor
    x.nvm.ownerSlots x.nvm.repairs x.nvm.ownerKey x.nvm.updLock n_holdMin n_keysX n_keysG n_zones n_conv n_chains
    n_storedHeads n_sealRecs n_sealIndex n_permanent n_circ n_seqReserved n_evDropped n_ackLost n_squalls n_summary
    n_reachedFull n_zresets n_zresetNext n_accs n_total n_ckptAccs n_ckptTotal n_profile n_profNext n_openInt
    n_utcStored n_timeSetEver n_optStored n_optExact n_cycles n_starts n_bandMs n_stage n_mons n_ageHour n_monOver
    n_unlocks x.nvm.fleetKey x.nvm.cert n_readOnly n_sbs n_wear n_bad n_rebuilt n_trims n_sbNext n_failedDies n_groups
    n_widths n_writeSeq n_stage_ n_partnerLog n_partnerAccs n_partnerTotal n_partnerOwner) hdr x.regs pins dev x.clk pwr
    boot x.upd pcie x.troutes tnt hqm x.own ciph sign x.chainU med x.dram x.sram bpm x.squall evr mtr x.disp x.qspi
    x.spit i2ct x.i2ci x.gpio vfl vfr mir x.hkp x.thr x.dbg) = SameUnits s x := propext ⟨fun h => ⟨h.eq⟩, fun h =>
    ⟨h.eq⟩⟩
/-- A state that may be absent keeps. -/
structure SameUnitsK1 (s : State) (o : Option State) : Prop where
  out : ∀ t, o = some t → SameUnits s t
/-- As `SameUnitsK1`, with a result beside the state. -/
structure SameUnitsK2 {α : Type} (s : State) (o : Option (α × State)) : Prop where
  out : ∀ a t, o = some (a, t) → SameUnits s t
/-- As `SameUnitsK2`, the state first. -/
structure SameUnitsK3 {α : Type} (s : State) (o : Option (State × α)) : Prop where
  out : ∀ a t, o = some (t, a) → SameUnits s t
/-- A state with a result beside it keeps. -/
structure SameUnitsK4 {α : Type} (s : State) (p : State × α) : Prop where
  fst : SameUnits s p.1
/-- A state or a code keeps. -/
structure SameUnitsK5 {α ε : Type} (s : State) (o : Except ε (α × State)) : Prop where
  out : ∀ a t, o = .ok (a, t) → SameUnits s t

theorem SameUnitsK1.none {s : State} : SameUnitsK1 s none := ⟨fun _ h => by cases h⟩
theorem SameUnitsK1.some {s t : State} (h : SameUnits s t) : SameUnitsK1 s (some t) := ⟨fun _ e => by cases e; exact h⟩
theorem SameUnitsK1.elim {s t : State} {o : Option State} (h : SameUnitsK1 s o) (e : o = Option.some t) : SameUnits s t :=
      h.out _ e
theorem SameUnitsK1.getD {s x : State} {o : Option State} (h : SameUnitsK1 s o) (g : SameUnits s x) : SameUnits s (o.getD x) := by
  cases o with
  | none => exact g
  | some t => exact h.out _ rfl
theorem SameUnitsK1.findSome {α : Type} {s : State} {l : List α} {f : α → Option State} (h : ∀ a, SameUnitsK1 s (f a)) :
    SameUnitsK1 s (l.findSome? f) := ⟨fun _ e => by
  obtain ⟨_, a, _, _, h2, _⟩ := List.findSome?_eq_some_iff.mp e
  exact (h a).out _ h2⟩
theorem SameUnitsK2.findSome {α β : Type} {s : State} {l : List α} {f : α → Option (β × State)} (h : ∀ a, SameUnitsK2 s (f a)) :
    SameUnitsK2 s (l.findSome? f) := ⟨fun _ _ e => by
  obtain ⟨_, a, _, _, h2, _⟩ := List.findSome?_eq_some_iff.mp e
  exact (h a).out _ _ h2⟩
theorem SameUnitsK2.none {α : Type} {s : State} : SameUnitsK2 (α := α) s none := ⟨fun _ _ h => by cases h⟩
theorem SameUnitsK2.some {α : Type} {s t : State} {a : α} (h : SameUnits s t) : SameUnitsK2 s (some (a, t)) := ⟨fun _ _ e => by
      cases e; exact h⟩
theorem SameUnitsK2.elim {α : Type} {s t : State} {a : α} {o : Option (α × State)} (h : SameUnitsK2 s o) (e : o = Option.some
      (a, t)) :
    SameUnits s t := h.out _ _ e
theorem SameUnitsK3.none {α : Type} {s : State} : SameUnitsK3 (α := α) s none := ⟨fun _ _ h => by cases h⟩
theorem SameUnitsK3.some {α : Type} {s t : State} {a : α} (h : SameUnits s t) : SameUnitsK3 s (some (t, a)) := ⟨fun _ _ e => by
      cases e; exact h⟩
theorem SameUnitsK3.elim {α : Type} {s t : State} {a : α} {o : Option (State × α)} (h : SameUnitsK3 s o) (e : o = Option.some
      (t, a)) :
    SameUnits s t := h.out _ _ e
theorem SameUnitsK4.elim {α : Type} {s t : State} {a : α} {p : State × α} (h : SameUnitsK4 s p) (e : p = (t, a)) : SameUnits s
      t := by
  subst e; exact h.fst
theorem SameUnitsK5.error {α ε : Type} {s : State} {c : ε} : SameUnitsK5 (α := α) s (.error c) := ⟨fun _ _ h => by cases h⟩
theorem SameUnitsK5.ok {α ε : Type} {s t : State} {a : α} (h : SameUnits s t) : SameUnitsK5 (ε := ε) s (.ok (a, t)) := ⟨fun _ _
      e => by cases e; exact h⟩
theorem SameUnitsK5.elim {α ε : Type} {s t : State} {a : α} {o : Except ε (α × State)} (h : SameUnitsK5 s o) (e : o = .ok (a,
      t)) :
    SameUnits s t := h.out _ _ e

/-- An outcome keeps what a next state keeps. -/
def OutSameUnits (s : State) : Host.Outcome State Fault Refusal → Prop
  | .next t => SameUnits s t
  | _ => True

theorem OutSameUnits.next {s t : State} (h : SameUnits s t) : OutSameUnits s (.next t) := h
theorem OutSameUnits.fault {s : State} (f : Fault) : OutSameUnits s (.fault f) := True.intro
theorem OutSameUnits.refused {s : State} (r : Refusal) : OutSameUnits s (.refused r) := True.intro
theorem SameUnitsK4.foldl {α β : Type} {s : State} {f : State × β → α → State × β} {l : List α} {x : State × β}
    (g : ∀ a b, SameUnitsK4 s a → SameUnitsK4 s (f a b)) (h : SameUnitsK4 s x) : SameUnitsK4 s (l.foldl f x) := by
  induction l generalizing x with
  | nil => exact h
  | cons b r ih => exact ih (g x b h)
theorem SameUnitsK1.foldl {α : Type} {s : State} {f : Option State → α → Option State} {l : List α} {x : Option State}
    (g : ∀ a b, SameUnitsK1 s a → SameUnitsK1 s (f a b)) (h : SameUnitsK1 s x) : SameUnitsK1 s (l.foldl f x) := by
  induction l generalizing x with
  | nil => exact h
  | cons b r ih => exact ih (g x b h)
theorem SameUnitsK1.map {s : State} {f : State → State} {o : Option State} (g : ∀ t, SameUnits s t → SameUnits s (f t)) (h : SameUnitsK1 s o) :
    SameUnitsK1 s (o.map f) := ⟨fun t e => by
  cases o with
  | none => cases e
  | some y => cases e; exact g y (h.out y rfl)⟩

theorem units_drawn {s0 : State} (s : State) (hks : SameUnits s0 s) : SameUnits s0 (State.drawn s) := by
  unfold State.drawn
  try dsimp only
  repeat' (first | with_reducible assumption | simp only [SameUnits.mk3, SameUnits.mk4] | (intro _) | split)

theorem units_emit {s0 : State} (s : State) (o : Output) (hks : SameUnits s0 s) : SameUnits s0 (State.emit s o) := by
  unfold State.emit
  try dsimp only
  repeat' (first | with_reducible assumption | simp only [SameUnits.mk3, SameUnits.mk4] | (intro _) | split)

theorem units_endLull {s0 : State} (s : State) (hks : SameUnits s0 s) : SameUnits s0 (State.endLull s) := by
  unfold State.endLull
  try dsimp only
  repeat' (first | with_reducible assumption | simp only [SameUnits.mk3, SameUnits.mk4] | (intro _) | split)

theorem units_updHdr {s0 : State} (s : State) (p : Page) (f : PageHdr → PageHdr) (hks : SameUnits s0 s) : SameUnits s0
      (State.updHdr s p f) := by
  unfold State.updHdr
  try dsimp only
  repeat' (first | with_reducible assumption | simp only [SameUnits.mk3, SameUnits.mk4] | (intro _) | split)

theorem units_updTnt {s0 : State} (s : State) (t : Tid) (f : Tenant → Tenant) (hks : SameUnits s0 s) : SameUnits s0
      (State.updTnt s t f) := by
  unfold State.updTnt
  try dsimp only
  repeat' (first | with_reducible assumption | simp only [SameUnits.mk3, SameUnits.mk4] | (intro _) | split)

theorem units_updFn {s0 : State} (s : State) (n : Fn) (f : FnS → FnS) (hks : SameUnits s0 s) : SameUnits s0 (State.updFn s n f)
      := by
  unfold State.updFn
  try dsimp only
  repeat' (first | with_reducible assumption | simp only [SameUnits.mk3, SameUnits.mk4] | (intro _) | split)

theorem units_request {s0 : State} (s : State) (fn : Fn) (vec : Nat) (hks : SameUnits s0 s) : SameUnits s0 (State.request s fn
      vec) := by
  unfold State.request
  try dsimp only
  repeat' (first | with_reducible assumption | with_reducible apply units_emit | with_reducible apply units_updFn | simp only [SameUnits.mk3, SameUnits.mk4] | (intro _) | split)

theorem units_requestBlock {s0 : State} (s : State) (n : Nat) (hks : SameUnits s0 s) : SameUnits s0 (State.requestBlock s n)
      := by
  unfold State.requestBlock
  try dsimp only
  repeat' (first | with_reducible assumption | with_reducible apply units_request | simp only [SameUnits.mk3, SameUnits.mk4] | (intro _) | split)

theorem units_noticeBlock {s0 : State} (s : State) (n : Nat) (hks : SameUnits s0 s) : SameUnits s0 (State.noticeBlock s n) := by
  unfold State.noticeBlock
  try dsimp only
  repeat' (first | with_reducible assumption | with_reducible apply units_updTnt | simp only [SameUnits.mk3, SameUnits.mk4] | (intro _) | split)

theorem units_requestTenant {s0 : State} (s : State) (t : Tid) (q : Qid) (hks : SameUnits s0 s) : SameUnits s0
      (State.requestTenant s t q) := by
  unfold State.requestTenant
  try dsimp only
  repeat' (first | with_reducible assumption | with_reducible apply units_request | simp only [SameUnits.mk3, SameUnits.mk4] | (intro _) | split)

theorem units_updInta {s0 : State} (s : State) (hks : SameUnits s0 s) : SameUnits s0 (State.updInta s) := by
  unfold State.updInta
  try dsimp only
  repeat' (first | with_reducible assumption | with_reducible apply units_emit | simp only [SameUnits.mk3, SameUnits.mk4] | (intro _) | split)

theorem units_raise {s0 : State} (s : State) (p : Page) (b : Nat) (hks : SameUnits s0 s) : SameUnits s0 (State.raise s p b) :=
      by
  unfold State.raise
  try dsimp only
  repeat' (first | with_reducible assumption | with_reducible apply units_updHdr | with_reducible apply units_requestBlock | with_reducible apply units_noticeBlock | with_reducible apply units_requestTenant | simp only [SameUnits.mk3, SameUnits.mk4] | (intro _) | split)

theorem units_raiseTnt {s0 : State} (s : State) (t : Tid) (b : Nat) (hks : SameUnits s0 s) : SameUnits s0 (State.raiseTnt s t
      b) := by
  unfold State.raiseTnt
  try dsimp only
  repeat' (first | with_reducible assumption | with_reducible apply units_raise | simp only [SameUnits.mk3, SameUnits.mk4] | (intro _) | split)

theorem units_raiseTenants {s0 : State} (s : State) (p : State → Tid → Bool) (b : Nat) (hks : SameUnits s0 s) : SameUnits s0
      (State.raiseTenants s p b) := by
  unfold State.raiseTenants
  try dsimp only
  repeat' (first | with_reducible assumption | with_reducible apply units_raiseTnt | with_reducible apply SameUnits.foldl | simp only [SameUnits.mk3, SameUnits.mk4] | (intro _) | split)

theorem units_countErr {s0 : State} (s : State) (p : Page) (cause : Byte) (addr : Word) (hks : SameUnits s0 s) : SameUnits s0
      (State.countErr s p cause addr) := by
  unfold State.countErr
  try dsimp only
  repeat' (first | with_reducible assumption | with_reducible apply units_updHdr | with_reducible apply units_raise | simp only [SameUnits.mk3, SameUnits.mk4] | (intro _) | split)

theorem units_aerUncorrectable {s0 : State} (s : State) (fn : Fn) (bit : Nat) (hks : SameUnits s0 s) : SameUnits s0
      (State.aerUncorrectable s fn bit) := by
  unfold State.aerUncorrectable
  try dsimp only
  repeat' (first | with_reducible assumption | with_reducible apply units_updFn | with_reducible apply units_raise | simp only [SameUnits.mk3, SameUnits.mk4] | (intro _) | split)

theorem units_aerCorrectable {s0 : State} (s : State) (fn : Fn) (bit : Nat) (hks : SameUnits s0 s) : SameUnits s0
      (State.aerCorrectable s fn bit) := by
  unfold State.aerCorrectable
  try dsimp only
  repeat' (first | with_reducible assumption | with_reducible apply units_updFn | with_reducible apply units_raise | simp only [SameUnits.mk3, SameUnits.mk4] | (intro _) | split)

theorem units_aerAdvisory {s0 : State} (s : State) (fn : Fn) (bit : Nat) (hks : SameUnits s0 s) : SameUnits s0
      (State.aerAdvisory s fn bit) := by
  unfold State.aerAdvisory
  try dsimp only
  repeat' (first | with_reducible assumption | with_reducible apply units_updFn | with_reducible apply units_raise | with_reducible apply units_aerUncorrectable | simp only [SameUnits.mk3, SameUnits.mk4] | (intro _) | split)

theorem units_poisonReceived {s0 : State} (s : State) (fn : Fn) (hks : SameUnits s0 s) : SameUnits s0 (State.poisonReceived s
      fn) := by
  unfold State.poisonReceived
  try dsimp only
  repeat' (first | with_reducible assumption | with_reducible apply units_raise | with_reducible apply units_aerAdvisory | simp only [SameUnits.mk3, SameUnits.mk4] | (intro _) | split)

theorem units_reserveSeq {s0 : State} (s : State) (hks : SameUnits s0 s) : SameUnits s0 (State.reserveSeq s) := by
  unfold State.reserveSeq
  try dsimp only
  repeat' (first | with_reducible assumption | simp only [SameUnits.mk3, SameUnits.mk4] | (intro _) | split)

theorem units_countDropped {s0 : State} (s : State) (hks : SameUnits s0 s) : SameUnits s0 (State.countDropped s) := by
  unfold State.countDropped
  try dsimp only
  repeat' (first | with_reducible assumption | with_reducible apply units_raise | simp only [SameUnits.mk3, SameUnits.mk4] | (intro _) | split)

theorem units_bufferRec {s0 : State} (s : State) (r : EvRec) (hks : SameUnits s0 s) : SameUnits s0 (State.bufferRec s r) := by
  unfold State.bufferRec
  try dsimp only
  repeat' (first | with_reducible assumption | with_reducible apply units_reserveSeq | with_reducible apply units_countDropped | simp only [SameUnits.mk3, SameUnits.mk4] | (intro _) | split)

theorem units_critical {s0 : State} (s : State) (code : Nat) (hks : SameUnits s0 s) : SameUnits s0 (State.critical s code) := by
  unfold State.critical
  try dsimp only
  repeat' (first | with_reducible assumption | with_reducible apply units_raise | simp only [SameUnits.mk3, SameUnits.mk4] | (intro _) | split)

theorem units_recordAs {s0 : State} (s : State) (rom : Bool) (code : Nat) (sev : Fin 4) (tenant : Byte) (detail : List Byte)
      (hks : SameUnits s0 s) : SameUnits s0 (State.recordAs s rom code sev tenant detail) := by
  unfold State.recordAs
  try dsimp only
  repeat' (first | with_reducible assumption | with_reducible apply units_bufferRec | with_reducible apply units_critical | simp only [SameUnits.mk3, SameUnits.mk4] | (intro _) | split)

theorem units_record {s0 : State} (s : State) (code : Nat) (sev : Fin 4) (tenant : Byte) (detail : List Byte) (hks : SameUnits
      s0 s) : SameUnits s0 (State.record s code sev tenant detail) := by
  unfold State.record
  try dsimp only
  repeat' (first | with_reducible assumption | with_reducible apply units_recordAs | simp only [SameUnits.mk3, SameUnits.mk4] | (intro _) | split)

theorem units_raiseRec {s0 : State} (s : State) (p : Page) (b : Nat) (sev : Fin 4) (tenant : Byte) (detail : List Byte) (hks :
      SameUnits s0 s) : SameUnits s0 (State.raiseRec s p b sev tenant detail) := by
  unfold State.raiseRec
  try dsimp only
  repeat' (first | with_reducible assumption | with_reducible apply units_raise | with_reducible apply units_record | simp only [SameUnits.mk3, SameUnits.mk4] | (intro _) | split)

theorem units_raiseRecStatus {s0 : State} (s : State) (p : Page) (b : Nat) (sev : Fin 4) (tenant : Byte) (hks : SameUnits s0 s)
      : SameUnits s0 (State.raiseRecStatus s p b sev tenant) := by
  unfold State.raiseRecStatus
  try dsimp only
  repeat' (first | with_reducible assumption | with_reducible apply units_raise | with_reducible apply units_record | simp only [SameUnits.mk3, SameUnits.mk4] | (intro _) | split)

theorem units_updCmd {s0 : State} (s : State) (tag : Tag) (f : Cmd → Cmd) (hks : SameUnits s0 s) : SameUnits s0 (State.updCmd s
      tag f) := by
  unfold State.updCmd
  try dsimp only
  repeat' (first | with_reducible assumption | simp only [SameUnits.mk3, SameUnits.mk4] | (intro _) | split)

theorem units_setEb {s0 : State} (s : State) (n : Nat) (hks : SameUnits s0 s) : SameUnits s0 (State.setEb s n) := by
  unfold State.setEb
  try dsimp only
  repeat' (first | with_reducible assumption | with_reducible apply units_raise | with_reducible apply units_raiseTenants | simp only [SameUnits.mk3, SameUnits.mk4] | (intro _) | split)

theorem units_vcapReading {s0 : State} (s : State) (mV : Nat) (hks : SameUnits s0 s) : SameUnits s0 (State.vcapReading s mV)
      := by
  unfold State.vcapReading
  try dsimp only
  repeat' (first | with_reducible assumption | with_reducible apply units_setEb | simp only [SameUnits.mk3, SameUnits.mk4] | (intro _) | split)

theorem units_probeShrink {s0 : State} (s : State) (hks : SameUnits s0 s) : SameUnits s0 (State.probeShrink s) := by
  unfold State.probeShrink
  try dsimp only
  repeat' (first | with_reducible assumption | with_reducible apply units_setEb | simp only [SameUnits.mk3, SameUnits.mk4] | (intro _) | split)

theorem units_holdupSkipped {s0 : State} (s : State) (hks : SameUnits s0 s) : SameUnits s0 (State.holdupSkipped s) := by
  unfold State.holdupSkipped
  try dsimp only
  repeat' (first | with_reducible assumption | with_reducible apply units_setEb | simp only [SameUnits.mk3, SameUnits.mk4] | (intro _) | split)

theorem units_pmicShrink {s0 : State} (s : State) (hks : SameUnits s0 s) : SameUnits s0 (State.pmicShrink s) := by
  unfold State.pmicShrink
  try dsimp only
  repeat' (first | with_reducible assumption | with_reducible apply units_drawn | with_reducible apply units_setEb | simp only [SameUnits.mk3, SameUnits.mk4] | (intro _) | split)

theorem units_addCause {s0 : State} (s : State) (c : RstCause) (hks : SameUnits s0 s) : SameUnits s0 (State.addCause s c) := by
  unfold State.addCause
  try dsimp only
  repeat' (first | with_reducible assumption | simp only [SameUnits.mk3, SameUnits.mk4] | (intro _) | split)

theorem units_setLevel {s0 : State} (s : State) (l : Level) (hks : SameUnits s0 s) : SameUnits s0 (State.setLevel s l) := by
  unfold State.setLevel
  try dsimp only
  repeat' (first | with_reducible assumption | with_reducible apply units_raise | with_reducible apply units_raiseTenants | simp only [SameUnits.mk3, SameUnits.mk4] | (intro _) | split)

theorem units_supplySeen {s0 : State} (s : State) (cause : Byte) (hks : SameUnits s0 s) : SameUnits s0 (State.supplySeen s
      cause) := by
  unfold State.supplySeen
  try dsimp only
  repeat' (first | with_reducible assumption | simp only [SameUnits.mk3, SameUnits.mk4] | (intro _) | split)

theorem units_collect {s0 : State} (s : State) (cause : Byte) (hks : SameUnits s0 s) : SameUnits s0 (State.collect s cause) :=
      by
  unfold State.collect
  try dsimp only
  repeat' (first | with_reducible assumption | with_reducible apply units_addCause | simp only [SameUnits.mk3, SameUnits.mk4] | (intro _) | split)

theorem units_updVfl {s0 : State} (s : State) (p : Fin 4) (f : VflS → VflS) (hks : SameUnits s0 s) : SameUnits s0 (State.updVfl
      s p f) := by
  unfold State.updVfl
  try dsimp only
  repeat' (first | with_reducible assumption | simp only [SameUnits.mk3, SameUnits.mk4] | (intro _) | split)

theorem units_advDue {s0 : State} (s : State) (hks : SameUnits s0 s) : SameUnits s0 (State.advDue s) := by
  unfold State.advDue
  try dsimp only
  repeat' (first | with_reducible assumption | simp only [SameUnits.mk3, SameUnits.mk4] | (intro _) | split)

theorem units_startPorts {s0 : State} (s : State) (hks : SameUnits s0 s) : SameUnits s0 (State.startPorts s) := by
  unfold State.startPorts
  try dsimp only
  repeat' (first | with_reducible assumption | with_reducible apply units_advDue | simp only [SameUnits.mk3, SameUnits.mk4] | (intro _) | split)

theorem units_sendOne {s0 : State} (s : State) (port : Fin 4) (hks : SameUnits s0 s) : SameUnitsK1 s0 (State.sendOne s port)
      := by
  unfold State.sendOne
  try dsimp only
  repeat' (first | with_reducible assumption | with_reducible apply units_emit | with_reducible apply units_updVfl | exact fun h => h | with_reducible apply SameUnitsK1.none | with_reducible apply SameUnitsK1.some | with_reducible apply SameUnitsK1.findSome | simp only [SameUnits.mk3, SameUnits.mk4] | (intro _) | split)

theorem units_drainPort {s0 : State} (s : State) (port : Fin 4) (n : Nat) (hks : SameUnits s0 s) : SameUnits s0
      (State.drainPort s port n) := by
  induction n generalizing s with
  | zero => exact hks
  | succ k ih =>
    unfold State.drainPort
    split
    · rename_i s1 e
      exact ih s1 ((units_sendOne s port hks).elim e)
    · exact hks

theorem units_sendOn {s0 : State} (s : State) (port : Fin 4) (p : OutPkt) (hks : SameUnits s0 s) : SameUnits s0 (State.sendOn s
      port p) := by
  unfold State.sendOn
  try dsimp only
  repeat' (first | with_reducible assumption | with_reducible apply units_updVfl | with_reducible apply units_drainPort | exact fun h => h | simp only [SameUnits.mk3, SameUnits.mk4] | (intro _) | split)

theorem units_sendPkt {s0 : State} (s : State) (p : OutPkt) (hks : SameUnits s0 s) : SameUnits s0 (State.sendPkt s p) := by
  unfold State.sendPkt
  try dsimp only
  repeat' (first | with_reducible assumption | with_reducible apply units_sendOn | simp only [SameUnits.mk3, SameUnits.mk4] | (intro _) | split)

theorem units_sendLong {s0 : State} (s : State) (p : OutPkt) (hks : SameUnits s0 s) : SameUnits s0 (State.sendLong s p) := by
  unfold State.sendLong
  try dsimp only
  repeat' (first | with_reducible assumption | with_reducible apply units_sendPkt | with_reducible apply SameUnits.foldl | simp only [SameUnits.mk3, SameUnits.mk4] | (intro _) | split)

theorem units_linkLeave {s0 : State} (s : State) (port : Fin 4) (dst : LinkSt) (hks : SameUnits s0 s) : SameUnits s0
      (State.linkLeave s port dst) := by
  unfold State.linkLeave
  try dsimp only
  repeat' (first | with_reducible assumption | with_reducible apply units_raise | with_reducible apply units_updVfl | exact fun h => h | with_reducible apply SameUnitsK1.getD | simp only [SameUnits.mk3, SameUnits.mk4] | (intro _) | split)

theorem units_linksDown {s0 : State} (s : State) (dst : LinkSt) (hks : SameUnits s0 s) : SameUnits s0 (State.linksDown s dst)
      := by
  unfold State.linksDown
  try dsimp only
  repeat' (first | with_reducible assumption | with_reducible apply units_linkLeave | with_reducible apply SameUnits.foldl | simp only [SameUnits.mk3, SameUnits.mk4] | (intro _) | split)

theorem units_mirLeave {s0 : State} (s : State) (st : MirSt) (reason : BitVec 3) (hks : SameUnits s0 s) : SameUnits s0
      (State.mirLeave s st reason) := by
  unfold State.mirLeave
  try dsimp only
  repeat' (first | with_reducible assumption | with_reducible apply units_raise | simp only [SameUnits.mk3, SameUnits.mk4] | (intro _) | split)

theorem units_mirSend {s0 : State} (s : State) (type : Byte) (vc : Fin 3) (t : Tid) (payload : List Byte) (hks : SameUnits s0
      s) : SameUnits s0 (State.mirSend s type vc t payload) := by
  unfold State.mirSend
  try dsimp only
  repeat' (first | with_reducible assumption | with_reducible apply units_sendLong | simp only [SameUnits.mk3, SameUnits.mk4] | (intro _) | split)

theorem units_mirStateItem {s0 : State} (s : State) (t : Tid) (item : Byte) (payload : List Byte) (hks : SameUnits s0 s) :
      SameUnits s0 (State.mirStateItem s t item payload) := by
  unfold State.mirStateItem
  try dsimp only
  repeat' (first | with_reducible assumption | with_reducible apply units_mirSend | simp only [SameUnits.mk3, SameUnits.mk4] | (intro _) | split)

theorem units_mirDeviceItem {s0 : State} (s : State) (item : Byte) (payload : List Byte) (hks : SameUnits s0 s) : SameUnits s0
      (State.mirDeviceItem s item payload) := by
  unfold State.mirDeviceItem
  try dsimp only
  repeat' (first | with_reducible assumption | with_reducible apply units_mirSend | simp only [SameUnits.mk3, SameUnits.mk4] | (intro _) | split)

theorem units_updZone {s0 : State} (s : State) (z : Nat) (f : Zone → Zone) (hks : SameUnits s0 s) : SameUnits s0 (State.updZone
      s z f) := by
  unfold State.updZone
  try dsimp only
  repeat' (first | with_reducible assumption | simp only [SameUnits.mk3, SameUnits.mk4] | (intro _) | split)

theorem units_putZone {s0 : State} (s : State) (z : Nat) (x : Zone) (hks : SameUnits s0 s) : SameUnits s0 (State.putZone s z x)
      := by
  unfold State.putZone
  try dsimp only
  repeat' (first | with_reducible assumption | simp only [SameUnits.mk3, SameUnits.mk4] | (intro _) | split)

theorem units_meterIn {s0 : State} (s : State) (cls : Fin 4) (n : Nat) (hks : SameUnits s0 s) : SameUnits s0 (State.meterIn s
      cls n) := by
  unfold State.meterIn
  try dsimp only
  repeat' (first | with_reducible assumption | simp only [SameUnits.mk3, SameUnits.mk4] | (intro _) | split)

theorem units_quotaNear {s0 : State} (s : State) (t : Tid) (hks : SameUnits s0 s) : SameUnits s0 (State.quotaNear s t) := by
  unfold State.quotaNear
  try dsimp only
  repeat' (first | with_reducible assumption | with_reducible apply units_raiseTnt | simp only [SameUnits.mk3, SameUnits.mk4] | (intro _) | split)

theorem units_updEntry {s0 : State} (s : State) (z : Nat) (n : Nat) (f : AppRec → AppRec) (hks : SameUnits s0 s) : SameUnits s0
      (State.updEntry s z n f) := by
  unfold State.updEntry
  try dsimp only
  repeat' (first | with_reducible assumption | with_reducible apply units_updZone | simp only [SameUnits.mk3, SameUnits.mk4] | (intro _) | split)

theorem units_mirAppendSend {s0 : State} (s : State) (t : Tid) (z : Nat) (e : AppRec) (hks : SameUnits s0 s) : SameUnits s0
      (State.mirAppendSend s t z e) := by
  unfold State.mirAppendSend
  try dsimp only
  repeat' (first | with_reducible assumption | with_reducible apply units_mirSend | simp only [SameUnits.mk3, SameUnits.mk4] | (intro _) | split)

theorem units_withdraw {s0 : State} (s : State) (t : Tid) (lowest : Nat) (again : List (Nat × AppRec)) (hks : SameUnits s0 s)
      : SameUnits s0 (State.withdraw s t lowest again) := by
  unfold State.withdraw
  try dsimp only
  repeat' (first | with_reducible assumption | with_reducible apply units_mirSend | with_reducible apply units_mirAppendSend | with_reducible apply SameUnits.foldl | simp only [SameUnits.mk3, SameUnits.mk4] | (intro _) | split)

theorem units_discardAppends {s0 : State} (s : State) (t : Tid) (gone : Nat → AppRec → Bool) (hks : SameUnits s0 s) : SameUnits
      s0 (State.discardAppends s t gone) := by
  unfold State.discardAppends
  try dsimp only
  repeat' (first | with_reducible assumption | with_reducible apply units_withdraw | simp only [SameUnits.mk3, SameUnits.mk4] | (intro _) | split)

theorem units_offlineZone {s0 : State} (s : State) (z : Nat) (hks : SameUnits s0 s) : SameUnits s0 (State.offlineZone s z) := by
  unfold State.offlineZone
  try dsimp only
  repeat' (first | with_reducible assumption | with_reducible apply units_record | with_reducible apply units_updZone | with_reducible apply units_discardAppends | simp only [SameUnits.mk3, SameUnits.mk4] | (intro _) | split)

theorem units_zresetRecord {s0 : State} (s : State) (z : Nat) (x : Zone) (cause : Byte) (hks : SameUnits s0 s) : SameUnits s0
      (State.zresetRecord s z x cause) := by
  unfold State.zresetRecord
  try dsimp only
  repeat' (first | with_reducible assumption | with_reducible apply SameUnitsK1.getD | simp only [SameUnits.mk3, SameUnits.mk4] | (intro _) | split)

theorem units_emptyZone {s0 : State} (s : State) (z : Nat) (hks : SameUnits s0 s) : SameUnits s0 (State.emptyZone s z) := by
  unfold State.emptyZone
  try dsimp only
  repeat' (first | with_reducible assumption | with_reducible apply units_updZone | simp only [SameUnits.mk3, SameUnits.mk4] | (intro _) | split)

theorem units_recycleZone {s0 : State} (s : State) (z : Nat) (hks : SameUnits s0 s) : SameUnits s0 (State.recycleZone s z) := by
  unfold State.recycleZone
  try dsimp only
  repeat' (first | with_reducible assumption | with_reducible apply units_raiseRec | with_reducible apply units_mirStateItem | with_reducible apply units_zresetRecord | with_reducible apply units_emptyZone | simp only [SameUnits.mk3, SameUnits.mk4] | (intro _) | split)

theorem units_takeZone {s0 : State} (s : State) (t : Tid) (own : Bool) (recycle : Bool) (hks : SameUnits s0 s) : SameUnitsK5 s0
      (State.takeZone s t own recycle) := by
  unfold State.takeZone
  try dsimp only
  repeat' (first | with_reducible assumption | with_reducible apply units_putZone | with_reducible apply units_quotaNear | with_reducible apply units_recycleZone | with_reducible apply SameUnitsK5.error | with_reducible apply SameUnitsK5.ok | simp only [SameUnits.mk3, SameUnits.mk4] | (intro _) | split)

theorem units_ackCause {s0 : State} (s : State) (hks : SameUnits s0 s) : SameUnits s0 (State.ackCause s) := by
  unfold State.ackCause
  try dsimp only
  repeat' (first | with_reducible assumption | with_reducible apply units_record | simp only [SameUnits.mk3, SameUnits.mk4] | (intro _) | split)

theorem units_saveGust {s0 : State} (s : State) (hks : SameUnits s0 s) : SameUnits s0 (State.saveGust s) := by
  unfold State.saveGust
  try dsimp only
  repeat' (first | with_reducible assumption | simp only [SameUnits.mk3, SameUnits.mk4] | (intro _) | split)

theorem units_strapRecords {s0 : State} (s : State) (hks : SameUnits s0 s) : SameUnits s0 (State.strapRecords s) := by
  unfold State.strapRecords
  try dsimp only
  repeat' (first | with_reducible assumption | with_reducible apply units_recordAs | simp only [SameUnits.mk3, SameUnits.mk4] | (intro _) | split)

theorem units_gustWarnings {s0 : State} (s : State) (d : BoardDesc) (p : Policy) (hks : SameUnits s0 s) : SameUnits s0
      (State.gustWarnings s d p) := by
  unfold State.gustWarnings
  try dsimp only
  repeat' (first | with_reducible assumption | with_reducible apply units_record | with_reducible apply SameUnits.foldl | simp only [SameUnits.mk3, SameUnits.mk4] | (intro _) | split)

theorem units_pause {s0 : State} (s : State) (o : Owner) (hks : SameUnits s0 s) : SameUnits s0 (State.pause s o) := by
  unfold State.pause
  try dsimp only
  repeat' (first | with_reducible assumption | with_reducible apply units_raise | simp only [SameUnits.mk3, SameUnits.mk4] | (intro _) | split)

theorem units_alloc {s0 : State} (s : State) (o : Owner) (b : Buf) (hks : SameUnits s0 s) : SameUnitsK2 s0 (State.alloc s o b)
      := by
  unfold State.alloc
  try dsimp only
  repeat' (first | with_reducible assumption | with_reducible apply SameUnitsK2.none | with_reducible apply SameUnitsK2.some | with_reducible apply SameUnitsK2.findSome | simp only [SameUnits.mk3, SameUnits.mk4] | (intro _) | split)

theorem units_allocAll {s0 : State} (s : State) (o : Owner) (l : List Buf) (hks : SameUnits s0 s) : SameUnitsK2 s0
      (State.allocAll s o l) := by
  induction l generalizing s with
  | nil => exact SameUnitsK2.some hks
  | cons b r ih =>
    unfold State.allocAll
    split
    · exact SameUnitsK2.none
    · rename_i h s1 e
      split
      · exact SameUnitsK2.none
      · rename_i hs s2 e2
        exact SameUnitsK2.some ((ih s1 ((units_alloc s o b hks).elim e)).elim e2)

theorem units_freeBuf {s0 : State} (s : State) (h : Nat) (hks : SameUnits s0 s) : SameUnits s0 (State.freeBuf s h) := by
  unfold State.freeBuf
  try dsimp only
  repeat' (first | with_reducible assumption | simp only [SameUnits.mk3, SameUnits.mk4] | (intro _) | split)

theorem units_freeBufs {s0 : State} (s : State) (hs : List Nat) (hks : SameUnits s0 s) : SameUnits s0 (State.freeBufs s hs) :=
      by
  unfold State.freeBufs
  try dsimp only
  repeat' (first | with_reducible assumption | with_reducible apply units_freeBuf | with_reducible apply SameUnits.foldl | simp only [SameUnits.mk3, SameUnits.mk4] | (intro _) | split)

theorem units_updBuf {s0 : State} (s : State) (h : Nat) (f : Buf → Buf) (hks : SameUnits s0 s) : SameUnits s0 (State.updBuf s h
      f) := by
  unfold State.updBuf
  try dsimp only
  repeat' (first | with_reducible assumption | simp only [SameUnits.mk3, SameUnits.mk4] | (intro _) | split)

theorem units_updBufs {s0 : State} (s : State) (hs : List Nat) (f : Buf → Buf) (hks : SameUnits s0 s) : SameUnits s0
      (State.updBufs s hs f) := by
  unfold State.updBufs
  try dsimp only
  repeat' (first | with_reducible assumption | with_reducible apply units_updBuf | with_reducible apply SameUnits.foldl | simp only [SameUnits.mk3, SameUnits.mk4] | (intro _) | split)

theorem units_execBufferAllocate {s0 : State} (o : Owner) (tag : Tag) (markerOk : Bool) (s : State) (hks : SameUnits s0 s) :
      OutSameUnits s0 (execBufferAllocate o tag markerOk s) := by
  unfold execBufferAllocate
  try dsimp only
  repeat' (first | with_reducible assumption | with_reducible apply units_drawn | with_reducible apply units_raiseRec | with_reducible apply units_updCmd | with_reducible apply units_pause | with_reducible refine SameUnitsK2.elim (units_alloc _ _ _ ?_) ‹_› | with_reducible apply units_alloc | with_reducible apply OutSameUnits.next | exact OutSameUnits.fault _ | exact OutSameUnits.refused _ | simp only [SameUnits.mk3, SameUnits.mk4] | (intro _) | split)

theorem units_execListRebuildEnd {s0 : State} (p : Pool) (s : State) (hks : SameUnits s0 s) : OutSameUnits s0
      (execListRebuildEnd p s) := by
  unfold execListRebuildEnd
  try dsimp only
  repeat' (first | with_reducible assumption | with_reducible apply OutSameUnits.next | exact OutSameUnits.fault _ | exact OutSameUnits.refused _ | simp only [SameUnits.mk3, SameUnits.mk4] | (intro _) | split)

theorem units_execBufferHandoff {s0 : State} (h : Nat) (fromO : Owner) (toO : Owner) (takes : Bool) (s : State) (hks :
      SameUnits s0 s) : OutSameUnits s0 (execBufferHandoff h fromO toO takes s) := by
  unfold execBufferHandoff
  try dsimp only
  repeat' (first | with_reducible assumption | with_reducible apply units_updBuf | with_reducible apply OutSameUnits.next | exact OutSameUnits.fault _ | exact OutSameUnits.refused _ | simp only [SameUnits.mk3, SameUnits.mk4] | (intro _) | split)

theorem units_execBufferFree {s0 : State} (h : Nat) (o : Owner) (s : State) (hks : SameUnits s0 s) : OutSameUnits s0
      (execBufferFree h o s) := by
  unfold execBufferFree
  try dsimp only
  repeat' (first | with_reducible assumption | with_reducible apply units_raiseRec | with_reducible apply units_freeBuf | with_reducible apply units_updBuf | with_reducible apply OutSameUnits.next | exact OutSameUnits.fault _ | exact OutSameUnits.refused _ | simp only [SameUnits.mk3, SameUnits.mk4] | (intro _) | split)

theorem units_loseSram {s0 : State} (s : State) (hks : SameUnits s0 s) : SameUnits s0 (State.loseSram s) := by
  unfold State.loseSram
  try dsimp only
  repeat' (first | with_reducible assumption | simp only [SameUnits.mk3, SameUnits.mk4] | (intro _) | split)

theorem units_removeSram {s0 : State} (s : State) (hs : List Nat) (hks : SameUnits s0 s) : SameUnits s0 (State.removeSram s hs)
      := by
  unfold State.removeSram
  try dsimp only
  repeat' (first | with_reducible assumption | with_reducible apply SameUnits.foldl | simp only [SameUnits.mk3, SameUnits.mk4] | (intro _) | split)

theorem units_execGpioInputEdge {s0 : State} (n : Fin 4) (level : Bool) (s : State) (hks : SameUnits s0 s) : OutSameUnits s0
      (execGpioInputEdge n level s) := by
  unfold execGpioInputEdge
  try dsimp only
  repeat' (first | with_reducible assumption | with_reducible apply units_raise | with_reducible apply OutSameUnits.next | exact OutSameUnits.fault _ | exact OutSameUnits.refused _ | simp only [SameUnits.mk3, SameUnits.mk4] | (intro _) | split)

theorem units_probeDone {s0 : State} (s : State) (d : BoardDesc) (hks : SameUnits s0 s) : SameUnits s0 (State.probeDone s d)
      := by
  unfold State.probeDone
  try dsimp only
  repeat' (first | with_reducible assumption | with_reducible apply units_raise | with_reducible apply units_raiseRec | with_reducible apply units_setEb | simp only [SameUnits.mk3, SameUnits.mk4] | (intro _) | split)

theorem units_probeNow {s0 : State} (s : State) (hks : SameUnits s0 s) : SameUnits s0 (State.probeNow s) := by
  unfold State.probeNow
  try dsimp only
  repeat' (first | with_reducible assumption | simp only [SameUnits.mk3, SameUnits.mk4] | (intro _) | split)

theorem units_formSb {s0 : State} (s : State) (d : BoardDesc) (g : Nat) (use : SbUse) (stream : Nat) (hks : SameUnits s0 s) :
      SameUnitsK2 s0 (State.formSb s d g use stream) := by
  unfold State.formSb
  try dsimp only
  repeat' (first | with_reducible assumption | with_reducible apply SameUnitsK2.none | with_reducible apply SameUnitsK2.some | with_reducible apply SameUnitsK1.getD | simp only [SameUnits.mk3, SameUnits.mk4] | (intro _) | split)

theorem units_formSysSb {s0 : State} (s : State) (d : BoardDesc) (g : Nat) (hks : SameUnits s0 s) : SameUnits s0
      (State.formSysSb s d g) := by
  unfold State.formSysSb
  try dsimp only
  repeat' (first | with_reducible assumption | simp only [SameUnits.mk3, SameUnits.mk4] | (intro _) | split)

theorem units_updSb {s0 : State} (s : State) (k : Nat) (f : Superblock → Superblock) (hks : SameUnits s0 s) : SameUnits s0
      (State.updSb s k f) := by
  unfold State.updSb
  try dsimp only
  repeat' (first | with_reducible assumption | simp only [SameUnits.mk3, SameUnits.mk4] | (intro _) | split)

theorem units_dropAppends {s0 : State} (s : State) (t : Tid) (gone : Nat → AppRec → Bool) (hks : SameUnits s0 s) : SameUnits s0
      (State.dropAppends s t gone) := by
  unfold State.dropAppends
  try dsimp only
  repeat' (first | with_reducible assumption | with_reducible apply units_discardAppends | simp only [SameUnits.mk3, SameUnits.mk4] | (intro _) | split)

theorem units_mediaBits {s0 : State} (s before : State) (hks : SameUnits s0 s) (hkbefore : SameUnits s0 before) : SameUnits s0
      (State.mediaBits s before) := by
  unfold State.mediaBits
  try dsimp only
  repeat' (first | with_reducible assumption | with_reducible apply units_raise | with_reducible apply SameUnits.foldl | simp only [SameUnits.mk3, SameUnits.mk4] | (intro _) | split)

theorem units_streamSb {s0 : State} (s : State) (d : BoardDesc) (g : Nat) (stream : Nat) (use : SbUse) (hks : SameUnits s0 s) :
      SameUnitsK2 s0 (State.streamSb s d g stream use) := by
  unfold State.streamSb
  try dsimp only
  repeat' (first | with_reducible assumption | with_reducible refine SameUnitsK2.elim (units_formSb _ _ _ _ _ ?_) ‹_› | with_reducible apply units_formSb | with_reducible apply SameUnitsK2.none | with_reducible apply SameUnitsK2.some | with_reducible apply SameUnitsK2.findSome | simp only [SameUnits.mk3, SameUnits.mk4] | (intro _) | split)

theorem units_chanTouch {s0 : State} (s : State) (ch : Nat) (hks : SameUnits s0 s) : SameUnits s0 (State.chanTouch s ch) := by
  unfold State.chanTouch
  try dsimp only
  repeat' (first | with_reducible assumption | with_reducible apply SameUnitsK1.getD | simp only [SameUnits.mk3, SameUnits.mk4] | (intro _) | split)

theorem units_queueOp {s0 : State} (s : State) (die : Nat) (cls : Nat) (k : FlashKind) (bufs : List Nat) (hks : SameUnits s0 s)
      : SameUnits s0 (State.queueOp s die cls k bufs) := by
  unfold State.queueOp
  try dsimp only
  repeat' (first | with_reducible assumption | with_reducible apply units_chanTouch | simp only [SameUnits.mk3, SameUnits.mk4] | (intro _) | split)

theorem units_queuePages {s0 : State} (s : State) (d : BoardDesc) (key : Nat) (b : Superblock) (cls : Nat) (first : Nat) (n :
      Nat) (hs : List Nat) (hks : SameUnits s0 s) : SameUnits s0 (State.queuePages s d key b cls first n hs) := by
  unfold State.queuePages
  try dsimp only
  repeat' (first | with_reducible assumption | with_reducible apply units_queueOp | with_reducible apply SameUnits.foldl | simp only [SameUnits.mk3, SameUnits.mk4] | (intro _) | split)

theorem units_fillSb {s0 : State} (s : State) (d : BoardDesc) (key : Nat) (cls : Nat) (items : List (Option Nat × Piece)) (hks
      : SameUnits s0 s) : SameUnits s0 (State.fillSb s d key cls items) := by
  unfold State.fillSb
  try dsimp only
  repeat' (first | with_reducible assumption | with_reducible apply units_queuePages | with_reducible apply SameUnits.foldl | simp only [SameUnits.mk3, SameUnits.mk4] | (intro _) | split)

theorem units_journalLines {s0 : State} (s : State) (ps : List Piece) (hks : SameUnits s0 s) : SameUnits s0
      (State.journalLines s ps) := by
  unfold State.journalLines
  try dsimp only
  repeat' (first | with_reducible assumption | with_reducible apply SameUnitsK1.getD | with_reducible apply SameUnits.foldl | simp only [SameUnits.mk3, SameUnits.mk4] | (intro _) | split)

theorem units_placeFrom {s0 : State} (s : State) (d : BoardDesc) (gs : List Nat) (stream cls : Nat) (items : List (Option Nat
      × Piece)) (hks : SameUnits s0 s) : SameUnitsK1 s0 (State.placeFrom s d gs stream cls items) := by
  unfold State.placeFrom
  try dsimp only
  repeat' (first | with_reducible assumption | with_reducible apply units_mediaBits | with_reducible refine SameUnitsK2.elim (units_streamSb _ _ _ _ _ ?_) ‹_› | with_reducible apply units_streamSb | with_reducible apply units_fillSb | with_reducible apply units_journalLines | with_reducible apply SameUnitsK1.none | with_reducible apply SameUnitsK1.some | with_reducible apply SameUnitsK1.findSome | simp only [SameUnits.mk3, SameUnits.mk4] | (intro _) | split)

theorem units_placeIn {s0 : State} (s : State) (d : BoardDesc) (stream : Nat) (cls : Nat) (items : List (Option Nat × Piece))
      (hks : SameUnits s0 s) : SameUnitsK1 s0 (State.placeIn s d stream cls items) := by
  unfold State.placeIn
  try dsimp only
  repeat' (first | with_reducible assumption | with_reducible refine SameUnitsK1.elim (units_placeFrom _ _ _ _ _ _ ?_) ‹_› | with_reducible apply units_placeFrom | with_reducible apply SameUnitsK1.none | with_reducible apply SameUnitsK1.some | simp only [SameUnits.mk3, SameUnits.mk4] | (intro _) | split)

theorem units_journalLag {s0 : State} (s : State) (hks : SameUnits s0 s) : SameUnits s0 (State.journalLag s) := by
  unfold State.journalLag
  try dsimp only
  repeat' (first | with_reducible assumption | with_reducible apply units_raise | simp only [SameUnits.mk3, SameUnits.mk4] | (intro _) | split)

theorem units_judgeReadOnly {s0 : State} (s : State) (hks : SameUnits s0 s) : SameUnits s0 (State.judgeReadOnly s) := by
  unfold State.judgeReadOnly
  try dsimp only
  repeat' (first | with_reducible assumption | with_reducible apply units_raiseRec | simp only [SameUnits.mk3, SameUnits.mk4] | (intro _) | split)

theorem units_retireBlock {s0 : State} (s : State) (die : Nat) (blk : Nat) (cause : Byte) (hks : SameUnits s0 s) : SameUnits s0
      (State.retireBlock s die blk cause) := by
  unfold State.retireBlock
  try dsimp only
  repeat' (first | with_reducible assumption | with_reducible apply units_raise | with_reducible apply units_mediaBits | with_reducible apply units_judgeReadOnly | simp only [SameUnits.mk3, SameUnits.mk4] | (intro _) | split)

theorem units_settleGroups {s0 : State} (s : State) (hks : SameUnits s0 s) : SameUnits s0 (State.settleGroups s) := by
  unfold State.settleGroups
  try dsimp only
  repeat' (first | with_reducible assumption | simp only [SameUnits.mk3, SameUnits.mk4] | (intro _) | split)

theorem units_failDie {s0 : State} (s : State) (die : Nat) (hks : SameUnits s0 s) : SameUnits s0 (State.failDie s die) := by
  unfold State.failDie
  try dsimp only
  repeat' (first | with_reducible assumption | with_reducible apply units_raise | with_reducible apply units_raiseRec | with_reducible apply units_mediaBits | with_reducible apply units_judgeReadOnly | with_reducible apply units_settleGroups | with_reducible apply SameUnitsK1.getD | simp only [SameUnits.mk3, SameUnits.mk4] | (intro _) | split)

theorem units_dieOutcome {s0 : State} (s : State) (die : Nat) (pass : Bool) (hks : SameUnits s0 s) : SameUnits s0
      (State.dieOutcome s die pass) := by
  unfold State.dieOutcome
  try dsimp only
  repeat' (first | with_reducible assumption | with_reducible apply units_failDie | with_reducible apply SameUnitsK1.getD | simp only [SameUnits.mk3, SameUnits.mk4] | (intro _) | split)

theorem units_updNfc {s0 : State} (s : State) (ch : Nat) (f : NfcS → NfcS) (hks : SameUnits s0 s) : SameUnits s0 (State.updNfc
      s ch f) := by
  unfold State.updNfc
  try dsimp only
  repeat' (first | with_reducible assumption | with_reducible apply SameUnitsK1.getD | simp only [SameUnits.mk3, SameUnits.mk4] | (intro _) | split)

theorem units_dropOp {s0 : State} (s : State) (k : Nat) (hks : SameUnits s0 s) : SameUnits s0 (State.dropOp s k) := by
  unfold State.dropOp
  try dsimp only
  repeat' (first | with_reducible assumption | with_reducible apply units_chanTouch | simp only [SameUnits.mk3, SameUnits.mk4] | (intro _) | split)

theorem units_finishErase {s0 : State} (s : State) (key : Nat) (hks : SameUnits s0 s) : SameUnits s0 (State.finishErase s key)
      := by
  unfold State.finishErase
  try dsimp only
  repeat' (first | with_reducible assumption | with_reducible apply units_settleGroups | simp only [SameUnits.mk3, SameUnits.mk4] | (intro _) | split)

theorem units_queueErases {s0 : State} (s : State) (key : Nat) (b : Superblock) (hks : SameUnits s0 s) : SameUnits s0
      (State.queueErases s key b) := by
  unfold State.queueErases
  try dsimp only
  repeat' (first | with_reducible assumption | with_reducible apply units_queueOp | with_reducible apply units_finishErase | with_reducible apply SameUnits.foldl | simp only [SameUnits.mk3, SameUnits.mk4] | (intro _) | split)

theorem units_eraseSb {s0 : State} (s : State) (key : Nat) (hks : SameUnits s0 s) : SameUnits s0 (State.eraseSb s key) := by
  unfold State.eraseSb
  try dsimp only
  repeat' (first | with_reducible assumption | with_reducible apply units_updSb | with_reducible apply units_queueErases | simp only [SameUnits.mk3, SameUnits.mk4] | (intro _) | split)

theorem units_eraseIfEmpty {s0 : State} (s : State) (key : Nat) (hks : SameUnits s0 s) : SameUnits s0 (State.eraseIfEmpty s
      key) := by
  unfold State.eraseIfEmpty
  try dsimp only
  repeat' (first | with_reducible assumption | with_reducible apply units_eraseSb | simp only [SameUnits.mk3, SameUnits.mk4] | (intro _) | split)

theorem units_bufferOnMedia {s0 : State} (s : State) (h : Nat) (hks : SameUnits s0 s) : SameUnits s0 (State.bufferOnMedia s h)
      := by
  unfold State.bufferOnMedia
  try dsimp only
  repeat' (first | with_reducible assumption | with_reducible apply units_updEntry | with_reducible apply units_freeBuf | simp only [SameUnits.mk3, SameUnits.mk4] | (intro _) | split)

theorem units_grant {s0 : State} (s : State) (line : Nat) (w : Walker) (q : List Walker) (hks : SameUnits s0 s) : SameUnits s0
      (State.grant s line w q) := by
  unfold State.grant
  try dsimp only
  repeat' (first | with_reducible assumption | with_reducible apply SameUnits.foldl | with_reducible apply SameUnitsK1.getD | simp only [SameUnits.mk3, SameUnits.mk4] | (intro _) | split)

theorem units_lineRequest {s0 : State} (s : State) (line : Nat) (w : Walker) (hks : SameUnits s0 s) : SameUnits s0
      (State.lineRequest s line w) := by
  unfold State.lineRequest
  try dsimp only
  repeat' (first | with_reducible assumption | with_reducible apply units_grant | simp only [SameUnits.mk3, SameUnits.mk4] | (intro _) | split)

theorem units_moveItem {s0 : State} (s : State) (dst : Nat) (it : Nat × Nat × Piece) (hks : SameUnits s0 s) : SameUnits s0
      (State.moveItem s dst it) := by
  unfold State.moveItem
  try dsimp only
  repeat' (first | with_reducible assumption | with_reducible apply units_updSb | simp only [SameUnits.mk3, SameUnits.mk4] | (intro _) | split)

theorem units_applyMove {s0 : State} (s : State) (m : Move) (hks : SameUnits s0 s) : SameUnits s0 (State.applyMove s m) := by
  unfold State.applyMove
  try dsimp only
  repeat' (first | with_reducible assumption | with_reducible apply units_updSb | with_reducible apply units_journalLines | with_reducible apply units_eraseIfEmpty | with_reducible apply units_lineRequest | with_reducible apply units_moveItem | with_reducible apply SameUnits.foldl | simp only [SameUnits.mk3, SameUnits.mk4] | (intro _) | split)

theorem units_gcMoves {s0 : State} (s : State) (hks : SameUnits s0 s) : SameUnits s0 (State.gcMoves s) := by
  unfold State.gcMoves
  try dsimp only
  repeat' (first | with_reducible assumption | with_reducible apply units_applyMove | with_reducible apply SameUnits.foldl | simp only [SameUnits.mk3, SameUnits.mk4] | (intro _) | split)

theorem units_movesProgrammed {s0 : State} (s : State) (key : Nat) (hks : SameUnits s0 s) : SameUnits s0 (State.movesProgrammed
      s key) := by
  unfold State.movesProgrammed
  try dsimp only
  repeat' (first | with_reducible assumption | with_reducible apply units_gcMoves | simp only [SameUnits.mk3, SameUnits.mk4] | (intro _) | split)

theorem units_copyNew {s0 : State} (s : State) (d : BoardDesc) (g stream : Nat) (use : SbUse) (pads : List (Nat × Nat × Nat))
      (hks : SameUnits s0 s) : SameUnitsK2 s0 (State.copyNew s d g stream use pads) := by
  unfold State.copyNew
  try dsimp only
  repeat' (first | with_reducible assumption | with_reducible refine SameUnitsK2.elim (units_formSb _ _ _ _ _ ?_) ‹_› | with_reducible apply units_formSb | with_reducible apply SameUnitsK2.none | with_reducible apply SameUnitsK2.some | simp only [SameUnits.mk3, SameUnits.mk4] | (intro _) | split)

theorem units_copySb {s0 : State} (s : State) (d : BoardDesc) (g stream : Nat) (use : SbUse) (n : Nat) (hks : SameUnits s0 s)
      : SameUnitsK2 s0 (State.copySb s d g stream use n) := by
  unfold State.copySb
  try dsimp only
  repeat' (first | with_reducible assumption | with_reducible apply units_updSb | with_reducible refine SameUnitsK2.elim (units_copyNew _ _ _ _ _ _ ?_) ‹_› | with_reducible apply units_copyNew | with_reducible apply SameUnitsK2.none | with_reducible apply SameUnitsK2.some | simp only [SameUnits.mk3, SameUnits.mk4] | (intro _) | split)

theorem units_reserveCopies {s0 : State} (s : State) (d : BoardDesc) (g stream : Nat) (use : SbUse) (items : List (Nat ×
      Piece)) (hks : SameUnits s0 s) : SameUnitsK4 s0 (State.reserveCopies s d g stream use items) := by
  unfold State.reserveCopies
  try dsimp only
  repeat' (first | with_reducible assumption | with_reducible apply units_updSb | with_reducible refine SameUnitsK2.elim (units_copySb _ _ _ _ _ _ ?_) ‹_› | with_reducible apply units_copySb | with_reducible refine SameUnitsK4.foldl (fun _ _ _ => ?_) ?_ | with_reducible exact SameUnitsK4.fst ‹_› | with_reducible apply SameUnitsK4.mk | with_reducible apply SameUnits.foldl | simp only [SameUnits.mk3, SameUnits.mk4] | (intro _) | split)

theorem units_startMove {s0 : State} (s : State) (d : BoardDesc) (g : Nat) (stream : Nat) (use : SbUse) (cls : Nat) (w :
      Walker) (src : Nat) (items : List (Nat × Piece)) (hks : SameUnits s0 s) : SameUnits s0 (State.startMove s d g stream use
      cls w src items) := by
  unfold State.startMove
  try dsimp only
  repeat' (first | with_reducible assumption | with_reducible apply units_queuePages | with_reducible apply SameUnitsK4.fst; with_reducible apply units_reserveCopies | with_reducible refine SameUnitsK4.elim (units_reserveCopies _ _ _ _ _ _ ?_) ‹_› | with_reducible apply units_reserveCopies | with_reducible apply SameUnits.foldl | simp only [SameUnits.mk3, SameUnits.mk4] | (intro _) | split)

theorem units_queueCodewords {s0 : State} (s : State) (d : BoardDesc) (key : Nat) (b : Superblock) (cls first n : Nat) (who :
      ReadFor) (hks : SameUnits s0 s) : SameUnits s0 (State.queueCodewords s d key b cls first n who) := by
  unfold State.queueCodewords
  try dsimp only
  repeat' (first | with_reducible assumption | with_reducible apply units_queueOp | with_reducible apply SameUnits.foldl | simp only [SameUnits.mk3, SameUnits.mk4] | (intro _) | split)

theorem units_startCopy {s0 : State} (s : State) (d : BoardDesc) (g stream : Nat) (use : SbUse) (w : Walker) (src : Nat)
      (items : List (Nat × Nat × Piece)) (hks : SameUnits s0 s) : SameUnits s0 (State.startCopy s d g stream use w src items)
      := by
  unfold State.startCopy
  try dsimp only
  repeat' (first | with_reducible assumption | with_reducible apply units_eraseIfEmpty | with_reducible apply units_queueCodewords | with_reducible apply SameUnits.foldl | simp only [SameUnits.mk3, SameUnits.mk4] | (intro _) | split)

theorem units_copySettled {s0 : State} (s : State) (no : Nat) (hks : SameUnits s0 s) : SameUnits s0 (State.copySettled s no)
      := by
  unfold State.copySettled
  try dsimp only
  repeat' (first | with_reducible assumption | with_reducible apply units_eraseIfEmpty | with_reducible apply units_startMove | simp only [SameUnits.mk3, SameUnits.mk4] | (intro _) | split)

theorem units_rewrite {s0 : State} (s : State) (d : BoardDesc) (avoid : List Nat) (r : Rewrite) (hks : SameUnits s0 s) :
      SameUnits s0 (State.rewrite s d avoid r) := by
  unfold State.rewrite
  try dsimp only
  repeat' (first | with_reducible assumption | with_reducible refine SameUnitsK1.elim (units_placeFrom _ _ _ _ _ _ ?_) ‹_› | with_reducible apply units_placeFrom | simp only [SameUnits.mk3, SameUnits.mk4] | (intro _) | split)

theorem units_retryRewrites {s0 : State} (s : State) (hks : SameUnits s0 s) : SameUnits s0 (State.retryRewrites s) := by
  unfold State.retryRewrites
  try dsimp only
  repeat' (first | with_reducible assumption | with_reducible apply units_rewrite | with_reducible apply SameUnits.foldl | simp only [SameUnits.mk3, SameUnits.mk4] | (intro _) | split)

theorem units_redoMoves {s0 : State} (s : State) (d : BoardDesc) (key : Nat) (b : Superblock) (hks : SameUnits s0 s) :
      SameUnits s0 (State.redoMoves s d key b) := by
  unfold State.redoMoves
  try dsimp only
  repeat' (first | with_reducible assumption | with_reducible apply units_startMove | with_reducible apply SameUnits.foldl | simp only [SameUnits.mk3, SameUnits.mk4] | (intro _) | split)

theorem units_programFailed {s0 : State} (s : State) (d : BoardDesc) (op : FlashOp) (key first n : Nat) (avoid : List Nat)
      (hks : SameUnits s0 s) : SameUnits s0 (State.programFailed s d op key first n avoid) := by
  unfold State.programFailed
  try dsimp only
  repeat' (first | with_reducible assumption | with_reducible apply units_updSb | with_reducible apply units_retireBlock | with_reducible apply units_rewrite | with_reducible apply units_redoMoves | with_reducible apply SameUnitsK1.getD | simp only [SameUnits.mk3, SameUnits.mk4] | (intro _) | split)

theorem units_countReads {s0 : State} (s : State) (key die n : Nat) (hks : SameUnits s0 s) : SameUnits s0 (State.countReads s
      key die n) := by
  unfold State.countReads
  try dsimp only
  repeat' (first | with_reducible assumption | with_reducible apply units_updSb | with_reducible apply units_mediaBits | with_reducible apply SameUnitsK1.getD | simp only [SameUnits.mk3, SameUnits.mk4] | (intro _) | split)

theorem units_countOps {s0 : State} (s : State) (die n : Nat) (hks : SameUnits s0 s) : SameUnits s0 (State.countOps s die n)
      := by
  unfold State.countOps
  try dsimp only
  repeat' (first | with_reducible assumption | with_reducible apply units_updNfc | simp only [SameUnits.mk3, SameUnits.mk4] | (intro _) | split)

theorem units_execFlashIssue {s0 : State} (die : Fin 256) (s : State) (hks : SameUnits s0 s) : OutSameUnits s0 (execFlashIssue
      die s) := by
  unfold execFlashIssue
  try dsimp only
  repeat' (first | with_reducible assumption | with_reducible apply units_updNfc | with_reducible apply units_dropOp | with_reducible apply units_finishErase | with_reducible apply units_programFailed | with_reducible apply units_countReads | with_reducible apply units_countOps | with_reducible apply OutSameUnits.next | exact OutSameUnits.fault _ | exact OutSameUnits.refused _ | with_reducible apply SameUnitsK1.getD | simp only [SameUnits.mk3, SameUnits.mk4] | (intro _) | split)

theorem units_execEraseResume {s0 : State} (die : Fin 256) (s : State) (hks : SameUnits s0 s) : OutSameUnits s0
      (execEraseResume die s) := by
  unfold execEraseResume
  try dsimp only
  repeat' (first | with_reducible assumption | with_reducible apply OutSameUnits.next | exact OutSameUnits.fault _ | exact OutSameUnits.refused _ | simp only [SameUnits.mk3, SameUnits.mk4] | (intro _) | split)

theorem units_progFail {s0 : State} (s : State) (ch : Nat) (hks : SameUnits s0 s) : SameUnits s0 (State.progFail s ch) := by
  unfold State.progFail
  try dsimp only
  repeat' (first | with_reducible assumption | with_reducible apply units_raise | with_reducible apply units_updNfc | simp only [SameUnits.mk3, SameUnits.mk4] | (intro _) | split)

theorem units_execFlashProgramDone {s0 : State} (k : Nat) (pass : Bool) (s : State) (hks : SameUnits s0 s) : OutSameUnits s0
      (execFlashProgramDone k pass s) := by
  unfold execFlashProgramDone
  try dsimp only
  repeat' (first | with_reducible assumption | with_reducible apply units_updSb | with_reducible apply units_queueOp | with_reducible apply units_retireBlock | with_reducible apply units_dieOutcome | with_reducible apply units_dropOp | with_reducible apply units_bufferOnMedia | with_reducible apply units_movesProgrammed | with_reducible apply units_programFailed | with_reducible apply units_progFail | with_reducible apply OutSameUnits.next | exact OutSameUnits.fault _ | exact OutSameUnits.refused _ | with_reducible apply SameUnits.foldl | simp only [SameUnits.mk3, SameUnits.mk4] | (intro _) | split)

theorem units_execFlashEraseDone {s0 : State} (k : Nat) (pass : Bool) (s : State) (hks : SameUnits s0 s) : OutSameUnits s0
      (execFlashEraseDone k pass s) := by
  unfold execFlashEraseDone
  try dsimp only
  repeat' (first | with_reducible assumption | with_reducible apply units_raise | with_reducible apply units_retireBlock | with_reducible apply units_dieOutcome | with_reducible apply units_updNfc | with_reducible apply units_dropOp | with_reducible apply units_finishErase | with_reducible apply units_retryRewrites | with_reducible apply OutSameUnits.next | exact OutSameUnits.fault _ | exact OutSameUnits.refused _ | with_reducible apply SameUnitsK1.getD | simp only [SameUnits.mk3, SameUnits.mk4] | (intro _) | split)

theorem units_countRung {s0 : State} (s : State) (r : Nat) (hks : SameUnits s0 s) : SameUnits s0 (State.countRung s r) := by
  unfold State.countRung
  try dsimp only
  repeat' (first | with_reducible assumption | with_reducible apply SameUnitsK1.getD | simp only [SameUnits.mk3, SameUnits.mk4] | (intro _) | split)

theorem units_listSb {s0 : State} (s : State) (key : Nat) (hks : SameUnits s0 s) : SameUnits s0 (State.listSb s key) := by
  unfold State.listSb
  try dsimp only
  repeat' (first | with_reducible assumption | with_reducible apply units_updSb | simp only [SameUnits.mk3, SameUnits.mk4] | (intro _) | split)

theorem units_failBlock {s0 : State} (s : State) (tag : Tag) (block : Nat) (hks : SameUnits s0 s) : SameUnits s0
      (State.failBlock s tag block) := by
  unfold State.failBlock
  try dsimp only
  repeat' (first | with_reducible assumption | with_reducible apply units_updCmd | simp only [SameUnits.mk3, SameUnits.mk4] | (intro _) | split)

theorem units_loseCodeword {s0 : State} (s : State) (key slot : Nat) (hks : SameUnits s0 s) : SameUnits s0 (State.loseCodeword
      s key slot) := by
  unfold State.loseCodeword
  try dsimp only
  repeat' (first | with_reducible assumption | with_reducible apply units_offlineZone | with_reducible apply units_updSb | simp only [SameUnits.mk3, SameUnits.mk4] | (intro _) | split)

theorem units_scrubSettled {s0 : State} (s : State) (key : Nat) (hks : SameUnits s0 s) : SameUnits s0 (State.scrubSettled s
      key) := by
  unfold State.scrubSettled
  try dsimp only
  repeat' (first | with_reducible assumption | with_reducible apply units_updSb | simp only [SameUnits.mk3, SameUnits.mk4] | (intro _) | split)

theorem units_readSettled {s0 : State} (s : State) (k : Nat) (op : FlashOp) (rung : Nat) (hks : SameUnits s0 s) : SameUnits s0
      (State.readSettled s k op rung) := by
  unfold State.readSettled
  try dsimp only
  repeat' (first | with_reducible assumption | with_reducible apply units_raise | with_reducible apply units_dropOp | with_reducible apply units_copySettled | with_reducible apply units_countRung | with_reducible apply units_listSb | with_reducible apply units_failBlock | with_reducible apply units_loseCodeword | with_reducible apply units_scrubSettled | simp only [SameUnits.mk3, SameUnits.mk4] | (intro _) | split)

theorem units_toSoft {s0 : State} (s : State) (k : Nat) (op : FlashOp) (hks : SameUnits s0 s) : SameUnits s0 (State.toSoft s k
      op) := by
  unfold State.toSoft
  try dsimp only
  repeat' (first | with_reducible assumption | with_reducible apply units_countReads | with_reducible apply units_countOps | simp only [SameUnits.mk3, SameUnits.mk4] | (intro _) | split)

theorem units_execFlashReadDone {s0 : State} (k : Nat) (r : HardResult) (s : State) (hks : SameUnits s0 s) : OutSameUnits s0
      (execFlashReadDone k r s) := by
  unfold execFlashReadDone
  try dsimp only
  repeat' (first | with_reducible assumption | with_reducible apply units_raise | with_reducible apply units_dieOutcome | with_reducible apply units_countReads | with_reducible apply units_countOps | with_reducible apply units_listSb | with_reducible apply units_readSettled | with_reducible apply units_toSoft | with_reducible apply OutSameUnits.next | exact OutSameUnits.fault _ | exact OutSameUnits.refused _ | simp only [SameUnits.mk3, SameUnits.mk4] | (intro _) | split)

theorem units_execSoftDecode {s0 : State} (r : SoftResult) (s : State) (hks : SameUnits s0 s) : OutSameUnits s0
      (execSoftDecode r s) := by
  unfold execSoftDecode
  try dsimp only
  repeat' (first | with_reducible assumption | with_reducible apply units_countReads | with_reducible apply units_countOps | with_reducible apply units_readSettled | with_reducible apply OutSameUnits.next | exact OutSameUnits.fault _ | exact OutSameUnits.refused _ | simp only [SameUnits.mk3, SameUnits.mk4] | (intro _) | split)

theorem units_rebuildReads {s0 : State} (s : State) (key die : Nat) (hks : SameUnits s0 s) : SameUnits s0 (State.rebuildReads
      s key die) := by
  unfold State.rebuildReads
  try dsimp only
  repeat' (first | with_reducible assumption | with_reducible apply units_countReads | with_reducible apply units_countOps | with_reducible apply SameUnits.foldl | simp only [SameUnits.mk3, SameUnits.mk4] | (intro _) | split)

theorem units_execStripeParityRebuild {s0 : State} (k : Nat) (ok : Bool) (s : State) (hks : SameUnits s0 s) : OutSameUnits s0
      (execStripeParityRebuild k ok s) := by
  unfold execStripeParityRebuild
  try dsimp only
  repeat' (first | with_reducible assumption | with_reducible apply units_raise | with_reducible apply units_retireBlock | with_reducible apply units_readSettled | with_reducible apply units_rebuildReads | with_reducible apply OutSameUnits.next | exact OutSameUnits.fault _ | exact OutSameUnits.refused _ | with_reducible apply SameUnitsK1.getD | simp only [SameUnits.mk3, SameUnits.mk4] | (intro _) | split)

theorem units_execMapJournalWrite {s0 : State} (s : State) (hks : SameUnits s0 s) : OutSameUnits s0 (execMapJournalWrite s) :=
      by
  unfold execMapJournalWrite
  try dsimp only
  repeat' (first | with_reducible assumption | with_reducible apply OutSameUnits.next | exact OutSameUnits.fault _ | exact OutSameUnits.refused _ | simp only [SameUnits.mk3, SameUnits.mk4] | (intro _) | split)

theorem units_execMapLineRequest {s0 : State} (line : Nat) (ws : List Walker) (s : State) (hks : SameUnits s0 s) : OutSameUnits
      s0 (execMapLineRequest line ws s) := by
  unfold execMapLineRequest
  try dsimp only
  repeat' (first | with_reducible assumption | with_reducible apply units_lineRequest | with_reducible apply OutSameUnits.next | exact OutSameUnits.fault _ | exact OutSameUnits.refused _ | with_reducible apply SameUnits.foldl | simp only [SameUnits.mk3, SameUnits.mk4] | (intro _) | split)

theorem units_execMapLineRecall {s0 : State} (line : Nat) (s : State) (hks : SameUnits s0 s) : OutSameUnits s0
      (execMapLineRecall line s) := by
  unfold execMapLineRecall
  try dsimp only
  repeat' (first | with_reducible assumption | with_reducible apply OutSameUnits.next | exact OutSameUnits.fault _ | exact OutSameUnits.refused _ | simp only [SameUnits.mk3, SameUnits.mk4] | (intro _) | split)

theorem units_execWritebackDone {s0 : State} (line : Nat) (s : State) (hks : SameUnits s0 s) : OutSameUnits s0
      (execWritebackDone line s) := by
  unfold execWritebackDone
  try dsimp only
  repeat' (first | with_reducible assumption | with_reducible apply units_grant | with_reducible apply units_gcMoves | with_reducible apply OutSameUnits.next | exact OutSameUnits.fault _ | exact OutSameUnits.refused _ | simp only [SameUnits.mk3, SameUnits.mk4] | (intro _) | split)

theorem units_formSystem {s0 : State} (s : State) (d : BoardDesc) (rs : List TargetResult) (hks : SameUnits s0 s) : SameUnits
      s0 (State.formSystem s d rs) := by
  unfold State.formSystem
  try dsimp only
  repeat' (first | with_reducible assumption | with_reducible apply units_formSysSb | with_reducible apply units_retireBlock | with_reducible apply SameUnits.foldl | simp only [SameUnits.mk3, SameUnits.mk4] | (intro _) | split)

theorem units_execEddyFold {s0 : State} (s : State) (hks : SameUnits s0 s) : OutSameUnits s0 (execEddyFold s) := by
  unfold execEddyFold
  try dsimp only
  repeat' (first | with_reducible assumption | with_reducible apply units_startCopy | with_reducible apply OutSameUnits.next | exact OutSameUnits.fault _ | exact OutSameUnits.refused _ | with_reducible apply SameUnits.foldl | simp only [SameUnits.mk3, SameUnits.mk4] | (intro _) | split)

theorem units_execFoldMapUpdate {s0 : State} (s : State) (hks : SameUnits s0 s) : OutSameUnits s0 (execFoldMapUpdate s) := by
  unfold execFoldMapUpdate
  try dsimp only
  repeat' (first | with_reducible assumption | with_reducible apply units_applyMove | with_reducible apply OutSameUnits.next | exact OutSameUnits.fault _ | exact OutSameUnits.refused _ | simp only [SameUnits.mk3, SameUnits.mk4] | (intro _) | split)

theorem units_execRefresh {s0 : State} (key : Nat) (s : State) (hks : SameUnits s0 s) : OutSameUnits s0 (execRefresh key s) :=
      by
  unfold execRefresh
  try dsimp only
  repeat' (first | with_reducible assumption | with_reducible apply units_updSb | with_reducible apply units_startCopy | with_reducible apply OutSameUnits.next | exact OutSameUnits.fault _ | exact OutSameUnits.refused _ | simp only [SameUnits.mk3, SameUnits.mk4] | (intro _) | split)

theorem units_execScrub {s0 : State} (key : Nat) (s : State) (hks : SameUnits s0 s) : OutSameUnits s0 (execScrub key s) := by
  unfold execScrub
  try dsimp only
  repeat' (first | with_reducible assumption | with_reducible apply units_updSb | with_reducible apply units_queueCodewords | with_reducible apply OutSameUnits.next | exact OutSameUnits.fault _ | exact OutSameUnits.refused _ | simp only [SameUnits.mk3, SameUnits.mk4] | (intro _) | split)

theorem units_execGarbageCollection {s0 : State} (group : Fin 16) (s : State) (hks : SameUnits s0 s) : OutSameUnits s0
      (execGarbageCollection group s) := by
  unfold execGarbageCollection
  try dsimp only
  repeat' (first | with_reducible assumption | with_reducible apply units_startCopy | with_reducible apply OutSameUnits.next | exact OutSameUnits.fault _ | exact OutSameUnits.refused _ | simp only [SameUnits.mk3, SameUnits.mk4] | (intro _) | split)

theorem units_ageMedia {s0 : State} (s : State) (ms : Nat) (hks : SameUnits s0 s) : SameUnits s0 (State.ageMedia s ms) := by
  unfold State.ageMedia
  try dsimp only
  repeat' (first | with_reducible assumption | with_reducible apply units_mediaBits | simp only [SameUnits.mk3, SameUnits.mk4] | (intro _) | split)

theorem units_updQp {s0 : State} (s : State) (t : Tid) (q : Qid) (f : Qp → Qp) (hks : SameUnits s0 s) : SameUnits s0
      (State.updQp s t q f) := by
  unfold State.updQp
  try dsimp only
  repeat' (first | with_reducible assumption | with_reducible apply units_updTnt | simp only [SameUnits.mk3, SameUnits.mk4] | (intro _) | split)

theorem units_hostTouch {s0 : State} (s : State) (hks : SameUnits s0 s) : SameUnits s0 (State.hostTouch s) := by
  unfold State.hostTouch
  try dsimp only
  repeat' (first | with_reducible assumption | simp only [SameUnits.mk3, SameUnits.mk4] | (intro _) | split)

theorem units_doorbellErr {s0 : State} (s : State) (t : Tid) (cause : Byte) (addr : Word) (hks : SameUnits s0 s) : SameUnits s0
      (State.doorbellErr s t cause addr) := by
  unfold State.doorbellErr
  try dsimp only
  repeat' (first | with_reducible assumption | with_reducible apply units_raise | with_reducible apply units_raiseTnt | with_reducible apply units_countErr | simp only [SameUnits.mk3, SameUnits.mk4] | (intro _) | split)

theorem units_doorbell {s0 : State} (s : State) (v : DbView) (t : Tid) (q : Qid) (head : Bool) (val addr : Word) (hks :
      SameUnits s0 s) : SameUnits s0 (State.doorbell s v t q head val addr) := by
  unfold State.doorbell
  try dsimp only
  repeat' (first | with_reducible assumption | with_reducible apply units_countErr | with_reducible apply units_updQp | with_reducible apply units_doorbellErr | simp only [SameUnits.mk3, SameUnits.mk4] | (intro _) | split)

theorem units_execSubmissionTailDoorbell {s0 : State} (v : DbView) (q : Qid) (be : BitVec 4) (val : Word) (s : State) (hks :
      SameUnits s0 s) : OutSameUnits s0 (execSubmissionTailDoorbell v q be val s) := by
  unfold execSubmissionTailDoorbell
  try dsimp only
  repeat' (first | with_reducible assumption | with_reducible apply units_countErr | with_reducible apply units_hostTouch | with_reducible apply units_doorbell | with_reducible apply OutSameUnits.next | exact OutSameUnits.fault _ | exact OutSameUnits.refused _ | simp only [SameUnits.mk3, SameUnits.mk4] | (intro _) | split)

theorem units_execCompletionHeadDoorbell {s0 : State} (v : DbView) (q : Qid) (be : BitVec 4) (val : Word) (s : State) (hks :
      SameUnits s0 s) : OutSameUnits s0 (execCompletionHeadDoorbell v q be val s) := by
  unfold execCompletionHeadDoorbell
  try dsimp only
  repeat' (first | with_reducible assumption | with_reducible apply units_countErr | with_reducible apply units_hostTouch | with_reducible apply units_doorbell | with_reducible apply OutSameUnits.next | exact OutSameUnits.fault _ | exact OutSameUnits.refused _ | simp only [SameUnits.mk3, SameUnits.mk4] | (intro _) | split)

theorem units_sendData {s0 : State} (s : State) (c : Cmd) (off : Nat) (b : List Byte) (ep : Bool) (hks : SameUnits s0 s) :
      SameUnits s0 (State.sendData s c off b ep) := by
  unfold State.sendData
  try dsimp only
  repeat' (first | with_reducible assumption | with_reducible apply units_emit | with_reducible apply SameUnits.foldl | simp only [SameUnits.mk3, SameUnits.mk4] | (intro _) | split)

theorem units_sendPlain {s0 : State} (s : State) (c : Cmd) (addr : DWord) (b : List Byte) (hks : SameUnits s0 s) : SameUnits s0
      (State.sendPlain s c addr b) := by
  unfold State.sendPlain
  try dsimp only
  repeat' (first | with_reducible assumption | with_reducible apply units_emit | simp only [SameUnits.mk3, SameUnits.mk4] | (intro _) | split)

theorem units_readHost {s0 : State} (s : State) (c : Cmd) (hks : SameUnits s0 s) : SameUnits s0 (State.readHost s c) := by
  unfold State.readHost
  try dsimp only
  repeat' (first | with_reducible assumption | with_reducible apply units_emit | with_reducible apply SameUnits.foldl | simp only [SameUnits.mk3, SameUnits.mk4] | (intro _) | split)

theorem units_startReads {s0 : State} (s : State) (c : Cmd) (hks : SameUnits s0 s) : SameUnits s0 (State.startReads s c) := by
  unfold State.startReads
  try dsimp only
  repeat' (first | with_reducible assumption | with_reducible apply units_emit | with_reducible apply units_readHost | simp only [SameUnits.mk3, SameUnits.mk4] | (intro _) | split)

theorem units_finish {s0 : State} (s : State) (tag : Tag) (st : Byte) (rc : Byte) (result : DWord) (hks : SameUnits s0 s) :
      SameUnits s0 (State.finish s tag st rc result) := by
  unfold State.finish
  try dsimp only
  repeat' (first | with_reducible assumption | with_reducible apply units_updCmd | simp only [SameUnits.mk3, SameUnits.mk4] | (intro _) | split)

theorem units_fetchOne {s0 : State} (s : State) (t : Tid) (q : Qid) (f : FetchedDesc) (hks : SameUnits s0 s) : SameUnits s0
      (State.fetchOne s t q f) := by
  unfold State.fetchOne
  try dsimp only
  repeat' (first | with_reducible assumption | with_reducible apply units_emit | with_reducible apply units_poisonReceived | with_reducible apply units_updQp | with_reducible apply units_startReads | simp only [SameUnits.mk3, SameUnits.mk4] | (intro _) | split)

theorem units_fetchTurn {s0 : State} (s : State) (t : Tid) (q : Qid) (n : Nat) (l : List FetchedDesc) (hks : SameUnits s0 s) :
    SameUnits s0 (State.fetchTurn s t q n l) := by
  induction n generalizing s l with
  | zero => simp only [State.fetchTurn]; exact hks
  | succ n ih =>
    cases l with
    | nil => simp only [State.fetchTurn]; exact hks
    | cons f r =>
      simp only [State.fetchTurn]
      split
      · exact ih _ _ (units_fetchOne _ _ _ _ hks)
      · exact hks

theorem units_execDescriptorFetch {s0 : State} (ds : List FetchedDesc) (s : State) (hks : SameUnits s0 s) : OutSameUnits s0
      (execDescriptorFetch ds s) := by
  unfold execDescriptorFetch
  try dsimp only
  repeat' (first | with_reducible assumption | with_reducible apply units_updTnt | with_reducible apply units_fetchTurn | with_reducible apply OutSameUnits.next | exact OutSameUnits.fault _ | exact OutSameUnits.refused _ | simp only [SameUnits.mk3, SameUnits.mk4] | (intro _) | split)

theorem units_execHostReadCompletion {s0 : State} (tag : Tag) (buf : HostBuf) (off : Nat) (b : List Byte) (ep : Bool) (s :
      State) (hks : SameUnits s0 s) : OutSameUnits s0 (execHostReadCompletion tag buf off b ep s) := by
  unfold execHostReadCompletion
  try dsimp only
  repeat' (first | with_reducible assumption | with_reducible apply units_emit | with_reducible apply units_poisonReceived | with_reducible apply units_updCmd | with_reducible apply units_readHost | with_reducible apply units_finish | with_reducible apply OutSameUnits.next | exact OutSameUnits.fault _ | exact OutSameUnits.refused _ | simp only [SameUnits.mk3, SameUnits.mk4] | (intro _) | split)

theorem units_timedOut {s0 : State} (s : State) (fn : Fn) (hks : SameUnits s0 s) : SameUnits s0 (State.timedOut s fn) := by
  unfold State.timedOut
  try dsimp only
  repeat' (first | with_reducible assumption | with_reducible apply units_raise | with_reducible apply units_aerAdvisory | simp only [SameUnits.mk3, SameUnits.mk4] | (intro _) | split)

theorem units_staleTimeout {s0 : State} (s : State) (rtag : Nat) (hks : SameUnits s0 s) : SameUnits s0 (State.staleTimeout s
      rtag) := by
  unfold State.staleTimeout
  try dsimp only
  repeat' (first | with_reducible assumption | with_reducible apply units_timedOut | simp only [SameUnits.mk3, SameUnits.mk4] | (intro _) | split)

theorem units_execCompletionTimeout {s0 : State} (tag : Tag) (why : ReadFailure) (s : State) (hks : SameUnits s0 s) :
      OutSameUnits s0 (execCompletionTimeout tag why s) := by
  unfold execCompletionTimeout
  try dsimp only
  repeat' (first | with_reducible assumption | with_reducible apply units_updCmd | with_reducible apply units_finish | with_reducible apply units_timedOut | with_reducible apply units_staleTimeout | with_reducible apply OutSameUnits.next | exact OutSameUnits.fault _ | exact OutSameUnits.refused _ | simp only [SameUnits.mk3, SameUnits.mk4] | (intro _) | split)

theorem units_runOp {s0 : State} (s : State) (tag : Tag) (opc : Nat) (p : Desc → Bool) (f : Cmd → State) (hf : ∀ v0, SameUnits
      s0 (f v0)) (hks : SameUnits s0 s) : SameUnits s0 (State.runOp s tag opc p f) := by
  unfold State.runOp
  try dsimp only
  repeat' (first | with_reducible assumption | with_reducible apply units_finish | with_reducible apply hf | simp only [SameUnits.mk3, SameUnits.mk4] | (intro _) | split)

theorem units_updPipe {s0 : State} (s : State) (p : Pipe) (f : PipeS → PipeS) (hks : SameUnits s0 s) : SameUnits s0
      (State.updPipe s p f) := by
  unfold State.updPipe
  try dsimp only
  repeat' (first | with_reducible assumption | simp only [SameUnits.mk3, SameUnits.mk4] | (intro _) | split)

theorem units_enterPipe {s0 : State} (s : State) (p : Pipe) (t : Tid) (epoch : Byte) (tag : Tag) (n : Nat) (hks : SameUnits s0
      s) : SameUnits s0 (State.enterPipe s p t epoch tag n) := by
  unfold State.enterPipe
  try dsimp only
  repeat' (first | with_reducible assumption | with_reducible apply units_updPipe | with_reducible apply SameUnits.foldl | simp only [SameUnits.mk3, SameUnits.mk4] | (intro _) | split)

theorem units_leavePipe {s0 : State} (s : State) (p : Pipe) (tag : Tag) (hks : SameUnits s0 s) : SameUnits s0 (State.leavePipe
      s p tag) := by
  unfold State.leavePipe
  try dsimp only
  repeat' (first | with_reducible assumption | with_reducible apply units_updPipe | simp only [SameUnits.mk3, SameUnits.mk4] | (intro _) | split)

theorem units_drawMasks {s0 : State} (s : State) (p : Pipe) (n : Nat) (hks : SameUnits s0 s) : SameUnitsK1 s0 (State.drawMasks
      s p n) := by
  unfold State.drawMasks
  try dsimp only
  repeat' (first | with_reducible assumption | with_reducible apply SameUnitsK1.none | with_reducible apply SameUnitsK1.some | simp only [SameUnits.mk3, SameUnits.mk4] | (intro _) | split)

theorem units_maskStall {s0 : State} (s : State) (p : Pipe) (tag : Tag) (hks : SameUnits s0 s) : SameUnits s0 (State.maskStall
      s p tag) := by
  unfold State.maskStall
  try dsimp only
  repeat' (first | with_reducible assumption | with_reducible apply units_updCmd | with_reducible apply units_updPipe | simp only [SameUnits.mk3, SameUnits.mk4] | (intro _) | split)

theorem units_fenceLinks {s0 : State} (s : State) (p : Pipe) (hks : SameUnits s0 s) : SameUnits s0 (State.fenceLinks s p) := by
  unfold State.fenceLinks
  try dsimp only
  repeat' (first | with_reducible assumption | with_reducible apply units_linksDown | with_reducible apply units_mirLeave | simp only [SameUnits.mk3, SameUnits.mk4] | (intro _) | split)

theorem units_undoOpen {s0 : State} (s : State) (cs : List Cmd) (hks : SameUnits s0 s) : SameUnits s0 (State.undoOpen s cs) :=
      by
  unfold State.undoOpen
  try dsimp only
  repeat' (first | with_reducible assumption | with_reducible apply units_updZone | with_reducible apply SameUnits.foldl | simp only [SameUnits.mk3, SameUnits.mk4] | (intro _) | split)

theorem units_failPipe {s0 : State} (s : State) (p : Pipe) (st : Byte) (rc : Byte) (hks : SameUnits s0 s) : SameUnits s0
      (State.failPipe s p st rc) := by
  unfold State.failPipe
  try dsimp only
  repeat' (first | with_reducible assumption | with_reducible apply units_freeBuf | with_reducible apply units_updPipe | with_reducible apply units_undoOpen | with_reducible apply SameUnits.foldl | simp only [SameUnits.mk3, SameUnits.mk4] | (intro _) | split)

theorem units_fencePipe {s0 : State} (s : State) (p : Pipe) (rc : Byte) (stage : Nat) (tenant : Byte) (tag : Nat) (n : Nat)
      (hks : SameUnits s0 s) : SameUnits s0 (State.fencePipe s p rc stage tenant tag n) := by
  unfold State.fencePipe
  try dsimp only
  repeat' (first | with_reducible assumption | with_reducible apply units_raiseRec | with_reducible apply units_updPipe | with_reducible apply units_fenceLinks | with_reducible apply units_failPipe | simp only [SameUnits.mk3, SameUnits.mk4] | (intro _) | split)

theorem units_remask {s0 : State} (s : State) (p : Pipe) (n : Nat) (hks : SameUnits s0 s) : SameUnits s0 (State.remask s p n)
      := by
  unfold State.remask
  try dsimp only
  repeat' (first | with_reducible assumption | with_reducible apply units_updPipe | with_reducible refine SameUnitsK1.elim (units_drawMasks _ _ _ ?_) ‹_› | with_reducible apply units_drawMasks | simp only [SameUnits.mk3, SameUnits.mk4] | (intro _) | split)

theorem units_execParityMismatch {s0 : State} (p : Pipe) (stage : Fin 28) (s : State) (hks : SameUnits s0 s) : OutSameUnits s0
      (execParityMismatch p stage s) := by
  unfold execParityMismatch
  try dsimp only
  repeat' (first | with_reducible assumption | with_reducible apply units_raise | with_reducible apply units_raiseRec | with_reducible apply units_updPipe | with_reducible apply units_fencePipe | with_reducible apply units_remask | with_reducible apply OutSameUnits.next | exact OutSameUnits.fault _ | exact OutSameUnits.refused _ | simp only [SameUnits.mk3, SameUnits.mk4] | (intro _) | split)

theorem units_execMaskStarved {s0 : State} (p : Pipe) (s : State) (hks : SameUnits s0 s) : OutSameUnits s0 (execMaskStarved p
      s) := by
  unfold execMaskStarved
  try dsimp only
  repeat' (first | with_reducible assumption | with_reducible apply units_raise | with_reducible apply units_updPipe | with_reducible apply units_fencePipe | with_reducible apply OutSameUnits.next | exact OutSameUnits.fault _ | exact OutSameUnits.refused _ | simp only [SameUnits.mk3, SameUnits.mk4] | (intro _) | split)

theorem units_drbg {s0 : State} (s : State) (hks : SameUnits s0 s) : SameUnitsK2 s0 (State.drbg s) := by
  unfold State.drbg
  try dsimp only
  repeat' (first | with_reducible assumption | with_reducible apply units_drawn | with_reducible apply SameUnitsK2.none | with_reducible apply SameUnitsK2.some | with_reducible apply SameUnitsK2.findSome | simp only [SameUnits.mk3, SameUnits.mk4] | (intro _) | split)

theorem units_endStall {s0 : State} (s : State) (p : Pipe) (hks : SameUnits s0 s) : SameUnits s0 (State.endStall s p) := by
  unfold State.endStall
  try dsimp only
  repeat' (first | with_reducible assumption | with_reducible apply units_raise | with_reducible apply units_updPipe | simp only [SameUnits.mk3, SameUnits.mk4] | (intro _) | split)

theorem units_execLaneReseed {s0 : State} (lane : Fin 112) (s : State) (hks : SameUnits s0 s) : OutSameUnits s0 (execLaneReseed
      lane s) := by
  unfold execLaneReseed
  try dsimp only
  repeat' (first | with_reducible assumption | with_reducible apply units_endStall | with_reducible apply units_updPipe | with_reducible refine SameUnitsK2.elim (units_drbg _ ?_) ‹_› | with_reducible apply units_drbg | with_reducible apply OutSameUnits.next | exact OutSameUnits.fault _ | exact OutSameUnits.refused _ | simp only [SameUnits.mk3, SameUnits.mk4] | (intro _) | split)

theorem units_execDrbgReseed {s0 : State} (s : State) (hks : SameUnits s0 s) : OutSameUnits s0 (execDrbgReseed s) := by
  unfold execDrbgReseed
  try dsimp only
  repeat' (first | with_reducible assumption | with_reducible refine SameUnitsK2.elim (units_drbg _ ?_) ‹_› | with_reducible apply units_drbg | with_reducible apply OutSameUnits.next | exact OutSameUnits.fault _ | exact OutSameUnits.refused _ | simp only [SameUnits.mk3, SameUnits.mk4] | (intro _) | split)

theorem units_execHealthTestFailure {s0 : State} (test : HealthTest) (s : State) (hks : SameUnits s0 s) : OutSameUnits s0
      (execHealthTestFailure test s) := by
  unfold execHealthTestFailure
  try dsimp only
  repeat' (first | with_reducible assumption | with_reducible apply units_raise | with_reducible apply units_raiseRec | with_reducible refine SameUnitsK2.elim (units_drbg _ ?_) ‹_› | with_reducible apply units_drbg | with_reducible apply OutSameUnits.next | exact OutSameUnits.fault _ | exact OutSameUnits.refused _ | simp only [SameUnits.mk3, SameUnits.mk4] | (intro _) | split)

theorem units_zeroise {s0 : State} (s : State) (t : Tid) (hks : SameUnits s0 s) : SameUnits s0 (State.zeroise s t) := by
  unfold State.zeroise
  try dsimp only
  repeat' (first | with_reducible assumption | with_reducible apply units_updTnt | simp only [SameUnits.mk3, SameUnits.mk4] | (intro _) | split)

theorem units_zeroiseAll {s0 : State} (s : State) (hks : SameUnits s0 s) : SameUnits s0 (State.zeroiseAll s) := by
  unfold State.zeroiseAll
  try dsimp only
  repeat' (first | with_reducible assumption | simp only [SameUnits.mk3, SameUnits.mk4] | (intro _) | split)

theorem units_loadKey {s0 : State} (s : State) (t : Tid) (a0 : Unwrapped) (hks : SameUnits s0 s) : SameUnits s0 (State.loadKey
      s t a0) := by
  unfold State.loadKey
  try dsimp only
  repeat' (first | with_reducible assumption | with_reducible apply units_updTnt | simp only [SameUnits.mk3, SameUnits.mk4] | (intro _) | split)

theorem units_reloadKeys {s0 : State} (s : State) (t : Tid) (hks : SameUnits s0 s) : SameUnits s0 (State.reloadKeys s t) := by
  unfold State.reloadKeys
  try dsimp only
  repeat' (first | with_reducible assumption | with_reducible apply units_loadKey | simp only [SameUnits.mk3, SameUnits.mk4] | (intro _) | split)

theorem units_dropPersisted {s0 : State} (s : State) (t : Tid) (x g : Bool) (hks : SameUnits s0 s) : SameUnits s0
      (State.dropPersisted s t x g) := by
  unfold State.dropPersisted
  try dsimp only
  repeat' (first | with_reducible assumption | simp only [SameUnits.mk3, SameUnits.mk4] | (intro _) | split)

theorem units_applyKey {s0 : State} (s : State) (t : Tid) (a0 : KeyChange) (hks : SameUnits s0 s) : SameUnits s0
      (State.applyKey s t a0) := by
  unfold State.applyKey
  try dsimp only
  repeat' (first | with_reducible assumption | with_reducible apply units_updTnt | with_reducible apply units_raiseTnt | with_reducible apply units_finish | with_reducible apply units_loadKey | with_reducible apply units_dropPersisted | simp only [SameUnits.mk3, SameUnits.mk4] | (intro _) | split)

theorem units_queueKey {s0 : State} (s : State) (t : Tid) (tag : Tag) (k : KeyChange) (hks : SameUnits s0 s) : SameUnits s0
      (State.queueKey s t tag k) := by
  unfold State.queueKey
  try dsimp only
  repeat' (first | with_reducible assumption | with_reducible apply units_updTnt | with_reducible apply units_updCmd | simp only [SameUnits.mk3, SameUnits.mk4] | (intro _) | split)

theorem units_execKeyLoad {s0 : State} (tag : Tag) (s : State) (hks : SameUnits s0 s) : OutSameUnits s0 (execKeyLoad tag s) :=
      by
  unfold execKeyLoad
  try dsimp only
  repeat' (first | with_reducible assumption | with_reducible apply units_raise | with_reducible apply units_finish | with_reducible apply units_runOp | with_reducible refine SameUnitsK1.elim (units_drawMasks _ _ _ ?_) ‹_› | with_reducible apply units_drawMasks | with_reducible apply units_maskStall | with_reducible apply units_queueKey | with_reducible apply OutSameUnits.next | exact OutSameUnits.fault _ | exact OutSameUnits.refused _ | with_reducible apply SameUnitsK1.getD | simp only [SameUnits.mk3, SameUnits.mk4] | (intro _) | split)

theorem units_execKeyClear {s0 : State} (tag : Tag) (s : State) (hks : SameUnits s0 s) : OutSameUnits s0 (execKeyClear tag s)
      := by
  unfold execKeyClear
  try dsimp only
  repeat' (first | with_reducible assumption | with_reducible apply units_runOp | with_reducible apply units_queueKey | with_reducible apply OutSameUnits.next | exact OutSameUnits.fault _ | exact OutSameUnits.refused _ | simp only [SameUnits.mk3, SameUnits.mk4] | (intro _) | split)

theorem units_execKeyPageChange {s0 : State} (t : Tid) (s : State) (hks : SameUnits s0 s) : OutSameUnits s0 (execKeyPageChange
      t s) := by
  unfold execKeyPageChange
  try dsimp only
  repeat' (first | with_reducible assumption | with_reducible apply units_updTnt | with_reducible apply units_applyKey | with_reducible apply OutSameUnits.next | exact OutSameUnits.fault _ | exact OutSameUnits.refused _ | simp only [SameUnits.mk3, SameUnits.mk4] | (intro _) | split)

theorem units_countDirty {s0 : State} (s : State) (hs : List Nat) (hks : SameUnits s0 s) : SameUnits s0 (State.countDirty s hs)
      := by
  unfold State.countDirty
  try dsimp only
  repeat' (first | with_reducible assumption | with_reducible apply units_updBufs | simp only [SameUnits.mk3, SameUnits.mk4] | (intro _) | split)

theorem units_execWrite {s0 : State} (tag : Tag) (s : State) (hks : SameUnits s0 s) : OutSameUnits s0 (execWrite tag s) := by
  unfold execWrite
  try dsimp only
  repeat' (first | with_reducible assumption | with_reducible apply units_updCmd | with_reducible apply units_pause | with_reducible refine SameUnitsK2.elim (units_allocAll _ _ _ ?_) ‹_› | with_reducible apply units_allocAll | with_reducible apply units_finish | with_reducible apply units_runOp | with_reducible apply units_enterPipe | with_reducible refine SameUnitsK1.elim (units_drawMasks _ _ _ ?_) ‹_› | with_reducible apply units_drawMasks | with_reducible apply units_maskStall | with_reducible apply OutSameUnits.next | exact OutSameUnits.fault _ | exact OutSameUnits.refused _ | simp only [SameUnits.mk3, SameUnits.mk4] | (intro _) | split)

theorem units_placeWrite {s0 : State} (s : State) (d : BoardDesc) (tag : Tag) (c : Cmd) (hks : SameUnits s0 s) : SameUnits s0
      (State.placeWrite s d tag c) := by
  unfold State.placeWrite
  try dsimp only
  repeat' (first | with_reducible assumption | with_reducible apply units_updCmd | with_reducible apply units_updBuf | with_reducible refine SameUnitsK1.elim (units_placeIn _ _ _ _ _ ?_) ‹_› | with_reducible apply units_placeIn | with_reducible apply units_journalLag | with_reducible apply units_leavePipe | with_reducible apply SameUnits.foldl | simp only [SameUnits.mk3, SameUnits.mk4] | (intro _) | split)

theorem units_placeAppend {s0 : State} (s : State) (d : BoardDesc) (tag : Tag) (c : Cmd) (hks : SameUnits s0 s) : SameUnits s0
      (State.placeAppend s d tag c) := by
  unfold State.placeAppend
  try dsimp only
  repeat' (first | with_reducible assumption | with_reducible apply units_updCmd | with_reducible apply units_updBuf | with_reducible refine SameUnitsK1.elim (units_placeIn _ _ _ _ _ ?_) ‹_› | with_reducible apply units_placeIn | with_reducible apply units_journalLag | with_reducible apply SameUnits.foldl | simp only [SameUnits.mk3, SameUnits.mk4] | (intro _) | split)

theorem units_execBufferPlacement {s0 : State} (tag : Tag) (s : State) (hks : SameUnits s0 s) : OutSameUnits s0
      (execBufferPlacement tag s) := by
  unfold execBufferPlacement
  try dsimp only
  repeat' (first | with_reducible assumption | with_reducible apply units_retryRewrites | with_reducible apply units_placeWrite | with_reducible apply units_placeAppend | with_reducible apply OutSameUnits.next | exact OutSameUnits.fault _ | exact OutSameUnits.refused _ | simp only [SameUnits.mk3, SameUnits.mk4] | (intro _) | split)

theorem units_queueReads {s0 : State} (s : State) (d : BoardDesc) (tag : Tag) (items : List (Nat × (Piece → Option Nat))) (hks
      : SameUnits s0 s) : SameUnits s0 (State.queueReads s d tag items) := by
  unfold State.queueReads
  try dsimp only
  repeat' (first | with_reducible assumption | with_reducible apply units_queueOp | with_reducible apply SameUnits.foldl | simp only [SameUnits.mk3, SameUnits.mk4] | (intro _) | split)

theorem units_startRead {s0 : State} (s : State) (tag : Tag) (c : Cmd) (p : Pipe) (n : Nat) (m : Nat) (reads : List (Nat ×
      (Piece →
      Option Nat))) (hks : SameUnits s0 s) : SameUnits s0 (State.startRead s tag c p n m reads) := by
  unfold State.startRead
  try dsimp only
  repeat' (first | with_reducible assumption | with_reducible apply units_updCmd | with_reducible apply units_pause | with_reducible refine SameUnitsK2.elim (units_allocAll _ _ _ ?_) ‹_› | with_reducible apply units_allocAll | with_reducible apply units_enterPipe | with_reducible refine SameUnitsK1.elim (units_drawMasks _ _ _ ?_) ‹_› | with_reducible apply units_drawMasks | with_reducible apply units_maskStall | with_reducible apply units_queueReads | simp only [SameUnits.mk3, SameUnits.mk4] | (intro _) | split)

theorem units_beginRead {s0 : State} (s : State) (tag : Tag) (c : Cmd) (hks : SameUnits s0 s) : SameUnits s0 (State.beginRead s
      tag c) := by
  unfold State.beginRead
  try dsimp only
  repeat' (first | with_reducible assumption | with_reducible apply units_finish | with_reducible apply units_startRead | simp only [SameUnits.mk3, SameUnits.mk4] | (intro _) | split)

theorem units_execRead {s0 : State} (tag : Tag) (s : State) (hks : SameUnits s0 s) : OutSameUnits s0 (execRead tag s) := by
  unfold execRead
  try dsimp only
  repeat' (first | with_reducible assumption | with_reducible apply units_runOp | with_reducible apply units_beginRead | with_reducible apply OutSameUnits.next | exact OutSameUnits.fault _ | exact OutSameUnits.refused _ | simp only [SameUnits.mk3, SameUnits.mk4] | (intro _) | split)

theorem units_execVerify {s0 : State} (tag : Tag) (s : State) (hks : SameUnits s0 s) : OutSameUnits s0 (execVerify tag s) := by
  unfold execVerify
  try dsimp only
  repeat' (first | with_reducible assumption | with_reducible apply units_finish | with_reducible apply units_runOp | with_reducible apply units_beginRead | with_reducible apply OutSameUnits.next | exact OutSameUnits.fault _ | exact OutSameUnits.refused _ | simp only [SameUnits.mk3, SameUnits.mk4] | (intro _) | split)

theorem units_sendAppends {s0 : State} (s : State) (c : Cmd) (z : Zone) (id : Nat) (key : Hash × Word) (base i : Nat) (l : List
      AppRec)
    (hks : SameUnits s0 s) : SameUnitsK4 s0 (State.sendAppends s c z id key base i l) := by
  induction l generalizing s i with
  | nil => exact ⟨hks⟩
  | cons e r ih =>
    unfold State.sendAppends
    dsimp only
    split
    · exact ⟨hks⟩
    · refine ⟨(ih _ _ ?_).fst⟩
      repeat' (first | with_reducible assumption | with_reducible apply units_sendPlain | with_reducible apply units_sendData | split)

theorem units_endRead {s0 : State} (s : State) (tag : Tag) (c : Cmd) (hks : SameUnits s0 s) : SameUnits s0 (State.endRead s tag
      c) := by
  unfold State.endRead
  try dsimp only
  repeat' (first | with_reducible assumption | with_reducible apply units_updCmd | with_reducible apply units_freeBufs | with_reducible apply units_sendData | with_reducible apply units_finish | with_reducible apply units_leavePipe | with_reducible apply SameUnitsK4.fst; with_reducible apply units_sendAppends | with_reducible refine SameUnitsK4.elim (units_sendAppends _ _ _ _ _ _ _ _ ?_) ‹_› | with_reducible apply units_sendAppends | with_reducible apply SameUnits.foldl | simp only [SameUnits.mk3, SameUnits.mk4] | (intro _) | split)

theorem units_execFlush {s0 : State} (tag : Tag) (s : State) (hks : SameUnits s0 s) : OutSameUnits s0 (execFlush tag s) := by
  unfold execFlush
  try dsimp only
  repeat' (first | with_reducible assumption | with_reducible apply units_updCmd | with_reducible apply units_runOp | with_reducible apply OutSameUnits.next | exact OutSameUnits.fault _ | exact OutSameUnits.refused _ | simp only [SameUnits.mk3, SameUnits.mk4] | (intro _) | split)

theorem units_execTrim {s0 : State} (tag : Tag) (s : State) (hks : SameUnits s0 s) : OutSameUnits s0 (execTrim tag s) := by
  unfold execTrim
  try dsimp only
  repeat' (first | with_reducible assumption | with_reducible apply units_updCmd | with_reducible apply units_journalLines | with_reducible apply units_finish | with_reducible apply units_runOp | with_reducible apply OutSameUnits.next | exact OutSameUnits.fault _ | exact OutSameUnits.refused _ | simp only [SameUnits.mk3, SameUnits.mk4] | (intro _) | split)

theorem units_revertBlocks {s0 : State} (s : State) (c : Cmd) (hks : SameUnits s0 s) : SameUnits s0 (State.revertBlocks s c)
      := by
  unfold State.revertBlocks
  try dsimp only
  repeat' (first | with_reducible assumption | with_reducible apply SameUnits.foldl | simp only [SameUnits.mk3, SameUnits.mk4] | (intro _) | split)

theorem units_forgetOld {s0 : State} (s : State) (c : Cmd) (hks : SameUnits s0 s) : SameUnits s0 (State.forgetOld s c) := by
  unfold State.forgetOld
  try dsimp only
  repeat' (first | with_reducible assumption | simp only [SameUnits.mk3, SameUnits.mk4] | (intro _) | split)

theorem units_endUnstored {s0 : State} (s : State) (tag : Tag) (c : Cmd) (st rc : Byte) (r : DWord) (hks : SameUnits s0 s) :
      SameUnits s0 (State.endUnstored s tag c st rc r) := by
  unfold State.endUnstored
  try dsimp only
  repeat' (first | with_reducible assumption | with_reducible apply units_updCmd | with_reducible apply units_freeBuf | with_reducible apply units_freeBufs | with_reducible apply units_dropAppends | with_reducible apply units_finish | with_reducible apply units_leavePipe | with_reducible apply units_undoOpen | with_reducible apply units_revertBlocks | with_reducible apply SameUnits.foldl | simp only [SameUnits.mk3, SameUnits.mk4] | (intro _) | split)

theorem units_endAtLevel {s0 : State} (s : State) (tag : Tag) (c : Cmd) (hks : SameUnits s0 s) : SameUnits s0
      (State.endAtLevel s tag c) := by
  unfold State.endAtLevel
  try dsimp only
  repeat' (first | with_reducible assumption | with_reducible apply units_endUnstored | simp only [SameUnits.mk3, SameUnits.mk4] | (intro _) | split)

theorem units_freeTagOf {s0 : State} (s : State) (tag : Tag) (hks : SameUnits s0 s) : SameUnits s0 (State.freeTagOf s tag) := by
  unfold State.freeTagOf
  try dsimp only
  repeat' (first | with_reducible assumption | simp only [SameUnits.mk3, SameUnits.mk4] | (intro _) | split)

theorem units_dropEntries {s0 : State} (s : State) (fn : Fn) (n : Nat) (hks : SameUnits s0 s) : SameUnits s0
      (State.dropEntries s fn n) := by
  unfold State.dropEntries
  try dsimp only
  repeat' (first | with_reducible assumption | simp only [SameUnits.mk3, SameUnits.mk4] | (intro _) | split)

theorem units_execSealChainStep {s0 : State} (tag : Tag) (s : State) (hks : SameUnits s0 s) : OutSameUnits s0
      (execSealChainStep tag s) := by
  unfold execSealChainStep
  try dsimp only
  repeat' (first | with_reducible assumption | with_reducible apply units_updCmd | with_reducible apply units_updZone | with_reducible apply units_mirAppendSend | with_reducible apply units_leavePipe | with_reducible apply units_step | with_reducible apply OutSameUnits.next | exact OutSameUnits.fault _ | exact OutSameUnits.refused _ | simp only [SameUnits.mk3, SameUnits.mk4] | (intro _) | split)

theorem units_acknowledge {s0 : State} (s : State) (tag : Tag) (c : Cmd) (e : AppRec) (live : List Nat) (hks : SameUnits s0 s)
      : SameUnits s0 (State.acknowledge s tag c e live) := by
  unfold State.acknowledge
  try dsimp only
  repeat' (first | with_reducible assumption | with_reducible apply units_updTnt | with_reducible apply units_raiseTnt | with_reducible apply units_raiseRecStatus | with_reducible apply units_mirStateItem | with_reducible apply units_updZone | with_reducible apply units_meterIn | with_reducible apply units_updEntry | with_reducible apply units_finish | with_reducible apply units_countDirty | simp only [SameUnits.mk3, SameUnits.mk4] | (intro _) | split)

theorem units_execAppendAcknowledgement {s0 : State} (tag : Tag) (s : State) (hks : SameUnits s0 s) : OutSameUnits s0
      (execAppendAcknowledgement tag s) := by
  unfold execAppendAcknowledgement
  try dsimp only
  repeat' (first | with_reducible assumption | with_reducible apply units_acknowledge | with_reducible apply OutSameUnits.next | exact OutSameUnits.fault _ | exact OutSameUnits.refused _ | simp only [SameUnits.mk3, SameUnits.mk4] | (intro _) | split)

theorem units_badState {s0 : State} (s : State) (tag : Tag) (z : Zone) (hks : SameUnits s0 s) : SameUnits s0 (State.badState s
      tag z) := by
  unfold State.badState
  try dsimp only
  repeat' (first | with_reducible assumption | with_reducible apply units_finish | simp only [SameUnits.mk3, SameUnits.mk4] | (intro _) | split)

theorem units_execZoneOpen {s0 : State} (tag : Tag) (s : State) (hks : SameUnits s0 s) : OutSameUnits s0 (execZoneOpen tag s)
      := by
  unfold execZoneOpen
  try dsimp only
  repeat' (first | with_reducible assumption | with_reducible apply units_updZone | with_reducible refine SameUnitsK5.elim (units_takeZone _ _ _ _ ?_) ‹_› | with_reducible apply units_takeZone | with_reducible apply units_finish | with_reducible apply units_runOp | with_reducible apply units_badState | with_reducible apply OutSameUnits.next | exact OutSameUnits.fault _ | exact OutSameUnits.refused _ | simp only [SameUnits.mk3, SameUnits.mk4] | (intro _) | split)

theorem units_finishZone {s0 : State} (s : State) (id : Nat) (z : Zone) (hks : SameUnits s0 s) : SameUnits s0 (State.finishZone
      s id z) := by
  unfold State.finishZone
  try dsimp only
  repeat' (first | with_reducible assumption | with_reducible apply units_mirStateItem | with_reducible apply units_updZone | with_reducible apply units_finish | simp only [SameUnits.mk3, SameUnits.mk4] | (intro _) | split)

theorem units_execZoneFinish {s0 : State} (tag : Tag) (s : State) (hks : SameUnits s0 s) : OutSameUnits s0 (execZoneFinish tag
      s) := by
  unfold execZoneFinish
  try dsimp only
  repeat' (first | with_reducible assumption | with_reducible apply units_finish | with_reducible apply units_runOp | with_reducible apply units_badState | with_reducible apply units_finishZone | with_reducible apply OutSameUnits.next | exact OutSameUnits.fault _ | exact OutSameUnits.refused _ | simp only [SameUnits.mk3, SameUnits.mk4] | (intro _) | split)

theorem units_execZoneHold {s0 : State} (tag : Tag) (s : State) (hks : SameUnits s0 s) : OutSameUnits s0 (execZoneHold tag s)
      := by
  unfold execZoneHold
  try dsimp only
  repeat' (first | with_reducible assumption | with_reducible apply units_mirStateItem | with_reducible apply units_updZone | with_reducible apply units_meterIn | with_reducible apply units_quotaNear | with_reducible apply units_finish | with_reducible apply units_runOp | with_reducible apply units_badState | with_reducible apply OutSameUnits.next | exact OutSameUnits.fault _ | exact OutSameUnits.refused _ | simp only [SameUnits.mk3, SameUnits.mk4] | (intro _) | split)

theorem units_execZoneRelease {s0 : State} (tag : Tag) (s : State) (hks : SameUnits s0 s) : OutSameUnits s0 (execZoneRelease
      tag s) := by
  unfold execZoneRelease
  try dsimp only
  repeat' (first | with_reducible assumption | with_reducible apply units_mirStateItem | with_reducible apply units_updZone | with_reducible apply units_finish | with_reducible apply units_runOp | with_reducible apply units_badState | with_reducible apply OutSameUnits.next | exact OutSameUnits.fault _ | exact OutSameUnits.refused _ | simp only [SameUnits.mk3, SameUnits.mk4] | (intro _) | split)

theorem units_holdTenant {s0 : State} (s : State) (t : Tid) (at_ : Nat) (hks : SameUnits s0 s) : SameUnits s0 (State.holdTenant
      s t at_) := by
  unfold State.holdTenant
  try dsimp only
  repeat' (first | with_reducible assumption | with_reducible apply units_raiseRec | with_reducible apply units_mirStateItem | with_reducible apply units_meterIn | with_reducible apply units_quotaNear | with_reducible apply SameUnits.foldl | simp only [SameUnits.mk3, SameUnits.mk4] | (intro _) | split)

theorem units_holdPulse {s0 : State} (s : State) (at_ : Nat) (hks : SameUnits s0 s) : SameUnits s0 (State.holdPulse s at_) := by
  unfold State.holdPulse
  try dsimp only
  repeat' (first | with_reducible assumption | with_reducible apply units_holdTenant | with_reducible apply SameUnits.foldl | simp only [SameUnits.mk3, SameUnits.mk4] | (intro _) | split)

theorem units_putSeal {s0 : State} (s : State) (id : Nat) (r : List Byte) (hks : SameUnits s0 s) : SameUnits s0 (State.putSeal
      s id r) := by
  unfold State.putSeal
  try dsimp only
  repeat' (first | with_reducible assumption | simp only [SameUnits.mk3, SameUnits.mk4] | (intro _) | split)

theorem units_sealZone {s0 : State} (s : State) (id : Nat) (z : Zone) (key : Hash) (hks : SameUnits s0 s) : SameUnits s0
      (State.sealZone s id z key) := by
  unfold State.sealZone
  try dsimp only
  repeat' (first | with_reducible assumption | with_reducible apply units_raise | with_reducible apply units_mirStateItem | with_reducible apply units_updZone | with_reducible apply units_meterIn | with_reducible apply units_quotaNear | with_reducible apply units_mirAppendSend | with_reducible apply units_finishZone | with_reducible apply units_putSeal | with_reducible apply SameUnits.foldl | simp only [SameUnits.mk3, SameUnits.mk4] | (intro _) | split)

theorem units_runSeal {s0 : State} (s : State) (tag : Tag) (c : Cmd) (z : Zone) (hks : SameUnits s0 s) : SameUnits s0
      (State.runSeal s tag c z) := by
  unfold State.runSeal
  try dsimp only
  repeat' (first | with_reducible assumption | with_reducible apply units_finish | with_reducible apply units_badState | with_reducible apply units_sealZone | simp only [SameUnits.mk3, SameUnits.mk4] | (intro _) | split)

theorem units_settleAppends {s0 : State} (s : State) (t : Tid) (hks : SameUnits s0 s) : SameUnits s0 (State.settleAppends s t)
      := by
  unfold State.settleAppends
  try dsimp only
  repeat' (first | with_reducible assumption | with_reducible apply units_dropAppends | simp only [SameUnits.mk3, SameUnits.mk4] | (intro _) | split)

theorem units_execZoneSeal {s0 : State} (tag : Tag) (s : State) (hks : SameUnits s0 s) : OutSameUnits s0 (execZoneSeal tag s)
      := by
  unfold execZoneSeal
  try dsimp only
  repeat' (first | with_reducible assumption | with_reducible apply units_updCmd | with_reducible apply units_finish | with_reducible apply units_runSeal | with_reducible apply units_settleAppends | with_reducible apply units_step | with_reducible apply OutSameUnits.next | exact OutSameUnits.fault _ | exact OutSameUnits.refused _ | with_reducible apply SameUnitsK1.getD | simp only [SameUnits.mk3, SameUnits.mk4] | (intro _) | split)

theorem units_execZoneReport {s0 : State} (tag : Tag) (s : State) (hks : SameUnits s0 s) : OutSameUnits s0 (execZoneReport tag
      s) := by
  unfold execZoneReport
  try dsimp only
  repeat' (first | with_reducible assumption | with_reducible apply units_sendData | with_reducible apply units_finish | with_reducible apply units_runOp | with_reducible apply OutSameUnits.next | exact OutSameUnits.fault _ | exact OutSameUnits.refused _ | simp only [SameUnits.mk3, SameUnits.mk4] | (intro _) | split)

theorem units_execSealExportSealRecord {s0 : State} (tag : Tag) (s : State) (hks : SameUnits s0 s) : OutSameUnits s0
      (execSealExportSealRecord tag s) := by
  unfold execSealExportSealRecord
  try dsimp only
  repeat' (first | with_reducible assumption | with_reducible apply units_sendData | with_reducible apply units_finish | with_reducible apply units_runOp | with_reducible apply OutSameUnits.next | exact OutSameUnits.fault _ | exact OutSameUnits.refused _ | simp only [SameUnits.mk3, SameUnits.mk4] | (intro _) | split)

theorem units_execSealExportZoneEntries {s0 : State} (tag : Tag) (s : State) (hks : SameUnits s0 s) : OutSameUnits s0
      (execSealExportZoneEntries tag s) := by
  unfold execSealExportZoneEntries
  try dsimp only
  repeat' (first | with_reducible assumption | with_reducible apply units_sendData | with_reducible apply units_finish | with_reducible apply units_runOp | with_reducible apply OutSameUnits.next | exact OutSameUnits.fault _ | exact OutSameUnits.refused _ | simp only [SameUnits.mk3, SameUnits.mk4] | (intro _) | split)

theorem units_execSealExportChain {s0 : State} (tag : Tag) (s : State) (hks : SameUnits s0 s) : OutSameUnits s0
      (execSealExportChain tag s) := by
  unfold execSealExportChain
  try dsimp only
  repeat' (first | with_reducible assumption | with_reducible apply units_sendData | with_reducible apply units_finish | with_reducible apply units_runOp | with_reducible apply OutSameUnits.next | exact OutSameUnits.fault _ | exact OutSameUnits.refused _ | simp only [SameUnits.mk3, SameUnits.mk4] | (intro _) | split)

theorem units_eraseZoneBlocks {s0 : State} (s : State) (id : Nat) (hks : SameUnits s0 s) : SameUnits s0 (State.eraseZoneBlocks
      s id) := by
  unfold State.eraseZoneBlocks
  try dsimp only
  repeat' (first | with_reducible assumption | with_reducible apply units_eraseIfEmpty | with_reducible apply SameUnits.foldl | simp only [SameUnits.mk3, SameUnits.mk4] | (intro _) | split)

theorem units_execIdentify {s0 : State} (tag : Tag) (s : State) (hks : SameUnits s0 s) : OutSameUnits s0 (execIdentify tag s)
      := by
  unfold execIdentify
  try dsimp only
  repeat' (first | with_reducible assumption | with_reducible apply units_sendData | with_reducible apply units_finish | with_reducible apply units_runOp | with_reducible apply OutSameUnits.next | exact OutSameUnits.fault _ | exact OutSameUnits.refused _ | simp only [SameUnits.mk3, SameUnits.mk4] | (intro _) | split)

theorem units_drainQp {s0 : State} (s : State) (t : Tid) (q : Qid) (abort : Bool) (hks : SameUnits s0 s) : SameUnits s0
      (State.drainQp s t q abort) := by
  unfold State.drainQp
  try dsimp only
  repeat' (first | with_reducible assumption | with_reducible apply units_updQp | simp only [SameUnits.mk3, SameUnits.mk4] | (intro _) | split)

theorem units_execFeatureHoldMinutesGet {s0 : State} (tag : Tag) (s : State) (hks : SameUnits s0 s) : OutSameUnits s0
      (execFeatureHoldMinutesGet tag s) := by
  unfold execFeatureHoldMinutesGet
  try dsimp only
  repeat' (first | with_reducible assumption | with_reducible apply units_finish | with_reducible apply units_runOp | with_reducible apply OutSameUnits.next | exact OutSameUnits.fault _ | exact OutSameUnits.refused _ | simp only [SameUnits.mk3, SameUnits.mk4] | (intro _) | split)

theorem units_setHold {s0 : State} (s : State) (t : Tid) (v : Nat) (hks : SameUnits s0 s) : SameUnits s0 (State.setHold s t v)
      := by
  unfold State.setHold
  try dsimp only
  repeat' (first | with_reducible assumption | with_reducible apply units_updTnt | simp only [SameUnits.mk3, SameUnits.mk4] | (intro _) | split)

theorem units_execFeatureHoldMinutesSet {s0 : State} (tag : Tag) (s : State) (hks : SameUnits s0 s) : OutSameUnits s0
      (execFeatureHoldMinutesSet tag s) := by
  unfold execFeatureHoldMinutesSet
  try dsimp only
  repeat' (first | with_reducible assumption | with_reducible apply units_finish | with_reducible apply units_runOp | with_reducible apply units_setHold | with_reducible apply OutSameUnits.next | exact OutSameUnits.fault _ | exact OutSameUnits.refused _ | simp only [SameUnits.mk3, SameUnits.mk4] | (intro _) | split)

theorem units_execFeatureDisplayItemGet {s0 : State} (tag : Tag) (s : State) (hks : SameUnits s0 s) : OutSameUnits s0
      (execFeatureDisplayItemGet tag s) := by
  unfold execFeatureDisplayItemGet
  try dsimp only
  repeat' (first | with_reducible assumption | with_reducible apply units_sendData | with_reducible apply units_finish | with_reducible apply units_runOp | with_reducible apply OutSameUnits.next | exact OutSameUnits.fault _ | exact OutSameUnits.refused _ | with_reducible apply SameUnitsK1.getD | simp only [SameUnits.mk3, SameUnits.mk4] | (intro _) | split)

theorem units_execFeatureBudgetGet {s0 : State} (tag : Tag) (s : State) (hks : SameUnits s0 s) : OutSameUnits s0
      (execFeatureBudgetGet tag s) := by
  unfold execFeatureBudgetGet
  try dsimp only
  repeat' (first | with_reducible assumption | with_reducible apply units_finish | with_reducible apply units_runOp | with_reducible apply OutSameUnits.next | exact OutSameUnits.fault _ | exact OutSameUnits.refused _ | simp only [SameUnits.mk3, SameUnits.mk4] | (intro _) | split)

theorem units_execLogReadEventRecords {s0 : State} (tag : Tag) (s : State) (hks : SameUnits s0 s) : OutSameUnits s0
      (execLogReadEventRecords tag s) := by
  unfold execLogReadEventRecords
  try dsimp only
  repeat' (first | with_reducible assumption | with_reducible apply units_sendData | with_reducible apply units_finish | with_reducible apply units_runOp | with_reducible apply OutSameUnits.next | exact OutSameUnits.fault _ | exact OutSameUnits.refused _ | simp only [SameUnits.mk3, SameUnits.mk4] | (intro _) | split)

theorem units_execLogReadZoneResetLog {s0 : State} (tag : Tag) (s : State) (hks : SameUnits s0 s) : OutSameUnits s0
      (execLogReadZoneResetLog tag s) := by
  unfold execLogReadZoneResetLog
  try dsimp only
  repeat' (first | with_reducible assumption | with_reducible apply units_sendData | with_reducible apply units_finish | with_reducible apply units_runOp | with_reducible apply OutSameUnits.next | exact OutSameUnits.fault _ | exact OutSameUnits.refused _ | simp only [SameUnits.mk3, SameUnits.mk4] | (intro _) | split)

theorem units_ownerOp {s0 : State} (s : State) (tag : Tag) (op : Nat) (useKey : Bool) (useSig : Bool) (act : Cmd → List Byte →
      List Byte → State) (hact : ∀ v0 v1 v2, SameUnits s0 (act v0 v1 v2)) (hks : SameUnits s0 s) : SameUnits s0 (State.ownerOp
      s tag op useKey useSig act) := by
  unfold State.ownerOp
  try dsimp only
  repeat' (first | with_reducible assumption | with_reducible apply units_finish | with_reducible apply units_runOp | with_reducible apply hact | simp only [SameUnits.mk3, SameUnits.mk4] | (intro _) | split)

theorem units_ownerChanged {s0 : State} (s : State) (b : Nat) (hks : SameUnits s0 s) : SameUnits s0 (State.ownerChanged s b)
      := by
  unfold State.ownerChanged
  try dsimp only
  repeat' (first | with_reducible assumption | with_reducible apply units_raise | with_reducible apply units_mirDeviceItem | simp only [SameUnits.mk3, SameUnits.mk4] | (intro _) | split)

theorem units_addProfile {s0 : State} (s : State) (r : ProfRec) (hks : SameUnits s0 s) : SameUnits s0 (State.addProfile s r)
      := by
  unfold State.addProfile
  try dsimp only
  repeat' (first | with_reducible assumption | simp only [SameUnits.mk3, SameUnits.mk4] | (intro _) | split)

theorem units_clearCounts {s0 : State} (s : State) (hks : SameUnits s0 s) : SameUnits s0 (State.clearCounts s) := by
  unfold State.clearCounts
  try dsimp only
  repeat' (first | with_reducible assumption | simp only [SameUnits.mk3, SameUnits.mk4] | (intro _) | split)

theorem units_openInterval {s0 : State} (s : State) (at_ : Nat) (hks : SameUnits s0 s) : SameUnits s0 (State.openInterval s
      at_) := by
  unfold State.openInterval
  try dsimp only
  repeat' (first | with_reducible assumption | with_reducible apply units_clearCounts | simp only [SameUnits.mk3, SameUnits.mk4] | (intro _) | split)

theorem units_closeInterval {s0 : State} (s : State) (hks : SameUnits s0 s) : SameUnits s0 (State.closeInterval s) := by
  unfold State.closeInterval
  try dsimp only
  repeat' (first | with_reducible assumption | with_reducible apply units_addProfile | simp only [SameUnits.mk3, SameUnits.mk4] | (intro _) | split)

theorem units_absentRecord {s0 : State} (s : State) (start : Nat) (hks : SameUnits s0 s) : SameUnits s0 (State.absentRecord s
      start) := by
  unfold State.absentRecord
  try dsimp only
  repeat' (first | with_reducible assumption | with_reducible apply units_addProfile | simp only [SameUnits.mk3, SameUnits.mk4] | (intro _) | split)

theorem units_settleBoundary {s0 : State} (s : State) (hks : SameUnits s0 s) : SameUnits s0 (State.settleBoundary s) := by
  unfold State.settleBoundary
  try dsimp only
  repeat' (first | with_reducible assumption | with_reducible apply units_raise | with_reducible apply units_mirSend | with_reducible apply units_openInterval | with_reducible apply units_addProfile | with_reducible apply SameUnits.foldl | with_reducible apply SameUnitsK1.getD | simp only [SameUnits.mk3, SameUnits.mk4] | (intro _) | split)

theorem units_endBoundary {s0 : State} (s : State) (hks : SameUnits s0 s) : SameUnits s0 (State.endBoundary s) := by
  unfold State.endBoundary
  try dsimp only
  repeat' (first | with_reducible assumption | with_reducible apply units_settleBoundary | with_reducible apply units_raise | with_reducible apply units_mirSend | with_reducible apply units_openInterval | with_reducible apply units_closeInterval | with_reducible apply SameUnits.foldl | with_reducible apply SameUnitsK1.getD | simp only [SameUnits.mk3, SameUnits.mk4] | (intro _) | split)

theorem units_startBoundary {s0 : State} (s : State) (hks : SameUnits s0 s) : SameUnits s0 (State.startBoundary s) := by
  unfold State.startBoundary
  try dsimp only
  repeat' (first | with_reducible assumption | with_reducible apply units_clearCounts | with_reducible apply SameUnits.foldl | simp only [SameUnits.mk3, SameUnits.mk4] | (intro _) | split)

theorem units_execQuarterHourBoundary {s0 : State} (s : State) (hks : SameUnits s0 s) : OutSameUnits s0
      (execQuarterHourBoundary s) := by
  unfold execQuarterHourBoundary
  try dsimp only
  repeat' (first | with_reducible assumption | with_reducible apply units_endBoundary | with_reducible apply units_startBoundary | with_reducible apply OutSameUnits.next | exact OutSameUnits.fault _ | exact OutSameUnits.refused _ | simp only [SameUnits.mk3, SameUnits.mk4] | (intro _) | split)

theorem units_execMeterMinuteSample {s0 : State} (s : State) (hks : SameUnits s0 s) : OutSameUnits s0 (execMeterMinuteSample s)
      := by
  unfold execMeterMinuteSample
  try dsimp only
  repeat' (first | with_reducible assumption | with_reducible apply units_endBoundary | with_reducible apply OutSameUnits.next | exact OutSameUnits.fault _ | exact OutSameUnits.refused _ | simp only [SameUnits.mk3, SameUnits.mk4] | (intro _) | split)

theorem units_setUtc {s0 : State} (s : State) (v : Nat) (st : UtcState) (hks : SameUnits s0 s) : SameUnits s0 (State.setUtc s v
      st) := by
  unfold State.setUtc
  try dsimp only
  repeat' (first | with_reducible assumption | with_reducible apply units_raise | with_reducible apply units_openInterval | with_reducible apply units_closeInterval | with_reducible apply units_absentRecord | with_reducible apply SameUnits.foldl | simp only [SameUnits.mk3, SameUnits.mk4] | (intro _) | split)

theorem units_execSignedLapse {s0 : State} (s : State) (hks : SameUnits s0 s) : OutSameUnits s0 (execSignedLapse s) := by
  unfold execSignedLapse
  try dsimp only
  repeat' (first | with_reducible assumption | with_reducible apply OutSameUnits.next | exact OutSameUnits.fault _ | exact OutSameUnits.refused _ | simp only [SameUnits.mk3, SameUnits.mk4] | (intro _) | split)

theorem units_execNonceLapse {s0 : State} (s : State) (hks : SameUnits s0 s) : OutSameUnits s0 (execNonceLapse s) := by
  unfold execNonceLapse
  try dsimp only
  repeat' (first | with_reducible assumption | with_reducible apply OutSameUnits.next | exact OutSameUnits.fault _ | exact OutSameUnits.refused _ | simp only [SameUnits.mk3, SameUnits.mk4] | (intro _) | split)

theorem units_execGetNonce {s0 : State} (tag : Tag) (s : State) (hks : SameUnits s0 s) : OutSameUnits s0 (execGetNonce tag s)
      := by
  unfold execGetNonce
  try dsimp only
  repeat' (first | with_reducible assumption | with_reducible apply units_sendData | with_reducible apply units_finish | with_reducible apply units_runOp | with_reducible refine SameUnitsK2.elim (units_drbg _ ?_) ‹_› | with_reducible apply units_drbg | with_reducible apply OutSameUnits.next | exact OutSameUnits.fault _ | exact OutSameUnits.refused _ | simp only [SameUnits.mk3, SameUnits.mk4] | (intro _) | split)

theorem units_execSetHost {s0 : State} (tag : Tag) (s : State) (hks : SameUnits s0 s) : OutSameUnits s0 (execSetHost tag s) :=
      by
  unfold execSetHost
  try dsimp only
  repeat' (first | with_reducible assumption | with_reducible apply units_finish | with_reducible apply units_runOp | with_reducible apply units_setUtc | with_reducible apply OutSameUnits.next | exact OutSameUnits.fault _ | exact OutSameUnits.refused _ | simp only [SameUnits.mk3, SameUnits.mk4] | (intro _) | split)

theorem units_execSetSigned {s0 : State} (tag : Tag) (s : State) (hks : SameUnits s0 s) : OutSameUnits s0 (execSetSigned tag s)
      := by
  unfold execSetSigned
  try dsimp only
  repeat' (first | with_reducible assumption | with_reducible apply units_finish | with_reducible apply units_runOp | with_reducible apply units_setUtc | with_reducible apply OutSameUnits.next | exact OutSameUnits.fault _ | exact OutSameUnits.refused _ | simp only [SameUnits.mk3, SameUnits.mk4] | (intro _) | split)

theorem units_meterServe {s0 : State} (s : State) (hks : SameUnits s0 s) : SameUnits s0 (State.meterServe s) := by
  unfold State.meterServe
  try dsimp only
  repeat' (first | with_reducible assumption | simp only [SameUnits.mk3, SameUnits.mk4] | (intro _) | split)

theorem units_meterRead {s0 : State} (s : State) (tag : Tag) (c : Cmd) (allowed : Bool) (tenant : Byte) (content : Nat → List
      Byte) (hks : SameUnits s0 s) : SameUnits s0 (State.meterRead s tag c allowed tenant content) := by
  unfold State.meterRead
  try dsimp only
  repeat' (first | with_reducible assumption | with_reducible apply units_sendData | with_reducible apply units_finish | simp only [SameUnits.mk3, SameUnits.mk4] | (intro _) | split)

theorem units_execMeterReadTenant {s0 : State} (tag : Tag) (s : State) (hks : SameUnits s0 s) : OutSameUnits s0
      (execMeterReadTenant tag s) := by
  unfold execMeterReadTenant
  try dsimp only
  repeat' (first | with_reducible assumption | with_reducible apply units_runOp | with_reducible apply units_meterRead | with_reducible apply OutSameUnits.next | exact OutSameUnits.fault _ | exact OutSameUnits.refused _ | simp only [SameUnits.mk3, SameUnits.mk4] | (intro _) | split)

theorem units_execMeterReadAll {s0 : State} (tag : Tag) (s : State) (hks : SameUnits s0 s) : OutSameUnits s0 (execMeterReadAll
      tag s) := by
  unfold execMeterReadAll
  try dsimp only
  repeat' (first | with_reducible assumption | with_reducible apply units_runOp | with_reducible apply units_meterRead | with_reducible apply OutSameUnits.next | exact OutSameUnits.fault _ | exact OutSameUnits.refused _ | simp only [SameUnits.mk3, SameUnits.mk4] | (intro _) | split)

theorem units_execMeterReadLoadProfile {s0 : State} (tag : Tag) (s : State) (hks : SameUnits s0 s) : OutSameUnits s0
      (execMeterReadLoadProfile tag s) := by
  unfold execMeterReadLoadProfile
  try dsimp only
  repeat' (first | with_reducible assumption | with_reducible apply units_runOp | with_reducible apply units_meterRead | with_reducible apply OutSameUnits.next | exact OutSameUnits.fault _ | exact OutSameUnits.refused _ | simp only [SameUnits.mk3, SameUnits.mk4] | (intro _) | split)

theorem units_meterStart {s0 : State} (s : State) (first : Bool) (hks : SameUnits s0 s) : SameUnits s0 (State.meterStart s
      first) := by
  unfold State.meterStart
  try dsimp only
  repeat' (first | with_reducible assumption | with_reducible apply units_openInterval | with_reducible apply units_startBoundary | simp only [SameUnits.mk3, SameUnits.mk4] | (intro _) | split)

theorem units_meterSave {s0 : State} (s : State) (hks : SameUnits s0 s) : SameUnits s0 (State.meterSave s) := by
  unfold State.meterSave
  try dsimp only
  repeat' (first | with_reducible assumption | with_reducible apply units_settleBoundary | simp only [SameUnits.mk3, SameUnits.mk4] | (intro _) | split)

theorem units_settleFns {s0 : State} (s : State) (hks : SameUnits s0 s) : SameUnits s0 (State.settleFns s) := by
  unfold State.settleFns
  try dsimp only
  repeat' (first | with_reducible assumption | simp only [SameUnits.mk3, SameUnits.mk4] | (intro _) | split)

theorem units_requestAll {s0 : State} (s : State) (fn : Fn) (hks : SameUnits s0 s) : SameUnits s0 (State.requestAll s fn) := by
  unfold State.requestAll
  try dsimp only
  repeat' (first | with_reducible assumption | with_reducible apply units_request | with_reducible apply SameUnits.foldl | simp only [SameUnits.mk3, SameUnits.mk4] | (intro _) | split)

theorem units_sendMessage {s0 : State} (s : State) (fn : Fn) (k : Nat) (hks : SameUnits s0 s) : SameUnits s0 (State.sendMessage
      s fn k) := by
  unfold State.sendMessage
  try dsimp only
  repeat' (first | with_reducible assumption | with_reducible apply units_emit | with_reducible apply units_updFn | with_reducible apply SameUnitsK1.getD | simp only [SameUnits.mk3, SameUnits.mk4] | (intro _) | split)

theorem units_sendPending {s0 : State} (s : State) (fn : Fn) (hks : SameUnits s0 s) : SameUnits s0 (State.sendPending s fn) :=
      by
  unfold State.sendPending
  try dsimp only
  repeat' (first | with_reducible assumption | with_reducible apply units_sendMessage | with_reducible apply SameUnits.foldl | simp only [SameUnits.mk3, SameUnits.mk4] | (intro _) | split)

theorem units_execInterruptMessage {s0 : State} (fn : Fn) (vec : Fin 72) (s : State) (hks : SameUnits s0 s) : OutSameUnits s0
      (execInterruptMessage fn vec s) := by
  unfold execInterruptMessage
  try dsimp only
  repeat' (first | with_reducible assumption | with_reducible apply units_sendMessage | with_reducible apply OutSameUnits.next | exact OutSameUnits.fault _ | exact OutSameUnits.refused _ | simp only [SameUnits.mk3, SameUnits.mk4] | (intro _) | split)

theorem units_msixTableWrite {s0 : State} (s : State) (fn : Fn) (vec dw : Nat) (be : BitVec 4) (v : Word) (hks : SameUnits s0
      s) : SameUnits s0 (State.msixTableWrite s fn vec dw be v) := by
  unfold State.msixTableWrite
  try dsimp only
  repeat' (first | with_reducible assumption | with_reducible apply units_updFn | with_reducible apply units_countErr | with_reducible apply SameUnitsK1.getD | simp only [SameUnits.mk3, SameUnits.mk4] | (intro _) | split)

theorem units_cfgAct {s0 : State} (s : State) (fn : Fn) (a0 : CfgReq) (hks : SameUnits s0 s) : SameUnits s0 (State.cfgAct s fn
      a0) := by
  unfold State.cfgAct
  try dsimp only
  repeat' (first | with_reducible assumption | with_reducible apply units_drawn | with_reducible apply units_emit | with_reducible apply units_updFn | simp only [SameUnits.mk3, SameUnits.mk4] | (intro _) | split)

theorem units_cfgRequest {s0 : State} (s : State) (fn : Fn) (req : CfgReq) (hks : SameUnits s0 s) : SameUnits s0
      (State.cfgRequest s fn req) := by
  unfold State.cfgRequest
  try dsimp only
  repeat' (first | with_reducible assumption | with_reducible apply units_emit | with_reducible apply units_endLull | with_reducible apply units_aerUncorrectable | with_reducible apply units_cfgAct | simp only [SameUnits.mk3, SameUnits.mk4] | (intro _) | split)

theorem units_execConfigurationRequest {s0 : State} (fn : Fn) (req : CfgReq) (s : State) (hks : SameUnits s0 s) : OutSameUnits
      s0 (execConfigurationRequest fn req s) := by
  unfold execConfigurationRequest
  try dsimp only
  repeat' (first | with_reducible assumption | with_reducible apply units_msixTableWrite | with_reducible apply units_cfgRequest | with_reducible apply OutSameUnits.next | exact OutSameUnits.fault _ | exact OutSameUnits.refused _ | simp only [SameUnits.mk3, SameUnits.mk4] | (intro _) | split)

theorem units_clearFeatures {s0 : State} (s : State) (hks : SameUnits s0 s) : SameUnits s0 (State.clearFeatures s) := by
  unfold State.clearFeatures
  try dsimp only
  repeat' (first | with_reducible assumption | simp only [SameUnits.mk3, SameUnits.mk4] | (intro _) | split)

theorem units_dropVfs {s0 : State} (s : State) (hks : SameUnits s0 s) : SameUnits s0 (State.dropVfs s) := by
  unfold State.dropVfs
  try dsimp only
  repeat' (first | with_reducible assumption | with_reducible apply units_raise | with_reducible apply units_restart | simp only [SameUnits.mk3, SameUnits.mk4] | (intro _) | split)

theorem units_clearHostSide {s0 : State} (s : State) (hks : SameUnits s0 s) : SameUnits s0 (State.clearHostSide s) := by
  unfold State.clearHostSide
  try dsimp only
  repeat' (first | with_reducible assumption | simp only [SameUnits.mk3, SameUnits.mk4] | (intro _) | split)

theorem units_execPerstRelease {s0 : State} (s : State) (hks : SameUnits s0 s) : OutSameUnits s0 (execPerstRelease s) := by
  unfold execPerstRelease
  try dsimp only
  repeat' (first | with_reducible assumption | with_reducible apply OutSameUnits.next | exact OutSameUnits.fault _ | exact OutSameUnits.refused _ | simp only [SameUnits.mk3, SameUnits.mk4] | (intro _) | split)

theorem units_execLinkUp {s0 : State} (speed : BitVec 3) (width : BitVec 3) (s : State) (hks : SameUnits s0 s) : OutSameUnits
      s0 (execLinkUp speed width s) := by
  unfold execLinkUp
  try dsimp only
  repeat' (first | with_reducible assumption | with_reducible apply units_updInta | with_reducible apply units_raise | with_reducible apply OutSameUnits.next | exact OutSameUnits.fault _ | exact OutSameUnits.refused _ | simp only [SameUnits.mk3, SameUnits.mk4] | (intro _) | split)

theorem units_execSpeedWidthChange {s0 : State} (speed width : BitVec 3) (ltssm : BitVec 5) (s : State) (hks : SameUnits s0 s)
      : OutSameUnits s0 (execSpeedWidthChange speed width ltssm s) := by
  unfold execSpeedWidthChange
  try dsimp only
  repeat' (first | with_reducible assumption | with_reducible apply units_raise | with_reducible apply OutSameUnits.next | exact OutSameUnits.fault _ | exact OutSameUnits.refused _ | simp only [SameUnits.mk3, SameUnits.mk4] | (intro _) | split)

theorem units_execVfEnableSet {s0 : State} (numVfs : Fin 64) (ari : Bool) (s : State) (hks : SameUnits s0 s) : OutSameUnits s0
      (execVfEnableSet numVfs ari s) := by
  unfold execVfEnableSet
  try dsimp only
  repeat' (first | with_reducible assumption | with_reducible apply units_raise | with_reducible apply OutSameUnits.next | exact OutSameUnits.fault _ | exact OutSameUnits.refused _ | simp only [SameUnits.mk3, SameUnits.mk4] | (intro _) | split)

theorem units_execBusMasterEnableSet {s0 : State} (fn : Fn) (s : State) (hks : SameUnits s0 s) : OutSameUnits s0
      (execBusMasterEnableSet fn s) := by
  unfold execBusMasterEnableSet
  try dsimp only
  repeat' (first | with_reducible assumption | with_reducible apply units_updFn | with_reducible apply units_sendPending | with_reducible apply OutSameUnits.next | exact OutSameUnits.fault _ | exact OutSameUnits.refused _ | simp only [SameUnits.mk3, SameUnits.mk4] | (intro _) | split)

theorem units_execInterruptModeChange {s0 : State} (fn : Fn) (cfg : IntCfg) (s : State) (hks : SameUnits s0 s) : OutSameUnits
      s0 (execInterruptModeChange fn cfg s) := by
  unfold execInterruptModeChange
  try dsimp only
  repeat' (first | with_reducible assumption | with_reducible apply units_updFn | with_reducible apply units_updInta | with_reducible apply units_requestAll | with_reducible apply OutSameUnits.next | exact OutSameUnits.fault _ | exact OutSameUnits.refused _ | simp only [SameUnits.mk3, SameUnits.mk4] | (intro _) | split)

theorem units_execVectorUnmask {s0 : State} (fn : Fn) (msix : Bool) (vec : Fin 72) (s : State) (hks : SameUnits s0 s) :
      OutSameUnits s0 (execVectorUnmask fn msix vec s) := by
  unfold execVectorUnmask
  try dsimp only
  repeat' (first | with_reducible assumption | with_reducible apply units_updFn | with_reducible apply units_sendMessage | with_reducible apply OutSameUnits.next | exact OutSameUnits.fault _ | exact OutSameUnits.refused _ | simp only [SameUnits.mk3, SameUnits.mk4] | (intro _) | split)

theorem units_execInterruptDisable {s0 : State} (on : Bool) (s : State) (hks : SameUnits s0 s) : OutSameUnits s0
      (execInterruptDisable on s) := by
  unfold execInterruptDisable
  try dsimp only
  repeat' (first | with_reducible assumption | with_reducible apply units_updInta | with_reducible apply OutSameUnits.next | exact OutSameUnits.fault _ | exact OutSameUnits.refused _ | simp only [SameUnits.mk3, SameUnits.mk4] | (intro _) | split)

theorem units_execPoisonedMemoryWrite {s0 : State} (space : BarSpace) (s : State) (hks : SameUnits s0 s) : OutSameUnits s0
      (execPoisonedMemoryWrite space s) := by
  unfold execPoisonedMemoryWrite
  try dsimp only
  repeat' (first | with_reducible assumption | with_reducible apply units_poisonReceived | with_reducible apply OutSameUnits.next | exact OutSameUnits.fault _ | exact OutSameUnits.refused _ | simp only [SameUnits.mk3, SameUnits.mk4] | (intro _) | split)

theorem units_linkErrorLogged {s0 : State} (s : State) (e : LinkError) (hks : SameUnits s0 s) : SameUnits s0
      (State.linkErrorLogged s e) := by
  unfold State.linkErrorLogged
  try dsimp only
  repeat' (first | with_reducible assumption | with_reducible apply units_aerUncorrectable | with_reducible apply units_aerCorrectable | simp only [SameUnits.mk3, SameUnits.mk4] | (intro _) | split)

theorem units_execUnsupportedRequest {s0 : State} (fn : Fn) (kind : UrKind) (s : State) (hks : SameUnits s0 s) : OutSameUnits
      s0 (execUnsupportedRequest fn kind s) := by
  unfold execUnsupportedRequest
  try dsimp only
  repeat' (first | with_reducible assumption | with_reducible apply units_emit | with_reducible apply units_aerUncorrectable | with_reducible apply units_linkErrorLogged | with_reducible apply OutSameUnits.next | exact OutSameUnits.fault _ | exact OutSameUnits.refused _ | simp only [SameUnits.mk3, SameUnits.mk4] | (intro _) | split)

theorem units_execStaleCompletion {s0 : State} (rtag n : Nat) (ep : Bool) (s : State) (hks : SameUnits s0 s) : OutSameUnits s0
      (execStaleCompletion rtag n ep s) := by
  unfold execStaleCompletion
  try dsimp only
  repeat' (first | with_reducible assumption | with_reducible apply units_aerUncorrectable | with_reducible apply units_poisonReceived | with_reducible apply OutSameUnits.next | exact OutSameUnits.fault _ | exact OutSameUnits.refused _ | simp only [SameUnits.mk3, SameUnits.mk4] | (intro _) | split)

theorem units_execAspmL1Entry {s0 : State} (clkreqHigh : Bool) (s : State) (hks : SameUnits s0 s) : OutSameUnits s0
      (execAspmL1Entry clkreqHigh s) := by
  unfold execAspmL1Entry
  try dsimp only
  repeat' (first | with_reducible assumption | with_reducible apply OutSameUnits.next | exact OutSameUnits.fault _ | exact OutSameUnits.refused _ | simp only [SameUnits.mk3, SameUnits.mk4] | (intro _) | split)

theorem units_storeRec {s0 : State} (s : State) (r : EvRec) (hks : SameUnits s0 s) : SameUnits s0 (State.storeRec s r) := by
  unfold State.storeRec
  try dsimp only
  repeat' (first | with_reducible assumption | with_reducible apply units_countDropped | simp only [SameUnits.mk3, SameUnits.mk4] | (intro _) | split)

theorem units_passBegin {s0 : State} (s : State) (hks : SameUnits s0 s) : SameUnits s0 (State.passBegin s) := by
  unfold State.passBegin
  try dsimp only
  repeat' (first | with_reducible assumption | with_reducible apply units_queueOp | with_reducible apply SameUnits.foldl | simp only [SameUnits.mk3, SameUnits.mk4] | (intro _) | split)

theorem units_passEnd {s0 : State} (s : State) (hks : SameUnits s0 s) : SameUnits s0 (State.passEnd s) := by
  unfold State.passEnd
  try dsimp only
  repeat' (first | with_reducible assumption | with_reducible apply units_raise | with_reducible apply units_storeRec | with_reducible apply SameUnits.foldl | simp only [SameUnits.mk3, SameUnits.mk4] | (intro _) | split)

theorem units_execEvrProgrammingPass {s0 : State} (s : State) (hks : SameUnits s0 s) : OutSameUnits s0 (execEvrProgrammingPass
      s) := by
  unfold execEvrProgrammingPass
  try dsimp only
  repeat' (first | with_reducible assumption | with_reducible apply units_endLull | with_reducible apply units_passBegin | with_reducible apply OutSameUnits.next | exact OutSameUnits.fault _ | exact OutSameUnits.refused _ | simp only [SameUnits.mk3, SameUnits.mk4] | (intro _) | split)

theorem units_execEvrPassEnd {s0 : State} (s : State) (hks : SameUnits s0 s) : OutSameUnits s0 (execEvrPassEnd s) := by
  unfold execEvrPassEnd
  try dsimp only
  repeat' (first | with_reducible assumption | with_reducible apply units_passEnd | with_reducible apply OutSameUnits.next | exact OutSameUnits.fault _ | exact OutSameUnits.refused _ | simp only [SameUnits.mk3, SameUnits.mk4] | (intro _) | split)

theorem units_dropClasses {s0 : State} (s : State) (hks : SameUnits s0 s) : SameUnits s0 (State.dropClasses s) := by
  unfold State.dropClasses
  try dsimp only
  repeat' (first | with_reducible assumption | simp only [SameUnits.mk3, SameUnits.mk4] | (intro _) | split)

theorem units_hungDies {s0 : State} (s : State) (hung : List (Fin 256)) (hks : SameUnits s0 s) : SameUnits s0 (State.hungDies
      s hung) := by
  unfold State.hungDies
  try dsimp only
  repeat' (first | with_reducible assumption | with_reducible apply units_failDie | with_reducible apply SameUnits.foldl | simp only [SameUnits.mk3, SameUnits.mk4] | (intro _) | split)

theorem units_flushStart {s0 : State} (s : State) (hks : SameUnits s0 s) : SameUnits s0 (State.flushStart s) := by
  unfold State.flushStart
  try dsimp only
  repeat' (first | with_reducible assumption | with_reducible refine SameUnitsK1.elim (units_placeIn _ _ _ _ _ ?_) ‹_› | with_reducible apply units_placeIn | with_reducible apply SameUnits.foldl | with_reducible apply SameUnitsK1.getD | simp only [SameUnits.mk3, SameUnits.mk4] | (intro _) | split)

theorem units_parityStart {s0 : State} (s : State) (hks : SameUnits s0 s) : SameUnits s0 (State.parityStart s) := by
  unfold State.parityStart
  try dsimp only
  repeat' (first | with_reducible assumption | with_reducible apply units_updSb | with_reducible apply units_queueOp | with_reducible apply SameUnits.foldl | simp only [SameUnits.mk3, SameUnits.mk4] | (intro _) | split)

theorem units_tailStart {s0 : State} (s : State) (hks : SameUnits s0 s) : SameUnits s0 (State.tailStart s) := by
  unfold State.tailStart
  try dsimp only
  repeat' (first | with_reducible assumption | with_reducible apply units_queueOp | with_reducible apply SameUnits.foldl | simp only [SameUnits.mk3, SameUnits.mk4] | (intro _) | split)

theorem units_markStep {s0 : State} (s : State) (n : Nat) (hks : SameUnits s0 s) : SameUnits s0 (State.markStep s n) := by
  unfold State.markStep
  try dsimp only
  repeat' (first | with_reducible assumption | simp only [SameUnits.mk3, SameUnits.mk4] | (intro _) | split)

theorem units_wakeChannels {s0 : State} (s : State) (hks : SameUnits s0 s) : SameUnits s0 (State.wakeChannels s) := by
  unfold State.wakeChannels
  try dsimp only
  repeat' (first | with_reducible assumption | simp only [SameUnits.mk3, SameUnits.mk4] | (intro _) | split)

theorem units_utcLapse {s0 : State} (s : State) (hks : SameUnits s0 s) : SameUnits s0 (State.utcLapse s) := by
  unfold State.utcLapse
  try dsimp only
  repeat' (first | with_reducible assumption | simp only [SameUnits.mk3, SameUnits.mk4] | (intro _) | split)

theorem units_updDom {s0 : State} (s : State) (d : Fin 5) (f : Domain → Domain) (hks : SameUnits s0 s) : SameUnits s0
      (State.updDom s d f) := by
  unfold State.updDom
  try dsimp only
  repeat' (first | with_reducible assumption | simp only [SameUnits.mk3, SameUnits.mk4] | (intro _) | split)

theorem units_execDomainGate {s0 : State} (d : Fin 5) (s : State) (hks : SameUnits s0 s) : OutSameUnits s0 (execDomainGate d s)
      := by
  unfold execDomainGate
  try dsimp only
  repeat' (first | with_reducible assumption | with_reducible apply units_updDom | with_reducible apply OutSameUnits.next | exact OutSameUnits.fault _ | exact OutSameUnits.refused _ | simp only [SameUnits.mk3, SameUnits.mk4] | (intro _) | split)

theorem units_execDomainPowerDown {s0 : State} (d : Fin 5) (s : State) (hks : SameUnits s0 s) : OutSameUnits s0
      (execDomainPowerDown d s) := by
  unfold execDomainPowerDown
  try dsimp only
  repeat' (first | with_reducible assumption | with_reducible apply units_updDom | with_reducible apply OutSameUnits.next | exact OutSameUnits.fault _ | exact OutSameUnits.refused _ | simp only [SameUnits.mk3, SameUnits.mk4] | (intro _) | split)

theorem units_domWake {s0 : State} (s : State) (d : Fin 5) (hks : SameUnits s0 s) : SameUnits s0 (State.domWake s d) := by
  unfold State.domWake
  try dsimp only
  repeat' (first | with_reducible assumption | with_reducible apply units_updDom | simp only [SameUnits.mk3, SameUnits.mk4] | (intro _) | split)

theorem units_packetTo {s0 : State} (s : State) (d : Fin 5) (hks : SameUnits s0 s) : SameUnits s0 (State.packetTo s d) := by
  unfold State.packetTo
  try dsimp only
  repeat' (first | with_reducible assumption | with_reducible apply units_domWake | simp only [SameUnits.mk3, SameUnits.mk4] | (intro _) | split)

theorem units_execDomainWake {s0 : State} (d : Fin 5) (s : State) (hks : SameUnits s0 s) : OutSameUnits s0 (execDomainWake d s)
      := by
  unfold execDomainWake
  try dsimp only
  repeat' (first | with_reducible assumption | with_reducible apply units_packetTo | with_reducible apply OutSameUnits.next | exact OutSameUnits.fault _ | exact OutSameUnits.refused _ | simp only [SameUnits.mk3, SameUnits.mk4] | (intro _) | split)

theorem units_execLullEntry {s0 : State} (s : State) (hks : SameUnits s0 s) : OutSameUnits s0 (execLullEntry s) := by
  unfold execLullEntry
  try dsimp only
  repeat' (first | with_reducible assumption | with_reducible apply OutSameUnits.next | exact OutSameUnits.fault _ | exact OutSameUnits.refused _ | simp only [SameUnits.mk3, SameUnits.mk4] | (intro _) | split)

theorem units_execLullExit {s0 : State} (_ev : WakeEvent) (s : State) (hks : SameUnits s0 s) : OutSameUnits s0 (execLullExit
      _ev s) := by
  unfold execLullExit
  try dsimp only
  repeat' (first | with_reducible assumption | with_reducible apply units_endLull | with_reducible apply OutSameUnits.next | exact OutSameUnits.fault _ | exact OutSameUnits.refused _ | simp only [SameUnits.mk3, SameUnits.mk4] | (intro _) | split)

theorem units_unpair {s0 : State} (s : State) (reason : BitVec 3) (hks : SameUnits s0 s) : SameUnits s0 (State.unpair s reason)
      := by
  unfold State.unpair
  try dsimp only
  repeat' (first | with_reducible assumption | with_reducible apply units_raise | with_reducible apply units_raiseRecStatus | simp only [SameUnits.mk3, SameUnits.mk4] | (intro _) | split)

theorem units_enterResync {s0 : State} (s : State) (hks : SameUnits s0 s) : SameUnits s0 (State.enterResync s) := by
  unfold State.enterResync
  try dsimp only
  repeat' (first | with_reducible assumption | with_reducible apply units_sendLong | simp only [SameUnits.mk3, SameUnits.mk4] | (intro _) | split)

theorem units_pairCheck {s0 : State} (s : State) (hks : SameUnits s0 s) : SameUnits s0 (State.pairCheck s) := by
  unfold State.pairCheck
  try dsimp only
  repeat' (first | with_reducible assumption | with_reducible apply units_unpair | with_reducible apply units_enterResync | simp only [SameUnits.mk3, SameUnits.mk4] | (intro _) | split)

theorem units_restore {s0 : State} (s : State) (p : Tid → Bool) (hks : SameUnits s0 s) : SameUnits s0 (State.restore s p) := by
  unfold State.restore
  try dsimp only
  repeat' (first | with_reducible assumption | simp only [SameUnits.mk3, SameUnits.mk4] | (intro _) | split)

theorem units_readSeq {s0 : State} (s : State) (hks : SameUnits s0 s) : SameUnits s0 (State.readSeq s) := by
  unfold State.readSeq
  try dsimp only
  repeat' (first | with_reducible assumption | simp only [SameUnits.mk3, SameUnits.mk4] | (intro _) | split)

theorem units_katResults {s0 : State} (s : State) (kat : BitVec 5) (hks : SameUnits s0 s) : SameUnits s0 (State.katResults s
      kat) := by
  unfold State.katResults
  try dsimp only
  repeat' (first | with_reducible assumption | with_reducible apply units_drawn | with_reducible apply units_raise | with_reducible apply units_raiseRec | with_reducible apply units_fencePipe | with_reducible apply SameUnits.foldl | simp only [SameUnits.mk3, SameUnits.mk4] | (intro _) | split)

theorem units_reloadAll {s0 : State} (s : State) (hks : SameUnits s0 s) : SameUnits s0 (State.reloadAll s) := by
  unfold State.reloadAll
  try dsimp only
  repeat' (first | with_reducible assumption | with_reducible apply units_reloadKeys | with_reducible apply SameUnits.foldl | simp only [SameUnits.mk3, SameUnits.mk4] | (intro _) | split)

theorem units_reportSquall {s0 : State} (s : State) (complete : Bool) (hks : SameUnits s0 s) : SameUnits s0 (State.reportSquall
      s complete) := by
  unfold State.reportSquall
  try dsimp only
  repeat' (first | with_reducible assumption | with_reducible apply units_raise | with_reducible apply units_record | simp only [SameUnits.mk3, SameUnits.mk4] | (intro _) | split)

theorem units_reportLost {s0 : State} (s : State) (t : Tid) (miss : List Nat) (hks : SameUnits s0 s) : SameUnits s0
      (State.reportLost s t miss) := by
  unfold State.reportLost
  try dsimp only
  repeat' (first | with_reducible assumption | with_reducible apply units_raise | with_reducible apply units_record | with_reducible apply SameUnits.foldl | simp only [SameUnits.mk3, SameUnits.mk4] | (intro _) | split)

theorem units_compareHead {s0 : State} (s : State) (t : Tid) (lost : Bool) (hks : SameUnits s0 s) : SameUnits s0
      (State.compareHead s t lost) := by
  unfold State.compareHead
  try dsimp only
  repeat' (first | with_reducible assumption | with_reducible apply units_drawn | with_reducible apply units_raiseRec | simp only [SameUnits.mk3, SameUnits.mk4] | (intro _) | split)

theorem units_redoErases {s0 : State} (s : State) (hks : SameUnits s0 s) : SameUnits s0 (State.redoErases s) := by
  unfold State.redoErases
  try dsimp only
  repeat' (first | with_reducible assumption | with_reducible apply units_updSb | with_reducible apply units_queueErases | with_reducible apply units_eraseSb | with_reducible apply SameUnits.foldl | simp only [SameUnits.mk3, SameUnits.mk4] | (intro _) | split)

theorem units_redoResets {s0 : State} (s : State) (hks : SameUnits s0 s) : SameUnits s0 (State.redoResets s) := by
  unfold State.redoResets
  try dsimp only
  repeat' (first | with_reducible assumption | with_reducible apply units_emptyZone | with_reducible apply SameUnits.foldl | simp only [SameUnits.mk3, SameUnits.mk4] | (intro _) | split)

theorem units_execGustMerge {s0 : State} (zone : BitVec 20) (s : State) (hks : SameUnits s0 s) : OutSameUnits s0 (execGustMerge
      zone s) := by
  unfold execGustMerge
  try dsimp only
  repeat' (first | with_reducible assumption | with_reducible apply units_updZone | with_reducible apply OutSameUnits.next | exact OutSameUnits.fault _ | exact OutSameUnits.refused _ | simp only [SameUnits.mk3, SameUnits.mk4] | (intro _) | split)

theorem units_refillSet {s0 : State} (s : State) (t : Tid) (n : Nat) (hks : SameUnits s0 s) : SameUnits s0 (State.refillSet s t
      n) := by
  induction n generalizing s with
  | zero => exact hks
  | succ k ih =>
    unfold State.refillSet
    split
    · rename_i z s1 e
      exact ih _ (units_updZone _ _ _ ((units_takeZone s t true true hks).elim e))
    · exact hks

theorem units_refillGust {s0 : State} (s : State) (d : BoardDesc) (hks : SameUnits s0 s) : SameUnits s0 (State.refillGust s d)
      := by
  unfold State.refillGust
  try dsimp only
  repeat' (first | with_reducible assumption | with_reducible apply units_refillSet | with_reducible apply SameUnits.foldl | simp only [SameUnits.mk3, SameUnits.mk4] | (intro _) | split)

theorem units_applyLatched {s0 : State} (s : State) (hks : SameUnits s0 s) : SameUnits s0 (State.applyLatched s) := by
  unfold State.applyLatched
  try dsimp only
  repeat' (first | with_reducible assumption | with_reducible apply units_holdPulse | with_reducible apply SameUnits.foldl | simp only [SameUnits.mk3, SameUnits.mk4] | (intro _) | split)

theorem units_wakeHost {s0 : State} (s : State) (hks : SameUnits s0 s) : SameUnits s0 (State.wakeHost s) := by
  unfold State.wakeHost
  try dsimp only
  repeat' (first | with_reducible assumption | with_reducible apply units_emit | simp only [SameUnits.mk3, SameUnits.mk4] | (intro _) | split)

theorem units_linkFail {s0 : State} (s : State) (port : Fin 4) (step : Nat) (hks : SameUnits s0 s) : SameUnits s0
      (State.linkFail s port step) := by
  unfold State.linkFail
  try dsimp only
  repeat' (first | with_reducible assumption | with_reducible apply units_raiseRec | with_reducible apply units_linkLeave | simp only [SameUnits.mk3, SameUnits.mk4] | (intro _) | split)

theorem units_sendHello {s0 : State} (s : State) (port : Fin 4) (f : VflS → VflS) (hks : SameUnits s0 s) : SameUnits s0
      (State.sendHello s port f) := by
  unfold State.sendHello
  try dsimp only
  repeat' (first | with_reducible assumption | with_reducible apply units_updVfl | with_reducible apply units_sendOn | with_reducible refine SameUnitsK2.elim (units_drbg _ ?_) ‹_› | with_reducible apply units_drbg | exact fun h => h | simp only [SameUnits.mk3, SameUnits.mk4] | (intro _) | split)

theorem units_gainLock {s0 : State} (s : State) (port : Fin 4) (hks : SameUnits s0 s) : SameUnits s0 (State.gainLock s port)
      := by
  unfold State.gainLock
  try dsimp only
  repeat' (first | with_reducible assumption | with_reducible apply units_advDue | with_reducible apply units_sendHello | exact fun _ h => h | simp only [SameUnits.mk3, SameUnits.mk4] | (intro _) | split)

theorem units_execBlockLock {s0 : State} (port : Fin 4) (s : State) (hks : SameUnits s0 s) : OutSameUnits s0 (execBlockLock
      port s) := by
  unfold execBlockLock
  try dsimp only
  repeat' (first | with_reducible assumption | with_reducible apply units_gainLock | with_reducible apply OutSameUnits.next | exact OutSameUnits.fault _ | exact OutSameUnits.refused _ | simp only [SameUnits.mk3, SameUnits.mk4] | (intro _) | split)

theorem units_execFabWakeProbe {s0 : State} (locks : BitVec 4) (s : State) (hks : SameUnits s0 s) : OutSameUnits s0
      (execFabWakeProbe locks s) := by
  unfold execFabWakeProbe
  try dsimp only
  repeat' (first | with_reducible assumption | with_reducible apply units_startPorts | with_reducible apply units_updDom | with_reducible apply units_domWake | with_reducible apply units_gainLock | with_reducible apply OutSameUnits.next | exact OutSameUnits.fault _ | exact OutSameUnits.refused _ | with_reducible apply SameUnits.foldl | simp only [SameUnits.mk3, SameUnits.mk4] | (intro _) | split)

theorem units_execHello {s0 : State} (port : Fin 4) (cert : List Byte) (eph : Wide) (s : State) (hks : SameUnits s0 s) :
      OutSameUnits s0 (execHello port cert eph s) := by
  unfold execHello
  try dsimp only
  repeat' (first | with_reducible assumption | with_reducible apply units_raise | with_reducible apply units_updVfl | with_reducible apply units_sendOn | with_reducible apply units_linkFail | with_reducible apply units_sendHello | with_reducible apply OutSameUnits.next | exact OutSameUnits.fault _ | exact OutSameUnits.refused _ | exact fun _ h => h | exact fun h => h | simp only [SameUnits.mk3, SameUnits.mk4] | (intro _) | split)

theorem units_topologyChanged {s0 : State} (s : State) (hks : SameUnits s0 s) : SameUnits s0 (State.topologyChanged s) := by
  unfold State.topologyChanged
  try dsimp only
  repeat' (first | with_reducible assumption | with_reducible apply units_raise | with_reducible apply SameUnitsK1.getD | simp only [SameUnits.mk3, SameUnits.mk4] | (intro _) | split)

theorem units_execConfirm {s0 : State} (port : Fin 4) (sig : Wide) (s : State) (hks : SameUnits s0 s) : OutSameUnits s0
      (execConfirm port sig s) := by
  unfold execConfirm
  try dsimp only
  repeat' (first | with_reducible assumption | with_reducible apply units_raise | with_reducible apply units_updVfl | with_reducible apply units_drainPort | with_reducible apply units_linkFail | with_reducible apply units_topologyChanged | with_reducible apply OutSameUnits.next | exact OutSameUnits.fault _ | exact OutSameUnits.refused _ | exact fun h => h | simp only [SameUnits.mk3, SameUnits.mk4] | (intro _) | split)

theorem units_execBringupTimeout {s0 : State} (port : Fin 4) (s : State) (hks : SameUnits s0 s) : OutSameUnits s0
      (execBringupTimeout port s) := by
  unfold execBringupTimeout
  try dsimp only
  repeat' (first | with_reducible assumption | with_reducible apply units_linkFail | with_reducible apply OutSameUnits.next | exact OutSameUnits.fault _ | exact OutSameUnits.refused _ | simp only [SameUnits.mk3, SameUnits.mk4] | (intro _) | split)

theorem units_execLinkRetry {s0 : State} (port : Fin 4) (s : State) (hks : SameUnits s0 s) : OutSameUnits s0 (execLinkRetry
      port s) := by
  unfold execLinkRetry
  try dsimp only
  repeat' (first | with_reducible assumption | with_reducible apply units_advDue | with_reducible apply units_updVfl | with_reducible apply OutSameUnits.next | exact OutSameUnits.fault _ | exact OutSameUnits.refused _ | exact fun h => h | simp only [SameUnits.mk3, SameUnits.mk4] | (intro _) | split)

theorem units_execRekey {s0 : State} (port : Fin 4) (s : State) (hks : SameUnits s0 s) : OutSameUnits s0 (execRekey port s) :=
      by
  unfold execRekey
  try dsimp only
  repeat' (first | with_reducible assumption | with_reducible apply units_raise | with_reducible refine SameUnitsK2.elim (units_drbg _ ?_) ‹_› | with_reducible apply units_drbg | with_reducible apply units_sendHello | with_reducible apply OutSameUnits.next | exact OutSameUnits.fault _ | exact OutSameUnits.refused _ | exact fun _ h => h | simp only [SameUnits.mk3, SameUnits.mk4] | (intro _) | split)

theorem units_execBlockLockLoss {s0 : State} (port : Fin 4) (s : State) (hks : SameUnits s0 s) : OutSameUnits s0
      (execBlockLockLoss port s) := by
  unfold execBlockLockLoss
  try dsimp only
  repeat' (first | with_reducible assumption | with_reducible apply units_updVfl | with_reducible apply units_linkLeave | with_reducible apply OutSameUnits.next | exact OutSameUnits.fault _ | exact OutSameUnits.refused _ | exact fun h => h | simp only [SameUnits.mk3, SameUnits.mk4] | (intro _) | split)

theorem units_discardPkt {s0 : State} (s : State) (port : Fin 4) (gcm : Bool) (checks : Bool) (hks : SameUnits s0 s) :
      SameUnits s0 (State.discardPkt s port gcm checks) := by
  unfold State.discardPkt
  try dsimp only
  repeat' (first | with_reducible assumption | with_reducible apply units_raise | with_reducible apply units_updVfl | with_reducible apply units_linkFail | exact fun h => h | simp only [SameUnits.mk3, SameUnits.mk4] | (intro _) | split)

theorem units_forwardPkt {s0 : State} (s : State) (h : PktHdr) (clear : List Byte) (vc : Fin 3) (hks : SameUnits s0 s) :
      SameUnits s0 (State.forwardPkt s h clear vc) := by
  unfold State.forwardPkt
  try dsimp only
  repeat' (first | with_reducible assumption | with_reducible apply units_sendPkt | simp only [SameUnits.mk3, SameUnits.mk4] | (intro _) | split)

theorem units_execPacketReceive {s0 : State} (port : Fin 4) (h : PktHdr) (payload : List Byte) (s : State) (hks : SameUnits s0
      s) : OutSameUnits s0 (execPacketReceive port h payload s) := by
  unfold execPacketReceive
  try dsimp only
  repeat' (first | with_reducible assumption | with_reducible apply units_emit | with_reducible apply units_endLull | with_reducible apply units_updVfl | with_reducible apply units_discardPkt | with_reducible apply units_forwardPkt | with_reducible apply OutSameUnits.next | exact OutSameUnits.fault _ | exact OutSameUnits.refused _ | simp only [SameUnits.mk3, SameUnits.mk4] | (intro _) | split)

theorem units_execCreditBlock {s0 : State} (port : Fin 4) (vc0 : BitVec 6) (vc1 : BitVec 6) (vc2 : BitVec 6) (s : State) (hks :
      SameUnits s0 s) : OutSameUnits s0 (execCreditBlock port vc0 vc1 vc2 s) := by
  unfold execCreditBlock
  try dsimp only
  repeat' (first | with_reducible assumption | with_reducible apply units_updVfl | with_reducible apply units_drainPort | with_reducible apply OutSameUnits.next | exact OutSameUnits.fault _ | exact OutSameUnits.refused _ | exact fun h => h | simp only [SameUnits.mk3, SameUnits.mk4] | (intro _) | split)

theorem units_execStuckPacketDrop {s0 : State} (port : Fin 4) (s : State) (hks : SameUnits s0 s) : OutSameUnits s0
      (execStuckPacketDrop port s) := by
  unfold execStuckPacketDrop
  try dsimp only
  repeat' (first | with_reducible assumption | with_reducible apply units_updVfl | with_reducible apply OutSameUnits.next | exact OutSameUnits.fault _ | exact OutSameUnits.refused _ | exact fun h => h | simp only [SameUnits.mk3, SameUnits.mk4] | (intro _) | split)

theorem units_sendRequest {s0 : State} (s : State) (p : OutPkt) (tag : Option Tag) (tries : Nat) (held : Fin 4) (hks :
      SameUnits s0 s) :
      SameUnits s0 (State.sendRequest s p tag tries held) := by
  unfold State.sendRequest
  try dsimp only
  repeat' (first | with_reducible assumption | with_reducible apply units_updVfl | with_reducible apply units_sendLong | exact fun h => h | simp only [SameUnits.mk3, SameUnits.mk4] | (intro _) | split)

theorem units_rreqLost {s0 : State} (s : State) (hks : SameUnits s0 s) : SameUnits s0 (State.rreqLost s) := by
  unfold State.rreqLost
  try dsimp only
  repeat' (first | with_reducible assumption | with_reducible apply units_raise | simp only [SameUnits.mk3, SameUnits.mk4] | (intro _) | split)

theorem units_serveRreq {s0 : State} (s : State) (hks : SameUnits s0 s) : SameUnits s0 (State.serveRreq s) := by
  unfold State.serveRreq
  try dsimp only
  repeat' (first | with_reducible assumption | with_reducible apply units_sendRequest | with_reducible apply units_rreqLost | simp only [SameUnits.mk3, SameUnits.mk4] | (intro _) | split)

theorem units_endTxns {s0 : State} (s : State) (p : Txn → Bool) (hks : SameUnits s0 s) : SameUnits s0 (State.endTxns s p) := by
  unfold State.endTxns
  try dsimp only
  repeat' (first | with_reducible assumption | with_reducible apply units_serveRreq | simp only [SameUnits.mk3, SameUnits.mk4] | (intro _) | split)

theorem units_requestFailed {s0 : State} (s : State) (x : Txn) (hks : SameUnits s0 s) : SameUnits s0 (State.requestFailed s x)
      := by
  unfold State.requestFailed
  try dsimp only
  repeat' (first | with_reducible assumption | with_reducible apply units_finish | with_reducible apply units_rreqLost | simp only [SameUnits.mk3, SameUnits.mk4] | (intro _) | split)

theorem units_execTransactionTimeout {s0 : State} (port : Fin 4) (txn : Fin 256) (s : State) (hks : SameUnits s0 s) :
      OutSameUnits s0 (execTransactionTimeout port txn s) := by
  unfold execTransactionTimeout
  try dsimp only
  repeat' (first | with_reducible assumption | with_reducible apply units_updVfl | with_reducible apply units_sendRequest | with_reducible apply units_serveRreq | with_reducible apply units_requestFailed | with_reducible apply OutSameUnits.next | exact OutSameUnits.fault _ | exact OutSameUnits.refused _ | with_reducible apply SameUnitsK1.getD | simp only [SameUnits.mk3, SameUnits.mk4] | (intro _) | split)

theorem units_floodAdv {s0 : State} (s : State) (a : Adv) (bytes : List Byte) (own : Bool) (dst : Fin 4 → Bool) (hks :
      SameUnits s0 s) : SameUnits s0 (State.floodAdv s a bytes own dst) := by
  unfold State.floodAdv
  try dsimp only
  repeat' (first | with_reducible assumption | with_reducible apply units_sendOn | with_reducible apply SameUnits.foldl | simp only [SameUnits.mk3, SameUnits.mk4] | (intro _) | split)

theorem units_giveWay {s0 : State} (s : State) (other : Adv) (hks : SameUnits s0 s) : SameUnits s0 (State.giveWay s other) := by
  unfold State.giveWay
  try dsimp only
  repeat' (first | with_reducible assumption | with_reducible apply units_raiseRec | simp only [SameUnits.mk3, SameUnits.mk4] | (intro _) | split)

theorem units_execNadv {s0 : State} (port : Fin 4) (payload : Vector Byte 128) (s : State) (hks : SameUnits s0 s) :
      OutSameUnits s0 (execNadv port payload s) := by
  unfold execNadv
  try dsimp only
  repeat' (first | with_reducible assumption | with_reducible apply units_pairCheck | with_reducible apply units_topologyChanged | with_reducible apply units_floodAdv | with_reducible apply units_giveWay | with_reducible apply OutSameUnits.next | exact OutSameUnits.fault _ | exact OutSameUnits.refused _ | simp only [SameUnits.mk3, SameUnits.mk4] | (intro _) | split)

theorem units_execAdvertisementOriginate {s0 : State} (s : State) (hks : SameUnits s0 s) : OutSameUnits s0
      (execAdvertisementOriginate s) := by
  unfold execAdvertisementOriginate
  try dsimp only
  repeat' (first | with_reducible assumption | with_reducible apply units_floodAdv | with_reducible apply OutSameUnits.next | exact OutSameUnits.fault _ | exact OutSameUnits.refused _ | simp only [SameUnits.mk3, SameUnits.mk4] | (intro _) | split)

theorem units_execAdvertisementExpiry {s0 : State} (s : State) (hks : SameUnits s0 s) : OutSameUnits s0
      (execAdvertisementExpiry s) := by
  unfold execAdvertisementExpiry
  try dsimp only
  repeat' (first | with_reducible assumption | with_reducible apply units_pairCheck | with_reducible apply units_topologyChanged | with_reducible apply OutSameUnits.next | exact OutSameUnits.fault _ | exact OutSameUnits.refused _ | simp only [SameUnits.mk3, SameUnits.mk4] | (intro _) | split)

theorem units_dropImport {s0 : State} (s : State) (i : Import) (hks : SameUnits s0 s) : SameUnits s0 (State.dropImport s i) :=
      by
  unfold State.dropImport
  try dsimp only
  repeat' (first | with_reducible assumption | simp only [SameUnits.mk3, SameUnits.mk4] | (intro _) | split | (simp only [Nvm.dropPartial, SameUnits.mk3, SameUnits.mk4]))

theorem units_execRouteComputation {s0 : State} (s : State) (hks : SameUnits s0 s) : OutSameUnits s0 (execRouteComputation s)
      := by
  unfold execRouteComputation
  try dsimp only
  repeat' (first | with_reducible assumption | with_reducible apply units_raiseRecStatus | with_reducible apply units_mirLeave | with_reducible apply units_serveRreq | with_reducible apply units_dropImport | with_reducible apply OutSameUnits.next | exact OutSameUnits.fault _ | exact OutSameUnits.refused _ | with_reducible apply SameUnitsK1.getD | with_reducible apply SameUnits.foldl | simp only [SameUnits.mk3, SameUnits.mk4] | (intro _) | split)

theorem units_execRemoteCopy {s0 : State} (tag : Tag) (s : State) (hks : SameUnits s0 s) : OutSameUnits s0 (execRemoteCopy tag
      s) := by
  unfold execRemoteCopy
  try dsimp only
  repeat' (first | with_reducible assumption | with_reducible apply units_updCmd | with_reducible apply units_finish | with_reducible apply units_runOp | with_reducible apply units_badState | with_reducible apply units_sendRequest | with_reducible apply OutSameUnits.next | exact OutSameUnits.fault _ | exact OutSameUnits.refused _ | simp only [SameUnits.mk3, SameUnits.mk4] | (intro _) | split)

theorem units_sendCopy {s0 : State} (s : State) (tag : Tag) (c : Cmd) (z : Zone) (held : Fin 4) (hks : SameUnits s0 s) :
      SameUnits s0
      (State.sendCopy s tag c z held) := by
  unfold State.sendCopy
  try dsimp only
  repeat' (first | with_reducible assumption | with_reducible apply units_sendPkt | with_reducible apply units_sendLong | with_reducible apply units_sendRequest | with_reducible apply SameUnits.foldl | simp only [SameUnits.mk3, SameUnits.mk4] | (intro _) | split)

theorem units_copyAccepted {s0 : State} (s : State) (tag : Tag) (c : Cmd) (z : Zone) (hks : SameUnits s0 s) : SameUnits s0
      (State.copyAccepted s tag c z) := by
  unfold State.copyAccepted
  try dsimp only
  repeat' (first | with_reducible assumption | with_reducible apply units_endTxns | with_reducible apply units_sendCopy | simp only [SameUnits.mk3, SameUnits.mk4] | (intro _) | split)

theorem units_execCopyRsp {s0 : State} (tag : Tag) (a : CopyAnswer) (s : State) (hks : SameUnits s0 s) : OutSameUnits s0
      (execCopyRsp tag a s) := by
  unfold execCopyRsp
  try dsimp only
  repeat' (first | with_reducible assumption | with_reducible apply units_finish | with_reducible apply units_endTxns | with_reducible apply units_copyAccepted | with_reducible apply OutSameUnits.next | exact OutSameUnits.fault _ | exact OutSameUnits.refused _ | simp only [SameUnits.mk3, SameUnits.mk4] | (intro _) | split)

theorem units_copyAnswer {s0 : State} (s : State) (src : BitVec 16) (a : CopyAnswer) (hks : SameUnits s0 s) : SameUnits s0
      (State.copyAnswer s src a) := by
  unfold State.copyAnswer
  try dsimp only
  repeat' (first | with_reducible assumption | with_reducible apply units_sendPkt | simp only [SameUnits.mk3, SameUnits.mk4] | (intro _) | split)

theorem units_refuseImport {s0 : State} (s : State) (src : BitVec 16) (cause : Byte) (hks : SameUnits s0 s) : SameUnits s0
      (State.refuseImport s src cause) := by
  unfold State.refuseImport
  try dsimp only
  repeat' (first | with_reducible assumption | with_reducible apply units_raise | with_reducible apply units_copyAnswer | simp only [SameUnits.mk3, SameUnits.mk4] | (intro _) | split)

theorem units_execCopyOpen {s0 : State} (src : BitVec 16) (tenant : Byte) (cert : List Byte) (rec : Vector Byte 256) (s :
      State) (hks : SameUnits s0 s) : OutSameUnits s0 (execCopyOpen src tenant cert rec s) := by
  unfold execCopyOpen
  try dsimp only
  repeat' (first | with_reducible assumption | with_reducible apply units_record | with_reducible apply units_updZone | with_reducible refine SameUnitsK5.elim (units_takeZone _ _ _ _ ?_) ‹_› | with_reducible apply units_takeZone | with_reducible apply units_dropImport | with_reducible apply units_copyAnswer | with_reducible apply units_refuseImport | with_reducible apply OutSameUnits.next | exact OutSameUnits.fault _ | exact OutSameUnits.refused _ | with_reducible apply SameUnits.foldl | simp only [SameUnits.mk3, SameUnits.mk4] | (intro _) | split)

theorem units_execCopyData {s0 : State} (src : BitVec 16) (item : CopyItem) (s : State) (hks : SameUnits s0 s) : OutSameUnits
      s0 (execCopyData src item s) := by
  unfold execCopyData
  try dsimp only
  repeat' (first | with_reducible assumption | with_reducible apply OutSameUnits.next | exact OutSameUnits.fault _ | exact OutSameUnits.refused _ | simp only [SameUnits.mk3, SameUnits.mk4] | (intro _) | split)

theorem units_placeImport {s0 : State} (s : State) (d : BoardDesc) (z : Nat) (gen : Word) (log : List AppRec) (hks : SameUnits
      s0 s) : SameUnitsK1 s0 (State.placeImport s d z gen log) := by
  unfold State.placeImport
  try dsimp only
  repeat' (first | with_reducible assumption | with_reducible refine SameUnitsK1.elim (units_placeIn _ _ _ _ _ ?_) ‹_› | with_reducible apply units_placeIn | with_reducible apply SameUnitsK1.none | with_reducible apply SameUnitsK1.some | with_reducible refine SameUnitsK1.map (fun _ _ => ?_) ?_ | with_reducible refine SameUnitsK1.foldl (fun _ _ _ => ?_) ?_ | with_reducible exact SameUnitsK1.elim ‹_› ‹_› | with_reducible exact SameUnitsK1.elim ‹_› rfl | with_reducible apply SameUnits.foldl | simp only [SameUnits.mk3, SameUnits.mk4] | (intro _) | split)

theorem units_execCopyClose {s0 : State} (src : BitVec 16) (s : State) (hks : SameUnits s0 s) : OutSameUnits s0 (execCopyClose
      src s) := by
  unfold execCopyClose
  try dsimp only
  repeat' (first | with_reducible assumption | with_reducible apply units_raise | with_reducible apply units_record | with_reducible apply units_updZone | with_reducible apply units_meterIn | with_reducible apply units_dropImport | with_reducible apply units_copyAnswer | with_reducible apply units_refuseImport | with_reducible refine SameUnitsK1.elim (units_placeImport _ _ _ _ _ ?_) ‹_› | with_reducible apply units_placeImport | with_reducible apply OutSameUnits.next | exact OutSameUnits.fault _ | exact OutSameUnits.refused _ | simp only [SameUnits.mk3, SameUnits.mk4] | (intro _) | split)

theorem units_execRreadReq {s0 : State} (src : BitVec 16) (kind : Bool) (seq : DWord) (n : Fin 33) (s : State) (hks : SameUnits
      s0 s) : OutSameUnits s0 (execRreadReq src kind seq n s) := by
  unfold execRreadReq
  try dsimp only
  repeat' (first | with_reducible assumption | with_reducible apply units_sendLong | with_reducible apply OutSameUnits.next | exact OutSameUnits.fault _ | exact OutSameUnits.refused _ | simp only [SameUnits.mk3, SameUnits.mk4] | (intro _) | split)

theorem units_execRreadRsp {s0 : State} (refusedByNode : Bool) (bytes : List Byte) (s : State) (hks : SameUnits s0 s) :
      OutSameUnits s0 (execRreadRsp refusedByNode bytes s) := by
  unfold execRreadRsp
  try dsimp only
  repeat' (first | with_reducible assumption | with_reducible apply units_emit | with_reducible apply units_raise | with_reducible apply units_endTxns | with_reducible apply OutSameUnits.next | exact OutSameUnits.fault _ | exact OutSameUnits.refused _ | simp only [SameUnits.mk3, SameUnits.mk4] | (intro _) | split)

theorem units_rreqGo {s0 : State} (s : State) (hks : SameUnits s0 s) : SameUnits s0 (State.rreqGo s) := by
  unfold State.rreqGo
  try dsimp only
  repeat' (first | with_reducible assumption | with_reducible apply units_serveRreq | simp only [SameUnits.mk3, SameUnits.mk4] | (intro _) | split)

theorem units_sendEvents {s0 : State} (s : State) (hks : SameUnits s0 s) : SameUnits s0 (State.sendEvents s) := by
  unfold State.sendEvents
  try dsimp only
  repeat' (first | with_reducible assumption | with_reducible apply units_mirSend | with_reducible apply SameUnits.foldl | simp only [SameUnits.mk3, SameUnits.mk4] | (intro _) | split)

theorem units_execMirBeatSend {s0 : State} (s : State) (hks : SameUnits s0 s) : OutSameUnits s0 (execMirBeatSend s) := by
  unfold execMirBeatSend
  try dsimp only
  repeat' (first | with_reducible assumption | with_reducible apply units_sendLong | with_reducible apply units_sendEvents | with_reducible apply OutSameUnits.next | exact OutSameUnits.fault _ | exact OutSameUnits.refused _ | simp only [SameUnits.mk3, SameUnits.mk4] | (intro _) | split)

theorem units_execMirBeat {s0 : State} (marks : List Checkpoint) (s : State) (hks : SameUnits s0 s) : OutSameUnits s0
      (execMirBeat marks s) := by
  unfold execMirBeat
  try dsimp only
  repeat' (first | with_reducible assumption | with_reducible apply units_enterResync | with_reducible apply units_pairCheck | with_reducible apply OutSameUnits.next | exact OutSameUnits.fault _ | exact OutSameUnits.refused _ | with_reducible apply SameUnits.foldl | simp only [SameUnits.mk3, SameUnits.mk4] | (intro _) | split)

theorem units_execPartnerSilence {s0 : State} (s : State) (hks : SameUnits s0 s) : OutSameUnits s0 (execPartnerSilence s) := by
  unfold execPartnerSilence
  try dsimp only
  repeat' (first | with_reducible assumption | with_reducible apply units_mirLeave | with_reducible apply OutSameUnits.next | exact OutSameUnits.fault _ | exact OutSameUnits.refused _ | simp only [SameUnits.mk3, SameUnits.mk4] | (intro _) | split)

theorem units_execPowerLoss {s0 : State} (s : State) (hks : SameUnits s0 s) : OutSameUnits s0 (execPowerLoss s) := by
  unfold execPowerLoss
  try dsimp only
  repeat' (first | with_reducible assumption | with_reducible apply units_record | with_reducible apply units_mirLeave | with_reducible apply OutSameUnits.next | exact OutSameUnits.fault _ | exact OutSameUnits.refused _ | simp only [SameUnits.mk3, SameUnits.mk4] | (intro _) | split)

theorem units_execSpaceRetry {s0 : State} (s : State) (hks : SameUnits s0 s) : OutSameUnits s0 (execSpaceRetry s) := by
  unfold execSpaceRetry
  try dsimp only
  repeat' (first | with_reducible assumption | with_reducible apply units_enterResync | with_reducible apply OutSameUnits.next | exact OutSameUnits.fault _ | exact OutSameUnits.refused _ | simp only [SameUnits.mk3, SameUnits.mk4] | (intro _) | split)

theorem units_replicaFor_fresh {s0 : State} (s : State) (a : MirAppend) (hks : SameUnits s0 s) : SameUnitsK2 s0
      (State.replicaFor.fresh s a) := by
  unfold State.replicaFor.fresh
  constructor
  intro z t e
  obtain ⟨y, _, h⟩ := Option.map_eq_some_iff.mp e
  obtain ⟨_, rfl⟩ := Prod.mk.inj h
  exact units_putZone _ _ _ hks

theorem units_replicaFor {s0 : State} (s : State) (a : MirAppend) (hks : SameUnits s0 s) : SameUnitsK2 s0 (State.replicaFor s
      a) := by
  unfold State.replicaFor
  split
  · split
    · exact SameUnitsK2.some hks
    · exact units_replicaFor_fresh s a hks
  · exact units_replicaFor_fresh s a hks

theorem units_sendAccept {s0 : State} (s : State) (t : Tid) (index : Nat) (refused : Bool) (hks : SameUnits s0 s) : SameUnits
      s0 (State.sendAccept s t index refused) := by
  unfold State.sendAccept
  try dsimp only
  repeat' (first | with_reducible assumption | with_reducible apply units_sendPkt | simp only [SameUnits.mk3, SameUnits.mk4] | (intro _) | split)

theorem units_onReplica {s0 : State} (s : State) (t : Tid) (src : Nat) (f : Nat → Zone → State) (hf : ∀ v0 v1, SameUnits s0 (f
      v0 v1)) (hks : SameUnits s0 s) : SameUnits s0 (State.onReplica s t src f) := by
  unfold State.onReplica
  try dsimp only
  repeat' (first | with_reducible assumption | with_reducible apply hf | simp only [SameUnits.mk3, SameUnits.mk4] | (intro _) | split)

theorem units_resetReplica {s0 : State} (s : State) (z : Nat) (x : Zone) (hks : SameUnits s0 s) : SameUnits s0
      (State.resetReplica s z x) := by
  unfold State.resetReplica
  try dsimp only
  repeat' (first | with_reducible assumption | with_reducible apply units_zresetRecord | with_reducible apply units_emptyZone | with_reducible apply units_eraseZoneBlocks | simp only [SameUnits.mk3, SameUnits.mk4] | (intro _) | split)

theorem units_applyItem {s0 : State} (s : State) (a0 : MirItem) (hks : SameUnits s0 s) : SameUnits s0 (State.applyItem s a0)
      := by
  unfold State.applyItem
  try dsimp only
  repeat' (first | with_reducible assumption | with_reducible apply units_updZone | with_reducible apply units_meterIn | with_reducible apply units_finish | with_reducible apply units_onReplica | with_reducible apply units_resetReplica | with_reducible apply SameUnitsK1.getD | simp only [SameUnits.mk3, SameUnits.mk4] | (intro _) | split)

theorem units_execMirState {s0 : State} (item : MirItem) (s : State) (hks : SameUnits s0 s) : OutSameUnits s0 (execMirState
      item s) := by
  unfold execMirState
  try dsimp only
  repeat' (first | with_reducible assumption | with_reducible apply units_applyItem | with_reducible apply OutSameUnits.next | exact OutSameUnits.fault _ | exact OutSameUnits.refused _ | simp only [SameUnits.mk3, SameUnits.mk4] | (intro _) | split)

theorem units_execMirRetract {s0 : State} (t : Tid) (index : DWord) (s : State) (hks : SameUnits s0 s) : OutSameUnits s0
      (execMirRetract t index s) := by
  unfold execMirRetract
  try dsimp only
  repeat' (first | with_reducible assumption | with_reducible apply OutSameUnits.next | exact OutSameUnits.fault _ | exact OutSameUnits.refused _ | with_reducible apply SameUnits.foldl | simp only [SameUnits.mk3, SameUnits.mk4] | (intro _) | split)

theorem units_settleSync {s0 : State} (s : State) (hks : SameUnits s0 s) : SameUnits s0 (State.settleSync s) := by
  unfold State.settleSync
  try dsimp only
  repeat' (first | with_reducible assumption | with_reducible apply units_raise | with_reducible apply units_sendLong | simp only [SameUnits.mk3, SameUnits.mk4] | (intro _) | split)

theorem units_execMirAccept {s0 : State} (t : Tid) (index : DWord) (refusedSpace : Bool) (s : State) (hks : SameUnits s0 s) :
      OutSameUnits s0 (execMirAccept t index refusedSpace s) := by
  unfold execMirAccept
  try dsimp only
  repeat' (first | with_reducible assumption | with_reducible apply units_mirLeave | with_reducible apply units_updEntry | with_reducible apply units_settleSync | with_reducible apply OutSameUnits.next | exact OutSameUnits.fault _ | exact OutSameUnits.refused _ | simp only [SameUnits.mk3, SameUnits.mk4] | (intro _) | split)

theorem units_sendZoneState {s0 : State} (s : State) (id : Nat) (z : Zone) (hks : SameUnits s0 s) : SameUnits s0
      (State.sendZoneState s id z) := by
  unfold State.sendZoneState
  try dsimp only
  repeat' (first | with_reducible assumption | with_reducible apply units_mirSend | simp only [SameUnits.mk3, SameUnits.mk4] | (intro _) | split)

theorem units_resyncTenant {s0 : State} (s : State) (cps : List Checkpoint) (t : Tid) (hks : SameUnits s0 s) : SameUnits s0
      (State.resyncTenant s cps t) := by
  unfold State.resyncTenant
  try dsimp only
  repeat' (first | with_reducible assumption | with_reducible apply units_sendLong | with_reducible apply units_mirAppendSend | with_reducible apply units_sendZoneState | with_reducible apply SameUnits.foldl | with_reducible apply SameUnitsK1.getD | simp only [SameUnits.mk3, SameUnits.mk4] | (intro _) | split)

theorem units_execMirSyncReq {s0 : State} (cps : List Checkpoint) (s : State) (hks : SameUnits s0 s) : OutSameUnits s0
      (execMirSyncReq cps s) := by
  unfold execMirSyncReq
  try dsimp only
  repeat' (first | with_reducible assumption | with_reducible apply units_enterResync | with_reducible apply units_settleSync | with_reducible apply units_resyncTenant | with_reducible apply OutSameUnits.next | exact OutSameUnits.fault _ | exact OutSameUnits.refused _ | with_reducible apply SameUnits.foldl | simp only [SameUnits.mk3, SameUnits.mk4] | (intro _) | split)

theorem units_markDiverged {s0 : State} (s : State) (t : Tid) (p : Nat) (hks : SameUnits s0 s) : SameUnits s0
      (State.markDiverged s t p) := by
  unfold State.markDiverged
  try dsimp only
  repeat' (first | with_reducible assumption | with_reducible apply units_drawn | with_reducible apply units_raiseRec | with_reducible apply units_updZone | with_reducible apply SameUnits.foldl | simp only [SameUnits.mk3, SameUnits.mk4] | (intro _) | split)

theorem units_execMirSyncRsp {s0 : State} (vs : List SyncVerdict) (s : State) (hks : SameUnits s0 s) : OutSameUnits s0
      (execMirSyncRsp vs s) := by
  unfold execMirSyncRsp
  try dsimp only
  repeat' (first | with_reducible assumption | with_reducible apply units_raise | with_reducible apply units_markDiverged | with_reducible apply OutSameUnits.next | exact OutSameUnits.fault _ | exact OutSameUnits.refused _ | with_reducible apply SameUnits.foldl | simp only [SameUnits.mk3, SameUnits.mk4] | (intro _) | split)

theorem units_supplyReading {s0 : State} (s : State) (slot : Nat) (mV : Int) (hks : SameUnits s0 s) : SameUnits s0
      (State.supplyReading s slot mV) := by
  unfold State.supplyReading
  try dsimp only
  repeat' (first | with_reducible assumption | with_reducible apply units_raiseRec | simp only [SameUnits.mk3, SameUnits.mk4] | (intro _) | split)

theorem units_bandTime {s0 : State} (s : State) (t : Int) (hks : SameUnits s0 s) : SameUnits s0 (State.bandTime s t) := by
  unfold State.bandTime
  try dsimp only
  repeat' (first | with_reducible assumption | with_reducible apply units_raise | simp only [SameUnits.mk3, SameUnits.mk4] | (intro _) | split)

theorem units_checkBalances {s0 : State} (s : State) (hks : SameUnits s0 s) : SameUnits s0 (State.checkBalances s) := by
  unfold State.checkBalances
  try dsimp only
  repeat' (first | with_reducible assumption | with_reducible apply units_raiseRecStatus | with_reducible apply SameUnits.foldl | simp only [SameUnits.mk3, SameUnits.mk4] | (intro _) | split)

theorem units_execOperatingHour {s0 : State} (s : State) (hks : SameUnits s0 s) : OutSameUnits s0 (execOperatingHour s) := by
  unfold execOperatingHour
  try dsimp only
  repeat' (first | with_reducible assumption | with_reducible apply OutSameUnits.next | exact OutSameUnits.fault _ | exact OutSameUnits.refused _ | simp only [SameUnits.mk3, SameUnits.mk4] | (intro _) | split)

theorem units_refuseKeyWait {s0 : State} (s : State) (hks : SameUnits s0 s) : SameUnits s0 (State.refuseKeyWait s) := by
  unfold State.refuseKeyWait
  try dsimp only
  repeat' (first | with_reducible assumption | with_reducible apply units_updTnt | with_reducible apply units_finish | with_reducible apply units_dropPersisted | with_reducible apply SameUnits.foldl | simp only [SameUnits.mk3, SameUnits.mk4] | (intro _) | split)

theorem units_countUnlock {s0 : State} (s : State) (hks : SameUnits s0 s) : SameUnits s0 (State.countUnlock s) := by
  unfold State.countUnlock
  try dsimp only
  repeat' (first | with_reducible assumption | simp only [SameUnits.mk3, SameUnits.mk4] | (intro _) | split)

theorem units_touchPage {s0 : State} (s : State) (src : Src) (p : Page) (hks : SameUnits s0 s) : SameUnits s0 (State.touchPage
      s src p) := by
  unfold State.touchPage
  try dsimp only
  repeat' (first | with_reducible assumption | with_reducible apply units_packetTo | simp only [SameUnits.mk3, SameUnits.mk4] | (intro _) | split)

theorem units_refused {s0 : State} (s : State) (p : Page) (off : Nat) (cause : Byte) (hks : SameUnits s0 s) : SameUnits s0
      (State.refused s p off cause) := by
  unfold State.refused
  try dsimp only
  repeat' (first | with_reducible assumption | with_reducible apply units_updTnt | with_reducible apply units_raise | simp only [SameUnits.mk3, SameUnits.mk4] | (intro _) | split)

theorem units_clearStatus {s0 : State} (s : State) (p : Page) (v : Word) (hks : SameUnits s0 s) : SameUnits s0
      (State.clearStatus s p v) := by
  unfold State.clearStatus
  try dsimp only
  repeat' (first | with_reducible assumption | with_reducible apply units_updHdr | with_reducible apply units_requestTenant | with_reducible apply units_updInta | with_reducible apply SameUnits.foldl | simp only [SameUnits.mk3, SameUnits.mk4] | (intro _) | split)

theorem units_setEnable {s0 : State} (s : State) (p : Page) (v : Word) (hks : SameUnits s0 s) : SameUnits s0 (State.setEnable s
      p v) := by
  unfold State.setEnable
  try dsimp only
  repeat' (first | with_reducible assumption | with_reducible apply units_updHdr | with_reducible apply units_requestBlock | with_reducible apply units_noticeBlock | with_reducible apply units_requestTenant | with_reducible apply units_updInta | with_reducible apply SameUnits.foldl | simp only [SameUnits.mk3, SameUnits.mk4] | (intro _) | split)

theorem units_forceStatus {s0 : State} (s : State) (p : Page) (v : Word) (hks : SameUnits s0 s) : SameUnits s0
      (State.forceStatus s p v) := by
  unfold State.forceStatus
  try dsimp only
  repeat' (first | with_reducible assumption | with_reducible apply units_raise | with_reducible apply SameUnits.foldl | simp only [SameUnits.mk3, SameUnits.mk4] | (intro _) | split)

theorem units_lockFeatures {s0 : State} (s : State) (hks : SameUnits s0 s) : SameUnits s0 (State.lockFeatures s) := by
  unfold State.lockFeatures
  try dsimp only
  repeat' (first | with_reducible assumption | simp only [SameUnits.mk3, SameUnits.mk4] | (intro _) | split)

theorem units_rerequest {s0 : State} (s : State) (p : Page) (b : Nat) (hks : SameUnits s0 s) : SameUnits s0 (State.rerequest s
      p b) := by
  unfold State.rerequest
  try dsimp only
  repeat' (first | with_reducible assumption | with_reducible apply units_requestBlock | simp only [SameUnits.mk3, SameUnits.mk4] | (intro _) | split)

theorem units_execReservedAccess {s0 : State} (space : BarSpace) (off : BitVec 20) (be : BitVec 4) (read : Bool) (s : State)
      (hks : SameUnits s0 s) : OutSameUnits s0 (execReservedAccess space off be read s) := by
  unfold execReservedAccess
  try dsimp only
  repeat' (first | with_reducible assumption | with_reducible apply units_emit | with_reducible apply units_countErr | with_reducible apply units_touchPage | with_reducible apply OutSameUnits.next | exact OutSameUnits.fault _ | exact OutSameUnits.refused _ | simp only [SameUnits.mk3, SameUnits.mk4] | (intro _) | split)

theorem units_updI2ct {s0 : State} (s : State) (f : I2ctS → I2ctS) (hks : SameUnits s0 s) : SameUnits s0 (State.updI2ct s f)
      := by
  unfold State.updI2ct
  try dsimp only
  repeat' (first | with_reducible assumption | simp only [SameUnits.mk3, SameUnits.mk4] | (intro _) | split)

theorem units_i2cCommand {s0 : State} (s : State) (pecOk : Bool) (act : State → State) (hact : ∀ v0, SameUnits s0 v0 →
      SameUnits s0 (act v0)) (hks : SameUnits s0 s) : SameUnits s0 (State.i2cCommand s pecOk act) := by
  unfold State.i2cCommand
  try dsimp only
  repeat' (first | with_reducible assumption | with_reducible apply units_emit | with_reducible apply units_raise | with_reducible apply units_updI2ct | with_reducible apply hact | simp only [SameUnits.mk3, SameUnits.mk4] | (intro _) | split)

theorem units_execPointer {s0 : State} (window : Byte) (addr : Word) (pecOk : Bool) (s : State) (hks : SameUnits s0 s) :
      OutSameUnits s0 (execPointer window addr pecOk s) := by
  unfold execPointer
  try dsimp only
  repeat' (first | with_reducible assumption | with_reducible apply units_emit | with_reducible apply units_updI2ct | with_reducible apply units_i2cCommand | with_reducible apply OutSameUnits.next | exact OutSameUnits.fault _ | exact OutSameUnits.refused _ | simp only [SameUnits.mk3, SameUnits.mk4] | (intro _) | split)

theorem units_execMeterReq {s0 : State} (tenant : Byte) (nonce : QWord) (pecOk : Bool) (s : State) (hks : SameUnits s0 s) :
      OutSameUnits s0 (execMeterReq tenant nonce pecOk s) := by
  unfold execMeterReq
  try dsimp only
  repeat' (first | with_reducible assumption | with_reducible apply units_emit | with_reducible apply units_meterServe | with_reducible apply units_updI2ct | with_reducible apply units_i2cCommand | with_reducible apply OutSameUnits.next | exact OutSameUnits.fault _ | exact OutSameUnits.refused _ | simp only [SameUnits.mk3, SameUnits.mk4] | (intro _) | split)

theorem units_execReadN {s0 : State} (n : Byte) (_pecOk : Bool) (s : State) (hks : SameUnits s0 s) : OutSameUnits s0 (execReadN
      n _pecOk s) := by
  unfold execReadN
  try dsimp only
  repeat' (first | with_reducible assumption | with_reducible apply units_emit | with_reducible apply units_updI2ct | with_reducible apply OutSameUnits.next | exact OutSameUnits.fault _ | exact OutSameUnits.refused _ | simp only [SameUnits.mk3, SameUnits.mk4] | (intro _) | split)

theorem units_freeByte {s0 : State} (s : State) (hks : SameUnits s0 s) : SameUnitsK4 s0 (State.freeByte s) := by
  unfold State.freeByte
  try dsimp only
  repeat' (first | with_reducible assumption | with_reducible apply units_drawn | with_reducible apply SameUnitsK4.mk | simp only [SameUnits.mk3, SameUnits.mk4] | (intro _) | split)

theorem units_execAlertResponse {s0 : State} (s : State) (hks : SameUnits s0 s) : OutSameUnits s0 (execAlertResponse s) := by
  unfold execAlertResponse
  try dsimp only
  repeat' (first | with_reducible assumption | with_reducible apply units_drawn | with_reducible apply units_emit | with_reducible apply units_updI2ct | with_reducible apply OutSameUnits.next | exact OutSameUnits.fault _ | exact OutSameUnits.refused _ | simp only [SameUnits.mk3, SameUnits.mk4] | (intro _) | split)

theorem units_execSclTimeout {s0 : State} (s : State) (hks : SameUnits s0 s) : OutSameUnits s0 (execSclTimeout s) := by
  unfold execSclTimeout
  try dsimp only
  repeat' (first | with_reducible assumption | with_reducible apply units_raise | with_reducible apply units_updI2ct | with_reducible apply OutSameUnits.next | exact OutSameUnits.fault _ | exact OutSameUnits.refused _ | simp only [SameUnits.mk3, SameUnits.mk4] | (intro _) | split)

theorem units_readAgain {s0 : State} (s : State) (d : BoardDesc) (tag : Tag) (c : Cmd) (k : Nat) (hks : SameUnits s0 s) :
      SameUnits s0 (State.readAgain s d tag c k) := by
  unfold State.readAgain
  try dsimp only
  repeat' (first | with_reducible assumption | with_reducible apply units_queueReads | simp only [SameUnits.mk3, SameUnits.mk4] | (intro _) | split)

theorem units_spoil {s0 : State} (s : State) (h : Nat) (b : Buf) (hks : SameUnits s0 s) : SameUnits s0 (State.spoil s h b) := by
  unfold State.spoil
  try dsimp only
  repeat' (first | with_reducible assumption | with_reducible apply units_drawn | with_reducible apply units_updZone | with_reducible apply units_updBuf | simp only [SameUnits.mk3, SameUnits.mk4] | (intro _) | split)
end Sys2Proof.Machine
end

