-- ==== Sys2Proof/Tests/Slice0.lean ====
section
/-!
SUPPORT. Tests of the model: the shape check refuses an ill-formed operand of each kind; every statement with hypotheses has a
witness, a theorem that shows for each of its clauses a state and operands that meet all its hypotheses together; and a few
single steps give what the manual's tables give.
-/
namespace Sys2Proof.Tests

open Sys2Proof.Machine

set_option Elab.async false

/-! ## Small states -/

/-- A board: eight channels with two chip enables each, 4 GiB of DRAM, and a script with one entry of each role. -/
def entryOf24 (role i : Nat) : List Byte :=
  [BitVec.ofNat 8 role, 0, 1, 1, 0, 0, 0, 0, BitVec.ofNat 8 i] ++ List.replicate 7 0 ++ [0xFF] ++ List.replicate 3 0 ++
    [0x5A] ++ List.replicate 3 0

def script : List Byte :=
  [0x40, 6, 0, 0, 1] ++ List.replicate 27 0 ++ entryOf24 1 0 ++ entryOf24 1 1 ++ entryOf24 2 2 ++ entryOf24 3 3 ++
    entryOf24 4 4 ++ entryOf24 5 5

def board : BoardDesc :=
  { seq := 1, bootRead := [], norMiB := 64, nandIf := 0, nandTiming := 0, cell := 3, luns := 1, pageBytes := 16384, pagesPerBlock := 1024,
    blocksPerPlane := 1024, planes := 1, chPresent := 0xFF#8, ceMap := List.replicate 8 0x03, nandId := 0, dramType := 0,
    dramGib := 4, dramMr := [], pSquall := 40, eta := 80, vMin := 6000, eFixedBoard := 100, eBufBoard := 100, iT := 500,
    tLoad := 100, goodMin := 256, cNom := 1000, esrNom := 50, vsupTrip := 10800, vsupUpd := 11400, script := script,
    display := List.replicate 256 0, raw := [], gustEnts := [(0, 4)], node := 0x0102#16, ports := 0xF#4, partner := 0x0103#16,
    fleetHash := 0, gpioField := List.replicate 16 0, pub := 0 }

/-- Out of reset, the clocks running. -/
def up : State :=
  { State.reset with pins := { Pins.reset with resetIn := true }, clk := { ClkS.reset with pllLock := true } }

/-- In operation at a service level. -/
def at_ (l : Level) : State :=
  { up with
    dev := { DevS.reset with level := l }
    dram := { DramS.reset with trained := true, usableMiB := 4096 }
    pwr := { PwrS.reset with doms := Vector.replicate 5 { Domain.reset with loaded := true } }
    bpm := { BpmS.reset with dram := { PoolS.dramReset with top := 0x80000 + 20000, size := 20000 } }
    boot := { BootS.reset with desc := some board, nandOk := true, booted := some false, strapsIn := true, hkLoaded := true } }

def full : State := at_ .full

/-- A descriptor of an opcode with nothing else set. -/
def desc0 (opc : Byte) : Desc :=
  { opc := opc, flags := 0, cid := 7, zone := 5, lba := 0, len := 4096, hlen := 0, rsv16 := 0, daddr := 0x1000, haddr := 0,
    aux0 := 0, aux1 := 0, rsv38 := 0 }

/-- A fetched command of tenant 1 with its data. -/
def cmd0 (d : Desc) (data : List Byte) : Cmd :=
  { Cmd.fresh 1 1 0 d 0 0 with data := if data = [] then [] else [(0, data)] }

/-- A state with one command, of tag 3. -/
def withCmd (s : State) (c : Cmd) : State := { s with hqm := { s.hqm with cmds := [(3, c)], next := 1 } }

def readyB (s : State) (tag : Tag) (opc : Nat) (c : Cmd) : Bool :=
  s.runs tag opc = some c && !c.hostFail && !c.epOther && c.epData.isEmpty && !s.keyHolds c && !s.levelEnds c

theorem ready_of {s : State} {tag : Tag} {opc : Nat} {c : Cmd} (h : readyB s tag opc c = true) : s.ready tag opc c := by
  simpa [readyB, State.ready, and_assoc] using h

/-- Zone 5 of tenant 1. -/
def zoneSt (st : ZState) : Zone := { Zone.fresh 1 1 with st := st }

def withZone (s : State) (z : Zone) : State := { s with nvm := { s.nvm with zones := [(5, z)] } }

def limits (s : State) : State :=
  s.updTnt 1 (fun x => { x with openMax := 4, heldMax := 4, evidMax := 4, convBlocks := 100 })

def thr (s : State) (l : Fin 8) : State := { s with thr := { s.thr with level := l } }

def keyed (s : State) : State := s.updTnt 1 (fun x => { x with xts := some (1, 1), gcm := some (1, 1) })

/-- Commands that move data. -/
def readC : Cmd := cmd0 { desc0 0x01 with zone := 0xFFFFF } []
def verifyC : Cmd := cmd0 { desc0 0x0C with zone := 0xFFFFF } []
def writeC : Cmd := { cmd0 (desc0 0x02) [] with data := (List.range 64).map (fun k => (64 * k, List.replicate 64 0xAA)) }
def appendC : Cmd := cmd0 { desc0 0x03 with len := 16 } (List.replicate 16 0xAA)

/-- One entry of a tag log. -/
def logged (index : Nat) : AppRec :=
  { index := index, offset := 0, len := 16, header := [], gust := false, gen := 1, opTime := 0, cycles := 0, keyId := 1,
    tag := 9, hhash := 0, prev := 0, head := 0, cipher := List.replicate 16 0, acked := false, accepted := false, blocksOn := false,
    entryOn := false, damaged := false }

def openZone : Zone := { zoneSt .open_ with wp := 1, log := [logged 1] }

/-! ## Register accesses -/

/-- In operation, every function's memory space and bus mastering on. -/
def host (s : State) : State :=
  { s with pcie := { s.pcie with dlUp := true, fns := Vector.replicate 64 { FnS.reset with mse := true, bme := true } } }

def pf0 (v : Word) : Wr := { src := .pf0, be := 15, val := v }

def noReg : Reg := { val := 0, rw := 0, rwl := 0, act := 0 }

/-- The register at an offset of a page. -/
def regOf (s : State) (p : Page) (off : Nat) (w : Wr) : Reg := ((s.touchPage w.src p).regAt p off).getD noReg

/-- What `State.takes` asks, as a check. -/
def takesB (s : State) (p : Page) (off : Nat) (w : Wr) : Bool :=
  (match s.reach w.src p off with | .at_ _ => true | _ => false) && ((s.touchPage w.src p).regAt p off).isSome && w.be == 15#4 &&
    !(s.touchPage w.src p).resettingPage p && (regOf s p off w).writable != 0#32 &&
    (w.val ^^^ (regOf s p off w).val) &&& ~~~ (regOf s p off w).writable == 0#32 &&
    (!(s.hdr[p]).locked || (regOf s p off w).rwl == 0#32) &&
    (s.touchPage w.src p).refusal p (match w.src with | .vf _ => true | _ => false) off w.val == none

theorem takes_of {s : State} {p : Page} {off : Nat} {w : Wr} (h : takesB s p off w = true) : s.takes p off w (regOf s p off w) := by
  simp only [takesB, Bool.and_eq_true, Bool.or_eq_true, Bool.not_eq_true', beq_iff_eq, bne_iff_ne, ne_eq] at h
  obtain ⟨⟨⟨⟨⟨⟨⟨h1, h2⟩, h3⟩, h4⟩, h5⟩, h6⟩, h7⟩, h8⟩ := h
  refine ⟨?_, ?_, h3, h4, h5, h6, h7, h8⟩
  · split at h1
    · exact ⟨_, by assumption⟩
    · exact absurd h1 (by decide)
  · obtain ⟨r, hr⟩ := Option.isSome_iff_exists.mp h2
    simp [regOf, hr]

/-- A read of PF0 BAR0 with all bytes reaches a register. -/
def readsB (s : State) (p : Page) (off : Nat) : Bool :=
  (match s.readReach .pf0 p off with | .at_ _ => true | _ => false) && ((s.touchPage .pf0 p).regAt p off).isSome

theorem reads_of {s : State} {p : Page} {off : Nat} (h : readsB s p off = true) :
    ∃ r, s.reads p off { src := .pf0, be := 15 } r := by
  simp only [readsB, Bool.and_eq_true] at h
  obtain ⟨h1, h2⟩ := h
  obtain ⟨r, hr⟩ := Option.isSome_iff_exists.mp h2
  refine ⟨r, by decide, ?_, hr⟩
  split at h1
  · exact ⟨_, by assumption⟩
  · exact absurd h1 (by decide)

/-- Registers of a page at values. -/
def withRegs (s : State) (p : Page) (l : List (Nat × Word)) : State :=
  { s with regs := l.foldl (fun m e => m.put (4096 * p.1 + e.1) e.2) s.regs }

/-- What a write can change of a register. -/
def field (s : State) (p : Page) (off : Nat) (w : Wr) : Word := w.val &&& (regOf s p off w).writable

/-- An issued flash operation of die 0. -/
def flashOp (cls : Nat) (kind : FlashKind) : FlashOp :=
  { die := 0, cls := cls, kind := kind, bufs := [], issued := true, issue := 0, again := false, suspends := 0, suspended := false, rebuildsPending := false,
    softWait := false }


/-- What a routed target answered at step 10. -/
def answered (ch ce : Fin 8) (resetDone : Bool) (id : DWord) (calibrated : Bool) : TargetResult :=
  { ch := ch, ce := ce, resetDone := resetDone, id := id, calibrated := calibrated, marked := [] }

/-- A header of a type and a virtual channel. -/
def hdr0 (type : Byte) (vc : BitVec 2) (seq : Word) : PktHdr :=
  { dest := 0x0102, src := 0x0103, type := type, vc := vc, hops := 1, len := 2, txn := 0, flags := 0, tenant := 0xFF, epoch := 0,
    seq := seq, tag := 0 }

/-- An append the partner replicates, of zone 9 of its tenant 1. -/
def mirAppend (index : DWord) : MirAppend :=
  { tenant := 1, epoch := 0, zone := 9, gen := 1, index := index, offset := 0, len := 16, header := [], tag := 0, keyId := 1, opTime := 0,
    cycles := 0, gust := false, head := 0, cipher := List.replicate 4096 0 }

/-! ## The shape check refuses each ill-formed operand -/

theorem test_wf_refuses :
    (Instr.recoveryFrameStart 0 (List.replicate 1026 0) 0).wf = false ∧
    (Instr.recoveryFrameData 0 (List.replicate 1026 0) 0).wf = false ∧
    (Instr.recoveryFrameFinish 0 (List.replicate 1026 0) 0 true).wf = false ∧
    (Instr.recoveryFrameStatus 0 (List.replicate 1026 0) 0).wf = false ∧
    (Instr.hostReadCompletion 0 .data 0 (List.replicate 4097 0) false).wf = false ∧
    (Instr.nandIdCheck [answered 0 0 true 0 true, answered 0 0 true 0 true]).wf = false ∧
    (Instr.dramTrainingDone (Vector.replicate 5 { rd := 0, wr := 0 }) (List.replicate 17 0) 4 0).wf = false ∧
    (Instr.hello 0 (List.replicate 127 0) 0).wf = false ∧
    (Instr.packetReceive 0 (hdr0 0x20 2 0) []).wf = false ∧
    (Instr.copyOpen 0 0 (List.replicate 127 0) (Vector.replicate 256 0)).wf = false ∧
    (Instr.copyData 0 (.entry (List.replicate 127 0) [])).wf = false ∧
    (Instr.copyData 0 (.entry (List.replicate 128 0) (List.replicate 257 0))).wf = false ∧
    (Instr.copyData 0 (.block 0 (List.replicate 4095 0))).wf = false ∧
    (Instr.mirState (.event (List.replicate 65 0))).wf = false ∧
    (Instr.mirState (.seal 0 0 (List.replicate 255 0))).wf = false ∧
    (Instr.mirState (.meter (List.replicate 511 0) 0)).wf = false ∧
    (Instr.mirState (.owner (List.replicate 9 0) false)).wf = false ∧
    (Instr.mirAppend { mirAppend 1 with len := 0 }).wf = false ∧
    (Instr.mirAppend { mirAppend 1 with len := 4097 }).wf = false ∧
    (Instr.mirAppend { mirAppend 1 with header := List.replicate 257 0 }).wf = false := by
  decide +kernel

theorem test_wf_refuses_chunk :
    (Instr.updRcvChunk { src := .pf0, be := 15, val := 0 } (List.replicate 65537 0) false).wf = false := by
  show decide ((List.replicate 65537 (0 : Byte)).length ≤ 65536) = false
  rw [List.length_replicate]; decide

/-! ## Witnesses: the queue, and what every command keeps -/

theorem witness_EmptyQueueTicksTheClock : State.reset.pending = [] := rfl

theorem witness_QueueIsFirstInFirstOut :
    exec .nonceLapse State.reset = .next State.reset ∧
    (({ State.reset with pending := [.nonceLapse, .full] } : State).pending = .nonceLapse :: [.full] ∧
      step { State.reset with pending := [.nonceLapse, .full] } = .next { State.reset with pending := [.full] }) :=
  ⟨rfl, rfl, rfl⟩

/-- EveryCommandCompletes has no hypothesis: a command that finds nothing to act on completes and leaves the state, and one on the
system bus is stored. -/
theorem test_commands_complete :
    exec (.read 3) State.reset = .next State.reset ∧
    ∃ t, exec (.dmi (.busWrite 8 9)) { full with dbg := { DbgS.reset with ir := 0x11, unlocked := true, scope := 1 } } = .next t := ⟨rfl, _, rfl⟩

theorem witness_CreditsBalanceThroughEveryStep :
    State.reset.creditsOk ∧ step State.reset = .next { State.reset with now := 1 } :=
  ⟨by unfold State.creditsOk; decide +kernel, rfl⟩

theorem witness_MeterBalancesThroughEveryStep :
    State.reset.meterOk ∧ step State.reset = .next { State.reset with now := 1 } :=
  ⟨⟨by decide +kernel, rfl, by decide +kernel, by decide +kernel⟩, rfl⟩

theorem witness_NothingKeptGoesBack :
    State.reset.norOk ∧ State.reset.countsOk ∧ step State.reset = .next { State.reset with now := 1 } :=
  ⟨by unfold State.norOk; decide +kernel, by unfold State.countsOk; decide +kernel, rfl⟩

theorem witness_UnitsChangeByTheirOwnCommands :
    Instr.nonceLapse.actsOnUnits = false ∧ exec .nonceLapse State.reset = .next State.reset := ⟨rfl, rfl⟩

theorem witness_StoredDataChangeByTheirOwnCommands :
    Instr.nonceLapse.actsOnStored = false ∧ exec .nonceLapse State.reset = .next State.reset := ⟨rfl, rfl⟩

/-- At GUST with everything FULL asks for, and an image whose ROLLBACK_INDEX is `n`. -/
def nearFull (n : Byte) : State :=
  { at_ .gust with
    boot := { (at_ .gust).boot with dramOk := true, extOk := true, replayed := true }
    pwr := { PwrS.reset with noProbe := true }
    nvm := { Nvm.reset with floor := 3, nor := Memory.setList [] (0x00100000 + 0x10) [n, 0, 0, 0] } }

theorem witness_TheFloorOnlyRises :
    (State.reset.nvm.floor ≤ 63 ∧ step State.reset = .next { State.reset with now := 1 }) ∧
    ∀ n : Byte, n = 3 ∨ n = 63 → (nearFull n).boot.desc = some board ∧ (nearFull n).boot.booted = some false ∧
      (nearFull n).active = true ∧ (nearFull n).dev.level = .gust ∧ (nearFull n).boot.replayed = true ∧
      (nearFull n).boot.dramOk = true ∧ (nearFull n).probeSettled = true ∧
      (nearFull n).nvm.zones.any (fun p => p.2.toMerge) = false ∧ (nearFull n).nvm.floor ≤ 63 ∧
      fieldLe ((nearFull n).slotHeader false) 0x10 4 ≤ 63 ∧
      (n = 63 → (nearFull n).nvm.floor < fieldLe ((nearFull n).slotHeader false) 0x10 4) ∧
      (n = 3 → fieldLe ((nearFull n).slotHeader false) 0x10 4 ≤ (nearFull n).nvm.floor) := by
  refine ⟨⟨by decide +kernel, rfl⟩, ?_⟩
  rintro n (rfl | rfl) <;> decide +kernel

/-! ## Witnesses: tenants, queues, commands -/

/-- Tenant 1 bound to VF 1 and tenant 2 to PF0, each with queue pair 1 enabled at a depth of 4: entries 0 and 1 of the
completion ring are written, and one descriptor waits. -/
def queues : State :=
  let q : Qp := { Qp.reset with enabled := true, depth := 4, sqTail := 1, cqTail := 2 }
  let s1 := { full with
    dev := { full.dev with featLock := true }
    pcie := { PcieS.reset with vfEnable := true, numVfs := 7, fns := Vector.replicate 64 { FnS.reset with mse := true, bme := true } } }
  let s2 := s1.updTnt 1 (fun x => { x with binding := 1, vf := 1, tagLimit := 8, qps := x.qps.set 1 q })
  s2.updTnt 2 (fun x => { x with binding := 2, tagLimit := 8, qps := x.qps.set 1 q })

/-- The same with tenant 1 in its reset. -/
def resetting : State := queues.updTnt 1 (fun x => { x with resetDone := false })

theorem witness_DoorbellsMoveTheirIndex :
    (resetting.tnt[(1 : Tid)]).resetDone = false ∧ resetting.routeDoorbell (.vf 1) 1 false 15 = .tenant 1 (errAddr 0x1008 2 1) ∧
    resetting.routeDoorbell (.vf 1) 1 true 15 = .tenant 1 (errAddr 0x100C 2 1) ∧
    bits 1#32 31 12 = 0 ∧ bits 2#32 31 12 = 0 ∧ bits 3#32 31 12 = 0 ∧
    (queues.tnt[(1 : Tid)]).resetDone = true ∧ queues.routeDoorbell (.vf 1) 1 false 15 = .tenant 1 (errAddr 0x1008 2 1) ∧
    queues.routeDoorbell (.vf 1) 1 true 15 = .tenant 1 (errAddr 0x100C 2 1) ∧
    queues.routeDoorbell (.pf0 2) 2 false 15 = .tenant 2 (errAddr 0x90 1 0) ∧
    (queues.tnt[(2 : Tid)]).resetDone = true ∧ ((queues.tnt[(2 : Tid)]).qp 2).enabled = false ∧
    (((queues.tnt[(1 : Tid)]).qp 1).enabled = true ∧
      -- an index at the depth, a tail that would hold D entries, the furthest tail allowed, and the current tail
      ((queues.tnt[(1 : Tid)]).qp 1).depth ≤ bits 4#32 11 0 ∧
      (bits 0#32 11 0 < ((queues.tnt[(1 : Tid)]).qp 1).depth ∧
        (((queues.tnt[(1 : Tid)]).qp 1).sqHead + ((queues.tnt[(1 : Tid)]).qp 1).depth - 1 - ((queues.tnt[(1 : Tid)]).qp 1).sqTail) %
          ((queues.tnt[(1 : Tid)]).qp 1).depth <
        (bits 0#32 11 0 + ((queues.tnt[(1 : Tid)]).qp 1).depth - ((queues.tnt[(1 : Tid)]).qp 1).sqTail) % ((queues.tnt[(1 : Tid)]).qp 1).depth) ∧
      (bits 3#32 11 0 + ((queues.tnt[(1 : Tid)]).qp 1).depth - ((queues.tnt[(1 : Tid)]).qp 1).sqTail) % ((queues.tnt[(1 : Tid)]).qp 1).depth ≤
        (((queues.tnt[(1 : Tid)]).qp 1).sqHead + ((queues.tnt[(1 : Tid)]).qp 1).depth - 1 - ((queues.tnt[(1 : Tid)]).qp 1).sqTail) %
          ((queues.tnt[(1 : Tid)]).qp 1).depth ∧
      bits 1#32 11 0 = ((queues.tnt[(1 : Tid)]).qp 1).sqTail ∧
      -- a head past the entries written, and the furthest head allowed
      (((queues.tnt[(1 : Tid)]).qp 1).cqTail + ((queues.tnt[(1 : Tid)]).qp 1).depth - ((queues.tnt[(1 : Tid)]).qp 1).cqHead) %
          ((queues.tnt[(1 : Tid)]).qp 1).depth <
        (bits 3#32 11 0 + ((queues.tnt[(1 : Tid)]).qp 1).depth - ((queues.tnt[(1 : Tid)]).qp 1).cqHead) % ((queues.tnt[(1 : Tid)]).qp 1).depth ∧
      (bits 2#32 11 0 + ((queues.tnt[(1 : Tid)]).qp 1).depth - ((queues.tnt[(1 : Tid)]).qp 1).cqHead) % ((queues.tnt[(1 : Tid)]).qp 1).depth ≤
        (((queues.tnt[(1 : Tid)]).qp 1).cqTail + ((queues.tnt[(1 : Tid)]).qp 1).depth - ((queues.tnt[(1 : Tid)]).qp 1).cqHead) %
          ((queues.tnt[(1 : Tid)]).qp 1).depth) := by
  decide +kernel

/-- The doorbells of RegistersTakeWrites: the same indices with a 1 in the lowest and the highest reserved bit. -/
theorem witness_RegistersTakeWrites_doorbells :
    let y := (queues.tnt[(1 : Tid)]).qp 1
    (queues.tnt[(1 : Tid)]).resetDone = true ∧ y.enabled = true ∧ queues.routeDoorbell (.vf 1) 1 false 15 = .tenant 1 (errAddr 0x1008 2 1) ∧
      queues.routeDoorbell (.vf 1) 1 true 15 = .tenant 1 (errAddr 0x100C 2 1) ∧ bits 0x1003#32 11 0 < y.depth ∧ bits 0x1003#32 31 12 ≠ 0 ∧
      (bits 0x1003#32 11 0 + y.depth - y.sqTail) % y.depth ≤ (y.sqHead + y.depth - 1 - y.sqTail) % y.depth ∧
      bits 0x80000002#32 11 0 < y.depth ∧ bits 0x80000002#32 31 12 ≠ 0 ∧
      (bits 0x80000002#32 11 0 + y.depth - y.cqHead) % y.depth ≤ (y.cqTail + y.depth - y.cqHead) % y.depth := by
  decide +kernel

/-- A FLUSH, as 64 bytes. -/
def flushBytes : List Byte := 4 :: List.replicate 63 0

/-- A command whose host reads began at 0, under a completion timeout range of the functions, at a time. -/
def timing (value : BitVec 4) (off : Bool) (now : Nat) (c : Cmd) : State :=
  { withCmd full c with
    now := now
    pcie := { PcieS.reset with fns := Vector.replicate 64 { FnS.reset with tmoValue := value, tmoOff := off } } }

theorem witness_CommandsAreFetchedAndFed :
    (flushBytes.length = 64 ∧ queues.nextQueue = some (1, 1) ∧ 1 ≤ bits (queues.reg pHQM 0x10C 8#32) 3 0 ∧
      (∃ p, queues.generalCheck 1 1 (parseDescriptor flushBytes) = some p) ∧
      (let s := { queues with tnt := queues.tnt.set 1 { queues.tnt[(1 : Tid)] with accept := 0xFFFFFFFF } };
        s.nextQueue = some (1, 1) ∧ s.generalCheck 1 1 (parseDescriptor flushBytes) = none)) ∧
    (let c := cmd0 (desc0 0x02) []; let s := withCmd full c;
      s.cmd 3 = some c ∧ c.phase = .fetched ∧ s.active = true ∧ ReadFailure.unsupported ≠ .timeout ∧
        c.list = .ok [(0x1000, 2 ^ 64)]) ∧
    -- a read that the function may end after 50 µs, and one the host has forbidden it to end
    (let c := cmd0 (desc0 0x02) []; let s := timing 1 false 50 c;
      s.cmd 3 = some c ∧ s.active = true ∧ s.mayTimeOut (s.tenantFn c.tenant) c.readAt = true) ∧
    (let c := cmd0 (desc0 0x02) []; let s := timing 1 true 50 c;
      s.cmd 3 = some c ∧ s.active = true ∧ s.mayTimeOut (s.tenantFn c.tenant) c.readAt = false) := by
  refine ⟨⟨by decide +kernel, by decide +kernel, by decide +kernel, ⟨(0x01, 0), by decide +kernel⟩, ?_⟩, ?_⟩ <;> decide +kernel

theorem witness_ConventionalCommandsEnterPipeX :
    (let s := withCmd (keyed (limits full)) readC;
      s.ready 3 0x01 readC ∧ readC.zoneNo = 0xFFFFF ∧ s.convFault readC (readC.desc.len.toNat / 4096) = none ∧
        s.boot.desc = some board ∧ s.pipeFull .x = false ∧
        ((s.drawMasks .x (257 * (readC.desc.len.toNat / 4096))).bind (fun s1 =>
          s1.allocAll .egress (List.replicate (readC.desc.len.toNat / 4096)
            (Buf.fresh .egress readC.epoch 3 readC.tenant (.conv readC.tenant 0 0) [])))).isSome = true) ∧
    (let s := withCmd (thr (keyed (limits full)) 5) verifyC;
      s.ready 3 0x0C verifyC ∧ s.thr.level.1 < 6 ∧ verifyC.zoneNo = 0xFFFFF ∧
        s.convFault verifyC (verifyC.desc.len.toNat / 4096) = none) ∧
    (let s := withCmd (thr full 6) verifyC; s.ready 3 0x0C verifyC ∧ 6 ≤ s.thr.level.1) ∧
    (let s := withCmd (keyed (limits full)) writeC;
      s.ready 3 0x02 writeC ∧ s.writeFault writeC (writeC.desc.len.toNat / 4096) = none ∧ s.pipeFull .x = false ∧
        s.tnt[writeC.tenant].xts = some (1, 1) ∧
        ((s.drawMasks .x (257 * (writeC.desc.len.toNat / 4096))).bind (fun s1 =>
          s1.allocAll .ingest ((blocksOfBytes writeC.bytes (writeC.desc.len.toNat / 4096)).zipIdx.map (fun p =>
            { Buf.fresh .stream writeC.epoch 3 writeC.tenant (.conv writeC.tenant (writeC.desc.lba.toNat + p.2) 0)
                (Config.xtsEnc 1 (xtsUnit writeC.tenant (writeC.desc.lba.toNat + p.2)) p.1) with
              cipherDone := true, poison := writeC.epData.contains p.2 })))).isSome = true) := by
  unfold State.ready
  decide +kernel

/-- The append after its pipe, and after its chain step and its placement. -/
def inPipe : Cmd := { appendC with phase := .shared, zoneId := 5, gtag := some 9 }
def chained : Cmd := { appendC with phase := .waiting, zoneId := 5, gtag := some 9, chained := true, placed := true, index := 1 }

theorem witness_AppendsEnterTheChain :
    (let s := withCmd (keyed (limits (withZone full (zoneSt .open_)))) appendC;
      s.ready 3 0x03 appendC ∧ s.zone appendC.zoneNo = some (zoneSt .open_) ∧ s.boot.desc = some board ∧
        s.appendWaits appendC = false ∧ s.appendFault board appendC (zoneSt .open_) (blocksOf appendC.desc.len.toNat) = none ∧
        s.tnt[appendC.tenant].gcm = some (1, 1) ∧ s.pipeFull .g = false ∧
        ((s.drawMasks .g (gcmBlocks appendC.desc.len.toNat)).bind (fun s1 =>
          s1.allocAll .ingest ((blocksOfBytes (Config.gcmCtr 1 ((zoneSt .open_).iv appendC.zoneNo 0) appendC.bytes)
            (blocksOf appendC.desc.len.toNat)).zipIdx.map (fun p =>
              { Buf.fresh .stream appendC.epoch 3 appendC.tenant (.zone appendC.zoneNo 1 (0 + p.2) 1 0) p.1 with
                cipherDone := true, gen := 1, gust := s.dev.level = .gust,
                pad := decide (appendC.desc.len.toNat < 4096 * (p.2 + 1)) })))).isSome = true) ∧
    (let s := withCmd (keyed (limits (withZone full (zoneSt .open_)))) inPipe;
      s.cmd 3 = some inPipe ∧ inPipe.gtag = some 9 ∧ s.zone inPipe.zoneId = some (zoneSt .open_) ∧
        s.tnt[inPipe.tenant].gcm = some (1, 1) ∧ inPipe.desc.opc = 0x03#8 ∧ inPipe.phase = .shared ∧ inPipe.chained = false ∧
        s.awake = true ∧ s.squall.running = false ∧ s.ciph.g.maskWait = false) ∧
    (let s := withCmd (keyed (limits (withZone full openZone))) chained;
      s.cmd 3 = some chained ∧ (s.entryAt chained.tenant chained.index).map (fun p => p.2) = some (logged 1) ∧
        chained.desc.opc = 0x03#8 ∧ chained.phase = .waiting ∧ chained.chained = true ∧ chained.placed = true ∧
        chained.dramFail = none ∧ s.serving = true ∧ s.ackBlocked chained.tenant chained.index = false ∧
        s.mayCount (s.liveBufs 3 chained).length = true ∧ chained.desc.fua = false ∧
        s.mirrorWaits chained.tenant (logged 1) = false ∧ s.mirrorDegraded chained.tenant = false) := by
  unfold State.ready
  decide +kernel

theorem witness_TheChainIsHashed :
    (let s := withCmd (keyed (limits (withZone full (zoneSt .open_)))) inPipe;
      s.cmd 3 = some inPipe ∧ inPipe.gtag = some 9 ∧ s.zone inPipe.zoneId = some (zoneSt .open_) ∧
        s.tnt[inPipe.tenant].gcm = some (1, 1) ∧ inPipe.desc.opc = 0x03#8 ∧ inPipe.phase = .shared ∧ inPipe.chained = false ∧
        s.awake = true ∧ s.squall.running = false ∧ s.ciph.g.maskWait = false ∧ inPipe.zoneId < 2 ^ 20 ∧ inPipe.desc.hlen = 0) := by
  decide +kernel

/-- The same board with 64 blocks in a plane. -/
def fewBlocks : BoardDesc := { board with blocksPerPlane := 64 }

/-- With one buffer of tag 3 that holds a block of tenant 1. -/
def buffered (p : Piece) : State :=
  { full with
    boot := { full.boot with desc := some fewBlocks }
    bpm := { full.bpm with bufs := [(0x80000, Buf.fresh .stream 0 3 1 p [])] } }

/-- A command that is done, of a tenant whose completion ring has room. -/
def doneC : Cmd := { cmd0 (desc0 0x04) [] with phase := .done 0 0 0 false }

theorem witness_FlushTrimAndEntries :
    (let c := cmd0 (desc0 0x04) []; (withCmd full c).ready 3 0x04 c) ∧
    (∀ n : DWord, n = 1 ∨ n = 65536 → let c := cmd0 { desc0 0x05 with aux0 := n } [];
      let s := withCmd ((keyed full).updTnt 1 (fun x => { x with convBlocks := 65536 })) c;
      s.ready 3 0x05 c ∧ 0 < dbits c.desc.aux0 31 0 ∧ dbits c.desc.aux0 31 0 ≤ 65536 ∧ s.tnt[c.tenant].xts.isSome = true ∧
        c.desc.lba.toNat + dbits c.desc.aux0 31 0 ≤ s.tnt[c.tenant].convBlocks) ∧
    (let c := { writeC with phase := .shared, bufs := [0x80000] }; let s := withCmd (buffered (.conv 1 0 0)) c;
      s.cmd 3 = some c ∧ s.boot.desc = some fewBlocks ∧ s.active = true ∧ c.phase = .shared ∧ c.placed = false ∧ c.desc.opc = 0x02#8 ∧
        s.med.rewrites = [] ∧ s.liveBufs 3 c = [0x80000] ∧ s.journalRoom (s.liveBufs 3 c).length = true ∧ s.ciph.x.maskWait = false ∧
        (s.placeIn fewBlocks 0 4 ((s.liveBufs 3 c).zipIdx.map
          (fun p => (some p.1, Piece.conv c.tenant (c.desc.lba.toNat + p.2) (s.nvm.writeSeq + p.2))))).isSome = true) ∧
    (let c := { inPipe with chained := true, bufs := [0x80000] };
      let s := withCmd (withZone (buffered (.zone 5 1 0 1 0)) (zoneSt .open_)) c;
      s.cmd 3 = some c ∧ s.boot.desc = some fewBlocks ∧ s.active = true ∧ c.phase = .shared ∧ c.placed = false ∧ c.desc.opc = 0x03#8 ∧
        c.chained = true ∧ s.med.rewrites = [] ∧ s.liveBufs 3 c = [0x80000] ∧ s.journalRoom (s.liveBufs 3 c).length = true ∧
        s.zone c.zoneId = some (zoneSt .open_) ∧ s.placesBefore c = false ∧ s.dev.level = .full ∧
        s.fragRoom (fragsOf c.offset (s.liveBufs 3 c).length) = true ∧
        (s.placeIn fewBlocks 1 4 ((s.liveBufs 3 c).zipIdx.map
          (fun p => (some p.1, Piece.zone c.zoneId 1 (c.offset + p.2) 1 (s.nvm.writeSeq + p.2))))).isSome = true) ∧
    (let s := withCmd queues doneC;
      s.cmd 3 = some doneC ∧ doneC.phase = .done 0 0 0 false ∧ s.active = true ∧ doneC.epoch = s.tnt[doneC.tenant].epoch ∧
        (s.tnt[doneC.tenant].qp doneC.qp).enabled = true ∧ s.entryBlocked doneC = false ∧
        (s.tnt[doneC.tenant].qp doneC.qp).cqFree = true ∧
        (s.pcie.fns[s.tenantFn doneC.tenant]).bme = true) := by
  unfold State.ready
  refine ⟨by decide +kernel, ?_, by decide +kernel, by decide +kernel, by decide +kernel⟩
  rintro n (rfl | rfl) <;> decide +kernel

/-- A zone command of tenant 1, and of tenant 0. -/
def zoneC (opc : Byte) : Cmd := cmd0 (desc0 opc) []
def zoneC0 (opc : Byte) : Cmd := { zoneC opc with tenant := 0, qp := 0 }

theorem witness_ZoneOpcodesActByState :
    (let z := zoneSt .empty; let s := withCmd (limits (withZone full z)) (zoneC 0x06);
      s.named (zoneC 0x06) = some z ∧ (zoneC 0x06).zoneNo ≠ 0xFFFFF ∧ s.ready 3 0x06 (zoneC 0x06) ∧ z.st = .empty ∧
        z.inGustSet = false ∧ z.replica = false ∧ s.mayOpen z.owner = true) ∧
    (let z := zoneSt .open_; let s := withCmd (limits (withZone full z)) (zoneC 0x07);
      s.named (zoneC 0x07) = some z ∧ s.ready 3 0x07 (zoneC 0x07) ∧ s.appendsBefore (zoneC 0x07) = false ∧ z.st = .open_ ∧
        z.replica = false) ∧
    (let z := zoneSt .full; let s := withCmd (limits (withZone full z)) (zoneC 0x08);
      s.named (zoneC 0x08) = some z ∧ s.ready 3 0x08 (zoneC 0x08) ∧ z.st = .full ∧ s.heldHost z.owner < s.tnt[z.owner].heldMax) ∧
    (let z := zoneSt .held; let s := withCmd (limits (withZone full z)) (zoneC0 0x09);
      s.named (zoneC0 0x09) = some z ∧ s.ready 3 0x09 (zoneC0 0x09) ∧ z.st = .held ∧ (zoneC0 0x09).tenant = 0) ∧
    (∀ opc : Byte, opc = 6 ∨ opc = 7 ∨ opc = 8 ∨ opc = 9 →
      (let s := withCmd full (zoneC opc); s.named (zoneC opc) = none ∧ s.ready 3 opc.toNat (zoneC opc)) ∧
      (let s := withCmd (withZone full (zoneSt .sealed)) (zoneC opc);
        s.named (zoneC opc) = some (zoneSt .sealed) ∧ (zoneC opc).zoneNo ≠ 0xFFFFF ∧ (zoneSt .sealed).st = .sealed ∧
          s.ready 3 opc.toNat (zoneC opc) ∧ s.appendsBefore (zoneC opc) = false)) := by
  unfold State.ready
  refine ⟨by decide +kernel, by decide +kernel, by decide +kernel, by decide +kernel, ?_⟩
  rintro opc (rfl | rfl | rfl | rfl) <;> decide +kernel

/-- An owner enrolled, with a live challenge. -/
def owned (s : State) : State :=
  { s with nvm := { s.nvm with ownerSlots := [1] }, own := { challenge := some (77, 0) } }

def eraseC : Cmd := { cmd0 (desc0 0x4D) (List.replicate 64 0) with tenant := 0, qp := 0 }

theorem witness_ZonesAreSealedAndErased :
    (∀ st : ZState, st = .sealed ∨ st = .full ∨ st = .held →
      let s := withCmd { limits (withZone full (zoneSt st)) with sign := { SignS.reset with identity := some 1 } } (zoneC 0x0A);
      s.ready 3 0x0A (zoneC 0x0A) ∧ s.named (zoneC 0x0A) = some (zoneSt st) ∧ s.appendsBefore (zoneC 0x0A) = false ∧
        (zoneSt st).replica = false ∧ (zoneSt st).st = st ∧
        (st ≠ .sealed → s.zcountLim (zoneSt st).owner .sealed < s.tnt[(zoneSt st).owner].evidMax) ∧ s.sign.identity = some 1) ∧
    (let s := withCmd (owned (withZone full (zoneSt .sealed))) eraseC;
      s.ready 3 0x4D eraseC ∧ s.named eraseC = some (zoneSt .sealed) ∧ (zoneSt .sealed).st = .sealed ∧
        s.nvm.ownerSlots ≠ [] ∧ s.liveChallenge = some 77) := by
  unfold State.ready
  refine ⟨?_, by decide +kernel⟩
  rintro st (rfl | rfl | rfl) <;> decide +kernel

/-- An admin command with its fields in AUX0 and AUX1. -/
def adminC (opc : Byte) (t : Tid) (len : Nat) (aux0 aux1 : DWord) (data : List Byte) : Cmd :=
  { cmd0 { desc0 opc with zone := if opc = 0x4C then 5 else 0, len := BitVec.ofNat 32 len, aux0 := aux0, aux1 := aux1 } data with
    tenant := t, qp := 0 }

theorem witness_ReadersSendAndAnswer :
    (let c := zoneC 0x0B; (withCmd full c).ready 3 0x0B c ∧ 16 ≤ c.desc.len.toNat) ∧
    (let c := adminC 0x4C 0 256 1 0 []; let s := withCmd { full with nvm := { full.nvm with sealRecs := [(5, [1, 2])] } } c;
      s.ready 3 0x4C c ∧ c.desc.sel = 1 ∧ s.nvm.sealRecs.find c.zoneNo = some [1, 2] ∧ 256 ≤ c.desc.len.toNat) ∧
    (let c := adminC 0x4C 0 4096 2 0 []; let s := withCmd (withZone full openZone) c;
      s.ready 3 0x4C c ∧ c.desc.sel = 2 ∧ s.named c = some openZone) ∧
    (let c := adminC 0x4C 0 4096 0x103 1 [];
      let s := withCmd { full with nvm := { full.nvm with chains := full.nvm.chains.set 1 { index := 1, head := 0 } } } c;
      s.ready 3 0x4C c ∧ c.desc.sel = 3 ∧ dbits c.desc.aux0 15 8 = (1 : Tid).1 ∧ 0 < c.desc.aux1.toNat ∧
        c.desc.aux1.toNat ≤ s.nvm.chains[(1 : Tid)].index) ∧
    (let c := adminC 0x40 1 4096 0 0 []; (withCmd full c).ready 3 0x40 c) ∧
    (let c := adminC 0x46 1 4096 1 0 []; let s := withCmd { full with aon := { AonS.reset with nextSeq := 1 } } c;
      s.ready 3 0x46 c ∧ c.desc.sel = 1 ∧ c.desc.aux1.toNat < s.aon.nextSeq) ∧
    (let c := adminC 0x46 1 4096 2 0 []; let s := withCmd { full with nvm := { Nvm.reset with zresetNext := 1 } } c;
      s.ready 3 0x46 c ∧ c.desc.sel = 2 ∧ c.desc.aux1.toNat < s.nvm.zresetNext) := by
  unfold State.ready
  decide +kernel

/-- A wrapped XTS key, as 176 bytes, for tenant `t`. -/
def wrapped (t : Byte) : List Byte :=
  [0x50, 0x52, 0x57, 0x4B, 1, 1, t, 0] ++ List.replicate 168 0

/-- Whether a wrapped key passes its authentication depends on functions of Config that are left free; the first premise names a
key that does. A key wrapped for another tenant does not. -/
theorem witness_QueuePairsAndKeys (hk : unwrapKey 1 1 (wrapped 1) = .xts 1 1) :
    (let c := adminC 0x41 1 0 (0x00100002 : DWord) 0 [];
      let s := withCmd ({ full with dev := { full.dev with featLock := true } }.updTnt 1 (fun x => { x with binding := 1, featLock := true })) c;
      Fin.ofNat 8 (dbits c.desc.aux0 2 0) = (2 : Qid) ∧ (2 : Qid) ≠ 0 ∧ s.ready 3 0x41 c ∧ s.dev.featLock = true ∧
        s.tntLocked c.tenant = true ∧ (s.tnt[c.tenant].qp 2).enabled = false ∧
        (s.hasFeat c.tenant 16 = true → dbits c.desc.aux0 38 32 ≤ if s.tnt[c.tenant].binding = 1 then 8 else 71) ∧
        ringOk (dbits c.desc.aux0 28 16) c.desc.daddr c.desc.haddr = true) ∧
    (let c := adminC 0x42 1 0 1 0 []; let s := withCmd queues c;
      s.ready 3 0x42 c ∧ Fin.ofNat 8 (dbits c.desc.aux0 2 0) = (1 : Qid) ∧ (1 : Qid) ≠ 0 ∧ (s.tnt[c.tenant].qp 1).enabled = true) ∧
    (∀ t : Byte, t = 1 ∨ t = 2 → let c := adminC 0x43 1 176 0 0 (wrapped t);
      let s := withCmd { full with sign := { SignS.reset with transport := some 1 } } c;
      s.ready 3 0x43 c ∧ s.ciph.g.fenced = false ∧ wrapFormatOk c.bytes = true ∧
        c.desc.len.toNat = (if c.bytes.getD 5 0 = 1 then 176 else 144) ∧ s.sign.transport = some 1 ∧ c.bytes = wrapped t ∧
        s.pipeFull .g = false ∧ (s.drawMasks .g (if c.bytes.getD 5 0 = 1 then 5 else 3)).isSome = true ∧ (t = 2 → unwrapKey 1 c.tenant c.bytes = .auth)) ∧
    unwrapKey 1 1 (wrapped 1) = .xts 1 1 ∧
    (let c := adminC 0x44 1 0 3 0 []; (withCmd full c).ready 3 0x44 c) ∧
    (∀ x g : Bool, let s := withCmd ((keyed full).updTnt 1 (fun y => { y with keyWait := [.clear x g 3] })) { adminC 0x44 1 0 3 0 [] with phase := .waiting };
      (s.tnt[(1 : Tid)]).keyWait = [.clear x g 3] ∧ s.active = true ∧ s.pageQuiet 1 = true ∧ (s.tnt[(1 : Tid)]).resetDone = true ∧
        (s.cmd 3).isSome = true) := by
  unfold State.ready
  refine ⟨by decide +kernel, by decide +kernel, ?_, hk, by decide +kernel, by decide +kernel⟩
  rintro t (rfl | rfl) <;> decide +kernel

/-- METER_READ with its nonce. -/
def meterC (t : Tid) (aux0 : DWord) : Cmd :=
  { adminC 0x47 t 65536 aux0 0 [] with header := [(0, List.replicate 16 0)] }

theorem witness_FeaturesAndMeterReads :
    (let s (c : Cmd) := withCmd (full.updTnt 1 (fun x => { x with binding := 1 })) c;
      (let c := adminC 0x45 1 0 1 0 []; (s c).ready 3 0x45 c ∧ c.desc.sel = 1 ∧ (s c).holdTarget c = some 1 ∧ c.desc.setBit = false) ∧
      (let c := adminC 0x45 0 0 0x101 (0x100 + 60) []; (s c).ready 3 0x45 c ∧ c.desc.sel = 1 ∧ (s c).holdTarget c = some 1 ∧
        c.desc.setBit = true ∧ dbits c.desc.aux1 7 0 ≤ 60) ∧
      (let c := adminC 0x45 0 0 0x101 (0x100 + 61) []; (s c).ready 3 0x45 c ∧ c.desc.sel = 1 ∧ (s c).holdTarget c = some 1 ∧
        c.desc.setBit = true ∧ 60 < dbits c.desc.aux1 7 0) ∧
      (let c := adminC 0x45 0 40 2 0 []; (s c).ready 3 0x45 c ∧ c.desc.sel = 2 ∧ c.desc.setBit = false) ∧
      (let c := adminC 0x45 0 40 0x102 0 (List.replicate 20 0x20 ++ List.replicate 20 0x7E);
        let s := withCmd { full with dev := { full.dev with accept0 := 0x100 } } c;
        s.ready 3 0x45 c ∧ c.desc.sel = 2 ∧ c.desc.setBit = true ∧ s.hasFeat c.tenant 8 = true ∧
          ∀ b ∈ c.bytes, 0x20 ≤ b.toNat ∧ b.toNat ≤ 0x7E) ∧
      (let c := adminC 0x45 0 0 3 0 []; let s := withCmd { full with dev := { full.dev with accept0 := 0x2000 } } c;
        s.ready 3 0x45 c ∧ c.desc.sel = 3 ∧ s.hasFeat c.tenant 13 = true) ∧
      (let c := adminC 0x45 1 0 3 0 []; (s c).ready 3 0x45 c ∧ c.desc.sel = 3 ∧ (s c).hasFeat c.tenant 13 = false)) ∧
    (let s (c : Cmd) := withCmd { full with sign := { SignS.reset with identity := some 1 } } c;
      (∀ t : Tid, t = 0 ∨ t = 1 → let c := meterC t 0x101; (s c).ready 3 0x47 c ∧ (s c).mtr.pendingOn = false ∧
        (s c).sign.identity = some 1 ∧ c.desc.sel = 1 ∧ dbits c.desc.aux0 15 8 < 64 ∧ (c.tenant = 0 ∨ dbits c.desc.aux0 15 8 = c.tenant.1) ∧
        144 + ((s c).tenantAccs (dbits c.desc.aux0 15 8)).length ≤ c.desc.len.toNat) ∧
      (let c := meterC 1 0x201; (s c).ready 3 0x47 c ∧ c.desc.sel = 1 ∧ c.tenant ≠ 0 ∧ dbits c.desc.aux0 15 8 ≠ c.tenant.1) ∧
      (let c := meterC 0 2; (s c).ready 3 0x47 c ∧ c.desc.sel = 2 ∧ c.tenant = 0 ∧
        144 + ((List.range 64).flatMap (s c).tenantAccs).length + 8 ≤ c.desc.len.toNat) ∧
      (let c := meterC 0 3; (s c).ready 3 0x47 c ∧ c.desc.sel = 3 ∧ c.tenant = 0 ∧
        144 + ((((s c).nvm.profile.filter (fun r => decide (c.desc.aux1.toNat ≤ r.seq))).take
          (min 1024 ((c.desc.len.toNat - 144) / 64))).flatMap ProfRec.bytes64).length ≤ c.desc.len.toNat)) := by
  unfold State.ready
  refine ⟨⟨by decide +kernel, by decide +kernel, by decide +kernel, by decide +kernel, by decide +kernel, by decide +kernel,
    by decide +kernel⟩, ?_, by decide +kernel⟩
  rintro t (rfl | rfl) <;> decide +kernel

/-- With a live nonce. -/
def nonced (t : Nat) : State := { full with now := t, mtr := { MtrS.reset with nonce := some (77, 0) } }

/-- Whether a token verifies depends on functions of Config that are left free; the premise names one that does. -/
theorem witness_TimeIsSetAndMetered
    (hk : ∀ c : Cmd, c = adminC 0x48 0 192 2 0 (List.replicate 0x28 1 ++ [0, 0, 0, 0x7F] ++ List.replicate 148 0) →
      (withCmd (nonced 0) c).tokenOk c.bytes 77 = true) :
    (let c := adminC 0x48 0 16 0 0 []; let s := withCmd { full with sign := { SignS.reset with drbg := 1 } } c;
      s.ready 3 0x48 c ∧ c.desc.sel = 0 ∧ s.sign.drbg = 1#2) ∧
    (∀ n : DWord, n = 1577836800 ∨ n = 1577836799 → let c := adminC 0x48 0 0 1 n []; let s := withCmd full c;
      s.ready 3 0x48 c ∧ c.desc.sel = 1 ∧ s.mtr.pendingOn = false ∧ c.desc.aux1.toNat = n.toNat) ∧
    (let c := adminC 0x48 0 192 2 0 (List.replicate 192 0); let s := withCmd (nonced 0) c;
      s.ready 3 0x48 c ∧ c.desc.sel = 2 ∧ s.mtr.pendingOn = false ∧ s.sign.blocked = false ∧ s.liveNonce = some 77 ∧
        s.tokenOk c.bytes 77 = false) ∧
    (let c := adminC 0x48 0 192 2 0 (List.replicate 0x28 1 ++ [0, 0, 0, 0x7F] ++ List.replicate 148 0); let s := withCmd (nonced 0) c;
      (s.ready 3 0x48 c ∧ c.desc.sel = 2 ∧ s.liveNonce = some 77 ∧ 1577836800 ≤ fieldLe c.bytes 0x28 8) ∧ s.tokenOk c.bytes 77 = true) ∧
    ((nonced 600000000).mtr.nonce = some (77, 0) ∧ 0 + 600000000 ≤ (nonced 600000000).now ∧ (nonced 599999999).now < 0 + 600000000) ∧
    (let s := { full with mtr := { MtrS.reset with utcState := .signed }, aon := { AonS.reset with optBase := 86400 } };
      s.mtr.utcState = .signed ∧ s.mtr.signedAt + 86400 ≤ s.opSecs) ∧
    (full.serving = true ∧ full.mtr.pendingOn = false ∧
      -- a boundary and a minute that have come, and ones that have not
      (let s := { full with mtr := { MtrS.reset with next := full.intervalClock, minute := full.intervalClock / 60 + 1 } };
        s.mtr.next ≤ s.intervalClock ∧ s.intervalClock / 60 ≠ s.mtr.minute) ∧
      (let s := { full with mtr := { MtrS.reset with next := full.intervalClock + 1, minute := full.intervalClock / 60 } };
        s.intervalClock < s.mtr.next ∧ s.intervalClock / 60 = s.mtr.minute)) := by
  unfold State.ready
  refine ⟨by decide +kernel, ?_, by decide +kernel, ⟨by decide +kernel, hk _ rfl⟩, by decide +kernel⟩
  rintro n (rfl | rfl) <;> decide +kernel

/-- A device at rest with its supply and hold-up good. -/
def steady : State :=
  { full with
    gpio := { GpioS.reset with motion := .stationary }
    pwr := { PwrS.reset with hold := .good }
    hkp := { HkpS.reset with reads := Vector.replicate 16 12000 } }

def session (target offset : Nat) : State :=
  { steady with nvm := { Nvm.reset with stage_ := some { target := target, slotB := true, offset := offset, head := [1, 2, 3, 4] } } }

def stageC (target : DWord) (off : DWord) : Cmd :=
  { adminC 0x49 0 256 target off [] with data := (List.range 4).map (fun k => (64 * k, List.replicate 64 0)) }
def commitC (target : DWord) : Cmd := adminC 0x4A 0 0 target 0 []

/-- The image lengths of a slot header, both 0. -/
def imageNor (t : Nat) : Memory := if t = 0 then Memory.setList [] (0x00800000 + 0x14) (List.replicate 8 0) else []

theorem witness_ImagesAreStaged :
    (let s := withCmd (thr full 6) (stageC 0 0); s.ready 3 0x49 (stageC 0 0) ∧ 6 ≤ s.thr.level.1) ∧
    (let s := withCmd (thr full 7) (commitC 0); s.ready 3 0x4A (commitC 0) ∧ 6 ≤ s.thr.level.1) ∧
    (let s := withCmd (thr full 5) (stageC 0 0); s.ready 3 0x49 (stageC 0 0) ∧ s.thr.level.1 < 6 ∧ s.refusalMask ≠ 0) ∧
    (let s := withCmd (session 0 256) (stageC 0 256);
      s.ready 3 0x49 (stageC 0 256) ∧ s.thr.level.1 < 6 ∧ s.refusalMask = 0 ∧ (stageC 0 256).desc.aux1.toNat ≠ 0 ∧
        s.nvm.stage_ = some { target := 0, slotB := true, offset := 256, head := [1, 2, 3, 4] } ∧ 0 = (stageC 0 256).desc.sel ∧
        256 = (stageC 0 256).desc.aux1.toNat ∧ (stageC 0 256).desc.aux1.toNat % 256 = 0 ∧
        256 + (stageC 0 256).desc.len.toNat ≤ (s.targetArea 0 true).2) ∧
    (∀ t : Nat, t = 0 ∨ t = 1 →
      let g : StageS := { target := t, slotB := true, offset := if t = 0 then 256 else 4096, head := [1, 2, 3, 4] };
      let s0 := session t g.offset;
      let s := withCmd { s0 with nvm := { s0.nvm with nor := imageNor t } } (commitC (BitVec.ofNat 64 t));
      s.ready 3 0x4A (commitC (BitVec.ofNat 64 t)) ∧ s.thr.level.1 < 6 ∧ s.refusalMask = 0 ∧ s.nvm.stage_ = some g ∧
        s.commitFault (commitC (BitVec.ofNat 64 t)).desc.sel g = none) := by
  unfold State.ready
  refine ⟨by decide +kernel, by decide +kernel, by decide +kernel, by decide +kernel, ?_⟩
  rintro t (rfl | rfl) <;> decide +kernel

/-- Which 64-byte strings are points of the curve, and which signatures verify, is left free; the premise names a point. Of the
two answers of the signature check every owner request meets one. -/
theorem witness_TheOwnerActs (hp : Config.validPoint (wideOf (List.replicate 64 0)) = true) :
    (let c := adminC 0x4B 0 0 0 0 (List.replicate 128 0); let s := withCmd { full with sign := { SignS.reset with drbg := 1 } } c;
      s.ready 3 0x4B c ∧ c.desc.sel = 0 ∧ s.sign.drbg = 1#2 ∧ allZero (slice c.bytes 0 64) = true ∧
        allZero (slice c.bytes 64 64) = true) ∧
    (∀ n : Nat, n = 63 ∨ n = 64 → let c := adminC 0x4B 0 0 0 0 (List.replicate n 0 ++ [1] ++ List.replicate (127 - n) 0);
      (withCmd full c).ready 3 0x4B c ∧ c.desc.sel = 0 ∧
        (n = 63 → allZero (slice c.bytes 0 64) = false) ∧ (n = 64 → allZero (slice c.bytes 64 64) = false)) ∧
    (let c := adminC 0x4B 0 0 1 0 (List.replicate 128 0);
      ((withCmd full c).ready 3 0x4B c ∧ (withCmd full c).nvm.ownerSlots = [] ∧ (withCmd (owned full) c).ready 3 0x4B c ∧
        (withCmd (owned full) c).nvm.ownerSlots ≠ [] ∧ c.desc.sel = 1 ∧ allZero (slice c.bytes 64 64) = true ∧
        slice c.bytes 0 64 = List.replicate 64 0)) ∧
    Config.validPoint (wideOf (List.replicate 64 0)) = true ∧
    (∀ b : Bool, let c := adminC 0x4B 0 0 (if b then 2 else 3) 0 (List.replicate 128 0); let s := withCmd (owned full) c;
      s.ready 3 0x4B c ∧ s.nvm.ownerSlots ≠ [] ∧ s.liveChallenge = some 77 ∧ c.desc.sel = (if b then 2 else 3) ∧
        allZero (slice c.bytes 0 64) = true) ∧
    (let c := adminC 0x4B 0 0 4 0 (List.replicate 128 0);
      let s := withCmd { owned full with nvm := { Nvm.reset with ownerSlots := List.replicate 7 1 } } c;
      s.ready 3 0x4B c ∧ s.nvm.ownerSlots ≠ [] ∧ s.liveChallenge = some 77 ∧ c.desc.sel = 4 ∧ s.nvm.ownerSlots.length < 8 ∧
        slice c.bytes 0 64 = List.replicate 64 0) ∧
    (let s := { owned full with now := 600000000 }; s.own.challenge = some (77, 0) ∧ 0 + 600000000 ≤ s.now) ∧
    (let s := { owned full with now := 599999999 }; s.own.challenge = some (77, 0) ∧ s.now < 0 + 600000000) := by
  unfold State.ready
  refine ⟨by decide +kernel, ?_, by decide +kernel, hp, by decide +kernel⟩
  rintro n (rfl | rfl) <;> decide +kernel

/-! ## Witnesses: pipes, housekeeping, display, debug -/

def piped (blocks : List PipeBlk) (at_ : Option Nat) (wait : Bool) (now : Nat) : State :=
  { full with now := now, ciph := { CiphS.reset with g := { PipeS.reset with blocks := blocks, faultAt := at_, maskWait := wait } } }

/-- The same with every lane's outputs used up. -/
def spent (s : State) : State := { s with ciph := { s.ciph with lanes := Vector.replicate 112 laneLimit } }

theorem witness_PipesAndEntropyAreWatched :
    (let b : PipeBlk := { tenant := 1, epoch := 0, tag := 3 };
      (∀ n : Nat, n = 1000000 ∨ n = 1000001 → let s := piped (List.replicate 28 b) (some 0) false n;
        (s.ciph.pipe .g).fenced = false ∧ s.awake = true ∧ (s.ciph.pipe .g).blocks[(27 : Fin 28).1]? = some b ∧
          (s.ciph.pipe .g).faultAt = some 0 ∧ (n = 1000000 → s.now ≤ 0 + 1000000) ∧ (n = 1000001 → 0 + 1000000 < s.now) ∧
          (s.drawMasks .g (s.ciph.pipe .g).blocks.length).isSome = true ∧ (spent s).drawMasks .g ((spent s).ciph.pipe .g).blocks.length = none ∧
          ((spent s).ciph.pipe .g) = (s.ciph.pipe .g)) ∧
      (∀ n : Nat, n = 9 ∨ n = 10 ∨ n = 99999 ∨ n = 100000 → let s := piped [] none true n;
        (s.ciph.pipe .g).fenced = false ∧ s.awake = true ∧ (s.ciph.pipe .g).maskWait = true ∧
          (n = 9 → s.now < (s.ciph.pipe .g).waitAt + 10) ∧ (10 ≤ n → (s.ciph.pipe .g).waitAt + 10 ≤ s.now) ∧
          (n = 99999 → (s.ciph.pipe .g).stalledFor s.now < 100000) ∧ (n = 100000 → 100000 ≤ (s.ciph.pipe .g).stalledFor s.now))) ∧
    (let r : SignS := { SignS.reset with drbg := 1 };
      ({ full with sign := r } : State).sign.drbg = 1#2 ∧
      (let s := { full with sign := { r with requests := 65536 } }; s.sign.drbg = 1#2 ∧ 65536 ≤ s.sign.requests) ∧
      (let s := { full with now := 1000000, sign := r }; s.sign.drbg = 1#2 ∧ s.sign.reseedAt + 1000000 ≤ s.now) ∧
      (let s := { full with now := 999999, sign := { r with requests := 65535 } };
        s.sign.drbg = 1#2 ∧ s.sign.requests < 65536 ∧ s.now < s.sign.reseedAt + 1000000) ∧
      r.restarts < 2 ∧ (let s := { full with sign := { r with restarts := 2 } }; s.sign.drbg = 1#2 ∧ 2 ≤ s.sign.restarts)) := by
  refine ⟨⟨?_, ?_⟩, by decide +kernel⟩
  · rintro n (rfl | rfl) <;> decide +kernel
  · rintro n (rfl | rfl | rfl | rfl) <;> decide +kernel

/-- A board whose display shows one item of a code. -/
def showing (code : Byte) : BoardDesc :=
  { board with display := [1, 0, 0, 1] ++ List.replicate 60 0 ++ [code] ++ List.replicate 191 0 }

def displaying (code : Byte) : State :=
  { full with boot := { full.boot with desc := some (showing code) }, disp := { DispS.reset with running := true } }

def hostItem (life now : Nat) : State := { full with now := now, disp := { DispS.reset with host := some [], life := life } }

theorem witness_HouseIsKept :
    ((displaying 1).boot.desc = some (showing 1) ∧ (displaying 1).disp.running = true ∧ (displaying 1).active = true ∧
      (displaying 1).dbg.seqHalted.getLsbD 9 = false ∧ (displaying 1).showable (showing 1) 0 = some 0 ∧
      ((displaying 1).displayItem ((showing 1).item 0).1 ((showing 1).item 0).2.2).isSome = true ∧
      (displaying 1).disp.dwellAt ≤ (displaying 1).now ∧
      (let s := { displaying 1 with disp := { DispS.reset with running := true, dwellAt := 1 } };
        s.boot.desc = some (showing 1) ∧ s.disp.running = true ∧ s.active = true ∧ s.dbg.seqHalted.getLsbD 9 = false ∧ s.now < s.disp.dwellAt) ∧
      (displaying 10).boot.desc = some (showing 10) ∧ (displaying 10).showable (showing 10) (displaying 10).disp.item = none) ∧
    ((hostItem 1 60000000).disp.host = some [] ∧ (hostItem 1 60000000).disp.life ≠ 0 ∧
      (hostItem 1 60000000).disp.hostAt + (hostItem 1 60000000).disp.life * 60000000 ≤ (hostItem 1 60000000).now ∧
      (hostItem 0 5).disp.life = 0 ∧ (hostItem 1 59999999).now < (hostItem 1 59999999).disp.hostAt + 1 * 60000000) ∧
    (full.hkpRuns = true ∧
      (∀ n : Nat, n = 4000 ∨ n = 3999 → let s := { full with now := n };
        s.hkpRuns = true ∧ (n = 4000 → s.slotOver = true) ∧ (n = 3999 → s.slotOver = false)) ∧
      (let s := { full with hkp := { HkpS.reset with ended := true, reads := Vector.replicate 16 500 } };
        s.hkpRuns = true ∧ s.hkp.ended = true ∧ 500 ≤ s.hkp.hottest ∧ s.dram.trained = true)) ∧
    (full.active = true ∧ full.opSecs / 3600 ≤ full.nvm.ageHour ∧
      (let s := { full with aon := { AonS.reset with optBase := 3600 } };
        s.active = true ∧ s.nvm.ageHour < s.opSecs / 3600 ∧ s.boot.booted.isSome = true)) ∧
    (let s := { full with boot := { full.boot with counted := true }, aon := { AonS.reset with optBase := 3600 } };
      s.active = true ∧ s.boot.counted = true ∧ s.nvm.optStored < s.opSecs / 3600 * 3600) := by
  refine ⟨by decide +kernel, by decide +kernel, ⟨by decide +kernel, ?_, by decide +kernel⟩, by decide +kernel, by decide +kernel⟩
  rintro n (rfl | rfl) <;> decide +kernel

def tapped (ir : BitVec 5) (unlocked : Bool) (scope : BitVec 3) : State :=
  { full with dbg := { DbgS.reset with ir := ir, unlocked := unlocked, scope := scope, halted := 1#4, seqHalted := 1#10 } }

def challenged : State := { tapped 0x13 false 0 with dbg := { DbgS.reset with ir := 0x13, challenge := some 77 } }

/-- Whether a debug token verifies depends on functions of Config that are left free; the premise names one that does. -/
theorem witness_DebugNeedsUnlock (token : Vector Byte 176)
    (hk : challenged.tokenAccepted token.toList = true) :
    (tapKnown (0x1F#5).toNat = true ∧ tapScope (0x1F#5).toNat = none ∧ tapKnown (0x11#5).toNat = true ∧
      tapScope (0x11#5).toNat = some 0 ∧ (tapped 0x1F true 1).dbg.unlocked = true ∧ (tapped 0x1F true 1).dbg.scope.getLsbD 0 = true ∧
      (tapped 0x1F false 0).dbg.unlocked = false ∧ (tapped 0x1F true 2).dbg.scope.getLsbD 0 = false) ∧
    ((tapped 0x13 false 0).dbg.ir = 0x13#5 ∧ (tapped 0x13 false 0).active = true ∧
      (tapped 0x13 false 0).tokenAccepted (Vector.replicate 176 (0 : Byte)).toList = false) ∧
    (challenged.dbg.ir = 0x13#5 ∧ challenged.active = true ∧ challenged.tokenAccepted token.toList = true) ∧
    ((tapped 0x11 true 7).awake = true ∧ (tapped 0x11 true 7).dbg.ir = 0x11#5 ∧
      (tapped 0x11 true 7).dbg.halted.getLsbD (0 : Fin 4).1 = true ∧ (tapped 0x11 true 7).med.rewrites = [] ∧ (0 : Fin 4) ≠ 1 ∧ (tapped 0x12 true 7).awake = true ∧
      (tapped 0x12 true 7).dbg.ir = 0x12#5 ∧ (tapped 0x12 true 7).dbg.seqHalted.getLsbD (0 : Fin 10).1 = true) :=
  ⟨by decide +kernel, by decide +kernel, ⟨by decide +kernel, by decide +kernel, hk⟩, by decide +kernel⟩

/-! ## Witnesses: registers and ports -/

/-- The fetch depth of HQM holds a value and starts nothing. -/
theorem witness_RegistersTakeWrites :
    (takesB (host full) pHQM 0x10C (pf0 4) = true ∧ pHQM ≠ pIRQ ∧ pHQM ≠ pMED ∧
      (regOf (host full) pHQM 0x10C (pf0 4)).rw ||| (regOf (host full) pHQM 0x10C (pf0 4)).rwl ≠ 0#32 ∧
      ∀ (x : State) (v : Word) (b : Bool), x.act pHQM 0x10C v [] b = x) ∧ (0 : BitVec 4) = 0#4 ∧
    ((host full).reach .pf0 pHQM 0xFFC = .at_ (errAddr (4096 * pHQM.1 + 0xFFC) 0 0) ∧
      ((host full).touchPage .pf0 pHQM).regAt pHQM 0xFFC = none) ∧
    ((host full).reach .pf0 pHQM 0x10C = .at_ (errAddr (4096 * pHQM.1 + 0x10C) 0 0) ∧
      ((host full).touchPage .pf0 pHQM).regAt pHQM 0x10C = some (regOf (host full) pHQM 0x10C (pf0 4)) ∧ (3 : BitVec 4) ≠ 15#4) ∧
    ((host full).reach .pf0 pHQM 0 = .at_ (errAddr (4096 * pHQM.1) 0 0) ∧
      ((host full).touchPage .pf0 pHQM).regAt pHQM 0 = some (regOf (host full) pHQM 0 (pf0 0)) ∧
      ((host full).touchPage .pf0 pHQM).resettingPage pHQM = false ∧ (regOf (host full) pHQM 0 (pf0 0)).writable = 0#32 ∧ pHQM ≠ pUPD) ∧
    (State.reset.dev.level = .none ∧ (15 : BitVec 4) ≠ 0#4 ∧ (∀ n, BarSpace.pf0Bar0 = .vfBar0 n → n ≠ 0) ∧ (host full).dev.level ≠ .none ∧
      (host full).barOpen (barFn .pf0Bar0) = true ∧
      (host full).reservedIn .pf0Bar0 ((0x06FFE : BitVec 20).toNat / 4 * 4) = some (pHQM, errAddr 0x06FFC 0 0)) ∧
    (takesB (host full) pRST 0x104 (pf0 0x5A3C0001) = true ∧
      ((pf0 0x5A3C0001).val &&& (regOf (host full) pRST 0x104 (pf0 0x5A3C0001)).writable).getLsbD 0 = true ∧
      (host full).active = true) ∧
    (takesB (host full) pRST 0x104 (pf0 0x5A3C0002) = true ∧
      ((pf0 0x5A3C0002).val &&& (regOf (host full) pRST 0x104 (pf0 0x5A3C0002)).writable).getLsbD 1 = true ∧
      ((pf0 0x5A3C0002).val &&& (regOf (host full) pRST 0x104 (pf0 0x5A3C0002)).writable).getLsbD 0 = false) ∧
    (let s := { host full with now := 10000000, pwr := { PwrS.reset with probeAt := some 0 } };
      takesB s pPWR 0x100 (pf0 0x7E) = true ∧ ((pf0 0x7E).val &&& (regOf s pPWR 0x100 (pf0 0x7E)).writable).getLsbD 1 = true ∧
        ∀ a, s.pwr.probeAt = some a → a + 10000000 ≤ s.now) := by
  refine ⟨⟨by decide +kernel, by decide +kernel, by decide +kernel, by decide +kernel, fun _ _ _ => rfl⟩, rfl, ?_⟩
  and_intros
  all_goals decide +kernel

/-- Tenant 1 bound to PF0, with a ring of 16 at its admin bases. -/
def tenant1 : State :=
  (host full).updTnt 1 (fun x => { x with binding := 2, depth := 16, offer := 0x40 })

theorem witness_TenantsResetAndNegotiate :
    (takesB tenant1 (pTNT 1) 0x020 (pf0 1) = true ∧
      ((pf0 1).val &&& (regOf tenant1 (pTNT 1) 0x020 (pf0 1)).writable).getLsbD 0 = true) ∧
    (takesB tenant1 (pTNT 1) 0x020 (pf0 4) = true ∧ ((tenant1.tnt[(1 : Tid)]).qp 0).enabled = false ∧
      ((pf0 4).val &&& (regOf tenant1 (pTNT 1) 0x020 (pf0 4)).writable).getLsbD 0 = false ∧
      ((pf0 4).val &&& (regOf tenant1 (pTNT 1) 0x020 (pf0 4)).writable).getLsbD 2 = true) ∧
    (takesB tenant1 (pTNT 1) 0x020 (pf0 2) = true ∧ (1 : Tid) ≠ 0 ∧
      ((pf0 2).val &&& (regOf tenant1 (pTNT 1) 0x020 (pf0 2)).writable).getLsbD 0 = false ∧
      ((pf0 2).val &&& (regOf tenant1 (pTNT 1) 0x020 (pf0 2)).writable).getLsbD 1 = true) ∧
    takesB tenant1 (pTNT 1) 0x154 (pf0 60) = true ∧
    (let s := tenant1.updTnt 1 (fun x => { x with resetDone := false });
      (s.tnt[(1 : Tid)]).resetDone = false ∧ s.pipesFree 1 = true ∧ s.awake = true ∧
        (withCmd s { writeC with epoch := 9 }).pipesFree 1 = false) ∧
    (takesB (host full) pDEV 0x108 (pf0 1) = true ∧ takesB (host full) pDEV 0x10C (pf0 0) = true) ∧
    (takesB (host full) pDEV 0x020 (pf0 1) = true ∧ (host full).dev.featLock = false ∧
      ((pf0 1).val &&& (regOf (host full) pDEV 0x020 (pf0 1)).writable).getLsbD 0 = true) ∧
    takesB tenant1 (pTNT 1) 0x104 (pf0 0x40) = true ∧
    (let s := { host full with dev := { (host full).dev with featLock := true } };
      s.reach .pf0 pDEV 0x108 = .at_ (errAddr 0x108 0 0) ∧ (s.touchPage .pf0 pDEV).regAt pDEV 0x108 = some (regOf s pDEV 0x108 (pf0 1)) ∧
        s.dev.featLock = true) := by
  decide +kernel

/-- MSI-X on, vector 71 pending and not masked. -/
def pending71 : State :=
  (host full).updFn 0 (fun f =>
    { f with cfg := { msixEn := true, msixMask := false, msiEn := false, mme := 0 }, pending := [71], unmasked := [71] })

theorem witness_InterruptRegistersAct :
    (takesB (host full) pPCIE 0x030 (pf0 1) = true ∧ takesB (host full) pPCIE 0x034 (pf0 1) = true ∧
      takesB (host full) pPCIE 0x038 (pf0 1) = true ∧ tenantOfPage pPCIE = none ∧
      ((pf0 1).val &&& (regOf (host full) pPCIE 0x038 (pf0 1)).writable).getLsbD 0 = true ∧ intMask pPCIE &&& bitW true 0 ≠ 0#32 ∧
      takesB (host full) pPCIE 0x0F0 (pf0 1) = true ∧
      ((pf0 1).val &&& (regOf (host full) pPCIE 0x0F0 (pf0 1)).writable).getLsbD 0 = true) ∧
    (takesB (host full) pIRQ (0x100 + 4 * (575 : Fin 576).1) (pf0 0x8047) = true ∧
      (regOf (host full) pIRQ (0x100 + 4 * (575 : Fin 576).1) (pf0 0x8047)).act = 0#32) ∧
    (pending71.mayMessage 0 (71 : Fin 72).1 = true ∧ (host full).mayMessage 0 (71 : Fin 72).1 = false) := by
  decide +kernel

/-- In ROM recovery, with a session that has received `data`. -/
def rom (spi : Bool) (target total : Nat) (data : List Byte) : State :=
  { host (at_ .recovery) with
    dev := { DevS.reset with level := .recovery, romRecovery := true, pad := { PadState.reset with spit := true } }
    upd := { UpdS.reset with session := some { spi := spi, target := target, total := total, data := data } } }

/-- Bus mastering of PF0. -/
def masters (s : State) : Bool := (s.pcie.fns[(0 : Fn)]).bme

def romIdle : State :=
  { host (at_ .recovery) with
    dev := { DevS.reset with level := .recovery, romRecovery := true, pad := { PadState.reset with spit := true } } }

/-- Whether a key record is good depends on functions of Config that are left free; the premise names one that is. -/
theorem witness_MailboxSessionsRun (data : List Byte) (hl : data.length = 160)
    (hk : ((rom false 4 160 data).touchPage .pf0 pUPD).rcvOk 4 data = true) :
    (∀ p : Nat × Word, p = (0, 0x700000#32) ∨ p = (4, 160#32) →
      let s := withRegs romIdle pUPD [(0x138, BitVec.ofNat 32 p.1), (0x140, p.2)];
      takesB s pUPD 0x130 (pf0 1) = true ∧ bits (field s pUPD 0x130 (pf0 1)) 3 0 = 1 ∧ s.upd.session = none ∧
        bits (s.reg pUPD 0x138 0#32) 2 0 = p.1 ∧ p.1 ≤ 4 ∧ (s.reg pUPD 0x140 0#32).toNat = p.2.toNat ∧ 0 < p.2.toNat ∧
        p.2.toNat ≤ rcvSize p.1 ∧ (p.1 = 4 → p.2.toNat = 160)) ∧
    (let s := withRegs (rom false 4 160 [1, 2]) pUPD [(0x13C, 2), (0x140, 158)];
      takesB s pUPD 0x130 (pf0 2) = true ∧ bits (field s pUPD 0x130 (pf0 2)) 3 0 = 2 ∧
        s.upd.session = some { spi := false, target := 4, total := 160, data := [1, 2] } ∧ masters s = true ∧
        (s.reg pUPD 0x140 0#32).toNat = (List.replicate 158 (0 : Byte)).length ∧ 0 < (List.replicate 158 (0 : Byte)).length ∧
        (List.replicate 158 (0 : Byte)).length ≤ 65536 ∧ (s.reg pUPD 0x13C 0#32).toNat = 2 ∧
        2 + (List.replicate 158 (0 : Byte)).length ≤ 160) ∧
    (takesB (rom false 4 160 []) pUPD 0x130 (pf0 3) = true ∧ bits (field (rom false 4 160 []) pUPD 0x130 (pf0 3)) 3 0 = 3 ∧
      ([] : List Byte).length ≠ 160) ∧
    ((rom false 4 160 data).upd.session = some { spi := false, target := 4, total := 160, data := data } ∧ data.length = 160 ∧
      ((rom false 4 160 data).touchPage .pf0 pUPD).rcvOk 4 data = true) ∧
    ((rom false 4 160 data).nvm.boardHash = none ∧
      ({ rom false 4 160 data with nvm := { Nvm.reset with boardHash := some 1 } } : State).nvm.boardHash.isSome = true ∧
      (rom false 0 8 data).upd.session = some { spi := false, target := 0, total := 8, data := data } ∧ 0 ≠ 4) ∧
    (takesB (rom true 4 160 []) pUPD 0x130 (pf0 1) = true ∧ bits (field (rom true 4 160 []) pUPD 0x130 (pf0 1)) 3 0 = 1) ∧
    (takesB (rom false 4 160 []) pUPD 0x130 (pf0 4) = true ∧ bits (field (rom false 4 160 []) pUPD 0x130 (pf0 4)) 3 0 = 4) := by
  refine ⟨?_, by decide +kernel, by decide +kernel, ⟨rfl, hl, hk⟩, ⟨rfl, rfl, rfl, by decide⟩, by decide +kernel, by decide +kernel⟩
  rintro p (rfl | rfl) <;> decide +kernel

/-- As for the mailbox; the checksum of a frame is a function of Config that is left free, and a frame may carry any word. -/
theorem witness_RecoveryFramesRun (data : List Byte) (hl : data.length = 160) (hk : (rom true 4 160 data).rcvOk 4 data = true)
    (crc : Word) (hc : crc ≠ Config.crc32 (wordBytes [0x04000000#32])) :
    (romIdle.active = true ∧ romIdle.dev.romRecovery = true ∧ romIdle.dev.pad.spit = true ∧
      bits 0x04000000#32 23 0 = ([] : List Word).length ∧ bits 0x04000000#32 31 24 = 4) ∧
    (bits 0x01000002#32 23 0 = [4#32, 160#32].length ∧ bits 0x01000002#32 31 24 = 1 ∧ romIdle.upd.session = none ∧
      (4#32).toNat ≤ 4 ∧ 0 < (160#32).toNat ∧ (160#32).toNat ≤ rcvSize (4#32).toNat ∧ ((4#32).toNat = 4 → (160#32).toNat = 160)) ∧
    (bits 0x02000002#32 23 0 = [2#32, 7#32].length ∧ bits 0x02000002#32 31 24 = 2 ∧
      (rom true 4 160 [1, 2]).upd.session = some { spi := true, target := 4, total := 160, data := [1, 2] } ∧
      [7#32].length ≤ 1024 ∧ (2#32).toNat = 2 ∧ 2 ≤ 160 ∧ 4 * [7#32].length ≤ 160 - 2 + 3 ∧ (rom true 4 160 [1, 2]).active = true) ∧
    (bits 0x03000000#32 23 0 = ([] : List Word).length ∧ bits 0x03000000#32 31 24 = 3 ∧ ([] : List Byte).length ≠ 160) ∧
    ((rom true 4 160 data).upd.session = some { spi := true, target := 4, total := 160, data := data } ∧ data.length = 160 ∧
      (rom true 4 160 data).rcvOk 4 data = true) ∧
    (bits 0x01000000#32 23 0 = ([] : List Word).length ∧ bits 0x01000000#32 31 24 = 1 ∧ (rom false 4 160 [1]).active = true ∧
      (rom false 4 160 [1]).dev.romRecovery = true ∧ (rom false 4 160 [1]).dev.pad.spit = true ∧
      (rom false 4 160 [1]).upd.session = some { spi := false, target := 4, total := 160, data := [1] }) ∧
    crc ≠ Config.crc32 (wordBytes [0x04000000#32]) :=
  ⟨by decide +kernel, by decide +kernel, by decide +kernel, by decide +kernel, ⟨rfl, hl, hk⟩, by decide +kernel, hc⟩

def qspi (q : QspiS) (w : List (Bool × List Byte)) : State :=
  { full with dev := { full.dev with pad := { PadState.reset with qspi := true } }, qspi := q, disp := { DispS.reset with waiting := w } }

theorem witness_MarchesAndQspiFramesRun :
    (takesB (host full) pSRAM 0x104 (pf0 5) = true ∧ (field (host full) pSRAM 0x104 (pf0 5)).getLsbD 0 = true) ∧
    (({ full with sram := { SramS.reset with targets := [1] } } : State).sram.targets = 1 :: [] ∧ full.sram.targets = []) ∧
    (takesB (withRegs (host full) pQSPI [(0x100, 1)]) pQSPI 0x11C (pf0 1) = true ∧
      (field (withRegs (host full) pQSPI [(0x100, 1)]) pQSPI 0x11C (pf0 1)).getLsbD 0 = true) ∧
    (let s := qspi { QspiS.reset with fwWait := 1 } []; s.active = true ∧ s.dev.pad.qspi = true ∧ s.qspi.bus = none ∧ 0 < s.qspi.fwWait) ∧
    (let s := qspi QspiS.reset [(false, [1])]; s.active = true ∧ s.qspi.bus = none ∧ s.qspi.fwWait = 0 ∧ s.disp.waiting = (false, [1]) :: []) ∧
    (let s := qspi { QspiS.reset with hostWait := true } []; s.qspi.bus = none ∧ s.qspi.fwWait = 0 ∧ s.disp.waiting = [] ∧ s.qspi.hostWait = true) ∧
    ((qspi { QspiS.reset with bus := some .fw } []).qspi.bus = some .fw ∧
      (qspi { QspiS.reset with bus := some .disp } []).qspi.bus = some .disp ∧ QspiS.reset.busInit = false ∧
      (qspi { QspiS.reset with bus := some .host } []).qspi.bus = some .host) ∧
    (QspiS.reset.hf.len = 0 ∧
      (let s := qspi { QspiS.reset with bus := some .host, hf := { QspiS.reset.hf with len := 1 } } [];
        s.qspi.bus = some .host ∧ s.qspi.hf.len ≠ 0 ∧ (s.pcie.fns[(0 : Fn)]).bme = false)) := by
  decide +kernel

def spi (tx rx : List Word) : State :=
  { host full with dev := { full.dev with pad := { PadState.reset with spit := true } }, spit := { SpitS.reset with tx := tx, rx := rx } }

theorem witness_SpiTargetMovesWords :
    ((spi [] []).active = true ∧ (spi [] []).dev.pad.spit = true ∧ (spi [] []).dev.romRecovery = false ∧
      (spi [] (List.replicate 63 0)).spit.rx.length < 64 ∧ 64 ≤ (spi [] (List.replicate 64 0)).spit.rx.length ∧
      (spi [5] []).spit.tx = 5 :: [] ∧ (spi [] []).spit.tx = []) ∧
    (let s := spi (List.replicate 64 0) [];
      s.reach .pf0 pSPIT 0x108 = .at_ (errAddr (4096 * pSPIT.1 + 0x108) 0 0) ∧
        (s.touchPage .pf0 pSPIT).regAt pSPIT 0x108 = some (regOf s pSPIT 0x108 (pf0 9)) ∧ (pf0 9).be = 15#4 ∧
        (s.hdr[pSPIT]).locked = false ∧ 64 ≤ s.spit.tx.length) ∧
    (takesB (spi (List.replicate 63 0) []) pSPIT 0x108 (pf0 9) = true ∧ takesB (spi [] [1]) pSPIT 0x110 (pf0 1) = true ∧
      (field (spi [] [1]) pSPIT 0x110 (pf0 1)).getLsbD 0 = true ∧
      takesB (spi [] []) pSPIT 0x100 (pf0 0x101) = true ∧ bits (field (spi [] []) pSPIT 0x100 (pf0 0x101)) 1 0 ≠ (spi [] []).spitWord.toNat ∧
      takesB (spi [] []) pSPIT 0x100 (pf0 0x100) = true ∧
      bits (field (spi [] []) pSPIT 0x100 (pf0 0x100)) 1 0 = (spi [] []).spitWord.toNat) := by
  decide +kernel

/-- A node with the fleet key `f` and its identity key, on a board whose fleet hash is `h`. -/
def node (f : Option Wide) (h : Hash) : State :=
  { host full with
    dev := { full.dev with accept0 := 0x20 }
    boot := { full.boot with desc := some { board with fleetHash := h } }
    sign := { SignS.reset with identity := some 1 }
    nvm := { Nvm.reset with fleetKey := f } }

/-- The hash of the key that the registers hold at reset. -/
def fleet : Hash := Config.sha256 (List.replicate 64 0)

/-- Hashes and signatures are functions of Config that are left free: the fleet hash of the board is the key's or another's, and
the second premise names a certificate that checks. -/
theorem witness_FabricRegistersAct (cert : List (Nat × Word))
    (hk : let s := withRegs (node (some 1) 0) pVFR cert;
      certOk 1 (s.regBytes pVFR 0xA00 32) = true ∧ certSerial (s.regBytes pVFR 0xA00 32) = Config.serial ∧
        certKey (s.regBytes pVFR 0xA00 32) = Config.compressPub (Config.ecPub 1) ∧ certAddr (s.regBytes pVFR 0xA00 32) = board.node)
    (hv : takesB (withRegs (node (some 1) 0) pVFR cert) pVFR 0xAC0 (pf0 2) = true) :
    (∀ h : Hash, h = fleet ∨ h = fleet + 1 → takesB (node none h) pVFR 0xAC0 (pf0 1) = true ∧
      (field (node none h) pVFR 0xAC0 (pf0 1)).getLsbD 0 = true ∧ (field (node none h) pVFR 0xAC0 (pf0 1)).getLsbD 1 = false ∧
      (node none h).regBytes pVFR 0xA80 16 = List.replicate 64 0) ∧
    (∀ h, (node none h).boot.desc = some { board with fleetHash := h }) ∧
    (Config.sha256 (List.replicate 64 0) = fleet ∧ Config.sha256 (List.replicate 64 0) ≠ fleet + 1) ∧
    (let s := withRegs (node (some 1) 0) pVFR cert;
      takesB s pVFR 0xAC0 (pf0 2) = true ∧ s.nvm.fleetKey = some 1 ∧ s.boot.desc = some { board with fleetHash := 0 } ∧
        s.sign.identity = some 1 ∧ certOk 1 (s.regBytes pVFR 0xA00 32) = true ∧ certSerial (s.regBytes pVFR 0xA00 32) = Config.serial ∧
        certKey (s.regBytes pVFR 0xA00 32) = Config.compressPub (Config.ecPub 1) ∧ certAddr (s.regBytes pVFR 0xA00 32) = board.node) ∧
    (takesB (node none 0) pVFR 0xAC0 (pf0 2) = true ∧ (field (node none 0) pVFR 0xAC0 (pf0 2)).getLsbD 0 = false ∧
      (field (node none 0) pVFR 0xAC0 (pf0 2)).getLsbD 1 = true ∧ (node none 0).nvm.fleetKey = none) ∧
    (takesB (node none 0) pVFR 0xB18 (pf0 1) = true ∧ (field (node none 0) pVFR 0xB18 (pf0 1)).getLsbD 0 = true ∧
      (node none 0).hasFeat 0 5 = true) := by
  refine ⟨?_, fun _ => rfl, ⟨rfl, ?_⟩, ⟨hv, rfl, rfl, rfl, hk.1, hk.2.1, hk.2.2.1, hk.2.2.2⟩, by decide +kernel, by decide +kernel⟩
  · rintro h (rfl | rfl) <;> decide +kernel
  · show fleet ≠ fleet + 1
    generalize fleet = x
    bv_omega

theorem witness_CaptureReadsCapture :
    readsB (host full) pPWR 0x128 = true ∧ readsB (host full) pHQM 0x100 = true ∧ readsB (host full) pMED 0x100 = true ∧
    readsB (host full) pBPM 0x100 = true ∧ (∀ n : Fin 4, readsB (host full) (pVFL n) 0x120 = true) ∧
    readsB (host full) pMTR 0x120 = true ∧ readsB (host full) pMTR 0x104 = true ∧ readsB (host full) pMTR 0x144 = true ∧
    readsB (host full) pSEAL 0x104 = true ∧ readsB (host full) pEVR 0x104 = true ∧ readsB (host full) pMIR 0x140 = true := by
  decide +kernel

/-! ## Witnesses: the endpoint -/

/-- PERST released and the link up. -/
def linked : State := let s := host full; { s with pins := { s.pins with perst := true }, pcie := { s.pcie with numVfs := 7 } }

def unlinked : State := { linked with pcie := { linked.pcie with dlUp := false } }

theorem witness_FunctionsAndLinksReset :
    (linked.linkDeaf = false ∧ linked.pins.perst = true ∧ linked.pcie.dlUp = true) ∧
    (full.awake = true ∧ full.pins.perst = false) ∧
    (unlinked.awake = true ∧ unlinked.pins.perst = true ∧ unlinked.pcie.dlUp = false ∧ unlinked.squall.running = false) ∧
    (linked.awake = true ∧ linked.pins.perst = true ∧ linked.pcie.dlUp = true ∧ linked.pcie.speed ≠ 3#3 ∧ linked.pcie.width = 0#3 ∧
      linked.pcie.speed = 0#3 ∧ ltssmLegal true 13#5 = true ∧ unlinked.pcie.dlUp = false) ∧
    (linked.cfgOpen 0 = true ∧ linked.cfgOpen 7 = true ∧ linked.pcie.vfEnable = false) ∧
    (let s := { linked with pcie := { linked.pcie with vfEnable := true } }; s.cfgOpen 0 = true ∧ s.pcie.vfEnable = true) := by
  decide +kernel

theorem witness_TheEndpointAnswers :
    (linked.cfgOpen 0 = true ∧ (linked.pcie.fns[(0 : Fn)]).bme = true ∧ (linked.pcie.fns[(0 : Fn)]).d3hot = false ∧
      linked.barOpen 0 = true ∧ (71 : Fin 72).1 < msixVectors 0 ∧ linked.dev.level ≠ .none) ∧
    (let s := { linked with dev := { linked.dev with level := .none } }; s.cfgAnswers = true ∧ s.claimed 7 = true ∧ s.dev.level = .none ∧
      ∀ vec dw be v, CfgReq.read 0 ≠ .msixWrite vec dw be v) ∧
    (let s := { linked with pcie := { linked.pcie with squallUr := true } };
      s.awake = true ∧ s.pins.perst = true ∧ s.pcie.dlUp = true ∧ s.pcie.squallUr = true) ∧
    (LinkError.badTlp ≠ .ecrc ∧ (linkErrorBit .badTlp).1 = true ∧ (linkErrorBit .malformed).1 = false ∧ ∀ e, UrKind.memRead ≠ .link e) ∧
    (let s := linked.updFn 1 (fun f => { f with mse := false });
      s.awake = true ∧ s.pcie.dlUp = true ∧ s.barOpen 1 = false ∧ s.pcie.squallUr = false) ∧
    (let s := { linked with pcie := { linked.pcie with staleReads := [(9, (1, 64, 0))] } };
      s.awake = true ∧ s.pcie.dlUp = true ∧ s.pcie.staleReads.find 9 = some (1, 64, 0) ∧ 64 ≤ 64 ∧ 63 < 64 ∧
        s.pcie.staleReads.find 8 = none) ∧
    (let s := { linked.updFn 0 (fun f => { f with aspmL1 := true, l1ss := 4 }) with now := 32 };
      s.awake = true ∧ s.pcie.dlUp = true ∧ (s.pcie.fns[(0 : Fn)]).aspmL1 = true ∧ s.pcie.pmState = 0#3 ∧
        (s.pcie.fns[(0 : Fn)]).d3hot = false ∧ s.pcie.idleAt + bits (s.reg pPCIE 0x108 32#32) 15 0 ≤ s.now ∧
        (s.pcie.fns[(0 : Fn)]).l1ss.getLsbD 2 = true) := by
  and_intros
  all_goals first
    | exact fun _ _ _ _ h => nomatch h
    | exact fun _ h => nomatch h
    | decide +kernel

/-! ## Witnesses: resets, power, the start, the ports of the board -/

/-- In Squall, at a step or in the final hold. -/
def inSquall (step : Nat) (hold : Bool) (causes : Byte) : State :=
  { full with squall := { SquallS.reset with running := true, step := step, hold := hold, causes := causes } }

theorem witness_ResetsAndStraps :
    (999 < 1000 ∧ 1100 < 1101 ∧ full.pins.resetIn = true ∧ full.squall.running = false ∧ Instr.pfailLFall ∉ full.pending) ∧
    (let s := { full with pending := [.pfailLFall] }; s.pins.resetIn = true ∧ s.active = true ∧ Instr.pfailLFall ∈ s.pending) ∧
    ((inSquall 3 false 1).pins.resetIn = true ∧ (inSquall 3 false 1).squall.running = true ∧ (inSquall 3 false 1).squall.hold = false ∧
      Instr.pfailLFall ∉ (inSquall 3 false 1).pending) ∧
    (1000 ≤ 1000 ∧ 1100 ≤ 1100) ∧ (State.reset.pins.resetIn = false ∧ State.reset.squall.running = false) ∧
    (up.awake = true ∧ up.boot.strapsIn = false ∧ up.squall.running = false ∧ up.boot.booted = none ∧ full.boot.strapsIn = true) := by
  decide +kernel

theorem witness_ClockLossAndSquall :
    (full.awake = true ∧ 1440 ≤ (1440#16).toNat ∧ (1440#16).toNat ≤ 1760 ∧ (1760#16).toNat ≤ 1760 ∧ (1439#16).toNat < 1440 ∧
      1760 < (1761#16).toNat) ∧
    (let s := { full with clk := { full.clk with tripped := true } };
      s.awake = true ∧ s.clk.tripped = true ∧ s.clk.backup = false ∧ s.squall.running = false) ∧
    (full.active = true ∧ (inSquall 3 false 1).awake = true ∧ (inSquall 3 false 1).squall.running = true ∧
      full.boot.desc = some board ∧ 10799 < board.vsupTrip ∧ board.vsupTrip ≤ 10800 ∧ full.dev.romRecovery = false ∧
      full.dbg.halted = 0#4 ∧ (tapped 0x1F false 0).dbg.halted ≠ 0#4) ∧
    ((inSquall 1 false 1).squall.hold = false ∧ (inSquall 1 false 1).stepDone = true ∧
      (let s := { inSquall 3 false 1 with med := { MedS.reset with ops := [(0, flashOp 1 (.program 0 0 1))] } };
        s.squall.running = true ∧ s.squall.hold = false ∧ s.stepDone = false)) ∧
    -- PFAIL_L alone, the supply alone, and both
    (∀ (t : Nat) (causes : Byte), (t = 99999 ∨ t = 100000) → (causes = 1 ∨ causes = 2 ∨ causes = 3) →
      let s := { inSquall 11 true causes with now := t };
      s.squall.hold = true ∧ s.squall.causes &&& 3#8 ≠ 0#8 ∧ s.squall.clock = false ∧
        (t = 100000 → s.aon.pfailAt + t ≤ s.now ∧ 100000 ≤ t ∧ s.aon.vsupAt + 100000 ≤ s.now) ∧
        (t = 99999 → s.squall.causes.getLsbD 0 = true ∧ t < 100000 ∨ s.squall.causes.getLsbD 1 = true ∧ s.now < s.aon.vsupAt + 100000)) ∧
    (∀ t : Nat, t = 59999999 ∨ t = 60000000 → let s := { inSquall 11 true sqTHERMAL with now := t, aon := { AonS.reset with thermals := 1 } };
      s.squall.hold = true ∧ s.squall.causes = sqTHERMAL ∧ (t = 60000000 → s.squall.holdAt + thermalWait s.aon.thermals ≤ s.now) ∧
        (t = 59999999 → s.now < s.squall.holdAt + thermalWait s.aon.thermals)) := by
  refine ⟨by decide +kernel, by decide +kernel, by decide +kernel, by decide +kernel, ?_, ?_⟩
  · rintro t c (rfl | rfl) (rfl | rfl | rfl) <;> decide +kernel
  · rintro t (rfl | rfl) <;> decide +kernel

def domain (st : DomSt) (now : Nat) : State :=
  { full with now := now, pwr := { PwrS.reset with doms := Vector.replicate 5 { Domain.reset with st := st } } }

/-- The PMIC's port on, in a state of the hold-up probe. -/
def pmic (probe : ProbeStep) (now : Nat) : State :=
  { full with
    now := now
    dev := { full.dev with pad := { PadState.reset with i2ci := true } }
    boot := { full.boot with replayed := true }
    pwr := { PwrS.reset with probe := probe } }

theorem witness_DomainsAndTheProbe :
    (∀ d : Fin 5, let s := domain .on 2000; s.active = true ∧ (s.reg pPWR 0x100 0x7C#32).getLsbD (2 + d.1) = true ∧
      (s.pwr.doms[d]).st = .on ∧ (s.pwr.doms[d]).readyAt ≤ s.now ∧
      (s.pwr.doms[d]).idleAt + 10 * bits (s.reg pPWR 0x108 200#32) 15 0 ≤ s.now ∧ s.domQuiet d = true) ∧
    (∀ d : Fin 5, (domain .fenced 0).awake = true ∧ ((domain .fenced 0).pwr.doms[d]).st = .fenced ∧ (domain .fenced 0).domInFlight d = 0 ∧
      (domain .fenced 0).active = true ∧ ((domain .fenced 0).pwr.doms[d]).st ≠ .on) ∧
    (let s := withRegs { full with now := 10000 } pPWR [(0x100, 0x7D)];
      s.active = true ∧ s.pwr.lull = false ∧ (s.reg pPWR 0x100 0x7C#32).getLsbD 0 = true ∧ s.noCommands = true ∧
        s.probeRunning = false ∧ s.pwr.probeDue = false ∧ s.med.moves = [] ∧ s.med.copies = [] ∧ s.med.ops = [] ∧ s.aon.passOn = false ∧
        s.pwr.idleSince + 100 * bits (s.reg pPWR 0x10C 100#32) 15 0 ≤ s.now ∧ s.fabQuiet = true) ∧
    ({ full with pwr := { PwrS.reset with lull := true } } : State).pwr.lull = true ∧
    (let s := domain .off 1000000; s.active = true ∧ s.dev.level = .full ∧ (s.pwr.doms[(4 : Fin 5)]).st = .off ∧
      (s.pwr.doms[(4 : Fin 5)]).idleAt + 1000000 ≤ s.now) ∧
    (let s := pmic .idle 0; s.boot.desc = some board ∧ s.i2ciFree = true ∧ (board.ofRole 2).head? = some 2 ∧ s.pwr.noProbe = false ∧
      s.i2ci.initNext = none ∧ s.probeRunning = false ∧ s.probeIsDue = true ∧ s.folding = false ∧ s.pwr.lull = false) ∧
    (let s := pmic .charging 2100; s.boot.desc = some board ∧ s.i2ciFree = true ∧ (board.ofRole 3).head? = some 3 ∧
      s.pwr.probe = .charging ∧ s.pwr.loadAt + 2100 ≤ s.now ∧
      entryMatches (board.entry 3) (([0x5A] : List Byte).take (fieldLe (board.entry 3) 3 1)) = true) ∧
    (let s := pmic .loaded 100000; s.boot.desc = some board ∧ s.i2ciFree = true ∧ (board.ofRole 4).head? = some 4 ∧
      s.pwr.probe = .loaded ∧ s.pwr.loadAt + 1000 * board.tLoad ≤ s.now ∧
      entryMatches (board.entry 4) (([0x5A] : List Byte).take (fieldLe (board.entry 4) 3 1)) = true) := by
  decide +kernel

def unboundEnt : PolicyEnt :=
  { binding := 0, vf := 0, convGib := 0, openMax := 0, quota := 0, heldMax := 0, evidMax := 0, withhold := 0, tagLimit := 0,
    holdMin := 0 }

/-- At a level of a start, 200 µs after the DRAM's power stood, with the policy block read. -/
def starting (l : Level) (nand dram : Bool) : State :=
  { at_ l with
    now := 200
    dev := { DevS.reset with level := l, pad := { PadState.reset with dram := nand, i2ci := nand } }
    boot := { full.boot with
      desc := some board, nandOk := nand, dramOk := dram
      policy := some { seq := 1, metering := [], ents := Vector.replicate 64 unboundEnt } } }

def answers (id : DWord) : List TargetResult :=
  (List.finRange 8).flatMap (fun ch => ([0, 1] : List (Fin 8)).map (fun ce =>
    answered ch ce true id true))

/-- The hash of the extended part is a function of Config that is left free: the first premise names an image whose header holds it. -/
theorem witness_StartChecksPass (nor : Memory)
    (hn : let s := { starting .gust true true with nvm := { Nvm.reset with nor := nor } };
      Config.sha256 (s.norAt (slotBase false + 256 + fieldLe (s.slotHeader false) 0x14 4) (fieldLe (s.slotHeader false) 0x18 4)) =
        hashOf (slice (s.slotHeader false) 0x40 32)) :
    (let s := starting .none false false;
      s.boot.desc = some board ∧ s.active = true ∧ s.boot.policy.isSome = true ∧ s.boot.nandOk = false ∧ s.dev.level = .none ∧
        nandFailures board (board.targets.map (targetAnswer (answers 0))) = [] ∧
        nandFailures board (board.targets.map (targetAnswer (answers 1))) ≠ []) ∧
    (let s := starting .gust true false;
      let good : Vector LaneSweep 5 := Vector.replicate 5 { rd := 0xFF, wr := 0xFF };
      let bad : Vector LaneSweep 5 := good.set 3 { rd := 0, wr := 0xFF };
      s.boot.desc = some board ∧ s.active = true ∧ s.dev.pad.dram = true ∧ s.boot.dramOk = false ∧ s.dev.level = .gust ∧
        s.dev.dramPins.at_ + 200 ≤ s.now ∧ (good.toList.take (laneCount board.dramType)).any laneFailed = false ∧
        ([] : List Byte) = board.dramMr ∧ board.dramGib ≤ 4 ∧ (bad.toList.take (laneCount board.dramType)).any laneFailed = true) ∧
    (let s := starting .gust true true;
      s.boot.booted = some false ∧ s.boot.dramOk = true ∧ s.boot.extOk = false ∧ s.dev.level = .gust) ∧
    (let s := { starting .gust true true with nvm := { Nvm.reset with nor := nor } };
      Config.sha256 (s.norAt (slotBase false + 256 + fieldLe (s.slotHeader false) 0x14 4) (fieldLe (s.slotHeader false) 0x18 4)) =
        hashOf (slice (s.slotHeader false) 0x40 32)) :=
  ⟨by decide +kernel, by decide +kernel, by decide +kernel, hn⟩

def gustZone : Zone := { zoneSt .open_ with inGustSet := true, used := true }

theorem witness_ServiceLevelsAreReached :
    (let s := starting .none true false; s.active = true ∧ s.dev.level = .none ∧ s.dev.romRecovery = false ∧ s.boot.nandOk = true ∧
      s.boot.policy.isSome = true ∧ s.pmicSettled = true ∧ (0x18#5).getLsbD 3 = true ∧ (0x18#5).getLsbD 4 = true ∧
      (0x08#5).getLsbD 4 = false ∧ (0x10#5).getLsbD 3 = false) ∧
    (let s := { at_ .gust with boot := { full.boot with extOk := true } };
      s.active = true ∧ s.dev.level = .gust ∧ s.boot.extOk = true ∧ s.boot.replayed = false) ∧
    (let s := withZone (nearFull 3) gustZone; s.active = true ∧ s.zone (5 : BitVec 20).toNat = some gustZone ∧ s.dev.level = .gust ∧
      s.boot.replayed = true ∧ gustZone.toMerge = true ∧ s.probeSettled = true ∧ s.inFlightTo (5 : BitVec 20).toNat = false) ∧
    (let s := nearFull 3; s.active = true ∧ s.boot.desc = some board ∧ s.dev.level = .gust ∧ s.boot.replayed = true ∧
      s.boot.dramOk = true ∧ s.probeSettled = true ∧ s.nvm.zones.any (fun p => p.2.toMerge) = false) ∧
    (let s := starting .gust true false; s.active = true ∧ s.checkFails 0x12 0 = true ∧ full.active = true ∧ full.checkFails 0x12 0 = false) := by
  decide +kernel

def moving (m : Motion) (level : Bool) (now : Nat) (changes : List Nat) : State :=
  { full with now := now, pins := { full.pins with vmotion := level }, gpio := { GpioS.reset with motion := m, changes := changes } }

theorem witness_DiscreteInputsAct :
    ((at_ .gust).active = true ∧ (at_ .gust).dev.level ≠ .full ∧ State.reset.awake = false ∧ (inSquall 3 false 1).awake = true ∧
      (inSquall 3 false 1).squall.running = true) ∧
    ((moving .stationary false 0 (List.replicate 7 0)).awake = true ∧
      true ≠ (moving .stationary false 0 (List.replicate 7 0)).pins.vmotion ∧
      7 ≤ ((moving .stationary false 0 (List.replicate 7 0)).gpio.changes.filter (fun a => 0 < a + 10000000)).length ∧
      ((moving .stationary false 0 (List.replicate 6 0)).gpio.changes.filter (fun a => 0 < a + 10000000)).length < 7) ∧
    (let s := moving .moving false 30000000 []; s.awake = true ∧ s.pins.vmotion = false ∧ s.gpio.motion = .moving ∧
      s.gpio.changeAt + 30000000 ≤ s.now) ∧
    (let s := moving .stationary true 2000000 []; s.awake = true ∧ s.pins.vmotion = true ∧ s.gpio.motion = .stationary ∧
      s.gpio.changeAt + 2000000 ≤ s.now) ∧
    (let s := withRegs full pGPIO [(0x108, 0xF)]; ∀ n : Fin 4, s.awake = true ∧ s.boot.desc = some board ∧ board.gpio n.1 0 = 0 ∧
      s.pins.gpio.getLsbD n.1 = false ∧ (s.reg pGPIO 0x108 0#32).getLsbD n.1 = true) := by
  decide +kernel

def scripted (i : I2ciS) (now : Nat) : State := { pmic .idle now with i2ci := i }

theorem witness_TheScriptRuns :
    (let s := scripted { I2ciS.reset with initNext := some 1 } 0;
      s.boot.desc = some board ∧ s.i2ciFree = true ∧ s.i2ci.initNext = some (1 : Fin 20).1 ∧ s.i2ci.initAt ≤ s.now ∧
        board.role (1 : Fin 20).1 = 1 ∧ s.i2ci.tries < 2 ∧
        entryMatches (board.entry (1 : Fin 20).1) (([0x5A] : List Byte).take (fieldLe (board.entry (1 : Fin 20).1) 3 1)) = true) ∧
    (let s := scripted { I2ciS.reset with initNext := some 0, retryIdx := some 0, tries := 1 } 0;
      s.active = true ∧ s.i2ci.stuck = false ∧ s.i2ci.retryIdx = some 0 ∧ s.i2ci.retryAt ≤ s.now ∧ board.role 0 = 1 ∧
        entryMatches (board.entry 0) (([0x5A] : List Byte).take (fieldLe (board.entry 0) 3 1)) = true) ∧
    (let s := scripted I2ciS.reset 1000000;
      (board.ofRole 5).head? = some 5 ∧ s.i2ciFree = true ∧ s.i2ci.ended = false ∧ s.i2ci.initNext = none ∧ s.probeRunning = false ∧
        0 < fieldLe board.script 4 1 ∧ s.i2ci.statusAt + fieldLe board.script 4 1 * 1000000 ≤ s.now) ∧
    (let s := scripted I2ciS.reset 0; s.active = true ∧ s.dev.pad.i2ci = true ∧ s.i2ci.stuck = false) ∧
    (let s := scripted { I2ciS.reset with stuck := true } 60000000;
      s.active = true ∧ s.i2ci.stuck = true ∧ s.i2ci.stuckAt + 60000000 ≤ s.now) := by
  decide +kernel

/-- The I²C target on, with I2CT_CTRL at a value. -/
def i2c (l : Level) (ctrl : Word) : State :=
  withRegs { at_ l with dev := { (at_ l).dev with pad := { PadState.reset with i2ct := true } } } pI2CT [(0x100, ctrl)]

theorem witness_TheI2cTargetAnswers :
    ((i2c .full 0).i2cOn = true ∧ (i2c .full 0).pecOn = false ∧ (3#8).toNat < 4 ∧ (i2c .full 2).i2cOn = true ∧ (i2c .full 2).pecOn = true ∧
      (i2c .full 0).i2cWritable (Fin.ofNat 128 ((0x1000#32).toNat / 4096)) = false) ∧
    ((i2c .gust 0).i2cOn = true ∧ (i2c .gust 0).pecOn = false ∧ (i2c .gust 0).i2ct.meterSt ≠ 1#2 ∧ (i2c .gust 0).dev.level ≠ .full) ∧
    (1 ≤ (1#8).toNat ∧ (32#8).toNat ≤ 32) ∧
    (let s := { i2c .full 0 with i2ct := { I2ctS.reset with readN := some 32 } }; s.i2cOn = true ∧ s.i2ct.readN = some 32) ∧
    ((i2c .full 2).i2ct.readN = none) ∧
    (let s := { i2c .full 1 with i2ct := { I2ctS.reset with alert := true } }; s.i2cOn = true ∧ s.alertEn = true ∧ s.i2ct.alert = true) := by
  decide +kernel

/-! ## Witnesses: flash, maps, buffers, DRAM, records -/

def ops (l : List (Nat × FlashOp)) : State := { full with med := { MedS.reset with ops := l } }

/-- An SLC superblock with one conventional block in it, and its map entry. -/
def slcBlock : Superblock :=
  { group := 0, blocks := [(0, 9)], use := .slc, stream := 0, open_ := false, slots := 1, pieces := [(0, .conv 1 5 1)], reads := [],
    age := 0, listed := false, scrubbed := 0, scrubRow := 0, parity := 0, unmapped := false, seq := 1 }

def mapped : ConvBlk := { cipher := [], poison := false, unreadable := false, seq := 1, onMedia := true, old := none }

def stored (b : Superblock) (now : Nat) : State :=
  { full with now := now, nvm := { Nvm.reset with sbs := [(0, b)], conv := [(convKey 1 5, mapped)] } }

def hostRead : FlashOp := { flashOp 3 (.read 0 0 (.host 3 0)) with issued := false }
def refreshErase : FlashOp := flashOp 6 (.erase 0 9)

/-- Whether a die can suspend an erase is its identity's, a function of Config that is left free. -/
theorem witness_FlashOperationsRun (hs : Config.suspendSupport board.nandId = true) :
    (let s := ops [(7, hostRead), (8, refreshErase)];
      s.med.ops.find 7 = some hostRead ∧ s.boot.desc = some board ∧ s.nextIssue board hostRead.die = some (7, hostRead) ∧
        s.mediaOn = true ∧ s.chanOn (hostRead.die.1 / 32) = true ∧ s.dbg.seqHalted.getLsbD (hostRead.die.1 / 32) = false ∧
        s.nvm.failedDies.contains hostRead.die.1 = false ∧ s.inFlight (fun _ => true) < 512 ∧
        s.inFlight (fun o => o.die.1 / 32 = hostRead.die.1 / 32) < 64 ∧ s.inFlight (fun o => o.die = hostRead.die) < 2 ∧
        hostRead.cls = 3 ∧ hostRead.isRead = true ∧ s.boot.noParams = false ∧
        ∃ p ∈ s.med.ops, p.2.die = hostRead.die ∧ p.2.issued = true ∧ p.2.isErase = true ∧ p.2.cls = 6 ∧ p.2.suspended = false ∧
          p.2.suspends < 4) ∧
    Config.suspendSupport board.nandId = true ∧
    (let op := { flashOp 2 (.program 0 0 1) with issued := false }; let s := ops [(7, op)];
      s.nextIssue board op.die = some (7, op) ∧ op.cls ≠ 3 ∧ op.isRead = false) ∧
    (let op := { refreshErase with suspended := true }; let s := ops [(8, op)];
      s.med.ops.find 8 = some op ∧ op.suspended = true ∧ s.squall.running = false ∧
        s.med.ops.any (fun p => p.2.die = op.die && p.2.cls = 3 && !p.2.softWait && !p.2.rebuildsPending) = false) ∧
    (let op := { flashOp 2 (.program 0 0 1) with bufs := [0x80000] };
      let s := { stored slcBlock 0 with med := { MedS.reset with ops := [(7, op)] }, bpm := (buffered (.conv 1 0 0)).bpm };
      s.med.ops.find 7 = some op ∧ s.boot.desc = some board ∧ op.kind = .program 0 0 1 ∧ op.issued = true ∧
        s.nvm.sbs.find 0 = some slcBlock ∧ slcBlock.blocks.find? (fun x => x.1 = op.die.1) = some (op.die.1, 9) ∧
        ((s.med.dies.find op.die.1).getD { fails := 0, passed := 0, lastAt := 0 }).fails < 15 ∧
        s.nvm.failedDies.contains op.die.1 = false ∧ 0x80000 ∈ op.bufs ∧
        ∀ b, s.bpm.bufs.find 0x80000 = some b → b.quarantined = false) ∧
    ((ops [(8, refreshErase)]).med.ops.find 8 = some refreshErase ∧ refreshErase.kind = .erase 0 9 ∧ refreshErase.issued = true ∧
      refreshErase.suspended = false ∧ (ops [(8, refreshErase)]).med.rewrites = []) := by
  and_intros
  all_goals first
    | exact hs
    | exact ⟨(8, refreshErase), by decide +kernel⟩
    | (intro b h; obtain rfl := Option.some.inj (show some (Buf.fresh .stream 0 3 1 (.conv 1 0 0) []) = some b from h); rfl)
    | decide +kernel

theorem witness_TheReadLadderRuns :
    (let op := { hostRead with issued := true };
      let s := { stored slcBlock 0 with med := { MedS.reset with ops := [(7, op)] } };
      s.med.ops.find 7 = some op ∧ op.kind = .read 0 0 (.host 3 0) ∧ op.issued = true ∧ s.boot.noParams = false ∧
        4 < (5 : Fin 16).1 ∧ s.nvm.sbs.find 0 = some slcBlock ∧ s.med.softIn.length < 4) ∧
    (let op := { hostRead with softWait := true };
      let s := { full with med := { MedS.reset with ops := [(7, op)], softIn := [7, 8], softQ := [9] } };
      s.med.ops.find 7 = some op ∧ op.kind = .read 0 0 (.host 3 0) ∧ s.med.softIn = 7 :: [8] ∧ SoftResult.twoBit ≠ .failed) ∧
    (let op := { hostRead with rebuildsPending := true };
      let s := withCmd { stored slcBlock 0 with med := { MedS.reset with ops := [(7, op)] } } readC;
      s.med.ops.find 7 = some op ∧ op.rebuildsPending = true ∧ s.dbg.halted.getLsbD 1 = false ∧ s.nvm.sbs.find 0 = some slcBlock ∧
        s.doubleLoss slcBlock = false ∧ s.cmd 3 = some readC ∧ readC.mediaFail = none) := by
  decide +kernel

def lined (l : Line) (now : Nat) : State := { full with now := now, med := { MedS.reset with dir := [(4, l)] } }

theorem witness_TheMapMoves :
    (let c := { cmd0 (desc0 0x05) [] with phase := .waiting };
      let s := withCmd { full with med := { MedS.reset with journal := 1, journalAt := some 0 } } c;
      s.mediaOn = true ∧ s.squall.running = false ∧ s.dev.level = .full ∧ s.med.journalAt.isSome = true ∧ s.cmd 3 = some c ∧
        c.desc.opc = 0x05#8 ∧ c.phase = .waiting) ∧
    full.med.dir.find 4 = none ∧
    (let l : Line := { owner := some .gc, wb := false, at_ := 0, queue := [] };
      (lined l 0).med.dir.find 4 = some l ∧ l.owner ≠ some .host ∧ Walker.host ∉ l.queue ∧ l.owner = some .gc) ∧
    (let l : Line := { owner := some .gc, wb := false, at_ := 0, queue := [.host] };
      (lined l 1).med.dir.find 4 = some l ∧ l.owner.isSome = true ∧ l.queue ≠ [] ∧ l.at_ + 1 ≤ (lined l 1).now) ∧
    (let l : Line := { owner := none, wb := true, at_ := 0, queue := [] }; (lined l 0).med.dir.find 4 = some l ∧ l.wb = true ∧ l.queue = []) ∧
    (let l : Line := { owner := none, wb := true, at_ := 0, queue := [.host, .gc] };
      (lined l 0).med.dir.find 4 = some l ∧ l.wb = true ∧ l.queue = .host :: [.gc] ∧
        ∀ m ∈ (lined l 0).med.moves, m.walker = .gc → m.programmed = false) := by
  decide +kernel

/-- A board of two blocks a plane, so that no four superblocks can be free. -/
def smallBoard : BoardDesc := { board with blocksPerPlane := 2 }

theorem witness_CopiesLoseNothing :
    (let s := stored slcBlock 100000; s.boot.desc = some board ∧ s.copying = true ∧ s.probeRunning = false ∧
      s.foldPick = some (0, slcBlock, .conv 1 5 1) ∧ s.foldItems 0 slcBlock (.conv 1 5 1) ≠ []) ∧
    (full.boot.desc = some board ∧ full.copying = true ∧ full.foldPick = none) ∧
    (let m : Move := { walker := .eddy, src := 0, dst := 1, items := [(0, 0, .conv 1 5 1)], programmed := true };
      let l : Line := { owner := some .eddy, wb := false, at_ := 0, queue := [] };
      let s := { full with med := { MedS.reset with moves := [m], dir := [(2 ^ 24 + convKey 1 5 / 12, l)] } };
      s.copying = true ∧ s.med.moves.find? (fun m => m.walker = .eddy && m.programmed) = some m ∧
        ∀ it ∈ m.items, s.ownsLine .eddy it.2.2 = true) ∧
    (let b := { slcBlock with listed := true }; let s := stored b 0;
      s.copying = true ∧ s.nvm.sbs.find 0 = some b ∧ s.refreshDueFor board b = true ∧ s.inMove 0 = false) ∧
    (let s := { stored slcBlock 0 with med := { MedS.reset with scrubPass := true, scrubAt := 1 } };
      s.copying = true ∧ s.nvm.sbs.find 0 = some slcBlock ∧ slcBlock.use ≠ .free ∧ s.thr.level ≠ 7 ∧ s.med.scrubPass = true ∧
        slcBlock.scrubbed < s.med.scrubAt ∧ slcBlock.scrubRow * slcBlock.rowSlots board < slcBlock.slots) ∧
    (let s := { full with boot := { full.boot with desc := some smallBoard } };
      s.boot.desc = some smallBoard ∧ s.copying = true ∧ (0 : Fin 16).1 < smallBoard.groups ∧ s.thr.level ≠ 7 ∧ s.freeNative smallBoard 0 < 4) ∧
    (let b := { board with blocksPerPlane := 8 }; let s := { full with boot := { full.boot with desc := some b } };
      s.boot.desc = some b ∧ s.copying = true ∧ (0 : Fin 16).1 < b.groups ∧ 8 ≤ s.freeNative b 0) := by
  decide +kernel

/-- A buffer of a tenant's stream. -/
def buffer : Buf := { Buf.fresh .stream 0 3 1 (.conv 1 0 0) [] with crc := 0 }

def held (h : Nat) (b : Buf) : State := { full with bpm := { full.bpm with bufs := [(h, b)] } }

/-- A pool with `n` buffers left of the DRAM's. -/
def scarce (n : Nat) : State :=
  { full with bpm := { full.bpm with dram := { full.bpm.dram with fresh := 0x80000 + 20000 - n } } }

theorem witness_BuffersComeAndGo :
    (full.active = true ∧ Owner.ingest ≠ .none ∧ (full.bpm.pool (full.homeDram .ingest)).rebuild = false ∧
      (let s := scarce 1025; s.reserveOf .ingest < (s.bpm.pool (s.homeDram .ingest)).free ∧
        (PoolS.refill 64 (s.bpm.pool (s.homeDram .ingest))).cache.head? = some (0x80000 + 20000 - 1025)) ∧
      (let s := scarce 1024; s.active = true ∧ (s.bpm.pool (s.homeDram .ingest)).free ≤ s.reserveOf .ingest) ∧
      0 < (full.bpm.pool (full.homeDram .ingest)).free) ∧
    (let s := { full with bpm := { full.bpm with dram := { full.bpm.dram with rebuild := true } } };
      (s.bpm.pool (decide (Pool.dram = .dram))).rebuild = true) ∧
    ((held 5 buffer).bpm.bufs.find 5 = some buffer ∧ buffer.quarantined = false ∧ Owner.ingest ≠ .none ∧
      5 < (held 5 buffer).bpm.sram.top ∧ buffer.owner ≠ .none ∧ Owner.gc ≠ buffer.owner ∧
      (held 5 buffer).bpm.removedH.contains 5 = false ∧
      (let b := { buffer with quarantined := true }; (held 5 b).bpm.bufs.find 5 = some b ∧ b.quarantined = true ∧ b.owner ≠ .none)) ∧
    (isDram 0x80005 = true ∧ 0x80005 < (held 0x80005 buffer).bpm.dram.top ∧ (held 0x80005 buffer).bpm.bufs.find 0x80005 = some buffer) := by
  decide +kernel

/-- A critical record in the event buffer. -/
def bufRec (taken : Bool) : BufRec :=
  { ev := { seq := 4095, opTime := 0, cycles := 0, sev := 3, untrusted := false, rom := false, tenant := 0xFF, code := 1, utc := 0,
            detail := [] }
    at_ := 0, taken := taken }

def recorded (taken pass : Bool) : State :=
  { full with boot := { full.boot with tGust := some 0 }, aon := { AonS.reset with evBuf := [bufRec taken], passOn := pass } }

theorem witness_DramAndRecordsAreKept :
    (∀ n : Nat, n = 6 ∨ n = 7 → let s := { full with dram := { full.dram with lastRt := some 0, postponed := n } };
      s.dram.trained = true ∧ s.dram.refAt ≤ 1000 * s.now ∧ s.pwr.lull = false ∧ s.squall.hold = false ∧ s.rtActive = true ∧ (n = 6 → s.dram.postponed < 7) ∧
        (n = 7 → 7 ≤ s.dram.postponed)) ∧
    (full.rtActive = false ∧ full.active = true ∧ full.dram.trained = true ∧ full.pwr.lull = false ∧ full.squall.hold = false ∧
      full.dram.refAt ≤ 1000 * full.now ∧
      (let s := { full with dram := { full.dram with refAt := 1 } }; 1000 * s.now < s.dram.refAt) ∧
      (let s := { full with dram := { full.dram with patrolDay := some 0 } }; s.dram.patrolDay = some (s.opSecs / 86400)) ∧
      full.dram.patrolDay ≠ some (full.opSecs / 86400) ∧
      -- a word of a buffer, one of the controller's own, and one of each other memory
      full.region .dram ((full.mapMiB + 128) * 1048576) = .buffer 0x80000 ∧ full.region .dram 0 = .own ∧ full.bpm.bufs.find 0x80000 = none ∧ full.region .dataSram 0 ≠ .unused ∧
      full.region .handoff 65535 = .own ∧ full.region .coreLocal 1048575 = .own ∧ MemKind.handoff ≠ .dram ∧ MemKind.dataSram ≠ .dram) ∧
    (let s := recorded false false;
      s.active = true ∧ s.boot.tGust.isSome = true ∧ s.aon.passOn = false ∧ s.passDue = true) ∧
    (let s := { recorded true true with med := { MedS.reset with ops := [(7, flashOp 1 (.system .events))] } }; s.passOwes = true) ∧
    (let s := recorded true true; s.awake = true ∧ s.aon.passOn = true ∧ s.passOwes = false ∧ bufRec true ∈ s.aon.evBuf ∧ (bufRec true).taken = true ∧
      (bufRec true).ev.seq < 4096) := by
  refine ⟨?_, by decide +kernel⟩
  rintro n (rfl | rfl) <;> decide +kernel

/-! ## Witnesses: links, packets, routes, copies, the pair -/

/-- A node with its keys and certificate, port 0 in a given state, every route through port 0. -/
def fab (l : VflS) (now : Nat) : State :=
  { full with
    now := now
    nvm := { Nvm.reset with fleetKey := some 1, cert := some [1] }
    sign := { SignS.reset with identity := some 1, drbg := 1 }
    vfl := (Vector.replicate 4 VflS.reset).set 0 l
    vfr := { VfrS.reset with rtab := Vector.replicate 256 0, mtab := Vector.replicate 256 0 } }

/-- Port 0. -/
def port0 (s : State) : VflS := s.vfl[(0 : Fin 4)]

def link (st : LinkSt) : VflS := { VflS.reset with st := st, lock := decide (st ≠ .training) }

/-- A link in HELLO that has the peer's certificate and key. -/
def greeted (cert : List Byte) : VflS := { link .hello with peerCert := 1 :: cert, peerEph := 1, ownEph := 1 }

/-- Certificates, points and signatures are functions of Config that are left free: the premises name a certificate and a
signature that check. No certificate of another length checks. -/
theorem witness_LinksComeUp (cert : List Byte) (eph sig : Wide) (hc : certOk 1 cert = true) (hp : Config.validPoint eph = true)
    (hs : Config.ecdsaVerify (Config.decompressPub (certKey (greeted []).peerCert)) (hashBytes ((greeted []).transcript [1])) sig = true) :
    ((fab (link .training) 0).linkable = true ∧ (port0 (fab (link .training) 0)).st = .training ∧
      (port0 (fab (link .training) 0)).lock = false) ∧
    ((fab (link .hello) 0).linkable = true ∧ (fab (link .hello) 0).nvm.fleetKey = some 1 ∧ (fab (link .hello) 0).nvm.cert = some [1] ∧
      (port0 (fab (link .hello) 0)).st = .hello ∧ (fab (link .hello) 0).sign.identity = some 1 ∧ certOk 1 [] = false) ∧
    (certOk 1 cert = true ∧ Config.validPoint eph = true) ∧
    ((fab (greeted []) 0).linkable = true ∧ (port0 (fab (greeted []) 0)).st = .hello ∧
      (port0 (fab (greeted []) 0)).peerCert ≠ [] ∧ (port0 (fab (greeted []) 0)).peerEph ≠ 0 ∧
      (port0 (fab (greeted []) 0)).ownEph ≠ 0 ∧
      Config.ecdsaVerify (Config.decompressPub (certKey (greeted []).peerCert)) (hashBytes ((greeted []).transcript [1])) sig = true) ∧
    ((fab (link .hello) 100000).fabricRuns = true ∧ (port0 (fab (link .hello) 100000)).lockAt + 100000 ≤ 100000) ∧
    ((fab (link .failed) 10000000).linkable = true ∧ (port0 (fab (link .failed) 10000000)).st = .failed ∧
      (port0 (fab (link .failed) 10000000)).failAt + 10000000 ≤ 10000000) ∧
    (let s := fab { link .up with seqOut := #v[0, 0xFFFF0000, 0] } 0;
      s.linkable = true ∧ (port0 s).st = .up ∧ (port0 s).rekeying = false ∧
        (port0 s).seqOut.any (fun q => decide (0xFFFF0000 ≤ q)) = true ∧ s.sign.drbg = 1#2) ∧
    ((port0 (fab (link .up) 0)).lock = true ∧ (port0 (fab (link .failed) 0)).lock = true) := by
  exact ⟨by decide +kernel, by decide +kernel, ⟨hc, hp⟩, ⟨by decide +kernel, by decide +kernel, by decide +kernel, by decide +kernel, by decide +kernel, hs⟩, by decide +kernel⟩

/-- A packet that waits. -/
def waitingPkt (fwd : Bool) : OutPkt :=
  { type := 0x11, vc := 0, dest := 0x0103, src := 0x0102, hops := 1, txn := 0, flags := 0, tenant := 0xFF, epoch := 0, payload := [],
    at_ := 0, fwd := fwd }

theorem witness_PacketsAreReceived :
    (let s := fab (link .up) 0; let h := { hdr0 0x20 2 1 with tag := crcTag (hdr0 0x20 2 1) [1, 2] };
      s.fabricRuns = true ∧ h.len.toNat = ([1, 2] : List Byte).length ∧ (port0 s).st = .up ∧ h.vc.toNat = (2 : Fin 3).1 ∧
        (port0 s).seqIn[(2 : Fin 3)] < h.seq.toNat ∧ s.addressed = true ∧ h.dest = s.ownAddr) ∧
    (link .up).open_ { hdr0 0x20 2 1 with tag := crcTag (hdr0 0x20 2 1) [1, 2] } [1, 2] = some [1, 2] ∧
    (let s := fab (link .up) 0;
      s.fabricRuns = true ∧ (hdr0 0x20 0 0).len.toNat = ([1, 2] : List Byte).length ∧ (port0 s).st = .up ∧
        (hdr0 0x20 0 0).vc.toNat = (0 : Fin 3).1 ∧ (hdr0 0x20 0 0).seq.toNat ≤ (port0 s).seqIn[(0 : Fin 3)]) ∧
    (let s := fab (link .hello) 0; (port0 s).st = .hello ∧ (hdr0 0x01 2 0).type = 0x01#8 ∧ (hdr0 0x20 3 0).vc = 3#2) ∧
    (let s := fab (link .up) 0; s.fabricRuns = true ∧ (port0 s).lock = true ∧ (port0 s).txq = []) ∧
    (let s := fab { link .up with txq := [waitingPkt true] } 1000;
      (port0 s).txq.find? (fun p => p.fwd && decide (p.at_ + 1000 ≤ s.now)) = some (waitingPkt true)) := by
  refine ⟨by decide +kernel, ?_, by decide +kernel⟩
  show (if _ = crcTag (hdr0 0x20 2 1) [1, 2] then some ([1, 2] : List Byte) else none) = _
  exact if_pos rfl

/-- The serial number of the unit is left free; the premise names an advertisement of another. -/
theorem witness_TheTopologyIsLearnt (payload : Vector Byte 128)
    (hp : (advOfBytes payload.toList 0).serial ≠ Config.serial) :
    ((fab (link .up) 0).fabricRuns = true ∧ (port0 (fab (link .up) 0)).st = .up ∧ (fab (link .up) 0).vfr.advs = [] ∧
      (advOfBytes payload.toList 0).serial ≠ Config.serial) ∧
    ((fab (link .up) 1000000).fabricRuns = true ∧ (fab (link .up) 1000000).vfr.advAt + 1000000 ≤ (fab (link .up) 1000000).now ∧
      (let s := { fab (link .up) 0 with vfr := { VfrS.reset with advDue := true } }; s.fabricRuns = true ∧ s.vfr.advDue = true)) ∧
    (let s := { fab (link .up) 3500000 with vfr := { VfrS.reset with advs := [advOfBytes [] 0] } };
      s.active = true ∧ s.dev.level = .full ∧ s.vfr.advs.any (fun a => decide (a.at_ + 3500000 ≤ s.now)) = true) ∧
    (let s := { fab (link .up) 10000 with vfr := { VfrS.reset with changeAt := some 0 } };
      s.vfr.changeAt = some 0 ∧ s.fabricRuns = true ∧ s.dbg.halted.getLsbD 2 = false ∧ 0 + 10000 ≤ s.now) :=
  ⟨⟨by decide +kernel, rfl, rfl, hp⟩, by decide +kernel, by decide +kernel, by decide +kernel⟩

def request (tries : Nat) (tag : Option Tag) (type : Byte) : Txn :=
  { id := 0, tries := tries, at_ := 0, pkt := { waitingPkt false with type := type }, tag := tag }

def copyC : Cmd := { cmd0 { desc0 0x0D with aux0 := 0x0103 } [] with phase := .core3 }

theorem witness_RequestsEnd :
    (∀ n : Nat, n = 2 ∨ n = 3 → let s := fab { link .up with txns := [request n none 0x10] } 10000;
      (port0 s).txns.find? (fun x => x.id = (0 : Fin 256).1) = some (request n none 0x10) ∧ s.active = true ∧
        (request n none 0x10).at_ + 10000 ≤ s.now ∧ (n = 2 → (request n none 0x10).tries < 3 ∧ s.portTo (request n none 0x10).pkt.dest = some 0 ∧
          (port0 (s.updVfl 0 (fun l => { l with txns := l.txns.filter (fun y => y.id ≠ (0 : Fin 256).1) }))).tagFree = true) ∧
        (n = 3 → 3 ≤ (request n none 0x10).tries ∧ (request n none 0x10).tag = none)) ∧
    (let s := withCmd (fab { link .up with txns := [request 3 (some 3) 0x18] } 10000) copyC;
      (port0 s).txns.find? (fun x => x.id = (0 : Fin 256).1) = some (request 3 (some 3) 0x18) ∧ s.cmd 3 = some copyC ∧
        copyC.desc.opc = 0x0D#8 ∧ copyC.phase = .core3 ∧ s.vfr.rreqWait = none) ∧
    (∀ type : Byte, type = 0x18 ∨ type = 0x1B →
      let s0 := fab { link .up with txns := [request 0 (some 3) type] } 0;
      let s := withCmd { s0 with nvm := { s0.nvm with zones := [(5, zoneSt .sealed)] } } copyC;
      s.cmd 3 = some copyC ∧ s.txnOf 3 = some type ∧ s.fabricRuns = true ∧ copyC.desc.opc = 0x0D#8 ∧ copyC.phase = .core3 ∧
        copyC.epoch = s.tnt[copyC.tenant].epoch ∧ s.named copyC = some (zoneSt .sealed)) ∧
    ((withRegs (fab (link .up) 0) pVFR [(0x10C, 0)]).fabricRuns = true ∧
      ((withRegs (fab (link .up) 0) pVFR [(0x10C, 0)]).reg pVFR 0x10C 1#32).getLsbD 0 = false ∧
      ((fab (link .up) 0).reg pVFR 0x10C 1#32).getLsbD 0 = true) ∧
    (let s := { fab (link .up) 0 with vfr := { VfrS.reset with rreqSt := 1 } }; s.fabricRuns = true ∧ s.vfr.rreqSt = 1 ∧ s.vfr.rreqWait = none) := by
  refine ⟨?_, by decide +kernel, ?_, by decide +kernel⟩
  · rintro n (rfl | rfl) <;> decide +kernel
  · rintro n (rfl | rfl) <;> decide +kernel

/-- PF0 may ask node 0x0103 for a remote read through port 0, whose link has these transactions open. -/
def asking (txns : List Txn) : State :=
  let s := host (fab { link .up with txns := txns } 0)
  withRegs { s with dev := { s.dev with accept0 := 0x20 } } pVFR [(0xB00, 0x0103)]

/-- The clauses of FabricRegistersAct on a request that can be sent: with a transaction tag free, and with all 256 taken. -/
theorem witness_FabricRegistersAct_requests :
    ∀ l : List Txn, l = [] ∨ l = (List.range 256).map (fun k => { request 0 none 0x10 with id := k }) →
      let s := asking l;
      takesB s pVFR 0xB18 (pf0 1) = true ∧ (field s pVFR 0xB18 (pf0 1)).getLsbD 0 = true ∧ s.hasFeat 0 5 = true ∧
        (s.touchPage .pf0 pVFR).fabricRuns = true ∧ s.addressed = true ∧
        s.portTo (BitVec.ofNat 16 (bits (s.reg pVFR 0xB00 0#32) 15 0)) = some 0 ∧ (port0 s).tagFree = l.isEmpty := by
  rintro l (rfl | rfl) <;> decide +kernel

def remoteC (dest : DWord) : Cmd := cmd0 { desc0 0x0D with aux0 := dest } []

def importOf (record : List Byte) : Import :=
  { src := 0x0103, tenant := 1, zone := 5, fresh := true, record := record, entries := [], blocks := [] }

def importing (i : Import) (z : Zone) : State :=
  let s := fab (link .up) 0
  { s with vfr := { s.vfr with imports := [i] }, nvm := { s.nvm with zones := [(5, z)] } }

/-- Digests and signatures are functions of Config that are left free: the premises name a record whose opening is let in, and one
whose digest is that of no entries. -/
theorem witness_CopiesGoAndArrive (cert whole : List Byte) (rec : Vector Byte 256)
    (ho : let s := importing (importOf []) (zoneSt .empty);
      ({ s with vfr := { s.vfr with imports := [] } } : State).openCause 1 cert rec.toList = none ∧
        ({ s with vfr := { s.vfr with imports := [] } } : State).heldImport rec.toList = none)
    (hw : (importOf whole).ok = true) :
    (let s0 := fab (link .up) 0; let s := withCmd { s0 with nvm := { s0.nvm with zones := [(5, zoneSt .sealed)], sealRecs := [(5, [1])] } } (remoteC 0x0103);
      s.ready 3 0x0D (remoteC 0x0103) ∧ s.thr.level.1 < 6 ∧ s.named (remoteC 0x0103) = some (zoneSt .sealed) ∧
        (zoneSt .sealed).st = .sealed ∧ (remoteC 0x0103).desc.copyDest ≠ 0 ∧ (remoteC 0x0103).desc.copyDest ≠ 0xFFFF ∧
        (remoteC 0x0103).desc.copyDest ≠ s.ownAddr ∧ s.sign.identity = some 1 ∧ s.addressed = true ∧
        s.portTo (remoteC 0x0103).desc.copyDest = some 0 ∧ s.nvm.sealRecs.find (remoteC 0x0103).zoneNo = some [1] ∧
        s.nvm.cert = some [1] ∧ (port0 s).tagFree = true ∧ (remoteC 0x0102).desc.copyDest = s.ownAddr) ∧
    (let s0 := importing (importOf []) (zoneSt .empty); let s : State := { s0 with vfr := { s0.vfr with imports := [] } };
      s.fabricRuns = true ∧ (1#8).toNat < 64 ∧ (∀ i ∈ s.vfr.imports, i.src ≠ 0x0103) ∧ s.heldImport rec.toList = none ∧
        s.openCause (Fin.ofNat 64 (1#8).toNat) cert rec.toList = none ∧ s.takeZone (Fin.ofNat 64 (1#8).toNat) true false = .ok (5, s) ∧
        s.zone 5 = some (zoneSt .empty)) ∧
    ((fab (link .up) 0).heldImport (Vector.replicate 256 (0 : Byte)).toList = none ∧
      (fab (link .up) 0).openCause (Fin.ofNat 64 (1#8).toNat) [] (Vector.replicate 256 (0 : Byte)).toList = some 1) ∧
    (let i := importOf (List.replicate 256 1); let s := importing i (zoneSt .sealed);
      s.fabricRuns = true ∧ i ∈ s.vfr.imports ∧ i.src = 0x0103 ∧ s.vfr.imports.find? (fun i => i.src = 0x0103) = some i ∧
        s.boot.desc = some board ∧ i.entries.length ≠ sealAppends i.record) ∧
    (let s := importing (importOf whole) (zoneSt .sealed);
      (importOf whole).ok = true ∧ s.zone (importOf whole).zone = some (zoneSt .sealed) ∧
        s.placeImport board (importOf whole).zone (zoneSt .sealed).gen (importOf whole).log =
          some { s with med := { s.med with ops := s.med.ops, nextOp := s.med.nextOp } }) := by
  unfold State.ready
  exact ⟨by decide +kernel, ⟨by decide +kernel, by decide, fun i h => absurd h List.not_mem_nil, ho.2, ho.1, rfl, rfl⟩, by decide +kernel,
    by decide +kernel, hw, rfl, rfl⟩

/-- The windward (1) or leeward (2) of a pair in a mirror state. -/
def pair (side : BitVec 2) (m : MirS) (now : Nat) : State :=
  let s := fab (link .up) now
  { s with dev := { s.dev with strap := { Strap.reset with mirror := side } }, mir := m }

theorem witness_ThePairStaysInStep :
    (let s := pair 1 { MirS.reset with st := .inSync } 1000; s.beats = true ∧ s.mir.beatAt + 1000 ≤ s.now ∧ s.windward = true ∧
      s.mirrored 1 = true ∧ s.fabricRuns = true ∧ s.mir.st ≠ .off ∧ s.paired = true) ∧
    (let s := pair 1 { MirS.reset with st := .inSync } 20000; s.active = true ∧ s.paired = true ∧ s.mir.lastRx + 20000 ≤ s.now) ∧
    (let s := pair 1 { MirS.reset with st := .separated, reason := 5 } 60000000;
      s.fabricRuns = true ∧ s.mir.st = .separated ∧ s.mir.reason = 5#3 ∧ s.mir.spaceAt + 60000000 ≤ s.now) ∧
    (let s0 := pair 1 { MirS.reset with st := .unpaired } 0;
      let s := { s0 with
        boot := { s0.boot with desc := some { board with partner := 0x0103 } }
        vfr := { s0.vfr with advs := [{ advOfBytes [] 0 with addr := 0x0103, role := 2, partner := 0x0102 }] } };
      s.fabricRuns = true ∧ s.windward = true ∧ s.pairReason = 0#3) ∧
    (let s := pair 2 { MirS.reset with st := .resync } 0; s.fabricRuns = true ∧ s.leeward = true ∧ s.mir.st = .resync) := by
  decide +kernel

/-- A replica of zone 9 of the partner, holding entry 1. -/
def replicaZone : Zone :=
  { zoneSt .open_ with origin := some { tenant := 1, zone := 9, gen := 1, replica := true, diverged := false }, log := [logged 1], wp := 0 }

def leewardS (zones : KMap Zone) (d : BoardDesc) : State :=
  let s := pair 2 { MirS.reset with st := .inSync } 0
  { s with nvm := { s.nvm with zones := zones }, boot := { s.boot with desc := some d } }

theorem witness_AppendsAreMirrored :
    (let s := leewardS [(5, replicaZone)] fewBlocks; let a := mirAppend 2;
      s.fabricRuns = true ∧ s.paired = true ∧ s.leeward = true ∧ s.boot.desc = some fewBlocks ∧
        s.replica a.tenant a.zone.toNat = some (5, replicaZone) ∧ (∀ e ∈ replicaZone.log, e.index ≠ a.index.toNat) ∧
        s.zone 5 = some replicaZone ∧ (s.applyAppend fewBlocks a 5 replicaZone).isSome = true) ∧
    (let s := leewardS [(5, replicaZone)] fewBlocks;
      s.replicaFor (mirAppend 2) = some (5, s) ∧ s.mayCount (blocksOf (mirAppend 2).len) = true) ∧
    (let s := leewardS [(5, replicaZone)] fewBlocks; let a := mirAppend 1;
      s.replica a.tenant a.zone.toNat = some (5, replicaZone) ∧ replicaZone.diverged = false ∧ replicaZone.originGen = a.gen ∧
        logged 1 ∈ replicaZone.log ∧ (logged 1).index = a.index.toNat ∧ (logged 1).head = a.head ∧ replicaZone.st = .open_ ∧
        s.zone 5 = some replicaZone) ∧
    (let d := { board with chPresent := 0 }; let s := leewardS [] d; let a := mirAppend 1;
      s.boot.desc = some d ∧ s.replica a.tenant a.zone.toNat = none ∧ s.unowned = none) ∧
    (let s0 := pair 1 { MirS.reset with st := .inSync } 0; let s := { s0 with nvm := { s0.nvm with zones := [(5, openZone)] } };
      s.fabricRuns = true ∧ s.paired = true ∧ s.windward = true ∧ s.entryAt 1 1 = some (5, logged 1) ∧ s.zone 5 = some openZone ∧
        logged 1 ∈ openZone.log) := by
  refine ⟨by decide +kernel, ⟨rfl, by decide +kernel⟩, by decide +kernel⟩

/-! ## Single steps against the manual's tables -/

/-- 15, worked example "Heat soak and recovery": each round's hottest reading and the level it leaves. -/
theorem test_vane_heat_soak :
    vaneLevel 0 0 (4 * 105 + 2) = 1 ∧ vaneLevel 0 1 (4 * 112) = 3 ∧ vaneLevel 0 3 (4 * 118 + 1) = 5 ∧ vaneLevel 0 5 (4 * 120 + 2) = 7 ∧
      vaneLevel 0 7 (4 * 116 + 3) = 6 ∧ vaneLevel 0 6 (4 * 116 + 2) = 6 ∧ vaneLevel 0 6 (4 * 115 + 3) = 5 := by
  decide +kernel

/-- 03, worked example of the hold-up probe: the dashboard recorder's energy and budget. -/
def dashboard : BoardDesc :=
  { board with pSquall := 6000, eta := 90, vMin := 2800, eFixedBoard := 150, eBufBoard := 14, iT := 500, tLoad := 20, goodMin := 32768 }

theorem test_holdup_budget : holdupB dashboard 5000 90000 1000 false = 43690 ∧ holdupEnergy dashboard 5000 90000 1000 false = 3279 := by
  decide +kernel

/-- 08, worked example: the IV of the second append of zone 0x1_0A40, generation 3, of T5 at block 128. -/
theorem test_gcm_iv : (Zone.fresh 5 3).iv 0x10A40 128 = [0x05, 0x01, 0x0A, 0x40, 0, 0, 0, 0x80, 0, 0, 0, 3] := by decide +kernel

/-- 10, worked example of the DRAM regions: 1 GiB of LPDDR4X, 4 TiB of raw NAND, 192 GiB of conventional area. -/
def cabin : BoardDesc := { board with dramGib := 1, dramType := 0, planes := 4, blocksPerPlane := 2048, pagesPerBlock := 2048 }
def cabinS : State :=
  { (full.updTnt 1 (fun x => { x with convBlocks := 50331648 })) with boot := { full.boot with desc := some cabin } }

theorem test_dram_regions : cabinS.zoneCount = 23040 ∧ cabinS.mapMiB = 343 ∧ cabinS.nDram cabin = 107126 := by decide +kernel

/-- 09, worked example: the depot vault's zones and its read-only limit. -/
def depot : BoardDesc :=
  { board with planes := 4, blocksPerPlane := 1024, pagesPerBlock := 2304, luns := 2, ceMap := List.replicate 8 0x0F, cell := 0 }
def depotS : State :=
  { (full.updTnt 1 (fun x => { x with convBlocks := 16777216 })) with boot := { full.boot with desc := some depot } }

theorem test_depot_geometry :
    depot.groups = 4 ∧ depotS.nGc = 8 ∧ depotS.zoneCount = 54784 ∧ depot.cN 15 = 2160 * 64 ∧ depot.cS 15 = 720 * 64 ∧
      depotS.roLimit = 3277 := by
  decide +kernel

/-- 07, worked example of the event pulse: T7's zones 0x2201 to 0x2204, HOLD_MINUTES 5, a pulse at 1,800. -/
def pulseZone (st : ZState) (first last : Nat) : Zone :=
  { Zone.fresh 7 1 with st := st, firstT := first, lastT := last, wp := 1, log := [logged 1] }
def pulsed : State :=
  let s := full.updTnt 7 (fun x => { x with holdMin := 5, heldMax := 40, quota := 40 })
  { s with nvm := { s.nvm with zones := [(0x2201, pulseZone .full 1000 1255), (0x2202, pulseZone .full 1256 1511),
    (0x2203, pulseZone .full 1512 1767), (0x2204, pulseZone .open_ 1768 1799)] } }

theorem test_event_pulse_holds :
    ((pulsed.holdPulse 1800).nvm.zones.map (fun p => (p.1, p.2.st))) =
      [(0x2201, .full), (0x2202, .held), (0x2203, .held), (0x2204, .open_)] ∧
    ((pulsed.holdPulse 1800).zone 0x2204).map (fun z => z.holdEvent) = some true := by
  decide +kernel

/-- 06, worked example "MSI messages with N = 8": logical vectors 0, 3, 12 and 65 use messages 0, 3, 7 and 7. -/
theorem test_msi_numbers :
    msiNumber 0 3 0 = 0 ∧ msiNumber 0 3 3 = 3 ∧ msiNumber 0 3 12 = 7 ∧ msiNumber 0 3 65 = 7 := by
  decide +kernel

/-- The waits of thermal restarts (15 R481), a counter at its top (00, counters saturate), and ERR_ADDR of a VF BAR0 access (05, table of the common header). -/
theorem test_small_tables :
    thermalWait 1 = 60000000 ∧ thermalWait 2 = 120000000 ∧ thermalWait 5 = 960000000 ∧ thermalWait 9 = 960000000 ∧
      satInc (0xFFFFFFFF#32) = 0xFFFFFFFF#32 ∧ errAddr 0x1008 2 1 = 0x00601008#32 := by
  decide +kernel

/-- 07, table of the completion entry: status 0x0C with result 2 of queue pair 1 under phase 1. -/
theorem test_completion_entry :
    entryOf { doneC with sqHead := 0x0102 } 0x0C 0 true false 2 =
      [7, 0, 2, 1, 0x0C, 0, 1, 1, 2, 0, 0, 0, 0, 0, 0, 0] := by
  decide +kernel

/-- 07, table of the descriptor: the fields of 64 bytes written out by hand. -/
theorem test_descriptor_fields :
    let d := parseDescriptor ([3, 1, 0x34, 0x12, 0x40, 0x0A, 1, 0] ++ List.replicate 8 0 ++ [0, 0, 8, 0, 0x60, 0, 0, 0] ++
      [0, 0x10, 0, 0, 0, 0, 0, 0] ++ List.replicate 32 0);
    d.opc = 3 ∧ d.flags = 1 ∧ d.cid = 0x1234 ∧ d.zone = 0x10A40 ∧ d.len = 524288 ∧ d.hlen = 96 ∧ d.daddr = 0x1000 := by
  decide +kernel

end Sys2Proof.Tests
end

section
/-!
PROOFS. The rollback floor (04 R90). That it never falls and stays in its 64 steps is what every command keeps (`Kept`), read off
for a step; that FULL raises it follows the one write of `State.confirmSlot`, since nothing before or after that write in the
start reaches the floor, the NOR or the slot that was booted.
-/
namespace Sys2Proof.Machine

/-! ## What a step keeps -/

/-- Every command keeps what `Kept` says. -/
theorem kept_exec (c : Instr) (s : State) : OutKept s (exec c s) := by
  cases c with
  | submissionTailDoorbell => exact kept_execSubmissionTailDoorbell _ _ _ _ s (Kept.rfl' s)
  | completionHeadDoorbell => exact kept_execCompletionHeadDoorbell _ _ _ _ s (Kept.rfl' s)
  | descriptorFetch => exact kept_execDescriptorFetch _ s (Kept.rfl' s)
  | completionEntryWrite => exact kept_execCompletionEntryWrite _ s (Kept.rfl' s)
  | read => exact kept_execRead _ s (Kept.rfl' s)
  | write => exact kept_execWrite _ s (Kept.rfl' s)
  | append => exact kept_execAppend _ s (Kept.rfl' s)
  | appendAcknowledgement => exact kept_execAppendAcknowledgement _ s (Kept.rfl' s)
  | flush => exact kept_execFlush _ s (Kept.rfl' s)
  | trim => exact kept_execTrim _ s (Kept.rfl' s)
  | zoneOpen => exact kept_execZoneOpen _ s (Kept.rfl' s)
  | zoneFinish => exact kept_execZoneFinish _ s (Kept.rfl' s)
  | zoneHold => exact kept_execZoneHold _ s (Kept.rfl' s)
  | zoneRelease => exact kept_execZoneRelease _ s (Kept.rfl' s)
  | zoneSeal => exact kept_execZoneSeal _ s (Kept.rfl' s)
  | zoneReport => exact kept_execZoneReport _ s (Kept.rfl' s)
  | verify => exact kept_execVerify _ s (Kept.rfl' s)
  | remoteCopy => exact kept_execRemoteCopy _ s (Kept.rfl' s)
  | identify => exact kept_execIdentify _ s (Kept.rfl' s)
  | queueCreate => exact kept_execQueueCreate _ s (Kept.rfl' s)
  | queueDelete => exact kept_execQueueDelete _ s (Kept.rfl' s)
  | keyLoad => exact kept_execKeyLoad _ s (Kept.rfl' s)
  | keyPageChange => exact kept_execKeyPageChange _ s (Kept.rfl' s)
  | keyClear => exact kept_execKeyClear _ s (Kept.rfl' s)
  | featureHoldMinutesGet => exact kept_execFeatureHoldMinutesGet _ s (Kept.rfl' s)
  | featureHoldMinutesSet => exact kept_execFeatureHoldMinutesSet _ s (Kept.rfl' s)
  | featureDisplayItemGet => exact kept_execFeatureDisplayItemGet _ s (Kept.rfl' s)
  | featureDisplayItemSet => exact kept_execFeatureDisplayItemSet _ s (Kept.rfl' s)
  | featureBudgetGet => exact kept_execFeatureBudgetGet _ s (Kept.rfl' s)
  | logReadEventRecords => exact kept_execLogReadEventRecords _ s (Kept.rfl' s)
  | logReadZoneResetLog => exact kept_execLogReadZoneResetLog _ s (Kept.rfl' s)
  | meterReadTenant => exact kept_execMeterReadTenant _ s (Kept.rfl' s)
  | meterReadAll => exact kept_execMeterReadAll _ s (Kept.rfl' s)
  | meterReadLoadProfile => exact kept_execMeterReadLoadProfile _ s (Kept.rfl' s)
  | getNonce => exact kept_execGetNonce _ s (Kept.rfl' s)
  | setHost => exact kept_execSetHost _ s (Kept.rfl' s)
  | setSigned => exact kept_execSetSigned _ s (Kept.rfl' s)
  | nonceLapse => exact kept_execNonceLapse s (Kept.rfl' s)
  | signedLapse => exact kept_execSignedLapse s (Kept.rfl' s)
  | imageStage => exact kept_execImageStage _ s (Kept.rfl' s)
  | imageCommit => exact kept_execImageCommit _ s (Kept.rfl' s)
  | getChallenge => exact kept_execGetChallenge _ s (Kept.rfl' s)
  | enrol => exact kept_execEnrol _ s (Kept.rfl' s)
  | lockUpdates => exact kept_execLockUpdates _ s (Kept.rfl' s)
  | unlockUpdates => exact kept_execUnlockUpdates _ s (Kept.rfl' s)
  | transfer => exact kept_execTransfer _ s (Kept.rfl' s)
  | challengeLapse => exact kept_execChallengeLapse s (Kept.rfl' s)
  | sealExportSealRecord => exact kept_execSealExportSealRecord _ s (Kept.rfl' s)
  | sealExportZoneEntries => exact kept_execSealExportZoneEntries _ s (Kept.rfl' s)
  | sealExportChain => exact kept_execSealExportChain _ s (Kept.rfl' s)
  | zoneEraseSigned => exact kept_execZoneEraseSigned _ s (Kept.rfl' s)
  | tenantReset => exact kept_execTenantReset _ _ s (Kept.rfl' s)
  | tenantResetPipesDrained => exact kept_execTenantResetPipesDrained _ s (Kept.rfl' s)
  | aqEnable => exact kept_execAqEnable _ _ s (Kept.rfl' s)
  | devFeatAccept => exact kept_execDevFeatAccept _ _ s (Kept.rfl' s)
  | devCtrlFeatLock => exact kept_execDevCtrlFeatLock _ s (Kept.rfl' s)
  | tntFeatAccept => exact kept_execTntFeatAccept _ _ s (Kept.rfl' s)
  | tntCtrlFeatLock => exact kept_execTntCtrlFeatLock _ _ s (Kept.rfl' s)
  | tntHoldMinutes => exact kept_execTntHoldMinutes _ _ s (Kept.rfl' s)
  | intStatusW1c => exact kept_execIntStatusW1c _ _ s (Kept.rfl' s)
  | intEnableWrite => exact kept_execIntEnableWrite _ _ s (Kept.rfl' s)
  | intForce => exact kept_execIntForce _ _ s (Kept.rfl' s)
  | lock => exact kept_execLock _ _ s (Kept.rfl' s)
  | irqRoute => exact kept_execIrqRoute _ _ s (Kept.rfl' s)
  | interruptMessage => exact kept_execInterruptMessage _ _ s (Kept.rfl' s)
  | softwareReset => exact kept_execSoftwareReset _ s (Kept.rfl' s)
  | causeAck => exact kept_execCauseAck _ s (Kept.rfl' s)
  | probeNow => exact kept_execProbeNow _ s (Kept.rfl' s)
  | updRcvStart => exact kept_execUpdRcvStart _ s (Kept.rfl' s)
  | updRcvChunk => exact kept_execUpdRcvChunk _ _ _ s (Kept.rfl' s)
  | updRcvFinish => exact kept_execUpdRcvFinish _ _ s (Kept.rfl' s)
  | updRcvAbort => exact kept_execUpdRcvAbort _ s (Kept.rfl' s)
  | recoveryFrameStart => exact kept_execRecoveryFrameStart _ _ _ s (Kept.rfl' s)
  | recoveryFrameData => exact kept_execRecoveryFrameData _ _ _ s (Kept.rfl' s)
  | recoveryFrameFinish => exact kept_execRecoveryFrameFinish _ _ _ _ s (Kept.rfl' s)
  | recoveryFrameStatus => exact kept_execRecoveryFrameStatus _ _ _ s (Kept.rfl' s)
  | sramMarchStart => exact kept_execSramMarchStart _ s (Kept.rfl' s)
  | marchDone => exact kept_execMarchDone _ s (Kept.rfl' s)
  | qspiGo => exact kept_execQspiGo _ s (Kept.rfl' s)
  | qspiFrameStart => exact kept_execQspiFrameStart s (Kept.rfl' s)
  | frameDone => exact kept_execFrameDone _ s (Kept.rfl' s)
  | spitTxData => exact kept_execSpitTxData _ s (Kept.rfl' s)
  | spitRxPop => exact kept_execSpitRxPop _ s (Kept.rfl' s)
  | spitCtrl => exact kept_execSpitCtrl _ s (Kept.rfl' s)
  | spitWordReceived => exact kept_execSpitWordReceived _ s (Kept.rfl' s)
  | spitWordTake => exact kept_execSpitWordTake _ s (Kept.rfl' s)
  | spitCsRise => exact kept_execSpitCsRise _ s (Kept.rfl' s)
  | installFleet => exact kept_execInstallFleet _ s (Kept.rfl' s)
  | installCert => exact kept_execInstallCert _ s (Kept.rfl' s)
  | vfrRreqGo => exact kept_execVfrRreqGo _ s (Kept.rfl' s)
  | pwrBudgetAudit0 => exact kept_execPwrBudgetAudit0 _ s (Kept.rfl' s)
  | hqmTagAudit0 => exact kept_execHqmTagAudit0 _ s (Kept.rfl' s)
  | medSlotAudit0 => exact kept_execMedSlotAudit0 _ s (Kept.rfl' s)
  | bpmAudit0 => exact kept_execBpmAudit0 _ s (Kept.rfl' s)
  | vflCreditAudit => exact kept_execVflCreditAudit _ _ s (Kept.rfl' s)
  | mtrAudit0 => exact kept_execMtrAudit0 _ s (Kept.rfl' s)
  | mtrUtcLo => exact kept_execMtrUtcLo _ s (Kept.rfl' s)
  | mtrAccLo => exact kept_execMtrAccLo _ s (Kept.rfl' s)
  | sealIndexLo => exact kept_execSealIndexLo _ s (Kept.rfl' s)
  | evrNextSeqLo => exact kept_execEvrNextSeqLo _ s (Kept.rfl' s)
  | mirPlogData0 => exact kept_execMirPlogData0 _ s (Kept.rfl' s)
  | registerWrite => exact kept_execRegisterWrite _ _ _ s (Kept.rfl' s)
  | reservedAccess => exact kept_execReservedAccess _ _ _ _ s (Kept.rfl' s)
  | perstAssert => exact kept_execPerstAssert s (Kept.rfl' s)
  | perstRelease => exact kept_execPerstRelease s (Kept.rfl' s)
  | hotReset => exact kept_execHotReset s (Kept.rfl' s)
  | linkDown => exact kept_execLinkDown s (Kept.rfl' s)
  | linkUp => exact kept_execLinkUp _ _ s (Kept.rfl' s)
  | flr => exact kept_execFlr _ s (Kept.rfl' s)
  | vfEnableSet => exact kept_execVfEnableSet _ _ s (Kept.rfl' s)
  | vfEnableClear => exact kept_execVfEnableClear s (Kept.rfl' s)
  | busMasterEnableClear => exact kept_execBusMasterEnableClear _ s (Kept.rfl' s)
  | busMasterEnableSet => exact kept_execBusMasterEnableSet _ s (Kept.rfl' s)
  | interruptModeChange => exact kept_execInterruptModeChange _ _ s (Kept.rfl' s)
  | vectorUnmask => exact kept_execVectorUnmask _ _ _ s (Kept.rfl' s)
  | interruptDisable => exact kept_execInterruptDisable _ s (Kept.rfl' s)
  | d3hotEntry => exact kept_execD3hotEntry _ s (Kept.rfl' s)
  | configurationRequest => exact kept_execConfigurationRequest _ _ s (Kept.rfl' s)
  | poisonedMemoryWrite => exact kept_execPoisonedMemoryWrite _ s (Kept.rfl' s)
  | unsupportedRequest => exact kept_execUnsupportedRequest _ _ s (Kept.rfl' s)
  | hostReadCompletion => exact kept_execHostReadCompletion _ _ _ _ _ s (Kept.rfl' s)
  | completionTimeout => exact kept_execCompletionTimeout _ _ s (Kept.rfl' s)
  | staleCompletion => exact kept_execStaleCompletion _ _ _ s (Kept.rfl' s)
  | aspmL1Entry => exact kept_execAspmL1Entry _ s (Kept.rfl' s)
  | powerOnReset => exact kept_execPowerOnReset s (Kept.rfl' s)
  | resetInLAssert => exact kept_execResetInLAssert _ s (Kept.rfl' s)
  | resetRelease => exact kept_execResetRelease s (Kept.rfl' s)
  | strapSampling => exact kept_execStrapSampling _ _ _ s (Kept.rfl' s)
  | crystalMonitorWindow => exact kept_execCrystalMonitorWindow _ _ _ s (Kept.rfl' s)
  | crystalMonitorTrip => exact kept_execCrystalMonitorTrip s (Kept.rfl' s)
  | pfailLFall => exact kept_execPfailLFall s (Kept.rfl' s)
  | vsupConversion => exact kept_execVsupConversion _ s (Kept.rfl' s)
  | watchdogExpiry => exact kept_execWatchdogExpiry s (Kept.rfl' s)
  | squallStepEnd => exact kept_execSquallStepEnd _ s (Kept.rfl' s)
  | squallRestart => exact kept_execSquallRestart _ s (Kept.rfl' s)
  | thermalRestart => exact kept_execThermalRestart s (Kept.rfl' s)
  | lullEntry => exact kept_execLullEntry s (Kept.rfl' s)
  | lullExit ev => exact kept_execLullExit ev s (Kept.rfl' s)
  | domainGate => exact kept_execDomainGate _ s (Kept.rfl' s)
  | domainPowerDown => exact kept_execDomainPowerDown _ s (Kept.rfl' s)
  | domainWake => exact kept_execDomainWake _ s (Kept.rfl' s)
  | fabWakeProbe => exact kept_execFabWakeProbe _ s (Kept.rfl' s)
  | holdupProbe => exact kept_execHoldupProbe _ s (Kept.rfl' s)
  | loadPulse => exact kept_execLoadPulse _ _ s (Kept.rfl' s)
  | probeComplete => exact kept_execProbeComplete _ _ _ s (Kept.rfl' s)
  | nandIdCheck => exact kept_execNandIdCheck _ s (Kept.rfl' s)
  | dramTrainingDone => exact kept_execDramTrainingDone _ _ _ _ s (Kept.rfl' s)
  | extendedPartLoaded => exact kept_execExtendedPartLoaded s (Kept.rfl' s)
  | gust => exact kept_execGust _ s (Kept.rfl' s)
  | powerFailReplay => exact kept_execPowerFailReplay s (Kept.rfl' s)
  | gustMerge => exact kept_execGustMerge _ s (Kept.rfl' s)
  | full => exact kept_execFull s (Kept.rfl' s)
  | recovery => exact kept_execRecovery _ _ s (Kept.rfl' s)
  | flashIssue => exact kept_execFlashIssue _ s (Kept.rfl' s)
  | eraseResume => exact kept_execEraseResume _ s (Kept.rfl' s)
  | flashProgramDone => exact kept_execFlashProgramDone _ _ s (Kept.rfl' s)
  | flashEraseDone => exact kept_execFlashEraseDone _ _ s (Kept.rfl' s)
  | flashReadDone => exact kept_execFlashReadDone _ _ s (Kept.rfl' s)
  | softDecode => exact kept_execSoftDecode _ s (Kept.rfl' s)
  | stripeParityRebuild => exact kept_execStripeParityRebuild _ _ s (Kept.rfl' s)
  | sealChainStep => exact kept_execSealChainStep _ s (Kept.rfl' s)
  | bufferPlacement => exact kept_execBufferPlacement _ s (Kept.rfl' s)
  | mapJournalWrite => exact kept_execMapJournalWrite s (Kept.rfl' s)
  | eddyFold => exact kept_execEddyFold s (Kept.rfl' s)
  | foldMapUpdate => exact kept_execFoldMapUpdate s (Kept.rfl' s)
  | refresh => exact kept_execRefresh _ s (Kept.rfl' s)
  | scrub => exact kept_execScrub _ s (Kept.rfl' s)
  | garbageCollection => exact kept_execGarbageCollection _ s (Kept.rfl' s)
  | mapLineRequest => exact kept_execMapLineRequest _ _ s (Kept.rfl' s)
  | mapLineRecall => exact kept_execMapLineRecall _ s (Kept.rfl' s)
  | writebackDone => exact kept_execWritebackDone _ s (Kept.rfl' s)
  | bufferAllocate => exact kept_execBufferAllocate _ _ _ s (Kept.rfl' s)
  | listRebuildEnd => exact kept_execListRebuildEnd _ s (Kept.rfl' s)
  | bufferHandoff => exact kept_execBufferHandoff _ _ _ _ s (Kept.rfl' s)
  | bufferFree => exact kept_execBufferFree _ _ s (Kept.rfl' s)
  | parityMismatch => exact kept_execParityMismatch _ _ s (Kept.rfl' s)
  | maskStarved => exact kept_execMaskStarved _ s (Kept.rfl' s)
  | laneReseed => exact kept_execLaneReseed _ s (Kept.rfl' s)
  | drbgReseed => exact kept_execDrbgReseed s (Kept.rfl' s)
  | healthTestFailure => exact kept_execHealthTestFailure _ s (Kept.rfl' s)
  | refreshDue => exact kept_execRefreshDue s (Kept.rfl' s)
  | refreshPayback => exact kept_execRefreshPayback s (Kept.rfl' s)
  | patrolScrub => exact kept_execPatrolScrub _ s (Kept.rfl' s)
  | evrProgrammingPass => exact kept_execEvrProgrammingPass s (Kept.rfl' s)
  | evrPassEnd => exact kept_execEvrPassEnd s (Kept.rfl' s)
  | meterMinuteSample => exact kept_execMeterMinuteSample s (Kept.rfl' s)
  | quarterHourBoundary => exact kept_execQuarterHourBoundary s (Kept.rfl' s)
  | displayDwellSecond => exact kept_execDisplayDwellSecond s (Kept.rfl' s)
  | hostItemExpired => exact kept_execHostItemExpired s (Kept.rfl' s)
  | eventInPulse => exact kept_execEventInPulse s (Kept.rfl' s)
  | motionChange => exact kept_execMotionChange _ s (Kept.rfl' s)
  | gpioInputEdge => exact kept_execGpioInputEdge _ _ s (Kept.rfl' s)
  | pointer => exact kept_execPointer _ _ _ s (Kept.rfl' s)
  | write32 => exact kept_execWrite32 _ _ _ s (Kept.rfl' s)
  | meterReq => exact kept_execMeterReq _ _ _ s (Kept.rfl' s)
  | readN n pecOk => exact kept_execReadN n pecOk s (Kept.rfl' s)
  | i2cRead => exact kept_execI2cRead _ s (Kept.rfl' s)
  | alertResponse => exact kept_execAlertResponse s (Kept.rfl' s)
  | sclTimeout => exact kept_execSclTimeout s (Kept.rfl' s)
  | scriptEntry => exact kept_execScriptEntry _ _ s (Kept.rfl' s)
  | statusPoll => exact kept_execStatusPoll _ s (Kept.rfl' s)
  | entryRetry => exact kept_execEntryRetry _ s (Kept.rfl' s)
  | stuckBusRecovery => exact kept_execStuckBusRecovery _ s (Kept.rfl' s)
  | stuckRetry => exact kept_execStuckRetry _ s (Kept.rfl' s)
  | blockLock => exact kept_execBlockLock _ s (Kept.rfl' s)
  | hello => exact kept_execHello _ _ _ s (Kept.rfl' s)
  | confirm => exact kept_execConfirm _ _ s (Kept.rfl' s)
  | bringupTimeout => exact kept_execBringupTimeout _ s (Kept.rfl' s)
  | linkRetry => exact kept_execLinkRetry _ s (Kept.rfl' s)
  | rekey => exact kept_execRekey _ s (Kept.rfl' s)
  | packetReceive => exact kept_execPacketReceive _ _ _ s (Kept.rfl' s)
  | creditBlock => exact kept_execCreditBlock _ _ _ _ s (Kept.rfl' s)
  | nadv => exact kept_execNadv _ _ s (Kept.rfl' s)
  | advertisementOriginate => exact kept_execAdvertisementOriginate s (Kept.rfl' s)
  | advertisementExpiry => exact kept_execAdvertisementExpiry s (Kept.rfl' s)
  | routeComputation => exact kept_execRouteComputation s (Kept.rfl' s)
  | transactionTimeout => exact kept_execTransactionTimeout _ _ s (Kept.rfl' s)
  | stuckPacketDrop => exact kept_execStuckPacketDrop _ s (Kept.rfl' s)
  | copyOpen => exact kept_execCopyOpen _ _ _ _ s (Kept.rfl' s)
  | copyRsp => exact kept_execCopyRsp _ _ s (Kept.rfl' s)
  | copyData => exact kept_execCopyData _ _ s (Kept.rfl' s)
  | copyClose => exact kept_execCopyClose _ s (Kept.rfl' s)
  | rreadReq => exact kept_execRreadReq _ _ _ _ s (Kept.rfl' s)
  | rreadRsp => exact kept_execRreadRsp _ _ s (Kept.rfl' s)
  | mirBeat => exact kept_execMirBeat _ s (Kept.rfl' s)
  | mirBeatSend => exact kept_execMirBeatSend s (Kept.rfl' s)
  | partnerSilence => exact kept_execPartnerSilence s (Kept.rfl' s)
  | mirAppend => exact kept_execMirAppend _ s (Kept.rfl' s)
  | mirAccept => exact kept_execMirAccept _ _ _ s (Kept.rfl' s)
  | mirState => exact kept_execMirState _ s (Kept.rfl' s)
  | mirRetract => exact kept_execMirRetract _ _ s (Kept.rfl' s)
  | mirSyncReq => exact kept_execMirSyncReq _ s (Kept.rfl' s)
  | mirSyncRsp => exact kept_execMirSyncRsp _ s (Kept.rfl' s)
  | powerLoss => exact kept_execPowerLoss s (Kept.rfl' s)
  | spaceRetry => exact kept_execSpaceRetry s (Kept.rfl' s)
  | housekeepingSlot => exact kept_execHousekeepingSlot _ _ s (Kept.rfl' s)
  | housekeepingRound => exact kept_execHousekeepingRound _ s (Kept.rfl' s)
  | ageingHour => exact kept_execAgeingHour s (Kept.rfl' s)
  | operatingHour => exact kept_execOperatingHour s (Kept.rfl' s)
  | tapInstruction => exact kept_execTapInstruction _ s (Kept.rfl' s)
  | unlock => exact kept_execUnlock _ s (Kept.rfl' s)
  | dmi => exact kept_execDmi _ s (Kept.rfl' s)
  | seqdbg => exact kept_execSeqdbg _ _ s (Kept.rfl' s)
  | blockLockLoss => exact kept_execBlockLockLoss _ s (Kept.rfl' s)
  | speedWidthChange => exact kept_execSpeedWidthChange _ _ _ s (Kept.rfl' s)

theorem step_of_pending_nil {s : State} (h : s.pending = []) : step s = .next { s with now := s.now + 1 } := by
  unfold step; rw [h]

theorem step_of_pending_cons {s : State} {c : Instr} {r : List Instr} (h : s.pending = c :: r) :
    step s = exec c { s with pending := r } := by
  unfold step; rw [h]

/-- A step keeps what every operation keeps of NOR, OTP and the system area: a command by `kept_exec`, a tick of the clock because
it changes none of it. -/
theorem nvmKept_of_step {s t : State} (h : step s = .next t) : NvmKept s.nvm t.nvm := by
  cases e : s.pending with
  | nil =>
    rw [step_of_pending_nil e] at h
    cases h
    exact NvmKept.rfl' _
  | cons c r =>
    rw [step_of_pending_cons e] at h
    exact ((kept_exec c { s with pending := r }).kept h).nvm

/-! ## What the operations of a start leave of the service level and the boot unit -/

/-- The device state, with its service level, and the boot unit, with the slot it booted, are the same. -/
structure SameStart (s t : State) : Prop where
  dev  : t.dev = s.dev
  boot : t.boot = s.boot

theorem SameStart.rfl' (s : State) : SameStart s s := ⟨rfl, rfl⟩

theorem SameStart.trans {s t u : State} (h : SameStart s t) (g : SameStart t u) : SameStart s u :=
  ⟨g.dev.trans h.dev, g.boot.trans h.boot⟩

/-- As `trans`, from a state written with other fields. -/
theorem SameStart.after {s x t : State} (h : SameStart x t) (hdev : x.dev = s.dev) (hboot : x.boot = s.boot) : SameStart s t :=
  SameStart.trans ⟨hdev, hboot⟩ h

theorem SameStart.foldl {α : Type} {f : State → α → State} (g : ∀ a b, SameStart a (f a b)) (l : List α) (s : State) :
    SameStart s (l.foldl f s) := by
  induction l generalizing s with
  | nil => exact .rfl' s
  | cons b r ih => exact (g s b).trans (ih (f s b))

theorem sameStart_raiseRec (s : State) (p : Page) (b : Nat) (sev : Fin 4) (tenant : Byte) (detail : List Byte) :
    SameStart s (s.raiseRec p b sev tenant detail) := ⟨by simp, by simp⟩

theorem sameStart_raiseRecStatus (s : State) (p : Page) (b : Nat) (sev : Fin 4) (tenant : Byte) :
    SameStart s (s.raiseRecStatus p b sev tenant) := ⟨by simp, by simp⟩

theorem sameStart_mirStateItem (s : State) (t : Tid) (item : Byte) (payload : List Byte) :
    SameStart s (s.mirStateItem t item payload) := by
  unfold State.mirStateItem
  split
  · exact ⟨by simp, by simp⟩
  · exact .rfl' s

theorem sameStart_meterIn (s : State) (cls : Fin 4) (n : Nat) : SameStart s (s.meterIn cls n) := ⟨rfl, rfl⟩

theorem sameStart_quotaNear (s : State) (t : Tid) : SameStart s (s.quotaNear t) := by
  unfold State.quotaNear
  split
  · exact ⟨by simp, by simp⟩
  · exact .rfl' s

theorem sameStart_recycleZone (s : State) (z : Nat) : SameStart s (s.recycleZone z) := by
  unfold State.recycleZone
  split
  · exact .rfl' s
  · rename_i x _
    have cleared : SameStart s ((s.zresetRecord z x 1).emptyZone z) := ⟨rfl, rfl⟩
    exact (cleared.trans (sameStart_mirStateItem _ _ _ _)).trans (sameStart_raiseRec _ _ _ _ _ _)

theorem sameStart_takeZone {s s1 : State} {t : Tid} {own recycle : Bool} {z : Nat}
    (h : s.takeZone t own recycle = .ok (z, s1)) : SameStart s s1 := by
  unfold State.takeZone at h
  split at h
  · cases h
    exact .rfl' s
  · dsimp only at h
    split at h
    · cases h
      exact (sameStart_quotaNear _ t).after rfl rfl
    · split at h
      · cases h
        exact sameStart_recycleZone s _
      · cases h

theorem sameStart_refillSet (s : State) (t : Tid) (n : Nat) : SameStart s (s.refillSet t n) := by
  induction n generalizing s with
  | zero => exact .rfl' s
  | succ n ih =>
    unfold State.refillSet
    split
    · rename_i z s1 h
      have marked : SameStart s1 (s1.updZone z (fun x => { x with inGustSet := true, used := false })) := ⟨rfl, rfl⟩
      exact ((sameStart_takeZone h).trans marked).trans (ih _)
    · exact .rfl' s

theorem sameStart_refillGust (s : State) (d : BoardDesc) : SameStart s (s.refillGust d) := by
  unfold State.refillGust
  exact (SameStart.foldl (fun a _ => sameStart_refillSet a _ _) _ _).after rfl rfl

theorem sameStart_holdTenant (s : State) (t : Tid) (at_ : Nat) : SameStart s (s.holdTenant t at_) := by
  unfold State.holdTenant
  dsimp only
  split
  · exact .rfl' s
  · refine SameStart.trans (SameStart.trans ?_ (sameStart_raiseRec _ _ _ _ _ _)) (sameStart_quotaNear _ t)
    refine SameStart.trans ?_ (SameStart.foldl (fun a p => ?_) _ _)
    · exact (SameStart.foldl (fun a _ => sameStart_meterIn a _ _) _ _).after rfl rfl
    · split
      · exact .rfl' a
      · exact sameStart_mirStateItem a _ _ _

theorem sameStart_holdPulse (s : State) (at_ : Nat) : SameStart s (s.holdPulse at_) :=
  SameStart.foldl (fun a t => sameStart_holdTenant a t at_) _ s

theorem sameStart_applyLatched (s : State) : SameStart s s.applyLatched := by
  unfold State.applyLatched
  exact (SameStart.foldl (fun a _ => sameStart_holdPulse a _) _ _).after rfl rfl

theorem sameStart_ackCause (s : State) : SameStart s s.ackCause := by
  unfold State.ackCause
  exact ⟨by simp, by simp⟩

theorem sameStart_startPorts (s : State) : SameStart s s.startPorts := by
  unfold State.startPorts
  constructor
  · simp only [apply_ite State.dev, State.advDue, ite_self]
  · simp only [apply_ite State.boot, State.advDue, ite_self]

theorem sameStart_unpair (s : State) (reason : BitVec 3) : SameStart s (s.unpair reason) := by
  unfold State.unpair
  dsimp only
  split <;> exact ⟨by simp, by simp⟩

theorem sameStart_enterResync (s : State) : SameStart s s.enterResync := by
  unfold State.enterResync
  dsimp only
  split
  · exact ⟨by simp, by simp⟩
  · exact ⟨rfl, rfl⟩

theorem sameStart_pairCheck (s : State) : SameStart s s.pairCheck := by
  unfold State.pairCheck
  dsimp only
  split
  · exact .rfl' s
  · split
    · split
      · exact sameStart_enterResync s
      · split
        · exact sameStart_unpair s _
        · exact .rfl' s
    · split
      · exact .rfl' s
      · exact sameStart_unpair s _

theorem setLevel_level (s : State) (l : Level) : (s.setLevel l).dev.level = l := by
  unfold State.setLevel
  split
  · assumption
  · simp

/-! ## The floor at FULL -/

theorem SameUnits.nor_floor {s t : State} (h : SameUnits s t) : t.nvm.nor = s.nvm.nor ∧ t.nvm.floor = s.nvm.floor := by
  obtain ⟨e⟩ := h
  simp only [State.units, Prod.mk.injEq] at e
  tauto

theorem SameUnits.slotHeader {s t : State} (h : SameUnits s t) (b : Bool) : t.slotHeader b = s.slotHeader b := by
  unfold State.slotHeader State.norAt
  rw [h.nor_floor.1]

theorem confirmSlot_floor {s : State} {b : Bool} (h : s.boot.booted = some b) :
    s.confirmSlot.nvm.floor = min 63 (max s.nvm.floor (fieldLe (s.slotHeader b) 0x10 4)) := by
  unfold State.confirmSlot
  rw [h]
  rfl

/-- A start that has everything FULL asks for reaches it, and leaves the units as the confirmed slot left them. -/
theorem execFull_reaches_full {s : State} {d : BoardDesc} (hd : s.boot.desc = some d) (hactive : s.active = true)
    (hlevel : s.dev.level = .gust) (hreplayed : s.boot.replayed = true) (hdram : s.boot.dramOk = true)
    (hprobe : s.probeSettled = true) (hmerged : s.nvm.zones.any (fun p => p.2.toMerge) = false) :
    ∃ u, execFull s = .next u ∧ u.dev.level = .full ∧ SameUnits (s.refillGust d).confirmSlot u := by
  unfold execFull
  rw [hd]
  dsimp only
  rw [if_pos (by simp [hactive, hlevel, hreplayed, hdram, hprobe, hmerged])]
  refine ⟨_, rfl, ?_, ?_⟩
  · rw [(sameStart_pairCheck _).dev]
    have ported (a : State) : a.ackCause.applyLatched.startPorts.dev = a.dev :=
      (((sameStart_ackCause a).trans (sameStart_applyLatched _)).trans (sameStart_startPorts _)).dev
    split
    · rw [(sameStart_raiseRecStatus _ _ _ _ _).dev, ported, setLevel_level]
    · rw [ported, setLevel_level]
  · apply units_pairCheck
    have ported (a : State) (h : SameUnits (s.refillGust d).confirmSlot a) :
        SameUnits (s.refillGust d).confirmSlot (a.setLevel .full).ackCause.applyLatched.startPorts :=
      units_startPorts _ (units_applyLatched _ (units_ackCause _ (units_setLevel _ _ h)))
    split
    · exact units_raiseRecStatus _ _ _ _ _ (ported _ ⟨rfl⟩)
    · exact ported _ ⟨rfl⟩

/-- The confirmed slot of a start that filled its gust sets raises the floor it had before them. -/
theorem refillGust_confirmSlot_floor {s : State} {b : Bool} (d : BoardDesc) (h : s.boot.booted = some b) :
    (s.refillGust d).confirmSlot.nvm.floor = min 63 (max s.nvm.floor (fieldLe (s.slotHeader b) 0x10 4)) := by
  have units : SameUnits s (s.refillGust d) := units_refillGust s d (.rfl' s)
  have booted : (s.refillGust d).boot.booted = some b := by rw [(sameStart_refillGust s d).boot, h]
  rw [confirmSlot_floor booted, units.nor_floor.2, units.slotHeader]

/-- Settles O10: no step lowers the floor or takes it past 63 by what every step keeps, and FULL raises it to the larger of the
floor and the image's ROLLBACK_INDEX, both at most 63. -/
theorem theFloorOnlyRises : Obligations.TheFloorOnlyRises := by
  unfold Obligations.TheFloorOnlyRises
  refine ⟨fun s t hs h => (nvmKept_of_step h).floor hs, ?_⟩
  intro s d b hd hb hactive hlevel hreplayed hdram hprobe hmerged hfloor hindex
  obtain ⟨u, hu, hfull, hunits⟩ := execFull_reaches_full hd hactive hlevel hreplayed hdram hprobe hmerged
  have raised : u.nvm.floor = max s.nvm.floor (fieldLe (s.slotHeader b) 0x10 4) := by
    rw [hunits.nor_floor.2, refillGust_confirmSlot_floor d hb, min_eq_right (max_le hfloor hindex)]
  exact ⟨u, hu, hfull, fun h => raised.trans (max_eq_right h.le), fun h => raised.trans (max_eq_left h)⟩

end Sys2Proof.Machine
end

section
/-!
PROOFS. Doorbells (07 R188). Three layers: how an event and a counted error show in a tenant's page; why a doorbell is refused, one
equation per guard of `State.doorbellFault`; and what `State.doorbell` does with the answer. Nothing in a refusal reaches a
queue pair, and an accepted doorbell is one `State.updQp`.
-/
namespace Sys2Proof.Machine

/-! ## A tenant's page -/

@[simp] theorem tenantOfPage_pTNT (t : Tid) : tenantOfPage (pTNT t) = some t := by
  simp [tenantOfPage, pTNT]

theorem pTNT_ne_pDEV (t : Tid) : pTNT t ≠ pDEV := by
  intro h
  have none_some := congrArg tenantOfPage h
  rw [tenantOfPage_pTNT] at none_some
  exact absurd none_some (by simp [tenantOfPage, pDEV])

/-- The headers after an event the tenant may see: its page's status gains the bit. -/
theorem raiseTnt_hdr_set (s : State) (t : Tid) (b : Nat) (hbit : 0x3FFFF#32 &&& bitW true b ≠ 0#32)
    (hseen : s.eventAllowed t b = true) :
    (s.raiseTnt t b).hdr =
      s.hdr.set (pTNT t) { s.hdr[pTNT t] with intStatus := s.hdr[pTNT t].intStatus ||| bitW true b } := by
  have hmask : intMask (pTNT t) &&& bitW true b ≠ 0#32 := by simpa [intMask] using hbit
  unfold State.raiseTnt State.raise
  dsimp only
  rw [if_neg hmask, tenantOfPage_pTNT]
  dsimp only
  rw [if_pos hseen]
  split
  · rw [requestTenant_hdr]; rfl
  · rfl

/-- DOORBELL_ERR belongs to no feature, so every tenant sees it. -/
theorem raiseTnt_doorbellErr_bit (s : State) (t : Tid) : (s.raiseTnt t 14).bit (pTNT t) 14 = true := by
  unfold State.bit
  rw [raiseTnt_hdr_set s t 14 (by decide) rfl]
  simp [bitW_bit 14 (by decide)]

/-- An event leaves every page's error registers. -/
theorem raise_err (s : State) (p r : Page) (b : Nat) : ((s.raise p b).hdr[r]).errCause = (s.hdr[r]).errCause ∧
    ((s.raise p b).hdr[r]).errAddr = (s.hdr[r]).errAddr ∧ ((s.raise p b).hdr[r]).errCount = (s.hdr[r]).errCount := by
  rcases raise_hdr s p b with unchanged | gained
  · simp [unchanged]
  · simp only [gained, Fin.getElem_fin, Vector.getElem_set]
    split
    · rename_i same
      simp [same]
    · simp

/-- An error counted in a tenant page changes that page's error registers alone. -/
theorem countErr_pTNT (s : State) (t : Tid) (cause : Byte) (a : Word) : s.countErr (pTNT t) cause a =
    s.updHdr (pTNT t) (fun h => { h with errCause := cause, errAddr := a, errCount := satInc h.errCount }) :=
  if_neg (pTNT_ne_pDEV t)

/-! ## A refused doorbell -/

/-- A doorbell error is counted in the tenant page, sets DOORBELL_ERR and leaves the tenant's queue pairs (R188). -/
theorem doorbellErr_reports (s : State) (t : Tid) (cause : Byte) (a : Word) :
    ((s.doorbellErr t cause a).hdr[pTNT t]).errCause = cause ∧ ((s.doorbellErr t cause a).hdr[pTNT t]).errAddr = a ∧
      ((s.doorbellErr t cause a).hdr[pTNT t]).errCount = satInc (s.hdr[pTNT t]).errCount ∧
      (s.doorbellErr t cause a).bit (pTNT t) 14 = true ∧ (s.doorbellErr t cause a).tnt[t].qps = s.tnt[t].qps := by
  have noticed : (s.doorbellErr t cause a).bit (pTNT t) 14 = true :=
    raise_keeps _ pHQM (pTNT t) 1 14 (raiseTnt_doorbellErr_bit _ t)
  rw [noticed]
  simp only [State.doorbellErr, State.raiseTnt, raise_err, raise_tnt_qps, countErr_pTNT]
  simp [State.updHdr]

section Fault
variable {s : State} {t : Tid} {q : Qid} {head : Bool} {k : Nat}

/-- While the tenant's reset runs no doorbell is taken (R221). -/
theorem doorbellFault_of_resetting (h : s.tnt[t].resetDone = false) : s.doorbellFault t q head k = some 0x84#8 := by
  simp [State.doorbellFault, -Fin.getElem_fin, h]

theorem doorbellFault_of_disabled (hdone : s.tnt[t].resetDone = true) (h : (s.tnt[t].qp q).enabled = false) :
    s.doorbellFault t q head k = some 0x80#8 := by
  simp [State.doorbellFault, -Fin.getElem_fin, hdone, h]

theorem doorbellFault_of_depth_le (hdone : s.tnt[t].resetDone = true) (hen : (s.tnt[t].qp q).enabled = true)
    (h : (s.tnt[t].qp q).depth ≤ k) : s.doorbellFault t q head k = some 0x81#8 := by
  simp [State.doorbellFault, -Fin.getElem_fin, hdone, hen, h]

/-- An index of an enabled queue pair within its depth is refused for what it passes alone: a head for entries not yet written, a
tail for more than D − 1 descriptors (R185, R186). -/
theorem doorbellFault_of_lt_depth (hdone : s.tnt[t].resetDone = true) (hen : (s.tnt[t].qp q).enabled = true)
    (h : k < (s.tnt[t].qp q).depth) :
    s.doorbellFault t q head k =
      if head then
        if ((s.tnt[t].qp q).cqTail + (s.tnt[t].qp q).depth - (s.tnt[t].qp q).cqHead) % (s.tnt[t].qp q).depth <
          (k + (s.tnt[t].qp q).depth - (s.tnt[t].qp q).cqHead) % (s.tnt[t].qp q).depth then some 0x82#8 else none
      else
        if ((s.tnt[t].qp q).sqHead + (s.tnt[t].qp q).depth - 1 - (s.tnt[t].qp q).sqTail) % (s.tnt[t].qp q).depth <
          (k + (s.tnt[t].qp q).depth - (s.tnt[t].qp q).sqTail) % (s.tnt[t].qp q).depth then some 0x83#8 else none := by
  simp [State.doorbellFault, -Fin.getElem_fin, hdone, hen, Nat.not_le.mpr h]

/-- The causes R188 gives a tail. -/
theorem doorbellFault_tail {cause : Byte} (hdone : s.tnt[t].resetDone = true)
    (h : (s.tnt[t].qp q).enabled = false ∧ cause = 0x80#8 ∨
      (s.tnt[t].qp q).enabled = true ∧ (s.tnt[t].qp q).depth ≤ k ∧ cause = 0x81#8 ∨
      (s.tnt[t].qp q).enabled = true ∧ k < (s.tnt[t].qp q).depth ∧ cause = 0x83#8 ∧
        ((s.tnt[t].qp q).sqHead + (s.tnt[t].qp q).depth - 1 - (s.tnt[t].qp q).sqTail) % (s.tnt[t].qp q).depth <
          (k + (s.tnt[t].qp q).depth - (s.tnt[t].qp q).sqTail) % (s.tnt[t].qp q).depth) :
    s.doorbellFault t q false k = some cause ∧ cause ≠ 0x84#8 := by
  obtain ⟨disabled, rfl⟩ | ⟨enabled, beyond, rfl⟩ | ⟨enabled, within, rfl, full⟩ := h
  · exact ⟨doorbellFault_of_disabled hdone disabled, by decide⟩
  · exact ⟨doorbellFault_of_depth_le hdone enabled beyond, by decide⟩
  · exact ⟨by simp [-Fin.getElem_fin, doorbellFault_of_lt_depth hdone enabled within, full], by decide⟩

/-- The causes R188 gives a head. -/
theorem doorbellFault_head {cause : Byte} (hdone : s.tnt[t].resetDone = true)
    (h : (s.tnt[t].qp q).enabled = false ∧ cause = 0x80#8 ∨
      (s.tnt[t].qp q).enabled = true ∧ (s.tnt[t].qp q).depth ≤ k ∧ cause = 0x81#8 ∨
      (s.tnt[t].qp q).enabled = true ∧ k < (s.tnt[t].qp q).depth ∧ cause = 0x82#8 ∧
        ((s.tnt[t].qp q).cqTail + (s.tnt[t].qp q).depth - (s.tnt[t].qp q).cqHead) % (s.tnt[t].qp q).depth <
          (k + (s.tnt[t].qp q).depth - (s.tnt[t].qp q).cqHead) % (s.tnt[t].qp q).depth) :
    s.doorbellFault t q true k = some cause ∧ cause ≠ 0x84#8 := by
  obtain ⟨disabled, rfl⟩ | ⟨enabled, beyond, rfl⟩ | ⟨enabled, within, rfl, unwritten⟩ := h
  · exact ⟨doorbellFault_of_disabled hdone disabled, by decide⟩
  · exact ⟨doorbellFault_of_depth_le hdone enabled beyond, by decide⟩
  · exact ⟨by simp [-Fin.getElem_fin, doorbellFault_of_lt_depth hdone enabled within, unwritten], by decide⟩

end Fault

/-! ## What a doorbell does -/

section Doorbell
variable {s : State} {v : DbView} {t : Tid} {q : Qid} {head : Bool} {be : BitVec 4} {val a : Word}

/-- Host traffic touches no tenant, so no doorbell's verdict either. -/
@[simp] theorem doorbellFault_hostTouch (s : State) (t : Tid) (q : Qid) (head : Bool) (k : Nat) :
    s.hostTouch.doorbellFault t q head k = s.doorbellFault t q head k := rfl

theorem doorbell_of_resetting (h : s.tnt[t].resetDone = false) :
    s.hostTouch.doorbell v t q head val a = s.hostTouch.countErr (pTNT t) 0x84#8 a := by
  simp [State.doorbell, doorbellFault_of_resetting h]

/-- Any other refusal is a doorbell error under its own cause; 0x84 alone is counted without DOORBELL_ERR. -/
theorem doorbell_of_refused {cause : Byte}
    (h : s.doorbellFault t q head (bits val 11 0) = some cause ∧ cause ≠ 0x84#8) :
    s.hostTouch.doorbell v t q head val a = s.hostTouch.doorbellErr t cause a := by
  simp [State.doorbell, h]

/-- An accepted doorbell with zero reserved bits moves the index it is of. -/
theorem doorbell_of_accepted (h : s.doorbellFault t q head (bits val 11 0) = none) (hrsv : bits val 31 12 = 0) :
    s.hostTouch.doorbell v t q head val a =
      s.hostTouch.updQp t q (fun y => if head then { y with cqHead := bits val 11 0 } else { y with sqTail := bits val 11 0 }) := by
  simp [State.doorbell, h, hrsv]

theorem exec_submissionTailDoorbell (h : s.routeDoorbell v q false be = .tenant t a) :
    exec (.submissionTailDoorbell v q be val) s = .next (s.hostTouch.doorbell v t q false val a) := by
  simp [exec, execSubmissionTailDoorbell, h]

theorem exec_completionHeadDoorbell (h : s.routeDoorbell v q true be = .tenant t a) :
    exec (.completionHeadDoorbell v q be val) s = .next (s.hostTouch.doorbell v t q true val a) := by
  simp [exec, execCompletionHeadDoorbell, h]

/-- Changes that agree on the queue pair as it stands are the same change. -/
theorem updQp_congr {f g : Qp → Qp} (h : f (s.tnt[t].qp q) = g (s.tnt[t].qp q)) : s.updQp t q f = s.updQp t q g := by
  unfold Tenant.qp at h
  simp only [State.updQp, State.updTnt, h]

end Doorbell

/-- Settles O12: a refused doorbell is a doorbell error, which reaches no queue pair, and an accepted one is one change of its
index, which is none when a tail is the current one. -/
theorem doorbellsMoveTheirIndex : Obligations.DoorbellsMoveTheirIndex := by
  unfold Obligations.DoorbellsMoveTheirIndex
  intro s v q be val t a
  refine ⟨fun route => ?tail, fun route => ?head⟩
  case tail =>
    rw [exec_submissionTailDoorbell route]
    refine ⟨fun resetting => by rw [doorbell_of_resetting resetting], fun hdone cause refused => ?_,
      fun hdone enabled within room hrsv => ?_⟩
    · rw [doorbell_of_refused (doorbellFault_tail hdone refused)]
      exact ⟨_, rfl, doorbellErr_reports s.hostTouch t cause a⟩
    · have accepted : s.doorbellFault t q false (bits val 11 0) = none := by
        simp [-Fin.getElem_fin, doorbellFault_of_lt_depth hdone enabled within, room]
      rw [doorbell_of_accepted accepted hrsv]
      exact ⟨rfl, fun same => congrArg _ (updQp_congr (by simp [same, State.hostTouch]))⟩
  case head =>
    rw [exec_completionHeadDoorbell route]
    refine ⟨fun resetting => by rw [doorbell_of_resetting resetting], fun hdone cause refused => ?_,
      fun hdone enabled within written hrsv => ?_⟩
    · rw [doorbell_of_refused (doorbellFault_head hdone refused)]
      exact ⟨_, rfl, doorbellErr_reports s.hostTouch t cause a⟩
    · have accepted : s.doorbellFault t q true (bits val 11 0) = none := by
        simp [-Fin.getElem_fin, doorbellFault_of_lt_depth hdone enabled within, written]
      rw [doorbell_of_accepted accepted hrsv]
      rfl

end Sys2Proof.Machine
end

section
/-!
PROOFS. The chain step (08 R254). The length of the chain input and the command's header bytes are facts about byte strings. What
the step stores is one change of its zone and one of its tenant's chain: the pipe, the command and the mirror partner, which it
also serves, reach neither, so the head and the tag log are read off those two changes.
-/
namespace Sys2Proof.Machine

/-! ## The chain input -/

@[simp] theorem length_leBytes (n v : Nat) : (leBytes n v).length = n := by
  induction n generalizing v with
  | zero => rfl
  | succ n ih => simp [leBytes, ih]

@[simp] theorem length_beBytes (n v : Nat) : (beBytes n v).length = n := by simp [beBytes]

@[simp] theorem length_hashBytes (h : Hash) : (hashBytes h).length = 32 := length_beBytes 32 _

/-- The input of a chain step, laid out as the table "Chain input" (08 R254). -/
def chainInput (h : Hash) (tag : QWord) (zone off len : Nat) (hhash : Hash) : List Byte :=
  hashBytes h ++ beBytes 16 tag.toNat ++ beBytes 4 zone ++ beBytes 4 off ++ beBytes 4 len ++ hashBytes hhash

theorem chainNext_eq_sha256 (h : Hash) (tag : QWord) (zone off len : Nat) (hhash : Hash) :
    chainNext h tag zone off len hhash = Config.sha256 (chainInput h tag zone off len hhash) := rfl

theorem length_chainInput (h : Hash) (tag : QWord) (zone off len : Nat) (hhash : Hash) :
    (chainInput h tag zone off len hhash).length = 92 := by simp [chainInput]

/-! ## Header bytes -/

@[simp] theorem joinChunks_zero (m : KMap (List Byte)) : joinChunks m 0 = [] := by simp [joinChunks, padTo, zeroBytes]

theorem hdrBytes_of_hlen_zero {c : Cmd} (append : c.desc.opc = 0x03#8) (hlen : c.desc.hlen = 0) : c.hdrBytes = [] := by
  have unread : c.desc.hdrLen = 0 := by simp [Desc.hdrLen, append, hlen]
  rw [Cmd.hdrBytes, unread, joinChunks_zero]

/-! ## What the chain step stores -/

/-- An entry that goes to the mirror partner or not changes nothing stored. -/
theorem sameStore_ite_mirAppendSend (s : State) (streams : Bool) (t : Tid) (z : Nat) (e : AppRec) :
    SameStore s (if streams then s.mirAppendSend t z e else s) := by
  split
  · exact stored_mirAppendSend s t z e (.rfl' s)
  · exact .rfl' s

theorem SameStore.zones_chains {s t : State} (h : SameStore s t) : t.nvm.zones = s.nvm.zones ∧ t.nvm.chains = s.nvm.chains := by
  have stored := h.eq
  simp only [State.stored, Prod.mk.injEq] at stored
  obtain ⟨zones, -, chains, -⟩ := stored
  exact ⟨zones, chains⟩

theorem zone_of_upd {s u : State} {k : Nat} {z : Zone} {f : Zone → Zone} (held : s.zone k = some z)
    (zones : u.nvm.zones = s.nvm.zones.upd k f) : u.zone k = some (f z) := by
  rw [State.zone] at held ⊢
  simp [zones, KMap.find_upd, held]

/-- An append's chain step changes of the zones only its own, whose tag log takes the entry that holds the next head, and of the
chains only its tenant's, which takes that head with the next index. -/
theorem exec_sealChainStep_stores {s : State} {tag : Tag} {c : Cmd} {z : Zone} {key : Hash × Word} {g : QWord}
    (cmd : s.cmd tag = some c) (gtag : c.gtag = some g) (zone : s.zone c.zoneId = some z) (gcm : s.tnt[c.tenant].gcm = some key)
    (opc : c.desc.opc = 0x03#8) (shared : c.phase = .shared) (fresh : c.chained = false) (awake : s.awake = true)
    (calm : s.squall.running = false) (masks : s.ciph.g.maskWait = false) :
    ∃ u e, exec (.sealChainStep tag) s = .next u ∧
      e.index = s.nvm.chains[c.tenant].index + 1 ∧
      e.head = chainNext (s.chainHead c.tenant) g c.zoneId c.offset c.desc.len.toNat (Config.sha256 c.hdrBytes) ∧
      u.nvm.zones = s.nvm.zones.upd c.zoneId (fun x => { x with
        log := x.log ++ [e], wp := c.offset + blocksOf c.desc.len.toNat, used := x.used || x.inGustSet }) ∧
      u.nvm.chains = s.nvm.chains.set c.tenant { index := e.index, head := e.head } := by
  simp only [exec, execSealChainStep, cmd, gtag, zone, gcm]
  rw [if_neg (by simp [opc, shared, fresh, awake, calm, masks])]
  obtain ⟨zones, chains⟩ := (sameStore_ite_mirAppendSend _ _ _ _ _).zones_chains
  exact ⟨_, _, rfl, rfl, rfl, zones, chains⟩

/-- Settles O16: the head the step stores is the hash of `chainInput`, and the changed chain and zone are read at each tenant and at
the append's zone. -/
theorem theChainIsHashed : Obligations.TheChainIsHashed := by
  unfold Obligations.TheChainIsHashed
  intro s tag c z key g cmd gtag zone gcm opc shared fresh awake calm masks _
  obtain ⟨u, e, step, index, head, zones, chains⟩ :=
    exec_sealChainStep_stores cmd gtag zone gcm opc shared fresh awake calm masks
  rw [chainNext_eq_sha256] at head
  refine ⟨u, _, step, length_chainInput _ _ _ _ _ _, rfl, ?own, fun t other => ?others, hdrBytes_of_hlen_zero opc,
    _, e, zone_of_upd zone zones, rfl, index, head⟩
  case own => simp [chains, index, head]
  case others =>
    have apart : (c.tenant : Nat) ≠ t := fun h => other (Fin.ext h.symm)
    simp [chains, Vector.getElem_set_ne, apart]

end Sys2Proof.Machine
end

section
/-!
PROOFS. The SPI target's FIFOs (13 R400 to R404, R427). What an accepted and a refused register write come to is said once for
every page that lies in no gateable domain; on the SPI page the bits stored under the write and the link traffic of the access
reach neither FIFO. The three events of the bus have one equation per branch.
-/
namespace Sys2Proof.Machine

/-! ## A write that reaches its register -/

section Write
variable {s : State} {p : Page} {off : Nat} {w : Wr} {r : Reg}

/-- An access of a page in no gateable domain touches the link alone (05 R122). -/
theorem touchPage_of_ungated (ungated : pageDomain p = none) (s : State) (src : Src) :
    ∃ l, s.touchPage src p = { s with pcie := l } := by
  unfold State.touchPage
  rw [ungated]
  dsimp only
  split
  · exact ⟨s.pcie, rfl⟩
  · exact ⟨_, rfl⟩

theorem touchPage_locked_of_ungated (ungated : pageDomain p = none) (s : State) (src : Src) :
    ((s.touchPage src p).hdr[p]).locked = (s.hdr[p]).locked := by
  obtain ⟨l, touched⟩ := touchPage_of_ungated ungated s src
  rw [touched]

/-- Whether an access comes from a VF: a tenant page refuses some writes of a VF alone (05 R119). -/
def fromVf : Src → Bool
  | .vf _ => true
  | _ => false

/-- A whole write that reaches a register of a page whose tenant's reset does not run is judged there, after its access (05 R116). -/
theorem writeReg_of_found {a : Word} (reached : s.reach w.src p off = .at_ a)
    (found : (s.touchPage w.src p).regAt p off = some r) (whole : w.be = 15#4)
    (settled : (s.touchPage w.src p).resettingPage p = false) (data : List Byte) (failed : Bool) :
    s.writeReg p off w data failed = (s.touchPage w.src p).writeHere p (fromVf w.src) off r w.val a data failed := by
  simp only [State.writeReg, reached, found, whole, settled]
  rfl

/-- A write with no bit out of place and no refusal is counted nowhere: all the register's writable bits act and are stored. -/
theorem writeHere_of_allowed {vf : Bool} {v : Word} (writable : r.writable ≠ 0#32)
    (fixed : (v ^^^ r.val) &&& ~~~ r.writable = 0#32) (unlocked : (s.hdr[p]).locked = false ∨ r.rwl = 0#32)
    (allowed : s.refusal p vf off v = none) (a : Word) (data : List Byte) (failed : Bool) :
    s.writeHere p vf off r v a data failed = s.applyWrite p off r false v data failed := by
  have free : ((s.hdr[p]).locked && decide (r.rwl ≠ 0#32)) = false := by
    rcases unlocked with h | h <;> simp [h, -Fin.getElem_fin]
  simp only [State.writeHere, free, fixed, allowed]
  simp [writable]

/-- A write of an unlocked register that the owning chapter refuses is counted in the page with the refusal's cause. -/
theorem writeHere_of_refused {vf : Bool} {v : Word} {cause : Byte} (writable : r.writable ≠ 0#32)
    (unlocked : (s.hdr[p]).locked = false) (refused : s.refusal p vf off v = some cause) (a : Word) (data : List Byte)
    (failed : Bool) :
    s.writeHere p vf off r v a data failed = (s.countErr p cause a).refused p off cause := by
  simp [State.writeHere, writable, unlocked, refused, -Fin.getElem_fin]

theorem writeReg_of_takes (ungated : pageDomain p = none) (took : s.takes p off w r) (data : List Byte) (failed : Bool) :
    s.writeReg p off w data failed = (s.touchPage w.src p).applyWrite p off r false w.val data failed := by
  obtain ⟨⟨a, reached⟩, found, whole, settled, writable, fixed, unlocked, allowed⟩ := took
  rw [← touchPage_locked_of_ungated ungated s w.src] at unlocked
  rw [writeReg_of_found reached found whole settled]
  exact writeHere_of_allowed writable fixed unlocked allowed a data failed

end Write

/-! ## A write to the SPI page -/

@[simp] theorem State.storeReg_spit (s : State) (p : Page) (off : Nat) (r : Reg) (mask v : Word) :
    (s.storeReg p off r mask v).spit = s.spit := by
  unfold State.storeReg
  split
  · rfl
  · exact s.setReg_spit ..

/-- From 0x100 on, what a write does on a block page is what its acting registers do. -/
theorem act_of_block {p : Page} {off : Nat} (block : tenantOfPage p = none) (above : 0x100 ≤ off) (s : State) (v : Word)
    (data : List Byte) (failed : Bool) : s.act p off v data failed = s.actBlock p off v data failed := by
  unfold State.act
  split
  case h_5 =>
    rw [block]
    dsimp only
    have notCtrl : off ≠ 0x020 := by omega
    rw [if_neg (by simp [notCtrl])]
  all_goals omega

/-- A write that takes effect leaves the SPI target as its acting register made it. -/
theorem writeReg_spit_of_takes {s : State} {off : Nat} {w : Wr} {r : Reg} (took : s.takes pSPIT off w r) (above : 0x100 ≤ off)
    (data : List Byte) (failed : Bool) : ∃ l, (s.writeReg pSPIT off w data failed).spit =
      (({ s with pcie := l } : State).actBlock pSPIT off (w.val &&& r.writable) data failed).spit := by
  obtain ⟨l, touched⟩ := touchPage_of_ungated (p := pSPIT) (by decide) s w.src
  refine ⟨l, ?_⟩
  rw [writeReg_of_takes (by decide) took, touched, State.applyWrite, if_neg (by decide), if_neg (by decide),
    State.storeReg_spit, act_of_block (by decide) above]
  rfl

theorem exec_spitTxData_takes {s : State} {w : Wr} {r : Reg} (took : s.takes pSPIT 0x108 w r) :
    ∃ u, exec (.spitTxData w) s = .next u ∧ u.spit = (s.spitTx (w.val &&& r.writable)).spit := by
  obtain ⟨_, acted⟩ := writeReg_spit_of_takes took (by decide) [] (bits w.val 3 0 ≠ 3)
  exact ⟨_, rfl, acted⟩

theorem exec_spitRxPop_takes {s : State} {w : Wr} {r : Reg} (took : s.takes pSPIT 0x110 w r)
    (pop : (w.val &&& r.writable).getLsbD 0 = true) :
    ∃ u, exec (.spitRxPop w) s = .next u ∧ u.spit = s.spitPop.spit := by
  obtain ⟨l, acted⟩ := writeReg_spit_of_takes took (by decide) [] (bits w.val 3 0 ≠ 3)
  refine ⟨_, rfl, acted.trans ?_⟩
  show (if (w.val &&& r.writable).getLsbD 0 then ({ s with pcie := l } : State).spitPop else { s with pcie := l }).spit = _
  rw [if_pos pop]
  rfl

theorem exec_spitCtrl_takes {s : State} {w : Wr} {r : Reg} (took : s.takes pSPIT 0x100 w r) :
    ∃ u, exec (.spitCtrl w) s = .next u ∧ u.spit = if bits (w.val &&& r.writable) 1 0 ≠ s.spitWord.toNat then
      { s.spit with tx := [], rx := [], last := 0#32 } else s.spit := by
  obtain ⟨l, acted⟩ := writeReg_spit_of_takes took (by decide) [] (bits w.val 3 0 ≠ 3)
  exact ⟨_, rfl, acted.trans (apply_ite State.spit _ _ _)⟩

/-- SPIT_TX_DATA has writable bits in each width. -/
theorem regAt_spitTxData_writable {s : State} {r : Reg} (found : s.regAt pSPIT 0x108 = some r) : r.writable ≠ 0#32 := by
  have same : r = { val := 0, rw := 0, rwl := 0, act := BitVec.ofNat 32 (2 ^ wordBits s.spitWord - 1) } :=
    (Option.some.inj found).symm
  subst same
  simp only [Reg.writable, wordBits]
  split
  · decide
  · split <;> decide

/-- A push into the full transmit FIFO is ignored and counted with cause 0x81 (R404). -/
theorem exec_spitTxData_of_full {s : State} {w : Wr} {r : Reg} {a : Word} (reached : s.reach w.src pSPIT 0x108 = .at_ a)
    (found : (s.touchPage w.src pSPIT).regAt pSPIT 0x108 = some r) (whole : w.be = 15#4)
    (unlocked : (s.hdr[pSPIT]).locked = false) (full : 64 ≤ s.spit.tx.length) :
    ∃ u, exec (.spitTxData w) s = .next u ∧ u.spit = s.spit ∧ (u.hdr[pSPIT]).errCause = 0x81#8 ∧
      (u.hdr[pSPIT]).errCount = satInc (s.hdr[pSPIT]).errCount := by
  obtain ⟨l, touched⟩ := touchPage_of_ungated (p := pSPIT) (by decide) s w.src
  have refused (vf : Bool) : (s.touchPage w.src pSPIT).refusal pSPIT vf 0x108 w.val = some 0x81#8 := by
    rw [touched]
    exact if_pos full
  have counted : s.writeReg pSPIT 0x108 w [] (bits w.val 3 0 ≠ 3) =
      ((s.touchPage w.src pSPIT).countErr pSPIT 0x81#8 a).refused pSPIT 0x108 0x81#8 := by
    rw [← touchPage_locked_of_ungated (by decide) s w.src] at unlocked
    rw [writeReg_of_found reached found whole rfl,
      writeHere_of_refused (regAt_spitTxData_writable found) unlocked (refused _)]
  rw [touched] at counted
  refine ⟨_, congrArg Host.Outcome.next counted, ?_⟩
  simp [State.refused, State.countErr, State.updHdr, tenantOfPage, pSPIT, pDEV, pIRQ, pQSPI]

/-! ## Events on the SPI bus -/

section Bus
variable {s : State}

/-- The SPI page is a block of 8 sources (05 R137), so each of its events shows. -/
theorem raise_pSPIT_bit (s : State) {b : Nat} (h : b < 8) : (s.raise pSPIT b).bit pSPIT b = true := by
  refine raise_bit s pSPIT b (by omega) ?_ rfl
  revert b
  decide

/-- A received word is kept at the width in effect while fewer than 64 wait (R401). -/
theorem exec_spitWordReceived_of_room (active : s.active = true) (pad : s.dev.pad.spit = true)
    (normal : s.dev.romRecovery = false) (room : s.spit.rx.length < 64) (word : Word) :
    exec (.spitWordReceived word) s = .next (({ s with spit := { s.spit with
      rx := s.spit.rx ++ [BitVec.ofNat 32 (word.toNat % 2 ^ wordBits s.spit.width)] } } : State).raise pSPIT 0) := by
  simp [exec, execSpitWordReceived, active, pad, normal, Nat.not_le.mpr room]

/-- A word received while 64 wait is lost and counted (R401). -/
theorem exec_spitWordReceived_of_full (active : s.active = true) (pad : s.dev.pad.spit = true)
    (normal : s.dev.romRecovery = false) (full : 64 ≤ s.spit.rx.length) (word : Word) :
    exec (.spitWordReceived word) s = .next
      (({ s with spit := { s.spit with overflow := true, lost := satInc s.spit.lost } } : State).raise pSPIT 3) := by
  simp [exec, execSpitWordReceived, active, pad, normal, full]

theorem exec_spitCsRise_within (active : s.active = true) (pad : s.dev.pad.spit = true) :
    exec (.spitCsRise true) s = .next (({ s with spit := { s.spit with partial_ := true } } : State).raise pSPIT 4) := by
  simp [exec, execSpitCsRise, active, pad]

/-- The width in effect from a word's start: WORD is taken at the first word of a frame (R404), and the ROM's is 32 bits. -/
def State.spitWidthFrom (s : State) (first : Bool) : BitVec 2 :=
  if first then (if s.dev.romRecovery then 2#2 else s.spitWord) else s.spit.width

theorem exec_spitWordTake_of_cons (active : s.active = true) (pad : s.dev.pad.spit = true) {x : Word} {l : List Word}
    (waiting : s.spit.tx = x :: l) (first : Bool) :
    exec (.spitWordTake first) s = .next
      ((if l = [] then ({ s with spit := { s.spit with tx := l, last := x, width := s.spitWidthFrom first } } : State).raise pSPIT 1
        else { s with spit := { s.spit with tx := l, last := x, width := s.spitWidthFrom first } }).emit (.spiWord x)) := by
  cases first <;> simp [exec, execSpitWordTake, active, pad, waiting, State.spitWidthFrom]

theorem exec_spitWordTake_of_nil (active : s.active = true) (pad : s.dev.pad.spit = true) (empty : s.spit.tx = [])
    (first : Bool) :
    exec (.spitWordTake first) s = .next
      ((({ s with spit := { s.spit with
        underrun := true, repeats := satInc s.spit.repeats, width := s.spitWidthFrom first } } : State).raise pSPIT 2).emit
          (.spiWord s.spit.last)) := by
  cases first <;> simp [exec, execSpitWordTake, active, pad, empty, State.spitWidthFrom]

theorem mem_emit_outbox (s : State) (o : Output) : o ∈ (s.emit o).outbox := by simp [State.emit]

@[simp] theorem emit_bit (s : State) (o : Output) (p : Page) (b : Nat) : (s.emit o).bit p b = s.bit p b := rfl

end Bus

/-- Settles O35: each bus event is one equation per branch, and each accepted write is what its acting register does. -/
theorem spiTargetMovesWords : Obligations.SpiTargetMovesWords := by
  unfold Obligations.SpiTargetMovesWords
  intro s active pad
  refine ⟨fun word normal room => ?kept, fun word normal full => ?lost, fun first x l waiting => ?taken,
    fun first empty => ?repeated, rfl, ⟨_, rfl, rfl, by simp [Reg.writable]⟩,
    fun w r reached found whole unlocked full => ?refused, ?cut, ?uncut,
    fun w r took => exec_spitTxData_takes took, fun w r took pop => exec_spitRxPop_takes took pop, fun w r took => ?width⟩
  case kept =>
    exact ⟨_, exec_spitWordReceived_of_room active pad normal room word, by simp, raise_pSPIT_bit _ (by decide)⟩
  case lost =>
    exact ⟨_, exec_spitWordReceived_of_full active pad normal full word, by simp, raise_pSPIT_bit _ (by decide)⟩
  case taken =>
    refine ⟨_, exec_spitWordTake_of_cons active pad waiting first, ?_, mem_emit_outbox _ _, ?_⟩
    · split <;> simp [State.spitWidthFrom]
    · rintro rfl
      rw [emit_bit, if_pos rfl]
      exact raise_pSPIT_bit _ (by decide)
  case repeated =>
    exact ⟨_, exec_spitWordTake_of_nil active pad empty first, mem_emit_outbox _ _, raise_pSPIT_bit _ (by decide),
      by simp [State.spitWidthFrom]⟩
  case refused =>
    obtain ⟨a, reached⟩ := reached
    exact exec_spitTxData_of_full reached found whole unlocked full
  case cut => exact ⟨_, exec_spitCsRise_within active pad, by simp, raise_pSPIT_bit _ (by decide)⟩
  case uncut => simp [exec, execSpitCsRise]
  case width =>
    obtain ⟨u, step, spit⟩ := exec_spitCtrl_takes took
    exact ⟨u, step, fun new => by rw [spit, if_pos new], fun same => by rw [spit, if_neg (not_not.mpr same)]⟩

end Sys2Proof.Machine
end

section
/-!
PROOFS. Packets that arrive (14 R442, R445, R453). What a port counts of the packets it receives is reached by a packet's
acceptance and by its discard alone: sending on any port leaves it, and a link that fails loses its sequence numbers and no count.
From that, PACKET_RECEIVE has one equation for each of its answers, and each is read off the port it changed.
-/
namespace Sys2Proof.Machine

/-! ## One port of four -/

theorem updVfl_same (s : State) (p : Fin 4) (f : VflS → VflS) : (s.updVfl p f).vfl[p] = f s.vfl[p] := by
  simp [State.updVfl]

theorem updVfl_other (s : State) {p q : Fin 4} (f : VflS → VflS) (apart : q ≠ p) : (s.updVfl p f).vfl[q] = s.vfl[q] := by
  have far : (p : Nat) ≠ q := fun h => apart (Fin.ext h.symm)
  simp [State.updVfl, Vector.getElem_set_ne, far]

@[simp] theorem endLull_vfl (s : State) : s.endLull.vfl = s.vfl := by
  unfold State.endLull
  split <;> rfl

@[simp] theorem endLull_nvm (s : State) : s.endLull.nvm = s.nvm := by
  unfold State.endLull
  split <;> rfl

/-! ## What sending leaves -/

/-- The counts of received packets, and the newest SEQ of each VC. -/
def VflS.received (l : VflS) : Word × Word × Word × Vector Nat 3 := (l.rx, l.authFail, l.crcFail, l.seqIn)

theorem updVfl_received (s : State) (p q : Fin 4) {f : VflS → VflS} (keeps : ∀ l, (f l).received = l.received) :
    (s.updVfl p f).vfl[q].received = s.vfl[q].received := by
  by_cases same : q = p
  · subst same
    rw [updVfl_same, keeps]
  · rw [updVfl_other s f same]

theorem sendOne_received {s t : State} {port : Fin 4} (sent : s.sendOne port = some t) (q : Fin 4) :
    t.vfl[q].received = s.vfl[q].received := by
  unfold State.sendOne at sent
  split at sent
  · cases sent
  · cases sent
    rw [State.emit_vfl]
    exact updVfl_received s port q fun _ => rfl

theorem drainPort_received (s : State) (port q : Fin 4) (n : Nat) :
    (s.drainPort port n).vfl[q].received = s.vfl[q].received := by
  induction n generalizing s with
  | zero => rfl
  | succ n ih =>
    cases sent : s.sendOne port with
    | none => simp only [State.drainPort, sent]
    | some t =>
      simp only [State.drainPort, sent]
      exact (ih t).trans (sendOne_received sent q)

theorem sendPkt_received (s : State) (p : OutPkt) (q : Fin 4) : (s.sendPkt p).vfl[q].received = s.vfl[q].received := by
  unfold State.sendPkt
  split
  · exact (drainPort_received _ _ q _).trans (updVfl_received s _ q fun _ => rfl)
  · rfl

theorem forwardPkt_received (s : State) (h : PktHdr) (clear : List Byte) (vc : Fin 3) (q : Fin 4) :
    (s.forwardPkt h clear vc).vfl[q].received = s.vfl[q].received := by
  unfold State.forwardPkt
  split
  · rfl
  · exact sendPkt_received s _ q

theorem forwardPkt_nvm (s : State) (h : PktHdr) (clear : List Byte) (vc : Fin 3) : (s.forwardPkt h clear vc).nvm = s.nvm := by
  unfold State.forwardPkt
  split
  · rfl
  · exact s.sendPkt_nvm _

/-! ## A discarded packet -/

/-- A link that fails keeps its counts (R439). -/
theorem linkFail_port (s : State) (port : Fin 4) (step : Nat) :
    (s.linkFail port step).vfl[port].st = .failed ∧ (s.linkFail port step).vfl[port].rx = s.vfl[port].rx ∧
      (s.linkFail port step).vfl[port].authFail = s.vfl[port].authFail ∧
      (s.linkFail port step).vfl[port].crcFail = s.vfl[port].crcFail := by
  simp only [State.linkFail, State.linkLeave, State.raiseRec_vfl]
  split <;> simp [State.updVfl]

/-- A port that has discarded a packet: one count, and the times of failures it now holds. -/
def VflS.discarded (l : VflS) (gcm : Bool) (fails : List Nat) : VflS :=
  { l with authFail := if gcm then satInc l.authFail else l.authFail,
           crcFail := if gcm then l.crcFail else satInc l.crcFail, fails := fails }

theorem discardPkt_cases (s : State) (port : Fin 4) (gcm checks : Bool) : ∃ fails,
    s.discardPkt port gcm checks =
      ((s.updVfl port (fun l => l.discarded gcm fails)).raise (pVFL port) 3).linkFail port 6 ∨
    s.discardPkt port gcm checks = s.updVfl port (fun l => l.discarded gcm fails) :=
  ⟨if checks then s.vfl[port].fails else s.vfl[port].fails.filter (fun t => decide (s.now < t + 1000000)) ++ [s.now],
    ite_eq_or_eq _ _ _⟩

/-- A discard is one count; SEQs begin anew only with a link that fails (R439, R442). -/
theorem discardPkt_port (s : State) (port : Fin 4) (gcm checks : Bool) :
    (s.discardPkt port gcm checks).vfl[port].rx = s.vfl[port].rx ∧
      (s.discardPkt port gcm checks).vfl[port].authFail =
        (if gcm then satInc s.vfl[port].authFail else s.vfl[port].authFail) ∧
      (s.discardPkt port gcm checks).vfl[port].crcFail =
        (if gcm then s.vfl[port].crcFail else satInc s.vfl[port].crcFail) ∧
      ((s.discardPkt port gcm checks).vfl[port].seqIn = s.vfl[port].seqIn ∨
        (s.discardPkt port gcm checks).vfl[port].st = .failed) := by
  obtain ⟨fails, failed | counted⟩ := discardPkt_cases s port gcm checks
  · obtain ⟨st, rx, auth, crc⟩ := linkFail_port ((s.updVfl port (fun l => l.discarded gcm fails)).raise (pVFL port) 3) port 6
    rw [failed, st, rx, auth, crc, State.raise_vfl, updVfl_same]
    exact ⟨rfl, rfl, rfl, .inr rfl⟩
  · rw [counted, updVfl_same]
    exact ⟨rfl, rfl, rfl, .inl rfl⟩

/-! ## The answers of PACKET_RECEIVE -/

/-- The credits of a received packet go back (R442, R445). -/
def State.slotsFreed (s : State) (port : Fin 4) (vc : Fin 3) (payload : List Byte) : State :=
  s.endLull.emit (.credits port vc.1 (slotsOf payload.length))

@[simp] theorem slotsFreed_vfl (s : State) (port : Fin 4) (vc : Fin 3) (payload : List Byte) :
    (s.slotsFreed port vc payload).vfl = s.vfl := endLull_vfl s

@[simp] theorem slotsFreed_nvm (s : State) (port : Fin 4) (vc : Fin 3) (payload : List Byte) :
    (s.slotsFreed port vc payload).nvm = s.nvm := endLull_nvm s

theorem credits_mem_slotsFreed (s : State) (port : Fin 4) (vc : Fin 3) (payload : List Byte) :
    Output.credits port vc.1 (slotsOf payload.length) ∈ (s.slotsFreed port vc payload).outbox := mem_emit_outbox _ _

/-- An accepted packet: it is counted, its SEQ is the newest of its VC, and one of the partner's shows that it is there. -/
def State.pktTaken (s : State) (port : Fin 4) (h : PktHdr) (vc : Fin 3) (payload : List Byte) : State :=
  let t := (s.slotsFreed port vc payload).updVfl port
    (fun x => { x with rx := satInc x.rx, seqIn := x.seqIn.set vc h.seq.toNat })
  if h.src = s.partner then { t with mir := { t.mir with lastRx := s.now } } else t

/-- Whether a packet ends at this node (R443, R452). -/
def State.endsHere (s : State) (h : PktHdr) : Bool :=
  h.type = 0x01 || h.type = 0x02 || h.dest = 0xFFFF#16 || (s.addressed && h.dest = s.ownAddr)

theorem pktTaken_vfl (s : State) (port : Fin 4) (h : PktHdr) (vc : Fin 3) (payload : List Byte) :
    (s.pktTaken port h vc payload).vfl = ((s.slotsFreed port vc payload).updVfl port
      (fun x => { x with rx := satInc x.rx, seqIn := x.seqIn.set vc h.seq.toNat })).vfl := by
  unfold State.pktTaken
  split <;> rfl

theorem pktTaken_outbox (s : State) (port : Fin 4) (h : PktHdr) (vc : Fin 3) (payload : List Byte) :
    (s.pktTaken port h vc payload).outbox = (s.slotsFreed port vc payload).outbox := by
  unfold State.pktTaken
  split <;> rfl

@[simp] theorem pktTaken_nvm (s : State) (port : Fin 4) (h : PktHdr) (vc : Fin 3) (payload : List Byte) :
    (s.pktTaken port h vc payload).nvm = s.nvm := by
  unfold State.pktTaken
  split <;> exact slotsFreed_nvm s port vc payload

section Receive
variable {s : State} {port : Fin 4} {h : PktHdr} {payload : List Byte}

/-- The link takes a packet of this type in its state (R436, R442). -/
def VflS.takesType (l : VflS) (type : Byte) : Prop := l.st = .up ∨ l.st = .hello ∧ (type = 0x01#8 ∨ type = 0x02#8)

/-- Neither the fabric nor the link's state stops such a packet. -/
theorem guard_of_takesType (runs : s.fabricRuns = true) (takes : s.vfl[port].takesType h.type) :
    (!s.fabricRuns || !(if (decide (h.type = 0x01) || decide (h.type = 0x02)) = true then
      decide (s.vfl[port].st = .hello) || decide (s.vfl[port].st = .up) else decide (s.vfl[port].st = .up))) = false := by
  rw [runs]
  rcases takes with up | ⟨hello, type⟩
  · rw [up]
    simp
  · rw [hello]
    simp [type]

/-- A header that names no VC gives no credits back: there is none to name. -/
theorem exec_packetReceive_of_noVc (runs : s.fabricRuns = true) (takes : s.vfl[port].takesType h.type) (noVc : h.vc = 3#2) :
    exec (.packetReceive port h payload) s = .next (s.discardPkt port true false) := by
  simp only [exec, execPacketReceive]
  rw [if_neg (Bool.eq_false_iff.mp (guard_of_takesType runs takes)), dif_pos (by simp [noVc])]

variable {vc : Fin 3}

/-- A packet whose tag or CRC does not check, or whose SEQ is not new. -/
theorem exec_packetReceive_of_bad (runs : s.fabricRuns = true) (takes : s.vfl[port].takesType h.type)
    (whole : h.len.toNat = payload.length) (short : payload.length ≤ 4096) (named : h.vc.toNat = vc.1)
    (bad : s.vfl[port].open_ h payload = none ∨ h.seq.toNat ≤ s.vfl[port].seqIn[vc]) :
    ∃ checks, exec (.packetReceive port h payload) s =
      .next ((s.slotsFreed port vc payload).discardPkt port (gcmPacket h.type vc.1) checks) := by
  obtain ⟨k, small⟩ := vc
  obtain rfl : h.vc.toNat = k := named
  simp only [exec, execPacketReceive]
  rw [if_neg (Bool.eq_false_iff.mp (guard_of_takesType runs takes)), dif_neg (Nat.not_le.mpr small),
    if_pos (by simp [whole, short])]
  split
  · exact ⟨false, rfl⟩
  · next clear opened =>
    rw [if_pos (bad.resolve_left (by rw [opened]; exact Option.some_ne_none clear))]
    exact ⟨true, rfl⟩

/-- A packet that checks, with a new SEQ. -/
theorem exec_packetReceive_of_good (runs : s.fabricRuns = true) (takes : s.vfl[port].takesType h.type)
    (whole : h.len.toNat = payload.length) (short : payload.length ≤ 4096) (named : h.vc.toNat = vc.1) {clear : List Byte}
    (opened : s.vfl[port].open_ h payload = some clear) (new : s.vfl[port].seqIn[vc] < h.seq.toNat) :
    exec (.packetReceive port h payload) s = .next (if s.endsHere h then s.pktTaken port h vc payload
      else (s.pktTaken port h vc payload).forwardPkt h clear vc) := by
  obtain ⟨k, small⟩ := vc
  obtain rfl : h.vc.toNat = k := named
  simp only [exec, execPacketReceive]
  rw [if_neg (Bool.eq_false_iff.mp (guard_of_takesType runs takes)), dif_neg (Nat.not_le.mpr small),
    if_pos (by simp [whole, short]), opened]
  dsimp only
  rw [if_neg (Nat.not_le.mpr new)]
  rfl

/-! ## The port after the answer -/

/-- Where an accepted packet goes on changes neither the counts of the port it came by nor what is stored, and its credits
stay given back. -/
theorem accepted_port (clear : List Byte) {u : State}
    (ends : u = if s.endsHere h then s.pktTaken port h vc payload else (s.pktTaken port h vc payload).forwardPkt h clear vc) :
    u.vfl[port].received = (satInc s.vfl[port].rx, s.vfl[port].authFail, s.vfl[port].crcFail,
        s.vfl[port].seqIn.set vc h.seq.toNat) ∧
      .credits port vc.1 (slotsOf payload.length) ∈ u.outbox ∧ u.nvm = s.nvm := by
  have taken : (s.pktTaken port h vc payload).vfl[port].received = (satInc s.vfl[port].rx, s.vfl[port].authFail,
      s.vfl[port].crcFail, s.vfl[port].seqIn.set vc h.seq.toNat) := by
    rw [pktTaken_vfl, updVfl_same, slotsFreed_vfl]
    rfl
  have freed := credits_mem_slotsFreed s port vc payload
  rw [← pktTaken_outbox s port h vc payload] at freed
  subst ends
  split
  · exact ⟨taken, freed, pktTaken_nvm s port h vc payload⟩
  · refine ⟨(forwardPkt_received _ h clear vc port).trans taken, ?_, (forwardPkt_nvm _ h clear vc).trans (pktTaken_nvm ..)⟩
    exact (kept_forwardPkt _ h clear vc (Kept.rfl' _)).sent.subset freed

/-- A packet for this node reaches the port it came by alone. -/
theorem pktTaken_other (s : State) (h : PktHdr) (vc : Fin 3) (payload : List Byte) {q : Fin 4} (apart : q ≠ port) :
    (s.pktTaken port h vc payload).vfl[q] = s.vfl[q] := by
  rw [pktTaken_vfl, updVfl_other _ _ apart, slotsFreed_vfl]

/-- The credits of a discarded packet go back all the same, and nothing stored changes. -/
theorem discarded_sent_zones (s : State) (port : Fin 4) (vc : Fin 3) (payload : List Byte) (gcm checks : Bool) :
    .credits port vc.1 (slotsOf payload.length) ∈ ((s.slotsFreed port vc payload).discardPkt port gcm checks).outbox ∧
      ((s.slotsFreed port vc payload).discardPkt port gcm checks).nvm.zones = s.nvm.zones := by
  constructor
  · exact (kept_discardPkt _ port gcm checks (Kept.rfl' _)).sent.subset (credits_mem_slotsFreed s port vc payload)
  · rw [(stored_discardPkt _ port gcm checks (.rfl' _)).zones_chains.1, slotsFreed_nvm]

end Receive

/-! ## Credits and stuck packets -/

/-- Without waiting packets a credit block is its change of the port alone (R445). -/
theorem exec_creditBlock_of_idle {s : State} {port : Fin 4} (runs : s.fabricRuns = true) (lock : s.vfl[port].lock = true)
    (idle : s.vfl[port].txq = []) (n : Vector (BitVec 6) 3) :
    exec (.creditBlock port n[0] n[1] n[2]) s = .next (s.updVfl port (fun l => { l with
      credits := Vector.ofFn (fun v : Fin 3 => l.credits[v] + min n[v].toNat l.outst[v]),
      outst := Vector.ofFn (fun v : Fin 3 => l.outst[v] - min n[v].toNat l.outst[v]) })) := by
  have counts : #v[n[0].toNat, n[1].toNat, n[2].toNat] = n.map BitVec.toNat := by
    ext k bound
    obtain rfl | rfl | rfl : k = 0 ∨ k = 1 ∨ k = 2 := by omega
    all_goals simp
  simp only [exec, execCreditBlock]
  rw [if_neg (by rw [runs, lock]; decide), updVfl_same, counts]
  dsimp only
  rw [idle]
  simp [State.drainPort]

theorem exec_stuckPacketDrop_of_find {s : State} {port : Fin 4} {p : OutPkt}
    (stuck : s.vfl[port].txq.find? (fun p => p.fwd && decide (p.at_ + 1000 ≤ s.now)) = some p) :
    exec (.stuckPacketDrop port) s =
      .next { s.updVfl port (fun l => { l with txq := l.txq.erase p }) with
        vfr := { s.vfr with stuckDrop := satInc s.vfr.stuckDrop } } := by
  simp only [exec, execStuckPacketDrop]
  rw [stuck]
  rfl

/-- Settles O55: an accepted and a discarded packet, a credit block and a dropped packet are one equation each, and what the
statement names is read off the changed port. -/
theorem packetsAreReceived : Obligations.PacketsAreReceived := by
  unfold Obligations.PacketsAreReceived
  intro s port runs
  refine ⟨fun h payload whole short takes => ⟨fun vc named => ⟨fun clear opened new => ?accepted, fun bad => ?discarded⟩,
    fun noVc => ?unnamed⟩, fun n lock idle => ?credited, fun p stuck => ?dropped⟩
  case accepted =>
    obtain ⟨received, freed, nvm⟩ := accepted_port (s := s) (port := port) (h := h) (payload := payload) (vc := vc) clear rfl
    simp only [VflS.received, Prod.mk.injEq] at received
    obtain ⟨rx, auth, crc, seq⟩ := received
    refine ⟨_, exec_packetReceive_of_good runs takes whole short named opened new, rx, seq, auth, crc, freed, nvm, ?_⟩
    intro addressed own q apart
    have here : s.endsHere h = true := by simp [State.endsHere, addressed, own]
    rw [if_pos here]
    exact pktTaken_other s h vc payload apart
  case discarded =>
    obtain ⟨checks, step⟩ := exec_packetReceive_of_bad runs takes whole short named bad
    obtain ⟨rx, auth, crc, seq⟩ := discardPkt_port (s.slotsFreed port vc payload) port (gcmPacket h.type vc.1) checks
    rw [slotsFreed_vfl] at rx auth crc seq
    obtain ⟨freed, zones⟩ := discarded_sent_zones s port vc payload (gcmPacket h.type vc.1) checks
    exact ⟨_, step, rx, auth, crc, seq, freed, zones⟩
  case unnamed =>
    obtain ⟨rx, auth, -, -⟩ := discardPkt_port s port true false
    exact ⟨_, exec_packetReceive_of_noVc runs takes noVc, rx, auth⟩
  case credited =>
    refine ⟨_, exec_creditBlock_of_idle runs lock idle n, rfl, fun q apart => updVfl_other s _ apart, fun v => ?_⟩
    rw [updVfl_same]
    simp
  case dropped =>
    refine ⟨_, exec_stuckPacketDrop_of_find stuck, ?_, rfl, rfl⟩
    dsimp only
    rw [updVfl_same]

end Sys2Proof.Machine
end

section
/-!
PROOFS. The queue of commands, and what every command keeps. Three case splits over the 245 commands, each case the law of its
meaning: every command answers a next state, and those that do not act on the units, or on what is stored, leave them. The
statements about a step come from `kept_of_step`, which reads a step as a command, or a tick of the clock, that keeps all.
-/
namespace Sys2Proof.Machine

/-! ## Every command, case by case -/

/-- Every command answers a next state. -/
theorem exec_next (c : Instr) (s : State) : ∃ u, exec c s = .next u := by
  cases c with
  | submissionTailDoorbell => exact execSubmissionTailDoorbell_next _ _ _ _ s
  | completionHeadDoorbell => exact execCompletionHeadDoorbell_next _ _ _ _ s
  | descriptorFetch => exact execDescriptorFetch_next _ s
  | completionEntryWrite => exact execCompletionEntryWrite_next _ s
  | read => exact execRead_next _ s
  | write => exact execWrite_next _ s
  | append => exact execAppend_next _ s
  | appendAcknowledgement => exact execAppendAcknowledgement_next _ s
  | flush => exact execFlush_next _ s
  | trim => exact execTrim_next _ s
  | zoneOpen => exact execZoneOpen_next _ s
  | zoneFinish => exact execZoneFinish_next _ s
  | zoneHold => exact execZoneHold_next _ s
  | zoneRelease => exact execZoneRelease_next _ s
  | zoneSeal => exact execZoneSeal_next _ s
  | zoneReport => exact execZoneReport_next _ s
  | verify => exact execVerify_next _ s
  | remoteCopy => exact execRemoteCopy_next _ s
  | identify => exact execIdentify_next _ s
  | queueCreate => exact execQueueCreate_next _ s
  | queueDelete => exact execQueueDelete_next _ s
  | keyLoad => exact execKeyLoad_next _ s
  | keyPageChange => exact execKeyPageChange_next _ s
  | keyClear => exact execKeyClear_next _ s
  | featureHoldMinutesGet => exact execFeatureHoldMinutesGet_next _ s
  | featureHoldMinutesSet => exact execFeatureHoldMinutesSet_next _ s
  | featureDisplayItemGet => exact execFeatureDisplayItemGet_next _ s
  | featureDisplayItemSet => exact execFeatureDisplayItemSet_next _ s
  | featureBudgetGet => exact execFeatureBudgetGet_next _ s
  | logReadEventRecords => exact execLogReadEventRecords_next _ s
  | logReadZoneResetLog => exact execLogReadZoneResetLog_next _ s
  | meterReadTenant => exact execMeterReadTenant_next _ s
  | meterReadAll => exact execMeterReadAll_next _ s
  | meterReadLoadProfile => exact execMeterReadLoadProfile_next _ s
  | getNonce => exact execGetNonce_next _ s
  | setHost => exact execSetHost_next _ s
  | setSigned => exact execSetSigned_next _ s
  | nonceLapse => exact execNonceLapse_next s
  | signedLapse => exact execSignedLapse_next s
  | imageStage => exact execImageStage_next _ s
  | imageCommit => exact execImageCommit_next _ s
  | getChallenge => exact execGetChallenge_next _ s
  | enrol => exact execEnrol_next _ s
  | lockUpdates => exact execLockUpdates_next _ s
  | unlockUpdates => exact execUnlockUpdates_next _ s
  | transfer => exact execTransfer_next _ s
  | challengeLapse => exact execChallengeLapse_next s
  | sealExportSealRecord => exact execSealExportSealRecord_next _ s
  | sealExportZoneEntries => exact execSealExportZoneEntries_next _ s
  | sealExportChain => exact execSealExportChain_next _ s
  | zoneEraseSigned => exact execZoneEraseSigned_next _ s
  | tenantReset => exact execTenantReset_next _ _ s
  | tenantResetPipesDrained => exact execTenantResetPipesDrained_next _ s
  | aqEnable => exact execAqEnable_next _ _ s
  | devFeatAccept => exact execDevFeatAccept_next _ _ s
  | devCtrlFeatLock => exact execDevCtrlFeatLock_next _ s
  | tntFeatAccept => exact execTntFeatAccept_next _ _ s
  | tntCtrlFeatLock => exact execTntCtrlFeatLock_next _ _ s
  | tntHoldMinutes => exact execTntHoldMinutes_next _ _ s
  | intStatusW1c => exact execIntStatusW1c_next _ _ s
  | intEnableWrite => exact execIntEnableWrite_next _ _ s
  | intForce => exact execIntForce_next _ _ s
  | lock => exact execLock_next _ _ s
  | irqRoute => exact execIrqRoute_next _ _ s
  | interruptMessage => exact execInterruptMessage_next _ _ s
  | softwareReset => exact execSoftwareReset_next _ s
  | causeAck => exact execCauseAck_next _ s
  | probeNow => exact execProbeNow_next _ s
  | updRcvStart => exact execUpdRcvStart_next _ s
  | updRcvChunk => exact execUpdRcvChunk_next _ _ _ s
  | updRcvFinish => exact execUpdRcvFinish_next _ _ s
  | updRcvAbort => exact execUpdRcvAbort_next _ s
  | recoveryFrameStart => exact execRecoveryFrameStart_next _ _ _ s
  | recoveryFrameData => exact execRecoveryFrameData_next _ _ _ s
  | recoveryFrameFinish => exact execRecoveryFrameFinish_next _ _ _ _ s
  | recoveryFrameStatus => exact execRecoveryFrameStatus_next _ _ _ s
  | sramMarchStart => exact execSramMarchStart_next _ s
  | marchDone => exact execMarchDone_next _ s
  | qspiGo => exact execQspiGo_next _ s
  | qspiFrameStart => exact execQspiFrameStart_next s
  | frameDone => exact execFrameDone_next _ s
  | spitTxData => exact execSpitTxData_next _ s
  | spitRxPop => exact execSpitRxPop_next _ s
  | spitCtrl => exact execSpitCtrl_next _ s
  | spitWordReceived => exact execSpitWordReceived_next _ s
  | spitWordTake => exact execSpitWordTake_next _ s
  | spitCsRise => exact execSpitCsRise_next _ s
  | installFleet => exact execInstallFleet_next _ s
  | installCert => exact execInstallCert_next _ s
  | vfrRreqGo => exact execVfrRreqGo_next _ s
  | pwrBudgetAudit0 => exact execPwrBudgetAudit0_next _ s
  | hqmTagAudit0 => exact execHqmTagAudit0_next _ s
  | medSlotAudit0 => exact execMedSlotAudit0_next _ s
  | bpmAudit0 => exact execBpmAudit0_next _ s
  | vflCreditAudit => exact execVflCreditAudit_next _ _ s
  | mtrAudit0 => exact execMtrAudit0_next _ s
  | mtrUtcLo => exact execMtrUtcLo_next _ s
  | mtrAccLo => exact execMtrAccLo_next _ s
  | sealIndexLo => exact execSealIndexLo_next _ s
  | evrNextSeqLo => exact execEvrNextSeqLo_next _ s
  | mirPlogData0 => exact execMirPlogData0_next _ s
  | registerWrite => exact execRegisterWrite_next _ _ _ s
  | reservedAccess => exact execReservedAccess_next _ _ _ _ s
  | perstAssert => exact execPerstAssert_next s
  | perstRelease => exact execPerstRelease_next s
  | hotReset => exact execHotReset_next s
  | linkDown => exact execLinkDown_next s
  | linkUp => exact execLinkUp_next _ _ s
  | flr => exact execFlr_next _ s
  | vfEnableSet => exact execVfEnableSet_next _ _ s
  | vfEnableClear => exact execVfEnableClear_next s
  | busMasterEnableClear => exact execBusMasterEnableClear_next _ s
  | busMasterEnableSet => exact execBusMasterEnableSet_next _ s
  | interruptModeChange => exact execInterruptModeChange_next _ _ s
  | vectorUnmask => exact execVectorUnmask_next _ _ _ s
  | interruptDisable => exact execInterruptDisable_next _ s
  | d3hotEntry => exact execD3hotEntry_next _ s
  | configurationRequest => exact execConfigurationRequest_next _ _ s
  | poisonedMemoryWrite => exact execPoisonedMemoryWrite_next _ s
  | unsupportedRequest => exact execUnsupportedRequest_next _ _ s
  | hostReadCompletion => exact execHostReadCompletion_next _ _ _ _ _ s
  | completionTimeout => exact execCompletionTimeout_next _ _ s
  | staleCompletion => exact execStaleCompletion_next _ _ _ s
  | aspmL1Entry => exact execAspmL1Entry_next _ s
  | powerOnReset => exact execPowerOnReset_next s
  | resetInLAssert => exact execResetInLAssert_next _ s
  | resetRelease => exact execResetRelease_next s
  | strapSampling => exact execStrapSampling_next _ _ _ s
  | crystalMonitorWindow => exact execCrystalMonitorWindow_next _ _ _ s
  | crystalMonitorTrip => exact execCrystalMonitorTrip_next s
  | pfailLFall => exact execPfailLFall_next s
  | vsupConversion => exact execVsupConversion_next _ s
  | watchdogExpiry => exact execWatchdogExpiry_next s
  | squallStepEnd => exact execSquallStepEnd_next _ s
  | squallRestart => exact execSquallRestart_next _ s
  | thermalRestart => exact execThermalRestart_next s
  | lullEntry => exact execLullEntry_next s
  | lullExit ev => exact execLullExit_next ev s
  | domainGate => exact execDomainGate_next _ s
  | domainPowerDown => exact execDomainPowerDown_next _ s
  | domainWake => exact execDomainWake_next _ s
  | fabWakeProbe => exact execFabWakeProbe_next _ s
  | holdupProbe => exact execHoldupProbe_next _ s
  | loadPulse => exact execLoadPulse_next _ _ s
  | probeComplete => exact execProbeComplete_next _ _ _ s
  | nandIdCheck => exact execNandIdCheck_next _ s
  | dramTrainingDone => exact execDramTrainingDone_next _ _ _ _ s
  | extendedPartLoaded => exact execExtendedPartLoaded_next s
  | gust => exact execGust_next _ s
  | powerFailReplay => exact execPowerFailReplay_next s
  | gustMerge => exact execGustMerge_next _ s
  | full => exact execFull_next s
  | recovery => exact execRecovery_next _ _ s
  | flashIssue => exact execFlashIssue_next _ s
  | eraseResume => exact execEraseResume_next _ s
  | flashProgramDone => exact execFlashProgramDone_next _ _ s
  | flashEraseDone => exact execFlashEraseDone_next _ _ s
  | flashReadDone => exact execFlashReadDone_next _ _ s
  | softDecode => exact execSoftDecode_next _ s
  | stripeParityRebuild => exact execStripeParityRebuild_next _ _ s
  | sealChainStep => exact execSealChainStep_next _ s
  | bufferPlacement => exact execBufferPlacement_next _ s
  | mapJournalWrite => exact execMapJournalWrite_next s
  | eddyFold => exact execEddyFold_next s
  | foldMapUpdate => exact execFoldMapUpdate_next s
  | refresh => exact execRefresh_next _ s
  | scrub => exact execScrub_next _ s
  | garbageCollection => exact execGarbageCollection_next _ s
  | mapLineRequest => exact execMapLineRequest_next _ _ s
  | mapLineRecall => exact execMapLineRecall_next _ s
  | writebackDone => exact execWritebackDone_next _ s
  | bufferAllocate => exact execBufferAllocate_next _ _ _ s
  | listRebuildEnd => exact execListRebuildEnd_next _ s
  | bufferHandoff => exact execBufferHandoff_next _ _ _ _ s
  | bufferFree => exact execBufferFree_next _ _ s
  | parityMismatch => exact execParityMismatch_next _ _ s
  | maskStarved => exact execMaskStarved_next _ s
  | laneReseed => exact execLaneReseed_next _ s
  | drbgReseed => exact execDrbgReseed_next s
  | healthTestFailure => exact execHealthTestFailure_next _ s
  | refreshDue => exact execRefreshDue_next s
  | refreshPayback => exact execRefreshPayback_next s
  | patrolScrub => exact execPatrolScrub_next _ s
  | evrProgrammingPass => exact execEvrProgrammingPass_next s
  | evrPassEnd => exact execEvrPassEnd_next s
  | meterMinuteSample => exact execMeterMinuteSample_next s
  | quarterHourBoundary => exact execQuarterHourBoundary_next s
  | displayDwellSecond => exact execDisplayDwellSecond_next s
  | hostItemExpired => exact execHostItemExpired_next s
  | eventInPulse => exact execEventInPulse_next s
  | motionChange => exact execMotionChange_next _ s
  | gpioInputEdge => exact execGpioInputEdge_next _ _ s
  | pointer => exact execPointer_next _ _ _ s
  | write32 => exact execWrite32_next _ _ _ s
  | meterReq => exact execMeterReq_next _ _ _ s
  | readN n pecOk => exact execReadN_next n pecOk s
  | i2cRead => exact execI2cRead_next _ s
  | alertResponse => exact execAlertResponse_next s
  | sclTimeout => exact execSclTimeout_next s
  | scriptEntry => exact execScriptEntry_next _ _ s
  | statusPoll => exact execStatusPoll_next _ s
  | entryRetry => exact execEntryRetry_next _ s
  | stuckBusRecovery => exact execStuckBusRecovery_next _ s
  | stuckRetry => exact execStuckRetry_next _ s
  | blockLock => exact execBlockLock_next _ s
  | hello => exact execHello_next _ _ _ s
  | confirm => exact execConfirm_next _ _ s
  | bringupTimeout => exact execBringupTimeout_next _ s
  | linkRetry => exact execLinkRetry_next _ s
  | rekey => exact execRekey_next _ s
  | packetReceive => exact execPacketReceive_next _ _ _ s
  | creditBlock => exact execCreditBlock_next _ _ _ _ s
  | nadv => exact execNadv_next _ _ s
  | advertisementOriginate => exact execAdvertisementOriginate_next s
  | advertisementExpiry => exact execAdvertisementExpiry_next s
  | routeComputation => exact execRouteComputation_next s
  | transactionTimeout => exact execTransactionTimeout_next _ _ s
  | stuckPacketDrop => exact execStuckPacketDrop_next _ s
  | copyOpen => exact execCopyOpen_next _ _ _ _ s
  | copyRsp => exact execCopyRsp_next _ _ s
  | copyData => exact execCopyData_next _ _ s
  | copyClose => exact execCopyClose_next _ s
  | rreadReq => exact execRreadReq_next _ _ _ _ s
  | rreadRsp => exact execRreadRsp_next _ _ s
  | mirBeat => exact execMirBeat_next _ s
  | mirBeatSend => exact execMirBeatSend_next s
  | partnerSilence => exact execPartnerSilence_next s
  | mirAppend => exact execMirAppend_next _ s
  | mirAccept => exact execMirAccept_next _ _ _ s
  | mirState => exact execMirState_next _ s
  | mirRetract => exact execMirRetract_next _ _ s
  | mirSyncReq => exact execMirSyncReq_next _ s
  | mirSyncRsp => exact execMirSyncRsp_next _ s
  | powerLoss => exact execPowerLoss_next s
  | spaceRetry => exact execSpaceRetry_next s
  | housekeepingSlot => exact execHousekeepingSlot_next _ _ s
  | housekeepingRound => exact execHousekeepingRound_next _ s
  | ageingHour => exact execAgeingHour_next s
  | operatingHour => exact execOperatingHour_next s
  | tapInstruction => exact execTapInstruction_next _ s
  | unlock => exact execUnlock_next _ s
  | dmi => exact execDmi_next _ s
  | seqdbg => exact execSeqdbg_next _ _ s
  | blockLockLoss => exact execBlockLockLoss_next _ s
  | speedWidthChange => exact execSpeedWidthChange_next _ _ _ s

/-- A command that does not act on the units leaves them. -/
theorem sameUnits_exec (c : Instr) (s : State) (foreign : c.actsOnUnits = false) : OutSameUnits s (exec c s) := by
  cases c with
  | submissionTailDoorbell => exact units_execSubmissionTailDoorbell _ _ _ _ s (.rfl' s)
  | completionHeadDoorbell => exact units_execCompletionHeadDoorbell _ _ _ _ s (.rfl' s)
  | descriptorFetch => exact units_execDescriptorFetch _ s (.rfl' s)
  | read => exact units_execRead _ s (.rfl' s)
  | write => exact units_execWrite _ s (.rfl' s)
  | appendAcknowledgement => exact units_execAppendAcknowledgement _ s (.rfl' s)
  | flush => exact units_execFlush _ s (.rfl' s)
  | trim => exact units_execTrim _ s (.rfl' s)
  | zoneOpen => exact units_execZoneOpen _ s (.rfl' s)
  | zoneFinish => exact units_execZoneFinish _ s (.rfl' s)
  | zoneHold => exact units_execZoneHold _ s (.rfl' s)
  | zoneRelease => exact units_execZoneRelease _ s (.rfl' s)
  | zoneSeal => exact units_execZoneSeal _ s (.rfl' s)
  | zoneReport => exact units_execZoneReport _ s (.rfl' s)
  | verify => exact units_execVerify _ s (.rfl' s)
  | remoteCopy => exact units_execRemoteCopy _ s (.rfl' s)
  | identify => exact units_execIdentify _ s (.rfl' s)
  | keyLoad => exact units_execKeyLoad _ s (.rfl' s)
  | keyPageChange => exact units_execKeyPageChange _ s (.rfl' s)
  | keyClear => exact units_execKeyClear _ s (.rfl' s)
  | featureHoldMinutesGet => exact units_execFeatureHoldMinutesGet _ s (.rfl' s)
  | featureHoldMinutesSet => exact units_execFeatureHoldMinutesSet _ s (.rfl' s)
  | featureDisplayItemGet => exact units_execFeatureDisplayItemGet _ s (.rfl' s)
  | featureBudgetGet => exact units_execFeatureBudgetGet _ s (.rfl' s)
  | logReadEventRecords => exact units_execLogReadEventRecords _ s (.rfl' s)
  | logReadZoneResetLog => exact units_execLogReadZoneResetLog _ s (.rfl' s)
  | meterReadTenant => exact units_execMeterReadTenant _ s (.rfl' s)
  | meterReadAll => exact units_execMeterReadAll _ s (.rfl' s)
  | meterReadLoadProfile => exact units_execMeterReadLoadProfile _ s (.rfl' s)
  | getNonce => exact units_execGetNonce _ s (.rfl' s)
  | setHost => exact units_execSetHost _ s (.rfl' s)
  | setSigned => exact units_execSetSigned _ s (.rfl' s)
  | nonceLapse => exact units_execNonceLapse s (.rfl' s)
  | signedLapse => exact units_execSignedLapse s (.rfl' s)
  | sealExportSealRecord => exact units_execSealExportSealRecord _ s (.rfl' s)
  | sealExportZoneEntries => exact units_execSealExportZoneEntries _ s (.rfl' s)
  | sealExportChain => exact units_execSealExportChain _ s (.rfl' s)
  | interruptMessage => exact units_execInterruptMessage _ _ s (.rfl' s)
  | reservedAccess => exact units_execReservedAccess _ _ _ _ s (.rfl' s)
  | perstRelease => exact units_execPerstRelease s (.rfl' s)
  | linkUp => exact units_execLinkUp _ _ s (.rfl' s)
  | vfEnableSet => exact units_execVfEnableSet _ _ s (.rfl' s)
  | busMasterEnableSet => exact units_execBusMasterEnableSet _ s (.rfl' s)
  | interruptModeChange => exact units_execInterruptModeChange _ _ s (.rfl' s)
  | vectorUnmask => exact units_execVectorUnmask _ _ _ s (.rfl' s)
  | interruptDisable => exact units_execInterruptDisable _ s (.rfl' s)
  | configurationRequest => exact units_execConfigurationRequest _ _ s (.rfl' s)
  | poisonedMemoryWrite => exact units_execPoisonedMemoryWrite _ s (.rfl' s)
  | unsupportedRequest => exact units_execUnsupportedRequest _ _ s (.rfl' s)
  | hostReadCompletion => exact units_execHostReadCompletion _ _ _ _ _ s (.rfl' s)
  | completionTimeout => exact units_execCompletionTimeout _ _ s (.rfl' s)
  | staleCompletion => exact units_execStaleCompletion _ _ _ s (.rfl' s)
  | aspmL1Entry => exact units_execAspmL1Entry _ s (.rfl' s)
  | lullEntry => exact units_execLullEntry s (.rfl' s)
  | lullExit ev => exact units_execLullExit ev s (.rfl' s)
  | domainGate => exact units_execDomainGate _ s (.rfl' s)
  | domainPowerDown => exact units_execDomainPowerDown _ s (.rfl' s)
  | domainWake => exact units_execDomainWake _ s (.rfl' s)
  | fabWakeProbe => exact units_execFabWakeProbe _ s (.rfl' s)
  | gustMerge => exact units_execGustMerge _ s (.rfl' s)
  | flashIssue => exact units_execFlashIssue _ s (.rfl' s)
  | eraseResume => exact units_execEraseResume _ s (.rfl' s)
  | flashProgramDone => exact units_execFlashProgramDone _ _ s (.rfl' s)
  | flashEraseDone => exact units_execFlashEraseDone _ _ s (.rfl' s)
  | flashReadDone => exact units_execFlashReadDone _ _ s (.rfl' s)
  | softDecode => exact units_execSoftDecode _ s (.rfl' s)
  | stripeParityRebuild => exact units_execStripeParityRebuild _ _ s (.rfl' s)
  | sealChainStep => exact units_execSealChainStep _ s (.rfl' s)
  | bufferPlacement => exact units_execBufferPlacement _ s (.rfl' s)
  | mapJournalWrite => exact units_execMapJournalWrite s (.rfl' s)
  | eddyFold => exact units_execEddyFold s (.rfl' s)
  | foldMapUpdate => exact units_execFoldMapUpdate s (.rfl' s)
  | refresh => exact units_execRefresh _ s (.rfl' s)
  | scrub => exact units_execScrub _ s (.rfl' s)
  | garbageCollection => exact units_execGarbageCollection _ s (.rfl' s)
  | mapLineRequest => exact units_execMapLineRequest _ _ s (.rfl' s)
  | mapLineRecall => exact units_execMapLineRecall _ s (.rfl' s)
  | writebackDone => exact units_execWritebackDone _ s (.rfl' s)
  | bufferAllocate => exact units_execBufferAllocate _ _ _ s (.rfl' s)
  | listRebuildEnd => exact units_execListRebuildEnd _ s (.rfl' s)
  | bufferHandoff => exact units_execBufferHandoff _ _ _ _ s (.rfl' s)
  | bufferFree => exact units_execBufferFree _ _ s (.rfl' s)
  | parityMismatch => exact units_execParityMismatch _ _ s (.rfl' s)
  | maskStarved => exact units_execMaskStarved _ s (.rfl' s)
  | laneReseed => exact units_execLaneReseed _ s (.rfl' s)
  | drbgReseed => exact units_execDrbgReseed s (.rfl' s)
  | healthTestFailure => exact units_execHealthTestFailure _ s (.rfl' s)
  | evrProgrammingPass => exact units_execEvrProgrammingPass s (.rfl' s)
  | evrPassEnd => exact units_execEvrPassEnd s (.rfl' s)
  | meterMinuteSample => exact units_execMeterMinuteSample s (.rfl' s)
  | quarterHourBoundary => exact units_execQuarterHourBoundary s (.rfl' s)
  | gpioInputEdge => exact units_execGpioInputEdge _ _ s (.rfl' s)
  | pointer => exact units_execPointer _ _ _ s (.rfl' s)
  | meterReq => exact units_execMeterReq _ _ _ s (.rfl' s)
  | readN n pecOk => exact units_execReadN n pecOk s (.rfl' s)
  | alertResponse => exact units_execAlertResponse s (.rfl' s)
  | sclTimeout => exact units_execSclTimeout s (.rfl' s)
  | blockLock => exact units_execBlockLock _ s (.rfl' s)
  | hello => exact units_execHello _ _ _ s (.rfl' s)
  | confirm => exact units_execConfirm _ _ s (.rfl' s)
  | bringupTimeout => exact units_execBringupTimeout _ s (.rfl' s)
  | linkRetry => exact units_execLinkRetry _ s (.rfl' s)
  | rekey => exact units_execRekey _ s (.rfl' s)
  | packetReceive => exact units_execPacketReceive _ _ _ s (.rfl' s)
  | creditBlock => exact units_execCreditBlock _ _ _ _ s (.rfl' s)
  | nadv => exact units_execNadv _ _ s (.rfl' s)
  | advertisementOriginate => exact units_execAdvertisementOriginate s (.rfl' s)
  | advertisementExpiry => exact units_execAdvertisementExpiry s (.rfl' s)
  | routeComputation => exact units_execRouteComputation s (.rfl' s)
  | transactionTimeout => exact units_execTransactionTimeout _ _ s (.rfl' s)
  | stuckPacketDrop => exact units_execStuckPacketDrop _ s (.rfl' s)
  | copyOpen => exact units_execCopyOpen _ _ _ _ s (.rfl' s)
  | copyRsp => exact units_execCopyRsp _ _ s (.rfl' s)
  | copyData => exact units_execCopyData _ _ s (.rfl' s)
  | copyClose => exact units_execCopyClose _ s (.rfl' s)
  | rreadReq => exact units_execRreadReq _ _ _ _ s (.rfl' s)
  | rreadRsp => exact units_execRreadRsp _ _ s (.rfl' s)
  | mirBeat => exact units_execMirBeat _ s (.rfl' s)
  | mirBeatSend => exact units_execMirBeatSend s (.rfl' s)
  | partnerSilence => exact units_execPartnerSilence s (.rfl' s)
  | mirAccept => exact units_execMirAccept _ _ _ s (.rfl' s)
  | mirState => exact units_execMirState _ s (.rfl' s)
  | mirRetract => exact units_execMirRetract _ _ s (.rfl' s)
  | mirSyncReq => exact units_execMirSyncReq _ s (.rfl' s)
  | mirSyncRsp => exact units_execMirSyncRsp _ s (.rfl' s)
  | powerLoss => exact units_execPowerLoss s (.rfl' s)
  | spaceRetry => exact units_execSpaceRetry s (.rfl' s)
  | operatingHour => exact units_execOperatingHour s (.rfl' s)
  | blockLockLoss => exact units_execBlockLockLoss _ s (.rfl' s)
  | speedWidthChange => exact units_execSpeedWidthChange _ _ _ s (.rfl' s)
  | _ => nomatch foreign

/-- A command that does not act on what is stored leaves it. -/
theorem sameStore_exec (c : Instr) (s : State) (foreign : c.actsOnStored = false) : OutSameStore s (exec c s) := by
  cases c with
  | submissionTailDoorbell => exact stored_execSubmissionTailDoorbell _ _ _ _ s (.rfl' s)
  | completionHeadDoorbell => exact stored_execCompletionHeadDoorbell _ _ _ _ s (.rfl' s)
  | descriptorFetch => exact stored_execDescriptorFetch _ s (.rfl' s)
  | read => exact stored_execRead _ s (.rfl' s)
  | write => exact stored_execWrite _ s (.rfl' s)
  | flush => exact stored_execFlush _ s (.rfl' s)
  | zoneReport => exact stored_execZoneReport _ s (.rfl' s)
  | verify => exact stored_execVerify _ s (.rfl' s)
  | remoteCopy => exact stored_execRemoteCopy _ s (.rfl' s)
  | identify => exact stored_execIdentify _ s (.rfl' s)
  | queueCreate => exact stored_execQueueCreate _ s (.rfl' s)
  | queueDelete => exact stored_execQueueDelete _ s (.rfl' s)
  | keyLoad => exact stored_execKeyLoad _ s (.rfl' s)
  | keyClear => exact stored_execKeyClear _ s (.rfl' s)
  | featureHoldMinutesGet => exact stored_execFeatureHoldMinutesGet _ s (.rfl' s)
  | featureHoldMinutesSet => exact stored_execFeatureHoldMinutesSet _ s (.rfl' s)
  | featureDisplayItemGet => exact stored_execFeatureDisplayItemGet _ s (.rfl' s)
  | featureDisplayItemSet => exact stored_execFeatureDisplayItemSet _ s (.rfl' s)
  | featureBudgetGet => exact stored_execFeatureBudgetGet _ s (.rfl' s)
  | logReadEventRecords => exact stored_execLogReadEventRecords _ s (.rfl' s)
  | logReadZoneResetLog => exact stored_execLogReadZoneResetLog _ s (.rfl' s)
  | meterReadTenant => exact stored_execMeterReadTenant _ s (.rfl' s)
  | meterReadAll => exact stored_execMeterReadAll _ s (.rfl' s)
  | meterReadLoadProfile => exact stored_execMeterReadLoadProfile _ s (.rfl' s)
  | getNonce => exact stored_execGetNonce _ s (.rfl' s)
  | setHost => exact stored_execSetHost _ s (.rfl' s)
  | setSigned => exact stored_execSetSigned _ s (.rfl' s)
  | nonceLapse => exact stored_execNonceLapse s (.rfl' s)
  | signedLapse => exact stored_execSignedLapse s (.rfl' s)
  | imageStage => exact stored_execImageStage _ s (.rfl' s)
  | imageCommit => exact stored_execImageCommit _ s (.rfl' s)
  | getChallenge => exact stored_execGetChallenge _ s (.rfl' s)
  | enrol => exact stored_execEnrol _ s (.rfl' s)
  | lockUpdates => exact stored_execLockUpdates _ s (.rfl' s)
  | unlockUpdates => exact stored_execUnlockUpdates _ s (.rfl' s)
  | transfer => exact stored_execTransfer _ s (.rfl' s)
  | challengeLapse => exact stored_execChallengeLapse s (.rfl' s)
  | sealExportSealRecord => exact stored_execSealExportSealRecord _ s (.rfl' s)
  | sealExportZoneEntries => exact stored_execSealExportZoneEntries _ s (.rfl' s)
  | sealExportChain => exact stored_execSealExportChain _ s (.rfl' s)
  | interruptMessage => exact stored_execInterruptMessage _ _ s (.rfl' s)
  | recoveryFrameStart => exact stored_execRecoveryFrameStart _ _ _ s (.rfl' s)
  | recoveryFrameData => exact stored_execRecoveryFrameData _ _ _ s (.rfl' s)
  | recoveryFrameStatus => exact stored_execRecoveryFrameStatus _ _ _ s (.rfl' s)
  | marchDone => exact stored_execMarchDone _ s (.rfl' s)
  | qspiFrameStart => exact stored_execQspiFrameStart s (.rfl' s)
  | frameDone => exact stored_execFrameDone _ s (.rfl' s)
  | spitWordReceived => exact stored_execSpitWordReceived _ s (.rfl' s)
  | spitWordTake => exact stored_execSpitWordTake _ s (.rfl' s)
  | spitCsRise => exact stored_execSpitCsRise _ s (.rfl' s)
  | pwrBudgetAudit0 => exact stored_execPwrBudgetAudit0 _ s (.rfl' s)
  | hqmTagAudit0 => exact stored_execHqmTagAudit0 _ s (.rfl' s)
  | medSlotAudit0 => exact stored_execMedSlotAudit0 _ s (.rfl' s)
  | bpmAudit0 => exact stored_execBpmAudit0 _ s (.rfl' s)
  | vflCreditAudit => exact stored_execVflCreditAudit _ _ s (.rfl' s)
  | mtrAudit0 => exact stored_execMtrAudit0 _ s (.rfl' s)
  | mtrUtcLo => exact stored_execMtrUtcLo _ s (.rfl' s)
  | mtrAccLo => exact stored_execMtrAccLo _ s (.rfl' s)
  | sealIndexLo => exact stored_execSealIndexLo _ s (.rfl' s)
  | evrNextSeqLo => exact stored_execEvrNextSeqLo _ s (.rfl' s)
  | mirPlogData0 => exact stored_execMirPlogData0 _ s (.rfl' s)
  | reservedAccess => exact stored_execReservedAccess _ _ _ _ s (.rfl' s)
  | perstRelease => exact stored_execPerstRelease s (.rfl' s)
  | linkUp => exact stored_execLinkUp _ _ s (.rfl' s)
  | vfEnableSet => exact stored_execVfEnableSet _ _ s (.rfl' s)
  | busMasterEnableSet => exact stored_execBusMasterEnableSet _ s (.rfl' s)
  | interruptModeChange => exact stored_execInterruptModeChange _ _ s (.rfl' s)
  | vectorUnmask => exact stored_execVectorUnmask _ _ _ s (.rfl' s)
  | interruptDisable => exact stored_execInterruptDisable _ s (.rfl' s)
  | configurationRequest => exact stored_execConfigurationRequest _ _ s (.rfl' s)
  | poisonedMemoryWrite => exact stored_execPoisonedMemoryWrite _ s (.rfl' s)
  | unsupportedRequest => exact stored_execUnsupportedRequest _ _ s (.rfl' s)
  | hostReadCompletion => exact stored_execHostReadCompletion _ _ _ _ _ s (.rfl' s)
  | completionTimeout => exact stored_execCompletionTimeout _ _ s (.rfl' s)
  | staleCompletion => exact stored_execStaleCompletion _ _ _ s (.rfl' s)
  | aspmL1Entry => exact stored_execAspmL1Entry _ s (.rfl' s)
  | resetRelease => exact stored_execResetRelease s (.rfl' s)
  | crystalMonitorWindow => exact stored_execCrystalMonitorWindow _ _ _ s (.rfl' s)
  | crystalMonitorTrip => exact stored_execCrystalMonitorTrip s (.rfl' s)
  | pfailLFall => exact stored_execPfailLFall s (.rfl' s)
  | vsupConversion => exact stored_execVsupConversion _ s (.rfl' s)
  | watchdogExpiry => exact stored_execWatchdogExpiry s (.rfl' s)
  | lullEntry => exact stored_execLullEntry s (.rfl' s)
  | lullExit ev => exact stored_execLullExit ev s (.rfl' s)
  | domainGate => exact stored_execDomainGate _ s (.rfl' s)
  | domainPowerDown => exact stored_execDomainPowerDown _ s (.rfl' s)
  | domainWake => exact stored_execDomainWake _ s (.rfl' s)
  | fabWakeProbe => exact stored_execFabWakeProbe _ s (.rfl' s)
  | holdupProbe => exact stored_execHoldupProbe _ s (.rfl' s)
  | loadPulse => exact stored_execLoadPulse _ _ s (.rfl' s)
  | probeComplete => exact stored_execProbeComplete _ _ _ s (.rfl' s)
  | flashIssue => exact stored_execFlashIssue _ s (.rfl' s)
  | eraseResume => exact stored_execEraseResume _ s (.rfl' s)
  | flashEraseDone => exact stored_execFlashEraseDone _ _ s (.rfl' s)
  | mapJournalWrite => exact stored_execMapJournalWrite s (.rfl' s)
  | foldMapUpdate => exact stored_execFoldMapUpdate s (.rfl' s)
  | scrub => exact stored_execScrub _ s (.rfl' s)
  | mapLineRequest => exact stored_execMapLineRequest _ _ s (.rfl' s)
  | mapLineRecall => exact stored_execMapLineRecall _ s (.rfl' s)
  | writebackDone => exact stored_execWritebackDone _ s (.rfl' s)
  | bufferAllocate => exact stored_execBufferAllocate _ _ _ s (.rfl' s)
  | listRebuildEnd => exact stored_execListRebuildEnd _ s (.rfl' s)
  | bufferHandoff => exact stored_execBufferHandoff _ _ _ _ s (.rfl' s)
  | bufferFree => exact stored_execBufferFree _ _ s (.rfl' s)
  | laneReseed => exact stored_execLaneReseed _ s (.rfl' s)
  | drbgReseed => exact stored_execDrbgReseed s (.rfl' s)
  | healthTestFailure => exact stored_execHealthTestFailure _ s (.rfl' s)
  | refreshDue => exact stored_execRefreshDue s (.rfl' s)
  | refreshPayback => exact stored_execRefreshPayback s (.rfl' s)
  | evrProgrammingPass => exact stored_execEvrProgrammingPass s (.rfl' s)
  | evrPassEnd => exact stored_execEvrPassEnd s (.rfl' s)
  | meterMinuteSample => exact stored_execMeterMinuteSample s (.rfl' s)
  | quarterHourBoundary => exact stored_execQuarterHourBoundary s (.rfl' s)
  | displayDwellSecond => exact stored_execDisplayDwellSecond s (.rfl' s)
  | hostItemExpired => exact stored_execHostItemExpired s (.rfl' s)
  | motionChange => exact stored_execMotionChange _ s (.rfl' s)
  | gpioInputEdge => exact stored_execGpioInputEdge _ _ s (.rfl' s)
  | pointer => exact stored_execPointer _ _ _ s (.rfl' s)
  | meterReq => exact stored_execMeterReq _ _ _ s (.rfl' s)
  | readN n pecOk => exact stored_execReadN n pecOk s (.rfl' s)
  | i2cRead => exact stored_execI2cRead _ s (.rfl' s)
  | alertResponse => exact stored_execAlertResponse s (.rfl' s)
  | sclTimeout => exact stored_execSclTimeout s (.rfl' s)
  | scriptEntry => exact stored_execScriptEntry _ _ s (.rfl' s)
  | statusPoll => exact stored_execStatusPoll _ s (.rfl' s)
  | entryRetry => exact stored_execEntryRetry _ s (.rfl' s)
  | stuckBusRecovery => exact stored_execStuckBusRecovery _ s (.rfl' s)
  | stuckRetry => exact stored_execStuckRetry _ s (.rfl' s)
  | blockLock => exact stored_execBlockLock _ s (.rfl' s)
  | hello => exact stored_execHello _ _ _ s (.rfl' s)
  | confirm => exact stored_execConfirm _ _ s (.rfl' s)
  | bringupTimeout => exact stored_execBringupTimeout _ s (.rfl' s)
  | linkRetry => exact stored_execLinkRetry _ s (.rfl' s)
  | rekey => exact stored_execRekey _ s (.rfl' s)
  | packetReceive => exact stored_execPacketReceive _ _ _ s (.rfl' s)
  | creditBlock => exact stored_execCreditBlock _ _ _ _ s (.rfl' s)
  | nadv => exact stored_execNadv _ _ s (.rfl' s)
  | advertisementOriginate => exact stored_execAdvertisementOriginate s (.rfl' s)
  | advertisementExpiry => exact stored_execAdvertisementExpiry s (.rfl' s)
  | transactionTimeout => exact stored_execTransactionTimeout _ _ s (.rfl' s)
  | stuckPacketDrop => exact stored_execStuckPacketDrop _ s (.rfl' s)
  | copyRsp => exact stored_execCopyRsp _ _ s (.rfl' s)
  | copyData => exact stored_execCopyData _ _ s (.rfl' s)
  | rreadReq => exact stored_execRreadReq _ _ _ _ s (.rfl' s)
  | rreadRsp => exact stored_execRreadRsp _ _ s (.rfl' s)
  | mirBeat => exact stored_execMirBeat _ s (.rfl' s)
  | mirBeatSend => exact stored_execMirBeatSend s (.rfl' s)
  | partnerSilence => exact stored_execPartnerSilence s (.rfl' s)
  | powerLoss => exact stored_execPowerLoss s (.rfl' s)
  | spaceRetry => exact stored_execSpaceRetry s (.rfl' s)
  | housekeepingSlot => exact stored_execHousekeepingSlot _ _ s (.rfl' s)
  | housekeepingRound => exact stored_execHousekeepingRound _ s (.rfl' s)
  | ageingHour => exact stored_execAgeingHour s (.rfl' s)
  | operatingHour => exact stored_execOperatingHour s (.rfl' s)
  | tapInstruction => exact stored_execTapInstruction _ s (.rfl' s)
  | dmi => exact stored_execDmi _ s (.rfl' s)
  | seqdbg => exact stored_execSeqdbg _ _ s (.rfl' s)
  | blockLockLoss => exact stored_execBlockLockLoss _ s (.rfl' s)
  | speedWidthChange => exact stored_execSpeedWidthChange _ _ _ s (.rfl' s)
  | _ => nomatch foreign

/-! ## A step -/

/-- What a step starts from: the block with the queue's rest, and with its clock one microsecond later when no command waits. -/
def State.begun (s : State) : State :=
  { s with pending := s.pending.tail, now := if s.pending = [] then s.now + 1 else s.now }

theorem begun_of_nil {s : State} (idle : s.pending = []) : s.begun = { s with now := s.now + 1 } := by
  simp [State.begun, idle]

theorem begun_of_cons {s : State} {c : Instr} {r : List Instr} (waits : s.pending = c :: r) : s.begun = { s with pending := r } := by
  simp [State.begun, waits]

/-- A step keeps, of the state it starts from, what every command keeps. -/
theorem kept_of_step {s t : State} (h : step s = .next t) : Kept s.begun t := by
  cases e : s.pending with
  | nil =>
    rw [step_of_pending_nil e] at h
    cases h
    rw [begun_of_nil e]
    exact .rfl' _
  | cons c r =>
    rw [step_of_pending_cons e] at h
    rw [begun_of_cons e]
    exact (kept_exec c _).kept h

theorem step_next (s : State) : ∃ t, step s = .next t := by
  cases e : s.pending with
  | nil => exact ⟨_, step_of_pending_nil e⟩
  | cons c r => rw [step_of_pending_cons e]; exact exec_next c _

/-! ## The statements -/

/-- Settles O1: `step` on a queue that is not empty is `exec` on its front. -/
theorem stepRunsTheFrontCommand : Obligations.StepRunsTheFrontCommand := by
  unfold Obligations.StepRunsTheFrontCommand
  exact fun c r s => step_of_pending_cons rfl

/-- Settles O2: `step` on an empty queue is a tick. -/
theorem emptyQueueTicksTheClock : Obligations.EmptyQueueTicksTheClock := by
  unfold Obligations.EmptyQueueTicksTheClock
  exact fun s => step_of_pending_nil

/-- Settles O3: no command touches the queue it is given, and a step gives its command the queue's rest. -/
theorem queueIsFirstInFirstOut : Obligations.QueueIsFirstInFirstOut := by
  unfold Obligations.QueueIsFirstInFirstOut
  refine ⟨fun c s t h => ((kept_exec c s).kept h).queue, fun c r s t waits h => ?_⟩
  rw [(kept_of_step h).queue, begun_of_cons waits]

/-- Settles O4: each command has its law that it answers a next state, and what it keeps says the rest. -/
theorem everyCommandCompletes : Obligations.EveryCommandCompletes := by
  unfold Obligations.EveryCommandCompletes
  refine ⟨fun c s => ?_, step_next⟩
  obtain ⟨t, h⟩ := exec_next c s
  have kept := (kept_exec c s).kept h
  exact ⟨t, h, kept.queue, kept.sent⟩

/-- Settles O5: what every step keeps holds the balance of credits. -/
theorem creditsBalanceThroughEveryStep : Obligations.CreditsBalanceThroughEveryStep := by
  unfold Obligations.CreditsBalanceThroughEveryStep
  exact fun s t balanced h => (kept_of_step h).credits (balanced)

/-- Settles O6: what every step keeps holds the meter's balance, of which the sum is a part, and every accumulator. -/
theorem meterBalancesThroughEveryStep : Obligations.MeterBalancesThroughEveryStep := by
  unfold Obligations.MeterBalancesThroughEveryStep
  intro s t balanced h
  obtain ⟨kept, rises⟩ := (kept_of_step h).meter balanced
  exact ⟨kept, kept.1, rises⟩

/-- Settles O7: each part is a field of what every step keeps. -/
theorem nothingKeptGoesBack : Obligations.NothingKeptGoesBack := by
  unfold Obligations.NothingKeptGoesBack
  refine ⟨fun s t canonical h => (nvmKept_of_step h).nor canonical, fun s t counts h => ?_, fun s t h => ?_, fun s t h => ?_⟩
  · obtain ⟨floor, dropped, lost⟩ := counts
    have kept := nvmKept_of_step h
    obtain ⟨floorRises, floorEnds⟩ := kept.floor floor
    obtain ⟨droppedRises, droppedEnds⟩ := kept.evDropped dropped
    obtain ⟨lostRises, lostEnds⟩ := kept.ackLost lost
    exact ⟨⟨floorEnds, droppedEnds, lostEnds⟩, floorRises, kept.permanent, droppedRises, lostRises⟩
  · have kept := nvmKept_of_step h
    exact ⟨kept.starts, kept.cycles, kept.unlocks, kept.bands, kept.stage, kept.sealIndex⟩
  · exact (kept_of_step h).sent

/-- Settles O8: each command outside the list has its law that it leaves the units. -/
theorem unitsChangeByTheirOwnCommands : Obligations.UnitsChangeByTheirOwnCommands := by
  unfold Obligations.UnitsChangeByTheirOwnCommands
  intro c s t foreign h
  have same := sameUnits_exec c s foreign
  rw [h] at same
  exact same.eq

/-- Settles O9: each command outside the list has its law that it leaves what is stored. -/
theorem storedDataChangeByTheirOwnCommands : Obligations.StoredDataChangeByTheirOwnCommands := by
  unfold Obligations.StoredDataChangeByTheirOwnCommands
  intro c s t foreign h
  have same := sameStore_exec c s foreign
  rw [h] at same
  exact same.eq

theorem reset_vfl (n : Fin 4) : State.reset.vfl[n] = VflS.reset := by simp [State.reset]

/-- Settles O11: the reset state is a literal; its links are four reset ports and its accumulators and sums are 0. -/
theorem resetState : Obligations.ResetState := by
  unfold Obligations.ResetState
  refine ⟨rfl, rfl, rfl, fun n => by rw [reset_vfl]; rfl, rfl, rfl, ?credits, ?meter, rfl, ?counts⟩
  case credits =>
    intro n v
    rw [reset_vfl]
    simp [VflS.reset]
  case meter => simp [State.meterOk, State.reset, Nvm.reset, MtrS.reset, -Vector.toList_replicate]
  case counts => simp [State.countsOk, State.reset, Nvm.reset]

end Sys2Proof.Machine
end

section
/-!
PROOFS. Fetched commands and what host reads bring them (07 R182, R189; 06 R147, R159, R163, R164). A turn of HQM fetches from a
queue pair that stays fetchable after the turn's own bookkeeping, so a turn with one descriptor is one `State.fetchOne`. Poisoned
data and timeouts are logged by operations that reach no command.
-/
namespace Sys2Proof.Machine

/-! ## Sending alone -/

/-- Something is sent, and nothing else happens. -/
def Sends (s t : State) : Prop := ∃ o l, t = { s with outbox := o, pcie := l }

theorem Sends.rfl' (s : State) : Sends s s := ⟨_, _, rfl⟩

theorem Sends.emit {s t : State} (h : Sends s t) (o : Output) : Sends s (t.emit o) := by
  obtain ⟨_, _, rfl⟩ := h
  exact ⟨_, _, rfl⟩

theorem Sends.foldl {α : Type} {s t : State} {g : State → α → Output} (h : Sends s t) (l : List α) :
    Sends s (l.foldl (fun a x => a.emit (g a x)) t) := by
  induction l generalizing t with
  | nil => exact h
  | cons x r ih => exact ih (h.emit _)

theorem sends_readHost (s : State) (c : Cmd) : Sends s (s.readHost c) := by
  unfold State.readHost
  dsimp only
  have data : Sends s (if c.desc.readLen = 0 then s else (scatter c.targets 0 (zeroBytes c.desc.readLen)).foldl
      (fun a p => a.emit (.memRead (s.tenantFn c.tenant) (BitVec.ofNat 64 p.1) p.2.length (a.roFor c))) s) := by
    split
    · exact .rfl' s
    · exact (Sends.rfl' s).foldl _
  split
  · exact data
  · exact data.emit _

theorem sends_startReads (s : State) (c : Cmd) : Sends s (s.startReads c) := by
  unfold State.startReads
  split
  · exact (Sends.rfl' s).emit _
  · exact sends_readHost s c

/-! ## Errors of a host read -/

theorem aerAdvisory_tnt_qps (s : State) (fn : Fn) (b : Nat) (t : Tid) :
    ((s.aerAdvisory fn b).tnt[t]).qps = (s.tnt[t]).qps := by
  unfold State.aerAdvisory State.aerUncorrectable
  split <;> rw [raise_tnt_qps, State.updFn_tnt]

theorem aerAdvisory_poisonRx_timeouts (s : State) (fn : Fn) (b : Nat) :
    (s.aerAdvisory fn b).pcie.poisonRx = s.pcie.poisonRx ∧ (s.aerAdvisory fn b).pcie.timeouts = s.pcie.timeouts := by
  unfold State.aerAdvisory State.aerUncorrectable
  split <;> simp [State.updFn]

theorem poisonReceived_hqm (s : State) (fn : Fn) : (s.poisonReceived fn).hqm = s.hqm :=
  (hqm_poisonReceived s fn (.rfl' s)).eq

theorem poisonReceived_tnt_qps (s : State) (fn : Fn) (t : Tid) : ((s.poisonReceived fn).tnt[t]).qps = (s.tnt[t]).qps := by
  rw [State.poisonReceived, aerAdvisory_tnt_qps, raise_tnt_qps]

theorem poisonReceived_poisonRx (s : State) (fn : Fn) : (s.poisonReceived fn).pcie.poisonRx = satInc s.pcie.poisonRx := by
  rw [State.poisonReceived, (aerAdvisory_poisonRx_timeouts _ _ _).1, raise_pcie_poisonRx]

theorem timedOut_hqm (s : State) (fn : Fn) : (s.timedOut fn).hqm = s.hqm := by
  simp [State.timedOut]

theorem timedOut_timeouts (s : State) (fn : Fn) : (s.timedOut fn).pcie.timeouts = satInc s.pcie.timeouts := by
  rw [State.timedOut, (aerAdvisory_poisonRx_timeouts _ _ _).2, raise_pcie_timeouts]

/-! ## HQM's turn -/

theorem updQp_qp (s : State) (t : Tid) (q : Qid) (f : Qp → Qp) : ((s.updQp t q f).tnt[t]).qp q = f ((s.tnt[t]).qp q) := by
  simp [State.updQp, State.updTnt, Tenant.qp]

theorem tnt_updQp_hqm (s : State) (t : Tid) (q : Qid) (f : Qp → Qp) (h : HqmS) :
    ((({ s.updQp t q f with hqm := h } : State).tnt[t]).qp q) = f ((s.tnt[t]).qp q) := updQp_qp s t q f

theorem fetchable_of_nextQueue {s : State} {t : Tid} {q : Qid} (h : s.nextQueue = some (t, q)) : s.fetchable t q = true := by
  obtain ⟨x, -, found⟩ := List.exists_of_findSome?_eq_some h
  obtain ⟨p, first, pair⟩ := Option.map_eq_some_iff.mp found
  cases pair
  exact List.find?_some first

/-- HQM's turn before it fetches: the round robin and the idle times move on (R189). -/
def State.turned (s : State) (t : Tid) (q : Qid) : State :=
  { (s.updTnt t (fun x => { x with rr := if q = 0 then x.rr else q.1 })) with
    hqm := { s.hqm with rr := t.1 }, med := { s.med with lastHost := s.now }, pwr := { s.pwr with idleSince := s.now } }

theorem turned_tenant (s : State) (t : Tid) (q : Qid) :
    (s.turned t q).tnt[t] = { s.tnt[t] with rr := if q = 0 then (s.tnt[t]).rr else q.1 } := by
  simp [State.turned, State.updTnt]

theorem fetchable_turned (s : State) (t : Tid) (q : Qid) : (s.turned t q).fetchable t q = s.fetchable t q := by
  unfold State.fetchable State.tenantFn Tenant.fnNo
  rw [turned_tenant]
  rfl

theorem generalCheck_turned (s : State) (t : Tid) (q : Qid) (d : Desc) :
    (s.turned t q).generalCheck t q d = s.generalCheck t q d := by
  unfold State.generalCheck State.levelPermits featureOk State.fieldsOk State.hasFeat State.accepted
  rw [turned_tenant]
  rfl

theorem exec_descriptorFetch_one {s : State} {t : Tid} {q : Qid} (served : s.nextQueue = some (t, q))
    (turn : 1 ≤ bits (s.reg pHQM 0x10C 8#32) 3 0) (f : FetchedDesc) :
    exec (.descriptorFetch [f]) s = .next ((s.turned t q).fetchOne t q f) := by
  obtain ⟨n, fetches⟩ : ∃ n, bits (s.reg pHQM 0x10C 8#32) 3 0 = n + 1 := ⟨_, (Nat.sub_add_cancel turn).symm⟩
  have takes : (s.turned t q).fetchable t q = true := by rw [fetchable_turned, fetchable_of_nextQueue served]
  have fetched : (s.turned t q).fetchTurn t q (n + 1) [f] = (s.turned t q).fetchOne t q f := by
    rw [State.fetchTurn, if_pos takes]
    cases n <;> rfl
  simp only [exec, execDescriptorFetch, served, fetches]
  exact congrArg _ fetched

/-- The command that a descriptor becomes before it is checked (R189). -/
def State.newCmd (s : State) (t : Tid) (q : Qid) (f : FetchedDesc) : Cmd :=
  { Cmd.fresh t q (s.tnt[t]).epoch (parseDescriptor f.bytes.toList) ((((s.tnt[t]).qp q).sqHead + 1) % ((s.tnt[t]).qp q).depth)
      s.hqm.next with readAt := s.now }

/-- The command that a descriptor becomes (R189, R193; 06 R163). -/
def State.fetchedCmd (s : State) (t : Tid) (q : Qid) (f : FetchedDesc) : Cmd :=
  if f.ep then { s.newCmd t q f with
    desc := { parseDescriptor f.bytes.toList with cid := 0xFFFF#16 }, phase := .done 0x09 0 0 false }
  else match s.generalCheck t q (parseDescriptor f.bytes.toList) with
    | some (st, rc) => { s.newCmd t q f with phase := .done st rc 0 false }
    | none => s.newCmd t q f

theorem fetchedCmd_poisoned (s : State) (t : Tid) (q : Qid) {f : FetchedDesc} (poison : f.ep = true) :
    s.fetchedCmd t q f = { s.newCmd t q f with
      desc := { parseDescriptor f.bytes.toList with cid := 0xFFFF#16 }, phase := .done 0x09 0 0 false } := by
  rw [State.fetchedCmd, if_pos poison]

/-- A descriptor that came whole keeps its fields, and its command ends at once where the general check ends it (R193). -/
theorem fetchedCmd_clean (s : State) (t : Tid) (q : Qid) {f : FetchedDesc} (whole : f.ep = false) :
    (s.fetchedCmd t q f).desc = parseDescriptor f.bytes.toList ∧ (s.fetchedCmd t q f).tenant = t ∧ (s.fetchedCmd t q f).qp = q ∧
    (s.fetchedCmd t q f).epoch = (s.tnt[t]).epoch ∧ (s.fetchedCmd t q f).no = s.hqm.next ∧
    (∀ st rc, s.generalCheck t q (parseDescriptor f.bytes.toList) = some (st, rc) →
      (s.fetchedCmd t q f).phase = .done st rc 0 false) ∧
    (s.generalCheck t q (parseDescriptor f.bytes.toList) = none → (s.fetchedCmd t q f).phase = .fetched) := by
  rw [State.fetchedCmd, if_neg (by simp [whole])]
  cases s.generalCheck t q (parseDescriptor f.bytes.toList) with
  | none => exact ⟨rfl, rfl, rfl, rfl, rfl, nofun, fun _ => rfl⟩
  | some p => exact ⟨rfl, rfl, rfl, rfl, rfl, by rintro _ _ ⟨⟩; rfl, nofun⟩

theorem newCmd_turned (s : State) (t : Tid) (q : Qid) (f : FetchedDesc) : (s.turned t q).newCmd t q f = s.newCmd t q f := by
  unfold State.newCmd
  rw [turned_tenant]
  rfl

theorem fetchedCmd_turned (s : State) (t : Tid) (q : Qid) (f : FetchedDesc) :
    (s.turned t q).fetchedCmd t q f = s.fetchedCmd t q f := by
  rw [State.fetchedCmd, State.fetchedCmd, generalCheck_turned, newCmd_turned]

/-- A descriptor takes the lowest free tag, the next fetch number and one slot of its queue pair. -/
theorem fetchOne_takes (s : State) (t : Tid) (q : Qid) (f : FetchedDesc) :
    (s.fetchOne t q f).hqm = { s.hqm with
      cmds := s.hqm.cmds.put s.freeTag (s.fetchedCmd t q f), next := s.hqm.next + 1 } ∧
    (((s.fetchOne t q f).tnt[t]).qp q).sqHead = (((s.tnt[t]).qp q).sqHead + 1) % ((s.tnt[t]).qp q).depth := by
  have sent (a : State) (c : Cmd) (p : Prop) [Decidable p] : ((if p then a.startReads c else a).hqm = a.hqm) ∧
      (if p then a.startReads c else a).tnt = a.tnt := by
    obtain ⟨_, _, reads⟩ := sends_startReads a c
    split <;> simp [reads]
  have logged (a : State) : (if f.ep then a.poisonReceived (s.tenantFn t) else a).hqm = a.hqm := by
    split
    · exact poisonReceived_hqm _ _
    · rfl
  unfold State.fetchOne
  dsimp only
  refine ⟨?_, ?_⟩
  · rw [(sent _ _ _).1, logged]
    rfl
  · rw [(sent _ _ _).2, tnt_updQp_hqm]

/-! ## Reads that bring poison or nothing -/

theorem exec_hostReadCompletion_poisoned {s : State} {tag : Tag} {c : Cmd} (holds : s.cmd tag = some c) (fetched : c.phase = .fetched)
    (active : s.active = true) (off : Nat) (b : List Byte) :
    exec (.hostReadCompletion tag .data off b true) s = .next ((s.poisonReceived (s.tenantFn c.tenant)).updCmd tag (fun _ =>
      { c with data := c.data.put off b, epData := c.epData ++ blocksTouched off b.length })) := by
  simp [exec, execHostReadCompletion, holds, active, fetched, Cmd.arrived]

theorem exec_completionTimeout_due {s : State} {tag : Tag} {c : Cmd} (holds : s.cmd tag = some c) (fetched : c.phase = .fetched)
    (active : s.active = true) {es : List (Nat × Nat)} (list : c.list = .ok es)
    (due : s.mayTimeOut (s.tenantFn c.tenant) c.readAt = true) :
    exec (.completionTimeout tag .timeout) s =
      .next ((s.timedOut (s.tenantFn c.tenant)).updCmd tag (fun x => { x with hostFail := true })) := by
  simp [exec, execCompletionTimeout, holds, active, fetched, due, list]

/-- Settles O13: a turn with one descriptor is one fetch after the turn's bookkeeping; bytes that arrive and reads that fail change
their command, and the errors logged with them no command. -/
theorem commandsAreFetchedAndFed : Obligations.CommandsAreFetchedAndFed := by
  unfold Obligations.CommandsAreFetchedAndFed
  refine ⟨fun s f t q served turn => ?fetch, fun s tag c holds fetched active => ⟨fun off b => ?data, fun off b => ?header,
    fun off b => ?poisoned, fun why es other list => ?failed, fun es list due => ?timeout, fun early => ?early⟩⟩
  case fetch =>
    obtain ⟨hqm, head⟩ := fetchOne_takes (s.turned t q) t q f
    refine ⟨_, exec_descriptorFetch_one served turn f, by rw [hqm]; rfl, by rw [hqm]; rfl, ?_, s.fetchedCmd t q f, ?_, ?_⟩
    · rw [head, turned_tenant]
      rfl
    · rw [hqm, fetchedCmd_turned]
      exact KMap.find_put_same _ _ _
    · cases poison : f.ep with
      | true =>
        rw [fetchedCmd_poisoned s t q poison]
        exact ⟨rfl, rfl, rfl, rfl, fun _ => ⟨rfl, rfl⟩, nofun⟩
      | false =>
        obtain ⟨desc, tenant, qp, epoch, no, refused, taken⟩ := fetchedCmd_clean s t q poison
        rw [desc]
        exact ⟨tenant, qp, epoch, no, nofun, fun _ => ⟨rfl, refused, taken⟩⟩
  case data => simp [exec, execHostReadCompletion, holds, active, fetched, Cmd.arrived]
  case header => simp [exec, execHostReadCompletion, holds, active, fetched, Cmd.arrived]
  case poisoned =>
    have logged : (s.poisonReceived (s.tenantFn c.tenant)).cmd tag = some c := by
      rw [cmd_of_hqm (poisonReceived_hqm _ _), holds]
    exact ⟨_, exec_hostReadCompletion_poisoned holds fetched active off b, updCmd_cmd _ _ _ _ logged,
      poisonReceived_poisonRx _ _⟩
  case failed => simp [exec, execCompletionTimeout, holds, active, fetched, other, list]
  case timeout =>
    have logged : (s.timedOut (s.tenantFn c.tenant)).cmd tag = some c := by
      rw [cmd_of_hqm (timedOut_hqm _ _), holds]
    exact ⟨_, exec_completionTimeout_due holds fetched active list due, timedOut_timeouts _ _, updCmd_cmd _ _ _ _ logged⟩
  case early => simp [exec, execCompletionTimeout, holds, active, fetched, early]

end Sys2Proof.Machine
end

section
/-!
PROOFS. The data commands of the hardware plane (07 R186, R194, R197 to R200, R205; 08 R228, R229; 09 R285, R287). Masks, buffers,
pipes and places are drawn by operations that leave the commands in flight alone, so what a command becomes is what the last
change of it says: one lemma per step of the pipe, one equation per branch of a command.
-/
namespace Sys2Proof.Machine

/-! ## A command after operations that leave the commands alone -/

/-- A command changed after operations that leave the commands alone reads back changed. -/
theorem updCmd_cmd_after {s t : State} {tag : Tag} {c : Cmd} (e : t.hqm = s.hqm) (h : s.cmd tag = some c) (f : Cmd → Cmd) :
    (t.updCmd tag f).cmd tag = some (f c) := updCmd_cmd t tag f c (by rw [cmd_of_hqm e, h])

/-- Masks and buffers are drawn without the commands. -/
theorem hqm_of_masks_buffers {s s1 s2 : State} {p : Pipe} {n : Nat} {o : Owner} {l : List Buf} {hs : List Nat}
    (masks : s.drawMasks p n = some s1) (buffers : s1.allocAll o l = some (hs, s2)) : s2.hqm = s.hqm :=
  ((hqm_allocAll s1 o l (SameHqmK1.elim (hqm_drawMasks s p n (.rfl' s)) masks)).out _ _ buffers).eq

theorem enterPipe_hqm (s : State) (p : Pipe) (t : Tid) (e : Byte) (tag : Tag) (n : Nat) : (s.enterPipe p t e tag n).hqm = s.hqm :=
  (hqm_enterPipe s p t e tag n (.rfl' s)).eq

theorem leavePipe_hqm (s : State) (p : Pipe) (tag : Tag) : (s.leavePipe p tag).hqm = s.hqm := (hqm_leavePipe s p tag (.rfl' s)).eq

theorem queueReads_hqm (s : State) (d : BoardDesc) (tag : Tag) (items : List (Nat × (Piece → Option Nat))) :
    (s.queueReads d tag items).hqm = s.hqm := (hqm_queueReads s d tag items (.rfl' s)).eq

/-! ## READ, VERIFY and WRITE enter Pipe X -/

/-- A read that finds masks, a context and egress buffers holds them in its pipe. -/
theorem startRead_cmd {s s1 s2 : State} {tag : Tag} {c : Cmd} {p : Pipe} {n m : Nat} {d : BoardDesc} {hs : List Nat}
    (reads : List (Nat × (Piece → Option Nat))) (holds : s.cmd tag = some c) (desc : s.boot.desc = some d)
    (context : s.pipeFull p = false) (masks : s.drawMasks p m = some s1)
    (buffers : s1.allocAll .egress (List.replicate n (Buf.fresh .egress c.epoch tag.1 c.tenant (.conv c.tenant 0 0) [])) =
      some (hs, s2)) :
    (s.startRead tag c p n m reads).cmd tag = some { c with phase := .shared, bufs := hs } := by
  unfold State.startRead
  simp only [desc, context, masks, buffers]
  rw [cmd_of_hqm (queueReads_hqm _ _ _ _)]
  exact updCmd_cmd_after ((enterPipe_hqm _ _ _ _ _ _).trans (hqm_of_masks_buffers masks buffers)) holds _

theorem beginRead_of_conv {s : State} (tag : Tag) {c : Cmd} (conv : c.zoneNo = 0xFFFFF)
    (fine : s.convFault c (c.desc.len.toNat / 4096) = none) :
    s.beginRead tag c = s.startRead tag c .x (c.desc.len.toNat / 4096) (257 * (c.desc.len.toNat / 4096))
      (s.convReads c (c.desc.len.toNat / 4096)) := by
  simp [State.beginRead, conv, fine]

theorem exec_read_ready {s : State} {tag : Tag} {c : Cmd} (ready : s.ready tag 0x01 c) :
    exec (.read tag) s = .next (s.beginRead tag c) :=
  congrArg Host.Outcome.next (runOp_ready _ _ ready rfl)

theorem exec_verify_ready {s : State} {tag : Tag} {c : Cmd} (ready : s.ready tag 0x0C c) :
    exec (.verify tag) s = .next (if 6 ≤ s.thr.level.1 then s.finish tag 0x11 0 0 else s.beginRead tag c) :=
  congrArg Host.Outcome.next (runOp_ready _ _ ready rfl)

/-- The ciphertext buffers of a WRITE (08 R229). -/
def Cmd.writeBufs (c : Cmd) (tag : Tag) (k : Wide) : List Buf :=
  (blocksOfBytes c.bytes (c.desc.len.toNat / 4096)).zipIdx.map (fun p =>
    { Buf.fresh .stream c.epoch tag.1 c.tenant (.conv c.tenant (c.desc.lba.toNat + p.2) 0)
        (Config.xtsEnc k (xtsUnit c.tenant (c.desc.lba.toNat + p.2)) p.1) with
      cipherDone := true, poison := c.epData.contains p.2 })

/-- A WRITE that finds masks, a context and ingest buffers holds them in Pipe X. -/
theorem exec_write_entering {s s1 s2 : State} {tag : Tag} {c : Cmd} {k : Wide} {id : Word} {hs : List Nat}
    (ready : s.ready tag 0x02 c) (fine : s.writeFault c (c.desc.len.toNat / 4096) = none) (context : s.pipeFull .x = false)
    (key : s.tnt[c.tenant].xts = some (k, id)) (masks : s.drawMasks .x (257 * (c.desc.len.toNat / 4096)) = some s1)
    (buffers : s1.allocAll .ingest (c.writeBufs tag k) = some (hs, s2)) :
    exec (.write tag) s = .next ((s2.enterPipe .x c.tenant c.epoch tag (257 * (c.desc.len.toNat / 4096))).updCmd tag
      (fun x => { x with phase := .shared, bufs := hs })) := by
  refine congrArg Host.Outcome.next ((runOp_ready _ _ ready rfl).trans ?_)
  unfold Cmd.writeBufs at buffers
  simp only [fine, key, context, masks, buffers]
  rfl

/-- Settles O14: the read of either opcode begins as one `State.startRead`, and a WRITE enters the pipe with its ciphertext. -/
theorem conventionalCommandsEnterPipeX : Obligations.ConventionalCommandsEnterPipeX := by
  unfold Obligations.ConventionalCommandsEnterPipeX
  refine fun s tag c d => ⟨fun opc ready which conv fine desc context s1 s2 hs masks buffers => ?read, fun ready hot => ?hot,
    fun ready fine context k id key s1 s2 hs masks buffers => ?write⟩
  case read =>
    have begins : (s.beginRead tag c).cmd tag = some { c with phase := .shared, bufs := hs } := by
      rw [beginRead_of_conv tag conv fine]
      exact startRead_cmd _ (ready_cmd ready) desc context masks buffers
    obtain rfl | ⟨rfl, cool⟩ := which
    · exact ⟨_, exec_read_ready ready, begins⟩
    · refine ⟨_, ?_, begins⟩
      rw [if_neg (by decide), exec_verify_ready ready, if_neg (Nat.not_le.mpr cool)]
  case hot => rw [exec_verify_ready ready, if_pos hot]
  case write =>
    exact ⟨_, exec_write_entering ready fine context key masks buffers,
      updCmd_cmd_after ((enterPipe_hqm _ _ _ _ _ _).trans (hqm_of_masks_buffers masks buffers)) (ready_cmd ready) _⟩

/-! ## APPEND: entry, chain step and acknowledgement -/

/-- What an APPEND to a zone under a key asks of Pipe G: its ciphertext and its tag (07 R198, R199). -/
def Cmd.sealed (c : Cmd) (z : Zone) (key : Hash × Word) : List Byte := Config.gcmCtr key.1 (z.iv c.zoneNo z.wp) c.bytes

/-- An APPEND that finds masks, a context and ingest buffers holds them in Pipe G. -/
theorem appendEnter_cmd {s s1 s2 : State} {tag : Tag} {c : Cmd} {z : Zone} {key : Hash × Word} {n : Nat} {hs : List Nat}
    (holds : s.cmd tag = some c) (context : s.pipeFull .g = false)
    (masks : s.drawMasks .g (gcmBlocks c.desc.len.toNat) = some s1)
    (buffers : s1.allocAll .ingest ((blocksOfBytes (c.sealed z key) n).zipIdx.map (fun p =>
      { Buf.fresh .stream c.epoch tag.1 c.tenant (.zone c.zoneNo z.gen (z.wp + p.2) 1 0) p.1 with
        cipherDone := true, gen := z.gen, gust := s.dev.level = .gust,
        pad := decide (c.desc.len.toNat < 4096 * (p.2 + 1)) })) = some (hs, s2)) :
    (s.appendEnter tag c z key n).cmd tag = some { c with
      phase := .shared, bufs := hs, zoneId := c.zoneNo, offset := z.wp, opened := decide (z.st = .empty),
      gtag := some (Config.gcmTag key.1 (z.iv c.zoneNo z.wp) c.hdrBytes (c.sealed z key)) } := by
  unfold Cmd.sealed at buffers
  unfold State.appendEnter
  simp only [context, masks, buffers]
  refine updCmd_cmd_after ((enterPipe_hqm _ _ _ _ _ _).trans ?_) holds _
  rw [State.updZone_hqm]
  split
  · exact (hqm_rtRequest s2 (.rfl' s2)).eq.trans (hqm_of_masks_buffers masks buffers)
  · exact hqm_of_masks_buffers masks buffers

theorem exec_append_entering {s : State} {tag : Tag} {c : Cmd} {z : Zone} {key : Hash × Word} {d : BoardDesc}
    (ready : s.ready tag 0x03 c) (zone : s.zone c.zoneNo = some z) (desc : s.boot.desc = some d) (turn : s.appendWaits c = false)
    (fine : s.appendFault d c z (blocksOf c.desc.len.toNat) = none) (gcm : s.tnt[c.tenant].gcm = some key) :
    exec (.append tag) s = .next (s.appendEnter tag c z key (blocksOf c.desc.len.toNat)) := by
  refine congrArg Host.Outcome.next ((runOp_ready _ _ ready rfl).trans ?_)
  simp only [zone, desc, fine, gcm]
  rw [if_neg (by simp [turn])]

/-- An append's chain step changes of its command the index and the tag number it gives it. -/
theorem exec_sealChainStep_cmd {s : State} {tag : Tag} {c : Cmd} {z : Zone} {key : Hash × Word} {g : QWord}
    (holds : s.cmd tag = some c) (gtag : c.gtag = some g) (zone : s.zone c.zoneId = some z) (gcm : s.tnt[c.tenant].gcm = some key)
    (opc : c.desc.opc = 0x03#8) (shared : c.phase = .shared) (fresh : c.chained = false) (awake : s.awake = true)
    (calm : s.squall.running = false) (masks : s.ciph.g.maskWait = false) :
    ∃ u, exec (.sealChainStep tag) s = .next u ∧
      u.cmd tag = some { c with chained := true, index := s.nvm.chains[c.tenant].index + 1, tagNo := s.hqm.tagged } := by
  simp only [exec, execSealChainStep, holds, gtag, zone, gcm]
  rw [if_neg (by simp [opc, shared, fresh, awake, calm, masks])]
  refine ⟨_, rfl, ?_⟩
  have sent (a : State) (t : Tid) (id : Nat) (e : AppRec) (p : Prop) [Decidable p] :
      (if p then a.mirAppendSend t id e else a).hqm = a.hqm := by
    split
    · exact (hqm_mirAppendSend a t id e (.rfl' a)).eq
    · rfl
  rw [cmd_of_hqm (sent _ _ _ _ _)]
  refine (updCmd_cmd _ tag _ c ?_).trans (by rw [gtag])
  unfold State.cmd at holds ⊢
  rw [leavePipe_hqm]
  exact holds

/-- The state in which an append is acknowledged, where its partner follows. -/
theorem acknowledge_answered {s : State} {tag : Tag} {c : Cmd} {e : AppRec} (live : List Nat) (holds : s.cmd tag = some c)
    (mirrored : s.mirrorDegraded c.tenant = false) :
    (s.acknowledge tag c e live).answered tag 0 0 (BitVec.ofNat 64 (e.offset + e.index % 2 ^ 32 * 2 ^ 32)) := by
  unfold State.acknowledge
  rw [if_neg (by simp [mirrored])]
  refine answered_after 0 0 _ holds (SameHqm.eq ?_)
  have counted : SameHqm s (((s.countDirty live).updEntry c.zoneId e.index (fun x => { x with acked := true })).updZone c.zoneId
      (fun z => let z1 := { z with firstT := if e.offset = 0 then s.opSecs else z.firstT, lastT := s.opSecs }
        if decide (32768 ≤ e.offset + blocksOf e.len) && decide (z1.st = .open_) then z1.finish s.opSecs else z1)) :=
    hqm_updZone _ _ _ (hqm_updEntry _ _ _ _ (hqm_countDirty _ _ (.rfl' s)))
  refine hqm_updTnt _ _ _ (hqm_meterIn _ _ _ ?_)
  split
  · exact hqm_mirStateItem _ _ _ _ counted
  · exact counted

/-- Settles O15: one command through its three steps, each of which changes it last. -/
theorem appendsEnterTheChain : Obligations.AppendsEnterTheChain := by
  unfold Obligations.AppendsEnterTheChain
  refine fun s tag c z key => ⟨fun d s1 s2 hs ready zone desc turn fine gcm context masks buffers => ?enters,
    fun g holds gtag zone gcm opc shared fresh awake calm masks => ?chained,
    fun e holds entry opc waiting chained placed whole serving first room fua mirror partner => ?acknowledged⟩
  case enters => exact ⟨_, exec_append_entering ready zone desc turn fine gcm, appendEnter_cmd (ready_cmd ready) context masks buffers⟩
  case chained => exact exec_sealChainStep_cmd holds gtag zone gcm opc shared fresh awake calm masks
  case acknowledged =>
    obtain ⟨⟨id, e'⟩, found, rfl⟩ := Option.map_eq_some_iff.mp entry
    refine ⟨_, ?_, acknowledge_answered (s.liveBufs tag c) holds partner⟩
    simp [exec, execAppendAcknowledgement, holds, found, opc, waiting, chained, placed, whole, serving, first, room, fua, mirror]

/-! ## Placement, TRIM and completion entries -/

theorem retryRewrites_of_nil {s : State} (none : s.med.rewrites = []) : s.retryRewrites = s := by
  unfold State.retryRewrites
  split
  · rw [none, List.foldl_nil, ← none]
  · rfl

theorem placeIn_hqm {s t : State} {d : BoardDesc} {n k : Nat} {items : List (Option Nat × Piece)}
    (placed : s.placeIn d n k items = some t) : t.hqm = s.hqm := (SameHqmK1.elim (hqm_placeIn s d n k items (.rfl' s)) placed).eq

/-- A fold of changes that leave the commands alone leaves them alone. -/
theorem foldl_hqm {α : Type} {f : State → α → State} (keeps : ∀ a x, (f a x).hqm = a.hqm) (l : List α) (s : State) :
    (l.foldl f s).hqm = s.hqm := by
  induction l generalizing s with
  | nil => rfl
  | cons x r ih => rw [List.foldl_cons, ih, keeps]

theorem placeWrite_cmd {s s1 : State} {d : BoardDesc} {tag : Tag} {c : Cmd} (holds : s.cmd tag = some c)
    (masks : s.ciph.x.maskWait = false) (room : s.journalRoom (s.liveBufs tag c).length = true)
    (placed : s.placeIn d 0 4 ((s.liveBufs tag c).zipIdx.map
      (fun p => (some p.1, Piece.conv c.tenant (c.desc.lba.toNat + p.2) (s.nvm.writeSeq + p.2)))) = some s1) :
    (s.placeWrite d tag c).cmd tag = some { c with phase := .waiting, placed := true, offset := s.nvm.writeSeq } := by
  unfold State.placeWrite
  simp only [placed]
  rw [if_neg (by simp [masks]), if_neg (by simp [room])]
  refine updCmd_cmd_after ((leavePipe_hqm _ _ _).trans (Eq.trans (foldl_hqm ?_ _ s1) (placeIn_hqm placed))) holds _
  intro a p
  split <;> rfl

theorem placeAppend_cmd {s s1 : State} {d : BoardDesc} {tag : Tag} {c : Cmd} {z : Zone} (holds : s.cmd tag = some c)
    (zone : s.zone c.zoneId = some z) (turn : s.placesBefore c = false) (full : s.dev.level = .full)
    (frags : s.fragRoom (fragsOf c.offset (s.liveBufs tag c).length) = true)
    (room : s.journalRoom (s.liveBufs tag c).length = true)
    (placed : s.placeIn d 1 4 ((s.liveBufs tag c).zipIdx.map
      (fun p => (some p.1, Piece.zone c.zoneId z.gen (c.offset + p.2) 1 (s.nvm.writeSeq + p.2)))) = some s1) :
    (s.placeAppend d tag c).cmd tag = some { c with phase := .waiting, placed := true } := by
  unfold State.placeAppend
  simp only [zone, turn, full, frags, room]
  simp only [Bool.not_true, Bool.and_false, Bool.or_false, reduceCtorEq, decide_false, if_false, Bool.false_eq_true, placed]
  exact updCmd_cmd_after (Eq.trans (foldl_hqm (by intro a p; rfl) _ s1) (placeIn_hqm placed)) holds _

/-- The blocks of a range unmapped, with the journal's record of it and the lines it touches (R205; 09 R285). -/
def State.trimmed (s : State) (t : Tid) (lba n : Nat) : State :=
  State.journalLines { s with
    nvm := { s.nvm with conv := s.nvm.conv.filter (fun e => decide (e.1 < convKey t lba ∨ convKey t lba + n ≤ e.1)) },
    med := { s.med with jtrims := s.med.jtrims ++ [{ tenant := t, lba := lba, n := n, seq := s.nvm.writeSeq }] } }
    ((List.range n).map (fun k => Piece.conv t (lba + k) 0))

theorem exec_trim_ready {s : State} {tag : Tag} {c : Cmd} (ready : s.ready tag 0x05 c) (some_ : 0 < dbits c.desc.aux0 31 0)
    (few : dbits c.desc.aux0 31 0 ≤ 65536) (key : s.tnt[c.tenant].xts.isSome = true)
    (inside : c.desc.lba.toNat + dbits c.desc.aux0 31 0 ≤ s.tnt[c.tenant].convBlocks) :
    exec (.trim tag) s = .next ((s.trimmed c.tenant c.desc.lba.toNat (dbits c.desc.aux0 31 0)).updCmd tag
      (fun x => { x with phase := .waiting })) := by
  refine congrArg Host.Outcome.next ((runOp_ready _ _ ready rfl).trans ?_)
  have keyed : ¬ (s.tnt[c.tenant].xts.isNone = true) := by simp [Option.isSome_iff_ne_none.mp key, -Fin.getElem_fin]
  dsimp only
  rw [if_neg (by simp; omega), if_neg keyed, if_neg (Nat.not_lt.mpr inside)]
  rfl

/-- A finished command waits for nothing. -/
theorem settle_of_done {s : State} {tag : Tag} {c : Cmd} {st rc : Byte} {r : DWord} {m : Bool} (holds : s.cmd tag = some c)
    (done : c.phase = .done st rc r m) : s.settle tag = s := by
  unfold State.settle
  simp [holds, State.levelEnds, Cmd.lostBlock, done]

theorem freeTagOf_cmd (s : State) (tag : Tag) : (s.freeTagOf tag).cmd tag = none := by
  simp [State.freeTagOf, State.cmd, KMap.find_del]

/-- The entry of a finished command is sent and its tag is free, whatever the removal of its queue pair and its interrupt do after. -/
theorem writeEntry_sends {s : State} (tag : Tag) (c : Cmd) (st rc : Byte) (r : DWord) (m : Bool)
    (master : (s.pcie.fns[s.tenantFn c.tenant]).bme = true) :
    (s.writeEntry tag c st rc r m).cmd tag = none ∧
    Output.completion c.tenant c.qp
      ((s.tnt[c.tenant].qp c.qp).cqBase + BitVec.ofNat 64 (16 * (s.tnt[c.tenant].qp c.qp).cqTail))
      (entryOf c st rc (s.tnt[c.tenant].qp c.qp).phase m r) ∈ (s.writeEntry tag c st rc r m).outbox := by
  unfold State.writeEntry
  dsimp only
  rw [if_pos master]
  refine ⟨?_, ?_⟩
  · rw [cmd_of_hqm (hqm_removeDrained _ _ _ (hqm_raiseTnt _ _ _ (.rfl' _))).eq]
    exact freeTagOf_cmd _ _
  · exact (kept_removeDrained _ _ _ (kept_raiseTnt _ _ _ (.rfl' _))).sent.subset (mem_emit_outbox _ _)

/-- Settles O17: each of the four commands in the branch its conditions select. -/
theorem flushTrimAndEntries : Obligations.FlushTrimAndEntries := by
  unfold Obligations.FlushTrimAndEntries
  refine fun s tag c => ⟨fun ready => ?flush, fun ready some_ few key inside => ?trim,
    fun d s1 holds desc active shared new none room => ⟨fun opc masks placed => ?write, fun z opc chained zone turn full frags placed => ?append⟩,
    fun st rc r holds done active epoch enabled turn slot master => ?entry⟩
  case flush => exact congrArg Host.Outcome.next (runOp_ready _ _ ready rfl)
  case trim =>
    refine ⟨_, exec_trim_ready ready some_ few key inside, updCmd_cmd_after rfl (ready_cmd ready) _, fun e mapped => ?_, rfl, rfl, rfl⟩
    simp [State.updCmd, State.trimmed, State.journalLines, mapped]
  case write =>
    refine ⟨_, ?_, placeWrite_cmd holds masks room placed⟩
    simp [exec, execBufferPlacement, holds, desc, active, shared, new, opc, retryRewrites_of_nil none]
  case append =>
    refine ⟨_, ?_, placeAppend_cmd holds zone turn full frags room placed⟩
    simp [exec, execBufferPlacement, holds, desc, active, shared, new, opc, chained, retryRewrites_of_nil none]
  case entry =>
    obtain ⟨gone, sent⟩ := writeEntry_sends (s := s) tag c st rc r false master
    refine ⟨_, ?_, gone, sent⟩
    simp only [exec, execCompletionEntryWrite, settle_of_done holds done, holds, done]
    rw [if_neg (by simp [active]), if_neg (not_not_intro epoch), if_neg (by rw [enabled]; decide), if_neg (by simp [turn]), if_pos slot]

end Sys2Proof.Machine
end

section
/-!
PROOFS. Zone management, seals and the owner's erase (07 R206 to R214; 08 R257; 11 R370). A packet to the mirror partner, an event bit
and a meter sum leave the zones as the command's own change leaves them; an erase stirs superblocks and nothing else that is kept.
-/
namespace Sys2Proof.Machine

/-! ## What a zone command does beside its zone -/

@[simp] theorem mirStateItem_nvm (s : State) (t : Tid) (i : Byte) (p : List Byte) : (s.mirStateItem t i p).nvm = s.nvm := by
  unfold State.mirStateItem
  split <;> simp

@[simp] theorem quotaNear_nvm (s : State) (t : Tid) : (s.quotaNear t).nvm = s.nvm := by
  unfold State.quotaNear State.raiseTnt
  split <;> simp

@[simp] theorem meterIn_nvm (s : State) (cls : Fin 4) (n : Nat) : (s.meterIn cls n).nvm = s.nvm := rfl

@[simp] theorem finish_nvm (s : State) (tag : Tag) (st rc : Byte) (r : DWord) : (s.finish tag st rc r).nvm = s.nvm := rfl

theorem mirAppendSend_foldl_nvm (s : State) (t : Tid) (id : Nat) (l : List AppRec) :
    (l.foldl (fun a e => a.mirAppendSend t id e) s).nvm = s.nvm := by
  induction l generalizing s with
  | nil => rfl
  | cons e r ih => rw [List.foldl_cons, ih, State.mirAppendSend, State.mirSend_nvm]

/-- A zone that a command changed, after operations that leave the media's state alone. -/
theorem zone_of_nvm {s u : State} {f : Zone → Zone} {id : Nat} {z : Zone} (nvm : u.nvm = (s.updZone id f).nvm)
    (held : s.zone id = some z) : u.zone id = some (f z) :=
  zone_of_upd held (by rw [nvm]; rfl)

theorem named_zone {s : State} {c : Cmd} {z : Zone} (named : s.named c = some z) : s.zone c.zoneNo = some z := by
  unfold State.named at named
  split at named
  · split at named
    · rwa [← named]
    · cases named
  · cases named

/-! ## The zone opcodes, one equation each -/

theorem exec_zoneOpen_named {s : State} {tag : Tag} {c : Cmd} {z : Zone} (ready : s.ready tag 0x06 c) (other : c.zoneNo ≠ 0xFFFFF)
    (named : s.named c = some z) : exec (.zoneOpen tag) s = .next (
      if z.st ≠ .empty || z.inGustSet || z.replica then s.badState tag z
      else if !s.mayOpen z.owner then s.finish tag 0x06 0x02 0
      else (s.updZone c.zoneNo (fun x => { x with st := .open_ })).finish tag 0 0 (res c.zoneNo)) := by
  refine congrArg Host.Outcome.next ((runOp_ready _ _ ready rfl).trans ?_)
  rw [if_neg other, named]

theorem exec_zoneFinish_named {s : State} {tag : Tag} {c : Cmd} {z : Zone} (ready : s.ready tag 0x07 c) (named : s.named c = some z)
    (turn : s.appendsBefore c = false) : exec (.zoneFinish tag) s = .next (
      if z.st ≠ .open_ || z.replica then s.badState tag z else (s.finishZone c.zoneNo z).finish tag 0 0 0) := by
  refine congrArg Host.Outcome.next ((runOp_ready _ _ ready rfl).trans ?_)
  simp only [named, turn]
  rfl

/-- A FULL zone held by its host: the hold, the partner's notice, the meter and the quota's warning (R209). -/
def State.heldFull (s : State) (id : Nat) (z : Zone) : State :=
  (((s.updZone id (fun x => { x with holdHost := true, st := if x.st = .full then .held else x.st })).mirStateItem z.owner 2
    (leBytes 4 id)).meterIn 2 (4096 * z.wp)).quotaNear z.owner

theorem exec_zoneHold_full {s : State} {tag : Tag} {c : Cmd} {z : Zone} (ready : s.ready tag 0x08 c) (named : s.named c = some z)
    (full : z.st = .full) (room : s.heldHost z.owner < s.tnt[z.owner].heldMax) :
    exec (.zoneHold tag) s = .next ((s.heldFull c.zoneNo z).finish tag 0 0 0) := by
  refine congrArg Host.Outcome.next ((runOp_ready _ _ ready rfl).trans ?_)
  have few : ¬ s.tnt[z.owner].heldMax ≤ s.heldHost z.owner := Nat.not_le.mpr room
  simp only [named, full, few]
  simp [State.heldFull]

theorem exec_zoneRelease_held {s : State} {tag : Tag} {c : Cmd} {z : Zone} (ready : s.ready tag 0x09 c) (named : s.named c = some z)
    (held : z.st = .held) (device : c.tenant = 0) :
    exec (.zoneRelease tag) s = .next (((s.updZone c.zoneNo (fun x => { x with
      holdHost := false, holdEvent := false, st := if x.st = .held then .full else x.st })).mirStateItem z.owner 3
        (leBytes 4 c.zoneNo)).finish tag 0 0 0) := by
  refine congrArg Host.Outcome.next ((runOp_ready _ _ ready rfl).trans ?_)
  simp [named, held, device]

/-- What the four opcodes answer on a zone their sender may not name. -/
theorem exec_zone_unnamed {s : State} (tag : Tag) {c : Cmd} (unnamed : s.named c = none) (other : c.zoneNo ≠ 0xFFFFF) :
    (s.ready tag 0x06 c → exec (.zoneOpen tag) s = .next (s.finish tag 0x03 0 0)) ∧
    (s.ready tag 0x07 c → exec (.zoneFinish tag) s = .next (s.finish tag 0x03 0 0)) ∧
    (s.ready tag 0x08 c → exec (.zoneHold tag) s = .next (s.finish tag 0x03 0 0)) ∧
    (s.ready tag 0x09 c → exec (.zoneRelease tag) s = .next (s.finish tag 0x03 0 0)) := by
  refine ⟨fun ready => ?_, fun ready => ?_, fun ready => ?_, fun ready => ?_⟩ <;>
    refine congrArg Host.Outcome.next ((runOp_ready _ _ ready rfl).trans ?_)
  · rw [if_neg other, unnamed]
  · rw [unnamed]
  · rw [unnamed]
  · rw [unnamed]

/-- What the four opcodes answer on a SEALED zone. -/
theorem exec_zone_sealed {s : State} (tag : Tag) {c : Cmd} {z : Zone} (named : s.named c = some z) (other : c.zoneNo ≠ 0xFFFFF)
    (st : z.st = .sealed) :
    (s.ready tag 0x06 c → exec (.zoneOpen tag) s = .next (s.badState tag z)) ∧
    (s.ready tag 0x07 c → s.appendsBefore c = false → exec (.zoneFinish tag) s = .next (s.badState tag z)) ∧
    (s.ready tag 0x08 c → exec (.zoneHold tag) s = .next (s.badState tag z)) ∧
    (s.ready tag 0x09 c → exec (.zoneRelease tag) s = .next (s.badState tag z)) := by
  refine ⟨fun ready => ?_, fun ready turn => ?_, fun ready => ?_, fun ready => ?_⟩
  · rw [exec_zoneOpen_named ready other named, if_pos (by simp [st])]
  · rw [exec_zoneFinish_named ready named turn, if_pos (by simp [st])]
  · refine congrArg Host.Outcome.next ((runOp_ready _ _ ready rfl).trans ?_)
    simp [named, st]
  · refine congrArg Host.Outcome.next ((runOp_ready _ _ ready rfl).trans ?_)
    simp [named, st]

/-- Settles O18: each opcode's equation, and the zone read back under the one change it makes. -/
theorem zoneOpcodesActByState : Obligations.ZoneOpcodesActByState := by
  unfold Obligations.ZoneOpcodesActByState
  refine ⟨fun s tag c z named other => ⟨fun ready st gust own may => ?opens, fun ready turn st own => ?finishes,
    fun ready st room => ?holds, fun ready st device => ?releases⟩,
    fun s tag c => ⟨exec_zone_unnamed tag, fun z named other st => exec_zone_sealed tag named other st⟩⟩
  case opens => rw [exec_zoneOpen_named ready other named, if_neg (by simp [st, gust, own]), if_neg (by simp [may])]
  case finishes =>
    refine ⟨_, by rw [exec_zoneFinish_named ready named turn, if_neg (by simp [st, own])], answered_after 0 0 0 (ready_cmd ready) ?_, ?_⟩
    · exact (hqm_mirStateItem _ _ _ _ (.rfl' _)).eq
    · exact zone_of_nvm (mirStateItem_nvm _ _ _ _) (named_zone named)
  case holds =>
    refine ⟨_, exec_zoneHold_full ready named st room, answered_after 0 0 0 (ready_cmd ready) ?_, ?_⟩
    · exact (hqm_quotaNear _ _ (hqm_meterIn _ _ _ (hqm_mirStateItem _ _ _ _ (.rfl' _)))).eq
    · rw [zone_of_nvm (f := fun x => { x with holdHost := true, st := if x.st = .full then .held else x.st })
        (by simp [State.heldFull]) (named_zone named), if_pos st]
  case releases =>
    refine ⟨_, exec_zoneRelease_held ready named st device, answered_after 0 0 0 (ready_cmd ready) ?_, ?_⟩
    · exact (hqm_mirStateItem _ _ _ _ (.rfl' _)).eq
    · rw [zone_of_nvm (f := fun x => { x with
          holdHost := false, holdEvent := false, st := if x.st = .held then .full else x.st })
        (by rw [finish_nvm, mirStateItem_nvm]) (named_zone named), if_pos st]

/-! ## Seals -/

theorem runs_opc {s : State} {tag : Tag} {opc : Nat} {c : Cmd} (runs : s.runs tag opc = some c) : c.desc.opc.toNat = opc := by
  unfold State.runs at runs
  split at runs
  · split at runs
    · next ok => cases runs; simp at ok; tauto
    · cases runs
  · cases runs

theorem exec_zoneSeal_ready {s : State} {tag : Tag} {c : Cmd} {z : Zone} (ready : s.ready tag 0x0A c) (named : s.named c = some z)
    (turn : s.appendsBefore c = false) : exec (.zoneSeal tag) s = .next (s.runSeal tag c z) := by
  obtain ⟨runs, -, -, -, -, level⟩ := ready
  have opc : c.desc.opc = 0x0A#8 := BitVec.eq_of_toNat_eq (runs_opc runs)
  simp [exec, execZoneSeal, runs_cmd runs, runs, opc, level, named, turn]

/-- What sealing a zone that is not OPEN leaves in the media's state: the zone SEALED, its record and the index (R257). -/
theorem sealZone_nvm {s : State} {id : Nat} {z : Zone} {key : Hash} (closed : z.st ≠ .open_) : ∃ r,
    (s.sealZone id z key).nvm = ((s.updZone id (fun x => { x with st := .sealed })).putSeal id r).nvm := by
  refine ⟨s.sealBody id z false ++ wideBytes (Config.ecdsaSign key (s.sealBody id z false)), ?_⟩
  unfold State.sealZone
  simp only [closed, decide_false, Bool.false_eq_true, if_false]
  rw [quotaNear_nvm, mirStateItem_nvm, State.raise_nvm, meterIn_nvm]
  split
  · rw [mirAppendSend_foldl_nvm]
  · rfl

theorem runSeal_closed {s : State} {tag : Tag} {c : Cmd} {z : Zone} {k : Hash} (own : z.replica = false)
    (closed : z.st = .full ∨ z.st = .held) (room : s.zcountLim z.owner .sealed < s.tnt[z.owner].evidMax)
    (identity : s.sign.identity = some k) : s.runSeal tag c z = (s.sealZone c.zoneNo z k).finish tag 0 0 (lastIndex z) := by
  have few : ¬ s.tnt[z.owner].evidMax ≤ s.zcountLim z.owner .sealed := Nat.not_le.mpr room
  unfold State.runSeal
  obtain st | st := closed <;> simp only [st, own, identity, few] <;> rfl

/-! ## The owner's erase -/

/-- Superblocks, their groups and the media's own work change, and nothing else. -/
def StirsBlocks (s t : State) : Prop :=
  ∃ b g m p, t = { s with nvm := { s.nvm with sbs := b, groups := g }, med := m, pwr := p }

theorem StirsBlocks.rfl' (s : State) : StirsBlocks s s := ⟨_, _, _, _, rfl⟩

theorem StirsBlocks.trans {s t u : State} (h : StirsBlocks s t) (g : StirsBlocks t u) : StirsBlocks s u := by
  obtain ⟨_, _, _, _, rfl⟩ := h
  obtain ⟨_, _, _, _, rfl⟩ := g
  exact ⟨_, _, _, _, rfl⟩

theorem StirsBlocks.foldl {α : Type} {f : State → α → State} (stirs : ∀ a x, StirsBlocks a (f a x)) (l : List α) (s : State) :
    StirsBlocks s (l.foldl f s) := by
  induction l generalizing s with
  | nil => exact .rfl' s
  | cons x r ih => exact (stirs s x).trans (ih _)

theorem stirsBlocks_queueOp (s : State) (die cls : Nat) (k : FlashKind) (bufs : List Nat) :
    StirsBlocks s (s.queueOp die cls k bufs) := ⟨_, _, _, _, rfl⟩

theorem stirsBlocks_finishErase (s : State) (key : Nat) : StirsBlocks s (s.finishErase key) := by
  unfold State.finishErase
  split
  · exact .rfl' s
  · exact ⟨_, _, _, _, rfl⟩

theorem stirsBlocks_eraseSb (s : State) (key : Nat) : StirsBlocks s (s.eraseSb key) := by
  have queued (a : State) (b : Superblock) : StirsBlocks a (a.queueErases key b) :=
    (StirsBlocks.foldl (fun a x => stirsBlocks_queueOp a _ _ _ _) _ _).trans (stirsBlocks_finishErase _ _)
  unfold State.eraseSb
  split
  · exact .rfl' s
  · split
    · exact .rfl' s
    · exact StirsBlocks.trans ⟨_, _, _, _, rfl⟩ (queued _ _)

theorem stirsBlocks_eraseIfEmpty (s : State) (key : Nat) : StirsBlocks s (s.eraseIfEmpty key) := by
  unfold State.eraseIfEmpty
  split
  · split
    · exact stirsBlocks_eraseSb s key
    · exact .rfl' s
  · exact .rfl' s

theorem stirsBlocks_eraseZoneBlocks (s : State) (id : Nat) : StirsBlocks s (s.eraseZoneBlocks id) :=
  StirsBlocks.trans ⟨_, _, _, _, rfl⟩ (StirsBlocks.foldl (fun a (p : Nat × Superblock) => stirsBlocks_eraseIfEmpty a p.1) _ _)

/-- What a record leaves of zones and of the zone-reset log. -/
theorem record_zones (s : State) (code : Nat) (sev : Fin 4) (t : Byte) (d : List Byte) :
    (s.record code sev t d).nvm.zones = s.nvm.zones ∧ (s.record code sev t d).nvm.zresetNext = s.nvm.zresetNext ∧
    (s.record code sev t d).own = s.own := by
  have same := record_unlogged s code sev t d
  exact ⟨congrArg (fun x => x.nvm.zones) same, congrArg (fun x => x.nvm.zresetNext) same, congrArg (fun x => x.own) same⟩

/-- A zone erased by its owner, with its reset record and its critical record (R214; 11 R370). -/
def State.erasedZone (s : State) (id : Nat) (z : Zone) : State :=
  (((s.zresetRecord id z 2).emptyZone id).eraseZoneBlocks id).record 0x2740 3 (tidByte z.owner)
    (leBytes 4 id ++ [tidByte z.owner, 0, 0, 0] ++ leBytes 4 z.gen.toNat)

theorem erasedZone_facts {s : State} {id : Nat} {z : Zone} (held : s.zone id = some z) :
    (s.erasedZone id z).zone id = some { Zone.fresh z.owner (z.gen + 1) with inGustSet := z.inGustSet } ∧
    (s.erasedZone id z).nvm.zresetNext = s.nvm.zresetNext + 1 ∧ (s.erasedZone id z).own = s.own ∧
    (s.erasedZone id z).hqm = s.hqm := by
  obtain ⟨b, g, m, p, erased⟩ := stirsBlocks_eraseZoneBlocks ((s.zresetRecord id z 2).emptyZone id) id
  obtain ⟨zones, next, own⟩ := record_zones (((s.zresetRecord id z 2).emptyZone id).eraseZoneBlocks id) 0x2740 3 (tidByte z.owner)
    (leBytes 4 id ++ [tidByte z.owner, 0, 0, 0] ++ leBytes 4 z.gen.toNat)
  refine ⟨?_, next.trans (by rw [erased]; rfl), own.trans (by rw [erased]; rfl), ?_⟩
  · refine zone_of_upd (f := fun x => { Zone.fresh x.owner (x.gen + 1) with inGustSet := x.inGustSet }) held (zones.trans ?_)
    rw [erased]
    rfl
  · exact (hqm_record _ _ _ _ _ (hqm_eraseZoneBlocks _ _ (.rfl' _))).eq

/-- The argument of the owner's signature on an erase (R213). -/
def eraseArg (c : Cmd) (z : Zone) : List Byte := leBytes 4 c.zoneNo ++ leBytes 4 z.gen.toNat ++ [tidByte z.owner]

theorem ownerSigned_live {s : State} (tag : Tag) (op : Byte) (arg sig : List Byte) (act : State → State) {q : QWord}
    (owned : s.nvm.ownerSlots ≠ []) (live : s.liveChallenge = some q) :
    s.ownerSigned tag op arg sig act =
      if Config.ecdsaVerify s.nvm.ownerKey (ownerMessage q op arg) (wideOf sig) then act s.dropChallenge
      else (s.dropChallenge.raise pOWN 2).finish tag 0x0E 0 0 := by
  unfold State.ownerSigned
  rw [if_neg owned, live]

theorem exec_zoneEraseSigned_live {s : State} {tag : Tag} {c : Cmd} {z : Zone} {q : QWord} (ready : s.ready tag 0x4D c)
    (named : s.named c = some z) (st : z.st = .sealed) (owned : s.nvm.ownerSlots ≠ []) (live : s.liveChallenge = some q) :
    exec (.zoneEraseSigned tag) s = .next (
      if Config.ecdsaVerify s.nvm.ownerKey (ownerMessage q 0x10 (eraseArg c z)) (wideOf (slice c.bytes 0 64)) then
        (s.dropChallenge.erasedZone c.zoneNo z).finish tag 0 0 0
      else (s.dropChallenge.raise pOWN 2).finish tag 0x0E 0 0) := by
  refine congrArg Host.Outcome.next ((runOp_ready _ _ ready rfl).trans ?_)
  simp only [named]
  rw [if_neg (by simp [st])]
  exact ownerSigned_live tag 0x10 (eraseArg c z) _ _ owned live

/-- Settles O19: a seal's three changes of the media's state, and the two outcomes of a signed erase. -/
theorem zonesAreSealedAndErased : Obligations.ZonesAreSealedAndErased := by
  unfold Obligations.ZonesAreSealedAndErased
  refine ⟨fun s tag c z k ready named turn own => ⟨fun st => ?again, fun closed room identity => ?seals⟩,
    fun s tag c z q ready named st owned live => ?erases⟩
  case again => rw [exec_zoneSeal_ready ready named turn, State.runSeal, if_pos (by simp [st, own])]
  case seals =>
    obtain ⟨r, nvm⟩ := sealZone_nvm (s := s) (id := c.zoneNo) (z := z) (key := k) (by rintro st; simp [st] at closed)
    refine ⟨_, by rw [exec_zoneSeal_ready ready named turn, runSeal_closed own closed room identity],
      answered_after 0 0 _ (ready_cmd ready) (hqm_sealZone _ _ _ _ (.rfl' s)).eq, ?_, ?_, ?_, ?_, ?_⟩
    · rw [finish_nvm, nvm]; rfl
    · rw [finish_nvm, nvm]; simp [State.putSeal, KMap.has]
    · exact zone_of_upd (f := fun x => { x with st := .sealed }) (named_zone named) (by rw [finish_nvm, nvm]; rfl)
    · rw [finish_nvm, nvm]; rfl
    · rw [finish_nvm, nvm]; rfl
  case erases =>
    refine ⟨_, exec_zoneEraseSigned_live ready named st owned live, ?_, fun signed => ?_, fun other => ?_⟩
    · split
      · exact congrArg OwnS.challenge (erasedZone_facts (s := s.dropChallenge) (named_zone named)).2.2.1
      · simp [State.finish, State.dropChallenge]
    · obtain ⟨zone, next, -, hqm⟩ := erasedZone_facts (s := s.dropChallenge) (named_zone named)
      change Config.ecdsaVerify _ (ownerMessage q 0x10 (eraseArg c z)) _ = true at signed
      rw [if_pos signed]
      exact ⟨answered_after 0 0 0 (ready_cmd ready) hqm, next, zone⟩
    · change Config.ecdsaVerify _ (ownerMessage q 0x10 (eraseArg c z)) _ = false at other
      rw [if_neg (Bool.eq_false_iff.mp other)]
      exact ⟨answered_after 0x0E 0 0 (ready_cmd ready) (State.raise_hqm _ _ _), by rw [finish_nvm, State.raise_nvm]; rfl⟩

end Sys2Proof.Machine
end

section
/-!
PROOFS. Queue pairs, key pages, features and meter readings (07 R182 to R184, R520; 08 R242 to R248; 12 R386, R390). What is sent to
the host, and an INTx line judged again, change the outbox and the endpoint alone; a change of one queue pair or tenant is read
back at its index and at every other.
-/
namespace Sys2Proof.Machine

/-! ## Sending -/

theorem Sends.hqm {s t : State} (h : Sends s t) : t.hqm = s.hqm := by
  obtain ⟨_, _, rfl⟩ := h
  rfl

theorem sends_updInta (s : State) : Sends s s.updInta := by
  have sent (b : Bool) : Sends s { s with pcie := { s.pcie with inta := b } } := ⟨_, _, rfl⟩
  unfold State.updInta
  dsimp only
  split
  · exact .rfl' s
  · split
    · exact sent _
    · exact (sent _).emit _

theorem sends_sendData (s : State) (c : Cmd) (off : Nat) (b : List Byte) (ep : Bool) : Sends s (s.sendData c off b ep) := by
  unfold State.sendData
  dsimp only
  split
  · exact .rfl' s
  · split
    · obtain ⟨_, _, sent⟩ := (Sends.rfl' s).foldl (g := fun a (p : Nat × List Byte) =>
        .memWrite (s.tenantFn c.tenant) (BitVec.ofNat 64 p.1) p.2 ep (a.roFor c)) (scatter c.targets off b)
      rw [sent]
      exact ⟨_, _, rfl⟩
    · exact (Sends.rfl' s).foldl _

/-! ## One tenant, one queue pair -/

theorem updTnt_same (s : State) (t : Tid) (f : Tenant → Tenant) : (s.updTnt t f).tnt[t] = f s.tnt[t] := by
  simp [State.updTnt]

theorem updTnt_other (s : State) {t x : Tid} (f : Tenant → Tenant) (other : x ≠ t) : (s.updTnt t f).tnt[x] = s.tnt[x] := by
  have apart : (t : Nat) ≠ x := fun h => other (Fin.ext h.symm)
  simp [State.updTnt, Vector.getElem_set_ne, apart]

theorem updQp_tnt_other (s : State) {t x : Tid} (q : Qid) (f : Qp → Qp) (other : x ≠ t) : (s.updQp t q f).tnt[x] = s.tnt[x] :=
  updTnt_other s _ other

theorem updQp_qp_other (s : State) (t : Tid) {q p : Qid} (f : Qp → Qp) (other : p ≠ q) :
    ((s.updQp t q f).tnt[t]).qp p = (s.tnt[t]).qp p := by
  have apart : (q : Nat) ≠ p := fun h => other (Fin.ext h.symm)
  rw [State.updQp, updTnt_same]
  simp [Tenant.qp, Vector.getElem_set_ne, apart]

/-- A queue pair under removal is left or removed; every other stays, and so do the commands (R183). -/
theorem removeDrained_tnt (s : State) (t : Tid) (q : Qid) :
    (s.removeDrained t q).tnt = s.tnt ∨ (s.removeDrained t q).tnt = (s.updQp t q (fun _ => Qp.reset)).tnt := by
  unfold State.removeDrained
  split
  · obtain ⟨_, _, sent⟩ := sends_updInta { (s.updQp t q (fun _ => Qp.reset)) with
      troutes := (s.updQp t q (fun _ => Qp.reset)).troutes.set (trouteIx t q) TRoute.reset }
    right
    dsimp only
    rw [sent]
  · exact .inl rfl

theorem KMap.find_mapv {α : Type} (m : KMap α) (f : Nat → α → α) (k : Nat) : KMap.find (m.mapv f) k = (m.find k).map (f k) := by
  induction m with
  | nil => rfl
  | cons p r ih =>
    have next : KMap.mapv (p :: r) f = (p.1, f p.1 p.2) :: KMap.mapv r f := rfl
    rw [next, KMap.find, KMap.find, ih]
    split
    · next same => rw [same]; rfl
    · rfl

/-! ## QUEUE_CREATE and QUEUE_DELETE -/

/-- The vector QUEUE_CREATE gives a queue pair (05 R141). -/
def State.namedVec (s : State) (c : Cmd) (q : Qid) : Nat :=
  if s.hasFeat c.tenant 16 then dbits c.desc.aux0 38 32 else s.defaultVec c.tenant q

theorem defaultVec_le (s : State) (t : Tid) (q : Qid) : s.defaultVec t q ≤ if s.tnt[t].binding = 1 then 8 else 71 := by
  unfold State.defaultVec
  split <;> omega

theorem exec_queueCreate_ready {s : State} {tag : Tag} {c : Cmd} {q : Qid} (ready : s.ready tag 0x41 c)
    (names : Fin.ofNat 8 (dbits c.desc.aux0 2 0) = q) (other : q ≠ 0) (device : s.dev.featLock = true)
    (tenant : s.tntLocked c.tenant = true) (free : (s.tnt[c.tenant].qp q).enabled = false)
    (vec : s.hasFeat c.tenant 16 = true → dbits c.desc.aux0 38 32 ≤ if s.tnt[c.tenant].binding = 1 then 8 else 71)
    (ring : ringOk (dbits c.desc.aux0 28 16) c.desc.daddr c.desc.haddr = true) :
    exec (.queueCreate tag) s = .next
      ((s.createQp c.tenant q (dbits c.desc.aux0 28 16) c.desc.daddr c.desc.haddr (s.namedVec c q)).finish tag 0 0 0) := by
  have vec' : (if s.hasFeat c.tenant 16 then dbits c.desc.aux0 38 32 else s.defaultVec c.tenant q) ≤
      if s.tnt[c.tenant].binding = 1 then 8 else 71 := by
    split
    · exact vec ‹_›
    · exact defaultVec_le s c.tenant q
  refine congrArg Host.Outcome.next ((runOp_ready _ _ ready rfl).trans ?_)
  dsimp only
  rw [names, if_neg other, if_neg (by simp [device, tenant]), if_neg (by rw [free]; decide), if_neg (Nat.not_lt.mpr vec'),
    if_neg (by simp [ring])]
  rfl

/-- Creating a queue pair changes the tenant's queue pairs and a route, and sends what the route's line then asks for. -/
theorem createQp_changes (s : State) (t : Tid) (q : Qid) (depth : Nat) (sq cq : DWord) (vec : Nat) :
    (s.createQp t q depth sq cq vec).tnt = (s.updQp t q (fun _ => Qp.created depth sq cq)).tnt ∧
    (s.createQp t q depth sq cq vec).troutes = s.troutes.set (trouteIx t q) { valid := true, vec := BitVec.ofNat 7 vec } ∧
    (s.createQp t q depth sq cq vec).nvm = s.nvm ∧ (s.createQp t q depth sq cq vec).hdr = s.hdr ∧
    (s.createQp t q depth sq cq vec).hqm = s.hqm := by
  obtain ⟨_, _, sent⟩ := sends_updInta { (s.updQp t q (fun _ => Qp.created depth sq cq)) with
    troutes := (s.updQp t q (fun _ => Qp.created depth sq cq)).troutes.set (trouteIx t q) { valid := true, vec := BitVec.ofNat 7 vec } }
  unfold State.createQp
  rw [sent]
  exact ⟨rfl, rfl, rfl, rfl, rfl⟩

theorem exec_queueDelete_ready {s : State} {tag : Tag} {c : Cmd} {q : Qid} (ready : s.ready tag 0x42 c)
    (names : Fin.ofNat 8 (dbits c.desc.aux0 2 0) = q) (other : q ≠ 0) (enabled : (s.tnt[c.tenant].qp q).enabled = true) :
    exec (.queueDelete tag) s = .next
      (((s.drainQp c.tenant q (c.desc.aux0.getLsbD 8)).removeDrained c.tenant q).updCmd tag (fun x => { x with phase := .waiting })) := by
  refine congrArg Host.Outcome.next ((runOp_ready _ _ ready rfl).trans ?_)
  dsimp only
  rw [names, if_neg (by simp only [other, enabled]; decide)]

theorem drainQp_tnt (s : State) (t : Tid) (q : Qid) (abort : Bool) :
    (s.drainQp t q abort).tnt = (s.updQp t q (fun x => { x with draining := true })).tnt := by
  unfold State.drainQp
  split <;> rfl

/-- Stopping a queue pair keeps every command of it in its tag. -/
theorem drainQp_cmd {s : State} {tag : Tag} {c : Cmd} (t : Tid) (q : Qid) (abort : Bool) (holds : s.cmd tag = some c) :
    ∃ x, (s.drainQp t q abort).cmd tag = some x := by
  unfold State.cmd at holds ⊢
  unfold State.drainQp
  split
  · refine Option.isSome_iff_exists.mp ?_
    dsimp only
    rw [KMap.find_mapv, Option.isSome_map]
    exact congrArg Option.isSome holds
  · exact ⟨c, holds⟩

/-- What QUEUE_DELETE leaves of the tenants: its queue pair drains or is gone, and no other changes. -/
theorem drained_tnt (s : State) (t : Tid) (q : Qid) (abort : Bool) (u : State)
    (tnt : u.tnt = ((s.drainQp t q abort).removeDrained t q).tnt) :
    ((u.tnt[t].qp q).draining = true ∨ (u.tnt[t].qp q).enabled = false) ∧
    (∀ p, p ≠ q → u.tnt[t].qp p = s.tnt[t].qp p) ∧ (∀ x : Tid, x ≠ t → u.tnt[x] = s.tnt[x]) := by
  have drained := drainQp_tnt s t q abort
  rw [tnt]
  obtain left | removed := removeDrained_tnt (s.drainQp t q abort) t q
  · rw [left, drained]
    exact ⟨.inl (by rw [updQp_qp]), fun p => updQp_qp_other s t _, fun x => updQp_tnt_other s q _⟩
  · rw [removed]
    refine ⟨.inr (by rw [updQp_qp]; rfl), fun p apart => ?_, fun x apart => ?_⟩
    · rw [updQp_qp_other _ t _ apart, drained, updQp_qp_other s t _ apart]
    · rw [updQp_tnt_other _ q _ apart, drained, updQp_tnt_other s q _ apart]

/-! ## Key pages -/

/-- Masks are drawn from the lanes alone. -/
theorem drawMasks_eq {s t : State} {p : Pipe} {n : Nat} (masks : s.drawMasks p n = some t) : ∃ x, t = { s with ciph := x } := by
  unfold State.drawMasks at masks
  split at masks
  · cases masks
  · split at masks
    · cases masks
      exact ⟨_, rfl⟩
    · cases masks

theorem exec_keyLoad_ready {s s1 : State} {tag : Tag} {c : Cmd} {d : Hash} (ready : s.ready tag 0x43 c)
    (open_ : s.ciph.g.fenced = false) (format : wrapFormatOk c.bytes = true)
    (len : c.desc.len.toNat = if c.bytes.getD 5 0 = 1 then 176 else 144) (transport : s.sign.transport = some d)
    (context : s.pipeFull .g = false) (masks : s.drawMasks .g (if c.bytes.getD 5 0 = 1 then 5 else 3) = some s1) :
    exec (.keyLoad tag) s = .next (match unwrapKey d c.tenant c.bytes with
      | .xts k id => s1.queueKey c.tenant tag (.loadX k id (if c.desc.aux0.getLsbD 0 then some c.bytes else none) tag)
      | .gcm k id => s1.queueKey c.tenant tag (.loadG k id (if c.desc.aux0.getLsbD 0 then some c.bytes else none) tag)
      | .badField rc => s1.finish tag 0x02 rc 0
      | .auth => (s1.raise pCIPH 6).finish tag 0x0A 0 0) := by
  refine congrArg Host.Outcome.next ((runOp_ready _ _ ready rfl).trans ?_)
  dsimp only
  rw [if_neg (by simp [open_]), if_neg (by simp [format]), if_neg (not_not_intro len), transport]
  dsimp only
  rw [if_neg (by simp [context]), masks] <;> rfl

/-- A change at the end of a tenant's list waits with its command. -/
theorem queueKey_waits {s : State} {t : Tid} {tag : Tag} {c : Cmd} (k : KeyChange) (holds : s.cmd tag = some c) :
    ((s.queueKey t tag k).tnt[t]) = { s.tnt[t] with keyWait := s.tnt[t].keyWait ++ [k] } ∧
    (s.queueKey t tag k).cmd tag = some { c with phase := .waiting } ∧ (s.queueKey t tag k).nvm = s.nvm :=
  ⟨updTnt_same s t (fun x => { x with keyWait := x.keyWait ++ [k] }), updCmd_cmd _ _ _ _ holds, rfl⟩

/-- The page of a tenant under a clearing change (R244; 07 R217). -/
theorem applyKey_clear (s : State) (t : Tid) (x g : Bool) (tag : Tag) :
    ((s.applyKey t (.clear x g tag)).tnt[t]).keyWait = (s.tnt[t]).keyWait ∧
    ((s.applyKey t (.clear x g tag)).tnt[t]).xts = (if x then none else (s.tnt[t]).xts) ∧
    ((s.applyKey t (.clear x g tag)).tnt[t]).gcm = (if g then none else (s.tnt[t]).gcm) ∧
    (s.applyKey t (.clear x g tag)).nvm.keysX = (if x then s.nvm.keysX.del t.1 else s.nvm.keysX) ∧
    (s.applyKey t (.clear x g tag)).nvm.keysG = (if g then s.nvm.keysG.del t.1 else s.nvm.keysG) := by
  have page : ((s.updTnt t (fun y => { y with xts := if x then none else y.xts, gcm := if g then none else y.gcm })).dropPersisted
      t x g).tnt[t] = { s.tnt[t] with xts := if x then none else (s.tnt[t]).xts, gcm := if g then none else (s.tnt[t]).gcm } :=
    updTnt_same s t (fun y => { y with xts := if x then none else y.xts, gcm := if g then none else y.gcm })
  simp only [State.applyKey, State.raiseTnt, State.finish, State.updCmd_tnt, State.updCmd_nvm, raise_tnt_keyWait, raise_tnt_xts,
    raise_tnt_gcm, State.raise_nvm, page]
  exact ⟨trivial, trivial, trivial, rfl, rfl⟩

theorem exec_keyPageChange_clear {s : State} {t : Tid} {x g : Bool} {tag : Tag} {r : List KeyChange}
    (first : s.tnt[t].keyWait = .clear x g tag :: r) (active : s.active = true) (quiet : s.pageQuiet t = true)
    (done : s.tnt[t].resetDone = true) :
    exec (.keyPageChange t) s = .next ((s.updTnt t (fun y => { y with keyWait := r })).applyKey t (.clear x g tag)) := by
  simp only [exec, execKeyPageChange, first]
  rw [if_pos (by rw [active, quiet, done]; rfl)]

/-- Settles O21: the four ways a queue pair or a key page is asked to change, and the first change of a quiet page. -/
theorem queuePairsAndKeys : Obligations.QueuePairsAndKeys := by
  unfold Obligations.QueuePairsAndKeys
  refine ⟨fun s tag c q names other => ⟨fun ready device tenant free vec ring => ?create, fun ready enabled => ?delete⟩,
    fun s tag c => ⟨fun d ready open_ format len transport context masks => ?load, fun ready => ?clear,
      fun t x g r first active quiet done holds => ?page⟩⟩
  case create =>
    obtain ⟨tnt, troutes, nvm, hdr, hqm⟩ := createQp_changes s c.tenant q (dbits c.desc.aux0 28 16) c.desc.daddr c.desc.haddr
      (s.namedVec c q)
    refine ⟨_, exec_queueCreate_ready ready names other device tenant free vec ring, answered_after 0 0 0 (ready_cmd ready) hqm, ?_⟩
    simp only [State.finish, State.updCmd_tnt, State.updCmd_troutes, State.updCmd_nvm, State.updCmd_hdr, tnt, troutes, nvm, hdr]
    exact ⟨updQp_qp s c.tenant q _, by simp, fun p => updQp_qp_other s c.tenant _, fun t => updQp_tnt_other s q _, trivial, trivial⟩
  case delete =>
    obtain ⟨x, drained⟩ := drainQp_cmd c.tenant q (c.desc.aux0.getLsbD 8) (ready_cmd ready)
    refine ⟨_, { x with phase := .waiting }, exec_queueDelete_ready ready names other enabled, ?_, rfl,
      drained_tnt s c.tenant q (c.desc.aux0.getLsbD 8) _ rfl⟩
    exact updCmd_cmd_after (hqm_removeDrained _ _ _ (.rfl' _)).eq drained _
  case load =>
    obtain ⟨s1, masks⟩ := Option.isSome_iff_exists.mp masks
    have loads := exec_keyLoad_ready ready open_ format len transport context masks
    obtain ⟨ciph, rfl⟩ := drawMasks_eq masks
    refine ⟨fun k id unwrapped => ?_, fun unwrapped => ?_⟩
    · rw [unwrapped] at loads
      obtain ⟨tnt, waits, nvm⟩ := queueKey_waits (s := { s with ciph := ciph }) (t := c.tenant)
        (.loadX k id (if c.desc.aux0.getLsbD 0 then some c.bytes else none) tag) (ready_cmd ready)
      exact ⟨_, loads, by rw [tnt], waits, by rw [tnt], nvm⟩
    · rw [unwrapped] at loads
      exact ⟨_, loads, answered_after 0x0A 0 0 (ready_cmd ready) (State.raise_hqm _ _ _),
        raise_tnt_keyWait _ _ _ _, State.raise_nvm _ _ _⟩
  case clear =>
    obtain ⟨tnt, waits, nvm⟩ := queueKey_waits (s := s) (t := c.tenant)
      (.clear (c.desc.aux0.getLsbD 0) (c.desc.aux0.getLsbD 1) tag) (ready_cmd ready)
    exact ⟨_, congrArg Host.Outcome.next (runOp_ready _ _ ready rfl), by rw [tnt], waits, nvm⟩
  case page =>
    obtain ⟨wait, xts, gcm, keysX, keysG⟩ := applyKey_clear (s.updTnt t (fun y => { y with keyWait := r })) t x g tag
    rw [updTnt_same] at wait xts gcm
    refine ⟨_, exec_keyPageChange_clear first active quiet done, ?_, wait, fun on => ?_, fun on => ?_, fun off => ?_, fun off => ?_⟩
    · exact answered_after 0 0 0 holds (hqm_raiseTnt _ _ _ (hqm_dropPersisted _ _ _ _ (.rfl' _))).eq
    · rw [xts, keysX, on]
      exact ⟨rfl, by simp [KMap.has, KMap.find_del]⟩
    · rw [gcm, keysG, on]
      exact ⟨rfl, by simp [KMap.has, KMap.find_del]⟩
    · rw [xts, off]; rfl
    · rw [gcm, off]; rfl

/-! ## FEATURE -/

theorem exec_featureHoldMinutesSet_ready {s : State} {tag : Tag} {c : Cmd} {t : Tid} (ready : s.ready tag 0x45 c) (sel : c.desc.sel = 1)
    (set : c.desc.setBit = true) (target : s.holdTarget c = some t) :
    exec (.featureHoldMinutesSet tag) s = .next (if 60 < dbits c.desc.aux1 7 0 then s.finish tag 0x03 0 0
      else (s.setHold t (dbits c.desc.aux1 7 0)).finish tag 0 0 0) := by
  refine congrArg Host.Outcome.next ((runOp_ready _ _ ready (by simp [sel, set])).trans ?_)
  rw [target]

/-- Hold minutes in force and kept (R181). -/
theorem setHold_keeps (s : State) (t : Tid) (v : Nat) :
    (s.setHold t v).tnt[t] = { s.tnt[t] with holdMin := v } ∧ (∀ x : Tid, x ≠ t → (s.setHold t v).tnt[x] = s.tnt[x]) ∧
    ((s.setHold t v).nvm.holdMin.find t.1).map (fun p => p.1) = some v ∧ (s.setHold t v).hqm = s.hqm :=
  ⟨updTnt_same s t (fun x => { x with holdMin := v }), fun _ other => updTnt_other s (fun x => { x with holdMin := v }) other,
    by simp [State.setHold], rfl⟩

theorem dirtyHeld_lt (s : State) (t : Tid) : s.dirtyHeld t < 2 ^ 20 := by
  unfold State.dirtyHeld
  split
  · exact Nat.mod_lt _ (by decide)
  · decide

/-- The two numbers of FEATURE 0x03. -/
theorem budgetResult_parts (b h : Nat) (low : h < 2 ^ 20) :
    (res (b % 2 ^ 20 + h * 2 ^ 32)).toNat % 2 ^ 32 = b % 2 ^ 20 ∧ (res (b % 2 ^ 20 + h * 2 ^ 32)).toNat / 2 ^ 32 = h := by
  have small : b % 2 ^ 20 < 2 ^ 20 := Nat.mod_lt _ (by decide)
  generalize b % 2 ^ 20 = a at small ⊢
  have fits : (res (a + h * 2 ^ 32)).toNat = a + h * 2 ^ 32 := by
    rw [res, BitVec.toNat_ofNat, Nat.mod_eq_of_lt (by omega)]
  rw [fits]
  omega

/-! ## METER_READ -/

/-- A reading that its sender may have, fits and finds the identity key. -/
theorem meterRead_sends {s : State} {tag : Tag} {c : Cmd} {k : Hash} {allowed : Bool} {kind : Byte} (tenant : Byte) (content : Nat → List Byte)
    (idle : s.mtr.pendingOn = false) (identity : s.sign.identity = some k) (may : allowed = true)
    (room : 144 + (content (c.desc.len.toNat - 144)).length ≤ c.desc.len.toNat) (sel : BitVec.ofNat 8 c.desc.sel = kind) :
    s.meterRead tag c allowed tenant content =
      (s.sendData c 0 (s.reading k kind tenant c.hdrBytes (content (c.desc.len.toNat - 144))) false).finish
        tag 0 0 0 := by
  have fits : ¬ c.desc.len.toNat < 144 + (content (c.desc.len.toNat - 144)).length := Nat.not_lt.mpr room
  unfold State.meterRead
  rw [if_neg (by simp [idle]), if_neg (by simp [may]), if_neg fits, identity, ← sel]

/-- Settles O22: a FEATURE is one equation of its selector, a METER_READ one use of `State.meterRead`. -/
theorem featuresAndMeterReads : Obligations.FeaturesAndMeterReads := by
  unfold Obligations.FeaturesAndMeterReads
  refine ⟨fun s tag c ready => ⟨fun t sel target => ⟨fun get => ?holdGet, fun set le => ?holdSet, fun set gt => ?holdHigh⟩,
      fun sel get => ?itemGet, fun sel set feat printing => ?itemSet, fun sel => ?budget⟩,
    fun s tag c k ready idle identity => ⟨fun sel low own room => ?tenant, fun sel guest other => ?denied,
      fun sel device room => ?all, fun sel device body def_ room => ?profile⟩⟩
  case holdGet =>
    refine congrArg Host.Outcome.next ((runOp_ready _ _ ready (by simp [sel, get])).trans ?_)
    rw [target]
  case holdSet =>
    obtain ⟨same, others, kept, hqm⟩ := setHold_keeps s t (dbits c.desc.aux1 7 0)
    exact ⟨_, by rw [exec_featureHoldMinutesSet_ready ready sel set target, if_neg (Nat.not_lt.mpr le)],
      answered_after 0 0 0 (ready_cmd ready) hqm, same, others, kept⟩
  case holdHigh => rw [exec_featureHoldMinutesSet_ready ready sel set target, if_pos gt]
  case itemGet => exact congrArg Host.Outcome.next (runOp_ready _ _ ready (by simp [sel, get]))
  case itemSet =>
    have clean : c.bytes.any (fun b => b.toNat < 0x20 || 0x7E < b.toNat) = false := by
      rw [List.any_eq_false]
      intro b holds
      have := printing b holds
      simp
      omega
    refine congrArg Host.Outcome.next ((runOp_ready _ _ ready (by simp [sel, set])).trans ?_)
    rw [if_neg (by rw [feat, clean]; decide)]
  case budget =>
    obtain ⟨low, high⟩ := budgetResult_parts s.budget _ (dirtyHeld_lt s c.tenant)
    refine ⟨_, congrArg Host.Outcome.next (runOp_ready _ _ ready (by simp [sel])), low, fun on => ?_, fun off => ?_⟩
    · rw [high, State.dirtyHeld, if_pos on]
    · rw [high, State.dirtyHeld, if_neg (Bool.eq_false_iff.mp off)]
  case tenant =>
    refine congrArg Host.Outcome.next ((runOp_ready _ _ ready (by simp [sel])).trans ?_)
    have may : (decide (c.desc.sel = 1) && decide (dbits c.desc.aux0 15 8 < 64) &&
        (decide (c.tenant = 0) || decide (dbits c.desc.aux0 15 8 = c.tenant.1))) = true := by simpa [sel, low] using own
    exact meterRead_sends _ _ idle identity may room (by rw [sel]; rfl)
  case denied =>
    refine congrArg Host.Outcome.next ((runOp_ready _ _ ready (by simp [sel])).trans ?_)
    simp [State.meterRead, idle, sel, guest, other]
  case all =>
    refine congrArg Host.Outcome.next ((runOp_ready _ _ ready (by simp [sel])).trans ?_)
    have fits : 144 + ((List.range 64).flatMap s.tenantAccs ++ leBytes 8 s.nvm.total).length ≤ c.desc.len.toNat := by
      rw [List.length_append, length_leBytes]
      omega
    exact meterRead_sends _ _ idle identity (decide_eq_true device) fits (by rw [sel]; rfl)
  case profile =>
    refine congrArg Host.Outcome.next ((runOp_ready _ _ ready (by simp [sel])).trans ?_)
    subst def_
    exact meterRead_sends _ _ idle identity (decide_eq_true device) room (by rw [sel]; rfl)

end Sys2Proof.Machine
end

section
/-!
PROOFS. The clock and the meter (12 R374 to R383), staging (04 R104 to R107) and the owner (07 R212, R213). Setting UTC closes and opens
intervals and adds records of the profile, none of which reaches the clock's own fields, the accumulators or their total; the
owner's operations differ in the one change they make under the signature.
-/
namespace Sys2Proof.Machine

/-! ## Setting UTC -/

/-- A state whose clock was set: to a value and a state, with every accumulator as it was (R374). -/
structure SetClock (s : State) (v : Nat) (st : UtcState) (u : State) : Prop where
  utcState : u.mtr.utcState = st
  utcBase : u.mtr.utcBase = v
  utcAt : u.mtr.utcAt = s.now
  ever : u.nvm.timeSetEver = true
  accs : u.nvm.accs = s.nvm.accs
  total : u.nvm.total = s.nvm.total

theorem SetClock.addProfile {s u : State} {v : Nat} {st : UtcState} (h : SetClock s v st u) (r : ProfRec) :
    SetClock s v st (u.addProfile r) := ⟨h.utcState, h.utcBase, h.utcAt, h.ever, h.accs, h.total⟩

theorem SetClock.openInterval {s u : State} {v : Nat} {st : UtcState} (h : SetClock s v st u) (at_ : Nat) :
    SetClock s v st (u.openInterval at_) := ⟨h.utcState, h.utcBase, h.utcAt, h.ever, h.accs, h.total⟩

theorem SetClock.absentRecords {s u : State} {v : Nat} {st : UtcState} (h : SetClock s v st u) (at_ : Nat → Nat) (l : List Nat) :
    SetClock s v st (l.foldl (fun a k => a.absentRecord (at_ k)) u) := by
  induction l generalizing u with
  | nil => exact h
  | cons k r ih => exact ih (h.addProfile _)

/-- Setting UTC sets the clock, over each of the ways in which the interval goes on. -/
theorem setUtc_setClock (s : State) (v : Nat) (st : UtcState) : SetClock s v st (s.setUtc v st) := by
  have put (a : State) (same : a.now = s.now ∧ a.nvm.accs = s.nvm.accs ∧ a.nvm.total = s.nvm.total) : SetClock s v st
      (({ a with
        mtr := { a.mtr with utcState := st, utcBase := v, utcAt := a.now, next := v / 900 * 900 + 900, minute := v / 60,
                            signedAt := if st = .signed then a.opSecs else a.mtr.signedAt },
        nvm := { a.nvm with timeSetEver := true } } : State).raise pMTR 2) := by
    obtain ⟨now, accs, total⟩ := same
    exact ⟨by simp, by simp, by simp [now], by simp, by simp [accs], by simp [total]⟩
  have stepped : (({ s with mtr := { s.mtr with flags := s.mtr.flags ||| 8#16 } } : State).raise pMTR 3).now = s.now ∧
      (({ s with mtr := { s.mtr with flags := s.mtr.flags ||| 8#16 } } : State).raise pMTR 3).nvm = s.nvm :=
    ⟨State.raise_now _ _ _, State.raise_nvm _ _ _⟩
  unfold State.setUtc
  dsimp only
  generalize (({ s with mtr := { s.mtr with flags := s.mtr.flags ||| 8#16 } } : State).raise pMTR 3) = s1 at stepped ⊢
  obtain ⟨now, nvm⟩ := stepped
  split
  · exact (put s ⟨rfl, rfl, rfl⟩).openInterval v
  · split
    · exact put s ⟨rfl, rfl, rfl⟩
    · split
      · exact (put s1 ⟨now, by rw [nvm], by rw [nvm]⟩).absentRecords _ _
      · exact SetClock.openInterval (put s1.closeInterval ⟨now, by rw [← nvm]; rfl, by rw [← nvm]; rfl⟩) v

/-! ## TIME_SET -/

/-- A nonce made live, of random bytes that one request of the DRBG gave (R376). -/
def State.withNonce (s : State) (q : QWord) : State :=
  { (({ s with sign := { s.sign with requests := s.sign.requests + 1 } } : State).drawn) with
    mtr := { s.mtr with nonce := some (q, s.now) } }

theorem exec_getNonce_ready {s : State} {tag : Tag} {c : Cmd} (ready : s.ready tag 0x48 c) (sel : c.desc.sel = 0)
    (drbg : s.sign.drbg = 1#2) : exec (.getNonce tag) s = .next
      (((s.withNonce (s.freeVal.setWidth 128)).sendData c 0 (tagBytes (s.freeVal.setWidth 128)) false).finish tag 0 0 0) := by
  refine (congrArg Host.Outcome.next (runOp_ready _ _ ready (by simp [sel]))).trans ?_
  rw [State.drbg, if_pos drbg]
  rfl

theorem exec_setHost_ready {s : State} {tag : Tag} {c : Cmd} (ready : s.ready tag 0x48 c) (sel : c.desc.sel = 1)
    (idle : s.mtr.pendingOn = false) : exec (.setHost tag) s = .next (
      if c.desc.aux1.toNat < 1577836800 then s.finish tag 0x03 0 0 else (s.setUtc c.desc.aux1.toNat .host).finish tag 0 0 0) := by
  refine (congrArg Host.Outcome.next (runOp_ready _ _ ready (by simp [sel]))).trans ?_
  rw [if_neg (by simp [idle])]

/-- The state in which a nonce is used up. -/
def State.nonceUsed (s : State) : State := { s with mtr := { s.mtr with nonce := none } }

theorem exec_setSigned_ready {s : State} {tag : Tag} {c : Cmd} {q : QWord} (ready : s.ready tag 0x48 c) (sel : c.desc.sel = 2)
    (idle : s.mtr.pendingOn = false) (free : s.sign.blocked = false) (live : s.liveNonce = some q) :
    exec (.setSigned tag) s = .next (
      if !s.tokenOk c.bytes q then s.nonceUsed.finish tag 0x0A 0 0
      else if fieldLe c.bytes 0x28 8 < 1577836800 then s.nonceUsed.finish tag 0x03 0 0
      else (s.nonceUsed.setUtc (fieldLe c.bytes 0x28 8) .signed).finish tag 0 0 0) := by
  refine (congrArg Host.Outcome.next (runOp_ready _ _ ready (by simp [sel]))).trans ?_
  dsimp only
  rw [if_neg (by simp [idle]), if_neg (by simp [free]), live]
  rfl

theorem setUtc_nonce (s : State) (v : Nat) (st : UtcState) : (s.setUtc v st).mtr.nonce = s.mtr.nonce := by
  have absent (l : List Nat) (at_ : Nat → Nat) (a : State) : (l.foldl (fun b k => b.absentRecord (at_ k)) a).mtr = a.mtr := by
    induction l generalizing a with
    | nil => rfl
    | cons k r ih => rw [List.foldl_cons, ih]; rfl
  unfold State.setUtc
  dsimp only
  split
  · simp [State.openInterval, State.clearCounts]
  · split
    · simp
    · split
      · rw [absent]; simp
      · simp [State.openInterval, State.clearCounts, State.closeInterval, State.addProfile]

/-! ## Boundary and sample -/

theorem endBoundary_idle {s : State} (idle : s.mtr.pendingOn = false) : s.endBoundary = s := by
  rw [State.endBoundary, if_pos (by simp [idle])]

theorem foldl_add_eq_sum (l : List Nat) : l.foldl (· + ·) 0 = l.sum := by
  rw [List.sum_eq_foldl]

/-- Settles O23: the clock's fields after each setting, and the meter's two turns with no round running. -/
theorem timeIsSetAndMetered : Obligations.TimeIsSetAndMetered := by
  unfold Obligations.TimeIsSetAndMetered
  refine ⟨fun s tag c => ⟨fun ready sel drbg => ?nonce, fun ready sel idle late => ?host, fun ready sel idle early => ?early,
      fun q ready sel idle free live => ?signed, fun q a nonce => ⟨fun due => ?lapse, fun soon => ?stays⟩, fun st due => ?day⟩,
    fun s => ⟨fun soon => ?before, fun same => ?sameMinute⟩, fun s serving idle => ⟨fun due => ?quarter, fun new => ?minute⟩⟩
  case nonce =>
    obtain ⟨_, _, sent⟩ := sends_sendData (s.withNonce (s.freeVal.setWidth 128)) c 0 (tagBytes (s.freeVal.setWidth 128)) false
    refine ⟨_, s.freeVal.setWidth 128, exec_getNonce_ready ready sel drbg, ?_⟩
    rw [sent]
    exact ⟨answered_after 0 0 0 (ready_cmd ready) rfl, rfl, rfl⟩
  case host =>
    obtain ⟨utcState, utcBase, utcAt, ever, accs, total⟩ := setUtc_setClock s c.desc.aux1.toNat .host
    exact ⟨_, by rw [exec_setHost_ready ready sel idle, if_neg (Nat.not_lt.mpr late)],
      answered_after 0 0 0 (ready_cmd ready) (hqm_setUtc _ _ _ (.rfl' s)).eq, utcState, utcBase, utcAt, ever, accs, total⟩
  case early => rw [exec_setHost_ready ready sel idle, if_pos early]
  case signed =>
    have clock := setUtc_setClock s.nonceUsed (fieldLe c.bytes 0x28 8) .signed
    refine ⟨_, exec_setSigned_ready ready sel idle free live, ?_, fun bad => ?_, fun good late => ?_⟩
    · split
      · rfl
      · split
        · rfl
        · exact setUtc_nonce s.nonceUsed _ _
    · rw [if_pos (by simp [bad])]
      exact ⟨answered_after 0x0A 0 0 (ready_cmd ready) rfl, rfl⟩
    · rw [if_neg (by simp [good]), if_neg (Nat.not_lt.mpr late)]
      exact ⟨answered_after 0 0 0 (ready_cmd ready) (hqm_setUtc s.nonceUsed _ _ (.rfl' _)).eq, clock.utcState, clock.utcBase⟩
  case lapse => simp only [exec, execNonceLapse, nonce, if_pos due]
  case stays => simp only [exec, execNonceLapse, nonce, if_neg (Nat.not_le.mpr soon)]
  case day => simp [exec, execSignedLapse, st, due]
  case before => simp [exec, execQuarterHourBoundary, soon]
  case sameMinute => simp [exec, execMeterMinuteSample, same]
  case quarter =>
    have starts : exec .quarterHourBoundary s = .next s.startBoundary := by
      simp only [exec, execQuarterHourBoundary, serving, due, decide_true, Bool.and_self, if_true, endBoundary_idle idle]
    rw [starts, State.startBoundary, foldl_add_eq_sum]
    rfl
  case minute =>
    refine ⟨Vector.ofFn (fun k : Fin 256 => s.mtr.staging[k] + s.occupancy (Fin.ofNat 64 (k.1 / 4)) (k.1 % 4)), ?_, fun t cls => ?_⟩
    · simp [exec, execMeterMinuteSample, serving, new, endBoundary_idle idle]
    · have low : 4 * t.1 + cls.1 < 256 := by omega
      have tenant : (4 * t.1 + cls.1) / 4 = t.1 := by omega
      have class_ : (4 * t.1 + cls.1) % 4 = cls.1 := by omega
      simp [low, tenant, class_]

/-! ## Staging -/

/-- IMAGE_STAGE or IMAGE_COMMIT past the throttle and the refusals. -/
theorem updateGate_open {s : State} (tag : Tag) (c : Cmd) (act : State) (cool : s.thr.level.1 < 6) (may : s.refusalMask = 0) :
    s.updateGate tag c act = act := by
  simp [State.updateGate, Nat.not_le.mpr cool, may]

theorem updateGate_hot {s : State} (tag : Tag) (c : Cmd) (act : State) (hot : 6 ≤ s.thr.level.1) :
    s.updateGate tag c act = s.finish tag 0x11 0 0 := if_pos hot

theorem updateGate_refused {s : State} (tag : Tag) (c : Cmd) (act : State) (cool : s.thr.level.1 < 6) (refused : s.refusalMask ≠ 0) :
    s.updateGate tag c act = ({ s with upd := { s.upd with
      lastRefusal := fieldW (lowestCode s.refusalMask) 0 ||| fieldW c.desc.opc.toNat 8 ||| fieldW s.refusalMask 16 } } : State).finish
        tag 0x0D (BitVec.ofNat 8 (lowestCode s.refusalMask)) 0 := by
  simp [State.updateGate, Nat.not_le.mpr cool, refused]

theorem exec_imageStage_next {s : State} {tag : Tag} {c : Cmd} {g : StageS} (ready : s.ready tag 0x49 c) (cool : s.thr.level.1 < 6)
    (may : s.refusalMask = 0) (later : c.desc.aux1.toNat ≠ 0) (session : s.nvm.stage_ = some g) (target : g.target = c.desc.sel)
    (offset : g.offset = c.desc.aux1.toNat) (aligned : c.desc.aux1.toNat % 256 = 0)
    (inside : g.offset + c.desc.len.toNat ≤ (s.targetArea g.target g.slotB).2) :
    exec (.imageStage tag) s = .next ((s.stageWrite g g.offset c.bytes).finish tag 0 0 0) := by
  refine congrArg Host.Outcome.next ((runOp_ready _ _ ready rfl).trans ((updateGate_open _ _ _ cool may).trans ?_))
  rw [if_neg later, session]
  dsimp only
  rw [← target, ← offset, if_neg (by simp [offset, aligned]; rw [← offset]; exact inside)]

/-- A range past the start of the target: the bytes, the session's new offset, and STAGE_DONE (R104, R115). -/
theorem stageWrite_later (s : State) (g : StageS) (b : List Byte) (later : g.offset ≠ 0) :
    s.stageWrite g g.offset b = ({ s with nvm := { s.nvm with
      nor := s.nvm.nor.setList ((s.targetArea g.target g.slotB).1 + g.offset) b,
      stage_ := some { g with offset := g.offset + b.length } } } : State).raise pUPD 1 := by
  simp [State.stageWrite, later]

theorem exec_imageCommit_fits {s : State} {tag : Tag} {c : Cmd} {g : StageS} (ready : s.ready tag 0x4A c) (cool : s.thr.level.1 < 6)
    (may : s.refusalMask = 0) (session : s.nvm.stage_ = some g) (fine : s.commitFault c.desc.sel g = none) :
    exec (.imageCommit tag) s = .next ((
      let s1 : State := { s with nvm := { s.nvm with
        nor := s.nvm.nor.setList (s.targetArea g.target g.slotB).1 g.head, stage_ := none } }
      if g.target = 0 then s1.writeRec { s1.ctlRec with armed := some g.slotB } else s1).finish tag 0 0 0) := by
  refine congrArg Host.Outcome.next ((runOp_ready _ _ ready rfl).trans ((updateGate_open _ _ _ cool may).trans ?_))
  rw [session]
  dsimp only
  rw [fine]

/-- Settles O24: the gate's three ways, the later chunk, and the commit of a slot and of another target. -/
theorem imagesAreStaged : Obligations.ImagesAreStaged := by
  unfold Obligations.ImagesAreStaged
  refine fun s tag c => ⟨fun ready hot => ?stageHot, fun ready hot => ?commitHot, fun ready cool refused => ?refused,
    fun g ready cool may later session target offset aligned inside => ?chunk, fun g ready cool may session other fine => ?commit,
    fun g ready cool may session slot fine => ?commitSlot⟩
  case stageHot => exact congrArg Host.Outcome.next ((runOp_ready _ _ ready rfl).trans (updateGate_hot _ _ _ hot))
  case commitHot => exact congrArg Host.Outcome.next ((runOp_ready _ _ ready rfl).trans (updateGate_hot _ _ _ hot))
  case refused =>
    exact ⟨_, congrArg Host.Outcome.next ((runOp_ready _ _ ready rfl).trans (updateGate_refused _ _ _ cool refused)),
      answered_after 0x0D _ 0 (ready_cmd ready) rfl, rfl⟩
  case chunk =>
    refine ⟨_, exec_imageStage_next ready cool may later session target offset aligned inside, ?_, ?_, ?_⟩
    · exact answered_after 0 0 0 (ready_cmd ready) (hqm_stageWrite _ _ _ _ (.rfl' s)).eq
    · exact raise_bit _ pUPD 1 (by decide) (by decide) (by decide)
    · rw [finish_nvm, stageWrite_later s g c.bytes (by rw [offset]; exact later), State.raise_nvm]
  case commit =>
    rw [exec_imageCommit_fits ready cool may session fine]
    dsimp only
    rw [if_neg other]
  case commitSlot =>
    refine ⟨_, exec_imageCommit_fits ready cool may session fine, ?_, ?_⟩
    · dsimp only
      rw [if_pos slot]
      exact answered_after 0 0 0 (ready_cmd ready) rfl
    · dsimp only
      rw [if_pos slot]
      rfl

/-! ## The owner -/

@[simp] theorem mirDeviceItem_nvm (s : State) (i : Byte) (p : List Byte) : (s.mirDeviceItem i p).nvm = s.nvm := by
  unfold State.mirDeviceItem
  split <;> simp

@[simp] theorem mirDeviceItem_own (s : State) (i : Byte) (p : List Byte) : (s.mirDeviceItem i p).own = s.own := by
  unfold State.mirDeviceItem
  split <;> simp

/-- A change of the owner record is told: nothing kept changes by it. -/
theorem ownerChanged_same (s : State) (b : Nat) :
    (s.ownerChanged b).nvm = s.nvm ∧ (s.ownerChanged b).own = s.own ∧ (s.ownerChanged b).hqm = s.hqm :=
  ⟨by simp [State.ownerChanged], by simp [State.ownerChanged], (hqm_ownerChanged s b (.rfl' s)).eq⟩

theorem setLock_sets (s : State) (b : Bool) : (s.setLock b).nvm = { s.nvm with updLock := b } ∧ (s.setLock b).own = s.own ∧
    (s.setLock b).hqm = s.hqm := by
  unfold State.setLock
  split
  · next same => exact ⟨by rw [← same], rfl, rfl⟩
  · exact ownerChanged_same _ 1

theorem programOwner_sets (s : State) (key : List Byte) :
    (s.programOwner key).nvm = { s.nvm with
      ownerSlots := s.nvm.ownerSlots ++ [Config.sha256 key], ownerKey := wideOf key } ∧
    (s.programOwner key).own = s.own ∧ (s.programOwner key).hqm = s.hqm := ownerChanged_same _ 0

theorem ownerOp_ready {s : State} {tag : Tag} {c : Cmd} {op : Nat} {useKey useSig : Bool} (act : Cmd → List Byte → List Byte → State)
    (ready : s.ready tag 0x4B c) (sel : c.desc.sel = op) (key : useKey = false → allZero (slice c.bytes 0 64) = true)
    (sig : useSig = false → allZero (slice c.bytes 64 64) = true)
    (point : useKey = true → Config.validPoint (wideOf (slice c.bytes 0 64)) = true) :
    s.ownerOp tag op useKey useSig act = act c (slice c.bytes 0 64) (slice c.bytes 64 64) := by
  refine (runOp_ready _ _ ready (by simp [sel])).trans (if_neg ?_)
  cases useKey <;> cases useSig <;> simp_all

theorem sends_sendPlain (s : State) (c : Cmd) (p : DWord) (b : List Byte) : Sends s (s.sendPlain c p b) := by
  unfold State.sendPlain
  dsimp only
  split
  · exact .rfl' s
  · exact (Sends.rfl' s).emit _

/-- A challenge made live, of random bytes that one request of the DRBG gave (R213). -/
def State.withChallenge (s : State) (q : QWord) : State :=
  { (({ s with sign := { s.sign with requests := s.sign.requests + 1 } } : State).drawn) with
    own := { s.own with challenge := some (q, s.now) } }

theorem exec_getChallenge_ready {s : State} {tag : Tag} {c : Cmd} (ready : s.ready tag 0x4B c) (sel : c.desc.sel = 0)
    (drbg : s.sign.drbg = 1#2) (key : allZero (slice c.bytes 0 64) = true) (sig : allZero (slice c.bytes 64 64) = true) :
    exec (.getChallenge tag) s = .next (((s.withChallenge (s.freeVal.setWidth 128)).sendPlain c c.desc.daddr
      (tagBytes (s.freeVal.setWidth 128))).finish tag 0 0 0) := by
  refine congrArg Host.Outcome.next ((ownerOp_ready (useKey := false) (useSig := false) _ ready sel (fun _ => key) (fun _ => sig)
    nofun).trans ?_)
  rw [State.drbg, if_pos drbg]
  rfl

theorem exec_enrol_ready {s : State} {tag : Tag} {c : Cmd} (ready : s.ready tag 0x4B c) (sel : c.desc.sel = 1)
    (sig : allZero (slice c.bytes 64 64) = true) (point : Config.validPoint (wideOf (slice c.bytes 0 64)) = true) :
    exec (.enrol tag) s = .next (if s.nvm.ownerSlots ≠ [] then s.finish tag 0x0D 0x22 0
      else (s.programOwner (slice c.bytes 0 64)).finish tag 0 0 0) :=
  congrArg Host.Outcome.next (ownerOp_ready (useKey := true) (useSig := false) _ ready sel nofun (fun _ => sig) (fun _ => point))

/-- LOCK_UPDATES and UNLOCK_UPDATES under a live challenge. -/
theorem exec_lockUpdates_live {s : State} {tag : Tag} {c : Cmd} {q : QWord} (b : Bool) (ready : s.ready tag 0x4B c)
    (sel : c.desc.sel = if b then 2 else 3) (key : allZero (slice c.bytes 0 64) = true) (owned : s.nvm.ownerSlots ≠ [])
    (live : s.liveChallenge = some q) :
    exec (if b then .lockUpdates tag else .unlockUpdates tag) s = .next (
      if Config.ecdsaVerify s.nvm.ownerKey (ownerMessage q (if b then 2 else 3) []) (wideOf (slice c.bytes 64 64)) then
        (s.dropChallenge.setLock b).finish tag 0 0 0
      else (s.dropChallenge.raise pOWN 2).finish tag 0x0E 0 0) := by
  have signed (op : Byte) (act : State → State) := ownerSigned_live tag op [] (slice c.bytes 64 64) act owned live
  cases b with
  | true =>
    exact congrArg Host.Outcome.next ((ownerOp_ready (useKey := false) (useSig := true) _ ready sel (fun _ => key) nofun nofun).trans
      (signed 2 _))
  | false =>
    exact congrArg Host.Outcome.next ((ownerOp_ready (useKey := false) (useSig := true) _ ready sel (fun _ => key) nofun nofun).trans
      (signed 3 _))

theorem exec_transfer_live {s : State} {tag : Tag} {c : Cmd} {q : QWord} (ready : s.ready tag 0x4B c) (sel : c.desc.sel = 4)
    (point : Config.validPoint (wideOf (slice c.bytes 0 64)) = true) (owned : s.nvm.ownerSlots ≠ []) (room : s.nvm.ownerSlots.length < 8)
    (live : s.liveChallenge = some q) :
    exec (.transfer tag) s = .next (
      if Config.ecdsaVerify s.nvm.ownerKey (ownerMessage q 4 (hashBytes (Config.sha256 (slice c.bytes 0 64))))
          (wideOf (slice c.bytes 64 64)) then
        (s.dropChallenge.programOwner (slice c.bytes 0 64)).finish tag 0 0 0
      else (s.dropChallenge.raise pOWN 2).finish tag 0x0E 0 0) := by
  refine congrArg Host.Outcome.next ((ownerOp_ready (useKey := true) (useSig := true) _ ready sel nofun nofun
    (fun _ => point)).trans ?_)
  rw [if_neg owned, if_neg (Nat.not_le.mpr room)]
  exact ownerSigned_live _ _ _ _ _ owned live

/-- A signature that does not check: OWNER_SIG and its status, and nothing kept changes. -/
theorem ownerRefused {s : State} {tag : Tag} {c : Cmd} (holds : s.cmd tag = some c) :
    ((s.dropChallenge.raise pOWN 2).finish tag 0x0E 0 0).answered tag 0x0E 0 0 ∧
    ((s.dropChallenge.raise pOWN 2).finish tag 0x0E 0 0).nvm = s.nvm ∧
    ((s.dropChallenge.raise pOWN 2).finish tag 0x0E 0 0).own.challenge = none := by
  refine ⟨answered_after 0x0E 0 0 holds (State.raise_hqm _ _ _), State.raise_nvm _ _ _, ?_⟩
  simp [State.finish, State.dropChallenge]

/-- Settles O25: each operation's equation under its fields, and what each outcome leaves of slots, lock and challenge. -/
theorem theOwnerActs : Obligations.TheOwnerActs := by
  unfold Obligations.TheOwnerActs
  refine ⟨fun s tag c ready => ⟨fun sel drbg key sig => ?challenge, fun sel used => ?field,
      fun sel sig point => ⟨fun owned => ?enrolled, fun free => ?enrol⟩,
      fun q owned live => ⟨fun b sel key => ?lock, fun sel point room => ?transfer⟩⟩,
    fun s q a held => ⟨fun due => ?lapse, fun soon => ?stays⟩⟩
  case challenge =>
    obtain ⟨_, _, sent⟩ := sends_sendPlain (s.withChallenge (s.freeVal.setWidth 128)) c c.desc.daddr
      (tagBytes (s.freeVal.setWidth 128))
    refine ⟨_, s.freeVal.setWidth 128, exec_getChallenge_ready ready sel drbg key sig, ?_⟩
    rw [sent]
    exact ⟨answered_after 0 0 0 (ready_cmd ready) rfl, rfl, rfl⟩
  case field =>
    refine congrArg Host.Outcome.next ((runOp_ready _ _ ready (by simp [sel])).trans (if_pos ?_))
    obtain used | used := used <;> simp [used]
  case enrolled => rw [exec_enrol_ready ready sel sig point, if_pos owned]
  case enrol =>
    obtain ⟨nvm, -, hqm⟩ := programOwner_sets s (slice c.bytes 0 64)
    exact ⟨_, by rw [exec_enrol_ready ready sel sig point, if_neg (not_not_intro free)], answered_after 0 0 0 (ready_cmd ready) hqm,
      by rw [finish_nvm, nvm, free]; rfl⟩
  case lock =>
    obtain ⟨nvm, own, hqm⟩ := setLock_sets s.dropChallenge b
    obtain ⟨answered, same, used⟩ := ownerRefused (ready_cmd ready)
    have step := exec_lockUpdates_live b ready sel key owned live
    generalize Config.ecdsaVerify s.nvm.ownerKey (ownerMessage q (if b then 2 else 3) []) (wideOf (slice c.bytes 64 64)) = ok at step ⊢
    cases ok with
    | true =>
      exact ⟨_, step.trans (congrArg Host.Outcome.next (if_pos rfl)), congrArg OwnS.challenge own, by rw [finish_nvm, nvm]; rfl,
        fun _ => ⟨answered_after 0 0 0 (ready_cmd ready) hqm, by rw [finish_nvm, nvm]⟩, nofun⟩
    | false => exact ⟨_, step.trans (congrArg Host.Outcome.next (if_neg nofun)), used, by rw [same], nofun, fun _ => ⟨answered, by rw [same]⟩⟩
  case transfer =>
    obtain ⟨nvm, own, hqm⟩ := programOwner_sets s.dropChallenge (slice c.bytes 0 64)
    obtain ⟨answered, same, used⟩ := ownerRefused (ready_cmd ready)
    have step := exec_transfer_live ready sel point owned room live
    generalize Config.ecdsaVerify s.nvm.ownerKey (ownerMessage q 4 (hashBytes (Config.sha256 (slice c.bytes 0 64))))
      (wideOf (slice c.bytes 64 64)) = ok at step ⊢
    cases ok with
    | true =>
      exact ⟨_, step.trans (congrArg Host.Outcome.next (if_pos rfl)), congrArg OwnS.challenge own, by rw [finish_nvm, nvm]; rfl,
        fun _ => ⟨answered_after 0 0 0 (ready_cmd ready) hqm, by rw [finish_nvm, nvm]; rfl⟩, nofun⟩
    | false => exact ⟨_, step.trans (congrArg Host.Outcome.next (if_neg nofun)), used, by rw [same], nofun, fun _ => ⟨answered, by rw [same]⟩⟩
  case lapse => simp only [exec, execChallengeLapse, held, if_pos due]
  case stays => simp only [exec, execChallengeLapse, held, if_neg (Nat.not_le.mpr soon)]

end Sys2Proof.Machine
end

section
/-!
PROOFS. The pipes' parity and masks and the entropy source (08 R235 to R240, R251, R252). A fence leaves the pipes, and every status bit
that stood, through the links' fall as they were, so each event is read off its own changes.
-/
namespace Sys2Proof.Machine

/-! ## Status bits that stand -/

/-- Every status bit that reads 1 still does. -/
def BitsKept (s t : State) : Prop := ∀ p b, s.bit p b = true → t.bit p b = true

theorem BitsKept.of_hdr {s t : State} (same : t.hdr = s.hdr) : BitsKept s t := by
  intro p b set
  unfold State.bit at *
  rwa [same]

theorem BitsKept.trans {s t u : State} (h : BitsKept s t) (g : BitsKept t u) : BitsKept s u := fun p b set => g p b (h p b set)

theorem bitsKept_raise (s : State) (p : Page) (b : Nat) : BitsKept s (s.raise p b) := fun q c => raise_keeps s p q b c

theorem bitsKept_record (s : State) (code : Nat) (sev : Fin 4) (t : Byte) (d : List Byte) : BitsKept s (s.record code sev t d) :=
  fun p b => record_keeps s code sev t d p b

theorem bitsKept_raiseRec (s : State) (p : Page) (b : Nat) (sev : Fin 4) (t : Byte) (d : List Byte) :
    BitsKept s (s.raiseRec p b sev t d) := (bitsKept_raise s p b).trans (bitsKept_record _ _ _ _ _)

/-! ## The links' fall beside the pipes -/

/-- The pipes are as they were, and every status bit that stood stands. -/
structure BesidePipes (s t : State) : Prop where
  ciph : t.ciph = s.ciph
  bits : BitsKept s t

theorem BesidePipes.rfl' (s : State) : BesidePipes s s := ⟨rfl, .of_hdr rfl⟩

theorem BesidePipes.trans {s t u : State} (h : BesidePipes s t) (g : BesidePipes t u) : BesidePipes s u :=
  ⟨g.ciph.trans h.ciph, h.bits.trans g.bits⟩

theorem BesidePipes.raise {s t : State} (h : BesidePipes s t) (p : Page) (b : Nat) : BesidePipes s (t.raise p b) :=
  h.trans ⟨State.raise_ciph t p b, bitsKept_raise t p b⟩

theorem besidePipes_linkLeave (s : State) (p : Fin 4) (dst : LinkSt) : BesidePipes s (s.linkLeave p dst) := by
  unfold State.linkLeave
  dsimp only
  split
  · refine BesidePipes.raise (BesidePipes.raise ?_ _ _) _ _
    exact ⟨rfl, .of_hdr rfl⟩
  · exact ⟨rfl, .of_hdr rfl⟩

theorem besidePipes_linksDown (s : State) (dst : LinkSt) : BesidePipes s (s.linksDown dst) := by
  have fold (l : List (Fin 4)) (a : State) :
      BesidePipes a (l.foldl (fun a p => if a.vfl[p].st = .absent then a else a.linkLeave p dst) a) := by
    induction l generalizing a with
    | nil => exact .rfl' a
    | cons p r ih =>
      refine BesidePipes.trans ?_ (ih _)
      dsimp only
      split
      · exact .rfl' a
      · exact besidePipes_linkLeave a p dst
  exact fold _ s

theorem besidePipes_mirLeave (s : State) (st : MirSt) (reason : BitVec 3) : BesidePipes s (s.mirLeave st reason) := by
  refine BesidePipes.raise ?_ _ _
  exact ⟨rfl, .of_hdr rfl⟩

theorem besidePipes_fenceLinks (s : State) (p : Pipe) : BesidePipes s (s.fenceLinks p) := by
  cases p with
  | x => exact .rfl' s
  | g =>
    unfold State.fenceLinks
    dsimp only
    split
    · exact (besidePipes_linksDown s .failed).trans (besidePipes_mirLeave _ _ _)
    · exact besidePipes_linksDown s _

/-! ## A pipe -/

theorem updPipe_pipe (s : State) (p : Pipe) (f : PipeS → PipeS) : (s.updPipe p f).ciph.pipe p = f (s.ciph.pipe p) := by
  cases p <;> rfl

theorem updPipe_lanes (s : State) (p : Pipe) (f : PipeS → PipeS) : (s.updPipe p f).ciph.lanes = s.ciph.lanes := by
  cases p <;> rfl

theorem updPipe_hdr (s : State) (p : Pipe) (f : PipeS → PipeS) : (s.updPipe p f).hdr = s.hdr := by
  cases p <;> rfl

theorem freeBuf_hdr (s : State) (h : Nat) : (s.freeBuf h).hdr = s.hdr := by
  unfold State.freeBuf
  split
  · rfl
  · split <;> rfl

theorem foldl_hdr {α : Type} {f : State → α → State} (keeps : ∀ a x, (f a x).hdr = a.hdr) (l : List α) (s : State) :
    (l.foldl f s).hdr = s.hdr := by
  induction l generalizing s with
  | nil => rfl
  | cons x r ih => rw [List.foldl_cons, ih, keeps]

theorem undoOpen_hdr (s : State) (cs : List Cmd) : (s.undoOpen cs).hdr = s.hdr := by
  refine foldl_hdr (fun a c => ?_) cs s
  split <;> rfl

theorem failPipe_hdr (s : State) (p : Pipe) (st rc : Byte) : (s.failPipe p st rc).hdr = s.hdr := by
  unfold State.failPipe
  rw [updPipe_hdr, undoOpen_hdr]
  exact foldl_hdr freeBuf_hdr _ s

/-- A fence closes the pipe, sets its bit and keeps every other (R240). -/
theorem fencePipe_fences (s : State) (p : Pipe) (rc : Byte) (stage : Nat) (tenant : Byte) (tag n : Nat) :
    ((s.fencePipe p rc stage tenant tag n).ciph.pipe p).fenced = true ∧
    (s.fencePipe p rc stage tenant tag n).bit pCIPH (2 + pipeNo p) = true ∧ BitsKept s (s.fencePipe p rc stage tenant tag n) := by
  obtain ⟨ciph, bits⟩ := besidePipes_fenceLinks ((s.failPipe p 0x0B rc).updPipe p (fun x => { x with fenced := true })) p
  unfold State.fencePipe
  refine ⟨?_, ?_, ?_⟩
  · rw [State.raiseRec_ciph, ciph, updPipe_pipe]
  · cases p <;> exact raiseRec_bit _ pCIPH _ 3 _ _ (by decide) (by decide) (by decide)
  · have start : BitsKept s ((s.failPipe p 0x0B rc).updPipe p (fun x => { x with fenced := true })) :=
      .of_hdr (by rw [updPipe_hdr, failPipe_hdr])
    exact (start.trans bits).trans (bitsKept_raiseRec _ _ _ _ _ _)

/-! ## Parity and masks -/

/-- Masks are drawn in the same way while a pipe's counts change, but not its wait. -/
theorem drawMasks_updPipe (s : State) (p : Pipe) {f : PipeS → PipeS} (n : Nat) (waits : ∀ x, (f x).maskWait = x.maskWait) :
    (s.updPipe p f).drawMasks p n = (s.drawMasks p n).map (fun t => t.updPipe p f) := by
  unfold State.drawMasks
  rw [updPipe_pipe, waits, updPipe_lanes]
  split
  · rfl
  · split
    · cases p <;> rfl
    · rfl

/-- A second pass of a pipe's blocks takes fresh masks, or waits for them (R235, R238). -/
theorem remask_updPipe (s : State) (p : Pipe) {f : PipeS → PipeS} (n : Nat) (waits : ∀ x, (f x).maskWait = x.maskWait) :
    (∀ t, s.drawMasks p n = some t → ((s.updPipe p f).remask p n).ciph.lanes = t.ciph.lanes ∧
      ((s.updPipe p f).remask p n).ciph.pipe p = f (s.ciph.pipe p)) ∧
    (s.drawMasks p n = none → ∃ w, ((s.updPipe p f).remask p n).ciph.pipe p =
      { f (s.ciph.pipe p) with maskWait := true, waitAt := w }) := by
  unfold State.remask
  rw [drawMasks_updPipe s p n waits]
  refine ⟨fun t drawn => ?_, fun dry => ?_⟩
  · have same : t.ciph.pipe p = s.ciph.pipe p := by
      unfold State.drawMasks at drawn
      split at drawn
      · cases drawn
      · split at drawn
        · cases drawn
          cases p <;> simp only [CiphS.pipe]
        · cases drawn
    rw [drawn]
    exact ⟨updPipe_lanes t p f, by rw [← same]; exact updPipe_pipe t p f⟩
  · rw [dry, Option.map_none]
    dsimp only
    rw [updPipe_pipe, updPipe_pipe]
    exact ⟨_, rfl⟩

/-- What a parity fault notes in its pipe (R238). -/
def PipeS.noted (x : PipeS) (stage : Nat) (b : PipeBlk) (at_ : Option Nat) : PipeS :=
  { x with faults := satInc x.faults, fStage := stage, fTenant := b.tenant.1, faultAt := at_ }

theorem exec_parityMismatch_first {s : State} {p : Pipe} {stage : Fin 28} {b : PipeBlk} (open_ : (s.ciph.pipe p).fenced = false)
    (awake : s.awake = true) (block : (s.ciph.pipe p).blocks[stage.1]? = some b)
    (first : ∀ a, (s.ciph.pipe p).faultAt = some a → a + 1000000 < s.now) :
    exec (.parityMismatch p stage) s = .next (((s.updPipe p (fun x => x.noted stage.1 b (some s.now))).remask p
      (s.ciph.pipe p).blocks.length).raiseRec pCIPH (pipeNo p) 2 (tidByte b.tenant)
        (ciphDetail p stage.1 (tidByte b.tenant) 0 b.tag 1)) := by
  cases before : (s.ciph.pipe p).faultAt with
  | none =>
    simp only [exec, execParityMismatch, block, open_, awake, before]
    rfl
  | some a =>
    simp only [exec, execParityMismatch, block, open_, awake, before, Nat.not_le.mpr (first a before)]
    rfl

theorem exec_parityMismatch_second {s : State} {p : Pipe} {stage : Fin 28} {b : PipeBlk} {a : Nat}
    (open_ : (s.ciph.pipe p).fenced = false) (awake : s.awake = true) (block : (s.ciph.pipe p).blocks[stage.1]? = some b)
    (before : (s.ciph.pipe p).faultAt = some a) (soon : s.now ≤ a + 1000000) :
    ∃ t, exec (.parityMismatch p stage) s = .next (State.fencePipe t p 0x01 stage.1 (tidByte b.tenant) b.tag 2) := by
  simp only [exec, execParityMismatch, block, open_, awake, before, soon]
  exact ⟨_, rfl⟩

theorem exec_maskStarved_long {s : State} {p : Pipe} (open_ : (s.ciph.pipe p).fenced = false) (awake : s.awake = true)
    (waits : (s.ciph.pipe p).maskWait = true) (due : (s.ciph.pipe p).waitAt + 10 ≤ s.now)
    (long : 100000 ≤ (s.ciph.pipe p).stalledFor s.now) :
    ∃ t ten tag, BitsKept (s.raise pCIPH 4) t ∧ exec (.maskStarved p) s = .next (State.fencePipe t p 0x03 0 ten tag 0) := by
  simp only [exec, execMaskStarved, open_, awake, waits, Nat.not_lt.mpr due, Nat.not_lt.mpr long]
  exact ⟨_, _, _, .of_hdr (updPipe_hdr _ p (fun y => { y with stall := (s.ciph.pipe p).stallClocks s.now })), rfl⟩

/-! ## Entropy -/

theorem endStall_lanes_sign (s : State) (p : Pipe) : (s.endStall p).ciph.lanes = s.ciph.lanes ∧ (s.endStall p).sign = s.sign := by
  have sign (f : PipeS → PipeS) : (s.updPipe p f).sign = s.sign := by cases p <;> rfl
  unfold State.endStall
  dsimp only
  split
  · exact ⟨rfl, rfl⟩
  · split
    · rw [State.raise_ciph, State.raise_sign, updPipe_lanes, sign]
      exact ⟨rfl, rfl⟩
    · rw [updPipe_lanes, sign]
      exact ⟨rfl, rfl⟩

/-- The state in which a lane is reseeded with one DRBG request (R235). -/
def State.reseeded (s : State) (lane : Fin 112) : State :=
  { (({ s with sign := { s.sign with requests := s.sign.requests + 1 } } : State).drawn) with
    ciph := { s.ciph with lanes := s.ciph.lanes.set lane 0 } }

theorem exec_laneReseed_ready {s : State} (ready : s.sign.drbg = 1#2) (lane : Fin 112) : ∃ p,
    exec (.laneReseed lane) s = .next (s.reseeded lane) ∨ exec (.laneReseed lane) s = .next ((s.reseeded lane).endStall p) := by
  have drawn : s.drbg = some (s.freeVal, ({ s with sign := { s.sign with requests := s.sign.requests + 1 } } : State).drawn) :=
    if_pos ready
  obtain ⟨p, owner⟩ : ∃ p : Pipe, p = if lane.1 < 56 then .x else .g := ⟨_, rfl⟩
  refine ⟨p, ?_⟩
  simp only [exec, execLaneReseed, drawn, ← owner]
  split
  · exact .inl rfl
  · exact .inr rfl

/-- A health test's failure counted (R252). -/
def State.healthFailed (s : State) (test : HealthTest) : State :=
  ({ s with sign := { s.sign with
      repFails := if test = .repetition then satInc s.sign.repFails else s.sign.repFails,
      propFails := if test = .proportion then satInc s.sign.propFails else s.sign.propFails, healthLatched := true } } : State).raise pSIGN 1

theorem healthFailed_sign (s : State) (test : HealthTest) : (s.healthFailed test).sign = { s.sign with
      repFails := if test = .repetition then satInc s.sign.repFails else s.sign.repFails,
      propFails := if test = .proportion then satInc s.sign.propFails else s.sign.propFails, healthLatched := true } :=
  State.raise_sign _ _ _

theorem healthFailed_bit (s : State) (test : HealthTest) : (s.healthFailed test).bit pSIGN 1 = true :=
  raise_bit _ pSIGN 1 (by decide) (by decide) (by decide)

theorem exec_healthTestFailure_ready {s : State} (ready : s.sign.drbg = 1#2) (test : HealthTest) :
    exec (.healthTestFailure test) s = .next (
      if s.sign.restarts < 2 then
        { s.healthFailed test with sign := { (s.healthFailed test).sign with restarts := (s.healthFailed test).sign.restarts + 1 } }
      else ({ s.healthFailed test with sign := { (s.healthFailed test).sign with drbg := 3#2 } } : State).raiseRec pSIGN 0 3 noTenant
        [if test = .repetition then 1 else 2, BitVec.ofNat 8 s.sign.restarts]) := by
  simp only [exec, execHealthTestFailure]
  rw [if_neg (not_not_intro ready)]
  split <;> rfl

/-- Settles O26: the pipe's events in their two outcomes each, and the signing unit's three. -/
theorem pipesAndEntropyAreWatched : Obligations.PipesAndEntropyAreWatched := by
  unfold Obligations.PipesAndEntropyAreWatched
  refine ⟨fun s p open_ awake => ⟨fun stage b block first => ?first, fun stage b a block before soon => ?second,
      fun waits early => ?early, fun waits due => ⟨fun short => ?stall, fun long => ?starved⟩⟩,
    fun s ready => ⟨fun lane => ?lane, fun due => ?reseed, fun few soon => ?noReseed, fun test => ?health⟩⟩
  case first =>
    obtain ⟨masks, dry⟩ := remask_updPipe s p (f := fun x => x.noted stage.1 b (some s.now)) (s.ciph.pipe p).blocks.length (fun _ => rfl)
    refine ⟨_, exec_parityMismatch_first open_ awake block first, ?_, ?_⟩
    · cases p <;> exact raiseRec_bit _ pCIPH _ 2 _ _ (by decide) (by decide) (by decide)
    · rw [State.raiseRec_ciph]
      cases drawn : s.drawMasks p (s.ciph.pipe p).blocks.length with
      | none =>
        obtain ⟨w, pipe⟩ := dry drawn
        rw [pipe]
        exact ⟨rfl, rfl, rfl, rfl, rfl, open_, fun _ h => absurd h (Option.some_ne_none _).symm, fun _ => rfl⟩
      | some t =>
        obtain ⟨lanes, pipe⟩ := masks t drawn
        rw [pipe, lanes]
        exact ⟨rfl, rfl, rfl, rfl, rfl, open_, by rintro _ ⟨⟩; exact ⟨rfl, rfl⟩, nofun⟩
  case second =>
    obtain ⟨t, step⟩ := exec_parityMismatch_second open_ awake block before soon
    obtain ⟨fenced, bit, -⟩ := fencePipe_fences t p 0x01 stage.1 (tidByte b.tenant) b.tag 2
    exact ⟨_, step, fenced, bit⟩
  case early => simp [exec, execMaskStarved, open_, awake, waits, early]
  case stall => simp [exec, execMaskStarved, open_, awake, waits, Nat.not_lt.mpr due, short]
  case starved =>
    obtain ⟨t, ten, tag, kept, step⟩ := exec_maskStarved_long open_ awake waits due long
    obtain ⟨fenced, bit, keeps⟩ := fencePipe_fences t p 0x03 0 ten tag 0
    exact ⟨_, step, fenced, keeps _ _ (kept _ _ (raise_bit s pCIPH 4 (by decide) (by decide) (by decide))), bit⟩
  case lane =>
    have reseeded : (s.reseeded lane).ciph.lanes[lane] = 0 ∧
        (∀ k : Fin 112, k ≠ lane → (s.reseeded lane).ciph.lanes[k] = s.ciph.lanes[k]) := by
      refine ⟨by simp [State.reseeded], fun k other => ?_⟩
      have apart : (lane : Nat) ≠ k := fun h => other (Fin.ext h.symm)
      simp [State.reseeded, Vector.getElem_set_ne, apart]
    obtain ⟨p, step | step⟩ := exec_laneReseed_ready ready lane
    · exact ⟨_, step, reseeded.1, reseeded.2, rfl⟩
    · obtain ⟨lanes, sign⟩ := endStall_lanes_sign (s.reseeded lane) p
      exact ⟨_, step, by rw [lanes]; exact reseeded.1, by rw [lanes]; exact reseeded.2, sign⟩
  case reseed => simp [exec, execDrbgReseed, ready, due]
  case noReseed => simp [exec, execDrbgReseed, ready, Nat.not_le.mpr few, Nat.not_le.mpr soon]
  case health =>
    have sign := healthFailed_sign s test
    have bit := healthFailed_bit s test
    refine ⟨_, exec_healthTestFailure_ready ready test, ?_⟩
    split
    · next few =>
      refine ⟨bit, ?_⟩
      dsimp only
      rw [sign]
      exact ⟨rfl, rfl, rfl, fun _ => ⟨rfl, ready⟩, fun many => absurd few (Nat.not_lt.mpr many)⟩
    · next many =>
      refine ⟨bitsKept_raiseRec _ _ _ _ _ _ _ _ bit, ?_⟩
      rw [State.raiseRec_sign]
      dsimp only
      rw [sign]
      exact ⟨rfl, rfl, rfl, fun few => absurd few many,
        fun _ => ⟨rfl, rfl, raiseRec_bit _ pSIGN 0 3 _ _ (by decide) (by decide) (by decide)⟩⟩

end Sys2Proof.Machine
end

section
/-!
PROOFS. The display, the housekeeping round and life (12 R388 to R391; 15 R473 to R487). A round's end is cut where it has judged the
hottest diode: all it does after that leaves the units as they are, and the trip's Squall starts by the one state it begins in.
-/
namespace Sys2Proof.Machine

/-! ## Parts of the units -/

theorem SameUnits.hkp {s t : State} (h : SameUnits s t) : t.hkp = s.hkp := by
  have same := h.eq
  simp only [State.units, Prod.mk.injEq] at same
  tauto

theorem SameUnits.thr {s t : State} (h : SameUnits s t) : t.thr = s.thr := by
  have same := h.eq
  simp only [State.units, Prod.mk.injEq] at same
  tauto

theorem SameUnits.dram {s t : State} (h : SameUnits s t) : t.dram = s.dram := by
  have same := h.eq
  simp only [State.units, Prod.mk.injEq] at same
  tauto

theorem SameUnits.squall {s t : State} (h : SameUnits s t) : t.squall = s.squall := by
  have same := h.eq
  simp only [State.units, Prod.mk.injEq] at same
  tauto

theorem SameUnits.clk {s t : State} (h : SameUnits s t) : t.clk = s.clk := by
  have same := h.eq
  simp only [State.units, Prod.mk.injEq] at same
  tauto

/-- Whether the controller is awake lies in its clocks, Squall and the reset pin. -/
theorem awake_congr {s t : State} (units : SameUnits s t) (pins : t.pins = s.pins) : t.awake = s.awake := by
  unfold State.awake
  rw [pins, units.squall, units.clk]

/-! ## The display -/

theorem exec_displayDwellSecond_running {s : State} {d : BoardDesc} (desc : s.boot.desc = some d) (running : s.disp.running = true)
    (active : s.active = true) (free : s.dbg.seqHalted.getLsbD 9 = false) :
    exec .displayDwellSecond s = .next (if s.disp.dwellAt ≤ s.now then s.dwell d else s) := by
  simp only [exec, execDisplayDwellSecond, desc, running, active, free, Bool.and_self, Bool.not_false, Bool.true_and,
    decide_eq_true_eq]

theorem dwell_of_none {s : State} {d : BoardDesc} (none : s.showable d s.disp.item = none) : s.dwell d = s := by
  rw [State.dwell, none]

/-- A dwell second queues two frames and moves on (R388). -/
theorem dwell_of_some {s : State} {d : BoardDesc} {k : Nat} {l : List Byte × List Byte} (next : s.showable d s.disp.item = some k)
    (lines : s.displayItem (d.item k).1 (d.item k).2.2 = some l) : ∃ i n a b, s.dwell d = { s with disp := { s.disp with
      item := i, second := n, dwellAt := s.now + 1000000, waiting := s.disp.waiting ++ [(false, a), (false, b)] } } := by
  unfold State.dwell
  simp only [next, lines]
  exact ⟨_, _, _, _, rfl⟩

/-! ## A housekeeping slot -/

/-- The slot's reading taken and the next slot begun (R473). -/
def State.slotTaken (s : State) (reading : Int) : State :=
  let mon : Fin 8 := Fin.ofNat 8 s.hkp.monitor
  { s with hkp := { s.hkp with
    reads := s.hkp.reads.set s.hkp.slot reading, slot := s.hkp.slot + 1, ended := s.hkp.ended || s.hkp.slot = 15, slotAt := s.now,
    ages := if s.hkp.slot = 15 then s.hkp.ages.set mon (reading.toNat :: s.hkp.ages[mon]) else s.hkp.ages,
    monitor := if s.hkp.slot = 15 then (s.hkp.monitor + 1) % 8 else s.hkp.monitor } }

/-- What a reading's own rules leave: the round's place and readings, and Vane. -/
structure KeepsRound (s t : State) : Prop where
  slot : t.hkp.slot = s.hkp.slot
  reads : t.hkp.reads = s.hkp.reads
  rounds : t.hkp.rounds = s.hkp.rounds
  ended : t.hkp.ended = s.hkp.ended
  thr : t.thr = s.thr

theorem KeepsRound.of_units {s t : State} (h : SameUnits s t) : KeepsRound s t := by
  have hkp := h.hkp
  exact ⟨by rw [hkp], by rw [hkp], by rw [hkp], by rw [hkp], h.thr⟩

theorem keepsRound_dieReading (s : State) (n : Nat) (r : Int) : KeepsRound s (s.dieReading n r) := by
  unfold State.dieReading
  dsimp only
  split
  · constructor <;> simp
  · exact ⟨rfl, rfl, rfl, rfl, rfl⟩

theorem keepsRound_diodeReading (s : State) (ok : Bool) : KeepsRound s (s.diodeReading ok) := by
  unfold State.diodeReading
  dsimp only
  split
  · constructor <;> simp
  · exact ⟨rfl, rfl, rfl, rfl, rfl⟩

theorem exec_housekeepingSlot_over {s : State} (runs : s.hkpRuns = true) (past : s.slotOver = true) (reading : Int) (ok : Bool) :
    ∃ u, exec (.housekeepingSlot reading ok) s = .next u ∧ KeepsRound (s.slotTaken reading) u := by
  simp only [exec, execHousekeepingSlot, runs, past]
  rw [if_neg (by decide)]
  refine ⟨_, rfl, ?_⟩
  split
  · exact keepsRound_dieReading _ _ _
  · split
    · exact keepsRound_diodeReading _ _
    · split
      · exact .of_units (units_vcapReading _ _ (.rfl' _))
      · split
        · exact .of_units (units_supplyReading _ _ _ (.rfl' _))
        · exact ⟨rfl, rfl, rfl, rfl, rfl⟩

/-! ## The end of a round -/

/-- The round ended, its hottest reading and MR4 taken, before Vane judges it. -/
def State.roundTaken (s : State) (mr4 : Vector Byte 2) : State :=
  let s0 := s.endLull.vaneTime
  { s0 with
    hkp := { s0.hkp with ended := false, rounds := satInc s0.hkp.rounds },
    thr := { s0.thr with hot := s.hkp.hottest },
    dram := { s0.dram with roundCe := 0, mr4 := if s0.dram.trained then mr4 else s0.dram.mr4 } }

/-- Vane's judgement of the hottest reading (R477, R478). -/
def State.roundJudged (s : State) (mr4 : Vector Byte 2) : State :=
  (s.roundTaken mr4).setVane (vaneLevel (s.roundTaken mr4).nvm.stage.1 (s.roundTaken mr4).thr.level s.hkp.hottest)

/-- What a round does once it has judged the heat. -/
def State.roundClosed (s : State) (t : Int) : State :=
  let s3 : State := { s with mtr := { s.mtr with
    tmax := max s.mtr.tmax t, flags := if 0 < s.thr.level.1 then s.mtr.flags ||| 0x20#16 else s.mtr.flags } }
  ((s3.bandTime t).ageMedia (64 * s3.ageWeight)).endBoundary.meterServe.checkBalances

theorem exec_housekeepingRound_ended {s : State} (runs : s.hkpRuns = true) (ended : s.hkp.ended = true) (mr4 : Vector Byte 2) :
    exec (.housekeepingRound mr4) s = .next (if 500 ≤ s.hkp.hottest then
      (((s.roundJudged mr4).roundClosed s.hkp.hottest).raise pTHR 1).squallTrigger sqTHERMAL
      else (s.roundJudged mr4).roundClosed s.hkp.hottest) := by
  simp only [exec, execHousekeepingRound, runs, ended]
  rw [if_neg (by decide)]
  rfl

theorem endLull_units_nvm (s : State) : s.endLull.hkp = s.hkp ∧ s.endLull.thr = s.thr ∧ s.endLull.dram = s.dram ∧
    s.endLull.squall = s.squall ∧ s.endLull.clk = s.clk ∧ s.endLull.pins = s.pins ∧ s.endLull.nvm = s.nvm := by
  unfold State.endLull
  split <;> exact ⟨rfl, rfl, rfl, rfl, rfl, rfl, rfl⟩

theorem setVane_keeps (s : State) (k : Fin 8) : (s.setVane k).thr = { s.thr with level := k } ∧ (s.setVane k).hkp = s.hkp ∧
    (s.setVane k).dram = s.dram ∧ (s.setVane k).squall = s.squall ∧ (s.setVane k).clk = s.clk ∧ (s.setVane k).pins = s.pins := by
  unfold State.setVane
  split
  · next same => exact ⟨by rw [← same], rfl, rfl, rfl, rfl, rfl⟩
  · dsimp only
    split <;> simp

theorem roundClosed_units (s : State) (t : Int) : SameUnits s (s.roundClosed t) := by
  unfold State.roundClosed
  refine units_checkBalances _ (units_meterServe _ (units_endBoundary _ (units_ageMedia _ _ (units_bandTime _ _ ?_))))
  exact ⟨rfl⟩

/-! ### The reset pin through a round's end -/

theorem mediaBits_pins (s before : State) : (s.mediaBits before).pins = s.pins := by
  unfold State.mediaBits
  dsimp only
  split <;> split <;> split <;> simp

theorem bandTime_pins (s : State) (t : Int) : (s.bandTime t).pins = s.pins := by
  unfold State.bandTime
  dsimp only
  split <;> simp

theorem settleBoundary_pins (s : State) : s.settleBoundary.pins = s.pins := by
  unfold State.settleBoundary
  split
  · rfl
  · dsimp only
    split <;> rfl

theorem endBoundary_pins (s : State) : s.endBoundary.pins = s.pins := by
  unfold State.endBoundary
  split
  · rfl
  · dsimp only
    split <;> simp [settleBoundary_pins]

theorem meterServe_pins (s : State) : s.meterServe.pins = s.pins := by
  unfold State.meterServe
  split
  · rfl
  · split
    · rfl
    · split <;> rfl

theorem checkBalances_pins (s : State) : s.checkBalances.pins = s.pins := by
  have links (l : List (Fin 4)) (a : State) : (l.foldl (fun a p =>
      if (List.finRange 3).all (fun v => a.vfl[p].credits[v] + a.vfl[p].outst[v] = 32) then a
      else a.raiseRecStatus (pVFL p) 4 3 noTenant) a).pins = a.pins := by
    induction l generalizing a with
    | nil => rfl
    | cons p r ih =>
      rw [List.foldl_cons, ih]
      split
      · rfl
      · exact State.raiseRecStatus_pins _ _ _ _ _
  unfold State.checkBalances
  dsimp only
  split <;> split <;> simp only [State.raiseRecStatus_pins, links]

theorem roundClosed_pins (s : State) (t : Int) : (s.roundClosed t).pins = s.pins := by
  unfold State.roundClosed
  rw [checkBalances_pins, meterServe_pins, endBoundary_pins, State.ageMedia, mediaBits_pins]
  exact bandTime_pins _ t

/-- A trigger while awake and not in the final hold leaves Squall running (11 R348). -/
theorem squallTrigger_running {s : State} (cause : Byte) (awake : s.awake = true) (free : s.squall.hold = false) :
    (s.squallTrigger cause).squall.running = true := by
  have same : ((s.supplySeen cause).collect cause).squall = s.squall := by
    unfold State.collect
    split
    · rfl
    · split <;> rfl
  unfold State.squallTrigger
  dsimp only
  rw [if_neg (by simp [awake, free])]
  split
  · next running => simpa only [same] using running
  · rfl

/-- A trigger reaches neither housekeeping nor Vane nor the DRAM. -/
theorem squallTrigger_keeps (s : State) (cause : Byte) : (s.squallTrigger cause).hkp = s.hkp ∧ (s.squallTrigger cause).thr = s.thr ∧
    (s.squallTrigger cause).dram = s.dram := by
  have collected : ((s.supplySeen cause).collect cause).hkp = s.hkp ∧ ((s.supplySeen cause).collect cause).thr = s.thr ∧
      ((s.supplySeen cause).collect cause).dram = s.dram := by
    unfold State.collect
    split
    · exact ⟨rfl, rfl, rfl⟩
    · split <;> exact ⟨rfl, rfl, rfl⟩
  unfold State.squallTrigger
  dsimp only
  split
  · exact ⟨rfl, rfl, rfl⟩
  · split
    · exact collected
    · obtain ⟨hkp, thr, dram⟩ := collected
      simp only [State.squallStart, State.record_hkp, State.record_thr, State.record_dram]
      exact ⟨hkp, thr, dram⟩

/-- What the end of a round leaves of housekeeping, Vane and the DRAM. -/
theorem housekeepingRound_judges {s : State} (mr4 : Vector Byte 2) :
    ((s.roundJudged mr4).roundClosed s.hkp.hottest).hkp = { s.hkp with ended := false, rounds := satInc s.hkp.rounds } ∧
    ((s.roundJudged mr4).roundClosed s.hkp.hottest).thr.hot = s.hkp.hottest ∧
    ((s.roundJudged mr4).roundClosed s.hkp.hottest).thr.level = vaneLevel s.nvm.stage.1 s.thr.level s.hkp.hottest ∧
    (s.dram.trained = true → ((s.roundJudged mr4).roundClosed s.hkp.hottest).dram.mr4 = mr4) ∧
    ((s.roundJudged mr4).roundClosed s.hkp.hottest).awake = s.awake ∧
    ((s.roundJudged mr4).roundClosed s.hkp.hottest).squall = s.squall := by
  obtain ⟨hkp, thr, dram, squall, clk, pins, nvm⟩ := endLull_units_nvm s
  obtain ⟨thr', hkp', dram', squall', clk', pins'⟩ := setVane_keeps (s.roundTaken mr4)
    (vaneLevel (s.roundTaken mr4).nvm.stage.1 (s.roundTaken mr4).thr.level s.hkp.hottest)
  have units := roundClosed_units (s.roundJudged mr4) s.hkp.hottest
  refine ⟨?_, ?_, ?_, fun trained => ?_, ?_, ?_⟩
  · rw [units.hkp, State.roundJudged, hkp', ← hkp]; rfl
  · rw [units.thr, State.roundJudged, thr']; rfl
  · rw [units.thr, State.roundJudged, thr', ← nvm, ← thr]; rfl
  · rw [units.dram, State.roundJudged, dram']
    exact if_pos (by rw [← trained, ← dram]; rfl)
  · rw [awake_congr units (roundClosed_pins _ _)]
    unfold State.awake State.roundJudged
    rw [squall', clk', pins', ← squall, ← clk, ← pins]
    rfl
  · rw [units.squall, State.roundJudged, squall', ← squall]; rfl

theorem active_of_hkpRuns {s : State} (runs : s.hkpRuns = true) : s.active = true := by
  unfold State.hkpRuns at runs
  cases active : s.active with
  | true => rfl
  | false => simp [active] at runs

theorem awake_of_active {s : State} (active : s.active = true) : s.awake = true := by
  unfold State.active at active
  cases awake : s.awake with
  | true => rfl
  | false => simp [awake] at active

theorem hold_of_awake {s : State} (awake : s.awake = true) : s.squall.hold = false := by
  unfold State.awake at awake
  cases hold : s.squall.hold with
  | false => rfl
  | true => simp [hold] at awake

/-- The round's end: housekeeping's own turn, Vane's judgement, and Squall at 125 °C (R477, R481). -/
theorem exec_housekeepingRound_keeps {s : State} (runs : s.hkpRuns = true) (ended : s.hkp.ended = true) (mr4 : Vector Byte 2) :
    ∃ u, exec (.housekeepingRound mr4) s = .next u ∧ u.hkp = { s.hkp with ended := false, rounds := satInc s.hkp.rounds } ∧
      u.thr.hot = s.hkp.hottest ∧ u.thr.level = vaneLevel s.nvm.stage.1 s.thr.level s.hkp.hottest ∧
      (s.dram.trained = true → u.dram.mr4 = mr4) ∧ (500 ≤ s.hkp.hottest → u.squall.running = true) := by
  have awakes := awake_of_active (active_of_hkpRuns runs)
  have free := hold_of_awake awakes
  have step := exec_housekeepingRound_ended runs ended mr4
  obtain ⟨hkp, hot, level, trained, awake, squall⟩ := housekeepingRound_judges (s := s) mr4
  generalize (s.roundJudged mr4).roundClosed s.hkp.hottest = c at step hkp hot level trained awake squall
  by_cases hotter : 500 ≤ s.hkp.hottest
  · obtain ⟨hkp', thr', dram'⟩ := squallTrigger_keeps (c.raise pTHR 1) sqTHERMAL
    rw [State.raise_hkp] at hkp'
    rw [State.raise_thr] at thr'
    rw [State.raise_dram] at dram'
    refine ⟨_, step.trans (congrArg Host.Outcome.next (if_pos hotter)), by rw [hkp', hkp], by rw [thr', hot], by rw [thr', level],
      fun on => by rw [dram', trained on], fun _ => squallTrigger_running _ ?_ ?_⟩
    · rw [awake_congr (units_raise c _ _ (.rfl' c)) (State.raise_pins _ _ _), awake, awakes]
    · rw [State.raise_squall, squall, free]
  · exact ⟨c, step.trans (congrArg Host.Outcome.next (if_neg hotter)), hkp, hot, level, trained, fun h => absurd h hotter⟩

/-! ## Ageing -/

/-- The hour's means and the counts over each threshold (R486). -/
def State.hourAged (s : State) : State :=
  { s with
    nvm := { s.nvm with
      mons := Vector.ofFn (fun k : Fin 8 => s.hourlyMean k),
      monOver := Vector.ofFn (fun k : Fin 8 => overHours s.nvm.monOver[k] (Vector.ofFn (fun k : Fin 8 => s.hourlyMean k))[k]),
      ageHour := s.opSecs / 3600 },
    hkp := { s.hkp with ages := Vector.replicate 8 [] } }

theorem stageOf_le (m : Vector (Vector Nat 3) 8) : stageOf m ≤ 3 := by
  unfold stageOf
  split
  · decide
  · split
    · decide
    · split <;> decide

theorem exec_ageingHour_due {s : State} (active : s.active = true) (due : s.nvm.ageHour < s.opSecs / 3600)
    (booted : s.boot.booted.isSome = true) : exec .ageingHour s = .next (
      if s.nvm.stage < Fin.ofNat 4 (stageOf s.hourAged.nvm.monOver) then
        ({ s.hourAged with nvm := { s.hourAged.nvm with stage := Fin.ofNat 4 (stageOf s.hourAged.nvm.monOver) } } : State).raiseRecStatus pLIFE 0
          (if (Fin.ofNat 4 (stageOf s.hourAged.nvm.monOver) : Fin 4) = 3 then 3 else 2) noTenant
      else s.hourAged) := by
  simp only [exec, execAgeingHour]
  rw [if_neg (by simp [active, Option.isSome_iff_ne_none.mp booted, Nat.not_le.mpr due])]
  rfl

/-- A record with a status leaves what the hour kept. -/
theorem raiseRecStatus_nvm (s : State) (p : Page) (b : Nat) (sev : Fin 4) (t : Byte) :
    (s.raiseRecStatus p b sev t).nvm.mons = s.nvm.mons ∧ (s.raiseRecStatus p b sev t).nvm.ageHour = s.nvm.ageHour ∧
    (s.raiseRecStatus p b sev t).nvm.monOver = s.nvm.monOver ∧ (s.raiseRecStatus p b sev t).nvm.stage = s.nvm.stage := by
  have same := raiseRecStatus_unlogged s p b sev t
  exact ⟨congrArg (fun x => x.nvm.mons) same, congrArg (fun x => x.nvm.ageHour) same, congrArg (fun x => x.nvm.monOver) same,
    congrArg (fun x => x.nvm.stage) same⟩

theorem hourAged_keeps (s : State) : (∀ k : Fin 8, s.hourAged.nvm.mons[k] = s.hourlyMean k) ∧ s.hourAged.nvm.ageHour = s.opSecs / 3600 ∧
    s.hourAged.nvm.monOver = Vector.ofFn (fun k : Fin 8 => overHours s.nvm.monOver[k] (s.hourlyMean k)) ∧
    s.hourAged.nvm.stage = s.nvm.stage :=
  ⟨fun k => by simp [State.hourAged], rfl, by simp [State.hourAged], rfl⟩

/-- The stage a step of the derating calls for, over any state the hour has brought up to date. -/
theorem staged_keeps (a : State) (n : Fin 4) (sev : Fin 4) (rises : a.nvm.stage < n) :
    ∃ u, u = ({ a with nvm := { a.nvm with stage := n } } : State).raiseRecStatus pLIFE 0 sev noTenant ∧
      u.nvm.mons = a.nvm.mons ∧ u.nvm.ageHour = a.nvm.ageHour ∧ u.nvm.monOver = a.nvm.monOver ∧
      u.nvm.stage.1 = max a.nvm.stage.1 n.1 ∧ u.bit pLIFE 0 = true := by
  obtain ⟨mons, hour, monOver, stage⟩ := raiseRecStatus_nvm { a with nvm := { a.nvm with stage := n } } pLIFE 0 sev noTenant
  refine ⟨_, rfl, mons, hour, monOver, ?_, raiseRecStatus_bit _ pLIFE 0 _ _ (by decide) (by decide) (by decide)⟩
  rw [stage]
  exact (max_eq_right (Fin.lt_def.mp rises).le).symm

/-- The hour that is over keeps its means and counts, and raises the stage they call for (R485 to R487). -/
theorem exec_ageingHour_keeps {s : State} (active : s.active = true) (due : s.nvm.ageHour < s.opSecs / 3600)
    (booted : s.boot.booted.isSome = true) : ∃ u, exec .ageingHour s = .next u ∧ (∀ k : Fin 8, u.nvm.mons[k] = s.hourlyMean k) ∧
      u.nvm.ageHour = s.opSecs / 3600 ∧
      u.nvm.monOver = Vector.ofFn (fun k : Fin 8 => overHours s.nvm.monOver[k] (s.hourlyMean k)) ∧
      u.nvm.stage.1 = max s.nvm.stage.1 (stageOf u.nvm.monOver) ∧ (s.nvm.stage.1 < u.nvm.stage.1 → u.bit pLIFE 0 = true) := by
  have step := exec_ageingHour_due active due booted
  obtain ⟨means, hour, counts, stage⟩ := hourAged_keeps s
  generalize s.hourAged = a at step means hour counts stage
  have small : (Fin.ofNat 4 (stageOf a.nvm.monOver)).1 = stageOf a.nvm.monOver := Nat.mod_eq_of_lt (Nat.lt_succ_of_le (stageOf_le _))
  by_cases rises : s.nvm.stage < Fin.ofNat 4 (stageOf a.nvm.monOver)
  · obtain ⟨u, eq, mons, hour', monOver, stage', bit⟩ := staged_keeps a (Fin.ofNat 4 (stageOf a.nvm.monOver))
      (if (Fin.ofNat 4 (stageOf a.nvm.monOver) : Fin 4) = 3 then 3 else 2) (stage ▸ rises)
    refine ⟨u, by rw [step, if_pos rises, eq], fun k => by rw [mons]; exact means k, hour'.trans hour, monOver.trans counts, ?_, fun _ => bit⟩
    rw [stage', stage, monOver, small]
  · refine ⟨a, by rw [step, if_neg rises], means, hour, counts, ?_, fun more => absurd more (by rw [stage]; exact lt_irrefl _)⟩
    rw [Fin.lt_def, small] at rises
    rw [stage, max_eq_left (Nat.not_lt.mp rises)]

/-- Settles O27: the display's three cases, a slot, a round's end and the hours. -/
theorem houseIsKept : Obligations.HouseIsKept := by
  unfold Obligations.HouseIsKept
  refine ⟨fun s => ⟨fun d desc running active free => ⟨fun none => ?noItem, fun early => ?early, fun k l due next lines => ?dwells⟩,
      fun x host => ⟨fun life due => ?expires, fun stays => ?stays⟩⟩,
    fun s runs => ⟨fun reading ok past => ?slot, fun reading ok early => ?slotEarly, fun mr4 ended => ?round⟩,
    fun s active => ⟨fun same => ?hourEarly, fun due booted => ?hour, fun counted due => ?operating⟩⟩
  case noItem =>
    rw [exec_displayDwellSecond_running desc running active free, dwell_of_none none]
    split <;> rfl
  case early => rw [exec_displayDwellSecond_running desc running active free, if_neg (Nat.not_le.mpr early)]
  case dwells =>
    obtain ⟨i, n, a, b, dwells⟩ := dwell_of_some next lines
    exact ⟨i, n, a, b, by rw [exec_displayDwellSecond_running desc running active free, if_pos due, dwells]⟩
  case expires => simp [exec, execHostItemExpired, host, life, due]
  case stays =>
    refine congrArg Host.Outcome.next (if_neg ?_)
    obtain stays | stays := stays
    · simp [stays]
    · simp [Nat.not_le.mpr stays]
  case slot =>
    obtain ⟨u, step, kept⟩ := exec_housekeepingSlot_over runs past reading ok
    exact ⟨u, step, kept.slot, kept.reads, kept.rounds, kept.ended, kept.thr⟩
  case slotEarly => simp [exec, execHousekeepingSlot, early]
  case round =>
    obtain ⟨u, step, hkp, hot, level, trained, trips⟩ := exec_housekeepingRound_keeps runs ended mr4
    exact ⟨u, step, by rw [hkp], by rw [hkp], by rw [hkp], hot, level, trips, trained⟩
  case hourEarly => simp [exec, execAgeingHour, same]
  case hour => exact exec_ageingHour_keeps active due booted
  case operating => simp [exec, execOperatingHour, active, counted, due]

end Sys2Proof.Machine
end

section
/-!
PROOFS. Debug (15 R488 to R494). A token that checks takes the keys and the scalars with it; what it counts survives the closing of the
pipes, the key changes and the links.
-/
namespace Sys2Proof.Machine

/-! ## What folds and falling links leave -/

/-- A fold of changes that leave a part of the state alone leaves it alone. -/
theorem foldl_same {α β : Type} {f : State → α → State} {part : State → β} (keeps : ∀ a x, part (f a x) = part a) (l : List α) (s : State) :
    part (l.foldl f s) = part s := by
  induction l generalizing s with
  | nil => rfl
  | cons x r ih => rw [List.foldl_cons, ih, keeps]

/-- The links' fall leaves every part of the state that neither the ports, the fabric nor a status bit belongs to. -/
theorem linksDown_same {β : Type} {part : State → β} (s : State) (dst : LinkSt) (raise : ∀ a p b, part (a.raise p b) = part a)
    (vfl : ∀ (a : State) v w, part { a with vfl := v, vfr := w } = part a) : part (s.linksDown dst) = part s := by
  refine foldl_same (fun a p => ?_) _ s
  split
  · rfl
  · unfold State.linkLeave
    dsimp only
    split
    · rw [raise, raise]
      exact vfl a _ _
    · exact vfl a _ _

/-! ## The unlock count -/

theorem raiseRecStatus_unlocks (s : State) (p : Page) (b : Nat) (sev : Fin 4) (t : Byte) :
    (s.raiseRecStatus p b sev t).nvm.unlocks = s.nvm.unlocks := congrArg (fun x => x.nvm.unlocks) (raiseRecStatus_unlogged s p b sev t)

theorem queueOp_nvm (s : State) (die cls : Nat) (k : FlashKind) (bufs : List Nat) : (s.queueOp die cls k bufs).nvm = s.nvm := rfl

theorem passBegin_nvm (s : State) : s.passBegin.nvm = s.nvm := by
  unfold State.passBegin
  dsimp only
  split
  · split
    · exact foldl_same (part := State.nvm) (fun a x => queueOp_nvm a x 1 (.system .events) []) _ _
    · rfl
  · rfl

theorem storeRec_unlocks (s : State) (r : EvRec) : (s.storeRec r).nvm.unlocks = s.nvm.unlocks := by
  unfold State.storeRec
  split
  · rfl
  · split
    · rfl
    · split
      · rfl
      · exact congrArg (fun x => x.nvm.unlocks) (countDropped_unlogged s)

theorem passEnd_unlocks (s : State) : s.passEnd.nvm.unlocks = s.nvm.unlocks := by
  unfold State.passEnd
  rw [State.raise_nvm]
  exact foldl_same (part := fun x => x.nvm.unlocks) (fun a (b : BufRec) => storeRec_unlocks a b.ev) _ s

theorem freeBuf_nvm (s : State) (h : Nat) : (s.freeBuf h).nvm = s.nvm := by
  unfold State.freeBuf
  split
  · rfl
  · split <;> rfl

theorem undoOpen_unlocks (s : State) (cs : List Cmd) : (s.undoOpen cs).nvm.unlocks = s.nvm.unlocks := by
  refine foldl_same (part := fun x => x.nvm.unlocks) (fun a c => ?_) cs s
  split <;> rfl

theorem failPipe_unlocks (s : State) (p : Pipe) (st rc : Byte) : (s.failPipe p st rc).nvm.unlocks = s.nvm.unlocks := by
  have frees := foldl_same (part := State.nvm) freeBuf_nvm ((s.hqm.cmds.filter (fun e => e.2.heldBy p)).flatMap (fun e => e.2.bufs)) s
  unfold State.failPipe
  cases p <;> exact (undoOpen_unlocks _ _).trans (congrArg Nvm.unlocks frees)

theorem refuseKeyWait_unlocks (s : State) : s.refuseKeyWait.nvm.unlocks = s.nvm.unlocks := by
  refine foldl_same (part := fun x => x.nvm.unlocks) (fun a t => ?_) allTids s
  refine foldl_same (part := fun x => x.nvm.unlocks) (fun x k => ?_) a.tnt[t].keyWait a
  cases k with
  | loadX _ _ _ tag => exact congrArg Nvm.unlocks (finish_nvm x tag 0x0D 0x30 0)
  | loadG _ _ _ tag => exact congrArg Nvm.unlocks (finish_nvm x tag 0x0D 0x30 0)
  | clear e g tag =>
    have same : ((x.dropPersisted t e g).finish tag 0 0 0).nvm.unlocks = x.nvm.unlocks := by rw [finish_nvm]; rfl
    exact same

/-! ## A token that checks -/

theorem raiseTenants_keys (s : State) (p : State → Tid → Bool) (b : Nat) (t : Tid) :
    ((s.raiseTenants p b).tnt[t]).xts = (s.tnt[t]).xts ∧ ((s.raiseTenants p b).tnt[t]).gcm = (s.tnt[t]).gcm := by
  have same := foldl_same (part := fun x : State => ((x.tnt[t]).xts, (x.tnt[t]).gcm))
    (f := fun a t => if p a t then a.raiseTnt t b else a) (fun a u => by
      split
      · exact Prod.ext (raise_tnt_xts a _ b t) (raise_tnt_gcm a _ b t)
      · rfl) allTids s
  exact ⟨congrArg Prod.fst same, congrArg Prod.snd same⟩

/-- The count rises and the scalars go, whatever the links do (R493). -/
theorem scalars_gone (c : State) : ∃ u, u = State.linksDown
      { c.countUnlock with sign := { c.sign with identity := none, transport := none, blocked := true } } .down ∧
    u.nvm.unlocks = c.nvm.unlocks + 1 ∧ (∀ t : Tid, (u.tnt[t]).xts = (c.tnt[t]).xts ∧ (u.tnt[t]).gcm = (c.tnt[t]).gcm) ∧
    u.sign = { c.sign with identity := none, transport := none, blocked := true } := by
  refine ⟨_, rfl, ?_, fun t => ?_, ?_⟩
  · exact linksDown_same (part := fun x => x.nvm.unlocks) _ .down (fun a p b => by rw [State.raise_nvm]) (fun _ _ _ => rfl)
  · exact Prod.mk.inj (linksDown_same (part := fun x : State => ((x.tnt[t]).xts, (x.tnt[t]).gcm)) _ .down
      (fun a p b => Prod.ext (raise_tnt_xts a p b t) (raise_tnt_gcm a p b t)) (fun _ _ _ => rfl))
  · exact linksDown_same (part := State.sign) _ .down State.raise_sign (fun _ _ _ => rfl)

/-- What an accepted token leaves of the keys, the scalars and the count (R493). -/
theorem unlockDebug_keeps (s : State) (scope : BitVec 3) :
    (s.unlockDebug scope).dbg.unlocked = true ∧ (s.unlockDebug scope).dbg.scope = scope ∧ (s.unlockDebug scope).dbg.challenge = none ∧
    (s.unlockDebug scope).nvm.unlocks = s.nvm.unlocks + 1 ∧
    (∀ t : Tid, ((s.unlockDebug scope).tnt[t]).xts = none ∧ ((s.unlockDebug scope).tnt[t]).gcm = none) ∧
    (s.unlockDebug scope).sign.identity = none ∧ (s.unlockDebug scope).sign.transport = none ∧
    (s.unlockDebug scope).sign.blocked = true := by
  have passed : (if (s.raiseRecStatus pDBG 0 3 noTenant).boot.tGust.isSome && !(s.raiseRecStatus pDBG 0 3 noTenant).aon.passOn then
      (s.raiseRecStatus pDBG 0 3 noTenant).passBegin.passEnd else s.raiseRecStatus pDBG 0 3 noTenant).nvm.unlocks = s.nvm.unlocks := by
    split
    · rw [passEnd_unlocks, passBegin_nvm, raiseRecStatus_unlocks]
    · rw [raiseRecStatus_unlocks]
  unfold State.unlockDebug
  dsimp only
  generalize (if (s.raiseRecStatus pDBG 0 3 noTenant).boot.tGust.isSome && !(s.raiseRecStatus pDBG 0 3 noTenant).aon.passOn then
      (s.raiseRecStatus pDBG 0 3 noTenant).passBegin.passEnd else s.raiseRecStatus pDBG 0 3 noTenant) = a at passed
  have closed : ((a.failPipe .x 0x0D 0x30).failPipe .g 0x0D 0x30).refuseKeyWait.nvm.unlocks = s.nvm.unlocks := by
    rw [refuseKeyWait_unlocks, failPipe_unlocks, failPipe_unlocks, passed]
  generalize ((a.failPipe .x 0x0D 0x30).failPipe .g 0x0D 0x30).refuseKeyWait = b at closed
  have zeroised (t : Tid) : ((b.zeroiseAll).tnt[t]).xts = none ∧ ((b.zeroiseAll).tnt[t]).gcm = none := by
    simp [State.zeroiseAll]
  have keys (t : Tid) := raiseTenants_keys b.zeroiseAll (fun _ _ => true) 15 t
  have counted : ((b.zeroiseAll).raiseTenants (fun _ _ => true) 15).nvm.unlocks = s.nvm.unlocks := by
    rw [State.raiseTenants_nvm]
    exact closed
  generalize (b.zeroiseAll).raiseTenants (fun _ _ => true) 15 = c at keys counted
  obtain ⟨u, eq, unlocks, tnt, sign⟩ := scalars_gone c
  rw [← eq]
  refine ⟨rfl, rfl, rfl, unlocks.trans (congrArg (· + 1) counted), fun t => ?_, congrArg SignS.identity sign,
    congrArg SignS.transport sign, congrArg SignS.blocked sign⟩
  obtain ⟨xts, gcm⟩ := tnt t
  obtain ⟨xts', gcm'⟩ := keys t
  obtain ⟨xts'', gcm''⟩ := zeroised t
  exact ⟨xts.trans (xts'.trans xts''), gcm.trans (gcm'.trans gcm'')⟩

theorem exec_unlock_accepted {s : State} {token : Vector Byte 176} (ir : s.dbg.ir = 0x13#5) (active : s.active = true)
    (checks : s.tokenAccepted token.toList = true) :
    exec (.unlock token) s = .next (s.unlockDebug (BitVec.ofNat 3 (fieldLe token.toList 0x28 4))) := by
  simp only [exec, execUnlock]
  rw [if_neg (by simp [ir]), if_neg (by simp [active]), if_pos checks]

theorem exec_unlock_wrong {s : State} {token : Vector Byte 176} (ir : s.dbg.ir = 0x13#5) (active : s.active = true)
    (wrong : s.tokenAccepted token.toList = false) :
    exec (.unlock token) s = .next (({ s with dbg := { s.dbg with challenge := none, fails := satInc s.dbg.fails } } : State).raiseRecStatus
      pDBG 1 2 noTenant) := by
  simp only [exec, execUnlock]
  rw [if_neg (by simp [ir]), if_neg (by simp [active]), if_neg (by simp [wrong])]

/-! ## TAP instructions -/

theorem SameUnits.dbg {s t : State} (h : SameUnits s t) : t.dbg = s.dbg := by
  have same := h.eq
  simp only [State.units, Prod.mk.injEq] at same
  tauto


/-- A fresh challenge touches neither the instruction, the count nor what is kept. -/
theorem issueChallenge_keeps (s : State) : s.issueChallenge.dbg.ir = s.dbg.ir ∧ s.issueChallenge.dbg.denied = s.dbg.denied ∧
    s.issueChallenge.nvm = s.nvm := by
  unfold State.issueChallenge
  dsimp only
  split
  · next v t drawn =>
    have same : t.dbg = s.drawn.dbg ∧ t.nvm = s.drawn.nvm := by
      unfold State.drbg at drawn
      split at drawn
      · cases drawn
        exact ⟨rfl, rfl⟩
      · cases drawn
    obtain ⟨dbg, nvm⟩ := same
    simp only [State.emit_nvm, State.emit_dbg, dbg, nvm]
    exact ⟨rfl, rfl, rfl⟩
  · exact ⟨rfl, rfl, rfl⟩

theorem exec_tapInstruction_open {s : State} {code : BitVec 5} (known : tapKnown code.toNat = true)
    (opens : ∀ k, tapScope code.toNat = some k → s.dbg.unlocked = true ∧ s.dbg.scope.getLsbD k = true) :
    exec (.tapInstruction code) s = .next (
      if code = 0x02#5 then ({ s with dbg := { s.dbg with ir := code } } : State).emit (.tdo [0x140644F5#32])
      else if code = 0x13#5 && s.active then State.issueChallenge { s with dbg := { s.dbg with ir := code } }
      else { s with dbg := { s.dbg with ir := code } }) := by
  cases scope : tapScope code.toNat with
  | none =>
    simp only [exec, execTapInstruction, scope, known]
    rfl
  | some k =>
    obtain ⟨unlocked, bit⟩ := opens k scope
    simp only [exec, execTapInstruction, scope, known, unlocked, bit]
    rfl

/-- An instruction that is selected is held, counts nothing, and keeps what is stored. -/
theorem exec_tapInstruction_keeps {s : State} {code : BitVec 5} (known : tapKnown code.toNat = true)
    (opens : ∀ k, tapScope code.toNat = some k → s.dbg.unlocked = true ∧ s.dbg.scope.getLsbD k = true) :
    ∃ u, exec (.tapInstruction code) s = .next u ∧ u.dbg.ir = code ∧ u.dbg.denied = s.dbg.denied ∧ u.nvm = s.nvm := by
  refine ⟨_, exec_tapInstruction_open known opens, ?_⟩
  split
  · exact ⟨rfl, rfl, rfl⟩
  · split
    · exact issueChallenge_keeps { s with dbg := { s.dbg with ir := code } }
    · exact ⟨rfl, rfl, rfl⟩

theorem exec_tapInstruction_closed {s : State} {code : BitVec 5} {k : Nat} (scope : tapScope code.toNat = some k)
    (closed : s.dbg.unlocked = false ∨ s.dbg.scope.getLsbD k = false) :
    exec (.tapInstruction code) s = .next { s with dbg := { s.dbg with ir := 0x1F#5, denied := satInc s.dbg.denied } } := by
  have no : (s.dbg.unlocked && s.dbg.scope.getLsbD k) = false := by
    obtain closed | closed := closed
    · rw [closed, Bool.false_and]
    · rw [closed, Bool.and_false]
  simp [exec, execTapInstruction, scope, no]

/-! ## The debug modules -/

theorem dmi_open {s : State} (ir : s.dbg.ir = 0x11#5) (awake : s.awake = true) :
    ¬ (decide (s.dbg.ir ≠ 0x11#5) || !s.awake) = true := by simp [ir, awake]

/-- Settles O28: instructions by their scope, a token either way, and the accesses of both modules. -/
theorem debugNeedsUnlock : Obligations.DebugNeedsUnlock := by
  unfold Obligations.DebugNeedsUnlock
  refine ⟨fun s code => ⟨rfl, exec_tapInstruction_keeps, fun k scope closed => exec_tapInstruction_closed scope closed, rfl, rfl, ?reset⟩,
    fun s token ir active => ⟨fun checks => ?accepted, fun wrong => ?wrong⟩,
    fun s awake => ⟨fun ir c => ⟨?halt, fun idle => ?resume, ?resumes, fun halted => ?single, fun k v => ?trigger, fun n v => ?register,
      fun a v => ?bus⟩, fun ir e => ⟨?seqHalt, ?seqResume, fun halted => ?seqStep, fun v => ?break_, ?addr⟩⟩⟩
  case reset => exact ⟨_, rfl, rfl⟩
  case accepted => exact ⟨_, exec_unlock_accepted ir active checks, unlockDebug_keeps s _⟩
  case wrong =>
    refine ⟨_, exec_unlock_wrong ir active wrong, raiseRecStatus_bit _ pDBG 1 _ _ (by decide) (by decide) (by decide), ?_, ?_⟩
    · rw [State.raiseRecStatus_dbg]
    · rw [State.raiseRecStatus_sign]
  case halt => exact if_neg (dmi_open ir awake)
  case resume =>
    refine (if_neg (dmi_open ir awake)).trans (congrArg Host.Outcome.next ?_)
    obtain other | none := idle
    · exact if_neg other
    · split
      · exact retryRewrites_of_nil none
      · rfl
  case resumes =>
    refine ⟨_, if_neg (dmi_open ir awake), ?_⟩
    split
    · exact congrArg DbgS.halted (units_retryRewrites _ (.rfl' _)).dbg
    · rfl
  case single => simp [exec, execDmi, ir, awake, halted, State.updDbg]
  case trigger => exact ⟨_, if_neg (dmi_open ir awake), KMap.find_put_same .., rfl⟩
  case register =>
    refine ⟨_, if_neg (dmi_open ir awake), ir, awake, _, if_neg (dmi_open ir awake), ?_⟩
    simp [State.updDbg]
  case bus =>
    refine ⟨_, if_neg (dmi_open ir awake), ir, awake, _, if_neg (dmi_open ir awake), ?_⟩
    simp [State.updDbg]
  case seqHalt => simp [exec, execSeqdbg, ir, awake, State.updDbg]
  case seqResume => simp [exec, execSeqdbg, ir, awake, State.updDbg]
  case seqStep => simp [exec, execSeqdbg, ir, awake, halted, State.updDbg]
  case break_ => simp [exec, execSeqdbg, ir, awake, State.updDbg]
  case addr => simp [exec, execSeqdbg, ir, awake, State.updDbg]

end Sys2Proof.Machine
end

section
/-!
PROOFS. Register writes (00 R8 to R10; 05 R116 to R126). A write that takes effect touches its page, acts with the register's writable
bits and stores the rest; every acting register is then read off its own operation.
-/
namespace Sys2Proof.Machine

/-! ## A write that takes effect -/

section Write
variable {s : State} {p : Page} {off : Nat} {w : Wr} {r : Reg}

theorem packetTo_touches (s : State) (d : Fin 5) : ∃ m, s.packetTo d = { s with pwr := m } := by
  unfold State.packetTo
  split
  · exact ⟨s.pwr, rfl⟩
  · unfold State.domWake
    split <;> exact ⟨_, rfl⟩

/-- An access touches the link, and wakes the domain of its page (05 R122). -/
theorem touchPage_touches (s : State) (src : Src) (p : Page) : ∃ l m, s.touchPage src p = { s with pcie := l, pwr := m } := by
  have linked : ∃ l, (if src = .i2c then s else { s with pcie := s.pcie.traffic s.now }) = { s with pcie := l } := by
    split
    · exact ⟨s.pcie, rfl⟩
    · exact ⟨_, rfl⟩
  obtain ⟨l, linked⟩ := linked
  unfold State.touchPage
  dsimp only
  rw [linked]
  split
  · next d _ =>
    obtain ⟨m, woken⟩ := packetTo_touches { s with pcie := l } d
    exact ⟨l, m, woken⟩
  · exact ⟨l, s.pwr, rfl⟩

theorem writeReg_takes (took : s.takes p off w r) (data : List Byte) (failed : Bool) :
    s.writeReg p off w data failed = (s.touchPage w.src p).applyWrite p off r false w.val data failed := by
  obtain ⟨⟨a, reached⟩, found, whole, settled, writable, fixed, unlocked, allowed⟩ := took
  rw [writeReg_of_found reached found whole settled]
  refine writeHere_of_allowed writable fixed ?_ allowed a data failed
  obtain ⟨l, m, touched⟩ := touchPage_touches s w.src p
  rw [touched]
  exact unlocked

/-- The bits a register stores are bits a write can change. -/
theorem Reg.writable_stored (r : Reg) : r.writable &&& (r.rw ||| r.rwl) = r.rw ||| r.rwl := by
  ext i
  simp only [Reg.writable, BitVec.getElem_and, BitVec.getElem_or]
  cases r.rw[i] <;> cases r.rwl[i] <;> simp

theorem storeReg_regs (s : State) (p : Page) (off : Nat) (r : Reg) (mask v : Word) :
    ∃ k, s.storeReg p off r mask v = { s with regs := k } := by
  unfold State.storeReg
  split
  · exact ⟨s.regs, rfl⟩
  · exact ⟨_, rfl⟩

/-- Away from the interrupt and media pages, an accepted write acts and stores, and does nothing else. -/
theorem applyWrite_acts (irq : p ≠ pIRQ) (med : p ≠ pMED) (v : Word) (data : List Byte) (failed : Bool) :
    s.applyWrite p off r false v data failed =
      (s.act p off (v &&& r.writable) data failed).storeReg p off r (r.rw ||| r.rwl) v := by
  unfold State.applyWrite
  rw [if_neg irq, if_neg med]
  exact congrArg (fun mask => (s.act p off (v &&& r.writable) data failed).storeReg p off r mask v) r.writable_stored

/-- A write that takes effect is its acting register's operation on the touched state, beside what it stores. -/
theorem writeReg_acts (took : s.takes p off w r) (irq : p ≠ pIRQ) (med : p ≠ pMED) (data : List Byte) (failed : Bool) :
    ∃ l m k, s.writeReg p off w data failed =
      { State.act { s with pcie := l, pwr := m } p off (w.val &&& r.writable) data failed with regs := k } := by
  obtain ⟨l, m, touched⟩ := touchPage_touches s w.src p
  rw [writeReg_takes took, touched, applyWrite_acts irq med]
  obtain ⟨k, stored⟩ := storeReg_regs (State.act { s with pcie := l, pwr := m } p off (w.val &&& r.writable) data failed) p off r
    (r.rw ||| r.rwl) w.val
  exact ⟨l, m, k, stored⟩

/-- The same of a block's own registers. -/
theorem writeReg_block (took : s.takes p off w r) (block : tenantOfPage p = none) (above : 0x100 ≤ off) (irq : p ≠ pIRQ) (med : p ≠ pMED)
    (data : List Byte) (failed : Bool) : ∃ l m k, s.writeReg p off w data failed =
      { State.actBlock { s with pcie := l, pwr := m } p off (w.val &&& r.writable) data failed with regs := k } := by
  obtain ⟨l, m, k, wrote⟩ := writeReg_acts took irq med data failed
  rw [act_of_block block above] at wrote
  exact ⟨l, m, k, wrote⟩

theorem reg_setReg (s : State) (p : Page) (off : Nat) (v d : Word) : (s.setReg p off v).reg p off d = v := by
  simp [State.reg, State.setReg]

end Write

/-! ## Writes that are ignored -/

section Ignored
variable {s : State} {p : Page} {off : Nat} {w : Wr} {r : Reg} {a : Word}

theorem writeReg_of_disabled (none : w.be = 0#4) (data : List Byte) (failed : Bool) : s.writeReg p off w data failed = s := by
  simp [State.writeReg, none]

theorem writeReg_of_missing (reached : s.reach w.src p off = .at_ a) (enabled : w.be ≠ 0#4)
    (missing : (s.touchPage w.src p).regAt p off = none) (data : List Byte) (failed : Bool) :
    s.writeReg p off w data failed = (s.touchPage w.src p).countErr p eRESERVED a := by
  simp [State.writeReg, enabled, reached, missing]

theorem writeReg_of_partial (reached : s.reach w.src p off = .at_ a) (enabled : w.be ≠ 0#4)
    (found : (s.touchPage w.src p).regAt p off = some r) (cut : w.be ≠ 15#4) (data : List Byte) (failed : Bool) :
    s.writeReg p off w data failed = (s.touchPage w.src p).countErr p ePARTIAL a := by
  simp [State.writeReg, enabled, reached, found, cut]

theorem writeReg_of_readOnly (reached : s.reach w.src p off = .at_ a) (found : (s.touchPage w.src p).regAt p off = some r)
    (whole : w.be = 15#4) (settled : (s.touchPage w.src p).resettingPage p = false) (fixed : r.writable = 0#32) (upd : p ≠ pUPD)
    (data : List Byte) (failed : Bool) :
    s.writeReg p off w data failed = (s.touchPage w.src p).countErr p eREADONLY a := by
  rw [writeReg_of_found reached found whole settled]
  unfold State.writeHere
  rw [if_pos fixed, if_neg (by simp [upd])]

end Ignored

/-! ## Counted errors -/

/-- An error is counted in its page alone. -/
theorem countErr_counts (s : State) (p : Page) (cause : Byte) (a : Word) : ((s.countErr p cause a).hdr[p]).errCause = cause ∧
    ((s.countErr p cause a).hdr[p]).errAddr = a ∧ ((s.countErr p cause a).hdr[p]).errCount = satInc (s.hdr[p]).errCount ∧
    (∀ q : Page, q ≠ p → ((s.countErr p cause a).hdr[q]).errCount = (s.hdr[q]).errCount) := by
  have header : ((s.updHdr p (fun h => { h with errCause := cause, errAddr := a, errCount := satInc h.errCount })).hdr[p]) =
      { s.hdr[p] with errCause := cause, errAddr := a, errCount := satInc (s.hdr[p]).errCount } := by simp [State.updHdr]
  have others (q : Page) (other : q ≠ p) :
      (s.updHdr p (fun h => { h with errCause := cause, errAddr := a, errCount := satInc h.errCount })).hdr[q] = s.hdr[q] := by
    have apart : p.1 ≠ q.1 := fun same => other (Fin.ext same.symm)
    simp [State.updHdr, apart]
  unfold State.countErr
  dsimp only
  split
  · simp only [raise_err]
    exact ⟨by rw [header], by rw [header], by rw [header], fun q other => by rw [others q other]⟩
  · exact ⟨by rw [header], by rw [header], by rw [header], fun q other => by rw [others q other]⟩

theorem exec_reservedAccess_counts {s : State} {space : BarSpace} {off : BitVec 20} {be : BitVec 4} {p : Page} {a : Word}
    (level : s.dev.level ≠ .none) (vf : ∀ n, space = .vfBar0 n → n ≠ 0) (opened : s.barOpen (barFn space) = true)
    (reserved : s.reservedIn space (off.toNat / 4 * 4) = some (p, a)) (read : Bool) :
    exec (.reservedAccess space off be read) s = .next
      (if read then (if be = 0#4 then s else (s.touchPage .pf0 p).countErr p eRESERVED a).emit (.readData 0)
        else if be = 0#4 then s else (s.touchPage .pf0 p).countErr p eRESERVED a) := by
  refine (congrArg Host.Outcome.next (if_neg ?_)).trans (by rw [reserved])
  rw [Bool.not_eq_true, Bool.or_eq_false_iff, Bool.or_eq_false_iff]
  refine ⟨⟨?_, by rw [opened]; rfl⟩, decide_eq_false level⟩
  cases space with
  | vfBar0 n => simpa using vf n rfl
  | pf0Bar0 => rfl
  | pf0Bar2 => rfl

theorem exec_reservedAccess_reports {s : State} {space : BarSpace} {off : BitVec 20} {be : BitVec 4} {p : Page} {a : Word}
    (level : s.dev.level ≠ .none) (vf : ∀ n, space = .vfBar0 n → n ≠ 0) (opened : s.barOpen (barFn space) = true)
    (reserved : s.reservedIn space (off.toNat / 4 * 4) = some (p, a)) (enabled : be ≠ 0#4) (read : Bool) :
    ∃ u, exec (.reservedAccess space off be read) s = .next u ∧ (u.hdr[p]).errCause = eRESERVED ∧ (u.hdr[p]).errAddr = a ∧
      (u.hdr[p]).errCount = satInc (s.hdr[p]).errCount ∧ (∀ q : Page, q ≠ p → (u.hdr[q]).errCount = (s.hdr[q]).errCount) ∧
      u.regs = s.regs ∧ u.nvm = s.nvm ∧ (read = true → .readData 0 ∈ u.outbox) := by
  refine ⟨_, exec_reservedAccess_counts level vf opened reserved read, ?_⟩
  rw [if_neg enabled]
  obtain ⟨l, m, touched⟩ := touchPage_touches s .pf0 p
  rw [touched]
  obtain ⟨cause, addr, count, others⟩ := countErr_counts { s with pcie := l, pwr := m } p eRESERVED a
  have regs := State.countErr_regs { s with pcie := l, pwr := m } p eRESERVED a
  have nvm := State.countErr_nvm { s with pcie := l, pwr := m } p eRESERVED a
  generalize State.countErr { s with pcie := l, pwr := m } p eRESERVED a = u at cause addr count others regs nvm ⊢
  cases read with
  | false => exact ⟨cause, addr, count, others, regs, nvm, nofun⟩
  | true => exact ⟨cause, addr, count, others, regs, nvm, fun _ => mem_emit_outbox u _⟩

/-! ## RST_CTRL and PWR_CTRL -/

theorem active_parts {s : State} (active : s.active = true) : s.awake = true ∧ s.squall.running = false := by
  unfold State.active at active
  simpa using active

/-- A trigger in operation starts Squall at its first step, under its cause alone (11 R350). -/
theorem squallTrigger_starts {s : State} (active : s.active = true) (cause : Byte) :
    (s.squallTrigger cause).squall.running = true ∧ (s.squallTrigger cause).squall.step = 1 ∧
    (s.squallTrigger cause).squall.causes = cause ∧ (s.squallTrigger cause).pcie.squallUr = true ∧
    (s.squallTrigger cause).squall.hold = false := by
  obtain ⟨awake, running⟩ := active_parts active
  have started : s.squallTrigger cause = ((s.supplySeen cause).collect cause).squallStart cause := by
    simp [State.squallTrigger, hold_of_awake awake, awake, running]
  rw [started]
  exact ⟨rfl, rfl, rfl, rfl, rfl⟩

theorem exec_softwareReset_starts {s : State} {w : Wr} {r : Reg} (took : s.takes pRST 0x104 w r)
    (reset : (w.val &&& r.writable).getLsbD 0 = true) (active : s.active = true) :
    ∃ u, exec (.softwareReset w) s = .next u ∧ u.squall.running = true ∧ u.squall.step = 1 ∧ u.squall.causes = sqSOFTWARE ∧
      u.pcie.squallUr = true := by
  obtain ⟨l, m, k, wrote⟩ := writeReg_block took (by decide) (by decide) (by decide) (by decide) [] (decide (bits w.val 3 0 ≠ 3))
  refine ⟨_, congrArg Host.Outcome.next wrote, ?_⟩
  have acted : ∃ x : State, x.active = true ∧
      State.actBlock { s with pcie := l, pwr := m } pRST 0x104 (w.val &&& r.writable) [] (decide (bits w.val 3 0 ≠ 3)) =
        x.squallTrigger sqSOFTWARE := by
    by_cases ack : (w.val &&& r.writable).getLsbD 1 = true
    · refine ⟨{ s with pcie := l, pwr := m, aon := { s.aon with rstCause := 0#7 } }, active, ?_⟩
      refine (if_pos reset).trans (congrArg (fun x => State.squallTrigger x sqSOFTWARE) (if_pos ack))
    · refine ⟨{ s with pcie := l, pwr := m }, active, ?_⟩
      refine (if_pos reset).trans (congrArg (fun x => State.squallTrigger x sqSOFTWARE) (if_neg ack))
  obtain ⟨x, active', acted⟩ := acted
  obtain ⟨running, step, causes, ur, -⟩ := squallTrigger_starts active' sqSOFTWARE
  rw [acted]
  exact ⟨running, step, causes, ur⟩

theorem exec_causeAck_clears {s : State} {w : Wr} {r : Reg} (took : s.takes pRST 0x104 w r)
    (ack : (w.val &&& r.writable).getLsbD 1 = true) (noReset : (w.val &&& r.writable).getLsbD 0 = false) :
    ∃ u, exec (.causeAck w) s = .next u ∧ u.aon = { s.aon with rstCause := 0#7 } ∧ u.squall = s.squall ∧ u.nvm = s.nvm := by
  obtain ⟨l, m, k, wrote⟩ := writeReg_block took (by decide) (by decide) (by decide) (by decide) [] (decide (bits w.val 3 0 ≠ 3))
  have acted : State.actBlock { s with pcie := l, pwr := m } pRST 0x104 (w.val &&& r.writable) [] (decide (bits w.val 3 0 ≠ 3)) =
      { s with pcie := l, pwr := m, aon := { s.aon with rstCause := 0#7 } } := by
    show State.rstCtrl _ _ = _
    simp only [State.rstCtrl, ack, noReset]
    rfl
  rw [acted] at wrote
  exact ⟨_, congrArg Host.Outcome.next wrote, rfl, rfl, rfl⟩

theorem exec_probeNow_asks {s : State} {w : Wr} {r : Reg} (took : s.takes pPWR 0x100 w r)
    (asks : (w.val &&& r.writable).getLsbD 1 = true) (rested : ∀ a, s.pwr.probeAt = some a → a + 10000000 ≤ s.now) :
    ∃ u, exec (.probeNow w) s = .next u ∧ u.pwr = { s.pwr with probeDue := true } ∧ u.nvm = s.nvm := by
  obtain ⟨l, touched⟩ := touchPage_of_ungated (p := pPWR) (by decide) s w.src
  have due (a : State) (same : a.pwr = s.pwr) (now : a.now = s.now) : a.probeNow = { a with pwr := { a.pwr with probeDue := true } } := by
    unfold State.probeNow
    refine if_pos ?_
    rw [same, now]
    cases last : s.pwr.probeAt with
    | none => rfl
    | some t => exact decide_eq_true (rested t last)
  have acted : State.act { s with pcie := l } pPWR 0x100 (w.val &&& r.writable) [] (decide (bits w.val 3 0 ≠ 3)) =
      { s with pcie := l, pwr := { s.pwr with probeDue := true } } := by
    rw [act_of_block (by decide) (by decide)]
    exact (if_pos asks).trans (due { s with pcie := l } rfl rfl)
  have wrote := writeReg_takes took [] (decide (bits w.val 3 0 ≠ 3))
  rw [touched, applyWrite_acts (by decide) (by decide), acted] at wrote
  obtain ⟨k, stored⟩ := storeReg_regs { s with pcie := l, pwr := { s.pwr with probeDue := true } } pPWR 0x100 r (r.rw ||| r.rwl) w.val
  rw [stored] at wrote
  exact ⟨_, congrArg Host.Outcome.next wrote, rfl, rfl⟩

/-! ## Doorbells with reserved bits -/

/-- An accepted doorbell with a 1 in its reserved bits moves its index and is counted (05 R118, R120). -/
theorem doorbell_of_reserved {s : State} {v : DbView} {t : Tid} {q : Qid} {head : Bool} {val a : Word}
    (accepted : s.doorbellFault t q head (bits val 11 0) = none) (rsv : bits val 31 12 ≠ 0) :
    s.hostTouch.doorbell v t q head val a =
      (s.hostTouch.countErr (match v with | .pf0 _ => pDEV | .vf _ => pTNT t) eREADONLY a).updQp t q
        (fun y => if head then { y with cqHead := bits val 11 0 } else { y with sqTail := bits val 11 0 }) := by
  cases v <;> simp [State.doorbell, accepted, rsv]

/-- Settles O29: what acts is the register's operation, and what is ignored is counted once. -/
theorem registersTakeWrites : Obligations.RegistersTakeWrites := by
  unfold Obligations.RegistersTakeWrites
  refine ⟨fun s p off w r => ⟨fun took => congrArg Host.Outcome.next (writeReg_takes took _ _),
      fun took irq med stores idle => ?held, fun none => congrArg Host.Outcome.next (writeReg_of_disabled none _ _),
      fun a reached enabled => ⟨fun missing => congrArg Host.Outcome.next (writeReg_of_missing reached enabled missing _ _),
        fun found cut => congrArg Host.Outcome.next (writeReg_of_partial reached enabled found cut _ _),
        fun found whole settled fixed upd => congrArg Host.Outcome.next (writeReg_of_readOnly reached found whole settled fixed upd _ _)⟩⟩,
    fun s space off be => ⟨?silent, fun level read => ?early, fun p a level vf opened reserved => ⟨?empty,
      fun enabled read => exec_reservedAccess_reports level vf opened reserved enabled read⟩⟩,
    fun s w r => ⟨fun took reset active => exec_softwareReset_starts took reset active,
      fun took ack noReset => exec_causeAck_clears took ack noReset, fun took asks rested => exec_probeNow_asks took asks rested⟩,
    fun s v q be val t a done enabled within rsv => ⟨fun routed room => ?tail, fun routed written => ?head⟩⟩
  case held =>
    obtain ⟨l, m, touched⟩ := touchPage_touches s w.src p
    have wrote := writeReg_takes took [] (decide (bits w.val 3 0 ≠ 3))
    rw [applyWrite_acts irq med, idle, State.storeReg, if_neg stores, touched] at wrote
    exact ⟨_, congrArg Host.Outcome.next wrote, fun d => reg_setReg _ _ _ _ d, rfl, rfl, rfl⟩
  case silent =>
    cases reserved : s.reservedIn space (off.toNat / 4 * 4) with
    | none => simp [exec, execReservedAccess, reserved]
    | some x => simp [exec, execReservedAccess, reserved]
  case early => exact congrArg Host.Outcome.next (if_pos (by simp [level]))
  case empty => exact exec_reservedAccess_counts level vf opened reserved true
  case tail =>
    have accepted := doorbellFault_of_lt_depth (head := false) done enabled within
    rw [if_neg (by decide), if_neg (Nat.not_lt.mpr room)] at accepted
    rw [exec_submissionTailDoorbell routed, doorbell_of_reserved accepted rsv]
    cases v <;> rfl
  case head =>
    have accepted := doorbellFault_of_lt_depth (head := true) done enabled within
    rw [if_pos rfl, if_neg (Nat.not_lt.mpr written)] at accepted
    rw [exec_completionHeadDoorbell routed, doorbell_of_reserved accepted rsv]
    cases v <;> rfl

end Sys2Proof.Machine
end

section
/-!
PROOFS. Tenant control, tenant resets and features (05 R129 to R134; 07 R181, R183, R219 to R222). A write of TNT_CTRL locks, then moves
queue pair 0, then resets; the end of a reset is followed through the few fields it leaves in the tenant.
-/
namespace Sys2Proof.Machine

/-! ## A write to a tenant's page -/

theorem pTNT_ne_of_block {p : Page} (block : tenantOfPage p = none) (t : Tid) : pTNT t ≠ p := by
  rintro rfl
  rw [tenantOfPage_pTNT] at block
  cases block

/-- Below the header's own acting registers, and above, a write of a tenant page is the tenant's operation. -/
theorem act_of_tenant {off : Nat} (status : off ≠ 0x030) (enable : off ≠ 0x034) (force : off ≠ 0x038) (lock : off ≠ 0x0F0) (s : State) (t : Tid)
    (v : Word) (data : List Byte) (failed : Bool) : s.act (pTNT t) off v data failed = s.actTnt t off v := by
  unfold State.act
  split
  · exact absurd rfl status
  · exact absurd rfl enable
  · exact absurd rfl force
  · exact absurd rfl lock
  · rw [tenantOfPage_pTNT]

theorem writeReg_tenant {s : State} {t : Tid} {off : Nat} {w : Wr} {r : Reg} (took : s.takes (pTNT t) off w r) (status : off ≠ 0x030)
    (enable : off ≠ 0x034) (force : off ≠ 0x038) (lock : off ≠ 0x0F0) (data : List Byte) (failed : Bool) :
    ∃ l m k, s.writeReg (pTNT t) off w data failed =
      { State.actTnt { s with pcie := l, pwr := m } t off (w.val &&& r.writable) with regs := k } := by
  obtain ⟨l, m, k, wrote⟩ := writeReg_acts took (pTNT_ne_of_block (by decide) t) (pTNT_ne_of_block (by decide) t) data failed
  rw [act_of_tenant status enable force lock] at wrote
  exact ⟨l, m, k, wrote⟩

/-! ## TNT_CTRL -/

/-- One tenant's queue pairs may have changed, and nothing else of any tenant. -/
def QueuesOnly (s u : State) (t : Tid) : Prop := (∃ q, u.tnt[t] = { s.tnt[t] with qps := q }) ∧ ∀ x : Tid, x ≠ t → u.tnt[x] = s.tnt[x]

theorem QueuesOnly.of_tnt {s u : State} (t : Tid) (same : u.tnt = s.tnt) : QueuesOnly s u t := by
  unfold QueuesOnly
  rw [same]
  exact ⟨⟨_, rfl⟩, fun _ _ => rfl⟩

theorem QueuesOnly.trans {s u v : State} {t : Tid} (h : QueuesOnly s u t) (g : QueuesOnly u v t) : QueuesOnly s v t := by
  obtain ⟨⟨q, same⟩, others⟩ := h
  obtain ⟨⟨p, same'⟩, others'⟩ := g
  exact ⟨⟨p, by rw [same', same]⟩, fun x other => (others' x other).trans (others x other)⟩

theorem queuesOnly_updQp (s : State) (t : Tid) (q : Qid) (f : Qp → Qp) : QueuesOnly s (s.updQp t q f) t :=
  ⟨⟨_, updTnt_same s t (fun x => { x with qps := x.qps.set q (f x.qps[q]) })⟩, fun _ other => updQp_tnt_other s q f other⟩

theorem queuesOnly_createQp (s : State) (t : Tid) (q : Qid) (depth : Nat) (sq cq : DWord) (vec : Nat) :
    QueuesOnly s (s.createQp t q depth sq cq vec) t := by
  obtain ⟨tnt, -, -, -, -⟩ := createQp_changes s t q depth sq cq vec
  exact (queuesOnly_updQp s t q (fun _ => Qp.created depth sq cq)).trans (.of_tnt t tnt)

theorem queuesOnly_removeDrained (s : State) (t : Tid) (q : Qid) (abort : Bool) :
    QueuesOnly s ((s.drainQp t q abort).removeDrained t q) t := by
  have drained : QueuesOnly s (s.drainQp t q abort) t := (queuesOnly_updQp s t q _).trans (.of_tnt t (drainQp_tnt s t q abort))
  obtain left | removed := removeDrained_tnt (s.drainQp t q abort) t q
  · exact drained.trans (.of_tnt t left)
  · exact drained.trans ((queuesOnly_updQp (s.drainQp t q abort) t q (fun _ => Qp.reset)).trans (.of_tnt t removed))

/-- TNT_CTRL's lock (R133). -/
def State.ctrlLocked (s : State) (t : Tid) (v : Word) : State :=
  if v.getLsbD 1 && t ≠ 0 then s.updTnt t (fun y => { y with featLock := true }) else s

/-- TNT_CTRL's queue pair 0, once the lock is set (R183). -/
def State.ctrlQueued (s : State) (t : Tid) (v : Word) : State :=
  if v.getLsbD 2 && !((s.tnt[t]).qp 0).enabled then
    (s.ctrlLocked t v).createQp t 0 (s.tnt[t]).depth.toNat (s.tnt[t]).sqBase (s.tnt[t]).cqBase (s.defaultVec t 0)
  else if !v.getLsbD 2 && ((s.tnt[t]).qp 0).enabled then ((s.ctrlLocked t v).drainQp t 0 false).removeDrained t 0
  else s.ctrlLocked t v

theorem tntCtrl_eq (s : State) (t : Tid) (v : Word) :
    s.tntCtrl t v = if v.getLsbD 0 then (s.ctrlQueued t v).tenantReset t else s.ctrlQueued t v := rfl

theorem queuesOnly_ctrlQueued (s : State) (t : Tid) (v : Word) : QueuesOnly (s.ctrlLocked t v) (s.ctrlQueued t v) t := by
  unfold State.ctrlQueued
  split
  · exact queuesOnly_createQp _ t 0 _ _ _ _
  · split
    · exact queuesOnly_removeDrained _ t 0 false
    · exact .of_tnt t rfl

/-- The lock leaves the features, the reset and the waiting changes of the tenant, and the other tenants. -/
theorem ctrlLocked_tnt (s : State) (t : Tid) (v : Word) : (∃ b, (s.ctrlLocked t v).tnt[t] = { s.tnt[t] with featLock := b }) ∧
    (∀ x : Tid, x ≠ t → (s.ctrlLocked t v).tnt[x] = s.tnt[x]) := by
  unfold State.ctrlLocked
  split
  · exact ⟨⟨true, updTnt_same s t (fun y => { y with featLock := true })⟩, fun x other => updTnt_other s _ other⟩
  · exact ⟨⟨(s.tnt[t]).featLock, rfl⟩, fun _ _ => rfl⟩

/-! ## Packets that are sent -/

/-- Sending changes the ports, what has been sent, and the link's idle time. -/
def Transmits (s t : State) : Prop := ∃ v o l, t = { s with vfl := v, outbox := o, pcie := l }

theorem Transmits.rfl' (s : State) : Transmits s s := ⟨s.vfl, s.outbox, s.pcie, rfl⟩

theorem Transmits.trans {s t u : State} (h : Transmits s t) (g : Transmits t u) : Transmits s u := by
  obtain ⟨_, _, _, rfl⟩ := h
  obtain ⟨v, o, l, rfl⟩ := g
  exact ⟨v, o, l, rfl⟩

theorem Transmits.foldl {α : Type} {f : State → α → State} (each : ∀ a x, Transmits a (f a x)) (l : List α) (s : State) :
    Transmits s (l.foldl f s) := by
  induction l generalizing s with
  | nil => exact .rfl' s
  | cons x r ih => exact (each s x).trans (ih _)

theorem Transmits.tnt {s t : State} (h : Transmits s t) : t.tnt = s.tnt := by
  obtain ⟨_, _, _, rfl⟩ := h
  rfl

theorem transmits_sendOne {s t : State} {port : Fin 4} (sent : s.sendOne port = some t) : Transmits s t := by
  unfold State.sendOne at sent
  split at sent
  · cases sent
  · cases sent
    exact ⟨_, _, _, rfl⟩

theorem transmits_drainPort (s : State) (port : Fin 4) (n : Nat) : Transmits s (s.drainPort port n) := by
  induction n generalizing s with
  | zero => exact .rfl' s
  | succ k ih =>
    unfold State.drainPort
    split
    · next t sent => exact (transmits_sendOne sent).trans (ih t)
    · exact .rfl' s

theorem transmits_sendOn (s : State) (port : Fin 4) (p : OutPkt) : Transmits s (s.sendOn port p) := by
  have put : Transmits s (s.updVfl port (fun y => { y with txq := y.txq ++ [p] })) := ⟨_, s.outbox, s.pcie, rfl⟩
  exact put.trans (transmits_drainPort _ port _)

theorem transmits_sendPkt (s : State) (p : OutPkt) : Transmits s (s.sendPkt p) := by
  unfold State.sendPkt
  split
  · exact transmits_sendOn s _ p
  · exact .rfl' s

theorem transmits_sendLong (s : State) (p : OutPkt) : Transmits s (s.sendLong p) := .foldl (fun a _ => transmits_sendPkt a _) _ s

theorem transmits_mirSend (s : State) (type : Byte) (vc : Fin 3) (t : Tid) (payload : List Byte) :
    Transmits s (s.mirSend type vc t payload) := transmits_sendLong s _

theorem transmits_ite {a u : State} {b : Bool} (sent : Transmits a u) : Transmits a (if b then u else a) := by
  cases b with
  | true => exact sent
  | false => exact .rfl' a

theorem transmits_withdraw (s : State) (t : Tid) (lowest : Nat) (again : List (Nat × AppRec)) :
    Transmits s (s.withdraw t lowest again) := by
  unfold State.withdraw
  split
  · exact (transmits_mirSend s 0x24 1 t _).trans (.foldl (fun a p => transmits_ite (transmits_mirSend a 0x21 1 t _)) again _)
  · exact .rfl' s

/-! ## A reset begins -/

theorem dropAppends_tnt (s : State) (t : Tid) (gone : Nat → AppRec → Bool) : (s.dropAppends t gone).tnt = s.tnt := by
  have discarded : (s.discardAppends t gone).tnt = s.tnt := by
    unfold State.discardAppends
    dsimp only
    split
    · rfl
    · exact (transmits_withdraw ..).tnt
  exact discarded

theorem undoOpen_tnt (s : State) (cs : List Cmd) : (s.undoOpen cs).tnt = s.tnt := by
  refine foldl_same (part := State.tnt) (fun a c => ?_) cs s
  split <;> rfl

theorem dropEntries_tnt (s : State) (fn : Fn) (n : Nat) : (s.dropEntries fn n).tnt = s.tnt := by
  unfold State.dropEntries
  split <;> rfl

/-- A reset that begins moves the tenant to its next epoch and drops the loads that wait (R219, R220). -/
theorem tenantReset_tnt {s : State} {t : Tid} (done : (s.tnt[t]).resetDone = true) : (s.tenantReset t).tnt[t] =
    { s.tnt[t] with
      epoch := (s.tnt[t]).epoch + 1, resetDone := false,
      keyWait := (s.tnt[t]).keyWait.filter (fun k => match k with | .clear _ _ _ => true | _ => false) } := by
  have same (n : Nat) (cs : List Cmd) :
      (((s.dropAppends t (fun _ e => !e.acked)).dropEntries (s.tenantFn t) n).undoOpen cs).tnt = s.tnt := by
    rw [undoOpen_tnt, dropEntries_tnt, dropAppends_tnt]
  unfold State.tenantReset
  rw [done, if_neg (by decide)]
  dsimp only [State.lapseNonces]
  rw [updTnt_same, same] <;> rfl

theorem exec_tenantReset_begins {s : State} {t : Tid} {w : Wr} {r : Reg} (took : s.takes (pTNT t) 0x020 w r)
    (reset : (w.val &&& r.writable).getLsbD 0 = true) :
    ∃ u, exec (.tenantReset t w) s = .next u ∧ (u.tnt[t]).resetDone = false ∧ (u.tnt[t]).epoch = (s.tnt[t]).epoch + 1 ∧
      (u.tnt[t]).keyWait = (s.tnt[t]).keyWait.filter (fun k => match k with | .clear _ _ _ => true | _ => false) := by
  have done : (s.tnt[t]).resetDone = true := by
    obtain ⟨-, -, -, settled, -⟩ := took
    obtain ⟨l, m, touched⟩ := touchPage_touches s w.src (pTNT t)
    simpa [State.resettingPage, touched] using settled
  obtain ⟨l, m, k, wrote⟩ := writeReg_tenant took (by decide) (by decide) (by decide) (by decide) [] (decide (bits w.val 3 0 ≠ 3))
  refine ⟨_, congrArg Host.Outcome.next wrote, ?_⟩
  have acted : State.actTnt { s with pcie := l, pwr := m } t 0x020 (w.val &&& r.writable) =
      (State.ctrlQueued { s with pcie := l, pwr := m } t (w.val &&& r.writable)).tenantReset t := if_pos reset
  rw [acted]
  obtain ⟨⟨b, locked⟩, -⟩ := ctrlLocked_tnt { s with pcie := l, pwr := m } t (w.val &&& r.writable)
  obtain ⟨⟨q, queued⟩, -⟩ := queuesOnly_ctrlQueued { s with pcie := l, pwr := m } t (w.val &&& r.writable)
  rw [locked] at queued
  generalize State.ctrlQueued { s with pcie := l, pwr := m } t (w.val &&& r.writable) = a at queued
  have began := tenantReset_tnt (s := a) (t := t) (by rw [queued]; exact done)
  rw [queued] at began
  exact ⟨congrArg Tenant.resetDone began, congrArg Tenant.epoch began, congrArg Tenant.keyWait began⟩

theorem exec_aqEnable_creates {s : State} {t : Tid} {w : Wr} {r : Reg} (took : s.takes (pTNT t) 0x020 w r)
    (noReset : (w.val &&& r.writable).getLsbD 0 = false) (enables : (w.val &&& r.writable).getLsbD 2 = true)
    (off : ((s.tnt[t]).qp 0).enabled = false) :
    ∃ u, exec (.aqEnable t w) s = .next u ∧
      (u.tnt[t]).qp 0 = Qp.created (s.tnt[t]).depth.toNat (s.tnt[t]).sqBase (s.tnt[t]).cqBase ∧
      (u.troutes[trouteIx t 0]).valid = true ∧ (∀ x : Tid, x ≠ t → u.tnt[x] = s.tnt[x]) := by
  obtain ⟨l, m, k, wrote⟩ := writeReg_tenant took (by decide) (by decide) (by decide) (by decide) [] (decide (bits w.val 3 0 ≠ 3))
  refine ⟨_, congrArg Host.Outcome.next wrote, ?_⟩
  have acted : State.actTnt { s with pcie := l, pwr := m } t 0x020 (w.val &&& r.writable) =
      (State.ctrlLocked { s with pcie := l, pwr := m } t (w.val &&& r.writable)).createQp t 0 (s.tnt[t]).depth.toNat
        (s.tnt[t]).sqBase (s.tnt[t]).cqBase (State.defaultVec { s with pcie := l, pwr := m } t 0) := by
    refine (tntCtrl_eq _ t _).trans ((if_neg (by rw [noReset]; decide)).trans (if_pos ?_))
    rw [enables]
    exact (congrArg (fun b => true && !b) off).trans rfl
  rw [acted]
  obtain ⟨-, others⟩ := ctrlLocked_tnt { s with pcie := l, pwr := m } t (w.val &&& r.writable)
  generalize State.ctrlLocked { s with pcie := l, pwr := m } t (w.val &&& r.writable) = a at others
  obtain ⟨tnt, troutes, -⟩ := createQp_changes a t 0 (s.tnt[t]).depth.toNat (s.tnt[t]).sqBase (s.tnt[t]).cqBase
    (State.defaultVec { s with pcie := l, pwr := m } t 0)
  generalize State.createQp a t 0 (s.tnt[t]).depth.toNat (s.tnt[t]).sqBase (s.tnt[t]).cqBase
    (State.defaultVec { s with pcie := l, pwr := m } t 0) = b at tnt troutes
  refine ⟨?_, ?_, fun x other => ?_⟩
  · show ((b.tnt[t]).qp 0) = _
    rw [tnt, updQp_qp]
  · show (b.troutes[trouteIx t 0]).valid = true
    rw [troutes]
    simp
  · show b.tnt[x] = _
    rw [tnt, updQp_tnt_other a 0 _ other]
    exact others x other

theorem exec_tntCtrlFeatLock_locks {s : State} {t : Tid} {w : Wr} {r : Reg} (took : s.takes (pTNT t) 0x020 w r)
    (noReset : (w.val &&& r.writable).getLsbD 0 = false) (locks : (w.val &&& r.writable).getLsbD 1 = true) (other : t ≠ 0) :
    ∃ u, exec (.tntCtrlFeatLock t w) s = .next u ∧ (u.tnt[t]).featLock = true ∧ (u.tnt[t]).accept = (s.tnt[t]).accept ∧
      (∀ x : Tid, x ≠ t → u.tnt[x] = s.tnt[x]) := by
  obtain ⟨l, m, k, wrote⟩ := writeReg_tenant took (by decide) (by decide) (by decide) (by decide) [] (decide (bits w.val 3 0 ≠ 3))
  refine ⟨_, congrArg Host.Outcome.next wrote, ?_⟩
  have acted : State.actTnt { s with pcie := l, pwr := m } t 0x020 (w.val &&& r.writable) =
      State.ctrlQueued { s with pcie := l, pwr := m } t (w.val &&& r.writable) := if_neg (by rw [noReset]; decide)
  have locked : State.ctrlLocked { s with pcie := l, pwr := m } t (w.val &&& r.writable) =
      State.updTnt { s with pcie := l, pwr := m } t (fun y => { y with featLock := true }) := if_pos (by rw [locks]; simp [other])
  rw [acted]
  obtain ⟨⟨q, queued⟩, others⟩ := queuesOnly_ctrlQueued { s with pcie := l, pwr := m } t (w.val &&& r.writable)
  rw [locked] at queued others
  generalize State.ctrlQueued { s with pcie := l, pwr := m } t (w.val &&& r.writable) = a at queued others
  rw [updTnt_same] at queued
  have lock : (a.tnt[t]).featLock = true := by rw [queued]
  have accept : (a.tnt[t]).accept = (s.tnt[t]).accept := by rw [queued]
  exact ⟨lock, accept, fun x apart => (others x apart).trans (updTnt_other _ _ apart)⟩

theorem exec_tntHoldMinutes_holds {s : State} {t : Tid} {w : Wr} {r : Reg} (took : s.takes (pTNT t) 0x154 w r) :
    ∃ u, exec (.tntHoldMinutes t w) s = .next u ∧ (u.tnt[t]).holdMin = (w.val &&& r.writable).toNat ∧ u.hdr = s.hdr ∧
      (u.nvm.holdMin.find t.1).map (fun x => x.1) = some (w.val &&& r.writable).toNat := by
  obtain ⟨l, m, k, wrote⟩ := writeReg_tenant took (by decide) (by decide) (by decide) (by decide) [] (decide (bits w.val 3 0 ≠ 3))
  refine ⟨_, congrArg Host.Outcome.next wrote, ?_, rfl, ?_⟩
  · exact congrArg Tenant.holdMin (updTnt_same { s with pcie := l, pwr := m } t
      (fun x => { x with holdMin := (w.val &&& r.writable).toNat }))
  · show Option.map (fun x : Nat × Nat => x.1) (KMap.find (KMap.put _ _ _) t.1) = _
    rw [KMap.find_put_same]
    rfl

/-! ## A reset ends -/

/-- What the end of a reset settles of a tenant, and the zones it leaves. -/
def State.resetView (s : State) (t : Tid) : Bool × Byte × Vector Qp 8 × Bool × Word × KMap Zone :=
  ((s.tnt[t]).resetDone, (s.tnt[t]).epoch, (s.tnt[t]).qps, (s.tnt[t]).featLock, (s.tnt[t]).accept, s.nvm.zones)

theorem resetView_congr {s u : State} (t : Tid) (tnt : u.tnt = s.tnt) (zones : u.nvm.zones = s.nvm.zones) : u.resetView t = s.resetView t := by
  unfold State.resetView
  rw [tnt, zones]

theorem resetView_raiseTnt (s : State) (t x : Tid) (b : Nat) : (s.raiseTnt x b).resetView t = s.resetView t := by
  unfold State.resetView
  rw [State.raiseTnt_nvm]
  unfold State.raiseTnt
  rw [raise_tnt_resetDone, raise_tnt_epoch, raise_tnt_qps, raise_tnt_featLock, raise_tnt_accept]

theorem resetView_loadKey (s : State) (t : Tid) (k : Unwrapped) : (s.loadKey t k).resetView t = s.resetView t := by
  cases k with
  | xts k id => simp only [State.loadKey, State.resetView, updTnt_same, State.updTnt_nvm]
  | gcm k id => simp only [State.loadKey, State.resetView, updTnt_same, State.updTnt_nvm]
  | badField rc => rfl
  | auth => rfl

theorem resetView_reloadKeys (s : State) (t : Tid) : (s.reloadKeys t).resetView t = s.resetView t := by
  have one (d : Hash) (a : State) (m : KMap (List Byte)) : State.resetView
      (match m.find t.1 with | some b => a.loadKey t (unwrapKey d t b) | none => a) t = a.resetView t := by
    split
    · exact resetView_loadKey a t _
    · rfl
  unfold State.reloadKeys
  split
  · rfl
  · exact (one _ _ _).trans (one _ _ _)

theorem resetView_updInta (s : State) (t : Tid) : s.updInta.resetView t = s.resetView t := by
  obtain ⟨_, _, sent⟩ := sends_updInta s
  rw [sent]
  rfl

theorem freeBuf_tnt (s : State) (h : Nat) : (s.freeBuf h).tnt = s.tnt := by
  unfold State.freeBuf
  split
  · rfl
  · split <;> rfl

/-- The changes of a key page that wait fall away with no effect on tenants or zones. -/
theorem dropWaiting_same (s : State) (t : Tid) (l : List KeyChange) :
    (l.foldl (fun (a : State) k => match k with | .clear x g _ => a.dropPersisted t x g | _ => a) s).tnt = s.tnt ∧
    (l.foldl (fun (a : State) k => match k with | .clear x g _ => a.dropPersisted t x g | _ => a) s).nvm.zones = s.nvm.zones :=
  ⟨foldl_same (part := State.tnt) (fun a k => by cases k <;> rfl) l s,
    foldl_same (part := fun x => x.nvm.zones) (fun a k => by cases k <;> rfl) l s⟩

/-- The tenant before RESET_DONE rises (R219 steps 4 to 6). -/
theorem cleared_view (a : State) (t : Tid) (hs : List Nat) (f : Tenant → Tenant)
    (clears : f = fun x => { x with qps := Vector.replicate 8 Qp.reset, accept := 0#32, featLock := false, featErr := false, rr := 7 }) :
    (((a.updTnt t (fun x => { x with keyWait := [] })).zeroise t).freeBufs hs |>.updTnt t f).resetView t =
      ((a.tnt[t]).resetDone, (a.tnt[t]).epoch, Vector.replicate 8 Qp.reset, false, 0#32, a.nvm.zones) := by
  have tnt := foldl_same (part := State.tnt) freeBuf_tnt hs ((a.updTnt t (fun x => { x with keyWait := [] })).zeroise t)
  have nvm := foldl_same (part := State.nvm) freeBuf_nvm hs ((a.updTnt t (fun x => { x with keyWait := [] })).zeroise t)
  unfold State.freeBufs
  generalize hs.foldl State.freeBuf ((a.updTnt t (fun x => { x with keyWait := [] })).zeroise t) = b at tnt nvm
  have zones : (b.updTnt t f).nvm.zones = a.nvm.zones := congrArg Nvm.zones nvm
  unfold State.resetView
  rw [zones, updTnt_same, tnt, clears, State.zeroise, updTnt_same, updTnt_same]

theorem finishReset_view (s : State) (t : Tid) : (s.finishReset t).resetView t =
    (true, (s.tnt[t]).epoch, Vector.replicate 8 Qp.reset, false, 0#32, s.nvm.zones) := by
  obtain ⟨tnt, zones⟩ := dropWaiting_same s t (s.tnt[t]).keyWait
  unfold State.finishReset
  dsimp only
  generalize (s.tnt[t]).keyWait.foldl (fun (a : State) k => match k with | .clear x g _ => a.dropPersisted t x g | _ => a) s = a at tnt zones
  have cleared := cleared_view a t ((a.updTnt t (fun x => { x with keyWait := [] })).discardedBufs t) _ rfl
  rw [tnt, zones] at cleared
  generalize (((a.updTnt t (fun x => { x with keyWait := [] })).zeroise t).freeBufs
    ((a.updTnt t (fun x => { x with keyWait := [] })).discardedBufs t)).updTnt t (fun x => { x with
      qps := Vector.replicate 8 Qp.reset, accept := 0#32, featLock := false, featErr := false, rr := 7 }) = b at cleared
  have settled (x : State) : x.settleFns.resetView t = x.resetView t := by
    unfold State.settleFns
    exact resetView_congr t rfl rfl
  rw [resetView_updInta, settled, resetView_raiseTnt, resetView_reloadKeys]
  have routed (m : Vector TRoute 512) : (({ b with troutes := m } : State).raiseTnt t 15).resetView t = b.resetView t :=
    (resetView_raiseTnt { b with troutes := m } t t 15).trans (resetView_congr (s := b) (u := { b with troutes := m }) t rfl rfl)
  have raised := (routed (Vector.ofFn (fun k : Fin 512 => if k.1 / 8 = t.1 then TRoute.reset else b.troutes[k]))).trans cleared
  generalize State.raiseTnt { b with troutes := Vector.ofFn (fun k : Fin 512 => if k.1 / 8 = t.1 then TRoute.reset else b.troutes[k]) } t 15 = c
    at raised
  simp only [State.resetView, Prod.mk.injEq] at raised
  obtain ⟨-, epoch, qps, lock, accept, zones'⟩ := raised
  unfold State.resetView
  rw [updTnt_same]
  dsimp only
  rw [epoch, qps, lock, accept, State.updTnt_nvm, zones']

theorem exec_tenantResetPipesDrained_ends {s : State} {t : Tid} (running : (s.tnt[t]).resetDone = false) (free : s.pipesFree t = true)
    (awake : s.awake = true) :
    ∃ u, exec (.tenantResetPipesDrained t) s = .next u ∧ (u.tnt[t]).resetDone = true ∧ (u.tnt[t]).epoch = (s.tnt[t]).epoch ∧
      (∀ q : Qid, (u.tnt[t]).qp q = Qp.reset) ∧ (u.tnt[t]).featLock = false ∧ (u.tnt[t]).accept = 0#32 ∧ u.nvm.zones = s.nvm.zones := by
  have ended := finishReset_view s t
  simp only [State.resetView, Prod.mk.injEq] at ended
  obtain ⟨done, epoch, qps, lock, accept, zones⟩ := ended
  refine ⟨s.finishReset t, congrArg Host.Outcome.next (if_pos (by rw [running, free, awake]; rfl)), done, epoch, fun q => ?_, lock, accept, zones⟩
  rw [Tenant.qp, qps]
  simp

/-! ## Features -/

theorem exec_devFeatAccept_accepts {s : State} {w : Wr} {r : Reg} (upper : Bool) (took : s.takes pDEV (if upper then 0x10C else 0x108) w r) :
    ∃ u, exec (.devFeatAccept upper w) s = .next u ∧ u.dev.featErr = false ∧
      (upper = false → u.dev.accept0 = w.val &&& r.writable ∧ u.dev.accept1 = s.dev.accept1) ∧
      (upper = true → u.dev.accept1 = w.val &&& r.writable ∧ u.dev.accept0 = s.dev.accept0) := by
  cases upper with
  | false =>
    obtain ⟨l, m, k, wrote⟩ := writeReg_block took (by decide) (by decide) (by decide) (by decide) [] (decide (bits w.val 3 0 ≠ 3))
    exact ⟨_, congrArg Host.Outcome.next wrote, rfl, fun _ => ⟨rfl, rfl⟩, nofun⟩
  | true =>
    obtain ⟨l, m, k, wrote⟩ := writeReg_block took (by decide) (by decide) (by decide) (by decide) [] (decide (bits w.val 3 0 ≠ 3))
    exact ⟨_, congrArg Host.Outcome.next wrote, rfl, nofun, fun _ => ⟨rfl, rfl⟩⟩

theorem exec_devCtrlFeatLock_locks {s : State} {w : Wr} {r : Reg} (took : s.takes pDEV 0x020 w r)
    (locks : (w.val &&& r.writable).getLsbD 0 = true) (opened : s.dev.featLock = false) :
    ∃ u, exec (.devCtrlFeatLock w) s = .next u ∧ u.dev.featLock = true ∧ u.dev.accept0 = s.dev.accept0 ∧
      ∀ t : Tid, u.tnt[t] = { s.tnt[t] with offer := offerTo s.dev.accept0 t s.tnt[t] } := by
  obtain ⟨l, m, k, wrote⟩ := writeReg_acts took (by decide) (by decide) [] (decide (bits w.val 3 0 ≠ 3))
  have acted : State.act { s with pcie := l, pwr := m } pDEV 0x020 (w.val &&& r.writable) [] (decide (bits w.val 3 0 ≠ 3)) =
      { s with
        pcie := l, pwr := m, dev := { s.dev with featLock := true },
        tnt := Vector.ofFn (fun t : Tid => { s.tnt[t] with offer := offerTo s.dev.accept0 t s.tnt[t] }) } :=
    (if_pos locks).trans (if_neg (by simp [opened]))
  rw [acted] at wrote
  exact ⟨_, congrArg Host.Outcome.next wrote, rfl, rfl, fun t => by simp⟩

theorem exec_tntFeatAccept_accepts {s : State} {t : Tid} {w : Wr} {r : Reg} (took : s.takes (pTNT t) 0x104 w r) :
    ∃ u, exec (.tntFeatAccept t w) s = .next u ∧
      u.tnt[t] = { s.tnt[t] with accept := w.val &&& r.writable, featErr := false } ∧ (∀ x : Tid, x ≠ t → u.tnt[x] = s.tnt[x]) := by
  obtain ⟨l, m, k, wrote⟩ := writeReg_tenant took (by decide) (by decide) (by decide) (by decide) [] (decide (bits w.val 3 0 ≠ 3))
  exact ⟨_, congrArg Host.Outcome.next wrote, updTnt_same { s with pcie := l, pwr := m } t
    (fun x => { x with accept := w.val &&& r.writable, featErr := false }),
    fun x other => updTnt_other { s with pcie := l, pwr := m } (fun x => { x with accept := w.val &&& r.writable, featErr := false }) other⟩

/-- A refused set of a locked device leaves the device's registers (R130). -/
theorem writeReg_featLocked {s : State} {w : Wr} {r : Reg} {a : Word} (reached : s.reach w.src pDEV 0x108 = .at_ a)
    (found : (s.touchPage w.src pDEV).regAt pDEV 0x108 = some r) (locked : s.dev.featLock = true) (data : List Byte) (failed : Bool) :
    (s.writeReg pDEV 0x108 w data failed).dev = s.dev := by
  obtain ⟨l, m, touched⟩ := touchPage_touches s w.src pDEV
  by_cases enabled : w.be = 0#4
  · rw [writeReg_of_disabled enabled]
  by_cases whole : w.be = 15#4
  · have register : r = { val := s.dev.accept0, rw := 0, rwl := 0, act := allOnes32 } := by
      rw [touched] at found
      exact (Option.some.inj found).symm
    have refused (vf : Bool) : (s.touchPage w.src pDEV).refusal pDEV vf 0x108 w.val = some eFEATURE := by
      rw [touched]
      exact if_pos (by simp [locked])
    have answered : s.writeReg pDEV 0x108 w data failed =
        ((s.touchPage w.src pDEV).countErr pDEV eFEATURE a).refused pDEV 0x108 eFEATURE := by
      rw [writeReg_of_found reached found whole (by rw [touched]; rfl)]
      unfold State.writeHere
      rw [register]
      simp [Reg.writable, allOnes32, refused]
    have kept (x : State) (same : x.dev = s.dev) : (x.refused pDEV 0x108 eFEATURE).dev = s.dev := by
      have closed : x.dev.featLock = true := by rw [same, locked]
      unfold State.refused
      rw [show tenantOfPage pDEV = none from rfl]
      dsimp only
      rw [if_neg (by simp [closed]), if_neg (by decide), if_neg (by decide), same]
    rw [answered]
    refine kept _ ?_
    rw [State.countErr_dev, touched]
  · rw [writeReg_of_partial reached enabled found whole, State.countErr_dev, touched]

/-- Settles O30: TNT_CTRL and the hold minutes, the end of a reset, and the features. -/
theorem tenantsResetAndNegotiate : Obligations.TenantsResetAndNegotiate := by
  unfold Obligations.TenantsResetAndNegotiate
  refine ⟨fun s t w r => ⟨fun took reset => ?begins, exec_aqEnable_creates, exec_tntCtrlFeatLock_locks, exec_tntHoldMinutes_holds⟩,
    fun s t running => ⟨fun busy => ?waits, exec_tenantResetPipesDrained_ends running⟩,
    fun s w r => ⟨exec_devFeatAccept_accepts, exec_devCtrlFeatLock_locks, fun t => exec_tntFeatAccept_accepts,
      fun a reached found locked => ⟨_, rfl, writeReg_featLocked reached found locked _ _⟩⟩⟩
  case begins =>
    obtain ⟨u, step, done, epoch, waiting⟩ := exec_tenantReset_begins took reset
    exact ⟨u, step, done, epoch, waiting⟩
  case waits => exact congrArg Host.Outcome.next (if_neg (by rw [busy]; simp))

end Sys2Proof.Machine
end

section
/-!
PROOFS. The interrupt registers (05 R138 to R143). The media page alone has status bits that follow its state: a write to any of its
registers looks for superblocks that have passed a threshold, comparing each listed one with the first entry under its key. A table that
lists a key twice, which no run of the model reaches but a state may hold, so makes the write of INT_STATUS itself set a bit.
-/
namespace Sys2Proof.Machine

/-- A superblock in SLC use, of an age. -/
def agedSb (age : Nat) : Superblock :=
  { group := 0, blocks := [], use := .slc, stream := 0, open_ := false, slots := 1, pieces := [], reads := [], age := age, listed := false,
    scrubbed := 0, scrubRow := 0, parity := 0, unmapped := false, seq := 0 }

/-- In operation at GUST, with PF0's registers open, and a superblock table with two entries under one key: the first new, the second
past its age by more than 10 %. -/
def twiceListed : State :=
  { State.reset with
    pins := { Pins.reset with resetIn := true }
    clk := { ClkS.reset with pllLock := true }
    dev := { DevS.reset with level := .gust }
    boot := { BootS.reset with desc := some (parseDesc []) }
    pcie := { State.reset.pcie with fns := Vector.replicate 64 { FnS.reset with mse := true } }
    nvm := { State.reset.nvm with sbs := [(0, agedSb 0), (0, agedSb 10000000000)] } }

/-- A write of 0 with all bytes enabled. -/
def writesZero : Wr := { src := .pf0, be := 15#4, val := 0#32 }

/-- MED_INT_STATUS with no bit set. -/
def medStatus : Reg := { val := 0#32, rw := 0#32, rwl := 0#32, act := intMask pMED }

theorem twiceListed_takes : twiceListed.takes pMED 0x030 writesZero medStatus := by
  unfold State.takes
  refine ⟨⟨errAddr (4096 * pMED.1 + 0x030) 0 0, ?_⟩, ?_, rfl, ?_, ?_, ?_, ?_, ?_⟩ <;> decide +kernel

/-- The write sets REFRESH_BACKLOG. -/
theorem twiceListed_backlog : (match exec (.intStatusW1c pMED writesZero) twiceListed with
    | .next u => u.hdr[pMED].intStatus
    | _ => 0#32) = 0x10#32 := by decide +kernel

/-- Refutes O31: MED_INT_STATUS written with 0 sets its bit 4 in a state whose superblock table lists a key twice. -/
theorem not_interruptRegistersAct : ¬ Obligations.InterruptRegistersAct := by
  unfold Obligations.InterruptRegistersAct
  intro holds
  obtain ⟨cleared, -⟩ := holds twiceListed pMED writesZero medStatus
  obtain ⟨u, step, status, -⟩ := cleared twiceListed_takes
  have backlog := twiceListed_backlog
  rw [step] at backlog
  have none : twiceListed.hdr[pMED].intStatus &&& ~~~ (writesZero.val &&& medStatus.writable) = 0#32 := by decide +kernel
  rw [none] at status
  exact absurd (status.symm.trans backlog) (by decide)

end Sys2Proof.Machine
end

section
/-!
PROOFS. ROM recovery (04 R109 to R114). What a session does is said once for both transports: how it opens, takes bytes, fails and
finishes. The mailbox reaches it through UPD_RCV_CTRL, the SPI target through a frame whose CRC checks.
-/
namespace Sys2Proof.Machine

/-! ## A reset keeps what OTP and NOR hold -/

theorem dropPartials_boot (l : List Import) (n : Nvm) : (l.foldl Nvm.dropPartial n).nor = n.nor ∧
    (l.foldl Nvm.dropPartial n).boardHash = n.boardHash := by
  induction l generalizing n with
  | nil => exact ⟨rfl, rfl⟩
  | cons i r ih => exact ih (n.dropPartial i)

/-- A chip reset ends the session and the level, and keeps NOR and OTP. -/
theorem restart_keeps (s : State) : s.restart.nvm.nor = s.nvm.nor ∧ s.restart.nvm.boardHash = s.nvm.boardHash ∧
    s.restart.upd.session = none ∧ s.restart.dev.level = .none ∧ s.restart.dev.romRecovery = false := by
  obtain ⟨nor, hash⟩ := dropPartials_boot s.vfr.imports s.nvm
  unfold State.restart
  dsimp only
  split
  · exact ⟨nor, hash, rfl, rfl, rfl⟩
  · exact ⟨nor, hash, rfl, rfl, rfl⟩

/-! ## Sessions -/

section Session
variable {s : State} {x : RcvSession}

/-- An error ends the session with its code (R113). -/
theorem rcvFail_ends (s : State) (err : Byte) : (s.rcvFail err).upd = { s.upd with session := none, rcvStatus := 5, rcvError := err } ∧
    (s.rcvFail err).bit pUPD 3 = true ∧ (s.rcvFail err).nvm = s.nvm ∧ (s.rcvFail err).dev = s.dev := by
  unfold State.rcvFail
  exact ⟨State.raise_upd _ _ _, raise_bit _ pUPD 3 (by decide) (by decide) (by decide), State.raise_nvm _ _ _, State.raise_dev _ _ _⟩

theorem rcvStart_opens (spi : Bool) {target total : Nat} (free : s.upd.session = none) (exists_ : target ≤ 4) (some_ : 0 < total)
    (fits : total ≤ rcvSize target) (record : target = 4 → total = 160) : s.rcvStart spi target total = { s with upd := { s.upd with
      session := some { spi := spi, target := target, total := total, data := [] }, rcvStatus := 1, rcvError := 0 } } := by
  have ok : ¬ (4 < target || total = 0 || decide (rcvSize target < total) || (target = 4 && total ≠ 160)) = true := by
    simp [Nat.not_lt.mpr exists_, some_.ne', Nat.not_lt.mpr fits]
    exact record
  unfold State.rcvStart State.rcvStart.start
  rw [free]
  dsimp only
  rw [if_neg ok]
  rfl

/-- A START while the other transport owns the session leaves it (R113). -/
theorem rcvStart_busy {spi : Bool} (target total : Nat) (owned : s.upd.session = some x) (other : x.spi ≠ spi) :
    s.rcvStart spi target total = s.rcvBusy := by
  unfold State.rcvStart
  rw [owned]
  exact if_pos other

theorem rcvBusy_keeps (s : State) : s.rcvBusy.upd.session = s.upd.session ∧ s.rcvBusy.nvm = s.nvm ∧ s.rcvBusy.dev = s.dev := by
  unfold State.rcvBusy
  rw [State.raise_upd, State.raise_nvm, State.raise_dev]
  exact ⟨rfl, rfl, rfl⟩

theorem rcvOwn_of_session {spi : Bool} (owned : s.upd.session = some x) (mine : x.spi = spi) : s.rcvOwn spi = some x := by
  simp [State.rcvOwn, owned, mine]

/-- Bytes at the offset the session has reached join its data (R111). -/
theorem rcvBytes_adds {off : Nat} {b : List Byte} (next : off = x.data.length) (fits : off + b.length ≤ x.total) :
    (s.rcvBytes x off b).upd = { s.upd with session := some { x with data := x.data ++ b }, rcvStatus := 3, rcvError := 0 } ∧
    (s.rcvBytes x off b).bit pUPD 2 = true ∧ (s.rcvBytes x off b).nvm = s.nvm ∧ (s.rcvBytes x off b).dev = s.dev := by
  have ok : ¬ (off ≠ x.data.length || decide (x.total < off + b.length)) = true := by
    simp only [next, ne_eq, not_true_eq_false, decide_false, Bool.false_or, decide_eq_true_eq, not_lt]
    exact next ▸ fits
  unfold State.rcvBytes
  rw [if_neg ok]
  exact ⟨State.raise_upd _ _ _, raise_bit _ pUPD 2 (by decide) (by decide) (by decide), State.raise_nvm _ _ _, State.raise_dev _ _ _⟩

theorem rcvFinish_cut (cut : x.data.length ≠ x.total) (otpGood : Bool) : s.rcvFinish x otpGood = s.rcvFail 0x04 := by
  unfold State.rcvFinish
  exact if_pos (by simp [cut])

/-- A whole good object is written, and the chip starts again (R109). -/
theorem rcvFinish_writes {otpGood : Bool} (whole : x.data.length = x.total) (good : s.rcvOk x.target x.data = true)
    (fused : x.target ≠ 4 ∨ s.nvm.boardHash.isSome = true ∨ otpGood = true) :
    (s.rcvFinish x otpGood).upd.session = none ∧ (s.rcvFinish x otpGood).dev.level = .none ∧
    (s.rcvFinish x otpGood).nvm.nor = (s.rcvWrite x.target x.data).nvm.nor ∧
    (s.rcvFinish x otpGood).nvm.boardHash = (s.rcvWrite x.target x.data).nvm.boardHash ∧
    (s.rcvFinish x otpGood).dev.romRecovery = false := by
  have passes : ¬ (x.data.length ≠ x.total || !s.rcvOk x.target x.data) = true := by simp [whole, good]
  have fuses : ¬ (x.target = 4 && s.nvm.boardHash.isNone && !otpGood) = true := by
    obtain other | known | reads := fused
    · simp [other]
    · simp [Option.isNone_eq_false_iff.mpr known]
    · simp [reads]
  have same := recordAs_unlogged ((s.rcvWrite x.target x.data).setRcv 4 0) true 0x2642 3 noTenant
    [if x.spi then 1 else 0, BitVec.ofNat 8 x.target]
  unfold State.rcvFinish
  rw [if_neg passes, if_neg fuses]
  obtain ⟨nor, hash, session, level, rom⟩ := restart_keeps (((s.rcvWrite x.target x.data).setRcv 4 0).recordAs true 0x2642 3 noTenant
    [if x.spi then 1 else 0, BitVec.ofNat 8 x.target])
  exact ⟨session, level, nor.trans (congrArg (fun u => u.nvm.nor) same), hash.trans (congrArg (fun u => u.nvm.boardHash) same), rom⟩

/-- A board key hash that does not read back ends the session with 0x04 and leaves the NOR (R110). -/
theorem rcvFinish_unfused (whole : x.data.length = x.total) (good : s.rcvOk x.target x.data = true) (key : x.target = 4)
    (unset : s.nvm.boardHash = none) : (s.rcvFinish x false).upd.session = none ∧ (s.rcvFinish x false).upd.rcvError = 4 ∧
    (s.rcvFinish x false).bit pUPD 3 = true ∧ (s.rcvFinish x false).nvm.nor = s.nvm.nor := by
  have passes : ¬ (x.data.length ≠ x.total || !s.rcvOk x.target x.data) = true := by simp [whole, good]
  unfold State.rcvFinish
  rw [if_neg passes, if_pos (by simp [key, unset])]
  obtain ⟨upd, bit, nvm, -⟩ := rcvFail_ends ({ s with nvm := { s.nvm with boardHash := some s.freeVal } } : State).drawn 0x04
  unfold State.otpFailed
  dsimp only
  generalize ({ s with nvm := { s.nvm with boardHash := some s.freeVal } } : State).drawn.rcvFail 0x04 = a at upd bit nvm
  have same := recordAs_unlogged a true (bitCode pUPD 3) 3 noTenant (leBytes 4 a.hdr[pUPD].intStatus.toNat)
  refine ⟨?_, ?_, recordAs_keeps _ _ _ _ _ _ _ _ bit, (congrArg (fun u => u.nvm.nor) same).trans (congrArg Nvm.nor nvm)⟩
  · rw [State.recordAs_upd, upd]
  · rw [State.recordAs_upd, upd]

/-- What goes to a target depends on no part of the link. -/
theorem rcvWrite_link (s : State) (l : PcieS) (target : Nat) (b : List Byte) :
    (State.rcvWrite { s with pcie := l } target b).nvm = (s.rcvWrite target b).nvm := by
  unfold State.rcvWrite
  split <;> rfl

end Session

/-! ## The mailbox -/

section Mailbox
variable {s : State} {x : RcvSession} {w : Wr} {r : Reg}

theorem touchPage_link {p : Page} (ungated : pageDomain p = none) (s : State) (src : Src) :
    ∃ l, s.touchPage src p = { s with pcie := l } ∧ l.fns = s.pcie.fns := by
  unfold State.touchPage
  rw [ungated]
  dsimp only
  split
  · exact ⟨s.pcie, rfl, rfl⟩
  · exact ⟨_, rfl, rfl⟩

/-- A write of UPD_RCV_CTRL acts on the touched state (R114). -/
theorem writeReg_rcv (took : s.takes pUPD 0x130 w r) (data : List Byte) (failed : Bool) :
    ∃ l k, s.touchPage w.src pUPD = { s with pcie := l } ∧ l.fns = s.pcie.fns ∧ s.writeReg pUPD 0x130 w data failed =
      { State.rcvCtrl { s with pcie := l } (w.val &&& r.writable) data failed with regs := k } := by
  obtain ⟨l, touched, fns⟩ := touchPage_link (p := pUPD) (by decide) s w.src
  have wrote := writeReg_takes took data failed
  rw [touched, applyWrite_acts (by decide) (by decide), act_of_block (by decide) (by decide)] at wrote
  obtain ⟨k, stored⟩ := storeReg_regs (State.actBlock { s with pcie := l } pUPD 0x130 (w.val &&& r.writable) data failed) pUPD 0x130 r
    (r.rw ||| r.rwl) w.val
  exact ⟨l, k, touched, fns, wrote.trans stored⟩

theorem rcvCtrl_start {v : Word} (cmd : bits v 3 0 = 1) (data : List Byte) (failed : Bool) : s.rcvCtrl v data failed = s.mailStart := by
  simp [State.rcvCtrl, cmd]

theorem rcvCtrl_chunk {v : Word} (cmd : bits v 3 0 = 2) (data : List Byte) (failed : Bool) :
    s.rcvCtrl v data failed = s.mailChunk data failed := by simp [State.rcvCtrl, cmd]

theorem rcvCtrl_finish {v : Word} (cmd : bits v 3 0 = 3) (own : s.rcvOwn false = some x) (data : List Byte) (failed : Bool) :
    s.rcvCtrl v data failed = s.rcvFinish x !failed := by simp [State.rcvCtrl, cmd, State.mailFinish, own]

theorem rcvCtrl_abort {v : Word} (cmd : bits v 3 0 = 4) (own : s.rcvOwn false = some x) (data : List Byte) (failed : Bool) :
    s.rcvCtrl v data failed = { s with upd := { s.upd with session := none, rcvStatus := 0, rcvError := 0 } } := by
  simp [State.rcvCtrl, cmd, State.mailAbort, own, State.setRcv]

theorem mailChunk_reads {data : List Byte} (own : s.rcvOwn false = some x) (bme : (s.pcie.fns[(0 : Fn)]).bme = true)
    (length : (s.reg pUPD 0x140 0#32).toNat = data.length) (some_ : 0 < data.length) (most : data.length ≤ 65536) :
    ∃ a, Sends s a ∧ s.mailChunk data false = a.rcvBytes x (s.reg pUPD 0x13C 0#32).toNat data := by
  unfold State.mailChunk
  rw [own]
  dsimp only
  rw [length, if_neg (by simp [List.ne_nil_of_length_pos some_, most]), if_neg (by rw [bme]; decide), if_neg (by simp)]
  exact ⟨_, .emit (.rfl' s) _, rfl⟩

theorem mailChunk_fails {data : List Byte} (own : s.rcvOwn false = some x) (bme : (s.pcie.fns[(0 : Fn)]).bme = true)
    (some_ : 0 < (s.reg pUPD 0x140 0#32).toNat) (most : (s.reg pUPD 0x140 0#32).toNat ≤ 65536) :
    ∃ a, Sends s a ∧ s.mailChunk data true = a.rcvFail 0x03 := by
  unfold State.mailChunk
  rw [own]
  dsimp only
  rw [if_neg (by simp [some_.ne', most]), if_neg (by rw [bme]; decide), if_pos (by simp)]
  exact ⟨_, .emit (.rfl' s) _, rfl⟩

end Mailbox

theorem exec_updRcvStart_opens {s : State} {w : Wr} {r : Reg} {k n : Nat} (took : s.takes pUPD 0x130 w r)
    (cmd : bits (w.val &&& r.writable) 3 0 = 1) (free : s.upd.session = none) (target : bits (s.reg pUPD 0x138 0#32) 2 0 = k)
    (exists_ : k ≤ 4) (length : (s.reg pUPD 0x140 0#32).toNat = n) (some_ : 0 < n) (fits : n ≤ rcvSize k) (record : k = 4 → n = 160) :
    ∃ u, exec (.updRcvStart w) s = .next u ∧ u.upd = { s.upd with
      session := some { spi := false, target := k, total := n, data := [] }, rcvStatus := 1, rcvError := 0 } ∧ u.nvm = s.nvm := by
  obtain ⟨l, regs, -, -, wrote⟩ := writeReg_rcv took [] (decide (bits w.val 3 0 ≠ 3))
  have opened : State.mailStart { s with pcie := l } = _ :=
    rcvStart_opens (s := { s with pcie := l }) false free (target.trans_le exists_) (length ▸ some_) (by
      show (s.reg pUPD 0x140 0#32).toNat ≤ rcvSize (bits (s.reg pUPD 0x138 0#32) 2 0)
      rw [length, target]; exact fits)
      (fun four => length.trans (record (target ▸ four)))
  rw [rcvCtrl_start cmd, opened] at wrote
  refine ⟨_, congrArg Host.Outcome.next wrote, ?_, rfl⟩
  rw [← target, ← length]
  rfl

/-- Settles O32: the mailbox's commands, each on the touched state. -/
theorem mailboxSessionsRun : Obligations.MailboxSessionsRun := by
  unfold Obligations.MailboxSessionsRun
  refine fun s w r took => ⟨fun k n cmd free target exists_ length some_ fits record =>
      exec_updRcvStart_opens took cmd free target exists_ length some_ fits record,
    fun x data cmd owned mine bme length some_ most next fits => ?chunk, fun x data cmd owned mine bme some_ most => ?chunkFails,
    fun x cmd owned mine => ⟨fun whole good => ⟨fun fused b => ?writes, fun key unset => ⟨?fuses, ?unfused⟩⟩, fun cut b => ?cut⟩,
    fun x cmd owned other => ?busy, fun x cmd owned mine => ?abort⟩
  case chunk =>
    obtain ⟨l, regs, -, fns, wrote⟩ := writeReg_rcv took data false
    obtain ⟨a, ⟨o, i, sent⟩, reads⟩ := mailChunk_reads (s := { s with pcie := l }) (data := data) (rcvOwn_of_session owned mine)
      (by rw [fns]; exact bme) length some_ most
    rw [rcvCtrl_chunk cmd, reads] at wrote
    obtain ⟨upd, bit, nvm, -⟩ := rcvBytes_adds (s := a) (b := data) next (by rw [next]; exact fits)
    rw [sent] at upd nvm
    exact ⟨_, congrArg Host.Outcome.next wrote, bit, by rw [sent]; exact nvm, by rw [sent]; exact upd⟩
  case chunkFails =>
    obtain ⟨l, regs, -, fns, wrote⟩ := writeReg_rcv took data true
    obtain ⟨a, ⟨o, i, sent⟩, reads⟩ := mailChunk_fails (s := { s with pcie := l }) (data := data) (rcvOwn_of_session owned mine)
      (by rw [fns]; exact bme) some_ most
    rw [rcvCtrl_chunk cmd, reads] at wrote
    obtain ⟨upd, bit, -⟩ := rcvFail_ends a 0x03
    rw [sent] at upd
    exact ⟨_, congrArg Host.Outcome.next wrote, bit, by rw [sent]; exact upd⟩
  case writes =>
    obtain ⟨l, regs, touched, -, wrote⟩ := writeReg_rcv took [] !b
    rw [touched] at good
    rw [rcvCtrl_finish (s := { s with pcie := l }) (x := x) cmd (rcvOwn_of_session owned mine), Bool.not_not] at wrote
    obtain ⟨session, level, nor, hash, -⟩ := rcvFinish_writes (otpGood := b) whole good
      (fused.elim .inl (fun known => .inr (.inl known)))
    have target := rcvWrite_link s l x.target x.data
    exact ⟨_, congrArg Host.Outcome.next wrote, session, level, nor.trans (congrArg Nvm.nor target),
      hash.trans (congrArg Nvm.boardHash target)⟩
  case fuses =>
    obtain ⟨l, regs, touched, -, wrote⟩ := writeReg_rcv took [] !true
    rw [touched] at good
    rw [rcvCtrl_finish (s := { s with pcie := l }) (x := x) cmd (rcvOwn_of_session owned mine), Bool.not_not] at wrote
    obtain ⟨session, level, -, hash, -⟩ := rcvFinish_writes (otpGood := true) whole good (.inr (.inr rfl))
    exact ⟨_, congrArg Host.Outcome.next wrote, session, level, hash.trans (congrArg Nvm.boardHash (rcvWrite_link s l x.target x.data))⟩
  case unfused =>
    obtain ⟨l, regs, touched, -, wrote⟩ := writeReg_rcv took [] !false
    rw [touched] at good
    rw [rcvCtrl_finish (s := { s with pcie := l }) (x := x) cmd (rcvOwn_of_session owned mine), Bool.not_not] at wrote
    obtain ⟨session, error, bit, nor⟩ := rcvFinish_unfused whole good key unset
    exact ⟨_, congrArg Host.Outcome.next wrote, session, error, bit, nor⟩
  case cut =>
    obtain ⟨l, regs, touched, -, wrote⟩ := writeReg_rcv took [] !b
    rw [rcvCtrl_finish (s := { s with pcie := l }) (x := x) cmd (rcvOwn_of_session owned mine), rcvFinish_cut cut] at wrote
    obtain ⟨upd, bit, nvm, -⟩ := rcvFail_ends { s with pcie := l } 0x04
    exact ⟨_, congrArg Host.Outcome.next wrote, bit, nvm, upd⟩
  case busy =>
    obtain ⟨l, regs, -, -, wrote⟩ := writeReg_rcv took [] (decide (bits w.val 3 0 ≠ 3))
    have stays := rcvStart_busy (s := { s with pcie := l }) (spi := false) (bits (s.reg pUPD 0x138 0#32) 2 0)
      (s.reg pUPD 0x140 0#32).toNat owned (by simp [other])
    rw [rcvCtrl_start cmd, show State.mailStart { s with pcie := l } = _ from stays] at wrote
    obtain ⟨session, nvm, -⟩ := rcvBusy_keeps { s with pcie := l }
    exact ⟨_, congrArg Host.Outcome.next wrote, session.trans owned, nvm⟩
  case abort =>
    obtain ⟨l, regs, -, -, wrote⟩ := writeReg_rcv took [] (decide (bits w.val 3 0 ≠ 3))
    rw [rcvCtrl_abort (s := { s with pcie := l }) (x := x) cmd (rcvOwn_of_session owned mine)] at wrote
    exact ⟨_, congrArg Host.Outcome.next wrote, rfl, rfl⟩

/-! ## SPI frames -/

section Frame
variable {s : State} {hdr : Word} {l : List Word}

/-- A frame whose CRC checks runs, and is answered unless it resets the chip (R112). -/
theorem rcvFrame_runs (active : s.active = true) (rom : s.dev.romRecovery = true) (pad : s.dev.pad.spit = true) {type : Nat}
    (length : bits hdr 23 0 = l.length) (kind : bits hdr 31 24 = type) (act : State) :
    s.rcvFrame type hdr l (Config.crc32 (wordBytes (hdr :: l))) act = if act.dev.romRecovery then act.rcvAnswer hdr else act := by
  unfold State.rcvFrame
  rw [if_neg (by simp [active, rom, pad, length, kind]), if_neg (not_not_intro rfl)]

/-- A frame with a bad CRC runs nothing (R112). -/
theorem rcvFrame_bad (active : s.active = true) (rom : s.dev.romRecovery = true) (pad : s.dev.pad.spit = true) {type : Nat}
    (length : bits hdr 23 0 = l.length) (kind : bits hdr 31 24 = type) {crc : Word} (bad : crc ≠ Config.crc32 (wordBytes (hdr :: l)))
    (act : State) : s.rcvFrame type hdr l crc act = ((s.setRcv 5 0x01).raise pUPD 3).rcvAnswer hdr := by
  unfold State.rcvFrame
  rw [if_neg (by simp [active, rom, pad, length, kind]), if_pos bad]

end Frame

/-- Settles O33: each frame is its session's operation, answered with the status it leaves. -/
theorem recoveryFramesRun : Obligations.RecoveryFramesRun := by
  unfold Obligations.RecoveryFramesRun
  refine fun s hdr l active rom pad length => ⟨fun kind => ?status, fun t n two kind free exists_ some_ fits record => ?start,
    fun x off ws shape kind owned mine most next within padded => ?data,
    fun x kind owned mine => ⟨fun cut b => ?cut, fun whole good => ?finish⟩, fun x kind owned other => ?busy, fun crc kind bad => ?bad⟩
  case status => exact congrArg Host.Outcome.next ((rcvFrame_runs active rom pad length kind s).trans (if_pos rom))
  case start =>
    have opened := rcvStart_opens (s := s) true free exists_ some_ fits record
    have step := rcvFrame_runs active rom pad length kind (s.rcvStart true t.toNat n.toNat)
    rw [opened, if_pos rom] at step
    rw [← opened] at step
    subst two
    rw [opened] at step
    exact ⟨_, (congrArg Host.Outcome.next (congrArg _ opened)).trans (congrArg Host.Outcome.next step), rfl,
      congrArg (fun word => s.spit.tx ++ [hdr, word]) (show fieldW 1 0 ||| fieldW (0#8).toNat 8 = 1#32 by decide)⟩
  case data =>
    have short : ¬ x.total - off.toNat + 3 < 4 * ws.length := by rw [next]; omega
    have bytes : ((wordBytes ws).take (min (4 * ws.length) (x.total - off.toNat))).length ≤ x.total - off.toNat :=
      (List.length_take_le _ _).trans (min_le_right _ _)
    obtain ⟨upd, bit, -, dev⟩ := rcvBytes_adds (s := s) (b := (wordBytes ws).take (min (4 * ws.length) (x.total - off.toNat))) next
      (by omega)
    have step := rcvFrame_runs active rom pad length kind
      (s.rcvBytes x off.toNat ((wordBytes ws).take (min (4 * ws.length) (x.total - off.toNat))))
    rw [if_pos (by rw [dev, rom])] at step
    have act : exec (.recoveryFrameData hdr l (Config.crc32 (wordBytes (hdr :: l)))) s = .next (s.rcvFrame 2 hdr l
        (Config.crc32 (wordBytes (hdr :: l))) (s.rcvBytes x off.toNat ((wordBytes ws).take (min (4 * ws.length) (x.total - off.toNat))))) := by
      subst shape
      simp only [exec, execRecoveryFrameData, rcvOwn_of_session owned mine]
      rw [if_neg (Nat.not_lt.mpr most), if_neg short]
    exact ⟨_, act.trans (congrArg Host.Outcome.next step), bit, upd.trans (by rw [next])⟩
  case cut =>
    have step := rcvFrame_runs active rom pad length kind (s.rcvFail 0x04)
    obtain ⟨upd, bit, nvm, dev⟩ := rcvFail_ends s 0x04
    rw [if_pos (by rw [dev, rom])] at step
    refine ⟨_, Eq.trans ?_ (congrArg Host.Outcome.next step), bit, upd, nvm⟩
    simp only [exec, execRecoveryFrameFinish, rcvOwn_of_session owned mine, rcvFinish_cut cut]
  case finish =>
    obtain ⟨session, level, nor, -, left⟩ := rcvFinish_writes (s := s) (otpGood := true) whole good (.inr (.inr rfl))
    have step := rcvFrame_runs active rom pad length kind (s.rcvFinish x true)
    rw [if_neg (by rw [left]; decide)] at step
    refine ⟨_, Eq.trans ?_ (congrArg Host.Outcome.next step), session, level, nor⟩
    simp only [exec, execRecoveryFrameFinish, rcvOwn_of_session owned mine]
  case busy =>
    have stays (target total : Nat) := rcvStart_busy (s := s) (spi := true) target total owned (by simp [other])
    obtain ⟨session, nvm, dev⟩ := rcvBusy_keeps s
    have step := rcvFrame_runs active rom pad length kind s.rcvBusy
    rw [if_pos (by rw [dev, rom])] at step
    refine ⟨_, Eq.trans ?_ (congrArg Host.Outcome.next step), session.trans owned, nvm⟩
    simp only [exec, execRecoveryFrameStart, stays]
    split <;> rfl
  case bad =>
    refine ⟨_, congrArg Host.Outcome.next (rcvFrame_bad active rom pad length kind bad s), ?_, ?_⟩
    · exact State.raise_upd _ _ _
    · exact raise_bit _ pUPD 3 (by decide) (by decide) (by decide)

end Sys2Proof.Machine
end

section
/-!
PROOFS. SRAM marches (10 R328 to R332) and the QSPI master (13 R394 to R399).
-/
namespace Sys2Proof.Machine

/-! ## Marches -/

section March
variable {s : State}

theorem exec_sramMarchStart_starts {w : Wr} {r : Reg} (took : s.takes pSRAM 0x104 w r) (start : (w.val &&& r.writable).getLsbD 0 = true) :
    ∃ u, exec (.sramMarchStart w) s = .next u ∧ u.sram = { s.sram with
      mode := (w.val &&& r.writable).getLsbD 1, targets := [bits (w.val &&& r.writable) 3 2], done := false } ∧ u.nvm = s.nvm := by
  obtain ⟨l, m, k, wrote⟩ := writeReg_block took (by decide) (by decide) (by decide) (by decide) [] (decide (bits w.val 3 0 ≠ 3))
  refine ⟨_, congrArg Host.Outcome.next wrote, ?_⟩
  have acted : State.actBlock { s with pcie := l, pwr := m } pSRAM 0x104 (w.val &&& r.writable) [] (decide (bits w.val 3 0 ≠ 3)) =
      State.marchStart { s with pcie := l, pwr := m } (w.val &&& r.writable) := rfl
  rw [acted]
  unfold State.marchStart
  rw [if_pos start]
  dsimp only
  split
  · exact ⟨rfl, rfl⟩
  · exact ⟨rfl, rfl⟩

/-- A test's end counts the failing rows it was given, whatever their repair did. -/
theorem exec_marchDone_ends {m : Nat} {rest : List Nat} (runs : s.sram.targets = m :: rest) (fails : List FailRow) :
    ∃ u, exec (.marchDone fails) s = .next u ∧ u.sram.targets = rest ∧ u.sram.done = true ∧ u.sram.pass = fails.isEmpty ∧
      u.sram.failRows = min fails.length 0xFFFF ∧ u.bit pSRAM 0 = true := by
  have ended : exec (.marchDone fails) s = .next (({ fails.foldl (fun a f => a.repairRow m f) s with
      sram := { (fails.foldl (fun a f => a.repairRow m f) s).sram with
        targets := rest, failRows := min fails.length 0xFFFF, done := true, pass := fails.isEmpty } } : State).raise pSRAM 0) := by
    show execMarchDone fails s = _
    unfold execMarchDone
    rw [runs]
  refine ⟨_, ended, ?_⟩
  rw [State.raise_sram]
  exact ⟨rfl, rfl, rfl, rfl, raise_bit _ pSRAM 0 (by decide) (by decide) (by decide)⟩

theorem exec_marchDone_idle (idle : s.sram.targets = []) (fails : List FailRow) : exec (.marchDone fails) s = .next s := by
  show execMarchDone fails s = _
  unfold execMarchDone
  rw [idle]

end March

/-! ## QSPI frames -/

section Qspi
variable {s : State}

theorem exec_qspiGo_queues {w : Wr} {r : Reg} (took : s.takes pQSPI 0x11C w r) (go : (w.val &&& r.writable).getLsbD 0 = true) :
    ∃ u, exec (.qspiGo w) s = .next u ∧
      u.qspi = { s.qspi with hf := s.hostFrameNow, hostWait := true, dmaErr := false } ∧ u.disp = s.disp := by
  obtain ⟨l, m, k, wrote⟩ := writeReg_block took (by decide) (by decide) (by decide) (by decide) [] (decide (bits w.val 3 0 ≠ 3))
  have acted : State.actBlock { s with pcie := l, pwr := m } pQSPI 0x11C (w.val &&& r.writable) [] (decide (bits w.val 3 0 ≠ 3)) =
      State.qspiGo { s with pcie := l, pwr := m } := if_pos go
  rw [acted] at wrote
  exact ⟨_, congrArg Host.Outcome.next wrote, rfl, rfl⟩

section Start
variable (active : s.active = true) (pad : s.dev.pad.qspi = true) (free : s.qspi.bus = none)
include active pad free

theorem qspiFrameStart_open : ¬ ((!s.active || !s.dev.pad.qspi || decide (s.qspi.bus ≠ none)) = true) := by
  simp [active, pad, free]

theorem exec_qspiFrameStart_firmware (waits : 0 < s.qspi.fwWait) : exec .qspiFrameStart s =
    .next { s with qspi := { s.qspi with fwWait := s.qspi.fwWait - 1, bus := some .fw, lastUser := .fw } } :=
  (if_neg (qspiFrameStart_open active pad free)).trans (if_pos waits)

theorem exec_qspiFrameStart_display {f : Bool × List Byte} {l : List (Bool × List Byte)} (none_ : s.qspi.fwWait = 0)
    (waits : s.disp.waiting = f :: l) : exec .qspiFrameStart s =
    .next (({ s with disp := { s.disp with waiting := l },
                     qspi := { s.qspi with bus := some .disp, lastUser := .disp, busInit := f.1 } } : State).emit (s.dispOut f.2)) := by
  refine (if_neg (qspiFrameStart_open active pad free)).trans ((if_neg (by simp [none_])).trans ?_)
  rw [waits]

theorem exec_qspiFrameStart_host (none_ : s.qspi.fwWait = 0) (quiet : s.disp.waiting = []) (waits : s.qspi.hostWait = true) :
    exec .qspiFrameStart s =
    .next (({ s with qspi := { s.qspi with hostWait := false, bus := some .host, lastUser := .host } } : State).emit
      (s.qspi.hf.out s.qspi.hf.phases)) := by
  refine (if_neg (qspiFrameStart_open active pad free)).trans ((if_neg (by simp [none_])).trans ?_)
  rw [quiet]
  exact if_pos waits

end Start

/-- A host frame's end frees the bus and counts the frame; without Bus Master Enable its data stays and DMA_ERR is set (R398). -/
theorem hostFrameEnd_ends (s : State) (rd : List Byte) : (s.hostFrameEnd rd).qspi.bus = none ∧
    (s.hostFrameEnd rd).qspi.hostFrames = satInc s.qspi.hostFrames ∧ (s.qspi.hf.len = 0 → (s.hostFrameEnd rd).bit pQSPI 0 = true) ∧
    (s.qspi.hf.len ≠ 0 → (s.pcie.fns[(0 : Fn)]).bme = false →
      (s.hostFrameEnd rd).qspi.dmaErr = true ∧ (s.hostFrameEnd rd).bit pQSPI 2 = true) := by
  have done (a : State) : (a.raise pQSPI 0).bit pQSPI 0 = true := raise_bit a pQSPI 0 (by decide) (by decide) (by decide)
  have failed (a : State) : (a.raise pQSPI 2).bit pQSPI 2 = true := raise_bit a pQSPI 2 (by decide) (by decide) (by decide)
  unfold State.hostFrameEnd
  dsimp only
  by_cases empty : s.qspi.hf.len = 0
  · rw [if_pos empty, State.raise_qspi]
    exact ⟨rfl, rfl, fun _ => done _, fun some_ => absurd empty some_⟩
  · rw [if_neg empty]
    by_cases master : (s.pcie.fns[(0 : Fn)]).bme = true
    · rw [if_pos master]
      split
      · rw [State.raise_qspi]
        exact ⟨rfl, rfl, fun none_ => absurd none_ empty, fun _ off => absurd (master.symm.trans off) (by decide)⟩
      · rw [State.raise_qspi]
        exact ⟨rfl, rfl, fun none_ => absurd none_ empty, fun _ off => absurd (master.symm.trans off) (by decide)⟩
    · rw [if_neg master, State.raise_qspi]
      exact ⟨rfl, rfl, fun none_ => absurd none_ empty, fun _ _ => ⟨rfl, failed _⟩⟩

theorem exec_frameDone_firmware (bus : s.qspi.bus = some .fw) (rd : List Byte) :
    exec (.frameDone rd) s = .next { s with qspi := { s.qspi with bus := none } } := by
  show execFrameDone rd s = _
  unfold execFrameDone
  rw [bus]

theorem exec_frameDone_display (bus : s.qspi.bus = some .disp) (line : s.qspi.busInit = false) (rd : List Byte) :
    exec (.frameDone rd) s = .next { s with
      qspi := { s.qspi with bus := none, busInit := false }, disp := { s.disp with frames := satInc s.disp.frames } } := by
  show execFrameDone rd s = _
  unfold execFrameDone
  rw [bus]
  exact congrArg Host.Outcome.next (if_neg (by simp [line]))

theorem exec_frameDone_host (bus : s.qspi.bus = some .host) (rd : List Byte) :
    exec (.frameDone rd) s = .next (s.hostFrameEnd rd) := by
  show execFrameDone rd s = _
  unfold execFrameDone
  rw [bus]

end Qspi

/-- Settles O34: the lemmas above, command by command. -/
theorem marchesAndQspiFramesRun : Obligations.MarchesAndQspiFramesRun := by
  unfold Obligations.MarchesAndQspiFramesRun
  refine ⟨fun s => ⟨fun w r took start => exec_sramMarchStart_starts took start,
      fun m rest fails runs => exec_marchDone_ends runs fails, fun idle fails => exec_marchDone_idle idle fails⟩,
    fun s => ⟨fun w r took go => exec_qspiGo_queues took go, fun active pad free => ⟨exec_qspiFrameStart_firmware active pad free, ?_, ?_⟩,
      fun rd bus => exec_frameDone_firmware bus rd, fun rd bus line => exec_frameDone_display bus line rd,
      fun rd bus => ⟨_, exec_frameDone_host bus rd, hostFrameEnd_ends s rd⟩⟩⟩
  · exact fun f l none_ waits => ⟨_, exec_qspiFrameStart_display active pad free none_ waits, rfl, rfl, rfl⟩
  · exact fun none_ quiet waits => ⟨_, exec_qspiFrameStart_host active pad free none_ quiet waits, rfl, rfl, rfl⟩

end Sys2Proof.Machine
end

section
/-!
PROOFS. The registers of the fabric (14 R434, R458).
-/
namespace Sys2Proof.Machine

/-- A write that takes effect at a block's own register acts on the touched state, beside what it stores. -/
theorem writeReg_touched {s : State} {p : Page} {off : Nat} {w : Wr} {r : Reg} (took : s.takes p off w r) (block : tenantOfPage p = none)
    (above : 0x100 ≤ off) (irq : p ≠ pIRQ) (med : p ≠ pMED) (data : List Byte) (failed : Bool) : ∃ k, s.writeReg p off w data failed =
      { (s.touchPage w.src p).actBlock p off (w.val &&& r.writable) data failed with regs := k } := by
  rw [writeReg_takes took, applyWrite_acts irq med, act_of_block block above]
  exact storeReg_regs _ p off r _ _

section Install
variable {s : State}

/-- Ports that start leave what is kept. -/
theorem startPorts_nvm (s : State) : s.startPorts.nvm = s.nvm := by
  unfold State.startPorts
  exact (apply_ite State.nvm _ _ _).trans (ite_self _)

theorem installFleet_matches {d : BoardDesc} (desc : s.boot.desc = some d)
    (same : Config.sha256 (s.regBytes pVFR 0xA80 16) = d.fleetHash) :
    s.installFleet.nvm = { s.nvm with fleetKey := some (wideOf (s.regBytes pVFR 0xA80 16)) } := by
  unfold State.installFleet
  rw [desc]
  dsimp only
  rw [if_pos same]
  split
  · exact startPorts_nvm _
  · rfl

theorem installFleet_differs {d : BoardDesc} (desc : s.boot.desc = some d)
    (other : Config.sha256 (s.regBytes pVFR 0xA80 16) ≠ d.fleetHash) : s.installFleet = s.raise pVFR 3 := by
  unfold State.installFleet
  rw [desc]
  exact if_neg other

theorem installCert_checks {f : Wide} {d : BoardDesc} {k : Hash} (fleet : s.nvm.fleetKey = some f) (desc : s.boot.desc = some d)
    (identity : s.sign.identity = some k) (good : certOk f (s.regBytes pVFR 0xA00 32) = true)
    (serial : certSerial (s.regBytes pVFR 0xA00 32) = Config.serial)
    (key : certKey (s.regBytes pVFR 0xA00 32) = Config.compressPub (Config.ecPub k))
    (addr : certAddr (s.regBytes pVFR 0xA00 32) = d.node) :
    s.installCert.nvm = { s.nvm with cert := some (s.regBytes pVFR 0xA00 32) } := by
  unfold State.installCert
  rw [fleet, desc, identity]
  dsimp only
  rw [if_pos (by simp [good, serial, key, addr])]
  split
  · exact startPorts_nvm _
  · rfl

theorem installCert_keyless (none_ : s.nvm.fleetKey = none) : s.installCert = s.raise pVFR 3 := by
  unfold State.installCert
  rw [none_]
  exact if_neg Bool.false_ne_true

end Install

section RemoteRead
variable {s : State}

/-- The request packet of the remote read that the registers describe. -/
def State.rreqPkt (s : State) : OutPkt :=
  s.newPkt 0x10 0 (BitVec.ofNat 16 (bits (s.reg pVFR 0xB00 0#32) 15 0)) noTenant 0
    ([BitVec.ofNat 8 (bits (s.reg pVFR 0xB04 0#32) 0 0), BitVec.ofNat 8 (bits (s.reg pVFR 0xB04 0#32) 13 8)] ++
      leBytes 4 (s.reg pVFR 0xB08 0#32).toNat ++ leBytes 4 (s.reg pVFR 0xB0C 0#32).toNat)

/-- The remote read before its request has found a tag. -/
def State.rreqAsked (s : State) : State := { s with vfr := { s.vfr with rreqSt := 1, rreqN := 0, rreqWait := some s.rreqPkt } }

theorem rreqGo_serves (s : State) : s.rreqGo = s.rreqAsked.serveRreq := rfl

/-- A request changes ports and what is sent, nothing else. -/
theorem transmits_sendRequest (s : State) (p : OutPkt) (tag : Option Tag) (tries : Nat) (held : Fin 4) :
    Transmits s (s.sendRequest p tag tries held) := by
  unfold State.sendRequest
  dsimp only
  split
  · exact Transmits.rfl' s
  · exact Transmits.trans ⟨_, _, _, rfl⟩ (transmits_sendLong _ _)

/-! A read that waits goes out, stays, or is lost (01 R21). -/

theorem serveRreq_idle (idle : s.vfr.rreqWait = none) : s.serveRreq = s := by
  unfold State.serveRreq
  rw [idle]

theorem serveRreq_routed {p : OutPkt} {q : Fin 4} (waits : s.vfr.rreqWait = some p) (runs : s.fabricRuns = true)
    (addressed : s.addressed = true) (route : s.portTo p.dest = some q) : s.serveRreq =
      if (s.vfl[q]).tagFree then ({ s with vfr := { s.vfr with rreqWait := none } } : State).sendRequest p none 0 q else s := by
  unfold State.serveRreq
  rw [waits]
  dsimp only
  rw [if_pos ((Bool.and_eq_true ..).mpr ⟨runs, addressed⟩), route]

theorem serveRreq_stuck {p : OutPkt} (waits : s.vfr.rreqWait = some p)
    (stuck : (if s.fabricRuns && s.addressed then s.portTo p.dest else none) = none) : s.serveRreq = s.rreqLost := by
  unfold State.serveRreq
  rw [waits]
  dsimp only
  rw [stuck]

/-- A read that is served keeps the store, and its count of records. -/
theorem serveRreq_keeps (s : State) : s.serveRreq.nvm = s.nvm ∧ (s.vfr.rreqN = 0 → s.serveRreq.vfr.rreqN = 0) := by
  unfold State.serveRreq
  split
  · exact ⟨rfl, id⟩
  · split
    · unfold State.rreqLost
      rw [State.raise_nvm, State.raise_vfr]
      exact ⟨rfl, fun _ => rfl⟩
    · next p _ _ q _ =>
      obtain ⟨vfl, out, pcie, same⟩ := transmits_sendRequest ({ s with vfr := { s.vfr with rreqWait := none } } : State) p none 0 q
      split
      · rw [same]
        exact ⟨rfl, id⟩
      · exact ⟨rfl, id⟩

theorem rreqGo_routed {q : Fin 4} (runs : s.fabricRuns = true) (addressed : s.addressed = true)
    (route : s.portTo (BitVec.ofNat 16 (bits (s.reg pVFR 0xB00 0#32) 15 0)) = some q) : s.rreqGo = if (s.vfl[q]).tagFree then
      ({ s.rreqAsked with vfr := { s.rreqAsked.vfr with rreqWait := none } } : State).sendRequest s.rreqPkt none 0 q else s.rreqAsked :=
  (rreqGo_serves s).trans (serveRreq_routed (s := s.rreqAsked) rfl runs addressed route)

theorem rreqGo_sends {q : Fin 4} (runs : s.fabricRuns = true) (addressed : s.addressed = true)
    (route : s.portTo (BitVec.ofNat 16 (bits (s.reg pVFR 0xB00 0#32) 15 0)) = some q) (free : (s.vfl[q]).tagFree = true) :
    s.rreqGo.vfr.rreqSt = 1 ∧ s.rreqGo.vfr.rreqWait = none := by
  rw [rreqGo_routed runs addressed route, if_pos free]
  obtain ⟨vfl, out, pcie, same⟩ := transmits_sendRequest
    ({ s.rreqAsked with vfr := { s.rreqAsked.vfr with rreqWait := none } } : State) s.rreqPkt none 0 q
  rw [same]
  exact ⟨rfl, rfl⟩

theorem rreqGo_waits {q : Fin 4} (runs : s.fabricRuns = true) (addressed : s.addressed = true)
    (route : s.portTo (BitVec.ofNat 16 (bits (s.reg pVFR 0xB00 0#32) 15 0)) = some q) (taken : (s.vfl[q]).tagFree = false) :
    s.rreqGo = s.rreqAsked := by
  rw [rreqGo_routed runs addressed route, if_neg (by rw [taken]; exact Bool.false_ne_true)]

theorem rreqGo_unaddressed (nowhere : s.addressed = false) : s.rreqGo.vfr.rreqSt = 3 ∧ s.rreqGo.bit pVFR 4 = true := by
  have stuck : (if s.rreqAsked.fabricRuns && s.rreqAsked.addressed then s.rreqAsked.portTo s.rreqPkt.dest else none) = none := by
    have closed : s.rreqAsked.addressed = false := nowhere
    rw [closed, Bool.and_false]
    exact if_neg Bool.false_ne_true
  rw [rreqGo_serves, serveRreq_stuck rfl stuck]
  exact ⟨congrArg (fun v => v.rreqSt) (State.raise_vfr _ _ _), raise_bit _ pVFR 4 (by decide) (by decide) (by decide)⟩

end RemoteRead

section Rows
variable {s : State} {w : Wr} {r : Reg}

theorem exec_installFleet_acts (took : s.takes pVFR 0xAC0 w r) (fleet : (w.val &&& r.writable).getLsbD 0 = true)
    (noCert : (w.val &&& r.writable).getLsbD 1 = false) : ∃ l m k, exec (.installFleet w) s = .next
      { State.installFleet { s with pcie := l, pwr := m } with regs := k } := by
  obtain ⟨l, m, k, wrote⟩ := writeReg_block took (by decide) (by decide) (by decide) (by decide) [] (decide (bits w.val 3 0 ≠ 3))
  have acted : State.actBlock { s with pcie := l, pwr := m } pVFR 0xAC0 (w.val &&& r.writable) [] (decide (bits w.val 3 0 ≠ 3)) =
      State.installFleet { s with pcie := l, pwr := m } := by
    show State.certCtrl _ _ = _
    unfold State.certCtrl
    rw [if_pos fleet, if_neg (by rw [noCert]; exact Bool.false_ne_true)]
  rw [acted] at wrote
  exact ⟨l, m, k, congrArg Host.Outcome.next wrote⟩

theorem exec_installCert_acts (took : s.takes pVFR 0xAC0 w r) (noFleet : (w.val &&& r.writable).getLsbD 0 = false)
    (cert : (w.val &&& r.writable).getLsbD 1 = true) : ∃ l m k, exec (.installCert w) s = .next
      { State.installCert { s with pcie := l, pwr := m } with regs := k } := by
  obtain ⟨l, m, k, wrote⟩ := writeReg_block took (by decide) (by decide) (by decide) (by decide) [] (decide (bits w.val 3 0 ≠ 3))
  have acted : State.actBlock { s with pcie := l, pwr := m } pVFR 0xAC0 (w.val &&& r.writable) [] (decide (bits w.val 3 0 ≠ 3)) =
      State.installCert { s with pcie := l, pwr := m } := by
    show State.certCtrl _ _ = _
    unfold State.certCtrl
    rw [if_pos cert, if_neg (by rw [noFleet]; exact Bool.false_ne_true)]
  rw [acted] at wrote
  exact ⟨l, m, k, congrArg Host.Outcome.next wrote⟩

theorem exec_vfrRreqGo_acts (took : s.takes pVFR 0xB18 w r) (go : (w.val &&& r.writable).getLsbD 0 = true) (fabric : s.hasFeat 0 5 = true) :
    ∃ k, exec (.vfrRreqGo w) s = .next { (s.touchPage w.src pVFR).rreqGo with regs := k } := by
  obtain ⟨k, wrote⟩ := writeReg_touched took (by decide) (by decide) (by decide) (by decide) [] (decide (bits w.val 3 0 ≠ 3))
  have offered : (s.touchPage w.src pVFR).hasFeat 0 5 = true := by
    obtain ⟨l, m, touched⟩ := touchPage_touches s w.src pVFR
    rw [touched]
    exact fabric
  have acted : (s.touchPage w.src pVFR).actBlock pVFR 0xB18 (w.val &&& r.writable) [] (decide (bits w.val 3 0 ≠ 3)) =
      (s.touchPage w.src pVFR).rreqGo := if_pos ((Bool.and_eq_true ..).mpr ⟨go, offered⟩)
  rw [acted] at wrote
  exact ⟨k, congrArg Host.Outcome.next wrote⟩

end Rows

/-- Settles O36: each register is its operation on the touched state. -/
theorem fabricRegistersAct : Obligations.FabricRegistersAct := by
  unfold Obligations.FabricRegistersAct
  refine fun s w r => ⟨fun d took fleet noCert desc => ⟨fun same => ?installed, fun other => ?refused⟩,
    fun f d k took noFleet cert fleet desc identity good serial key addr => ?certified, fun took noFleet cert none_ => ?keyless,
    fun took go fabric => ?read⟩
  case installed =>
    obtain ⟨l, m, k, acted⟩ := exec_installFleet_acts took fleet noCert
    exact ⟨_, acted, installFleet_matches (s := { s with pcie := l, pwr := m }) desc same⟩
  case refused =>
    obtain ⟨l, m, k, acted⟩ := exec_installFleet_acts took fleet noCert
    refine ⟨_, acted, ?_⟩
    rw [installFleet_differs (s := { s with pcie := l, pwr := m }) desc other]
    exact ⟨State.raise_nvm _ _ _, raise_bit _ pVFR 3 (by decide) (by decide) (by decide)⟩
  case certified =>
    obtain ⟨l, m, k, acted⟩ := exec_installCert_acts took noFleet cert
    exact ⟨_, acted, installCert_checks (s := { s with pcie := l, pwr := m }) fleet desc identity good serial key addr⟩
  case keyless =>
    obtain ⟨l, m, k, acted⟩ := exec_installCert_acts took noFleet cert
    refine ⟨_, acted, ?_⟩
    rw [installCert_keyless (s := { s with pcie := l, pwr := m }) none_]
    exact ⟨State.raise_nvm _ _ _, raise_bit _ pVFR 3 (by decide) (by decide) (by decide)⟩
  case read =>
    obtain ⟨k, acted⟩ := exec_vfrRreqGo_acts took go fabric
    obtain ⟨l, m, touched⟩ := touchPage_touches s w.src pVFR
    rw [touched] at acted ⊢
    obtain ⟨nvm, count⟩ := serveRreq_keeps (State.rreqAsked { s with pcie := l, pwr := m })
    refine ⟨_, acted, count rfl, nvm, fun q runs addressed route free => ?_, fun q runs addressed route taken => ?_, fun nowhere => ?_⟩
    · exact rreqGo_sends (s := { s with pcie := l, pwr := m }) runs addressed route free
    · rw [rreqGo_waits (s := { s with pcie := l, pwr := m }) runs addressed route taken]
      exact ⟨rfl, rfl, rfl⟩
    · exact rreqGo_unaddressed (s := { s with pcie := l, pwr := m }) nowhere

end Sys2Proof.Machine
end

section
/-!
PROOFS. Reads of capture registers (05 R120, R121): a read that reaches its register captures on the touched state and answers the
register's enabled bytes.
-/
namespace Sys2Proof.Machine

section Read
variable {s : State} {p : Page} {off : Nat} {rd : Rd} {r : Reg}

theorem hostRead_reads (read : s.reads p off rd r) : s.hostRead rd p off =
    .next (((s.touchPage rd.src p).capture p off).emit (.readData (enabledBytes rd.be r.val))) := by
  obtain ⟨enabled, ⟨a, reached⟩, found⟩ := read
  unfold State.hostRead State.readReg
  rw [reached]
  dsimp only
  rw [if_neg enabled, found]

/-- What a read captures, in the form the statement gives it. -/
theorem hostRead_captures {x : State → State} (read : s.reads p off rd r) (captures : ∀ a : State, a.capture p off = x a) :
    ∃ a, a = s.touchPage rd.src p ∧ s.hostRead rd p off = .next ((x a).emit (.readData (enabledBytes rd.be r.val))) :=
  ⟨_, rfl, (hostRead_reads read).trans (by rw [captures])⟩

end Read

/-- The four ports' audits are one register of four pages. -/
theorem capture_credits (s : State) (n : Fin 4) :
    s.capture (pVFL n) 0x120 = s.updVfl n (fun l => { l with capVc2 := fieldW (l.creditHalf 2) 0 }) := by
  match n with
  | 0 => rfl
  | 1 => rfl
  | 2 => rfl
  | 3 => rfl

theorem capture_meter (s : State) : s.capture pMTR 0x120 = { s with mtr := { s.mtr with
    cap := #v[loW s.nvm.accs.toList.sum, hiW s.nvm.accs.toList.sum, loW s.mtr.pending, hiW s.mtr.pending, loW s.nvm.total,
      hiW s.nvm.total] } } := by
  rw [List.sum_eq_foldl]
  rfl

/-- Settles O37: each row is a read of its register. -/
theorem captureReadsCapture : Obligations.CaptureReadsCapture := by
  unfold Obligations.CaptureReadsCapture
  exact fun s rd r => ⟨fun read => hostRead_captures read fun _ => rfl, fun read => hostRead_captures read fun _ => rfl,
    fun read => hostRead_captures read fun _ => rfl, fun read => hostRead_captures read fun _ => rfl,
    fun n read => hostRead_captures read fun a => capture_credits a n, fun read => hostRead_captures read capture_meter,
    fun read => hostRead_captures read fun _ => rfl, fun read => hostRead_captures read fun _ => rfl,
    fun read => hostRead_captures read fun _ => rfl, fun read => hostRead_captures read fun _ => rfl,
    fun read => hostRead_captures read fun _ => rfl⟩

end Sys2Proof.Machine
end

section
/-!
PROOFS. A link that changes speed in L1 (06 R157, R169, R179). The change sets PCIE_INT_STATUS bit 2; where that asserts INTA, the message
is itself traffic, and takes the link from the LTSSM state just reported back to L0.
-/
namespace Sys2Proof.Machine

/-- A link that is up, PF0 in INTA mode, and SPEED_WIDTH enabled in PCIE_INT_ENABLE. -/
def intaArmed : State :=
  { State.reset with
    pins := { Pins.reset with resetIn := true, perst := true }
    clk := { ClkS.reset with pllLock := true }
    pcie := { State.reset.pcie with dlUp := true }
    hdr := State.reset.hdr.set pPCIE { State.reset.hdr[pPCIE] with intEnable := 4#32 } }

/-- Reported in LTSSM state 20, the link shows 11. -/
theorem intaArmed_leaves_l1 : (match exec (.speedWidthChange 1#3 1#3 20#5) intaArmed with
    | .next u => u.pcie.ltssm
    | _ => 20#5) = 11#5 := by decide +kernel

/-- Refutes O38: a speed change reported in L1 asserts INTA, and the message takes the link back to L0, so its LTSSM code is not the one
reported. -/
theorem not_functionsAndLinksReset : ¬ Obligations.FunctionsAndLinksReset := by
  unfold Obligations.FunctionsAndLinksReset
  intro holds
  obtain ⟨-, -, -, -, -, changes⟩ := holds.1 intaArmed
  obtain ⟨changed, -⟩ := changes 1#3 1#3 20#5 (by decide +kernel) rfl
  obtain ⟨u, step, -, -, -, shown, -⟩ := changed rfl (.inl (by decide +kernel))
  have left := intaArmed_leaves_l1
  rw [step] at left
  exact absurd (left.symm.trans (shown (by decide))) (by decide)

end Sys2Proof.Machine
end

section
/-!
PROOFS. What the endpoint answers (06 R147 to R178). A function's registers change by the endpoint's own commands alone: a status bit may
queue a message of it and a reset of its tenants reaches their commands, and neither reaches the rest of the function.
-/
namespace Sys2Proof.Machine

/-! ## Functions and what leaves them -/

/-- Every function stands as before, but for its pending messages. -/
def SameFns (s t : State) : Prop := ∀ fn : Fn, (t.pcie.fns[fn]).quiet = (s.pcie.fns[fn]).quiet

theorem SameFns.rfl' (s : State) : SameFns s s := fun _ => rfl

theorem SameFns.trans {s t u : State} (h : SameFns s t) (g : SameFns t u) : SameFns s u := fun fn => (g fn).trans (h fn)

theorem SameFns.of_fns {s t : State} (same : t.pcie.fns = s.pcie.fns) : SameFns s t := fun fn => by rw [same]

theorem SameFns.of_quiet {s t : State} (same : t.quiet = s.quiet) : SameFns s t := fun fn => by
  have maps : t.pcie.fns.map FnS.quiet = s.pcie.fns.map FnS.quiet := congrArg (fun x => x.pcie.fns) same
  have entry := congrArg (fun v : Vector FnS 64 => v[fn]) maps
  simpa only [Fin.getElem_fin, Vector.getElem_map] using entry

theorem SameFns.bme {s t : State} (same : SameFns s t) (fn : Fn) : (t.pcie.fns[fn]).bme = (s.pcie.fns[fn]).bme := (congrArg FnS.bme (same fn) :)

theorem SameFns.cfg {s t : State} (same : SameFns s t) (fn : Fn) : (t.pcie.fns[fn]).cfg = (s.pcie.fns[fn]).cfg := (congrArg FnS.cfg (same fn) :)

theorem SameFns.unmasked {s t : State} (same : SameFns s t) (fn : Fn) : (t.pcie.fns[fn]).unmasked = (s.pcie.fns[fn]).unmasked :=
  (congrArg FnS.unmasked (same fn) :)

theorem SameFns.msiMasked {s t : State} (same : SameFns s t) (fn : Fn) : (t.pcie.fns[fn]).msiMasked = (s.pcie.fns[fn]).msiMasked :=
  (congrArg FnS.msiMasked (same fn) :)

theorem SameFns.aerCorr {s t : State} (same : SameFns s t) (fn : Fn) : (t.pcie.fns[fn]).aerCorr = (s.pcie.fns[fn]).aerCorr :=
  (congrArg FnS.aerCorr (same fn) :)

theorem SameFns.aerUnc {s t : State} (same : SameFns s t) (fn : Fn) : (t.pcie.fns[fn]).aerUnc = (s.pcie.fns[fn]).aerUnc :=
  (congrArg FnS.aerUnc (same fn) :)

theorem sameFns_raise (s : State) (p : Page) (b : Nat) : SameFns s (s.raise p b) := .of_quiet (raise_quiet s p b)

theorem emit_fns (s : State) (o : Output) : (s.emit o).pcie.fns = s.pcie.fns := by
  unfold State.emit
  dsimp only
  split <;> rfl

theorem sameFns_emit (s : State) (o : Output) : SameFns s (s.emit o) := .of_fns (emit_fns s o)

theorem updFn_same (s : State) (fn : Fn) (f : FnS → FnS) : (s.updFn fn f).pcie.fns[fn] = f s.pcie.fns[fn] := by
  simp [State.updFn]

/-! ## A reset of tenants leaves the functions -/

theorem sendOne_fns {s t : State} {port : Fin 4} (sent : s.sendOne port = some t) : t.pcie.fns = s.pcie.fns := by
  unfold State.sendOne at sent
  split at sent
  · cases sent
  · cases sent
    exact emit_fns _ _

theorem drainPort_fns (s : State) (port : Fin 4) (n : Nat) : (s.drainPort port n).pcie.fns = s.pcie.fns := by
  induction n generalizing s with
  | zero => rfl
  | succ k ih =>
    unfold State.drainPort
    split
    · next t sent => exact (ih t).trans (sendOne_fns sent)
    · rfl

theorem sendPkt_fns (s : State) (p : OutPkt) : (s.sendPkt p).pcie.fns = s.pcie.fns := by
  unfold State.sendPkt
  split
  · exact drainPort_fns _ _ _
  · rfl

theorem mirSend_fns (s : State) (type : Byte) (vc : Fin 3) (t : Tid) (payload : List Byte) :
    (s.mirSend type vc t payload).pcie.fns = s.pcie.fns :=
  foldl_same (part := fun a => a.pcie.fns) (fun a _ => sendPkt_fns a _) _ s

theorem ite_fns {a u : State} {b : Bool} (same : u.pcie.fns = a.pcie.fns) : (if b then u else a).pcie.fns = a.pcie.fns := by
  cases b with
  | true => exact same
  | false => rfl

theorem withdraw_fns (s : State) (t : Tid) (lowest : Nat) (again : List (Nat × AppRec)) :
    (s.withdraw t lowest again).pcie.fns = s.pcie.fns := by
  unfold State.withdraw
  split
  · exact (foldl_same (part := fun a => a.pcie.fns) (fun a p => ite_fns (mirSend_fns a 0x21 1 t _)) again _).trans (mirSend_fns ..)
  · rfl

theorem dropAppends_fns (s : State) (t : Tid) (gone : Nat → AppRec → Bool) : (s.dropAppends t gone).pcie.fns = s.pcie.fns := by
  have discarded : (s.discardAppends t gone).pcie.fns = s.pcie.fns := by
    unfold State.discardAppends
    dsimp only
    split
    · rfl
    · exact withdraw_fns ..
  exact discarded

theorem dropEntries_fns (s : State) (fn : Fn) (n : Nat) : (s.dropEntries fn n).pcie.fns = s.pcie.fns := by
  unfold State.dropEntries
  split <;> rfl

theorem undoOpen_fns (s : State) (cs : List Cmd) : (s.undoOpen cs).pcie.fns = s.pcie.fns := by
  refine foldl_same (part := fun a => a.pcie.fns) (fun a c => ?_) cs s
  split <;> rfl

/-- A tenant reset keeps every function's registers. -/
theorem tenantReset_fns (s : State) (t : Tid) : (s.tenantReset t).pcie.fns = s.pcie.fns := by
  unfold State.tenantReset
  split
  · rfl
  · dsimp only [State.lapseNonces]
    rw [State.updTnt]
    dsimp only
    rw [undoOpen_fns, dropEntries_fns, dropAppends_fns]

theorem tenantReset_other {s : State} {t x : Tid} (other : x ≠ t) : (s.tenantReset t).tnt[x] = s.tnt[x] := by
  unfold State.tenantReset
  split
  · rfl
  · dsimp only [State.lapseNonces]
    rw [updTnt_other _ _ other, undoOpen_tnt, dropEntries_tnt, dropAppends_tnt]

theorem tenantReset_resets (s : State) (t : Tid) : ((s.tenantReset t).tnt[t]).resetDone = false := by
  by_cases done : (s.tnt[t]).resetDone = true
  · rw [tenantReset_tnt done]
  · have running : (s.tnt[t]).resetDone = false := by simpa only [Bool.not_eq_true] using done
    have idle : s.tenantReset t = s := by
      unfold State.tenantReset
      exact if_pos (by rw [running]; rfl)
    rw [idle, running]

theorem resetTenants_fns (s : State) (ts : List Tid) : (s.resetTenants ts).pcie.fns = s.pcie.fns :=
  foldl_same (part := fun a => a.pcie.fns) tenantReset_fns ts s

/-- A reset that runs goes on while others begin. -/
theorem resetTenants_running {s : State} {t : Tid} (running : (s.tnt[t]).resetDone = false) (ts : List Tid) :
    ((s.resetTenants ts).tnt[t]).resetDone = false := by
  induction ts generalizing s with
  | nil => exact running
  | cons x r ih =>
    refine ih ?_
    by_cases same : t = x
    · rw [same]
      exact tenantReset_resets s x
    · rw [tenantReset_other same]
      exact running

theorem resetTenants_resets (s : State) {ts : List Tid} {t : Tid} (among : t ∈ ts) : ((s.resetTenants ts).tnt[t]).resetDone = false := by
  induction ts generalizing s with
  | nil => cases among
  | cons x r ih =>
    obtain first | later := List.mem_cons.mp among
    · rw [first]
      exact resetTenants_running (tenantReset_resets s x) r
    · exact ih (s.tenantReset x) later

/-- A function whose tenants are reset keeps its settings but for the marks of the reset. -/
theorem settleFns_fn (s : State) (fn : Fn) : ∃ r b, (s.settleFns).pcie.fns[fn] = { s.pcie.fns[fn] with resetting := r, blocked := b } := by
  unfold State.settleFns
  simp only [Fin.getElem_fin, Vector.getElem_ofFn]
  split
  · exact ⟨_, _, rfl⟩
  · exact ⟨_, _, rfl⟩

theorem settleFns_tnt (s : State) : s.settleFns.tnt = s.tnt := by
  unfold State.settleFns
  rfl

/-- The sequence of a cleared Bus Master Enable (R172): the function keeps its settings, and its tenants are reset. -/
theorem bmeCleared_resets (s : State) (fn : Fn) :
    (∃ r b, (s.bmeCleared fn).pcie.fns[fn] = { s.pcie.fns[fn] with resetting := r, blocked := b }) ∧
    ∀ t ∈ s.fnTenants fn, ((s.bmeCleared fn).tnt[t]).resetDone = false := by
  have fns := resetTenants_fns s (s.fnTenants fn)
  have resets (t : Tid) (among : t ∈ s.fnTenants fn) := resetTenants_resets s among
  unfold State.bmeCleared
  generalize s.resetTenants (s.fnTenants fn) = a at fns resets
  refine ⟨?_, fun t among => ?_⟩
  · obtain ⟨r, b, settled⟩ := settleFns_fn (a.updFn fn (fun f => { f with resetting := true })) fn
    rw [updFn_same, fns] at settled
    exact ⟨r, b, settled⟩
  · rw [settleFns_tnt, State.updFn_tnt]
    exact resets t among

/-! ## Messages -/

theorem sendMessage_keeps (s : State) (fn : Fn) (k : Nat) : SameFns s (s.sendMessage fn k) ∧ (s.sendMessage fn k).hdr = s.hdr ∧
    (s.sendMessage fn k).tnt = s.tnt ∧ (s.sendMessage fn k).nvm = s.nvm := by
  unfold State.sendMessage
  dsimp only
  refine ⟨SameFns.trans ?_ (sameFns_emit _ _), rfl, rfl, rfl⟩
  exact .of_quiet (updFn_quiet _ _ _ fun _ => rfl)

theorem sendPending_keeps (s : State) (fn : Fn) : SameFns s (s.sendPending fn) ∧ (s.sendPending fn).hdr = s.hdr ∧
    (s.sendPending fn).tnt = s.tnt ∧ (s.sendPending fn).nvm = s.nvm := by
  unfold State.sendPending
  generalize (s.pcie.fns[fn]).pending = ks
  induction ks generalizing s with
  | nil => exact ⟨.rfl' s, rfl, rfl, rfl⟩
  | cons k r ih =>
    have one : SameFns s (if s.mayMessage fn k then s.sendMessage fn k else s) ∧
        (if s.mayMessage fn k then s.sendMessage fn k else s).hdr = s.hdr ∧
        (if s.mayMessage fn k then s.sendMessage fn k else s).tnt = s.tnt ∧
        (if s.mayMessage fn k then s.sendMessage fn k else s).nvm = s.nvm := by
      split
      · exact sendMessage_keeps s fn k
      · exact ⟨.rfl' s, rfl, rfl, rfl⟩
    obtain ⟨fns, hdr, tnt, nvm⟩ := one
    obtain ⟨fns', hdr', tnt', nvm'⟩ := ih (if s.mayMessage fn k then s.sendMessage fn k else s)
    exact ⟨fns.trans fns', hdr'.trans hdr, tnt'.trans tnt, nvm'.trans nvm⟩

theorem requestAll_keeps (s : State) (fn : Fn) : SameFns s (s.requestAll fn) ∧ (s.requestAll fn).hdr = s.hdr ∧
    (s.requestAll fn).tnt = s.tnt ∧ (s.requestAll fn).nvm = s.nvm := by
  unfold State.requestAll
  have one (a : State) (x : Nat × Nat) : (if x.1 = fn.1 then a.request fn x.2 else a).quiet = a.quiet ∧
      (if x.1 = fn.1 then a.request fn x.2 else a).hdr = a.hdr ∧ (if x.1 = fn.1 then a.request fn x.2 else a).tnt = a.tnt ∧
      (if x.1 = fn.1 then a.request fn x.2 else a).nvm = a.nvm := by
    split
    · refine ⟨request_quiet a fn x.2, request_hdr a fn x.2, ?_, State.request_nvm a fn x.2⟩
      unfold State.request
      dsimp only
      repeat' split
      all_goals rfl
    · exact ⟨rfl, rfl, rfl, rfl⟩
  exact ⟨.of_quiet (foldl_same (part := State.quiet) (fun a x => (one a x).1) _ s),
    foldl_same (part := State.hdr) (fun a x => (one a x).2.1) _ s, foldl_same (part := State.tnt) (fun a x => (one a x).2.2.1) _ s,
    foldl_same (part := State.nvm) (fun a x => (one a x).2.2.2) _ s⟩

/-- Assert_INTA and Deassert_INTA leave the functions, Interrupt Disable, the headers and the tenants. -/
theorem updInta_keeps (s : State) : SameFns s s.updInta ∧ s.updInta.pcie.intDisable = s.pcie.intDisable ∧ s.updInta.hdr = s.hdr ∧
    s.updInta.tnt = s.tnt ∧ s.updInta.nvm = s.nvm := by
  unfold State.updInta
  dsimp only
  split
  · exact ⟨.rfl' s, rfl, rfl, rfl, rfl⟩
  · split
    · exact ⟨.of_fns rfl, rfl, rfl, rfl, rfl⟩
    · exact ⟨.of_fns (emit_fns _ _), by unfold State.emit PcieS.traffic; dsimp only; split <;> rfl, rfl, rfl, rfl⟩

/-! ## A function's own commands -/

section Own
variable {s : State} {fn : Fn}

theorem cfgOpen_parts (opened : s.cfgOpen fn = true) : s.cfgAnswers = true ∧ s.dev.level ≠ .none ∧ s.claimed fn = true := by
  unfold State.cfgOpen at opened
  simpa [and_assoc] using opened

theorem exec_busMasterEnableClear_resets (opened : s.cfgOpen fn = true) (master : (s.pcie.fns[fn]).bme = true) :
    ∃ u, exec (.busMasterEnableClear fn) s = .next u ∧ (u.pcie.fns[fn]).bme = false ∧ u.bit pPCIE 5 = true ∧
      ∀ t ∈ s.fnTenants fn, (u.tnt[t]).resetDone = false := by
  obtain ⟨⟨r, b, settings⟩, resets⟩ := bmeCleared_resets (s.updFn fn (fun f => { f with bme := false })) fn
  have clears : exec (.busMasterEnableClear fn) s =
      .next (((s.updFn fn (fun f => { f with bme := false })).bmeCleared fn).raise pPCIE 5) :=
    congrArg Host.Outcome.next (if_neg (by rw [opened, master]; decide))
  rw [clears]
  rw [updFn_same] at settings
  have bme := congrArg FnS.bme settings
  generalize (s.updFn fn (fun f => { f with bme := false })).bmeCleared fn = a at bme resets
  exact ⟨_, rfl, ((sameFns_raise a pPCIE 5).bme fn).trans bme, raise_bit a pPCIE 5 (by decide) (by decide) (by decide),
    fun t among => (raise_tnt_resetDone a pPCIE 5 t).trans (resets t among)⟩

theorem exec_busMasterEnableSet_sets (opened : s.cfgOpen fn = true) : ∃ u, exec (.busMasterEnableSet fn) s = .next u ∧
    (u.pcie.fns[fn]).bme = true ∧ u.hdr = s.hdr ∧ u.tnt = s.tnt ∧ u.nvm = s.nvm := by
  obtain ⟨fns, hdr, tnt, nvm⟩ := sendPending_keeps (s.updFn fn (fun f => { f with bme := true })) fn
  have set_ : ((s.updFn fn (fun f => { f with bme := true })).pcie.fns[fn]).bme = true := by rw [updFn_same]
  exact ⟨_, congrArg Host.Outcome.next (if_neg (by rw [opened]; decide)), (fns.bme fn).trans set_, hdr, tnt, nvm⟩

theorem exec_d3hotEntry_enters (opened : s.cfgOpen fn = true) (awake : (s.pcie.fns[fn]).d3hot = false) :
    ∃ u, exec (.d3hotEntry fn) s = .next u ∧ (u.pcie.fns[fn]).d3hot = true ∧ ∀ t ∈ s.fnTenants fn, (u.tnt[t]).resetDone = false := by
  obtain ⟨⟨r, b, settings⟩, resets⟩ := bmeCleared_resets (s.updFn fn (fun f => { f with d3hot := true })) fn
  rw [updFn_same] at settings
  exact ⟨_, congrArg Host.Outcome.next (if_neg (by rw [opened, awake]; decide)), congrArg FnS.d3hot settings, resets⟩

theorem exec_interruptModeChange_changes (opened : s.cfgOpen fn = true) (cfg : IntCfg) :
    ∃ u, exec (.interruptModeChange fn cfg) s = .next u ∧ (u.pcie.fns[fn]).cfg = cfg ∧ u.hdr = s.hdr ∧ u.tnt = s.tnt ∧ u.nvm = s.nvm := by
  have changed (drop again : Bool) : ∃ u, (if again then
      (s.updFn fn (fun f => { f with cfg := cfg, pending := if drop then [] else f.pending })).requestAll fn
      else s.updFn fn (fun f => { f with cfg := cfg, pending := if drop then [] else f.pending })).updInta = u ∧
      (u.pcie.fns[fn]).cfg = cfg ∧ u.hdr = s.hdr ∧ u.tnt = s.tnt ∧ u.nvm = s.nvm := by
    have set_ : ((s.updFn fn (fun f => { f with cfg := cfg, pending := if drop then [] else f.pending })).pcie.fns[fn]).cfg = cfg :=
      by rw [updFn_same]
    have asked : ∃ a, (if again then
        (s.updFn fn (fun f => { f with cfg := cfg, pending := if drop then [] else f.pending })).requestAll fn
        else s.updFn fn (fun f => { f with cfg := cfg, pending := if drop then [] else f.pending })) = a ∧
        (a.pcie.fns[fn]).cfg = cfg ∧ a.hdr = s.hdr ∧ a.tnt = s.tnt ∧ a.nvm = s.nvm := by
      cases again with
      | true =>
        obtain ⟨fns, hdr, tnt, nvm⟩ := requestAll_keeps
          (s.updFn fn (fun f => { f with cfg := cfg, pending := if drop then [] else f.pending })) fn
        exact ⟨_, rfl, (fns.cfg fn).trans set_, hdr, tnt, nvm⟩
      | false => exact ⟨_, rfl, set_, rfl, rfl, rfl⟩
    obtain ⟨a, same, cfg', hdr, tnt, nvm⟩ := asked
    rw [same]
    obtain ⟨fns, -, hdr', tnt', nvm'⟩ := updInta_keeps a
    exact ⟨_, rfl, (fns.cfg fn).trans cfg', hdr'.trans hdr, tnt'.trans tnt, nvm'.trans nvm⟩
  obtain ⟨u, same, keeps⟩ := changed _ _
  exact ⟨u, congrArg Host.Outcome.next ((if_neg (by rw [opened]; decide)).trans same), keeps⟩

/-- An unmasked vector sends what it holds, and no more happens. -/
theorem vectorUnmask_keeps (a : State) (fn : Fn) (k : Nat) (msix : Bool) :
    SameFns a (if (a.pcie.fns[fn]).cfg.msixEn = msix && a.mayMessage fn k then a.sendMessage fn k else a) ∧
    (if (a.pcie.fns[fn]).cfg.msixEn = msix && a.mayMessage fn k then a.sendMessage fn k else a).hdr = a.hdr := by
  split
  · obtain ⟨fns, hdr, -⟩ := sendMessage_keeps a fn k
    exact ⟨fns, hdr⟩
  · exact ⟨.rfl' a, rfl⟩

theorem exec_vectorUnmask_msix (vec : Fin 72) (opened : s.barOpen fn = true) (level : s.dev.level ≠ .none) (listed : vec.1 < msixVectors fn) :
    ∃ u, exec (.vectorUnmask fn true vec) s = .next u ∧ vec.1 ∈ (u.pcie.fns[fn]).unmasked ∧ u.hdr = s.hdr := by
  have set_ : vec.1 ∈ ((s.updFn fn (fun f => { f with
      unmasked := if f.unmasked.contains vec.1 then f.unmasked else f.unmasked ++ [vec.1] })).pcie.fns[fn]).unmasked := by
    rw [updFn_same]
    dsimp only
    split
    · next listed' => simpa using listed'
    · simp
  obtain ⟨fns, hdr⟩ := vectorUnmask_keeps (s.updFn fn (fun f => { f with
    unmasked := if f.unmasked.contains vec.1 then f.unmasked else f.unmasked ++ [vec.1] })) fn vec.1 true
  have may : ¬ (!(if true = true then s.barOpen fn && decide (s.dev.level ≠ .none) && decide (vec.1 < msixVectors fn) else s.cfgOpen fn)) = true := by
    simp [opened, level, listed]
  exact ⟨_, congrArg Host.Outcome.next (if_neg may), (fns.unmasked fn).symm ▸ set_, hdr⟩

theorem exec_vectorUnmask_msi (vec : Fin 72) (opened : s.cfgOpen fn = true) :
    ∃ u, exec (.vectorUnmask fn false vec) s = .next u ∧ vec.1 ∉ (u.pcie.fns[fn]).msiMasked ∧ u.hdr = s.hdr := by
  have set_ : vec.1 ∉ ((s.updFn fn (fun f => { f with msiMasked := f.msiMasked.filter (fun k => k ≠ vec.1) })).pcie.fns[fn]).msiMasked := by
    rw [updFn_same]
    simp
  obtain ⟨fns, hdr⟩ := vectorUnmask_keeps (s.updFn fn (fun f => { f with msiMasked := f.msiMasked.filter (fun k => k ≠ vec.1) })) fn vec.1 false
  have may : ¬ (!(if false = true then s.barOpen fn && decide (s.dev.level ≠ .none) && decide (vec.1 < msixVectors fn) else s.cfgOpen fn)) = true := by
    simp [opened]
  exact ⟨_, congrArg Host.Outcome.next (if_neg may), (fns.msiMasked fn).symm ▸ set_, hdr⟩

theorem exec_interruptDisable_writes (opened : s.cfgOpen 0 = true) (on : Bool) : ∃ u, exec (.interruptDisable on) s = .next u ∧
    u.pcie.intDisable = on ∧ u.hdr = s.hdr ∧ u.nvm = s.nvm := by
  obtain ⟨-, disable, hdr, -, nvm⟩ := updInta_keeps { s with pcie := { s.pcie with intDisable := on } }
  exact ⟨_, congrArg Host.Outcome.next (if_neg (by rw [opened]; decide)), disable, hdr, nvm⟩

end Own

/-! ## Configuration requests -/

section Requests
variable {s : State} {fn : Fn}

/-- A request that is no table write is a configuration request proper. -/
theorem exec_configurationRequest_proper {req : CfgReq} (proper : ∀ vec dw be v, req ≠ .msixWrite vec dw be v) :
    exec (.configurationRequest fn req) s = .next (s.cfgRequest fn req) := by
  cases req with
  | msixWrite vec dw be v => exact absurd rfl (proper vec dw be v)
  | _ => rfl

theorem cfgAnswers_parts (answers : s.cfgAnswers = true) : s.awake = true ∧ s.pins.perst = true ∧ s.pcie.dlUp = true ∧
    s.pcie.squallUr = false := by
  unfold State.cfgAnswers at answers
  simpa [and_assoc] using answers

theorem cfgRequest_retries (req : CfgReq) (answers : s.cfgAnswers = true) (claimed : s.claimed fn = true) (level : s.dev.level = .none) :
    s.cfgRequest fn req = s.emit (.crs fn) := by
  obtain ⟨-, -, -, silent⟩ := cfgAnswers_parts answers
  unfold State.cfgRequest
  rw [if_neg (by rw [silent, Bool.and_false]; decide), if_neg (by rw [answers, claimed]; decide), if_pos level]

theorem cfgRequest_acts (req : CfgReq) (opened : s.cfgOpen fn = true) : s.cfgRequest fn req = s.endLull.cfgAct fn req := by
  obtain ⟨answers, level, claimed⟩ := cfgOpen_parts opened
  obtain ⟨-, -, -, silent⟩ := cfgAnswers_parts answers
  unfold State.cfgRequest
  rw [if_neg (by rw [silent, Bool.and_false]; decide), if_neg (by rw [answers, claimed]; decide), if_neg level]

theorem cfgRequest_unsupported (req : CfgReq) (awake : s.awake = true) (perst : s.pins.perst = true) (up : s.pcie.dlUp = true)
    (deaf : s.pcie.squallUr = true) : s.cfgRequest fn req = (s.aerUncorrectable fn 20).emit (.unsupported fn) :=
  if_pos (by rw [awake, perst, up, deaf]; decide)

theorem setHalf_lower (x : DWord) (v : Word) : (setHalf x false v).setWidth 32 = v := by
  unfold setHalf
  ext i below
  simp

theorem setHalf_upper (x : DWord) (v : Word) : ((setHalf x true v) >>> 32).setWidth 32 = v := by
  unfold setHalf
  ext i below
  have within : i < 64 ∧ 32 + i < 64 := by omega
  have above : (4294967295#64)[32 + i]'within.2 = false := by
    rw [← BitVec.getLsbD_eq_getElem, show (4294967295#64) = (BitVec.allOnes 32).setWidth 64 from rfl, BitVec.getLsbD_setWidth,
      BitVec.getLsbD_of_ge _ _ (by omega), Bool.and_false]
  simp [above, within, below]

/-- What a write of a doubleword makes of an entry of the table. -/
def FnS.filled (f : FnS) (vec dw : Nat) (v : Word) : DWord × Word :=
  if dw = 2 then (((f.entries.find vec).getD (0, 0)).1, v)
  else (setHalf ((f.entries.find vec).getD (0, 0)).1 (decide (dw = 1)) v, ((f.entries.find vec).getD (0, 0)).2)

/-- The entry holds the doubleword written. -/
theorem filled_holds (f : FnS) (vec : Nat) (dw : Fin 3) (v : Word) :
    if dw.1 = 0 then (f.filled vec dw.1 v).1.setWidth 32 = v
    else if dw.1 = 1 then ((f.filled vec dw.1 v).1 >>> 32).setWidth 32 = v else (f.filled vec dw.1 v).2 = v := by
  match dw with
  | 0 => exact setHalf_lower ((f.entries.find vec).getD (0, 0)).1 v
  | 1 => exact setHalf_upper ((f.entries.find vec).getD (0, 0)).1 v
  | 2 => exact rfl

theorem exec_configurationRequest_tableWrite (vec : Fin 72) (dw : Fin 3) (v : Word) (opened : s.barOpen fn = true)
    (level : s.dev.level ≠ .none) (listed : vec.1 < msixVectors fn) :
    ∃ u, exec (.configurationRequest fn (.msixWrite vec dw 15#4 v)) s = .next u ∧ u.hdr = s.hdr ∧
      ∃ e, (u.pcie.fns[fn]).entries.find vec.1 = some e ∧
        (if dw.1 = 0 then e.1.setWidth 32 = v else if dw.1 = 1 then (e.1 >>> 32).setWidth 32 = v else e.2 = v) := by
  have fills : s.msixTableWrite fn vec.1 dw.1 15#4 v =
      s.updFn fn (fun f => { f with entries := f.entries.put vec.1 (f.filled vec.1 dw.1 v) }) := by
    unfold State.msixTableWrite
    exact (if_neg (by simp [opened, level, listed])).trans (if_neg (by decide))
  refine ⟨_, congrArg Host.Outcome.next fills, rfl, (s.pcie.fns[fn]).filled vec.1 dw.1 v, ?_, ?_⟩
  · have entries : ((s.updFn fn (fun f => { f with entries := f.entries.put vec.1 (f.filled vec.1 dw.1 v) })).pcie.fns[fn]).entries =
        (s.pcie.fns[fn]).entries.put vec.1 ((s.pcie.fns[fn]).filled vec.1 dw.1 v) := by rw [updFn_same]
    rw [entries, KMap.find_put_same]
  · exact filled_holds _ _ dw v

end Requests

/-! ## Errors -/

section Errors
variable {s : State} {fn : Fn}

theorem aerUncorrectable_logs (s : State) (fn : Fn) (b : Nat) : (s.aerUncorrectable fn b).bit pPCIE 9 = true ∧
    ((s.aerUncorrectable fn b).pcie.fns[fn]).aerUnc = (s.pcie.fns[fn]).aerUnc ||| bitW true b := by
  unfold State.aerUncorrectable
  refine ⟨raise_bit _ pPCIE 9 (by decide) (by decide) (by decide), ((sameFns_raise _ _ _).aerUnc fn).trans ?_⟩
  rw [updFn_same]
  rfl

theorem aerCorrectable_logs (s : State) (fn : Fn) (b : Nat) : (s.aerCorrectable fn b).bit pPCIE 10 = true ∧
    ((s.aerCorrectable fn b).pcie.fns[fn]).aerCorr = (s.pcie.fns[fn]).aerCorr ||| bitW true b := by
  unfold State.aerCorrectable
  refine ⟨raise_bit _ pPCIE 10 (by decide) (by decide) (by decide), ((sameFns_raise _ _ _).aerCorr fn).trans ?_⟩
  rw [updFn_same]

/-- A link error other than a wrong ECRC is logged in PF0 by its kind (R178). -/
theorem linkErrorLogged_logs (s : State) {e : LinkError} (plain : e ≠ .ecrc) :
    ((linkErrorBit e).1 = true → (s.linkErrorLogged e).bit pPCIE 10 = true ∧
      ((s.linkErrorLogged e).pcie.fns[(0 : Fn)]).aerCorr = (s.pcie.fns[(0 : Fn)]).aerCorr ||| bitW true (linkErrorBit e).2) ∧
    ((linkErrorBit e).1 = false → (s.linkErrorLogged e).bit pPCIE 9 = true ∧
      ((s.linkErrorLogged e).pcie.fns[(0 : Fn)]).aerUnc = (s.pcie.fns[(0 : Fn)]).aerUnc ||| bitW true (linkErrorBit e).2) := by
  unfold State.linkErrorLogged
  rw [if_neg (by simp [plain])]
  refine ⟨fun corr => ?_, fun unc => ?_⟩
  · rw [if_pos corr]
    exact aerCorrectable_logs s 0 _
  · rw [if_neg (by rw [unc]; exact Bool.false_ne_true)]
    exact aerUncorrectable_logs s 0 _

theorem exec_unsupportedRequest_link {e : LinkError} (awake : s.awake = true) (up : s.pcie.dlUp = true) :
    exec (.unsupportedRequest fn (.link e)) s = .next (s.linkErrorLogged e) :=
  congrArg Host.Outcome.next (if_neg (by simp [awake, up]))

theorem exec_unsupportedRequest_posted (awake : s.awake = true) (up : s.pcie.dlUp = true) (closed : s.barOpen fn = false) :
    exec (.unsupportedRequest fn .memWrite) s = .next (s.aerUncorrectable fn 20) :=
  congrArg Host.Outcome.next (if_neg (by simp [awake, up, closed]))

theorem exec_unsupportedRequest_answered {kind : UrKind} (awake : s.awake = true) (up : s.pcie.dlUp = true) (closed : s.barOpen fn = false)
    (plain : ∀ e, kind ≠ .link e) (answered : kind ≠ .memWrite) :
    exec (.unsupportedRequest fn kind) s = .next ((s.aerUncorrectable fn 20).emit (.unsupported fn)) := by
  refine congrArg Host.Outcome.next ((if_neg (by simp [awake, up, closed])).trans ?_)
  cases kind with
  | link e => exact absurd rfl (plain e)
  | memWrite => exact absurd rfl answered
  | _ => rfl

theorem exec_unsupportedRequest_logs {kind : UrKind} (awake : s.awake = true) (up : s.pcie.dlUp = true) (closed : s.barOpen fn = false)
    (plain : ∀ e, kind ≠ .link e) : ∃ u, exec (.unsupportedRequest fn kind) s = .next u ∧ u.bit pPCIE 9 = true ∧
      (u.pcie.fns[fn]).aerUnc = (s.pcie.fns[fn]).aerUnc ||| bitW true 20 ∧ (kind ≠ .memWrite → .unsupported fn ∈ u.outbox) := by
  obtain ⟨bit, logged⟩ := aerUncorrectable_logs s fn 20
  by_cases posted : kind = .memWrite
  · rw [posted]
    exact ⟨_, exec_unsupportedRequest_posted awake up closed, bit, logged, fun other => absurd rfl other⟩
  · exact ⟨_, exec_unsupportedRequest_answered awake up closed plain posted, bit, ((sameFns_emit _ _).aerUnc fn).trans logged,
      fun _ => mem_emit_outbox _ _⟩

theorem poisonReceived_keeps (s : State) (fn : Fn) : (s.poisonReceived fn).bit pPCIE 7 = true ∧ (s.poisonReceived fn).nvm = s.nvm ∧
    (s.poisonReceived fn).regs = s.regs := by
  have counted : (({ s with pcie := { s.pcie with poisonRx := satInc s.pcie.poisonRx } } : State).raise pPCIE 7).bit pPCIE 7 = true :=
    raise_bit _ pPCIE 7 (by decide) (by decide) (by decide)
  unfold State.poisonReceived State.aerAdvisory State.aerUncorrectable
  split
  · exact ⟨raise_keeps _ _ _ _ _ counted, by simp, by simp⟩
  · exact ⟨raise_keeps _ _ _ _ _ counted, by simp, by simp⟩

theorem exec_poisonedMemoryWrite_counts (space : BarSpace) (awake : s.awake = true) (up : s.pcie.dlUp = true) (hears : s.pcie.squallUr = false) :
    exec (.poisonedMemoryWrite space) s = .next (s.poisonReceived (barFn space)) :=
  congrArg Host.Outcome.next (if_pos (by simp [awake, up, hears]))

/-! ## Completions of abandoned reads -/

theorem exec_staleCompletion_known {rtag n left at_ : Nat} {f : Fn} (awake : s.awake = true) (up : s.pcie.dlUp = true)
    (known : s.pcie.staleReads.find rtag = some (f, left, at_)) : exec (.staleCompletion rtag n false) s = .next { s with
      pcie := { s.pcie with
        staleReads := if left - n = 0 then s.pcie.staleReads.del rtag else s.pcie.staleReads.put rtag (f, left - n, at_),
        stale := satInc s.pcie.stale } } := by
  refine congrArg Host.Outcome.next ((if_neg (by simp [awake, up])).trans ?_)
  rw [known]
  rfl

theorem exec_staleCompletion_unknown {rtag n : Nat} (awake : s.awake = true) (up : s.pcie.dlUp = true)
    (unknown : s.pcie.staleReads.find rtag = none) : exec (.staleCompletion rtag n false) s = .next (s.aerUncorrectable 0 16) := by
  refine congrArg Host.Outcome.next ((if_neg (by simp [awake, up])).trans ?_)
  rw [unknown]

theorem exec_aspmL1Entry_enters (clkreqHigh : Bool) (awake : s.awake = true) (up : s.pcie.dlUp = true)
    (enabled : (s.pcie.fns[(0 : Fn)]).aspmL1 = true) (inL0 : s.pcie.pmState = 0#3) (powered : (s.pcie.fns[(0 : Fn)]).d3hot = false)
    (idle : s.pcie.idleAt + bits (s.reg pPCIE 0x108 32#32) 15 0 ≤ s.now) : exec (.aspmL1Entry clkreqHigh) s =
      .next { s with pcie := { s.pcie with pmState := s.pcie.l1State false clkreqHigh, ltssm := 21#5 } } := by
  refine congrArg Host.Outcome.next ((if_pos ?_).trans (by rw [powered]))
  rw [awake, up, inL0, powered, enabled, decide_eq_true idle]
  decide

end Errors

/-- Settles O39: the lemmas above, command by command. -/
theorem theEndpointAnswers : Obligations.TheEndpointAnswers := by
  unfold Obligations.TheEndpointAnswers
  refine ⟨fun s fn opened => ⟨exec_busMasterEnableClear_resets opened, exec_busMasterEnableSet_sets opened,
      exec_d3hotEntry_enters opened, exec_interruptModeChange_changes opened, fun vec => ⟨fun bar listed => ?table,
      exec_vectorUnmask_msi vec opened⟩, fun pf0 on => exec_interruptDisable_writes (pf0 ▸ opened) on⟩,
    fun s fn => ⟨fun req proper answers claimed level => ?retry, fun opened b => ?mse, fun awake perst up deaf dw => ?deaf,
      fun vec dw v opened level listed => exec_configurationRequest_tableWrite vec dw v opened level listed,
      fun e awake up plain => ⟨_, exec_unsupportedRequest_link awake up, linkErrorLogged_logs s plain⟩,
      fun kind awake up closed plain => exec_unsupportedRequest_logs awake up closed plain,
      fun space awake up hears => ?poison, fun rtag n f left at_ awake up known => ⟨fun last => ?last, fun more => ?more⟩,
      fun rtag n awake up unknown => ⟨_, exec_staleCompletion_unknown awake up unknown, aerUncorrectable_logs s 0 16⟩,
      fun awake up enabled inL0 powered idle => ⟨?l1, fun substate => ?l12⟩⟩⟩
  case table =>
    obtain ⟨-, level, -⟩ := cfgOpen_parts opened
    exact exec_vectorUnmask_msix vec bar level listed
  case retry => exact (exec_configurationRequest_proper proper).trans (congrArg Host.Outcome.next (cfgRequest_retries req answers claimed level))
  case mse => exact congrArg Host.Outcome.next (cfgRequest_acts (.setMse b) opened)
  case deaf =>
    obtain ⟨bit, -⟩ := aerUncorrectable_logs s fn 20
    exact ⟨_, congrArg Host.Outcome.next (cfgRequest_unsupported (.read dw) awake perst up deaf), bit, mem_emit_outbox _ _⟩
  case poison =>
    obtain ⟨bit, nvm, regs⟩ := poisonReceived_keeps s (barFn space)
    exact ⟨_, exec_poisonedMemoryWrite_counts space awake up hears, poisonReceived_poisonRx s _, bit, nvm, regs⟩
  case last =>
    rw [exec_staleCompletion_known awake up known, if_pos (Nat.sub_eq_zero_of_le last)]
  case more =>
    rw [exec_staleCompletion_known awake up known, if_neg (Nat.sub_pos_of_lt more).ne']
  case l1 => exact exec_aspmL1Entry_enters false awake up enabled inL0 powered idle
  case l12 =>
    have deepest : s.pcie.l1State false true = 3#3 := by
      unfold PcieS.l1State
      exact (if_neg Bool.false_ne_true).trans (if_pos substate)
    rw [exec_aspmL1Entry_enters true awake up enabled inL0 powered idle, deepest]

end Sys2Proof.Machine
end

section
/-!
PROOFS. Resets by pin and power, and the straps (02 R35 to R40; 03 R61; 08 R249, R250; 16 R512).
-/
namespace Sys2Proof.Machine

/-! ## What resets keep -/

/-- What NOR, OTP and the media hold, of which partial imports are no part. -/
def Nvm.boots (n : Nvm) : Memory × KMap Superblock × List EvRec × Nat := (n.nor, n.sbs, n.permanent, n.floor)

theorem dropPartials_boots (l : List Import) (n : Nvm) : (l.foldl Nvm.dropPartial n).boots = n.boots := by
  induction l generalizing n with
  | nil => rfl
  | cons i r ih => exact ih (n.dropPartial i)

theorem keptNvm_keeps (s : State) : s.keptNvm.nor = s.nvm.nor ∧ s.keptNvm.sbs = s.nvm.sbs ∧ s.keptNvm.permanent = s.nvm.permanent ∧
    s.keptNvm.floor = s.nvm.floor ∧ s.keptNvm.accs = s.nvm.ckptAccs := by
  have kept := dropPartials_boots s.vfr.imports s.nvm
  simp only [Nvm.boots, Prod.mk.injEq] at kept
  obtain ⟨nor, sbs, permanent, floor⟩ := kept
  exact ⟨nor, sbs, permanent, floor, rfl⟩

/-! ## RESET_IN_L -/

section Pin
variable {s : State} {n : Nat}

/-- The chip reset of a low that takes effect (02 R39). -/
def State.pinReset (s : State) : State :=
  (({ s with pins := { s.pins with resetIn := false } } : State).addCause .chip).chipReset

theorem exec_resetInLAssert_resets (long : 1100 < n) (high : s.pins.resetIn = true) (idle : s.squall.running = false)
    (alone : .pfailLFall ∉ s.pending) : exec (.resetInLAssert n) s = .next s.pinReset := by
  have none_ : s.pending.contains .pfailLFall = false := by simpa using alone
  show execResetInLAssert n s = _
  unfold execResetInLAssert
  simp only [none_, high, idle, Nat.not_lt.mpr (show 1000 ≤ n by omega), Nat.not_le.mpr long, Bool.not_true, Bool.false_and, if_false,
    Bool.false_eq_true]
  rfl

/-- A low between 1.0 and 1.1 µs resets by a free value (16 R512). -/
theorem exec_resetInLAssert_may (least : 1000 ≤ n) (most : n ≤ 1100) (high : s.pins.resetIn = true) (idle : s.squall.running = false)
    (alone : .pfailLFall ∉ s.pending) :
    exec (.resetInLAssert n) s = .next (if s.freeVal.getLsbD 0 then s.pinReset.drawn else s.drawn) := by
  have none_ : s.pending.contains .pfailLFall = false := by simpa using alone
  show execResetInLAssert n s = _
  unfold execResetInLAssert
  simp only [none_, high, idle, Nat.not_lt.mpr least, most, Bool.not_true, Bool.false_and, if_false, Bool.false_eq_true, if_true]
  rfl

/-- During Squall the reset waits (02 R39). -/
theorem exec_resetInLAssert_held (long : 1100 < n) (high : s.pins.resetIn = true) (runs : s.squall.running = true)
    (early : s.squall.hold = false) (alone : .pfailLFall ∉ s.pending) : exec (.resetInLAssert n) s =
      .next { s with pins := { s.pins with resetIn := false }, squall := { s.squall with resetHeld := true } } := by
  have none_ : s.pending.contains .pfailLFall = false := by simpa using alone
  show execResetInLAssert n s = _
  unfold execResetInLAssert
  simp only [none_, high, runs, early, Nat.not_lt.mpr (show 1000 ≤ n by omega), Nat.not_le.mpr long, Bool.not_true, Bool.not_false,
    Bool.and_self, if_false, if_true, Bool.false_eq_true]

/-- A PFAIL_L fall that waits starts Squall first, which then holds the reset off (02 R40). -/
theorem exec_resetInLAssert_pfail (long : 1100 < n) (high : s.pins.resetIn = true) (active : s.active = true)
    (falls : .pfailLFall ∈ s.pending) : exec (.resetInLAssert n) s = .next { s.squallTrigger sqPFAIL with
      pins := { (s.squallTrigger sqPFAIL).pins with resetIn := false },
      squall := { (s.squallTrigger sqPFAIL).squall with resetHeld := true } } := by
  have some_ : s.pending.contains .pfailLFall = true := by simpa using falls
  obtain ⟨running, -, -, -, hold⟩ := squallTrigger_starts active sqPFAIL
  show execResetInLAssert n s = _
  unfold execResetInLAssert
  simp only [some_, if_true]
  generalize s.squallTrigger sqPFAIL = a at running hold
  simp only [high, running, hold, Nat.not_lt.mpr (show 1000 ≤ n by omega), Nat.not_le.mpr long, Bool.not_true, Bool.not_false,
    Bool.and_self, if_false, if_true, Bool.false_eq_true]

theorem exec_resetInLAssert_short (short : n < 1000) : exec (.resetInLAssert n) s = .next s := if_pos short

end Pin

/-! ## The start after the straps -/

/-- What the straps and the reset causes of a start are, and the DRBG and identity it has. -/
def State.startView (s : State) : Bool × Strap × BitVec 7 × BitVec 2 × Option Hash :=
  (s.boot.strapsIn, s.dev.strap, s.aon.causeAcc, s.sign.drbg, s.sign.identity)

theorem startView_recordAs (s : State) (rom : Bool) (code : Nat) (sev : Fin 4) (tenant : Byte) (detail : List Byte) :
    (s.recordAs rom code sev tenant detail).startView = s.startView := by
  have acc : (s.recordAs rom code sev tenant detail).aon.causeAcc = s.aon.causeAcc :=
    congrArg (fun x => x.aon.causeAcc) (recordAs_unlogged s rom code sev tenant detail)
  unfold State.startView
  rw [acc, State.recordAs_boot, State.recordAs_dev, State.recordAs_sign]

theorem startView_raise (s : State) (p : Page) (b : Nat) : (s.raise p b).startView = s.startView := by
  unfold State.startView
  rw [State.raise_boot, State.raise_dev, State.raise_aon, State.raise_sign]

theorem startView_ite {p : Prop} [Decidable p] {a b s : State} (yes : a.startView = s.startView) (no : b.startView = s.startView) :
    (if p then a else b).startView = s.startView := by
  split
  · exact yes
  · exact no

theorem startView_judgeMark (s : State) (taken : BitVec 7) : (s.judgeMark taken).startView = s.startView := by
  unfold State.judgeMark
  split
  · rfl
  · dsimp only
    split <;> rfl

theorem startView_strapRecords (s : State) : s.strapRecords.startView = s.startView := by
  have given (b : Bool) (a : State) (code : Nat) (d : List Byte) :
      (if b then a.recordAs true code 2 noTenant d else a).startView = a.startView := startView_ite (startView_recordAs ..) rfl
  unfold State.strapRecords
  exact startView_ite ((startView_recordAs ..).trans ((given ..).trans (given ..))) ((given ..).trans (given ..))

theorem startView_romRecover (s : State) (cause detail : Byte) : (s.romRecover cause detail).startView = s.startView ∧
    (s.romRecover cause detail).boot.booted = none := by
  unfold State.romRecover
  dsimp only
  refine ⟨(startView_raise _ _ _).trans ?_, ?_⟩
  · exact startView_recordAs s true 0x2641 3 noTenant (leBytes 4 (rcvCauseWord cause detail false).toNat)
  · rw [State.raise_boot]

theorem startView_raiseTenants (s : State) (p : State → Tid → Bool) (b : Nat) : (s.raiseTenants p b).startView = s.startView :=
  foldl_same (part := State.startView) (fun a t => by
    split
    · exact startView_raise a (pTNT t) b
    · rfl) _ s

theorem startView_setLevel (s : State) (l : Level) : (s.setLevel l).startView = s.startView := by
  unfold State.setLevel
  split
  · rfl
  · exact (startView_raiseTenants _ _ _).trans (startView_raise _ _ _)

theorem startView_dispStart (s : State) : s.dispStart.startView = s.startView := by
  unfold State.dispStart
  split
  · split <;> rfl
  · rfl

theorem startView_recover (s : State) (cause detail : Byte) : (s.recover cause detail).startView = s.startView := by
  unfold State.recover
  dsimp only
  have acked (a : State) : a.ackCause.startView = a.startView := startView_recordAs a false 0x0340 0 noTenant _
  rw [startView_dispStart, acked, startView_setLevel]
  exact startView_recordAs s.saveGust false 0x2641 3 noTenant (leBytes 4 (rcvCauseWord cause detail true).toNat)

theorem startView_gustWarnings (s : State) (d : BoardDesc) (p : Policy) : (s.gustWarnings d p).startView = s.startView :=
  foldl_same (part := State.startView) (fun a t => by
    split
    · exact startView_recordAs a false 0x2643 2 (tidByte t) [tidByte t]
    · rfl) _ s

/-- Adeit's start has its DRBG and its identity key (R94; 08 R249, R250). -/
theorem startView_adeitStart (s : State) (d : BoardDesc) : (s.adeitStart d).startView =
    (s.boot.strapsIn, s.dev.strap, s.aon.causeAcc, 1#2, some (deriveScalar "KL4064 IDENTITY")) := by
  unfold State.adeitStart
  dsimp only
  split
  · exact startView_recover ..
  · exact startView_gustWarnings ..

/-- What a start has got to: it booted no image, or Adeit has its keys. -/
def State.Started (s u : State) : Prop :=
  u.boot.strapsIn = s.boot.strapsIn ∧ u.dev.strap = s.dev.strap ∧ u.aon.causeAcc = s.aon.causeAcc ∧
    (u.boot.booted = none ∨ u.sign.drbg = 1#2 ∧ u.sign.identity = some (deriveScalar "KL4064 IDENTITY"))

theorem started_romRecover {s a : State} (cause detail : Byte) (same : a.startView = s.startView) :
    s.Started (a.romRecover cause detail) := by
  obtain ⟨view, booted⟩ := startView_romRecover a cause detail
  have kept := view.trans same
  simp only [State.startView, Prod.mk.injEq] at kept
  obtain ⟨straps, strap, acc, -⟩ := kept
  exact ⟨straps, strap, acc, .inl booted⟩

theorem started_adeitStart {s a : State} (d : BoardDesc) (same : a.startView = s.startView) : s.Started (a.adeitStart d) := by
  have view := startView_adeitStart a d
  simp only [State.startView, Prod.mk.injEq] at view same
  obtain ⟨straps, strap, acc, drbg, identity⟩ := view
  obtain ⟨straps', strap', acc', -⟩ := same
  exact ⟨straps.trans straps', strap.trans strap', acc.trans acc', .inr ⟨drbg, identity⟩⟩

/-- The state in which the slots have been tried: which are good, and no slot armed that is not (R102). -/
def State.slotsTried (s : State) : State :=
  let r := s.ctlRec
  let first := r.armed.getD r.active
  let c := s.chooseSlot r
  let cand := if c.2 then !first else first
  let tried (b : Bool) : Bool := decide (b = cand) || !s.slotGood cand
  let s1 : State := { s with boot := { s.boot with
      aGood := tried false && s.slotGood false, bGood := tried true && s.slotGood true } }
  match r.armed with
  | some b => if tried b && !s.slotGood b then s1.writeRec { r with armed := none } else s1
  | none => s1

theorem startView_slotsTried (s : State) : s.slotsTried.startView = s.startView := by
  unfold State.slotsTried
  dsimp only
  cases s.ctlRec.armed with
  | none => rfl
  | some b => exact startView_ite rfl rfl

/-- The state in which a slot is booted; a fallback leaves its record (R103). -/
def State.slotBooted (s : State) (r : CtlRec) (limited : Bool) (b : Bool) : State :=
  let first := r.armed.getD r.active
  let cand := if limited then !first else first
  let s3 : State := { s with boot := { s.boot with booted := some b, fallback := decide (b ≠ first) },
                             aon := { s.aon with mark := some b, markFault := false } }
  if b ≠ first then
    s3.recordAs true 0x2640 2 noTenant
      [if first then 1 else 0, if b then 1 else 0, if limited && decide (b = cand) then 2 else 1]
  else s3

theorem startView_slotBooted (s : State) (r : CtlRec) (limited b : Bool) : (s.slotBooted r limited b).startView = s.startView := by
  unfold State.slotBooted
  exact startView_ite (startView_recordAs ..) rfl

theorem romSlots_none {s : State} {d : BoardDesc} (none_ : (s.chooseSlot s.ctlRec).1 = none) :
    s.romSlots d = s.slotsTried.romRecover 0x03 0 := by
  unfold State.romSlots
  simp only [none_]
  rfl

theorem romSlots_some {s : State} {d : BoardDesc} {b : Bool} (booted : (s.chooseSlot s.ctlRec).1 = some b) :
    s.romSlots d = (s.slotsTried.slotBooted s.ctlRec (s.chooseSlot s.ctlRec).2 b).adeitStart d := by
  unfold State.romSlots
  simp only [booted]
  rfl

theorem started_romSlots {s a : State} (d : BoardDesc) (same : a.startView = s.startView) : s.Started (a.romSlots d) := by
  have tried := (startView_slotsTried a).trans same
  cases choice : (a.chooseSlot a.ctlRec).1 with
  | none =>
    rw [romSlots_none choice]
    exact started_romRecover 0x03 0 tried
  | some b =>
    rw [romSlots_some choice]
    exact started_adeitStart d ((startView_slotBooted a.slotsTried _ _ b).trans tried)

theorem started_romBoot (s : State) : State.Started { s with aon := { s.aon with causeAcc := 0#7 } } s.romBoot := by
  have begun (a : State) (same : a.aon.causeAcc = 0#7 ∧ a.boot = s.boot ∧ a.dev = s.dev ∧ a.sign = s.sign) (taken : BitVec 7) (pad : PadState) :
      State.startView { (a.judgeMark taken).strapRecords with dev := { (a.judgeMark taken).strapRecords.dev with pad := pad } } =
        State.startView { s with aon := { s.aon with causeAcc := 0#7 } } := by
    obtain ⟨acc, boot, dev, sign⟩ := same
    refine Eq.trans ((startView_strapRecords _).trans (startView_judgeMark a taken)) ?_
    unfold State.startView
    rw [acc, boot, dev, sign]
  unfold State.romBoot
  dsimp only
  have view := begun { s with aon := { s.aon with rstCause := s.aon.rstCause ||| s.aon.causeAcc, causeAcc := 0#7 } } ⟨rfl, rfl, rfl, rfl⟩
    s.aon.causeAcc
  generalize ({ s with aon := { s.aon with rstCause := s.aon.rstCause ||| s.aon.causeAcc, causeAcc := 0#7 } } : State).judgeMark s.aon.causeAcc
    = b at view
  generalize b.strapRecords = c at view
  have ready := view { c.dev.pad with qspi := true, i2ct := true }
  split
  · exact started_romRecover _ _ ready
  · split
    · exact started_romRecover _ _ ready
    · split
      · exact started_romRecover _ _ ready
      · exact started_romSlots _ ready

theorem exec_strapSampling_starts {s : State} (awake : s.awake = true) (waits : s.boot.strapsIn = false) (idle : s.squall.running = false)
    (a b c : BitVec 6) : ∃ u, exec (.strapSampling a b c) s = .next u ∧ u.boot.strapsIn = true ∧ u.dev.strap = strapOf a b c ∧
      u.aon.causeAcc = 0#7 ∧ (s.boot.booted = none → u.boot.booted.isSome = true → u.sign.drbg = 1#2 ∧
        u.sign.identity = some (deriveScalar "KL4064 IDENTITY")) := by
  obtain ⟨straps, strap, acc, started⟩ := started_romBoot
    { s with dev := { s.dev with strap := strapOf a b c }, boot := { s.boot with strapsIn := true } }
  refine ⟨_, if_pos (by rw [awake, waits, idle]; decide), straps, strap, acc, fun _ booted => ?_⟩
  obtain none_ | keys := started
  · rw [none_] at booted
    cases booted
  · exact keys

theorem exec_strapSampling_done {s : State} (done : s.boot.strapsIn = true) (a b c : BitVec 6) : exec (.strapSampling a b c) s = .next s :=
  if_neg (by simp [done])

/-- Three equal samples are stable, and give the strap its value (R35, R37). -/
theorem strapOf_same (a : BitVec 6) : (strapOf a a a).unstable = false ∧ (strapOf a a a).test = a.getLsbD 0 ∧
    (strapOf a a a).recovery = a.getLsbD 1 := by
  refine ⟨?_, ?_, ?_⟩ <;> simp [strapOf, strapBit]

theorem exec_resetRelease_starts {s : State} (low : s.pins.resetIn = false) (idle : s.squall.running = false) :
    exec .resetRelease s = .next (State.release { s with pins := { s.pins with resetIn := true } }) := by
  show execResetRelease s = _
  unfold execResetRelease
  rw [if_neg (by rw [low]; decide)]
  exact congrArg Host.Outcome.next (if_neg (by rw [idle]; decide))

/-- Settles O40: the lemmas above, command by command. -/
theorem resetsAndStraps : Obligations.ResetsAndStraps := by
  unfold Obligations.ResetsAndStraps
  refine ⟨fun s => ⟨?power, fun n short => exec_resetInLAssert_short short, fun n long high idle alone => ?resets,
      fun n long high active falls => ?pfail, fun n long high runs early alone => exec_resetInLAssert_held long high runs early alone,
      fun n least most high idle alone => ?may, fun low idle => ?release⟩,
    fun s a b c => ⟨fun awake waits idle => exec_strapSampling_starts awake waits idle a b c,
      fun done => exec_strapSampling_done done a b c, strapOf_same a⟩⟩
  case power =>
    obtain ⟨nor, sbs, permanent, floor, accs⟩ := keptNvm_keeps s
    exact ⟨_, rfl, rfl, rfl, rfl, rfl, rfl, rfl, nor, sbs, permanent, floor, accs⟩
  case resets =>
    obtain ⟨-, -, permanent, -⟩ := keptNvm_keeps s
    exact ⟨_, exec_resetInLAssert_resets long high idle alone, rfl, rfl, rfl, rfl, rfl, rfl, permanent⟩
  case pfail =>
    obtain ⟨running, -, causes, -⟩ := squallTrigger_starts active sqPFAIL
    exact ⟨_, exec_resetInLAssert_pfail long high active falls, running, causes, rfl, rfl⟩
  case may =>
    refine ⟨_, exec_resetInLAssert_may least most high idle alone, ?_⟩
    split
    · exact .inr ⟨rfl, rfl⟩
    · exact .inl rfl
  case release =>
    exact ⟨_, exec_resetRelease_starts low idle, rfl, rfl, rfl, rfl, rfl⟩

end Sys2Proof.Machine
end

section
/-!
PROOFS. Clock loss and Squall (03 R58 to R64; 11 R348 to R357; 15 R481).
-/
namespace Sys2Proof.Machine

/-! ## The start of Squall -/

section Starts
variable {s : State}

theorem squallTrigger_of_active (active : s.active = true) (cause : Byte) :
    s.squallTrigger cause = ((s.supplySeen cause).collect cause).squallStart cause := by
  obtain ⟨awake, running⟩ := active_parts active
  simp [State.squallTrigger, hold_of_awake awake, awake, running]

/-- What step 1 lets go, and what it leaves. -/
theorem squallStart_does (s : State) (cause : Byte) : (s.squallStart cause).pwr.lull = false ∧ (s.squallStart cause).dbg.halted = 0#4 ∧
    (s.squallStart cause).nvm.squalls = s.nvm.squalls + 1 ∧ (s.squallStart cause).clk = s.clk ∧ (s.squallStart cause).vfl = s.vfl ∧
    (s.squallStart cause).aon.causeAcc = s.aon.causeAcc := by
  unfold State.squallStart
  dsimp only
  generalize [cause] ++ zeroBytes 3 ++ leBytes 4 s.held ++ leBytes 4 s.budget ++ leBytes 2 s.vcapNow = detail
  have same := record_unlogged s 0x1B40 1 noTenant detail
  have squalls : (s.record 0x1B40 1 noTenant detail).nvm.squalls = s.nvm.squalls := congrArg (fun x => x.nvm.squalls) same
  have acc : (s.record 0x1B40 1 noTenant detail).aon.causeAcc = s.aon.causeAcc := congrArg (fun x => x.aon.causeAcc) same
  exact ⟨rfl, rfl, congrArg (· + 1) squalls, State.record_clk s 0x1B40 1 noTenant detail, State.record_vfl s 0x1B40 1 noTenant detail, acc⟩

/-- A supply or clock cause enters no accumulator of AON (R63). -/
theorem collect_supply {cause : Byte} (dog : cause ≠ sqWATCHDOG) (soft : cause ≠ sqSOFTWARE) :
    (s.supplySeen cause).collect cause = s.supplySeen cause :=
  (if_neg dog).trans (if_neg soft)

theorem exec_pfailLFall_starts (active : s.active = true) : ∃ u, exec .pfailLFall s = .next u ∧ u.squall.running = true ∧
    u.squall.step = 1 ∧ u.squall.causes = sqPFAIL ∧ u.pcie.squallUr = true ∧ u.pwr.lull = false ∧ u.dbg.halted = 0#4 ∧
    u.nvm.squalls = s.nvm.squalls + 1 := by
  obtain ⟨running, step, causes, deaf, -⟩ := squallTrigger_starts active sqPFAIL
  have started := (squallTrigger_of_active active sqPFAIL).trans
    (congrArg (fun a => State.squallStart a sqPFAIL) (collect_supply (s := s) (by decide) (by decide)))
  obtain ⟨lull, halted, squalls, -⟩ := squallStart_does (s.supplySeen sqPFAIL) sqPFAIL
  rw [← started] at lull halted squalls
  exact ⟨_, rfl, running, step, causes, deaf, lull, halted, squalls⟩

theorem exec_pfailLFall_joins (awake : s.awake = true) (runs : s.squall.running = true) : ∃ u, exec .pfailLFall s = .next u ∧
    u.squall = { s.squall with causes := s.squall.causes ||| sqPFAIL } ∧ u.nvm = s.nvm := by
  have joined : s.squallTrigger sqPFAIL = { s.supplySeen sqPFAIL with
      squall := { s.squall with causes := s.squall.causes ||| sqPFAIL } } := by
    unfold State.squallTrigger
    dsimp only
    rw [if_neg (by simp [hold_of_awake awake, awake]), collect_supply (by decide) (by decide), if_pos runs]
    rfl
  exact ⟨_, congrArg Host.Outcome.next joined, rfl, rfl⟩

theorem exec_vsupConversion_below {d : BoardDesc} {mV : Nat} (active : s.active = true) (desc : s.boot.desc = some d)
    (low : mV < d.vsupTrip) : exec (.vsupConversion mV) s = .next (s.squallTrigger sqVSUP) := by
  obtain ⟨awake, -⟩ := active_parts active
  show execVsupConversion mV s = _
  unfold execVsupConversion
  rw [desc]
  dsimp only
  rw [if_neg (by simp [hold_of_awake awake]), if_pos (by simp [awake, low])]

theorem exec_vsupConversion_above {d : BoardDesc} {mV : Nat} (active : s.active = true) (desc : s.boot.desc = some d)
    (enough : d.vsupTrip ≤ mV) : exec (.vsupConversion mV) s = .next s := by
  obtain ⟨awake, -⟩ := active_parts active
  show execVsupConversion mV s = _
  unfold execVsupConversion
  rw [desc]
  dsimp only
  rw [if_neg (by simp [hold_of_awake awake]), if_neg (by simp [enough])]

theorem exec_watchdogExpiry_starts (normal : s.dev.romRecovery = false) (runs : s.dbg.halted = 0#4) :
    exec .watchdogExpiry s = .next (s.squallTrigger sqWATCHDOG) :=
  congrArg Host.Outcome.next (if_neg (by simp [normal, runs]))

theorem exec_watchdogExpiry_paused (halted : s.dbg.halted ≠ 0#4) : exec .watchdogExpiry s = .next s :=
  congrArg Host.Outcome.next (if_pos (by simp [halted]))

end Starts

/-! ## The crystal monitor -/

section Crystal
variable {s : State}

theorem exec_crystalMonitorWindow_counts (awake : s.awake = true) (n : BitVec 16) (e l : Bool) : exec (.crystalMonitorWindow n e l) s =
    .next { s with clk := { s.clk with
      xmon := n, xtalOk := decide (1440 ≤ n.toNat) && decide (n.toNat ≤ 1760) && !e,
      tripped := s.clk.tripped || !(decide (1440 ≤ n.toNat) && decide (n.toNat ≤ 1760) && !e && !l),
      pllLock := s.clk.pllLock && !l } } :=
  if_neg (by rw [awake]; decide)

/-- A port that has left its state (R438, R446). -/
def VflS.left (l : VflS) (now : Nat) (dst : LinkSt) : VflS :=
  { l with
    st := dst, failAt := now, nbr := 0xFFFF#16, peer := 0, peerCert := [], ownEph := 0, peerEph := 0, key := 0, saltOut := 0,
    saltIn := 0, credits := Vector.replicate 3 32, outst := Vector.replicate 3 0, seqOut := Vector.replicate 3 0,
    seqIn := Vector.replicate 3 0, rekeying := false, fails := [], txq := l.txq.filter (fun p => p.fwd) }

/-- A port that leaves its state changes no other port. -/
theorem linkLeave_vfl (s : State) (p : Fin 4) (dst : LinkSt) :
    (s.linkLeave p dst).vfl = (s.updVfl p (fun l => l.left s.now dst)).vfl := by
  unfold State.linkLeave
  dsimp only
  split
  · rw [State.raise_vfl, State.raise_vfl]
    rfl
  · rfl

theorem linkLeave_st (s : State) (p q : Fin 4) (dst : LinkSt) : ((s.linkLeave p dst).vfl[q]).st = if q = p then dst else (s.vfl[q]).st := by
  rw [linkLeave_vfl]
  by_cases own : q = p
  · rw [own, updVfl_same, if_pos rfl]
    rfl
  · rw [updVfl_other s _ own, if_neg own]

/-- Every present port is down once the links are (R59). -/
theorem leaves_down (l : List (Fin 4)) (s : State) (p : Fin 4) (present : (s.vfl[p]).st ≠ .absent) (listed : p ∈ l ∨ (s.vfl[p]).st = .down) :
    ((l.foldl (fun a p => if (a.vfl[p]).st = .absent then a else a.linkLeave p .down) s).vfl[p]).st = .down := by
  induction l generalizing s with
  | nil => simpa using listed
  | cons x r ih =>
    have one : ((if (s.vfl[x]).st = .absent then s else s.linkLeave x .down).vfl[p]).st =
        if p = x then .down else (s.vfl[p]).st := by
      by_cases same : p = x
      · rw [if_neg (same ▸ present), linkLeave_st]
      · rw [if_neg same]
        split
        · rfl
        · rw [linkLeave_st, if_neg same]
    refine ih _ ?_ ?_
    · rw [one]
      split
      · decide
      · exact present
    · rw [one]
      by_cases same : p = x
      · exact .inr (if_pos same)
      · rw [if_neg same]
        exact listed.imp (fun among => (List.mem_cons.mp among).resolve_left same) id

theorem exec_crystalMonitorTrip_switches (awake : s.awake = true) (tripped : s.clk.tripped = true) (first : s.clk.backup = false)
    (idle : s.squall.running = false) : ∃ u, exec .crystalMonitorTrip s = .next u ∧
      u.clk.backup = true ∧ u.aon.causeAcc = s.aon.causeAcc ||| 32#7 ∧ u.squall.running = true ∧ u.squall.causes = sqCLOCK ∧
      (∀ p : Fin 4, (s.vfl[p]).st ≠ .absent → (u.vfl[p]).st = .down) := by
  have lapsed (a : State) : a.utcLapse.aon = a.aon ∧ a.utcLapse.clk = a.clk ∧ a.utcLapse.pins = a.pins ∧ a.utcLapse.squall = a.squall ∧
      a.utcLapse.vfl = a.vfl := by
    unfold State.utcLapse
    split <;> exact ⟨rfl, rfl, rfl, rfl, rfl⟩
  obtain ⟨aon, clk, pins, squall, vfl⟩ := lapsed (({ s with clk := { s.clk with backup := true } } : State).addCause .clockLoss)
  refine ⟨_, if_pos (by rw [awake, tripped, first]; decide), ?_⟩
  generalize (({ s with clk := { s.clk with backup := true } } : State).addCause .clockLoss).utcLapse = a at aon clk pins squall vfl
  have aon' := (linksDown_same (part := State.aon) a .down (fun a p b => State.raise_aon a p b) (fun _ _ _ => rfl)).trans aon
  have clk' := (linksDown_same (part := State.clk) a .down (fun a p b => State.raise_clk a p b) (fun _ _ _ => rfl)).trans clk
  have pins' := (linksDown_same (part := State.pins) a .down (fun a p b => State.raise_pins a p b) (fun _ _ _ => rfl)).trans pins
  have squall' := (linksDown_same (part := State.squall) a .down (fun a p b => State.raise_squall a p b) (fun _ _ _ => rfl)).trans squall
  have down (p : Fin 4) (present : (s.vfl[p]).st ≠ .absent) : ((a.linksDown .down).vfl[p]).st = .down := by
    refine leaves_down (List.finRange 4) a p ?_ (.inl (List.mem_finRange p))
    rw [vfl]
    exact present
  generalize a.linksDown .down = b at aon' clk' pins' squall' down
  have active : b.active = true := by
    unfold State.awake at awake
    unfold State.active State.awake
    rw [pins', clk', squall']
    show ((s.pins.resetIn || s.squall.resetHeld) && (s.clk.pllLock || s.clk.tripped) && !s.squall.hold && !s.squall.running) = true
    rw [awake, idle]
    decide
  obtain ⟨running, -, causes, -⟩ := squallTrigger_starts active sqCLOCK
  have started := (squallTrigger_of_active active sqCLOCK).trans
    (congrArg (fun a => State.squallStart a sqCLOCK) (collect_supply (s := b) (by decide) (by decide)))
  obtain ⟨-, -, -, clk'', vfl'', acc⟩ := squallStart_does (b.supplySeen sqCLOCK) sqCLOCK
  rw [← started] at clk'' vfl'' acc
  refine ⟨?_, ?_, running, causes, fun p present => ?_⟩
  · rw [clk'']
    exact congrArg ClkS.backup clk'
  · rw [acc]
    exact congrArg AonS.causeAcc aon'
  · rw [vfl'']
    exact down p present

end Crystal

/-! ## Steps -/

section Steps
variable {s : State}

/-- What a step has done when it ends leaves the step's number. -/
theorem leaveStep_step (s : State) (n : Nat) : (s.leaveStep n).squall.step = s.squall.step := by
  have recorded : s.systemRecord.squall.step = s.squall.step := by
    have metered : (if s.boot.tGust.isSome then s.meterSave else s).squall = s.squall := by
      split
      · exact (units_meterSave s (.rfl' s)).squall
      · rfl
    unfold State.systemRecord
    dsimp only
    generalize (if s.boot.tGust.isSome then s.meterSave else s) = a at metered
    split
    · exact congrArg SquallS.step ((units_saveGust a (.rfl' a)).squall.trans metered)
    · exact congrArg SquallS.step metered
  unfold State.leaveStep
  split
  · rfl
  · rfl
  · exact recorded
  · split
    · exact congrArg SquallS.step (units_passEnd s (.rfl' s)).squall
    · rfl
  · exact congrArg SquallS.step (units_sendPkt s _ (.rfl' s)).squall
  · rfl

theorem enterStep_step (s : State) (n : Nat) : (s.enterStep n).squall.step = n := by
  have same {a u : State} (step : a.squall.step = n) (units : SameUnits a u) : u.squall.step = n :=
    (congrArg SquallS.step units.squall).trans step
  unfold State.enterStep
  dsimp only
  split
  · exact same rfl (units_dropClasses _ (.rfl' _))
  · exact same rfl (units_flushStart _ (.rfl' _))
  · exact same rfl (units_parityStart _ (.rfl' _))
  · exact same rfl (units_tailStart _ (.rfl' _))
  · split
    · exact same rfl (units_passBegin _ (units_passEnd _ (.rfl' _)))
    · exact same rfl (units_passBegin _ (.rfl' _))
  · rfl

theorem restart_running (s : State) : s.restart.squall.running = false := by
  unfold State.restart
  dsimp only
  split <;> rfl

/-- After its last step Squall has reset the chip or holds (R355). -/
theorem squallOver_ends (s : State) : s.squallOver.squall.hold = true ∨ s.squallOver.squall.running = false := by
  have held (a : State) (pin cause : Bool) :
      (if pin then a.finalHold.internalReset .chip else if cause then a.finalHold.restart else a.finalHold).squall.hold = true ∨
      (if pin then a.finalHold.internalReset .chip else if cause then a.finalHold.restart else a.finalHold).squall.running = false := by
    cases pin with
    | true => exact .inr (restart_running _)
    | false =>
      cases cause with
      | true => exact .inr (restart_running _)
      | false => exact .inl rfl
  have ended (a : State) (pin cause : Bool) :
      (if a.squall.resetOnly then a.causeReset
        else if pin then a.finalHold.internalReset .chip else if cause then a.finalHold.restart else a.finalHold).squall.hold = true ∨
      (if a.squall.resetOnly then a.causeReset
        else if pin then a.finalHold.internalReset .chip else if cause then a.finalHold.restart else a.finalHold).squall.running = false := by
    by_cases alone : a.squall.resetOnly = true
    · rw [if_pos alone]
      exact .inr (restart_running _)
    · rw [if_neg alone]
      exact held a pin cause
  exact ended _ _ _

theorem exec_squallStepEnd_waits (owes : s.stepDone = false) (hung : List (Fin 256)) : exec (.squallStepEnd hung) s = .next s :=
  if_neg (by simp [owes])

theorem exec_squallStepEnd_goesOn (runs : s.squall.running = true) (early : s.squall.hold = false) (done : s.stepDone = true)
    (hung : List (Fin 256)) : ∃ u, exec (.squallStepEnd hung) s = .next u ∧
      (s.squall.step < u.squall.step ∨ u.squall.hold = true ∨ u.squall.running = false) := by
  have step : ((s.leaveStep s.squall.step).markStep s.squall.step).squall.step = s.squall.step :=
    (congrArg SquallS.step (units_markStep _ _ (.rfl' _)).squall).trans (leaveStep_step s s.squall.step)
  show ∃ u, execSquallStepEnd hung s = .next u ∧ _
  unfold execSquallStepEnd
  rw [if_pos (by rw [runs, early, done]; decide)]
  dsimp only
  generalize (s.leaveStep s.squall.step).markStep s.squall.step = a at step
  cases next : a.nextStep with
  | none => exact ⟨_, rfl, .inr (squallOver_ends a)⟩
  | some n =>
    refine ⟨_, rfl, .inl ?_⟩
    rw [enterStep_step]
    have later := List.mem_of_find?_eq_some next
    simp only [List.mem_filter, decide_eq_true_eq] at later
    rw [← step]
    exact later.2

end Steps

/-! ## The end of the final hold -/

section Restart
variable {s : State}

theorem internalReset_starts (s : State) (c : RstCause) : (s.internalReset c).squall = State.reset.squall ∧
    (s.internalReset c).aon.causeAcc = s.aon.causeAcc ||| c.bit := by
  unfold State.internalReset State.restart
  dsimp only
  split <;> exact ⟨rfl, rfl⟩

theorem exec_squallRestart_clear {high : Nat} (holds : s.squall.hold = true) (supply : s.squall.causes &&& 3#8 ≠ 0#8)
    (crystal : s.squall.clock = false) (pfail : s.squall.causes.getLsbD 0 = true → 100000 ≤ high ∧ s.aon.pfailAt + high ≤ s.now)
    (vsup : s.squall.causes.getLsbD 1 = true → s.aon.vsupAt + 100000 ≤ s.now) :
    exec (.squallRestart high) s = .next (s.internalReset .squallRestart) := by
  have clear : s.supplyClear high = true := by
    unfold State.supplyClear
    cases zero : s.squall.causes.getLsbD 0 <;> cases one : s.squall.causes.getLsbD 1 <;> simp_all
  exact congrArg Host.Outcome.next (if_pos (by rw [holds, crystal, clear, decide_eq_true supply]; decide))

theorem exec_squallRestart_waits {high : Nat} (fails : s.squall.causes.getLsbD 0 = true ∧ high < 100000 ∨
    s.squall.causes.getLsbD 1 = true ∧ s.now < s.aon.vsupAt + 100000) : exec (.squallRestart high) s = .next s := by
  have unclear : s.supplyClear high = false := by
    unfold State.supplyClear
    obtain ⟨cause, short⟩ | ⟨cause, short⟩ := fails
    · rw [cause, decide_eq_false (Nat.not_le.mpr short)]
      simp
    · rw [cause, decide_eq_false (Nat.not_le.mpr short)]
      simp
  exact congrArg Host.Outcome.next (if_neg (by rw [unclear, Bool.and_false]; decide))

theorem exec_thermalRestart_due (holds : s.squall.hold = true) (alone : s.squall.causes = sqTHERMAL)
    (waited : s.squall.holdAt + thermalWait s.aon.thermals ≤ s.now) :
    exec .thermalRestart s = .next (s.internalReset .squallRestart) :=
  congrArg Host.Outcome.next (if_pos (by rw [holds, decide_eq_true alone, decide_eq_true waited]; decide))

theorem exec_thermalRestart_early (early : s.now < s.squall.holdAt + thermalWait s.aon.thermals) : exec .thermalRestart s = .next s :=
  congrArg Host.Outcome.next (if_neg (by rw [decide_eq_false (Nat.not_le.mpr early), Bool.and_false]; decide))

end Restart

/-- Settles O41: the lemmas above, command by command. -/
theorem clockLossAndSquall : Obligations.ClockLossAndSquall := by
  unfold Obligations.ClockLossAndSquall
  refine ⟨fun s awake => ⟨fun n least most => ?good, fun n e l bad => ?bad, fun tripped first idle =>
      exec_crystalMonitorTrip_switches awake tripped first idle⟩,
    fun s => ⟨exec_pfailLFall_starts, exec_pfailLFall_joins, fun d mV active desc => ⟨fun low => ?below,
      exec_vsupConversion_above active desc⟩, fun active normal runs => ?dog, exec_watchdogExpiry_paused,
      fun runs early => ⟨exec_squallStepEnd_waits, exec_squallStepEnd_goesOn runs early⟩,
      fun holds supply crystal high => ⟨fun pfail vsup => ?restarts, exec_squallRestart_waits⟩,
      fun holds alone => ⟨fun waited => ?cools, exec_thermalRestart_early⟩⟩⟩
  case good =>
    rw [exec_crystalMonitorWindow_counts awake, decide_eq_true least, decide_eq_true most]
    simp
  case bad =>
    refine ⟨_, exec_crystalMonitorWindow_counts awake n e l, ?_, rfl, rfl⟩
    obtain few | many | lost | unlocked := bad
    · simp [Nat.not_le.mpr few]
    · simp [Nat.not_le.mpr many]
    · simp [lost]
    · simp [unlocked]
  case below =>
    obtain ⟨running, -, causes, -⟩ := squallTrigger_starts active sqVSUP
    exact ⟨_, exec_vsupConversion_below active desc low, running, causes⟩
  case dog =>
    obtain ⟨running, -, causes, -⟩ := squallTrigger_starts active sqWATCHDOG
    exact ⟨_, exec_watchdogExpiry_starts normal runs, running, causes⟩
  case restarts => exact ⟨_, exec_squallRestart_clear holds supply crystal pfail vsup, internalReset_starts s .squallRestart⟩
  case cools =>
    obtain ⟨fresh, -⟩ := internalReset_starts s .squallRestart
    exact ⟨_, exec_thermalRestart_due holds alone waited, fresh⟩

end Sys2Proof.Machine
end

section
/-! PROOFS. The domains, Lull and the hold-up probe (O42), and the PMIC script that runs it (O46). -/
namespace Sys2Proof.Machine

/-! ## A domain's own entry -/

theorem updDom_same (s : State) (d : Fin 5) (f : Domain → Domain) : (s.updDom d f).pwr.doms[d] = f s.pwr.doms[d] := by
  simp [State.updDom]

theorem updDom_other (s : State) {d k : Fin 5} (f : Domain → Domain) (other : k ≠ d) :
    (s.updDom d f).pwr.doms[k] = s.pwr.doms[k] := by
  have apart : d.1 ≠ k.1 := fun same => other (Fin.ext same.symm)
  simp [State.updDom, Vector.getElem_set_ne _ _ apart]

/-! ## The domains and Lull (03 R65 to R71) -/

section Domains

variable {s : State} {d : Fin 5}

theorem exec_domainGate_fences (active : s.active = true) (allowed : (s.reg pPWR 0x100 0x7C#32).getLsbD (2 + d.1) = true)
    (on : (s.pwr.doms[d]).st = .on) (ready : (s.pwr.doms[d]).readyAt ≤ s.now)
    (idle : (s.pwr.doms[d]).idleAt + 10 * bits (s.reg pPWR 0x108 200#32) 15 0 ≤ s.now) (quiet : s.domQuiet d = true) :
    exec (.domainGate d) s = .next (s.updDom d (fun x => { x with st := .fenced })) :=
  congrArg Host.Outcome.next (if_pos (by
    rw [active, allowed, on, decide_eq_true ready, decide_eq_true idle, quiet]
    simp))

theorem exec_domainPowerDown_offs (awake : s.awake = true) (fenced : (s.pwr.doms[d]).st = .fenced) (none : s.domInFlight d = 0) :
    exec (.domainPowerDown d) s = .next (s.updDom d (fun x => { x with st := .off, loaded := false })) :=
  congrArg Host.Outcome.next (if_pos (by
    rw [awake, fenced, none]
    decide))

/-- The domain counts the retry and is on again (03 R67, R69). -/
def State.woken (s : State) (d : Fin 5) : State :=
  ({ s with pwr := { s.pwr with retries := satInc s.pwr.retries } } : State).updDom d
    (fun _ => { st := .on, idleAt := s.now, readyAt := s.now + 50, loaded := true })

theorem packetTo_wakes (down : (s.pwr.doms[d]).st ≠ .on) : s.packetTo d = s.woken d :=
  (if_neg down).trans (if_neg down)

theorem exec_domainWake_wakes (active : s.active = true) (down : (s.pwr.doms[d]).st ≠ .on) :
    exec (.domainWake d) s = .next (s.woken d) :=
  congrArg Host.Outcome.next ((if_pos active).trans (packetTo_wakes down))

/-- Lull with every domain off (03 R70). -/
def State.lulled (s : State) : State :=
  { s with pwr := { s.pwr with lull := true, doms := s.pwr.doms.map (fun x => { x with st := .off, loaded := false }) } }

theorem lulled_off (s : State) (k : Fin 5) : (s.lulled.pwr.doms[k]).st = .off := by simp [State.lulled]

theorem exec_lullEntry_enters (active : s.active = true) (awake : s.pwr.lull = false)
    (allowed : (s.reg pPWR 0x100 0x7C#32).getLsbD 0 = true) (noCommands : s.noCommands = true) (noProbe : s.probeRunning = false)
    (notDue : s.pwr.probeDue = false) (moves : s.med.moves = []) (copies : s.med.copies = []) (ops : s.med.ops = [])
    (noPass : s.aon.passOn = false) (idle : s.pwr.idleSince + 100 * bits (s.reg pPWR 0x10C 100#32) 15 0 ≤ s.now)
    (quiet : s.fabQuiet = true) : exec .lullEntry s = .next s.lulled :=
  if_pos (by
    rw [active, awake, allowed, noCommands, noProbe, notDue, moves, copies, ops, noPass, decide_eq_true idle, quiet]
    decide)

theorem exec_lullExit_ends (ev : WakeEvent) (lull : s.pwr.lull = true) :
    exec (.lullExit ev) s = .next { s with pwr := { s.pwr with lull := false, idleSince := s.now } } :=
  congrArg Host.Outcome.next (if_pos lull)

theorem exec_fabWakeProbe_silent (active : s.active = true) (full : s.dev.level = .full)
    (off : (s.pwr.doms[(4 : Fin 5)]).st = .off) (due : (s.pwr.doms[(4 : Fin 5)]).idleAt + 1000000 ≤ s.now) :
    exec (.fabWakeProbe 0#4) s = .next (s.updDom 4 (fun x => { x with idleAt := s.now })) := by
  have silent (p : Fin 4) : ((0#4).getLsbD p.1 && s.portPresent p) = false := by simp
  show execFabWakeProbe 0#4 s = _
  unfold execFabWakeProbe
  dsimp only
  rw [active, full, off, if_neg (by simpa using due), if_pos (by simp)]

end Domains

/-! ## The energy budget (03 R75, R78) -/

@[simp] theorem setEb_pwr (s : State) (n : Nat) : (s.setEb n).pwr = { s.pwr with eb := n } := by
  unfold State.setEb
  dsimp only
  split <;> simp

@[simp] theorem setEb_i2ci (s : State) (n : Nat) : (s.setEb n).i2ci = s.i2ci := by
  unfold State.setEb
  dsimp only
  split <;> simp

theorem bitsKept_raiseTenants (s : State) (p : State → Tid → Bool) (b : Nat) : BitsKept s (s.raiseTenants p b) := by
  unfold State.raiseTenants
  generalize allTids = l
  induction l generalizing s with
  | nil => exact .of_hdr rfl
  | cons t r ih =>
    rw [List.foldl_cons]
    refine BitsKept.trans ?_ (ih _)
    split
    · exact bitsKept_raise s _ _
    · exact .of_hdr rfl

theorem bitsKept_setEb (s : State) (n : Nat) : BitsKept s (s.setEb n) := by
  have start : BitsKept s { s with pwr := { s.pwr with eb := n } } := .of_hdr rfl
  unfold State.setEb
  dsimp only
  split
  · exact start.trans ((bitsKept_raise _ _ _).trans (bitsKept_raiseTenants _ _ _))
  · exact start

/-! ## One try of an entry (13 R415, R416) -/

theorem role_ofRole {d : BoardDesc} {r i : Nat} (first : (d.ofRole r).head? = some i) : d.role i = r := by
  have listed : i ∈ d.ofRole r := List.mem_of_head? first
  simpa [BoardDesc.ofRole] using (List.mem_filter.mp listed).2

section Entry

variable {s : State} {d : BoardDesc} {i : Nat} {b : List Byte}

/-- What holds of the state in each of three branches holds of the state of the branch taken. -/
theorem of_branches {α β : Type} (P : α → Prop) {c d : Prop} [Decidable c] [Decidable d] {x y z : α × β} (first : P x.1)
    (second : P y.1) (third : P z.1) : P (if c then x else if d then y else z).1 := by
  split
  · exact first
  split
  · exact second
  · exact third

/-- A try writes the entry's bytes on the bus and leaves the power unit alone. -/
theorem tryEntry_sends (s : State) (d : BoardDesc) (i : Nat) (ans : PmicAnswer) : (s.tryEntry d i ans).1.pwr = s.pwr ∧
    .pmic i (slice (d.entry i) 8 (fieldLe (d.entry i) 2 1)) ∈ (s.tryEntry d i ans).1.outbox := by
  have sent := mem_emit_outbox s (.pmic i (slice (d.entry i) 8 (fieldLe (d.entry i) 2 1)))
  unfold State.tryEntry
  dsimp only
  refine of_branches (fun t : State => t.pwr = s.pwr ∧ Output.pmic i _ ∈ t.outbox) ⟨rfl, sent⟩ ⟨rfl, sent⟩
    ⟨State.raiseRec_pwr .., ?_⟩
  exact (kept_raiseRec _ _ _ _ _ _ (.rfl' _)).sent.subset sent

theorem tryEntry_now (s : State) (d : BoardDesc) (i : Nat) (ans : PmicAnswer) : (s.tryEntry d i ans).1.now = s.now := by
  unfold State.tryEntry
  dsimp only
  exact of_branches (fun t : State => t.now = s.now) rfl rfl (State.raiseRec_now ..)

/-- An acknowledged answer that matches ends the entry well. -/
theorem tryEntry_matches (s : State) (fits : entryMatches (d.entry i) (b.take (fieldLe (d.entry i) 3 1)) = true) :
    (s.tryEntry d i (.bytes b)).2 = .ok ∧ (s.tryEntry d i (.bytes b)).1.i2ci.tries = 0 ∧
      (s.tryEntry d i (.bytes b)).1.i2ci.retryIdx = none := by
  unfold State.tryEntry
  simp [fits]

/-- A STATUS entry that is acknowledged ends by what it read. -/
theorem tryEntry_status (s : State) (b : List Byte) (role : d.role i = 5) : (s.tryEntry d i (.bytes b)).2 =
    if entryMatches (d.entry i) (b.take (fieldLe (d.entry i) 3 1)) then .ok else .mismatch := by
  unfold State.tryEntry
  simp [role]

/-- The first and the second NACK: the entry is tried again after 1 ms. -/
theorem tryEntry_nacked (d : BoardDesc) (i : Nat) (few : s.i2ci.tries < 2) : (s.tryEntry d i .nack).2 = .again ∧
    (s.tryEntry d i .nack).1.i2ci = { s.i2ci with
      index := i, txns := if s.i2ci.tries = 0 then satInc s.i2ci.txns else s.i2ci.txns, nacks := satInc s.i2ci.nacks,
      tries := s.i2ci.tries + 1, retryIdx := some i, retryAt := s.now + 1000 } := by
  unfold State.tryEntry
  simp [few]

/-! ## What follows a try -/

theorem afterTry_init (t : State) (role : d.role i = 1) : t.afterTry d i .ok = { t with i2ci := { t.i2ci with
    initNext := d.initFrom (i + 1), initAt := t.now + 1000 * fieldLe (d.entry i) 4 1 } } := by
  simp only [State.afterTry, role]

theorem afterTry_initAgain (t : State) (role : d.role i = 1) : t.afterTry d i .again = t := by
  simp only [State.afterTry, role]

/-- CHARGE_HOLD's end touches neither the probe's times nor the budget, nor what was sent. -/
theorem afterTry_hold (t : State) (role : d.role i = 2) (e : TryEnd) : (t.afterTry d i e).pwr.probeAt = t.pwr.probeAt ∧
    (t.afterTry d i e).pwr.probeDue = t.pwr.probeDue ∧ (t.afterTry d i e).pwr.eb = t.pwr.eb ∧
    (t.afterTry d i e).outbox = t.outbox := by
  cases e <;> simp only [State.afterTry, role, and_self]

theorem afterTry_load (t : State) (role : d.role i = 3) :
    t.afterTry d i .ok = { t with pwr := { t.pwr with probe := .loaded, loadAt := t.now } } := by
  simp only [State.afterTry, role]

theorem afterTry_resume (t : State) (role : d.role i = 4) (resuming : t.pwr.probe = .resuming) :
    t.afterTry d i .ok = t.probeDone d := by
  simp only [State.afterTry, role, resuming, if_true]

/-- The probe ends with what it measured, and PROBE_DONE (03 R73, R83). -/
theorem probeDone_ends (t : State) (d : BoardDesc) : (t.probeDone d).pwr.probe = .idle ∧ (t.probeDone d).pwr.v0 = t.pwr.nv0 ∧
    (t.probeDone d).pwr.dV = t.pwr.ndV ∧ (t.probeDone d).pwr.slope = t.pwr.nslope ∧
    (t.probeDone d).pwr.holdAt = some t.now ∧ (t.probeDone d).bit pPWR 1 = true := by
  have done (a : State) : (a.raise pPWR 1).bit pPWR 1 = true := raise_bit a _ _ (by decide) (by decide) (by decide)
  unfold State.probeDone
  dsimp only
  split
  · exact ⟨by simp, by simp, by simp, by simp, by simp, bitsKept_raiseRec _ _ _ _ _ _ _ _ (done _)⟩
  · exact ⟨by simp, by simp, by simp, by simp, by simp, bitsKept_raiseRec _ _ _ _ _ _ _ _ (done _)⟩
  · exact ⟨by simp, by simp, by simp, by simp, by simp, done _⟩

/-- What STATUS read is kept; a mismatch is the PMIC fault (13 R415). -/
theorem afterStatus_keeps (t : State) (d : BoardDesc) (i : Nat) (b : List Byte) (fits : Bool) :
    (t.afterStatus d i (.bytes b) (if fits then .ok else .mismatch)).i2ci = { t.i2ci with
      pmicFault := !fits, lastStatus := BitVec.ofNat 32 (ofLe (b.take (fieldLe (d.entry i) 3 1))) } := by
  cases fits <;> simp [State.afterStatus, State.pmicShrink]

end Entry

/-! ## The hold-up probe (03 R72, R73) -/

theorem probeShrink_falls (s : State) : s.probeShrink.pwr.eb ≤ s.pwr.eb ∧ s.probeShrink.pwr.probeAt = s.pwr.probeAt ∧
    s.probeShrink.pwr.probeDue = s.pwr.probeDue := by
  unfold State.probeShrink
  split
  · split
    · simp
    · exact ⟨le_rfl, rfl, rfl⟩
  · exact ⟨le_rfl, rfl, rfl⟩

section Probe

variable {s : State} {d : BoardDesc} {i : Nat}

/-- The probe charges from now on, and none is due. -/
def State.charging (s : State) : State :=
  { s with pwr := { s.pwr with probe := .charging, probeAt := some s.now, probeDue := false } }

theorem exec_holdupProbe_charges (desc : s.boot.desc = some d) (free : s.i2ciFree = true) (entry : (d.ofRole 2).head? = some i)
    (ans : PmicAnswer) (probed : s.pwr.noProbe = false) (init : s.i2ci.initNext = none) (idle : s.probeRunning = false)
    (due : s.probeIsDue = true) (folding : s.folding = false) (lull : s.pwr.lull = false) :
    exec (.holdupProbe ans) s = .next (s.charging.probeShrink.runEntry d i ans) := by
  show execHoldupProbe ans s = _
  unfold execHoldupProbe
  simp only [desc, entry]
  exact if_pos (by rw [free, probed, init, idle, due, folding, lull]; decide)

theorem runEntry_hold (t : State) (role : d.role i = 2) (ans : PmicAnswer) : (t.runEntry d i ans).pwr.probeAt = t.pwr.probeAt ∧
    (t.runEntry d i ans).pwr.probeDue = t.pwr.probeDue ∧ (t.runEntry d i ans).pwr.eb = t.pwr.eb ∧
    .pmic i (slice (d.entry i) 8 (fieldLe (d.entry i) 2 1)) ∈ (t.runEntry d i ans).outbox := by
  obtain ⟨pwr, sent⟩ := tryEntry_sends t d i ans
  obtain ⟨at_, due, eb, outbox⟩ := afterTry_hold (t.tryEntry d i ans).1 role (t.tryEntry d i ans).2
  unfold State.runEntry
  dsimp only
  rw [at_, due, eb, outbox, pwr]
  exact ⟨rfl, rfl, rfl, sent⟩

theorem exec_loadPulse_loads (desc : s.boot.desc = some d) (free : s.i2ciFree = true) (entry : (d.ofRole 3).head? = some i)
    (v : Nat) (ans : PmicAnswer) (charging : s.pwr.probe = .charging) (due : s.pwr.loadAt + 2100 ≤ s.now) :
    exec (.loadPulse v ans) s = .next (({ s with pwr := { s.pwr with nv0 := v } } : State).runEntry d i ans) := by
  show execLoadPulse v ans s = _
  unfold execLoadPulse
  simp only [desc, entry]
  exact if_pos (by rw [free, charging, decide_eq_true due]; decide)

/-- The measured step and slope stand, and CHARGE_RESUME goes out. -/
def State.resuming (s : State) (v g : Nat) : State :=
  { s with pwr := { s.pwr with probe := .resuming, ndV := (s.pwr.nv0 : Int) * 1000 - v, nslope := g } }

theorem exec_probeComplete_resumes (desc : s.boot.desc = some d) (free : s.i2ciFree = true) (entry : (d.ofRole 4).head? = some i)
    (v g : Nat) (ans : PmicAnswer) (loaded : s.pwr.probe = .loaded) (due : s.pwr.loadAt + 1000 * d.tLoad ≤ s.now) :
    exec (.probeComplete v g ans) s = .next ((s.resuming v g).runEntry d i ans) := by
  show execProbeComplete v g ans s = _
  unfold execProbeComplete
  simp only [desc, entry]
  exact if_pos (by rw [free, loaded, decide_eq_true due]; decide)

end Probe

/-- Settles O42: the lemmas above, command by command. -/
theorem domainsAndTheProbe : Obligations.DomainsAndTheProbe := by
  unfold Obligations.DomainsAndTheProbe
  refine ⟨fun s => ⟨fun d active allowed on ready idle quiet => ?gate, fun d awake fenced none => ?down, fun d active down => ?wake,
      fun active lull allowed noCommands noProbe notDue moves copies ops noPass idle quiet => ?lull,
      fun ev => exec_lullExit_ends ev, exec_fabWakeProbe_silent⟩,
    fun s d desc free => ⟨fun i ans entry probed init idle due folding lull => ?charge, fun i v b entry charging due fits => ?load,
      fun i v g b entry loaded due fits => ?complete⟩⟩
  case gate =>
    exact ⟨_, exec_domainGate_fences active allowed on ready idle quiet, congrArg Domain.st (updDom_same s d _),
      fun k other => updDom_other s _ other, rfl, rfl⟩
  case down =>
    have off := updDom_same s d (fun x => { x with st := .off, loaded := false })
    exact ⟨_, exec_domainPowerDown_offs awake fenced none, congrArg Domain.st off, congrArg Domain.loaded off,
      fun k other => updDom_other s _ other, rfl⟩
  case wake =>
    have on : (s.woken d).pwr.doms[d] = _ := updDom_same _ d _
    exact ⟨_, exec_domainWake_wakes active down, congrArg Domain.st on, congrArg Domain.loaded on, rfl,
      fun k other => updDom_other _ _ other, rfl⟩
  case lull =>
    exact ⟨_, exec_lullEntry_enters active lull allowed noCommands noProbe notDue moves copies ops noPass idle quiet, rfl,
      lulled_off s, rfl, rfl⟩
  case charge =>
    obtain ⟨at_, none, eb, sent⟩ := runEntry_hold s.charging.probeShrink (role_ofRole entry) ans
    obtain ⟨fell, atKept, dueKept⟩ := probeShrink_falls s.charging
    exact ⟨_, exec_holdupProbe_charges desc free entry ans probed init idle due folding lull, at_.trans atKept, none.trans dueKept,
      eb.le.trans fell, sent⟩
  case load =>
    refine ⟨_, exec_loadPulse_loads desc free entry v _ charging due, ?_⟩
    generalize start : ({ s with pwr := { s.pwr with nv0 := v } } : State) = t
    obtain ⟨well, -, -⟩ := tryEntry_matches t fits
    obtain ⟨pwr, -⟩ := tryEntry_sends t d i (.bytes b)
    have now : (t.tryEntry d i (.bytes b)).1.now = s.now := by
      rw [(tryEntry_now t d i (.bytes b)), ← start]
    unfold State.runEntry
    dsimp only
    rw [well, afterTry_load _ (role_ofRole entry)]
    dsimp only
    rw [pwr, now, ← start]
    exact ⟨rfl, rfl, rfl⟩
  case complete =>
    refine ⟨_, exec_probeComplete_resumes desc free entry v g _ loaded due, ?_⟩
    obtain ⟨well, -, -⟩ := tryEntry_matches (s.resuming v g) fits
    obtain ⟨pwr, -⟩ := tryEntry_sends (s.resuming v g) d i (.bytes b)
    have now := tryEntry_now (s.resuming v g) d i (.bytes b)
    unfold State.runEntry
    dsimp only
    rw [well, afterTry_resume _ (role_ofRole entry) (by rw [pwr]; rfl)]
    obtain ⟨idle, v0, dV, slope, holdAt, bit⟩ := probeDone_ends ((s.resuming v g).tryEntry d i (.bytes b)).1 d
    rw [pwr] at v0 dV slope
    rw [now] at holdAt
    exact ⟨idle, v0, dV, slope, holdAt, bit⟩

/-! ## The PMIC's script (13 R414 to R419) -/

section Script

variable {s : State} {d : BoardDesc}

theorem exec_scriptEntry_runs (desc : s.boot.desc = some d) (i : Fin 20) (ans : PmicAnswer) (free : s.i2ciFree = true)
    (next : s.i2ci.initNext = some i.1) (due : s.i2ci.initAt ≤ s.now) : exec (.scriptEntry i ans) s = .next (s.runEntry d i ans) := by
  show execScriptEntry i ans s = _
  unfold execScriptEntry
  simp only [desc]
  exact if_pos (by rw [free, next, decide_eq_true due]; simp)

theorem exec_entryRetry_runs (desc : s.boot.desc = some d) {i : Nat} (ans : PmicAnswer) (active : s.active = true)
    (free : s.i2ci.stuck = false) (again : s.i2ci.retryIdx = some i) (due : s.i2ci.retryAt ≤ s.now) (role : d.role i = 1) :
    exec (.entryRetry ans) s = .next (s.runEntry d i ans) := by
  show execEntryRetry ans s = _
  unfold execEntryRetry
  simp only [desc, again]
  rw [if_pos (by rw [active, free, decide_eq_true due]; decide), if_neg (by rw [role]; decide)]

/-- An INIT entry that matches passes on to the next one. -/
theorem runEntry_init (s : State) {i : Nat} {b : List Byte} (role : d.role i = 1)
    (fits : entryMatches (d.entry i) (b.take (fieldLe (d.entry i) 3 1)) = true) :
    (s.runEntry d i (.bytes b)).i2ci.initNext = d.initFrom (i + 1) ∧ (s.runEntry d i (.bytes b)).i2ci.tries = 0 ∧
      (s.runEntry d i (.bytes b)).i2ci.retryIdx = none ∧ (s.runEntry d i (.bytes b)).pwr = s.pwr := by
  obtain ⟨well, tries, retry⟩ := tryEntry_matches s fits
  obtain ⟨pwr, -⟩ := tryEntry_sends s d i (.bytes b)
  unfold State.runEntry
  dsimp only
  rw [well, afterTry_init _ role]
  exact ⟨rfl, tries, retry, pwr⟩

theorem exec_statusPoll_reads (desc : s.boot.desc = some d) {i : Nat} (entry : (d.ofRole 5).head? = some i) (ans : PmicAnswer)
    (free : s.i2ciFree = true) (runs : s.i2ci.ended = false) (init : s.i2ci.initNext = none) (idle : s.probeRunning = false)
    (period : 0 < fieldLe d.script 4 1) (due : s.i2ci.statusAt + fieldLe d.script 4 1 * 1000000 ≤ s.now) :
    exec (.statusPoll ans) s = .next ((let r := s.tryEntry d i ans
      ({ r.1 with i2ci := { r.1.i2ci with statusAt := s.now } } : State).afterStatus d i ans r.2)) := by
  show execStatusPoll ans s = _
  unfold execStatusPoll
  simp only [desc, entry]
  exact if_pos (by rw [free, runs, init, idle, decide_eq_true period, decide_eq_true due]; decide)

/-- A bus that stays low is STUCK, and the hold-up state SKIPPED (13 R418, 03 R77). -/
theorem recoverBus_sticks (low : s.i2ci.stuck = false) : (s.recoverBus none).i2ci.stuck = true ∧
    (s.recoverBus none).i2ci.recoveries = satInc s.i2ci.recoveries ∧ (s.recoverBus none).pwr.hold = .skipped ∧
    (s.recoverBus none).pwr.eb ≤ s.pwr.eb ∧ (s.recoverBus none).bit pI2CI 0 = true := by
  unfold State.recoverBus State.holdupSkipped
  dsimp only
  rw [if_neg (by rw [low]; decide)]
  refine ⟨by simp, by simp, by simp, by simp, ?_⟩
  exact bitsKept_setEb _ _ _ _ (raiseRec_bit _ _ _ _ _ _ (by decide) (by decide) (by decide))

/-- A retry that frees the bus. -/
theorem recoverBus_frees (n : Fin 10) (stuck : s.i2ci.stuck = true) : (s.recoverBus (some n)).i2ci.stuck = false ∧
    (s.recoverBus (some n)).i2ci.stuckAt = s.now ∧ (s.recoverBus (some n)).pwr = s.pwr := by
  unfold State.recoverBus
  dsimp only
  rw [if_pos stuck]
  exact ⟨by simp, by simp, by simp⟩

end Script

/-- Settles O46: the lemmas above, command by command. -/
theorem theScriptRuns : Obligations.TheScriptRuns := by
  unfold Obligations.TheScriptRuns
  refine fun s d desc => ⟨fun i b free next due role fits => ?entry, fun i free next due role few => ?nacked,
    fun i b active free again due role fits => ?again, fun i b entry free runs init idle period due => ?status,
    fun active on low => ?sticks, fun n active stuck due => ?frees⟩
  case entry => exact ⟨_, exec_scriptEntry_runs desc i _ free next due, runEntry_init s role fits⟩
  case nacked =>
    obtain ⟨again, i2ci⟩ := tryEntry_nacked d i.1 few
    refine ⟨_, exec_scriptEntry_runs desc i _ free next due, ?_⟩
    unfold State.runEntry
    dsimp only
    rw [again, afterTry_initAgain _ role, i2ci]
    exact ⟨next, rfl, rfl, rfl, rfl⟩
  case again =>
    obtain ⟨initNext, -, retry, -⟩ := runEntry_init s role fits
    exact ⟨_, exec_entryRetry_runs desc _ active free again due role, initNext, retry⟩
  case status =>
    refine ⟨_, exec_statusPoll_reads desc entry _ free runs init idle period due, ?_⟩
    dsimp only
    rw [tryEntry_status s b (role_ofRole entry), afterStatus_keeps]
    exact ⟨rfl, rfl, rfl⟩
  case sticks => exact ⟨_, congrArg Host.Outcome.next (if_pos (by rw [active, on]; decide)), recoverBus_sticks low⟩
  case frees =>
    exact ⟨_, congrArg Host.Outcome.next (if_pos (by rw [active, stuck, decide_eq_true due]; decide)), recoverBus_frees n stuck⟩

end Sys2Proof.Machine
end

section
/-! PROOFS. The discrete inputs (O45) and the I²C management target (O47). -/
namespace Sys2Proof.Machine

/-! ## EVENT_IN_L (13 R420, R421) -/

/-- The pulse is latched until FULL. -/
def State.latched (s : State) (t : Word) : State := { s with aon := { s.aon with evLatch := s.aon.evLatch ++ [t] } }

/-- The pulse is counted, and sets its bit. -/
def State.pulsed (s : State) (t : Nat) : State :=
  ({ s with gpio := { s.gpio with count := satInc s.gpio.count, last := opWord t, eventAt := some s.now } } : State).raise pGPIO 4

theorem pulsed_counts (s : State) (t : Nat) : (s.pulsed t).gpio.count = satInc s.gpio.count ∧ (s.pulsed t).bit pGPIO 4 = true ∧
    (s.pulsed t).aon = s.aon ∧ (s.pulsed t).nvm = s.nvm :=
  ⟨congrArg GpioS.count (State.raise_gpio ..), raise_bit _ _ _ (by decide) (by decide) (by decide), State.raise_aon ..,
    State.raise_nvm ..⟩

theorem wakeHost_keeps (s : State) : s.wakeHost.gpio = s.gpio ∧ s.wakeHost.pwr = s.pwr ∧ s.wakeHost.hdr = s.hdr ∧
    s.wakeHost.aon = s.aon ∧ s.wakeHost.nvm = s.nvm := by
  unfold State.wakeHost
  dsimp only
  split
  · exact ⟨rfl, rfl, rfl, rfl, rfl⟩
  split
  · exact ⟨rfl, rfl, rfl, rfl, rfl⟩
  split
  · exact ⟨rfl, rfl, rfl, rfl, rfl⟩
  · exact ⟨rfl, rfl, rfl, rfl, rfl⟩

section Pulse

variable {s : State}

theorem exec_eventInPulse_reset (reset : s.awake = false) : exec .eventInPulse s = .next (s.latched (opWord s.pulseTime)) :=
  if_pos (by rw [reset]; decide)

theorem exec_eventInPulse_squall (awake : s.awake = true) (runs : s.squall.running = true) :
    exec .eventInPulse s = .next ((s.pulsed s.pulseTime).latched (opWord s.pulseTime)) := by
  have inactive : s.active = false := by simp [State.active, runs]
  exact (if_neg (by rw [awake]; decide)).trans (if_pos (by rw [inactive]; decide))

/-- The pulse ends Lull and wakes the host. -/
def State.pulseWakes (s : State) (t : Nat) : State :=
  ({ s.pulsed t with pwr := { (s.pulsed t).pwr with lull := false, idleSince := s.now } } : State).wakeHost

theorem exec_eventInPulse_below (active : s.active = true) (below : s.dev.level ≠ .full) :
    exec .eventInPulse s = .next ((s.pulseWakes s.pulseTime).latched (opWord s.pulseTime)) :=
  (if_neg (by rw [awake_of_active active]; decide)).trans
    ((if_neg (by rw [active]; decide)).trans (congrArg Host.Outcome.next (if_neg below)))

theorem pulseWakes_counts (s : State) (t : Nat) : (s.pulseWakes t).gpio.count = satInc s.gpio.count ∧
    (s.pulseWakes t).pwr.lull = false ∧ (s.pulseWakes t).bit pGPIO 4 = true ∧ (s.pulseWakes t).aon = s.aon ∧
    (s.pulseWakes t).nvm = s.nvm := by
  obtain ⟨count, bit, aon, nvm⟩ := pulsed_counts s t
  unfold State.pulseWakes
  obtain ⟨gpio', pwr', hdr', aon', nvm'⟩ :=
    wakeHost_keeps { s.pulsed t with pwr := { (s.pulsed t).pwr with lull := false, idleSince := s.now } }
  exact ⟨(congrArg GpioS.count gpio').trans count, congrArg PwrS.lull pwr', BitsKept.of_hdr hdr' _ _ bit, aon'.trans aon,
    nvm'.trans nvm⟩

end Pulse

/-! ## VMOTION (13 R422) -/

theorem setMotion_enters (s : State) {m : Motion} (changes : s.gpio.motion ≠ m) : (s.setMotion m).gpio = { s.gpio with motion := m } ∧
    (s.setMotion m).bit pGPIO 5 = true ∧ (s.setMotion m).pins = s.pins := by
  have bit (a : State) : (a.raise pGPIO 5).bit pGPIO 5 = true := raise_bit _ _ _ (by decide) (by decide) (by decide)
  unfold State.setMotion
  rw [if_neg changes]
  dsimp only
  split
  · refine ⟨by simp, ?_, by simp⟩
    exact ((bitsKept_raise _ _ _).trans (bitsKept_record _ _ _ _ _)) _ _ (bit _)
  · exact ⟨by simp, bit _, by simp⟩

/-- A state's motion after it is set, whatever it was. -/
theorem setMotion_gpio (s : State) (m : Motion) : (s.setMotion m).gpio = { s.gpio with motion := m } ∧
    (s.setMotion m).pins = s.pins := by
  by_cases same : s.gpio.motion = m
  · subst same
    unfold State.setMotion
    rw [if_pos rfl]
    exact ⟨rfl, rfl⟩
  · obtain ⟨gpio, -, pins⟩ := setMotion_enters s same
    exact ⟨gpio, pins⟩

section Motion

variable {s : State}

/-- The changes of the last 10 s. -/
def State.recentChanges (s : State) : List Nat := s.gpio.changes.filter (fun a => s.now < a + 10000000)

/-- The level has changed now. -/
def State.moved (s : State) (level : Bool) : State :=
  { s with pins := { s.pins with vmotion := level },
           gpio := { s.gpio with changes := s.recentChanges ++ [s.now], changeAt := s.now } }

theorem exec_motionChange_changes {level : Bool} (awake : s.awake = true) (changes : level ≠ s.pins.vmotion) :
    exec (.motionChange level) s =
      .next (if 8 ≤ (s.recentChanges ++ [s.now]).length then (s.moved level).setMotion .unstable else s.moved level) :=
  (if_neg (by rw [awake]; decide)).trans (if_pos changes)

theorem exec_motionChange_still (awake : s.awake = true) (still : s.pins.vmotion = false) (moving : s.gpio.motion = .moving)
    (held : s.gpio.changeAt + 30000000 ≤ s.now) : exec (.motionChange false) s = .next (s.setMotion .stationary) := by
  show execMotionChange false s = _
  unfold execMotionChange
  rw [awake, if_neg (by decide), if_neg (by rw [still]; decide), moving]
  exact congrArg Host.Outcome.next (if_pos (by rw [decide_eq_true (Nat.le_sub_of_add_le' held)]; decide))

theorem exec_motionChange_moves (awake : s.awake = true) (moves : s.pins.vmotion = true) (stationary : s.gpio.motion = .stationary)
    (held : s.gpio.changeAt + 2000000 ≤ s.now) : exec (.motionChange true) s = .next (s.setMotion .moving) := by
  show execMotionChange true s = _
  unfold execMotionChange
  rw [awake, if_neg (by decide), if_neg (by rw [moves]; decide), stationary]
  exact congrArg Host.Outcome.next (if_pos (by rw [decide_eq_true (Nat.le_sub_of_add_le' held)]; decide))

end Motion

/-! ## GPIO inputs (13 R424) -/

/-- An input that is high now. -/
def State.inputHigh (s : State) (n : Fin 4) : State := { s with pins := { s.pins with gpio := s.pins.gpio ||| (1#4 <<< n.1) } }

theorem exec_gpioInputEdge_rises {s : State} {n : Fin 4} {d : BoardDesc} (awake : s.awake = true) (desc : s.boot.desc = some d)
    (input : d.gpio n.1 0 = 0) (low : s.pins.gpio.getLsbD n.1 = false) (selected : (s.reg pGPIO 0x108 0#32).getLsbD n.1 = true) :
    exec (.gpioInputEdge n true) s = .next ((s.inputHigh n).raise pGPIO n.1) := by
  show execGpioInputEdge n true s = _
  unfold execGpioInputEdge
  dsimp only
  rw [awake, desc, low, selected]
  exact congrArg Host.Outcome.next (if_pos (by
    dsimp only
    rw [decide_eq_true input]
    rfl))

theorem raise_gpio_bit (s : State) (n : Fin 4) : (s.raise pGPIO n.1).bit pGPIO n.1 = true := by
  have mask : intMask pGPIO &&& bitW true n.1 ≠ 0#32 := by
    revert n
    decide
  exact raise_bit s _ _ (by omega) mask (by decide)

/-- Settles O45: the lemmas above, command by command. -/
theorem discreteInputsAct : Obligations.DiscreteInputsAct := by
  unfold Obligations.DiscreteInputsAct
  refine fun s => ⟨fun active below => ?below, fun awake runs => ?squall, exec_eventInPulse_reset,
    fun level awake changes => ?changes, fun awake still moving held => ?still, fun awake moves stationary held => ?moves,
    fun n d awake desc input low selected => ?edge⟩
  case below =>
    obtain ⟨count, lull, bit, aon, nvm⟩ := pulseWakes_counts s s.pulseTime
    exact ⟨_, exec_eventInPulse_below active below, count, lull, bit, congrArg (fun a : AonS => a.evLatch ++ [opWord s.pulseTime]) aon, nvm⟩
  case squall =>
    obtain ⟨count, bit, aon, nvm⟩ := pulsed_counts s s.pulseTime
    exact ⟨_, exec_eventInPulse_squall awake runs, count, bit, congrArg (fun a : AonS => a.evLatch ++ [opWord s.pulseTime]) aon, nvm⟩
  case changes =>
    refine ⟨_, exec_motionChange_changes awake changes, ?_⟩
    have length : (s.recentChanges ++ [s.now]).length = s.recentChanges.length + 1 := List.length_append
    by_cases many : 7 ≤ s.recentChanges.length
    · rw [if_pos (by omega)]
      obtain ⟨gpio, pins⟩ := setMotion_gpio (s.moved level) .unstable
      rw [gpio, pins]
      exact ⟨rfl, rfl, fun _ => rfl, fun few => absurd many (Nat.not_le.mpr few)⟩
    · rw [if_neg (by omega)]
      exact ⟨rfl, rfl, fun most => absurd most many, fun _ => rfl⟩
  case still =>
    obtain ⟨gpio, bit, pins⟩ := setMotion_enters s (m := .stationary) (by rw [moving]; decide)
    exact ⟨_, exec_motionChange_still awake still moving held, congrArg GpioS.motion gpio, bit, pins⟩
  case moves =>
    obtain ⟨gpio, bit, pins⟩ := setMotion_enters s (m := .moving) (by rw [stationary]; decide)
    exact ⟨_, exec_motionChange_moves awake moves stationary held, congrArg GpioS.motion gpio, bit, pins⟩
  case edge =>
    exact ⟨_, exec_gpioInputEdge_rises awake desc input low selected, raise_gpio_bit _ n, congrArg Pins.gpio (State.raise_pins ..),
      State.raise_nvm ..⟩

/-! ## Commands of the I²C target (13 R408, R412) -/

section I2c

variable {s : State}

/-- A command has been received: it counts, and ends a READ_N before it. -/
def State.commanded (s : State) : State := s.updI2ct (fun x => { x with txns := satInc x.txns, readN := none })

theorem i2cCommand_acts (listens : s.i2cOn = true) {ok : Bool} (right : s.pecOn = false ∨ ok = true) (act : State → State) :
    s.i2cCommand ok act = act s.commanded := by
  have checks : (s.commanded.pecOn && !ok) = false := by
    obtain off | ok := right
    · exact Bool.and_eq_false_imp.mpr (fun on => absurd (off.symm.trans on) (by decide))
    · rw [ok, Bool.not_true, Bool.and_false]
  unfold State.i2cCommand
  rw [if_neg (by rw [listens]; decide)]
  exact if_neg (Bool.eq_false_iff.mp checks)

theorem i2cCommand_discards (listens : s.i2cOn = true) (pec : s.pecOn = true) (act : State → State) : s.i2cCommand false act =
    ((s.commanded.updI2ct (fun x => { x with pecErr := satInc x.pecErr })).raise pI2CT 2).emit .i2cNack := by
  have checks : s.commanded.pecOn = true := pec
  unfold State.i2cCommand
  rw [if_neg (by rw [listens]; decide)]
  exact if_pos (Bool.and_eq_true_iff.mpr ⟨checks, rfl⟩)

/-- A write that no page takes: denied, counted and NACKed (13 R410). -/
def State.i2cDenied (s : State) (off : Word) : State :=
  ((s.raise pI2CT 1).countErr pI2CT 0x82 (errAddr off.toNat 0 0)).emit .i2cNack

theorem i2cDenied_counts (s : State) (off : Word) : (s.i2cDenied off).bit pI2CT 1 = true ∧
    ((s.i2cDenied off).hdr[pI2CT]).errCause = 0x82#8 ∧ .i2cNack ∈ (s.i2cDenied off).outbox ∧ (s.i2cDenied off).regs = s.regs ∧
    (s.i2cDenied off).nvm = s.nvm := by
  have bit : (s.raise pI2CT 1).bit pI2CT 1 = true := raise_bit _ _ _ (by decide) (by decide) (by decide)
  have counted (a : State) : a.countErr pI2CT 0x82 (errAddr off.toNat 0 0) =
      a.updHdr pI2CT (fun h => { h with errCause := 0x82, errAddr := errAddr off.toNat 0 0, errCount := satInc h.errCount }) := by
    unfold State.countErr
    exact if_neg (by decide)
  unfold State.i2cDenied
  rw [counted]
  refine ⟨?_, ?_, mem_emit_outbox _ _, by simp, by simp⟩
  · unfold State.bit at bit ⊢
    simpa [State.updHdr] using bit
  · simp [State.updHdr]

theorem exec_write32_denied (listens : s.i2cOn = true) (off v : Word) (ok : Bool) (off' : s.pecOn = false)
    (closed : s.i2cWritable (Fin.ofNat 128 (off.toNat / 4096)) = false) :
    exec (.write32 off v ok) s = .next (s.commanded.i2cDenied off) := by
  have closed' : s.commanded.i2cWritable (Fin.ofNat 128 (off.toNat / 4096)) = false := closed
  refine congrArg Host.Outcome.next ((i2cCommand_acts listens (.inl off') _).trans ?_)
  dsimp only
  rw [closed', Bool.and_false]
  rfl

/-- A meter request that is refused (13 R411). -/
def State.meterRefused (s : State) : State := s.updI2ct (fun x => { x with meterSt := 3#2, meter := [] })

theorem exec_meterReq_refused (listens : s.i2cOn = true) (t : Byte) (q : QWord) (ok : Bool) (pec : s.pecOn = false)
    (idle : s.i2ct.meterSt ≠ 1#2) (below : s.dev.level ≠ .full) : exec (.meterReq t q ok) s = .next s.commanded.meterRefused := by
  refine congrArg Host.Outcome.next ((i2cCommand_acts listens (.inl pec) _).trans ((if_neg idle).trans ?_))
  split
  · exact if_neg below
  · rfl

theorem exec_readN_takes (listens : s.i2cOn = true) (n : Byte) (ok : Bool) (least : 1 ≤ n.toNat) (most : n.toNat ≤ 32) :
    exec (.readN n ok) s = .next (s.updI2ct (fun x => { x with txns := satInc x.txns, readN := some n.toNat })) :=
  congrArg Host.Outcome.next ((if_neg (by rw [listens]; decide)).trans
    (if_pos (by rw [decide_eq_true least, decide_eq_true most]; decide)))

theorem windowBytes_length (n : Nat) (s : State) (first : Bool) : (State.windowBytes n s first).2.length = n := by
  induction n generalizing s first with
  | zero => rfl
  | succ n ih => exact congrArg (· + 1) (ih _ false)

/-- The bytes of a READ_N with their PEC; the READ_N is over (13 R412). -/
def State.readBack (s : State) (k : Nat) : State :=
  ((State.windowBytes k s true).1.updI2ct (fun x => { x with readN := none })).emit
    (.i2c ((State.windowBytes k s true).2 ++ [(State.windowBytes k s true).1.readPec k (State.windowBytes k s true).2]))

theorem exec_i2cRead_reads (listens : s.i2cOn = true) (n : Nat) {k : Nat} (asked : s.i2ct.readN = some k) :
    exec (.i2cRead n) s = .next (s.readBack k) := by
  refine congrArg Host.Outcome.next ((if_neg (by rw [listens]; decide)).trans ?_)
  rw [asked]
  rfl

theorem exec_i2cRead_pec (listens : s.i2cOn = true) (n : Nat) (none : s.i2ct.readN = none) (pec : s.pecOn = true) :
    exec (.i2cRead n) s =
      .next ((s.updI2ct (fun x => { x with txns := satInc x.txns })).emit (.i2c (List.replicate n 0xFF))) := by
  refine congrArg Host.Outcome.next ((if_neg (by rw [listens]; decide)).trans ?_)
  rw [none]
  exact if_pos pec

theorem exec_alertResponse_answers (listens : s.i2cOn = true) (enabled : s.alertEn = true) (alert : s.i2ct.alert = true) :
    exec .alertResponse s = .next (((s.updI2ct (fun x => { x with alert := false })).drawn).emit
      (.i2c [BitVec.ofNat 8 (2 * s.dev.strap.i2cAddr.toNat + s.freeVal.toNat % 2)])) :=
  congrArg Host.Outcome.next (if_pos (by rw [listens, enabled, alert]; decide))

/-- The port's state resets (13 R407). -/
def State.portReset (s : State) : State :=
  s.updI2ct (fun x => { x with timeouts := satInc x.timeouts, readN := none, latchAt := none })

theorem exec_sclTimeout_resets (listens : s.i2cOn = true) : exec .sclTimeout s = .next (s.portReset.raise pI2CT 3) :=
  congrArg Host.Outcome.next (if_pos listens)

end I2c

/-- Settles O47: the lemmas above, command by command. -/
theorem theI2cTargetAnswers : Obligations.TheI2cTargetAnswers := by
  unfold Obligations.TheI2cTargetAnswers
  refine fun s listens => ⟨fun w a ok pec window => ?pointer, fun w a pec => ?discards, fun off v ok pec closed => ?denied,
    fun t q ok pec idle below => ?refused, exec_readN_takes listens, fun n k asked => ?reads, fun n none pec => ?filler,
    fun enabled alert => ?alert, ?timeout⟩
  case pointer => exact ⟨_, congrArg Host.Outcome.next ((i2cCommand_acts listens (.inl pec) _).trans (if_pos window)), rfl, rfl⟩
  case discards =>
    refine ⟨_, congrArg Host.Outcome.next (i2cCommand_discards listens pec _), ?_, mem_emit_outbox _ _, ?_⟩
    · exact raise_bit _ _ _ (by decide) (by decide) (by decide)
    · exact State.raise_i2ct ..
  case denied => exact ⟨_, exec_write32_denied listens off v ok pec closed, i2cDenied_counts s.commanded off⟩
  case refused => exact ⟨_, exec_meterReq_refused listens t q ok pec idle below, rfl, rfl, rfl⟩
  case reads => exact ⟨_, _, _, exec_i2cRead_reads listens n asked, windowBytes_length k s true, mem_emit_outbox _ _, rfl⟩
  case filler => exact ⟨_, exec_i2cRead_pec listens n none pec, mem_emit_outbox _ _, rfl⟩
  case alert =>
    exact ⟨_, _, exec_alertResponse_answers listens enabled alert, rfl, Nat.mod_lt _ (by decide), mem_emit_outbox _ _⟩
  case timeout =>
    exact ⟨_, exec_sclTimeout_resets listens, raise_bit _ _ _ (by decide) (by decide) (by decide), State.raise_i2ct ..⟩

end Sys2Proof.Machine
end

section
/-! PROOFS. The checks of a start (O43) and the service levels it reaches (O44). One layer first: what every operation of a start
leaves of the device, of the boot unit and of the status bits. -/
namespace Sys2Proof.Machine

/-! ## What stands through the operations of a start -/

/-- The device with its level, the boot unit, and what AON and the media remember of the start. -/
def State.startParts (s : State) : DevS × BootS × Nat × Bool × BitVec 7 × List Word :=
  (s.dev, s.boot, s.nvm.cycles, s.nvm.reachedFull, s.aon.rstCause, s.aon.evLatch)

/-- The start's parts are as they were, and every status bit that stood stands. -/
structure StartStands (s t : State) : Prop where
  parts : t.startParts = s.startParts
  bits : BitsKept s t

theorem StartStands.rfl' (s : State) : StartStands s s := ⟨rfl, .of_hdr rfl⟩

theorem StartStands.trans {s t u : State} (h : StartStands s t) (g : StartStands t u) : StartStands s u :=
  ⟨g.parts.trans h.parts, h.bits.trans g.bits⟩

/-- As `trans`, from a state written with other fields. -/
theorem StartStands.after {s x t : State} (h : StartStands x t) (parts : x.startParts = s.startParts) (hdr : x.hdr = s.hdr) :
    StartStands s t := StartStands.trans ⟨parts, .of_hdr hdr⟩ h

theorem StartStands.foldl {α : Type} {f : State → α → State} (each : ∀ a x, StartStands a (f a x)) (l : List α) (s : State) :
    StartStands s (l.foldl f s) := by
  induction l generalizing s with
  | nil => exact .rfl' s
  | cons x r ih => exact (each s x).trans (ih _)

theorem StartStands.ite {s t u : State} {c : Prop} [Decidable c] (first : StartStands s t) (second : StartStands s u) :
    StartStands s (if c then t else u) := by
  split
  · exact first
  · exact second

theorem StartStands.dev {s t : State} (h : StartStands s t) : t.dev = s.dev := congrArg Prod.fst h.parts

theorem StartStands.boot {s t : State} (h : StartStands s t) : t.boot = s.boot := congrArg (fun p => p.2.1) h.parts

theorem StartStands.cycles {s t : State} (h : StartStands s t) : t.nvm.cycles = s.nvm.cycles :=
  congrArg (fun p => p.2.2.1) h.parts

theorem StartStands.reachedFull {s t : State} (h : StartStands s t) : t.nvm.reachedFull = s.nvm.reachedFull :=
  congrArg (fun p => p.2.2.2.1) h.parts

theorem StartStands.rstCause {s t : State} (h : StartStands s t) : t.aon.rstCause = s.aon.rstCause :=
  congrArg (fun p => p.2.2.2.2.1) h.parts

theorem StartStands.evLatch {s t : State} (h : StartStands s t) : t.aon.evLatch = s.aon.evLatch :=
  congrArg (fun p => p.2.2.2.2.2) h.parts

theorem Transmits.stands {s t : State} (h : Transmits s t) : StartStands s t := by
  obtain ⟨_, _, _, rfl⟩ := h
  exact ⟨rfl, .of_hdr rfl⟩

theorem stands_raise (s : State) (p : Page) (b : Nat) : StartStands s (s.raise p b) :=
  ⟨by simp [State.startParts], bitsKept_raise s p b⟩

theorem stands_record (s : State) (code : Nat) (sev : Fin 4) (t : Byte) (d : List Byte) : StartStands s (s.record code sev t d) := by
  have same := record_unlogged s code sev t d
  have parts : (s.record code sev t d).unlogged.startParts = s.unlogged.startParts := congrArg State.startParts same
  exact ⟨parts, bitsKept_record s code sev t d⟩

theorem stands_raiseRec (s : State) (p : Page) (b : Nat) (sev : Fin 4) (t : Byte) (d : List Byte) :
    StartStands s (s.raiseRec p b sev t d) := (stands_raise s p b).trans (stands_record _ _ _ _ _)

theorem stands_raiseRecStatus (s : State) (p : Page) (b : Nat) (sev : Fin 4) (t : Byte) :
    StartStands s (s.raiseRecStatus p b sev t) := (stands_raise s p b).trans (stands_record _ _ _ _ _)

/-! ## A change of the service level -/

theorem setLevel_raises (s : State) {l : Level} (other : s.dev.level ≠ l) : (s.setLevel l).bit pUPD 0 = true := by
  unfold State.setLevel
  rw [if_neg other]
  exact bitsKept_raiseTenants _ _ _ _ _ (raise_bit _ _ _ (by decide) (by decide) (by decide))

theorem setLevel_keeps (s : State) (l : Level) : (s.setLevel l).dev.pad = s.dev.pad ∧ (s.setLevel l).boot = s.boot ∧
    (s.setLevel l).upd = s.upd ∧ (s.setLevel l).nvm = s.nvm ∧ (s.setLevel l).aon = s.aon := by
  unfold State.setLevel
  split
  · exact ⟨rfl, rfl, rfl, rfl, rfl⟩
  · exact ⟨by simp, by simp, by simp, by simp, by simp⟩

theorem stands_dispStart (s : State) : StartStands s s.dispStart := by
  unfold State.dispStart
  split
  · split
    · exact ⟨rfl, .of_hdr rfl⟩
    · exact .rfl' s
  · exact .rfl' s

theorem dispStart_upd (s : State) : s.dispStart.upd = s.upd := by
  unfold State.dispStart
  split
  · split <;> rfl
  · rfl

theorem ackCause_keeps (s : State) : s.ackCause.dev = s.dev ∧ s.ackCause.boot = s.boot ∧ s.ackCause.upd = s.upd ∧
    s.ackCause.nvm.reachedFull = s.nvm.reachedFull ∧ BitsKept s s.ackCause := by
  have recorded := stands_record s 0x0340 0 noTenant (leBytes 4 s.aon.rstCause.toNat)
  exact ⟨recorded.dev, recorded.boot, State.record_upd .., recorded.reachedFull, recorded.bits.trans (.of_hdr rfl)⟩

/-- Adeit in RECOVERY: the level, what UPD_RCV_CAUSE shows, and the boot unit as it was (04 R95, R108). -/
theorem recover_enters (s : State) (cause detail : Byte) : (s.recover cause detail).dev.level = .recovery ∧
    (s.recover cause detail).boot = s.boot ∧ (s.recover cause detail).upd.rcvCause = cause ∧
    (s.recover cause detail).upd.rcvDetail = detail ∧
    (s.dev.level ≠ .recovery → (s.recover cause detail).bit pUPD 0 = true) := by
  have recorded := stands_record s.saveGust 0x2641 3 noTenant (leBytes 4 (rcvCauseWord cause detail true).toNat)
  unfold State.recover
  dsimp only
  generalize s.saveGust.record 0x2641 3 noTenant (leBytes 4 (rcvCauseWord cause detail true).toNat) = a at recorded
  generalize start : ({ a with
    dev := { a.dev with pad := { a.dev.pad with spit := true } },
    aon := { a.aon with markFault := a.aon.markFault || cause = 0x20 },
    upd := { a.upd with rcvCause := cause, rcvDetail := detail, rcvByAdeit := true } } : State) = b
  have level : b.dev.level = s.dev.level := by
    rw [← start]
    exact (congrArg DevS.level recorded.dev :)
  have boot : b.boot = s.boot := by
    rw [← start]
    exact recorded.boot
  have upd : b.upd.rcvCause = cause ∧ b.upd.rcvDetail = detail := by
    rw [← start]
    exact ⟨rfl, rfl⟩
  obtain ⟨-, boot', upd', -, -⟩ := setLevel_keeps b .recovery
  obtain ⟨acked, booted, noted, -, bits⟩ := ackCause_keeps (b.setLevel .recovery)
  have shown := stands_dispStart (b.setLevel .recovery).ackCause
  have noted' : (b.setLevel .recovery).ackCause.dispStart.upd = b.upd := (dispStart_upd _).trans (noted.trans upd')
  refine ⟨?_, shown.boot.trans (booted.trans (boot'.trans boot)), ?_, ?_, fun other => shown.bits _ _ (bits _ _ ?_)⟩
  · rw [shown.dev, acked, setLevel_level]
  · rw [noted', upd.1]
  · rw [noted', upd.2]
  · exact setLevel_raises b (by rwa [level])

/-! ## Step 10: the NAND targets (04 R92, R95) -/

theorem stands_judgeReadOnly (s : State) : StartStands s s.judgeReadOnly := by
  unfold State.judgeReadOnly
  split
  · exact (stands_raiseRec _ _ _ _ _ _).after rfl rfl
  · exact .rfl' s

theorem stands_mediaBits (s before : State) : StartStands s (s.mediaBits before) := by
  unfold State.mediaBits
  dsimp only
  have urgent : StartStands s (if (s.foldUrgent && !before.foldUrgent) = true then s.raise pMED 2 else s) :=
    .ite (stands_raise s _ _) (.rfl' s)
  generalize (if (s.foldUrgent && !before.foldUrgent) = true then s.raise pMED 2 else s) = a at urgent ⊢
  have late (c : Bool) : StartStands s (if c = true then a.raise pMED 4 else a) := .ite (urgent.trans (stands_raise a _ _)) urgent
  exact .ite ((late _).trans (stands_raise _ _ _)) (late _)

theorem stands_retireBlock (s : State) (die blk : Nat) (cause : Byte) : StartStands s (s.retireBlock die blk cause) := by
  unfold State.retireBlock
  dsimp only
  split
  · exact .rfl' s
  · refine StartStands.trans ?_ (stands_mediaBits _ s)
    refine StartStands.trans ?_ (stands_judgeReadOnly _)
    refine StartStands.trans ?_ (stands_raise _ _ _)
    refine .ite ?_ ⟨rfl, .of_hdr rfl⟩
    split
    · split
      · exact ⟨rfl, .of_hdr rfl⟩
      · exact ⟨rfl, .of_hdr rfl⟩
    · exact ⟨rfl, .of_hdr rfl⟩

theorem stands_formSysSb (s : State) (d : BoardDesc) (g : Nat) : StartStands s (s.formSysSb d g) := by
  unfold State.formSysSb
  dsimp only
  exact .ite (.rfl' s) ⟨rfl, .of_hdr rfl⟩

theorem stands_formSystem (s : State) (d : BoardDesc) (rs : List TargetResult) : StartStands s (s.formSystem d rs) := by
  unfold State.formSystem
  refine .ite (.rfl' s) ?_
  dsimp only
  refine StartStands.trans ?_ (.foldl (fun a g => .foldl (fun b _ => stands_formSysSb b d g) _ a) _ _)
  exact .foldl (fun a r => .foldl (fun b m => .ite (stands_retireBlock b _ _ _) (.rfl' b)) _ a) _ s

theorem stands_failDie (s : State) (die : Nat) : StartStands s (s.failDie die) := by
  unfold State.failDie
  split
  · exact .rfl' s
  refine .ite (.rfl' s) ?_
  split
  · exact (stands_raise _ _ _).after rfl rfl
  · dsimp only
    refine StartStands.trans ?_ (stands_mediaBits _ s)
    have settled (a : State) : StartStands a a.settleGroups := ⟨rfl, .of_hdr rfl⟩
    refine StartStands.trans ?_ ((stands_judgeReadOnly _).trans (settled _))
    have failed (a : State) (same : a.startParts = s.startParts) (hdr : a.hdr = s.hdr) (c : Prop) [Decidable c] (det : List Byte) :
        StartStands s (if c then ((a.raise (pNFC (Fin.ofNat 8 (die / 32))) 2).raiseRec pXPAR 1 3 noTenant det).raise pXPAR 3
          else (a.raise (pNFC (Fin.ofNat 8 (die / 32))) 2).raiseRec pXPAR 1 3 noTenant det) := by
      have lost := ((stands_raise a (pNFC (Fin.ofNat 8 (die / 32))) 2).trans (stands_raiseRec _ pXPAR 1 3 noTenant det)).after same hdr
      exact .ite (lost.trans (stands_raise _ _ _)) lost
    refine .ite (StartStands.trans (failed _ ?_ ?_ _ _) (stands_raise _ _ _)) (failed _ ?_ ?_ _ _)
    · rfl
    · rfl
    · rfl
    · rfl

/-- The state once step 10 has passed, before the pads: the check counted and the flash set up. -/
def State.nandKnown (s : State) (params : Bool) : State :=
  { s with
    boot := { s.boot with nandOk := true, noParams := !params, counted := true },
    nvm := { s.nvm with cycles := s.cycleCount },
    med := { s.med with nfc := s.med.nfc.map (fun c => if c.enabled then { c with timing := true, params := params } else c) } }

/-- The system area formed, and what the answers say of the unit recorded. -/
def State.nandJudged (s : State) (d : BoardDesc) (rs : List TargetResult) : State :=
  let params := Config.paramSetFor d.nandId
  let s1 := (s.nandKnown params).formSystem d rs
  let s2 := if params then s1 else s1.record 0x1141 2 noTenant (leBytes 8 ((rs.head?.map (fun r => r.id.toNat)).getD 0))
  let un := (List.range 256).filter d.unusedDies.contains
  let s3 := if un = [] then s2 else
    s2.record 0x1140 2 noTenant ([BitVec.ofNat 8 un.length] ++ un.map (fun x => BitVec.ofNat 8 x))
  (rs.filter (fun r => !r.calibrated)).foldl (fun a r =>
    (List.range d.luns).foldl (fun b l => b.failDie (dieNo r.ch.1 r.ce.1 l)) (a.raise (pNFC r.ch) 3)) s3.judgeReadOnly

theorem stands_nandJudged (s : State) (d : BoardDesc) (rs : List TargetResult) :
    StartStands (s.nandKnown (Config.paramSetFor d.nandId)) (s.nandJudged d rs) := by
  unfold State.nandJudged
  dsimp only
  refine StartStands.trans ?_
    (.foldl (fun a r => (stands_raise a _ _).trans (.foldl (fun b _ => stands_failDie b _) _ _)) _ _)
  refine StartStands.trans ?_ (stands_judgeReadOnly _)
  have formed := stands_formSystem (s.nandKnown (Config.paramSetFor d.nandId)) d rs
  generalize (s.nandKnown (Config.paramSetFor d.nandId)).formSystem d rs = a at formed ⊢
  have known : StartStands (s.nandKnown (Config.paramSetFor d.nandId)) (if Config.paramSetFor d.nandId = true then a
      else a.record 0x1141 2 noTenant (leBytes 8 ((rs.head?.map (fun r => r.id.toNat)).getD 0))) :=
    .ite formed (formed.trans (stands_record _ _ _ _ _))
  exact .ite known (known.trans (stands_record _ _ _ _ _))

/-- The pads of step 12, and the script that begins. -/
def State.nandPads (s : State) (d : BoardDesc) (now : Nat) : State :=
  { s with
    dev := { s.dev with
      pad := { s.dev.pad with dram := true, i2ci := true },
      dramPins := { resetHigh := false, cke := false, vref := decide (d.dramType ≠ 0), at_ := now } },
    i2ci := { s.i2ci with initNext := d.initFrom 0, initAt := now } }

/-- A script that is not complete is recorded, and no probe runs. -/
def State.scriptJudged (s : State) (d : BoardDesc) : State :=
  if d.scriptComplete then s
  else
    ({ s with i2ci := { s.i2ci with incomplete := true }, pwr := { s.pwr with noProbe := true } } : State).record
      (bitCode pI2CI 3) 2 noTenant (leBytes 4 s.hdr[pI2CI].intStatus.toNat)

theorem stands_scriptJudged (s : State) (d : BoardDesc) : StartStands s (s.scriptJudged d) :=
  .ite (.rfl' s) ((stands_record _ _ _ _ _).after rfl rfl)

theorem nandPassed_judges (s : State) (d : BoardDesc) (rs : List TargetResult) :
    s.nandPassed d rs = ((s.nandJudged d rs).nandPads d s.now).scriptJudged d := rfl

/-- A check that passes: the pads of DRAM training and of the I²C initiator are on, and the power cycle is counted. -/
theorem nandPassed_passes (s : State) (d : BoardDesc) (rs : List TargetResult) : (s.nandPassed d rs).boot.nandOk = true ∧
    (s.nandPassed d rs).dev.level = s.dev.level ∧ (s.nandPassed d rs).dev.pad.nand = s.dev.pad.nand ∧
    (s.nandPassed d rs).dev.pad.i2ci = true ∧ (s.nandPassed d rs).dev.pad.dram = true ∧
    (s.nandPassed d rs).nvm.cycles = s.cycleCount := by
  have judged := stands_nandJudged s d rs
  have script := stands_scriptJudged ((s.nandJudged d rs).nandPads d s.now) d
  rw [nandPassed_judges, script.dev, script.boot, script.cycles]
  exact ⟨(congrArg BootS.nandOk judged.boot :), (congrArg DevS.level judged.dev :),
    (congrArg (fun x : DevS => x.pad.nand) judged.dev :), rfl, rfl, judged.cycles⟩

/-- A check that fails enters RECOVERY, the check still open. -/
theorem nandFailed_recovers (s : State) {l : List (Byte × Nat)} (fails : l ≠ []) : (s.nandFailed l).dev.level = .recovery ∧
    (s.nandFailed l).boot = s.boot := by
  cases l with
  | nil => exact absurd rfl fails
  | cons worst rest =>
    have recorded : StartStands s (rest.foldl (fun a r =>
        a.record 0x2641 3 noTenant (leBytes 4 (rcvCauseWord r.1 (BitVec.ofNat 8 r.2) true).toNat)) s) :=
      .foldl (fun a _ => stands_record a _ _ _ _) _ s
    obtain ⟨level, boot, -⟩ := recover_enters (rest.foldl (fun a r =>
        a.record 0x2641 3 noTenant (leBytes 4 (rcvCauseWord r.1 (BitVec.ofNat 8 r.2) true).toNat)) s) worst.1 (BitVec.ofNat 8 worst.2)
    exact ⟨level, boot.trans recorded.boot⟩

section Checks

variable {s : State} {d : BoardDesc}

/-- The channels' pads on, their units reset, before the targets are judged. -/
def State.nandOn (s : State) (d : BoardDesc) : State :=
  { s with
    dev := { s.dev with pad := { s.dev.pad with nand := d.chPresent } },
    med := { s.med with nfc := Vector.ofFn (fun c : Fin 8 => { NfcS.reset with enabled := d.chPresent.getLsbD c.1 }) } }

theorem exec_nandIdCheck_passes (desc : s.boot.desc = some d) (active : s.active = true) (rs : List TargetResult)
    (policy : s.boot.policy.isSome = true) (opened : s.boot.nandOk = false) (level : s.dev.level = .none)
    (well : nandFailures d (d.targets.map (targetAnswer rs)) = []) :
    exec (.nandIdCheck rs) s = .next ((s.nandOn d).nandPassed d (d.targets.map (targetAnswer rs))) := by
  show execNandIdCheck rs s = _
  unfold execNandIdCheck
  simp only [desc, well]
  exact if_neg (by rw [active, opened, level, Option.isNone_eq_false_iff.mpr policy]; decide)

theorem exec_nandIdCheck_fails (desc : s.boot.desc = some d) (active : s.active = true) (rs : List TargetResult)
    (policy : s.boot.policy.isSome = true) (opened : s.boot.nandOk = false) (level : s.dev.level = .none)
    (fails : nandFailures d (d.targets.map (targetAnswer rs)) ≠ []) :
    exec (.nandIdCheck rs) s = .next ((s.nandOn d).nandFailed (nandFailures d (d.targets.map (targetAnswer rs)))) := by
  show execNandIdCheck rs s = _
  unfold execNandIdCheck
  simp only [desc]
  rw [if_neg (by rw [active, opened, level, Option.isNone_eq_false_iff.mpr policy]; decide)]
  generalize nandFailures d (d.targets.map (targetAnswer rs)) = l at fails
  cases l with
  | nil => exact absurd rfl fails
  | cons worst rest => rfl

/-! ## Step 15: the DRAM (10 R314, R315) -/

theorem trainReport_stands (s : State) (lanes : List LaneSweep) (us : Nat) : StartStands s (s.trainReport lanes us) := by
  unfold State.trainReport
  dsimp only
  exact (StartStands.foldl (fun a x => .ite (stands_raiseRecStatus a _ _ _ _) (.rfl' a)) lanes _).after rfl rfl

/-- The lanes judged, RESET_L and CKE high (02 R45). -/
def State.dramTried (s : State) (lanes : List LaneSweep) (us : Nat) : State :=
  let s1 := s.trainReport lanes us
  { s1 with dev := { s1.dev with dramPins := { s1.dev.dramPins with resetHigh := true, cke := true } } }

/-- The DRAM trained, and its pool of N_DRAM buffers built. -/
def State.dramBuilt (s : State) (d : BoardDesc) (due : Nat) : State :=
  let s3 : State := { s with dram := { s.dram with trained := true, usableMiB := usableMiB d, refAt := due } }
  { s3 with
    boot := { s3.boot with dramOk := true },
    bpm := { s3.bpm with dram := { list := [], fresh := 0x80000, top := 0x80000 + s3.nDram d, size := s3.nDram d, cache := [],
                                   rebuild := false, stopped := 0 } } }

theorem exec_dramTrainingDone_builds (desc : s.boot.desc = some d) (active : s.active = true) (sweeps : Vector LaneSweep 5)
    {mr : List Byte} {gib : Nat} (us : Nat) (pad : s.dev.pad.dram = true) (opened : s.boot.dramOk = false)
    (level : s.dev.level = .gust) (due : s.dev.dramPins.at_ + 200 ≤ s.now)
    (well : (sweeps.toList.take (laneCount d.dramType)).any laneFailed = false) (mode : mr = d.dramMr) (size : d.dramGib ≤ gib) :
    exec (.dramTrainingDone sweeps mr gib us) s =
      .next ((s.dramTried (sweeps.toList.take (laneCount d.dramType)) us).dramBuilt d (1000 * s.now + s.trefi)) := by
  show execDramTrainingDone sweeps mr gib us s = _
  unfold execDramTrainingDone
  simp only [desc]
  rw [if_neg (by rw [active, pad, opened, level, decide_eq_false (Nat.not_lt.mpr due)]; decide),
    if_neg (by rw [well]; decide), if_neg (not_not_intro mode), if_neg (Nat.not_lt.mpr size)]
  rfl

theorem exec_dramTrainingDone_fails (desc : s.boot.desc = some d) (active : s.active = true) (sweeps : Vector LaneSweep 5)
    (mr : List Byte) (gib us : Nat) (pad : s.dev.pad.dram = true) (opened : s.boot.dramOk = false)
    (level : s.dev.level = .gust) (due : s.dev.dramPins.at_ + 200 ≤ s.now)
    (fails : (sweeps.toList.take (laneCount d.dramType)).any laneFailed = true) :
    exec (.dramTrainingDone sweeps mr gib us) s =
      .next (((s.dramTried (sweeps.toList.take (laneCount d.dramType)) us).raise pDPHY 0).recover 0x13 0) := by
  show execDramTrainingDone sweeps mr gib us s = _
  unfold execDramTrainingDone
  simp only [desc]
  rw [if_neg (by rw [active, pad, opened, level, decide_eq_false (Nat.not_lt.mpr due)]; decide), if_pos fails]
  rfl

/-- What is logged does not change N_DRAM. -/
theorem nDram_unlogged (s : State) (d : BoardDesc) : s.unlogged.nDram d = s.nDram d := by
  have blocks : s.unlogged.convBlocks = s.convBlocks := by
    have each (a : Nat) (t : Tid) : a + (s.unlogged.tnt[t]).convBlocks = a + (s.tnt[t]).convBlocks := by
      simp [State.unlogged, State.quiet, Tenant.quiet]
    unfold State.convBlocks
    simp only [each]
  have zones : s.unlogged.zoneCount = s.zoneCount := by
    unfold State.zoneCount
    rw [blocks]
    rfl
  unfold State.nDram State.mapMiB
  rw [blocks, zones]

theorem trainReport_nDram (s : State) (lanes : List LaneSweep) (us : Nat) (d : BoardDesc) :
    (s.trainReport lanes us).nDram d = s.nDram d := by
  have each (a : State) (x : LaneSweep) (c : Bool) : (if c = true then a.raiseRecStatus pDPHY 1 2 noTenant else a).nDram d = a.nDram d := by
    cases c
    · rfl
    · rw [if_pos rfl, ← nDram_unlogged, raiseRecStatus_unlogged, nDram_unlogged]
  unfold State.trainReport
  dsimp only
  exact foldl_same (part := fun a => a.nDram d) (fun a x => each a x _) lanes _

/-- The pool holds N_DRAM buffers, the lanes' pins are high, and the level stays. -/
theorem dramBuilt_builds (s : State) (lanes : List LaneSweep) (us : Nat) (d : BoardDesc) :
    ((s.dramTried lanes us).dramBuilt d (1000 * s.now + s.trefi)).bpm.dram.size = s.nDram d ∧ ((s.dramTried lanes us).dramBuilt d (1000 * s.now + s.trefi)).dev.level = s.dev.level :=
  ⟨trainReport_nDram s lanes us d, (congrArg DevS.level (trainReport_stands s lanes us).dev :)⟩

end Checks

section Extended

variable {s : State} {b : Bool}

theorem exec_extendedPartLoaded_accepts (booted : s.boot.booted = some b) (active : s.active = true) (dram : s.boot.dramOk = true)
    (opened : s.boot.extOk = false) (level : s.dev.level = .gust) (good : s.extendedGood b = true) :
    exec .extendedPartLoaded s = .next { s with boot := { s.boot with extOk := true } } := by
  show execExtendedPartLoaded s = _
  unfold execExtendedPartLoaded
  simp only [booted]
  rw [if_pos (by rw [active, dram, opened, level]; decide), if_pos good]

theorem exec_extendedPartLoaded_recovers (booted : s.boot.booted = some b) (active : s.active = true) (dram : s.boot.dramOk = true)
    (opened : s.boot.extOk = false) (level : s.dev.level = .gust) (bad : s.extendedGood b = false) :
    exec .extendedPartLoaded s = .next (s.recover 0x20 0) := by
  show execExtendedPartLoaded s = _
  unfold execExtendedPartLoaded
  simp only [booted]
  rw [if_pos (by rw [active, dram, opened, level]; decide), if_neg (by rw [bad]; decide)]

end Extended

/-- Settles O43: the lemmas above, check by check. -/
theorem startChecksPass : Obligations.StartChecksPass := by
  unfold Obligations.StartChecksPass
  refine fun s d desc active => ⟨fun rs as answers policy opened level => ?nand,
    fun sweeps mr gib us lanes taken pad opened level due => ?dram, fun b booted dram opened level => ?extended⟩
  case nand =>
    subst answers
    refine ⟨fun well => ?_, fun fails => ?_⟩
    · obtain ⟨ok, level', nand, i2ci, dram, cycles⟩ := nandPassed_passes (s.nandOn d) d (d.targets.map (targetAnswer rs))
      exact ⟨_, exec_nandIdCheck_passes desc active rs policy opened level well, ok, level'.trans level, nand, i2ci, dram, cycles⟩
    · obtain ⟨recovers, boot⟩ := nandFailed_recovers (s.nandOn d) fails
      exact ⟨_, exec_nandIdCheck_fails desc active rs policy opened level fails, (congrArg BootS.nandOk boot).trans opened, recovers⟩
  case dram =>
    subst taken
    refine ⟨fun well mode size => ?_, fun fails => ?_⟩
    · obtain ⟨pool, level'⟩ := dramBuilt_builds s (sweeps.toList.take (laneCount d.dramType)) us d
      exact ⟨_, exec_dramTrainingDone_builds desc active sweeps us pad opened level due well mode size, rfl, rfl, rfl, rfl, pool, level'⟩
    · obtain ⟨recovers, boot, cause, -⟩ :=
        recover_enters ((s.dramTried (sweeps.toList.take (laneCount d.dramType)) us).raise pDPHY 0) 0x13 0
      have tried : (s.dramTried (sweeps.toList.take (laneCount d.dramType)) us).boot = s.boot := (trainReport_stands s _ us).boot
      have kept := boot.trans ((State.raise_boot ..).trans tried)
      exact ⟨_, exec_dramTrainingDone_fails desc active sweeps mr gib us pad opened level due fails,
        (congrArg BootS.dramOk kept).trans opened, recovers, cause⟩
  case extended =>
    refine ⟨fun good => exec_extendedPartLoaded_accepts booted active dram opened level (decide_eq_true good), fun bad => ?_⟩
    obtain ⟨recovers, boot, cause, -⟩ := recover_enters s 0x20 0
    exact ⟨_, exec_extendedPartLoaded_recovers booted active dram opened level (decide_eq_false bad),
      (congrArg BootS.extOk boot).trans opened, recovers, cause⟩

end Sys2Proof.Machine
end

section
/-! PROOFS. The service levels (O44), over what stands through a start. -/
namespace Sys2Proof.Machine

/-! ## Fencing and the known answers (08 R240, R241) -/

theorem stands_drawn (s : State) : StartStands s s.drawn := ⟨rfl, .of_hdr rfl⟩

theorem stands_freeBuf (s : State) (h : Nat) : StartStands s (s.freeBuf h) := by
  refine ⟨?_, .of_hdr (freeBuf_hdr s h)⟩
  unfold State.freeBuf
  split
  · rfl
  · split <;> rfl

theorem stands_updPipe (s : State) (p : Pipe) (f : PipeS → PipeS) : StartStands s (s.updPipe p f) := by
  cases p with
  | x => exact ⟨rfl, .of_hdr rfl⟩
  | g => exact ⟨rfl, .of_hdr rfl⟩

theorem stands_undoOpen (s : State) (cs : List Cmd) : StartStands s (s.undoOpen cs) := by
  unfold State.undoOpen
  refine .foldl (fun a _ => ?_) cs s
  split
  · exact .rfl' a
  · exact ⟨rfl, .of_hdr rfl⟩

theorem stands_failPipe (s : State) (p : Pipe) (st rc : Byte) : StartStands s (s.failPipe p st rc) := by
  unfold State.failPipe
  refine StartStands.trans ?_ (stands_updPipe _ p _)
  refine StartStands.trans ?_ (stands_undoOpen _ _)
  have freed : StartStands s (((s.hqm.cmds.filter (fun e => e.2.heldBy p)).flatMap (fun e => e.2.bufs)).foldl State.freeBuf s) :=
    .foldl stands_freeBuf _ s
  exact ⟨freed.parts, freed.bits⟩

theorem stands_linkLeave (s : State) (p : Fin 4) (dst : LinkSt) : StartStands s (s.linkLeave p dst) := by
  unfold State.linkLeave
  dsimp only
  refine .ite (StartStands.trans ?_ (stands_raise _ _ _)) ⟨rfl, .of_hdr rfl⟩
  exact (stands_raise _ _ _).after rfl rfl

theorem stands_linksDown (s : State) (dst : LinkSt) : StartStands s (s.linksDown dst) :=
  .foldl (fun a p => .ite (.rfl' a) (stands_linkLeave a p dst)) _ s

theorem stands_mirLeave (s : State) (st : MirSt) (reason : BitVec 3) : StartStands s (s.mirLeave st reason) :=
  (stands_raise _ _ _).after rfl rfl

theorem stands_fenceLinks (s : State) (p : Pipe) : StartStands s (s.fenceLinks p) := by
  cases p with
  | x => exact .rfl' s
  | g =>
    have down := stands_linksDown s .failed
    unfold State.fenceLinks
    dsimp only
    generalize s.linksDown .failed = a at down ⊢
    exact .ite (down.trans (stands_mirLeave _ _ _)) down

theorem stands_fencePipe (s : State) (p : Pipe) (rc : Byte) (stage : Nat) (tenant : Byte) (tag n : Nat) :
    StartStands s (s.fencePipe p rc stage tenant tag n) := by
  unfold State.fencePipe
  refine StartStands.trans ?_ (stands_raiseRec _ _ _ _ _ _)
  exact ((stands_failPipe s p 0x0B rc).trans (stands_updPipe _ p _)).trans (stands_fenceLinks _ p)

theorem stands_katResults (s : State) (kat : BitVec 5) : StartStands s (s.katResults kat) := by
  unfold State.katResults
  dsimp only
  have tested : StartStands s ((List.range 5).foldl (fun (a : State) k =>
      if kat.getLsbD k then a else a.drawn.raiseRec pCIPH 5 (Fin.ofNat 4 a.freeVal.toNat) noTenant [BitVec.ofNat 8 (k + 1)]) s) :=
    .foldl (fun a k => .ite (.rfl' a) ((stands_drawn a).trans (stands_raiseRec _ _ _ _ _ _))) _ s
  generalize (List.range 5).foldl (fun (a : State) k =>
      if kat.getLsbD k then a else a.drawn.raiseRec pCIPH 5 (Fin.ofNat 4 a.freeVal.toNat) noTenant [BitVec.ofNat 8 (k + 1)]) s = a
    at tested
  generalize start : ({ a with ciph := { a.ciph with
      x := { a.ciph.x with kat := kat.getLsbD 0 && kat.getLsbD 1 }, g := { a.ciph.g with kat := kat.getLsbD 2 } } } : State) = b
  have noted : StartStands s b := by
    rw [← start]
    exact ⟨tested.parts, tested.bits⟩
  have fenced (p : Pipe) (c : Bool) {t : State} (h : StartStands s t) :
      StartStands s (if c = true then t else t.fencePipe p 0x02 0 noTenant 0 0) := .ite h (h.trans (stands_fencePipe _ _ _ _ _ _ _))
  have both := fenced .g (kat.getLsbD 2) (fenced .x (kat.getLsbD 0 && kat.getLsbD 1) noted)
  exact .ite both (both.trans (stands_raise _ _ _))

/-! ## GUST (04 R92, R96) -/

theorem stands_loadKey (s : State) (t : Tid) (u : Unwrapped) : StartStands s (s.loadKey t u) := by
  unfold State.loadKey
  split
  · exact ⟨rfl, .of_hdr rfl⟩
  · exact ⟨rfl, .of_hdr rfl⟩
  · exact .rfl' s

theorem stands_reloadKeys (s : State) (t : Tid) : StartStands s (s.reloadKeys t) := by
  unfold State.reloadKeys
  split
  · exact .rfl' s
  · dsimp only
    cases s.nvm.keysX.find t.1 with
    | none =>
      cases s.nvm.keysG.find t.1 with
      | none => exact .rfl' s
      | some g => exact stands_loadKey s t _
    | some x =>
      cases s.nvm.keysG.find t.1 with
      | none => exact stands_loadKey s t _
      | some g => exact (stands_loadKey s t _).trans (stands_loadKey _ t _)

theorem stands_restore (s : State) (p : Tid → Bool) : StartStands s (s.restore p) := ⟨rfl, .of_hdr rfl⟩

theorem stands_readSeq (s : State) : StartStands s s.readSeq := by
  unfold State.readSeq
  dsimp only
  split
  · exact ⟨rfl, .of_hdr rfl⟩
  · exact ⟨rfl, .of_hdr rfl⟩

theorem StartStands.remetered {s t : State} (h : StartStands s t) (m : MtrS) : StartStands s { t with mtr := m } := ⟨h.parts, h.bits⟩

theorem stands_meterStart (s : State) (first : Bool) : StartStands s (s.meterStart first) := by
  unfold State.meterStart
  dsimp only
  split
  · refine StartStands.remetered ?_ _
    exact .ite ⟨rfl, .of_hdr rfl⟩ ⟨rfl, .of_hdr rfl⟩
  · exact ⟨rfl, .of_hdr rfl⟩

section Gust

variable {s : State}

/-- The answers judged. -/
def State.tested (s : State) (kat : BitVec 5) : State := s.readSeq.katResults kat

theorem stands_tested (s : State) (kat : BitVec 5) : StartStands s (s.tested kat) :=
  (stands_readSeq s).trans (stands_katResults _ kat)

theorem exec_gust_recovers {kat : BitVec 5} (ready : s.active && s.dev.level = .none && !s.dev.romRecovery && s.boot.nandOk &&
    s.boot.policy.isSome && s.pmicSettled) (fails : (kat.getLsbD 3 && kat.getLsbD 4) = false) :
    exec (.gust kat) s = .next ((s.tested kat).drawn.recover ((s.tested kat).freeVal.setWidth 8) 0) :=
  (if_pos ready).trans (if_pos (by rw [fails]; decide))

/-- The state before the level changes, with the time of GUST. -/
def State.gustReady (s : State) (kat : BitVec 5) : State :=
  let s1 := (s.tested kat).reloadAll.restore (fun t => s.tnt[t].gustTenant)
  let s2 : State := { s1 with
    boot := { s1.boot with tGust := some ((s.now - s.boot.releaseAt) / 1000) },
    evr := { s1.evr with prev := { s1.nvm.summary with complete := s.squallComplete && s1.nvm.summary.complete } },
    pwr := { s1.pwr with idleSince := s.now } }
  let s3 := s2.meterStart (decide (s.nvm.starts ≤ 1))
  if s.nvm.evDropped = 0 then s3 else s3.record 0x1B44 1 noTenant (leBytes 4 s.nvm.evDropped)

theorem gustReady_keeps (s : State) (kat : BitVec 5) : (s.gustReady kat).dev = s.dev ∧
    (s.gustReady kat).boot.tGust = some ((s.now - s.boot.releaseAt) / 1000) := by
  have loaded : StartStands s (s.tested kat).reloadAll := (stands_tested s kat).trans (.foldl stands_reloadKeys _ _)
  unfold State.gustReady
  dsimp only
  have restored := loaded.trans (stands_restore _ (fun t => s.tnt[t].gustTenant))
  generalize (s.tested kat).reloadAll.restore (fun t => s.tnt[t].gustTenant) = a at restored
  generalize start : ({ a with
    boot := { a.boot with tGust := some ((s.now - s.boot.releaseAt) / 1000) },
    evr := { a.evr with prev := { a.nvm.summary with complete := s.squallComplete && a.nvm.summary.complete } },
    pwr := { a.pwr with idleSince := s.now } } : State) = b
  have dev : b.dev = s.dev := by
    rw [← start]
    exact restored.dev
  have time : b.boot.tGust = some ((s.now - s.boot.releaseAt) / 1000) := by rw [← start]
  have metered := stands_meterStart b (decide (s.nvm.starts ≤ 1))
  have final : StartStands b (if s.nvm.evDropped = 0 then b.meterStart (decide (s.nvm.starts ≤ 1))
      else (b.meterStart (decide (s.nvm.starts ≤ 1))).record 0x1B44 1 noTenant (leBytes 4 s.nvm.evDropped)) :=
    .ite metered (metered.trans (stands_record _ _ _ _ _))
  exact ⟨final.dev.trans dev, (congrArg BootS.tGust final.boot).trans time⟩

theorem exec_gust_reaches {kat : BitVec 5} (ready : s.active && s.dev.level = .none && !s.dev.romRecovery && s.boot.nandOk &&
    s.boot.policy.isSome && s.pmicSettled) (well : (kat.getLsbD 3 && kat.getLsbD 4) = true) :
    exec (.gust kat) s = .next ((s.gustReady kat).setLevel .gust).dispStart := by
  show execGust kat s = _
  unfold execGust
  rw [if_pos ready]
  dsimp only
  rw [if_neg (by rw [well]; decide)]
  unfold State.gustReady State.tested
  rfl

end Gust

/-! ## Power-fail replay (11 R358 to R360) -/

theorem stands_emptyZone (s : State) (z : Nat) : StartStands s (s.emptyZone z) := ⟨rfl, .of_hdr rfl⟩

theorem stands_reportSquall (s : State) (complete : Bool) : StartStands s (s.reportSquall complete) := by
  unfold State.reportSquall
  dsimp only
  refine .ite (StartStands.trans ?_ (stands_raise _ _ _)) (.ite ?_ ⟨rfl, .of_hdr rfl⟩)
  · exact (stands_record _ _ _ _ _).after rfl rfl
  · exact (stands_record _ _ _ _ _).after rfl rfl

theorem stands_reportLost (s : State) (t : Tid) (miss : List Nat) : StartStands s (s.reportLost t miss) := by
  unfold State.reportLost
  refine .ite (.rfl' s) ?_
  have recorded := stands_record s 0x1B43 3 (tidByte t)
    ([tidByte t] ++ zeroBytes 7 ++ leBytes 8 miss.length ++ leBytes 8 (miss.foldl min (miss.headD 0)))
  exact recorded.trans ((stands_raise _ _ _).after rfl rfl)

theorem stands_compareHead (s : State) (t : Tid) (lost : Bool) : StartStands s (s.compareHead t lost) := by
  unfold State.compareHead
  dsimp only
  exact .ite ((stands_drawn s).trans (stands_raiseRec _ _ _ _ _ _)) (.rfl' s)

theorem stands_queueOp (s : State) (die cls : Nat) (k : FlashKind) (bufs : List Nat) : StartStands s (s.queueOp die cls k bufs) :=
  ⟨rfl, .of_hdr rfl⟩

theorem stands_queueErases (s : State) (key : Nat) (b : Superblock) : StartStands s (s.queueErases key b) := by
  have queued : StartStands s ((s.nvm.erasable b).foldl (fun a x => a.queueOp x.1 6 (.erase key x.2) []) s) :=
    .foldl (fun a _ => stands_queueOp a _ _ _ _) _ s
  unfold State.queueErases
  refine queued.trans ?_
  unfold State.finishErase
  exact .ite (.rfl' _) ⟨rfl, .of_hdr rfl⟩

theorem stands_eraseSb (s : State) (key : Nat) : StartStands s (s.eraseSb key) := by
  unfold State.eraseSb
  split
  · exact .rfl' s
  · exact .ite (.rfl' s) ((stands_queueErases _ _ _).after rfl rfl)

theorem stands_redoErases (s : State) : StartStands s s.redoErases := by
  unfold State.redoErases
  refine .foldl (fun a p => ?_) _ s
  split
  · exact stands_queueErases a _ _
  split
  · exact .rfl' a
  split
  · exact stands_eraseSb a _
  · exact ⟨rfl, .of_hdr rfl⟩

section Replay

variable {s : State}

/-- The state of a replay before it is marked as done. -/
def State.replayRun (s : State) : State :=
  let complete := s.squallComplete
  let miss (t : Tid) : List Nat := if complete then [] else s.missing t
  let s1 := s.redoResets.restore (fun _ => true)
  let s2 : State := { s1 with nvm := s1.nvm.revertConv.applyTrims }
  let s3 := allTids.foldl (fun a t => (a.reportLost t (miss t)).compareHead t (decide (miss t ≠ []))) (s2.reportSquall complete)
  s3.redoErases

theorem stands_replayRun (s : State) : StartStands s s.replayRun := by
  unfold State.replayRun
  dsimp only
  refine StartStands.trans ?_ (stands_redoErases _)
  refine StartStands.trans ?_ (.foldl (fun a t => (stands_reportLost a t _).trans (stands_compareHead _ t _)) _ _)
  refine StartStands.trans ?_ (stands_reportSquall _ _)
  have reset : StartStands s s.redoResets := .foldl (fun a (r : ZReset) => stands_emptyZone a r.zone) _ s
  exact ⟨reset.parts, reset.bits⟩

/-- Replay is done, and the scrub pass of the start begins (09 R300). -/
def State.replayDone (s : State) (secs : Nat) : State :=
  { s with
    boot := { s.boot with replayed := true }, med := { s.med with scrubPass := true, scrubAt := secs },
    nvm := { s.nvm with sbs := s.nvm.sbs.mapv (fun _ b => { b with scrubRow := 0 }) } }

theorem exec_powerFailReplay_replays (active : s.active = true) (level : s.dev.level = .gust) (ext : s.boot.extOk = true)
    (opened : s.boot.replayed = false) : exec .powerFailReplay s = .next (s.replayRun.replayDone s.opSecs) :=
  if_pos (by rw [active, level, ext, opened]; decide)

end Replay

/-! ## The gust merge (04 R100) -/

section Merge

variable {s : State} {z : Zone}

/-- The zone keeps everything but its place in the gust set. -/
def State.merged (s : State) (k : Nat) : State := s.updZone k (fun x => { x with inGustSet := false, used := false })

/-- The superblocks of a tenant's gust stream are ordinary SLC data. -/
def State.gustClosed (s : State) (t : Tid) : State :=
  { s with nvm := { s.nvm with sbs := s.nvm.sbs.mapv (fun _ b => if b.stream = 8 + t.1 then { b with stream := 1, open_ := false } else b) } }

theorem exec_gustMerge_merges {zone : BitVec 20} (found : s.zone zone.toNat = some z) (active : s.active = true)
    (level : s.dev.level = .gust) (replayed : s.boot.replayed = true) (waits : z.toMerge = true) (probed : s.probeSettled = true)
    (none : s.inFlightTo zone.toNat = false) : ∃ last : Bool, exec (.gustMerge zone) s =
      .next (if last = true then (s.merged zone.toNat).gustClosed z.owner else s.merged zone.toNat) := by
  refine ⟨!(s.merged zone.toNat).nvm.zones.any (fun p => p.2.owner = z.owner && p.2.toMerge), ?_⟩
  show execGustMerge zone s = _
  unfold execGustMerge
  simp only [found]
  rw [if_pos (by rw [active, level, replayed, waits, probed, none]; decide)]
  rfl

theorem merged_zones (s : State) (k : Nat) (t : Tid) (last : Bool) (j : Nat) :
    (if last = true then (s.merged k).gustClosed t else s.merged k).zone j = (s.merged k).zone j ∧
    (if last = true then (s.merged k).gustClosed t else s.merged k).nvm.chains = s.nvm.chains := by
  cases last with
  | true => exact ⟨rfl, rfl⟩
  | false => exact ⟨rfl, rfl⟩

theorem merged_zone (s : State) (k j : Nat) : (s.merged k).zone j =
    if j = k then (s.zone j).map (fun x => { x with inGustSet := false, used := false }) else s.zone j := by
  have found := KMap.find_upd s.nvm.zones k j (fun x => { x with inGustSet := false, used := false })
  exact found

end Merge

/-! ## FULL (04 R92, R100) -/

theorem StartStands.ported {s t : State} (h : StartStands s t) (v : Vector VflS 4) : StartStands s { t with vfl := v } :=
  ⟨h.parts, h.bits⟩

theorem stands_mirStateItem (s : State) (t : Tid) (item : Byte) (payload : List Byte) :
    StartStands s (s.mirStateItem t item payload) :=
  .ite (transmits_mirSend _ _ _ _ _).stands (.rfl' s)

theorem stands_quotaNear (s : State) (t : Tid) : StartStands s (s.quotaNear t) := .ite (stands_raise _ _ _) (.rfl' s)

theorem stands_holdTenant (s : State) (t : Tid) (at_ : Nat) : StartStands s (s.holdTenant t at_) := by
  unfold State.holdTenant
  refine .ite (.rfl' s) ?_
  dsimp only
  refine StartStands.trans (StartStands.trans ?_ (stands_raiseRec _ _ _ _ _ _)) (stands_quotaNear _ t)
  refine StartStands.trans ?_ (.foldl (fun a p => ?_) _ _)
  · have metered (a : State) (p : Nat × Zone) : StartStands a (a.meterIn 2 (4096 * p.2.wp)) := ⟨rfl, .of_hdr rfl⟩
    exact (StartStands.foldl metered _ _).after rfl rfl
  · split
    · exact .rfl' a
    · exact stands_mirStateItem a _ _ _

/-- No pulse is latched any more. -/
def State.unlatched (s : State) : State := { s with aon := { s.aon with evLatch := [] } }

theorem stands_applyLatched (s : State) : StartStands s.unlatched s.applyLatched := by
  unfold State.applyLatched
  exact .foldl (fun a w => .foldl (fun b t => stands_holdTenant b t _) allTids a) _ _

theorem stands_startPorts (s : State) : StartStands s s.startPorts := by
  unfold State.startPorts
  refine StartStands.ported ?_ _
  exact .ite ⟨rfl, .of_hdr rfl⟩ (.rfl' s)

theorem stands_unpair (s : State) (reason : BitVec 3) : StartStands s (s.unpair reason) := by
  unfold State.unpair
  dsimp only
  split
  · exact (stands_raise _ _ _).after rfl rfl
  · exact (stands_raiseRecStatus _ _ _ _ _).after rfl rfl

theorem stands_enterResync (s : State) : StartStands s s.enterResync := by
  unfold State.enterResync
  dsimp only
  split
  · exact (transmits_sendLong _ _).stands.after rfl rfl
  · exact ⟨rfl, .of_hdr rfl⟩

theorem stands_pairCheck (s : State) : StartStands s s.pairCheck := by
  unfold State.pairCheck
  dsimp only
  refine .ite (.rfl' s) (.ite (.ite (stands_enterResync s) (.ite (stands_unpair s _) (.rfl' s))) (.ite (.rfl' s) (stands_unpair s _)))

section Full

variable {s : State} {d : BoardDesc}

/-- The slot confirmed, the port pads on, and the start remembered as one that reached FULL. -/
def State.fullReady (s : State) (d : BoardDesc) : State :=
  let s1 := (s.refillGust d).confirmSlot
  { s1 with
    boot := { s1.boot with tFull := some ((s.now - s.boot.releaseAt) / 1000) },
    dev := { s1.dev with pad := { s1.dev.pad with vfl := d.ports } },
    nvm := { s1.nvm with reachedFull := true },
    vfr := { s1.vfr with claimAt := s.now, advDue := true } }

theorem fullReady_level (s : State) (d : BoardDesc) : (s.fullReady d).dev.level = s.dev.level := by
  have confirmed (a : State) : a.confirmSlot.dev = a.dev := by
    unfold State.confirmSlot
    split
    · rfl
    · rfl
  exact (congrArg DevS.level ((confirmed _).trans (sameStart_refillGust s d).dev) :)

/-- The cause acknowledged and no pulse latched at FULL. -/
def State.atFull (s : State) (d : BoardDesc) : State := ((s.fullReady d).setLevel .full).ackCause.unlatched

theorem exec_full_reaches (desc : s.boot.desc = some d) (active : s.active = true) (level : s.dev.level = .gust)
    (replayed : s.boot.replayed = true) (dram : s.boot.dramOk = true) (probed : s.probeSettled = true)
    (merged : s.nvm.zones.any (fun p => p.2.toMerge) = false) : ∃ u, exec .full s = .next u ∧ StartStands (s.atFull d) u := by
  have ported : StartStands (s.atFull d) ((s.fullReady d).setLevel .full).ackCause.applyLatched.startPorts :=
    (stands_applyLatched _).trans (stands_startPorts _)
  have warned (c : Prop) [Decidable c] : StartStands (s.atFull d)
      (if c then ((s.fullReady d).setLevel .full).ackCause.applyLatched.startPorts.raiseRecStatus pVFR 1 2 noTenant
        else ((s.fullReady d).setLevel .full).ackCause.applyLatched.startPorts) :=
    .ite (ported.trans (stands_raiseRecStatus _ _ _ _ _)) ported
  refine ⟨_, ?_, (warned (d.ports ≠ 0 ∧ ((s.fullReady d).setLevel .full).ackCause.applyLatched.startPorts.addressed = false)).trans
    (stands_pairCheck _)⟩
  show execFull s = _
  unfold execFull
  simp only [desc]
  rw [if_pos (by rw [active, level, replayed, dram, probed, merged]; decide)]
  simp only [ne_eq, Bool.and_eq_true, decide_eq_true_eq, Bool.not_eq_true']
  rfl

/-- At FULL: the level, the cause, the start remembered, the pads, the latch and SERVICE_CHANGE. -/
theorem atFull_shows (level : s.dev.level = .gust) : (s.atFull d).dev.level = .full ∧ (s.atFull d).aon.rstCause = 0#7 ∧
    (s.atFull d).nvm.reachedFull = true ∧ (s.atFull d).dev.pad.vfl = d.ports ∧ (s.atFull d).aon.evLatch = [] ∧
    (s.atFull d).bit pUPD 0 = true := by
  have raised : ((s.fullReady d).setLevel .full).bit pUPD 0 = true :=
    setLevel_raises _ (by rw [fullReady_level, level]; decide)
  obtain ⟨pad, -, -, nvm, -⟩ := setLevel_keeps (s.fullReady d) .full
  obtain ⟨dev, -, -, reached, bits⟩ := ackCause_keeps ((s.fullReady d).setLevel .full)
  refine ⟨(congrArg DevS.level dev).trans (setLevel_level _ _), rfl, reached.trans (congrArg Nvm.reachedFull nvm),
    (congrArg (fun x : DevS => x.pad.vfl) dev).trans (congrArg PadState.vfl pad), rfl, bits _ _ raised⟩

end Full

/-! ## RECOVERY (04 R95) -/

/-- A check can fail below FULL only. -/
theorem checkFails_level {s : State} {cause detail : Byte} (fails : s.checkFails cause detail = true) : s.dev.level ≠ .recovery := by
  intro level
  unfold State.checkFails at fails
  rw [level] at fails
  split at fails
  · split at fails
    · simp at fails
    · simp at fails
    · simp at fails
    · simp at fails
    · simp at fails
    · simp at fails
    · simp at fails
    · simp at fails
  · simp at fails

/-- Settles O44: the lemmas above, level by level. -/
theorem serviceLevelsAreReached : Obligations.ServiceLevelsAreReached := by
  unfold Obligations.ServiceLevelsAreReached
  refine fun s active => ⟨fun kat level started nand policy pmic => ?gust, fun level ext opened => ?replay,
    fun zone z found level replayed waits probed none => ?merge, fun d desc level replayed dram probed merged => ?full,
    fun cause detail => ⟨fun fails => ?recovers, fun stands => ?stays⟩⟩
  case gust =>
    have ready : s.active && s.dev.level = .none && !s.dev.romRecovery && s.boot.nandOk && s.boot.policy.isSome && s.pmicSettled := by
      rw [active, level, started, nand, policy, pmic]
      decide
    refine ⟨fun fails => ?_, fun sha ecdsa => ?_⟩
    · have signs : (kat.getLsbD 3 && kat.getLsbD 4) = false := by
        obtain sha | ecdsa := fails
        · rw [sha, Bool.false_and]
        · rw [ecdsa, Bool.and_false]
      obtain ⟨recovers, -⟩ := recover_enters (s.tested kat).drawn ((s.tested kat).freeVal.setWidth 8) 0
      exact ⟨_, exec_gust_recovers ready signs, recovers⟩
    · obtain ⟨dev, time⟩ := gustReady_keeps s kat
      have shown := stands_dispStart ((s.gustReady kat).setLevel .gust)
      obtain ⟨-, boot, -⟩ := setLevel_keeps (s.gustReady kat) .gust
      have raised := setLevel_raises (s.gustReady kat) (l := .gust) (by rw [dev, level]; decide)
      refine ⟨_, exec_gust_reaches ready (by rw [sha, ecdsa]; decide), ?_, ?_, shown.bits _ _ raised⟩
      · rw [shown.dev, setLevel_level]
      · rw [shown.boot, boot, time]
  case replay =>
    exact ⟨_, exec_powerFailReplay_replays active level ext opened, rfl, rfl,
      (congrArg DevS.level (stands_replayRun s).dev).trans level⟩
  case merge =>
    obtain ⟨last, ran⟩ := exec_gustMerge_merges found active level replayed waits probed none
    refine ⟨_, ran, ?_, fun k other => ?_, (merged_zones s zone.toNat z.owner last 0).2⟩
    · rw [(merged_zones s zone.toNat z.owner last _).1, merged_zone, if_pos rfl, found]
      rfl
    · rw [(merged_zones s zone.toNat z.owner last _).1, merged_zone, if_neg other]
  case full =>
    obtain ⟨u, ran, stands⟩ := exec_full_reaches desc active level replayed dram probed merged
    obtain ⟨full, cause, reached, pads, latch, bit⟩ := atFull_shows (d := d) level
    exact ⟨u, ran, (congrArg DevS.level stands.dev).trans full, stands.rstCause.trans cause, stands.reachedFull.trans reached,
      (congrArg (fun x : DevS => x.pad.vfl) stands.dev).trans pads, stands.evLatch.trans latch, stands.bits _ _ bit⟩
  case recovers =>
    obtain ⟨recovers, -, cause', detail', bit⟩ := recover_enters s cause detail
    exact ⟨_, congrArg Host.Outcome.next (if_pos (by rw [active, fails]; decide)), recovers, cause', detail',
      bit (checkFails_level fails)⟩
  case stays => exact congrArg Host.Outcome.next (if_neg (by rw [stands, Bool.and_false]; decide))

end Sys2Proof.Machine
end

section
/-! PROOFS. The map's lines and journal (O50), and the buffers (O52). -/
namespace Sys2Proof.Machine

/-! ## A grant (01 R25) -/

/-- Whatever line a grant evicts, it is another one. -/
def Evicts (line : Nat) (o : Option (Nat × Nat)) : Prop := ∀ p, o = some p → p.1 ≠ line

/-- A grant leaves the line with its walker: what it evicts from a full cache is another line. -/
theorem grant_line (s : State) (line : Nat) (w : Walker) (q : List Walker) :
    (s.grant line w q).med.dir.find line = some { owner := some w, wb := false, at_ := s.now, queue := q } := by
  have put := KMap.find_put_same s.med.dir line { owner := some w, wb := false, at_ := s.now, queue := q }
  unfold State.grant
  dsimp only
  split
  · next k t oldest =>
    have apart : Evicts line (some (k, t)) := by
      rw [← oldest]
      refine List.foldlRecOn (motive := Evicts line) _ _ (fun p none_ => absurd none_ (by simp)) (fun a kept p mine => ?_)
      have other : p.1 ≠ line := by simpa using (List.mem_filter.mp mine).2
      cases a with
      | none =>
        intro x picked
        cases picked
        exact other
      | some b =>
        dsimp only
        split
        · intro x picked
          cases picked
          exact other
        · exact kept
    split
    · rw [KMap.find_upd, if_neg (apart _ rfl).symm]
      exact put
    · exact put
  · exact put

theorem grant_keeps (s : State) (line : Nat) (w : Walker) (q : List Walker) :
    (s.grant line w q).nvm = s.nvm ∧ (s.grant line w q).med.moves = s.med.moves := ⟨rfl, rfl⟩

/-! ## Commands of the directory and the journal (01 R25 to R28, 09 R285) -/

section Lines

variable {s : State} {line : Nat} {w : Walker} {l : Line}

/-- One walker's request is one request for the line. -/
theorem exec_mapLineRequest_one (s : State) (line : Nat) (w : Walker) :
    exec (.mapLineRequest line [w]) s = .next (s.lineRequest line w) := by
  cases w with
  | host => rfl
  | mirror => rfl
  | eddy => rfl
  | gc => rfl

theorem lineRequest_free (free : s.med.dir.find line = none) : s.lineRequest line w = s.grant line w [] := by
  simp only [State.lineRequest, free]

theorem lineRequest_again (taken : s.med.dir.find line = some l) (has : l.owner = some w ∨ w ∈ l.queue) : s.lineRequest line w = s := by
  simp only [State.lineRequest, taken]
  exact if_pos (by simpa using has)

/-- The walker waits behind those that asked before it. -/
def State.lineQueued (s : State) (line : Nat) (l : Line) (w : Walker) : State :=
  { s with med := { s.med with dir := s.med.dir.put line { l with queue := l.queue ++ [w] }, dirWaits := satInc s.med.dirWaits } }

theorem lineRequest_waits (taken : s.med.dir.find line = some l) (other : l.owner ≠ some w) (new : w ∉ l.queue) :
    s.lineRequest line w = s.lineQueued line l w := by
  simp only [State.lineRequest, taken]
  exact if_neg (by simp [other, new])

theorem exec_mapLineRecall_recalls (taken : s.med.dir.find line = some l) (owned : l.owner.isSome = true) (wanted : l.queue ≠ [])
    (due : l.at_ + 1 ≤ s.now) : exec (.mapLineRecall line) s =
      .next { s with med := { s.med with dir := s.med.dir.put line { l with owner := none, wb := true } } } := by
  show execMapLineRecall line s = _
  unfold execMapLineRecall
  simp only [taken]
  exact if_pos (by rw [owned, decide_eq_true wanted, decide_eq_true due]; decide)

theorem exec_writebackDone_frees (taken : s.med.dir.find line = some l) (back : l.wb = true) (unwanted : l.queue = []) :
    exec (.writebackDone line) s = .next { s with med := { s.med with dir := s.med.dir.del line } } := by
  show execWritebackDone line s = _
  unfold execWritebackDone
  simp only [taken, unwanted]
  exact if_pos back

theorem exec_writebackDone_grants {q : List Walker} (taken : s.med.dir.find line = some l) (back : l.wb = true)
    (wanted : l.queue = w :: q) : exec (.writebackDone line) s = .next (s.grant line w q).gcMoves := by
  show execWritebackDone line s = _
  unfold execWritebackDone
  simp only [taken, wanted]
  exact if_pos back

theorem gcMoves_idle (idle : ∀ m ∈ s.med.moves, m.walker = .gc → m.programmed = false) : s.gcMoves = s := by
  have none_ : s.med.moves.filter (fun m => m.walker = .gc && m.programmed) = [] :=
    List.filter_eq_nil_iff.mpr (fun m mine => by
      by_cases gc : m.walker = .gc
      · simp [idle m mine gc]
      · simp [gc])
  unfold State.gcMoves
  rw [none_]
  rfl

/-- The journal is on media, and the TRIMs that waited for it are done. -/
def State.journaled (s : State) : State :=
  { s with
    med := { s.med with journal := 0, journalAt := none, jlines := [], jtrims := [] },
    nvm := { s.nvm with trims := s.nvm.trims ++ s.med.jtrims },
    hqm := { s.hqm with cmds := s.hqm.cmds.mapv (fun _ c =>
      if c.desc.opc = 0x05 && c.phase = .waiting then { c with phase := .done 0 0 0 false } else c) } }

theorem exec_mapJournalWrite_writes (media : s.mediaOn = true) (runs : s.squall.running = false) (full : s.dev.level = .full)
    (waits : s.med.journalAt.isSome = true) : exec .mapJournalWrite s = .next s.journaled :=
  if_pos (by rw [media, runs, full, waits]; decide)

theorem journaled_answers {tag : Tag} {c : Cmd} (holds : s.cmd tag = some c) (trim : c.desc.opc = 0x05#8) (waits : c.phase = .waiting) :
    s.journaled.answered tag 0 0 0 := by
  refine ⟨{ c with phase := .done 0 0 0 false }, ?_, rfl⟩
  have mapped := KMap.find_mapv s.hqm.cmds (fun _ c =>
    if c.desc.opc = 0x05 && c.phase = .waiting then { c with phase := .done 0 0 0 false } else c) tag.1
  refine Eq.trans mapped ?_
  unfold State.cmd at holds
  rw [holds, Option.map_some, if_pos (by rw [trim, waits]; decide)]

end Lines

/-- Settles O50: the lemmas above, command by command. -/
theorem theMapMoves : Obligations.TheMapMoves := by
  unfold Obligations.TheMapMoves
  refine fun s => ⟨fun media runs full waits => ?journal, fun line w free => ?grants, fun line w l taken has => ?again,
    fun line w l taken other new => ?waits, fun line l taken owned wanted due => exec_mapLineRecall_recalls taken owned wanted due,
    fun line l taken back => ⟨fun unwanted => ?frees, fun w q wanted idle => ?next⟩⟩
  case journal =>
    exact ⟨_, exec_mapJournalWrite_writes media runs full waits, rfl, rfl, rfl, rfl, rfl, fun tag c => journaled_answers⟩
  case grants => exact ⟨_, (exec_mapLineRequest_one s line w).trans (congrArg _ (lineRequest_free free)), grant_line s line w [], rfl⟩
  case again => exact (exec_mapLineRequest_one s line w).trans (congrArg _ (lineRequest_again taken has))
  case waits =>
    exact ⟨_, (exec_mapLineRequest_one s line w).trans (congrArg _ (lineRequest_waits taken other new)), KMap.find_put_same .., rfl, rfl⟩
  case frees =>
    refine ⟨_, exec_writebackDone_frees taken back unwanted, ?_, rfl⟩
    have gone := KMap.find_del s.med.dir line line
    rw [if_pos rfl] at gone
    exact congrArg Option.isSome gone
  case next =>
    obtain ⟨nvm, moves⟩ := grant_keeps s line w q
    have settled : (s.grant line w q).gcMoves = s.grant line w q := gcMoves_idle (by rwa [moves])
    refine ⟨_, exec_writebackDone_grants taken back wanted, ?_, ?_⟩
    · rw [settled, grant_line]
    · rw [settled, nvm]

/-! ## The pools (10 R333 to R343) -/

theorem pool_setPool (b : BpmS) (dram : Bool) (p : PoolS) : (b.setPool dram p).pool dram = p := by
  cases dram with
  | true => rfl
  | false => rfl

theorem setPool_bufs (b : BpmS) (dram : Bool) (p : PoolS) : (b.setPool dram p).bufs = b.bufs := by
  cases dram with
  | true => rfl
  | false => rfl

section Pool

variable {s : State} {o : Owner} {h : Nat} {b : Buf}

/-- The buffer's new trailer stands, and its handle has left the cache. -/
def State.allocated (s : State) (o : Owner) (h : Nat) (r : List Nat) (b : Buf) : State :=
  { s with bpm := { (s.bpm.setPool (s.homeDram o) { PoolS.refill 64 (s.bpm.pool (s.homeDram o)) with cache := r }) with
    bufs := s.bpm.bufs.put h b } }

theorem alloc_takes {r : List Nat} (ready : (s.bpm.pool (s.homeDram o)).rebuild = false)
    (room : s.reserveOf o < (s.bpm.pool (s.homeDram o)).free) (next : (PoolS.refill 64 (s.bpm.pool (s.homeDram o))).cache = h :: r)
    (b : Buf) : s.alloc o b = some (h, s.allocated o h r b) := by
  unfold State.alloc
  dsimp only
  rw [if_neg (by rw [ready, decide_eq_false (Nat.not_le.mpr room)]; decide)]
  simp only [next]
  rfl

theorem alloc_short (short : (s.bpm.pool (s.homeDram o)).free ≤ s.reserveOf o) (b : Buf) : s.alloc o b = none := by
  unfold State.alloc
  dsimp only
  exact if_pos (by rw [decide_eq_true short, Bool.or_true])

/-- The trailer that an allocation for a command writes. -/
def State.trailerFor (s : State) (o : Owner) (tag : Tag) : Buf :=
  let t : Tid := match s.cmd tag with | some x => x.tenant | none => 0
  Buf.fresh o s.tnt[t].epoch tag.1 t (.conv t 0 0) []

/-- A command's ingest and egress buffers join it. -/
def State.joined (s : State) (o : Owner) (tag : Tag) (h : Nat) : State :=
  if (o = .ingest || o = .egress) then s.updCmd tag (fun x => { x with bufs := x.bufs ++ [h] }) else s

theorem joined_keeps (s : State) (o : Owner) (tag : Tag) (h : Nat) : (s.joined o tag h).bpm = s.bpm ∧ (s.joined o tag h).nvm = s.nvm := by
  unfold State.joined
  split
  · exact ⟨rfl, rfl⟩
  · exact ⟨rfl, rfl⟩

theorem exec_bufferAllocate_takes {r : List Nat} (tag : Tag) (active : s.active = true) (engine : o ≠ .none)
    (ready : (s.bpm.pool (s.homeDram o)).rebuild = false) (room : s.reserveOf o < (s.bpm.pool (s.homeDram o)).free)
    (next : (PoolS.refill 64 (s.bpm.pool (s.homeDram o))).cache = h :: r) :
    exec (.bufferAllocate o tag true) s = .next ((s.allocated o h r (s.trailerFor o tag)).joined o tag h) := by
  show execBufferAllocate o tag true s = _
  unfold execBufferAllocate
  dsimp only
  rw [if_neg (by rw [active, decide_eq_false engine]; decide), if_neg (by simp), alloc_takes ready room next]
  rfl

theorem exec_bufferAllocate_waits (tag : Tag) (active : s.active = true) (engine : o ≠ .none)
    (short : (s.bpm.pool (s.homeDram o)).free ≤ s.reserveOf o) : exec (.bufferAllocate o tag true) s = .next (s.pause o) := by
  show execBufferAllocate o tag true s = _
  unfold execBufferAllocate
  dsimp only
  rw [if_neg (by rw [active, decide_eq_false engine]; decide), if_neg (by simp), alloc_short short]

theorem pause_counts (s : State) (o : Owner) : (s.pause o).bpm = { s.bpm with pauses := satInc s.bpm.pauses } ∧
    (s.pause o).nvm = s.nvm := by
  unfold State.pause
  dsimp only
  split
  · exact ⟨by simp, by simp⟩
  · exact ⟨rfl, rfl⟩

/-- The pool's list is rebuilt from now on. -/
def State.rebuilding (s : State) (d : Bool) : State :=
  { s with bpm := s.bpm.setPool d { s.bpm.pool d with rebuild := true, stopped := (s.bpm.pool d).head } }

theorem exec_bufferAllocate_rebuilds (tag : Tag) (active : s.active = true) (engine : o ≠ .none)
    (ready : (s.bpm.pool (s.homeDram o)).rebuild = false) (some_ : 0 < (s.bpm.pool (s.homeDram o)).free) :
    ∃ det, exec (.bufferAllocate o tag false) s =
      .next ((s.rebuilding (s.homeDram o)).drawn.raiseRec pBPM 1 3 noTenant det) := by
  refine ⟨[if s.homeDram o then 1 else 0, 0, 0, 0] ++ leBytes 4 (s.bpm.pool (s.homeDram o)).head ++ leBytes 4 s.freeVal.toNat ++
    leBytes 4 (s.bpm.pool (s.homeDram o)).free, ?_⟩
  show execBufferAllocate o tag false s = _
  unfold execBufferAllocate
  dsimp only
  rw [if_neg (by rw [active, decide_eq_false engine]; decide), if_pos (by rw [ready, decide_eq_true some_]; decide)]
  rfl

/-! ## The list after a rebuild (10 R337) -/

/-- The handles of a pool that nobody holds. -/
def State.unheld (s : State) (d : Bool) : List Nat :=
  ((List.range ((s.bpm.pool d).top - (if d then 0x80000 else 0))).map (fun k => (if d then 0x80000 else 0) + k)).filter
    (fun h => !s.bpm.bufs.has h && !s.bpm.removedH.contains h)

theorem mem_unheld (s : State) (d : Bool) (h : Nat) : h ∈ s.unheld d ↔ (if d then 0x80000 else 0) ≤ h ∧ h < (s.bpm.pool d).top ∧
    s.bpm.bufs.has h = false ∧ s.bpm.removedH.contains h = false := by
  unfold State.unheld
  generalize (if d then 0x80000 else 0) = base
  generalize (s.bpm.pool d).top = top
  rw [List.mem_filter, List.mem_map]
  constructor
  · rintro ⟨⟨k, mine, rfl⟩, unheld⟩
    rw [List.mem_range] at mine
    rw [Bool.and_eq_true, Bool.not_eq_true', Bool.not_eq_true'] at unheld
    exact ⟨Nat.le_add_right _ _, by omega, unheld⟩
  · rintro ⟨least, below, held, removed⟩
    exact ⟨⟨h - base, List.mem_range.mpr (by omega), by omega⟩, by rw [held, removed]; decide⟩

/-- The pool lists what nobody holds, and allocation resumes. -/
def State.rebuilt (s : State) (d : Bool) : State :=
  { s with bpm := s.bpm.setPool d { s.bpm.pool d with list := s.unheld d, fresh := (s.bpm.pool d).top, cache := [], rebuild := false } }

theorem exec_listRebuildEnd_lists {p : Pool} (rebuilds : (s.bpm.pool (decide (p = .dram))).rebuild = true) :
    exec (.listRebuildEnd p) s = .next (s.rebuilt (decide (p = .dram))) := if_pos rebuilds

/-! ## Handoff and free (10 R339, R340) -/

theorem exec_bufferHandoff_hands (holds : s.bpm.bufs.find h = some b) (well : b.quarantined = false) {toO : Owner} (taker : toO ≠ .none) :
    exec (.bufferHandoff h b.owner toO true) s = .next (s.updBuf h (fun x => { x with owner := toO })) := by
  show execBufferHandoff h b.owner toO true s = _
  unfold execBufferHandoff
  simp only [holds]
  exact if_pos (by rw [well, decide_eq_true taker]; simp)

theorem handle_named (named : isDram h = true ∧ h < s.bpm.dram.top ∨ h < s.bpm.sram.top) :
    (isDram h && decide (h < s.bpm.dram.top) || decide (h < s.bpm.sram.top)) = true := by
  simpa using named

theorem exec_bufferFree_frees (holds : s.bpm.bufs.find h = some b) (named : isDram h = true ∧ h < s.bpm.dram.top ∨ h < s.bpm.sram.top)
    (owned : b.owner ≠ .none) : exec (.bufferFree h b.owner) s = .next (s.freeBuf h) := by
  show execBufferFree h b.owner s = _
  unfold execBufferFree
  simp only [holds]
  rw [if_neg (by rw [handle_named named]; decide), if_pos (by rw [decide_eq_true owned]; simp)]

theorem freeBuf_frees (holds : s.bpm.bufs.find h = some b) (well : b.quarantined = false) : (s.freeBuf h).bpm.bufs = s.bpm.bufs.del h := by
  unfold State.freeBuf
  simp only [holds]
  rw [if_neg (by rw [well]; decide)]

theorem freeBuf_parks (holds : s.bpm.bufs.find h = some b) (bad : b.quarantined = true) :
    (s.freeBuf h).bpm.bufs = s.bpm.bufs.put h b.parked := by
  unfold State.freeBuf
  simp only [holds]
  rw [if_pos bad]

theorem exec_bufferFree_quarantines (holds : s.bpm.bufs.find h = some b)
    (named : isDram h = true ∧ h < s.bpm.dram.top ∨ h < s.bpm.sram.top) {o : Owner} (other : o ≠ b.owner)
    (stays : s.bpm.removedH.contains h = false) : ∃ det, exec (.bufferFree h o) s =
      .next ((s.updBuf h (fun x => { x with quarantined := true })).raiseRec pBPM 2 3 noTenant det) := by
  have held : s.bpm.bufs.has h = true := congrArg Option.isSome holds
  refine ⟨leBytes 4 h ++ [BitVec.ofNat 8 (ownerCode b.owner), BitVec.ofNat 8 (ownerCode o)], ?_⟩
  show execBufferFree h o s = _
  unfold execBufferFree
  simp only [holds]
  rw [if_neg (by rw [handle_named named]; decide), if_neg (by rw [decide_eq_false other.symm, Bool.and_false]; decide),
    if_neg (by rw [stays]; decide), if_pos held]

theorem updBuf_same (holds : s.bpm.bufs.find h = some b) (f : Buf → Buf) : (s.updBuf h f).bpm.bufs.find h = some (f b) := by
  have found := KMap.find_upd s.bpm.bufs h h f
  rw [if_pos rfl, holds] at found
  exact found

end Pool

/-- Settles O52: the lemmas above, command by command. -/
theorem buffersComeAndGo : Obligations.BuffersComeAndGo := by
  unfold Obligations.BuffersComeAndGo
  refine fun s => ⟨fun o tag active engine => ⟨fun h r ready room next => ?takes, fun short => ?waits, fun ready some_ => ?rebuilds⟩,
    fun p rebuilds => ?lists, fun h b holds => ⟨fun toO well taker => exec_bufferHandoff_hands holds well taker,
    fun named => ⟨fun owned well => ?frees, fun owned bad => ?parks, fun o other stays => ?quarantines⟩⟩⟩
  case takes =>
    obtain ⟨bpm, nvm⟩ := joined_keeps (s.allocated o h r (s.trailerFor o tag)) o tag h
    refine ⟨_, s.trailerFor o tag, exec_bufferAllocate_takes tag active engine ready room next, ?_, rfl, rfl, fun j other => ?_, nvm⟩
    · rw [bpm]
      exact KMap.find_put_same ..
    · rw [bpm]
      exact KMap.find_put_other _ _ other
  case waits => exact ⟨_, exec_bufferAllocate_waits tag active engine short, pause_counts s o⟩
  case rebuilds =>
    obtain ⟨det, ran⟩ := exec_bufferAllocate_rebuilds tag active engine ready some_
    have bpm : ((s.rebuilding (s.homeDram o)).drawn.raiseRec pBPM 1 3 noTenant det).bpm = (s.rebuilding (s.homeDram o)).bpm :=
      State.raiseRec_bpm ..
    refine ⟨_, ran, ?_, raiseRec_bit _ _ _ _ _ _ (by decide) (by decide) (by decide), ?_⟩
    · rw [bpm]
      exact congrArg PoolS.rebuild (pool_setPool ..)
    · rw [bpm]
      exact setPool_bufs ..
  case lists =>
    have pool : (s.rebuilt (decide (p = .dram))).bpm.pool (decide (p = .dram)) = _ := pool_setPool ..
    refine ⟨_, exec_listRebuildEnd_lists rebuilds, congrArg PoolS.rebuild pool, setPool_bufs .., fun h => ?_⟩
    rw [pool]
    have listed := mem_unheld s (decide (p = .dram)) h
    simpa using listed
  case frees =>
    have bufs := freeBuf_frees holds well
    refine ⟨_, exec_bufferFree_frees holds named owned, ?_, fun j other => ?_, freeBuf_nvm s h⟩
    · have gone := KMap.find_del s.bpm.bufs h h
      rw [if_pos rfl] at gone
      rw [bufs]
      exact congrArg Option.isSome gone
    · rw [bufs, KMap.find_del, if_neg other]
  case parks =>
    refine ⟨_, exec_bufferFree_frees holds named owned, ?_, freeBuf_nvm s h⟩
    rw [freeBuf_parks holds bad]
    exact congrArg Option.isSome (KMap.find_put_same s.bpm.bufs h b.parked)
  case quarantines =>
    obtain ⟨det, ran⟩ := exec_bufferFree_quarantines holds named other stays
    refine ⟨_, ran, raiseRec_bit _ _ _ _ _ _ (by decide) (by decide) (by decide), ?_⟩
    rw [State.raiseRec_bpm]
    exact updBuf_same holds _

end Sys2Proof.Machine
end

section
/-! PROOFS. What work on the media leaves alone: the buffers, the retired blocks, the wear and every status bit that stands. -/
namespace Sys2Proof.Machine

/-- What copies, moves and rewrites do not touch. -/
def State.mediaParts (s : State) : BpmS × KMap Byte × KMap Nat × List Nat × Word :=
  (s.bpm, s.nvm.bad, s.nvm.wear, s.med.collecting, s.med.refreshed)

structure MediaStands (s t : State) : Prop where
  parts : t.mediaParts = s.mediaParts
  bits : BitsKept s t

theorem MediaStands.rfl' (s : State) : MediaStands s s := ⟨rfl, .of_hdr rfl⟩

theorem MediaStands.of (s : State) {t : State} (parts : t.mediaParts = s.mediaParts) (hdr : t.hdr = s.hdr) : MediaStands s t :=
  ⟨parts, .of_hdr hdr⟩

theorem MediaStands.trans {s t u : State} (h : MediaStands s t) (g : MediaStands t u) : MediaStands s u :=
  ⟨g.parts.trans h.parts, h.bits.trans g.bits⟩

/-- As `trans`, from a state written with other fields. -/
theorem MediaStands.after {s x t : State} (h : MediaStands x t) (parts : x.mediaParts = s.mediaParts) (hdr : x.hdr = s.hdr) :
    MediaStands s t := (MediaStands.of s parts hdr).trans h

theorem MediaStands.foldl {α : Type} {f : State → α → State} (each : ∀ a x, MediaStands a (f a x)) (l : List α) (s : State) :
    MediaStands s (l.foldl f s) := by
  induction l generalizing s with
  | nil => exact .rfl' s
  | cons x r ih => exact (each s x).trans (ih _)

theorem MediaStands.ite {s t u : State} {c : Prop} [Decidable c] (first : MediaStands s t) (second : MediaStands s u) :
    MediaStands s (if c then t else u) := by
  split
  · exact first
  · exact second

theorem MediaStands.bpm {s t : State} (h : MediaStands s t) : t.bpm = s.bpm := congrArg Prod.fst h.parts

theorem MediaStands.bad {s t : State} (h : MediaStands s t) : t.nvm.bad = s.nvm.bad := congrArg (fun p => p.2.1) h.parts

theorem MediaStands.wear {s t : State} (h : MediaStands s t) : t.nvm.wear = s.nvm.wear := congrArg (fun p => p.2.2.1) h.parts

theorem MediaStands.collecting {s t : State} (h : MediaStands s t) : t.med.collecting = s.med.collecting :=
  congrArg (fun p => p.2.2.2.1) h.parts

theorem MediaStands.refreshed {s t : State} (h : MediaStands s t) : t.med.refreshed = s.med.refreshed :=
  congrArg (fun p => p.2.2.2.2) h.parts

/-! ## Queues and erases (09 R270, R296, R298) -/

theorem media_raise (s : State) (p : Page) (b : Nat) : MediaStands s (s.raise p b) :=
  ⟨by simp [State.mediaParts], bitsKept_raise s p b⟩

theorem media_mediaBits (s before : State) : MediaStands s (s.mediaBits before) := by
  unfold State.mediaBits
  dsimp only
  have urgent : MediaStands s (if (s.foldUrgent && !before.foldUrgent) = true then s.raise pMED 2 else s) :=
    .ite (media_raise s _ _) (.rfl' s)
  generalize (if (s.foldUrgent && !before.foldUrgent) = true then s.raise pMED 2 else s) = a at urgent ⊢
  have late (c : Bool) : MediaStands s (if c = true then a.raise pMED 4 else a) := .ite (urgent.trans (media_raise a _ _)) urgent
  exact .ite ((late _).trans (media_raise _ _ _)) (late _)

theorem media_updSb (s : State) (k : Nat) (f : Superblock → Superblock) : MediaStands s (s.updSb k f) := .of s rfl rfl

theorem media_queueOp (s : State) (die cls : Nat) (k : FlashKind) (bufs : List Nat) : MediaStands s (s.queueOp die cls k bufs) :=
  .of s rfl rfl

theorem media_queuePages (s : State) (d : BoardDesc) (key : Nat) (b : Superblock) (cls first n : Nat) (hs : List Nat) :
    MediaStands s (s.queuePages d key b cls first n hs) := by
  unfold State.queuePages
  exact .foldl (fun a i => .ite ((media_queueOp a _ _ _ _).trans (media_queueOp _ _ _ _ _)) (media_queueOp a _ _ _ _)) _ s

theorem media_queueCodewords (s : State) (d : BoardDesc) (key : Nat) (b : Superblock) (cls first n : Nat) (who : ReadFor) :
    MediaStands s (s.queueCodewords d key b cls first n who) := .foldl (fun a _ => media_queueOp a _ _ _ _) _ s

theorem media_finishErase (s : State) (key : Nat) : MediaStands s (s.finishErase key) := .ite (.rfl' s) (.of s rfl rfl)

theorem media_queueErases (s : State) (key : Nat) (b : Superblock) : MediaStands s (s.queueErases key b) := by
  unfold State.queueErases
  exact (MediaStands.foldl (fun a (x : Nat × Nat) => media_queueOp a x.1 6 (.erase key x.2) []) _ s).trans (media_finishErase _ key)

theorem media_eraseSb (s : State) (key : Nat) : MediaStands s (s.eraseSb key) := by
  unfold State.eraseSb
  split
  · exact .rfl' s
  · exact .ite (.rfl' s) ((media_updSb s key _).trans (media_queueErases _ _ _))

theorem media_eraseIfEmpty (s : State) (key : Nat) : MediaStands s (s.eraseIfEmpty key) := by
  unfold State.eraseIfEmpty
  split
  · exact .ite (media_eraseSb s key) (.rfl' s)
  · exact .rfl' s

theorem media_dropOp (s : State) (k : Nat) : MediaStands s (s.dropOp k) := by
  unfold State.dropOp
  split
  · exact .of s rfl rfl
  · exact .rfl' s

/-! ## The map's moves (01 R19, 09 R286) -/

theorem media_lineRequest (s : State) (line : Nat) (w : Walker) : MediaStands s (s.lineRequest line w) := by
  unfold State.lineRequest
  split
  · exact .of s rfl rfl
  · exact .ite (.rfl' s) (.of s rfl rfl)

theorem media_moveItem (s : State) (dst : Nat) (it : Nat × Nat × Piece) : MediaStands s (s.moveItem dst it) := by
  unfold State.moveItem
  dsimp only
  split
  · exact media_updSb s _ _
  · exact .ite ((media_updSb s _ _).trans (media_updSb _ _ _)) (.rfl' s)
  · exact .rfl' s

theorem media_journalLines (s : State) (ps : List Piece) : MediaStands s (s.journalLines ps) := .of s rfl rfl

/-- The entries that a move can replace now are replaced, and wait for the journal. -/
def State.moveNow (s : State) (m : Move) : State :=
  let s0 := (m.items.filterMap (fun it => it.2.2.line)).eraseDups.foldl (fun (a : State) l => a.lineRequest l m.walker) s
  let now_ := m.items.filter (fun it => s0.ownsLine m.walker it.2.2)
  (now_.foldl (fun (a : State) it => a.moveItem m.dst it) s0).journalLines (now_.map (fun it => it.2.2))

/-- The entries whose lines the walker does not own yet. -/
def State.moveWaits (s : State) (m : Move) : List (Nat × Nat × Piece) :=
  m.items.filter (fun it => !((m.items.filterMap (fun it => it.2.2.line)).eraseDups.foldl
    (fun (a : State) l => a.lineRequest l m.walker) s).ownsLine m.walker it.2.2)

/-- The moves that stay beside one that is over. -/
def State.otherMoves (s : State) (m : Move) : List Move := s.med.moves.filter (fun y => y ≠ m)

/-- A move that is over: its destination is mapped, and the sources that it left empty are erased. -/
def State.moveEnds (s : State) (m : Move) : State :=
  let s2 := s.updSb m.dst (fun x => { x with unmapped := (s.otherMoves m).any (fun y => y.dst = m.dst) })
  let s3 : State := { s2 with med := { s2.med with moves := s.otherMoves m }, pwr := { s2.pwr with idleSince := s2.now } }
  ((m.items.map (fun it => it.1)).eraseDups ++ [m.src]).foldl (fun a k => a.eraseIfEmpty k) s3

theorem applyMove_moves (s : State) (m : Move) : s.applyMove m =
    if s.moveWaits m ≠ [] then { s.moveNow m with med := { (s.moveNow m).med with
      moves := (s.moveNow m).otherMoves m ++ [{ m with items := s.moveWaits m }] } }
    else (s.moveNow m).moveEnds m := rfl

theorem media_moveNow (s : State) (m : Move) : MediaStands s (s.moveNow m) := by
  unfold State.moveNow
  dsimp only
  refine MediaStands.trans ?_ (media_journalLines _ _)
  exact (MediaStands.foldl (fun a l => media_lineRequest a l m.walker) _ s).trans (.foldl (fun a it => media_moveItem a m.dst it) _ _)

theorem media_moveEnds (s : State) (m : Move) : MediaStands s (s.moveEnds m) := by
  unfold State.moveEnds
  dsimp only
  exact (MediaStands.foldl media_eraseIfEmpty _ _).after rfl rfl

theorem media_applyMove (s : State) (m : Move) : MediaStands s (s.applyMove m) := by
  rw [applyMove_moves]
  have now_ := media_moveNow s m
  exact .ite ⟨now_.parts, now_.bits⟩ (now_.trans (media_moveEnds _ m))

theorem media_gcMoves (s : State) : MediaStands s s.gcMoves := .foldl media_applyMove _ s

theorem media_movesProgrammed (s : State) (key : Nat) : MediaStands s (s.movesProgrammed key) := by
  unfold State.movesProgrammed
  exact .ite (.rfl' s) ((media_gcMoves _).after rfl rfl)

/-! ## Superblocks and copies (09 R287, R293) -/

theorem media_formSb {s t : State} {d : BoardDesc} {g : Nat} {use : SbUse} {stream k : Nat}
    (formed : s.formSb d g use stream = some (k, t)) : MediaStands s t := by
  unfold State.formSb at formed
  split at formed
  · cases formed
  · dsimp only at formed
    split at formed
    · cases formed
    · rw [Option.some.injEq, Prod.mk.injEq] at formed
      rw [← formed.2]
      exact .of s rfl rfl

theorem media_streamSb {s t : State} {d : BoardDesc} {g stream k : Nat} {use : SbUse}
    (found : s.streamSb d g stream use = some (k, t)) : MediaStands s t := by
  unfold State.streamSb at found
  split at found
  · cases found
    exact .rfl' s
  · split at found
    · exact media_formSb found
    · cases found

theorem media_copyNew {s t : State} {d : BoardDesc} {g stream : Nat} {use : SbUse} {pads : List (Nat × Nat × Nat)}
    {k : Nat × List (Nat × Nat × Nat)} (formed : s.copyNew d g stream use pads = some (k, t)) : MediaStands s t := by
  unfold State.copyNew at formed
  split at formed
  · cases formed
  · split at formed
    · next k' s1 sb =>
      cases formed
      exact media_formSb sb
    · cases formed

theorem media_copySb {s t : State} {d : BoardDesc} {g stream n : Nat} {use : SbUse} {k : Nat × List (Nat × Nat × Nat)}
    (found : s.copySb d g stream use n = some (k, t)) : MediaStands s t := by
  unfold State.copySb at found
  split at found
  · split at found
    · split at found
      · cases found
        exact .rfl' s
      · exact (media_updSb s _ _).trans (media_copyNew found)
    · cases found
  · exact media_copyNew found

theorem media_reserveCopies (s : State) (d : BoardDesc) (g stream : Nat) (use : SbUse) (items : List (Nat × Piece)) :
    MediaStands s (s.reserveCopies d g stream use items).1 := by
  unfold State.reserveCopies
  refine List.foldlRecOn (motive := fun p : State × List (Nat × Nat × Nat × Piece) => MediaStands s p.1) _ _ (.rfl' s)
    (fun a stands unit _ => ?_)
  dsimp only
  split
  · next k pads s1 found =>
    split
    · exact (stands.trans (media_copySb found)).trans (media_updSb _ _ _)
    · exact stands
  · exact stands

theorem media_startMove (s : State) (d : BoardDesc) (g stream : Nat) (use : SbUse) (cls : Nat) (w : Walker) (src : Nat)
    (items : List (Nat × Piece)) : MediaStands s (s.startMove d g stream use cls w src items) := by
  unfold State.startMove
  dsimp only
  refine (media_reserveCopies s d g stream use items).trans (.foldl (fun a k => ?_) _ _)
  split
  · exact (media_queuePages _ _ _ _ _ _ _ _).after rfl rfl
  · exact .rfl' a

/-- The reads of a copy are queued. -/
def State.copyReads (s : State) (d : BoardDesc) (w : Walker) (no : Nat) (items : List (Nat × Nat × Piece)) : State :=
  items.foldl (fun a it => match a.nvm.sbs.find it.1 with
    | some b => a.queueCodewords d it.1 b (copyClass w) it.2.1 it.2.2.blocks (.copy no)
    | none => a) s

theorem media_copyReads (s : State) (d : BoardDesc) (w : Walker) (no : Nat) (items : List (Nat × Nat × Piece)) :
    MediaStands s (s.copyReads d w no items) := by
  refine .foldl (fun a it => ?_) items s
  split
  · exact media_queueCodewords a _ _ _ _ _ _ _
  · exact .rfl' a

/-- A copy is under way. -/
def State.withCopy (s : State) (c : Copy) : State :=
  { s with med := { s.med with copies := s.med.copies ++ [c], nextOp := s.med.nextOp + 1 } }

/-- The copy of some items. -/
def State.copyOf (s : State) (g stream : Nat) (use : SbUse) (w : Walker) (src : Nat) (items : List (Nat × Nat × Piece)) : Copy :=
  { no := s.med.nextOp, walker := w, src := src, group := g, stream := stream, use := use, items := items }

theorem startCopy_copies (s : State) (d : BoardDesc) (g stream : Nat) (use : SbUse) (w : Walker) (src : Nat)
    (items : List (Nat × Nat × Piece)) : s.startCopy d g stream use w src items =
      if items = [] then s.eraseIfEmpty src
      else (s.withCopy (s.copyOf g stream use w src items)).copyReads d w s.med.nextOp items := rfl

theorem media_startCopy (s : State) (d : BoardDesc) (g stream : Nat) (use : SbUse) (w : Walker) (src : Nat)
    (items : List (Nat × Nat × Piece)) : MediaStands s (s.startCopy d g stream use w src items) := by
  rw [startCopy_copies]
  exact .ite (media_eraseIfEmpty s src) ((media_copyReads _ _ _ _ _).after rfl rfl)

/-- The reads of a copy add operations alone: what is mapped and the copies under way stay. -/
theorem copyReads_keeps (s : State) (d : BoardDesc) (w : Walker) (no : Nat) (items : List (Nat × Nat × Piece)) :
    (s.copyReads d w no items).nvm = s.nvm ∧ (s.copyReads d w no items).med.copies = s.med.copies := by
  have queued (a : State) (key : Nat) (b : Superblock) (cls first n : Nat) (who : ReadFor) :
      (a.queueCodewords d key b cls first n who).nvm = a.nvm ∧ (a.queueCodewords d key b cls first n who).med.copies = a.med.copies := by
    unfold State.queueCodewords
    constructor
    · refine foldl_same (part := fun x => x.nvm) (fun x k => ?_) _ a
      rfl
    · refine foldl_same (part := fun x => x.med.copies) (fun x k => ?_) _ a
      rfl
  constructor
  · refine foldl_same (part := fun x => x.nvm) (fun a it => ?_) items s
    split
    · exact (queued a _ _ _ _ _ _).1
    · rfl
  · refine foldl_same (part := fun x => x.med.copies) (fun a it => ?_) items s
    split
    · exact (queued a _ _ _ _ _ _).2
    · rfl

/-! ## Placement and rewrites (09 R273, R287) -/

theorem media_fillSb (s : State) (d : BoardDesc) (key cls : Nat) (items : List (Option Nat × Piece)) :
    MediaStands s (s.fillSb d key cls items) := by
  unfold State.fillSb
  split
  · exact .rfl' s
  · exact (media_queuePages _ _ _ _ _ _ _ _).after rfl rfl

/-- The placement counted, and its lines in the journal. -/
theorem media_placed (s a : State) (stream g n : Nat) (ps : List Piece) (before : State) (h : MediaStands s a) :
    MediaStands s ((({ a with med := { a.med with
      nextGroup := a.med.nextGroup.put stream g, journal := a.med.journal + n } } : State).journalLines ps).mediaBits before) :=
  h.trans ((media_mediaBits _ before).after rfl rfl)

theorem media_placeFrom {s t : State} {d : BoardDesc} {gs : List Nat} {stream cls : Nat} {items : List (Option Nat × Piece)}
    (placed : s.placeFrom d gs stream cls items = some t) : MediaStands s t := by
  unfold State.placeFrom at placed
  obtain ⟨g, -, found⟩ := List.exists_of_findSome?_eq_some placed
  split at found
  · cases found
  · next k s1 sb =>
    have opened := media_streamSb sb
    split at found
    · cases found
    · dsimp only at found
      split at found
      · cases found
        exact media_placed s _ _ _ _ _ _ (opened.trans (media_fillSb _ _ _ _ _))
      · split at found
        · next k2 s3 sb2 =>
          cases found
          exact media_placed s _ _ _ _ _ _
            (((opened.trans (media_fillSb _ _ _ _ _)).trans (media_streamSb sb2)).trans (media_fillSb _ _ _ _ _))
        · cases found

theorem media_rewrite (s : State) (d : BoardDesc) (avoid : List Nat) (r : Rewrite) : MediaStands s (s.rewrite d avoid r) := by
  unfold State.rewrite
  dsimp only
  split
  · exact .of s rfl rfl
  · split
    · next t placed =>
      have stands := media_placeFrom placed
      exact ⟨stands.parts, stands.bits⟩
    · exact .of s rfl rfl

theorem media_retryRewrites (s : State) : MediaStands s s.retryRewrites := by
  unfold State.retryRewrites
  split
  · exact (MediaStands.foldl (fun a r => media_rewrite a _ [] r) _ _).after rfl rfl
  · exact .rfl' s

theorem media_redoMoves (s : State) (d : BoardDesc) (key : Nat) (b : Superblock) : MediaStands s (s.redoMoves d key b) := by
  unfold State.redoMoves
  dsimp only
  refine MediaStands.after (.foldl (fun a m => ?_) _ _) ?_ ?_
  · split
    · exact .rfl' a
    · exact media_startMove _ _ _ _ _ _ _ _ _
  · rfl
  · rfl

end Sys2Proof.Machine
end

section
/-! PROOFS. Folds, refresh, scrub and garbage collection (O51), and the operations of the flash (O48). -/
namespace Sys2Proof.Machine

/-! ## What copies keep -/

theorem SameStore.zones {s t : State} (h : SameStore s t) : t.nvm.zones = s.nvm.zones := congrArg Prod.fst h.eq

theorem SameStore.conv {s t : State} (h : SameStore s t) : t.nvm.conv = s.nvm.conv := congrArg (fun p => p.2.1) h.eq

theorem queueCodewords_nvm (s : State) (d : BoardDesc) (key : Nat) (b : Superblock) (cls first n : Nat) (who : ReadFor) :
    (s.queueCodewords d key b cls first n who).nvm = s.nvm := by
  unfold State.queueCodewords
  refine foldl_same (part := fun x => x.nvm) (fun x k => ?_) _ s
  rfl

theorem finishErase_moves (s : State) (key : Nat) : (s.finishErase key).med = s.med := by
  unfold State.finishErase
  split <;> rfl

theorem eraseIfEmpty_moves (s : State) (key : Nat) : (s.eraseIfEmpty key).med.moves = s.med.moves := by
  have queued (a : State) (b : Superblock) : (a.queueErases key b).med.moves = a.med.moves := by
    unfold State.queueErases
    rw [finishErase_moves]
    refine foldl_same (part := fun x => x.med.moves) (fun x y => ?_) _ a
    rfl
  unfold State.eraseIfEmpty
  split
  · split
    · unfold State.eraseSb
      split
      · rfl
      · split
        · rfl
        · exact queued _ _
    · rfl
  · rfl

/-! ## A fold's map update (01 R19) -/

section Fold

variable {s : State} {m : Move}

/-- A walker that owns every line it asks for changes nothing by asking. -/
theorem lineRequests_owned {w : Walker} (l : List Nat) (owned : ∀ k ∈ l, ∃ x, s.med.dir.find k = some x ∧ x.owner = some w) :
    l.foldl (fun (a : State) k => a.lineRequest k w) s = s := by
  induction l with
  | nil => rfl
  | cons k r ih =>
    obtain ⟨x, taken, owner⟩ := owned k List.mem_cons_self
    rw [List.foldl_cons, lineRequest_again taken (.inl owner)]
    exact ih (fun j mine => owned j (List.mem_cons_of_mem k mine))

theorem line_owned {w : Walker} {p : Piece} {k : Nat} (owns : s.ownsLine w p = true) (line : p.line = some k) :
    ∃ x, s.med.dir.find k = some x ∧ x.owner = some w := by
  unfold State.ownsLine at owns
  rw [line] at owns
  dsimp only at owns
  cases found : s.med.dir.find k with
  | none => simp [found] at owns
  | some x => exact ⟨x, rfl, by simpa [found] using owns⟩

theorem moveWaits_none (owns : ∀ it ∈ m.items, s.ownsLine m.walker it.2.2 = true) : s.moveWaits m = [] := by
  have asked := lineRequests_owned (s := s) (w := m.walker) (m.items.filterMap (fun it => it.2.2.line)).eraseDups (fun k mine => by
    obtain ⟨it, mem, line⟩ := List.mem_filterMap.mp (List.mem_eraseDups.mp mine)
    exact line_owned (owns it mem) line)
  unfold State.moveWaits
  rw [asked, List.filter_eq_nil_iff]
  intro it mem
  rw [owns it mem]
  decide

theorem applyMove_owned (owns : ∀ it ∈ m.items, s.ownsLine m.walker it.2.2 = true) : s.applyMove m = (s.moveNow m).moveEnds m := by
  rw [applyMove_moves, if_neg (not_not_intro (moveWaits_none owns))]

theorem moveEnds_over (s : State) (m : Move) : m ∉ (s.moveEnds m).med.moves := by
  have moves : (s.moveEnds m).med.moves = s.otherMoves m := by
    unfold State.moveEnds
    dsimp only
    refine Eq.trans (foldl_same (part := fun x => x.med.moves) eraseIfEmpty_moves _ _) ?_
    rfl
  rw [moves]
  unfold State.otherMoves
  simp

end Fold

/-! ## The commands that copy (09 R293 to R301) -/

section Copy

variable {s : State} {d : BoardDesc}

theorem exec_eddyFold_folds {key : Nat} {b : Superblock} {p : Piece} (desc : s.boot.desc = some d) (copying : s.copying = true)
    (probe : s.probeRunning = false) (pick : s.foldPick = some (key, b, p)) :
    exec .eddyFold s = .next (s.startCopy d b.group.1 3 .native .eddy key (s.foldItems key b p)) := by
  show execEddyFold s = _
  unfold execEddyFold
  simp only [desc]
  rw [if_neg (by rw [copying, probe]; decide)]
  simp only [pick]

theorem exec_eddyFold_none (desc : s.boot.desc = some d) (nothing : s.foldPick = none) : exec .eddyFold s = .next s := by
  show execEddyFold s = _
  unfold execEddyFold
  simp only [desc, nothing, ite_self]

theorem exec_foldMapUpdate_maps {m : Move} (found : s.med.moves.find? (fun m => m.walker = .eddy && m.programmed) = some m)
    (copying : s.copying = true) : exec .foldMapUpdate s = .next (s.applyMove m) := by
  show execFoldMapUpdate s = _
  unfold execFoldMapUpdate
  simp only [found]
  exact if_pos copying

/-- The source of a refresh, closed and counted. -/
def State.refreshing (s : State) (key : Nat) : State :=
  ({ s with med := { s.med with refreshed := satInc s.med.refreshed } } : State).updSb key (fun x => { x with open_ := false })

theorem exec_refresh_copies {key : Nat} {b : Superblock} (desc : s.boot.desc = some d) (copying : s.copying = true)
    (found : s.nvm.sbs.find key = some b) (due : s.refreshDueFor d b = true) (apart : s.inMove key = false) :
    exec (.refresh key) s = .next ((s.refreshing key).startCopy d (s.copyGroup d b.group.1) b.refreshTo.2 b.refreshTo.1 .gc key
      ((s.validItems key b).filter (fun it => s.pieceOnMedia it.2.2))) := by
  show execRefresh key s = _
  unfold execRefresh
  simp only [desc, found]
  exact if_neg (by rw [copying, due, apart]; decide)

/-- The reads of a superblock's next row, and of its parity page once programmed. -/
def State.rowRead (s : State) (d : BoardDesc) (key : Nat) (b : Superblock) : State :=
  let s1 := s.updSb key (fun x => { x with scrubRow := b.scrubRow + 1 })
  let s2 := s1.queueCodewords d key b 6 (b.scrubRow * b.rowSlots d) (min (b.rowSlots d) (b.slots - b.scrubRow * b.rowSlots d)) .scrub
  if b.scrubRow < b.parity then s2.queueCodewords d key b 6 (b.capacity d + b.scrubRow * d.dieSlots) d.dieSlots .scrub else s2

theorem exec_scrub_reads {key : Nat} {b : Superblock} (desc : s.boot.desc = some d) (copying : s.copying = true)
    (found : s.nvm.sbs.find key = some b) (used : b.use ≠ .free) (cool : s.thr.level ≠ 7) (pass : s.med.scrubPass = true)
    (due : b.scrubbed < s.med.scrubAt) (row : b.scrubRow * b.rowSlots d < b.slots) :
    exec (.scrub key) s = .next (s.rowRead d key b) := by
  show execScrub key s = _
  unfold execScrub
  simp only [desc, found]
  exact if_neg (by
    rw [copying, pass, decide_eq_true due, decide_eq_false used, decide_eq_false cool, decide_eq_false (Nat.not_le.mpr row)]
    simp)

theorem rowRead_reads (s : State) (d : BoardDesc) (key : Nat) (b : Superblock) :
    (s.rowRead d key b).nvm = (s.updSb key (fun x => { x with scrubRow := b.scrubRow + 1 })).nvm ∧ (s.rowRead d key b).bpm = s.bpm := by
  have row := media_queueCodewords (s.updSb key (fun x => { x with scrubRow := b.scrubRow + 1 })) d key b 6 (b.scrubRow * b.rowSlots d)
    (min (b.rowSlots d) (b.slots - b.scrubRow * b.rowSlots d)) .scrub
  unfold State.rowRead
  dsimp only
  split
  · exact ⟨(queueCodewords_nvm ..).trans (queueCodewords_nvm ..), (row.trans (media_queueCodewords _ _ _ _ _ _ _ _)).bpm⟩
  · exact ⟨queueCodewords_nvm .., row.bpm⟩

/-- A group's collection goes on, or is over. -/
def State.collects (s : State) (g : Nat) (on : Bool) : State :=
  { s with med := { s.med with
    collecting := if on then (s.med.collecting.filter (fun x => x ≠ g)) ++ [g] else s.med.collecting.filter (fun x => x ≠ g) } }

theorem exec_garbageCollection_ends {group : Fin 16} (desc : s.boot.desc = some d) (copying : s.copying = true)
    (held : group.1 < d.groups) (cool : s.thr.level ≠ 7) (enough : 8 ≤ s.freeNative d group.1) :
    exec (.garbageCollection group) s = .next (s.collects group.1 false) := by
  have off : (decide (s.freeNative d group.1 < 4) || (s.med.collecting.contains group.1 && decide (s.freeNative d group.1 < 8))) = false := by
    rw [decide_eq_false (by omega), decide_eq_false (by omega), Bool.and_false, Bool.or_false]
  show execGarbageCollection group s = _
  unfold execGarbageCollection
  simp only [desc]
  rw [off, if_neg (by rw [copying, decide_eq_true held, decide_eq_false cool]; decide), if_pos (by decide)]
  rfl

theorem exec_garbageCollection_begins {group : Fin 16} (desc : s.boot.desc = some d) (copying : s.copying = true)
    (held : group.1 < d.groups) (cool : s.thr.level ≠ 7) (few : s.freeNative d group.1 < 4) :
    exec (.garbageCollection group) s = .next (s.collects group.1 true) ∨
    ∃ key items, exec (.garbageCollection group) s = .next ((s.collects group.1 true).startCopy d group.1 4 .native .gc key items) := by
  have on : (decide (s.freeNative d group.1 < 4) || (s.med.collecting.contains group.1 && decide (s.freeNative d group.1 < 8))) = true := by
    rw [decide_eq_true few, Bool.true_or]
  have ran : exec (.garbageCollection group) s = match (s.collects group.1 true).gcVictim d group.1 with
      | none => .next (s.collects group.1 true)
      | some (key, b) => .next ((s.collects group.1 true).startCopy d group.1 4 .native .gc key ((s.collects group.1 true).validItems key b)) := by
    show execGarbageCollection group s = _
    unfold execGarbageCollection
    simp only [desc]
    rw [on, if_neg (by rw [copying, decide_eq_true held, decide_eq_false cool]; decide), if_neg (by decide)] <;> rfl
  rw [ran]
  cases (s.collects group.1 true).gcVictim d group.1 with
  | none => exact .inl rfl
  | some p => exact .inr ⟨p.1, _, rfl⟩

end Copy

/-- Settles O51: the lemmas above, command by command. -/
theorem copiesLoseNothing : Obligations.CopiesLoseNothing := by
  unfold Obligations.CopiesLoseNothing
  refine fun s d desc copying => ⟨fun key b p probe pick items => ?fold, fun nothing => exec_eddyFold_none desc nothing,
    fun m found owns => ?map, fun key b found due apart => ?refresh, fun key b found used cool pass due row => ?scrub,
    fun group held cool => ⟨fun few => ?begins, fun enough => ?ends⟩⟩
  case fold =>
    obtain ⟨nvm, copies⟩ := copyReads_keeps (s.withCopy (s.copyOf b.group.1 3 .native .eddy key (s.foldItems key b p))) d .eddy
      s.med.nextOp (s.foldItems key b p)
    have bpm := (media_copyReads (s.withCopy (s.copyOf b.group.1 3 .native .eddy key (s.foldItems key b p))) d .eddy
      s.med.nextOp (s.foldItems key b p)).bpm
    refine ⟨_, s.copyOf b.group.1 3 .native .eddy key (s.foldItems key b p), exec_eddyFold_folds desc copying probe pick, ?_⟩
    rw [startCopy_copies, if_neg items]
    exact ⟨copies, rfl, rfl, rfl, rfl, rfl, nvm, bpm⟩
  case map =>
    have walker : m.walker = .eddy := by
      have selected := List.find?_some found
      simp only [Bool.and_eq_true, decide_eq_true_eq] at selected
      exact selected.1
    have kept := stored_applyMove s m (.rfl' s)
    refine ⟨_, exec_foldMapUpdate_maps found copying, ?_, kept.zones, kept.conv, (media_applyMove s m).bpm⟩
    rw [applyMove_owned (fun it mem => by rw [walker]; exact owns it mem)]
    exact moveEnds_over _ m
  case refresh =>
    have kept := stored_startCopy (s.refreshing key) d (s.copyGroup d b.group.1) b.refreshTo.2 b.refreshTo.1 .gc key
      ((s.validItems key b).filter (fun it => s.pieceOnMedia it.2.2)) (.rfl' _)
    have stands := media_startCopy (s.refreshing key) d (s.copyGroup d b.group.1) b.refreshTo.2 b.refreshTo.1 .gc key
      ((s.validItems key b).filter (fun it => s.pieceOnMedia it.2.2))
    exact ⟨_, exec_refresh_copies desc copying found due apart, stands.refreshed, kept.zones, kept.conv, stands.bpm⟩
  case scrub =>
    obtain ⟨nvm, bpm⟩ := rowRead_reads s d key b
    refine ⟨_, exec_scrub_reads desc copying found used cool pass due row, ?_, (congrArg Nvm.zones nvm :), (congrArg Nvm.conv nvm :), bpm⟩
    have changed := KMap.find_upd s.nvm.sbs key key (fun x => { x with scrubRow := b.scrubRow + 1 })
    rw [if_pos rfl, found] at changed
    exact (congrArg (fun n : Nvm => n.sbs.find key) nvm).trans changed
  case begins =>
    obtain ran | ⟨key, items, ran⟩ := exec_garbageCollection_begins desc copying held cool few
    · exact ⟨_, ran, by simp [State.collects], rfl, rfl, rfl⟩
    · have kept := stored_startCopy (s.collects group.1 true) d group.1 4 .native .gc key items (.rfl' _)
      have stands := media_startCopy (s.collects group.1 true) d group.1 4 .native .gc key items
      refine ⟨_, ran, ?_, kept.zones, kept.conv, stands.bpm⟩
      rw [stands.collecting]
      simp [State.collects]
  case ends => exact ⟨_, exec_garbageCollection_ends desc copying held cool enough, by simp [State.collects], rfl⟩

/-! ## A die's next operation (09 R264, R270, R271) -/

theorem mediaBits_same {β : Type} {part : State → β} (raise : ∀ a p b, part (a.raise p b) = part a) (s before : State) :
    part (s.mediaBits before) = part s := by
  have maybe (a : State) (p : Page) (b : Nat) (c : Prop) [Decidable c] : part (if c then a.raise p b else a) = part a := by
    split
    · exact raise a p b
    · rfl
  unfold State.mediaBits
  dsimp only
  rw [maybe, maybe, maybe]

theorem countReads_same {β : Type} {part : State → β} (raise : ∀ a p b, part (a.raise p b) = part a)
    (sbs : ∀ (a : State) k f, part (a.updSb k f) = part a) (s : State) (key die n : Nat) : part (s.countReads key die n) = part s := by
  unfold State.countReads
  rw [mediaBits_same raise, sbs]

theorem nfc_updNfc (s : State) {ch : Nat} (f : NfcS → NfcS) (channel : ch < 8) :
    (s.updNfc ch f).med.nfc.toList.getD ch NfcS.reset = f (s.med.nfc.toList.getD ch NfcS.reset) := by
  simp [State.updNfc, List.getD_eq_getElem?_getD, channel]

section Issue

variable {s : State} {d : BoardDesc} {k : Nat} {op : FlashOp}

/-- The operation issued, with the reads of its row, and the die's turn counted. -/
def State.opIssued (s : State) (d : BoardDesc) (k : Nat) (op : FlashOp) : State :=
  let x := (s.med.dies.find op.die.1).getD { fails := 0, passed := 0, lastAt := 0 }
  let low := (s.waitingOn d op.die).any (fun p => p.2.cls = 5 || p.2.cls = 6)
  let passed := if op.cls = 5 || op.cls = 6 || !low then 0 else if 2 ≤ op.cls && op.cls ≤ 4 then x.passed + 1 else x.passed
  { s with med := { s.med with
    ops := s.med.ops.mapv (fun j o => if j = k || s.readTogether d op o then { o with issued := true, issue := k } else o),
    dies := s.med.dies.put op.die.1 { x with passed := passed, lastAt := if op.isRead || op.cls = 1 then x.lastAt else s.now } } }

/-- As `opIssued`, with the channel's and the block's counts. -/
def State.opCounted (s : State) (d : BoardDesc) (k : Nat) (op : FlashOp) : State :=
  match op.kind with
  | .read key _ _ => ((s.opIssued d k op).countOps op.die.1 1).countReads key op.die.1 1
  | _ => (s.opIssued d k op).countOps op.die.1 1

/-- An erase is suspended for a read of the host (09 R271). -/
def State.eraseYields (s : State) (j ch : Nat) : State :=
  ({ s with med := { s.med with ops := s.med.ops.upd j (fun o => { o with suspended := true, suspends := o.suspends + 1 }) } } : State).updNfc ch
    (fun c => { c with suspends := satInc c.suspends })

theorem opCounted_same {β : Type} {part : State → β} (raise : ∀ a p b, part (a.raise p b) = part a)
    (sbs : ∀ (a : State) k f, part (a.updSb k f) = part a) (d : BoardDesc) :
    part (s.opCounted d k op) = part ((s.opIssued d k op).countOps op.die.1 1) := by
  unfold State.opCounted
  split
  · exact countReads_same raise sbs _ _ _ _
  · rfl

theorem opCounted_written (written : op.isRead = false) : s.opCounted d k op = (s.opIssued d k op).countOps op.die.1 1 := by
  unfold State.opCounted
  split
  · next kind => simp [FlashOp.isRead, kind] at written
  · rfl

/-- The erase of the refresh class that may still be suspended. -/
def FlashOp.mayYield (o : FlashOp) (die : Fin 256) : Bool :=
  o.die = die && o.issued && o.isErase && o.cls = 6 && !o.suspended && decide (o.suspends < 4)

/-- A read of the host that finds such an erase suspends it, where the die supports it. -/
def State.issueEnds (s : State) (op : FlashOp) (can : Bool) : Host.Outcome State Fault Refusal :=
  match op.cls, op.isRead, can, s.med.ops.find? (fun p => p.2.mayYield op.die) with
  | 3, true, true, some (j, _) => .next (s.eraseYields j (op.die.1 / 32))
  | _, _, _, _ => .next s

theorem issueEnds_cases (s : State) (op : FlashOp) (can : Bool) : ∃ u, s.issueEnds op can = .next u ∧
    (u = s ∨ op.cls = 3 ∧ op.isRead = true ∧ ∃ j, u = s.eraseYields j (op.die.1 / 32)) := by
  unfold State.issueEnds
  split
  · next _ cls read _ => exact ⟨_, rfl, .inr ⟨cls, read, _, rfl⟩⟩
  · exact ⟨_, rfl, .inl rfl⟩

theorem issueEnds_suspends {can : Bool} (cls : op.cls = 3) (read : op.isRead = true) (able : can = true)
    (hit : (s.med.ops.find? (fun p => p.2.mayYield op.die)).isSome = true) :
    ∃ j, s.issueEnds op can = .next (s.eraseYields j (op.die.1 / 32)) := by
  obtain ⟨p, found⟩ := Option.isSome_iff_exists.mp hit
  unfold State.issueEnds
  rw [cls, read, able, found]
  exact ⟨p.1, rfl⟩

/-- A die issues its next operation. -/
theorem exec_flashIssue_issues (desc : s.boot.desc = some d) (next : s.nextIssue d op.die = some (k, op)) (media : s.mediaOn = true)
    (powered : s.chanOn (op.die.1 / 32) = true) (runs : s.dbg.seqHalted.getLsbD (op.die.1 / 32) = false)
    (works : s.nvm.failedDies.contains op.die.1 = false) (unit : s.inFlight (fun _ => true) < 512)
    (channel : s.inFlight (fun o => o.die.1 / 32 = op.die.1 / 32) < 64) (die : s.inFlight (fun o => o.die = op.die) < 2) :
    exec (.flashIssue op.die) s = (s.opCounted d k op).issueEnds op (!s.boot.noParams && Config.suspendSupport d.nandId) := by
  show execFlashIssue op.die s = _
  unfold execFlashIssue
  simp -zeta only [desc, next]
  extract_lets ch
  rw [if_neg (by rw [media, powered, runs]; decide), if_neg (by rw [works]; decide),
    if_neg (by
      rw [decide_eq_false (Nat.not_le.mpr unit), decide_eq_false (Nat.not_le.mpr channel), decide_eq_false (Nat.not_le.mpr die)]
      decide)]
  rfl

theorem opCounted_ops (s : State) (d : BoardDesc) (k : Nat) (op : FlashOp) : (s.opCounted d k op).med.ops =
    s.med.ops.mapv (fun j o => if j = k || s.readTogether d op o then { o with issued := true, issue := k } else o) :=
  opCounted_same (part := fun a => a.med.ops) (fun a p b => congrArg MedS.ops (State.raise_med a p b)) (fun _ _ _ => rfl) d

/-- The operation itself issues. -/
theorem opCounted_issues (holds : s.med.ops.find k = some op) (d : BoardDesc) :
    (s.opCounted d k op).med.ops.find k = some { op with issued := true, issue := k } := by
  rw [opCounted_ops, KMap.find_mapv, holds, Option.map_some, if_pos (by simp)]

/-- An erase that may yield still may once the read has issued. -/
theorem opCounted_yield {p : Nat × FlashOp} (d : BoardDesc) (k : Nat) (mem : p ∈ s.med.ops) (yields : p.2.mayYield op.die = true) :
    ((s.opCounted d k op).med.ops.find? (fun p => p.2.mayYield op.die)).isSome = true := by
  have mapped : (p.1, if p.1 = k || s.readTogether d op p.2 then { p.2 with issued := true, issue := k } else p.2) ∈
      (s.opCounted d k op).med.ops := by
    rw [opCounted_ops]
    exact List.mem_map.mpr ⟨p, mem, rfl⟩
  refine List.find?_isSome.mpr ⟨_, mapped, ?_⟩
  dsimp only
  split
  · unfold FlashOp.mayYield at yields ⊢
    simp only [Bool.and_eq_true] at yields ⊢
    obtain ⟨⟨⟨⟨⟨sameDie, -⟩, erase⟩, cls⟩, runs⟩, few⟩ := yields
    exact ⟨⟨⟨⟨⟨sameDie, trivial⟩, erase⟩, cls⟩, runs⟩, few⟩
  · exact yields

/-- The suspension counts in the channel (09 R304). -/
theorem eraseYields_counts (s : State) (d : BoardDesc) (k j : Nat) (op : FlashOp) :
    (((s.opCounted d k op).eraseYields j (op.die.1 / 32)).med.nfc.toList.getD (op.die.1 / 32) NfcS.reset).suspends =
      satInc (s.med.nfc.toList.getD (op.die.1 / 32) NfcS.reset).suspends := by
  have channel : op.die.1 / 32 < 8 := by omega
  have counted : (s.opCounted d k op).med.nfc = ((s.opIssued d k op).countOps op.die.1 1).med.nfc :=
    opCounted_same (part := fun a => a.med.nfc) (fun a p b => congrArg MedS.nfc (State.raise_med a p b)) (fun _ _ _ => rfl) d
  have ops := nfc_updNfc (s.opIssued d k op) (fun c => { c with ops := satAdd c.ops 1 }) channel
  unfold State.eraseYields
  rw [nfc_updNfc _ _ channel]
  dsimp only
  rw [counted]
  unfold State.countOps
  rw [ops]
  rfl

end Issue

/-! ## The end of an operation (09 R273, R297) -/

section Done

variable {s : State} {d : BoardDesc} {k : Nat} {op : FlashOp}

theorem dieOutcome_passed (s : State) (die : Nat) : ∃ m, s.dieOutcome die true = { s with med := { s.med with dies := m } } := by
  unfold State.dieOutcome
  dsimp only
  exact ⟨_, if_neg (by simp)⟩

theorem dieOutcome_failed {die : Nat} (few : ((s.med.dies.find die).getD { fails := 0, passed := 0, lastAt := 0 }).fails < 15) :
    ∃ m, s.dieOutcome die false = { s with med := { s.med with dies := m } } := by
  unfold State.dieOutcome
  dsimp only
  exact ⟨_, if_neg (by simp only [Bool.false_eq_true, if_false]; omega)⟩

theorem dropOp_drops (holds : s.med.ops.find k = some op) :
    s.dropOp k = ({ s with med := { s.med with ops := s.med.ops.del k } } : State).chanTouch (op.die.1 / 32) := by
  simp only [State.dropOp, holds]

theorem dropOp_gone (holds : s.med.ops.find k = some op) : (s.dropOp k).med.ops.has k = false := by
  rw [dropOp_drops holds]
  have gone := KMap.find_del s.med.ops k k
  rw [if_pos rfl] at gone
  exact congrArg Option.isSome gone

/-- A die block has one erase more. -/
def State.worn (s : State) (w : Nat) : State :=
  { s with nvm := { s.nvm with wear := s.nvm.wear.put w (min ((s.nvm.wear.find w).getD 0 + 1) 0xFFFFFF) } }

/-- An erase that passed: the operation is over, and its block has one erase more. -/
def State.eraseCounted (s : State) (k : Nat) (op : FlashOp) (blk : Nat) : State :=
  ((s.dropOp k).worn (op.die.1 * 65536 + blk)).dieOutcome op.die.1 true

theorem exec_flashEraseDone_passes {key blk : Nat} (holds : s.med.ops.find k = some op) (kind : op.kind = .erase key blk)
    (issued : op.issued = true) (runs : op.suspended = false) :
    exec (.flashEraseDone k true) s = .next (((s.eraseCounted k op blk).finishErase key).retryRewrites) := by
  show execFlashEraseDone k true s = _
  unfold execFlashEraseDone
  simp -zeta only [holds, kind]
  exact if_neg (by rw [issued, runs]; decide)

theorem eraseCounted_counts (holds : s.med.ops.find k = some op) (blk : Nat) :
    (s.eraseCounted k op blk).med.ops.has k = false ∧ (s.eraseCounted k op blk).med.rewrites = s.med.rewrites ∧
    (s.eraseCounted k op blk).nvm = (s.worn (op.die.1 * 65536 + blk)).nvm := by
  have gone := dropOp_gone holds
  unfold State.eraseCounted
  obtain ⟨m, passed⟩ := dieOutcome_passed ((s.dropOp k).worn (op.die.1 * 65536 + blk)) op.die.1
  rw [passed]
  refine ⟨gone, ?_, ?_⟩
  · rw [dropOp_drops holds]
    rfl
  · rw [dropOp_drops holds]
    rfl

/-! ## Programs (01 R17, 09 R273) -/

theorem freeBuf_other (s : State) {h j : Nat} (other : j ≠ h) : (s.freeBuf h).bpm.bufs.find j = s.bpm.bufs.find j := by
  unfold State.freeBuf
  split
  · rfl
  · split
    · exact KMap.find_put_other _ _ other
    · exact (KMap.find_del _ _ _).trans (if_neg other)

theorem freeBuf_gone {h : Nat} (well : ∀ x, s.bpm.bufs.find h = some x → x.quarantined = false) :
    (s.freeBuf h).bpm.bufs.find h = none := by
  cases found : s.bpm.bufs.find h with
  | none => simp only [State.freeBuf, found]
  | some x =>
    rw [freeBuf_frees found (well x found), KMap.find_del, if_pos rfl]

theorem bufferOnMedia_bpm (s : State) (h : Nat) : (s.bufferOnMedia h).bpm = (s.freeBuf h).bpm := by
  unfold State.bufferOnMedia
  split
  · next none_ =>
    unfold State.freeBuf
    rw [none_]
  · dsimp only
    split
    · rfl
    · split
      · rfl
      · split
        · rfl
        · split <;> rfl
    · rfl

/-- Every buffer of a program that is on media is gone, whatever the others were. -/
theorem buffersOnMedia_gone {h : Nat} (l : List Nat) (mem : h ∈ l) (s : State)
    (well : ∀ x, s.bpm.bufs.find h = some x → x.quarantined = false) : (l.foldl State.bufferOnMedia s).bpm.bufs.find h = none := by
  have absent (l : List Nat) (s : State) (none_ : s.bpm.bufs.find h = none) : (l.foldl State.bufferOnMedia s).bpm.bufs.find h = none := by
    induction l generalizing s with
    | nil => exact none_
    | cons j r ih =>
      refine ih _ ?_
      rw [bufferOnMedia_bpm]
      by_cases same : h = j
      · subst same
        exact freeBuf_gone (fun x found => absurd (none_.symm.trans found) (by simp))
      · rw [freeBuf_other s same, none_]
  induction l generalizing s with
  | nil => exact absurd mem List.not_mem_nil
  | cons j r ih =>
    by_cases same : h = j
    · subst same
      exact absent r _ (by rw [bufferOnMedia_bpm]; exact freeBuf_gone well)
    · refine ih ((List.mem_cons.mp mem).resolve_left same) _ (fun x found => well x ?_)
      rwa [bufferOnMedia_bpm, freeBuf_other s same] at found

/-- The operation's end as the die counts it. -/
def State.opEnded (s : State) (k : Nat) (op : FlashOp) (pass : Bool) : State := (s.dropOp k).dieOutcome op.die.1 pass

theorem exec_flashProgramDone_passes {key first n : Nat} (desc : s.boot.desc = some d) (holds : s.med.ops.find k = some op)
    (kind : op.kind = .program key first n) (issued : op.issued = true) :
    exec (.flashProgramDone k true) s = .next ((op.bufs.foldl State.bufferOnMedia (s.opEnded k op true)).movesProgrammed key) := by
  show execFlashProgramDone k true s = _
  unfold execFlashProgramDone
  simp -zeta only [desc, holds, kind]
  exact if_neg (by rw [issued]; decide)

theorem exec_flashProgramDone_fails {key first n : Nat} (desc : s.boot.desc = some d) (holds : s.med.ops.find k = some op)
    (kind : op.kind = .program key first n) (issued : op.issued = true) : exec (.flashProgramDone k false) s =
      .next ((((s.opEnded k op false).progFail (op.die.1 / 32)).programFailed d op key first n []).movesProgrammed key) := by
  show execFlashProgramDone k false s = _
  unfold execFlashProgramDone
  simp -zeta only [desc, holds, kind]
  exact if_neg (by rw [issued]; decide)

theorem judgeReadOnly_bad (s : State) : s.judgeReadOnly.nvm.bad = s.nvm.bad := by
  unfold State.judgeReadOnly
  split
  · exact (congrArg (fun x => x.nvm.bad) (raiseRec_unlogged ..) :)
  · rfl

/-- A retired block is known as bad. -/
theorem retireBlock_bad (s : State) (die blk : Nat) (cause : Byte) : (s.retireBlock die blk cause).nvm.bad.has (die * 65536 + blk) = true := by
  have put : (s.nvm.bad.put (die * 65536 + blk) cause).has (die * 65536 + blk) = true :=
    congrArg Option.isSome (KMap.find_put_same ..)
  unfold State.retireBlock
  dsimp only
  split
  · assumption
  · rw [(media_mediaBits _ s).bad, judgeReadOnly_bad, (media_raise _ _ _).bad]
    split
    · split
      · split
        · exact put
        · exact put
      · exact put
    · exact put

/-- A program that failed on a working die retires its block, and every status bit that stood stands. -/
theorem programFailed_retires {b : Superblock} {key first n blk : Nat} (avoid : List Nat) (found : s.nvm.sbs.find key = some b)
    (block : b.blocks.find? (fun x => x.1 = op.die.1) = some (op.die.1, blk)) (works : s.nvm.failedDies.contains op.die.1 = false) :
    (s.programFailed d op key first n avoid).nvm.bad.has (op.die.1 * 65536 + blk) = true ∧
      BitsKept s (s.programFailed d op key first n avoid) := by
  generalize start : s.updSb key (fun x => { x with pieces := cutSlots first n x.pieces, open_ := false, listed := true }) = a
  have bits : BitsKept s (a.retireBlock op.die.1 blk 1) := by
    rw [← start]
    exact (media_updSb s key _).bits.trans (stands_retireBlock _ _ _ _).bits
  have bad := retireBlock_bad a op.die.1 blk 1
  have after (t : State) (h : MediaStands (a.retireBlock op.die.1 blk 1) t) :
      t.nvm.bad.has (op.die.1 * 65536 + blk) = true ∧ BitsKept s t := by
    rw [h.bad]
    exact ⟨bad, bits.trans h.bits⟩
  unfold State.programFailed
  simp -zeta only [found]
  dsimp only
  rw [start, block, Option.map_some, Option.getD_some,
    if_neg (show ¬(s.nvm.failedDies.contains op.die.1 = true) by rw [works]; decide)]
  split
  · exact after _ (.rfl' _)
  · split
    · exact after _ (media_redoMoves _ _ _ _)
    · split
      · exact after _ (.rfl' _)
      · exact after _ (media_rewrite _ _ _ _)

end Done

/-- Settles O48: the lemmas above, command by command. -/
theorem flashOperationsRun : Obligations.FlashOperationsRun := by
  unfold Obligations.FlashOperationsRun
  refine fun s k op holds => ⟨fun d desc next media powered runs works unit channel die => ?issue, fun suspended runs none_ => ?resume,
    fun d key first n desc kind issued => ⟨?passes, fun b blk found block few works => ?fails⟩,
    fun key blk kind issued runs => ?erased⟩
  case issue =>
    generalize able : (!s.boot.noParams && Config.suspendSupport d.nandId) = can
    have ran := exec_flashIssue_issues desc next media powered runs works unit channel die
    rw [able] at ran
    obtain ⟨u, ends, shape⟩ := issueEnds_cases (s.opCounted d k op) op can
    have same {β : Type} (part : State → β) (med : ∀ (a : State) m, part { a with med := m } = part a) :
        part u = part (s.opCounted d k op) := by
      obtain same | ⟨-, -, j, same⟩ := shape
      · rw [same]
      · rw [same]
        exact (med _ _).trans (med _ _)
    have zones : (s.opCounted d k op).nvm.zones = s.nvm.zones :=
      opCounted_same (part := fun a => a.nvm.zones) (fun a p b => congrArg Nvm.zones (State.raise_nvm a p b)) (fun _ _ _ => rfl) d
    have conv : (s.opCounted d k op).nvm.conv = s.nvm.conv :=
      opCounted_same (part := fun a => a.nvm.conv) (fun a p b => congrArg Nvm.conv (State.raise_nvm a p b)) (fun _ _ _ => rfl) d
    have bpm : (s.opCounted d k op).bpm = s.bpm :=
      opCounted_same (part := fun a => a.bpm) (fun a p b => State.raise_bpm a p b) (fun _ _ _ => rfl) d
    have hqm : (s.opCounted d k op).hqm = s.hqm :=
      opCounted_same (part := fun a => a.hqm) (fun a p b => State.raise_hqm a p b) (fun _ _ _ => rfl) d
    refine ⟨u, ran.trans ends, (same (fun a => a.nvm.zones) (fun _ _ => rfl)).trans zones,
      (same (fun a => a.nvm.conv) (fun _ _ => rfl)).trans conv, (same (fun a => a.bpm) (fun _ _ => rfl)).trans bpm,
      (same (fun a => a.hqm) (fun _ _ => rfl)).trans hqm, fun written => ?_, fun other => ?_,
      fun cls read params supports yields => ?_⟩
    · have counted := opCounted_written (s := s) (d := d) (k := k) written
      exact ⟨(same (fun a => a.nvm) (fun _ _ => rfl)).trans (congrArg State.nvm counted :),
        (same (fun a => a.hdr) (fun _ _ => rfl)).trans (congrArg State.hdr counted :)⟩
    · obtain same | ⟨cls, -⟩ := shape
      · rw [same]
        exact opCounted_issues holds d
      · exact absurd cls other
    · obtain ⟨p, mem, sameDie, issued, erase, cls6, free, few⟩ := yields
      have mayYield : p.2.mayYield op.die = true := by
        unfold FlashOp.mayYield
        rw [decide_eq_true sameDie, issued, erase, decide_eq_true cls6, free, decide_eq_true few]
        decide
      have can' : can = true := by
        rw [← able, params, supports]
        decide
      obtain ⟨j, suspends⟩ := issueEnds_suspends cls read can' (opCounted_yield d k mem mayYield)
      have suspended : u = _ := Host.Outcome.next.inj (ends.symm.trans suspends)
      rw [suspended]
      exact eraseYields_counts s d k j op
  case resume =>
    refine ⟨_, if_neg (by rw [none_, runs]; decide), ?_, rfl, rfl⟩
    have mapped := KMap.find_mapv s.med.ops (fun _ o => if o.die = op.die && o.suspended then { o with suspended := false } else o) k
    rw [holds, Option.map_some, if_pos (by rw [suspended]; simp)] at mapped
    exact mapped
  case passes =>
    refine ⟨_, exec_flashProgramDone_passes desc holds kind issued, fun h mem well => ?_⟩
    have start : (s.opEnded k op true).bpm = s.bpm := by
      obtain ⟨m, passed⟩ := dieOutcome_passed (s.dropOp k) op.die.1
      unfold State.opEnded
      rw [passed]
      exact (media_dropOp s k).bpm
    rw [(media_movesProgrammed _ key).bpm]
    exact congrArg Option.isSome (buffersOnMedia_gone op.bufs mem _ (by rwa [start]))
  case fails =>
    refine ⟨_, exec_flashProgramDone_fails desc holds kind issued, ?_⟩
    have dropped : (s.dropOp k).nvm = s.nvm ∧ (s.dropOp k).med.dies = s.med.dies := by
      rw [dropOp_drops holds]
      exact ⟨rfl, rfl⟩
    obtain ⟨m, failed⟩ := dieOutcome_failed (s := s.dropOp k) (die := op.die.1) (by rwa [dropped.2])
    have nvm : ((s.opEnded k op false).progFail (op.die.1 / 32)).nvm = s.nvm := by
      unfold State.opEnded
      rw [failed]
      exact (State.raise_nvm ..).trans dropped.1
    have bit : ((s.opEnded k op false).progFail (op.die.1 / 32)).bit (pNFC (Fin.ofNat 8 (op.die.1 / 32))) 0 = true := by
      refine raise_bit _ _ _ (by decide) ?_ ?_
      · generalize Fin.ofNat 8 (op.die.1 / 32) = ch
        revert ch
        decide
      · generalize Fin.ofNat 8 (op.die.1 / 32) = ch
        revert ch
        decide
    obtain ⟨bad, bits⟩ := programFailed_retires (s := (s.opEnded k op false).progFail (op.die.1 / 32)) (d := d) (op := op) (first := first)
      (n := n) [] (by rw [nvm]; exact found) block (by rw [nvm]; exact works)
    have moved := media_movesProgrammed (((s.opEnded k op false).progFail (op.die.1 / 32)).programFailed d op key first n []) key
    exact ⟨moved.bits _ _ (bits _ _ bit), by rw [moved.bad]; exact bad⟩
  case erased =>
    obtain ⟨gone, rewrites, nvm⟩ := eraseCounted_counts holds blk
    have finished := media_finishErase (s.eraseCounted k op blk) key
    have retried := media_retryRewrites ((s.eraseCounted k op blk).finishErase key)
    have kept := stored_retryRewrites _ (stored_finishErase (s.eraseCounted k op blk) key (.rfl' _))
    refine ⟨_, exec_flashEraseDone_passes holds kind issued runs, fun idle => ?_, ?_, ?_, ?_⟩
    · rw [retryRewrites_of_nil (by rw [finishErase_moves, rewrites, idle]), finishErase_moves]
      exact gone
    · rw [retried.wear, finished.wear, nvm]
      exact KMap.find_put_same ..
    · exact kept.zones.trans (congrArg Nvm.zones nvm :)
    · exact kept.conv.trans (congrArg Nvm.conv nvm :)

end Sys2Proof.Machine
end

section
/-! PROOFS. The recovery ladder of a read of the host (O49). -/
namespace Sys2Proof.Machine

/-! ## A read that settles (09 R276 to R279, R307) -/

theorem countOps_same {β : Type} {part : State → β} (nfc : ∀ (a : State) ch f, part (a.updNfc ch f) = part a) (s : State) (die n : Nat) :
    part (s.countOps die n) = part s := nfc _ _ _

/-- A read leaves its queue and counts at its rung. -/
def State.rungDone (s : State) (k rung : Nat) : State := (s.dropOp k).countRung rung

section Settles

variable {s : State} {k : Nat} {op : FlashOp} {key slot block : Nat} {tag : Tag}

theorem rungDone_counts (holds : s.med.ops.find k = some op) {rung : Nat} (few : rung - 1 < 5) :
    (s.rungDone k rung).med.ops.has k = false ∧
    (s.rungDone k rung).med.rungs.toList.getD (rung - 1) 0 = satInc (s.med.rungs.toList.getD (rung - 1) 0) ∧
    (s.rungDone k rung).med.softIn = s.med.softIn ∧ (s.rungDone k rung).med.rebuilds = s.med.rebuilds ∧
    (s.rungDone k rung).nvm = s.nvm ∧ (s.rungDone k rung).hdr = s.hdr ∧ (s.rungDone k rung).hqm = s.hqm := by
  have gone := dropOp_gone holds
  unfold State.rungDone State.countRung
  rw [dropOp_drops holds] at gone ⊢
  exact ⟨gone, by simp [State.chanTouch, List.getD_eq_getElem?_getD, few], rfl, rfl, rfl, rfl, rfl⟩

theorem readSettled_corrected (kind : op.kind = .read key slot (.host tag block)) {rung : Nat} (corrects : rung ≠ 5) :
    s.readSettled k op rung = if 3 ≤ rung then (s.rungDone k rung).listSb key else s.rungDone k rung := by
  unfold State.readSettled
  simp only [kind, if_neg corrects]
  rfl

theorem readSettled_lost (kind : op.kind = .read key slot (.host tag block)) :
    s.readSettled k op 5 = (((s.rungDone k 5).listSb key).raise pLDPC 0).failBlock tag block := by
  unfold State.readSettled
  simp only [kind]
  rfl

/-- A read of the host that is corrected: it is over and counted at its rung, and changes no zone and no map entry. -/
theorem readSettled_counts (holds : s.med.ops.find k = some op) (kind : op.kind = .read key slot (.host tag block)) {rung : Nat}
    (few : rung - 1 < 5) (corrects : rung ≠ 5) : (s.readSettled k op rung).med.ops.has k = false ∧
    (s.readSettled k op rung).med.rungs.toList.getD (rung - 1) 0 = satInc (s.med.rungs.toList.getD (rung - 1) 0) ∧
    (s.readSettled k op rung).med.softIn = s.med.softIn ∧ (s.readSettled k op rung).med.rebuilds = s.med.rebuilds ∧
    (s.readSettled k op rung).nvm.zones = s.nvm.zones ∧ (s.readSettled k op rung).nvm.conv = s.nvm.conv ∧
    (s.readSettled k op rung).hdr = s.hdr := by
  obtain ⟨gone, rungs, soft, rebuilds, nvm, hdr, -⟩ := rungDone_counts holds few
  rw [readSettled_corrected kind corrects]
  split
  · exact ⟨gone, rungs, soft, rebuilds, (congrArg Nvm.zones nvm :), (congrArg Nvm.conv nvm :), hdr⟩
  · exact ⟨gone, rungs, soft, rebuilds, (congrArg Nvm.zones nvm :), (congrArg Nvm.conv nvm :), hdr⟩

/-! ## Hard reads (09 R276) -/

/-- The die has done its part. -/
def State.dieServed (s : State) (op : FlashOp) : State := s.dieOutcome op.die.1 true

theorem dieServed_med (s : State) (op : FlashOp) : ∃ m, s.dieServed op = { s with med := { s.med with dies := m } } :=
  dieOutcome_passed s op.die.1

theorem exec_flashReadDone_ok {who : ReadFor} (holds : s.med.ops.find k = some op) (kind : op.kind = .read key slot who)
    (issued : op.issued = true) : exec (.flashReadDone k .ok) s = .next ((s.dieServed op).readSettled k op 1) := by
  show execFlashReadDone k .ok s = _
  unfold execFlashReadDone
  simp -zeta only [holds, kind]
  exact if_neg (by rw [issued]; decide)

/-- n more reads of the operation's block are counted. -/
def State.readMore (s : State) (op : FlashOp) (key n : Nat) : State := (s.countOps op.die.1 n).countReads key op.die.1 n

theorem readMore_same {β : Type} {part : State → β} (raise : ∀ a p b, part (a.raise p b) = part a)
    (sbs : ∀ (a : State) k f, part (a.updSb k f) = part a) (nfc : ∀ (a : State) ch f, part (a.updNfc ch f) = part a) (s : State)
    (op : FlashOp) (key n : Nat) : part (s.readMore op key n) = part s :=
  (countReads_same raise sbs _ _ _ _).trans (nfc _ _ _)

/-- More reads add to the counts of the channel and of the superblock alone. -/
theorem readMore_keeps (s : State) (op : FlashOp) (key n : Nat) : (s.readMore op key n).med.ops = s.med.ops ∧
    (s.readMore op key n).med.rungs = s.med.rungs ∧ (s.readMore op key n).med.softIn = s.med.softIn ∧
    (s.readMore op key n).med.softQ = s.med.softQ ∧ (s.readMore op key n).med.rebuilds = s.med.rebuilds ∧
    (s.readMore op key n).nvm.zones = s.nvm.zones ∧ (s.readMore op key n).nvm.conv = s.nvm.conv ∧
    (s.readMore op key n).hqm = s.hqm := by
  have med {β : Type} (f : MedS → β) (h : ∀ m n, f { m with nfc := n } = f m) :
      f (s.readMore op key n).med = f s.med :=
    readMore_same (part := fun a => f a.med) (fun a p b => congrArg f (State.raise_med a p b)) (fun _ _ _ => rfl) (fun _ _ _ => h _ _) s op key n
  refine ⟨med MedS.ops (fun _ _ => rfl), med MedS.rungs (fun _ _ => rfl), med MedS.softIn (fun _ _ => rfl),
    med MedS.softQ (fun _ _ => rfl), med MedS.rebuilds (fun _ _ => rfl), ?_, ?_, ?_⟩
  · exact readMore_same (part := fun a => a.nvm.zones) (fun a p b => congrArg Nvm.zones (State.raise_nvm a p b)) (fun _ _ _ => rfl)
      (fun _ _ _ => rfl) s op key n
  · exact readMore_same (part := fun a => a.nvm.conv) (fun a p b => congrArg Nvm.conv (State.raise_nvm a p b)) (fun _ _ _ => rfl)
      (fun _ _ _ => rfl) s op key n
  · exact readMore_same (part := fun a => a.hqm) (fun a p b => State.raise_hqm a p b) (fun _ _ _ => rfl) (fun _ _ _ => rfl) s op key n

/-- The superblock that is read again is still there. -/
theorem readMore_sb {b : Superblock} (found : s.nvm.sbs.find key = some b) (n : Nat) :
    ∃ x, (s.readMore op key n).nvm.sbs.find key = some x := by
  unfold State.readMore State.countReads
  have same : (((s.countOps op.die.1 n).updSb key (fun b => { b with reads := b.reads.put op.die.1 ((b.reads.find op.die.1).getD 0 + n) })).mediaBits
      (s.countOps op.die.1 n)).nvm.sbs.find key = (s.nvm.sbs.upd key (fun b =>
        { b with reads := b.reads.put op.die.1 ((b.reads.find op.die.1).getD 0 + n) })).find key :=
    mediaBits_same (part := fun a => a.nvm.sbs.find key) (fun a p b => congrArg (fun n : Nvm => n.sbs.find key) (State.raise_nvm a p b)) _ _
  rw [same, KMap.find_upd, if_pos rfl, found]
  exact ⟨_, rfl⟩

/-- After a re-read: a superblock that took more than 4 is on the refresh list (09 R279). -/
def State.reread (s : State) (op : FlashOp) (key n : Nat) : State :=
  if 4 < n then ((s.dieServed op).readMore op key n).listSb key else (s.dieServed op).readMore op key n

theorem exec_flashReadDone_reread {who : ReadFor} (holds : s.med.ops.find k = some op) (kind : op.kind = .read key slot who)
    (issued : op.issued = true) (params : s.boot.noParams = false) (n : Fin 16) :
    exec (.flashReadDone k (.reread n)) s = .next ((s.reread op key n.1).readSettled k op 2) := by
  show execFlashReadDone k (.reread n) s = _
  unfold execFlashReadDone
  simp -zeta only [holds, kind]
  rw [if_neg (by rw [issued]; decide), if_neg (by rw [params]; decide)]
  rfl

/-- A re-read that corrects keeps the operation and lists its superblock where it took more than 4. -/
theorem reread_keeps (s : State) (op : FlashOp) (key n : Nat) : (s.reread op key n).med.ops = s.med.ops ∧
    (s.reread op key n).med.rungs = s.med.rungs ∧
    (∀ b, 4 < n → s.nvm.sbs.find key = some b → ∃ x, (s.reread op key n).nvm.sbs.find key = some x ∧ x.listed = true) := by
  obtain ⟨m, served⟩ := dieServed_med s op
  obtain ⟨ops, rungs, -⟩ := readMore_keeps (s.dieServed op) op key n
  have ops' : (s.dieServed op).med.ops = s.med.ops := by rw [served]
  have rungs' : (s.dieServed op).med.rungs = s.med.rungs := by rw [served]
  unfold State.reread
  split
  · refine ⟨ops.trans ops', rungs.trans rungs', fun b _ found => ?_⟩
    obtain ⟨x, stays⟩ := readMore_sb (s := s.dieServed op) (op := op) (b := b) (by rw [served]; exact found) n
    have listed := KMap.find_upd ((s.dieServed op).readMore op key n).nvm.sbs key key (fun b => { b with listed := true })
    rw [if_pos rfl, stays] at listed
    exact ⟨_, listed, rfl⟩
  · next few => exact ⟨ops.trans ops', rungs.trans rungs', fun b many => absurd many few⟩

/-! ## The soft decoder (09 R276, R277) -/

/-- A codeword waits in the soft decoder after its 15 re-reads. -/
def State.softWaits (s : State) (k : Nat) (op : FlashOp) (key : Nat) : State :=
  let s0 := s.readMore op key 15
  { s0 with med := { s0.med with
    ops := s0.med.ops.upd k (fun o => { o with issued := false, softWait := true }), softIn := s0.med.softIn ++ [k] } }

theorem toSoft_waits {who : ReadFor} (kind : op.kind = .read key slot who) (params : s.boot.noParams = false)
    (room : s.med.softIn.length < 4) : s.toSoft k op = s.softWaits k op key := by
  obtain ⟨-, -, soft, -⟩ := readMore_keeps s op key 15
  have room' : (s.readMore op key 15).med.softIn.length < 4 := by rwa [soft]
  unfold State.toSoft
  simp -zeta only [kind]
  rw [if_neg (by rw [params]; decide)]
  exact if_pos room'

theorem exec_flashReadDone_failed {who : ReadFor} (holds : s.med.ops.find k = some op) (kind : op.kind = .read key slot who)
    (issued : op.issued = true) : exec (.flashReadDone k .failed) s = .next ((s.dieServed op).toSoft k op) := by
  show execFlashReadDone k .failed s = _
  unfold execFlashReadDone
  simp -zeta only [holds, kind]
  exact if_neg (by rw [issued]; decide)

/-- The decoder's next codeword takes the place that is free. -/
def State.softNext (s : State) (r : List Nat) : State :=
  { s with med := { s.med with softIn := r ++ s.med.softQ.take 1, softQ := s.med.softQ.drop 1 } }

theorem exec_softDecode_corrects {who : ReadFor} {r : List Nat} (holds : s.med.ops.find k = some op)
    (kind : op.kind = .read key slot who) (first : s.med.softIn = k :: r) {e : SoftResult} (corrects : e ≠ .failed) :
    exec (.softDecode e) s = .next (((s.softNext r).readMore op key (if e = .twoBit then 2 else 6)).readSettled k op 3) := by
  show execSoftDecode e s = _
  unfold execSoftDecode
  simp -zeta only [first]
  extract_lets m s1
  have found : s1.med.ops.find k = some op := holds
  rw [found]
  simp -zeta only [kind]
  exact if_neg corrects

/-- A codeword the decoder gave up waits for its rebuild. -/
def State.softFails (s : State) (r : List Nat) (k : Nat) (op : FlashOp) (key : Nat) : State :=
  let s2 := (s.softNext r).readMore op key 6
  { s2 with med := { s2.med with ops := s2.med.ops.upd k (fun o => { o with softWait := false, rebuildsPending := true }) } }

theorem exec_softDecode_fails {who : ReadFor} {r : List Nat} (holds : s.med.ops.find k = some op)
    (kind : op.kind = .read key slot who) (first : s.med.softIn = k :: r) :
    exec (.softDecode .failed) s = .next (s.softFails r k op key) := by
  show execSoftDecode .failed s = _
  unfold execSoftDecode
  simp -zeta only [first]
  extract_lets m s1
  have found : s1.med.ops.find k = some op := holds
  rw [found]
  simp -zeta only [kind]
  exact if_pos trivial

theorem upd_op {m : KMap FlashOp} (holds : m.find k = some op) (f : FlashOp → FlashOp) : (m.upd k f).find k = some (f op) := by
  rw [KMap.find_upd, if_pos rfl, holds, Option.map_some]

/-! ## Parity rebuild (09 R276, R278) -/

/-- The reads of a rebuild made, and the rebuild counted. -/
def State.rebuildTried (s : State) (op : FlashOp) (key : Nat) : State :=
  let s0 := s.rebuildReads key op.die.1
  ({ s0 with med := { s0.med with rebuilds := satInc s0.med.rebuilds } } : State).raise pXPAR 0

theorem rebuildReads_same {β : Type} {part : State → β} (raise : ∀ a p b, part (a.raise p b) = part a)
    (sbs : ∀ (a : State) k f, part (a.updSb k f) = part a) (nfc : ∀ (a : State) ch f, part (a.updNfc ch f) = part a) (s : State)
    (key die : Nat) : part (s.rebuildReads key die) = part s := by
  unfold State.rebuildReads
  split
  · exact foldl_same (fun a x => (countReads_same raise sbs _ _ _ _).trans (nfc _ _ _)) _ s
  · rfl

theorem rebuildTried_keeps (s : State) (op : FlashOp) (key : Nat) : (s.rebuildTried op key).med.ops = s.med.ops ∧
    (s.rebuildTried op key).med.rungs = s.med.rungs ∧ (s.rebuildTried op key).med.rebuilds = satInc s.med.rebuilds ∧
    (s.rebuildTried op key).hqm = s.hqm ∧ (s.rebuildTried op key).bit pXPAR 0 = true := by
  have med {β : Type} (f : MedS → β) (h : ∀ m n, f { m with nfc := n } = f m) : f (s.rebuildReads key op.die.1).med = f s.med :=
    rebuildReads_same (part := fun a => f a.med) (fun a p b => congrArg f (State.raise_med a p b)) (fun _ _ _ => rfl)
      (fun _ _ _ => h _ _) s key op.die.1
  have hqm : (s.rebuildReads key op.die.1).hqm = s.hqm :=
    rebuildReads_same (part := fun a => a.hqm) (fun a p b => State.raise_hqm a p b) (fun _ _ _ => rfl) (fun _ _ _ => rfl) s key op.die.1
  unfold State.rebuildTried
  refine ⟨?_, ?_, ?_, ?_, raise_bit _ _ _ (by decide) (by decide) (by decide)⟩
  · exact (congrArg MedS.ops (State.raise_med ..) :).trans (med MedS.ops (fun _ _ => rfl))
  · exact (congrArg MedS.rungs (State.raise_med ..) :).trans (med MedS.rungs (fun _ _ => rfl))
  · exact (congrArg MedS.rebuilds (State.raise_med ..) :).trans (congrArg satInc (med MedS.rebuilds (fun _ _ => rfl)))
  · exact (State.raise_hqm ..).trans hqm

theorem exec_stripeParityRebuild_fails {who : ReadFor} (holds : s.med.ops.find k = some op) (kind : op.kind = .read key slot who)
    (waits : op.rebuildsPending = true) (runs : s.dbg.halted.getLsbD 1 = false) :
    exec (.stripeParityRebuild k false) s = .next ((s.rebuildTried op key).readSettled k op 5) := by
  show execStripeParityRebuild k false s = _
  unfold execStripeParityRebuild
  simp -zeta only [holds, kind]
  rw [if_neg (by rw [waits, runs]; decide)]
  exact if_pos rfl

theorem retireBlock_med (s : State) (die blk : Nat) (cause : Byte) : (s.retireBlock die blk cause).med = s.med := by
  have judged (a : State) : a.judgeReadOnly.med = a.med := by
    unfold State.judgeReadOnly
    split
    · exact State.raiseRec_med ..
    · rfl
  unfold State.retireBlock
  dsimp only
  split
  · rfl
  · rw [mediaBits_same (part := fun a => a.med) (fun a p b => State.raise_med a p b), judged, State.raise_med]
    split
    · split
      · split
        · rfl
        · rfl
      · rfl
    · rfl

/-- A rebuild that succeeds may retire its block; the operation, the counts and the status bits stay. -/
theorem exec_stripeParityRebuild_rebuilds {who : ReadFor} {b : Superblock} (holds : s.med.ops.find k = some op)
    (kind : op.kind = .read key slot who) (waits : op.rebuildsPending = true) (runs : s.dbg.halted.getLsbD 1 = false)
    (found : s.nvm.sbs.find key = some b) (single : s.doubleLoss b = false) :
    ∃ v, exec (.stripeParityRebuild k true) s = .next (v.readSettled k op 4) ∧ v.med = (s.rebuildTried op key).med ∧
      BitsKept (s.rebuildTried op key) v := by
  have ran : ∃ (c : Bool) (t : State) (blk : Nat), exec (.stripeParityRebuild k true) s =
      .next ((if c = true then t.retireBlock op.die.1 blk 3 else t).readSettled k op 4) ∧ t.med = (s.rebuildTried op key).med ∧
      t.hdr = (s.rebuildTried op key).hdr := by
    show ∃ c t blk, execStripeParityRebuild k true s = _ ∧ _
    unfold execStripeParityRebuild
    simp -zeta only [holds, kind, found]
    rw [if_neg (by rw [waits, runs]; decide)]
    refine ⟨_, _, _, if_neg ?_, ?_, ?_⟩
    · simp [single]
    · rfl
    · rfl
  obtain ⟨c, t, blk, ran, med, hdr⟩ := ran
  cases c with
  | true => exact ⟨_, ran, (retireBlock_med ..).trans med, (BitsKept.of_hdr hdr).trans (stands_retireBlock _ _ _ _).bits⟩
  | false => exact ⟨_, ran, med, .of_hdr hdr⟩

end Settles

/-- Settles O49: the lemmas above, rung by rung. -/
theorem theReadLadderRuns : Obligations.TheReadLadderRuns := by
  unfold Obligations.TheReadLadderRuns
  refine fun s k op key slot who holds kind => ⟨fun tag block host => ⟨fun issued => ⟨?ok, fun params n => ?reread⟩,
    fun r first e corrects => ?soft, fun waits runs => ⟨fun b found single => ?rebuilds, ?lost⟩⟩,
    fun issued params room => ?waits, fun r first => ?fails⟩
  case ok =>
    obtain ⟨m, served⟩ := dieServed_med s op
    subst host
    obtain ⟨gone, rungs, -, -, zones, conv, -⟩ := readSettled_counts (s := s.dieServed op) (rung := 1) (by rw [served]; exact holds) kind
      (by decide) (by decide)
    refine ⟨_, exec_flashReadDone_ok holds kind issued, gone, ?_, ?_, ?_⟩
    · rw [zones, served]
    · refine rungs.trans ?_
      rw [served]
    · rw [conv, served]
  case reread =>
    subst host
    obtain ⟨ops, counts, listed⟩ := reread_keeps s op key n.1
    obtain ⟨gone, rungs, -⟩ := readSettled_counts (s := s.reread op key n.1) (rung := 2) (by rw [ops]; exact holds) kind (by decide) (by decide)
    obtain ⟨-, -, -, -, nvm, -⟩ := rungDone_counts (s := s.reread op key n.1) (k := k) (op := op) (rung := 2) (by rw [ops]; exact holds) (by decide)
    refine ⟨_, exec_flashReadDone_reread holds kind issued params n, gone, ?_, fun b many found => ?_⟩
    · refine rungs.trans ?_
      rw [counts]
    · rw [readSettled_corrected kind (by decide), if_neg (by decide), nvm]
      exact listed b many found
  case soft =>
    subst host
    obtain ⟨ops, counts, soft, -⟩ := readMore_keeps (s.softNext r) op key (if e = .twoBit then 2 else 6)
    obtain ⟨gone, rungs, soft', -⟩ := readSettled_counts (s := (s.softNext r).readMore op key (if e = .twoBit then 2 else 6)) (rung := 3)
      (by rw [ops]; exact holds) kind (by decide) (by decide)
    refine ⟨_, exec_softDecode_corrects holds kind first corrects, gone, ?_, soft'.trans soft⟩
    refine rungs.trans ?_
    rw [counts]
    rfl
  case rebuilds =>
    subst host
    obtain ⟨ops, counts, rebuilds, -, bit⟩ := rebuildTried_keeps s op key
    obtain ⟨v, ran, med, bits⟩ := exec_stripeParityRebuild_rebuilds holds kind waits runs found single
    obtain ⟨gone, rungs, -, rebuilt, -, -, hdr⟩ := readSettled_counts (s := v) (rung := 4) (by rw [med, ops]; exact holds) kind
      (by decide) (by decide)
    refine ⟨_, ran, gone, ?_, BitsKept.of_hdr hdr _ _ (bits _ _ bit), ?_⟩
    · refine rungs.trans ?_
      rw [med, counts]
    · rw [rebuilt, med, rebuilds]
  case lost =>
    subst host
    obtain ⟨ops, counts, -, hqm, -⟩ := rebuildTried_keeps s op key
    obtain ⟨gone, rungs, -, -, -, -, hqm'⟩ := rungDone_counts (s := s.rebuildTried op key) (k := k) (op := op) (rung := 5)
      (by rw [ops]; exact holds) (by decide)
    refine ⟨_, exec_stripeParityRebuild_fails holds kind waits runs, ?_⟩
    rw [readSettled_lost kind]
    have med : (((((s.rebuildTried op key).rungDone k 5).listSb key).raise pLDPC 0).failBlock tag block).med =
        ((s.rebuildTried op key).rungDone k 5).med := (State.raise_med ..)
    refine ⟨by rw [med]; exact gone, ?_, ?_, fun c cmd fresh => ?_⟩
    · rw [med]
      refine rungs.trans ?_
      rw [counts]
    · exact raise_bit (((s.rebuildTried op key).rungDone k 5).listSb key) _ _ (by decide) (by decide) (by decide)
    · have same : ((((s.rebuildTried op key).rungDone k 5).listSb key).raise pLDPC 0).hqm = s.hqm :=
        (State.raise_hqm ..).trans (hqm'.trans hqm)
      unfold State.failBlock
      rw [updCmd_cmd_after same cmd, fresh]
  case waits =>
    obtain ⟨m, served⟩ := dieServed_med s op
    obtain ⟨ops, -, soft, -⟩ := readMore_keeps (s.dieServed op) op key 15
    refine ⟨_, exec_flashReadDone_failed holds kind issued, ?_⟩
    rw [toSoft_waits kind (by rw [served]; exact params) (by rw [served]; exact room)]
    have holds' : ((s.dieServed op).readMore op key 15).med.ops.find k = some op := by rw [ops, served]; exact holds
    refine ⟨(upd_op holds' (fun o => { o with issued := false, softWait := true }) :), ?_⟩
    refine (congrArg (· ++ [k]) soft).trans ?_
    rw [served]
  case fails =>
    obtain ⟨ops, -, -, -, -, zones, conv, -⟩ := readMore_keeps (s.softNext r) op key 6
    have holds' : ((s.softNext r).readMore op key 6).med.ops.find k = some op := by rw [ops]; exact holds
    exact ⟨_, exec_softDecode_fails holds kind first,
      (upd_op holds' (fun o => { o with softWait := false, rebuildsPending := true }) :), zones, conv⟩

end Sys2Proof.Machine
end

section
/-! PROOFS. Upkeep of the DRAM and of the event records (O53). -/
namespace Sys2Proof.Machine

/-! ## Refresh (10 R319 to R321) -/

/-- The next refresh is counted from the one that fell due. -/
def State.refreshTaken (s : State) : State := { s with dram := { s.dram with refAt := s.dram.refAt + s.trefi } }

section Refresh

variable {s : State}

theorem exec_refreshDue_early (early : 1000 * s.now < s.dram.refAt) : exec .refreshDue s = .next s := by
  show execRefreshDue s = _
  unfold execRefreshDue
  rw [if_pos (by rw [decide_eq_true early, Bool.or_true])]

/-- A refresh that falls due outside Lull and the final hold depends on the real-time requests. -/
theorem exec_refreshDue_due (trained : s.dram.trained = true) (due : s.dram.refAt ≤ 1000 * s.now) (awake : s.pwr.lull = false)
    (runs : s.squall.hold = false) : exec .refreshDue s = .next (
      if s.rtActive = false then s.refreshTaken
      else if s.dram.postponed < 7 then { s with dram := { s.dram with refAt := s.dram.refAt + s.trefi, postponed := s.dram.postponed + 1 } }
      else ({ s with dram := { s.dram with refAt := s.dram.refAt + s.trefi, forced := satInc s.dram.forced } } : State).raise pDRAM 2) := by
  show execRefreshDue s = _
  unfold execRefreshDue
  rw [if_neg (by rw [trained, decide_eq_false (Nat.not_lt.mpr due)]; decide)]
  dsimp only
  cases busy : s.rtActive with
  | false => rw [if_pos (by simp), if_pos rfl]; rfl
  | true =>
    rw [if_neg (by rw [awake, runs]; decide), if_neg (show ¬(true = false) by decide)]
    split
    · rfl
    · rfl

theorem exec_refreshPayback_idle (idle : s.rtActive = false) : exec .refreshPayback s =
    .next { s with dram := { s.dram with payback := satAdd s.dram.payback s.dram.postponed, postponed := 0 } } := by
  show execRefreshPayback s = _
  unfold execRefreshPayback
  rw [if_neg (by rw [idle]; decide)]

end Refresh

/-! ## Patrol (10 R311, R322, R323) -/

/-- The round of the day is over. -/
def State.patrolled (s : State) (day : Nat) : State :=
  { s with dram := { s.dram with passes := s.dram.passes + 1, patrolDay := some day } }

section Patrol

variable {s : State}

theorem exec_patrolScrub_done (done : s.dram.patrolDay = some (s.opSecs / 86400)) (l : List WordError) :
    exec (.patrolScrub l) s = .next s := by
  show execPatrolScrub l s = _
  unfold execPatrolScrub
  exact if_neg (by simp [done])

theorem exec_patrolScrub_runs (active : s.active = true) (trained : s.dram.trained = true) (awake : s.pwr.lull = false)
    (due : s.dram.patrolDay ≠ some (s.opSecs / 86400)) (l : List WordError) :
    exec (.patrolScrub l) s = .next ((l.foldl State.wordError s).patrolled (s.opSecs / 86400)) := by
  show execPatrolScrub l s = _
  unfold execPatrolScrub
  exact if_pos (by simp [active, trained, awake, due])

theorem eccCorrected_counts (s : State) : s.eccCorrected.dram = { s.dram with ce := satInc s.dram.ce, roundCe := s.dram.roundCe + 1 } ∧
    s.eccCorrected.bit pDRAM 0 = true ∧ s.eccCorrected.bpm = s.bpm := by
  unfold State.eccCorrected
  dsimp only
  split
  · exact ⟨by rw [State.raise_dram, State.raise_dram],
      raise_keeps _ _ _ _ _ (raise_bit _ _ _ (by decide) (by decide) (by decide)), by rw [State.raise_bpm, State.raise_bpm]⟩
  · exact ⟨State.raise_dram .., raise_bit _ _ _ (by decide) (by decide) (by decide), State.raise_bpm ..⟩

theorem wordError_corrected_dram {a : DWord} (used : s.region .dram a.toNat ≠ .unused) :
    s.wordError { mem := .dram, addr := a, uncorrectable := false } = s.eccCorrected := by
  unfold State.wordError
  rw [if_neg Bool.false_ne_true, if_neg used, if_pos rfl]

theorem wordError_corrected_onChip {m : MemKind} {a : DWord} (onChip : m ≠ .dram) (used : s.region m a.toNat ≠ .unused) :
    s.wordError { mem := m, addr := a, uncorrectable := false } = { s with sram := { s.sram with ce := satInc s.sram.ce } } := by
  unfold State.wordError
  rw [if_neg Bool.false_ne_true, if_neg used, if_neg onChip]

theorem wordError_uncorrectable (s : State) (m : MemKind) (a : DWord) :
    s.wordError { mem := m, addr := a, uncorrectable := true } = s.eccUncorrectable m a := by
  unfold State.wordError
  exact if_pos rfl

theorem eccUncorrectable_unheld {m : MemKind} {a : DWord} {h : Nat} (buffer : s.region m a.toNat = .buffer h)
    (free : s.bpm.bufs.find h = none) : s.eccUncorrectable m a = s.eccEvent m a 0 noTenant false := by
  unfold State.eccUncorrectable
  generalize s.region m a.toNat = r at buffer ⊢
  subst buffer
  dsimp only
  rw [free]

theorem eccUncorrectable_own {m : MemKind} {a : DWord} (own : s.region m a.toNat = .own) :
    s.eccUncorrectable m a = (s.eccEvent m a 0xFF noTenant true).squallTrigger sqSOFTWARE := by
  unfold State.eccUncorrectable
  generalize s.region m a.toNat = r at own ⊢
  subst own
  rfl

/-- An uncorrectable word of DRAM that no record follows: counted, its address kept, the bit set. -/
theorem eccEvent_dram (s : State) (a : DWord) (owner : Nat) (t : Byte) :
    (s.eccEvent .dram a owner t false).dram = { s.dram with ue := satInc s.dram.ue, ueAddr := a } ∧
    (s.eccEvent .dram a owner t false).bit pDRAM 1 = true ∧ (s.eccEvent .dram a owner t false).nvm = s.nvm := by
  unfold State.eccEvent
  rw [if_pos rfl]
  dsimp only
  rw [if_neg (by decide)]
  exact ⟨State.raise_dram .., raise_bit _ _ _ (by decide) (by decide) (by decide), State.raise_nvm ..⟩

/-- A word the controller works in: counted in its memory, and the controller stays in operation. -/
theorem eccEvent_own (s : State) (m : MemKind) (a : DWord) (owner : Nat) (t : Byte) :
    (s.eccEvent m a owner t true).active = s.active ∧
    (if m = .dram then (s.eccEvent m a owner t true).dram.ue = satInc s.dram.ue
      else (s.eccEvent m a owner t true).sram.ue = satInc s.sram.ue) := by
  have same (x : State) (p : Page) (b : Nat) (sev : Fin 4) (t : Byte) (l : List Byte) : (x.raiseRec p b sev t l).active = x.active := by
    have units := units_raiseRec x p b sev t l (.rfl' x)
    unfold State.active
    rw [awake_congr units (State.raiseRec_pins ..), units.squall]
  unfold State.eccEvent
  split
  · dsimp only
    rw [if_pos rfl]
    exact ⟨same _ _ _ _ _ _, (congrArg DramS.ue (State.raiseRec_dram ..) :)⟩
  · dsimp only
    rw [if_pos rfl]
    exact ⟨same _ _ _ _ _ _, (congrArg SramS.ue (State.raiseRec_sram ..) :)⟩

theorem squallTrigger_sram (s : State) (cause : Byte) : (s.squallTrigger cause).sram = s.sram := by
  have collected : ((s.supplySeen cause).collect cause).sram = s.sram := by
    unfold State.collect
    split
    · rfl
    · split <;> rfl
  unfold State.squallTrigger
  dsimp only
  split
  · rfl
  · split
    · exact collected
    · exact (State.record_sram ..).trans collected

end Patrol

/-! ## Event records (11 R364 to R366) -/

section Records

variable {s : State}

/-- The buffer once a pass has taken it. -/
def State.passTakes (s : State) : AonS :=
  { s.aon with passOn := true, evBuf := s.aon.evBuf.map (fun b => { b with taken := true }) }

theorem passBegin_aon (s : State) : s.passBegin.aon = s.passTakes := by
  unfold State.passBegin
  dsimp only
  split
  · split
    · exact foldl_same (part := State.aon) (fun a x => (rfl : (a.queueOp x 1 (.system .events) []).aon = a.aon)) _ _
    · rfl
  · rfl

theorem endLull_aon (s : State) : s.endLull.aon = s.aon := by
  unfold State.endLull
  split <;> rfl

theorem exec_evrProgrammingPass_begins (active : s.active = true) (gust : s.boot.tGust.isSome = true) (off : s.aon.passOn = false)
    (due : s.passDue = true) : exec .evrProgrammingPass s = .next s.endLull.passBegin :=
  congrArg Host.Outcome.next (if_pos (by rw [active, gust, off, due]; decide))

theorem exec_evrPassEnd_waits (waits : s.aon.passOn = false ∨ s.passOwes = true) : exec .evrPassEnd s = .next s := by
  refine congrArg Host.Outcome.next (if_neg ?_)
  cases waits with
  | inl off => rw [off, Bool.and_false, Bool.false_and]; decide
  | inr owes => rw [owes, Bool.not_true, Bool.and_false]; decide

theorem exec_evrPassEnd_ends (awake : s.awake = true) (on : s.aon.passOn = true) (done : s.passOwes = false) :
    exec .evrPassEnd s = .next s.passEnd :=
  congrArg Host.Outcome.next (if_pos (by rw [awake, on, done]; decide))

theorem storeRec_aon (s : State) (r : EvRec) : (s.storeRec r).aon = s.aon := by
  unfold State.storeRec
  split
  · rfl
  · split
    · rfl
    · split
      · rfl
      · exact State.raise_aon ..

/-- Records enter the permanent area at its end, by their SEQ (R364). -/
theorem storeRec_permanent (s : State) (r : EvRec) :
    (s.storeRec r).nvm.permanent = if r.seq < 4096 then s.nvm.permanent ++ [r] else s.nvm.permanent := by
  unfold State.storeRec
  split
  · rfl
  · split
    · rfl
    · split
      · rfl
      · exact (congrArg Nvm.permanent (State.raise_nvm ..) :)

/-- Stored records join the permanent area, the ones it held staying. -/
theorem storeRecs_permanent (l : List BufRec) (s : State) (r : EvRec) :
    r ∈ (l.foldl (fun a b => a.storeRec b.ev) s).nvm.permanent ↔
      r ∈ s.nvm.permanent ∨ ∃ b ∈ l, b.ev = r ∧ r.seq < 4096 := by
  induction l generalizing s with
  | nil => simp
  | cons b l ih =>
    rw [List.foldl_cons, ih, storeRec_permanent]
    have first : (∃ x ∈ b :: l, x.ev = r ∧ r.seq < 4096) ↔ (b.ev = r ∧ r.seq < 4096) ∨ ∃ x ∈ l, x.ev = r ∧ r.seq < 4096 := by simp
    rw [first, ← or_assoc]
    refine or_congr_left ?_
    by_cases low : b.ev.seq < 4096
    · rw [if_pos low, List.mem_append, List.mem_singleton]
      refine or_congr_right ⟨?_, fun stored => stored.1.symm⟩
      rintro rfl
      exact ⟨rfl, low⟩
    · rw [if_neg low]
      refine (or_iff_left ?_).symm
      rintro ⟨rfl, low'⟩
      exact low low'

/-- The end of a pass: its records leave the buffer for the areas. -/
theorem passEnd_stores (s : State) : s.passEnd.aon.passOn = false ∧ s.passEnd.aon.evBuf = s.aon.evBuf.filter (fun b => !b.taken) ∧
    s.passEnd.bit pEVR 2 = true ∧ ∀ r, r ∈ s.passEnd.nvm.permanent ↔
      r ∈ s.nvm.permanent ∨ ∃ b ∈ s.aon.evBuf, b.taken = true ∧ b.ev = r ∧ r.seq < 4096 := by
  have aon := foldl_same (part := State.aon) (fun a (b : BufRec) => storeRec_aon a b.ev) (s.aon.evBuf.filter (fun b => b.taken)) s
  unfold State.passEnd
  refine ⟨?_, ?_, raise_bit _ _ _ (by decide) (by decide) (by decide), fun r => ?_⟩
  · rw [State.raise_aon]
  · rw [State.raise_aon, aon]
  · rw [State.raise_nvm, storeRecs_permanent]
    simp only [List.mem_filter, and_assoc]

end Records

/-- Settles O53: the equations of refresh and of the patrol, and what a pass does with the buffer. -/
theorem dramAndRecordsAreKept : Obligations.DramAndRecordsAreKept := by
  unfold Obligations.DramAndRecordsAreKept
  refine ⟨fun s => ⟨exec_refreshDue_early, fun trained due lull hold => ⟨fun idle => ?now, fun busy few => ?postponed, fun busy many => ?forced⟩,
    exec_refreshPayback_idle, fun active trained lull => ⟨exec_patrolScrub_done, fun due => ?patrol⟩⟩,
    fun s => ⟨fun active gust off due => ?begins, exec_evrPassEnd_waits, fun awake on done => ?ends⟩⟩
  case now => rw [exec_refreshDue_due trained due lull hold, if_pos idle]; rfl
  case postponed => rw [exec_refreshDue_due trained due lull hold, if_neg (by rw [busy]; decide), if_pos few]
  case forced =>
    refine ⟨_, (exec_refreshDue_due trained due lull hold).trans (congrArg Host.Outcome.next
      ((if_neg (by rw [busy]; decide)).trans (if_neg (Nat.not_lt.mpr many)))), State.raise_dram .., ?_⟩
    exact raise_bit _ _ _ (by decide) (by decide) (by decide)
  case patrol =>
    have runs := exec_patrolScrub_runs active trained lull due
    refine ⟨runs [], fun a used => ?_, fun m a onChip used => ?_, fun a h buffer free => ?_, fun m a own => ?_⟩
    · obtain ⟨dram, bit, bpm⟩ := eccCorrected_counts s
      refine ⟨_, runs _, ?_⟩
      rw [List.foldl_cons, List.foldl_nil, wordError_corrected_dram used]
      exact ⟨(congrArg DramS.ce dram :), (congrArg DramS.ue dram :), (congrArg (fun x => x.passes + 1) dram :), bit, bpm⟩
    · refine ⟨_, runs _, ?_⟩
      rw [List.foldl_cons, List.foldl_nil, wordError_corrected_onChip onChip used]
      exact ⟨rfl, rfl, rfl⟩
    · obtain ⟨dram, bit, nvm⟩ := eccEvent_dram s a 0 noTenant
      refine ⟨_, runs _, ?_⟩
      rw [List.foldl_cons, List.foldl_nil, wordError_uncorrectable, eccUncorrectable_unheld buffer free]
      exact ⟨(congrArg DramS.ue dram :), (congrArg DramS.ueAddr dram :), bit, nvm⟩
    · obtain ⟨still, counted⟩ := eccEvent_own s m a 0xFF noTenant
      obtain ⟨running, -, causes, -⟩ := squallTrigger_starts (still.trans active) sqSOFTWARE
      obtain ⟨-, -, dram⟩ := squallTrigger_keeps (s.eccEvent m a 0xFF noTenant true) sqSOFTWARE
      refine ⟨_, runs _, ?_⟩
      rw [List.foldl_cons, List.foldl_nil, wordError_uncorrectable, eccUncorrectable_own own]
      refine ⟨running, causes, ?_⟩
      show if m = .dram then _ = _ else _ = _
      split
      · next inDram =>
        rw [if_pos inDram] at counted
        exact (congrArg DramS.ue dram :).trans counted
      · next onChip =>
        rw [if_neg onChip] at counted
        exact (congrArg SramS.ue (squallTrigger_sram ..) :).trans counted
  case begins =>
    refine ⟨_, exec_evrProgrammingPass_begins active gust off due, ?_⟩
    rw [passBegin_aon, passBegin_nvm, State.passTakes, endLull_aon, endLull_nvm]
    refine ⟨rfl, fun b taken => ?_, ?_, rfl⟩
    · obtain ⟨b', -, rfl⟩ := List.mem_map.mp taken
      rfl
    · exact List.map_map ..
  case ends =>
    obtain ⟨off, kept, bit, permanent⟩ := passEnd_stores s
    exact ⟨_, exec_evrPassEnd_ends awake on done, off, kept, bit, fun r held => (permanent r).mpr (.inl held),
      fun b held taken low => (permanent b.ev).mpr (.inr ⟨b, held, taken, rfl, low⟩)⟩

end Sys2Proof.Machine
end

section
/-! PROOFS. A link through its states (O54). -/
namespace Sys2Proof.Machine

/-! ## What sending leaves of a port (14 R443, R445) -/

/-- What is read of a port that sending on it does not change: neither what waits nor what has been sent and is outstanding. -/
def SendBlind {β : Type} (view : VflS → β) : Prop := ∀ (l : VflS) (txq : List OutPkt) (run : Nat) (tx : Word) (seqOut : Vector Nat 3)
  (credits outst : Vector Nat 3), view { l with txq := txq, run := run, tx := tx, seqOut := seqOut, credits := credits, outst := outst } = view l

section Sending

variable {β : Type} {view : VflS → β}

theorem updVfl_view (s : State) (p q : Fin 4) {f : VflS → VflS} (keeps : view (f s.vfl[p]) = view s.vfl[p]) :
    view (s.updVfl p f).vfl[q] = view s.vfl[q] := by
  by_cases same : q = p
  · subst same
    rw [updVfl_same, keeps]
  · rw [updVfl_other s f same]

theorem sendOne_view (blind : SendBlind view) {s t : State} {port : Fin 4} (sent : s.sendOne port = some t) (q : Fin 4) :
    view t.vfl[q] = view s.vfl[q] := by
  unfold State.sendOne at sent
  split at sent
  · cases sent
  · cases sent
    rw [State.emit_vfl]
    exact updVfl_view s port q (blind _ _ _ _ _ _ _)

theorem drainPort_view (blind : SendBlind view) (s : State) (port q : Fin 4) (n : Nat) :
    view (s.drainPort port n).vfl[q] = view s.vfl[q] := by
  induction n generalizing s with
  | zero => rfl
  | succ n ih =>
    cases sent : s.sendOne port with
    | none => simp only [State.drainPort, sent]
    | some t =>
      simp only [State.drainPort, sent]
      exact (ih t).trans (sendOne_view blind sent q)

theorem sendOn_view (blind : SendBlind view) (s : State) (port q : Fin 4) (p : OutPkt) :
    view (s.sendOn port p).vfl[q] = view s.vfl[q] :=
  (drainPort_view blind _ port q _).trans (updVfl_view s port q (blind _ _ _ _ _ _ _))

/-- Draining a port changes no other. -/
theorem drainPort_other {port q : Fin 4} (apart : q ≠ port) (s : State) (n : Nat) : (s.drainPort port n).vfl[q] = s.vfl[q] := by
  induction n generalizing s with
  | zero => rfl
  | succ n ih =>
    cases sent : s.sendOne port with
    | none => simp only [State.drainPort, sent]
    | some t =>
      simp only [State.drainPort, sent]
      refine (ih t).trans ?_
      unfold State.sendOne at sent
      split at sent
      · cases sent
      · cases sent
        rw [State.emit_vfl, updVfl_other _ _ apart]

theorem sendOn_other {port q : Fin 4} (apart : q ≠ port) (s : State) (p : OutPkt) : (s.sendOn port p).vfl[q] = s.vfl[q] :=
  (drainPort_other apart _ _).trans (updVfl_other s _ apart)

/-! ## HELLO (14 R436, R437) -/

/-- HELLO sets the port as it is told, with new ephemeral keys. -/
theorem sendHello_port (blind : SendBlind view) (keyless : ∀ (l : VflS) a b, view { l with ownEph := a, peerEph := b } = view l)
    (s : State) (port : Fin 4) (f : VflS → VflS) : view (s.sendHello port f).vfl[port] = view (f s.vfl[port]) := by
  unfold State.sendHello
  split
  · next drawn _ =>
    unfold State.drbg at drawn
    split at drawn
    · cases drawn
      rw [sendOn_view blind, updVfl_same, keyless]
      rfl
    · cases drawn
  · rw [updVfl_same, keyless]

theorem sendHello_other {port q : Fin 4} (apart : q ≠ port) (s : State) (f : VflS → VflS) :
    (s.sendHello port f).vfl[q] = s.vfl[q] := by
  unfold State.sendHello
  split
  · next drawn _ =>
    unfold State.drbg at drawn
    split at drawn
    · cases drawn
      rw [sendOn_other apart, updVfl_other _ _ apart]
      rfl
    · cases drawn
  · exact updVfl_other s _ apart

end Sending

section Links

variable {s : State} {port : Fin 4}

/-- The six bits of a port's page are the device's. -/
theorem vflBit_known (port : Fin 4) (b : Fin 6) : intMask (pVFL port) &&& bitW true b.1 ≠ 0#32 ∧ tenantOfPage (pVFL port) = none := by
  revert port b
  decide

theorem raise_vflBit (s : State) (port : Fin 4) (b : Fin 6) : (s.raise (pVFL port) b.1).bit (pVFL port) b.1 = true :=
  raise_bit _ _ _ (Nat.lt_of_lt_of_le b.2 (by decide)) (vflBit_known port b).1 (vflBit_known port b).2

/-- A port in bring-up that has gained block lock. -/
def VflS.locked (l : VflS) (now : Nat) : VflS :=
  { l with st := .hello, lock := true, lockAt := now, credits := Vector.replicate 3 32, outst := Vector.replicate 3 0,
           bringups := satInc l.bringups }

theorem exec_blockLock_gains (linkable : s.linkable = true) (st : s.vfl[port].st = .training) (lock : s.vfl[port].lock = false) :
    exec (.blockLock port) s = .next (s.advDue.sendHello port (fun l => l.locked s.now)) := by
  refine congrArg Host.Outcome.next ((if_pos linkable).trans ?_)
  unfold State.gainLock
  exact if_neg (by rw [st, lock]; decide)

/-- The peer's certificate and ephemeral key. -/
def VflS.peerIs (l : VflS) (cert : List Byte) (eph : Wide) : VflS := { l with peerCert := cert, peer := certSerial cert, peerEph := eph }

theorem exec_hello_signs {fleet eph : Wide} {own cert : List Byte} {key : Hash} (linkable : s.linkable = true)
    (hasFleet : s.nvm.fleetKey = some fleet) (hasCert : s.nvm.cert = some own) (st : s.vfl[port].st = .hello)
    (good : certOk fleet cert = true) (point : Config.validPoint eph = true) (identity : s.sign.identity = some key) :
    ∃ p, exec (.hello port cert eph) s = .next ((s.updVfl port (fun l => l.peerIs cert eph)).sendOn port p) := by
  show ∃ p, execHello port cert eph s = _
  unfold execHello
  rw [hasFleet, hasCert]
  dsimp only
  rw [if_neg (by rw [linkable, st]; decide), if_neg (by rw [good, point]; decide), if_neg (by rw [st]; exact Bool.false_ne_true)]
  have signs (m : List Byte) : (s.updVfl port (fun l => l.peerIs cert eph)).identitySign m = some (Config.ecdsaSign key m) := by
    show s.sign.identity.map _ = _
    rw [identity, Option.map_some]
  split
  · next unsigned => exact absurd (unsigned.symm.trans (signs _)) (Option.some_ne_none _).symm
  · exact ⟨_, rfl⟩

theorem exec_hello_refuses {fleet eph : Wide} {own cert : List Byte} (linkable : s.linkable = true)
    (hasFleet : s.nvm.fleetKey = some fleet) (hasCert : s.nvm.cert = some own) (st : s.vfl[port].st = .hello)
    (bad : certOk fleet cert = false) : exec (.hello port cert eph) s = .next (s.linkFail port 4) := by
  show execHello port cert eph s = _
  unfold execHello
  rw [hasFleet, hasCert]
  dsimp only
  rw [if_neg (by rw [linkable, st]; decide), if_pos (by rw [bad]; rfl), if_neg (by rw [st]; exact Bool.false_ne_true)]

/-- A port that is UP under new keys. -/
def VflS.confirmed (l : VflS) (nbr : BitVec 16) : VflS := { l.keyed with st := .up, rekeying := false, nbr := nbr }

/-- A link that has come up: an advertisement and routes are due. -/
def State.linkUp (s : State) (port : Fin 4) : State :=
  let s1 := s.updVfl port (fun x => x.confirmed (certAddr s.vfl[port].peerCert))
  ({ s1 with vfr := { s1.vfr with advDue := true } } : State).topologyChanged.raise (pVFL port) 0

theorem exec_confirm_verified {own : List Byte} {sig : Wide} (linkable : s.linkable = true) (hasCert : s.nvm.cert = some own)
    (st : s.vfl[port].st = .hello) (cert : s.vfl[port].peerCert ≠ []) (peer : s.vfl[port].peerEph ≠ 0) (eph : s.vfl[port].ownEph ≠ 0)
    (verified : Config.ecdsaVerify (Config.decompressPub (certKey s.vfl[port].peerCert)) (hashBytes (s.vfl[port].transcript own)) sig = true) :
    exec (.confirm port sig) s = .next ((s.linkUp port).drainPort port (s.linkUp port).vfl[port].txq.length) := by
  show execConfirm port sig s = _
  unfold execConfirm
  rw [hasCert]
  dsimp only
  rw [if_neg (by rw [linkable, st, decide_eq_false cert, decide_eq_false peer, decide_eq_false eph]; simp), if_neg (by rw [verified]; decide), if_pos st]
  rfl

theorem linkUp_port (s : State) (port : Fin 4) :
    (s.linkUp port).vfl[port] = s.vfl[port].confirmed (certAddr s.vfl[port].peerCert) ∧ (s.linkUp port).vfr.advDue = true ∧
    (s.linkUp port).bit (pVFL port) 0 = true := by
  have vfl : (s.linkUp port).vfl = (s.updVfl port (fun x => x.confirmed (certAddr s.vfl[port].peerCert))).vfl := by
    unfold State.linkUp State.topologyChanged
    rw [State.raise_vfl, State.raise_vfl]
  refine ⟨by rw [vfl, updVfl_same], ?_, raise_vflBit _ port 0⟩
  unfold State.linkUp State.topologyChanged
  rw [State.raise_vfr, State.raise_vfr]

theorem exec_bringupTimeout_fails (runs : s.fabricRuns = true) (st : s.vfl[port].st = .hello) (late : s.vfl[port].lockAt + 100000 ≤ s.now) :
    ∃ step, exec (.bringupTimeout port) s = .next (s.linkFail port step) :=
  ⟨_, congrArg Host.Outcome.next (if_pos (by rw [runs, st, decide_eq_true late]; rfl))⟩

theorem exec_linkRetry_tries (linkable : s.linkable = true) (st : s.vfl[port].st = .failed) (late : s.vfl[port].failAt + 10000000 ≤ s.now) :
    exec (.linkRetry port) s = .next (s.updVfl port (fun x => { x with st := .training, lock := false })).advDue :=
  congrArg Host.Outcome.next (if_pos (by rw [linkable, st, decide_eq_true late]; rfl))

theorem exec_rekey_begins (linkable : s.linkable = true) (st : s.vfl[port].st = .up) (fresh : s.vfl[port].rekeying = false)
    (out : s.vfl[port].seqOut.any (fun q => decide (0xFFFF0000 ≤ q)) = true) (ready : s.sign.drbg = 1#2) :
    exec (.rekey port) s = .next ((s.sendHello port (fun x => { x with rekeying := true, lockAt := s.now })).raise (pVFL port) 5) :=
  congrArg Host.Outcome.next (if_pos (by rw [linkable, st, fresh, out, ready]; rfl))

theorem exec_blockLockLoss_leaves (lock : s.vfl[port].lock = true) : exec (.blockLockLoss port) s =
    .next ((s.linkLeave port (if s.vfl[port].st = .failed then .failed else .training)).updVfl port (fun x => { x with lock := false })) := by
  show execBlockLockLoss port s = _
  unfold execBlockLockLoss
  rw [if_neg (by rw [lock]; decide)]

/-- A failed link: when it failed, its bit, and its record (R439). -/
theorem linkFail_fails (s : State) (port : Fin 4) (step : Nat) : (s.linkFail port step).vfl[port].st = .failed ∧
    (s.linkFail port step).vfl[port].failAt = s.now ∧ (s.linkFail port step).bit (pVFL port) 2 = true := by
  have left : (s.linkFail port step).vfl[port] = s.vfl[port].left s.now .failed := by
    unfold State.linkFail
    rw [State.raiseRec_vfl, linkLeave_vfl, updVfl_same]
  rw [left]
  exact ⟨rfl, rfl, raiseRec_bit _ _ _ _ _ _ (by decide) (vflBit_known port 2).1 (vflBit_known port 2).2⟩

/-- An UP link that leaves its state says so, and the fabric near it has changed (R439, R450). -/
theorem linkLeave_bits (up : s.vfl[port].st = .up) (dst : LinkSt) :
    (s.linkLeave port dst).bit (pVFL port) 1 = true ∧ (s.linkLeave port dst).bit pVFR 1 = true := by
  unfold State.linkLeave
  dsimp only
  rw [if_pos up]
  exact ⟨raise_keeps _ _ _ _ _ (raise_vflBit _ port 1),
    raise_bit _ _ _ (by decide) (by decide) (by decide)⟩

end Links

/-- Settles O54: one equation for each command, and what sending and leaving do to the port. -/
theorem linksComeUp : Obligations.LinksComeUp := by
  unfold Obligations.LinksComeUp
  refine fun s port => ⟨fun linkable st lock => ?lock, fun fleet own cert eph key linkable hasFleet hasCert st good point identity => ?hello,
    fun fleet own cert eph linkable hasFleet hasCert st bad => ?refused,
    fun own sig linkable hasCert st cert peer eph verified => ?confirm, fun runs st late => ?timeout, exec_linkRetry_tries,
    fun linkable st fresh out ready => ?rekey, fun lock => ?loss⟩
  case lock =>
    have port' := sendHello_port (view := fun l => (l.st, l.lock, l.lockAt, l.bringups)) (fun _ _ _ _ _ _ _ => rfl) (fun _ _ _ => rfl)
      s.advDue port (fun l => l.locked s.now)
    simp only [Prod.mk.injEq] at port'
    obtain ⟨st', lock', lockAt, bringups⟩ := port'
    exact ⟨_, exec_blockLock_gains linkable st lock, st', lock', lockAt, bringups, fun q apart => sendHello_other apart s.advDue _⟩
  case hello =>
    obtain ⟨p, step⟩ := exec_hello_signs linkable hasFleet hasCert st good point identity
    have port' := sendOn_view (view := fun l => (l.st, l.peerCert, l.peer, l.peerEph)) (fun _ _ _ _ _ _ _ => rfl)
      (s.updVfl port (fun l => l.peerIs cert eph)) port port p
    rw [updVfl_same] at port'
    simp only [Prod.mk.injEq] at port'
    obtain ⟨st', cert', peer, eph'⟩ := port'
    exact ⟨_, step, st'.trans st, cert', peer, eph'⟩
  case refused =>
    obtain ⟨st', -, bit⟩ := linkFail_fails s port 4
    exact ⟨_, exec_hello_refuses linkable hasFleet hasCert st bad, st', bit⟩
  case confirm =>
    obtain ⟨port', due, bit⟩ := linkUp_port s port
    have drained := drainPort_view (view := fun l => (l.st, l.key, l.nbr)) (fun _ _ _ _ _ _ _ => rfl)
      (s.linkUp port) port port (s.linkUp port).vfl[port].txq.length
    have sent := transmits_drainPort (s.linkUp port) port (s.linkUp port).vfl[port].txq.length
    obtain ⟨st', key, nbr⟩ := (Prod.mk.injEq ..).mp drained |>.imp_right (Prod.mk.injEq ..).mp
    refine ⟨_, exec_confirm_verified linkable hasCert st cert peer eph verified, st'.trans ((congrArg VflS.st port' :)),
      key.trans ((congrArg VflS.key port' :)), nbr.trans ((congrArg VflS.nbr port' :)), ?_, sent.stands.bits _ _ bit⟩
    obtain ⟨_, _, _, same⟩ := sent
    rw [same]
    exact due
  case timeout =>
    obtain ⟨step, failed⟩ := exec_bringupTimeout_fails runs st late
    exact ⟨_, failed, linkFail_fails s port step⟩
  case rekey =>
    have port' := sendHello_port (view := fun l => (l.st, l.rekeying)) (fun _ _ _ _ _ _ _ => rfl) (fun _ _ _ => rfl)
      s port (fun x => { x with rekeying := true, lockAt := s.now })
    simp only [Prod.mk.injEq] at port'
    obtain ⟨st', rekeying⟩ := port'
    refine ⟨_, exec_rekey_begins linkable st fresh out ready, ?_⟩
    rw [State.raise_vfl]
    exact ⟨st'.trans st, rekeying, raise_vflBit _ port 5⟩
  case loss =>
    refine ⟨_, exec_blockLockLoss_leaves lock, ?_⟩
    rw [updVfl_same, linkLeave_vfl, updVfl_same]
    refine ⟨rfl, rfl, rfl, rfl, fun v => ?_, fun q apart => ?_, fun up => linkLeave_bits up _⟩
    · exact ⟨Vector.getElem_replicate .., Vector.getElem_replicate ..⟩
    · rw [updVfl_other _ _ apart, linkLeave_vfl, updVfl_other _ _ apart]

end Sys2Proof.Machine
end

section
/-! PROOFS. The topology is learnt (O56). -/
namespace Sys2Proof.Machine

/-! ## What leaves the fabric's own data (14 R443, R459) -/

theorem Transmits.vfr {s t : State} (h : Transmits s t) : t.vfr = s.vfr := by
  obtain ⟨_, _, _, rfl⟩ := h
  rfl

theorem Transmits.nvm {s t : State} (h : Transmits s t) : t.nvm = s.nvm := by
  obtain ⟨_, _, _, rfl⟩ := h
  rfl

theorem Transmits.mir {s t : State} (h : Transmits s t) : t.mir = s.mir := by
  obtain ⟨_, _, _, rfl⟩ := h
  rfl

theorem enterResync_vfr (s : State) : s.enterResync.vfr = s.vfr := by
  unfold State.enterResync
  dsimp only
  split
  · exact (transmits_sendLong _ _).vfr
  · rfl

theorem unpair_vfr (s : State) (reason : BitVec 3) : (s.unpair reason).vfr = s.vfr := by
  unfold State.unpair
  dsimp only
  split
  · exact State.raise_vfr ..
  · exact State.raiseRecStatus_vfr ..

theorem pairCheck_vfr (s : State) : s.pairCheck.vfr = s.vfr := by
  unfold State.pairCheck
  dsimp only
  split
  · rfl
  · split
    · split
      · exact enterResync_vfr s
      · split
        · exact unpair_vfr s _
        · rfl
    · split
      · rfl
      · exact unpair_vfr s _

theorem mirLeave_vfr (s : State) (st : MirSt) (reason : BitVec 3) : (s.mirLeave st reason).vfr = s.vfr := State.raise_vfr ..

theorem topologyChanged_vfr (s : State) :
    s.topologyChanged.vfr = { s.vfr with changeAt := some (s.vfr.changeAt.getD s.now) } := State.raise_vfr ..

/-! ## Advertisements (14 R448, R449) -/

theorem transmits_floodAdv (s : State) (a : Adv) (bytes : List Byte) (own : Bool) (dst : Fin 4 → Bool) :
    Transmits s (s.floodAdv a bytes own dst) := by
  unfold State.floodAdv
  refine .foldl (fun x q => ?_) _ s
  split
  · exact transmits_sendOn x q _
  · exact .rfl' x

/-- An advertisement takes the place of the one its node sent before. -/
def State.heard (s : State) (a : Adv) : State :=
  { s with vfr := { s.vfr with advs := s.vfr.advs.filter (fun x => x.serial ≠ a.serial) ++ [a] } }

/-- An address conflict is judged (R449). -/
def State.conflictJudged (s : State) (a : Adv) : State :=
  if s.addressed && !a.unaddr && a.addr = s.ownAddr && s.givesWay a then (s.giveWay a).topologyChanged else s

theorem conflictJudged_vfr (s : State) (a : Adv) : (s.conflictJudged a).vfr.advs = s.vfr.advs ∧
    (s.vfr.changeAt.isSome = true → (s.conflictJudged a).vfr.changeAt.isSome = true) := by
  unfold State.conflictJudged
  split
  · rw [topologyChanged_vfr]
    exact ⟨(congrArg VfrS.advs (State.raiseRec_vfr ..) :), fun _ => rfl⟩
  · exact ⟨rfl, id⟩

section Topology

variable {s : State}

theorem exec_nadv_new {port : Fin 4} {payload : Vector Byte 128} {a : Adv} (read : advOfBytes payload.toList s.now = a)
    (runs : s.fabricRuns = true) (up : s.vfl[port].st = .up) (foreign : a.serial ≠ Config.serial)
    (new : s.vfr.advs.find? (fun x => x.serial = a.serial) = none) : exec (.nadv port payload) s =
      .next (((((s.heard a).floodAdv a payload.toList false (fun q => q ≠ port)).topologyChanged).conflictJudged a).pairCheck) := by
  show execNadv port payload s = _
  unfold execNadv
  rw [read]
  dsimp only
  rw [new]
  rw [if_neg (by rw [runs, up, decide_eq_false foreign]; exact Bool.false_ne_true), Option.any_none, if_neg Bool.false_ne_true]
  rfl

/-- The own advertisement has its next number. -/
def State.advNumbered (s : State) : State :=
  { s with vfr := { s.vfr with advNo := s.vfr.advNo + 1, advAt := s.now, advDue := false } }

theorem exec_advertisementOriginate_due (runs : s.fabricRuns = true) (due : s.vfr.advDue = true ∨ s.vfr.advAt + 1000000 ≤ s.now) :
    exec .advertisementOriginate s =
      .next (s.advNumbered.floodAdv s.advNumbered.ownAdv s.advNumbered.ownAdv.bytes true (fun _ => true)) := by
  show execAdvertisementOriginate s = _
  unfold execAdvertisementOriginate
  exact if_pos (by simp [runs, due])

/-- Advertisements that were not renewed are gone. -/
def State.advsExpired (s : State) : State :=
  ({ s with vfr := { s.vfr with advs := s.vfr.advs.filter (fun a => decide (s.now < a.at_ + 3500000)) } } : State).topologyChanged

/-- The address comes back once the node it gave way to is gone (R449). -/
def State.conflictEnded (s : State) : State :=
  if s.vfr.conflict && !s.vfr.advs.any (fun a => a.serial = s.vfr.conflictWith) then
    { s with vfr := { s.vfr with conflict := false, claimAt := s.now, advDue := true } }
  else s

theorem conflictEnded_keeps (s : State) : s.conflictEnded.vfr.advs = s.vfr.advs ∧ s.conflictEnded.vfr.changeAt = s.vfr.changeAt ∧
    s.conflictEnded.hdr = s.hdr := by
  unfold State.conflictEnded
  split
  · exact ⟨rfl, rfl, rfl⟩
  · exact ⟨rfl, rfl, rfl⟩

theorem exec_advertisementExpiry_old (active : s.active = true) (full : s.dev.level = .full)
    (old : s.vfr.advs.any (fun a => decide (a.at_ + 3500000 ≤ s.now)) = true) :
    exec .advertisementExpiry s = .next s.advsExpired.conflictEnded.pairCheck := by
  have kept : s.vfr.advs.filter (fun a => !decide (a.at_ + 3500000 ≤ s.now)) =
      s.vfr.advs.filter (fun a => decide (s.now < a.at_ + 3500000)) :=
    List.filter_congr (fun a _ => by rw [← decide_not, decide_eq_decide]; exact Nat.not_le)
  show execAdvertisementExpiry s = _
  unfold execAdvertisementExpiry
  dsimp only
  rw [if_neg (by rw [active, full, old]; decide), kept]
  rfl

/-! ## Routes (14 R450, R451) -/

/-- The tables in force and what they were computed from. -/
def VfrS.routes (v : VfrS) : Option Nat × Bool × Vector (BitVec 4) 256 × Vector (BitVec 4) 256 × BitVec 16 :=
  (v.changeAt, v.routesOk, v.rtab, v.mtab, v.root)

/-- New tables come into force. -/
def State.routesTaken (s : State) (r : List (BitVec 4) × List (BitVec 4) × List Nat × BitVec 16) : State :=
  { s with vfr := { s.vfr with
    rtab := Vector.ofFn (fun k : Fin 256 => r.1.getD k.1 7#4), mtab := Vector.ofFn (fun k : Fin 256 => r.2.1.getD k.1 7#4),
    routesOk := true, changeAt := none, root := r.2.2.2, withheld := r.2.2.1.length } }

/-- What new tables end: imports and remote reads without a route, and a pair without one. -/
def State.routesJudged (s : State) (out : List Nat) : State :=
  let s2 := out.foldl (fun a _ => a.raiseRecStatus pVFR 2 2 noTenant) s
  let s3 := ((s2.vfr.imports.filter (fun i => (s2.portTo i.src).isNone)).foldl State.dropImport s2).serveRreq
  if s3.paired && (s3.portTo s3.partner).isNone then s3.mirLeave .separated 0#3 else s3

theorem serveRreq_routes (s : State) : s.serveRreq.vfr.routes = s.vfr.routes := by
  unfold State.serveRreq
  split
  · rfl
  · split
    · exact (congrArg VfrS.routes (State.raise_vfr ..) :)
    · split
      · exact (congrArg VfrS.routes (transmits_sendRequest _ _ _ _ _).vfr :)
      · rfl

theorem routesJudged_routes (s : State) (out : List Nat) : (s.routesJudged out).vfr.routes = s.vfr.routes := by
  have warned := foldl_same (part := fun x => x.vfr.routes) (f := fun a (_ : Nat) => a.raiseRecStatus pVFR 2 2 noTenant)
    (fun a _ => congrArg VfrS.routes (State.raiseRecStatus_vfr ..)) out s
  have dropped (a : State) (l : List Import) : (l.foldl State.dropImport a).vfr.routes = a.vfr.routes :=
    foldl_same (part := fun x => x.vfr.routes) (fun x (i : Import) => (rfl : (x.dropImport i).vfr.routes = x.vfr.routes)) l a
  unfold State.routesJudged
  dsimp only
  split
  · rw [mirLeave_vfr, serveRreq_routes, dropped]
    exact warned
  · rw [serveRreq_routes, dropped]
    exact warned

theorem exec_routeComputation_due {t : Nat} (change : s.vfr.changeAt = some t) (runs : s.fabricRuns = true)
    (free : s.dbg.halted.getLsbD 2 = false) (due : t + 10000 ≤ s.now) : exec .routeComputation s =
      .next ((s.routesTaken (routesOf (graphOf s.liveNodes))).routesJudged (routesOf (graphOf s.liveNodes)).2.2.1) := by
  show execRouteComputation s = _
  unfold execRouteComputation
  rw [change]
  dsimp only
  rw [if_neg (by rw [runs, free, decide_eq_false (Nat.not_lt.mpr due)]; decide)]
  rfl

end Topology

/-- Settles O56: one equation for each command, and what each of its parts leaves of the fabric's data. -/
theorem theTopologyIsLearnt : Obligations.TheTopologyIsLearnt := by
  unfold Obligations.TheTopologyIsLearnt
  refine fun s => ⟨fun port payload runs up foreign new => ?heard, fun runs due => ?originated, fun active full old => ?expired,
    fun t change runs free due => ?routed⟩
  case heard =>
    generalize read : advOfBytes payload.toList s.now = a at foreign new ⊢
    have flood := (transmits_floodAdv (s.heard a) a payload.toList false (fun q => q ≠ port)).vfr
    refine ⟨_, exec_nadv_new read runs up foreign new, ?_⟩
    generalize (s.heard a).floodAdv a payload.toList false (fun q => q ≠ port) = b at flood ⊢
    obtain ⟨advs, change⟩ := conflictJudged_vfr b.topologyChanged a
    rw [pairCheck_vfr, advs]
    rw [topologyChanged_vfr] at change ⊢
    refine ⟨?_, change rfl⟩
    rw [flood]
    exact List.mem_append_right _ (List.mem_singleton_self a)
  case originated =>
    have flood := transmits_floodAdv s.advNumbered s.advNumbered.ownAdv s.advNumbered.ownAdv.bytes true (fun _ => true)
    refine ⟨_, exec_advertisementOriginate_due runs due, ?_⟩
    rw [flood.vfr, flood.nvm]
    exact ⟨rfl, rfl, rfl, rfl, rfl⟩
  case expired =>
    obtain ⟨advs, change, hdr⟩ := conflictEnded_keeps s.advsExpired
    refine ⟨_, exec_advertisementExpiry_old active full old, ?_, ?_, ?_⟩
    · rw [pairCheck_vfr, advs, State.advsExpired, topologyChanged_vfr]
    · rw [pairCheck_vfr, change, State.advsExpired, topologyChanged_vfr]
      rfl
    · refine (stands_pairCheck _).bits _ _ (BitsKept.of_hdr hdr _ _ ?_)
      exact raise_bit _ _ _ (by decide) (by decide) (by decide)
  case routed =>
    have routes := routesJudged_routes (s.routesTaken (routesOf (graphOf s.liveNodes))) (routesOf (graphOf s.liveNodes)).2.2.1
    simp only [VfrS.routes, Prod.mk.injEq] at routes
    obtain ⟨change', ok, rtab, mtab, root⟩ := routes
    exact ⟨_, exec_routeComputation_due change runs free due, change', ok, rtab, mtab, root⟩

end Sys2Proof.Machine
end

section
/-! PROOFS. Requests end (O57). -/
namespace Sys2Proof.Machine

/-! ## Open requests (14 R444) -/

theorem Transmits.hqm {s t : State} (h : Transmits s t) : t.hqm = s.hqm := by
  obtain ⟨_, _, _, rfl⟩ := h
  rfl

theorem sendPkt_view {β : Type} {view : VflS → β} (blind : SendBlind view) (s : State) (p : OutPkt) (q : Fin 4) :
    view (s.sendPkt p).vfl[q] = view s.vfl[q] := by
  unfold State.sendPkt
  split
  · exact sendOn_view blind s _ q p
  · rfl

theorem sendLong_view {β : Type} {view : VflS → β} (blind : SendBlind view) (s : State) (p : OutPkt) (q : Fin 4) :
    view (s.sendLong p).vfl[q] = view s.vfl[q] :=
  foldl_same (part := fun a => view a.vfl[q]) (fun a (_ : Nat) => sendPkt_view blind a _ q) _ s

/-- A request is one open transaction more, of the command it is sent for. -/
theorem sendRequest_txns {s : State} {p : OutPkt} {tag : Option Tag} {tries : Nat} {held q : Fin 4} {y : Txn}
    (listed : y ∈ (s.sendRequest p tag tries held).vfl[q].txns) : y ∈ s.vfl[q].txns ∨ y.tag = tag := by
  unfold State.sendRequest at listed
  dsimp only at listed
  split at listed
  · exact .inl listed
  · rw [sendLong_view (view := VflS.txns) (fun _ _ _ _ _ _ _ => rfl)] at listed
    by_cases own : q = (s.portTo p.dest).getD held
    · subst own
      rw [updVfl_same] at listed
      rcases List.mem_append.mp listed with before | new
      · exact .inl before
      · rw [List.mem_singleton.mp new]
        exact .inr rfl
    · rw [updVfl_other _ _ own] at listed
      exact .inl listed

/-- A remote read that is served opens no request of a command. -/
theorem serveRreq_txns {s : State} {q : Fin 4} {y : Txn} (listed : y ∈ s.serveRreq.vfl[q].txns) :
    y ∈ s.vfl[q].txns ∨ y.tag = none := by
  unfold State.serveRreq at listed
  split at listed
  · exact .inl listed
  · split at listed
    · unfold State.rreqLost at listed
      rw [State.raise_vfl] at listed
      exact .inl listed
    · split at listed
      · have opened := sendRequest_txns listed
        exact opened
      · exact .inl listed

theorem serveRreq_hqm (s : State) : s.serveRreq.hqm = s.hqm := by
  unfold State.serveRreq
  split
  · rfl
  · split
    · exact State.raise_hqm ..
    · split
      · exact (transmits_sendRequest _ _ _ _ _).hqm
      · rfl

/-- Once a command's requests are ended, none of them is open. -/
theorem endTxns_txns {s : State} {p : Txn → Bool} {q : Fin 4} {y : Txn} (listed : y ∈ (s.endTxns p).vfl[q].txns) :
    p y = false ∨ y.tag = none := by
  refine (serveRreq_txns listed).imp_left fun kept => ?_
  rw [Fin.getElem_fin, Vector.getElem_map] at kept
  simpa using (List.mem_filter.mp kept).2

theorem endTxns_keeps (s : State) (p : Txn → Bool) : (s.endTxns p).hqm = s.hqm ∧ (s.endTxns p).nvm = s.nvm :=
  ⟨serveRreq_hqm _, (serveRreq_keeps _).1⟩

section Timeout

variable {s : State} {port : Fin 4} {txn : Fin 256} {x : Txn}

/-- A transaction of a port is over. -/
def State.txnGone (s : State) (port : Fin 4) (txn : Fin 256) : State :=
  s.updVfl port (fun l => { l with txns := l.txns.filter (fun y => y.id ≠ txn.1) })

theorem txnGone_txns {y : Txn} (listed : y ∈ (s.txnGone port txn).vfl[port].txns) : y.id ≠ txn.1 := by
  unfold State.txnGone at listed
  rw [updVfl_same] at listed
  simpa using (List.mem_filter.mp listed).2

theorem exec_transactionTimeout_late (found : s.vfl[port].txns.find? (fun x => x.id = txn.1) = some x) (active : s.active = true)
    (late : x.at_ + 10000 ≤ s.now) : exec (.transactionTimeout port txn) s =
      if 3 ≤ x.tries then .next ((s.txnGone port txn).requestFailed x).serveRreq
      else if ((s.txnGone port txn).vfl[((s.txnGone port txn).portTo x.pkt.dest).getD port]).tagFree then
        .next ((s.txnGone port txn).sendRequest x.pkt x.tag (x.tries + 1) port)
      else .next s := by
  show execTransactionTimeout port txn s = _
  unfold execTransactionTimeout
  rw [found]
  dsimp only
  rw [if_neg (by rw [active, decide_eq_false (Nat.not_lt.mpr late)]; decide)]
  rfl

theorem requestFailed_read (none_ : x.tag = none) : s.requestFailed x = s.rreqLost := by
  unfold State.requestFailed
  rw [none_]

theorem requestFailed_copy {tag : Tag} {c : Cmd} (some_ : x.tag = some tag) (cmd : s.cmd tag = some c) (opc : c.desc.opc = 0x0D#8)
    (phase : c.phase = .core3) : s.requestFailed x = s.finish tag 0x10 0x02 0 := by
  unfold State.requestFailed
  rw [some_]
  dsimp only
  rw [cmd]
  exact if_pos (by rw [opc, phase]; decide)

theorem rreqLost_serves (s : State) : s.rreqLost.serveRreq = s.rreqLost :=
  serveRreq_idle (congrArg VfrS.rreqWait (State.raise_vfr ..) :)

end Timeout

/-! ## Answers to a copy (14 R454 to R456) -/

section Answers

variable {s : State} {tag : Tag} {c : Cmd} {type : Byte}

/-- The requests of a command are over. -/
def State.requestsOver (s : State) (tag : Tag) : State := s.endTxns (fun x => x.tag = some tag)

theorem requestsOver_txns {q : Fin 4} {y : Txn} (listed : y ∈ (s.requestsOver tag).vfl[q].txns) : y.tag ≠ some tag := by
  rcases endTxns_txns listed with other | none_
  · exact of_decide_eq_false other
  · rw [none_]
    exact (Option.some_ne_none tag).symm

theorem requestsOver_cmd (cmd : s.cmd tag = some c) : (s.requestsOver tag).cmd tag = some c := by
  unfold State.cmd
  rw [State.requestsOver, (endTxns_keeps s _).1]
  exact cmd

section Copy

variable (cmd : s.cmd tag = some c) (open_ : s.txnOf tag = some type) (runs : s.fabricRuns = true) (opc : c.desc.opc = 0x0D#8)
  (phase : c.phase = .core3) (epoch : c.epoch = s.tnt[c.tenant].epoch)
include cmd open_ runs opc phase epoch

theorem exec_copyRsp_refused (cause : Byte) :
    exec (.copyRsp tag (.refused cause)) s = .next ((s.requestsOver tag).finish tag 0x10 0x03 (res cause.toNat)) := by
  show execCopyRsp tag (.refused cause) s = _
  unfold execCopyRsp
  rw [cmd, open_]
  dsimp only
  rw [if_neg (by rw [runs, opc, phase, epoch]; simp)]
  rfl

theorem exec_copyRsp_held (z : BitVec 20) :
    exec (.copyRsp tag (.held z)) s = .next ((s.requestsOver tag).finish tag 0 0 (res z.toNat)) := by
  show execCopyRsp tag (.held z) s = _
  unfold execCopyRsp
  rw [cmd, open_]
  dsimp only
  rw [if_neg (by rw [runs, opc, phase, epoch]; simp)]
  rfl

theorem exec_copyRsp_whole (z : BitVec 20) (closing : type = 0x1B#8) :
    exec (.copyRsp tag (.accepted z)) s = .next ((s.requestsOver tag).finish tag 0 0 (res z.toNat)) := by
  subst closing
  show execCopyRsp tag (.accepted z) s = _
  unfold execCopyRsp
  rw [cmd, open_]
  dsimp only
  rw [if_neg (by rw [runs, opc, phase, epoch]; simp)]
  rfl

theorem exec_copyRsp_opened (z : BitVec 20) {x : Zone} (opening : type ≠ 0x1B#8) (named : s.named c = some x) :
    exec (.copyRsp tag (.accepted z)) s = .next (s.copyAccepted tag c x) := by
  have named' : (s.requestsOver tag).named c = some x := by
    unfold State.named State.zone
    rw [State.requestsOver, (endTxns_keeps s _).2]
    exact named
  show execCopyRsp tag (.accepted z) s = _
  unfold execCopyRsp
  rw [cmd, open_]
  dsimp only
  rw [if_neg (by rw [runs, opc, phase, epoch]; simp)]
  split
  · next refused => cases refused
  · next held => cases held
  · exact absurd rfl opening
  · split
    · next y found =>
      rw [Option.some.inj (found.symm.trans named')]
    · next lost => exact absurd (lost.symm.trans named') (Option.some_ne_none x).symm

end Copy

theorem transmits_sendCopy (s : State) (tag : Tag) (c : Cmd) (z : Zone) (held : Fin 4) : Transmits s (s.sendCopy tag c z held) := by
  unfold State.sendCopy
  refine Transmits.trans ?_ (transmits_sendRequest _ _ _ _ _)
  refine Transmits.trans ?_ (.foldl (fun a e => .foldl (fun b x => transmits_sendPkt b _) _ a) z.log _)
  exact .foldl (fun a e => transmits_sendLong a _) z.log s

theorem copyAccepted_keeps (s : State) (tag : Tag) (c : Cmd) (z : Zone) :
    (s.copyAccepted tag c z).hqm = s.hqm ∧ (s.copyAccepted tag c z).nvm = s.nvm := by
  obtain ⟨hqm, nvm⟩ := endTxns_keeps s (fun x => x.tag = some tag)
  unfold State.copyAccepted
  dsimp only
  split
  · have sent := transmits_sendCopy (s.endTxns (fun x => x.tag = some tag)) tag c z (s.txnPort tag)
    exact ⟨sent.hqm.trans hqm, sent.nvm.trans nvm⟩
  · exact ⟨rfl, rfl⟩

end Answers

/-! ## Remote reads (14 R458) -/

section Reads

variable {s : State}

theorem exec_rreadReq_runs (runs : s.fabricRuns = true) (src : BitVec 16) (kind : Bool) (seq : DWord) (n : Fin 33) :
    exec (.rreadReq src kind seq n) s = .next (s.sendLong { s.newPkt 0x11 0 src noTenant 0
      (if (s.reg pVFR 0x10C 1#32).getLsbD 0 then [2] ++ (if !kind then s.statusBlock
        else ((s.recordsFor 0 seq.toNat).take n.1).flatMap EvRec.bytes) else [4]) with flags := 1 }) := by
  show execRreadReq src kind seq n s = _
  unfold execRreadReq
  rw [if_neg (by rw [runs]; decide)]

/-- A remote read whose response has come, before its bit is set. -/
def State.rreadTaken (s : State) (refused : Bool) (bytes : List Byte) : State :=
  let s1 := s.endTxns (fun x => x.tag.isNone)
  let addr : DWord := BitVec.ofNat 64 ((s1.reg pVFR 0xB10 0#32).toNat + 2 ^ 32 * (s1.reg pVFR 0xB14 0#32).toNat)
  let kind := (s1.reg pVFR 0xB04 0#32).getLsbD 0
  let s2 := if refused || !s1.canDma 0 then s1 else s1.emit (.memWrite 0 addr bytes false false)
  let n := if refused || !kind then 0 else bytes.length / 64
  { s2 with vfr := { s2.vfr with rreqSt := if refused then 4 else 2, rreqN := n } }

theorem exec_rreadRsp_taken (runs : s.fabricRuns = true) (asked : s.vfr.rreqSt = 1) (sent : s.vfr.rreqWait = none) (refused : Bool)
    (bytes : List Byte) : exec (.rreadRsp refused bytes) s = .next ((s.rreadTaken refused bytes).raise pVFR 4) := by
  show execRreadRsp refused bytes s = _
  unfold execRreadRsp
  rw [if_neg (by rw [runs, asked, sent]; decide)]
  rfl

theorem rreadTaken_keeps (idle : s.vfr.rreqWait = none) (refused : Bool) (bytes : List Byte) :
    (s.rreadTaken refused bytes).vfr.rreqSt = (if refused then 4 else 2) ∧ (s.rreadTaken refused bytes).nvm = s.nvm ∧
    (s.rreadTaken refused bytes).vfl = s.vfl.map (fun l => { l with txns := l.txns.filter (fun x => !x.tag.isNone) }) := by
  have ended : s.endTxns (fun x => x.tag.isNone) =
      { s with vfl := s.vfl.map (fun l => { l with txns := l.txns.filter (fun x => !x.tag.isNone) }) } := serveRreq_idle idle
  unfold State.rreadTaken
  rw [ended]
  refine ⟨rfl, ?_, ?_⟩
  · dsimp only
    split <;> rfl
  · dsimp only
    split <;> rfl

end Reads

/-- Settles O57: one equation for each answer, and what ending a request leaves open. -/
theorem requestsEnd : Obligations.RequestsEnd := by
  unfold Obligations.RequestsEnd
  refine fun s => ⟨fun port txn x found active late => ⟨fun q t few port' gone free => ?again, fun many none_ => ?read,
      fun tag c many some_ cmd opc phase => ?copy⟩,
    fun tag c type cmd open_ runs opc phase epoch => ⟨fun cause => ?refused, fun z => ?held, fun z closing => ?whole,
      fun z x opening named => ?opened⟩,
    fun src kind seq n runs => ⟨fun closed => ?closed, fun serves status => ?status, fun serves records => ?records⟩,
    fun refused bytes runs asked sent => ?answer⟩
  case again =>
    subst gone port'
    rw [exec_transactionTimeout_late found active late, if_neg (Nat.not_le.mpr few)]
    exact if_pos free
  case read =>
    refine ⟨_, (exec_transactionTimeout_late found active late).trans (if_pos many), ?_⟩
    rw [requestFailed_read none_, rreqLost_serves]
    refine ⟨(congrArg VfrS.rreqSt (State.raise_vfr ..) :), (congrArg VfrS.rreqN (State.raise_vfr ..) :),
      raise_bit _ _ _ (by decide) (by decide) (by decide), fun y listed => ?_⟩
    unfold State.rreqLost at listed
    rw [State.raise_vfl] at listed
    exact txnGone_txns listed
  case copy =>
    refine ⟨_, (exec_transactionTimeout_late found active late).trans (if_pos many), ?_⟩
    rw [requestFailed_copy some_ (show (s.txnGone port txn).cmd tag = some c from cmd) opc phase]
    obtain ⟨x', cmd', phase'⟩ := finish_answered (s.txnGone port txn) tag 0x10 0x02 0 c cmd
    refine ⟨⟨x', ?_, phase'⟩, fun idle y listed => ?_⟩
    · unfold State.cmd
      rw [serveRreq_hqm]
      exact cmd'
    · rw [serveRreq_idle (show ((s.txnGone port txn).finish tag 0x10 0x02 0).vfr.rreqWait = none from idle)] at listed
      exact txnGone_txns listed
  case refused =>
    exact ⟨_, exec_copyRsp_refused cmd open_ runs opc phase epoch cause, finish_answered _ tag _ _ _ c (requestsOver_cmd cmd),
      fun q y listed => requestsOver_txns listed⟩
  case held =>
    exact ⟨_, exec_copyRsp_held cmd open_ runs opc phase epoch z, finish_answered _ tag _ _ _ c (requestsOver_cmd cmd)⟩
  case whole =>
    exact ⟨_, exec_copyRsp_whole cmd open_ runs opc phase epoch z closing, finish_answered _ tag _ _ _ c (requestsOver_cmd cmd)⟩
  case opened =>
    obtain ⟨hqm, nvm⟩ := copyAccepted_keeps s tag c x
    refine ⟨_, exec_copyRsp_opened cmd open_ runs opc phase epoch z opening named, ?_, nvm⟩
    unfold State.cmd
    rw [hqm]
    exact cmd
  case closed => rw [exec_rreadReq_runs runs, closed, if_neg Bool.false_ne_true]
  case status => rw [exec_rreadReq_runs runs, serves, if_pos rfl, status]; rfl
  case records => rw [exec_rreadReq_runs runs, serves, if_pos rfl, records]; rfl
  case answer =>
    obtain ⟨st, nvm, vfl⟩ := rreadTaken_keeps sent refused bytes
    refine ⟨_, exec_rreadRsp_taken runs asked sent refused bytes, ?_⟩
    rw [State.raise_vfr, State.raise_nvm, State.raise_vfl, vfl]
    refine ⟨st, raise_bit _ _ _ (by decide) (by decide) (by decide), nvm, fun q y listed => ?_⟩
    rw [Fin.getElem_fin, Vector.getElem_map] at listed
    intro none_
    have own := (List.mem_filter.mp listed).2
    rw [none_] at own
    exact Bool.false_ne_true own

end Sys2Proof.Machine
end

section
/-! PROOFS. Copies go and arrive (O58). -/
namespace Sys2Proof.Machine

/-! ## REMOTE_COPY at the source (14 R454) -/

section Source

variable {s : State} {tag : Tag} {c : Cmd} {z : Zone}

theorem exec_remoteCopy_sealed (ready : s.ready tag 0x0D c) (cool : s.thr.level.1 < 6) (named : s.named c = some z)
    (sealed : z.st = .sealed) (own : c.desc.copyDest = s.ownAddr) :
    exec (.remoteCopy tag) s = .next (s.finish tag 0x02 0x01 0) := by
  refine congrArg Host.Outcome.next ((runOp_ready (fun _ => true) _ ready rfl).trans ?_)
  dsimp only
  rw [if_neg (Nat.not_le.mpr cool), named]
  dsimp only
  rw [if_neg (not_not.mpr sealed), if_pos (by rw [own]; simp)]

/-- The request that opens a copy. -/
def State.copyRequest (s : State) (c : Cmd) (cert r : List Byte) : OutPkt :=
  s.copyPkt c 0x18 0 ([BitVec.ofNat 8 c.desc.copyTenant] ++ cert ++ r)

theorem exec_remoteCopy_opens {k : Hash} {q : Fin 4} {r cert : List Byte} (ready : s.ready tag 0x0D c) (cool : s.thr.level.1 < 6)
    (named : s.named c = some z) (sealed : z.st = .sealed) (some_ : c.desc.copyDest ≠ 0) (one : c.desc.copyDest ≠ 0xFFFF)
    (other : c.desc.copyDest ≠ s.ownAddr) (identity : s.sign.identity = some k) (addressed : s.addressed = true)
    (route : s.portTo c.desc.copyDest = some q) (rec : s.nvm.sealRecs.find c.zoneNo = some r) (hasCert : s.nvm.cert = some cert)
    (free : (s.vfl[q]).tagFree = true) : exec (.remoteCopy tag) s =
      .next ((s.sendRequest (s.copyRequest c cert r) (some tag) 0 q).updCmd tag (fun x => { x with phase := .core3 })) := by
  refine congrArg Host.Outcome.next ((runOp_ready (fun _ => true) _ ready rfl).trans ?_)
  dsimp only
  rw [if_neg (Nat.not_le.mpr cool), named]
  dsimp only
  rw [if_neg (not_not.mpr sealed), if_neg (by simpa [or_assoc] using ⟨some_, one, other⟩),
    if_neg (by rw [identity]; exact Bool.false_ne_true), if_pos addressed, route, rec, hasCert]
  dsimp only
  rw [if_neg (by rw [free]; decide)]
  rfl

end Source

/-! ## A copy at its destination (14 R455, R456) -/

section Destination

variable {s : State} {src : BitVec 16}

theorem transmits_copyAnswer (s : State) (src : BitVec 16) (a : CopyAnswer) : Transmits s (s.copyAnswer src a) :=
  transmits_sendPkt s _

theorem refuseImport_keeps (s : State) (src : BitVec 16) (cause : Byte) : (s.refuseImport src cause).nvm = s.nvm ∧
    (s.refuseImport src cause).vfr = s.vfr ∧ (s.refuseImport src cause).bit pVFR 6 = true := by
  have sent := transmits_copyAnswer s src (.refused cause)
  exact ⟨(State.raise_nvm ..).trans sent.nvm, (State.raise_vfr ..).trans sent.vfr,
    raise_bit _ _ _ (by decide) (by decide) (by decide)⟩

/-- The import a node opens for a record. -/
def Import.opened (src : BitVec 16) (t : Tid) (z : Nat) (fresh : Bool) (record : List Byte) : Import :=
  { src := src, tenant := t, zone := z, fresh := fresh, record := record, entries := [], blocks := [] }

/-- A zone that a record's import takes. -/
def Zone.imported (x : Zone) (record : List Byte) : Zone :=
  { x with
    st := .sealed, wp := sealWp record,
    origin := some { tenant := sealTenant record, zone := BitVec.ofNat 20 (sealZoneNo record), gen := sealGen record,
                     replica := false, diverged := false } }

/-- A zone becomes an import's. -/
def State.importBegun (s : State) (i : Import) : State :=
  let s2 := s.updZone i.zone (fun x => x.imported i.record)
  { s2 with vfr := { s2.vfr with imports := s2.vfr.imports ++ [i] } }

section Open

variable {tenant : Byte} {rec : Vector Byte 256} (runs : s.fabricRuns = true) (bound : tenant.toNat < 64)
  (new : ∀ i ∈ s.vfr.imports, i.src ≠ src) (unheld : s.heldImport rec.toList = none)
include runs bound new unheld

theorem exec_copyOpen_opens {cert : List Byte} {z : Nat} {s1 : State}
    (allowed : s.openCause (Fin.ofNat 64 tenant.toNat) cert rec.toList = none)
    (takes : s.takeZone (Fin.ofNat 64 tenant.toNat) true false = .ok (z, s1)) : exec (.copyOpen src tenant cert rec) s =
      .next ((s1.importBegun (.opened src (Fin.ofNat 64 tenant.toNat) z (!s.nvm.zones.has z) rec.toList)).copyAnswer src
        (.accepted (BitVec.ofNat 20 z))) := by
  have none_ : s.vfr.imports.filter (fun i => i.src = src) = [] :=
    List.filter_eq_nil_iff.mpr (fun i listed => by simpa using new i listed)
  show execCopyOpen src tenant cert rec s = _
  unfold execCopyOpen
  rw [if_neg (by rw [runs, decide_eq_false (Nat.not_le.mpr bound)]; decide), none_]
  dsimp only [List.foldl_nil]
  rw [unheld]
  dsimp only
  rw [allowed]
  dsimp only
  rw [takes]
  rfl

theorem exec_copyOpen_refuses {cert : List Byte} {k : Byte}
    (cause : s.openCause (Fin.ofNat 64 tenant.toNat) cert rec.toList = some k) :
    exec (.copyOpen src tenant cert rec) s = .next (s.refuseImport src k) := by
  have none_ : s.vfr.imports.filter (fun i => i.src = src) = [] :=
    List.filter_eq_nil_iff.mpr (fun i listed => by simpa using new i listed)
  show execCopyOpen src tenant cert rec s = _
  unfold execCopyOpen
  rw [if_neg (by rw [runs, decide_eq_false (Nat.not_le.mpr bound)]; decide), none_]
  dsimp only [List.foldl_nil]
  rw [unheld]
  dsimp only
  rw [cause]

end Open

/-- What an import gathers from one packet. -/
def Import.gathers (src : BitVec 16) (item : CopyItem) (i : Import) : Import :=
  if i.src ≠ src then i
  else match item with
    | .entry b h => { i with entries := i.entries ++ [(b, h)] }
    | .block k b => { i with blocks := i.blocks.put k b }

theorem exec_copyData_gathers (runs : s.fabricRuns = true) (item : CopyItem) : exec (.copyData src item) s =
    .next { s with vfr := { s.vfr with imports := s.vfr.imports.map (Import.gathers src item) } } := by
  show execCopyData src item s = _
  unfold execCopyData
  rw [if_neg (by rw [runs]; decide)]
  rfl

/-- An import that is whole: its zone has its log and its record. -/
def State.importWhole (s : State) (i : Import) : State :=
  let s2 := s.updZone i.zone (fun x => { x with log := i.log, firstT := s.opSecs, lastT := s.opSecs, fullT := s.opSecs })
  { s2 with
    nvm := { s2.nvm with sealRecs := s2.nvm.sealRecs.put i.zone i.record },
    vfr := { s2.vfr with imports := s2.vfr.imports.filter (fun x => x.src ≠ i.src) } }

section Close

variable {i : Import} {d : BoardDesc} (runs : s.fabricRuns = true) (found : s.vfr.imports.find? (fun i => i.src = src) = some i)
  (desc : s.boot.desc = some d)
include runs found desc

theorem exec_copyClose_bad (bad : i.ok = false) : exec (.copyClose src) s = .next ((s.dropImport i).refuseImport src 4) := by
  show execCopyClose src s = _
  unfold execCopyClose
  rw [found, desc]
  dsimp only
  rw [if_neg (by rw [runs]; decide), if_pos (by rw [bad]; decide)]

theorem exec_copyClose_good {z : Zone} {s1 : State} (good : i.ok = true) (held : s.zone i.zone = some z)
    (placed : s.placeImport d i.zone z.gen i.log = some s1) : exec (.copyClose src) s =
      .next ((((s1.importWhole i).meterIn 3 (4096 * z.wp)).copyAnswer src (.accepted (BitVec.ofNat 20 i.zone))).raise pVFR 5) := by
  have own : i.src = src := by simpa using List.find?_some found
  show execCopyClose src s = _
  unfold execCopyClose
  rw [found, desc]
  dsimp only
  rw [if_neg (by rw [runs]; decide), if_neg (by rw [good]; decide), held]
  dsimp only
  rw [placed]
  unfold State.importWhole
  rw [own]

end Close

end Destination

/-- Settles O58: one equation for each answer, and the import each leaves. -/
theorem copiesGoAndArrive : Obligations.CopiesGoAndArrive := by
  unfold Obligations.CopiesGoAndArrive
  refine ⟨fun s tag c z k q r cert ready cool named sealed => ⟨exec_remoteCopy_sealed ready cool named sealed,
    fun some_ one other identity addressed route rec hasCert free => ?opens⟩,
    fun s src runs => ⟨fun tenant cert rec record same bound new unheld => ⟨fun allowed z s1 x takes held => ?lets, fun k cause => ?refused⟩,
      fun b h i listed own => ?entry, fun k b i listed own => ?block,
      fun i d found desc => ⟨fun bad => ?bad, fun z s1 x good held placed there => ?good⟩⟩⟩
  case opens =>
    have sent := transmits_sendRequest s (s.copyRequest c cert r) (some tag) 0 q
    refine ⟨_, exec_remoteCopy_opens ready cool named sealed some_ one other identity addressed route rec hasCert free,
      updCmd_cmd_after sent.hqm (runs_cmd ready.1) _, sent.nvm, ?_⟩
    obtain ⟨_, _, _, same⟩ := sent
    rw [same]
    exact ⟨rfl, rfl, rfl⟩
  case lets =>
    subst same
    have sent := transmits_copyAnswer
      (s1.importBegun (.opened src (Fin.ofNat 64 tenant.toNat) z (!s.nvm.zones.has z) rec.toList)) src (.accepted (BitVec.ofNat 20 z))
    refine ⟨_, exec_copyOpen_opens runs bound new unheld allowed takes, ?_, ?_⟩
    · exact zone_of_nvm (f := fun x => x.imported rec.toList) sent.nvm held
    · rw [sent.vfr]
      exact ⟨.opened src (Fin.ofNat 64 tenant.toNat) z (!s.nvm.zones.has z) rec.toList,
        List.mem_append_right _ (List.mem_singleton_self _), rfl, rfl, rfl, rfl, rfl⟩
  case refused =>
    subst same
    exact ⟨_, exec_copyOpen_refuses runs bound new unheld cause, refuseImport_keeps s src k⟩
  case entry =>
    refine ⟨_, exec_copyData_gathers runs _, List.mem_map.mpr ⟨i, listed, ?_⟩, rfl⟩
    exact if_neg (not_not.mpr own)
  case block =>
    refine ⟨_, exec_copyData_gathers runs _, List.mem_map.mpr ⟨i, listed, ?_⟩, rfl⟩
    exact if_neg (not_not.mpr own)
  case bad =>
    have own : i.src = src := by simpa using List.find?_some found
    obtain ⟨nvm, vfr, bit⟩ := refuseImport_keeps (s.dropImport i) src 4
    refine ⟨_, exec_copyClose_bad runs found desc bad, fun j listed => ?_, bit, ?_⟩
    · rw [vfr] at listed
      simpa [own] using (List.mem_filter.mp listed).2
    · rw [nvm]
      show (KMap.find (s.nvm.sealRecs.del i.zone) i.zone).isSome = false
      rw [KMap.find_del, if_pos rfl]
      rfl
  case good =>
    have own : i.src = src := by simpa using List.find?_some found
    have sent := transmits_copyAnswer ((s1.importWhole i).meterIn 3 (4096 * z.wp)) src (.accepted (BitVec.ofNat 20 i.zone))
    refine ⟨_, exec_copyClose_good runs found desc good held placed, ?_, ?_, fun j listed => ?_,
      raise_bit _ _ _ (by decide) (by decide) (by decide)⟩
    · refine zone_of_upd (f := fun x => { x with log := i.log, firstT := s1.opSecs, lastT := s1.opSecs, fullT := s1.opSecs }) there ?_
      rw [State.raise_nvm, sent.nvm]
      rfl
    · rw [State.raise_nvm, sent.nvm]
      exact KMap.find_put_same _ _ _
    · rw [State.raise_vfr, sent.vfr] at listed
      simpa [own] using (List.mem_filter.mp listed).2

end Sys2Proof.Machine
end

section
/-! PROOFS. The pair stays in step (O59). -/
namespace Sys2Proof.Machine

/-! ## Beats (14 R460, R465) -/

section Beats

variable {s : State}

/-- What a beat carries: the watermark of each mirrored tenant, and for the others what the last one carried. -/
def State.beatMarks (s : State) : Vector Nat 64 := Vector.ofFn (fun t : Fin 64 => if s.mirrored t then s.watermark t else s.mir.sent[t])

theorem beatMarks_mirrored {t : Tid} (mirrored : s.mirrored t = true) : s.beatMarks[t] = s.watermark t := by
  simp [State.beatMarks, mirrored]

/-- A beat that has gone out. -/
def State.beatSent (s : State) : State :=
  { s with mir := { s.mir with beatAt := s.now, sent := if s.windward then s.beatMarks else s.mir.sent } }

theorem exec_mirBeatSend_due (beats : s.beats = true) (due : s.mir.beatAt + 1000 ≤ s.now) :
    ∃ v : State, exec .mirBeatSend s = .next v.sendEvents ∧ v.mir = s.beatSent.mir ∧ v.nvm = s.nvm := by
  show ∃ v : State, execMirBeatSend s = .next v.sendEvents ∧ _
  unfold execMirBeatSend
  rw [if_neg (by rw [beats, decide_eq_false (Nat.not_lt.mpr due)]; decide)]
  refine ⟨_, rfl, ?_, ?_⟩
  · dsimp only
    rw [(transmits_sendLong _ _).mir]
    rfl
  · exact (transmits_sendLong _ _).nvm

theorem sendEvents_keeps (s : State) : s.sendEvents.mir = { s.mir with evSent := s.sendEvents.mir.evSent } ∧ s.sendEvents.nvm = s.nvm := by
  unfold State.sendEvents
  split
  · have sent : Transmits s ((s.allRecords.filter (fun r => decide (s.mir.evSent ≤ r.seq))).foldl
        (fun a r => a.mirSend 0x23 1 0 ([6] ++ r.bytes)) s) := .foldl (fun a r => transmits_mirSend a _ _ _ _) _ s
    exact ⟨by dsimp only; rw [sent.mir], sent.nvm⟩
  · exact ⟨rfl, rfl⟩

/-- Marks that a beat raises. -/
def raisedMarks (v : Vector Nat 64) (marks : List Checkpoint) : Vector Nat 64 :=
  marks.foldl (fun (v : Vector Nat 64) c => v.set c.tenant (max v[c.tenant] c.index.toNat)) v

theorem raisedMark (v : Vector Nat 64) (c : Checkpoint) (t : Tid) :
    (v.set c.tenant (max v[c.tenant] c.index.toNat))[t] = if t = c.tenant then max v[t] c.index.toNat else v[t] := by
  by_cases own : t = c.tenant
  · subst own
    simp
  · have apart : (c.tenant : Nat) ≠ t := fun same => own (Fin.ext same.symm)
    simp [Vector.getElem_set_ne, apart, own]

/-- Marks move up, never down, and as far as the beat says (R465). -/
theorem raisedMarks_up (marks : List Checkpoint) (v : Vector Nat 64) :
    (∀ t : Tid, v[t] ≤ (raisedMarks v marks)[t]) ∧ ∀ c ∈ marks, c.index.toNat ≤ (raisedMarks v marks)[c.tenant] := by
  induction marks generalizing v with
  | nil => exact ⟨fun _ => Nat.le_refl _, fun c listed => absurd listed List.not_mem_nil⟩
  | cons c r ih =>
    obtain ⟨up, reached⟩ := ih (v.set c.tenant (max v[c.tenant] c.index.toNat))
    refine ⟨fun t => Nat.le_trans ?_ (up t), fun x listed => ?_⟩
    · rw [raisedMark]
      split
      · exact Nat.le_max_left ..
      · exact Nat.le_refl _
    · rcases List.mem_cons.mp listed with rfl | later
      · refine Nat.le_trans ?_ (up _)
        rw [raisedMark, if_pos rfl]
        exact Nat.le_max_right ..
      · exact reached x later

/-- A beat that has arrived. -/
def State.beatTaken (s : State) (marks : List Checkpoint) : State :=
  { s with mir := { s.mir with lastRx := s.now, marks := raisedMarks s.mir.marks marks } }

theorem enterResync_keeps (s : State) : s.enterResync.mir = { s.mir with
      st := .resync, reason := 0, lastRx := s.now, backlog := [], evSent := s.aon.nextSeq, synced := Vector.replicate 64 false } ∧
    s.enterResync.nvm = s.nvm ∧ s.enterResync.regs = s.regs := by
  unfold State.enterResync
  dsimp only
  split
  · exact ⟨(transmits_sendLong _ _).mir, (transmits_sendLong _ _).nvm, State.sendLong_regs ..⟩
  · exact ⟨rfl, rfl, rfl⟩

theorem unpair_keeps (s : State) (reason : BitVec 3) : (s.unpair reason).mir.lastRx = s.mir.lastRx ∧
    (s.unpair reason).mir.marks = s.mir.marks := by
  unfold State.unpair
  dsimp only
  split
  · rw [State.raise_mir]
    exact ⟨rfl, rfl⟩
  · rw [State.raiseRecStatus_mir]
    exact ⟨rfl, rfl⟩

theorem pairCheck_marks (s : State) (fresh : s.mir.lastRx = s.now) : s.pairCheck.mir.lastRx = s.now ∧ s.pairCheck.mir.marks = s.mir.marks := by
  obtain ⟨mir, -, -⟩ := enterResync_keeps s
  have left (r : BitVec 3) : (s.unpair r).mir.lastRx = s.now ∧ (s.unpair r).mir.marks = s.mir.marks :=
    ⟨(unpair_keeps s r).1.trans fresh, (unpair_keeps s r).2⟩
  unfold State.pairCheck
  dsimp only
  split
  · exact ⟨fresh, rfl⟩
  · split
    · split
      · rw [mir]
        exact ⟨rfl, rfl⟩
      · split
        · exact left _
        · exact ⟨fresh, rfl⟩
    · split
      · exact ⟨fresh, rfl⟩
      · exact left _

/-- A beat that arrives sets its marks and the time, whatever the pair does of it. -/
theorem exec_mirBeat_taken (runs : s.fabricRuns = true) (on : s.mir.st ≠ .off) (marks : List Checkpoint) :
    ∃ u, exec (.mirBeat marks) s = .next u ∧ u.mir.lastRx = s.now ∧ u.mir.marks = raisedMarks s.mir.marks marks ∧
      u.nvm.zones = s.nvm.zones := by
  obtain ⟨mir, nvm, -⟩ := enterResync_keeps (s.beatTaken marks)
  have again : (s.beatTaken marks).enterResync.mir.lastRx = s.now ∧
      (s.beatTaken marks).enterResync.mir.marks = raisedMarks s.mir.marks marks ∧
      (s.beatTaken marks).enterResync.nvm.zones = s.nvm.zones := by
    rw [mir, nvm]
    exact ⟨rfl, rfl, rfl⟩
  show ∃ u, execMirBeat marks s = _ ∧ _
  unfold execMirBeat
  rw [if_neg (by rw [runs, decide_eq_false on]; decide)]
  refine ⟨_, rfl, ?_⟩
  split
  · split
    · exact ⟨rfl, rfl, rfl⟩
    · exact again
  · exact again
  · obtain ⟨lastRx, marks'⟩ := pairCheck_marks (s.beatTaken marks) rfl
    exact ⟨lastRx, marks', (stored_pairCheck _ (.rfl' (s.beatTaken marks))).zones_chains.1⟩
  · exact ⟨rfl, rfl, rfl⟩

/-! ## Silence, power loss and space (14 R460, R462) -/

theorem exec_partnerSilence_leaves (active : s.active = true) (paired : s.paired = true) (silent : s.mir.lastRx + 20000 ≤ s.now) :
    exec .partnerSilence s = .next (s.mirLeave .separated 0#3) :=
  congrArg Host.Outcome.next (if_pos (by rw [active, paired, decide_eq_true silent]; rfl))

theorem exec_powerLoss_leaves (runs : s.fabricRuns = true) (paired : s.paired = true) : exec .powerLoss s =
    .next ((s.mirLeave .partnerDown 0#3).record (bitCode pMIR 3) 1 noTenant
      (leBytes 4 (s.mirLeave .partnerDown 0#3).hdr[pMIR].intStatus.toNat)) :=
  congrArg Host.Outcome.next (if_pos (by rw [runs, paired]; rfl))

theorem exec_spaceRetry_tries (runs : s.fabricRuns = true) (apart : s.mir.st = .separated) (space : s.mir.reason = 5#3)
    (late : s.mir.spaceAt + 60000000 ≤ s.now) : exec .spaceRetry s = .next s.enterResync :=
  congrArg Host.Outcome.next (if_pos (by rw [runs, apart, space, decide_eq_true late]; rfl))

theorem mirLeave_mir (s : State) (st : MirSt) (reason : BitVec 3) : (s.mirLeave st reason).mir = { s.mir with
    st := st, reason := reason, separations := satInc s.mir.separations, backlog := [], synced := Vector.replicate 64 false,
    spaceAt := if reason = 5#3 then s.now else s.mir.spaceAt } := State.raise_mir ..

end Beats

/-! ## Resynchronisation (14 R467 to R469) -/

section Resync

variable {s : State}

theorem transmits_sendZoneState (s : State) (id : Nat) (z : Zone) : Transmits s (s.sendZoneState id z) := by
  have maybe {a : State} (p : Prop) [Decidable p] (k : Byte) (b : List Byte) :
      Transmits a (if p then a.mirSend 0x23 1 z.owner ([k] ++ b) else a) := by
    split
    · exact transmits_mirSend a _ _ _ _
    · exact .rfl' a
  unfold State.sendZoneState
  dsimp only
  split
  · exact ((maybe _ 1 _).trans (maybe _ 2 _)).trans (transmits_mirSend _ _ _ _ _)
  · exact (maybe _ 1 _).trans (maybe _ 2 _)

/-- A tenant's resynchronisation: its verdict is in, and the pair stays where it was. -/
theorem resyncTenant_keeps (s : State) (cps : List Checkpoint) (t : Tid) :
    (s.resyncTenant cps t).mir.st = s.mir.st ∧ (s.resyncTenant cps t).mir.reason = s.mir.reason ∧
    (s.resyncTenant cps t).mir.synced = s.mir.synced.set t true ∧ (s.resyncTenant cps t).regs = s.regs := by
  have sent : ∃ v : State, Transmits s v ∧ (s.resyncTenant cps t).mir.st = v.mir.st ∧
      (s.resyncTenant cps t).mir.reason = v.mir.reason ∧ (s.resyncTenant cps t).mir.synced = v.mir.synced.set t true ∧
      (s.resyncTenant cps t).regs = v.regs := by
    unfold State.resyncTenant
    generalize s.agree t (cps.filter (fun c => c.tenant = t)) = agreement
    obtain ⟨point, newest⟩ := agreement
    dsimp only
    refine ⟨_, ?_, rfl, rfl, rfl, rfl⟩
    refine Transmits.trans ?_ (.foldl (fun a (z : Nat × Zone) => transmits_sendZoneState a z.1 z.2) _ _)
    refine Transmits.trans ?_ (.foldl (fun a (e : Nat × AppRec) => transmits_mirSend a 0x21 1 t (appendPayload e.1 e.2)) _ _)
    exact transmits_sendLong _ _
  obtain ⟨v, ⟨_, _, _, rfl⟩, st, reason, synced, regs⟩ := sent
  exact ⟨st, reason, synced, regs⟩

theorem synced_set (v : Vector Bool 64) (x t : Tid) : (v.set x true)[t] = (decide (t = x) || v[t]) := by
  by_cases own : t = x
  · subst own
    simp
  · have apart : (x : Nat) ≠ t := fun same => own (Fin.ext same.symm)
    simp [Vector.getElem_set_ne, apart, own]

/-- Every tenant a resynchronisation takes has its verdict at the end. -/
theorem resyncTenants_keeps (cps : List Checkpoint) (l : List Tid) (s : State) :
    (l.foldl (fun a t => a.resyncTenant cps t) s).mir.st = s.mir.st ∧
    (l.foldl (fun a t => a.resyncTenant cps t) s).mir.reason = s.mir.reason ∧
    ∀ t, t ∈ l ∨ s.mir.synced[t] = true → (l.foldl (fun a t => a.resyncTenant cps t) s).mir.synced[t] = true := by
  induction l generalizing s with
  | nil => exact ⟨rfl, rfl, fun t taken => taken.resolve_left List.not_mem_nil⟩
  | cons x r ih =>
    obtain ⟨st, reason, synced, -⟩ := resyncTenant_keeps s cps x
    obtain ⟨st', reason', synced'⟩ := ih (s.resyncTenant cps x)
    refine ⟨st'.trans st, reason'.trans reason, fun t taken => synced' t ?_⟩
    rw [synced, synced_set]
    rcases taken with listed | before
    · rcases List.mem_cons.mp listed with rfl | later
      · exact .inr (by simp)
      · exact .inl later
    · exact .inr (by rw [before, Bool.or_true])

/-- The pair settles in IN_SYNC or stays; verdicts stay. -/
theorem settleSync_keeps (s : State) : (s.settleSync.mir.st = s.mir.st ∧ s.settleSync.mir.reason = s.mir.reason ∨
    s.settleSync.mir.st = .inSync ∧ s.settleSync.mir.reason = 0#3) ∧ s.settleSync.mir.synced = s.mir.synced := by
  unfold State.settleSync
  split
  · rw [(transmits_sendLong _ _).mir, State.raise_mir]
    exact ⟨.inr ⟨rfl, rfl⟩, rfl⟩
  · exact ⟨.inl ⟨rfl, rfl⟩, rfl⟩

theorem exec_mirSyncReq_pairs (runs : s.fabricRuns = true) (windward : s.windward = true) (reason : s.pairReason = 0#3)
    (cps : List Checkpoint) : exec (.mirSyncReq cps) s =
      .next ((allTids.filter s.mirrored).foldl (fun a t => a.resyncTenant cps t) s.enterResync).settleSync := by
  show execMirSyncReq cps s = _
  unfold execMirSyncReq
  rw [if_neg (by rw [runs, windward, reason]; decide)]

theorem markDiverged_mir (s : State) (t : Tid) (p : Nat) : (s.markDiverged t p).mir = s.mir := by
  unfold State.markDiverged
  refine foldl_same (part := State.mir) (fun a z => ?_) _ s
  dsimp only
  rw [State.raiseRec_mir, State.drawn_mir]
  rfl

/-- The verdicts of a response, tenant by tenant. -/
def State.verdictsTaken (s : State) (vs : List SyncVerdict) : State :=
  vs.foldl (fun a v => if v.diverged then a.markDiverged v.tenant v.point.toNat else a) s

theorem verdictsTaken_mir (s : State) (vs : List SyncVerdict) : (s.verdictsTaken vs).mir = s.mir := by
  unfold State.verdictsTaken
  refine foldl_same (part := State.mir) (fun a v => ?_) vs s
  split
  · exact markDiverged_mir a _ _
  · rfl

theorem verdictsTaken_agreed {vs : List SyncVerdict} (agreed : vs.any (fun v => v.diverged) = false) (s : State) :
    s.verdictsTaken vs = s := by
  induction vs generalizing s with
  | nil => rfl
  | cons v r ih =>
    obtain ⟨here, later⟩ := (Bool.or_eq_false_iff ..).mp (List.any_cons ▸ agreed)
    unfold State.verdictsTaken at ih ⊢
    rw [List.foldl_cons, if_neg (by rw [here]; exact Bool.false_ne_true)]
    exact ih later s

/-- The leeward is in step (R469). -/
def State.syncDone (s : State) : State := ({ s with mir := { s.mir with st := .inSync, reason := 0 } } : State).raise pMIR 1

theorem exec_mirSyncRsp_taken (runs : s.fabricRuns = true) (leeward : s.leeward = true) (resync : s.mir.st = .resync)
    (vs : List SyncVerdict) : exec (.mirSyncRsp vs) s =
      .next (if vs.any (fun v => v.done) then (s.verdictsTaken vs).syncDone else s.verdictsTaken vs) := by
  show execMirSyncRsp vs s = _
  unfold execMirSyncRsp
  exact if_neg (by rw [runs, leeward, resync]; decide)

end Resync

/-- Settles O59: one equation for each packet and each time, and what it leaves of the pair. -/
theorem thePairStaysInStep : Obligations.ThePairStaysInStep := by
  unfold Obligations.ThePairStaysInStep
  refine ⟨fun s => ⟨fun beats due => ?beat, fun marks runs on => ?marks, fun active paired silent => ?silence,
    fun runs paired => ?power, fun runs apart space late => ?space⟩,
    fun s runs => ⟨fun cps windward reason => ?request, fun vs leeward resync => ?response⟩⟩
  case beat =>
    obtain ⟨v, step, mir, nvm⟩ := exec_mirBeatSend_due beats due
    obtain ⟨mir', nvm'⟩ := sendEvents_keeps v
    refine ⟨_, step, ?_⟩
    rw [mir', mir, nvm', nvm]
    refine ⟨rfl, rfl, rfl, fun t windward mirrored => ?_⟩
    show (if s.windward then s.beatMarks else s.mir.sent)[t] = _
    rw [if_pos windward, beatMarks_mirrored mirrored]
  case marks =>
    obtain ⟨u, step, lastRx, marks', zones⟩ := exec_mirBeat_taken runs on marks
    obtain ⟨up, reached⟩ := raisedMarks_up marks s.mir.marks
    rw [← marks'] at up reached
    exact ⟨u, step, lastRx, zones, up, reached⟩
  case silence =>
    refine ⟨_, exec_partnerSilence_leaves active paired silent, mirLeave_mir .., ?_, State.raise_nvm ..⟩
    exact raise_bit _ _ _ (by decide) (by decide) (by decide)
  case power =>
    refine ⟨_, exec_powerLoss_leaves runs paired, ?_, ?_, record_keeps _ _ _ _ _ _ _ ?_, ?_⟩
    · rw [State.record_mir, mirLeave_mir]
    · rw [State.record_mir, mirLeave_mir]
    · exact raise_bit _ _ _ (by decide) (by decide) (by decide)
    · rw [(stored_record _ _ _ _ _ (.rfl' (s.mirLeave .partnerDown 0#3))).zones_chains.1]
      exact (congrArg Nvm.zones (State.raise_nvm ..) :)
  case space =>
    obtain ⟨mir, nvm, -⟩ := enterResync_keeps s
    refine ⟨_, exec_spaceRetry_tries runs apart space late, ?_⟩
    rw [mir]
    exact ⟨rfl, rfl, nvm⟩
  case request =>
    obtain ⟨mir, -, -⟩ := enterResync_keeps s
    obtain ⟨st, reason', synced⟩ := resyncTenants_keeps cps (allTids.filter s.mirrored) s.enterResync
    obtain ⟨settled, synced'⟩ := settleSync_keeps ((allTids.filter s.mirrored).foldl (fun a t => a.resyncTenant cps t) s.enterResync)
    rw [st, reason', mir] at settled
    refine ⟨_, exec_mirSyncReq_pairs runs windward reason cps, ?_, ?_, fun t mirrored => ?_⟩
    · exact settled.elim And.right And.right
    · exact settled.imp And.left And.left
    · rw [synced']
      exact synced t (.inl (List.mem_filter.mpr ⟨List.mem_finRange t, mirrored⟩))
  case response =>
    refine ⟨_, exec_mirSyncRsp_taken runs leeward resync vs, fun done => ?_, fun open_ => ?_, fun agreed => ?_⟩
    · rw [if_pos done, State.syncDone, State.raise_mir]
      exact ⟨rfl, rfl, raise_bit _ _ _ (by decide) (by decide) (by decide)⟩
    · rw [if_neg (by rw [open_]; exact Bool.false_ne_true), verdictsTaken_mir]
    · rw [verdictsTaken_agreed agreed]
      split
      · rw [State.syncDone, State.raise_nvm]
      · rfl

end Sys2Proof.Machine
end

section
/-! PROOFS. Appends are mirrored (O60). -/
namespace Sys2Proof.Machine

/-! ## MIR_APPEND at the leeward (14 R461 to R463, R466) -/

section Append

variable {s : State} {a : MirAppend} {d : BoardDesc}

/-- An append that finds its place is the newest entry of its replica. -/
theorem applyAppend_stores {z : Nat} {x : Zone} {u : State} (held : s.zone z = some x) (applied : s.applyAppend d a z x = some u) :
    ∃ y, u.zone z = some y ∧ y.wp = a.offset + blocksOf a.len ∧ y.st = .open_ ∧
      y.log = x.log ++ [recordOfAppend a ((x.log.getLast?.map (fun e => e.head)).getD 0)] := by
  unfold State.applyAppend at applied
  dsimp only at applied
  split at applied
  · cases applied
  · next hs s1 taken =>
    split at applied
    · cases applied
    · split at applied
      · cases applied
      · next s2 placed =>
        have same := stored_countDirty _ hs (stored_rtRequest _ ((stored_placeIn s1 d 2 2 _
          ((stored_allocAll s .mirror _ (.rfl' s)).elim taken)).elim placed))
        have kept : (s2.rtRequest.countDirty hs).zone z = some x := (congrArg (fun m => KMap.find m z) same.zones :).trans held
        rw [← Option.some.inj applied]
        refine ⟨_, zone_of_upd (f := fun y => { y with
          log := y.log ++ [recordOfAppend a ((x.log.getLast?.map (fun y => y.head)).getD 0)], wp := a.offset + blocksOf a.len,
          firstT := if y.log = [] then s.opSecs else y.firstT, lastT := s.opSecs, st := .open_ }) kept ?_, rfl, rfl, rfl⟩
        exact (congrArg Nvm.zones (transmits_sendPkt _ _).nvm :)

section Leeward

variable (desc : s.boot.desc = some d) (runs : s.fabricRuns = true) (leeward : s.leeward = true) (paired : s.paired = true)
include desc runs leeward paired

theorem exec_mirAppend_stores {z : Nat} {s1 s2 : State} {x : Zone}
    (new : ∀ k y, s.replica a.tenant a.zone.toNat = some (k, y) → ∀ e ∈ y.log, e.index ≠ a.index.toNat)
    (place : s.replicaFor a = some (z, s1)) (held : s1.zone z = some x) (room : s.mayCount (blocksOf a.len) = true)
    (applied : s1.applyAppend d a z x = some s2) : exec (.mirAppend a) s = .next s2 := by
  show execMirAppend a s = _
  unfold execMirAppend
  rw [desc]
  dsimp only
  rw [if_neg (by rw [runs, leeward, paired]; decide), if_neg ?unknown, place]
  · dsimp only
    rw [held]
    dsimp only
    rw [if_neg (by rw [room]; decide), applied]
  case unknown =>
    split
    · next k y found =>
      have absent : y.log.any (fun e => decide (e.index = a.index.toNat) && decide (e.head = a.head)) = false :=
        List.any_eq_false.mpr (fun e listed => by simp [new k y found e listed])
      rw [absent, Bool.and_false]
      exact Bool.false_ne_true
    · exact Bool.false_ne_true

theorem exec_mirAppend_again {z : Nat} {x : Zone} {e : AppRec} (found : s.replica a.tenant a.zone.toNat = some (z, x))
    (whole : x.diverged = false) (gen : x.originGen = a.gen) (listed : e ∈ x.log) (index : e.index = a.index.toNat) (head : e.head = a.head) :
    exec (.mirAppend a) s = .next (s.sendAccept a.tenant a.index.toNat false) := by
  have present : x.log.any (fun e => decide (e.index = a.index.toNat) && decide (e.head = a.head)) = true :=
    List.any_eq_true.mpr ⟨e, listed, by simp [index, head]⟩
  show execMirAppend a s = _
  unfold execMirAppend
  rw [desc]
  dsimp only
  rw [if_neg (by rw [runs, leeward, paired]; decide), if_pos]
  rw [found]
  dsimp only
  rw [whole, gen, present]
  simp

theorem exec_mirAppend_full (none_ : s.replica a.tenant a.zone.toNat = none) (full : s.unowned = none) :
    exec (.mirAppend a) s = .next ((s.sendAccept a.tenant a.index.toNat true).mirLeave .separated 5#3) := by
  have nowhere : s.replicaFor a = none := by
    unfold State.replicaFor
    rw [none_]
    show State.replicaFor.fresh s a = none
    unfold State.replicaFor.fresh
    rw [full, Option.map_none]
  show execMirAppend a s = _
  unfold execMirAppend
  rw [desc]
  dsimp only
  rw [if_neg (by rw [runs, leeward, paired]; decide), if_neg (by rw [none_]; exact Bool.false_ne_true), nowhere]

end Leeward

end Append

/-! ## Retractions (14 R465) -/

section Retract

variable {s : State}

/-- An entry a retraction takes back: at or above the index, and above the mark. -/
def State.retracts (s : State) (t : Tid) (index : DWord) (e : AppRec) : Bool :=
  decide (index.toNat ≤ e.index) && decide (s.mir.marks[t] < e.index)

/-- A replica without the entries a retraction takes back. -/
def Zone.retracted (t : Tid) (gone : AppRec → Bool) (z : Zone) : Zone :=
  if z.owner = t && z.replica && !z.diverged && z.log.any gone then
    { z with log := z.log.filter (fun e => !gone e),
             wp := (z.log.filter (fun e => !gone e)).foldl (fun a e => max a (e.offset + blocksOf e.len)) 0 }
  else z

theorem exec_mirRetract_runs (runs : s.fabricRuns = true) (leeward : s.leeward = true) (paired : s.paired = true) (t : Tid)
    (index : DWord) : ∃ m, exec (.mirRetract t index) s = .next
      { s with nvm := { s.nvm with zones := s.nvm.zones.mapv (fun _ z => z.retracted t (s.retracts t index)), sbs := m } } := by
  show ∃ m, execMirRetract t index s = _
  unfold execMirRetract
  rw [if_neg (by rw [runs, leeward, paired]; decide)]
  exact ⟨_, rfl⟩

/-- A replica of the tenant keeps no entry that a retraction takes back. -/
theorem retracted_clean {t : Tid} {gone : AppRec → Bool} {z : Zone} (owner : (z.retracted t gone).owner = t)
    (replica : (z.retracted t gone).replica = true) (live : (z.retracted t gone).diverged = false) {e : AppRec}
    (listed : e ∈ (z.retracted t gone).log) : gone e = false := by
  unfold Zone.retracted at owner replica live listed
  split at listed
  · simpa using (List.mem_filter.mp listed).2
  · next other =>
    rw [if_neg other] at owner replica live
    rw [owner, replica, live] at other
    simp only [decide_true, Bool.not_false, Bool.true_and, Bool.not_eq_true] at other
    exact Bool.eq_false_iff.mpr (List.any_eq_false.mp other e listed)

end Retract

/-! ## MIR_STATE (14 R461) -/

section Items

variable {s : State}

theorem exec_mirState_applies (runs : s.fabricRuns = true) (leeward : s.leeward = true) (paired : s.paired = true) (item : MirItem) :
    exec (.mirState item) s = .next (s.applyItem item) :=
  congrArg Host.Outcome.next (if_pos (by rw [runs, leeward, paired]; rfl))

/-- FINISH finishes the open replica it names. -/
theorem applyItem_finish {t : Tid} {zone : BitVec 20} {k : Nat} {x : Zone} (found : s.replica t zone.toNat = some (k, x))
    (live : x.diverged = false) (st : x.st = .open_) : s.applyItem (.finish t zone) = s.updZone k (fun y => y.finish s.opSecs) := by
  unfold State.applyItem State.onReplica
  dsimp only
  rw [found]
  dsimp only
  rw [if_neg (by rw [live]; exact Bool.false_ne_true), if_pos st]

end Items

/-! ## Acceptance at the windward (14 R463) -/

section Accept

variable {s : State}

/-- The entry of an index is accepted. -/
def State.entryAccepted (s : State) (t : Tid) (n : Nat) : State :=
  match s.entryAt t n with
  | some (z, _) => s.updEntry z n (fun e => { e with accepted := true })
  | none => s

/-- What is accepted is owed no more. -/
def State.backlogLess (s : State) (t : Tid) (n : Nat) : State :=
  { s with mir := { s.mir with backlog := s.mir.backlog.filter (fun b => !(b.1 = t.1 && b.2 = n)) } }

theorem exec_mirAccept_accepts (runs : s.fabricRuns = true) (windward : s.windward = true) (paired : s.paired = true) (t : Tid)
    (index : DWord) : exec (.mirAccept t index false) s =
      .next ((s.entryAccepted t index.toNat).backlogLess t index.toNat).settleSync := by
  show execMirAccept t index false s = _
  unfold execMirAccept
  rw [if_neg (by rw [runs, windward, paired]; decide), if_neg Bool.false_ne_true]
  rfl

theorem exec_mirAccept_refused (runs : s.fabricRuns = true) (windward : s.windward = true) (paired : s.paired = true) (t : Tid)
    (index : DWord) : exec (.mirAccept t index true) s = .next (s.mirLeave .separated 5#3) := by
  show execMirAccept t index true s = _
  unfold execMirAccept
  rw [if_neg (by rw [runs, windward, paired]; decide), if_pos rfl]

theorem entryAccepted_mir (s : State) (t : Tid) (n : Nat) : (s.entryAccepted t n).mir = s.mir := by
  unfold State.entryAccepted
  split
  · rfl
  · rfl

/-- The entry that an acceptance names holds it. -/
theorem entryAccepted_zone {t : Tid} {n k : Nat} {e : AppRec} {z : Zone} (found : s.entryAt t n = some (k, e)) (held : s.zone k = some z)
    (listed : e ∈ z.log) :
    ∃ z' e', (s.entryAccepted t n).zone k = some z' ∧ e' ∈ z'.log ∧ e'.index = n ∧ e'.accepted = true := by
  have index : e.index = n := by simpa using List.find?_some found
  unfold State.entryAccepted
  rw [found]
  refine ⟨_, { e with accepted := true }, zone_of_upd (f := fun x => { x with
    log := x.log.map (fun e => if e.index = n then { e with accepted := true } else e) }) held rfl, List.mem_map.mpr ⟨e, listed, if_pos index⟩, index, rfl⟩

/-- Settling keeps what is owed, and what is accepted. -/
theorem settleSync_accepted (s : State) : s.settleSync.mir.backlog = s.mir.backlog ∧
    ∀ k z e, s.zone k = some z → e ∈ z.log → e.accepted = true →
      ∃ z' e', s.settleSync.zone k = some z' ∧ e' ∈ z'.log ∧ e'.index = e.index ∧ e'.accepted = true := by
  unfold State.settleSync
  split
  · refine ⟨?_, fun k z e held listed accepted => ?_⟩
    · rw [(transmits_sendLong _ _).mir, State.raise_mir]
    · unfold State.zone
      rw [(transmits_sendLong _ _).nvm, State.raise_nvm, KMap.find_mapv, show KMap.find s.nvm.zones k = some z from held]
      refine ⟨_, { e with accepted := true }, rfl, ?_, rfl, rfl⟩
      dsimp only
      split
      · exact List.mem_map_of_mem listed
      · cases e
        cases accepted
        exact listed
  · exact ⟨rfl, fun k z e held listed accepted => ⟨z, e, held, listed, rfl, accepted⟩⟩

end Accept

/-- Settles O60: one equation for each packet, and the entries each leaves. -/
theorem appendsAreMirrored : Obligations.AppendsAreMirrored := by
  unfold Obligations.AppendsAreMirrored
  refine fun s runs paired => ⟨fun leeward => ⟨fun a d z s1 x s2 desc new place held room applied => ?store,
      fun a d z x e desc found whole gen listed index head =>
        exec_mirAppend_again desc runs leeward paired found whole gen listed index head,
      fun a d desc none_ full => ?full, fun t index => ?retract, exec_mirState_applies runs leeward paired, fun slots lock => ?owner,
      fun t zone k x found held live st => ?finish⟩,
    fun windward t index => ⟨?accept, ?refused⟩⟩
  case store => exact ⟨exec_mirAppend_stores desc runs leeward paired new place held room applied, applyAppend_stores held applied⟩
  case full =>
    refine ⟨_, exec_mirAppend_full desc runs leeward paired none_ full, ?_⟩
    have sent : Transmits s (s.sendAccept a.tenant a.index.toNat true) := transmits_sendPkt s _
    rw [mirLeave_mir]
    refine ⟨rfl, rfl, ?_, (State.raise_nvm ..).trans sent.nvm⟩
    obtain ⟨_, _, _, same⟩ := sent
    rw [same]
    rfl
  case retract =>
    obtain ⟨m, step⟩ := exec_mirRetract_runs runs leeward paired t index
    refine ⟨_, step, fun z x held owner replica live e listed => ?_, rfl, rfl⟩
    unfold State.zone at held
    rw [KMap.find_mapv] at held
    obtain ⟨y, -, rfl⟩ := Option.map_eq_some_iff.mp held
    have kept := retracted_clean owner replica live listed
    unfold State.retracts at kept
    rcases (Bool.and_eq_false_iff ..).mp kept with below | marked
    · exact .inl (Nat.not_le.mp (of_decide_eq_false below))
    · exact .inr (Nat.not_lt.mp (of_decide_eq_false marked))
  case owner => exact ⟨_, exec_mirState_applies runs leeward paired _, rfl, rfl, rfl⟩
  case finish =>
    refine ⟨_, exec_mirState_applies runs leeward paired _, ?_⟩
    rw [applyItem_finish found live st]
    exact zone_of_upd (u := s.updZone k (fun y => y.finish s.opSecs)) (f := fun y => y.finish s.opSecs) held rfl
  case accept =>
    obtain ⟨backlog, accepted⟩ := settleSync_accepted ((s.entryAccepted t index.toNat).backlogLess t index.toNat)
    refine ⟨_, exec_mirAccept_accepts runs windward paired t index, fun b owed => ?_, fun k z e found held listed => ?_⟩
    · rw [backlog] at owed
      simpa [imp_iff_not_or] using (List.mem_filter.mp owed).2
    · obtain ⟨z1, e1, held', listed', index', accepted'⟩ := entryAccepted_zone found held listed
      obtain ⟨z2, e2, held2, listed2, index2, accepted2⟩ := accepted k z1 e1 held' listed' accepted'
      exact ⟨z2, e2, held2, listed2, index2.trans index', accepted2⟩
  case refused =>
    refine ⟨_, exec_mirAccept_refused runs windward paired t index, ?_⟩
    rw [mirLeave_mir]
    exact ⟨rfl, rfl, rfl, raise_bit _ _ _ (by decide) (by decide) (by decide), State.raise_nvm ..⟩

end Sys2Proof.Machine
end
